-- ==== Sys2Proof/Word.lean ====
section
/-! DEFINITION. The word types of the YN9160 model and the sparse maps that hold the machine's tables:
a list of (key, value) pairs in one canonical form (keys strictly rising, no entry equal to the default). -/

namespace Sys2Proof

/-- A register, a signal or an angle in AU: 32 bits (R3, "Registers"). -/
abbrev W32 := BitVec 32

/-- The rotor accumulator with its 16 hidden fraction bits: 48 + 16 bits (R29). -/
abbrev W64 := BitVec 64

/-- A byte of host memory, of a packet or of a buffer. -/
abbrev Byte := BitVec 8

/-- A table of values by number, holding only the entries that differ from a default the reader supplies. -/
structure SMap (α : Type) where
  cells : List (Nat × α)
deriving DecidableEq, Repr

namespace SMap

/-- The map whose every entry is the default. -/
def empty {α : Type} : SMap α := ⟨[]⟩

/-- The entry listed for a key, if one is. -/
def lookup {α : Type} : List (Nat × α) → Nat → Option α
  | [], _ => none
  | (k, v) :: rest, key => if k = key then some v else lookup rest key

/-- The value of key `k`, `d` where none is listed. -/
def get {α : Type} (m : SMap α) (d : α) (k : Nat) : α := (lookup m.cells k).getD d

/-- The list with key `k` given the value `v`, keys kept rising. -/
def insertCell {α : Type} (k : Nat) (v : α) : List (Nat × α) → List (Nat × α)
  | [] => [(k, v)]
  | (k', v') :: rest =>
    if k < k' then (k, v) :: (k', v') :: rest
    else if k = k' then (k, v) :: rest
    else (k', v') :: insertCell k v rest

/-- The list without key `k`. -/
def eraseCell {α : Type} (k : Nat) : List (Nat × α) → List (Nat × α)
  | [] => []
  | (k', v') :: rest => if k = k' then eraseCell k rest else (k', v') :: eraseCell k rest

/-- The map with key `k` given the value `v`; the default is stored as no entry at all. -/
def set {α : Type} [DecidableEq α] (m : SMap α) (d : α) (k : Nat) (v : α) : SMap α :=
  if v = d then ⟨eraseCell k m.cells⟩ else ⟨insertCell k v m.cells⟩

/-- Keys strictly rising. -/
def rising {α : Type} : List (Nat × α) → Bool
  | [] => true
  | [_] => true
  | (k, _) :: (k', v') :: rest => decide (k < k') && rising ((k', v') :: rest)

/-- The canonical form: keys strictly rising, no entry equal to the default. -/
def wf {α : Type} [DecidableEq α] (m : SMap α) (d : α) : Bool :=
  rising m.cells && m.cells.all fun c => decide (c.2 ≠ d)

end SMap

/-- The level of an input pin, and the tick of its last change. -/
structure PinLevel where
  level : Bool
  since : Nat
deriving DecidableEq, Repr

/-- A pin that has been low from reset on. -/
def PinLevel.reset : PinLevel where
  level := false
  since := 0

/-- A pin with the level that it has at a tick. -/
def PinLevel.at (p : PinLevel) (level : Bool) (tick : Nat) : PinLevel := if level = p.level then p else ⟨level, tick⟩

end Sys2Proof
end

