-- ==== Sys2Proof/State/Adc.lean ====
section
/-! DEFINITION. State of sensing (ADC): SAR channels, sigma-delta streams and filters, calibration, comparators and
failure detection. -/

namespace Sys2Proof

/-- Calibration of one entry (R307): OFS in X units and GAIN in Q7.24. -/
structure Calib where
  ofs : W32
  gain : W32
deriving DecidableEq, Repr

/-- One SAR channel. -/
structure SarChan where
  /-- The code of the last sample instant, held while the channel is failed (R302, R314). -/
  raw : Int
  /-- The result of the last sample instant has not come yet (R302). -/
  due : Bool
  /-- The sample point whose result is outstanding, and whether one has stayed without a result (R302, R313). -/
  waits : Option Nat
  missing : Bool
  /-- The signal that a failed channel holds (R314). -/
  held : W32
  /-- Window decision and the run of conversions that differ from it (R309). -/
  decision : Bool
  run : Nat
  failed : Bool
  /-- Valid conversions in a row since the channel failed (R314). -/
  good : Nat
deriving DecidableEq, Repr

/-- One sigma-delta channel (R304, R305, R310, R312). -/
structure SdChan where
  /-- Captured bits, newest first. -/
  bits : List Bool
  /-- The raw code of the last sinc3 evaluation. -/
  raw : Int
  /-- The level of SD_DAT and the tick of its last transition. -/
  level : Bool
  lastChange : Nat
  /-- Sinc2 decision and the run of evaluations that differ from it (R310). -/
  decision : Bool
  run : Nat
  /-- The latest sinc2 sum less half its range. -/
  s2 : Int
  failed : Bool
  /-- The signal that a failed channel holds (R314). -/
  held : W32
  /-- Capture edges with activity in a row since the channel failed (R314). -/
  good : Nat
  /-- A sinc3 evaluation is owed for the last sample instant (R304). -/
  due : Bool
deriving DecidableEq, Repr

structure AdcState where
  sar : SMap SarChan
  /-- Failed SAR banks (BANK_FAIL) and groups without clock (CLK_LOST), bit by bit. -/
  banks : Nat
  sd : SMap SdChan
  groups : Nat
  /-- The pad read-backs of SD_CLK_0–3 (R312). -/
  clk : SMap PinLevel
  calStaged : SMap Calib
  calActive : SMap Calib
  cal : SMap Calib
  clipCnt : Nat
  failCnt : Nat
  tripCh : Nat
  /-- Raw codes of the last sample instant whose stage 1 has completed (ADC_SNAP). -/
  rawDone : List W32
  /-- The last sample instant, the last point of its conversion grid (R301), and the stroke it belongs to (R321). -/
  gridTick : Nat
  gridEnd : Nat
  gridSn : W32
deriving DecidableEq, Repr

/-! ### Reset values (where the spec states none, the value is named in the assumption log). -/

/-- The reset value of `Calib`. -/
def Calib.reset : Calib where
  ofs := 0
  gain := 0x01000000

/-- The reset value of `SarChan`. -/
def SarChan.reset : SarChan where
  raw := 0
  due := false
  waits := none
  missing := false
  held := 0
  decision := false
  run := 0
  failed := false
  good := 0

/-- The reset value of `SdChan`. -/
def SdChan.reset : SdChan where
  bits := []
  raw := 0
  level := false
  lastChange := 0
  decision := false
  run := 0
  s2 := 0
  failed := false
  held := 0
  good := 0
  due := false

/-- The reset value of `AdcState`. -/
def AdcState.reset : AdcState where
  sar := .empty
  banks := 0
  sd := .empty
  groups := 0
  clk := .empty
  calStaged := .empty
  calActive := .empty
  cal := .empty
  clipCnt := 0
  failCnt := 0
  tripCh := 0
  rawDone := []
  gridTick := 0
  gridEnd := 0
  gridSn := 0

end Sys2Proof
end

