-- ==== Sys2Proof/State/Gfm.lean ====
section
/-! DEFINITION. State of the grid-forming machine (GFM): mode and sub-state, requests, swing and EMF quantities,
power filter, resynchronisation and breaker. -/

namespace Sys2Proof

/-- Operating modes, with the codes of GFM_STATUS.MODE. -/
inductive Mode where
  | off | standby | blackstart | forming | resync | stopping | tripped
deriving DecidableEq, Repr

/-- Ride-through sub-states (R58). -/
inductive Sub where
  | normal | limit | frtLow | frtHigh | recover
deriving DecidableEq, Repr

/-- A mode change waiting for its machine-cycle boundary (R59, R63). -/
structure ModeReq where
  target : Mode
  finalOff : Bool
  tripAck : Bool
  cause : Nat
  /-- The tick in which it was accepted (R40). -/
  tick : Nat
deriving DecidableEq, Repr

/-- Stages of the stop sequence (R82). -/
inductive StopStage where
  | none | rampPQ | waitCurrent | rampE | blocking | done
deriving DecidableEq, Repr

/-- A condition that must hold at every sample instant of one machine cycle (R539): the cycle has been watched from
its first stroke, the condition held so far, and it was met in a completed cycle. -/
structure CycleHold where
  watching : Bool
  ok : Bool
  met : Bool
deriving DecidableEq, Repr

/-- What the machine level reads at the sample instant of a cycle's first stroke (R67, R70, R75). -/
structure McInput where
  sampleTick : Nat
  sn : W32
  mode : Mode
  held : Bool
  /-- ω in force during the cycle, as a frequency word (R67). -/
  wFw : Option Nat
  pRef : Int
  qRef : Int
  eSet : Int
  wRef : Int
  phi : W32
  vNr : Int
  vFar : Int
  fFar : Int
  dTheta : Int
  /-- The p and q of the most recent M sample instants (R66). -/
  hist : List (Int × Int)
deriving DecidableEq, Repr

/-- What the machine level has computed of one machine cycle, as GFM_SNAP captures it. -/
structure McShown where
  pe : Int
  qe : Int
  dTheta : Int
  dF : Int
  dV : Int
  eps : Int
deriving DecidableEq, Repr

structure GfmState where
  mode : Mode
  sub : Sub
  cause : Nat
  req : Option ModeReq
  auto : Option ModeReq
  finalOff : Bool
  entryTick : Nat
  /-- ω, E and φ in force (R72) and those computed for the next machine cycle. -/
  omega : Option Nat
  e : Int
  phi : W32
  next : Option (Option Nat × Int × W32)
  eps : Int
  pe : Int
  qe : Int
  /-- The p and q of the most recent sample instants, newest first (R66). -/
  hist : List (Int × Int)
  /-- States (s1, s2) of section 0 and 1 of the power filter, for p then q (R66). -/
  pf : List (Int × Int)
  eAtLim : Bool
  epsAtLim : Bool
  swingHeld : Bool
  mcDue : Option McInput
  /-- The quantities of the machine cycle in progress (GFM_SNAP). -/
  shown : McShown
  /-- Conditions of R539: in BLACKSTART, and in STOPPING. -/
  hold : CycleHold
  stop : StopStage
  /-- The stroke from which a stop sequence commands BLOCK (R82), once known. -/
  stopSn : Option W32
  standbyLost : Bool
  /-- R60: the sub-state that the next entry into FORMING takes, with V_pre and i_r0 frozen. -/
  frtEntry : Option Sub
  /-- R75, R76 -/
  dTheta : Int
  dF : Int
  dV : Int
  ready : Bool
  holdStart : Option Nat
  /-- R78, R79 -/
  bkrClose : Bool
  pulseEnd : Option Nat
  /-- The start of the first close that has had no feedback yet. -/
  attempt : Option Nat
  failures : Nat
  bkrFb : Bool
deriving DecidableEq, Repr

/-! ### Reset values (where the spec states none, the value is named in the assumption log). -/

/-- The reset value of `CycleHold`. -/
def CycleHold.reset : CycleHold where
  watching := false
  ok := true
  met := false

/-- The reset value of `McShown`. -/
def McShown.reset : McShown where
  pe := 0
  qe := 0
  dTheta := 0
  dF := 0
  dV := 0
  eps := 0

/-- The reset value of `GfmState`. -/
def GfmState.reset : GfmState where
  mode := .off
  sub := .normal
  cause := 0
  req := none
  auto := none
  finalOff := false
  entryTick := 0
  omega := none
  e := 0
  phi := 0
  next := none
  eps := 0
  pe := 0
  qe := 0
  hist := []
  pf := []
  eAtLim := false
  epsAtLim := false
  swingHeld := false
  mcDue := none
  shown := McShown.reset
  hold := CycleHold.reset
  stop := .none
  stopSn := none
  standbyLost := false
  frtEntry := none
  dTheta := 0
  dF := 0
  dV := 0
  ready := false
  holdStart := none
  bkrClose := false
  pulseEnd := none
  attempt := none
  failures := 0
  bkrFb := false

end Sys2Proof
end

