-- ==== Sys2Proof/State/Loop.lean ====
section
/-! DEFINITION. State of the loop engine (LOOP): the signal bus, cascade states, banks, tables, region and counters. -/

namespace Sys2Proof

/-- Coefficients of one section, Q4.27 (R138). -/
structure Coef where
  b0 : W32
  b1 : W32
  b2 : W32
  a1 : W32
  a2 : W32
deriving DecidableEq, Repr

/-- States of one section, Q7.32 (R111). -/
structure Biquad where
  s1 : Int
  s2 : Int
deriving DecidableEq, Repr

/-- What LOOP_SNAP shows of the last completed stroke: misses, clamped and saturated cascades, and the signal bus. -/
structure LoopDone where
  misses : Nat
  clampMask : Nat
  satMask : Nat
  sig : SMap W32
deriving DecidableEq, Repr

structure LoopState where
  /-- SIG_0–SIG_511. -/
  sig : SMap W32
  /-- States of section k of cascade n, by 16 n + k. -/
  secs : SMap Biquad
  /-- Coefficient banks by 16 × cascade + bank: staged, accepted, and in force. -/
  bankStaged : SMap (List Coef)
  bankActive : SMap (List Coef)
  bank : SMap (List Coef)
  /-- Compensation tables (R126): staged, accepted, and in force. -/
  tabStaged : SMap (List (BitVec 16))
  tabActive : SMap (List (BitVec 16))
  tab : SMap (List (BitVec 16))
  /-- The coefficients each cascade last ran with (R125). -/
  used : SMap (List Coef)
  region : Nat
  col : Nat
  row : Nat
  /-- The selector places the next point without hysteresis (R123). -/
  place : Bool
  consec : Nat
  misses : Nat
  lastMiss : Bool
  /-- Injected misses still to occur (R131). -/
  inject : Nat
  /-- Clamped and saturated cascades of the last completed stroke. -/
  clampMask : Nat
  satMask : Nat
  /-- Admission result (R132): check, item, cost. -/
  admCheck : Nat
  admItem : Nat
  admCost : Nat
  /-- R116: the vector angle of each side at its previous update, and the tick of the previous machine cycle start. -/
  angNr : Option Nat
  angFar : Option Nat
  mcStart : Option Nat
  /-- The stroke number of the last completed evaluation. -/
  doneSn : W32
  done : LoopDone
deriving DecidableEq, Repr

/-! ### Reset values (where the spec states none, the value is named in the assumption log). -/

/-- The reset value of `Coef`. -/
def Coef.reset : Coef where
  b0 := 0
  b1 := 0
  b2 := 0
  a1 := 0
  a2 := 0

/-- The reset value of `Biquad`. -/
def Biquad.reset : Biquad where
  s1 := 0
  s2 := 0

/-- The reset value of `LoopDone`. -/
def LoopDone.reset : LoopDone where
  misses := 0
  clampMask := 0
  satMask := 0
  sig := .empty

/-- The reset value of `LoopState`. -/
def LoopState.reset : LoopState where
  sig := .empty
  secs := .empty
  bankStaged := .empty
  bankActive := .empty
  bank := .empty
  tabStaged := .empty
  tabActive := .empty
  tab := .empty
  used := .empty
  region := 0
  col := 0
  row := 0
  place := false
  consec := 0
  misses := 0
  lastMiss := false
  inject := 0
  clampMask := 0
  satMask := 0
  admCheck := 0
  admItem := 0
  admCost := 0
  angNr := none
  angFar := none
  mcStart := none
  doneSn := 0
  done := LoopDone.reset

end Sys2Proof
end

