-- ==== Sys2Proof/State/Mod.lean ====
section
/-! DEFINITION. State of arm modulation (MOD): arms and submodules as the device sees them. -/

namespace Sys2Proof

/-- One arm (R173, R180, R192). -/
structure Arm where
  /-- S_prev: submodules fully inserted at the end of the last stroke. -/
  members : List Nat
  tiller : Option Nat
  polNeg : Bool
  carry : Int
  iNeg : Bool
  sigmaNeg : Bool
  nIns : Nat
  nAvail : Nat
  edges : Nat
  swaps : Nat
  sat : Bool
  full : Bool
deriving DecidableEq, Repr

/-- One submodule as the device knows it (R176–R184, R240, R256). -/
structure Subm where
  /-- The state it is commanded to hold: 0 BYPASS, 1 INSERT_POS, 2 INSERT_NEG, 7 BLOCK. -/
  state : Nat
  /-- Time of its last edge, in fine ticks since reset; none before the first (R182). -/
  lastEdge : Option Nat
  /-- Fault exclusion in force, FAULT_CLEAR written for it, and a later slot without a fault (R176). -/
  faulted : Bool
  clearReq : Bool
  clean : Bool
  bypassed : Bool
  late : Bool
  /-- Strokes in a row without a late edge, and one has been reported in the stroke in progress (R176). -/
  lateFree : Nat
  lateNow : Bool
  /-- A CRC-valid glean slot has come since its string entered RUN; strokes without one since (R176). -/
  seen : Bool
  gap : Nat
  /-- The exclusions that held at the last sample instant: bit 0 faulted, 1 bypassed, 2 glean-stale, 3 late (R176); and its
  EXCL_STATE edge is made (R185). -/
  excls : Nat
  exclSent : Bool
  neutral : Bool
  lateCap : Bool
  /-- Its latest CRC-valid glean slot: status byte, fault code, fast voltage code, slot sequence. -/
  status : Nat
  fault : Nat
  fastV : Nat
  seq : Nat
  temp : Nat
  /-- Consecutive strokes in which its reports show BLOCK (R39, R82). -/
  inBlock : Bool
  urgent : Bool
  /-- LEASE of its latest slot in a frame under the string's epoch (R238). -/
  lease : Bool
deriving DecidableEq, Repr

/-- What MOD_SNAP shows of one stroke (R14): arms, excluded submodules, those with a neutral input, and the counters. -/
structure ModShown where
  arms : List Arm
  excl : List Nat
  stale : List Nat
  lateCnt : Nat
  swapCnt : Nat
  satCnt : Nat
deriving DecidableEq, Repr

structure ModState where
  arms : SMap Arm
  subs : SMap Subm
  /-- Switching was permitted in the last furrow built (R190). -/
  switching : Bool
  lateCnt : Nat
  swapCnt : Nat
  satCnt : Nat
  /-- The stroke in progress, for MOD_SNAP. -/
  shown : ModShown
deriving DecidableEq, Repr

/-! ### Reset values (where the spec states none, the value is named in the assumption log). -/

/-- The reset value of `Arm`. -/
def Arm.reset : Arm where
  members := []
  tiller := none
  polNeg := false
  carry := 0
  iNeg := false
  sigmaNeg := false
  nIns := 0
  nAvail := 0
  edges := 0
  swaps := 0
  sat := false
  full := false

/-- The reset value of `Subm`. -/
def Subm.reset : Subm where
  state := 7
  lastEdge := none
  faulted := false
  clearReq := false
  clean := false
  bypassed := false
  late := false
  lateFree := 0
  lateNow := false
  seen := false
  gap := 0
  excls := 0
  exclSent := false
  neutral := false
  lateCap := false
  status := 0
  fault := 0
  fastV := 0
  seq := 0
  temp := 0
  inBlock := false
  urgent := false
  lease := false

/-- The reset value of `ModShown`. -/
def ModShown.reset : ModShown where
  arms := []
  excl := []
  stale := []
  lateCnt := 0
  swapCnt := 0
  satCnt := 0

/-- The reset value of `ModState`. -/
def ModState.reset : ModState where
  arms := .empty
  subs := .empty
  switching := false
  lateCnt := 0
  swapCnt := 0
  satCnt := 0
  shown := ModShown.reset

end Sys2Proof
end

