-- ==== Sys2Proof/State/Ang.lean ====
section
/-! DEFINITION. State of the angle timebase (ANG): the tick count, the rotor accumulator, the stroke in progress and the
strokes whose samples are taken but which have not begun. -/

namespace Sys2Proof

/-- One edge of a furrow (R186): submodule index, new state code (0 BYPASS, 1 INSERT_POS, 2 INSERT_NEG, 7 BLOCK) and
edge time in fine ticks after the start of the stroke. -/
structure Edge where
  sub : Nat
  state : Nat
  time : Nat
deriving DecidableEq, Repr

/-- The two rankings of one arm (R181), best first, as (submodule index, key). -/
structure ArmRank where
  pos : List (Nat × Int)
  neg : List (Nat × Int)
deriving DecidableEq, Repr

/-- A stroke on the grid: its number, start tick and length T_j in ticks (R42, R173), its kind, its place among the
machine cycles, and the accumulator, FW and offset that hold from its start (R29–R47). -/
structure Grid where
  sn : W32
  start : Nat
  len : Nat
  angle : Bool
  mcFirst : Bool
  index : Nat
  /-- The accumulator after the start tick's addition, with its 16 hidden bits. -/
  acc0 : W64
  fw : Nat
  off : W32
  /-- The angles of R46. -/
  thetaS : W32
  thetaC : W32
  thetaA : W32
deriving DecidableEq, Repr

/-- The machine quantities in force in a stroke (R72): ω as a frequency word over FW_NOM, `none` for 1.0 pu (R68),
E and φ. -/
structure Mach where
  wFw : Option Nat
  e : Int
  phi : W32
deriving DecidableEq, Repr

/-- The change of mode that a machine-cycle boundary is planned to make (R40, R59, R64), and whether the host has
requested it. -/
structure ModePlan where
  req : ModeReq
  host : Bool
deriving DecidableEq, Repr

/-- The configuration with which a stroke is evaluated and built: registers, banks, tables and calibration in force at its
sample instant (R133, R196). -/
structure Conf where
  regs : SMap W32
  bank : SMap (List Coef)
  tab : SMap (List (BitVec 16))
  cal : SMap Calib
deriving DecidableEq, Repr

/-- A stroke between its sample instant and its start (R42): up to D of them are in progress at once (R43). -/
structure Job where
  g : Grid
  mach : Mach
  /-- A machine cycle begins here by the count of R41, not through a trip (R31). -/
  planned : Bool
  plan : Option ModePlan
  /-- MC_BASE becomes this stroke's number (R41, R50), and a timebase commit takes effect with it (R50). -/
  rebase : Bool
  tb : Bool
  mode : Mode
  sampleTick : Nat
  /-- θ at the sample instant (R321). -/
  theta : W32
  conf : Conf
  /-- The accepted registers whose PWM part comes into force with this stroke (R222). -/
  pwm : Option (SMap W32)
  /-- FORMING sub-state and limit_hold at the sample instant (R148). -/
  held : Bool
  /-- The thermistors' derating d_T at the sample instant, in 0.1 % (R143, R481). -/
  dT : Nat
  /-- MOD_REF_0–2 of the stroke that contains the sample instant (R154). -/
  u1 : List W32
  /-- Profile positions SIG_99–SIG_106 (R88) and channels that report done (R539). -/
  prof : List W32
  profDone : Nat
  /-- Rankings, available submodules per arm (R176–R181). -/
  rank : List ArmRank
  avail : List (List Nat)
  armSum : List W32
  /-- Submodules that are excluded, and those with a neutral input (R176, R178). -/
  excl : List Nat
  stale : List Nat
  socMean : List W32
  /-- Electrical angles of the four cooling drives (R126, R492). -/
  auxAngle : List W32
  stage1 : Bool
  /-- sign(i_a) < 0 of every arm for this stroke, from i_a as stage 1 of the stroke before has written it (R180, R181); empty
  until it is taken. -/
  signs : List Bool
  /-- The late-capable submodules (R177, R266). -/
  lateCap : List Nat
  evaluated : Bool
  missed : Bool
  built : Bool
  /-- MOD_REF_0–11 and SIG_71 of the stroke, once evaluated. -/
  refs : List W32
  /-- The edges of each string; none of a stroke without switching (R187, R189). -/
  furrows : List (List Edge)
  /-- What MOD_SNAP shows of the stroke, once its furrows are built. -/
  shown : Option ModShown
deriving DecidableEq, Repr

structure AngState where
  /-- Ticks since reset, and what the tick count of the pair, which a twin takes from its partner, has more than these
  (ANG_TICK, R362). -/
  tick : Nat
  tickBase : Int
  /-- The 48-bit accumulator above its 16 hidden fraction bits (R29); θ is bits 63:32. -/
  acc : W64
  /-- The accumulator before the last tick's addition (R34, R45). -/
  prevAcc : W64
  /-- A delivered FW held pending (R31). -/
  pendFw : Option Nat
  rev : W32
  mcn : W32
  mcBase : W32
  clampCnt : Nat
  /-- The stroke in progress. -/
  cur : Grid
  jobs : List Job
  /-- Strokes that have begun and whose stage 1 is still to come (R129). -/
  lateJobs : List Job
  /-- A timebase commit waits for its machine-cycle boundary (R50), and the tick of its acceptance. -/
  cfgDue : Option Nat
  /-- MOD_REF_0–11 and SIG_71 of the stroke in progress. -/
  refs : List W32
deriving DecidableEq, Repr

/-! ### Reset values (where the spec states none, the value is named in the assumption log). -/

/-- The reset value of `Grid`. -/
def Grid.reset : Grid where
  sn := 0
  start := 0
  len := 40000
  angle := false
  mcFirst := true
  index := 0
  acc0 := 0
  fw := 0
  off := 0
  thetaS := 0
  thetaC := 0
  thetaA := 0

/-- The reset value of `AngState`. -/
def AngState.reset : AngState where
  tick := 0
  tickBase := 0
  acc := 0
  prevAcc := 0
  pendFw := none
  rev := 0
  mcn := 0
  mcBase := 0
  clampCnt := 0
  cur := Grid.reset
  jobs := []
  lateJobs := []
  cfgDue := none
  refs := []

end Sys2Proof
end

