-- ==== Sys2Proof/State/Pen.lean ====
section
/-! DEFINITION. State of the Penras link (PEN): strings, lanes and the submodule endpoints whose behaviour the
chapter specifies. -/

namespace Sys2Proof

/-- A character of a lane (R225): a data byte, a control character by its byte, or a code that violates the code. -/
inductive LineChar where
  | data (b : Byte)
  | ctrl (b : Byte)
  | bad
deriving DecidableEq, Repr

/-- The ordered sets (R230). -/
inductive OrderedSet where
  | idle | sof | eof
  | block (epoch : Nat)
  | fault (pos code : Nat)
  | echoReq (pos port : Nat)
  | echoRsp (pos tau : Nat)
  | linkDown
deriving DecidableEq, Repr

/-- Codes as they arrive at a receiver (R225): the running disparity before the first one (true: positive), and the codes, bit
a leftmost. -/
structure LineIn where
  rd : Bool
  codes : List (BitVec 10)
deriving DecidableEq, Repr

/-- Codes as they arrive at a port of an endpoint (R248, R260): 0 is L, 1 is R. -/
structure PortLine where
  port : Fin 2
  line : LineIn
deriving DecidableEq, Repr

/-- A management message (R235, R268). -/
structure Message where
  opc : Nat
  pos : Nat
  tag : Nat
  /-- Bytes 4–15. -/
  params : List Byte
  /-- Strokes in which it has been sent, and the last of them (R268). -/
  sent : Nat := 0
  sentSn : Option W32 := none
deriving DecidableEq, Repr

/-- A reply block (R235). -/
structure Reply where
  opc : Nat
  pos : Nat
  result : Nat
  caps : Nat
  /-- Bytes 4–13. -/
  data : List Byte
deriving DecidableEq, Repr

/-- Results of training, with the codes of PEN_STR_STATUS.RESULT. -/
inductive TrainResult where
  | ok | noSignal | countMismatch | idMismatch | slotUnsupported | delayFail | syncFail | broken | leaseFail | notTrained
deriving DecidableEq, Repr

/-- What IDENTIFY reports of a position (R268). -/
structure Ident where
  id : Nat
  epoch : Nat
  caps : Nat
deriving DecidableEq, Repr

/-- A frame that came in: its stroke, the lane end it came in on, whether it is the device's own frame returned, and
what its slots say (R259, R262, R265, R371). -/
structure PenRx where
  sn : W32
  e : Nat
  looped : Bool
  /-- Positions with a CRC-valid slot, how many of those reported SYNC_ERR, and how many LEASE under the
  epoch that the device sends. -/
  reach : List Nat
  syncErrs : Nat
  leases : Nat
deriving DecidableEq, Repr

/-- An echo exchange under way (R260): the position asked, and the tick at which the request left. -/
structure EchoReq where
  pos : Nat
  tick : Nat
deriving DecidableEq, Repr

/-- One string (R226–R267). -/
structure PenString where
  phase : Nat
  result : TrainResult
  epoch : Nat
  leaseOk : Bool
  brk : Bool
  brk2 : Bool
  breakPos : Nat
  /-- Training in progress, and the tick its phase began. -/
  training : Bool
  phaseTick : Nat
  /-- IDENTIFY replies by position, to the messages sent from lane 2s and from lane 2s+1. -/
  id0 : SMap (Option Ident)
  id1 : SMap (Option Ident)
  /-- The count that came back at the far end (R259). -/
  count : Option Nat
  /-- RT − TAU of the echo exchanges so far, in fine ticks, by position from each end (R260), and the exchange under way at
  each end. -/
  echo0 : SMap (List Int)
  echo1 : SMap (List Int)
  req0 : Option EchoReq
  req1 : Option EchoReq
  /-- The sum of the 16 values of a position: 32 times its delay in fine ticks. -/
  sum0 : SMap (Option Int)
  sum1 : SMap (Option Int)
  syncRun : Nat
  messages : List Message
  /-- The last stroke in which a message was sent, and its tag: one a stroke (R268). -/
  lastMsg : Option (W32 × Nat)
  /-- The latest strokes with a looped or missing frame, and strokes in a row with frames crossing the whole string (R265,
  R267). -/
  bads : List W32
  goodRun : Nat
  /-- How many positions, counted from its own end, each end reached in the last stroke with a looped or missing frame. -/
  reach0 : Nat
  reach1 : Nat
  /-- The tick of a declaration whose late-capable marks wait for the next sample instant (R266), and its stroke. -/
  markFrom : Option Nat
  breakSn : Option W32
  /-- Frames received that belong to strokes not ended yet. -/
  rx : List PenRx
  /-- SYNC_ERR has been seen in RUN (R263). -/
  syncErr : Bool
  /-- The block signal has been inserted (R257) and not been released yet. -/
  block : Bool
  /-- The epoch issued at a takeover or a handover and not in force yet (R371, R373). -/
  nextEpoch : Option Nat
  /-- Frames carry TAKEOVER (R253, R371, R373). -/
  takeover : Bool
  /-- The first stroke whose frames, which the device has sent into the string, have not been judged yet (R265); none before
  the first frame since a commit that changed the string. -/
  fedFrom : Option W32
deriving DecidableEq, Repr

/-- A lane (R225, R227). -/
structure Lane where
  sync : Bool
  /-- The tick at which the last frame's EOF has left (R241). -/
  freeAt : Nat
  lastSn : Option W32
  /-- The frame last launched, byte by byte from the header to before EOF. -/
  frame : List Byte
  /-- The running disparity after everything sent (R225). -/
  rd : Bool
  /-- The ordered sets last inserted (R231, R257) or sent between frames (R260), and their tick. -/
  inserted : List LineChar
  insertedAt : Nat
deriving DecidableEq, Repr

/-- An armed entry of a drill section (R245): time in fine ticks of the endpoint's aligned time, and state code. -/
structure Armed where
  time : Nat
  state : Nat
deriving DecidableEq, Repr

/-- The content of the slots of one stroke (R250): the status word with LEASE clear and SEQ as prepared at the start of the
stroke before, and VOLT, TEMP and the points once its first frame has passed. -/
structure SlotContent where
  sn : W32
  status : Nat
  seq : Nat
  sensed : Option (List Byte)
deriving DecidableEq, Repr

/-- A stroke as an endpoint predicts it: its number, its start in ticks of the endpoint's time, and its length. -/
structure StrokeClock where
  sn : W32
  start : Nat
  len : Nat
deriving DecidableEq, Repr

/-- A submodule's endpoint (R244–R270). -/
structure Endpoint where
  epoch : Option Nat
  /-- Recorded handover: the next epoch is valid from this stroke (R252). -/
  hoSn : Option W32
  /-- Its tick count less the device's, in fine ticks (R261). -/
  ofs : Int
  /-- The last stroke whose frame came from the matching direction at the L port and at the R port (R261). -/
  matchL : Option W32
  matchR : Option W32
  /-- The last valid drill section: its stroke, and its count word and entries (R244, R245). -/
  lastSn : Option W32
  drill : List Byte
  /-- The stroke in progress: its number, and its predicted end; the predicted length (R247). -/
  holdSn : W32
  holdAt : Nat
  strokeLen : Nat
  /-- Strokes with a valid drill section that have not ended. -/
  got : List W32
  hold : Nat
  tHold : Nat
  /-- The state in force. -/
  state : Nat
  /-- The endpoint is held in BLOCK until it is released (R248). -/
  blocked : Bool
  /-- Latched fault codes (R238), and those that a CLEAR_FAULT is still to clear (R270). -/
  faults : List Nat
  clearing : List Nat
  late : Bool
  mismatch : Bool
  holding : Bool
  /-- Frames in a row with |e| > 1 ns (R263), and |e| > 50 ns in the last one. -/
  errRun : Nat
  far : Bool
  lDown : Bool
  rDown : Bool
  armed : List Armed
  /-- The next stroke at whose start a slot content is prepared, the contents prepared last, newest first, and SEQ (R250). -/
  clock : Option StrokeClock
  contents : List SlotContent
  seq : Nat
  /-- The slot last written. -/
  slot : List Byte
  /-- The reply block last written. -/
  reply : Option (List Byte)
  bypClosed : Bool
  bypass : Bool
  /-- Position and delays as COUNT and SYNC_SET gave them (R259, R261), in fine ticks; preferred timing port. -/
  pos : Option Nat
  d0 : Nat
  d1 : Nat
  port : Nat
  /-- The characters that last left each port (R228, R255, R260, R264). -/
  outL : List LineChar
  outR : List LineChar
deriving DecidableEq, Repr

/-- A MODULE_BYPASS in progress (R269). -/
structure BypassOp where
  sub : Nat
  ring : Nat
  slot : Nat
  tag : Nat
  start : Nat
  lastSent : Nat
deriving DecidableEq, Repr

/-- A STRING_TRAIN in progress (R258). -/
structure TrainOp where
  mask : Nat
  ring : Nat
  slot : Nat
  tag : Nat
  addr : Nat
  start : Nat
deriving DecidableEq, Repr

structure PenState where
  strings : SMap PenString
  lanes : SMap Lane
  ends : SMap Endpoint
  bypass : List BypassOp
  train : List TrainOp
  /-- The tag of the last message issued (R235). -/
  tag : Nat
  txCnt : Nat
  hdrErrCnt : Nat
  gleanErrCnt : Nat
  urgentCnt : Nat
deriving DecidableEq, Repr

/-! ### Reset values (where the spec states none, the value is named in the assumption log). -/

/-- The reset value of `PenString`. -/
def PenString.reset : PenString where
  phase := 0
  result := .notTrained
  epoch := 0
  leaseOk := false
  brk := false
  brk2 := false
  breakPos := 0
  training := false
  phaseTick := 0
  id0 := .empty
  id1 := .empty
  count := none
  echo0 := .empty
  echo1 := .empty
  req0 := none
  req1 := none
  sum0 := .empty
  sum1 := .empty
  syncRun := 0
  messages := []
  lastMsg := none
  bads := []
  goodRun := 0
  reach0 := 0
  reach1 := 0
  markFrom := none
  breakSn := none
  rx := []
  syncErr := false
  block := false
  nextEpoch := none
  takeover := false
  fedFrom := none

/-- The reset value of `Lane`. -/
def Lane.reset : Lane where
  sync := false
  freeAt := 0
  lastSn := none
  frame := []
  rd := false
  inserted := []
  insertedAt := 0

/-- The reset value of `Endpoint`. -/
def Endpoint.reset : Endpoint where
  epoch := none
  hoSn := none
  ofs := 0
  matchL := none
  matchR := none
  lastSn := none
  drill := []
  holdSn := 0
  holdAt := 0
  strokeLen := 0
  got := []
  hold := 0
  tHold := 0
  state := 7
  blocked := false
  faults := []
  clearing := []
  late := false
  mismatch := false
  holding := false
  errRun := 0
  far := false
  lDown := false
  rDown := false
  armed := []
  clock := none
  contents := []
  seq := 0
  slot := []
  reply := none
  bypClosed := false
  bypass := false
  pos := none
  d0 := 0
  d1 := 0
  port := 0
  outL := []
  outR := []

/-- The reset value of `PenState`. -/
def PenState.reset : PenState where
  strings := .empty
  lanes := .empty
  ends := .empty
  bypass := []
  train := []
  tag := 0
  txCnt := 0
  hdrErrCnt := 0
  gleanErrCnt := 0
  urgentCnt := 0

end Sys2Proof
end

