-- ==== Sys2Proof/State/Prof.lean ====
section
/-! DEFINITION. State of the profile engine (PROF): sixteen channels and the commands accepted but not yet in effect. -/

namespace Sys2Proof

/-- The nine ramp parameters (R93, R94). -/
structure Ramp where
  vStart : Nat
  vBrk : Nat
  vMax : Nat
  vStop : Nat
  a1 : Nat
  a2 : Nat
  d2 : Nat
  d1 : Nat
  decMax : Nat
deriving DecidableEq, Repr

/-- Segments, with the codes of PROF_STATUS.SEG. -/
inductive Seg where
  | idle | acc1 | acc2 | cruise | dec2 | dec1 | dReq | decMax | reversing | decelStop
deriving DecidableEq, Repr

/-- What ends a move (R105). -/
inductive ProfCause where
  | target | abrupt | stopped | halted | written
deriving DecidableEq, Repr

structure ProfChan where
  /-- The 48-bit position accumulator (R86) and the hidden remainder below it (R87). -/
  pos : BitVec 48
  rem : Nat
  /-- Velocity in 2^−16 of its LSB (R87). -/
  vel : Nat
  neg : Bool
  seg : Seg
  target : W32
  ramp : Ramp
  /-- D_req once it has replaced D1 and D2 (R102); DEC_MAX in use (R103). -/
  dReq : Option Nat
  /-- The jump to V_START is still to come (R96, R101). -/
  fresh : Bool
  /-- The move decelerates and keeps doing so (R91). -/
  decel : Bool
  /-- A deceleration by command that ends in a stop, and its HALT form (R97). -/
  stopping : Bool
  halting : Bool
  /-- R103: an actuator has passed its target and will return. -/
  overshot : Bool
  /-- R100 -/
  held : Bool
  /-- The step count wraps modulo 2^24 (R491). -/
  wraps : Bool
deriving DecidableEq, Repr

/-- A change that takes effect at the next profile tick (R95, R107). -/
inductive ProfOp where
  | start (chan : Nat) (target : W32) (params : Option Ramp) (device : Bool)
  | modify (chan : Nat) (mask : Nat) (params : Ramp) (target : Option W32)
  | stop (chan : Nat) (halt : Bool)
  | write (chan : Nat) (value : W32)
  | commit (chan : Nat) (params : Ramp)
deriving DecidableEq, Repr

structure ProfState where
  chans : SMap ProfChan
  ops : List ProfOp
  /-- The tick of the last profile tick (R85). -/
  lastTick : Nat
  /-- A trip halts channels 0–7 in the next profile tick (R100). -/
  tripHalt : Bool
  /-- The host target of channel 2 (R73). -/
  hostTarget2 : W32
deriving DecidableEq, Repr

/-! ### Reset values (where the spec states none, the value is named in the assumption log). -/

/-- The reset value of `Ramp`. -/
def Ramp.reset : Ramp where
  vStart := 0
  vBrk := 0
  vMax := 0
  vStop := 0
  a1 := 0
  a2 := 0
  d2 := 0
  d1 := 0
  decMax := 0

/-- The reset value of `ProfChan`. -/
def ProfChan.reset : ProfChan where
  pos := 0
  rem := 0
  vel := 0
  neg := false
  seg := .idle
  target := 0
  ramp := Ramp.reset
  dReq := none
  fresh := false
  decel := false
  stopping := false
  halting := false
  overshot := false
  held := false
  wraps := false

/-- The reset value of `ProfState`. -/
def ProfState.reset : ProfState where
  chans := .empty
  ops := []
  lastTick := 0
  tripHalt := false
  hostTarget2 := 0

end Sys2Proof
end

