-- ==== Sys2Proof/State/Sup.lean ====
section
/-! DEFINITION. State of supervision (SUP): limiter and ride-through timers, plausibility model, substitutions,
following-error monitors and trips. -/

namespace Sys2Proof

/-- Classes of a trip source (R162): 0 report, 1 TRIP_SOFT, 2 TRIP_HARD. -/
inductive TripClass where
  | report | soft | hard
deriving DecidableEq, Repr

/-- A trip whose reaction is "one stroke" (R162): it takes effect at the start of the named stroke. -/
structure DelayedTrip where
  cause : Nat
  cls : TripClass
  details : List Nat
  sn : W32
deriving DecidableEq, Repr

/-- A TRIP_SOFT ramp (R164). -/
structure SoftRamp where
  cause : Nat
  effTick : Nat
  d0 : Int
  q0 : Int
  /-- The sample instant of the ramp's first stroke, once it has come. -/
  start : Option Nat
  tSoft : Nat
deriving DecidableEq, Repr

/-- A recovery ramp (R152) with the rate in force at its start. -/
structure RecRamp where
  irec : Int
  rate : Nat
deriving DecidableEq, Repr

/-- Supervision of one current or voltage channel (R155–R160), channels 0–55 as SIG_0–SIG_55. -/
structure ChanSup where
  suspect : Bool
  frozen : Bool
  failed : Bool
  /-- Consecutive strokes with |r| > BAND on every phase fed. -/
  overCnt : Nat
  /-- The raw codes of the most recent sample instants, newest first. -/
  raws : List Int
  subst : Bool
  /-- Estimates replace the measurement from the first sample instant after the declaration (R158). -/
  started : Bool
  /-- The tick of the declaration, and from `started` on that of the sample instant. -/
  substTick : Nat
  tSub : Nat
  /-- T_SOFT, which bounds the substitution beyond T_SUB (R159). -/
  tSoft : Nat
  /-- SUB_ILIM_SCALE, in %. -/
  scale : Nat
  /-- The model's registers, by offset: a substitution goes on with the values in force at its start (R170). -/
  kept : List (Nat × Nat)
  /-- The substitution has ended in this stroke's stage 1; the full limit returns from the next stroke (R159). -/
  ending : Bool
  /-- T_SUB has passed (R159). -/
  expired : Bool
deriving DecidableEq, Repr

/-- One phase of the plausibility model (R154): ŝ0–ŝ2 in Q7.32, residual, and the recent estimates and residuals. -/
structure ModelPhase where
  s0 : Int
  s1 : Int
  s2 : Int
  res : Int
  est : List Int
  ress : List Int
deriving DecidableEq, Repr

structure SupState where
  /-- Mode and sub-state with which strokes are evaluated; GFM shows them from the boundary on (R147, R149). -/
  evalMode : Mode
  sub : Sub
  /-- Sub-state changes of an evaluation whose mode has not begun: old and new, oldest first. -/
  late : List (Sub × Sub)
  limitHold : Bool
  limAct : Bool
  /-- Sample instants at which the unbroken runs of R538 began: exit condition, clearing band, ride-through, limit. -/
  exitStart : Option Nat
  clearStart : Option Nat
  frtStart : Option Nat
  limStart : Option Nat
  /-- The run has reached its time and tripped (R153). -/
  frtFired : Bool
  limFired : Bool
  ramp : Option RecRamp
  vPre : Int
  iR0 : Int
  /-- V_nr of the most recent angle strokes whose stage 1 has run, newest first (R151). -/
  vHist : List Int
  model : SMap ModelPhase
  chans : SMap ChanSup
  /-- Following-error monitors above E_FE, and the sample instants at which their runs began (R161). -/
  feExc : Nat
  feStart : SMap Nat
  feFired : Nat
  /-- Sample instant of the latest evaluated stroke, and the stroke whose evaluation is the latest to have begun. -/
  evalTick : Nat
  evalSn : W32
  soft : Option SoftRamp
  /-- The TRIP_SOFT ramp has reached T_SOFT (R164). -/
  softEnd : Bool
  delayed : List DelayedTrip
  /-- The tick in which a trip took effect, until TRIPPED is entered (R57), and its GFM_STATUS.CAUSE. -/
  tripTick : Option Nat
  tripCause : Nat
  /-- A trip action is in progress (R39, R167). -/
  acting : Bool
  /-- A TRIP_HARD holds every pair, until TRIPPED is left (R163, R210). -/
  hardHold : Bool
  /-- MOD emits empty furrows (R189), and the tick by which every submodule has blocked (R257). -/
  blocked : Bool
  blockBy : Nat
  tripCount : Nat
  causeCount : Nat
  causeLast : Nat
  causeClass : Nat
  causeFirst : Nat
  frtCnt : Nat
  subCnt : Nat
  /-- Counters and i_rec as the last completed stroke left them (SUP_SNAP). -/
  done : List Nat
deriving DecidableEq, Repr

/-! ### Reset values (where the spec states none, the value is named in the assumption log). -/

/-- The reset value of `ChanSup`. -/
def ChanSup.reset : ChanSup where
  suspect := false
  frozen := false
  failed := false
  overCnt := 0
  raws := []
  subst := false
  started := false
  substTick := 0
  tSub := 0
  tSoft := 0
  scale := 0
  kept := []
  ending := false
  expired := false

/-- The reset value of `ModelPhase`. -/
def ModelPhase.reset : ModelPhase where
  s0 := 0
  s1 := 0
  s2 := 0
  res := 0
  est := []
  ress := []

/-- The reset value of `SupState`. -/
def SupState.reset : SupState where
  evalMode := .off
  sub := .normal
  late := []
  limitHold := false
  limAct := false
  exitStart := none
  clearStart := none
  frtStart := none
  limStart := none
  frtFired := false
  limFired := false
  ramp := none
  vPre := 0
  iR0 := 0
  vHist := []
  model := .empty
  chans := .empty
  feExc := 0
  feStart := .empty
  feFired := 0
  evalTick := 0
  evalSn := 0
  soft := none
  softEnd := false
  delayed := []
  tripTick := none
  tripCause := 0
  acting := false
  hardHold := false
  blocked := false
  blockBy := 0
  tripCount := 0
  causeCount := 0
  causeLast := 0
  causeClass := 0
  causeFirst := 0
  frtCnt := 0
  subCnt := 0
  done := []

end Sys2Proof
end

