-- ==== Sys2Proof/State/Twn.lean ====
section
/-! DEFINITION. State of twin operation (TWN): own and partner state, claims, the mirror and the packets sent. -/

namespace Sys2Proof

/-- Twin states, with the codes of TWN_STATUS.STATE (R358). -/
inductive TwinSt where
  | solo | syncing | active | standby | resigned | faulted | blind
deriving DecidableEq, Repr

/-- A STATUS packet (R359, R361): twin state code, strapped role, digest of the configuration, epoch of each string. -/
structure StatusPkt where
  st : Nat
  primary : Bool
  digest : Nat
  epochs : List Nat
  sn : W32
deriving DecidableEq, Repr

/-- The supervision section of a mirror record (R364). -/
structure SupMirror where
  limitHold : Bool
  exitStart : Option Nat
  clearStart : Option Nat
  frtStart : Option Nat
  limStart : Option Nat
  ramp : Option RecRamp
  vPre : Int
  iR0 : Int
  soft : Option SoftRamp
  chans : SMap ChanSup
  model : SMap ModelPhase
  /-- The following errors above their limits, and since when. -/
  feExc : Nat
  feStart : SMap Nat
  causeCount : Nat
  causeLast : Nat
  causeClass : Nat
  causeFirst : Nat
deriving DecidableEq, Repr

/-- The machine section of a mirror record (R364). -/
structure MachMirror where
  omega : Option Nat
  e : Int
  phi : W32
  eps : Int
  pf : List (Int × Int)
  req : Option ModeReq
deriving DecidableEq, Repr

/-- A mirror record (R364), by its content; the spec gives its sections' sizes and no byte offsets. -/
structure MirrorRec where
  evalSn : W32
  mcn : W32
  mode : Mode
  sub : Sub
  digest : Nat
  /-- Timebase: the stroke that begins as the record is sent, FW pending, revolution count, MC_BASE. -/
  grid : Grid
  pend : Option Nat
  rev : W32
  mcBase : W32
  /-- Loop: region, section states, cascade outputs as (signal, value). -/
  region : Nat
  secs : SMap Biquad
  outs : List (Nat × W32)
  sup : SupMirror
  /-- Modulation: arms, and state and last edge of each submodule. -/
  arms : SMap Arm
  subs : List (Nat × Nat × Option Nat)
  /-- Compare and carry of each LOOP pair: (pair, compare, carry). -/
  pwm : List (Nat × Nat × Int)
  chans : List ProfChan
  mach : Option MachMirror
deriving DecidableEq, Repr

/-- A DRILL packet (R363): header flags, EPOCH, HO_SN, and the bytes of count word and edge entries. -/
structure DrillPkt where
  string : Nat
  sn : W32
  flags : Nat
  epoch : Nat
  hoSn : W32
  body : List Byte
deriving DecidableEq, Repr

/-- A TRAIN packet (R377): the phase of a string's training, and what the sender's end has found: reply blocks that
came in, delay sums by position, and the result with which the string fails. -/
structure TrainPkt where
  string : Nat
  phase : Nat
  replies : List Reply
  sums : List (Nat × Int)
  fail : Option TrainResult
deriving DecidableEq, Repr

/-- A TIME packet (R359, R362), in fine ticks: its transmit timestamp, and of the partner's last TIME packet the transmit
timestamp and the time of its arrival. -/
structure TimePkt where
  tx : Nat
  echo : Option (Nat × Nat)
deriving DecidableEq, Repr

/-- A TIME packet as it arrives (R362): the fine tick within the tick of its arrival stands beside it. -/
structure TimeIn where
  pkt  : TimePkt
  frac : BitVec 6
deriving DecidableEq, Repr

/-- The packets of the twin link (R359). -/
inductive TwinPacket where
  | mirror (r : MirrorRec)
  | drill (p : DrillPkt)
  | resign (cause : Nat) (lastSn : W32)
  | trip (cls : Nat) (cause : Nat)
  | handover (confirm : Bool) (hoSn : W32)
  | time (p : TimePkt)
  | train (p : TrainPkt)
  | status (p : StatusPkt)
deriving DecidableEq, Repr

/-- A packet as it is sent (R359): the type and SN that its frame carries in front, its content, its length with the frame's
16 bytes, and when its first byte leaves, in hundredths of a tick. -/
structure SentPacket where
  typ : Nat
  sn : W32
  body : TwinPacket
  bytes : Nat
  leaves : Nat
deriving DecidableEq, Repr

structure TwnState where
  st : TwinSt
  /-- The strap makes the device PRIMARY (R356). -/
  primary : Bool
  act : Bool
  claimOut : Bool
  /-- The partner's claim: seen in the last stroke, the stroke of the last one, and expected ones missing in a row. -/
  claimSeen : Bool
  lastClaim : Option W32
  missed : Nat
  /-- The last claim came after its tick (R366). -/
  claimLate : Bool
  /-- The last stroke whose claim was missed. -/
  lastMissed : Option W32
  /-- Strokes in a row with and without the partner's claim. -/
  claimRun : Nat
  quietRun : Nat
  linkUp : Bool
  /-- Which receive lanes have block lock (R360). -/
  locks : BitVec 2
  partner : Option StatusPkt
  /-- A valid STATUS packet has come in the stroke in progress; strokes in a row with and without one (R360). -/
  statusNow : Bool
  statusRun : Nat
  statusless : Nat
  revertHold : Bool
  resignCause : Nat
  roleConflict : Bool
  consistCnt : Nat
  /-- Consistent records since SYNCING began (R373). -/
  sinceSync : Nat
  missCnt : Nat
  pktErrCnt : Nat
  takeoverCnt : Nat
  /-- R367, R371: L and n_T of the takeover, once triggered, and whether the switch of state is due. -/
  lastL : W32
  nT : Option W32
  takeDue : Bool
  timeOfs : Int
  /-- The transmit timestamps of the last two TIME packets, newest first, and timestamp and arrival of the partner's last one
  (R362). -/
  timeTx : List Nat
  timeRx : Option (Nat × Nat)
  mirrorLen : Nat
  mirror : Option MirrorRec
  /-- EVAL_SN of the last record that came in. -/
  prevSn : Option W32
  /-- The timebase is loaded from the record at the next stroke boundary (R365). -/
  loadTb : Bool
  /-- The DRILL packets of each string, newest first, and the starts of their strokes: those that no record covers yet (R363,
  R371). -/
  drills : SMap (List (DrillPkt × Nat))
  /-- The stroke of an agreed handover, and a request that waits for its confirmation (R373). -/
  hoSn : Option W32
  hoAsked : Bool
  /-- The host has asked for it (R378). -/
  hoByHost : Bool
  /-- A handover was abandoned, so that the next epoch change issues e + 2 (R374). -/
  abandoned : Bool
  /-- The stroke whose evaluation still loads the partner's record after a handover or a takeover (R371, R373). -/
  loadSn : Option W32
  /-- Strokes from n_T in a row with no lease, with the partner's claim in all of them (R371). -/
  noLease : Nat
  noLeaseClaim : Nat
  /-- Strokes in SYNCING with no claim, no partner ACTIVE and no conflict (R358). -/
  alone : Nat
  /-- The last stroke whose frames or compares this device launched, as active (R366, R369). -/
  lastLaunch : W32
  /-- Boundaries up to the one at which the LOOP pairs of a resigned device no longer repeat their last compares (R369). -/
  repeatLeft : Nat
  /-- Packets sent by the row in progress or by the last one, in order, and the end of the last one's transmission, in
  hundredths of a tick. -/
  sent : List SentPacket
  sentEnd : Nat
deriving DecidableEq, Repr

/-! ### Reset values (where the spec states none, the value is named in the assumption log). -/

/-- The reset value of `TwnState`. -/
def TwnState.reset : TwnState where
  st := .solo
  primary := false
  act := false
  claimOut := false
  claimSeen := false
  lastClaim := none
  missed := 0
  claimLate := false
  lastMissed := none
  claimRun := 0
  quietRun := 0
  linkUp := false
  locks := 0
  partner := none
  statusNow := false
  statusRun := 0
  statusless := 0
  revertHold := false
  resignCause := 0
  roleConflict := false
  consistCnt := 0
  sinceSync := 0
  missCnt := 0
  pktErrCnt := 0
  takeoverCnt := 0
  lastL := 0
  nT := none
  takeDue := false
  timeOfs := 0
  timeTx := []
  timeRx := none
  mirrorLen := 0
  mirror := none
  prevSn := none
  loadTb := false
  drills := .empty
  hoSn := none
  hoAsked := false
  hoByHost := false
  abandoned := false
  loadSn := none
  noLease := 0
  noLeaseClaim := 0
  alone := 0
  lastLaunch := 0
  repeatLeft := 0
  sent := []
  sentEnd := 0

end Sys2Proof
end

