-- ==== Sys2Proof/Syntax.lean ====
section
/-! DEFINITION. The commands of the YN9160: one constructor per row of spec/opcode_table.json. A row is either a
command of the rings, which carries its command descriptor (R431), or an event, which carries what the environment
brings with it (a level, a sample, the bytes of a packet). The table gives no row any bits. -/

namespace Sys2Proof

/-- A command of rings 0–3 as the device receives it (R423): the ring and slot it was fetched from, the fields of
its descriptor, and what its buffer read returns. -/
structure Cmd where
  ring : Fin 4
  slot : BitVec 16
  tag : BitVec 16
  /-- Descriptor byte 2. -/
  flags : Byte
  /-- Descriptor bytes 6–7. -/
  resv : BitVec 16
  addr : BitVec 64
  len : W32
  /-- Descriptor bytes 20–31, byte 20 lowest. -/
  inl : BitVec 96
  /-- The buffer's bytes: `len` of them, or none for a command that reads no buffer. -/
  buf : List Byte
  /-- The host answers the buffer read with an error (R431). -/
  bufErr : Bool
deriving DecidableEq, Repr

/-- The levels of the input pins in a tick: SD_DAT_0–31, the pad read-back of SD_CLK_0–3 (R312), TRIP_IN_0–7 (R214) and
EXT_TRIG_IN (R324); which receive lanes of the twin link have block lock (R360); and the straps, bits 1:0 BOOT_SRC and bit 3
TEST_EN (R524). -/
structure TickPins where
  sd : BitVec 32
  clk : BitVec 4
  trip : BitVec 8
  ext : Bool
  lock : BitVec 2
  straps : BitVec 4
deriving DecidableEq, Repr

/-- Every pin low. -/
def TickPins.low : TickPins := { sd := 0, clk := 0, trip := 0, ext := false, lock := 0, straps := 0 }

/-- Where the host writes the MSI-X structures (R411, R444): a dword of BAR4, or the capability's dword with Message Control, which
holds Enable in bit 31 and Function Mask in bit 30. -/
inductive MsixPlace where
  | bar4 (off : BitVec 13)
  | control
deriving DecidableEq, Repr

/-- What a link comes up with besides its speed (R409): its width, and the payload and read request sizes that the host sets as
it enumerates the device, as the configuration space codes them. -/
structure LinkSetup where
  width : Fin 8
  payload : Fin 2
  readReq : Fin 3
deriving DecidableEq, Repr

/-- What a submodule's own sensing gives its endpoint while a frame passes (R237–R239, R250, R261, R268). -/
structure EndpointInput where
  /-- The arrival of the frame's SOF, in fine ticks of the device's time (R261). -/
  sof : BitVec 64
  /-- VOLT and TEMP as sampled at the start of the stroke in which the frame passes (R250). -/
  volt : BitVec 16
  temp : Byte
  /-- The point entries of its slot. -/
  points : List W32
  /-- Bit c: the condition of fault code c is present. -/
  conds : Byte
  /-- The bypass contact confirms closure. -/
  contact : Bool
  id : BitVec 64
  caps : Byte
deriving DecidableEq, Repr

/-- What the word of an uncorrectable memory error held (R531), where its region holds single items. -/
inductive UeHit where
  | nothing
  /-- Region 2: the points of the word. -/
  | points (ids : List (BitVec 20))
  /-- Region 3: a record of a set, counted from the oldest it holds. -/
  | record (set : Fin 8) (index : Fin 64)
  /-- Region 4: a descriptor that waits in the queue of Fence events, or the completion of a command in progress. -/
  | fence (index : Fin 256)
  | completion (ring : Fin 4) (slot : BitVec 16)
deriving DecidableEq, Repr

/-- The commands and events of the block. -/
inductive Instr where
  /-- R29: On every tick while angle strokes run, the device adds FW to the 48-bit rotor accumulator and advances θ. -/
  | tick (pins : TickPins)
  /-- R34: An angle stroke begins at the tick whose θ interval contains the next boundary B_i, and SN (and the revolution count at index 0) advances. -/
  | strokeStart
  /-- R37: While the rotor is stopped, a free stroke begins every T_FREE ticks and SN advances. -/
  | freeStrokeStart
  /-- R42: At start(j) − t_SA, the SAR banks sample, sinc3 results are latched, and the sorter and the availability tests take their inputs. -/
  | sampleInstant
  /-- R45: An event stamped at angle A fires in the tick whose θ interval contains A, at most once per revolution. -/
  | angleStampFire (u : Fin 8)
  /-- R67: From the samples of a cycle's first stroke, the machine level computes the powers, swing update, EMF and resync quantities, and delivers the pending FW within 3 µs. -/
  | machineEvaluation
  /-- R78: In PULSE mode, BKR_CLOSE_0 and BKR_CLOSE_1 deassert when PULSE expires. -/
  | bkrClosePulseEnd
  /-- R79: A change of BKR_FB that has been stable for 2 ms is counted; a closure leads to FORMING, and an opening in FORMING sets BKR_OPENED. -/
  | bkrFbChange (level : Bool)
  /-- R79: When FB_TIMEOUT expires without feedback, BKR_NO_CLOSE sets, and after RETRIES failed attempts RESYNC ends with cause 8. -/
  | bkrNoClose
  /-- R79: When RESYNC has lasted longer than TIMEOUT, it ends with cause 5. -/
  | resyncTimeout
  /-- R74: When BS_TIMEOUT elapses in BLACKSTART without completion, the device performs TRIP_SOFT with cause 15. -/
  | bsTimeout
  /-- R59: When STOP_TIMEOUT elapses in STOPPING, the device performs TRIP_SOFT with cause 16. -/
  | stopTimeout
  /-- R63: Command that requests a mode transition and completes as R63 orders. -/
  | modeRequest (c : Cmd)
  /-- R85: Every 400 ticks, each moving profile channel updates its velocity and position, and arrival, deceleration, trip HALT and parameter commits are applied. -/
  | profileTick
  /-- R96: Command that starts a move of channel 0–7 towards a target, or changes the target of a moving channel. -/
  | profileStart (c : Cmd)
  /-- R102: Command that changes the ramp parameters and optionally the target of a channel. -/
  | profileModify (c : Cmd)
  /-- R97: Command that stops a channel by DECEL or HALT. -/
  | profileStop (c : Cmd)
  /-- R98: Command that sets the position and target of a channel and ends its move. -/
  | setpointWrite (c : Cmd)
  /-- R108: Once every fitted channel is valid, the loop engine evaluates stages 1–8 of the stroke, including the limiter, sub-states and supervision. -/
  | loopEvaluation
  /-- R147: When V_nr has stayed within the clearing band for T_FRT_CLR, ride-through exits to RECOVER or LIMIT and the recovery ramp starts. -/
  | frtCleared
  /-- R146: When the limiter exit condition has held for T_LIM_EXIT, limit_hold clears or LIMIT exits to RECOVER or NORMAL. -/
  | limitExit
  /-- R153: When ride-through lasts longer than FRT_TMAX, the device performs TRIP_SOFT with cause 11. -/
  | frtTmaxExpire
  /-- R153: When LIMIT or limit_hold lasts longer than LIM_TMAX, the device performs TRIP_SOFT with cause 12. -/
  | limTmaxExpire
  /-- R159: When a substitution has not ended after T_SUB, the device performs TRIP_SOFT with cause 9. -/
  | subExpired (ch : Fin 56)
  /-- R161: When a monitor has stayed above E_FE for longer than T_FE, FE sets and the device performs TRIP_SOFT with cause 10. -/
  | followingErrorTrip (m : Fin 4)
  /-- R129: At the deadline, unfinished stages 2–8 are abandoned, the references are reused and the miss is counted. -/
  | deadlineMiss
  /-- R131: A write of 1 to LOOP_TEST.INJECT_MISS abandons the next unstarted stroke evaluation as a miss. -/
  | injectMiss (v : W32)
  /-- R164: When the TRIP_SOFT ramp time reaches T_SOFT, the device commands every submodule to BLOCK. -/
  | softRampEnd
  /-- R188: After the loop evaluation completes or is abandoned, MOD computes the insertion, tiller and selection and builds every arm's furrow. -/
  | furrowBuild
  /-- R270: A write to MOD_FAULT_CLEAR sends CLEAR_FAULT to the named submodule and ends its fault exclusion once its slot reports no fault. -/
  | modFaultClear (v : W32)
  /-- R269: Command that excludes a submodule as bypassed and sends BYPASS_CLOSE. -/
  | moduleBypass (c : Cmd)
  /-- R269: Every 1 ms, the device repeats BYPASS_CLOSE until confirmation, failure or 200 ms. -/
  | bypassCloseRepeat (sub : Fin 768)
  /-- R269: Without confirmation within 200 ms, MODULE_BYPASS completes with TIMEOUT. -/
  | moduleBypassTimeout (sub : Fin 768)
  /-- R198: A pair's period begins, shadows load, the duty and pulse carry are computed and AUTO latches clear. -/
  | pwmPeriodStart (p : Fin 12)
  /-- R198: The pair counter reaches CMP and the logical signal X becomes inactive. -/
  | compareMatch (p : Fin 12)
  /-- R203: DT_RISE or DT_FALL elapses after an X transition and the pending output rises. -/
  | deadTimeExpire (p : Fin 12)
  /-- R206: A write to PWM_COMMIT commits the shadows of the named pairs for their next period start. -/
  | pwmCommit (v : W32)
  /-- R216: A qualified trip source forces and latches its named pairs safe and passes the source to SUP. -/
  | localTrip (conds : BitVec 16)
  /-- R218: At the end of a blanking window, a condition still present qualifies and a lost condition is counted. -/
  | blankEnd (t : Fin 8)
  /-- R241: Once the furrow is complete and the lane is free, the device launches the string's frame and, when ACTIVE, its DRILL packet and claim toggle. -/
  | frameLaunch (n : Fin 12) (e : Fin 2)
  /-- R240: A frame returning to the device is checked, and its glean slots and reply block are taken. -/
  | frameReceived (n : Fin 12) (e : Fin 2) (line : LineIn)
  /-- R256: The first valid FAULT ordered set marks the submodule faulted and passes source 5 to SUP. -/
  | urgentFaultReceived (n : Fin 12) (e : Fin 2) (line : LineIn)
  /-- R264: A receiving lane leaves character sync and LANE_DOWN sets. -/
  | laneSyncLoss (l : Fin 24)
  /-- R265: After 2 strokes of looped or missing frames, a break is declared and far positions become late-capable. -/
  | breakDeclared (n : Fin 12)
  /-- R267: After 16 strokes in which frames cross the whole string, the break and the late-capable marks clear. -/
  | breakHealed (n : Fin 12)
  /-- R268: A management message that has gone unanswered after 4 repeats sets MSG_TIMEOUT. -/
  | msgTimeout (n : Fin 12)
  /-- R258: Command that trains the named strings through DISCOVER, MEASURE, SYNC and RUN. -/
  | stringTrain (c : Cmd)
  /-- R260: An ECHO_RSP arrives and contributes to the delay measurement of its position. -/
  | echoResponse (n : Fin 12) (e : Fin 2) (rt : W32) (rd : Bool) (codes : List (BitVec 10))
  /-- R260: An echo response not received within 10 µs fails the string with DELAY_FAIL. -/
  | echoTimeout (n : Fin 12) (e : Fin 2) (pos : Fin 64)
  /-- R262: Without 64 aligned strokes within 20 ms of SYNC_SET, the string fails with SYNC_FAIL. -/
  | syncFail (n : Fin 12)
  /-- R262: When RUN is not reached within 10 ms after synchronisation, the string fails with LEASE_FAIL. -/
  | leaseFail (n : Fin 12)
  /-- R258: When every named string has reached RUN or failed, STRING_TRAIN completes and TRAIN_DONE sets. -/
  | trainDone
  /-- R245: An endpoint acts on the first valid drill section of a stroke and applies its entries at their times. -/
  | endpointDrillReceived (sub : Fin 768) (port : Fin 2) (inp : EndpointInput) (line : LineIn)
  /-- R247: At a predicted stroke end without a valid drill section, an endpoint counts a hold and blocks at T_HOLD. -/
  | endpointHold (sub : Fin 768)
  /-- R248: A valid BLOCK ordered set under the held epoch puts the endpoint in BLOCK within 10 ticks. -/
  | endpointBlockReceived (sub : Fin 768) (rx : PortLine)
  /-- R255: An endpoint that detects a fault sends FAULT out of both ports and latches it. -/
  | endpointFaultDetect (sub : Fin 768) (code : Byte)
  /-- R264: An endpoint port leaves character sync, and the endpoint sends LINK_DOWN and loops traffic back. -/
  | endpointPortDown (sub : Fin 768) (port : Fin 2)
  /-- R287: The stale scan visits a group, ages its points and marks expired points STALE. -/
  | staleScanVisit
  /-- R295: Once a quarter of a point ring is free, the device drains its dirty bitmap into the ring. -/
  | pointRingDrain (r : Fin 4)
  /-- R290: Command that writes, forces or unforces points as arrivals. -/
  | pointWrite (c : Cmd)
  /-- R292: Command that reads records, class map, aggregates or class table into its buffer. -/
  | pointReadBlock (c : Cmd)
  /-- R302: A SAR conversion result becomes valid and is checked by the window comparator. -/
  | sarConversionResult (ch : Fin 24) (raw : BitVec 16)
  /-- R310: After FQ consecutive sinc2 evaluations outside or inside the thresholds, the channel's decision sets or clears. -/
  | sinc2Decision (ch : Fin 32)
  /-- R312: With no SD_CLK_g transition for 640 ticks, every enabled channel of group g is declared failed. -/
  | sdClockLost (g : Fin 4)
  /-- R312: With no SD_DAT_c transition for 640 ticks, the channel is declared failed. -/
  | sdDataLost (ch : Fin 32)
  /-- R313: A missing conversion or a reference excursion declares the bank's channels failed. -/
  | sarBankFail (b : Fin 4) (reference : Bool)
  /-- R314: A failed channel that shows activity again for the required count stops being failed. -/
  | channelRecover (ch : Fin 56)
  /-- R323: A trigger unit fires on its source or angle and triggers the sets that use it. -/
  | triggerUnitFire (u : Fin 8)
  /-- R324: A filtered edge on EXT_TRIG_IN triggers the sets with EXT_EN. -/
  | extTrigIn (level : Bool)
  /-- R330: A set left in FILLING or READY for AUTO_TIMEOUT ms is triggered automatically. -/
  | autoTimeout (set : Fin 8)
  /-- R332: Once room exists, a closed record is sieved and transferred to host memory with its descriptor. -/
  | recordDelivery (set : Fin 8)
  /-- R335: Command that arms the named capture sets. -/
  | captureArm (c : Cmd)
  /-- R335: Command that disarms the named capture sets. -/
  | captureDisarm (c : Cmd)
  /-- R335: Command that triggers the named armed sets. -/
  | captureForce (c : Cmd)
  /-- R339: Two bad 10 µs windows declare the reference lost, and the SYSPLL enters holdover. -/
  | refLost
  /-- R346: Four good windows declare the reference back, and the phase error decides between pulling and a pending jump. -/
  | refBack (e : W32)
  /-- R340: Lock is declared and the logic moves from the fallback oscillator back to the SYSPLL. -/
  | pllLock (band : Fin 16)
  /-- R344: Without lock within 2 ms, STATE becomes NO_LOCK and the device stays on the fallback oscillator. -/
  | lockFail
  /-- R344: In NO_LOCK, a new lock starts every 100 ms. -/
  | lockRetry
  /-- R348: When PULL has removed the phase error, the loop closes and STATE becomes LOCKED. -/
  | pullDone
  /-- R349: When STEP has removed the phase error at a stroke boundary, STATE becomes LOCKED. -/
  | stepDone
  /-- R347: Command that sets the time of day or resolves a pending reference jump by PULL or STEP. -/
  | timeSet (c : Cmd)
  /-- R351: A PPS_IN edge is timestamped and disciplines the tick or is handled as a jump. -/
  | ppsEdge (frac : BitVec 6)
  /-- R351: With no PPS edge within 1.1 s, PPS_OK clears and PPS_LOST sets. -/
  | ppsLost
  /-- R352: The seconds count advances at a second boundary and loads a pending SET_TOD value. -/
  | secondBoundary
  /-- R354: Two windows with the VCO more than 1,000 ppm off set FAIL, the failure on which an active twin resigns. -/
  | clockFailure
  /-- R360: The twin link goes down, and a STANDBY becomes BLIND. -/
  | twinLinkDown
  /-- R360: The twin link comes up after 16 strokes of valid STATUS packets, and BLIND becomes SYNCING. -/
  | twinLinkUp
  /-- R361: A STATUS packet updates the partner state and may reveal a role conflict. -/
  | statusPacket (p : StatusPkt) (crcOk : Bool)
  /-- R365: A mirror record arrives, is checked for consistency and is loaded by the standby. -/
  | mirrorRecord (r : MirrorRec) (crcOk : Bool)
  /-- R363: A DRILL packet gives the standby the active device's drill section for its own frame. -/
  | drillPacket (p : DrillPkt) (crcOk : Bool)
  /-- R367: Receipt of RESIGN by a STANDBY triggers a takeover. -/
  | resignPacket (cause : Byte) (lastSn : W32) (crcOk : Bool)
  /-- R376: A standby that receives TRIP inserts BLOCK, follows into TRIPPED and records the trip. -/
  | tripPacket (cls : Fin 2) (cause : Byte) (crcOk : Bool)
  /-- R373: A HANDOVER request or confirmation fixes HO_SN for a return of control. -/
  | handoverPacket (confirm : Bool) (hoSn : W32) (crcOk : Bool)
  /-- R362: A TIME packet lets the SECONDARY compute and remove its tick offset from the PRIMARY. -/
  | timePacket (rx : TimeIn) (crcOk : Bool)
  /-- R377: A TRAIN packet carries the partner's training results from its end of the strings. -/
  | trainPacket (p : TrainPkt) (crcOk : Bool)
  /-- R366: A claim toggle missing at its latest tick is counted, and two in a row declare claim absence. -/
  | missedClaim
  /-- R371: After 4 strokes from n_T with no lease, the device enters FAULTED. -/
  | leaseRefused
  /-- R361: After 16 strokes of seeing the partner's claim while ACTIVE, the device trips with cause 19 and enters FAULTED. -/
  | dualClaim
  /-- R358: A PRIMARY in SYNCING becomes ACTIVE after 1,000 strokes with no claim, no partner ACTIVE and no role conflict. -/
  | syncingToActive
  /-- R358: A RESIGNED device finishes its self-test and enters SYNCING, or FAULTED on failure. -/
  | selfTestDone (ok : Bool)
  /-- R373: A PRIMARY in STANDBY whose conditions hold requests a handover. -/
  | handoverRequest
  /-- R378: Command that resigns, assumes control, hands over now or clears a twin fault. -/
  | twinControl (c : Cmd)
  /-- R386: Every 50 µs, the Fence samples its inputs, filters them, checks test pulses, and demands or releases pairs. -/
  | fenceSample (a : Byte) (b : Byte) (rb : Byte)
  /-- R387: A test-pulse line switches off for 300 µs at its slot of each 100 ms. -/
  | testPulse (line : Fin 4)
  /-- R390: A disagreement lasting T_DISC latches a discrepancy on the input. -/
  | discrepancy (k : Fin 8)
  /-- R395: A switch read-back that disagrees with its command for 0.5 ms latches a read-back fault. -/
  | readBackFault (p : Fin 4)
  /-- R384: An internal fault demands every pair and puts the Fence in FAULT. -/
  | fenceInternalFault (code : Byte)
  /-- R385: Two 1 ms windows with the system clock more than 10 % off set SYSCLK_DEV. -/
  | sysclkDev
  /-- R385: A switch-drive hardware timer that is not retriggered turns the drive off. -/
  | driveTimerExpire (p : Fin 4) (low : Bool)
  /-- R398: A due periodic test of a closed, undemanded pair opens its high-side switch and checks the read-back. -/
  | contactorTestStart (p : Fin 4) (rb : Byte)
  /-- R397: 100 ms after the high-side check, the low-side switch is opened and checked, and the result is reported. -/
  | contactorTestLowSide (p : Fin 4) (rb : Byte)
  /-- R404: Command that changes a Fence parameter under the passcode and logs it. -/
  | fenceParam (c : Cmd) (committed : Bool)
  /-- R401: Command that tests the named pairs. -/
  | fenceTest (c : Cmd)
  /-- R407: Command that clears the Fence latches whose conditions have ended. -/
  | fenceReset (c : Cmd)
  /-- R404: After 10 minutes of Fence time, the locked FENCE_PARAM path opens again. -/
  | lockoutEnd
  /-- R522: 1 ms after VIN and the Fence regulator return within limits, the Fence leaves reset and runs FENCE_INIT again. -/
  | fenceSupplyRelease
  /-- R442: Queued Fence events are written to ring 30 once room appears. -/
  | fenceEventQueueDrain
  /-- R416: A write to a ring's doorbell advances its index or is discarded. -/
  | doorbellWrite (off : BitVec 17) (be : BitVec 4) (v : W32)
  /-- R414: Setting EN of a ring from 0 to 1 sets both indices to 0 and starts the ring. -/
  | ringEnable (r : Fin 32) (v : W32)
  /-- R414: Clearing EN stops the ring within 1 µs. -/
  | ringDisable (r : Fin 32) (v : W32)
  /-- R429: With a completion slot reserved, the device fetches the next command by priority and services the watchdog. -/
  | commandFetch (r : Fin 4) (desc : BitVec 256)
  /-- R432: Command that completes with OK. -/
  | nop (c : Cmd)
  /-- R433: Command that stages register values. -/
  | configStage (c : Cmd)
  /-- R132: Command that submits the staged set to admission and applies it. -/
  | configCommit (c : Cmd)
  /-- R434: Command that reads staged or active register values into its buffer. -/
  | configReadback (c : Cmd)
  /-- R138: Command that loads a staged table of the class it names. -/
  | tableLoad (c : Cmd)
  /-- R436: Command that starts, replaces or ends a telemetry subscription. -/
  | telemetrySubscribe (c : Cmd)
  /-- R440: Once a quarter of an event ring is free, the coalesced counters are written as descriptors. -/
  | eventRingDrain (r : Fin 4)
  /-- R443: When the host watchdog runs out, WD_EXPIRE sets and its ACTION is performed. -/
  | hostWdExpire
  /-- R445: At the end of a vector's holdoff, one message is sent if the vector is pending. -/
  | holdoffEnd (v : Fin 64)
  /-- R412: PERST_L, Function Level Reset, D3hot to D0 or link loss resets the HOST block. -/
  | hostReset (linkLost : Bool)
  /-- R446: A service-port READ transaction returns consecutive registers. -/
  | svcRead (off : BitVec 24) (n : BitVec 16)
  /-- R447: A service-port WRITE transaction writes consecutive registers, with the HOST, FEN, SEC and SYS_RESET exclusions. -/
  | svcWrite (off : BitVec 24) (vs : List W32)
  /-- R446: A service-port STATUS transaction returns the access-error and READY bits. -/
  | svcStatus
  /-- R5: A BAR0 write to a register without a row of its own stores, clears or is discarded as its access codes and R10–R11 state. -/
  | registerWrite (off : BitVec 20) (v : W32) (be : BitVec 4)
  /-- R9: A write to ANG_SNAP captures the timebase snapshot registers in one tick. -/
  | angSnap (v : W32)
  /-- R9: A write to GFM_SNAP captures the machine snapshot registers from one machine cycle. -/
  | gfmSnap (v : W32)
  /-- R9: A write to PROF_SNAP captures every channel's position and velocity after one profile tick. -/
  | profSnap (v : W32)
  /-- R9: A write to LOOP_SNAP captures the loop snapshot registers after one completed stroke. -/
  | loopSnap (v : W32)
  /-- R9: A write to SUP_SNAP captures the supervision snapshot registers after one completed stroke. -/
  | supSnap (v : W32)
  /-- R9: A write to MOD_SNAP captures the modulation snapshot registers from one stroke. -/
  | modSnap (v : W32)
  /-- R9: A write to PWM_SNAP captures the PWM snapshot registers in one tick. -/
  | pwmSnap (v : W32)
  /-- R9: A write to PEN_SNAP captures the Penras counters and late-capable marks in one tick. -/
  | penSnap (v : W32)
  /-- R9: A write to PNT_SNAP captures the selected point, the selected aggregate and the counters in one tick. -/
  | pntSnap (v : W32)
  /-- R9: A write to ADC_SNAP captures the raw codes and counters. -/
  | adcSnap (v : W32)
  /-- R9: A write to ACQ_SNAP captures the capture counters in one tick. -/
  | acqSnap (v : W32)
  /-- R9: A write to CLK_SNAP captures the clock snapshot registers in one tick. -/
  | clkSnap (v : W32)
  /-- R9: A write to TWN_SNAP captures the twin snapshot registers in one tick. -/
  | twnSnap (v : W32)
  /-- R9: A write to HOST_SNAP captures the host counters in one tick. -/
  | hostSnap (v : W32)
  /-- R9: A write to HK_SNAP captures the housekeeping values from one round. -/
  | hkSnap (v : W32)
  /-- R9: A write to AUX_SNAP captures the cooling-drive snapshot registers. -/
  | auxSnap (v : W32)
  /-- R9: A write to LRD_SNAP captures the Larder head, tail, counter and peeked record in one tick. -/
  | lrdSnap (v : W32)
  /-- R9: A write to SYS_SNAP captures the ECC counters in one tick. -/
  | sysSnap (v : W32)
  /-- R521: Power-on reset or a brown-out of VIN resets the whole device and starts the boot. -/
  | powerOnReset (straps : BitVec 4)
  /-- R450: Boot phase FENCE_INIT runs the Fence self-test and loads its parameter set. -/
  | fenceInit (crcOk : Bool) (selfOk : Bool)
  /-- R453: Boot phase IMAGE_LOAD reads, verifies and stages a seed image from flash, falling back between slots. -/
  | imageLoad (slot0 : List Byte) (slot1 : List Byte)
  /-- R450: Boot phase CONFIG_APPLY runs admission on the staged set and applies it. -/
  | configApply
  /-- R26: The boot reaches READY with the converter in OFF, and a BOOT record is written. -/
  | bootReady
  /-- R523: A keyed write to SYS_RESET resets the main partition when permitted. -/
  | sysReset (v : W32)
  /-- R462: An image descriptor on ring 31 delivers a chunk that is verified and staged as it arrives. -/
  | imageChunk (desc : BitVec 256) (bytes : List Byte)
  /-- R462: A gap of 1 s between chunks fails the transfer with error 10. -/
  | imageTransferTimeout
  /-- R462: Command that opens or aborts an image transfer. -/
  | imageBegin (c : Cmd)
  /-- R466: Command that commits the last verified image and optionally performs ADVANCE. -/
  | imageActivate (c : Cmd)
  /-- R468: Command that writes a signed attestation report or the certificate chain. -/
  | attest (c : Cmd)
  /-- R470: TAP instruction SEC_CHAL returns 48 random challenge bytes. -/
  | secChal
  /-- R470: TAP instruction SEC_RESP grants a debug level when the signed response verifies. -/
  | secResp (level : Byte) (slot : Byte) (key : List Byte) (sig : List Byte)
  /-- R472: Every ROUND ms, the device reads the 64 housekeeping channels and updates throttling, shutdown, supply warnings and derating. -/
  | harvestRound (codes : List (Option (BitVec 16)))
  /-- R480: A core, analog or lane supply outside its failure limits for 1 µs trips with cause 18, or makes the device resign. -/
  | supplyFailure (ch : Fin 64)
  /-- R478: Command that ends THERMAL_HALT when the die is cool and its sensors are intact. -/
  | thermalResume (c : Cmd)
  /-- R490: At each AUX period start, a running drive computes its duty or coil demands and switches its half-bridges. -/
  | auxPeriodStart (d : Fin 4)
  /-- R488: A stable Hall code change counts commutation steps or raises a HALL fault. -/
  | hallChange (d : Fin 4) (code : Fin 8)
  /-- R487: A low bootstrap with the high side on causes a refresh pulse, and the third refresh is a BOOTSTRAP fault. -/
  | bootstrapLow (h : Fin 12)
  /-- R486: When PRECHARGE expires, the drive leaves precharge. -/
  | prechargeEnd (d : Fin 4)
  /-- R498: A shunt comparator crossing switches a coil to slow decay or turns the group off with an OVERCURRENT fault. -/
  | shuntCrossing (g : Fin 4) (uv : Int)
  /-- R499: At the end of AUX blanking, a set-level crossing still present acts, and one that has ended is counted. -/
  | auxBlankEnd (g : Fin 4) (uv : Int)
  /-- R497: A debounced limit-input edge ends a homing phase, or stops a move towards its side at DEC_MAX. -/
  | limitInputEdge (pin : Fin 8) (level : Bool)
  /-- R495: After STILL_DELAY at hold current, the stepper enters STANDSTILL. -/
  | stillDelayExpire (d : Fin 4)
  /-- R504: VGD below 7.0 V for 1 µs turns every AUX output low and faults every enabled drive. -/
  | vgdLow
  /-- R502: Command that enables, moves, runs, stops, homes, releases or clears a cooling drive. -/
  | auxDrive (c : Cmd)
  /-- R501: Command that tests the shunt comparators of the named idle groups. -/
  | auxSelftest (c : Cmd) (pass : BitVec 4)
  /-- R514: A trip snapshot finishes writing to its Larder slot and SNAPSHOT sets. -/
  | snapshotComplete
  /-- R515: PFW_L low for 1 µs makes the device complete its snapshot, commit its trip record, write POWER_FAIL and halt Larder writes. -/
  | powerFailWarning
  /-- R515: After PFW_L has stayed high for 10 ms, Larder writes resume in order. -/
  | larderResume
  /-- R516: Command that reads event records, a snapshot, the Fence change log or the user area. -/
  | larderRead (c : Cmd)
  /-- R517: Command that writes a MARK record, pins or unpins a slot, or writes the user area. -/
  | larderMark (c : Cmd)
  /-- R531: An uncorrectable memory error is reported and handled according to its region. -/
  | uncorrectableError (region : Fin 7) (addr : BitVec 24) (hit : UeHit)
  /-- R530: Corrected errors reaching THRESHOLD within a window set CE_THRESH and raise interrupt source 55. -/
  | ceThreshold (n : BitVec 16) (region : Fin 7) (addr : BitVec 24)
  /-- R168: A qualified TRIP_IN pin returns to its inactive level, so source 4 stops being active and the local latches it held may clear. -/
  | tripInputRelease (pin : Fin 8)
  /-- R264: A device receiving lane is up again after 1,024 consecutive valid characters and its PEN_LINK.SYNC bit sets. -/
  | laneSyncRegained (l : Fin 24)
  /-- R264: An endpoint port that was down receives 1,024 valid characters without LINK_DOWN, stops sending LINK_DOWN and ends its loop-back. -/
  | endpointPortUp (sub : Fin 768) (port : Fin 2)
  /-- R260: An endpoint absorbs an ECHO_REQ addressed to it and returns ECHO_RSP with its turnaround out of the same port. -/
  | endpointEchoReq (sub : Fin 768) (delay : W32) (rx : PortLine)
  /-- R366: A toggle of the partner's claim arrives on TWIN_CLAIM_IN after its 8-tick filter and is recorded as the claim of that stroke. -/
  | claimToggleSeen
  /-- R345: One 10 µs lock window falls outside ±50 ppm while the reference is good, and the SYSPLL control word freezes into HOLDOVER. -/
  | lockWindowOutside
  /-- R368: The duplicated control datapath disagrees, detected within one stroke, and the device resigns with cause 5 or trips with cause 19. -/
  | controlDatapathMismatch
  /-- R412: The PCI Express data link layer becomes active and HOST_LINK reports DL_UP, speed and width. -/
  | dataLinkUp (speed : Fin 4) (link : LinkSetup)
  /-- R444: A write to the MSI-X table or its mask in BAR4 masks or unmasks a vector, and unmasking a pending vector sends its message. -/
  | msixTableWrite (place : MsixPlace) (v : W32)
deriving DecidableEq, Repr

end Sys2Proof
end

