-- ==== Sys2Proof/Decode.lean ====
section
/-! DEFINITION. The commands of the block reach it as writes, packets, samples and pins, not as words of a program: every
row of spec/opcode_table.json gives no bits ("fields" is empty), so no word spells a command. -/

namespace Sys2Proof

/-- The command that a word of the table's bits spells: none, for no row gives bits. -/
def decodeTableWord (_nbits _w : Nat) : Option Instr := none

end Sys2Proof
end

