-- ==== Sys2Proof/Config.lean ====
section
/-! DEFINITION. The free values of the model: what the spec leaves open and the device still fixes. None has a body,
so no proof can see what it is. Each is applied to a counter of State (`Dev.free`), which a row that draws a value
advances, or to the operands it depends on. -/

namespace Sys2Proof

/-- The 48 random bytes of SEC_CHAL (R470). DESIGN CHOICE: a free value. -/
opaque Config.challenge : Nat → BitVec 384

/-- The signature of an attestation report by the identity key of the die, over the digest of bytes 0–215 (R468). The
key never leaves the SEC block and the spec gives no value of it. -/
opaque Config.attestSignature : Nat → BitVec 768

/-- The certificate chain of the identity key (R467), by its byte index, and its length. -/
opaque Config.certByte : Nat → BitVec 8
opaque Config.certLength : BitVec 16

/-- Status and error code with which an IMAGE_BEGIN completes whose transfer ABORT closes (R462, R463). -/
opaque Config.abortStatus : Nat → BitVec 8
opaque Config.abortError : Nat → BitVec 32

/-- What a power failure during ADVANCE leaves (R461): how far the counter has come, and which fuses are blown, bit k the key
of slot k and bit 4 + k its revocation. -/
opaque Config.cutCounter : Nat → BitVec 8
opaque Config.cutFuses : Nat → BitVec 8

/-- Status with which a TIME_SET completes whose PULL or STEP holdover or a new lock cuts short (R347 names none). -/
opaque Config.cutStatus : Nat → BitVec 8

/-- The trim of a deceleration value, at most 1 LSB per tick either way (R91), by the velocity, the remaining distance and
the value trimmed: the same in two devices that move alike (R12, R13). The spec bounds it, says what it brings about and
names no value. -/
opaque Config.trim : Nat → Nat → Nat → Fin 3

/-- The phase of the alternating bits that a sigma-delta filter restarts from, by channel (R316). The spec gives the
value of that history, 0, and no phase. -/
opaque Config.sdPhase : Nat → Bool

/-- The value of a housekeeping channel whose conversion is missing, and of a thermistor whose input is at 0 V or gives
no temperature by R474. -/
opaque Config.hkValue : Nat → BitVec 16

/-- The words of a snapshot's rows that are not valid (R514), by the sequence of its TRIP record and the word's place. -/
opaque Config.emptyRow : Nat → Nat → BitVec 32

/-- The bytes of the Fence parameter set whose SHA-384 is reported (R406, R468), from the passcode, the eight IN_CFG and
the four PAIR_CFG words. The spec gives no layout for them. -/
opaque Config.fenceForm : List (BitVec 32) → List (BitVec 8)

/-- The EPOCH field of the frames and BLOCK sets of a string that has no epoch yet (R233, R251): some epoch, by the string. -/
opaque Config.noEpoch : Nat → BitVec 16

/-- How far an endpoint's tick count is corrected for an alignment error, in fine ticks and towards it (R261): the spec names
no law. -/
opaque Config.discipline : Int → Nat

/-- The bytes of a twin-link packet between its frame's head and its CRC-32, by its type, for the types whose content the spec
names without a layout (R359). -/
opaque Config.packetBody : Nat → Nat

end Sys2Proof
end

