-- ==== Sys2Proof/Machine/Arith.lean ====
section
/-! DEFINITION. The arithmetic every rule shares: bit fields, rounding half upwards, saturation (R112), the exact
sine, cosine, magnitude and arctangent (R536), and the rounded quotient and product. All of it is computed on
exact integers and narrowed once. -/

namespace Sys2Proof.Machine

/-- Bits hi..lo of a word. -/
def bits (v hi lo : Nat) : Nat := v / 2 ^ lo % 2 ^ (hi + 1 - lo)

/-- Bit n of a word. -/
def bitAt (v n : Nat) : Bool := v / 2 ^ n % 2 = 1

/-- A word of `w` bits read as two's complement (R3). -/
def signed (w v : Nat) : Int := if v % 2 ^ w < 2 ^ (w - 1) then (v % 2 ^ w : Nat) else (v % 2 ^ w : Nat) - (2 ^ w : Nat)

/-- The `w`-bit two's complement word of an integer. -/
def unsigned (w : Nat) (x : Int) : Nat := (x % (2 ^ w : Nat)).toNat

/-- 1 for true. -/
def b2n (b : Bool) : Nat := if b then 1 else 0

/-- A word from fields given as (value, lowest bit): their sum, the fields being disjoint. -/
def pack : List (Nat × Nat) → Nat
  | [] => 0
  | (v, lo) :: rest => v * 2 ^ lo + pack rest

/-- The exact quotient, rounded half upwards (R112). -/
def rdiv (n d : Int) : Int :=
  if 0 < d then (2 * n + d) / (2 * d) else if d < 0 then (-2 * n - d) / (-2 * d) else 0

/-- An arithmetic right shift by `k`, rounded half upwards (R112). -/
def rshr (n : Int) (k : Nat) : Int := rdiv n (2 ^ k : Nat)

/-- A value held between two bounds. -/
def clampI (lo hi x : Int) : Int := if x < lo then lo else if hi < x then hi else x

/-- A value held between two bounds. -/
def clampN (lo hi x : Nat) : Nat := if x < lo then lo else if hi < x then hi else x

/-- Saturation to a two's-complement format of `w` bits (R112). -/
def sat (w : Nat) (x : Int) : Int := clampI (-(2 ^ (w - 1) : Nat)) ((2 ^ (w - 1) : Nat) - 1) x

/-- A signal word from an exact value: saturated to Q7.24 (R111, R112). -/
def sat32 (x : Int) : W32 := BitVec.ofInt 32 (sat 32 x)

/-- A counter that saturates at the top of 32 bits. -/
def satInc (n : Nat) : Nat := if n < 0xFFFFFFFF then n + 1 else 0xFFFFFFFF

/-- Addition into a counter that saturates at the top of 32 bits. -/
def satAdd (n k : Nat) : Nat := if n + k < 0xFFFFFFFF then n + k else 0xFFFFFFFF

/-- ceil(n / d). -/
def ceilDiv (n d : Nat) : Nat := (n + d - 1) / d

/-- One digit of the square root at a time, from bit `k` downwards. -/
def isqrtFrom (n : Nat) : Nat → Nat → Nat
  | 0, r => if (r + 1) * (r + 1) ≤ n then r + 1 else r
  | k + 1, r =>
    let t := r + 2 ^ (k + 1)
    if t * t ≤ n then isqrtFrom n k t else isqrtFrom n k r

/-- The square root rounded down, of a value below 2^144 (R144, R536). -/
def isqrt (n : Nat) : Nat := isqrtFrom n 72 0

/-- The magnitude sqrt(x² + y²), rounded down to 1 LSB (R536). -/
def magnitude (x y : Int) : Int := isqrt (x * x + y * y).toNat

/-- Fraction bits of the fixed-point values the exact functions are computed in; far more than any half LSB of
their results needs. -/
def fixBits : Nat := 160

/-- π in that format. -/
def piFix : Int := 4591442807048218921384805199743311128454155024418

/-- The terms of the sine or cosine series from the term `t` with index `k` on. -/
def trigSeries (x2 : Int) : Nat → Nat → Int → Int
  | 0, _, t => t
  | fuel + 1, k, t =>
    t + trigSeries x2 fuel (k + 2) (-(t * x2 / (2 ^ fixBits : Nat)) / ((k + 1) * (k + 2) : Nat))

/-- cos and sin of the angle num/den of a revolution within the first eighth. -/
def cosSinEighth (num den : Nat) : Int × Int :=
  let x : Int := 2 * piFix * num / den
  let x2 : Int := x * x / (2 ^ fixBits : Nat)
  (trigSeries x2 24 0 (2 ^ fixBits : Nat), trigSeries x2 24 1 x)

/-- cos and sin of the angle num/den of a revolution, in the internal format; den is a multiple of 8. -/
def cosSinFix (num den : Nat) : Int × Int :=
  let n := num % den
  let e := den / 8
  let q := n / e
  let f := n % e
  let (cf, sf) := cosSinEighth f den
  let (cg, sg) := cosSinEighth (e - f) den
  match q with
  | 0 => (cf, sf)
  | 1 => (sg, cg)
  | 2 => (-sf, cf)
  | 3 => (-cg, sg)
  | 4 => (-cf, -sf)
  | 5 => (-sg, -cg)
  | 6 => (sf, -cf)
  | _ => (cg, -sg)

/-- cos and sin of an angle of `au` AU plus `thirds` times 120°, each rounded half upwards to Q1.30 (R536). The 120°
of R115 and R140 is exact, a third of 2^32 AU being no whole number (DEDUCED). -/
def cosSin (au : Nat) (thirds : Nat) : Int × Int :=
  let (c, s) := cosSinFix (3 * au + thirds * 2 ^ 32) (3 * 2 ^ 32)
  (rshr c (fixBits - 30), rshr s (fixBits - 30))

/-- The vector (x, y) lies at or past the angle num/2^33 of a revolution, for vectors and angles of the first half. -/
def atOrPast (x y : Int) (num : Nat) : Bool :=
  let (c, s) := cosSinFix num (2 ^ 33)
  decide (x * s ≤ y * c)

/-- The vector's angle in whole AU, rounded half upwards, digit by digit from bit k − 1: the greatest number whose lower
rounding bound lies at or before the vector. -/
def atanFrom (x y : Int) : Nat → Nat → Nat
  | 0, r => r
  | k + 1, r => if atOrPast x y (2 * (r + 2 ^ k) - 1) then atanFrom x y k (r + 2 ^ k) else atanFrom x y k r

/-- atan2(y, x) in whole AU, rounded half upwards, modulo 2^32; atan2(0, 0) is 0 (R536). -/
def atan2 (y x : Int) : Nat :=
  if x = 0 ∧ y = 0 then 0
  else if 0 ≤ y then
    (if y = 0 then (if 0 < x then 0 else 2 ^ 31) else atanFrom x y 32 0)
  else (2 ^ 31 + atanFrom (-x) (-y) 32 0) % 2 ^ 32

/-- The terms of 2·artanh(z) from the term with odd index `k` on. -/
def lnSeries (z2 : Int) : Nat → Nat → Int → Int
  | 0, _, _ => 0
  | fuel + 1, k, t => 2 * t / k + lnSeries z2 fuel (k + 2) (t * z2 / (2 ^ fixBits : Nat))

/-- ln 2 in the internal format. -/
def ln2Fix : Int := 1013035739299659071135698605846798551586536899366

/-- ln(n/d) in the internal format, for positive n and d; the argument is scaled to [1, 2) first. -/
def lnFix (n d : Nat) : Int :=
  let e : Int := (Nat.log2 n : Int) - (Nat.log2 d : Int)
  let (n', d') : Nat × Nat := if 0 ≤ e then (n, d * 2 ^ e.toNat) else (n * 2 ^ (-e).toNat, d)
  let z : Int := ((n' : Int) - d') * (2 ^ fixBits : Nat) / (n' + d')
  let z2 : Int := z * z / (2 ^ fixBits : Nat)
  e * ln2Fix + lnSeries z2 120 1 z

/-- The list 0, 1, …, n − 1. -/
def upto (n : Nat) : List Nat := List.range n

/-- The sum of a function over 0 .. n−1. -/
def sumTo (n : Nat) (f : Nat → Int) : Int := (upto n).foldl (fun acc k => acc + f k) 0

/-- The least element of a list, `d` for an empty one. -/
def minList (d : Nat) : List Nat → Nat
  | [] => d
  | x :: xs => xs.foldl (fun a b => if b < a then b else a) x

/-- The greatest element of a list, `d` for an empty one. -/
def maxList (d : Nat) : List Nat → Nat
  | [] => d
  | x :: xs => xs.foldl (fun a b => if a < b then b else a) x

end Sys2Proof.Machine
end

