-- ==== Sys2Proof/Machine/RegTable.lean ====
section
/-! DEFINITION. The register table of BAR0: every register's offset, number of instances, reset value and the bits of
each access code (R5), as the register tables of the chapters give them. -/

namespace Sys2Proof.Machine

/-- One register, or one array of registers of the same layout. The masks give the bits of each access code; bits in
none of them are RO, WO or RSV (R5, R8). `staged` says that a write changes only the staged value (R49). -/
structure RegRow where
  base : Nat
  count : Nat
  stride : Nat
  reset : Nat
  rw : Nat
  w1c : Nat
  staged : Bool
deriving DecidableEq, Repr

namespace Reg

/-- SYS_ID_DEVICE (21_supplies_pins_package.md). -/
abbrev SYS_ID_DEVICE : Nat := 0x00000
/-- SYS_ID_STEP (21_supplies_pins_package.md). -/
abbrev SYS_ID_STEP : Nat := 0x00004
/-- SYS_STRAPS (21_supplies_pins_package.md). -/
abbrev SYS_STRAPS : Nat := 0x00008
/-- SYS_RESET (21_supplies_pins_package.md). -/
abbrev SYS_RESET : Nat := 0x0000C
/-- SYS_RESET_CAUSE (21_supplies_pins_package.md). -/
abbrev SYS_RESET_CAUSE : Nat := 0x00010
/-- SYS_ECC_CFG (21_supplies_pins_package.md). -/
abbrev SYS_ECC_CFG : Nat := 0x00014
/-- SYS_EVENT (21_supplies_pins_package.md). -/
abbrev SYS_EVENT : Nat := 0x00018
/-- SYS_SNAP (21_supplies_pins_package.md). -/
abbrev SYS_SNAP : Nat := 0x0001C
/-- SYS_CE_CNT_SNAP (21_supplies_pins_package.md). -/
abbrev SYS_CE_CNT_SNAP : Nat := 0x00020
/-- SYS_UE_CNT_SNAP (21_supplies_pins_package.md). -/
abbrev SYS_UE_CNT_SNAP : Nat := 0x00024
/-- SYS_ECC_LAST_SNAP (21_supplies_pins_package.md). -/
abbrev SYS_ECC_LAST_SNAP : Nat := 0x00028
/-- CLK_CFG (13_clock_synthesis.md). -/
abbrev CLK_CFG : Nat := 0x10000
/-- CLK_PULL (13_clock_synthesis.md). -/
abbrev CLK_PULL : Nat := 0x10004
/-- CLK_OUT_n (13_clock_synthesis.md). -/
abbrev CLK_OUT (n : Nat) : Nat := 0x10010 + 0x4 * n
/-- CLK_STATUS (13_clock_synthesis.md). -/
abbrev CLK_STATUS : Nat := 0x10040
/-- CLK_EVENT (13_clock_synthesis.md). -/
abbrev CLK_EVENT : Nat := 0x10044
/-- CLK_SNAP (13_clock_synthesis.md). -/
abbrev CLK_SNAP : Nat := 0x10048
/-- CLK_PHASE_ERR_SNAP (13_clock_synthesis.md). -/
abbrev CLK_PHASE_ERR_SNAP : Nat := 0x10050
/-- CLK_FOFS_SNAP (13_clock_synthesis.md). -/
abbrev CLK_FOFS_SNAP : Nat := 0x10054
/-- CLK_TOD_L_SNAP (13_clock_synthesis.md). -/
abbrev CLK_TOD_L_SNAP : Nat := 0x10058
/-- CLK_TOD_H_SNAP (13_clock_synthesis.md). -/
abbrev CLK_TOD_H_SNAP : Nat := 0x1005C
/-- CLK_SEC_TICK_SNAP (13_clock_synthesis.md). -/
abbrev CLK_SEC_TICK_SNAP : Nat := 0x10060
/-- CLK_HOLD_CNT_SNAP (13_clock_synthesis.md). -/
abbrev CLK_HOLD_CNT_SNAP : Nat := 0x10064
/-- CLK_STEP_CNT_SNAP (13_clock_synthesis.md). -/
abbrev CLK_STEP_CNT_SNAP : Nat := 0x10068
/-- CLK_LOCK_CNT_SNAP (13_clock_synthesis.md). -/
abbrev CLK_LOCK_CNT_SNAP : Nat := 0x1006C
/-- HOST_LINK (16_host_interface.md). -/
abbrev HOST_LINK : Nat := 0x20000
/-- HOST_SHADOW_L (16_host_interface.md). -/
abbrev HOST_SHADOW_L : Nat := 0x20004
/-- HOST_SHADOW_H (16_host_interface.md). -/
abbrev HOST_SHADOW_H : Nat := 0x20008
/-- HOST_WD (16_host_interface.md). -/
abbrev HOST_WD : Nat := 0x2000C
/-- HOST_EVT_ROUTE_L (16_host_interface.md). -/
abbrev HOST_EVT_ROUTE_L : Nat := 0x20010
/-- HOST_EVT_ROUTE_H (16_host_interface.md). -/
abbrev HOST_EVT_ROUTE_H : Nat := 0x20014
/-- HOST_EVENT (16_host_interface.md). -/
abbrev HOST_EVENT : Nat := 0x20018
/-- HOST_IRQ_STAT_L (16_host_interface.md). -/
abbrev HOST_IRQ_STAT_L : Nat := 0x2001C
/-- HOST_IRQ_STAT_H (16_host_interface.md). -/
abbrev HOST_IRQ_STAT_H : Nat := 0x20020
/-- HOST_SNAP (16_host_interface.md). -/
abbrev HOST_SNAP : Nat := 0x20024
/-- HOST_CMD_CNT_SNAP (16_host_interface.md). -/
abbrev HOST_CMD_CNT_SNAP : Nat := 0x20030
/-- HOST_CMD_ERR_CNT_SNAP (16_host_interface.md). -/
abbrev HOST_CMD_ERR_CNT_SNAP : Nat := 0x20034
/-- HOST_DB_DISC_CNT_SNAP (16_host_interface.md). -/
abbrev HOST_DB_DISC_CNT_SNAP : Nat := 0x20038
/-- HOST_ACC_ERR_CNT_SNAP (16_host_interface.md). -/
abbrev HOST_ACC_ERR_CNT_SNAP : Nat := 0x2003C
/-- HOST_CPL_LOST_CNT_SNAP (16_host_interface.md). -/
abbrev HOST_CPL_LOST_CNT_SNAP : Nat := 0x20040
/-- HOST_EVT_COAL_CNT_SNAP (16_host_interface.md). -/
abbrev HOST_EVT_COAL_CNT_SNAP : Nat := 0x20044
/-- HOST_TEL_SKIP_CNT_SNAP (16_host_interface.md). -/
abbrev HOST_TEL_SKIP_CNT_SNAP : Nat := 0x20048
/-- HOST_FEN_LOST_CNT_SNAP (16_host_interface.md). -/
abbrev HOST_FEN_LOST_CNT_SNAP : Nat := 0x2004C
/-- HOST_SVC_IGN_CNT_SNAP (16_host_interface.md). -/
abbrev HOST_SVC_IGN_CNT_SNAP : Nat := 0x20050
/-- HOST_RING_BASE_L_n (16_host_interface.md). -/
abbrev HOST_RING_BASE_L (n : Nat) : Nat := 0x20100 + 0x10 * n
/-- HOST_RING_BASE_H_n (16_host_interface.md). -/
abbrev HOST_RING_BASE_H (n : Nat) : Nat := 0x20104 + 0x10 * n
/-- HOST_RING_CFG_n (16_host_interface.md). -/
abbrev HOST_RING_CFG (n : Nat) : Nat := 0x20108 + 0x10 * n
/-- HOST_RING_STATUS_n (16_host_interface.md). -/
abbrev HOST_RING_STATUS (n : Nat) : Nat := 0x2010C + 0x10 * n
/-- HOST_MSIX_MOD_n (16_host_interface.md). -/
abbrev HOST_MSIX_MOD (n : Nat) : Nat := 0x20400 + 0x4 * n
/-- ANG_GRID (02_angle_timebase.md). -/
abbrev ANG_GRID : Nat := 0x30000
/-- ANG_TFREE (02_angle_timebase.md). -/
abbrev ANG_TFREE : Nat := 0x30004
/-- ANG_TSA (02_angle_timebase.md). -/
abbrev ANG_TSA : Nat := 0x30008
/-- ANG_THETA_START (02_angle_timebase.md). -/
abbrev ANG_THETA_START : Nat := 0x3000C
/-- ANG_OFFSET (02_angle_timebase.md). -/
abbrev ANG_OFFSET : Nat := 0x30010
/-- ANG_OFFSET_STEP (02_angle_timebase.md). -/
abbrev ANG_OFFSET_STEP : Nat := 0x30014
/-- ANG_FW_L (02_angle_timebase.md). -/
abbrev ANG_FW_L : Nat := 0x30040
/-- ANG_FW_H (02_angle_timebase.md). -/
abbrev ANG_FW_H : Nat := 0x30044
/-- ANG_FWMIN_L (02_angle_timebase.md). -/
abbrev ANG_FWMIN_L : Nat := 0x30048
/-- ANG_FWMIN_H (02_angle_timebase.md). -/
abbrev ANG_FWMIN_H : Nat := 0x3004C
/-- ANG_FWMAX_L (02_angle_timebase.md). -/
abbrev ANG_FWMAX_L : Nat := 0x30050
/-- ANG_FWMAX_H (02_angle_timebase.md). -/
abbrev ANG_FWMAX_H : Nat := 0x30054
/-- ANG_STATUS (02_angle_timebase.md). -/
abbrev ANG_STATUS : Nat := 0x30080
/-- ANG_EVENT (02_angle_timebase.md). -/
abbrev ANG_EVENT : Nat := 0x30084
/-- ANG_SNAP (02_angle_timebase.md). -/
abbrev ANG_SNAP : Nat := 0x30088
/-- ANG_SN_SNAP (02_angle_timebase.md). -/
abbrev ANG_SN_SNAP : Nat := 0x30090
/-- ANG_REV_SNAP (02_angle_timebase.md). -/
abbrev ANG_REV_SNAP : Nat := 0x30094
/-- ANG_THETA_SNAP (02_angle_timebase.md). -/
abbrev ANG_THETA_SNAP : Nat := 0x30098
/-- ANG_INDEX_SNAP (02_angle_timebase.md). -/
abbrev ANG_INDEX_SNAP : Nat := 0x3009C
/-- ANG_FW_ACT_L (02_angle_timebase.md). -/
abbrev ANG_FW_ACT_L : Nat := 0x300A0
/-- ANG_FW_ACT_H (02_angle_timebase.md). -/
abbrev ANG_FW_ACT_H : Nat := 0x300A4
/-- ANG_OFFSET_ACT (02_angle_timebase.md). -/
abbrev ANG_OFFSET_ACT : Nat := 0x300A8
/-- ANG_MCN_SNAP (02_angle_timebase.md). -/
abbrev ANG_MCN_SNAP : Nat := 0x300AC
/-- ANG_MC_BASE_SNAP (02_angle_timebase.md). -/
abbrev ANG_MC_BASE_SNAP : Nat := 0x300B0
/-- ANG_TICK_L_SNAP (02_angle_timebase.md). -/
abbrev ANG_TICK_L_SNAP : Nat := 0x300B4
/-- ANG_TICK_H_SNAP (02_angle_timebase.md). -/
abbrev ANG_TICK_H_SNAP : Nat := 0x300B8
/-- ANG_CLAMP_CNT_SNAP (02_angle_timebase.md). -/
abbrev ANG_CLAMP_CNT_SNAP : Nat := 0x300BC
/-- GFM_STATUS (03_grid_forming_machine.md). -/
abbrev GFM_STATUS : Nat := 0x30100
/-- GFM_EVENT (03_grid_forming_machine.md). -/
abbrev GFM_EVENT : Nat := 0x30104
/-- GFM_SWING (03_grid_forming_machine.md). -/
abbrev GFM_SWING : Nat := 0x30108
/-- GFM_QV (03_grid_forming_machine.md). -/
abbrev GFM_QV : Nat := 0x3010C
/-- GFM_EPS_LIM (03_grid_forming_machine.md). -/
abbrev GFM_EPS_LIM : Nat := 0x30110
/-- GFM_E_MIN (03_grid_forming_machine.md). -/
abbrev GFM_E_MIN : Nat := 0x30114
/-- GFM_E_MAX (03_grid_forming_machine.md). -/
abbrev GFM_E_MAX : Nat := 0x30118
/-- GFM_ZV (03_grid_forming_machine.md). -/
abbrev GFM_ZV : Nat := 0x3011C
/-- GFM_ZF (03_grid_forming_machine.md). -/
abbrev GFM_ZF : Nat := 0x30120
/-- GFM_BS (03_grid_forming_machine.md). -/
abbrev GFM_BS : Nat := 0x30124
/-- GFM_STOP (03_grid_forming_machine.md). -/
abbrev GFM_STOP : Nat := 0x30128
/-- GFM_RS_WIN (03_grid_forming_machine.md). -/
abbrev GFM_RS_WIN : Nat := 0x3012C
/-- GFM_RS_TIME (03_grid_forming_machine.md). -/
abbrev GFM_RS_TIME : Nat := 0x30130
/-- GFM_BKR (03_grid_forming_machine.md). -/
abbrev GFM_BKR : Nat := 0x30134
/-- GFM_PF_n (03_grid_forming_machine.md). -/
abbrev GFM_PF (n : Nat) : Nat := 0x30140 + 0x4 * n
/-- GFM_SNAP (03_grid_forming_machine.md). -/
abbrev GFM_SNAP : Nat := 0x30180
/-- GFM_OMEGA_SNAP (03_grid_forming_machine.md). -/
abbrev GFM_OMEGA_SNAP : Nat := 0x30184
/-- GFM_PE_SNAP (03_grid_forming_machine.md). -/
abbrev GFM_PE_SNAP : Nat := 0x30188
/-- GFM_QE_SNAP (03_grid_forming_machine.md). -/
abbrev GFM_QE_SNAP : Nat := 0x3018C
/-- GFM_E_SNAP (03_grid_forming_machine.md). -/
abbrev GFM_E_SNAP : Nat := 0x30190
/-- GFM_PHI_SNAP (03_grid_forming_machine.md). -/
abbrev GFM_PHI_SNAP : Nat := 0x30194
/-- GFM_DTHETA_SNAP (03_grid_forming_machine.md). -/
abbrev GFM_DTHETA_SNAP : Nat := 0x30198
/-- GFM_DF_SNAP (03_grid_forming_machine.md). -/
abbrev GFM_DF_SNAP : Nat := 0x3019C
/-- GFM_DV_SNAP (03_grid_forming_machine.md). -/
abbrev GFM_DV_SNAP : Nat := 0x301A0
/-- GFM_EPS_SNAP (03_grid_forming_machine.md). -/
abbrev GFM_EPS_SNAP : Nat := 0x301A4
/-- PROF_VSTART_n (04_profile_engine.md). -/
abbrev PROF_VSTART (n : Nat) : Nat := 0x30200 + 0x40 * n
/-- PROF_VBRK_n (04_profile_engine.md). -/
abbrev PROF_VBRK (n : Nat) : Nat := 0x30204 + 0x40 * n
/-- PROF_VMAX_n (04_profile_engine.md). -/
abbrev PROF_VMAX (n : Nat) : Nat := 0x30208 + 0x40 * n
/-- PROF_VSTOP_n (04_profile_engine.md). -/
abbrev PROF_VSTOP (n : Nat) : Nat := 0x3020C + 0x40 * n
/-- PROF_A1_n (04_profile_engine.md). -/
abbrev PROF_A1 (n : Nat) : Nat := 0x30210 + 0x40 * n
/-- PROF_A2_n (04_profile_engine.md). -/
abbrev PROF_A2 (n : Nat) : Nat := 0x30214 + 0x40 * n
/-- PROF_D2_n (04_profile_engine.md). -/
abbrev PROF_D2 (n : Nat) : Nat := 0x30218 + 0x40 * n
/-- PROF_D1_n (04_profile_engine.md). -/
abbrev PROF_D1 (n : Nat) : Nat := 0x3021C + 0x40 * n
/-- PROF_DECMAX_n (04_profile_engine.md). -/
abbrev PROF_DECMAX (n : Nat) : Nat := 0x30220 + 0x40 * n
/-- PROF_TARGET_n (04_profile_engine.md). -/
abbrev PROF_TARGET (n : Nat) : Nat := 0x30224 + 0x40 * n
/-- PROF_STATUS_n (04_profile_engine.md). -/
abbrev PROF_STATUS (n : Nat) : Nat := 0x30228 + 0x40 * n
/-- PROF_EVENT_n (04_profile_engine.md). -/
abbrev PROF_EVENT (n : Nat) : Nat := 0x3022C + 0x40 * n
/-- PROF_POS_SNAP_n (04_profile_engine.md). -/
abbrev PROF_POS_SNAP (n : Nat) : Nat := 0x30230 + 0x40 * n
/-- PROF_VEL_SNAP_n (04_profile_engine.md). -/
abbrev PROF_VEL_SNAP (n : Nat) : Nat := 0x30234 + 0x40 * n
/-- PROF_SNAP (04_profile_engine.md). -/
abbrev PROF_SNAP : Nat := 0x30600
/-- PROF_EVENT_SUM (04_profile_engine.md). -/
abbrev PROF_EVENT_SUM : Nat := 0x30604
/-- LOOP_CTRL (05_loop_engine.md). -/
abbrev LOOP_CTRL : Nat := 0x40000
/-- LOOP_OUT_SEL (05_loop_engine.md). -/
abbrev LOOP_OUT_SEL : Nat := 0x40004
/-- LOOP_OUT_ADV (05_loop_engine.md). -/
abbrev LOOP_OUT_ADV : Nat := 0x40008
/-- LOOP_MAP_n (05_loop_engine.md). -/
abbrev LOOP_MAP (n : Nat) : Nat := 0x40010 + 0x4 * n
/-- LOOP_REG_SEL (05_loop_engine.md). -/
abbrev LOOP_REG_SEL : Nat := 0x40020
/-- LOOP_REG_HYST (05_loop_engine.md). -/
abbrev LOOP_REG_HYST : Nat := 0x40024
/-- LOOP_REG_XBP_n (05_loop_engine.md). -/
abbrev LOOP_REG_XBP (n : Nat) : Nat := 0x40028 + 0x4 * n
/-- LOOP_REG_YBP_n (05_loop_engine.md). -/
abbrev LOOP_REG_YBP (n : Nat) : Nat := 0x40034 + 0x4 * n
/-- LOOP_STATUS (05_loop_engine.md). -/
abbrev LOOP_STATUS : Nat := 0x40040
/-- LOOP_EVENT (05_loop_engine.md). -/
abbrev LOOP_EVENT : Nat := 0x40044
/-- LOOP_TEST (05_loop_engine.md). -/
abbrev LOOP_TEST : Nat := 0x40048
/-- LOOP_SNAP (05_loop_engine.md). -/
abbrev LOOP_SNAP : Nat := 0x4004C
/-- LOOP_MISS_CNT_SNAP (05_loop_engine.md). -/
abbrev LOOP_MISS_CNT_SNAP : Nat := 0x40050
/-- LOOP_CLAMP_SNAP_L (05_loop_engine.md). -/
abbrev LOOP_CLAMP_SNAP_L : Nat := 0x40054
/-- LOOP_CLAMP_SNAP_H (05_loop_engine.md). -/
abbrev LOOP_CLAMP_SNAP_H : Nat := 0x40058
/-- LOOP_SAT_SNAP_L (05_loop_engine.md). -/
abbrev LOOP_SAT_SNAP_L : Nat := 0x4005C
/-- LOOP_SAT_SNAP_H (05_loop_engine.md). -/
abbrev LOOP_SAT_SNAP_H : Nat := 0x40060
/-- LOOP_COST_SNAP (05_loop_engine.md). -/
abbrev LOOP_COST_SNAP : Nat := 0x40064
/-- LOOP_PEEK_SEL (05_loop_engine.md). -/
abbrev LOOP_PEEK_SEL : Nat := 0x40068
/-- LOOP_PEEK_SNAP (05_loop_engine.md). -/
abbrev LOOP_PEEK_SNAP : Nat := 0x4006C
/-- LOOP_ADM_RESULT (05_loop_engine.md). -/
abbrev LOOP_ADM_RESULT : Nat := 0x40070
/-- LOOP_CASC_IN_n (05_loop_engine.md). -/
abbrev LOOP_CASC_IN (n : Nat) : Nat := 0x40400 + 0x20 * n
/-- LOOP_CASC_OUT_n (05_loop_engine.md). -/
abbrev LOOP_CASC_OUT (n : Nat) : Nat := 0x40404 + 0x20 * n
/-- LOOP_CASC_SEC_n (05_loop_engine.md). -/
abbrev LOOP_CASC_SEC (n : Nat) : Nat := 0x40408 + 0x20 * n
/-- LOOP_CASC_GAIN_n (05_loop_engine.md). -/
abbrev LOOP_CASC_GAIN (n : Nat) : Nat := 0x4040C + 0x20 * n
/-- LOOP_CASC_HI_n (05_loop_engine.md). -/
abbrev LOOP_CASC_HI (n : Nat) : Nat := 0x40410 + 0x20 * n
/-- LOOP_CASC_LO_n (05_loop_engine.md). -/
abbrev LOOP_CASC_LO (n : Nat) : Nat := 0x40414 + 0x20 * n
/-- LOOP_CASC_MAP_L_n (05_loop_engine.md). -/
abbrev LOOP_CASC_MAP_L (n : Nat) : Nat := 0x40418 + 0x20 * n
/-- LOOP_CASC_MAP_H_n (05_loop_engine.md). -/
abbrev LOOP_CASC_MAP_H (n : Nat) : Nat := 0x4041C + 0x20 * n
/-- LOOP_COMP_CFG_n (05_loop_engine.md). -/
abbrev LOOP_COMP_CFG (n : Nat) : Nat := 0x40A00 + 0x10 * n
/-- LOOP_COMP_OFS_n (05_loop_engine.md). -/
abbrev LOOP_COMP_OFS (n : Nat) : Nat := 0x40A04 + 0x10 * n
/-- LOOP_COMP_GAIN_n (05_loop_engine.md). -/
abbrev LOOP_COMP_GAIN (n : Nat) : Nat := 0x40A08 + 0x10 * n
/-- ADC_SAR_EN (11_sensing.md). -/
abbrev ADC_SAR_EN : Nat := 0x48000
/-- ADC_WIN_EN (11_sensing.md). -/
abbrev ADC_WIN_EN : Nat := 0x48004
/-- ADC_WIN_CFG (11_sensing.md). -/
abbrev ADC_WIN_CFG : Nat := 0x48008
/-- ADC_SD_GRP_n (11_sensing.md). -/
abbrev ADC_SD_GRP (n : Nat) : Nat := 0x48010 + 0x4 * n
/-- ADC_STATUS (11_sensing.md). -/
abbrev ADC_STATUS : Nat := 0x48040
/-- ADC_FAIL_L (11_sensing.md). -/
abbrev ADC_FAIL_L : Nat := 0x48044
/-- ADC_FAIL_H (11_sensing.md). -/
abbrev ADC_FAIL_H : Nat := 0x48048
/-- ADC_WIN_STATUS (11_sensing.md). -/
abbrev ADC_WIN_STATUS : Nat := 0x4804C
/-- ADC_SINC2_STATUS (11_sensing.md). -/
abbrev ADC_SINC2_STATUS : Nat := 0x48050
/-- ADC_EVENT (11_sensing.md). -/
abbrev ADC_EVENT : Nat := 0x48054
/-- ADC_SNAP (11_sensing.md). -/
abbrev ADC_SNAP : Nat := 0x48058
/-- ADC_CLIP_CNT_SNAP (11_sensing.md). -/
abbrev ADC_CLIP_CNT_SNAP : Nat := 0x48060
/-- ADC_FAIL_CNT_SNAP (11_sensing.md). -/
abbrev ADC_FAIL_CNT_SNAP : Nat := 0x48064
/-- ADC_TRIP_CH_SNAP (11_sensing.md). -/
abbrev ADC_TRIP_CH_SNAP : Nat := 0x48068
/-- ADC_SD_CH_n (11_sensing.md). -/
abbrev ADC_SD_CH (n : Nat) : Nat := 0x48100 + 0x4 * n
/-- ADC_SD_TH_n (11_sensing.md). -/
abbrev ADC_SD_TH (n : Nat) : Nat := 0x48200 + 0x4 * n
/-- ADC_WIN_n (11_sensing.md). -/
abbrev ADC_WIN (n : Nat) : Nat := 0x48300 + 0x4 * n
/-- ADC_RAW_SNAP_n (11_sensing.md). -/
abbrev ADC_RAW_SNAP (n : Nat) : Nat := 0x48400 + 0x4 * n
/-- ADC_CAL_OFS_n (11_sensing.md). -/
abbrev ADC_CAL_OFS (n : Nat) : Nat := 0x48800 + 0x8 * n
/-- ADC_CAL_GAIN_n (11_sensing.md). -/
abbrev ADC_CAL_GAIN (n : Nat) : Nat := 0x48804 + 0x8 * n
/-- MOD_CFG (07_arm_modulation.md). -/
abbrev MOD_CFG : Nat := 0x50000
/-- MOD_SORT_W (07_arm_modulation.md). -/
abbrev MOD_SORT_W : Nat := 0x50004
/-- MOD_SORT_WT (07_arm_modulation.md). -/
abbrev MOD_SORT_WT : Nat := 0x50008
/-- MOD_SORT_DB (07_arm_modulation.md). -/
abbrev MOD_SORT_DB : Nat := 0x5000C
/-- MOD_VNOM (07_arm_modulation.md). -/
abbrev MOD_VNOM : Nat := 0x50010
/-- MOD_EXPORT (07_arm_modulation.md). -/
abbrev MOD_EXPORT : Nat := 0x50014
/-- MOD_ARM_n (07_arm_modulation.md). -/
abbrev MOD_ARM (n : Nat) : Nat := 0x50020 + 0x4 * n
/-- MOD_STR_n (07_arm_modulation.md). -/
abbrev MOD_STR (n : Nat) : Nat := 0x50040 + 0x4 * n
/-- MOD_STATUS (07_arm_modulation.md). -/
abbrev MOD_STATUS : Nat := 0x50080
/-- MOD_EVENT (07_arm_modulation.md). -/
abbrev MOD_EVENT : Nat := 0x50084
/-- MOD_SNAP (07_arm_modulation.md). -/
abbrev MOD_SNAP : Nat := 0x50088
/-- MOD_ARM_SNAP_n (07_arm_modulation.md). -/
abbrev MOD_ARM_SNAP (n : Nat) : Nat := 0x50090 + 0x10 * n
/-- MOD_CARRY_SNAP_n (07_arm_modulation.md). -/
abbrev MOD_CARRY_SNAP (n : Nat) : Nat := 0x50094 + 0x10 * n
/-- MOD_EDGE_SNAP_n (07_arm_modulation.md). -/
abbrev MOD_EDGE_SNAP (n : Nat) : Nat := 0x50098 + 0x10 * n
/-- MOD_EXCL_SNAP_n (07_arm_modulation.md). -/
abbrev MOD_EXCL_SNAP (n : Nat) : Nat := 0x50100 + 0x4 * n
/-- MOD_STALE_SNAP_n (07_arm_modulation.md). -/
abbrev MOD_STALE_SNAP (n : Nat) : Nat := 0x50180 + 0x4 * n
/-- MOD_LATE_CNT_SNAP (07_arm_modulation.md). -/
abbrev MOD_LATE_CNT_SNAP : Nat := 0x501E0
/-- MOD_SWAP_CNT_SNAP (07_arm_modulation.md). -/
abbrev MOD_SWAP_CNT_SNAP : Nat := 0x501E4
/-- MOD_SAT_CNT_SNAP (07_arm_modulation.md). -/
abbrev MOD_SAT_CNT_SNAP : Nat := 0x501E8
/-- MOD_FAULT_CLEAR (07_arm_modulation.md). -/
abbrev MOD_FAULT_CLEAR : Nat := 0x501F0
/-- SUP_CTRL (06_supervision_ride_through.md). -/
abbrev SUP_CTRL : Nat := 0x58000
/-- SUP_ILIM (06_supervision_ride_through.md). -/
abbrev SUP_ILIM : Nat := 0x58004
/-- SUP_TMAX (06_supervision_ride_through.md). -/
abbrev SUP_TMAX : Nat := 0x58008
/-- SUP_FRT_V (06_supervision_ride_through.md). -/
abbrev SUP_FRT_V : Nat := 0x5800C
/-- SUP_FRT_T (06_supervision_ride_through.md). -/
abbrev SUP_FRT_T : Nat := 0x58010
/-- SUP_PLAUS (06_supervision_ride_through.md). -/
abbrev SUP_PLAUS : Nat := 0x58014
/-- SUP_SUB (06_supervision_ride_through.md). -/
abbrev SUP_SUB : Nat := 0x58018
/-- SUP_TRIP_ROUTE (06_supervision_ride_through.md). -/
abbrev SUP_TRIP_ROUTE : Nat := 0x5801C
/-- SUP_MDL_A_n (06_supervision_ride_through.md). -/
abbrev SUP_MDL_A (n : Nat) : Nat := 0x58020 + 0x4 * n
/-- SUP_MDL_B_n (06_supervision_ride_through.md). -/
abbrev SUP_MDL_B (n : Nat) : Nat := 0x58044 + 0x4 * n
/-- SUP_MDL_L_n (06_supervision_ride_through.md). -/
abbrev SUP_MDL_L (n : Nat) : Nat := 0x5805C + 0x4 * n
/-- SUP_FE_CFG_n (06_supervision_ride_through.md). -/
abbrev SUP_FE_CFG (n : Nat) : Nat := 0x58070 + 0x8 * n
/-- SUP_FE_LIM_n (06_supervision_ride_through.md). -/
abbrev SUP_FE_LIM (n : Nat) : Nat := 0x58074 + 0x8 * n
/-- SUP_STATUS (06_supervision_ride_through.md). -/
abbrev SUP_STATUS : Nat := 0x58090
/-- SUP_EVENT (06_supervision_ride_through.md). -/
abbrev SUP_EVENT : Nat := 0x58094
/-- SUP_SUSP_L (06_supervision_ride_through.md). -/
abbrev SUP_SUSP_L : Nat := 0x58098
/-- SUP_SUSP_H (06_supervision_ride_through.md). -/
abbrev SUP_SUSP_H : Nat := 0x5809C
/-- SUP_SUBST_L (06_supervision_ride_through.md). -/
abbrev SUP_SUBST_L : Nat := 0x580A0
/-- SUP_SUBST_H (06_supervision_ride_through.md). -/
abbrev SUP_SUBST_H : Nat := 0x580A4
/-- SUP_TRIP_CAUSE (06_supervision_ride_through.md). -/
abbrev SUP_TRIP_CAUSE : Nat := 0x580A8
/-- SUP_TRIP_ACTIVE (06_supervision_ride_through.md). -/
abbrev SUP_TRIP_ACTIVE : Nat := 0x580AC
/-- SUP_SNAP (06_supervision_ride_through.md). -/
abbrev SUP_SNAP : Nat := 0x580B0
/-- SUP_TRIP_CNT_SNAP (06_supervision_ride_through.md). -/
abbrev SUP_TRIP_CNT_SNAP : Nat := 0x580B4
/-- SUP_FRT_CNT_SNAP (06_supervision_ride_through.md). -/
abbrev SUP_FRT_CNT_SNAP : Nat := 0x580B8
/-- SUP_SUB_CNT_SNAP (06_supervision_ride_through.md). -/
abbrev SUP_SUB_CNT_SNAP : Nat := 0x580BC
/-- SUP_RES_SNAP_n (06_supervision_ride_through.md). -/
abbrev SUP_RES_SNAP (n : Nat) : Nat := 0x580C0 + 0x4 * n
/-- SUP_IREC_SNAP (06_supervision_ride_through.md). -/
abbrev SUP_IREC_SNAP : Nat := 0x580CC
/-- PWM_CFG (08_direct_pwm.md). -/
abbrev PWM_CFG : Nat := 0x60000
/-- PWM_VDC_NOM (08_direct_pwm.md). -/
abbrev PWM_VDC_NOM : Nat := 0x60004
/-- PWM_COMMIT (08_direct_pwm.md). -/
abbrev PWM_COMMIT : Nat := 0x60008
/-- PWM_STATUS (08_direct_pwm.md). -/
abbrev PWM_STATUS : Nat := 0x60010
/-- PWM_EVENT (08_direct_pwm.md). -/
abbrev PWM_EVENT : Nat := 0x60014
/-- PWM_SNAP (08_direct_pwm.md). -/
abbrev PWM_SNAP : Nat := 0x60018
/-- PWM_TRIP_SNAP (08_direct_pwm.md). -/
abbrev PWM_TRIP_SNAP : Nat := 0x60020
/-- PWM_SUPP_CNT_SNAP (08_direct_pwm.md). -/
abbrev PWM_SUPP_CNT_SNAP : Nat := 0x60024
/-- PWM_BLANK_CNT_SNAP (08_direct_pwm.md). -/
abbrev PWM_BLANK_CNT_SNAP : Nat := 0x60028
/-- PWM_BEYOND_CNT_SNAP (08_direct_pwm.md). -/
abbrev PWM_BEYOND_CNT_SNAP : Nat := 0x6002C
/-- PWM_PAIR_n (08_direct_pwm.md). -/
abbrev PWM_PAIR (n : Nat) : Nat := 0x60100 + 0x20 * n
/-- PWM_DT_n (08_direct_pwm.md). -/
abbrev PWM_DT (n : Nat) : Nat := 0x60104 + 0x20 * n
/-- PWM_MINP_n (08_direct_pwm.md). -/
abbrev PWM_MINP (n : Nat) : Nat := 0x60108 + 0x20 * n
/-- PWM_CAROFS_n (08_direct_pwm.md). -/
abbrev PWM_CAROFS (n : Nat) : Nat := 0x6010C + 0x20 * n
/-- PWM_PERIOD_n (08_direct_pwm.md). -/
abbrev PWM_PERIOD (n : Nat) : Nat := 0x60110 + 0x20 * n
/-- PWM_CMPA_n (08_direct_pwm.md). -/
abbrev PWM_CMPA (n : Nat) : Nat := 0x60114 + 0x20 * n
/-- PWM_TSRC_n (08_direct_pwm.md). -/
abbrev PWM_TSRC (n : Nat) : Nat := 0x60300 + 0x4 * n
/-- PWM_BLANK_n (08_direct_pwm.md). -/
abbrev PWM_BLANK (n : Nat) : Nat := 0x60380 + 0x4 * n
/-- PEN_CFG (09_penras_link.md). -/
abbrev PEN_CFG : Nat := 0x70000
/-- PEN_VCODE (09_penras_link.md). -/
abbrev PEN_VCODE : Nat := 0x70004
/-- PEN_LINK (09_penras_link.md). -/
abbrev PEN_LINK : Nat := 0x70008
/-- PEN_EVENT (09_penras_link.md). -/
abbrev PEN_EVENT : Nat := 0x7000C
/-- PEN_SNAP (09_penras_link.md). -/
abbrev PEN_SNAP : Nat := 0x70010
/-- PEN_VWIN (09_penras_link.md). -/
abbrev PEN_VWIN : Nat := 0x70014
/-- PEN_TX_CNT_SNAP (09_penras_link.md). -/
abbrev PEN_TX_CNT_SNAP : Nat := 0x70020
/-- PEN_HDR_ERR_CNT_SNAP (09_penras_link.md). -/
abbrev PEN_HDR_ERR_CNT_SNAP : Nat := 0x70024
/-- PEN_GLEAN_ERR_CNT_SNAP (09_penras_link.md). -/
abbrev PEN_GLEAN_ERR_CNT_SNAP : Nat := 0x70028
/-- PEN_URGENT_CNT_SNAP (09_penras_link.md). -/
abbrev PEN_URGENT_CNT_SNAP : Nat := 0x7002C
/-- PEN_STR_n (09_penras_link.md). -/
abbrev PEN_STR (n : Nat) : Nat := 0x70040 + 0x4 * n
/-- PEN_STR_STATUS_n (09_penras_link.md). -/
abbrev PEN_STR_STATUS (n : Nat) : Nat := 0x70080 + 0x4 * n
/-- PEN_LATECAP_SNAP_n (09_penras_link.md). -/
abbrev PEN_LATECAP_SNAP (n : Nat) : Nat := 0x70100 + 0x4 * n
/-- PNT_STATUS (10_point_store.md). -/
abbrev PNT_STATUS : Nat := 0x80000
/-- PNT_EVENT (10_point_store.md). -/
abbrev PNT_EVENT : Nat := 0x80004
/-- PNT_PEEK_ID (10_point_store.md). -/
abbrev PNT_PEEK_ID : Nat := 0x80008
/-- PNT_AGG_SEL (10_point_store.md). -/
abbrev PNT_AGG_SEL : Nat := 0x8000C
/-- PNT_SNAP (10_point_store.md). -/
abbrev PNT_SNAP : Nat := 0x80010
/-- PNT_PEEK_SNAP (10_point_store.md). -/
abbrev PNT_PEEK_SNAP : Nat := 0x80020
/-- PNT_PEEK_CLASS_SNAP (10_point_store.md). -/
abbrev PNT_PEEK_CLASS_SNAP : Nat := 0x80024
/-- PNT_AGG_MM_SNAP (10_point_store.md). -/
abbrev PNT_AGG_MM_SNAP : Nat := 0x80028
/-- PNT_AGG_SUM_SNAP (10_point_store.md). -/
abbrev PNT_AGG_SUM_SNAP : Nat := 0x8002C
/-- PNT_AGG_CNT_SNAP (10_point_store.md). -/
abbrev PNT_AGG_CNT_SNAP : Nat := 0x80030
/-- PNT_ARRIVE_CNT_SNAP (10_point_store.md). -/
abbrev PNT_ARRIVE_CNT_SNAP : Nat := 0x80034
/-- PNT_DELIVER_CNT_SNAP (10_point_store.md). -/
abbrev PNT_DELIVER_CNT_SNAP : Nat := 0x80038
/-- PNT_COALESCE_CNT_SNAP (10_point_store.md). -/
abbrev PNT_COALESCE_CNT_SNAP : Nat := 0x8003C
/-- PNT_UNUSED_CNT_SNAP (10_point_store.md). -/
abbrev PNT_UNUSED_CNT_SNAP : Nat := 0x80040
/-- PNT_DIRTY_SNAP (10_point_store.md). -/
abbrev PNT_DIRTY_SNAP : Nat := 0x80044
/-- PNT_SCAN_SNAP (10_point_store.md). -/
abbrev PNT_SCAN_SNAP : Nat := 0x80048
/-- ACQ_CTRL (12_disturbance_capture.md). -/
abbrev ACQ_CTRL : Nat := 0x90000
/-- ACQ_STATUS (12_disturbance_capture.md). -/
abbrev ACQ_STATUS : Nat := 0x90004
/-- ACQ_EVENT (12_disturbance_capture.md). -/
abbrev ACQ_EVENT : Nat := 0x90008
/-- ACQ_SNAP (12_disturbance_capture.md). -/
abbrev ACQ_SNAP : Nat := 0x9000C
/-- ACQ_SIEVE_SNAP (12_disturbance_capture.md). -/
abbrev ACQ_SIEVE_SNAP : Nat := 0x90010
/-- ACQ_MISS_CNT_SNAP_n (12_disturbance_capture.md). -/
abbrev ACQ_MISS_CNT_SNAP (n : Nat) : Nat := 0x90020 + 0x4 * n
/-- ACQ_DROP_CNT_SNAP_n (12_disturbance_capture.md). -/
abbrev ACQ_DROP_CNT_SNAP (n : Nat) : Nat := 0x90040 + 0x4 * n
/-- ACQ_REC_CNT_SNAP_n (12_disturbance_capture.md). -/
abbrev ACQ_REC_CNT_SNAP (n : Nat) : Nat := 0x90060 + 0x4 * n
/-- ACQ_CH_n (12_disturbance_capture.md). -/
abbrev ACQ_CH (n : Nat) : Nat := 0x90100 + 0x4 * n
/-- ACQ_SET_CFG_n (12_disturbance_capture.md). -/
abbrev ACQ_SET_CFG (n : Nat) : Nat := 0x90400 + 0x40 * n
/-- ACQ_SET_DIV_n (12_disturbance_capture.md). -/
abbrev ACQ_SET_DIV (n : Nat) : Nat := 0x90404 + 0x40 * n
/-- ACQ_SET_LEN_n (12_disturbance_capture.md). -/
abbrev ACQ_SET_LEN (n : Nat) : Nat := 0x90408 + 0x40 * n
/-- ACQ_SET_MEM_n (12_disturbance_capture.md). -/
abbrev ACQ_SET_MEM (n : Nat) : Nat := 0x9040C + 0x40 * n
/-- ACQ_SET_CHM_L_n (12_disturbance_capture.md). -/
abbrev ACQ_SET_CHM_L (n : Nat) : Nat := 0x90410 + 0x40 * n
/-- ACQ_SET_CHM_H_n (12_disturbance_capture.md). -/
abbrev ACQ_SET_CHM_H (n : Nat) : Nat := 0x90414 + 0x40 * n
/-- ACQ_SET_HBASE_L_n (12_disturbance_capture.md). -/
abbrev ACQ_SET_HBASE_L (n : Nat) : Nat := 0x90418 + 0x40 * n
/-- ACQ_SET_HBASE_H_n (12_disturbance_capture.md). -/
abbrev ACQ_SET_HBASE_H (n : Nat) : Nat := 0x9041C + 0x40 * n
/-- ACQ_SET_HSIZE_n (12_disturbance_capture.md). -/
abbrev ACQ_SET_HSIZE (n : Nat) : Nat := 0x90420 + 0x40 * n
/-- ACQ_SET_WM_n (12_disturbance_capture.md). -/
abbrev ACQ_SET_WM (n : Nat) : Nat := 0x90424 + 0x40 * n
/-- ACQ_UNIT_CFG_n (12_disturbance_capture.md). -/
abbrev ACQ_UNIT_CFG (n : Nat) : Nat := 0x90800 + 0x20 * n
/-- ACQ_UNIT_LA_n (12_disturbance_capture.md). -/
abbrev ACQ_UNIT_LA (n : Nat) : Nat := 0x90804 + 0x20 * n
/-- ACQ_UNIT_LB_n (12_disturbance_capture.md). -/
abbrev ACQ_UNIT_LB (n : Nat) : Nat := 0x90808 + 0x20 * n
/-- ACQ_UNIT_T1_n (12_disturbance_capture.md). -/
abbrev ACQ_UNIT_T1 (n : Nat) : Nat := 0x9080C + 0x20 * n
/-- ACQ_UNIT_T2_n (12_disturbance_capture.md). -/
abbrev ACQ_UNIT_T2 (n : Nat) : Nat := 0x90810 + 0x20 * n
/-- TWN_CFG (14_twin_operation.md). -/
abbrev TWN_CFG : Nat := 0xA0000
/-- TWN_STATUS (14_twin_operation.md). -/
abbrev TWN_STATUS : Nat := 0xA0004
/-- TWN_EVENT (14_twin_operation.md). -/
abbrev TWN_EVENT : Nat := 0xA0008
/-- TWN_SNAP (14_twin_operation.md). -/
abbrev TWN_SNAP : Nat := 0xA000C
/-- TWN_CONSIST_SNAP (14_twin_operation.md). -/
abbrev TWN_CONSIST_SNAP : Nat := 0xA0010
/-- TWN_MISS_CNT_SNAP (14_twin_operation.md). -/
abbrev TWN_MISS_CNT_SNAP : Nat := 0xA0014
/-- TWN_PKT_ERR_CNT_SNAP (14_twin_operation.md). -/
abbrev TWN_PKT_ERR_CNT_SNAP : Nat := 0xA0018
/-- TWN_TAKEOVER_CNT_SNAP (14_twin_operation.md). -/
abbrev TWN_TAKEOVER_CNT_SNAP : Nat := 0xA001C
/-- TWN_LAST_L_SNAP (14_twin_operation.md). -/
abbrev TWN_LAST_L_SNAP : Nat := 0xA0020
/-- TWN_TIME_OFS_SNAP (14_twin_operation.md). -/
abbrev TWN_TIME_OFS_SNAP : Nat := 0xA0024
/-- TWN_MIRROR_LEN_SNAP (14_twin_operation.md). -/
abbrev TWN_MIRROR_LEN_SNAP : Nat := 0xA0028
/-- FEN_SEQ_HEAD (15_fence_safety_partition.md). -/
abbrev FEN_SEQ_HEAD : Nat := 0xB0000
/-- FEN_STATUS (15_fence_safety_partition.md). -/
abbrev FEN_STATUS : Nat := 0xB0004
/-- FEN_INPUT (15_fence_safety_partition.md). -/
abbrev FEN_INPUT : Nat := 0xB0008
/-- FEN_PAIR_STATUS (15_fence_safety_partition.md). -/
abbrev FEN_PAIR_STATUS : Nat := 0xB000C
/-- FEN_FAULT (15_fence_safety_partition.md). -/
abbrev FEN_FAULT : Nat := 0xB0010
/-- FEN_TEST_RESULT (15_fence_safety_partition.md). -/
abbrev FEN_TEST_RESULT : Nat := 0xB0014
/-- FEN_LOG_SEQ (15_fence_safety_partition.md). -/
abbrev FEN_LOG_SEQ : Nat := 0xB0018
/-- FEN_AUTH (15_fence_safety_partition.md). -/
abbrev FEN_AUTH : Nat := 0xB001C
/-- FEN_IN_CFG_n (15_fence_safety_partition.md). -/
abbrev FEN_IN_CFG (n : Nat) : Nat := 0xB0020 + 0x4 * n
/-- FEN_PAIR_CFG_n (15_fence_safety_partition.md). -/
abbrev FEN_PAIR_CFG (n : Nat) : Nat := 0xB0040 + 0x4 * n
/-- FEN_DIGEST_L (15_fence_safety_partition.md). -/
abbrev FEN_DIGEST_L : Nat := 0xB0050
/-- FEN_DIGEST_H (15_fence_safety_partition.md). -/
abbrev FEN_DIGEST_H : Nat := 0xB0054
/-- FEN_NEAR_CNT_n (15_fence_safety_partition.md). -/
abbrev FEN_NEAR_CNT (n : Nat) : Nat := 0xB0060 + 0x4 * n
/-- FEN_WRITE_IGN_CNT (15_fence_safety_partition.md). -/
abbrev FEN_WRITE_IGN_CNT : Nat := 0xB0070
/-- FEN_AUTH_FAIL_CNT (15_fence_safety_partition.md). -/
abbrev FEN_AUTH_FAIL_CNT : Nat := 0xB0074
/-- FEN_SEQ_TAIL (15_fence_safety_partition.md). -/
abbrev FEN_SEQ_TAIL : Nat := 0xB007C
/-- HK_CFG (18_harvest_and_thermal.md). -/
abbrev HK_CFG : Nat := 0xC0000
/-- HK_SUP_USE (18_harvest_and_thermal.md). -/
abbrev HK_SUP_USE : Nat := 0xC0004
/-- HK_STATUS (18_harvest_and_thermal.md). -/
abbrev HK_STATUS : Nat := 0xC0008
/-- HK_EVENT (18_harvest_and_thermal.md). -/
abbrev HK_EVENT : Nat := 0xC000C
/-- HK_TH_n (18_harvest_and_thermal.md). -/
abbrev HK_TH (n : Nat) : Nat := 0xC0040 + 0x4 * n
/-- HK_CURVE_0_n (18_harvest_and_thermal.md). -/
abbrev HK_CURVE_0 (n : Nat) : Nat := 0xC0080 + 0x4 * n
/-- HK_CURVE_1_n (18_harvest_and_thermal.md). -/
abbrev HK_CURVE_1 (n : Nat) : Nat := 0xC00A0 + 0x4 * n
/-- HK_SNAP (18_harvest_and_thermal.md). -/
abbrev HK_SNAP : Nat := 0xC00C0
/-- HK_DT_SNAP (18_harvest_and_thermal.md). -/
abbrev HK_DT_SNAP : Nat := 0xC00C4
/-- HK_SHUT_CNT_SNAP (18_harvest_and_thermal.md). -/
abbrev HK_SHUT_CNT_SNAP : Nat := 0xC00C8
/-- HK_VAL_SNAP_n (18_harvest_and_thermal.md). -/
abbrev HK_VAL_SNAP (n : Nat) : Nat := 0xC0100 + 0x4 * n
/-- AUX_CFG (19_cooling_plant_drives.md). -/
abbrev AUX_CFG : Nat := 0xD0000
/-- AUX_STATUS (19_cooling_plant_drives.md). -/
abbrev AUX_STATUS : Nat := 0xD0004
/-- AUX_EVENT (19_cooling_plant_drives.md). -/
abbrev AUX_EVENT : Nat := 0xD0008
/-- AUX_SNAP (19_cooling_plant_drives.md). -/
abbrev AUX_SNAP : Nat := 0xD000C
/-- AUX_OC_SNAP (19_cooling_plant_drives.md). -/
abbrev AUX_OC_SNAP : Nat := 0xD0010
/-- AUX_REFRESH_CNT_SNAP (19_cooling_plant_drives.md). -/
abbrev AUX_REFRESH_CNT_SNAP : Nat := 0xD0014
/-- AUX_DRV_CFG_n (19_cooling_plant_drives.md). -/
abbrev AUX_DRV_CFG (n : Nat) : Nat := 0xD0100 + 0x20 * n
/-- AUX_DRV_CUR_n (19_cooling_plant_drives.md). -/
abbrev AUX_DRV_CUR (n : Nat) : Nat := 0xD0104 + 0x20 * n
/-- AUX_DRV_REF_n (19_cooling_plant_drives.md). -/
abbrev AUX_DRV_REF (n : Nat) : Nat := 0xD0108 + 0x20 * n
/-- AUX_DRV_HOME_n (19_cooling_plant_drives.md). -/
abbrev AUX_DRV_HOME (n : Nat) : Nat := 0xD010C + 0x20 * n
/-- AUX_DRV_GAIN_n (19_cooling_plant_drives.md). -/
abbrev AUX_DRV_GAIN (n : Nat) : Nat := 0xD0110 + 0x20 * n
/-- AUX_DRV_HALL_n (19_cooling_plant_drives.md). -/
abbrev AUX_DRV_HALL (n : Nat) : Nat := 0xD0114 + 0x20 * n
/-- AUX_DRV_DUTY_n (19_cooling_plant_drives.md). -/
abbrev AUX_DRV_DUTY (n : Nat) : Nat := 0xD0118 + 0x20 * n
/-- AUX_DRV_ANG_n (19_cooling_plant_drives.md). -/
abbrev AUX_DRV_ANG (n : Nat) : Nat := 0xD011C + 0x20 * n
/-- AUX_DRV_STATUS_n (19_cooling_plant_drives.md). -/
abbrev AUX_DRV_STATUS (n : Nat) : Nat := 0xD0180 + 0x4 * n
/-- AUX_GRP_n (19_cooling_plant_drives.md). -/
abbrev AUX_GRP (n : Nat) : Nat := 0xD0200 + 0x8 * n
/-- AUX_BLANK_n (19_cooling_plant_drives.md). -/
abbrev AUX_BLANK (n : Nat) : Nat := 0xD0204 + 0x8 * n
/-- LRD_SIG_n (20_larder.md). -/
abbrev LRD_SIG (n : Nat) : Nat := 0xE0000 + 0x4 * n
/-- LRD_STATUS (20_larder.md). -/
abbrev LRD_STATUS : Nat := 0xE0040
/-- LRD_EVENT (20_larder.md). -/
abbrev LRD_EVENT : Nat := 0xE0044
/-- LRD_PEEK_SEQ (20_larder.md). -/
abbrev LRD_PEEK_SEQ : Nat := 0xE0048
/-- LRD_SNAP (20_larder.md). -/
abbrev LRD_SNAP : Nat := 0xE004C
/-- LRD_HEAD_SNAP (20_larder.md). -/
abbrev LRD_HEAD_SNAP : Nat := 0xE0050
/-- LRD_TAIL_SNAP (20_larder.md). -/
abbrev LRD_TAIL_SNAP : Nat := 0xE0054
/-- LRD_BAD_CNT_SNAP (20_larder.md). -/
abbrev LRD_BAD_CNT_SNAP : Nat := 0xE0058
/-- LRD_PEEK_SNAP_n (20_larder.md). -/
abbrev LRD_PEEK_SNAP (n : Nat) : Nat := 0xE0080 + 0x4 * n
/-- SEC_BOOT (17_boot_and_security.md). -/
abbrev SEC_BOOT : Nat := 0xF0000
/-- SEC_KEYS (17_boot_and_security.md). -/
abbrev SEC_KEYS : Nat := 0xF0004
/-- SEC_SLOTS (17_boot_and_security.md). -/
abbrev SEC_SLOTS : Nat := 0xF0008
/-- SEC_EVENT (17_boot_and_security.md). -/
abbrev SEC_EVENT : Nat := 0xF000C
/-- SEC_UID_L (17_boot_and_security.md). -/
abbrev SEC_UID_L : Nat := 0xF0010
/-- SEC_UID_H (17_boot_and_security.md). -/
abbrev SEC_UID_H : Nat := 0xF0014
/-- SEC_IMG_DIGEST_L (17_boot_and_security.md). -/
abbrev SEC_IMG_DIGEST_L : Nat := 0xF0018
/-- SEC_IMG_DIGEST_H (17_boot_and_security.md). -/
abbrev SEC_IMG_DIGEST_H : Nat := 0xF001C
/-- SEC_XFER (17_boot_and_security.md). -/
abbrev SEC_XFER : Nat := 0xF0020

end Reg

/-- The registers of SYS. -/
def regsSYS : List RegRow := [
  ⟨0x00000, 1, 0x4, 0x9160, 0x0, 0x0, false⟩,
  ⟨0x00004, 1, 0x4, 0x43, 0x0, 0x0, false⟩,
  ⟨0x00008, 1, 0x4, 0x0, 0x0, 0x0, false⟩,
  ⟨0x0000C, 1, 0x4, 0x0, 0x0, 0x0, false⟩,
  ⟨0x00010, 1, 0x4, 0x0, 0x0, 0x0, false⟩,
  ⟨0x00014, 1, 0x4, 0x10003C, 0xFFFFFFFF, 0x0, true⟩,
  ⟨0x00018, 1, 0x4, 0x0, 0x0, 0x3, false⟩,
  ⟨0x0001C, 1, 0x4, 0x0, 0x0, 0x0, false⟩,
  ⟨0x00020, 1, 0x4, 0x0, 0x0, 0x0, false⟩,
  ⟨0x00024, 1, 0x4, 0x0, 0x0, 0x0, false⟩,
  ⟨0x00028, 1, 0x4, 0x0, 0x0, 0x0, false⟩]

/-- The registers of CLK. -/
def regsCLK : List RegRow := [
  ⟨0x10000, 1, 0x4, 0x0, 0x1F13, 0x0, true⟩,
  ⟨0x10004, 1, 0x4, 0x64, 0x7F, 0x0, true⟩,
  ⟨0x10010, 4, 0x4, 0x10, 0x8000FFFF, 0x0, true⟩,
  ⟨0x10040, 1, 0x4, 0x40, 0x0, 0x0, false⟩,
  ⟨0x10044, 1, 0x4, 0x0, 0x0, 0x3FF, false⟩,
  ⟨0x10048, 1, 0x4, 0x0, 0x0, 0x0, false⟩,
  ⟨0x10050, 1, 0x4, 0x0, 0x0, 0x0, false⟩,
  ⟨0x10054, 1, 0x4, 0x0, 0x0, 0x0, false⟩,
  ⟨0x10058, 1, 0x4, 0x0, 0x0, 0x0, false⟩,
  ⟨0x1005C, 1, 0x4, 0x0, 0x0, 0x0, false⟩,
  ⟨0x10060, 1, 0x4, 0x0, 0x0, 0x0, false⟩,
  ⟨0x10064, 1, 0x4, 0x0, 0x0, 0x0, false⟩,
  ⟨0x10068, 1, 0x4, 0x0, 0x0, 0x0, false⟩,
  ⟨0x1006C, 1, 0x4, 0x0, 0x0, 0x0, false⟩]

/-- The registers of HOST. -/
def regsHOST : List RegRow := [
  ⟨0x20000, 1, 0x4, 0x0, 0x0, 0x0, false⟩,
  ⟨0x20004, 1, 0x4, 0x0, 0xFFFFFFFF, 0x0, false⟩,
  ⟨0x20008, 1, 0x4, 0x0, 0xFFFFFFFF, 0x0, false⟩,
  ⟨0x2000C, 1, 0x4, 0x3E8, 0xF000FFFF, 0x0, false⟩,
  ⟨0x20010, 1, 0x4, 0x0, 0xFFFFFFFF, 0x0, false⟩,
  ⟨0x20014, 1, 0x4, 0x0, 0xFF, 0x0, false⟩,
  ⟨0x20018, 1, 0x4, 0x0, 0x0, 0x3F, false⟩,
  ⟨0x2001C, 1, 0x4, 0x0, 0x0, 0xFFFFFFFF, false⟩,
  ⟨0x20020, 1, 0x4, 0x0, 0x0, 0xFFFFFFFF, false⟩,
  ⟨0x20024, 1, 0x4, 0x0, 0x0, 0x0, false⟩,
  ⟨0x20030, 1, 0x4, 0x0, 0x0, 0x0, false⟩,
  ⟨0x20034, 1, 0x4, 0x0, 0x0, 0x0, false⟩,
  ⟨0x20038, 1, 0x4, 0x0, 0x0, 0x0, false⟩,
  ⟨0x2003C, 1, 0x4, 0x0, 0x0, 0x0, false⟩,
  ⟨0x20040, 1, 0x4, 0x0, 0x0, 0x0, false⟩,
  ⟨0x20044, 1, 0x4, 0x0, 0x0, 0x0, false⟩,
  ⟨0x20048, 1, 0x4, 0x0, 0x0, 0x0, false⟩,
  ⟨0x2004C, 1, 0x4, 0x0, 0x0, 0x0, false⟩,
  ⟨0x20050, 1, 0x4, 0x0, 0x0, 0x0, false⟩,
  ⟨0x20100, 32, 0x10, 0x0, 0xFFFFFFFF, 0x0, false⟩,
  ⟨0x20104, 32, 0x10, 0x0, 0xFFFFFFFF, 0x0, false⟩,
  ⟨0x20108, 32, 0x10, 0x6, 0x8000001F, 0x0, false⟩,
  ⟨0x2010C, 32, 0x10, 0x0, 0x0, 0x0, false⟩,
  ⟨0x20400, 64, 0x4, 0x0, 0xFFFF, 0x0, false⟩]

/-- The registers of ANG. -/
def regsANG : List RegRow := [
  ⟨0x30000, 1, 0x4, 0xA0168, 0x7F1FFF, 0x0, true⟩,
  ⟨0x30004, 1, 0x4, 0x9C40, 0x7FFFF, 0x0, true⟩,
  ⟨0x30008, 1, 0x4, 0x640, 0xFFFF, 0x0, true⟩,
  ⟨0x3000C, 1, 0x4, 0x0, 0xFFFFFFFF, 0x0, true⟩,
  ⟨0x30010, 1, 0x4, 0x0, 0xFFFFFFFF, 0x0, true⟩,
  ⟨0x30014, 1, 0x4, 0x0, 0xFFFFFFFF, 0x0, true⟩,
  ⟨0x30040, 1, 0x4, 0x0, 0xFFFFFFFF, 0x0, true⟩,
  ⟨0x30044, 1, 0x4, 0x0, 0xFFFF, 0x0, true⟩,
  ⟨0x30048, 1, 0x4, 0x0, 0xFFFFFFFF, 0x0, true⟩,
  ⟨0x3004C, 1, 0x4, 0x0, 0xFFFF, 0x0, true⟩,
  ⟨0x30050, 1, 0x4, 0x0, 0xFFFFFFFF, 0x0, true⟩,
  ⟨0x30054, 1, 0x4, 0x0, 0xFFFF, 0x0, true⟩,
  ⟨0x30080, 1, 0x4, 0x10, 0x0, 0x0, false⟩,
  ⟨0x30084, 1, 0x4, 0x0, 0x0, 0x7, false⟩,
  ⟨0x30088, 1, 0x4, 0x0, 0x0, 0x0, false⟩,
  ⟨0x30090, 1, 0x4, 0x0, 0x0, 0x0, false⟩,
  ⟨0x30094, 1, 0x4, 0x0, 0x0, 0x0, false⟩,
  ⟨0x30098, 1, 0x4, 0x0, 0x0, 0x0, false⟩,
  ⟨0x3009C, 1, 0x4, 0x0, 0x0, 0x0, false⟩,
  ⟨0x300A0, 1, 0x4, 0x0, 0x0, 0x0, false⟩,
  ⟨0x300A4, 1, 0x4, 0x0, 0x0, 0x0, false⟩,
  ⟨0x300A8, 1, 0x4, 0x0, 0x0, 0x0, false⟩,
  ⟨0x300AC, 1, 0x4, 0x0, 0x0, 0x0, false⟩,
  ⟨0x300B0, 1, 0x4, 0x0, 0x0, 0x0, false⟩,
  ⟨0x300B4, 1, 0x4, 0x0, 0x0, 0x0, false⟩,
  ⟨0x300B8, 1, 0x4, 0x0, 0x0, 0x0, false⟩,
  ⟨0x300BC, 1, 0x4, 0x0, 0x0, 0x0, false⟩]

/-- The registers of GFM. -/
def regsGFM : List RegRow := [
  ⟨0x30100, 1, 0x4, 0x0, 0x0, 0x0, false⟩,
  ⟨0x30104, 1, 0x4, 0x0, 0x0, 0x3FF, false⟩,
  ⟨0x30108, 1, 0x4, 0x138807D0, 0xFFFFFFFF, 0x0, true⟩,
  ⟨0x3010C, 1, 0x4, 0x1F4, 0xFFFFFFFF, 0x0, true⟩,
  ⟨0x30110, 1, 0x4, 0x19999A, 0xFFFFFFFF, 0x0, true⟩,
  ⟨0x30114, 1, 0x4, 0x0, 0xFFFFFFFF, 0x0, true⟩,
  ⟨0x30118, 1, 0x4, 0x1333333, 0xFFFFFFFF, 0x0, true⟩,
  ⟨0x3011C, 1, 0x4, 0x199A051F, 0xFFFFFFFF, 0x0, true⟩,
  ⟨0x30120, 1, 0x4, 0x4CCD0CCD, 0xFFFFFFFF, 0x0, true⟩,
  ⟨0x30124, 1, 0x4, 0xA0503E8, 0xFFFFFFFF, 0x0, true⟩,
  ⟨0x30128, 1, 0x4, 0x3E80000, 0xFFFF01FF, 0x0, true⟩,
  ⟨0x3012C, 1, 0x4, 0x140A0550, 0xFFFFFFFF, 0x0, true⟩,
  ⟨0x30130, 1, 0x4, 0xC80258, 0xFFFFFFFF, 0x0, true⟩,
  ⟨0x30134, 1, 0x4, 0xA1E, 0xF3FFFFFF, 0x0, true⟩,
  ⟨0x30140, 1, 0x4, 0x8000000, 0xFFFFFFFF, 0x0, true⟩,
  ⟨0x30144, 4, 0x4, 0x0, 0xFFFFFFFF, 0x0, true⟩,
  ⟨0x30154, 1, 0x4, 0x8000000, 0xFFFFFFFF, 0x0, true⟩,
  ⟨0x30158, 4, 0x4, 0x0, 0xFFFFFFFF, 0x0, true⟩,
  ⟨0x30180, 1, 0x4, 0x0, 0x0, 0x0, false⟩,
  ⟨0x30184, 1, 0x4, 0x0, 0x0, 0x0, false⟩,
  ⟨0x30188, 1, 0x4, 0x0, 0x0, 0x0, false⟩,
  ⟨0x3018C, 1, 0x4, 0x0, 0x0, 0x0, false⟩,
  ⟨0x30190, 1, 0x4, 0x0, 0x0, 0x0, false⟩,
  ⟨0x30194, 1, 0x4, 0x0, 0x0, 0x0, false⟩,
  ⟨0x30198, 1, 0x4, 0x0, 0x0, 0x0, false⟩,
  ⟨0x3019C, 1, 0x4, 0x0, 0x0, 0x0, false⟩,
  ⟨0x301A0, 1, 0x4, 0x0, 0x0, 0x0, false⟩,
  ⟨0x301A4, 1, 0x4, 0x0, 0x0, 0x0, false⟩]

/-- The registers of PROF. -/
def regsPROF : List RegRow := [
  ⟨0x30200, 16, 0x40, 0x0, 0xFFFFFFFF, 0x0, true⟩,
  ⟨0x30204, 16, 0x40, 0x0, 0xFFFFFFFF, 0x0, true⟩,
  ⟨0x30208, 16, 0x40, 0x0, 0xFFFFFFFF, 0x0, true⟩,
  ⟨0x3020C, 16, 0x40, 0x0, 0xFFFFFFFF, 0x0, true⟩,
  ⟨0x30210, 16, 0x40, 0x0, 0xFFFFFFFF, 0x0, true⟩,
  ⟨0x30214, 16, 0x40, 0x0, 0xFFFFFFFF, 0x0, true⟩,
  ⟨0x30218, 16, 0x40, 0x0, 0xFFFFFFFF, 0x0, true⟩,
  ⟨0x3021C, 16, 0x40, 0x0, 0xFFFFFFFF, 0x0, true⟩,
  ⟨0x30220, 16, 0x40, 0x0, 0xFFFFFFFF, 0x0, true⟩,
  ⟨0x30224, 16, 0x40, 0x0, 0x0, 0x0, false⟩,
  ⟨0x30228, 16, 0x40, 0x0, 0x0, 0x0, false⟩,
  ⟨0x3022C, 16, 0x40, 0x0, 0x0, 0x3F, false⟩,
  ⟨0x30230, 16, 0x40, 0x0, 0x0, 0x0, false⟩,
  ⟨0x30234, 16, 0x40, 0x0, 0x0, 0x0, false⟩,
  ⟨0x30600, 1, 0x4, 0x0, 0x0, 0x0, false⟩,
  ⟨0x30604, 1, 0x4, 0x0, 0x0, 0x0, false⟩]

/-- The registers of LOOP. -/
def regsLOOP : List RegRow := [
  ⟨0x40000, 1, 0x4, 0x30000, 0xF3F0F, 0x0, true⟩,
  ⟨0x40004, 1, 0x4, 0x6C006B, 0x1FF01FF, 0x0, true⟩,
  ⟨0x40008, 1, 0x4, 0x0, 0xFFFFFFFF, 0x0, true⟩,
  ⟨0x40010, 4, 0x4, 0x0, 0xBFBFBFBF, 0x0, true⟩,
  ⟨0x40020, 1, 0x4, 0x0, 0x31FF31FF, 0x0, true⟩,
  ⟨0x40024, 1, 0x4, 0x0, 0xFFFF, 0x0, true⟩,
  ⟨0x40028, 3, 0x4, 0x0, 0xFFFFFFFF, 0x0, true⟩,
  ⟨0x40034, 3, 0x4, 0x0, 0xFFFFFFFF, 0x0, true⟩,
  ⟨0x40040, 1, 0x4, 0x0, 0x0, 0x0, false⟩,
  ⟨0x40044, 1, 0x4, 0x0, 0x0, 0x1F, false⟩,
  ⟨0x40048, 1, 0x4, 0x0, 0x0, 0x0, false⟩,
  ⟨0x4004C, 1, 0x4, 0x0, 0x0, 0x0, false⟩,
  ⟨0x40050, 1, 0x4, 0x0, 0x0, 0x0, false⟩,
  ⟨0x40054, 1, 0x4, 0x0, 0x0, 0x0, false⟩,
  ⟨0x40058, 1, 0x4, 0x0, 0x0, 0x0, false⟩,
  ⟨0x4005C, 1, 0x4, 0x0, 0x0, 0x0, false⟩,
  ⟨0x40060, 1, 0x4, 0x0, 0x0, 0x0, false⟩,
  ⟨0x40064, 1, 0x4, 0x0, 0x0, 0x0, false⟩,
  ⟨0x40068, 1, 0x4, 0x0, 0x1FF, 0x0, false⟩,
  ⟨0x4006C, 1, 0x4, 0x0, 0x0, 0x0, false⟩,
  ⟨0x40070, 1, 0x4, 0x0, 0x0, 0x0, false⟩,
  ⟨0x40400, 48, 0x20, 0x0, 0xF1FF01FF, 0x0, true⟩,
  ⟨0x40404, 48, 0x20, 0x0, 0xE1FF01FF, 0x0, true⟩,
  ⟨0x40408, 48, 0x20, 0x400, 0xFFFF7DFF, 0x0, true⟩,
  ⟨0x4040C, 48, 0x20, 0x8000000, 0xFFFFFFFF, 0x0, true⟩,
  ⟨0x40410, 48, 0x20, 0x7FFFFFFF, 0xFFFFFFFF, 0x0, true⟩,
  ⟨0x40414, 48, 0x20, 0x80000000, 0xFFFFFFFF, 0x0, true⟩,
  ⟨0x40418, 48, 0x20, 0x0, 0xFFFFFFFF, 0x0, true⟩,
  ⟨0x4041C, 48, 0x20, 0x0, 0xFFFFFFFF, 0x0, true⟩,
  ⟨0x40A00, 8, 0x10, 0x0, 0xC70001FF, 0x0, true⟩,
  ⟨0x40A04, 8, 0x10, 0x0, 0xFFFFFFFF, 0x0, true⟩,
  ⟨0x40A08, 8, 0x10, 0x1000000, 0xFFFFFFFF, 0x0, true⟩]

/-- The registers of ADC. -/
def regsADC : List RegRow := [
  ⟨0x48000, 1, 0x4, 0x0, 0xFFFFFF, 0x0, true⟩,
  ⟨0x48004, 1, 0x4, 0x0, 0xFFFFFF, 0x0, true⟩,
  ⟨0x48008, 1, 0x4, 0x0, 0xFF, 0x0, true⟩,
  ⟨0x48010, 4, 0x4, 0x14, 0xC007003F, 0x0, true⟩,
  ⟨0x48040, 1, 0x4, 0x0, 0x0, 0x0, false⟩,
  ⟨0x48044, 1, 0x4, 0x0, 0x0, 0x0, false⟩,
  ⟨0x48048, 1, 0x4, 0x0, 0x0, 0x0, false⟩,
  ⟨0x4804C, 1, 0x4, 0x0, 0x0, 0x0, false⟩,
  ⟨0x48050, 1, 0x4, 0x0, 0x0, 0x0, false⟩,
  ⟨0x48054, 1, 0x4, 0x0, 0x0, 0x3F, false⟩,
  ⟨0x48058, 1, 0x4, 0x0, 0x0, 0x0, false⟩,
  ⟨0x48060, 1, 0x4, 0x0, 0x0, 0x0, false⟩,
  ⟨0x48064, 1, 0x4, 0x0, 0x0, 0x0, false⟩,
  ⟨0x48068, 1, 0x4, 0x0, 0x0, 0x0, false⟩,
  ⟨0x48100, 32, 0x4, 0x5040100, 0x87070F01, 0x0, true⟩,
  ⟨0x48200, 32, 0x4, 0x7FFF8000, 0xFFFFFFFF, 0x0, true⟩,
  ⟨0x48300, 24, 0x4, 0x7FFF8000, 0xFFFFFFFF, 0x0, true⟩,
  ⟨0x48400, 56, 0x4, 0x0, 0x0, 0x0, false⟩,
  ⟨0x48800, 56, 0x8, 0x0, 0x0, 0x0, false⟩,
  ⟨0x48804, 56, 0x8, 0x1000000, 0x0, 0x0, false⟩]

/-- The registers of MOD. -/
def regsMOD : List RegRow := [
  ⟨0x50000, 1, 0x4, 0x400, 0xFF37, 0x0, true⟩,
  ⟨0x50004, 1, 0x4, 0x100, 0xFFFFFFFF, 0x0, true⟩,
  ⟨0x50008, 1, 0x4, 0xA0000, 0xFFFFFFFF, 0x0, true⟩,
  ⟨0x5000C, 1, 0x4, 0x32, 0xFFFF, 0x0, true⟩,
  ⟨0x50010, 1, 0x4, 0x0, 0xFFFFFFFF, 0x0, true⟩,
  ⟨0x50014, 1, 0x4, 0x0, 0x800001FF, 0x0, true⟩,
  ⟨0x50020, 6, 0x4, 0x4, 0x3F, 0x0, true⟩,
  ⟨0x50040, 12, 0x4, 0x320, 0x877F0FFF, 0x0, true⟩,
  ⟨0x50080, 1, 0x4, 0x0, 0x0, 0x0, false⟩,
  ⟨0x50084, 1, 0x4, 0x0, 0x0, 0x7F, false⟩,
  ⟨0x50088, 1, 0x4, 0x0, 0x0, 0x0, false⟩,
  ⟨0x50090, 6, 0x10, 0x0, 0x0, 0x0, false⟩,
  ⟨0x50094, 6, 0x10, 0x0, 0x0, 0x0, false⟩,
  ⟨0x50098, 6, 0x10, 0x0, 0x0, 0x0, false⟩,
  ⟨0x50100, 24, 0x4, 0x0, 0x0, 0x0, false⟩,
  ⟨0x50180, 24, 0x4, 0x0, 0x0, 0x0, false⟩,
  ⟨0x501E0, 1, 0x4, 0x0, 0x0, 0x0, false⟩,
  ⟨0x501E4, 1, 0x4, 0x0, 0x0, 0x0, false⟩,
  ⟨0x501E8, 1, 0x4, 0x0, 0x0, 0x0, false⟩,
  ⟨0x501F0, 1, 0x4, 0x0, 0x0, 0x0, false⟩]

/-- The registers of SUP. -/
def regsSUP : List RegRow := [
  ⟨0x58000, 1, 0x4, 0x0, 0x1F, 0x0, true⟩,
  ⟨0x58004, 1, 0x4, 0xA5A04B0, 0xFFFFFFFF, 0x0, true⟩,
  ⟨0x58008, 1, 0x4, 0x12C0000, 0xFFFFFFFF, 0x0, true⟩,
  ⟨0x5800C, 1, 0x4, 0x14027355, 0xFFFFFFFF, 0x0, true⟩,
  ⟨0x58010, 1, 0x4, 0xC80014, 0xFFFFFFFF, 0x0, true⟩,
  ⟨0x58014, 1, 0x4, 0x10040064, 0xFFFFFFFF, 0x0, true⟩,
  ⟨0x58018, 1, 0x4, 0x143214, 0xFFFFFF, 0x0, true⟩,
  ⟨0x5801C, 1, 0x4, 0xAAAAA, 0x3FFFFF, 0x0, true⟩,
  ⟨0x58020, 9, 0x4, 0x0, 0xFFFFFFFF, 0x0, true⟩,
  ⟨0x58044, 6, 0x4, 0x0, 0xFFFFFFFF, 0x0, true⟩,
  ⟨0x5805C, 3, 0x4, 0x0, 0xFFFFFFFF, 0x0, true⟩,
  ⟨0x58070, 4, 0x8, 0x0, 0x81FF01FF, 0x0, true⟩,
  ⟨0x58074, 4, 0x8, 0x0, 0xFFFFFFFF, 0x0, true⟩,
  ⟨0x58090, 1, 0x4, 0x0, 0x0, 0x0, false⟩,
  ⟨0x58094, 1, 0x4, 0x0, 0x0, 0xFFFF, false⟩,
  ⟨0x58098, 1, 0x4, 0x0, 0x0, 0x0, false⟩,
  ⟨0x5809C, 1, 0x4, 0x0, 0x0, 0x0, false⟩,
  ⟨0x580A0, 1, 0x4, 0x0, 0x0, 0x0, false⟩,
  ⟨0x580A4, 1, 0x4, 0x0, 0x0, 0x0, false⟩,
  ⟨0x580A8, 1, 0x4, 0x0, 0x0, 0x0, false⟩,
  ⟨0x580AC, 1, 0x4, 0x0, 0x0, 0x0, false⟩,
  ⟨0x580B0, 1, 0x4, 0x0, 0x0, 0x0, false⟩,
  ⟨0x580B4, 1, 0x4, 0x0, 0x0, 0x0, false⟩,
  ⟨0x580B8, 1, 0x4, 0x0, 0x0, 0x0, false⟩,
  ⟨0x580BC, 1, 0x4, 0x0, 0x0, 0x0, false⟩,
  ⟨0x580C0, 3, 0x4, 0x0, 0x0, 0x0, false⟩,
  ⟨0x580CC, 1, 0x4, 0x0, 0x0, 0x0, false⟩]

/-- The registers of PWM. `PWM_CMPA` holds bits 25:0 as written in either mode: the field's line calls bits 25:17
reserved in RATIO mode inside a field that it gives as RW; DESIGN CHOICE, log 97: they are stored and read back there
too (R8). -/
def regsPWM : List RegRow := [
  ⟨0x60000, 1, 0x4, 0x30, 0x1F1, 0x0, true⟩,
  ⟨0x60004, 1, 0x4, 0x0, 0xFFFFFFFF, 0x0, true⟩,
  ⟨0x60008, 1, 0x4, 0x0, 0x0, 0x0, false⟩,
  ⟨0x60010, 1, 0x4, 0xFFF, 0x0, 0x0, false⟩,
  ⟨0x60014, 1, 0x4, 0x0, 0x0, 0x1F, false⟩,
  ⟨0x60018, 1, 0x4, 0x0, 0x0, 0x0, false⟩,
  ⟨0x60020, 1, 0x4, 0x0, 0x0, 0x0, false⟩,
  ⟨0x60024, 1, 0x4, 0x0, 0x0, 0x0, false⟩,
  ⟨0x60028, 1, 0x4, 0x0, 0x0, 0x0, false⟩,
  ⟨0x6002C, 1, 0x4, 0x0, 0x0, 0x0, false⟩,
  ⟨0x60100, 12, 0x20, 0x0, 0xF0000033, 0x0, true⟩,
  ⟨0x60104, 12, 0x20, 0x0, 0xFFF0FFF, 0x0, true⟩,
  ⟨0x60108, 12, 0x20, 0x0, 0xFFF, 0x0, true⟩,
  ⟨0x6010C, 12, 0x20, 0x0, 0xFFFFFFFF, 0x0, true⟩,
  ⟨0x60110, 12, 0x20, 0x0, 0xFFFFF, 0x0, false⟩,
  ⟨0x60114, 12, 0x20, 0x0, 0x3FFFFFF, 0x0, false⟩,
  ⟨0x60300, 8, 0x4, 0x0, 0xFF1F0FFF, 0x0, true⟩,
  ⟨0x60320, 8, 0x4, 0x80000000, 0xFF1F0FFF, 0x0, true⟩,
  ⟨0x60380, 8, 0x4, 0x0, 0xFF0FFF, 0x0, true⟩]

/-- The registers of PEN. -/
def regsPEN : List RegRow := [
  ⟨0x70000, 1, 0x4, 0x8, 0xFF, 0x0, true⟩,
  ⟨0x70004, 1, 0x4, 0x0, 0xFFFFFFFF, 0x0, true⟩,
  ⟨0x70008, 1, 0x4, 0x0, 0x0, 0x0, false⟩,
  ⟨0x7000C, 1, 0x4, 0x0, 0x0, 0xFF, false⟩,
  ⟨0x70010, 1, 0x4, 0x0, 0x0, 0x0, false⟩,
  ⟨0x70014, 1, 0x4, 0xFFFF0000, 0xFFFFFFFF, 0x0, true⟩,
  ⟨0x70020, 1, 0x4, 0x0, 0x0, 0x0, false⟩,
  ⟨0x70024, 1, 0x4, 0x0, 0x0, 0x0, false⟩,
  ⟨0x70028, 1, 0x4, 0x0, 0x0, 0x0, false⟩,
  ⟨0x7002C, 1, 0x4, 0x0, 0x0, 0x0, false⟩,
  ⟨0x70040, 12, 0x4, 0x2, 0x3, 0x0, true⟩,
  ⟨0x70080, 12, 0x4, 0x24, 0x0, 0x0, false⟩,
  ⟨0x70100, 24, 0x4, 0x0, 0x0, 0x0, false⟩]

/-- The registers of PNT. -/
def regsPNT : List RegRow := [
  ⟨0x80000, 1, 0x4, 0x0, 0x0, 0x0, false⟩,
  ⟨0x80004, 1, 0x4, 0x0, 0x0, 0x3F, false⟩,
  ⟨0x80008, 1, 0x4, 0x0, 0xFFFFF, 0x0, false⟩,
  ⟨0x8000C, 1, 0x4, 0x0, 0x303FF, 0x0, false⟩,
  ⟨0x80010, 1, 0x4, 0x0, 0x0, 0x0, false⟩,
  ⟨0x80020, 1, 0x4, 0x10FF, 0x0, 0x0, false⟩,
  ⟨0x80024, 1, 0x4, 0x0, 0x0, 0x0, false⟩,
  ⟨0x80028, 1, 0x4, 0xFFFF, 0x0, 0x0, false⟩,
  ⟨0x8002C, 1, 0x4, 0x0, 0x0, 0x0, false⟩,
  ⟨0x80030, 1, 0x4, 0x0, 0x0, 0x0, false⟩,
  ⟨0x80034, 1, 0x4, 0x0, 0x0, 0x0, false⟩,
  ⟨0x80038, 1, 0x4, 0x0, 0x0, 0x0, false⟩,
  ⟨0x8003C, 1, 0x4, 0x0, 0x0, 0x0, false⟩,
  ⟨0x80040, 1, 0x4, 0x0, 0x0, 0x0, false⟩,
  ⟨0x80044, 1, 0x4, 0x0, 0x0, 0x0, false⟩,
  ⟨0x80048, 1, 0x4, 0x0, 0x0, 0x0, false⟩]

/-- The registers of ACQ. -/
def regsACQ : List RegRow := [
  ⟨0x90000, 1, 0x4, 0x4, 0x3F, 0x0, true⟩,
  ⟨0x90004, 1, 0x4, 0x0, 0x0, 0x0, false⟩,
  ⟨0x90008, 1, 0x4, 0x0, 0x0, 0x1F, false⟩,
  ⟨0x9000C, 1, 0x4, 0x0, 0x0, 0x0, false⟩,
  ⟨0x90010, 1, 0x4, 0x0, 0x0, 0x0, false⟩,
  ⟨0x90020, 8, 0x4, 0x0, 0x0, 0x0, false⟩,
  ⟨0x90040, 8, 0x4, 0x0, 0x0, 0x0, false⟩,
  ⟨0x90060, 8, 0x4, 0x0, 0x0, 0x0, false⟩,
  ⟨0x90100, 64, 0x4, 0x0, 0x31FF, 0x0, true⟩,
  ⟨0x90400, 8, 0x40, 0x0, 0xF0FFFF00, 0x0, true⟩,
  ⟨0x90404, 8, 0x40, 0x0, 0xFFFFFFFF, 0x0, true⟩,
  ⟨0x90408, 8, 0x40, 0x10, 0x1FFFFF, 0x0, true⟩,
  ⟨0x9040C, 8, 0x40, 0x0, 0xFF, 0x0, true⟩,
  ⟨0x90410, 8, 0x40, 0x0, 0xFFFFFFFF, 0x0, true⟩,
  ⟨0x90414, 8, 0x40, 0x0, 0xFFFFFFFF, 0x0, true⟩,
  ⟨0x90418, 8, 0x40, 0x0, 0xFFFFFFFF, 0x0, true⟩,
  ⟨0x9041C, 8, 0x40, 0x0, 0xFFFFFFFF, 0x0, true⟩,
  ⟨0x90420, 8, 0x40, 0x10, 0x1F, 0x0, true⟩,
  ⟨0x90424, 8, 0x40, 0x4B19, 0xFFFF, 0x0, true⟩,
  ⟨0x90800, 8, 0x20, 0x0, 0xFE0031FF, 0x0, true⟩,
  ⟨0x90804, 8, 0x20, 0x0, 0xFFFFFFFF, 0x0, true⟩,
  ⟨0x90808, 8, 0x20, 0x0, 0xFFFFFFFF, 0x0, true⟩,
  ⟨0x9080C, 8, 0x20, 0x0, 0xFFFFFFFF, 0x0, true⟩,
  ⟨0x90810, 8, 0x20, 0x0, 0xFFFFFFFF, 0x0, true⟩]

/-- The registers of TWN. -/
def regsTWN : List RegRow := [
  ⟨0xA0000, 1, 0x4, 0x40004E20, 0xC1FFFFFF, 0x0, true⟩,
  ⟨0xA0004, 1, 0x4, 0x70, 0x0, 0x0, false⟩,
  ⟨0xA0008, 1, 0x4, 0x0, 0x0, 0xFFF, false⟩,
  ⟨0xA000C, 1, 0x4, 0x0, 0x0, 0x0, false⟩,
  ⟨0xA0010, 1, 0x4, 0x0, 0x0, 0x0, false⟩,
  ⟨0xA0014, 1, 0x4, 0x0, 0x0, 0x0, false⟩,
  ⟨0xA0018, 1, 0x4, 0x0, 0x0, 0x0, false⟩,
  ⟨0xA001C, 1, 0x4, 0x0, 0x0, 0x0, false⟩,
  ⟨0xA0020, 1, 0x4, 0x0, 0x0, 0x0, false⟩,
  ⟨0xA0024, 1, 0x4, 0x0, 0x0, 0x0, false⟩,
  ⟨0xA0028, 1, 0x4, 0x0, 0x0, 0x0, false⟩]

/-- The registers of FEN. -/
def regsFEN : List RegRow := [
  ⟨0xB0000, 1, 0x4, 0x0, 0x0, 0x0, false⟩,
  ⟨0xB0004, 1, 0x4, 0x0, 0x0, 0x0, false⟩,
  ⟨0xB0008, 1, 0x4, 0x0, 0x0, 0x0, false⟩,
  ⟨0xB000C, 1, 0x4, 0x0, 0x0, 0x0, false⟩,
  ⟨0xB0010, 1, 0x4, 0x0, 0x0, 0x0, false⟩,
  ⟨0xB0014, 1, 0x4, 0x0, 0x0, 0x0, false⟩,
  ⟨0xB0018, 1, 0x4, 0x0, 0x0, 0x0, false⟩,
  ⟨0xB001C, 1, 0x4, 0x0, 0x0, 0x0, false⟩,
  ⟨0xB0020, 8, 0x4, 0x0, 0x0, 0x0, false⟩,
  ⟨0xB0040, 4, 0x4, 0x0, 0x0, 0x0, false⟩,
  ⟨0xB0050, 1, 0x4, 0x0, 0x0, 0x0, false⟩,
  ⟨0xB0054, 1, 0x4, 0x0, 0x0, 0x0, false⟩,
  ⟨0xB0060, 4, 0x4, 0x0, 0x0, 0x0, false⟩,
  ⟨0xB0070, 1, 0x4, 0x0, 0x0, 0x0, false⟩,
  ⟨0xB0074, 1, 0x4, 0x0, 0x0, 0x0, false⟩,
  ⟨0xB007C, 1, 0x4, 0x0, 0x0, 0x0, false⟩]

/-- The registers of HK. -/
def regsHK : List RegRow := [
  ⟨0xC0000, 1, 0x4, 0x690A, 0xFFFF, 0x0, true⟩,
  ⟨0xC0004, 1, 0x4, 0x3F, 0x3F, 0x0, true⟩,
  ⟨0xC0008, 1, 0x4, 0x0, 0x0, 0x0, false⟩,
  ⟨0xC000C, 1, 0x4, 0x0, 0x0, 0x7F, false⟩,
  ⟨0xC0040, 16, 0x4, 0x3E80D6B, 0xFFFF1FFF, 0x0, true⟩,
  ⟨0xC0080, 1, 0x4, 0x1900064, 0xFFFF00FF, 0x0, true⟩,
  ⟨0xC0084, 1, 0x4, 0x1C20064, 0xFFFF00FF, 0x0, true⟩,
  ⟨0xC0088, 1, 0x4, 0x1F4005A, 0xFFFF00FF, 0x0, true⟩,
  ⟨0xC008C, 1, 0x4, 0x226004B, 0xFFFF00FF, 0x0, true⟩,
  ⟨0xC0090, 1, 0x4, 0x258003C, 0xFFFF00FF, 0x0, true⟩,
  ⟨0xC0094, 1, 0x4, 0x28A002D, 0xFFFF00FF, 0x0, true⟩,
  ⟨0xC0098, 1, 0x4, 0x2BC0023, 0xFFFF00FF, 0x0, true⟩,
  ⟨0xC009C, 1, 0x4, 0x2EE001E, 0xFFFF00FF, 0x0, true⟩,
  ⟨0xC00A0, 1, 0x4, 0x1900064, 0xFFFF00FF, 0x0, true⟩,
  ⟨0xC00A4, 1, 0x4, 0x1C20064, 0xFFFF00FF, 0x0, true⟩,
  ⟨0xC00A8, 1, 0x4, 0x1F4005A, 0xFFFF00FF, 0x0, true⟩,
  ⟨0xC00AC, 1, 0x4, 0x226004B, 0xFFFF00FF, 0x0, true⟩,
  ⟨0xC00B0, 1, 0x4, 0x258003C, 0xFFFF00FF, 0x0, true⟩,
  ⟨0xC00B4, 1, 0x4, 0x28A002D, 0xFFFF00FF, 0x0, true⟩,
  ⟨0xC00B8, 1, 0x4, 0x2BC0023, 0xFFFF00FF, 0x0, true⟩,
  ⟨0xC00BC, 1, 0x4, 0x2EE001E, 0xFFFF00FF, 0x0, true⟩,
  ⟨0xC00C0, 1, 0x4, 0x0, 0x0, 0x0, false⟩,
  ⟨0xC00C4, 1, 0x4, 0x3E8, 0x0, 0x0, false⟩,
  ⟨0xC00C8, 1, 0x4, 0x0, 0x0, 0x0, false⟩,
  ⟨0xC0100, 64, 0x4, 0x0, 0x0, 0x0, false⟩]

/-- The registers of AUX. -/
def regsAUX : List RegRow := [
  ⟨0xD0000, 1, 0x4, 0x3E80, 0x3FFFF, 0x0, true⟩,
  ⟨0xD0004, 1, 0x4, 0x0, 0x0, 0x0, false⟩,
  ⟨0xD0008, 1, 0x4, 0x0, 0x0, 0x3F, false⟩,
  ⟨0xD000C, 1, 0x4, 0x0, 0x0, 0x0, false⟩,
  ⟨0xD0010, 1, 0x4, 0x0, 0x0, 0x0, false⟩,
  ⟨0xD0014, 1, 0x4, 0x0, 0x0, 0x0, false⟩,
  ⟨0xD0100, 4, 0x20, 0xA, 0xFF7FFFFF, 0x0, true⟩,
  ⟨0xD0104, 4, 0x20, 0x64322832, 0xFFFFFFFF, 0x0, true⟩,
  ⟨0xD0108, 4, 0x20, 0x1E00018, 0xFFFFFFFF, 0x0, true⟩,
  ⟨0xD010C, 4, 0x20, 0x0, 0xFFFFFF, 0x0, true⟩,
  ⟨0xD0110, 4, 0x20, 0x0, 0xFFFFFFFF, 0x0, true⟩,
  ⟨0xD0114, 4, 0x20, 0xC0EC280, 0xFFFFFFFF, 0x0, true⟩,
  ⟨0xD0118, 4, 0x20, 0x5F0000, 0x80FF01FF, 0x0, true⟩,
  ⟨0xD011C, 4, 0x20, 0x0, 0xFFFFFFFF, 0x0, true⟩,
  ⟨0xD0180, 4, 0x4, 0x0, 0x0, 0x0, false⟩,
  ⟨0xD0200, 4, 0x8, 0x500032, 0x1FF007F, 0x0, true⟩,
  ⟨0xD0204, 4, 0x8, 0x70190, 0x70FFF, 0x0, true⟩]

/-- The registers of LRD. -/
def regsLRD : List RegRow := [
  ⟨0xE0000, 16, 0x4, 0x0, 0x1FF01FF, 0x0, true⟩,
  ⟨0xE0040, 1, 0x4, 0x0, 0x0, 0x0, false⟩,
  ⟨0xE0044, 1, 0x4, 0x0, 0x0, 0xF, false⟩,
  ⟨0xE0048, 1, 0x4, 0x0, 0xFFFFFFFF, 0x0, false⟩,
  ⟨0xE004C, 1, 0x4, 0x0, 0x0, 0x0, false⟩,
  ⟨0xE0050, 1, 0x4, 0x0, 0x0, 0x0, false⟩,
  ⟨0xE0054, 1, 0x4, 0x0, 0x0, 0x0, false⟩,
  ⟨0xE0058, 1, 0x4, 0x0, 0x0, 0x0, false⟩,
  ⟨0xE0080, 16, 0x4, 0x0, 0x0, 0x0, false⟩]

/-- The registers of SEC. -/
def regsSEC : List RegRow := [
  ⟨0xF0000, 1, 0x4, 0x1, 0x0, 0x0, false⟩,
  ⟨0xF0004, 1, 0x4, 0x0, 0x0, 0x0, false⟩,
  ⟨0xF0008, 1, 0x4, 0x0, 0x0, 0x0, false⟩,
  ⟨0xF000C, 1, 0x4, 0x0, 0x0, 0x7F, false⟩,
  ⟨0xF0010, 1, 0x4, 0x0, 0x0, 0x0, false⟩,
  ⟨0xF0014, 1, 0x4, 0x0, 0x0, 0x0, false⟩,
  ⟨0xF0018, 1, 0x4, 0x0, 0x0, 0x0, false⟩,
  ⟨0xF001C, 1, 0x4, 0x0, 0x0, 0x0, false⟩,
  ⟨0xF0020, 1, 0x4, 0x0, 0x0, 0x0, false⟩]

/-- The registers of the 64 KiB window an offset lies in. -/
def windowRows (off : Nat) : List RegRow :=
  match off / 0x10000 with

  | 0 => regsSYS
  | 1 => regsCLK
  | 2 => regsHOST
  | 3 => regsANG ++ regsGFM ++ regsPROF
  | 4 => regsLOOP ++ regsADC
  | 5 => regsMOD ++ regsSUP
  | 6 => regsPWM
  | 7 => regsPEN
  | 8 => regsPNT
  | 9 => regsACQ
  | 10 => regsTWN
  | 11 => regsFEN
  | 12 => regsHK
  | 13 => regsAUX
  | 14 => regsLRD
  | 15 => regsSEC
  | _ => []

/-- The row covers the offset. -/
def RegRow.covers (r : RegRow) (off : Nat) : Bool :=
  decide (r.base ≤ off) && decide ((off - r.base) % r.stride = 0) && decide ((off - r.base) / r.stride < r.count)

/-- The first row of a list that covers an offset. -/
def findRow : List RegRow → Nat → Option RegRow
  | [], _ => none
  | r :: rest, off => if r.covers off then some r else findRow rest off

/-- The row of a register by its offset in BAR0; none where no register stands. -/
def regRow (off : Nat) : Option RegRow := findRow (windowRows off) off

/-- The reset value of the register at an offset; 0 where none stands. -/
def regReset (off : Nat) : W32 := match regRow off with
  | some r => BitVec.ofNat 32 r.reset
  | none => 0

end Sys2Proof.Machine
end

