-- ==== Sys2Proof/State/Acq.lean ====
section
/-! DEFINITION. State of disturbance capture (ACQ): sets, records, trigger units, sieve and delivery. -/

namespace Sys2Proof

/-- States of a set (R326). -/
inductive SetPhase where
  | disarmed | filling | ready | post | wait
deriving DecidableEq, Repr

/-- One stored sample: time, the tick count that its record shows (ANG_TICK, R333), stroke number, angle and one word per
channel. -/
structure AcqSample where
  tick : Nat
  count : Nat
  sn : W32
  theta : W32
  words : List W32
deriving DecidableEq, Repr

/-- A record being taken or waiting for delivery (R327, R328, R333). -/
structure AcqRecord where
  mask : Nat
  /-- Samples newest first; the trigger sample has `pre` samples before it. -/
  samples : List AcqSample
  pre : Nat
  trigTick : Nat
  /-- Samples older than these that are still kept, newest first: a trigger may prove to be earlier (R325). -/
  before : List AcqSample
  missed : Nat
  /-- The triggers of its re-arm interval, newest first: bit and tick. -/
  missedAt : List (Nat × Nat)
  missSn : W32
  missTheta : W32
  dropped : Nat
  seq : Nat
  /-- C, the rate and DIV − 1 with which the samples were taken (R333). -/
  chans : Nat
  conv : Bool
  div : Nat
  /-- The arming was SINGLE (R329). -/
  single : Bool
  /-- The sieve factor has taken its step for this record (R332). -/
  stepped : Bool
deriving DecidableEq, Repr

/-- One capture set. -/
structure AcqSet where
  phase : SetPhase
  /-- The set becomes DISARMED when its record closes (R329). -/
  single : Bool
  /-- The set becomes DISARMED when its record has been delivered (R335). -/
  ending : Bool
  /-- An accepted CAPTURE_ARM waits for its sample instant (R335). -/
  armTick : Option Nat
  /-- Base samples seen since arming (R321). -/
  base : Nat
  /-- Samples since FILLING began, newest first. -/
  pre : List AcqSample
  cur : Option AcqRecord
  /-- Closed records, oldest first. -/
  closed : List AcqRecord
  seq : Nat
  /-- log2 of the sieve factor. -/
  sieve : Nat
  missCnt : Nat
  dropCnt : Nat
  dropSince : Nat
  recCnt : Nat
  /-- Triggers that have not fallen on a sample yet (R325): bit and tick. -/
  trig : List (Nat × Nat)
  fillStart : Nat
  /-- Runs of the host area that have been written (R331): descriptor index, offset, length, oldest first. -/
  area : List (Nat × Nat × Nat)
  areaNext : Nat
deriving DecidableEq, Repr

/-- One trigger unit (R323). -/
structure AcqUnit where
  inLevel : Bool
  /-- The evaluation at which the source came into level. -/
  since : Nat
  /-- The unit has fired for the present level or transition. -/
  fired : Bool
  /-- A runt or a transition is in progress, whether it has gone beyond the far level, and when it began. -/
  going : Bool
  beyond : Bool
  goStart : Nat
  /-- The stamp of an ANGLE unit has fired, and the trigger is still to come. -/
  pending : Bool
  /-- The revolution in which the stamp last fired (R45). -/
  lastRev : Option W32
deriving DecidableEq, Repr

structure AcqState where
  sets : SMap AcqSet
  units : SMap AcqUnit
  /-- EXT_TRIG_IN, and whether its present level has triggered (R324). -/
  ext : PinLevel
  extSeen : Bool
deriving DecidableEq, Repr

/-! ### Reset values (where the spec states none, the value is named in the assumption log). -/

/-- No sample. -/
def AcqSample.reset : AcqSample where
  tick := 0
  count := 0
  sn := 0
  theta := 0
  words := []

/-- The reset value of `AcqSet`. -/
def AcqSet.reset : AcqSet where
  phase := .disarmed
  single := false
  ending := false
  armTick := none
  base := 0
  pre := []
  cur := none
  closed := []
  seq := 0
  sieve := 0
  missCnt := 0
  dropCnt := 0
  dropSince := 0
  recCnt := 0
  trig := []
  fillStart := 0
  area := []
  areaNext := 0

/-- The reset value of `AcqUnit`. -/
def AcqUnit.reset : AcqUnit where
  inLevel := false
  since := 0
  fired := false
  going := false
  beyond := false
  goStart := 0
  pending := false
  lastRev := none

/-- The reset value of `AcqState`. -/
def AcqState.reset : AcqState where
  sets := .empty
  units := .empty
  ext := PinLevel.reset
  extSeen := true

end Sys2Proof
end

