-- ==== Sys2Proof/State/Clk.lean ====
section
/-! DEFINITION. State of clock synthesis (CLK): the SYSPLL, the reference, PPS and the time of day. -/

namespace Sys2Proof

/-- States of the SYSPLL (R339–R349), with the codes of CLK_STATUS.STATE. -/
inductive PllState where
  | search | locked | holdover | pulling | jumpPending | noLock
deriving DecidableEq, Repr

/-- What raised a pending reference jump (R346, R351). -/
inductive JumpSource where
  | ref | pps
deriving DecidableEq, Repr

/-- A TIME_SET command that has not completed (R347–R349). -/
structure OpenTime where
  ring : Nat
  slot : Nat
  tag : Nat
  step : Bool
deriving DecidableEq, Repr

/-- Phase steps that are being applied (R350): the tick after which they begin, VCO periods (an eighth of a tick) to a
step, the phase to be removed, in steps of 4.8828125 ps, and whether they are those of STEP (R349). -/
structure PhaseRun where
  start : Nat
  per : Nat
  n : Int
  step : Bool
deriving DecidableEq, Repr

/-- A clock output (R353): it runs with a divisor, `pos` VCO periods into its cycle, whose first half is high. -/
structure ClkOut where
  on : Bool
  div : Nat
  pos : Nat
deriving DecidableEq, Repr

/-- The reset value of `ClkOut`. -/
def ClkOut.reset : ClkOut := { on := false, div := 16, pos := 0 }

structure ClkState where
  state : PllState
  /-- The logic runs from the fallback oscillator (R343). -/
  fallback : Bool
  fail : Bool
  refOk : Bool
  ppsOk : Bool
  band : Nat
  /-- e of R346 and R351 as last measured, in units of 4.8828125 ps. -/
  phaseErr : Int
  jump : JumpSource
  /-- The phase steps in progress (R346, R348–R351). -/
  steps : Option PhaseRun
  /-- The seed that the last lock loaded (R341). -/
  seed : Nat
  /-- The tick of the last lock (R340, R353). -/
  lockTick : Nat
  outs : SMap ClkOut
  /-- The SYSPLL's trim in units of 39.0625 ps / 16 s (R351). -/
  trim : Int
  /-- R352: seconds, and the tick at which the current second began. -/
  secs : Nat
  secTick : Nat
  pendTod : Option Nat
  holdCnt : Nat
  stepCnt : Nat
  lockCnt : Nat
  /-- The tick at which the search for lock began, or at which it failed (R344). -/
  lockStart : Nat
  lastPps : Option Nat
  openCmds : List OpenTime
deriving DecidableEq, Repr

/-! ### Reset values (where the spec states none, the value is named in the assumption log). -/

/-- The reset value of `ClkState`. -/
def ClkState.reset : ClkState where
  state := .search
  fallback := true
  fail := false
  refOk := false
  ppsOk := false
  band := 0
  phaseErr := 0
  jump := .ref
  steps := none
  seed := 0
  lockTick := 0
  outs := .empty
  trim := 0
  secs := 0
  secTick := 0
  pendTod := none
  holdCnt := 0
  stepCnt := 0
  lockCnt := 0
  lockStart := 0
  lastPps := none
  openCmds := []

end Sys2Proof
end

