-- ==== Sys2Proof/State/Cool.lean ====
section
/-! DEFINITION. State of the cooling plant drives (AUX): four drives, twelve half-bridges and four shunt groups. -/

namespace Sys2Proof

/-- States of a drive, with the codes of AUX_DRV_STATUS.STATE (R502). -/
inductive DriveState where
  | off | precharge | ready | moving | homing | standstill | fault
deriving DecidableEq, Repr

/-- The phases of referencing (R496). -/
inductive HomePhase where
  | none | stall | seek | seekEnd | backOff | backEnd | approach | approachEnd
deriving DecidableEq, Repr

structure AuxDrive where
  st : DriveState
  fault : Nat
  /-- The tick of the fault (R500). -/
  faultTick : Nat
  homed : Bool
  /-- The code of the Hall inputs, none before the first that has been counted, and its sector, the step count modulo 2^24, the tick of the last change and the duration
  of the sector before it, and the direction of that change (R488, R492). -/
  hall : Option Nat
  sector : Nat
  count : Int
  lastChange : Nat
  prevT : Nat
  reverse : Bool
  /-- RUN is in force, and its direction (R491). -/
  running : Bool
  negRun : Bool
  homing : HomePhase
  /-- The tick at which the homing phase began, and the channel's parameters before it (R496). -/
  phaseStart : Nat
  saved : Option Ramp
  preEnd : Nat
  /-- A precharge has ended since ENABLE, standstill OFF or a fault (R486). -/
  charged : Bool
  /-- The move that starts when precharge ends (R495): its channel command, and whether it is a referencing. -/
  next : Option (ProfOp × HomePhase)
  /-- The tick at which the last move completed (R495). -/
  stillStart : Option Nat
deriving DecidableEq, Repr

/-- What a half-bridge is asked for. -/
inductive HalfWant where
  | none | high | low
deriving DecidableEq, Repr

/-- One half-bridge (R485, R487). -/
structure AuxHalf where
  want : HalfWant
  /-- The tick from which it is asked for, and the tick at which a high side gives way to its low side. -/
  since : Nat
  offAt : Option Nat
  /-- The latest turn-on edge before that (R499). -/
  lastOn : Option Nat
  /-- The tick at which the refresh pulse in progress began, and the refreshes since the last clear. -/
  refresh : Option Nat
  refreshes : Nat
  lastLow : Nat
deriving DecidableEq, Repr

/-- One shunt group (R498, R499). -/
structure AuxGroup where
  /-- A set-level crossing has been seen during the blanking in progress. -/
  seen : Bool
  /-- The coil is in slow decay until the next period (R494). -/
  chop : Bool
  /-- Set-level crossings that ended within blanking. -/
  blanked : Nat
deriving DecidableEq, Repr

structure AuxState where
  drives : SMap AuxDrive
  halves : SMap AuxHalf
  groups : SMap AuxGroup
  /-- Qualified levels of LIMIT_0–7 (R496). -/
  limits : Nat
  testPass : Nat
  testFail : Nat
  oc : Nat
  refreshCnt : Nat
  /-- SIG[DUTY_SIG] of each drive at the latest sample instant (R490). -/
  dutySigs : SMap W32
deriving DecidableEq, Repr

/-! ### Reset values (where the spec states none, the value is named in the assumption log). -/

/-- The reset value of `AuxDrive`. -/
def AuxDrive.reset : AuxDrive where
  st := .off
  fault := 0
  faultTick := 0
  homed := false
  hall := none
  sector := 0
  count := 0
  lastChange := 0
  prevT := 0
  reverse := false
  running := false
  negRun := false
  homing := .none
  phaseStart := 0
  saved := none
  preEnd := 0
  charged := false
  next := none
  stillStart := none

/-- The reset value of `AuxHalf`. -/
def AuxHalf.reset : AuxHalf where
  want := .none
  since := 0
  offAt := none
  lastOn := none
  refresh := none
  refreshes := 0
  lastLow := 0

/-- The reset value of `AuxGroup`. -/
def AuxGroup.reset : AuxGroup where
  seen := false
  chop := false
  blanked := 0

/-- The reset value of `AuxState`. -/
def AuxState.reset : AuxState where
  drives := .empty
  halves := .empty
  groups := .empty
  limits := 0
  testPass := 0
  testFail := 0
  oc := 0
  refreshCnt := 0
  dutySigs := .empty

end Sys2Proof
end

