-- ==== Sys2Proof/State/Fen.lean ====
section
/-! DEFINITION. State of the Fence safety partition (FEN): inputs, pairs, parameters, its own time, and the change
log. Parameters, the lockout and the log are non-volatile. Fence time counts samples of 50 µs (R386). -/

namespace Sys2Proof

/-- One channel of a Fence input (R386, R388). -/
structure FenChan where
  demand : Bool
  /-- Counted samples in a row that read low, and that read high. -/
  low : Nat
  high : Nat
  /-- The channel has read low in the window of the pulse in progress, and it followed its last whole pulse. -/
  seen : Bool
  followed : Bool
deriving DecidableEq, Repr

/-- One Fence input (R386–R391). -/
structure FenIn where
  a : FenChan
  b : FenChan
  /-- Counted samples of the disagreement in progress (R390). -/
  differ : Nat
  disc : Bool
  tpf : Bool
  near : Nat
deriving DecidableEq, Repr

/-- One switch of an output pair (R393, R395). -/
structure FenSwitch where
  /-- Commanded closed. -/
  cmd : Bool
  /-- The read-back at the last sample: conducting. -/
  rb : Bool
  /-- Samples in a row in which the read-back has differed from the command. -/
  bad : Nat
  fault : Bool
deriving DecidableEq, Repr

/-- The stage of a contactor test (R397). -/
inductive FenStage where
  | none | high | gap | low
deriving DecidableEq, Repr

/-- One Fence output pair (R392–R400). -/
structure FenOut where
  demanded : Bool
  latched : Bool
  hi : FenSwitch
  lo : FenSwitch
  stage : FenStage
  /-- The Fence time at which the stage began. -/
  since : Nat
  /-- The Fence time of the last completed test, or 0, and whether there has been one since FENCE_INIT (R398). -/
  lastTest : Nat
  tested : Bool
  /-- A test waits for the pair to close (R398, R399). -/
  waiting : Bool
  result : Nat
deriving DecidableEq, Repr

/-- A FENCE_TEST command in progress (R401): the pairs left, the pair under test, and whether all passed so far. -/
structure OpenFenceTest where
  ring : Nat
  slot : Nat
  tag : Nat
  left : List Nat
  cur : Nat
  pass : Bool
deriving DecidableEq, Repr

/-- States of the Fence, with the codes of FEN_STATUS.STATE. -/
inductive FenPhase where
  | init | run | fault
deriving DecidableEq, Repr

/-- A whole parameter set (R403). -/
structure FenSet where
  passcode : W32
  inCfg : SMap W32
  pairCfg : SMap W32
deriving DecidableEq, Repr

structure FenState where
  time : Nat
  st : FenPhase
  /-- The supply monitor holds the Fence in reset (R384). -/
  held : Bool
  code : Nat
  ins : SMap FenIn
  outs : SMap FenOut
  /-- The Fence time at which the last pulse of each test-pulse line began (R387). -/
  pulses : SMap (Option Nat)
  /-- Non-volatile parameters (R402, R403). -/
  passcode : W32
  inCfg : SMap W32
  pairCfg : SMap W32
  wrong : Nat
  /-- The Fence time at which the lockout ends (R404). -/
  lockEnd : Option Nat
  /-- The change log, newest first, and its latest sequence (R406). -/
  logSeq : Nat
  log : List (List Byte)
  /-- The parameter set of each entry of the log (R405). -/
  sets : List FenSet
  /-- Events that wait for ring 30 (R442). -/
  queue : List (List Byte)
  /-- The register image, and its refresh count. -/
  image : SMap W32
  imageSeq : Nat
  sysclkDev : Bool
  ignCnt : Nat
  authFail : Nat
  openTest : Option OpenFenceTest
deriving DecidableEq, Repr

/-! ### Reset values (where the spec states none, the value is named in the assumption log). -/

/-- An IN_CFG parameter as it leaves the factory: T_DISC at its default of 50 ms (R390), the rest 0 (log 126). -/
def factoryIn : W32 := 50

/-- The reset value of `FenChan`. -/
def FenChan.reset : FenChan where
  demand := true
  low := 0
  high := 0
  seen := true
  followed := true

/-- The reset value of `FenIn`. -/
def FenIn.reset : FenIn where
  a := FenChan.reset
  b := FenChan.reset
  differ := 0
  disc := false
  tpf := false
  near := 0

/-- The reset value of `FenSwitch`. -/
def FenSwitch.reset : FenSwitch where
  cmd := false
  rb := false
  bad := 0
  fault := false

/-- The reset value of `FenOut`. -/
def FenOut.reset : FenOut where
  demanded := true
  latched := false
  hi := FenSwitch.reset
  lo := FenSwitch.reset
  stage := .none
  since := 0
  lastTest := 0
  tested := false
  waiting := false
  result := 0

/-- The reset value of `FenState`. -/
def FenState.reset : FenState where
  time := 0
  st := .init
  held := false
  code := 0
  ins := .empty
  outs := .empty
  pulses := .empty
  passcode := 0
  inCfg := .empty
  pairCfg := .empty
  wrong := 0
  lockEnd := none
  logSeq := 0
  log := []
  sets := []
  queue := []
  image := .empty
  imageSeq := 0
  sysclkDev := false
  ignCnt := 0
  authFail := 0
  openTest := none

end Sys2Proof
end

