-- ==== Sys2Proof/State/Hk.lean ====
section
/-! DEFINITION. State of harvest and thermal (HK): the 64 housekeeping channels, the throttle steps and derating. -/

namespace Sys2Proof

/-- One housekeeping channel (R471–R475). -/
structure HkChan where
  /-- Bits 15:0 of the channel's value in its unit. -/
  value : BitVec 16
  broken : Bool
  /-- Rounds in a row without a break since it became broken. -/
  valid : Nat
deriving DecidableEq, Repr

structure HkState where
  chans : SMap HkChan
  step : Nat
  halt : Bool
  dT : Nat
  shutCnt : Nat
  /-- The tick at which the last round began (R472), and the rounds since reset. -/
  lastRound : Nat
  rounds : Nat
  /-- Supply channels outside their warning limits (R479). -/
  warn : Nat
deriving DecidableEq, Repr

/-! ### Reset values (where the spec states none, the value is named in the assumption log). -/

/-- The reset value of `HkChan`. -/
def HkChan.reset : HkChan where
  value := 0
  broken := false
  valid := 0

/-- The reset value of `HkState`. -/
def HkState.reset : HkState where
  chans := .empty
  step := 0
  halt := false
  dT := 1000
  shutCnt := 0
  lastRound := 0
  rounds := 0
  warn := 0

end Sys2Proof
end

