-- ==== Sys2Proof/State/Host.lean ====
section
/-! DEFINITION. State of the registers and of the host interface (HOST): register values, rings, interrupts,
commands in flight, telemetry, the host watchdog and the host memory as the device has written it. -/

namespace Sys2Proof

/-- The groups of staged registers that take effect together, each at the time its chapter states (R132). -/
inductive Domain where
  | sample   -- from the first stroke whose sample instant follows acceptance (R133 and the chapters that follow it)
  | stroke   -- PWM: from the start of the first stroke whose sample instant follows acceptance (R222)
  | machine  -- GFM: at the next machine-cycle boundary (R83)
  | timebase -- ANG: at the next machine-cycle boundary of free strokes (R50)
  | index0   -- ANG_OFFSET and ANG_OFFSET_STEP, from the next start of stroke index 0 (R51)
  | profile  -- at the next profile tick (R107)
  | round    -- from the next harvest round (HK)
deriving DecidableEq, Repr

/-- The W1C bits of every register, and those that the device has set in the tick `tick`: a write of 1 in that same tick
does not clear them (R6). -/
structure EventBits where
  bits : SMap W32
  tick : Nat
  recent : SMap W32
deriving DecidableEq, Repr

/-- Register values. `staged` is what an RW register reads (R49), `active` the accepted configuration (R132),
`inForce` what the block uses. `events` holds the W1C bits, `snaps` the captured values. Unstaged RW registers live in
`inForce` alone. -/
structure RegsState where
  staged : SMap W32
  active : SMap W32
  inForce : SMap W32
  events : EventBits
  snaps : SMap W32
  due : List Domain
  /-- Tables of classes 0x04–0x06 that have been loaded, staged and accepted, by 65536 × class + index (R469). -/
  loadedStaged : SMap Bool
  loaded : SMap Bool
  /-- The tick in which the last commit was accepted. -/
  commitTick : Nat
deriving DecidableEq, Repr

structure Ring where
  prod : Nat
  cons : Nat
  phase : Bool
  /-- The value last written to the doorbell page (R419). -/
  doorbell : W32
deriving DecidableEq, Repr

/-- One MSI-X vector: table entry, mask, pending bit, and the tick its holdoff ends (R444, R445). -/
structure MsixVec where
  addr : BitVec 64
  data : W32
  masked : Bool
  pending : Bool
  holdoff : Option Nat
deriving DecidableEq, Repr

/-- A coalescing counter of one event source (R440). -/
structure Coal where
  count : Nat
  sn : W32
  ticks : Nat
  d0 : Nat
  d1 : Nat
  d2 : Nat
deriving DecidableEq, Repr

/-- A command fetched and not yet completed (R429). -/
structure InFlight where
  ring : Nat
  slot : Nat
  tag : Nat
  opcode : Nat
  ordered : Bool
  /-- Its completion is to be discarded, for a reset came after its fetch (R412). -/
  lost : Bool
  /-- Its completion has been discarded and counted by a memory error (R531). -/
  dropped : Bool
  /-- Its descriptor as it was fetched (R423), byte 3 as 0. -/
  desc : BitVec 256
deriving DecidableEq, Repr

/-- A telemetry subscription (R436, R437). -/
structure Telemetry where
  active : Bool
  ring : Nat
  addr : Nat
  slots : Nat
  div : Nat
  sigs : List Nat
  nextSlot : Nat
  seq : W32
  /-- Strokes until the next sample. -/
  wait : Nat
  /-- Descriptors skipped since the last one (R441). -/
  skip : Nat
deriving DecidableEq, Repr

/-- What the host sets in the configuration space (R409, R444): MSI-X Enable and Function Mask, the maximum payload and read
request size as the PCI Express Base Specification encodes them; and the errors handed to Advanced Error Reporting
(R431). -/
structure ConfigSpace where
  msixEn : Bool
  msixMask : Bool
  payload : Nat
  readReq : Nat
  aerCnt : Nat
deriving DecidableEq, Repr

structure HostState where
  rings : SMap Ring
  msix : SMap MsixVec
  coal : SMap Coal
  inflight : List InFlight
  tel : SMap Telemetry
  /-- Changes of subscriptions that wait for the stroke from which they apply: subscription, that stroke, and the
  subscription from then on (R436). -/
  telDue : List (Nat × W32 × Telemetry)
  /-- Posted writes of the row in progress, (address, bytes), in the order the device issues them (R420, R438). -/
  out : List (Nat × List Byte)
  /-- Bytes that the last service-port transaction returned on SVC_MISO (R446). -/
  svcOut : List Byte
  wdStart : Nat
  wdExpired : Bool
  pcie : ConfigSpace
  linkUp : Bool
  speed : Nat
  width : Nat
  svcErr : Bool
  cmdCnt : Nat
  cmdErrCnt : Nat
  dbDiscCnt : Nat
  accErrCnt : Nat
  cplLostCnt : Nat
  coalCnt : Nat
  telSkipCnt : Nat
  fenLostCnt : Nat
  svcIgnCnt : Nat
deriving DecidableEq, Repr

/-! ### Reset values (where the spec states none, the value is named in the assumption log). -/

/-- No W1C bit set. -/
def EventBits.empty : EventBits where
  bits := .empty
  tick := 0
  recent := .empty

/-- The reset value of `RegsState`. -/
def RegsState.reset : RegsState where
  staged := .empty
  active := .empty
  inForce := .empty
  events := .empty
  snaps := .empty
  due := []
  loadedStaged := .empty
  loaded := .empty
  commitTick := 0

/-- The reset value of `Ring`. -/
def Ring.reset : Ring where
  prod := 0
  cons := 0
  phase := true
  doorbell := 0

/-- The reset value of `MsixVec`. -/
def MsixVec.reset : MsixVec where
  addr := 0
  data := 0
  masked := true
  pending := false
  holdoff := none

/-- The reset value of `Coal`. -/
def Coal.reset : Coal where
  count := 0
  sn := 0
  ticks := 0
  d0 := 0
  d1 := 0
  d2 := 0

/-- The reset value of `Telemetry`. -/
def Telemetry.reset : Telemetry where
  active := false
  ring := 0
  addr := 0
  slots := 0
  div := 0
  sigs := []
  nextSlot := 0
  seq := 0
  wait := 0
  skip := 0

/-- The reset value of `ConfigSpace`, as the PCI Express Base Specification has it: MSI-X disabled, payloads of 128 bytes,
read requests of 512 (PRESUMED, log 127). -/
def ConfigSpace.reset : ConfigSpace where
  msixEn := false
  msixMask := false
  payload := 0
  readReq := 2
  aerCnt := 0

/-- The reset value of `HostState`. -/
def HostState.reset : HostState where
  rings := .empty
  msix := .empty
  coal := .empty
  inflight := []
  tel := .empty
  telDue := []
  out := []
  svcOut := []
  wdStart := 0
  wdExpired := false
  pcie := .reset
  linkUp := false
  speed := 0
  width := 0
  svcErr := false
  cmdCnt := 0
  cmdErrCnt := 0
  dbDiscCnt := 0
  accErrCnt := 0
  cplLostCnt := 0
  coalCnt := 0
  telSkipCnt := 0
  fenLostCnt := 0
  svcIgnCnt := 0

end Sys2Proof
end

