-- ==== Sys2Proof/State/Lrd.lean ====
section
/-! DEFINITION. State of the Larder (LRD): event records, snapshot slots, the user area, the tail buffer, the open
TRIP record, and the power-fail halt. Records, slots, the user area and the pin mask are non-volatile. -/

namespace Sys2Proof

/-- An open TRIP record (R511, R512): its sequence, its bytes 4–23 as they stood when the trip took effect, and its
data. -/
structure OpenTrip where
  seq : Nat
  hdr : List Byte
  cls : Nat
  causes : List Nat
  slot : Nat
  details : List Nat
  active : Nat
deriving DecidableEq, Repr

/-- One snapshot slot (R514). -/
structure SnapSlot where
  seq : Nat
  sn : W32
  sigs : List Nat
  /-- Valid rows, oldest first. -/
  rows : List (List W32)
  valid : Bool
deriving DecidableEq, Repr

/-- A LARDER_READ in progress (R516): its command, the ring of its descriptors, and the runs still to be written, each
with its buffer address, its data and its descriptor. -/
structure OpenRead where
  ring : Nat
  slot : Nat
  tag : Nat
  target : Nat
  runs : List (Nat × List Byte × List Byte)
  status : Nat
  bytes : Nat
deriving DecidableEq, Repr

structure LrdState where
  /-- The newest sequence; 0 before the first record (R508). -/
  head : Nat
  /-- Records by line, 64 bytes each. -/
  lines : SMap (List Byte)
  slots : SMap SnapSlot
  pinned : Nat
  nextSlot : Nat
  user : SMap Byte
  /-- The tail buffer, newest row first, at most 256 (R514). -/
  tail : List (List W32)
  tailSn : W32
  frozen : Bool
  openTrip : Option OpenTrip
  /-- Sequence of the last TRIP record, which a TRIP_ADD names. -/
  lastTrip : Nat
  openSnap : Option (Nat × SnapSlot)
  halt : Bool
  pfw : Bool
  /-- Records that came due in the tick in progress, in ascending type order (R513): sequence (0 for one not yet
  numbered) and bytes 4–59. -/
  due : List (Nat × List Byte)
  /-- Records due while writes are halted, in order, numbered; and, unnumbered, those due before the scan of R508. -/
  waiting : List (Nat × List Byte)
  badCnt : Nat
  reads : List OpenRead
deriving DecidableEq, Repr

/-! ### Reset values (where the spec states none, the value is named in the assumption log). -/

/-- The reset value of `SnapSlot`. -/
def SnapSlot.reset : SnapSlot where
  seq := 0
  sn := 0
  sigs := []
  rows := []
  valid := false

/-- The reset value of `LrdState`. -/
def LrdState.reset : LrdState where
  head := 0
  lines := .empty
  slots := .empty
  pinned := 0
  nextSlot := 0
  user := .empty
  tail := []
  tailSn := 0
  frozen := false
  openTrip := none
  lastTrip := 0
  openSnap := none
  halt := false
  pfw := false
  due := []
  waiting := []
  badCnt := 0
  reads := []

end Sys2Proof
end

