-- ==== Sys2Proof/State/Pnt.lean ====
section
/-! DEFINITION. State of the point store (PNT): records, class map and table, dirty bitmap, stale scan and counters. -/

namespace Sys2Proof

/-- A class definition, its four words (R277). -/
structure PointClass where
  w0 : W32
  w1 : W32
  w2 : W32
  w3 : W32
deriving DecidableEq, Repr

/-- A change waiting to be written to a point ring, for pairing (R293). -/
structure PointChange where
  id : Nat
  record : W32
  sn : W32
  limitChg : Bool
  qualChg : Bool
deriving DecidableEq, Repr

/-- An operation on a record (R284). -/
inductive PointOp where
  /-- A stale-scan visit after that many harvest rounds (R287). -/
  | visit (rounds : Nat)
  | glean (raw : Nat)
  /-- POINT_WRITE entries (R290, R291). -/
  | write (qual raw : Nat)
  | force (raw : Nat)
  | unforce
  /-- The pass after a commit (R298). -/
  | reevaluate
deriving DecidableEq, Repr

/-- The operations of one tick on one record, each with the class it has used, and the record and the class before the first
of them (R284). -/
structure PointTurn where
  id : Nat
  pre : W32
  cls : PointClass
  ops : List (PointOp × PointClass)
deriving DecidableEq, Repr

/-- A dirty bit (R294): the ring that could not take the change, the stroke in which the record was last stored, and whether
FLAGS or QUAL have changed since the last descriptor. -/
structure DirtyBit where
  ring : Nat
  sn : W32
  limitChg : Bool
  qualChg : Bool
deriving DecidableEq, Repr

structure PntState where
  /-- Records by point ID; an unlisted one reads 0x0000_10FF (R275). -/
  records : SMap W32
  /-- Points of which a valid arrival has stored a VALUE. -/
  stored : SMap Bool
  /-- The operations on records in the tick `turnTick` (R284). -/
  turns : List PointTurn
  turnTick : Nat
  /-- Class bytes by point ID (R275), staged, accepted and in force. -/
  mapStaged : SMap Nat
  map : SMap Nat
  classStaged : SMap PointClass
  classes : SMap PointClass
  /-- Last accepted glean SEQ by submodule (R280); none before the first. -/
  lastSeq : SMap (Option Nat)
  /-- Dirty bits by point ID (R294). -/
  dirty : SMap (Option DirtyBit)
  overflow : Nat
  drain : Nat
  /-- The next point ID of the drain walk of each ring (R295). -/
  walk : SMap Nat
  /-- The harvest rounds completed at each group's last visit (R287). -/
  visits : SMap Nat
  scanGroup : Nat
  passStart : Nat
  passMs : Nat
  arriveCnt : Nat
  deliverCnt : Nat
  coalesceCnt : Nat
  unusedCnt : Nat
deriving DecidableEq, Repr

/-! ### Reset values (where the spec states none, the value is named in the assumption log). -/

/-- The reset value of `PointClass`. -/
def PointClass.reset : PointClass where
  w0 := 0
  w1 := 0
  w2 := 0
  w3 := 0

/-- The reset value of `PntState`. -/
def PntState.reset : PntState where
  records := .empty
  stored := .empty
  turns := []
  turnTick := 0
  mapStaged := .empty
  map := .empty
  classStaged := .empty
  classes := .empty
  lastSeq := .empty
  dirty := .empty
  overflow := 0
  drain := 0
  walk := .empty
  visits := .empty
  scanGroup := 0
  passStart := 0
  passMs := 0
  arriveCnt := 0
  deliverCnt := 0
  coalesceCnt := 0
  unusedCnt := 0

end Sys2Proof
end

