-- ==== Sys2Proof/State/Pwm.lean ====
section
/-! DEFINITION. State of the direct PWM block (PWM): pairs, trip sources and blanking timers. -/

namespace Sys2Proof

/-- One pair of outputs (R198–R219). Output levels: 0 LOW, 1 HIGH, 2 HIZ. -/
structure PwmPair where
  period : Nat
  cmp : Nat
  /-- Committed loads waiting for a period start, oldest first: tick accepted, PERIOD, CMPA (R206). -/
  loads : List (Nat × Nat × Nat)
  /-- Start tick of the current period, its length P in fine ticks, and the compare in force. -/
  start : Nat
  len : Nat
  w : Nat
  carry : Int
  /-- The start of the next period of a FREE pair (R200, R213). -/
  next : Option Nat
  safe : Bool
  /-- Trip sources that hold the pair (R216). -/
  latch : Nat
  /-- The logical signal X. -/
  x : Bool
  outA : Nat
  outB : Nat
  /-- A pending rise: fine tick, and true for output A (R203). -/
  rise : Option (Nat × Bool)
  /-- The stroke whose period has begun. -/
  sn : Option W32
  /-- Compares and carry of the mirror record (R219). -/
  mirror : Option (Nat × Int)
deriving DecidableEq, Repr

/-- What PWM_SNAP shows, as the last stroke or period boundary has filled it (R14). -/
structure PwmShown where
  trip : Nat
  supp : Nat
  blank : Nat
  beyond : Nat
deriving DecidableEq, Repr

structure PwmState where
  pairs : SMap PwmPair
  /-- TRIP_IN_0–7 (R215). -/
  pins : SMap PinLevel
  /-- Source conditions present, qualified sources, and conditions that began and ended in a blanking window, by
  source (R214–R218). -/
  cond : Nat
  qual : Nat
  lost : List Nat
  /-- End tick of each running blanking timer. -/
  timers : SMap (Option Nat)
  /-- The sources of the latest local trip, and its tick (R216). -/
  tripSnap : Nat
  tripTick : Option Nat
  suppCnt : Nat
  blankCnt : Nat
  beyondCnt : Nat
  shown : PwmShown
deriving DecidableEq, Repr

/-! ### Reset values (where the spec states none, the value is named in the assumption log). -/

/-- The reset value of `PwmPair`. -/
def PwmPair.reset : PwmPair where
  period := 0
  cmp := 0
  loads := []
  start := 0
  len := 0
  w := 0
  carry := 0
  next := none
  safe := true
  latch := 0
  x := false
  outA := 0
  outB := 0
  rise := none
  sn := none
  mirror := none

/-- The reset value of `PwmShown`. -/
def PwmShown.reset : PwmShown where
  trip := 0
  supp := 0
  blank := 0
  beyond := 0

/-- The reset value of `PwmState`. -/
def PwmState.reset : PwmState where
  pairs := .empty
  pins := .empty
  cond := 0
  qual := 0
  lost := []
  timers := .empty
  tripSnap := 0
  tripTick := none
  suppCnt := 0
  blankCnt := 0
  beyondCnt := 0
  shown := PwmShown.reset

end Sys2Proof
end

