-- ==== Sys2Proof/State/Sec.lean ====
section
/-! DEFINITION. State of boot and security (SEC): boot phase, keys, image slots and transfers, and debug access. -/

namespace Sys2Proof

/-- The digest of the configuration at reset (R469): SHA-384 over every staged register at its reset value, with no table
loaded, as `Dev.stagedDigest` of the reset state evaluates to it. -/
def resetDigest : List Byte :=
  [90, 24, 1, 152, 186, 111, 224, 118, 64, 166, 118, 178, 228, 58, 173, 31, 95, 191, 204, 233, 174, 92, 196, 85,
   58, 191, 162, 50, 239, 255, 22, 18, 251, 143, 193, 134, 0, 204, 4, 43, 185, 83, 65, 207, 31, 164, 31, 125]

/-- An image transfer that has been opened (R462). -/
structure Transfer where
  purpose : Nat
  total : Nat
  bytes : List Byte
  lastChunk : Nat
  ring : Nat
  slot : Nat
  tag : Nat
  /-- The image offset up to which sections have been taken, their number, and whether one was wrong (R456, R460). -/
  done : Nat
  count : Nat
  bad : Bool
deriving DecidableEq, Repr

/-- The last image that verified (R466): whether it is in the staged set, and whether it has been stored or committed,
so that ADVANCE may act on it (R461). -/
structure Verified where
  image : List Byte
  staged : Bool
  kept : Bool
deriving DecidableEq, Repr

/-- An ADVANCE that may still be in progress (R461): its tick, and counter, keys and revoked bits before it. -/
structure AdvanceRun where
  since : Nat
  arb : Nat
  keys : SMap Nat
  revoked : Nat
deriving DecidableEq, Repr

structure SecState where
  phase : Nat
  src : Nat
  slot : Nat
  err : Nat
  /-- The anti-rollback counter, key slots (hashes), revoked bits and the device's ID, all in fuses (R456–R459). -/
  arb : Nat
  keys : SMap Nat
  revoked : Nat
  uid : Nat
  /-- Digest of the active configuration, 48 bytes, as taken when it was accepted (R469). -/
  digest : List Byte
  xfer : Option Transfer
  /-- Bytes received in the open or last transfer (SEC_XFER). -/
  received : Nat
  /-- The image digest that ATTEST reports, 48 bytes (R468); none listed under NONE. -/
  imgDigest : List Byte
  verified : Option Verified
  /-- A staged image waits for CONFIG_APPLY or IMAGE_ACTIVATE (R454, R465). -/
  staged : Bool
  /-- What STORE has made of the flash slots (R462, R464); none for a slot that no STORE has touched. -/
  slots : SMap (Option (List Byte))
  /-- Tables of class 0x03 of the image in the staged set, with COMMIT and their records (R209, R456, R460). -/
  pwmTables : List (Bool × List (Nat × Nat × Nat))
  advance : Option AdvanceRun
  debug : Nat
  challenge : Option Nat
  /-- Bit k: flash slot k has failed in this boot (R453). -/
  tried : Nat
deriving DecidableEq, Repr

/-! ### Reset values (where the spec states none, the value is named in the assumption log). -/

/-- The reset value of `SecState`. -/
def SecState.reset : SecState where
  phase := 1
  src := 0
  slot := 0
  err := 0
  arb := 0
  keys := .empty
  revoked := 0
  uid := 0
  digest := resetDigest
  xfer := none
  received := 0
  imgDigest := []
  verified := none
  staged := false
  slots := .empty
  pwmTables := []
  advance := none
  debug := 0
  challenge := none
  tried := 0

end Sys2Proof
end

