-- ==== Sys2Proof/State/Sys.lean ====
section
/-! DEFINITION. State of the device as a whole (SYS): straps, reset cause and the ECC counters. -/

namespace Sys2Proof

structure SysState where
  /-- The sampled straps: bit 3 TEST_EN, bit 2 TWIN_ROLE, bits 1:0 BOOT_SRC (R524). -/
  straps : Nat
  /-- The levels of BOOT_SRC and TEST_EN in the tick, placed as in `straps`. -/
  strapPins : Nat
  resetCause : Nat
  ceCnt : Nat
  ueCnt : Nat
  eccLast : Nat
  /-- The window of R530 in progress, its corrected errors, and whether it has reported. -/
  window : Nat
  windowCnt : Nat
  windowSet : Bool
deriving DecidableEq, Repr

/-! ### Reset values (where the spec states none, the value is named in the assumption log). -/

/-- The reset value of `SysState`. -/
def SysState.reset : SysState where
  straps := 0
  strapPins := 0
  resetCause := 0
  ceCnt := 0
  ueCnt := 0
  eccLast := 0
  window := 0
  windowCnt := 0
  windowSet := false

end Sys2Proof
end

