-- ==== Sys2Proof/Machine/State.lean ====
section
/-! DEFINITION. The state of the YN9160 as plain data: the device's blocks, the host memory as the device has written
it, and the queue of commands that wait; the reasons a step can stop; and the state at the end of power-on reset. -/

namespace Sys2Proof.Machine

/-- Why a step stops with a fault. -/
inductive Fault where
  /-- Raised by a row whose operands contradict one another (a buffer longer than its length field, a packet of
  another length than its type has): no such command can reach the device. Safe: the model stops where the
  hardware has nothing to do. -/
  | malformed
deriving DecidableEq, Repr

/-- Why a step is refused. -/
inductive Refusal where
  /-- Raised by an arm of `exec` whose row has no meaning yet. Safe: the model says nothing. -/
  | notModelled (mnemonic : String)
deriving DecidableEq, Repr

/-- The device: registers and the state of every block. -/
structure Dev where
  regs : RegsState
  ang : AngState
  gfm : GfmState
  prof : ProfState
  loop : LoopState
  sup : SupState
  mod : ModState
  pwm : PwmState
  pen : PenState
  pnt : PntState
  adc : AdcState
  acq : AcqState
  clk : ClkState
  twn : TwnState
  fen : FenState
  host : HostState
  sec : SecState
  hk : HkState
  aux : AuxState
  lrd : LrdState
  sys : SysState
  /-- How many free values have been drawn: the argument of the next one (Config). The model's own field. -/
  free : Nat
deriving DecidableEq, Repr

/-- The machine. -/
structure State where
  dev : Dev
  /-- Host memory, as far as the device has written it; any other byte reads 0. -/
  mem : SMap Byte
  /-- Commands and events that wait, first in, first out. -/
  pending : List Instr
deriving DecidableEq, Repr

/-- The device at the end of power-on reset (R35, R521): every register at its reset value, boot phase 1, the first
free stroke begun in the same tick. -/
def Dev.reset : Dev where
  regs := .reset
  ang := .reset
  gfm := .reset
  prof := .reset
  loop := .reset
  sup := .reset
  mod := .reset
  pwm := .reset
  pen := .reset
  pnt := .reset
  adc := .reset
  acq := .reset
  clk := .reset
  twn := .reset
  fen := .reset
  host := .reset
  sec := .reset
  hk := .reset
  aux := .reset
  lrd := .reset
  sys := .reset
  free := 0

/-- The machine right after power-on reset: nothing written to host memory, no command waiting. -/
def State.reset : State := { dev := Dev.reset, mem := .empty, pending := [] }

/-- Host memory is in canonical form: addresses strictly rising, no byte listed that an unlisted address reads as. -/
def Memory.wf (m : SMap Byte) : Bool := m.wf 0

end Sys2Proof.Machine
end

