-- ==== Sys2Proof/Machine/Ops.lean ====
section
/-! DEFINITION. The operations every family shares: host memory, register values and their fields, descriptors and
rings (R414–R425), interrupts (R444, R445), event descriptors (R425, R440, R537), completions and the order of a
command's checks (R430, R431). -/

namespace Sys2Proof.Machine

open Host

/-- A block of bytes written to host memory from an address on (R3 byte order is the caller's). -/
def writeBytes (m : SMap Byte) (addr : Nat) : List Byte → SMap Byte
  | [] => m
  | b :: rest => writeBytes (m.set 0 addr b) (addr + 1) rest

/-- Posted writes applied in the order the device issues them (R438). -/
def writeAll (m : SMap Byte) : List (Nat × List Byte) → SMap Byte
  | [] => m
  | (a, bs) :: rest => writeAll (writeBytes m a bs) rest

/-- A byte of host memory. -/
def State.readByte (s : State) (a : Nat) : Byte := s.mem.get 0 a

/-- The device as a row's effect finds it: the packets sent on the twin link are those of one row. -/
def State.fresh (s : State) : Dev := { s.dev with twn := { s.dev.twn with sent := [] } }

/-- The machine after a row that leaves the device as `d`: the posted writes that the row made reach host memory in
order. The queue stays as it is. -/
def State.after (s : State) (d : Dev) : State :=
  { s with dev := { d with host := { d.host with out := [] } }, mem := writeAll s.mem d.host.out }

/-- One row's effect: the device changes as `f` says. -/
def State.run (f : Dev → Dev) (s : State) : State := s.after (f s.fresh)

/-- A row whose operands must agree with one another before they can mean anything. -/
def State.runIf (ok : Bool) (f : Dev → Dev) (s : State) : Host.Outcome State Fault Refusal :=
  if ok then .next (s.run f) else .fault .malformed


/-- The little-endian bytes of a number, `n` of them. -/
def leBytes : Nat → Nat → List Byte
  | 0, _ => []
  | n + 1, v => BitVec.ofNat 8 v :: leBytes n (v / 256)

/-- The number that little-endian bytes spell. -/
def leNat : List Byte → Nat
  | [] => 0
  | b :: rest => b.toNat + 256 * leNat rest

/-- The big-endian bytes of a number, `n` of them. -/
def beBytes (n v : Nat) : List Byte := (leBytes n v).reverse

/-- The number that big-endian bytes spell. -/
def beNat (bs : List Byte) : Nat := leNat bs.reverse

/-- `n` bytes from offset `i` on; a byte past the end reads 0. -/
def slice (bs : List Byte) (i n : Nat) : List Byte :=
  let part := (bs.drop i).take n
  part ++ List.replicate (n - part.length) 0

/-- The little-endian number in `n` bytes at offset `i`. -/
def leAt (bs : List Byte) (i n : Nat) : Nat := leNat (slice bs i n)

/-! ### Registers -/

/-- The value in force of a register that is written (R49, R132). -/
def Dev.cfg (d : Dev) (off : Nat) : Nat := (d.regs.inForce.get (regReset off) off).toNat

/-- Bits hi..lo of the value in force of a register. -/
def Dev.fld (d : Dev) (off hi lo : Nat) : Nat := bits (d.cfg off) hi lo

/-- A bit of the value in force of a register. -/
def Dev.flag (d : Dev) (off n : Nat) : Bool := bitAt (d.cfg off) n

/-- The staged value of a register. -/
def Dev.stagedReg (d : Dev) (off : Nat) : Nat := (d.regs.staged.get (regReset off) off).toNat

/-- The accepted value of a register (R132). -/
def Dev.activeReg (d : Dev) (off : Nat) : Nat := (d.regs.active.get (regReset off) off).toNat

/-- The W1C bits of an EVENT or status register. -/
def Dev.w1c (d : Dev) (off : Nat) : W32 := d.regs.events.bits.get 0 off

/-- The bits of a register that the device has set in this tick (R6). On the fallback oscillator, where a clock cycle is four
ticks, the same cycle of R6 is taken to be the tick (DESIGN CHOICE, log 119). -/
def Dev.w1cRecent (d : Dev) (off : Nat) : W32 :=
  if d.regs.events.tick = d.ang.tick then d.regs.events.recent.get 0 off else 0

/-- The device sets W1C bits of a register (R5), and keeps which it has set in this tick (R6). -/
def Dev.setW1c (off : Nat) (mask : W32) (d : Dev) : Dev :=
  let e := d.regs.events
  let before := if e.tick = d.ang.tick then e.recent else .empty
  { d with regs := { d.regs with events :=
      { bits := e.bits.set 0 off (d.w1c off ||| mask), tick := d.ang.tick,
        recent := before.set 0 off (d.w1cRecent off ||| mask) } } }

/-- The device sets one W1C bit. -/
def Dev.setBit (off bit : Nat) (d : Dev) : Dev := d.setW1c off (BitVec.ofNat 32 (2 ^ bit))

/-- The value in force of a register is replaced at once, for registers that are not staged (R49). -/
def Dev.setForce (off : Nat) (v : W32) (d : Dev) : Dev :=
  { d with regs := { d.regs with inForce := d.regs.inForce.set (regReset off) off v } }

/-- A captured value of a snapshot register (R9). -/
def Dev.snap (off v : Nat) (d : Dev) : Dev :=
  { d with regs := { d.regs with snaps := d.regs.snaps.set (regReset off) off (BitVec.ofNat 32 v) } }

/-- Several captured values, as (offset, value). -/
def Dev.snapAll (vs : List (Nat × Nat)) (d : Dev) : Dev := vs.foldl (fun d x => d.snap x.1 x.2) d

/-! ### Time -/

/-- Ticks in a microsecond and a millisecond (2.5 ns each). -/
def usTicks : Nat := 400
def msTicks : Nat := 400000
def secTicks : Nat := 400000000

/-- The tick count. -/
def Dev.now (d : Dev) : Nat := d.ang.tick

/-- The ticks of one clock cycle: four on the fallback oscillator (R343). -/
def Dev.cycle (d : Dev) : Nat := if d.clk.fallback then 4 else 1

/-- The tick count of the pair (R362): ANG_TICK, and the times that frames name. -/
def Dev.tickCount (d : Dev) : Nat := ((d.ang.tick : Int) + d.ang.tickBase).toNat

/-- Ticks within the second (R352). -/
def Dev.secOfs (d : Dev) : Nat := d.now - d.clk.secTick

/-- Boot phase READY has been reached (R450). -/
def Dev.ready (d : Dev) : Bool := decide (d.sec.phase = 6)

/-- The Penras and twin-link lanes carry electrical idle: until READY (R526) and in the fallback (R343). -/
def Dev.lanesOff (d : Dev) : Bool := d.clk.fallback || !d.ready

/-- The first 8 bytes of the digest of the active configuration, as a little-endian number (R364, R469). -/
def Dev.digest8 (d : Dev) : Nat := leAt d.sec.digest 0 8

/-! ### Posted writes, rings and interrupts -/

/-- One posted write (R438). -/
def Dev.post (addr : Nat) (bs : List Byte) (d : Dev) : Dev :=
  { d with host := { d.host with out := d.host.out ++ [(addr, bs)] } }

/-- A ring's indices and phase. -/
def Dev.ring (d : Dev) (r : Nat) : Ring := d.host.rings.get Ring.reset r

/-- A ring's indices and phase replaced. -/
def Dev.setRing (r : Nat) (v : Ring) (d : Dev) : Dev :=
  { d with host := { d.host with rings := d.host.rings.set Ring.reset r v } }

/-- EN of a ring (R414). -/
def Dev.ringEn (d : Dev) (r : Nat) : Bool := d.flag (Reg.HOST_RING_CFG r) 31

/-- Slots of a ring (R414). -/
def Dev.ringSize (d : Dev) (r : Nat) : Nat := 2 ^ d.fld (Reg.HOST_RING_CFG r) 4 0

/-- Base address of a ring (R414). -/
def Dev.ringBase (d : Dev) (r : Nat) : Nat :=
  d.cfg (Reg.HOST_RING_BASE_L r) + 2 ^ 32 * d.cfg (Reg.HOST_RING_BASE_H r)

/-- Slots of a device-to-host ring that the device may still write; none while it is disabled, when it behaves as
full (R412, R415). -/
def Dev.ringRoom (d : Dev) (r : Nat) : Nat :=
  if d.ringEn r then ((d.ring r).cons + d.ringSize r - 1 - (d.ring r).prod) % d.ringSize r else 0

/-- A quarter of a ring is free (R295, R440). -/
def Dev.ringQuarter (d : Dev) (r : Nat) : Bool := decide (d.ringEn r = true ∧ d.ringSize r ≤ 4 * d.ringRoom r)

/-- Shadow dword r (R421). -/
def Dev.shadow (r v : Nat) (d : Dev) : Dev :=
  let base := d.cfg Reg.HOST_SHADOW_L + 2 ^ 32 * d.cfg Reg.HOST_SHADOW_H
  if base = 0 then d else d.post (base + 4 * r) (leBytes 4 v)

/-- An MSI-X vector. -/
def Dev.vec (d : Dev) (v : Nat) : MsixVec := d.host.msix.get MsixVec.reset v

/-- An MSI-X vector replaced. -/
def Dev.setVec (v : Nat) (x : MsixVec) (d : Dev) : Dev :=
  { d with host := { d.host with msix := d.host.msix.set MsixVec.reset v x } }

/-- The message of a vector is sent, and its holdoff begins (R445). -/
def Dev.sendMsi (v : Nat) (d : Dev) : Dev :=
  let x := d.vec v
  let hold := d.fld (Reg.HOST_MSIX_MOD v) 15 0
  (d.setVec v { x with pending := false,
                       holdoff := if hold = 0 then none else some (d.now + hold * usTicks) }).post
    x.addr.toNat (leBytes 4 x.data.toNat)

/-- No vector may send: MSI-X is disabled, or the function is masked (R444, as the PCI Express Base Specification has
it; PRESUMED, log 127). -/
def Dev.msixOff (d : Dev) : Bool := !d.host.pcie.msixEn || d.host.pcie.msixMask

/-- Interrupt source s fires (R444, R445): its status bit sets, and its message is sent unless the vector or the function
is masked or the vector is in holdoff, when it stays pending. -/
def Dev.irq (s : Nat) (d : Dev) : Dev :=
  let d := if s < 32 then d.setBit Reg.HOST_IRQ_STAT_L s else d.setBit Reg.HOST_IRQ_STAT_H (s - 32)
  let x := d.vec s
  let held := match x.holdoff with
    | some t => decide (d.now < t)
    | none => false
  if x.masked || held || d.msixOff then d.setVec s { x with pending := true } else d.sendMsi s

/-- A descriptor is written to an enabled device-to-host ring with room (R417, R420): bytes 4–31, then bytes 0–3 with
the phase bit, then the shadow; the ring's interrupt source follows. `bs` holds 32 bytes with a clear phase bit. -/
def Dev.putDesc (r src : Nat) (bs : List Byte) (d : Dev) : Dev :=
  let g := d.ring r
  let a := d.ringBase r + 32 * g.prod
  let b3 := (slice bs 3 1).map fun b => b ||| (if g.phase then 0x80 else 0)
  let p := (g.prod + 1) % d.ringSize r
  let g' := { g with prod := p, phase := if p = 0 then !g.phase else g.phase }
  ((((d.post (a + 4) (slice bs 4 28)).post a (slice bs 0 3 ++ b3)).setRing r g').shadow r p).irq src

/-! ### Events -/

/-- The EVENT register of a block code (R425); PROF has one per channel, given as detail word 0. -/
def eventReg (blk inst : Nat) : Nat :=
  match blk with
  | 0 => Reg.SYS_EVENT
  | 1 => Reg.CLK_EVENT
  | 2 => Reg.HOST_EVENT
  | 3 => Reg.ANG_EVENT
  | 4 => Reg.GFM_EVENT
  | 5 => Reg.PROF_EVENT inst
  | 6 => Reg.LOOP_EVENT
  | 7 => Reg.ADC_EVENT
  | 8 => Reg.MOD_EVENT
  | 9 => Reg.SUP_EVENT
  | 10 => Reg.PWM_EVENT
  | 11 => Reg.PEN_EVENT
  | 12 => Reg.PNT_EVENT
  | 13 => Reg.ACQ_EVENT
  | 14 => Reg.TWN_EVENT
  | 16 => Reg.HK_EVENT
  | 17 => Reg.AUX_EVENT
  | 18 => Reg.LRD_EVENT
  | _ => Reg.SEC_EVENT

/-- The event ring of a block code (R425). -/
def Dev.eventRing (d : Dev) (blk : Nat) : Nat :=
  16 + (if blk < 16 then d.fld Reg.HOST_EVT_ROUTE_L (2 * blk + 1) (2 * blk)
        else d.fld Reg.HOST_EVT_ROUTE_H (2 * (blk - 16) + 1) (2 * (blk - 16)))

/-- An event descriptor (R425). -/
def eventDesc (blk bit : Nat) (k : Coal) (coalesced : Bool) : List Byte :=
  leBytes 2 0x0401 ++ [if coalesced then 1 else 0, 0] ++ leBytes 1 blk ++ leBytes 1 bit ++ leBytes 2 0 ++
    leBytes 4 k.sn.toNat ++ leBytes 4 k.ticks ++ leBytes 4 k.count ++
    leBytes 4 k.d0 ++ leBytes 4 k.d1 ++ leBytes 4 k.d2

/-- Coalescing counters of a ring are pending (R440): the key of a counter is 32 × block + bit. -/
def Dev.coalPending (d : Dev) (r : Nat) : Bool :=
  d.host.coal.cells.any fun c => decide (d.eventRing (c.1 / 32) = r)

/-- An occurrence of an event is reported on its event ring (R425), or coalesced while the ring is full or its
counters are pending (R440). -/
def Dev.report (blk bit d0 d1 d2 : Nat) (d : Dev) : Dev :=
  let r := d.eventRing blk
  let key := 32 * blk + bit
  let old := d.host.coal.get Coal.reset key
  let k : Coal := { count := old.count + 1, sn := d.ang.cur.sn, ticks := d.secOfs, d0 := d0, d1 := d1, d2 := d2 }
  if d.ringRoom r = 0 ∨ d.coalPending r then
    { d with host := { d.host with
        coal := d.host.coal.set Coal.reset key k,
        coalCnt := if old.count = 0 then d.host.coalCnt else satInc d.host.coalCnt } }
  else d.putDesc r (12 + (r - 16)) (eventDesc blk bit { k with count := 1 } false)

/-- A bit of a block's EVENT register sets, and the event is reported (R537). -/
def Dev.event (blk bit d0 d1 d2 : Nat) (d : Dev) : Dev :=
  (d.setBit (eventReg blk d0) bit).report blk bit d0 d1 d2

/-- An access error (R10, R414, R419): counted, reported, and source 63. -/
def Dev.accessErr (bar off : Nat) (d : Dev) : Dev :=
  (({ d with host := { d.host with accErrCnt := satInc d.host.accErrCnt } } : Dev).event 2 1 bar off 0).irq 63

/-! ### Commands -/

/-- Status codes of a completion. -/
def stOk : Nat := 0
def stBadOpcode : Nat := 1
def stBadParam : Nat := 2
def stRejected : Nat := 3
def stAdmission : Nat := 4
def stAuth : Nat := 5
def stBusy : Nat := 6
def stLocked : Nat := 7
def stTimeout : Nat := 8
def stPartial : Nat := 9

/-- A completion descriptor (R424). -/
def completionDesc (status tag op slot bytes : Nat) (sn : W32) (res : List Nat) : List Byte :=
  leBytes 2 0x0101 ++ leBytes 1 status ++ [0] ++ leBytes 2 tag ++ leBytes 2 op ++ leBytes 4 sn.toNat ++
    leBytes 4 slot ++ leBytes 4 bytes ++ slice (res.flatMap (leBytes 4)) 0 12

/-- An entry of the list of commands in progress is the one of a ring, slot and tag. -/
def inFlightOf (ring slot tag : Nat) (f : InFlight) : Bool := decide (f.ring = ring ∧ f.slot = slot ∧ f.tag = tag)

/-- A command of a ring completes (R424): it leaves the list of those in progress, and its completion is written, or
discarded and counted where the completion ring is disabled or a reset has come between (R412, R414); one that a memory error
has discarded is counted already (R531). Source 63 follows the statuses of R444. -/
def Dev.completeAs (ring slot tag op status bytes : Nat) (res : List Nat) (d : Dev) : Dev :=
  let err : Bool := decide (status = 1 ∨ status = 2 ∨ status = 5 ∨ status = 7)
  let own := d.host.inflight.find? (inFlightOf ring slot tag)
  let lost := own.any (·.lost)
  let dropped := own.any (·.dropped)
  let d : Dev := { d with host := { d.host with
    inflight := d.host.inflight.eraseP (inFlightOf ring slot tag),
    cmdCnt := satInc d.host.cmdCnt,
    cmdErrCnt := if err then satInc d.host.cmdErrCnt else d.host.cmdErrCnt } }
  let d := if dropped then d
    else if lost = true ∨ d.ringRoom (4 + ring) = 0 then
      ({ d with host := { d.host with cplLostCnt := satInc d.host.cplLostCnt } } : Dev).event 2 4 ring tag 0
    else d.putDesc (4 + ring) ring (completionDesc status tag op slot bytes d.ang.cur.sn res)
  if err then d.irq 63 else d

/-- Completion of a command. -/
def Dev.complete (c : Cmd) (op status : Nat) (d : Dev) : Dev :=
  d.completeAs c.ring.val c.slot.toNat c.tag.toNat op status 0 []

/-- Completion of a command that read or wrote `bytes` of its buffer, with result data. -/
def Dev.completeRes (c : Cmd) (op status bytes : Nat) (res : List Nat) (d : Dev) : Dev :=
  d.completeAs c.ring.val c.slot.toNat c.tag.toNat op status bytes res

/-- The inline parameters that a command's rule names, as (byte, mask within the byte). -/
def inlMask (named : List (Nat × Nat)) : Nat := pack (named.map fun x => (x.2, 8 * (x.1 - 20)))

end Sys2Proof.Machine

namespace Sys2Proof

open Sys2Proof.Machine

/-- The inline parameters: byte k of 20–31, and numbers within them. -/
def Cmd.byte (c : Cmd) (k : Nat) : Nat := bits c.inl.toNat (8 * (k - 20) + 7) (8 * (k - 20))
def Cmd.half (c : Cmd) (k : Nat) : Nat := bits c.inl.toNat (8 * (k - 20) + 15) (8 * (k - 20))
def Cmd.word (c : Cmd) (k : Nat) : Nat := bits c.inl.toNat (8 * (k - 20) + 31) (8 * (k - 20))

/-- A reserved bit of the inline parameters is set (R423, R431). -/
def Cmd.reservedSet (c : Cmd) (mask : Nat) : Bool :=
  decide (c.inl &&& ~~~(BitVec.ofNat 96 mask) ≠ 0)

/-- The ORDERED flag. -/
def Cmd.ordered (c : Cmd) : Bool := c.flags.getLsbD 0

/-- A command whose operands agree: its buffer has the length its descriptor states, or it brings no buffer. -/
def Cmd.wf (c : Cmd) : Bool := decide (c.buf.length = c.len.toNat ∨ c.buf = [])

/-- The descriptor that a command's fields spell (R423), byte 3 as 0. -/
def Cmd.desc (c : Cmd) (op : Nat) : BitVec 256 :=
  c.inl ++ c.len ++ c.addr ++ c.resv ++ c.tag ++ (0 : BitVec 8) ++ c.flags ++ BitVec.ofNat 16 op

/-- The buffer's contents, `len` bytes. -/
def Cmd.data (c : Cmd) : List Byte := slice c.buf 0 c.len.toNat

end Sys2Proof

namespace Sys2Proof.Machine

open Host

/-- Ring, slot and tag of the commands that have started and whose completion later rows give: TIME_SET, STRING_TRAIN,
MODULE_BYPASS, FENCE_TEST, LARDER_READ and IMAGE_BEGIN. -/
def Dev.underway (d : Dev) : List (Nat × Nat × Nat) :=
  (d.clk.openCmds.map fun x => (x.ring, x.slot, x.tag)) ++ (d.pen.train.map fun x => (x.ring, x.slot, x.tag)) ++
  (d.pen.bypass.map fun x => (x.ring, x.slot, x.tag)) ++ (d.fen.openTest.toList.map fun x => (x.ring, x.slot, x.tag)) ++
  (d.lrd.reads.map fun x => (x.ring, x.slot, x.tag)) ++ d.sec.xfer.toList.map fun x => (x.ring, x.slot, x.tag)

/-- A fetched command may not start yet (R430), `before` being those in progress that were fetched before it: an earlier
one of its ring has not started, or one that it must wait for has not completed. A command that survived a reset of the host
interface is not waited for by the start of one fetched after it (DEDUCED, log 53). -/
def Dev.behind (d : Dev) (before : List InFlight) (f : InFlight) : Bool :=
  let ord := f.ordered || decide (f.opcode = 0x12 ∨ f.opcode = 0x82 ∨ f.opcode = 0x60)
  let same := before.filter fun g => decide (g.ring = f.ring)
  (ord && !same.isEmpty) || (same.any fun g => (f.lost || !g.lost) && !d.underway.contains (g.ring, g.slot, g.tag)) ||
    (decide (f.opcode = 0x12) && before.any fun g => decide (g.opcode = 0x11 ∨ g.opcode = 0x10))

/-- The command may not start: it has been fetched and is behind another (R430), or another command has been fetched from
its slot. -/
def Dev.waits (d : Dev) (c : Cmd) (op : Nat) : Bool :=
  let own (f : InFlight) : Bool := decide (f.ring = c.ring.val ∧ f.slot = c.slot.toNat ∧ f.desc = c.desc op)
  match d.host.inflight.find? own with
  | some f => d.behind (d.host.inflight.takeWhile fun g => !own g) f
  | none => d.host.inflight.any fun f => decide (f.ring = c.ring.val ∧ f.slot = c.slot.toNat ∧ f.lost = false)

/-- Opcodes of R431. -/
def knownOpcode (op : Nat) : Bool :=
  [0x01, 0x02, 0x03, 0x04, 0x05, 0x06, 0x10, 0x11, 0x12, 0x13, 0x20, 0x21, 0x22, 0x30, 0x31, 0x40, 0x41, 0x50, 0x60, 0x61,
   0x62, 0x70, 0x71, 0x80, 0x81, 0x82, 0x90, 0xA0, 0xA1, 0xB0, 0xC0].contains op

/-- Fetched commands with an unknown opcode complete as they may start (R430, R431). -/
def Dev.badOpcodes (d : Dev) : Dev :=
  d.host.inflight.foldl (fun e f =>
    if knownOpcode f.opcode || e.behind (e.host.inflight.takeWhile fun g => decide (g ≠ f)) f then e
    else e.completeAs f.ring f.slot f.tag f.opcode stBadOpcode 0 []) d

/-- A command's checks in the order of R431, steps 2 to 4 up to its reserved inline bits; `body` is the rest of its
own checks and its effect. A command that may not start yet leaves the device as it is (R430). -/
def Dev.command (op mask : Nat) (c : Cmd) (body : Dev → Dev) (d : Dev) : Dev :=
  if d.waits c op then d
  else if c.flags &&& 0xFE ≠ 0 ∨ c.resv ≠ 0 ∨ 2 ^ 24 < c.len.toNat then d.complete c op stBadParam
  else if ¬ d.ready ∧ op ≠ 0x01 ∧ op ≠ 0x81 then d.complete c op stRejected
  else if c.reservedSet mask then d.complete c op stBadParam
  else body d

/-- An error is handed to Advanced Error Reporting (R409, R431). -/
def Dev.aerError (d : Dev) : Dev :=
  { d with host := { d.host with pcie := { d.host.pcie with aerCnt := d.host.pcie.aerCnt + 1 } } }

/-- The effect of a command that reads its whole buffer first (R431). -/
def Dev.withBuffer (op : Nat) (c : Cmd) (body : Dev → Dev) (d : Dev) : Dev :=
  if c.bufErr then d.aerError.complete c op stBadParam else body d

/-- A row that is a command. -/
def State.runCmd (op mask : Nat) (c : Cmd) (body : Dev → Dev) (s : State) : Outcome State Fault Refusal :=
  s.runIf c.wf (Dev.command op mask c body)

end Sys2Proof.Machine
end

