-- ==== Sys2Proof/Machine/Codes.lean ====
section
/-! DEFINITION. Code numbers of the spec's tables (modes, sub-states, classes, twin states, PLL states) and small
readers of the state that several families share. -/

namespace Sys2Proof.Machine

/-- Mode codes (R59). -/
def modeCode : Mode → Nat
  | .off => 0 | .standby => 1 | .blackstart => 2 | .forming => 3 | .resync => 4 | .stopping => 5 | .tripped => 6

/-- The mode of a requested code, 0–5 (R62). -/
def modeOf : Nat → Option Mode
  | 0 => some .off | 1 => some .standby | 2 => some .blackstart | 3 => some .forming | 4 => some .resync
  | 5 => some .stopping | _ => none

/-- Sub-state codes (R58). -/
def subCode : Sub → Nat
  | .normal => 0 | .limit => 1 | .frtLow => 2 | .frtHigh => 3 | .recover => 4

/-- GFM_STATUS.SUB: 0 outside FORMING (R58). -/
def Dev.subNow (d : Dev) : Nat := if d.gfm.mode = .forming then subCode d.gfm.sub else 0

/-- Trip classes (R162). -/
def classCode : TripClass → Nat
  | .report => 0 | .soft => 1 | .hard => 2

/-- The class of a SUP_TRIP_ROUTE field. -/
def classOf : Nat → TripClass
  | 0 => .report | 1 => .soft | _ => .hard

/-- Twin states (TWN_STATUS.STATE). -/
def twinCode : TwinSt → Nat
  | .solo => 0 | .syncing => 1 | .active => 2 | .standby => 3 | .resigned => 4 | .faulted => 5 | .blind => 6

/-- The device controls the converter: it is SOLO or ACTIVE. -/
def Dev.controls (d : Dev) : Bool := decide (d.twn.st = .solo ∨ d.twn.st = .active)

/-- States of the SYSPLL (CLK_STATUS.STATE). -/
def pllCode : PllState → Nat
  | .search => 0 | .locked => 1 | .holdover => 2 | .pulling => 3 | .jumpPending => 4 | .noLock => 5

/-- Modes with angle strokes of their own (R59). -/
def angleMode (m : Mode) : Bool :=
  match m with
  | .blackstart | .forming | .resync | .stopping => true
  | .off | .standby | .tripped => false

/-- A signal of the bus (R109). -/
def Dev.sig (d : Dev) (n : Nat) : W32 := d.loop.sig.get 0 n

/-- A signal as a signed number. -/
def Dev.sigI (d : Dev) (n : Nat) : Int := (d.sig n).toInt

/-- A signal written. -/
def Dev.setSig (n : Nat) (v : W32) (d : Dev) : Dev :=
  { d with loop := { d.loop with sig := d.loop.sig.set 0 n v } }

/-- Several signals written, from number `n` on. -/
def Dev.setSigs (n : Nat) (vs : List W32) (d : Dev) : Dev :=
  (vs.foldl (fun (x : Nat × Dev) v => (x.1 + 1, x.2.setSig x.1 v)) (n, d)).2

/-- Topology: 0 none of the strings, by MOD_CFG.TOPO (R171). -/
def Dev.topo (d : Dev) : Nat := d.fld Reg.MOD_CFG 2 0

/-! ### One block of the device replaced by a function of itself -/

def Dev.onAng (f : AngState → AngState) (d : Dev) : Dev := { d with ang := f d.ang }
def Dev.onGfm (f : GfmState → GfmState) (d : Dev) : Dev := { d with gfm := f d.gfm }
def Dev.onProf (f : ProfState → ProfState) (d : Dev) : Dev := { d with prof := f d.prof }
def Dev.onLoop (f : LoopState → LoopState) (d : Dev) : Dev := { d with loop := f d.loop }
def Dev.onSup (f : SupState → SupState) (d : Dev) : Dev := { d with sup := f d.sup }
def Dev.onMod (f : ModState → ModState) (d : Dev) : Dev := { d with mod := f d.mod }
def Dev.onPwm (f : PwmState → PwmState) (d : Dev) : Dev := { d with pwm := f d.pwm }
def Dev.onPen (f : PenState → PenState) (d : Dev) : Dev := { d with pen := f d.pen }
def Dev.onPnt (f : PntState → PntState) (d : Dev) : Dev := { d with pnt := f d.pnt }
def Dev.onAdc (f : AdcState → AdcState) (d : Dev) : Dev := { d with adc := f d.adc }
def Dev.onAcq (f : AcqState → AcqState) (d : Dev) : Dev := { d with acq := f d.acq }
def Dev.onClk (f : ClkState → ClkState) (d : Dev) : Dev := { d with clk := f d.clk }
def Dev.onTwn (f : TwnState → TwnState) (d : Dev) : Dev := { d with twn := f d.twn }
def Dev.onFen (f : FenState → FenState) (d : Dev) : Dev := { d with fen := f d.fen }
def Dev.onHost (f : HostState → HostState) (d : Dev) : Dev := { d with host := f d.host }
def Dev.onSec (f : SecState → SecState) (d : Dev) : Dev := { d with sec := f d.sec }
def Dev.onHk (f : HkState → HkState) (d : Dev) : Dev := { d with hk := f d.hk }
def Dev.onAux (f : AuxState → AuxState) (d : Dev) : Dev := { d with aux := f d.aux }
def Dev.onLrd (f : LrdState → LrdState) (d : Dev) : Dev := { d with lrd := f d.lrd }
def Dev.onSys (f : SysState → SysState) (d : Dev) : Dev := { d with sys := f d.sys }

/-- Epoch or stroke order within a number of `w` bits (R36, R251): a lies after b. -/
def afterMod (w a b : Nat) : Bool :=
  let x := (a + (2 ^ w - b % 2 ^ w)) % 2 ^ w
  decide (0 < x ∧ x < 2 ^ (w - 1))

/-- Stroke a lies after stroke b (R36). -/
def afterSn (a b : W32) : Bool := afterMod 32 a.toNat b.toNat

/-- The epoch after an epoch, skipping 0 (R371). -/
def nextEpochOf (e : Nat) : Nat := let x := (e + 1) % 2 ^ 16; if x = 0 then 1 else x

/-! ### The measurement map (R117) -/

/-- Entry q of the measurement map: its source signal, if it is fitted (R117). -/
def Dev.mapSrc (d : Dev) (q : Nat) : Option Nat :=
  let b := 8 * (q % 4)
  if d.flag (Reg.LOOP_MAP (q / 4)) (b + 7) then some (d.fld (Reg.LOOP_MAP (q / 4)) (b + 5) b) else none

/-- LOOP_CTRL.PHASE_I. -/
def Dev.phaseI (d : Dev) : Nat := d.fld Reg.LOOP_CTRL 2 1

/-- The map entries that the selected PHASE_I uses for the phase currents (R117). -/
def phaseEntries : Nat → List Nat
  | 0 => [6, 7, 8]
  | 1 => [0, 1, 2]
  | 2 => [0, 1, 2]
  | _ => [0, 1, 2, 3, 4, 5]

/-- The map entries that form phase x (R117). -/
def entriesOfPhase (phaseI x : Nat) : List Nat :=
  match phaseI with
  | 0 => [6 + x]
  | 1 => [x]
  | 2 => [x, (x + 2) % 3]
  | _ => [x, x + 3]

/-- The channels of a list of map entries. -/
def Dev.mapChans (d : Dev) (qs : List Nat) : List Nat := qs.filterMap d.mapSrc

/-- The current channels (R155). -/
def Dev.currentChans (d : Dev) : List Nat := d.mapChans (phaseEntries d.phaseI)

/-- The channels of map entries 9–15 (R160). -/
def Dev.voltageChans (d : Dev) : List Nat := d.mapChans [9, 10, 11, 12, 13, 14, 15]

/-- Supervision of channel c. -/
def Dev.chan (d : Dev) (c : Nat) : ChanSup := d.sup.chans.get ChanSup.reset c

/-- Supervision of channel c replaced. -/
def Dev.setChan (c : Nat) (v : ChanSup) (d : Dev) : Dev :=
  d.onSup fun s => { s with chans := s.chans.set ChanSup.reset c v }

/-- Channel c is suspect or failed (R155). -/
def Dev.chanBad (d : Dev) (c : Nat) : Bool := (d.chan c).suspect || (d.chan c).frozen || (d.chan c).failed

/-- Strings in use (MOD_STR_n.EN). -/
def Dev.strEn (d : Dev) (n : Nat) : Bool := d.flag (Reg.MOD_STR n) 31

/-- Configured positions of a string. -/
def Dev.strLen (d : Dev) (n : Nat) : Nat := d.fld (Reg.MOD_STR n) 22 16

/-- The arm of a string. -/
def Dev.strArm (d : Dev) (n : Nat) : Nat := d.fld (Reg.MOD_STR n) 26 24

/-- The enabled strings. -/
def Dev.strings (d : Dev) : List Nat := (upto 12).filter d.strEn

/-- The longest enabled string, in positions. -/
def Dev.maxLen (d : Dev) : Nat := maxList 0 (d.strings.map d.strLen)

/-- Switching is permitted by everything but the kind of stroke (R189). -/
def Dev.notBlocked (d : Dev) : Bool := !d.sup.blocked

/-- Demand of the Fence on pair 0: safe gate inhibit (R394). -/
def Dev.fenceDemand (d : Dev) : Bool := (d.fen.outs.get FenOut.reset 0).demanded

end Sys2Proof.Machine
end

