-- ==== Sys2Proof/Machine/Biquad.lean ====
section
/-! DEFINITION. One second-order section in transposed direct form II (R111, R112, R118). -/

namespace Sys2Proof.Machine

/-- The result of a section: output in Q7.24, the new states in Q7.32, and whether a narrowing saturated. -/
structure BiquadOut where
  y : Int
  n1 : Int
  n2 : Int
  satd : Bool
deriving DecidableEq, Repr

/-- A narrowing with rounding and saturation, and whether it saturated (R112). -/
def narrow (w k : Nat) (x : Int) : Int × Bool :=
  let r := rshr x k
  (sat w r, decide (sat w r ≠ r))

/-- One section (R118): Q4.27 coefficients, a Q7.24 input, Q7.32 states. -/
def biquad (c : Coef) (x s1 s2 : Int) : BiquadOut :=
  let (y, e0) := narrow 32 27 (sat 72 (c.b0.toInt * x + s1 * 2 ^ 19))
  let (n1, e1) := narrow 40 19 (sat 72 (c.b1.toInt * x - c.a1.toInt * y + s2 * 2 ^ 19))
  let (n2, e2) := narrow 40 19 (sat 72 (c.b2.toInt * x - c.a2.toInt * y))
  { y := y, n1 := n1, n2 := n2, satd := e0 || e1 || e2 }

end Sys2Proof.Machine
end

