-- ==== Sys2Proof/Machine/CaptureSets.lean ====
section
/-! DEFINITION. Capture sets (R320–R330): storing a sample, the triggers that fall on it, the record and its re-arm
interval. -/

namespace Sys2Proof.Machine

/-- A capture set. -/
def Dev.aset (d : Dev) (k : Nat) : AcqSet := d.acq.sets.get AcqSet.reset k

/-- A capture set replaced. -/
def Dev.setAset (k : Nat) (v : AcqSet) (d : Dev) : Dev :=
  d.onAcq fun a => { a with sets := a.sets.set AcqSet.reset k v }

/-- EN, N, P and B_k of a set (R320, R326). -/
def Dev.asetEn (d : Dev) (k : Nat) : Bool := d.flag (Reg.ACQ_SET_CFG k) 31
def Dev.asetN (d : Dev) (k : Nat) : Nat := d.fld (Reg.ACQ_SET_LEN k) 20 0
def Dev.asetP (d : Dev) (k : Nat) : Nat := (d.asetN k - 1) * d.fld (Reg.ACQ_SET_CFG k) 23 16 / 100

/-- The channels of a set, ascending. -/
def Dev.asetChans (d : Dev) (k : Nat) : List Nat :=
  (upto 64).filter fun n => if n < 32 then d.flag (Reg.ACQ_SET_CHM_L k) n else d.flag (Reg.ACQ_SET_CHM_H k) (n - 32)

/-- SLOTS_k (R320). -/
def Dev.asetSlots (d : Dev) (k : Nat) : Nat :=
  d.fld (Reg.ACQ_SET_MEM k) 7 0 * 65536 / (64 + 4 * d.asetN k * (d.asetChans k).length)

/-- A slot is free for a new record, none being taken: the others hold closed records (R331). -/
def Dev.slotFree (d : Dev) (k : Nat) : Bool := decide ((d.aset k).closed.length < d.asetSlots k)

/-- FILLING begins, READY at once where no sample is needed before the trigger (R326). -/
def Dev.startFilling (k : Nat) (d : Dev) : Dev :=
  d.setAset k { d.aset k with
    phase := if d.asetP k = 0 then .ready else .filling, pre := [], cur := none, fillStart := d.now }

/-- A record is complete (R329). A set that is being disarmed stays in POST until its record has been delivered (R335). -/
def Dev.closeRecord (k : Nat) (r : AcqRecord) (d : Dev) : Dev :=
  let x := d.aset k
  let d := d.setAset k { x with cur := none, closed := x.closed ++ [r], pre := [] }
  if x.ending then d
  else if x.single then d.setAset k { d.aset k with phase := .disarmed, single := false, trig := [] }
  else if d.slotFree k then d.startFilling k
  else d.setAset k { d.aset k with phase := .wait }

/-- Samples kept beyond P, for a trigger that is found after the sample it falls on has been stored (R323, R325). -/
def lateSamples : Nat := 1024

/-- A record is triggered by the sample just taken (R325, R327). -/
def Dev.startRecord (k : Nat) (mask : Nat) (smp : AcqSample) (d : Dev) : Dev :=
  let x := d.aset k
  let pre := x.pre.take (d.asetP k)
  let r : AcqRecord := { mask := mask, samples := smp :: pre, pre := pre.length, trigTick := smp.tick
                         before := (x.pre.drop (d.asetP k)).take lateSamples, missed := 0, missedAt := []
                         missSn := 0, missTheta := 0
                         dropped := x.dropSince, seq := x.seq, chans := (d.asetChans k).length
                         conv := d.flag (Reg.ACQ_SET_CFG k) 28, div := d.fld (Reg.ACQ_SET_DIV k) 15 0, single := x.single, stepped := false }
  let d := ((d.setAset k { x with phase := .post, cur := some r, pre := [], seq := x.seq + 1, dropSince := 0 }).event
    13 0 k 0 0).irq 44
  if d.asetP k + 1 = d.asetN k then d.closeRecord k r else d

/-- Triggers that fall on a sample of a record's re-arm interval; the header names the first of them (R328). -/
def recMiss (r : AcqRecord) (ts : List (Nat × Nat)) (smp : AcqSample) : AcqRecord :=
  let first : Bool := r.missedAt.all fun t => decide (smp.tick < t.2)
  { r with missed := r.missed + ts.length, missedAt := ts ++ r.missedAt, missSn := if first then smp.sn else r.missSn
           missTheta := if first then smp.theta else r.missTheta }

/-- Triggers in the re-arm interval of the record being taken (R328). -/
def Dev.missTriggers (k : Nat) (ts : List (Nat × Nat)) (smp : AcqSample) (d : Dev) : Dev :=
  let x := d.aset k
  match x.cur with
  | none => d
  | some r =>
    if ts = [] then d
    else (d.setAset k { x with cur := some (recMiss r ts smp), missCnt := satAdd x.missCnt ts.length }).event 13 1 k 0 0

/-- A sample after the trigger (R327, R329). -/
def Dev.postSample (k : Nat) (smp : AcqSample) (d : Dev) : Dev :=
  match (d.aset k).cur with
  | none => d
  | some r =>
    let r := { r with samples := smp :: r.samples }
    let d := d.setAset k { d.aset k with cur := some r }
    if d.asetN k - d.asetP k ≤ r.samples.length - r.pre then d.closeRecord k r else d

/-- A sample of a set is taken (R325–R329). -/
def Dev.acqStore (k : Nat) (smp : AcqSample) (d : Dev) : Dev :=
  let x := d.aset k
  let fallen := x.trig.filter fun t => decide (t.2 ≤ smp.tick)
  let mask := fallen.foldl (fun m t => m ||| 2 ^ t.1) 0
  let d := d.setAset k { x with trig := x.trig.filter fun t => !decide (t.2 ≤ smp.tick) }
  let fill (d : Dev) : Dev :=
    if mask ≠ 0 then d.startRecord k mask smp
    else
      let pre := (smp :: (d.aset k).pre).take (d.asetP k + lateSamples)
      d.setAset k { d.aset k with pre := pre, phase := if d.asetP k ≤ pre.length then .ready else .filling }
  match x.phase with
  | .disarmed => d
  | .filling => fill d
  | .ready => fill d
  | .post => (d.missTriggers k fallen smp).postSample k smp
  | .wait =>
    if d.slotFree k then fill (d.startFilling k)
    else if mask ≠ 0 then
      let y := d.aset k
      (d.setAset k { y with dropCnt := satInc y.dropCnt, dropSince := y.dropSince + 1 }).event 13 2 k 0 0
    else d

/-- Samples that have been stored already are taken again, oldest first, with a trigger that has proved to fall on one of
them. -/
def Dev.acqAgain (k : Nat) (later : List AcqSample) (d : Dev) : Dev :=
  later.reverse.foldl (fun d s => d.acqStore k s) d

/-- The samples that a record still has, newest first, and every trigger that has fallen on one of them. -/
def recKept (r : AcqRecord) : List AcqSample := r.samples ++ r.before
def recTriggers (r : AcqRecord) : List (Nat × Nat) :=
  ((upto 12).filter fun b => bitAt r.mask b).map (fun b => (b, r.trigTick)) ++ r.missedAt

/-- The trigger at tick t falls on a sample of the record before its trigger sample. -/
def recStarts (r : AcqRecord) (t : Nat) : Bool := (recKept r).any fun s => decide (t ≤ s.tick ∧ s.tick < r.trigTick)

/-- The tick of a record's last sample. -/
def recLast (r : AcqRecord) : Nat := (r.samples.head?.map (·.tick)).getD 0

/-- The records `rs`, oldest first, are given up, and the samples since tick t, theirs and the newer ones `live`, are taken
again with the trigger at t and those that these records had (R325, R328). -/
def Dev.retake (k bit t : Nat) (rs : List AcqRecord) (live : List AcqSample) (d : Dev) : Dev :=
  match rs with
  | [] => d
  | r :: _ =>
    let x := d.aset k
    let all := live ++ rs.reverse.flatMap recKept
    let later := all.takeWhile fun s => decide (t ≤ s.tick)
    let d := d.setAset k { x with
      phase := .ready, cur := none, pre := all.drop later.length, seq := r.seq, dropSince := r.dropped
      single := x.single || r.single, missCnt := x.missCnt - (rs.map (·.missed)).foldl (· + ·) 0
      trig := (bit, t) :: rs.flatMap recTriggers ++ x.trig }
    d.acqAgain k later

/-- A trigger that falls on a sample before the trigger sample of the first of the closed records `rs`, which has become
known since: the record starts there instead, and what was taken after it follows. After a SINGLE arming nothing of what
came later belongs to it (R329). -/
def Dev.reopen (k bit t : Nat) (rs : List AcqRecord) (d : Dev) : Dev :=
  let x := d.aset k
  let older := x.closed.take (x.closed.length - rs.length)
  match rs with
  | [] => d
  | r :: newer =>
    if r.single then
      let d := (d.setAset k { x with closed := older, trig := [] }).retake k bit t [r] []
      let y := d.aset k
      d.setAset k { x with closed := y.closed ++ newer, missCnt := y.missCnt }
    else
      let live := match x.cur with
        | some _ => []
        | none => x.pre
      (d.setAset k { x with closed := older }).retake k bit t (rs ++ x.cur.toList) live

/-- A trigger that falls on the trigger sample of a record, beside others (R325). -/
def recJoin (r : AcqRecord) (bit : Nat) : AcqRecord := { r with mask := r.mask ||| 2 ^ bit }

/-- The sample on which a trigger after the trigger sample of a record falls: one of its re-arm interval (R328). -/
def recFalls (r : AcqRecord) (t : Nat) : Option AcqSample := (r.samples.takeWhile fun s => decide (t ≤ s.tick)).getLast?

/-- A trigger that falls on a sample of a closed record, the first of `rs`, the newest closed ones (R325, R328). -/
def Dev.closedTrigger (k bit t : Nat) (rs : List AcqRecord) (d : Dev) : Dev :=
  let x := d.aset k
  let older := x.closed.take (x.closed.length - rs.length)
  match rs with
  | [] => d
  | r :: newer =>
    if recStarts r t then d.reopen k bit t rs
    else if t ≤ r.trigTick then
      ((d.setAset k { x with closed := older ++ recJoin r bit :: newer }).event 13 0 k 0 0).irq 44
    else match recFalls r t with
      | none => d
      | some s => (d.setAset k { x with
          closed := older ++ recMiss r [(bit, t)] s :: newer, missCnt := satInc x.missCnt }).event 13 1 k 0 0

/-- A trigger at tick t (R324, R325): it falls on the first sample at or after t. Samples of that time that have been
stored already, in a record that has closed too, are taken again where the trigger starts a record with one of them. -/
def Dev.acqTrigger (k bit t : Nat) (d : Dev) : Dev :=
  let x := d.aset k
  match x.closed.dropWhile fun r => decide (recLast r < t) with
  | r :: newer => d.closedTrigger k bit t (r :: newer)
  | [] =>
    match x.phase with
    | .disarmed => d
    | .wait => d.setAset k { x with trig := x.trig ++ [(bit, t)] }
    | .post =>
      match x.cur with
      | none => d
      | some r =>
        if recStarts r t then d.retake k bit t [r] []
        else if t ≤ r.trigTick then ((d.setAset k { x with cur := some (recJoin r bit) }).event 13 0 k 0 0).irq 44
        else
          match recFalls r t with
          | some s => d.missTriggers k [(bit, t)] s
          | none => d.setAset k { x with trig := x.trig ++ [(bit, t)] }
    | .filling | .ready =>
      let later := x.pre.takeWhile fun s => decide (t ≤ s.tick)
      (d.setAset k { x with pre := x.pre.drop later.length, trig := x.trig ++ [(bit, t)] }).acqAgain k later

/-- One base sample of an armed set; every DIV-th is a sample (R321). -/
def Dev.acqBase (k : Nat) (smp : Dev → AcqSample) (d : Dev) : Dev :=
  let x := d.aset k
  if x.phase = .disarmed then d
  else
    let d := d.setAset k { x with base := x.base + 1 }
    if x.base % (d.fld (Reg.ACQ_SET_DIV k) 15 0 + 1) = 0 then d.acqStore k (smp d) else d

end Sys2Proof.Machine
end

