-- ==== Sys2Proof/Machine/LineCode.lean ====
section
/-! DEFINITION. The characters of the Penras lanes (R225, R230, R231): the 8b/10b code of IEEE 802.3 clause 36, to which R225
refers for its tables (PRESUMED, log 98), the ordered sets, and what of a stream of characters a receiver uses. -/

namespace Sys2Proof.Machine

/-! ### 8b/10b

A code is ten bits in the order a b c d e i f g h j, bit a leftmost, as they are sent. -/

/-- The bits abcdei of D.x at negative running disparity, as a number with bit a leftmost. -/
def sixOf (x : Nat) : Nat :=
  [0b100111, 0b011101, 0b101101, 0b110001, 0b110101, 0b101001, 0b011001, 0b111000,
   0b111001, 0b100101, 0b010101, 0b110100, 0b001101, 0b101100, 0b011100, 0b010111,
   0b011011, 0b100011, 0b010011, 0b110010, 0b001011, 0b101010, 0b011010, 0b111010,
   0b110011, 0b100110, 0b010110, 0b110110, 0b001110, 0b101110, 0b011110, 0b101011].getD x 0

/-- The bits fghj of D.x.y at negative running disparity; y = 7 is the primary form. -/
def fourOf (y : Nat) : Nat := [0b1011, 0b1001, 0b0101, 0b1100, 0b1101, 0b1010, 0b0110, 0b1110].getD y 0

/-- The number of ones among the lowest n bits. -/
def onesOf : Nat → Nat → Nat
  | 0, _ => 0
  | n + 1, v => v % 2 + onesOf n (v / 2)

/-- A sub-block of n bits at a running disparity (true: positive): one that is unbalanced, or one of the two balanced ones
with distinct forms, is complemented. -/
def atDisparity (rd : Bool) (n v : Nat) : Nat :=
  if rd && (decide (2 * onesOf n v ≠ n) || decide (v = 0b111000 ∧ n = 6) || decide (v = 0b1100 ∧ n = 4)) then 2 ^ n - 1 - v
  else v

/-- The running disparity after a sub-block of n bits. -/
def disparityAfter (rd : Bool) (n v : Nat) : Bool :=
  let ones := onesOf n v
  if n < 2 * ones then true
  else if 2 * ones < n then false
  else rd

/-- The code of a data byte, and the running disparity after it. -/
def encodeData (rd : Bool) (b : Byte) : Nat × Bool :=
  let x := bits b.toNat 4 0
  let y := bits b.toNat 7 5
  let six := atDisparity rd 6 (sixOf x)
  let mid := disparityAfter rd 6 six
  let alt : Bool := decide (y = 7) &&
    (if mid then decide (x = 11 ∨ x = 13 ∨ x = 14) else decide (x = 17 ∨ x = 18 ∨ x = 20))
  let four := if alt then (if mid then 0b1000 else 0b0111) else atDisparity mid 4 (fourOf y)
  (six * 16 + four, disparityAfter mid 4 four)

/-- The code of a control character at negative running disparity: K28.0–K28.7, K23.7, K27.7, K29.7 and K30.7. -/
def controlCode (b : Byte) : Option Nat := match b.toNat with
  | 0x1C => some 0b0011110100
  | 0x3C => some 0b0011111001
  | 0x5C => some 0b0011110101
  | 0x7C => some 0b0011110011
  | 0x9C => some 0b0011110010
  | 0xBC => some 0b0011111010
  | 0xDC => some 0b0011110110
  | 0xFC => some 0b0011111000
  | 0xF7 => some 0b1110101000
  | 0xFB => some 0b1101101000
  | 0xFD => some 0b1011101000
  | 0xFE => some 0b0111101000
  | _ => none

/-- The running disparity after a code of ten bits. -/
def disparityCode (rd : Bool) (code : Nat) : Bool := disparityAfter (disparityAfter rd 6 (code / 16)) 4 (code % 16)

/-- The code of a character, and the running disparity after it. A control character at positive disparity is the
complement of the one at negative disparity. -/
def encodeChar (rd : Bool) (c : LineChar) : Nat × Bool := match c with
  | .data b => encodeData rd b
  | .ctrl b =>
    let code := (controlCode b).getD 0
    let v := if rd then 2 ^ 10 - 1 - code else code
    (v, disparityCode rd v)
  | .bad => (0, rd)

/-- The control characters. -/
def controls : List Byte := [0x1C, 0x3C, 0x5C, 0x7C, 0x9C, 0xBC, 0xDC, 0xFC, 0xF7, 0xFB, 0xFD, 0xFE]

/-- The data bytes whose sub-block abcdei at a running disparity is the given one. -/
def dataCandidates (rd : Bool) (six : Nat) : List Byte :=
  ((upto 32).filter fun x => decide (atDisparity rd 6 (sixOf x) = six)).flatMap fun x =>
    (upto 8).map fun y => BitVec.ofNat 8 (32 * y + x)

/-- The character that a code stands for at a running disparity: one that stands for none, or for one at the other
disparity only, is a code violation or a disparity error (R230). -/
def decodeChar (rd : Bool) (code : Nat) : LineChar :=
  match (dataCandidates rd (code / 16)).find? fun b => decide ((encodeData rd b).1 = code) with
  | some b => .data b
  | none =>
    match controls.find? fun b => decide ((encodeChar rd (.ctrl b)).1 = code) with
    | some b => .ctrl b
    | none => .bad

/-- Characters as codes, in the order sent (R225). -/
def encodeLine : Bool → List LineChar → List (BitVec 10)
  | _, [] => []
  | rd, c :: rest =>
    let x := encodeChar rd c
    BitVec.ofNat 10 x.1 :: encodeLine x.2 rest

/-- The running disparity after characters. -/
def lineDisparity (rd : Bool) (cs : List LineChar) : Bool := cs.foldl (fun r c => (encodeChar r c).2) rd

/-- Codes as characters. -/
def decodeLine : Bool → List (BitVec 10) → List LineChar
  | _, [] => []
  | rd, c :: rest => decodeChar rd c.toNat :: decodeLine (disparityCode rd c.toNat) rest

/-! ### Ordered sets (R230) -/

/-- CHK: the complement of the exclusive OR of the two data bytes before it. -/
def chkOf (a b : Byte) : Byte := ~~~ (a ^^^ b)

/-- A set with a CHK byte. -/
def checkedSet (k a b : Byte) : List LineChar := [.ctrl k, .data a, .data b, .data (chkOf a b)]

/-- The four characters of an ordered set. -/
def setChars : OrderedSet → List LineChar
  | .idle => [.ctrl 0xBC, .data 0x50, .data 0x50, .data 0x50]
  | .sof => [.ctrl 0xFB, .data 0xB5, .data 0xB5, .data 0xB5]
  | .eof => [.ctrl 0xFD, .data 0xB5, .data 0xB5, .data 0xB5]
  | .block epoch => checkedSet 0x7C (BitVec.ofNat 8 epoch) (BitVec.ofNat 8 (epoch / 256))
  | .fault pos code => checkedSet 0x3C (BitVec.ofNat 8 pos) (BitVec.ofNat 8 code)
  | .echoReq pos port => checkedSet 0x5C (BitVec.ofNat 8 pos) (BitVec.ofNat 8 port)
  | .echoRsp pos tau => [.ctrl 0x9C, .data (BitVec.ofNat 8 pos), .data (BitVec.ofNat 8 tau), .data (BitVec.ofNat 8 (tau / 256))]
  | .linkDown => [.ctrl 0xDC, .data 0xB5, .data 0xB5, .data 0xB5]

/-- The ordered set that four characters are; none where one of them violates the code or CHK is wrong (R230). -/
def readSet : List LineChar → Option OrderedSet
  | [.ctrl k, .data a, .data b, .data c] =>
    let chk : Bool := decide (c = chkOf a b)
    let rest : Bool := decide (a = 0xB5 ∧ b = 0xB5 ∧ c = 0xB5)
    match k.toNat with
    | 0xBC => if a = 0x50 ∧ b = 0x50 ∧ c = 0x50 then some .idle else none
    | 0xFB => if rest then some .sof else none
    | 0xFD => if rest then some .eof else none
    | 0x7C => if chk then some (.block (a.toNat + 256 * b.toNat)) else none
    | 0x3C => if chk then some (.fault a.toNat b.toNat) else none
    | 0x5C => if chk then some (.echoReq a.toNat b.toNat) else none
    | 0x9C => some (.echoRsp a.toNat (b.toNat + 256 * c.toNat))
    | 0xDC => if rest then some .linkDown else none
    | _ => none
  | _ => none

/-- BLOCK, FAULT, ECHO_REQ and ECHO_RSP among the ordered sets. -/
def isBlockSet : OrderedSet → Bool
  | .block _ => true
  | _ => false
def isFaultSet : OrderedSet → Bool
  | .fault _ _ => true
  | _ => false
def isEchoReq : OrderedSet → Bool
  | .echoReq _ _ => true
  | _ => false
def isEchoRsp : OrderedSet → Bool
  | .echoRsp _ _ => true
  | _ => false

/-- Each BLOCK and FAULT event is sent as three consecutive copies (R231). -/
def threeCopies (s : OrderedSet) : List LineChar := setChars s ++ setChars s ++ setChars s

/-- The sets that characters hold, four at a time: the first character of a set is a control character. -/
def setsIn : List LineChar → List OrderedSet
  | c0 :: c1 :: c2 :: c3 :: rest => (readSet [c0, c1, c2, c3]).toList ++ setsIn rest
  | _ => []

/-- The first valid one among the copies of a set that arrive, if it is such a one (R231). -/
def firstSet (line : LineIn) (want : OrderedSet → Bool) : Option OrderedSet :=
  (setsIn (decodeLine line.rd line.codes)).find? want

/-- Characters with the BLOCK and FAULT sets inside them removed (R231): four characters from each K28.3 or K28.1 on. -/
def withoutSets : Nat → List LineChar → List LineChar
  | _, [] => []
  | n + 1, _ :: rest => withoutSets n rest
  | 0, c :: rest => if c = .ctrl 0x7C ∨ c = .ctrl 0x3C then withoutSets 3 rest else c :: withoutSets 0 rest

/-- Characters in which those of a frame that are given a new byte carry it, counted from SOF on; BLOCK and FAULT sets inside
are passed on and not counted (R228, R231). -/
def rewriteChars (new : Nat → Option Byte) : Nat → Nat → List LineChar → List LineChar
  | _, _, [] => []
  | i, n + 1, c :: rest => c :: rewriteChars new i n rest
  | i, 0, c :: rest =>
    if c = .ctrl 0x7C ∨ c = .ctrl 0x3C then c :: rewriteChars new i 3 rest
    else (match new i with
      | some b => .data b
      | none => c) :: rewriteChars new (i + 1) 0 rest

/-- The characters between SOF and EOF, BLOCK and FAULT removed; none where a stream is no frame. -/
def framePayload (cs : List LineChar) : Option (List LineChar) :=
  let cs := withoutSets 0 cs
  let n := cs.length - 8
  if 8 ≤ cs.length ∧ readSet (cs.take 4) = some .sof ∧ readSet (cs.drop (n + 4)) = some .eof then some ((cs.drop 4).take n) else none

/-- The byte of a character; a character that is no data byte has none, and stands as 0. -/
def charByte : LineChar → Byte
  | .data b => b
  | _ => 0

/-- A frame's characters as they leave: SOF, the bytes, EOF (R232). -/
def frameChars (bs : List Byte) : List LineChar := setChars .sof ++ bs.map .data ++ setChars .eof

end Sys2Proof.Machine
end

