-- ==== Sys2Proof/Machine/Outputs.lean ====
section
/-! DEFINITION. What holds the converter's outputs: the PWM pairs with their safe states and blanking timers (R203,
R210, R217) and the block signal of the strings (R163, R257). -/

namespace Sys2Proof.Machine

/-- A PWM pair. -/
def Dev.pair (d : Dev) (p : Nat) : PwmPair := d.pwm.pairs.get PwmPair.reset p

/-- A PWM pair replaced. -/
def Dev.setPair (p : Nat) (v : PwmPair) (d : Dev) : Dev :=
  d.onPwm fun s => { s with pairs := s.pairs.set PwmPair.reset p v }

def Dev.pairEn (d : Dev) (p : Nat) : Bool := d.flag (Reg.PWM_PAIR p) 31
/-- SRC = HOST. -/
def Dev.pairHost (d : Dev) (p : Nat) : Bool := d.flag (Reg.PWM_PAIR p) 30
/-- TB = FREE. -/
def Dev.pairFree (d : Dev) (p : Nat) : Bool := d.flag (Reg.PWM_PAIR p) 29

/-- Edges between two output levels: bit 0 a rise, bit 1 a fall. A HIZ pin is pulled low (R210). -/
def edgesOf (old new : Nat) : Nat :=
  (if old ≠ 1 ∧ new = 1 then 1 else 0) + (if old = 1 ∧ new ≠ 1 then 2 else 0)

/-- Blanking timers that edges of a pair start or restart (R217). -/
def Dev.startBlanks (p edges : Nat) (d : Dev) : Dev :=
  d.onPwm fun s => { s with timers := (upto 8).foldl (fun ts k =>
    let len := d.fld (Reg.PWM_BLANK k) 11 0
    if d.fld (Reg.PWM_BLANK k) 19 16 = p ∧ d.fld (Reg.PWM_BLANK k) 23 20 &&& edges ≠ 0 ∧ len ≠ 0 then
      ts.set none k (some (d.now + len)) else ts) s.timers }

/-- Output levels of a pair, and the blanking timers their edges start. -/
def Dev.setOut (p a b : Nat) (d : Dev) : Dev :=
  let x := d.pair p
  (d.setPair p { x with outA := a, outB := b }).startBlanks p (edgesOf x.outA a + 4 * edgesOf x.outB b)

/-- The safe levels of a pair: SAFE_A and SAFE_B (R210), and low until READY (R526). -/
def Dev.safeA (d : Dev) (p : Nat) : Nat := if d.ready then d.fld (Reg.PWM_PAIR p) 1 0 else 0
def Dev.safeB (d : Dev) (p : Nat) : Nat := if d.ready then d.fld (Reg.PWM_PAIR p) 5 4 else 0

/-- A pair takes its safe state at once (R210, R21), and starts anew with c = 0 and X inactive (R211). -/
def Dev.pairSafe (p : Nat) (d : Dev) : Dev :=
  let d := d.setOut p (d.safeA p) (d.safeB p)
  d.setPair p { d.pair p with safe := true, x := false, rise := none, carry := 0 }

/-- The leg of a LOOP pair, where the topology has one for it (R201). -/
def Dev.legOf (d : Dev) (p : Nat) : Option Nat :=
  let leg := if d.flag Reg.PWM_CFG 0 then p / 2 else p
  if leg < d.fld Reg.PWM_CFG 7 4 then some leg else none

/-- A resigned device has repeated its last compares for two strokes (R369). -/
def Dev.loopPairsOff (d : Dev) : Bool := match d.twn.st with
  | .resigned => decide (d.twn.repeatLeft = 0)
  | .faulted => true
  | _ => false

/-- A pair that holds its safe state shows other levels than those. -/
def Dev.safeMoved (d : Dev) (p : Nat) : Bool :=
  let x := d.pair p
  x.safe && decide (x.outA ≠ d.safeA p ∨ x.outB ≠ d.safeB p)

/-- A pair is held in its safe state (R369, R21, R201, R210, R213, R394). -/
def Dev.pairHeld (d : Dev) (p : Nat) : Bool :=
  !d.ready || !d.pairEn p || decide (d.topo ≠ 0) || d.fenceDemand || decide ((d.pair p).latch ≠ 0) ||
  d.sup.hardHold || (d.pairFree p && decide ((d.pair p).period = 0)) ||
  (if d.pairHost p then decide (d.gfm.mode = .tripped)
   else !d.ang.cur.angle || d.sup.blocked || (d.legOf p).isNone || d.loopPairsOff)

/-- Every pair that must hold its safe state and does not yet takes it, and so does one whose safe levels have changed
(R210). -/
def Dev.holdPairs (d : Dev) : Dev :=
  (upto 12).foldl (fun d p => if d.pairHeld p && (!(d.pair p).safe || d.safeMoved p) then d.pairSafe p else d) d

/-- A string of the Penras link. -/
def Dev.str (d : Dev) (n : Nat) : PenString := d.pen.strings.get PenString.reset n

/-- A string replaced. -/
def Dev.setStr (n : Nat) (v : PenString) (d : Dev) : Dev :=
  d.onPen fun s => { s with strings := s.strings.set PenString.reset n v }

/-- A lane. -/
def Dev.lane (d : Dev) (l : Nat) : Lane := d.pen.lanes.get Lane.reset l

/-- A lane replaced. -/
def Dev.setLane (l : Nat) (v : Lane) (d : Dev) : Dev :=
  d.onPen fun p => { p with lanes := p.lanes.set Lane.reset l v }

/-- The ends of a string, 0 for lane 2s and 1 for lane 2s+1, at which this device sends frames and receives (R227). -/
def Dev.myEnds (d : Dev) : List Nat := match d.twn.st with
  | .solo => [0, 1]
  | .resigned | .faulted => []
  | _ => if d.twn.primary then [0] else [1]

/-- Ordered sets leave on a lane from a tick on, unless it carries electrical idle (R343, R526). -/
def Dev.insertSets (l tick : Nat) (cs : List LineChar) (d : Dev) : Dev :=
  if d.lanesOff then d
  else
    let x := d.lane l
    d.setLane l { x with rd := lineDisparity x.rd cs, inserted := cs, insertedAt := tick }

/-- The three copies of a set leave at once (R231). Inside a frame they delay its EOF by their twelve characters, 10 ticks. -/
def Dev.insertCopies (s : OrderedSet) (d : Dev) (l : Nat) : Dev :=
  let busy : Bool := decide (d.now < (d.lane l).freeAt) && !d.lanesOff
  let d := d.insertSets l d.now (threeCopies s)
  if busy then d.setLane l { d.lane l with freeAt := (d.lane l).freeAt + 10 } else d

/-- The epoch that a string's frames and BLOCK sets name; never 0 (R233, R251). -/
def sentEpoch (n e : Nat) : Nat :=
  if e = 0 then 1 + (Config.noEpoch n).toNat % 65535 else e

/-- The block signal goes out on every lane of a string that carries frames, under the string's epoch (R231, R257). -/
def Dev.blockString (d : Dev) (n : Nat) : Dev :=
  let d := d.setStr n { d.str n with block := true }
  (d.myEnds.map (2 * n + ·)).foldl (Dev.insertCopies (.block (sentEpoch n (d.str n).epoch))) d

/-- The block signal goes out on every string (R257). -/
def Dev.blockStrings (d : Dev) : Dev := d.strings.foldl Dev.blockString d

/-- Every submodule is commanded to BLOCK (R82, R163, R164), in a direct topology every LOOP pair to its safe state
(R212). Every submodule has blocked 40 ticks, 12 per position and 10 later (R257; DEDUCED). -/
def Dev.blockAll (d : Dev) : Dev :=
  let by_ := if d.topo = 0 then d.now else d.now + 40 + 12 * d.maxLen + 10
  ((d.onSup fun s => { s with blocked := true, blockBy := by_ }).blockStrings).holdPairs

end Sys2Proof.Machine
end

