-- ==== Sys2Proof/Machine/PointRecords.lean ====
section
/-! DEFINITION. What the point store holds (R274–R278, R286, R288): fields of records and classes, and the aggregates
of a group, computed from its records. -/

namespace Sys2Proof.Machine

/-- A point's record; one that nothing has stored reads 0x0000_10FF (R275). -/
def Dev.point (d : Dev) (id : Nat) : W32 := d.pnt.records.get 0x10FF id

/-- A point's class byte (R275). -/
def Dev.pointCls (d : Dev) (id : Nat) : Nat := d.pnt.map.get 0 id

/-- The definition of a class (R277). -/
def Dev.cls (d : Dev) (k : Nat) : PointClass := d.pnt.classes.get PointClass.reset k

/-- Fields of a record (R275). -/
def recValue (r : W32) : Nat := bits r.toNat 31 16
def recQual (r : W32) : Nat := bits r.toNat 15 12
def recFlags (r : W32) : Nat := bits r.toNat 11 8
def recAge (r : W32) : Nat := bits r.toNat 7 0

/-- A record from its fields. -/
def mkRec (value qual flags age : Nat) : W32 :=
  BitVec.ofNat 32 (pack [(value, 16), (qual, 12), (flags, 8), (age, 0)])

/-- Qualities (R275). -/
def qGood : Nat := 0
def qStale : Nat := 1
def qInvalid : Nat := 2
def qSubstituted : Nat := 3
def qForced : Nat := 4

/-- Fields of a class (R277). -/
def clsOffset (c : PointClass) : Int := signed 16 (bits c.w0.toNat 31 16)
def clsScale (c : PointClass) : Nat := bits c.w0.toNat 15 0
def clsLo (c : PointClass) : Nat := bits c.w1.toNat 31 16
def clsLolo (c : PointClass) : Nat := bits c.w1.toNat 15 0
def clsHihi (c : PointClass) : Nat := bits c.w2.toNat 31 16
def clsHi (c : PointClass) : Nat := bits c.w2.toNat 15 0
def clsKind (c : PointClass) : Nat := bits c.w3.toNat 31 30
def clsRing (c : PointClass) : Nat := bits c.w3.toNat 29 28
def clsDeliver (c : PointClass) : Bool := bitAt c.w3.toNat 27
def clsStaleT (c : PointClass) : Nat := bits c.w3.toNat 23 16
def clsDb (c : PointClass) : Nat := bits c.w3.toNat 15 0

/-! ### One operation on a record (R279–R282, R287, R291, R298) -/

/-- The normalised value of a raw code (R279). -/
def normalise (c : PointClass) (raw : Nat) : Nat :=
  (clampI 0 65534 ((raw * clsScale c / 2 ^ 15 : Nat) + clsOffset c)).toNat

/-- One flag of R281: it sets, it clears, or it stays. -/
def flagRule (set clear old : Bool) : Bool := if set then true else if clear then false else old

/-- The flags against a valid value (R281): bit 0 LO, 1 HI, 2 LOLO, 3 HIHI. -/
def limitFlags (c : PointClass) (v old : Nat) : Nat :=
  let up (l : Nat) : Nat := min 65535 (l + clsDb c)
  let down (l : Nat) : Nat := l - clsDb c
  b2n (flagRule (decide (v < clsLo c)) (decide (up (clsLo c) ≤ v)) (bitAt old 0)) +
  2 * b2n (flagRule (decide (clsHi c < v)) (decide (v ≤ down (clsHi c))) (bitAt old 1)) +
  4 * b2n (flagRule (decide (v < clsLolo c)) (decide (up (clsLolo c) ≤ v)) (bitAt old 2)) +
  8 * b2n (flagRule (decide (clsHihi c < v)) (decide (v ≤ down (clsHihi c))) (bitAt old 3))

/-- An arrival of a raw code with a quality for a valid one (R279–R282): the code 0xFFFF arrives as INVALID. `always` stores the
value whatever the deadband (R291). -/
def arriveRec (c : PointClass) (raw qual : Nat) (always : Bool) (old : W32) : W32 :=
  let invalid : Bool := decide (raw = 0xFFFF ∨ qual = qInvalid)
  let v := normalise c raw
  let q := if invalid then qInvalid else qual
  let flags := if invalid then 0 else limitFlags c v (recFlags old)
  let far : Bool := !invalid && (always || decide (clsDb c + recValue old < v ∨ clsDb c + v < recValue old))
  if q ≠ recQual old ∨ flags ≠ recFlags old ∨ far = true then mkRec (if invalid then recValue old else v) q flags 0
  else mkRec (recValue old) q flags 0

/-- A stale-scan visit (R287): AGE grows by the rounds completed, and a GOOD or SUBSTITUTED point may become STALE. -/
def visitRec (c : PointClass) (rounds : Nat) (old : W32) : W32 :=
  let age := min 255 (recAge old + rounds)
  let stale : Bool :=
    decide ((recQual old = qGood ∨ recQual old = qSubstituted) ∧ clsStaleT c ≠ 0 ∧ clsStaleT c ≤ age)
  mkRec (recValue old) (if stale then qStale else recQual old) (recFlags old) age

/-- A record after an operation under its class; none where the operation is discarded: a glean arrival for a FORCED point
(R291). -/
def recStep (c : PointClass) (op : PointOp) (old : W32) : Option W32 := match op with
  | .visit rounds => some (visitRec c rounds old)
  | .glean raw => if recQual old = qForced then none else some (arriveRec c raw qGood false old)
  | .write qual raw => some (arriveRec c raw qual false old)
  | .force raw => some (arriveRec c raw qForced true old)
  | .unforce => some (mkRec (recValue old) qStale (recFlags old) 255)
  | .reevaluate => some (mkRec (recValue old) (recQual old) (limitFlags c (recValue old) (recFlags old)) (recAge old))

/-- The place of an operation among those of its tick (R284). -/
def opRank : PointOp → Nat
  | .visit _ => 0
  | .glean _ => 1
  | .write _ _ => 2
  | .force _ => 2
  | .unforce => 2
  | .reevaluate => 3

/-- Operations one after another, each under its class; one that is discarded leaves the record. -/
def recSteps (ops : List (PointOp × PointClass)) (old : W32) : W32 :=
  ops.foldl (fun r op => (recStep op.2 op.1 r).getD r) old

/-- The kind of a point; none for an unused one. -/
def Dev.pointKind (d : Dev) (id : Nat) : Option Nat :=
  if d.pointCls id = 0 then none else some (clsKind (d.cls (d.pointCls id)))

/-- A point of kind 0 or 1 holds LOLO or HIHI: trip source 6 is active (R286). -/
def Dev.pointBad (d : Dev) (id : Nat) : Bool :=
  decide (recFlags (d.point id) &&& 12 ≠ 0 ∧ (d.pointKind id = some 0 ∨ d.pointKind id = some 1))

/-- The values of GOOD points of a group and kind (R288). -/
def Dev.goodValues (d : Dev) (g kind : Nat) : List Nat :=
  d.pnt.records.cells.filterMap fun c =>
    if c.1 / 1024 = g ∧ recQual c.2 = qGood ∧ d.pointKind c.1 = some kind then some (recValue c.2) else none

/-- MIN, MAX, SUM and COUNT of a group and kind (R288). -/
def Dev.aggregate (d : Dev) (g kind : Nat) : Nat × Nat × Nat × Nat :=
  let vs := d.goodValues g kind
  (minList 0xFFFF vs, maxList 0 vs, vs.foldl (· + ·) 0, vs.length)

end Sys2Proof.Machine
end

