-- ==== Sys2Proof/Machine/Crc.lean ====
section
/-! DEFINITION. The two cyclic redundancy checks of R236. -/

namespace Sys2Proof.Machine

/-- Eight steps of the reflected IEEE 802.3 polynomial. -/
def crc32Bits : Nat → W32 → W32
  | 0, c => c
  | k + 1, c => crc32Bits k (if c.getLsbD 0 then (c >>> 1) ^^^ 0xEDB88320 else c >>> 1)

/-- CRC-32 as the Ethernet frame check sequence computes it (R236). -/
def crc32 (bs : List Byte) : W32 :=
  ~~~ (bs.foldl (fun c b => crc32Bits 8 (c ^^^ b.setWidth 32)) 0xFFFFFFFF)

/-- Eight steps of the CCITT polynomial 0x1021, not reflected. -/
def crc16Bits : Nat → BitVec 16 → BitVec 16
  | 0, c => c
  | k + 1, c => crc16Bits k (if c.getLsbD 15 then (c <<< 1) ^^^ 0x1021 else c <<< 1)

/-- CRC-16 of glean slots and reply blocks (R236). -/
def crc16 (bs : List Byte) : BitVec 16 :=
  bs.foldl (fun c b => crc16Bits 8 (c ^^^ (b.setWidth 16).shiftLeft 8)) 0xFFFF

end Sys2Proof.Machine
end

