-- ==== Sys2Proof/Machine/Record.lean ====
section
/-! DEFINITION. Writing the Larder (R508–R515): event records with their sequence numbers and CRC, the TRIP record that
is opened when a trip takes effect and committed when its action ends, and the snapshot that goes with it. -/

namespace Sys2Proof.Machine

/-- Record lines (R506). -/
def recordLines : Nat := 16384

/-- Bytes 4–23 of a record written now (R509). -/
def Dev.recordHead (d : Dev) (typ flags : Nat) : List Byte :=
  leBytes 8 d.clk.secs ++ leBytes 4 d.secOfs ++ leBytes 4 d.ang.cur.sn.toNat ++ leBytes 1 typ ++ leBytes 1 flags ++
    leBytes 1 (modeCode d.gfm.mode) ++ leBytes 1 (16 * twinCode d.twn.st + d.subNow)

/-- A numbered record with bytes 4–59 `body` goes to its line with its CRC (R508, R509), and is reported (R513). -/
def Dev.putRecord (seq : Nat) (body : List Byte) (d : Dev) : Dev :=
  let bs := leBytes 4 seq ++ body
  let full := bs ++ leBytes 4 (crc32 bs).toNat
  ({ d with lrd := { d.lrd with lines := d.lrd.lines.set [] ((seq - 1) % recordLines) full } } : Dev).event 18 0
    seq (leAt body 16 1) 0

/-- The type of a record, from its bytes 4–59. -/
def recordType (body : List Byte) : Nat := leAt body 16 1

/-- A record joins those due in the same tick, in ascending type order (R513), after those of its own type. -/
def insertDue (x : Nat × List Byte) : List (Nat × List Byte) → List (Nat × List Byte)
  | [] => [x]
  | y :: ys => if recordType x.2 < recordType y.2 then x :: y :: ys else y :: insertDue x ys

/-- A record that is due in this tick. `seq` is 0 for a record that has no number yet. -/
def Dev.dueRecord (seq : Nat) (body : List Byte) (d : Dev) : Dev :=
  { d with lrd := { d.lrd with due := insertDue (seq, body) d.lrd.due } }

/-- A due record takes its number, the one after the newest (R508), and is written, or kept while Larder writes are
halted (R515). Before the scan of R508 the newest number is not known, and the record waits for it (log 55). -/
def Dev.writeRecord (x : Nat × List Byte) (d : Dev) : Dev :=
  if d.sec.phase < 3 then { d with lrd := { d.lrd with waiting := d.lrd.waiting ++ [x] } }
  else
    let q := if x.1 = 0 then d.lrd.head + 1 else x.1
    let d : Dev := { d with lrd := { d.lrd with head := max d.lrd.head q } }
    if d.lrd.halt then { d with lrd := { d.lrd with waiting := d.lrd.waiting ++ [(q, x.2)] } }
    else d.putRecord q x.2

/-- The tick ends: its records are numbered and written in ascending type order (R513). -/
def Dev.flushRecords (d : Dev) : Dev :=
  d.lrd.due.foldl (fun d x => d.writeRecord x) { d with lrd := { d.lrd with due := [] } }

/-- The records that wait are written in order, once writes are not halted and the scan has been made (R508, R515). -/
def Dev.writeWaiting (d : Dev) : Dev :=
  if d.lrd.halt = true ∨ d.sec.phase < 3 then d
  else d.lrd.waiting.foldl (fun d x => d.writeRecord x) { d with lrd := { d.lrd with waiting := [] } }

/-- A record of a type with its data bytes 24–59 (R510). -/
def Dev.record (typ flags : Nat) (data : List Byte) (d : Dev) : Dev :=
  d.dueRecord 0 (d.recordHead typ flags ++ slice data 0 36)

/-- The slots of the snapshot rotation from `k` on, and the first of them that is not pinned (R514). -/
def nextUnpinned (pinned : Nat) : Nat → Nat → Nat
  | 0, k => k
  | fuel + 1, k => if bitAt pinned k then nextUnpinned pinned fuel ((k + 1) % 16) else k

/-- The 32 signals of LRD_SIG_0–LRD_SIG_15 (R514). -/
def Dev.lrdSigs (d : Dev) : List Nat :=
  (upto 16).flatMap fun i => [d.fld (Reg.LRD_SIG i) 8 0, d.fld (Reg.LRD_SIG i) 24 16]

/-- The detail words of a first cause that R511 names; a cause with none has zeros. -/
def tripDetails (cause : Nat) (details : List Nat) : List Nat :=
  if [5, 7, 8, 17, 19].contains cause then details else []

/-- A TRIP record is opened (R512): its sequence is taken, the lowest of its tick by R513, since no type is lower, the tail buffer freezes, and its snapshot goes to the next
unpinned slot (R514), whose header is erased first, unless Larder writes are halted (R515). -/
def Dev.openTrip (cls : TripClass) (cause : Nat) (details : List Nat) (active : Nat) (d : Dev) : Dev :=
  let seq := d.lrd.head + 1
  let slot := nextUnpinned d.lrd.pinned 16 d.lrd.nextSlot
  let busy := d.lrd.openSnap.isSome
  let rec0 : OpenTrip := { seq := seq, hdr := d.recordHead 1 0, cls := classCode cls, causes := [cause],
                           slot := if busy then 0xFF else slot, details := tripDetails cause details, active := active }
  let snap : SnapSlot := { seq := seq, sn := d.lrd.tailSn, sigs := d.lrdSigs, rows := d.lrd.tail.reverse,
                           valid := true }
  { d with lrd := { d.lrd with
      head := seq, lastTrip := seq, openTrip := some rec0, frozen := true,
      slots := if busy ∨ d.lrd.halt = true then d.lrd.slots else d.lrd.slots.set SnapSlot.reset slot SnapSlot.reset,
      nextSlot := if busy then d.lrd.nextSlot else (slot + 1) % 16,
      openSnap := if busy then d.lrd.openSnap else some (slot, snap) } }

/-- A further cause (R167, R512): it joins the open record while that has fewer than 8, and is a TRIP_ADD record
otherwise. -/
def Dev.addCause (cls : TripClass) (cause : Nat) (d : Dev) : Dev :=
  let more (d : Dev) : Dev := d.record 2 0 (leBytes 4 d.lrd.lastTrip ++ leBytes 1 cause ++ leBytes 1 (classCode cls))
  match d.lrd.openTrip with
  | none => more d
  | some r =>
    if r.causes.length < 8 then
      { d with lrd := { d.lrd with openTrip := some { r with causes := r.causes ++ [cause] } } }
    else more d

/-- Bytes 4–59 of a TRIP record that is committed (R509, R511). -/
def tripBody (r : OpenTrip) (pfw : Bool) (endSn : Nat) : List Byte :=
  let flags := b2n (decide (r.slot ≠ 0xFF)) + 2 * b2n pfw
  slice r.hdr 0 17 ++ leBytes 1 flags ++ slice r.hdr 18 2 ++
    leBytes 1 r.cls ++ leBytes 1 r.causes.length ++ slice (r.causes.map (BitVec.ofNat 8)) 0 8 ++ leBytes 1 r.slot ++
    [0] ++ slice (r.details.flatMap (leBytes 4)) 0 12 ++ leBytes 4 r.active ++ leBytes 4 endSn ++ leBytes 4 0

/-- The open TRIP record is committed (R512), and the tail buffer samples again (R514). -/
def Dev.commitTrip (pfw : Bool) (endSn : Nat) (d : Dev) : Dev :=
  match d.lrd.openTrip with
  | none => d
  | some r =>
    ({ d with lrd := { d.lrd with openTrip := none, frozen := false } } : Dev).dueRecord r.seq (tripBody r pfw endSn)

/-- The snapshot being written is finished: its slot holds header and rows (R514). -/
def Dev.finishSnapshot (d : Dev) : Dev :=
  match d.lrd.openSnap with
  | none => d
  | some (k, s) =>
    ({ d with lrd := { d.lrd with openSnap := none, slots := d.lrd.slots.set SnapSlot.reset k s } } : Dev).event
      18 1 k s.seq 0

/-- One row of the tail buffer, sampled once a stroke (R514). -/
def Dev.sampleTail (sn : W32) (d : Dev) : Dev :=
  if d.lrd.frozen then d
  else { d with lrd := { d.lrd with
    tail := ((d.lrdSigs.map d.sig) :: d.lrd.tail).take 256, tailSn := sn } }

end Sys2Proof.Machine
end

