-- ==== Sys2Proof/Machine/Trip.lean ====
section
/-! DEFINITION. Trips: the sources (R162, R168), what a trip does when it takes effect (R163–R167, R25, R376), the
delay of "one stroke", and the resignation that stands in its place on a twin with a ready partner (R368, R369). -/

namespace Sys2Proof.Machine

/-- The class that SUP_TRIP_ROUTE gives an instance of sources 2–6 (R162). -/
def Dev.routeOf (d : Dev) (cause inst : Nat) : TripClass :=
  let r := Reg.SUP_TRIP_ROUTE
  classOf (match cause with
    | 2 => d.fld r (2 * inst + 1) (2 * inst)
    | 3 => d.fld r (2 * inst + 9) (2 * inst + 8)
    | 4 => d.fld r 17 16
    | 5 => d.fld r 19 18
    | _ => d.fld r 21 20)

/-- A routed source with instances `lo` onwards of PWM's 16 sources has an active one (R168). -/
def Dev.routeActive (d : Dev) (cause lo n : Nat) : Bool :=
  (upto n).any fun k => bitAt d.pwm.qual (lo + k) && decide (d.routeOf cause k ≠ .report)

/-- SUP_TRIP_ACTIVE (R168). -/
def Dev.tripActive (d : Dev) : Nat :=
  let urgent := d.mod.subs.cells.any fun c => c.2.urgent
  let points := d.pnt.records.cells.any fun c => d.pointBad c.1
  let badCur := d.currentChans.any fun c => d.chanBad c && !(d.chan c).subst
  let badVolt := d.voltageChans.any fun c => d.chanBad c
  pack [(b2n d.fenceDemand, 1), (b2n (d.routeActive 2 8 4), 2), (b2n (d.routeActive 3 12 4), 3),
    (b2n (d.routeActive 4 0 8), 4), (b2n (urgent && decide (d.routeOf 5 0 ≠ .report)), 5),
    (b2n (points && decide (d.routeOf 6 0 ≠ .report)), 6), (b2n badCur, 7), (b2n badVolt, 8)]

/-- Sets with TRIP_EN are triggered by trips (R324); bit 10 of their trigger mask. -/
def Dev.acqTrip (d : Dev) : Dev :=
  (upto 8).foldl (fun d k => if d.flag (Reg.ACQ_SET_CFG k) 30 then d.acqTrigger k 10 d.now else d) d

/-- GFM_STATUS.CAUSE of a trip's mode change: the two timeouts have codes of their own (R59). -/
def causeOfTrip : Nat → Nat
  | 15 => 3
  | 16 => 13
  | _ => 10

/-- The type of a packet (R359). -/
def packetType : TwinPacket → Nat
  | .mirror _ => 1
  | .drill _ => 2
  | .resign _ _ => 3
  | .trip _ _ => 4
  | .handover _ _ => 5
  | .time _ => 6
  | .train _ => 7
  | .status _ => 8

/-- Hundredths of a tick to a byte, and to a 66-bit block on each of the two lanes (R359). -/
def byteTime : Nat := 16
def blockTime : Nat := 256

/-- A packet of `len` bytes within its frame leaves on the twin link (R359) unless that is idle (R343, R526): after the
packets before it, TRIP from the next 66-bit block on, ahead of what it pre-empts. -/
def Dev.sendLen (p : TwinPacket) (len : Nat) (d : Dev) : Dev :=
  if d.lanesOff then d
  else
    let now := 100 * d.now
    let start := if packetType p = 4 then ceilDiv now blockTime * blockTime else max now d.twn.sentEnd
    let x : SentPacket := { typ := packetType p, sn := d.ang.cur.sn, body := p, bytes := len + 16, leaves := start }
    d.onTwn fun t => { t with
      sent := t.sent ++ [x], sentEnd := (if packetType p = 4 then max start t.sentEnd else start) + byteTime * (len + 16) }

/-- A packet whose length the spec does not give leaves on the twin link. -/
def Dev.send (p : TwinPacket) (d : Dev) : Dev := d.sendLen p (Config.packetBody (packetType p))

/-- The stage of TRIP_HARD: any ramp ends, every submodule is commanded to BLOCK, every pair is safe (R163). -/
def Dev.hardAction (d : Dev) : Dev :=
  (d.onSup fun s => { s with soft := none, softEnd := false, ramp := none, hardHold := true }).blockAll

/-- The stage of TRIP_SOFT: its ramp is in progress from this tick and starts at the next sample instant (R164). -/
def Dev.softAction (cause : Nat) (d : Dev) : Dev :=
  let ramp : SoftRamp := { cause := cause, effTick := d.now, d0 := d.sigI 111, q0 := d.sigI 112, start := none,
                           tSoft := d.fld Reg.SUP_SUB 23 16 * 40000 }
  d.onSup fun s => { s with softEnd := false, soft := some ramp }

/-- The ACTIVE device of a pair tells its partner of a trip (R376). -/
def Dev.sendTrip (cls : TripClass) (cause : Nat) (d : Dev) : Dev :=
  if d.twn.st = .active then d.send (.trip (classCode cls) cause) else d

/-- A further trip during a trip action or in TRIPPED: it is reported as every trip is (R166, R376), counted, and joins the
record of the first (R167). -/
def Dev.tripAlso (cls : TripClass) (cause : Nat) (d : Dev) : Dev :=
  let d := d.sendTrip cls d.sup.causeFirst
  let d := d.onSup fun s => { s with
    causeLast := cause, tripCount := satInc s.tripCount
    causeCount := if s.causeCount < 255 then s.causeCount + 1 else 255 }
  let d := d.onProf fun p => { p with tripHalt := true }
  ((d.event 9 14 cause (classCode cls) 0).irq 28).acqTrip.addCause cls cause

/-- A trip takes effect where none is in progress (R165, R166). -/
def Dev.tripNew (cls : TripClass) (cause : Nat) (details : List Nat) (d : Dev) : Dev :=
  let active := d.tripActive
  let d := d.onSup fun s => { s with
    causeFirst := cause, causeLast := cause, causeCount := 1,
    causeClass := classCode cls, tripCount := satInc s.tripCount, tripTick := some d.now,
    tripCause := causeOfTrip cause, acting := d.ang.cur.angle }
  let d := d.onProf fun p => { p with tripHalt := true }
  let d := d.onGfm fun g => { g with bkrClose := false, pulseEnd := none }
  let d := (d.event 9 14 cause (classCode cls) 0).irq 28
  let d := d.acqTrip.openTrip cls cause details active
  let d := d.sendTrip cls cause
  if !d.ang.cur.angle then
    (if cls = .hard then (d.onSup fun s => { s with ramp := none, hardHold := true }).holdPairs else d).commitTrip false d.ang.cur.sn.toNat
  else if cls = .hard then d.hardAction else d.softAction cause

/-- A trip action is in progress or the device is in TRIPPED (R167). -/
def Dev.tripping (d : Dev) : Bool := d.sup.tripTick.isSome || decide (d.gfm.mode = .tripped)

/-- A trip takes effect during another one: TRIP_HARD ends the ramp of TRIP_SOFT (R25). -/
def Dev.tripFurther (cls : TripClass) (cause : Nat) (d : Dev) : Dev :=
  (if cls = .hard ∧ d.sup.soft.isSome = true ∧ d.sup.softEnd = false then d.hardAction else d).tripAlso cls cause

/-- The instance of a routed source that fired (R537): the first of its details. -/
def instanceOf (cause : Nat) (details : List Nat) : Nat := if 2 ≤ cause ∧ cause ≤ 8 then details.headD 0 else 0

/-- A trip takes effect in this tick (R22, R25, R165–R167). The sources of a twin that does not control the converter
only set SUP events (R365, R376): they are reported as ROUTE_REPORT (DEDUCED). -/
def Dev.takeEffect (cls : TripClass) (cause : Nat) (details : List Nat) (d : Dev) : Dev :=
  if cls = .report then d
  else if !d.controls then d.event 9 15 cause (instanceOf cause details) 0
  else if d.tripping then d.tripFurther cls cause
  else d.tripNew cls cause details

/-- The last stroke sampled: a cause that no evaluation detects counts as detected with it (R162; log 84). -/
def Dev.lastSn (d : Dev) : W32 :=
  match d.ang.jobs.getLast? with
  | some j => j.g.sn
  | none => d.ang.cur.sn

/-- A trip whose action begins at the start of the stroke after stroke `sn`, with which it was detected (R162). -/
def Dev.tripAfter (sn : W32) (cls : TripClass) (cause : Nat) (details : List Nat) (d : Dev) : Dev :=
  if cls = .report then d
  else d.onSup fun s => { s with delayed := s.delayed ++ [{ cause := cause, cls := cls, details := details, sn := sn + 1 }] }

/-- Such a trip that no evaluation detected. -/
def Dev.tripNextStroke (cls : TripClass) (cause : Nat) (details : List Nat) (d : Dev) : Dev :=
  d.tripAfter d.lastSn cls cause details

/-- Such a trip that the evaluation of a stroke detected. -/
def Dev.tripEval (cls : TripClass) (cause : Nat) (details : List Nat) (d : Dev) : Dev :=
  d.tripAfter d.sup.evalSn cls cause details

/-- Delayed trips whose stroke begins, or has begun before they were noted (R162). -/
def Dev.tripDue (sn : W32) (d : Dev) : Dev :=
  let due := d.sup.delayed.filter fun t => !afterSn t.sn sn
  let d := d.onSup fun s => { s with delayed := s.delayed.filter fun t => afterSn t.sn sn }
  due.foldl (fun d t => d.takeEffect t.cls t.cause t.details) d

/-- A routed source qualifies (R162): class 0 only reports. Source 6 waits one stroke. -/
def Dev.routed (cause inst : Nat) (details : List Nat) (d : Dev) : Dev :=
  match d.routeOf cause inst with
  | .report => d.event 9 15 cause inst 0
  | cls => if cause = 6 then d.tripNextStroke cls cause details else d.takeEffect cls cause details

/-! ### Twin states and resignation -/

/-- A change of the twin state (R358). -/
def Dev.setTwin (st : TwinSt) (d : Dev) : Dev :=
  let old := twinCode d.twn.st
  if d.twn.st = st then d
  else ((d.onTwn fun t => { t with st := st }).event 14 0 old (twinCode st) 0).irq 37

/-- Before n_T a device that has taken over commands nothing yet (R371). -/
def Dev.beforeTake (d : Dev) (sn : W32) : Bool := match d.twn.nT with
  | some t => afterSn t sn
  | none => false

/-- The claim of a stroke (R366): TWIN_CLAIM_OUT toggles once, at its first launch. -/
def Dev.claim (sn : W32) (d : Dev) : Dev :=
  if d.ready = true ∧ d.twn.st = .active ∧ d.twn.act ∧ d.twn.lastLaunch ≠ sn then
    d.onTwn fun t => { t with claimOut := !t.claimOut, lastLaunch := sn }
  else d

/-- The partner's last STATUS, over a link that is up, reports STANDBY (R368). -/
def Dev.partnerReady (d : Dev) : Bool :=
  d.twn.linkUp && (match d.twn.partner with
    | some p => decide (p.st = 3)
    | none => false)

/-- The steps of a resignation (R369): RESIGNED and FAULTED devices send LINK_DOWN on their lanes (R227). LOOP pairs repeat
their last compares, those of stroke LAST_SN, in the two strokes after it. -/
def Dev.resign (code : Nat) (d : Dev) : Dev :=
  let lastSn := d.twn.lastLaunch
  let left := if afterSn (lastSn + 3) d.ang.cur.sn then (lastSn + 3 - d.ang.cur.sn).toNat else 0
  let d := d.send (.resign code lastSn)
  let d := d.onTwn fun t => { t with act := false, resignCause := code, repeatLeft := left }
  let d := (d.event 14 3 code lastSn.toNat 0).setTwin .resigned
  d.record 3 0 (leBytes 4 code ++ leBytes 4 lastSn.toNat)

/-- A device resigns for a cause, or acts as `other` where no partner stands ready (R368). -/
def Dev.resignOr (code : Nat) (other : Dev → Dev) (d : Dev) : Dev :=
  if d.twn.st = .active ∧ d.partnerReady = true then d.resign code else other d

end Sys2Proof.Machine
end

