-- ==== Sys2Proof/Machine/Feedback.lean ====
section
/-! DEFINITION. Supervision of the current feedback (R154–R160): declarations of channels, substitutions and the
plausibility model. -/

namespace Sys2Proof.Machine

/-- 0.001 pu in Q7.24, as an exact comparison: |x| > n × 0.001 pu. -/
def aboveMilli (x : Int) (n : Nat) : Bool := decide (n * 2 ^ 24 < x.natAbs * 1000)

/-- MDL_EN. -/
def Dev.mdlEn (d : Dev) : Bool := d.flag Reg.SUP_CTRL 0

/-- The phases that a channel feeds (R155). -/
def Dev.phasesOf (d : Dev) (c : Nat) : List Nat :=
  (upto 3).filter fun x => (entriesOfPhase d.phaseI x).any fun q => decide (d.mapSrc q = some c)

/-- The other channels of the phases that a channel feeds (R157). -/
def Dev.partners (d : Dev) (c : Nat) : List Nat :=
  ((d.phasesOf c).flatMap fun x => d.mapChans (entriesOfPhase d.phaseI x)).filter fun k => !decide (k = c)

/-- A substitution may start for a current channel (R157). -/
def Dev.canSubstitute (d : Dev) (c : Nat) : Bool :=
  d.mdlEn && (d.mapChans [9, 10, 11]).all (fun k => !d.chanBad k) && (d.partners c).all fun k => !d.chanBad k

/-- What makes a channel suspect or failed (R155). -/
inductive Declared where
  | suspect | frozen | failed
deriving DecidableEq, Repr

/-- What follows the declaration of a current channel, detected with stroke `sn` (R157, R159): a substitution, or
cause 7. -/
def Dev.currentDeclared (sn : W32) (c : Nat) (d : Dev) : Dev :=
  if (d.chan c).subst then d
  else if d.canSubstitute c then
    let atOnce : Bool := decide (d.fld Reg.SUP_SUB 7 0 = 0)
    let d := d.setChan c { d.chan c with
      subst := true, started := false, ending := false, substTick := d.now, expired := atOnce }
    if atOnce then (d.event 9 10 c 0 0).tripAfter sn .soft 9 [] else d
  else d.tripAfter sn .hard 7 [c]

/-- A channel is marked suspect or failed, and reported (R155, R160). -/
def Dev.markChan (k : Declared) (c : Nat) (d : Dev) : Dev :=
  let x := d.chan c
  let bit := match k with
    | .suspect => 5 | .frozen => 6 | .failed => 7
  let x := match k with
    | .suspect => { x with suspect := true }
    | .frozen => { x with frozen := true }
    | .failed => { x with failed := true }
  ((d.setChan c x).event 9 bit c 0 0).irq 31

/-- What follows the declaration of a channel (R157, R160). -/
def Dev.reactChan (sn : W32) (c : Nat) (d : Dev) : Dev :=
  let d := if c ∈ d.currentChans then d.currentDeclared sn c else d
  if c ∈ d.voltageChans then d.tripAfter sn .soft 8 [c] else d

/-- Channels are declared suspect or failed together, detected with stroke `sn`: all are marked before what R157 asks of
the others is tested. -/
def Dev.declare (sn : W32) (ds : List (Declared × Nat)) (d : Dev) : Dev :=
  let d := ds.foldl (fun d x => d.markChan x.1 x.2) d
  (ds.map (·.2)).eraseDups.foldl (fun d c => d.reactChan sn c) d

/-- The registers with whose values a substitution goes on (R170): SUP_PLAUS and the model's coefficients. -/
def subRegs : List Nat :=
  Reg.SUP_PLAUS :: ((upto 9).map Reg.SUP_MDL_A ++ (upto 6).map Reg.SUP_MDL_B ++ (upto 3).map Reg.SUP_MDL_L)

/-- A register of the model for channel c: as kept by its substitution, or in force (R170). -/
def Dev.subReg (d : Dev) (c off : Nat) : Nat :=
  match ((d.chan c).kept.find? fun v => decide (v.1 = off)) with
  | some v => v.2
  | none => d.cfg off

/-- Channel c is replaced by its estimate in this stroke (R158). -/
def Dev.replaced (d : Dev) (c : Nat) : Bool := (d.chan c).subst && (d.chan c).started

/-- A substitution starts with this sample instant (R158, R160), with the values in force now (R170). -/
def Dev.startSub (c : Nat) (d : Dev) : Dev :=
  let x := { d.chan c with
    started := true, substTick := d.now, tSub := d.fld Reg.SUP_SUB 7 0 * msTicks
    tSoft := d.fld Reg.SUP_SUB 23 16 * 40000, scale := d.fld Reg.SUP_SUB 15 8
    kept := subRegs.map fun off => (off, d.cfg off) }
  ((((d.setChan c x).onSup fun s => { s with subCnt := satInc s.subCnt }).event 9 8 c 0 0).irq 32)

/-- A substitution is over (R159). -/
def Dev.endSub (c : Nat) (ending : Bool) (d : Dev) : Dev :=
  (d.setChan c { d.chan c with
    subst := false, started := false, expired := false, kept := [], ending := ending }).event 9 9 c 0 0

/-- A sample instant for the substitutions: those declared before it start with it (R158); one that has lasted for T_SUB
plus T_SOFT is over, also where the ramp still lacks its last strokes (R159; log 92, DEDUCED). -/
def Dev.startSubs (d : Dev) : Dev :=
  (upto 56).foldl (fun d c =>
    let x := d.chan c
    if !x.subst then d
    else if x.started then (if x.substTick + x.tSub + x.tSoft ≤ d.now then d.endSub c false else d)
    else if x.substTick < d.now then d.startSub c
    else d) d

/-- A substitution is active (R143, SUP_STATUS.SUBST). -/
def Dev.substActive (d : Dev) : Bool := d.sup.chans.cells.any fun c => c.2.subst && c.2.started

/-! ### The plausibility model (R154) -/

/-- One phase of the model. -/
def Dev.phaseModel (d : Dev) (x : Nat) : ModelPhase := d.sup.model.get ModelPhase.reset x

/-- est_x of a stroke: ŝ0 before the update, in Q7.24. -/
def estOf (m : ModelPhase) : Int := sat 32 (rshr m.s0 8)

/-- A substituted channel that feeds phase x. -/
def Dev.phaseSub (d : Dev) (x : Nat) : Option Nat :=
  (d.mapChans (entriesOfPhase d.phaseI x)).find? fun c => (d.chan c).subst

/-- A coefficient of the model of phase x: that of a substitution in progress there, or the one in force (R170). -/
def Dev.mdlCoef (d : Dev) (x off : Nat) : Int :=
  signed 32 (match d.phaseSub x with
    | some c => d.subReg c off
    | none => d.cfg off)

/-- One row of the state update: the exact sum, rounded once to Q7.32 (R112; DEDUCED). -/
def Dev.modelRow (d : Dev) (x : Nat) (m : ModelPhase) (r u1 u2 g : Int) (i : Nat) : Int :=
  let a (k : Nat) := d.mdlCoef x (Reg.SUP_MDL_A (3 * i + k))
  let b (k : Nat) := d.mdlCoef x (Reg.SUP_MDL_B (2 * i + k))
  sat 40 (rshr (sat 80 (a 0 * m.s0 + a 1 * m.s1 + a 2 * m.s2 +
    (b 0 * u1 + b 1 * u2 + g * d.mdlCoef x (Reg.SUP_MDL_L i) * r) * 2 ^ 8)) 27)

/-- The longest window (N_FROZEN) of estimates, residuals and raw codes. -/
def windowMax : Nat := 255

/-- One stroke of the model of phase x (R154), with its recent estimates and residuals. -/
def Dev.modelStep (x : Nat) (meas u1 u2 : Int) (d : Dev) : Dev :=
  let m := d.phaseModel x
  let est := estOf m
  let r := sat 32 (rshr (meas * 2 ^ 8 - m.s0) 8)
  let good := (d.mapChans (entriesOfPhase d.phaseI x)).all fun c => !d.chanBad c
  let g : Int := if good then 1 else 0
  let m' : ModelPhase := {
    s0 := d.modelRow x m r u1 u2 g 0, s1 := d.modelRow x m r u1 u2 g 1, s2 := d.modelRow x m r u1 u2 g 2
    res := r, est := (est :: m.est).take windowMax, ress := (r :: m.ress).take windowMax }
  d.onSup fun s => { s with model := s.model.set ModelPhase.reset x m' }

/-! ### The tests of stage 1 (R155, R159) -/

/-- max − min of a list. -/
def spread : List Int → Int
  | [] => 0
  | v :: vs => vs.foldl (fun a x => if a < x then x else a) v - vs.foldl (fun a x => if x < a then x else a) v

/-- Over a full window of `n` sample instants the raw code of a channel changed by less than 2 LSB; none where the window
is not full (R155). -/
def Dev.rawStill (d : Dev) (c n : Nat) : Option Bool :=
  let w := (d.chan c).raws.take n
  if w.length = n then some (decide (spread w < 2)) else none

/-- The frozen condition (R155). -/
def Dev.isFrozen (d : Dev) (c : Nat) : Bool :=
  let n := d.fld Reg.SUP_PLAUS 31 24
  decide (d.rawStill c n = some true) && (d.phasesOf c).any fun x =>
    let w := (d.phaseModel x).est.take n
    decide (w.length = n) && aboveMilli (spread w) (d.fld Reg.SUP_PLAUS 15 0)

/-- |r_x| > BAND on every phase that the channel feeds (R155). -/
def Dev.isOver (d : Dev) (c : Nat) : Bool :=
  (d.phasesOf c).all fun x => aboveMilli (d.phaseModel x).res (d.fld Reg.SUP_PLAUS 15 0)

/-- The condition that ends a substitution (R159), with the N_FROZEN and BAND of its start (R170). -/
def Dev.calm (d : Dev) (c : Nat) : Bool :=
  let plaus := d.subReg c Reg.SUP_PLAUS
  let n := bits plaus 31 24
  !(d.chan c).failed && decide (d.rawStill c n = some false) &&
  (d.phasesOf c).all fun x =>
    let w := (d.phaseModel x).ress.take n
    decide (w.length = n) && w.all fun r => !aboveMilli (2 * r) (bits plaus 15 0)

/-- A channel's raw code joins its window, and its run of large residuals is counted. -/
def Dev.noteChan (c : Nat) (raw : Int) (d : Dev) : Dev :=
  let x := d.chan c
  d.setChan c { x with
    raws := (raw :: x.raws).take windowMax, overCnt := if d.isOver c then x.overCnt + 1 else 0 }

/-- What stage 1 declares of a current channel (R155): frozen where it is not failed yet, suspect where it is not suspect
yet (log 65). -/
def Dev.judged (d : Dev) (c : Nat) : List (Declared × Nat) :=
  let x := d.chan c
  (if !x.frozen && !x.failed && d.isFrozen c then [(Declared.frozen, c)] else []) ++
  (if !x.suspect && decide (d.fld Reg.SUP_PLAUS 23 16 ≤ x.overCnt) then [(Declared.suspect, c)] else [])

/-- A current channel that meets the condition of R159 is good again, and its substitution ends (DEDUCED where none
runs). -/
def Dev.settleChan (c : Nat) (d : Dev) : Dev :=
  let x := d.chan c
  if (d.chanBad c || x.subst) && d.calm c then
    let d := d.setChan c { x with suspect := false, frozen := false, overCnt := 0 }
    if x.subst then d.endSub c true else d
  else d

/-- The full limit returns in the stroke after the one in which a substitution has ended (R159). -/
def Dev.endSubLimits (d : Dev) : Dev :=
  (d.sup.chans.cells.map (·.1)).foldl (fun d c =>
    if (d.chan c).ending then d.setChan c { d.chan c with ending := false } else d) d

/-- The model of every phase and the tests of every current channel (R154, R155, R159), while MDL_EN = 1; where a
substitution is in progress, those of its channel and phases go on without it (R170). -/
def Dev.plausibility (sn : W32) (raw : Nat → Int) (meas u1 u2 : Nat → Int) (d : Dev) : Dev :=
  let runs (x : Nat) : Bool := d.mdlEn || (d.phaseSub x).isSome
  let cs := d.currentChans.eraseDups.filter fun c => d.mdlEn || (d.chan c).subst
  let d := ((upto 3).filter runs).foldl (fun d x => d.modelStep x (meas x) (u1 x) (u2 x)) d
  let d := cs.foldl (fun d c => d.noteChan c (raw c)) d
  let news := if d.mdlEn then cs.flatMap d.judged else []
  let d := d.declare sn news
  (cs.filter fun c => news.all fun v => v.2 ≠ c).foldl (fun d c => d.settleChan c) d

end Sys2Proof.Machine
end

