-- ==== Sys2Proof/Machine/TripInputs.lean ====
section
/-! DEFINITION. The 16 trip sources of the PWM block (R214–R218): their conditions, qualification, blanking, the local
action, and what is passed on to SUP. -/

namespace Sys2Proof.Machine

open Host

/-- SUP cause and instance of source n (R214). -/
def sourceCause (n : Nat) : Nat × Nat := if n < 8 then (4, n) else if n < 12 then (2, n - 8) else (3, n - 12)

/-- EN and PAIRS of source n. -/
def Dev.srcEn (d : Dev) (n : Nat) : Bool := d.flag (Reg.PWM_TSRC n) 31
def Dev.srcPairs (d : Dev) (n : Nat) : Nat := d.fld (Reg.PWM_TSRC n) 11 0

/-- Blanking timer k runs (R217). -/
def Dev.blankRuns (d : Dev) (k : Nat) : Bool := match d.pwm.timers.get none k with
  | none => false
  | some t => decide (d.now < t)

/-- Source n does not qualify now because its timer runs (R217). -/
def Dev.srcBlanked (d : Dev) (n : Nat) : Bool :=
  d.flag (Reg.PWM_TSRC n) 28 && !d.flag (Reg.PWM_TSRC n) 29 && d.blankRuns (d.fld (Reg.PWM_TSRC n) 26 24)

/-- A source forces its pairs into their safe states and latches them (R216). -/
def Dev.latchPairs (n : Nat) (d : Dev) : Dev :=
  (upto 12).foldl (fun d p =>
    if bitAt (d.srcPairs n) p then
      let d := d.setPair p { d.pair p with latch := (d.pair p).latch ||| 2 ^ n }
      if (d.pair p).safe then d else d.pairSafe p
    else d) d

/-- The sources of a mask qualify, those that are enabled and have not qualified yet (R215, R216). Local trips of one tick are
recorded together, with one event. -/
def Dev.qualify (mask : Nat) (d : Dev) : Dev :=
  let ns := (upto 16).filter fun n => bitAt mask n && d.srcEn n && !bitAt d.pwm.qual n
  let locals := ns.filter fun n => decide (d.srcPairs n ≠ 0)
  let d := d.onPwm fun s => { s with qual := ns.foldl (fun m n => m ||| 2 ^ n) s.qual }
  let d := locals.foldl (fun d n => d.latchPairs n) d
  let d := match locals with
    | [] => d
    | n :: _ =>
      let again : Bool := d.pwm.tripTick == some d.now
      let d := d.onPwm fun s => { s with
        tripSnap := locals.foldl (fun m k => m ||| 2 ^ k) (if again then s.tripSnap else 0), tripTick := some d.now }
      if again then d else (d.event 10 1 n 0 0).irq 53
  ns.foldl (fun d n => d.routed (sourceCause n).1 (sourceCause n).2 [(sourceCause n).2]) d

/-- Sources whose condition is present and not blanked qualify. -/
def Dev.requalify (d : Dev) : Dev :=
  d.qualify (((upto 16).filter fun n => bitAt d.pwm.cond n && !d.srcBlanked n).foldl (fun m n => m ||| 2 ^ n) 0)

/-- The conditions of some sources begin in this tick (R214, R217). -/
def Dev.beginConds (mask : Nat) (d : Dev) : Dev :=
  (d.onPwm fun s => { s with cond := s.cond ||| mask }).requalify

/-- The condition of source n ends: it is no longer active (R168); one that never left a blanking window is lost
(R218). -/
def Dev.endCond (n : Nat) (d : Dev) : Dev :=
  if !bitAt d.pwm.cond n then d
  else d.onPwm fun s => { s with
    cond := s.cond - 2 ^ n
    qual := if bitAt s.qual n then s.qual - 2 ^ n else s.qual
    lost := if bitAt s.qual n || !d.srcEn n then s.lost else s.lost ++ [n] }

/-- TRIP_IN_n is at the level `active` or not (POL, R214), and has been for FILT ticks (R215). -/
def Dev.pinCounts (d : Dev) (n : Nat) (active : Bool) : Bool :=
  let p := d.pwm.pins.get PinLevel.reset n
  ((p.level != d.flag (Reg.PWM_TSRC n) 30) == active) && decide (p.since + d.fld (Reg.PWM_TSRC n) 20 16 ≤ d.now)

/-- The pins whose active level counts. -/
def Dev.activePins (d : Dev) : Nat := pack ((upto 8).map fun n => (b2n (d.pinCounts n true), n))

/-- LOCAL_TRIP (R216): the named sources whose conditions are present qualify in this tick. A pin's condition is its active
level after its filter (R215); a comparator's is that its bank or group is outside (R311). -/
def Dev.localTrip (conds : Nat) (d : Dev) : Dev := d.beginConds (conds &&& (d.activePins ||| d.pwm.cond))

/-- LOCAL_TRIP (R216). -/
def execLocalTrip (conds : BitVec 16) (s : State) : Outcome State Fault Refusal :=
  .next (s.run (Dev.localTrip conds.toNat))

/-- TRIP_INPUT_RELEASE (R168): the pin's inactive level counts (R215). -/
def Dev.pinRelease (n : Nat) (d : Dev) : Dev := if d.pinCounts n false then d.endCond n else d

/-- TRIP_INPUT_RELEASE (R168). -/
def execTripInputRelease (pin : Fin 8) (s : State) : Outcome State Fault Refusal := .next (s.run (Dev.pinRelease pin.val))

/-- BLANK_END (R218): the timer has run out; what is still present qualifies, what was lost is counted. -/
def Dev.blankEnd (k : Nat) (d : Dev) : Dev :=
  match d.pwm.timers.get none k with
  | none => d
  | some t =>
    if d.now < t then d
    else
      let mine (n : Nat) : Bool := decide (d.fld (Reg.PWM_TSRC n) 26 24 = k)
      let gone := d.pwm.lost.filter mine
      let d := d.onPwm fun s => { s with
        timers := s.timers.set none k none, lost := s.lost.filter (fun n => !mine n)
        blankCnt := satAdd s.blankCnt gone.length }
      (gone.foldl (fun d n => d.event 10 2 n 0 0) d).requalify

/-- BLANK_END (R218). -/
def execBlankEnd (t : Fin 8) (s : State) : Outcome State Fault Refusal := .next (s.run (Dev.blankEnd t.val))

end Sys2Proof.Machine
end

