-- ==== Sys2Proof/Machine/Sensing.lean ====
section
/-! DEFINITION. Sensing (R300–R315): enabled channels, the sigma-delta filters, calibration, window and sinc2
comparators, and failed channels. Entry e is SAR channel e below 24 and sigma-delta channel e − 24 above. -/

namespace Sys2Proof.Machine

open Host

/-- A SAR channel. -/
def Dev.sar (d : Dev) (c : Nat) : SarChan := d.adc.sar.get SarChan.reset c

/-- A SAR channel replaced. -/
def Dev.setSar (c : Nat) (v : SarChan) (d : Dev) : Dev := d.onAdc fun a => { a with sar := a.sar.set SarChan.reset c v }

/-- A sigma-delta channel. -/
def Dev.sd (d : Dev) (c : Nat) : SdChan := d.adc.sd.get SdChan.reset c

/-- A sigma-delta channel replaced. -/
def Dev.setSd (c : Nat) (v : SdChan) (d : Dev) : Dev := d.onAdc fun a => { a with sd := a.sd.set SdChan.reset c v }

/-- Enabled channels (R306). -/
def Dev.sarOn (d : Dev) (c : Nat) : Bool := d.flag Reg.ADC_SAR_EN c
def Dev.sdGroupOn (d : Dev) (g : Nat) : Bool := d.flag (Reg.ADC_SD_GRP g) 31
def Dev.sdOn (d : Dev) (c : Nat) : Bool := d.flag (Reg.ADC_SD_CH c) 31 && d.sdGroupOn (c / 8)

/-- Entry e is enabled: it is a fitted channel of R129. -/
def Dev.entryOn (d : Dev) (e : Nat) : Bool := if e < 24 then d.sarOn e else d.sdOn (e - 24)

/-- Entry e is failed (R312, R313). -/
def Dev.entryFailed (d : Dev) (e : Nat) : Bool := if e < 24 then (d.sar e).failed else (d.sd (e - 24)).failed

/-- Entry e waits for the result of the last sample instant (R129). -/
def Dev.entryDue (d : Dev) (e : Nat) : Bool := if e < 24 then (d.sar e).due else (d.sd (e - 24)).due

/-- k of OSR3 and of OSR2. -/
def Dev.osr3 (d : Dev) (c : Nat) : Nat := d.fld (Reg.ADC_SD_CH c) 26 24
def Dev.osr2 (d : Dev) (c : Nat) : Nat := d.fld (Reg.ADC_SD_CH c) 18 16

/-! ### Calibration (R307) -/

/-- OFS and GAIN in force of an entry. -/
def Dev.calib (d : Dev) (e : Nat) : Calib := d.adc.cal.get Calib.reset e

/-- X of an entry's control-path code, saturated to 24 bits. -/
def Dev.alignX (d : Dev) (e : Nat) (raw : Int) : Int :=
  if e < 24 then sat 24 (raw * 2 ^ 8)
  else
    let k := 3 * d.osr3 (e - 24)
    sat 24 (if k ≤ 24 then raw * 2 ^ (24 - k) else raw / 2 ^ (k - 24))

/-- The signal of an entry for a code X. -/
def Dev.calibrate (d : Dev) (e : Nat) (x : Int) : W32 :=
  sat32 (rshr ((x - (d.calib e).ofs.toInt) * (d.calib e).gain.toInt) 23)

/-- The raw code of an entry at the last sample instant. -/
def Dev.rawCode (d : Dev) (e : Nat) : Int := if e < 24 then (d.sar e).raw else (d.sd (e - 24)).raw

/-- The signal that a failed entry holds (R314). -/
def Dev.entryHeld (d : Dev) (e : Nat) : W32 := if e < 24 then (d.sar e).held else (d.sd (e - 24)).held

/-- SIG_e for the code of the last sample instant; 0 where the channel is not enabled (R306), the last valid value where
it is failed (R314). -/
def Dev.entrySignal (d : Dev) (e : Nat) : W32 :=
  if !d.entryOn e then 0
  else if d.entryFailed e then d.entryHeld e
  else d.calibrate e (d.alignX e (d.rawCode e))

/-- Comparator code of a value X (R309). -/
def Dev.comparator (d : Dev) (e : Nat) (x : Int) : Int := sat 16 ((x - (d.calib e).ofs.toInt) / 256)

/-- A code lies outside the two 16-bit thresholds of a register. -/
def Dev.outside (d : Dev) (off : Nat) (c : Int) : Bool :=
  decide (signed 16 (d.fld off 31 16) < c ∨ c < signed 16 (d.fld off 15 0))

/-! ### The sigma-delta filters (R304, R305) -/

/-- n(n−1)/2. -/
def pairs2 (n : Nat) : Nat := n * (n - 1) / 2

/-- Weight i of a sinc3 filter: the coefficient of z^−i in (1 + … + z^−(n−1))³. -/
def sinc3Weight (n i : Nat) : Nat := pairs2 (i + 2) + 3 * pairs2 (i + 2 - 2 * n) - 3 * pairs2 (i + 2 - n)

/-- Weight i of a sinc2 filter. -/
def sinc2Weight (n i : Nat) : Nat := if i < n then i + 1 else 2 * n - 1 - i

/-- The weighted sum over the captured bits from index `i` on; a bit older than the history belongs to the alternating
bits of a restart (R316). -/
def filterSum (w : Nat → Nat) (phase : Bool) : List Bool → Nat → Nat → Nat
  | _, _, 0 => 0
  | b :: rest, i, n + 1 => (if b then w i else 0) + filterSum w phase rest (i + 1) n
  | [], i, n + 1 => (if phase then w i else 0) + filterSum w (!phase) [] (i + 1) n

/-- S3 − OSR3³/2 of a channel (R304). -/
def Dev.sinc3 (d : Dev) (c : Nat) : Int :=
  let n := 2 ^ d.osr3 c
  (filterSum (sinc3Weight n) (Config.sdPhase c) (d.sd c).bits 0 (3 * n - 2) : Int) - (n ^ 3 / 2 : Nat)

/-- S2 − OSR2²/2 of a channel (R305). -/
def Dev.sinc2 (d : Dev) (c : Nat) : Int :=
  let n := 2 ^ d.osr2 c
  (filterSum (sinc2Weight n) (Config.sdPhase c) (d.sd c).bits 0 (2 * n - 1) : Int) - (n ^ 2 / 2 : Nat)

/-- X of a channel's sinc2 value (R307). -/
def Dev.sinc2X (d : Dev) (c : Nat) : Int := sat 24 ((d.sd c).s2 * 2 ^ (24 - 2 * d.osr2 c))

/-- The level at which the device drives SD_CLK_g (R303): high for ceil(DIV/2) ticks from every multiple of DIV, low for the
rest; not driven while the group is disabled, and low until READY (R526). -/
def Dev.sdClk (d : Dev) (g : Nat) : Option Bool :=
  let div := d.fld (Reg.ADC_SD_GRP g) 5 0
  if !d.ready then some false
  else if d.sdGroupOn g && decide (div ≠ 0) then some (decide (d.tickCount % div < ceilDiv div 2)) else none

/-- This tick is a capture edge of group g (R303): DLY ticks after the selected edge of SD_CLK_g. -/
def Dev.captureEdge (d : Dev) (g : Nat) : Bool :=
  let r := Reg.ADC_SD_GRP g
  let div := d.fld r 5 0
  let edge := if d.flag r 30 then ceilDiv div 2 else 0
  let ofs := edge + d.fld r 18 16
  d.ready && d.sdGroupOn g && decide (div ≠ 0 ∧ ofs ≤ d.tickCount ∧ (d.tickCount - ofs) % div = 0)

/-- A clipped result (R315). -/
def Dev.clip (e : Nat) (d : Dev) : Dev :=
  (d.onAdc fun a => { a with clipCnt := satInc a.clipCnt }).event 7 4 e 0 0

/-- The sinc3 evaluation that a sample instant asks for (R304). A failed channel keeps its code (R314). -/
def Dev.evalSinc3 (c : Nat) (d : Dev) : Dev :=
  let x := d.sd c
  let raw := d.sinc3 c
  let k := 3 * d.osr3 c
  let d := d.setSd c { x with due := false, raw := if x.failed then x.raw else raw }
  if k ≤ 24 ∧ sat 24 (raw * 2 ^ (24 - k)) ≠ raw * 2 ^ (24 - k) then d.clip (24 + c) else d

/-- A sinc2 evaluation and the run of the fast comparator (R310). -/
def Dev.evalSinc2 (c : Nat) (d : Dev) : Dev :=
  let d := d.setSd c { d.sd c with s2 := d.sinc2 c }
  let x := d.sd c
  if x.failed || !d.flag (Reg.ADC_SD_CH c) 0 then d
  else
    let out := d.outside (Reg.ADC_SD_TH c) (d.comparator (24 + c) (d.sinc2X c))
    d.setSd c { x with run := if out = x.decision then 0 else x.run + 1 }

/-- An input with a transition within the last 640 ticks (R312, R314). -/
def Dev.lively (d : Dev) (since : Nat) : Bool := decide (d.now < since + 640)

/-- The pad read-back of SD_CLK_g. -/
def Dev.clkPad (d : Dev) (g : Nat) : PinLevel := d.adc.clk.get PinLevel.reset g

/-- One tick of one enabled sigma-delta channel: its level, and at a capture edge its bit and its filters. A failed channel
counts the capture edges on which clock and data are lively (R314). -/
def Dev.sdChannelTick (c : Nat) (level edge : Bool) (d : Dev) : Dev :=
  let x := d.sd c
  let x := if level = x.level then x else { x with level := level, lastChange := d.now }
  if !edge then d.setSd c x
  else
    let active : Bool := d.lively x.lastChange && d.lively (d.clkPad (c / 8)).since
    let x := { x with bits := (level :: x.bits).take 766, good := if x.failed && active then x.good + 1 else 0 }
    let d := (d.setSd c x).evalSinc2 c
    if (d.sd c).due then d.evalSinc3 c else d

/-- The pad read-back of SD_CLK_g in a tick: a transition ends CLK_LOST (R312; DEDUCED from the bit's meaning). -/
def Dev.clkTick (g : Nat) (level : Bool) (d : Dev) : Dev :=
  let p := d.clkPad g
  if level = p.level then d
  else d.onAdc fun a => { a with
    clk := a.clk.set PinLevel.reset g (p.at level d.now)
    groups := if bitAt a.groups g then a.groups - 2 ^ g else a.groups }

/-- One tick of the sigma-delta inputs and of the clocks' read-backs. -/
def Dev.sdTick (levels : BitVec 32) (clk : BitVec 4) (d : Dev) : Dev :=
  let d := (upto 4).foldl (fun d g => d.clkTick g (clk.getLsbD g)) d
  (upto 4).foldl (fun d g =>
    if d.sdGroupOn g then
      let edge := d.captureEdge g
      (upto 8).foldl (fun d k =>
        let c := 8 * g + k
        if d.sdOn c then d.sdChannelTick c (levels.getLsbD c) edge else d) d
    else d) d

/-- Every enabled SAR channel samples in this tick (R301); one whose last sample still has no result has missed it (R313,
R314). -/
def Dev.sarPoint (d : Dev) : Dev :=
  (upto 24).foldl (fun d c =>
    if d.sarOn c then
      let x := d.sar c
      let miss := x.missing || x.waits.isSome
      d.setSar c { x with waits := some d.now, missing := miss && !x.failed, good := if x.waits.isSome then 0 else x.good }
    else d) d

/-- A sample instant for the converters (R301, R304), for stroke `sn`: every enabled channel owes a result; a filter whose
capture edge falls in this tick is evaluated at once. -/
def Dev.sampleConverters (sn : W32) (next : Nat) (d : Dev) : Dev :=
  let d := (upto 24).foldl (fun d c => if d.sarOn c && !(d.sar c).failed then
    d.setSar c { d.sar c with due := true } else d) d.sarPoint
  let d := (upto 32).foldl (fun d c => if d.sdOn c && !(d.sd c).failed then
    (if d.captureEdge (c / 8) then d.evalSinc3 c else d.setSd c { d.sd c with due := true }) else d) d
  d.onAdc fun a => { a with gridTick := d.now, gridEnd := next - 200, gridSn := sn }

/-- The conversion grid reaches to the next sample instant, which a boundary may have moved (R301, R31). -/
def Dev.regrid (next : Nat) (d : Dev) : Dev := d.onAdc fun a => { a with gridEnd := next - 200 }

/-! ### Decisions (R309–R311) -/

/-- Channels of a bank or group with a decision that is set. -/
def Dev.bankOutside (d : Dev) (b : Nat) : Bool := (upto 6).any fun k => (d.sar (6 * b + k)).decision
def Dev.groupOutside (d : Dev) (g : Nat) : Bool := (upto 8).any fun k => (d.sd (8 * g + k)).decision

/-- A decision of entry e has changed: events, the snapshot, and the source of its bank or group (R311). -/
def Dev.decided (e : Nat) (set : Bool) (d : Dev) : Dev :=
  let src := if e < 24 then 8 + e / 6 else 12 + (e - 24) / 8
  if set then
    let d := (d.onAdc fun a => { a with tripCh := e }).event 7 (if e < 24 then 0 else 1) (if e < 24 then e else e - 24) 0 0
    d.beginConds (2 ^ src)
  else if (if e < 24 then d.bankOutside (e / 6) else d.groupOutside ((e - 24) / 8)) then d
  else d.endCond src

/-- The window comparator of one conversion (R309). -/
def Dev.windowStep (c : Nat) (raw : Int) (d : Dev) : Dev :=
  if !d.flag Reg.ADC_WIN_EN c then d
  else
    let x := d.sar c
    let out := d.outside (Reg.ADC_WIN c) (d.comparator c (sat 24 (raw * 2 ^ 8)))
    let b := c / 6
    if out = x.decision then d.setSar c { x with run := 0 }
    else if d.fld Reg.ADC_WIN_CFG (2 * b + 1) (2 * b) + 1 ≤ x.run + 1 then
      (d.setSar c { x with run := 0, decision := out }).decided c out
    else d.setSar c { x with run := x.run + 1 }

/-- SINC2_DECISION (R310): FQ evaluations in a row differ from the decision. -/
def Dev.sinc2Decision (c : Nat) (d : Dev) : Dev :=
  let x := d.sd c
  if d.sdOn c && !x.failed && decide (d.fld (Reg.ADC_SD_CH c) 11 8 + 1 ≤ x.run) then
    (d.setSd c { x with run := 0, decision := !x.decision }).decided (24 + c) (!x.decision)
  else d

/-- SINC2_DECISION (R310). -/
def execSinc2Decision (ch : Fin 32) (s : State) : Outcome State Fault Refusal :=
  .next (s.run (Dev.sinc2Decision ch.val))

/-! ### Failed channels (R312–R314) -/

/-- A channel is failed: it holds its code and its signal (R314). -/
def Dev.failEntry (d : Dev) (e : Nat) : Dev :=
  let held := d.entrySignal e
  let d := if e < 24 then d.setSar e { d.sar e with
      failed := true, held := held, due := false, missing := false, run := 0, good := 0 }
    else d.setSd (e - 24) { d.sd (e - 24) with failed := true, held := held, due := false, run := 0, good := 0 }
  d.onAdc fun a => { a with failCnt := satInc a.failCnt }

/-- Enabled channels are declared failed together, and SUP learns of them (R314, R155). -/
def Dev.failEntries (es : List Nat) (d : Dev) : Dev :=
  let new := es.filter fun e => d.entryOn e && !d.entryFailed e
  (new.foldl Dev.failEntry d).declare d.lastSn (new.map fun e => (Declared.failed, e))

/-- One of some entries is an enabled channel that has not been declared failed. -/
def Dev.anyNew (es : List Nat) (d : Dev) : Bool := es.any fun e => d.entryOn e && !d.entryFailed e

/-- SD_CLOCK_LOST (R312): the read-back of SD_CLK_g has shown no transition for 640 ticks; a channel that has been enabled
since is declared failed too. -/
def Dev.sdClockLost (g : Nat) (d : Dev) : Dev :=
  let es := (upto 8).map (24 + 8 * g + ·)
  if !d.sdGroupOn g || (bitAt d.adc.groups g && !d.anyNew es) || d.lively (d.clkPad g).since then d
  else ((d.onAdc fun a => { a with groups := a.groups ||| 2 ^ g }).event 7 3 g 0 0).failEntries es

/-- SD_CLOCK_LOST (R312). -/
def execSdClockLost (g : Fin 4) (s : State) : Outcome State Fault Refusal := .next (s.run (Dev.sdClockLost g.val))

/-- SD_DATA_LOST (R312): SD_DAT_c of an enabled channel has shown no transition for 640 ticks. -/
def Dev.sdDataLost (c : Nat) (d : Dev) : Dev :=
  let x := d.sd c
  if d.sdOn c && !x.failed && !d.lively x.lastChange then (d.event 7 3 c 0 0).failEntries [24 + c] else d

/-- SD_DATA_LOST (R312). -/
def execSdDataLost (ch : Fin 32) (s : State) : Outcome State Fault Refusal := .next (s.run (Dev.sdDataLost ch.val))

/-- SAR_BANK_FAIL (R313): a conversion is missing 192 ticks after its sample, or the bank's reference is off; a channel that
has been enabled since is declared failed too. -/
def Dev.sarBankFail (b : Nat) (reference : Bool) (d : Dev) : Dev :=
  let chans := (upto 6).map (6 * b + ·)
  let missing : Bool := chans.any fun c => d.sarOn c && ((d.sar c).missing || (d.sar c).waits.any fun t => decide (t + 192 ≤ d.now))
  if (bitAt d.adc.banks b && !d.anyNew chans) || !(reference || missing) then d
  else
    let d := (d.onAdc fun a => { a with banks := a.banks ||| 2 ^ b }).event 7 2 b 0 0
    d.failEntries chans

/-- SAR_BANK_FAIL (R313). -/
def execSarBankFail (b : Fin 4) (reference : Bool) (s : State) : Outcome State Fault Refusal :=
  .next (s.run (Dev.sarBankFail b.val reference))

/-- A channel stops being failed (R314). -/
def Dev.recoverEntry (e : Nat) (d : Dev) : Dev :=
  let d := if e < 24 then d.setSar e { d.sar e with failed := false, good := 0 }
    else d.setSd (e - 24) { d.sd (e - 24) with failed := false, good := 0 }
  d.setChan e { d.chan e with failed := false }

/-- CHANNEL_RECOVER (R314): 64 capture edges with lively clock and data, or 16 valid conversions of a whole bank. -/
def Dev.channelRecover (e : Nat) (d : Dev) : Dev :=
  if !d.entryFailed e then d
  else if e < 24 then
    let chans := ((upto 6).map (6 * (e / 6) + ·)).filter fun c => d.sarOn c
    if chans.all fun c => decide (16 ≤ (d.sar c).good) then
      (chans.foldl (fun d c => d.recoverEntry c) (d.onAdc fun a => { a with banks := a.banks &&& (15 - 2 ^ (e / 6)) })).event
        7 5 e 0 0
    else d
  else if 64 ≤ (d.sd (e - 24)).good then
    (d.recoverEntry e).event 7 5 e 0 0
  else d

/-- CHANNEL_RECOVER (R314). -/
def execChannelRecover (ch : Fin 56) (s : State) : Outcome State Fault Refusal := .next (s.run (Dev.channelRecover ch.val))

/-! ### Registers -/

/-- The bits 0–55 of a property of the entries. -/
def entryBits (f : Nat → Bool) : Nat := (upto 56).foldl (fun n e => if f e then n + 2 ^ e else n) 0

/-- ADC_SNAP (R9). -/
def Dev.adcSnap (v : W32) (d : Dev) : Dev :=
  if v.getLsbD 0 then
    (d.snapAll [(Reg.ADC_CLIP_CNT_SNAP, d.adc.clipCnt), (Reg.ADC_FAIL_CNT_SNAP, d.adc.failCnt),
      (Reg.ADC_TRIP_CH_SNAP, d.adc.tripCh)]).snapAll
      ((upto 56).map fun e => (Reg.ADC_RAW_SNAP e, (d.adc.rawDone.getD e 0).toNat))
  else d

/-- ADC_SNAP (R9). -/
def execAdcSnap (v : W32) (s : State) : Outcome State Fault Refusal := .next (s.run (Dev.adcSnap v))

end Sys2Proof.Machine
end

