-- ==== Sys2Proof/Machine/Capture.lean ====
section
/-! DEFINITION. Disturbance capture (R319–R337): what a sample holds, the trigger units, delivery under the sieve, and
the commands. -/

namespace Sys2Proof.Machine

open Host

/-! ### Sources (R319) -/

/-- Furrow summary of an arm. -/
def armSummary (r : Arm) : W32 :=
  BitVec.ofNat 32 (pack [(b2n r.tiller.isSome, 31), (b2n r.polNeg, 30), (r.tiller.getD 0 % 1024, 20),
    (r.edges % 128, 13), (r.nIns % 512, 0)])

/-- The word of a source (R319, R321); `conv` at the rate of the conversions, where a furrow is that of the stroke in
progress. -/
def Dev.acqWord (d : Dev) (conv : Bool) (kind idx : Nat) : W32 :=
  match kind with
  | 0 => d.sig idx
  | 1 => if conv && decide (24 ≤ idx) then BitVec.ofInt 32 (d.sinc2X (idx - 24)) else BitVec.ofInt 32 (d.rawCode idx)
  | 2 => armSummary (if conv then d.mod.shown.arms.getD idx Arm.reset else d.mod.arms.get Arm.reset idx)
  | _ => BitVec.ofNat 32 (d.pwm.pairs.get PwmPair.reset idx).w

/-- KIND and INDEX of a channel. -/
def Dev.acqSource (d : Dev) (n : Nat) : Nat × Nat := (d.fld (Reg.ACQ_CH n) 13 12, d.fld (Reg.ACQ_CH n) 8 0)

/-- A sample of a set. -/
def Dev.acqSample (k : Nat) (conv : Bool) (tick : Nat) (sn theta : W32) (d : Dev) : AcqSample :=
  { tick := tick, count := ((tick : Int) + d.ang.tickBase).toNat, sn := sn, theta := theta
    words := (d.asetChans k).map fun n => d.acqWord conv (d.acqSource n).1 (d.acqSource n).2 }

/-- RATE of a set. -/
def Dev.asetConv (d : Dev) (k : Nat) : Bool := d.flag (Reg.ACQ_SET_CFG k) 28

/-- A value of a source that was not known when a sample was taken is entered in the samples that `pick` names: the
furrow, the width or the code belongs to them (R321). -/
def Dev.acqPatch (conv : Bool) (pick : AcqSample → Bool) (kind idx : Nat) (v : W32) (d : Dev) : Dev :=
  (upto 8).foldl (fun d k =>
    if !d.asetEn k || d.asetConv k != conv then d
    else
      let hits := (d.asetChans k).map fun n => decide (d.acqSource n = (kind, idx))
      if hits.all (fun h => !h) then d
      else
        let fix (s : AcqSample) : AcqSample :=
          if pick s then { s with words := (s.words.zip hits).map fun w => if w.2 then v else w.1 } else s
        let fixRec (r : AcqRecord) : AcqRecord := { r with samples := r.samples.map fix }
        let x := d.aset k
        d.setAset k { x with pre := x.pre.map fix, cur := x.cur.map fixRec, closed := x.closed.map fixRec }) d

/-! ### Trigger units (R323) -/

/-- A trigger unit. -/
def Dev.aunit (d : Dev) (u : Nat) : AcqUnit := d.acq.units.get AcqUnit.reset u

/-- A trigger unit replaced. -/
def Dev.setAunit (u : Nat) (v : AcqUnit) (d : Dev) : Dev :=
  d.onAcq fun a => { a with units := a.units.set AcqUnit.reset u v }

/-- Unit u fires at tick t: it triggers the sets that name it (R323, R325). -/
def Dev.fireUnit (u t : Nat) (d : Dev) : Dev :=
  (upto 8).foldl (fun d k => if bitAt (d.fld (Reg.ACQ_SET_CFG k) 15 8) u then d.acqTrigger k u t else d) d

/-- The parameters of a unit. -/
structure UnitCfg where
  outside : Bool
  pol : Bool
  la : Int
  lb : Int
  t1 : Nat
  t2 : Nat
deriving DecidableEq, Repr

/-- A duration lies in the unit's window: T1 ≤ w ≤ T2, or w < T1 with OUTSIDE. -/
def UnitCfg.fits (c : UnitCfg) (w : Nat) : Bool := if c.outside then decide (w < c.t1) else decide (c.t1 ≤ w ∧ w ≤ c.t2)

/-- PULSE: the new state, and whether the unit fires. -/
def pulseUnit (c : UnitCfg) (x : AcqUnit) (level : Bool) (t : Nat) : AcqUnit × Bool :=
  if level then
    let since := if x.inLevel then x.since else t
    let fire := c.outside && decide (c.t2 < t - since) && !(x.inLevel && x.fired)
    ({ x with inLevel := true, since := since, fired := (x.inLevel && x.fired) || fire }, fire)
  else ({ x with inLevel := false, fired := false }, x.inLevel && c.fits (t - x.since))

/-- RUNT. -/
def runtUnit (c : UnitCfg) (x : AcqUnit) (v : Int) : AcqUnit × Bool :=
  let entered : Bool := if c.pol then decide (v < c.lb) else decide (c.la < v)
  let far : Bool := if c.pol then decide (v < c.la) else decide (c.lb < v)
  if entered then ({ x with going := true, beyond := (x.going && x.beyond) || far }, false)
  else ({ x with going := false, beyond := false }, x.going && !x.beyond)

/-- TIMEOUT. -/
def timeoutUnit (c : UnitCfg) (x : AcqUnit) (level : Bool) (t : Nat) : AcqUnit × Bool :=
  if level then
    let since := if x.inLevel then x.since else t
    let was := x.inLevel && x.fired
    let fire := decide (c.t1 < t - since) && !was
    ({ x with inLevel := true, since := since, fired := was || fire }, fire)
  else ({ x with inLevel := false, fired := false }, false)

/-- SLEW. -/
def slewUnit (c : UnitCfg) (x : AcqUnit) (v : Int) (t : Nat) : AcqUnit × Bool :=
  let atStart : Bool := if c.pol then decide (c.lb ≤ v) else decide (v ≤ c.la)
  let atEnd : Bool := if c.pol then decide (v ≤ c.la) else decide (c.lb ≤ v)
  if atStart then ({ x with going := true, goStart := t, fired := false }, false)
  else if !x.going then (x, false)
  else if atEnd then ({ x with going := false, fired := false },
    c.fits (t - x.goStart) || (c.outside && decide (c.t2 < t - x.goStart) && !x.fired))
  else
    let fire := c.outside && decide (c.t2 < t - x.goStart) && !x.fired
    ({ x with fired := x.fired || fire }, fire)

/-- One evaluation of unit u with the value v at tick t. -/
def Dev.evalUnit (u : Nat) (v : Int) (t : Nat) (d : Dev) : Dev :=
  let r := Reg.ACQ_UNIT_CFG u
  let c : UnitCfg := { outside := d.flag r 27, pol := d.flag r 26, la := signed 32 (d.cfg (Reg.ACQ_UNIT_LA u)),
                       lb := signed 32 (d.cfg (Reg.ACQ_UNIT_LB u)), t1 := d.cfg (Reg.ACQ_UNIT_T1 u),
                       t2 := d.cfg (Reg.ACQ_UNIT_T2 u) }
  let level : Bool := if c.pol then decide (v < c.la) else decide (c.la < v)
  let x := d.aunit u
  let (y, fire) := match d.fld r 30 28 with
    | 0 => pulseUnit c x level t
    | 1 => runtUnit c x v
    | 2 => timeoutUnit c x level t
    | 3 => slewUnit c x v t
    | _ => (x, false)
  let d := d.setAunit u y
  if fire then d.fireUnit u t else d

/-- EN, RATE and source of a unit. -/
def Dev.unitOn (d : Dev) (u : Nat) : Bool := d.flag (Reg.ACQ_UNIT_CFG u) 31
def Dev.unitConv (d : Dev) (u : Nat) : Bool := d.flag (Reg.ACQ_UNIT_CFG u) 25
def Dev.unitKind (d : Dev) (u : Nat) : Nat := d.fld (Reg.ACQ_UNIT_CFG u) 13 12
def Dev.unitIdx (d : Dev) (u : Nat) : Nat := d.fld (Reg.ACQ_UNIT_CFG u) 8 0

/-- The end of stage 7 of a stroke for ACQ: the units and the sets that work once per stroke (R321, R323). -/
def Dev.acqStroke (tick : Nat) (sn theta : W32) (d : Dev) : Dev :=
  let d := (upto 8).foldl (fun d u =>
    if d.unitOn u && !d.unitConv u && decide (d.fld (Reg.ACQ_UNIT_CFG u) 30 28 < 4) then
      d.evalUnit u (d.acqWord false (d.unitKind u) (d.unitIdx u)).toInt tick
    else d) d
  (upto 8).foldl (fun d k =>
    if d.asetEn k && !d.asetConv k then d.acqBase k (Dev.acqSample k false tick sn theta) else d) d

/-- A SAR entry that converts: its code of a grid point comes later. One that is disabled or failed holds its code (R314). -/
def Dev.sarComes (d : Dev) (kind idx : Nat) : Bool :=
  decide (kind = 1 ∧ idx < 24) && d.sarOn idx && !(d.sar idx).failed

/-- A point of the conversion grid for ACQ (R301, R321): its samples belong to the stroke of its sample instant. -/
def Dev.acqGrid (d : Dev) : Dev :=
  let sn := d.adc.gridSn
  let theta : W32 := BitVec.ofNat 32 (d.ang.acc.toNat / 2 ^ 32)
  let d := (upto 8).foldl (fun d u =>
    if d.unitOn u && d.unitConv u && decide (d.fld (Reg.ACQ_UNIT_CFG u) 30 28 < 4) &&
        !d.sarComes (d.unitKind u) (d.unitIdx u) then
      d.evalUnit u (d.acqWord true (d.unitKind u) (d.unitIdx u)).toInt d.now
    else d) d
  (upto 8).foldl (fun d k =>
    if d.asetEn k && d.asetConv k then d.acqBase k (Dev.acqSample k true d.now sn theta) else d) d

/-- The code of the SAR conversion sampled at tick t reaches ACQ (R302, R321). -/
def Dev.acqConversion (c : Nat) (raw : Int) (t : Nat) (d : Dev) : Dev :=
  let d := d.acqPatch true (fun s => decide (s.tick = t)) 1 c (BitVec.ofInt 32 raw)
  (upto 8).foldl (fun d u =>
    if d.unitOn u && d.unitConv u && decide (d.fld (Reg.ACQ_UNIT_CFG u) 30 28 < 4) &&
        decide (d.unitKind u = 1 ∧ d.unitIdx u = c) then d.evalUnit u raw t else d) d

/-- CAPTURE_ARM takes effect at a sample instant after its acceptance (R335). -/
def Dev.acqArm (d : Dev) : Dev :=
  (upto 8).foldl (fun d k =>
    match (d.aset k).armTick with
    | none => d
    | some t =>
      if t < d.now then
        let d := d.setAset k { d.aset k with armTick := none, base := 0, trig := [] }
        if d.slotFree k then d.startFilling k else d.setAset k { d.aset k with phase := .wait }
      else d) d

/-- TRIGGER_UNIT_FIRE (R323): a unit of TYPE ANGLE whose stamp has fired triggers its sets, in angle strokes
(R45). The other types fire in
the evaluation of their source. -/
def Dev.triggerUnitFire (u : Nat) (d : Dev) : Dev :=
  if (d.aunit u).pending && d.ang.cur.angle then (d.setAunit u { d.aunit u with pending := false }).fireUnit u d.now else d

/-- TRIGGER_UNIT_FIRE (R323). -/
def execTriggerUnitFire (u : Fin 8) (s : State) : Outcome State Fault Refusal := .next (s.run (Dev.triggerUnitFire u.val))

/-- EXT_TRIG_IN has a new level that is the edge of EXT_POL and has held for EXT_FILT ticks (R324). -/
def Dev.extReady (d : Dev) (level : Bool) : Bool :=
  level == d.acq.ext.level && !d.acq.extSeen && level != d.flag Reg.ACQ_CTRL 5 &&
    decide (d.acq.ext.since + d.fld Reg.ACQ_CTRL 4 0 ≤ d.now)

/-- EXT_TRIG_IN (R324): the filtered edge triggers once. -/
def Dev.extTrig (level : Bool) (d : Dev) : Dev :=
  if !d.extReady level then d
  else (upto 8).foldl (fun d k => if d.flag (Reg.ACQ_SET_CFG k) 29 then d.acqTrigger k 8 d.now else d)
    (d.onAcq fun a => { a with extSeen := true })

/-- EXT_TRIG_IN (R324). -/
def execExtTrigIn (level : Bool) (s : State) : Outcome State Fault Refusal := .next (s.run (Dev.extTrig level))

/-- AUTO_TIMEOUT (R330). -/
def Dev.autoTimeout (k : Nat) (d : Dev) : Dev :=
  let x := d.aset k
  let ms := d.fld (Reg.ACQ_SET_DIV k) 31 16
  if ms ≠ 0 ∧ (x.phase = .filling ∨ x.phase = .ready) ∧ x.fillStart + ms * msTicks ≤ d.now ∧
      x.trig.all (fun t => t.1 ≠ 11) then d.acqTrigger k 11 d.now
  else d

/-- AUTO_TIMEOUT (R330). -/
def execAutoTimeout (set : Fin 8) (s : State) : Outcome State Fault Refusal := .next (s.run (Dev.autoTimeout set.val))

/-! ### Delivery (R331–R334) -/

/-- 2^HSIZE and HBASE. -/
def Dev.areaSize (d : Dev) (k : Nat) : Nat := 2 ^ d.fld (Reg.ACQ_SET_HSIZE k) 4 0
def Dev.areaBase (d : Dev) (k : Nat) : Nat := d.cfg (Reg.ACQ_SET_HBASE_L k) + 2 ^ 32 * d.cfg (Reg.ACQ_SET_HBASE_H k)

/-- Descriptors of a ring that the host has not consumed. -/
def Dev.ringUsed (d : Dev) (r : Nat) : Nat := ((d.ring r).prod + d.ringSize r - (d.ring r).cons) % d.ringSize r

/-- The runs of a set's area whose descriptors the host has not consumed yet (R331). -/
def Dev.areaHeld (d : Dev) (k : Nat) : List (Nat × Nat × Nat) :=
  let r := 8 + k
  (d.aset k).area.filter fun a => decide ((a.1 + d.ringSize r - (d.ring r).cons) % d.ringSize r < d.ringUsed r)

/-- The fill level of a ring and an area is at least `pct` %: the larger of the two (R332). A disabled ring behaves as a
full one (R412), and counts as 100 %. -/
def Dev.fillAtLeast (d : Dev) (k pct : Nat) : Bool :=
  let bytes := ((d.areaHeld k).map (·.2.2)).foldl (· + ·) 0
  !d.ringEn (8 + k) || decide (pct * d.ringSize (8 + k) ≤ 100 * d.ringUsed (8 + k) ∨ pct * d.areaSize k ≤ 100 * bytes)

/-- The sieve factor takes its step for the record that is due (R332). -/
def Dev.sieveStep (k : Nat) (d : Dev) : Dev :=
  let x := d.aset k
  match x.closed with
  | [] => d
  | r :: rest =>
    if r.stepped then d
    else
      let up : Bool := d.fillAtLeast k (d.fld (Reg.ACQ_SET_WM k) 15 8) && decide (x.sieve < 6)
      let down : Bool := !d.fillAtLeast k (d.fld (Reg.ACQ_SET_WM k) 7 0) && decide (0 < x.sieve)
      let d := d.setAset k { x with closed := { r with stepped := true } :: rest
                                    sieve := if up then x.sieve + 1 else if down then x.sieve - 1 else x.sieve }
      if up then (d.event 13 3 k 0 0).irq 45 else if down then (d.event 13 4 k 0 0).irq 45 else d

/-- The samples of a record that the sieve keeps, in time order (R332). -/
def sieved (r : AcqRecord) (s : Nat) : List AcqSample :=
  let n := 2 ^ s
  let kept := ((r.samples.reverse).zip (upto r.samples.length)).filter fun x => decide ((x.2 + n * r.pre - r.pre) % n = 0)
  kept.map (·.1)

/-- Valid samples before the trigger that the sieve keeps. -/
def sievedPre (r : AcqRecord) (s : Nat) : Nat := r.pre / 2 ^ s

/-- The lowest bit of a trigger mask. -/
def primaryBit (mask : Nat) : Nat := ((upto 12).find? fun b => bitAt mask b).getD 0

/-- The bytes of a record (R333). -/
def recordBytes (r : AcqRecord) (s : Nat) : List Byte :=
  let kept := sieved r s
  let trg := r.samples.reverse.getD r.pre AcqSample.reset
  let head := leBytes 4 r.seq ++ leBytes 2 r.mask ++ leBytes 1 (primaryBit r.mask) ++ leBytes 1 s ++
    leBytes 4 kept.length ++ leBytes 4 (sievedPre r s) ++ leBytes 2 r.chans ++
    leBytes 1 (b2n r.conv) ++ [0] ++ leBytes 4 r.div ++
    leBytes 4 trg.sn.toNat ++ leBytes 4 trg.theta.toNat ++ leBytes 8 trg.count ++ leBytes 4 r.missed ++
    leBytes 4 r.missSn.toNat ++ leBytes 4 r.missTheta.toNat ++ leBytes 4 r.dropped ++ leBytes 4 0
  head ++ leBytes 4 (crc32 head).toNat ++ kept.flatMap fun x => x.words.flatMap fun w => leBytes 4 w.toNat

/-- A run of `len` bytes at `ofs` touches none that the host still holds. -/
def freeRun (held : List (Nat × Nat × Nat)) (ofs len : Nat) : Bool :=
  held.all fun h => decide (ofs + len ≤ h.2.1 ∨ h.2.1 + h.2.2 ≤ ofs)

/-- A set becomes DISARMED (R335). -/
def Dev.disarmSet (k : Nat) (d : Dev) : Dev :=
  d.setAset k { d.aset k with phase := .disarmed, single := false, ending := false, armTick := none, pre := [], trig := [] }

/-- A sample of a channel's source has a word that is still to come (R302, R321). -/
def Dev.wordOpen (d : Dev) (conv : Bool) (src : Nat × Nat) (s : AcqSample) : Bool :=
  if conv then src.1 == 1 && (d.sar src.2).waits.any fun t => decide (t = s.tick ∧ d.now ≤ t + 192)
  else if src.1 = 2 then d.ang.jobs.any fun j => decide (j.g.sn = s.sn) && !j.built
  else src.1 == 3 && (afterSn s.sn d.ang.cur.sn ||
    (decide (s.sn = d.ang.cur.sn) && d.pairEn src.2 && decide ((d.pair src.2).sn ≠ some s.sn)))

/-- A closed record is not complete yet: a word of it is still to come, or a trigger may still fall on one of its samples,
from a stroke or a conversion that was sampled by its end (R321, R323, R325; log 121, DEDUCED). -/
def Dev.recordOpen (k : Nat) (r : AcqRecord) (d : Dev) : Bool :=
  decide (d.now ≤ recLast r) ||
  (d.ang.jobs.any fun j => decide (j.sampleTick ≤ recLast r) && !j.evaluated && !j.missed) ||
  ((upto 24).any fun c => (d.sar c).waits.any fun t => decide (t ≤ recLast r ∧ d.now ≤ t + 192)) ||
  (d.asetChans k).any fun n => r.samples.any (d.wordOpen r.conv (d.acqSource n))

/-- The samples that a record's words and triggers wait for have come. -/
def Dev.oldestOpen (k : Nat) (d : Dev) : Bool := match (d.aset k).closed with
  | [] => false
  | r :: _ => d.recordOpen k r

/-- RECORD_DELIVERY (R331, R332, R334) of the oldest closed record, once it is complete; the last record of a set that is
being disarmed disarms it (R335). -/
def Dev.recordDelivery (k : Nat) (d : Dev) : Dev :=
  let d := if d.oldestOpen k then d else d.sieveStep k
  let x := d.aset k
  match x.closed with
  | [] => d
  | r :: rest =>
    if d.recordOpen k r then d
    else
      let bs := recordBytes r x.sieve
      let held := d.areaHeld k
      let ofs := if x.areaNext + bs.length ≤ d.areaSize k then x.areaNext else 0
      if d.ringRoom (8 + k) = 0 ∨ freeRun held ofs bs.length = false then d
      else
        let idx := (d.ring (8 + k)).prod
        let trg := r.samples.reverse.getD r.pre AcqSample.reset
        let desc := leBytes 2 0x0301 ++ [0, 0] ++ leBytes 4 0 ++ leBytes 8 (d.areaBase k + ofs) ++ leBytes 4 bs.length ++
          leBytes 4 r.seq ++ leBytes 4 trg.sn.toNat ++ leBytes 1 x.sieve ++ [0, 0, 0]
        let d := d.setAset k { x with
          closed := rest, area := held ++ [(idx, ofs, bs.length)], areaNext := ofs + bs.length, recCnt := satInc x.recCnt }
        let d := if x.ending && rest.isEmpty && x.cur.isNone then d.disarmSet k else d
        (d.post (d.areaBase k + ofs) bs).putDesc (8 + k) (4 + k) desc

/-- RECORD_DELIVERY (R332). -/
def execRecordDelivery (set : Fin 8) (s : State) : Outcome State Fault Refusal :=
  .next (s.run (Dev.recordDelivery set.val))

/-! ### Commands (R335) -/

/-- The sets that a command names; none where it names a disabled set or no set at all. -/
def Dev.namedSets (d : Dev) (c : Cmd) : Option (List Nat) :=
  let ks := (upto 8).filter fun k => bitAt (c.byte 20) k
  if ks = [] ∨ ks.any (fun k => !d.asetEn k) = true then none else some ks

/-- A command of R335 with its checks. -/
def Dev.captureCmd (op : Nat) (c : Cmd) (f : List Nat → Dev → Dev) (d : Dev) : Dev :=
  match d.namedSets c with
  | none => d.complete c op stBadParam
  | some ks => f ks d

/-- CAPTURE_ARM (R335). -/
def Dev.captureArm (c : Cmd) (ks : List Nat) (d : Dev) : Dev :=
  (ks.foldl (fun d k =>
    let x := d.aset k
    if x.phase = .disarmed ∧ x.armTick = none then
      d.setAset k { x with armTick := some d.now, single := bitAt (c.byte 21) 0 } else d) d).complete c 0x20 stOk

/-- CAPTURE_ARM (R335). -/
def execCaptureArm (c : Cmd) (s : State) : Outcome State Fault Refusal :=
  s.runCmd 0x20 (inlMask [(20, 0xFF), (21, 1)]) c (Dev.captureCmd 0x20 c (Dev.captureArm c))

/-- CAPTURE_DISARM (R335): a record in POST is completed and delivered first. -/
def Dev.captureDisarm (c : Cmd) (ks : List Nat) (d : Dev) : Dev :=
  (ks.foldl (fun d k =>
    let x := d.aset k
    if x.phase = .post then d.setAset k { x with ending := true } else d.disarmSet k) d).complete c 0x21 stOk

/-- CAPTURE_DISARM (R335). -/
def execCaptureDisarm (c : Cmd) (s : State) : Outcome State Fault Refusal :=
  s.runCmd 0x21 (inlMask [(20, 0xFF)]) c (Dev.captureCmd 0x21 c (Dev.captureDisarm c))

/-- CAPTURE_FORCE (R335). -/
def Dev.captureForce (c : Cmd) (ks : List Nat) (d : Dev) : Dev :=
  let armed := ks.filter fun k => decide ((d.aset k).phase ≠ .disarmed)
  if armed = [] then d.complete c 0x22 stRejected
  else (armed.foldl (fun d k => d.acqTrigger k 9 d.now) d).complete c 0x22 stOk

/-- CAPTURE_FORCE (R335). -/
def execCaptureForce (c : Cmd) (s : State) : Outcome State Fault Refusal :=
  s.runCmd 0x22 (inlMask [(20, 0xFF)]) c (Dev.captureCmd 0x22 c (Dev.captureForce c))

/-! ### Registers -/

/-- Codes of the set states (R326). -/
def phaseCode : SetPhase → Nat
  | .disarmed => 0 | .filling => 1 | .ready => 2 | .post => 3 | .wait => 4

/-- ACQ_SNAP (R9). -/
def Dev.acqSnap (v : W32) (d : Dev) : Dev :=
  if v.getLsbD 0 then
    d.snapAll ((Reg.ACQ_SIEVE_SNAP, pack ((upto 8).map fun k => ((d.aset k).sieve, 4 * k))) ::
      (upto 8).flatMap fun k => [(Reg.ACQ_MISS_CNT_SNAP k, (d.aset k).missCnt),
        (Reg.ACQ_DROP_CNT_SNAP k, (d.aset k).dropCnt), (Reg.ACQ_REC_CNT_SNAP k, (d.aset k).recCnt)])
  else d

/-- ACQ_SNAP (R9). -/
def execAcqSnap (v : W32) (s : State) : Outcome State Fault Refusal := .next (s.run (Dev.acqSnap v))

/-! ### SAR conversions (R302, R309, R315) -/

/-- SAR_CONVERSION_RESULT: the result of the channel's last sample, valid no later than 192 ticks after it. That of a sample
instant goes to the control path; every one goes to the window comparator and to ACQ. Every channel of a failed bank counts
its conversions (R314). -/
def Dev.sarResult (c : Nat) (raw : Int) (d : Dev) : Dev :=
  let x := d.sar c
  match x.waits with
  | none => d
  | some t =>
    if !d.sarOn c || decide (t + 192 < d.now) then d
    else if x.failed then d.setSar c { x with waits := none, good := x.good + 1 }
    else
      let control : Bool := x.due && decide (t = d.adc.gridTick)
      let good := if bitAt d.adc.banks (c / 6) then x.good + 1 else 0
      let d := d.setSar c { x with
        waits := none, good := good, raw := if control then raw else x.raw, due := x.due && !control }
      let d := if raw = 32767 ∨ raw = -32768 then d.clip c else d
      (d.windowStep c raw).acqConversion c raw t

/-- SAR_CONVERSION_RESULT (R302). -/
def execSarConversionResult (ch : Fin 24) (raw : BitVec 16) (s : State) : Outcome State Fault Refusal :=
  .next (s.run (Dev.sarResult ch.val raw.toInt))

end Sys2Proof.Machine
end

