-- ==== Sys2Proof/Machine/Domains.lean ====
section
/-! DEFINITION. Staged registers: which of them take effect together, and their taking effect (R49, R132, R133). -/

namespace Sys2Proof.Machine

/-- The group of staged registers a register belongs to; none for one that is not staged or acts at once (CLK). -/
def domainOf (off : Nat) : Option Domain :=
  match regRow off with
  | none => none
  | some r =>
    if !r.staged then none
    else match off / 0x10000 with
      | 1 => none
      | 3 =>
        if off = Reg.ANG_OFFSET ∨ off = Reg.ANG_OFFSET_STEP then some .index0
        else if off < 0x30100 then some .timebase
        else if off < 0x30200 then some .machine
        else some .profile
      | 6 => some .stroke
      | 12 => some .round
      | _ => some .sample

/-- A register of the PWM block: its staged ones apply with a stroke's start (R222). -/
def isPwm (off : Nat) : Bool := decide (off / 0x10000 = 6)

/-- A register map with the PWM block's registers of another one. -/
def withPwm (pwm m : SMap W32) : SMap W32 :=
  (pwm.cells.filter fun c => isPwm c.1).foldl (fun m c => m.set (regReset c.1) c.1 c.2) ⟨m.cells.filter fun c => !isPwm c.1⟩

/-- The values of one group go into force. -/
def Dev.applyRegs (dom : Domain) (d : Dev) : Dev :=
  let inDom (off : Nat) : Bool := decide (domainOf off = some dom)
  let kept : SMap W32 := ⟨d.regs.inForce.cells.filter fun c => !inDom c.1⟩
  { d with regs := { d.regs with
      inForce := d.regs.active.cells.foldl
        (fun m c => if inDom c.1 then m.set (regReset c.1) c.1 c.2 else m) kept,
      due := d.regs.due.filter fun x => !decide (x = dom) } }

/-- The tables that go into force with the LOOP and ADC registers (R133, R138, R308). -/
def Dev.applyTables (d : Dev) : Dev :=
  (d.onLoop fun l => { l with bank := l.bankActive, tab := l.tabActive }).onAdc fun a => { a with cal := a.calActive }

/-- The configuration in force. -/
def Dev.conf (d : Dev) : Conf :=
  { regs := d.regs.inForce, bank := d.loop.bank, tab := d.loop.tab, cal := d.adc.cal }

/-- A configuration put in force, but for the PWM block's registers. -/
def Dev.setConf (c : Conf) (d : Dev) : Dev :=
  let d := (d.onLoop fun l => { l with bank := c.bank, tab := c.tab }).onAdc fun a => { a with cal := c.cal }
  { d with regs := { d.regs with inForce := withPwm d.regs.inForce c.regs } }

/-- What is done under the configuration of a stroke's sample instant (R133): the one in force now stands afterwards. -/
def Dev.under (c : Conf) (f : Dev → Dev) (d : Dev) : Dev :=
  let e := ((f (d.setConf c)).onLoop fun l => { l with bank := d.loop.bank, tab := d.loop.tab }).onAdc fun a =>
    { a with cal := d.adc.cal }
  { e with regs := { e.regs with inForce := d.regs.inForce } }

/-- A group that is due goes into force. -/
def Dev.applyDue (dom : Domain) (d : Dev) : Dev :=
  if dom ∈ d.regs.due then
    (if dom = .sample then d.applyTables else d).applyRegs dom
  else d

/-- A register that a command writes in its staged, its accepted and its applied value together (R107). -/
def Dev.writeThrough (off v : Nat) (d : Dev) : Dev :=
  let w := BitVec.ofNat 32 v
  { d with regs := { d.regs with
      staged := d.regs.staged.set (regReset off) off w,
      active := d.regs.active.set (regReset off) off w,
      inForce := d.regs.inForce.set (regReset off) off w } }

/-- Actions of rank 1–4 in progress, or TRIPPED (R22, R24). -/
def Dev.rankBusy (d : Dev) : Bool :=
  d.fenceDemand || d.sup.tripTick.isSome || decide (d.gfm.mode = .tripped ∨ d.gfm.mode = .stopping)

/-- The kind of drive d under AUX_CFG.ASSIGN (R484): 0 not present, 1 BLDC, 2 stepper. -/
def Dev.driveKind (d : Dev) (k : Nat) : Nat :=
  match d.fld Reg.AUX_CFG 17 16, k with
  | 1, _ => 1
  | 2, 0 => 1
  | 2, 1 => 1
  | 2, 2 => 2
  | 3, 0 => 2
  | 3, 2 => 2
  | _, _ => 0

end Sys2Proof.Machine
end

