-- ==== Sys2Proof/Machine/Profile.lean ====
section
/-! DEFINITION. The profile engine (PROF, R85–R107): positions and velocities of the sixteen channels, one profile tick,
and the four profile commands. -/

namespace Sys2Proof.Machine

open Host

/-- A channel. -/
def Dev.prf (d : Dev) (c : Nat) : ProfChan := d.prof.chans.get ProfChan.reset c

/-- A channel replaced. -/
def Dev.setPrf (c : Nat) (v : ProfChan) (d : Dev) : Dev :=
  d.onProf fun p => { p with chans := p.chans.set ProfChan.reset c v }

/-! ### Position and distance, in 2^−16 of a position LSB (R86, R87) -/

/-- The position with its hidden remainder. -/
def ProfState.full (p : ProfChan) : Nat := p.pos.toNat * 2 ^ 16 + p.rem

/-- The low bit of a target within the position accumulator. -/
def targetShift (c : Nat) : Nat := if c < 8 then 16 else 24

/-- A target as a position accumulator. -/
def targetPos (c : Nat) (t : W32) : BitVec 48 := BitVec.ofInt 48 (t.toInt * (2 ^ targetShift c : Nat))

/-- The signed distance from the position to the target: on channel 4, and on a channel whose step count wraps (R491), the
shorter way round, a half revolution being positive (R89). -/
def distance (c : Nat) (p : ProfChan) : Int :=
  if c = 4 ∨ p.wraps = true then
    let m : Nat := ((targetPos c p.target).toNat * 2 ^ 16 + 2 ^ 64 - ProfState.full p) % 2 ^ 64
    if m ≤ 2 ^ 63 then (m : Int) else (m : Int) - (2 ^ 64 : Nat)
  else (targetPos c p.target).toInt * (2 ^ 16 : Nat) - (p.pos.toInt * (2 ^ 16 : Nat) + p.rem)

/-- The distance that remains in the direction of travel. -/
def remaining (c : Nat) (p : ProfChan) : Int := if p.neg then -(distance c p) else distance c p

/-- The position moved by a velocity in the direction of travel (R85, R87). -/
def advance (p : ProfChan) (v : Nat) : ProfChan :=
  let f := unsigned 64 ((ProfState.full p : Int) + (if p.neg then -(v : Int) else v))
  { p with pos := BitVec.ofNat 48 (f / 2 ^ 16), rem := f % 2 ^ 16, vel := v }

/-- The target taken from the position (R97). -/
def targetOf (c : Nat) (p : ProfChan) : W32 :=
  BitVec.ofInt 32 (p.pos.toInt / (2 ^ targetShift c : Nat))

/-- At rest. -/
def stopped (p : ProfChan) : ProfChan :=
  { p with vel := 0, seg := .idle, dReq := none, fresh := false, decel := false, stopping := false,
           halting := false, overshot := false }

/-- At rest at the target exactly (R92). -/
def arrived (c : Nat) (p : ProfChan) : ProfChan := stopped { p with pos := targetPos c p.target, rem := 0 }

/-! ### The ramp -/

/-- A parameter as a velocity with its 16 further fraction bits. -/
def wide (v : Nat) : Nat := v * 2 ^ 16

/-- D2 and D1 of a move: D_req replaces both for the rest of it (R102). -/
def ProfState.d2 (p : ProfChan) : Nat := p.dReq.getD p.ramp.d2
def ProfState.d1 (p : ProfChan) : Nat := p.dReq.getD p.ramp.d1

/-- Twice the stopping distance, over a denominator: (numerator, denominator) of s(v) (R91). -/
def stopDist (p : ProfChan) : Int × Int :=
  let v : Int := p.vel
  let vb : Int := wide p.ramp.vBrk
  let vs : Int := wide p.ramp.vStop
  let d2 : Int := ProfState.d2 p
  let d1 : Int := ProfState.d1 p
  if vb < v then ((v * v - vb * vb) * d1 + (vb * vb - vs * vs) * d2, 2 * d2 * d1)
  else if vs < v then (v * v - vs * vs, 2 * d1)
  else (0, 1)

/-- s(v) exceeds a distance. -/
def stopExceeds (p : ProfChan) (x : Int) : Bool := let (n, m) := stopDist p; decide (x * m < n)

/-- D_req at remaining distance r, rounded up (R102). -/
def dRequired (p : ProfChan) (r : Int) : Int :=
  let v : Int := p.vel
  let vs : Int := wide p.ramp.vStop
  (v * v - vs * vs + 2 * r - 1) / (2 * r)

/-- The velocity of a channel that does not decelerate (R90). -/
def accelerate (p : ProfChan) : Nat :=
  let r := p.ramp
  let v := p.vel
  if wide r.vMax < v then max (v - (if wide r.vBrk < v then ProfState.d2 p else ProfState.d1 p)) (wide r.vMax)
  else if v < wide r.vBrk then min (v + r.a1) (wide r.vBrk)
  else if v < wide r.vMax then min (v + r.a2) (wide r.vMax)
  else v

/-- The segment of a channel that does not decelerate. -/
def accSeg (r : Ramp) (v : Nat) : Seg :=
  if wide r.vMax < v then (if wide r.vBrk < v then .dec2 else .dec1)
  else if v < wide r.vBrk then .acc1 else if v < wide r.vMax then .acc2 else .cruise

/-- The distance that is covered, tick by tick, while a velocity falls to V_STOP at D2 and D1, both changed by `e` LSB: its
numerator and denominator. -/
def slowPath (e : Int) (p : ProfChan) (v : Int) : Int × Int :=
  let vb : Int := wide p.ramp.vBrk
  let vs : Int := wide p.ramp.vStop
  let d2 : Int := ProfState.d2 p + e
  let d1 : Int := ProfState.d1 p + e
  if vb < v then ((v * v - vb * vb) * d1 + (vb * vb - vs * vs) * d2 - (v - vs) * d1 * d2, 2 * d2 * d1)
  else if vs < v then (v * v - vs * vs - (v - vs) * d1, 2 * d1)
  else (0, 1)

/-- From a velocity, V_STOP can still be reached within a distance with trims of at most 1 LSB per tick, or only beyond it. -/
def slowsWithin (p : ProfChan) (v r : Int) : Bool := let (n, m) := slowPath 1 p v; decide (n ≤ r * m)
def slowsBeyond (p : ProfChan) (v r : Int) : Bool := let (n, m) := slowPath (-1) p v; decide (r * m ≤ n)

/-- A deceleration value with its trim of at most 1 LSB, so that v reaches V_STOP in the tick of the arrival (R91): a free
value where that leaves it in reach, else a trim that does, else the weakest one that still stops before the target. -/
def trimmed (p : ProfChan) (r : Int) (dec : Nat) : Nat :=
  let vs := wide p.ramp.vStop
  let after (x : Nat) : Int := max (p.vel - x) vs
  let within (x : Nat) : Bool := slowsWithin p (after x) (r - after x)
  let reaches (x : Nat) : Bool := within x && slowsBeyond p (after x) (r - after x)
  let tries := [dec + (Config.trim p.vel r.toNat dec).val - 1, dec, dec - 1, dec + 1]
  (tries.find? reaches).getD (([dec - 1, dec].find? within).getD (dec + 1))

/-- What a profile tick reports of a channel: its event bits with the cause of a completion, if the move is
complete. -/
structure ProfReport where
  bits : List Nat
  done : Option ProfCause
deriving DecidableEq, Repr

/-- A new move towards the target with the jump to come (R96, R101). -/
def beginMove (c : Nat) (seg : Seg) (p : ProfChan) : ProfChan :=
  { p with vel := 0, neg := decide (distance c p < 0), seg := seg, dReq := none, fresh := true, decel := false,
           stopping := false, halting := false, overshot := false }

/-- A move that has come to rest starts again towards its target, or is complete there (R101, R103). -/
def restart (c : Nat) (bits : List Nat) (p : ProfChan) : ProfChan × ProfReport :=
  if distance c p = 0 then (arrived c p, ⟨bits, some .target⟩) else (beginMove c .reversing p, ⟨bits, none⟩)

/-- One tick of a deceleration at D2 and D1 to V_STOP that a stop or a reversal commands (R97, R101). -/
def slowDown (c : Nat) (p : ProfChan) : ProfChan × ProfReport :=
  let vs := wide p.ramp.vStop
  let dec := if wide p.ramp.vBrk < p.vel then ProfState.d2 p else ProfState.d1 p
  let v := if p.vel ≤ vs then p.vel else max (p.vel - dec) vs
  let r := remaining c p
  if p.stopping ∧ 0 ≤ r ∧ r ≤ v then (arrived c p, ⟨[4], some .stopped⟩)
  else
    let q := advance p v
    if vs < v then ({ q with seg := if p.stopping then .decelStop else .reversing }, ⟨[], none⟩)
    else if p.stopping then (stopped { q with target := targetOf c q }, ⟨[4], some .stopped⟩)
    else restart c [] { q with vel := 0 }

/-- One tick of a deceleration at DEC_MAX to 0: a HALT of an actuator, or R103 beyond its target. -/
def brake (c : Nat) (p : ProfChan) : ProfChan × ProfReport :=
  let q := { advance p (p.vel - p.ramp.decMax) with seg := .decMax }
  if q.vel ≠ 0 then (q, ⟨[], none⟩)
  else if p.halting then (stopped { q with target := targetOf c q }, ⟨[5], some .halted⟩)
  else restart c (if remaining c q < 0 then [3] else []) q

/-- One tick of a deceleration towards the target, at D2 and D1, at D_req, or at DEC_MAX (R91, R102, R103). A
velocity of one LSB or more does not fall below one LSB before the target, so that with V_STOP = 0 the target is reached (log
122, DESIGN CHOICE). -/
def decelerate (c : Nat) (bits : List Nat) (p : ProfChan) : ProfChan × ProfReport :=
  let vs := wide p.ramp.vStop
  let r := remaining c p
  let hard : Bool := decide (p.seg = .decMax)
  let (dec, seg) : Nat × Seg :=
    if hard then (p.ramp.decMax, .decMax)
    else match p.dReq with
      | some x => (trimmed p r x, .dReq)
      | none => if wide p.ramp.vBrk < p.vel then (trimmed p r p.ramp.d2, .dec2) else (trimmed p r p.ramp.d1, .dec1)
  let v := max (if p.vel ≤ vs then p.vel else max (p.vel - dec) vs) (min p.vel (2 ^ 16))
  if r ≤ v then
    let abrupt : Bool := hard && decide (r < v)
    (arrived c p, ⟨bits ++ (if abrupt then [2] else []), some (if abrupt then .abrupt else .target)⟩)
  else ({ advance p v with seg := seg, decel := true }, ⟨bits, none⟩)

/-- A moving channel's update in one profile tick (R85, R90–R92, R97, R101–R103). In the tick of a start the velocity jumps
to V_START and the position moves by it; A1 is first added in the tick after (log 88, DESIGN CHOICE). -/
def moveTick (c : Nat) (p : ProfChan) : ProfChan × ProfReport :=
  if p.fresh then
    let v := wide p.ramp.vStart
    if remaining c p ≤ v then (arrived c p, ⟨[], some .target⟩)
    else ({ advance p v with seg := accSeg p.ramp v, fresh := false }, ⟨[], none⟩)
  else if p.halting ∨ p.overshot then brake c p
  else if p.stopping ∨ p.seg = .reversing then slowDown c p
  else
    let r := remaining c p
    if p.seg ≠ .decMax ∧ stopExceeds p (r + p.vel) then
      let x := dRequired p r
      if 0 < r ∧ x ≤ p.ramp.decMax then decelerate c [1] { p with dReq := some x.toNat }
      else if 8 ≤ c then brake c { p with overshot := true }
      else decelerate c [] { p with seg := .decMax }
    else if p.decel ∨ p.seg = .decMax ∨ stopExceeds p (r - p.vel) then decelerate c [] p
    else
      let v := accelerate p
      if r ≤ v then (arrived c p, ⟨[], some .target⟩)
      else ({ advance p v with seg := accSeg p.ramp v }, ⟨[], none⟩)

/-! ### Reports, and changes that a tick applies -/

/-- Codes of a completion's cause in its event descriptor, in the order of R105. -/
def profCauseCode : ProfCause → Nat
  | .target => 0 | .abrupt => 1 | .stopped => 2 | .halted => 3 | .written => 4

/-- A completed move is reported (R105). -/
def Dev.profDone (c : Nat) (cause : ProfCause) (d : Dev) : Dev :=
  (d.event 5 0 c (profCauseCode cause) 0).irq 35

/-- The bits and the completion of a tick are reported. -/
def Dev.profReport (c : Nat) (r : ProfReport) (d : Dev) : Dev :=
  let d := r.bits.foldl (fun d b => d.event 5 b c 0 0) d
  match r.done with
  | some cause => d.profDone c cause
  | none => d

/-- The nine parameters in block order. -/
def rampList (r : Ramp) : List Nat := [r.vStart, r.vBrk, r.vMax, r.vStop, r.a1, r.a2, r.d2, r.d1, r.decMax]

/-- Parameters read in block order (R94). -/
def rampOf (f : Nat → Nat) : Ramp :=
  { vStart := f 0, vBrk := f 1, vMax := f 2, vStop := f 3, a1 := f 4, a2 := f 5, d2 := f 6, d1 := f 7, decMax := f 8 }

/-- Parameters with the fields of a mask taken from others. -/
def rampMerge (mask : Nat) (new old : Ramp) : Ramp :=
  rampOf fun k => if bitAt mask k then (rampList new).getD k 0 else (rampList old).getD k 0

/-- A valid parameter set (R93). -/
def rampValid (r : Ramp) : Bool :=
  decide (0 < r.vMax ∧ r.vStart ≤ r.vBrk ∧ r.vBrk ≤ r.vMax ∧ r.vStop ≤ r.vBrk ∧
    (r.vStart < r.vBrk → 0 < r.a1) ∧ (r.vBrk < r.vMax → 0 < r.a2) ∧ 0 < r.d1 ∧ 0 < r.d2 ∧
    r.d1 ≤ r.decMax ∧ r.d2 ≤ r.decMax)

/-- The parameters of a re-approach at V_START, with V_MAX set to V_START (R496). -/
def approachRamp (r : Ramp) : Ramp := { r with vMax := r.vStart, vBrk := r.vStart, vStop := min r.vStop r.vStart }

/-- The parameters that channel c uses, given those that are new: during the re-approach of its drive the new ones are kept
for its end (R496). -/
def Dev.rampInUse (c : Nat) (r : Ramp) (d : Dev) : Dev × Ramp :=
  let x := d.aux.drives.get AuxDrive.reset (c - 8)
  if 8 ≤ c ∧ x.saved.isSome then
    (d.onAux fun a => { a with drives := a.drives.set AuxDrive.reset (c - 8) { x with saved := some r } }, approachRamp r)
  else (d, r)

/-- New parameters of a channel; s(v) is computed anew (R102), also where the channel decelerated at DEC_MAX and, an
actuator, has not passed its target yet (R103). -/
def Dev.useRamp (c : Nat) (r : Ramp) (d : Dev) : Dev :=
  let (d, r) := d.rampInUse c r
  let p := d.prf c
  let beyond : Bool := p.overshot && decide (remaining c p ≤ 0)
  let hard : Bool := decide (p.seg = .decMax) && !p.halting && !beyond
  d.setPrf c { p with ramp := r, decel := false, overshot := beyond, seg := if hard then .cruise else p.seg }

/-- The parameters of a mask that a command carries: used, and written into the staged and the applied values (R107). -/
def Dev.setRamp (c mask : Nat) (r : Ramp) (d : Dev) : Dev :=
  let d := d.useRamp c (rampMerge mask r (d.prf c).ramp)
  (upto 9).foldl (fun d k =>
    if bitAt mask k then d.writeThrough (Reg.PROF_VSTART c + 4 * k) ((rampList r).getD k 0) else d) d

/-- A target put in force: a start on an idle channel (R96), a change on a moving one (R101). It equals the position where
the hidden fraction bits are equal too, and a change that comes during a DECEL stop or a HALT ends that stop, which then
reports no completion (log 122, DESIGN CHOICE). -/
def Dev.retarget (c : Nat) (t : W32) (d : Dev) : Dev :=
  let p : ProfChan := { d.prf c with target := t }
  let x := distance c p
  if p.seg = .idle ∨ p.fresh then
    if x = 0 then (d.setPrf c (arrived c p)).profDone c .target
    else d.setPrf c (beginMove c .acc1 p)
  else
    let ahead : Bool := if p.neg then decide (x < 0) else decide (0 < x)
    if ahead then
      d.setPrf c { p with decel := false, stopping := false, halting := false, overshot := false,
                          seg := if p.seg = .decMax ∨ p.seg = .reversing ∨ p.seg = .decelStop then .cruise else p.seg }
    else d.setPrf c { p with seg := .reversing, decel := false, stopping := false, halting := false, overshot := false }

/-- HALT (R97): at once on channels 0–7, at DEC_MAX on channels 8–15. -/
def Dev.haltChan (c : Nat) (d : Dev) : Dev :=
  let p := d.prf c
  if p.seg = .idle then d
  else if c < 8 then (d.setPrf c (stopped { p with target := targetOf c p })).profReport c ⟨[5], some .halted⟩
  else d.setPrf c { p with halting := true, stopping := false, fresh := false }

/-- The host target of channel 2 (R73). -/
def Dev.setHostTarget (c : Nat) (t : W32) (d : Dev) : Dev :=
  if c = 2 then d.onProf fun p => { p with hostTarget2 := t } else d

/-- A position is set to a value and any move ends (R98, R73). -/
def Dev.loadPos (c : Nat) (v : W32) (d : Dev) : Dev :=
  d.setPrf c (arrived c { d.prf c with target := v })

/-- A change that takes effect (R95–R98, R107). A stop of channel 2 leaves its final position as the host target. -/
def Dev.profOp (o : ProfOp) (d : Dev) : Dev :=
  match o with
  | .start c t params device =>
    let d := match params with
      | some r => d.setRamp c 511 r
      | none => d
    (if device then d else d.setHostTarget c t).retarget c t
  | .modify c mask params target =>
    let d := if mask = 0 then d else d.setRamp c mask params
    match target with
    | some t => (d.setHostTarget c t).retarget c t
    | none => d
  | .stop c halt =>
    if (d.prf c).seg = .idle then d
    else if halt then
      let d := d.haltChan c
      d.setHostTarget c (targetOf c (d.prf c))
    else d.setPrf c { d.prf c with
      stopping := true, halting := false, fresh := false, overshot := false, seg := .decelStop }
  | .write c v => ((d.loadPos c v).setHostTarget c v).profDone c .written
  | .commit c r => ((rampList r).foldl (fun (x : Nat × Dev) v =>
      (x.1 + 1, x.2.setForce (Reg.PROF_VSTART c + 4 * x.1) (BitVec.ofNat 32 v))) (0, d.useRamp c r)).2

/-- One channel's part of a profile tick. -/
def Dev.profChanTick (d : Dev) (c : Nat) : Dev :=
  let p := d.prf c
  if p.seg = .idle then d
  else
    let (q, r) := moveTick c p
    let d := d.setPrf c q
    let d := if p.stopping ∧ q.seg = .idle then d.setHostTarget c q.target else d
    d.profReport c r

/-- A profile tick has come whose work is still to do: one comes in the clock cycle that reaches a multiple of 400 ticks
(R85). -/
def Dev.profileDue (d : Dev) : Bool :=
  decide (d.now % 400 < d.cycle) && decide (d.prof.lastTick / 400 ≠ d.now / 400 ∨ d.now = 0)

/-- PROFILE_TICK (R85, R95, R100): the changes accepted before it apply in order, a trip's HALT follows, and every moving
channel updates its velocity and then its position. -/
def Dev.profileTick (d : Dev) : Dev :=
  if !d.profileDue then d
  else
    let ops := d.prof.ops
    let trip := d.prof.tripHalt
    let d := d.onProf fun p => { p with ops := [], tripHalt := false, lastTick := d.now }
    let d := ops.foldl (fun d o => d.profOp o) d
    let d := if trip then (upto 8).foldl (fun d c => d.haltChan c) d else d
    (upto 16).foldl Dev.profChanTick d

/-! ### Commands (R94–R99) -/

/-- The device drives a channel itself (R99); channel 8 + d while drive d runs or homes (R502). -/
def Dev.deviceDrives (d : Dev) (c : Nat) : Bool :=
  let x := d.aux.drives.get AuxDrive.reset (c - 8)
  if 8 ≤ c ∧ c < 12 then x.running || decide (x.st = .homing) else
  match d.gfm.mode with
  | .blackstart => decide (c = 2)
  | .resync => decide (c = 2 ∨ c = 3 ∨ c = 4)
  | .stopping => decide (c = 0 ∨ c = 1 ∨ c = 2)
  | _ => false

/-- Commands to a channel complete with REJECTED_STATE: it is driven by the device, held (R100), or the device is a
standby (R377). -/
def Dev.chanRefused (d : Dev) (c : Nat) : Bool :=
  d.deviceDrives c || (d.prf c).held || decide (d.twn.st = .standby)

/-- Parameters of a channel once the changes already accepted have applied. -/
def Dev.rampPlanned (d : Dev) (c : Nat) : Ramp :=
  d.prof.ops.foldl (fun r o => match o with
    | .start k _ (some new) _ => if k = c then new else r
    | .modify k mask new _ => if k = c then rampMerge mask new r else r
    | .commit k new => if k = c then new else r
    | _ => r) (d.prf c).ramp

/-- An accepted change waits for the next profile tick (R95). -/
def Dev.queueOp (o : ProfOp) (d : Dev) : Dev := d.onProf fun p => { p with ops := p.ops ++ [o] }

/-- The parameter block in a buffer (R94). -/
def bufRamp (c : Cmd) : Ramp := rampOf fun k => leAt c.data (4 * k) 4

/-- PROFILE_START's own checks and effect. -/
def Dev.profileStart (c : Cmd) (d : Dev) : Dev :=
  let ch := c.byte 20
  let params : Bool := decide (c.byte 21 = 1)
  let t := BitVec.ofNat 32 (c.word 24)
  if 8 ≤ ch ∨ c.len.toNat ≠ (if params then 36 else 0) then d.complete c 0x04 stBadParam
  else if d.rankBusy ∨ d.chanRefused ch then d.complete c 0x04 stRejected
  else if !params then
    if rampValid (d.rampPlanned ch) then (d.queueOp (.start ch t none false)).complete c 0x04 stOk
    else d.complete c 0x04 stBadParam
  else d.withBuffer 0x04 c fun d =>
    let r := bufRamp c
    if rampValid r then (d.queueOp (.start ch t (some r) false)).completeRes c 0x04 stOk 36 []
    else d.completeRes c 0x04 stBadParam 36 []

/-- PROFILE_START (R94–R96): channel, PARAMS and target in bytes 20, 21 and 24–27. -/
def execProfileStart (c : Cmd) (s : State) : Outcome State Fault Refusal :=
  s.runCmd 0x04 (inlMask [(20, 0xFF), (21, 1), (24, 0xFFFFFFFF)]) c (Dev.profileStart c)

/-- PROFILE_MODIFY's own checks and effect. -/
def Dev.profileModify (c : Cmd) (d : Dev) : Dev :=
  let ch := c.byte 20
  let mask := c.half 22 % 512
  let newTgt := bitAt (c.half 22) 9
  let t := BitVec.ofNat 32 (c.word 24)
  let tgt : Option W32 := if newTgt then some t else none
  if 16 ≤ ch ∨ c.len.toNat ≠ (if mask = 0 then 0 else 36) ∨
      (newTgt ∧ 8 ≤ ch ∧ (t.toInt < -(2 ^ 23 : Nat) ∨ (2 ^ 23 : Nat) ≤ t.toInt)) then d.complete c 0x05 stBadParam
  else if d.chanRefused ch ∨ (newTgt ∧ 8 ≤ ch ∧ ch < 12 ∧ d.driveKind (ch - 8) ≠ 0 ∧ (d.prf ch).seg = .idle) then
    d.complete c 0x05 stRejected
  else if mask = 0 then
    if rampValid (d.rampPlanned ch) then (d.queueOp (.modify ch 0 Ramp.reset tgt)).complete c 0x05 stOk
    else d.complete c 0x05 stBadParam
  else d.withBuffer 0x05 c fun d =>
    if rampValid (rampMerge mask (bufRamp c) (d.rampPlanned ch)) then
      (d.queueOp (.modify ch mask (bufRamp c) tgt)).completeRes c 0x05 stOk 36 []
    else d.completeRes c 0x05 stBadParam 36 []

/-- PROFILE_MODIFY (R94, R96, R101, R102). -/
def execProfileModify (c : Cmd) (s : State) : Outcome State Fault Refusal :=
  s.runCmd 0x05 (inlMask [(20, 0xFF), (22, 0x3FF), (24, 0xFFFFFFFF)]) c (Dev.profileModify c)

/-- PROFILE_STOP's own checks and effect. -/
def Dev.profileStop (c : Cmd) (d : Dev) : Dev :=
  let ch := c.byte 20
  if 16 ≤ ch ∨ c.len ≠ 0 then d.complete c 0x06 stBadParam
  else if d.chanRefused ch then d.complete c 0x06 stRejected
  else if (d.prf ch).seg = .idle ∧ d.prof.ops = [] then d.complete c 0x06 stOk
  else (d.queueOp (.stop ch (decide (c.byte 21 = 1)))).complete c 0x06 stOk

/-- PROFILE_STOP (R94, R97). -/
def execProfileStop (c : Cmd) (s : State) : Outcome State Fault Refusal :=
  s.runCmd 0x06 (inlMask [(20, 0xFF), (21, 1)]) c (Dev.profileStop c)

/-- SETPOINT_WRITE's own checks and effect. -/
def Dev.setpointWrite (c : Cmd) (d : Dev) : Dev :=
  let ch := c.byte 20
  if 8 ≤ ch ∨ c.len ≠ 0 then d.complete c 0x03 stBadParam
  else if d.rankBusy ∨ d.chanRefused ch then d.complete c 0x03 stRejected
  else (d.queueOp (.write ch (BitVec.ofNat 32 (c.word 24)))).complete c 0x03 stOk

/-- SETPOINT_WRITE (R94, R98). -/
def execSetpointWrite (c : Cmd) (s : State) : Outcome State Fault Refusal :=
  s.runCmd 0x03 (inlMask [(20, 0xFF), (24, 0xFFFFFFFF)]) c (Dev.setpointWrite c)

/-! ### Registers -/

/-- PROF_STATUS_c. -/
def Dev.profStatus (d : Dev) (c : Nat) : Nat :=
  let p := d.prf c
  let seg := match p.seg with
    | .idle => 0 | .acc1 => 1 | .acc2 => 2 | .cruise => 3 | .dec2 => 4 | .dec1 => 5 | .dReq => 6 | .decMax => 7
    | .reversing => 8 | .decelStop => 9
  pack [(b2n (d.deviceDrives c), 8), (b2n p.held, 7), (b2n (p.neg && decide (p.seg ≠ .idle)), 4), (seg, 0)]

/-- PROF_SNAP (R9): positions and velocities after the same profile tick. -/
def Dev.profSnap (v : W32) (d : Dev) : Dev :=
  if v.getLsbD 0 then
    (upto 16).foldl (fun d c => d.snapAll [(Reg.PROF_POS_SNAP c, (d.prf c).pos.toNat / 2 ^ 16),
      (Reg.PROF_VEL_SNAP c, (d.prf c).vel / 2 ^ 16)]) d
  else d

/-- PROF_SNAP (R9). -/
def execProfSnap (v : W32) (s : State) : Outcome State Fault Refusal := .next (s.run (Dev.profSnap v))

end Sys2Proof.Machine
end

