-- ==== Sys2Proof/Machine/Cooling.lean ====
section
/-! DEFINITION. Cooling-plant drives (R484–R505): half-bridges, bootstrap, BLDC and stepper drives, referencing, shunt
comparators and their self-test, and AUX_DRIVE. -/

namespace Sys2Proof.Machine

open Host

def Dev.drv (d : Dev) (k : Nat) : AuxDrive := d.aux.drives.get AuxDrive.reset k
def Dev.setDrv (k : Nat) (v : AuxDrive) (d : Dev) : Dev :=
  d.onAux fun a => { a with drives := a.drives.set AuxDrive.reset k v }
def Dev.half (d : Dev) (h : Nat) : AuxHalf := d.aux.halves.get AuxHalf.reset h
def Dev.setHalf (h : Nat) (v : AuxHalf) (d : Dev) : Dev :=
  d.onAux fun a => { a with halves := a.halves.set AuxHalf.reset h v }
def Dev.grp (d : Dev) (g : Nat) : AuxGroup := d.aux.groups.get AuxGroup.reset g
def Dev.setGrp (g : Nat) (v : AuxGroup) (d : Dev) : Dev :=
  d.onAux fun a => { a with groups := a.groups.set AuxGroup.reset g v }

/-- The groups of drive k (R484). -/
def Dev.driveGroups (d : Dev) (k : Nat) : List Nat := match d.driveKind k with
  | 1 => [k]
  | 2 => [k, k + 1]
  | _ => []

/-- The drive of group g. -/
def Dev.groupDrive (d : Dev) (g : Nat) : Option Nat := (upto 4).find? fun k => (d.driveGroups k).contains g

/-- The half-bridges that drive k uses: all three of a BLDC group, two of each stepper group (R484). -/
def Dev.driveHalves (d : Dev) (k : Nat) : List Nat :=
  if d.driveKind k = 1 then [3 * k, 3 * k + 1, 3 * k + 2] else (d.driveGroups k).flatMap fun g => [3 * g, 3 * g + 1]

/-- A field of AUX_DRV_CFG. -/
def Dev.drvFld (d : Dev) (k hi lo : Nat) : Nat := d.fld (Reg.AUX_DRV_CFG k) hi lo
def Dev.drvEn (d : Dev) (k : Nat) : Bool := d.flag (Reg.AUX_DRV_CFG k) 31
def Dev.drvInv (d : Dev) (k : Nat) : Bool := d.flag (Reg.AUX_DRV_CFG k) 30
/-- STILL = SHORT (R495). -/
def Dev.drvShort (d : Dev) (k : Nat) : Bool := d.flag (Reg.AUX_DRV_CFG k) 29
def Dev.refPos (d : Dev) (k : Nat) : Bool := d.flag (Reg.AUX_DRV_CFG k) 27

/-- DT of a half-bridge's group, in ticks (R485). -/
def Dev.auxDt (d : Dev) (h : Nat) : Nat := d.fld (Reg.AUX_GRP (h / 3)) 24 16

/-! ### Half-bridges -/

/-- What a half-bridge is asked for now, and since when: a high side gives way to its low side within the period. -/
def Dev.wantNow (d : Dev) (h : Nat) : HalfWant × Nat :=
  let x := d.half h
  match x.want, x.offAt with
  | .high, some t => if t ≤ d.now then (.low, t) else (.high, x.since)
  | w, _ => (w, x.since)

/-- The ticks of a refresh that began at tick t: its low side's turn-on, its end, and the turn-on of the side that resumes
(R487). -/
def refreshOn (dt t : Nat) : Nat := t + dt
def refreshOff (dt t : Nat) : Nat := t + dt + 800
def refreshEnd (dt t : Nat) : Nat := t + 2 * dt + 800

/-- Turn-on edges of a half-bridge (R499): of the side asked for, of the high side before it within the period, of the low
side and of the resuming side of a refresh, and the latest one before these. -/
def Dev.turnOns (d : Dev) (h : Nat) : List Nat :=
  let x := d.half h
  let dt := d.auxDt h
  (if x.want = .none then [] else [x.since + dt]) ++ (x.offAt.map (· + dt)).toList ++
  (match x.refresh with
    | some t => [refreshOn dt t, refreshEnd dt t]
    | none => []) ++ x.lastOn.toList

/-- A half-bridge is asked for a side from tick `t` on, a high one until `offAt`. -/
def Dev.askAt (t h : Nat) (w : HalfWant) (offAt : Option Nat) (d : Dev) : Dev :=
  let (cur, since) := d.wantNow h
  let past := ((d.turnOns h).filter fun e => decide (e ≤ d.now)).max?
  d.setHalf h { d.half h with want := w, since := if cur = w then since else t, offAt := offAt, lastOn := past }

/-- A half-bridge is asked for a side, a high one until `offAt`. -/
def Dev.ask (h : Nat) (w : HalfWant) (offAt : Option Nat) (d : Dev) : Dev := d.askAt d.now h w offAt

/-- A half-bridge belongs to an enabled drive (R484). -/
def Dev.halfEn (d : Dev) (h : Nat) : Bool := match d.groupDrive (h / 3) with
  | some k => d.drvEn k && (d.driveHalves k).contains h
  | none => false

/-- The levels of AUXH_h and AUXL_h (R484, R485, R487): a side turns on DT after it is asked for, and a refresh turns the low
side on for 2 µs between two dead times. -/
def Dev.auxPins (d : Dev) (h : Nat) : Bool × Bool :=
  let dt := d.auxDt h
  if !d.halfEn h then (false, false) else
  let (w, since) := d.wantNow h
  let on := decide (since + dt ≤ d.now)
  let normal := (decide (w = .high) && on, decide (w = .low) && on)
  match (d.half h).refresh with
  | none => normal
  | some t =>
    if d.now < refreshOn dt t then (false, false)
    else if d.now < refreshOff dt t then (false, true)
    else if d.now < refreshEnd dt t then (false, false)
    else normal

/-- No side of a drive is asked for; a refresh pulse in progress ends by itself (R487). -/
def Dev.driveOff (k : Nat) (d : Dev) : Dev := (d.driveHalves k).foldl (fun d h => d.ask h .none none) d

/-- Both outputs of a half-bridge go low at once, those of a refresh too. -/
def Dev.halfDark (d : Dev) (h : Nat) : Dev :=
  let d := d.ask h .none none
  d.setHalf h { d.half h with refresh := none }

/-- Every output of a drive goes low at once. -/
def Dev.driveDark (k : Nat) (d : Dev) : Dev := (d.driveHalves k).foldl Dev.halfDark d

/-- Both low sides of each coil on, or the three of a BLDC group. -/
def Dev.driveLow (k : Nat) (d : Dev) : Dev := (d.driveHalves k).foldl (fun d h => d.ask h .low none) d

/-- The channel's parameters are those from before the re-approach again (R496). -/
def Dev.restoreRamp (k : Nat) (d : Dev) : Dev := match (d.drv k).saved with
  | some r => (d.setPrf (8 + k) { d.prf (8 + k) with ramp := r }).setDrv k { d.drv k with saved := none }
  | none => d

/-- A change that starts a channel or gives it a target. -/
def opMoves (c : Nat) : ProfOp → Bool
  | .start k _ _ _ => decide (k = c)
  | .modify k _ _ t => decide (k = c) && t.isSome
  | _ => false

/-- The channel of drive k halts as in R97; a start that waits for its profile tick is halted in it. -/
def Dev.haltDrive (k : Nat) (d : Dev) : Dev :=
  let d := d.haltChan (8 + k)
  if d.prof.ops.any (opMoves (8 + k)) then d.onProf fun p => { p with ops := p.ops ++ [.stop (8 + k) true] } else d

/-- A fault (R503): every output of the drive turns low, its channel halts, and it is reported as a fault of `what`, the
drive itself or the group that its comparator turned off (R500). A later fault of a drive in FAULT takes the code. -/
def Dev.faultOf (what k code : Nat) (d : Dev) : Dev :=
  let d := ((d.restoreRamp k).driveDark k).haltDrive k
  let d := d.setDrv k { d.drv k with
    st := .fault, fault := code, faultTick := d.now, charged := false, running := false, homing := .none, next := none,
    stillStart := none }
  (d.event 17 0 what 0 0).irq 51

/-- A fault of the drive itself. -/
def Dev.auxFault (k code : Nat) (d : Dev) : Dev := d.faultOf k k code

/-- Standstill (R495): OFF or SHORT. -/
def Dev.standstill (k : Nat) (d : Dev) : Dev :=
  let d := if d.drvShort k then d.driveLow k else d.driveDark k
  d.setDrv k { d.drv k with st := .standstill, charged := (d.drv k).charged && d.drvShort k, stillStart := none, running := false, homing := .none, next := none }

/-- The longest dead time of a drive's half-bridges. -/
def Dev.driveDt (d : Dev) (k : Nat) : Nat := maxList 0 ((d.driveHalves k).map d.auxDt)

/-- Precharge begins (R486): every low side turns on after the longest dead time of the drive, for PRECHARGE µs. -/
def Dev.startPrecharge (k : Nat) (next : Option (ProfOp × HomePhase)) (d : Dev) : Dev :=
  let us := d.drvFld k 14 8
  let on := d.now + d.driveDt k
  let d := (d.driveHalves k).foldl (fun d h => d.askAt (on - d.auxDt h) h .low none) d
  d.setDrv k { d.drv k with
    st := .precharge, next := next, charged := false, preEnd := on + (if us = 0 then 20 else us) * usTicks
    stillStart := none }

/-- A Hall code that is no sector's (R488). -/
def hallDead (h : Option Nat) : Bool := h == some 0 || h == some 7

/-! ### BLDC drives (R488–R492) -/

/-- The + and − half-bridges of a sector (R489). -/
def sectorPair : Nat → Nat × Nat
  | 0 => (0, 1)
  | 1 => (0, 2)
  | 2 => (1, 2)
  | 3 => (1, 0)
  | 4 => (2, 0)
  | _ => (2, 1)

/-- The step count of a channel. -/
def Dev.stepCount (d : Dev) (k : Nat) : Int := (d.prf (8 + k)).pos.toInt / (2 ^ 24 : Nat)

/-- e of R490. -/
def Dev.hallError (d : Dev) (k : Nat) : Int :=
  signed 24 (unsigned 24 (d.stepCount k - (d.drv k).count))

/-- u of R490 in units of 2^−56 / 100 of full duty, within ±DUTY_MAX. -/
def Dev.dutyOf (d : Dev) (k : Nat) : Int :=
  let p := d.prf (8 + k)
  let v : Int := if p.neg then -(p.vel : Int) else p.vel
  let g := d.cfg (Reg.AUX_DRV_GAIN k)
  let add : Int := if d.flag (Reg.AUX_DRV_DUTY k) 31 then (d.aux.dutySigs.get 0 k).toInt * (2 ^ 32 : Nat) else 0
  let u : Int := (bits g 15 0 : Int) * v * 1000 + (bits g 31 16 : Int) * d.hallError k * (2 ^ 40 : Nat) + add
  let top : Int := (d.fld (Reg.AUX_DRV_DUTY k) 23 16 * 2 ^ 56 : Nat)
  clampI (-top) top (100 * u)

/-- A BLDC drive's period (R489, R490). -/
def Dev.bldcPeriod (k : Nat) (d : Dev) : Dev :=
  let x := d.drv k
  if hallDead x.hall then d.auxFault k 1
  else if !x.running ∨ !d.drvEn k then d.driveOff k
  else if (d.fld (Reg.AUX_DRV_HALL k) 31 24 : Int) < (d.hallError k).natAbs then d.auxFault k 4
  else
    let u := d.dutyOf k
    let neg := decide (u < 0) != d.drvInv k
    let on := (rdiv ((u.natAbs : Int) * d.fld Reg.AUX_CFG 15 0) (100 * 2 ^ 56 : Nat)).toNat
    let (plus, minus) := sectorPair (if neg then (x.sector + 3) % 6 else x.sector)
    (upto 3).foldl (fun d j =>
      let h := 3 * k + j
      if j = plus then
        (if on = 0 then d.ask h .low none
         else d.ask h .high (if d.fld Reg.AUX_CFG 15 0 ≤ on then none else some (d.now + on)))
      else if j = minus then d.ask h .low none
      else d.ask h .none none) d

/-- HALL_CHANGE (R488): steps are counted, and an impossible code or jump is fault HALL. The first code counted only tells
the sector (log 123, DESIGN CHOICE). -/
def Dev.hallChange (k code : Nat) (d : Dev) : Dev :=
  let x := d.drv k
  if d.driveKind k ≠ 1 ∨ x.hall = some code then d
  else
    let d := d.setDrv k { x with hall := some code }
    if code = 0 ∨ code = 7 then d.auxFault k 1
    else if x.hall.isNone then
      d.setDrv k { d.drv k with sector := d.fld (Reg.AUX_DRV_HALL k) (3 * code + 2) (3 * code), lastChange := d.now }
    else
      let s := d.fld (Reg.AUX_DRV_HALL k) (3 * code + 2) (3 * code)
      let jump := (s + 6 - x.sector % 6) % 6
      let steps : Int := if jump < 3 then (jump : Int) else (jump : Int) - 6
      let moved : AuxDrive := { d.drv k with sector := s }
      if jump = 0 then d.setDrv k moved
      else if jump = 3 then (d.setDrv k moved).auxFault k 1
      else
        let dir := if d.drvInv k then -steps else steps
        let d := d.setDrv k { moved with
          count := (x.count + dir) % (2 ^ 24 : Nat), lastChange := d.now, prevT := d.now - x.lastChange,
          reverse := decide (steps < 0) }
        if steps.natAbs = 2 then d.event 17 2 k 0 0 else d

def execHallChange (k : Fin 4) (code : Fin 8) (s : State) : Outcome State Fault Refusal :=
  .next (s.run (Dev.hallChange k.val code.val))

/-! ### Stepper drives (R493–R495) -/

/-- Microsteps in a full step. -/
def Dev.microsteps (d : Dev) (k : Nat) : Nat := 2 ^ d.drvFld k 26 24

/-- The microstep index (R493). -/
def Dev.microIndex (d : Dev) (k : Nat) : Nat :=
  let n := d.stepCount k
  ((if d.drvInv k then -n else n) % (64 / d.microsteps k : Nat)).toNat

/-- The current in force, in hundredths of a comparator code (R493, R495, R496). -/
def Dev.coilCurrent (d : Dev) (k : Nat) : Nat :=
  let r := Reg.AUX_DRV_CUR k
  d.fld r 31 24 * (match (d.drv k).st with
    | .moving => 100
    | .homing => if (d.drv k).homing = .stall then d.fld r 15 8 else 100
    | _ => d.fld r 23 16)

/-- Demands of coils A and B in 1/25600 of a comparator code (R493). -/
def Dev.coilDemands (d : Dev) (k : Nat) : Int × Int :=
  let m := d.microsteps k
  let i : Int := d.coilCurrent k
  let phi := d.microIndex k * 2 ^ 30 / m + (if m = 1 then 2 ^ 29 else 0)
  let (c, s) := cosSin phi 0
  if m = 1 then (if 0 < c then 256 * i else -256 * i, if 0 < s then 256 * i else -256 * i)
  else (i * rshr c 22, i * rshr s 22)

/-- A coil on a group is driven in the sign of its demand (R494). -/
def Dev.driveCoil (g : Nat) (i : Int) (d : Dev) : Dev :=
  let d := d.setGrp g { d.grp g with chop := false }
  let a : HalfWant := if 0 < i then .high else .low
  let b : HalfWant := if i < 0 then .high else .low
  (d.ask (3 * g) a none).ask (3 * g + 1) b none

/-- A stepper's period. -/
def Dev.stepperPeriod (k : Nat) (d : Dev) : Dev :=
  let (a, b) := d.coilDemands k
  if d.drvEn k then (d.driveCoil k a).driveCoil (k + 1) b else d.driveOff k

/-- AUX_PERIOD_START (R485, R490, R494), in the clock cycle that reaches a multiple of PERIOD. -/
def Dev.auxPeriod (k : Nat) (d : Dev) : Dev :=
  if d.cycle ≤ d.now % max (d.fld Reg.AUX_CFG 15 0) 1 then d
  else match (d.drv k).st, d.driveKind k with
    | .ready, 1 | .moving, 1 => d.bldcPeriod k
    | .ready, 2 | .moving, 2 | .homing, 2 => d.stepperPeriod k
    | _, _ => d

def execAuxPeriodStart (k : Fin 4) (s : State) : Outcome State Fault Refusal := .next (s.run (Dev.auxPeriod k.val))

/-- Electrical angle of a drive (R492, R493). The rotor stands while its channel is idle (DEDUCED). -/
def Dev.auxAngle (d : Dev) (k : Nat) : W32 :=
  let x := d.drv k
  match d.driveKind k with
  | 1 =>
    let ofs := BitVec.ofNat 32 (d.cfg (Reg.AUX_DRV_ANG k))
    if (d.prf (8 + k)).seg = .idle ∨ x.prevT = 0 then ofs + BitVec.ofInt 32 (rdiv ((2 * x.sector + 1 : Nat) * (2 ^ 32 : Nat)) 12)
    else
      let t := min (d.now - x.lastChange) x.prevT
      let part : Nat := if x.reverse then (x.sector + 1) * x.prevT - t else x.sector * x.prevT + t
      ofs + BitVec.ofInt 32 (rdiv ((2 ^ 32 * part : Nat)) (6 * x.prevT : Nat))
  | 2 => BitVec.ofNat 32 (d.microIndex k * 2 ^ 32 * d.microsteps k / 64)
  | _ => 0

/-- What a sample instant takes for the drives (R490). -/
def Dev.auxSample (d : Dev) : Dev :=
  d.onAux fun a => { a with dutySigs := (upto 4).foldl (fun m k =>
    m.set 0 k (d.sig (d.fld (Reg.AUX_DRV_DUTY k) 8 0))) a.dutySigs }

/-! ### Bootstrap and precharge (R486, R487) -/

/-- A refresh of half-bridge h is in progress. -/
def Dev.refreshing (d : Dev) (h : Nat) : Bool :=
  (d.half h).refresh.any fun t => decide (d.now < refreshEnd (d.auxDt h) t)

/-- BOOTSTRAP_LOW (R487): the bootstrap of half-bridge h is below 6.5 V. While its high side is on it gets a refresh; the third
one without 1 ms above 6.5 V in between is fault BOOTSTRAP. A bootstrap is above 6.5 V again when its refresh pulse ends
(log 123, DESIGN CHOICE). -/
def Dev.bootstrapLow (h : Nat) (d : Dev) : Dev :=
  let x := d.half h
  let n := if x.lastLow + msTicks ≤ d.now then 0 else x.refreshes
  if (d.wantNow h).1 ≠ .high ∨ d.refreshing h then d.setHalf h { x with refreshes := n, lastLow := max x.lastLow d.now }
  else
    let d := (d.setHalf h { x with
      refresh := some d.now, refreshes := n + 1, lastLow := refreshOff (d.auxDt h) d.now }).onAux fun a =>
        { a with refreshCnt := satInc a.refreshCnt }
    match d.groupDrive (h / 3) with
    | some k => if 3 ≤ n + 1 then (d.setHalf h { d.half h with refreshes := 0 }).auxFault k 2 else d
    | none => d

def execBootstrapLow (h : Fin 12) (s : State) : Outcome State Fault Refusal := .next (s.run (Dev.bootstrapLow h.val))

/-- A move of a stepper begins. -/
def Dev.beginDriveMove (k : Nat) (op : ProfOp) (phase : HomePhase) (d : Dev) : Dev :=
  (d.queueOp op).setDrv k { d.drv k with
    st := if phase = .none then .moving else .homing, homing := phase, phaseStart := d.now, stillStart := none, next := none }

/-- PRECHARGE_END (R486): READY, or the move that waited for it. -/
def Dev.prechargeEnd (k : Nat) (d : Dev) : Dev :=
  let x := d.drv k
  if x.st ≠ .precharge ∨ d.now < x.preEnd then d
  else
    let d := (d.driveOff k).setDrv k { x with charged := true }
    match x.next with
    | some (op, phase) => d.beginDriveMove k op phase
    | none => d.setDrv k { d.drv k with st := .ready }

def execPrechargeEnd (k : Fin 4) (s : State) : Outcome State Fault Refusal := .next (s.run (Dev.prechargeEnd k.val))

/-- STILL_DELAY_EXPIRE (R495). -/
def Dev.stillExpire (k : Nat) (d : Dev) : Dev :=
  let x := d.drv k
  match x.stillStart with
  | some t => if x.st = .ready ∧ t + d.fld (Reg.AUX_DRV_CUR k) 7 0 * 10 * msTicks ≤ d.now then d.standstill k else d
  | none => d

def execStillDelayExpire (k : Fin 4) (s : State) : Outcome State Fault Refusal := .next (s.run (Dev.stillExpire k.val))

/-! ### Referencing and moves (R491, R496, R497) -/

/-- The limit input of a drive's side, where one is used. -/
def Dev.limitOf (d : Dev) (k : Nat) (pos : Bool) : Option Nat :=
  if pos then (if d.drvFld k 19 19 = 1 then some (d.drvFld k 22 20) else none)
  else if d.drvFld k 15 15 = 1 then some (d.drvFld k 18 16) else none

/-- The limit input of a side is active (R497). -/
def Dev.limitActive (d : Dev) (k : Nat) (pos : Bool) : Bool := match d.limitOf k pos with
  | some i => bitAt d.aux.limits i
  | none => false

/-- A relative move of `full` full steps to a side as a channel command. -/
def Dev.relMove (d : Dev) (k full : Nat) (pos : Bool) : ProfOp :=
  let n : Int := (full * d.microsteps k : Nat)
  .start (8 + k) (BitVec.ofInt 32 (d.stepCount k + (if pos then n else -n))) none true

/-- TRAVEL + MARGIN and MARGIN of a drive. -/
def Dev.seekSteps (d : Dev) (k : Nat) : Nat := d.fld (Reg.AUX_DRV_REF k) 31 16 + d.fld (Reg.AUX_DRV_REF k) 15 0
def Dev.marginSteps (d : Dev) (k : Nat) : Nat := d.fld (Reg.AUX_DRV_REF k) 15 0
def Dev.homePos (d : Dev) (k : Nat) : W32 := BitVec.ofInt 32 (signed 24 (d.fld (Reg.AUX_DRV_HOME k) 23 0))

/-- Referencing is complete (R496). -/
def Dev.homed (k : Nat) (d : Dev) : Dev :=
  let d := d.restoreRamp k
  (d.setDrv k { d.drv k with st := .ready, homing := .none, homed := true, stillStart := some d.now }).event 17 4 k 0 0

/-- The re-approach (R496). -/
def Dev.startApproach (k : Nat) (d : Dev) : Dev :=
  let p := d.prf (8 + k)
  let d := (d.setPrf (8 + k) { p with ramp := approachRamp p.ramp }).setDrv k { d.drv k with saved := some p.ramp }
  d.beginDriveMove k (d.relMove k (d.seekSteps k) (d.refPos k)) .approach

/-- A channel has nothing to do and nothing queued. -/
def Dev.chanIdle (d : Dev) (c : Nat) : Bool :=
  decide ((d.prf c).seg = .idle) && !(d.prof.ops.any fun o => match o with
    | .start k _ _ _ | .modify k _ _ _ | .stop k _ | .write k _ | .commit k _ => decide (k = c))

/-- 2^22 steps in the commanded direction (R491). -/
def aheadSteps (neg : Bool) : Int := if neg then -4194304 else 4194304

/-- A running BLDC drive keeps its target 2^22 steps ahead (R491). -/
def Dev.keepAhead (k : Nat) (d : Dev) : Dev :=
  let p := d.prf (8 + k)
  let x := d.drv k
  if p.seg = .idle ∨ p.stopping ∨ p.halting ∨ (2 ^ 21 * 2 ^ 40 : Nat) ≤ remaining (8 + k) p ∨ p.neg ≠ x.negRun then d
  else d.retarget (8 + k) (BitVec.ofInt 32 (d.stepCount k + aheadSteps x.negRun))

/-- Drive k follows its channel after a profile tick (R491, R495, R496). -/
def Dev.driveFollow (d : Dev) (k : Nat) : Dev :=
  let x := d.drv k
  let idle := d.chanIdle (8 + k)
  match x.st with
  | .moving =>
    if x.running then
      (if idle then d.setDrv k { x with st := .ready, running := false } else d.keepAhead k)
    else if idle then d.setDrv k { x with st := .ready, stillStart := some d.now } else d
  | .homing =>
    if !idle then d
    else match x.homing with
      | .stall => (d.loadPos (8 + k) (d.homePos k)).homed k
      | .seek => d.auxFault k 5
      | .seekEnd => d.beginDriveMove k (d.relMove k (d.marginSteps k) (!d.refPos k)) .backOff
      | .backOff => d.startApproach k
      | .backEnd => d.startApproach k
      | .approach => d.auxFault k 5
      | .approachEnd => d.homed k
      | .none => d
  | _ => d

/-- PROFILE_TICK (R85), and the drives that follow their channels in it (R88). -/
def execProfileTick (s : State) : Outcome State Fault Refusal :=
  .next (s.run fun d => if d.profileDue then (upto 4).foldl Dev.driveFollow d.profileTick else d)

/-- The re-approach's edge defines home (R496): the position at the raw edge, DEBOUNCE earlier at V_START, becomes
HOME_POS, and the drive stops at DEC_MAX. -/
def Dev.defineHome (k : Nat) (d : Dev) : Dev :=
  let p := d.prf (8 + k)
  let n := min (d.drvFld k 7 0 * 100) ((d.now - (d.drv k).phaseStart) / usTicks)
  let back : Int := (n * wide p.ramp.vStart : Nat)
  let home : Int := (d.homePos k).toInt * (2 ^ 40 : Nat)
  let full := unsigned 64 (if p.neg then home - back else home + back)
  d.setPrf (8 + k) { p with pos := BitVec.ofNat 48 (full / 2 ^ 16), rem := full % 2 ^ 16 }

/-- An edge of a drive's limit input (R496, R497). -/
def Dev.limitEdge (i : Nat) (level : Bool) (d : Dev) (k : Nat) : Dev :=
  let x := d.drv k
  let c := 8 + k
  let ends (p : HomePhase) (d : Dev) : Dev := (d.haltDrive k).setDrv k { d.drv k with homing := p }
  let mine := decide (d.limitOf k (d.refPos k) = some i)
  match x.st, x.homing with
  | .homing, .seek => if mine then ends .seekEnd d else d
  | .homing, .backOff => if mine then ends .backEnd d else d
  | .homing, .approach => if mine then ends .approachEnd (d.defineHome k) else d
  | .moving, _ =>
    let p := d.prf c
    if level ∧ p.seg ≠ .idle ∧ d.limitOf k (!p.neg) = some i then (d.haltDrive k).event 17 1 k 0 0 else d
  | _, _ => d

/-- LIMIT_INPUT_EDGE: a level that has held for DEBOUNCE. -/
def Dev.limitInput (i : Nat) (level : Bool) (d : Dev) : Dev :=
  if bitAt d.aux.limits i = level then d
  else
    let d := d.onAux fun a => { a with limits := if level then a.limits + 2 ^ i else a.limits - 2 ^ i }
    ((upto 4).filter fun k => decide (d.driveKind k ≠ 0)).foldl (Dev.limitEdge i level) d

def execLimitInputEdge (i : Fin 8) (level : Bool) (s : State) : Outcome State Fault Refusal :=
  .next (s.run (Dev.limitInput i.val level))

/-! ### Shunt comparators (R498–R501) -/

/-- The comparator's set level and hard level of group g in 1/25600 of a comparator code (R494, R498): SC and its double in a
BLDC group; in a stepper group the chop level of its coil, and twice RUN. -/
def Dev.shuntLevels (d : Dev) (g : Nat) : Option (Int × Int) :=
  match d.groupDrive g with
  | none => none
  | some k =>
    if d.driveKind k = 1 then
      let sc : Int := (25600 * d.fld (Reg.AUX_GRP g) 6 0 : Nat)
      some (sc, 2 * sc)
    else
      let i := d.coilDemands k
      some (((if g = k then i.1 else i.2).natAbs : Int), (51200 * d.fld (Reg.AUX_DRV_CUR k) 31 24 : Nat))

/-- A shunt voltage in microvolts lies above a level; one comparator code is 2 mV. -/
def aboveLevel (uv level : Int) : Bool := decide (level * 2000 < uv * 25600)

/-- The voltage at the shunt of group g crosses its set level, and its hard level. -/
def Dev.crossesSet (d : Dev) (g : Nat) (uv : Int) : Bool := (d.shuntLevels g).any fun l => aboveLevel uv l.1
def Dev.crossesHard (d : Dev) (g : Nat) (uv : Int) : Bool := (d.shuntLevels g).any fun l => aboveLevel uv l.2

/-- Blanking of group g is running (R499). -/
def Dev.auxBlank (d : Dev) (g : Nat) : Bool :=
  let r := Reg.AUX_BLANK g
  (upto 3).any fun j => d.flag r (16 + j) && (d.turnOns (3 * g + j)).any fun t =>
    decide (t ≤ d.now ∧ d.now < t + d.fld r 11 0)

/-- The comparator of group g has turned it off: its drive faults. A second group of the drive that crosses in the same
tick is recorded too (R500). -/
def Dev.overcurrent (g k : Nat) (d : Dev) : Dev :=
  let note (d : Dev) : Dev := d.onAux fun a => { a with oc := a.oc ||| 2 ^ g }
  let x := d.drv k
  if x.st ≠ .fault then (note d).faultOf g k 3
  else if x.fault = 3 ∧ x.faultTick = d.now ∧ bitAt d.aux.oc g = false then (note d).event 17 0 g 0 0
  else d

/-- A crossing acts: a BLDC group's set level and any hard level turn the group off; a stepper's set level chops a coil
that is driven (R494, R498, R500). -/
def Dev.crossing (g : Nat) (hard : Bool) (d : Dev) : Dev :=
  match d.groupDrive g with
  | none => d
  | some k =>
    if (d.drv k).st = .off then d
    else if hard ∨ d.driveKind k = 1 then d.overcurrent g k
    else if (d.drv k).st ≠ .ready ∧ (d.drv k).st ≠ .moving ∧ (d.drv k).st ≠ .homing then d
    else ((d.setGrp g { d.grp g with chop := true }).ask (3 * g) .low none).ask (3 * g + 1) .low none

/-- SHUNT_CROSSING: SHUNT_P_g − SHUNT_N_g has risen to `uv` microvolts. Below the set level nothing acts, and during
blanking only the hard level does. -/
def Dev.shuntCrossing (g : Nat) (uv : Int) (d : Dev) : Dev :=
  if d.crossesHard g uv then d.crossing g true
  else if !d.crossesSet g uv then d
  else if d.auxBlank g then d.setGrp g { d.grp g with seen := true }
  else d.crossing g false

def execShuntCrossing (g : Fin 4) (uv : Int) (s : State) : Outcome State Fault Refusal :=
  .next (s.run (Dev.shuntCrossing g.val uv))

/-- AUX_BLANK_END (R499), with the shunt voltage at that moment: a crossing of the set level still present acts; one that has
ended is counted. -/
def Dev.auxBlankEnd (g : Nat) (uv : Int) (d : Dev) : Dev :=
  let x := d.grp g
  let present := d.crossesSet g uv
  if x.seen = false ∨ d.auxBlank g then d
  else
    let d := d.setGrp g { x with seen := false, blanked := if present then x.blanked else satInc x.blanked }
    if present then d.crossing g false else d.event 17 3 g 0 0

def execAuxBlankEnd (g : Fin 4) (uv : Int) (s : State) : Outcome State Fault Refusal :=
  .next (s.run (Dev.auxBlankEnd g.val uv))

/-- A group is idle (R501). -/
def Dev.groupIdle (d : Dev) (g : Nat) : Bool := match d.groupDrive g with
  | none => true
  | some k => let x := d.drv k
    decide (x.st = .off ∨ x.st = .fault) || (decide (x.st = .standstill) && !d.drvShort k)

/-- One group's self-test. -/
def Dev.testGroup (pass : Nat) (d : Dev) (g : Nat) : Dev :=
  let ok := bitAt pass g
  let clear (m : Nat) : Nat := if bitAt m g then m - 2 ^ g else m
  let d := d.onAux fun a => { a with
    testPass := clear a.testPass + (if ok then 2 ^ g else 0), testFail := clear a.testFail + (if ok then 0 else 2 ^ g) }
  let d := match d.groupDrive g with
    | some k => if ok then d else d.auxFault k 6
    | none => d
  (d.event 17 5 g 0 0).irq 52

/-- AUX_SELFTEST (R501). `pass` is what the comparators answer. -/
def Dev.auxSelftest (c : Cmd) (pass : Nat) (d : Dev) : Dev :=
  let m := c.byte 20
  let gs := (upto 4).filter fun g => bitAt m g
  if m = 0 then d.complete c 0xA1 stBadParam
  else if gs.any fun g => !d.groupIdle g then d.complete c 0xA1 stRejected
  else (gs.foldl (Dev.testGroup pass) d).complete c 0xA1 (if gs.all fun g => bitAt pass g then stOk else stPartial)

def execAuxSelftest (c : Cmd) (pass : BitVec 4) (s : State) : Outcome State Fault Refusal :=
  s.runCmd 0xA1 (inlMask [(20, 0xF)]) c (Dev.auxSelftest c pass.toNat)

/-- VGD_LOW (R504). -/
def Dev.vgdLow (d : Dev) : Dev :=
  let d := (upto 12).foldl Dev.halfDark d
  ((upto 4).filter fun k => d.drvEn k && decide (d.driveKind k ≠ 0)).foldl (fun d k => d.auxFault k 7) d

def execVgdLow (s : State) : Outcome State Fault Refusal := .next (s.run Dev.vgdLow)

/-! ### AUX_DRIVE (R502) -/

/-- The cause of a drive's fault persists. -/
def Dev.faultPersists (d : Dev) (k : Nat) : Bool := match (d.drv k).fault with
  | 1 => hallDead (d.drv k).hall
  | 6 => (d.driveGroups k).any fun g => bitAt d.aux.testFail g
  | 7 => decide ((d.hk.chans.get HkChan.reset 18).value.toNat < 7000)
  | _ => false

/-- A move towards a side is accepted now or after precharge (R495). -/
def Dev.acceptMove (k : Nat) (op : ProfOp) (phase : HomePhase) (d : Dev) : Dev :=
  if (d.drv k).st = .standstill ∧ (d.drv k).charged = false then d.startPrecharge k (some (op, phase))
  else d.beginDriveMove k op phase

/-- MOVE to a target. -/
def Dev.driveMove (k : Nat) (t : W32) (r : Option Ramp) (d : Dev) : Dev :=
  (d.setPrf (8 + k) { d.prf (8 + k) with wraps := false }).acceptMove k (.start (8 + k) t r false) .none

/-- RUN in a direction (R491). -/
def Dev.driveRun (k : Nat) (neg : Bool) (r : Option Ramp) (d : Dev) : Dev :=
  let t := BitVec.ofInt 32 (d.stepCount k + aheadSteps neg)
  let d := d.setPrf (8 + k) { d.prf (8 + k) with wraps := true }
  (d.queueOp (.start (8 + k) t r true)).setDrv k { d.drv k with st := .moving, running := true, negRun := neg }

/-- STOP: PROFILE_STOP DECEL; a referencing ends with it. -/
def Dev.driveStop (k : Nat) (d : Dev) : Dev :=
  let x := d.drv k
  let d := if x.st = .homing then (d.setDrv k { x with st := .moving, homing := .none }).restoreRamp k else d
  let d := if x.st = .precharge then d.setDrv k { x with next := none } else d
  if d.chanIdle (8 + k) then d else d.queueOp (.stop (8 + k) false)

/-- HOME (R496). -/
def Dev.driveHome (k : Nat) (d : Dev) : Dev :=
  let phase : HomePhase := if d.drvFld k 28 28 = 0 then .stall else .seek
  (d.setPrf (8 + k) { d.prf (8 + k) with wraps := false }).acceptMove k (d.relMove k (d.seekSteps k) (d.refPos k)) phase

/-- RELEASE: standstill at once. -/
def Dev.driveRelease (k : Nat) (d : Dev) : Dev :=
  let x := d.drv k
  if x.st = .off ∨ x.st = .fault then d else ((d.restoreRamp k).haltDrive k).standstill k

/-- ENABLE of a drive that is OFF or in standstill. A BLDC drive whose Hall inputs stand at 000 or 111 faults (R488). -/
def Dev.driveEnable (k : Nat) (d : Dev) : Dev :=
  let x := d.drv k
  if x.st = .off ∨ x.st = .standstill then
    let d := d.startPrecharge k none
    if d.driveKind k = 1 ∧ hallDead x.hall = true then d.auxFault k 1 else d
  else d

/-- MOVE and RUN with the parameters they carry. -/
def Dev.driveGo (c : Cmd) (k : Nat) (r : Option Ramp) (d : Dev) : Dev :=
  let t := BitVec.ofNat 32 (c.word 24)
  if c.byte 21 = 1 then d.driveMove k t r else d.driveRun k (decide (t.toInt < 0)) r

/-- AUX_DRIVE's own checks and effect. -/
def Dev.auxDrive (c : Cmd) (d : Dev) : Dev :=
  let k := c.byte 20
  let a := c.byte 21
  let params := bitAt (c.byte 22) 0
  let t : Int := (BitVec.ofNat 32 (c.word 24)).toInt
  let x := d.drv k
  let kind := d.driveKind k
  let done (st : Nat) (d : Dev) : Dev := d.complete c 0xA0 st
  let goes := decide (a = 1 ∨ a = 2)
  if 4 ≤ k ∨ kind = 0 ∨ 6 < a ∨ c.len.toNat ≠ (if params then 36 else 0) ∨ (params = true ∧ goes = false) then done stBadParam d
  else if (a = 1 ∧ (kind = 1 ∨ t < -(2 ^ 23 : Nat) ∨ (2 ^ 23 : Nat) ≤ t)) ∨ (a = 2 ∧ kind = 2) ∨ (a = 4 ∧ kind = 1) then
    done stBadParam d
  else if goes then
    let limited := if a = 1 then
        (decide (d.stepCount k < t) && d.limitActive k true) || (decide (t < d.stepCount k) && d.limitActive k false)
      else d.limitActive k (decide (0 ≤ t))
    let free := if a = 1 then decide (x.st = .ready ∨ x.st = .moving ∨ x.st = .standstill)
                else decide (x.st = .ready) || x.running
    if !free || limited then done stRejected d
    else if !params then
      if rampValid (d.rampPlanned (8 + k)) then done stOk (d.driveGo c k none) else done stBadParam d
    else d.withBuffer 0xA0 c fun d =>
      let r := bufRamp c
      if rampValid r then (d.driveGo c k (some r)).completeRes c 0xA0 stOk 36 []
      else d.completeRes c 0xA0 stBadParam 36 []
  else match a with
    | 0 => if x.st = .fault ∨ (d.driveGroups k).any (fun g => bitAt d.aux.testFail g) = true then done stRejected d
           else done stOk (d.driveEnable k)
    | 3 => done stOk (d.driveStop k)
    | 4 => if x.st = .ready ∨ x.st = .standstill then
             (if rampValid (d.rampPlanned (8 + k)) then done stOk (d.driveHome k) else done stBadParam d)
           else done stRejected d
    | 5 => done stOk (d.driveRelease k)
    | _ => if x.st ≠ .fault ∨ d.faultPersists k = true then done stRejected d
           else
             let groups := d.driveGroups k
             let d := d.onAux fun o => { o with oc := groups.foldl (fun m g => if bitAt m g then m - 2 ^ g else m) o.oc }
             done stOk (d.setDrv k { x with st := .off, fault := 0 })

def execAuxDrive (c : Cmd) (s : State) : Outcome State Fault Refusal :=
  s.runCmd 0xA0 (inlMask [(20, 0xFFFF), (22, 1), (24, 0xFFFFFFFF)]) c (Dev.auxDrive c)

/-! ### Registers -/

/-- STATE of a drive. -/
def driveCode : DriveState → Nat
  | .off => 0 | .precharge => 1 | .ready => 2 | .moving => 3 | .homing => 4 | .standstill => 5 | .fault => 6

/-- AUX_DRV_STATUS. -/
def Dev.drvStatus (d : Dev) (k : Nat) : Nat :=
  let x := d.drv k
  pack [(x.fault, 8), (b2n x.homed, 4), (driveCode x.st, 0)]

/-- AUX_STATUS. -/
def Dev.auxStatus (d : Dev) : Nat := pack [(d.aux.testFail, 4), (d.aux.testPass, 0)]

/-- AUX_SNAP. -/
def Dev.auxSnap (d : Dev) : Dev :=
  d.snapAll [(Reg.AUX_OC_SNAP, d.aux.oc), (Reg.AUX_REFRESH_CNT_SNAP, d.aux.refreshCnt)]

def execAuxSnap (v : W32) (s : State) : Outcome State Fault Refusal :=
  .next (s.run fun d => if v.getLsbD 0 then d.auxSnap else d)

end Sys2Proof.Machine
end

