-- ==== Sys2Proof/Machine/Clock.lean ====
section
/-! DEFINITION. Clock synthesis (CLK, R338–R355): lock and retry, holdover, the returning reference, TIME_SET, PPS and the
seconds count. -/

namespace Sys2Proof.Machine

open Host

/-- An event of CLK (R355): the state, and e where one applies. -/
def Dev.clkEvent (bit : Nat) (e : Option Int) (d : Dev) : Dev :=
  d.event 1 bit (pllCode d.clk.state) (match e with
    | some x => unsigned 32 x
    | none => 0xFFFFFFFF) 0

/-- 2 ns, 40 ns and one tick in units of 4.8828125 ps. -/
def units2ns : Nat := 409
def units40ns : Nat := 8192
def unitsTick : Nat := 512

/-- PPS disciplining is in use (R351). -/
def Dev.ppsUsed (d : Dev) : Bool := d.flag Reg.CLK_CFG 4 && decide (d.fld Reg.CLK_CFG 1 0 ≠ 3)

/-- Every TIME_SET that is open completes (R347). -/
def Dev.closeTime (status : Nat) (d : Dev) : Dev :=
  d.clk.openCmds.foldl (fun d o => d.completeAs o.ring o.slot o.tag 0xC0 status 0 [])
    (d.onClk fun c => { c with openCmds := [] })

/-- Holdover or a new lock cuts an open PULL or STEP short: it completes with a status that the spec does not name, a free
value (log 19). -/
def Dev.dropTime (d : Dev) : Dev :=
  if d.clk.openCmds = [] then d
  else
    let k := d.free
    ({ d with free := k + 1 } : Dev).closeTime (Config.cutStatus k).toNat

/-! ### Phase steps (R350) -/

/-- VCO periods to a step: 400 ticks for pull-in and PPS, 20 ticks at most under PULL, one period for STEP (R348–R350). -/
def perPullIn : Nat := 3200
def perFast : Nat := 160
def perStep : Nat := 1

/-- The phase that a run has removed by tick `t`. -/
def phaseRemoved (r : PhaseRun) (t : Nat) : Int :=
  r.n.sign * min r.n.natAbs (8 * (t - r.start) / max r.per 1)

/-- A run has removed all it was to remove by tick `t`. -/
def phaseComplete (r : PhaseRun) (t : Nat) : Bool := decide (phaseRemoved r t = r.n)

/-- The phase removed so far by the run in progress. -/
def Dev.removed (d : Dev) : Int := match d.clk.steps with
  | some r => phaseRemoved r d.now
  | none => 0

/-- Phase steps since reset, with those of the run in progress. -/
def Dev.phaseSteps (d : Dev) : Nat := satAdd d.clk.stepCnt d.removed.natAbs

/-- The phase steps in progress end where they are. -/
def Dev.endSteps (d : Dev) : Dev :=
  let n := d.phaseSteps
  d.onClk fun c => { c with stepCnt := n, steps := none }

/-- Phase steps begin, in place of any in progress. -/
def Dev.startSteps (per : Nat) (n : Int) (d : Dev) : Dev :=
  d.endSteps.onClk fun c => { c with steps := some { start := d.now, per := per, n := n, step := decide (per = perStep) } }

/-- The phase steps of STEP are in progress. -/
def Dev.stepping (d : Dev) : Bool := d.clk.steps.any (·.step)

/-- The phase steps in progress, if any, have removed all they were to remove. -/
def Dev.stepsComplete (d : Dev) : Bool := match d.clk.steps with
  | some r => phaseComplete r d.now
  | none => true

/-- Holdover begins (R345). -/
def Dev.holdover (d : Dev) : Dev :=
  match d.clk.state with
  | .locked | .pulling | .jumpPending =>
    (((d.endSteps.onClk fun c => { c with state := .holdover, holdCnt := satInc c.holdCnt }).clkEvent 1 none).irq 46).dropTime
  | _ => d

/-- REF_LOST (R339): two bad windows in a row. -/
def Dev.refLost (d : Dev) : Dev :=
  if !d.clk.refOk then d else ((d.onClk fun c => { c with refOk := false }).clkEvent 2 none).holdover

/-- REF_LOST (R339). -/
def execRefLost (s : State) : Outcome State Fault Refusal := .next (s.run Dev.refLost)

/-- LOCK_WINDOW_OUTSIDE (R345): a window outside ±50 ppm while the reference is good. -/
def Dev.windowOutside (d : Dev) : Dev :=
  if d.clk.refOk ∧ (d.clk.state = .locked ∨ d.clk.state = .pulling) then d.holdover else d

/-- LOCK_WINDOW_OUTSIDE (R345). -/
def execLockWindowOutside (s : State) : Outcome State Fault Refusal := .next (s.run Dev.windowOutside)

/-- The outcome of a measured phase error (R346). -/
def Dev.measured (e : Int) (j : JumpSource) (d : Dev) : Dev :=
  let d := d.onClk fun c => { c with phaseErr := e, jump := j }
  if e.natAbs ≤ units2ns then (d.onClk fun c => { c with state := .pulling }).startSteps perPullIn e
  else ((d.endSteps.onClk fun c => { c with state := .jumpPending }).clkEvent 4 (some e)).irq 47

/-- REF_BACK (R339, R346): four good windows in a row, or the first good one after a lock window outside; e in units of
4.8828125 ps. -/
def Dev.refBack (e : Int) (d : Dev) : Dev :=
  if d.clk.refOk ∧ d.clk.state ≠ .holdover then d
  else
    let d := (d.onClk fun c => { c with refOk := true }).clkEvent 3 (some e)
    if d.clk.state = .holdover then d.measured e .ref else d

/-- REF_BACK (R339, R346). -/
def execRefBack (e : W32) (s : State) : Outcome State Fault Refusal := .next (s.run (Dev.refBack e.toInt))

/-- CLOCK_LOCK ends (R450, R451), by the last step of the lock or by its failure: an image that the host has delivered
meanwhile is applied next (R454). -/
def Dev.clockLockEnd (d : Dev) : Dev :=
  if d.sec.phase = 3 then d.onSec fun s => { s with phase := if s.staged then 5 else 4 } else d

/-- PLL_LOCK (R340, R341): lock is declared on a band, and the dither's seed is loaded. The logic leaves the fallback
oscillator 256 system-clock cycles later (Dev.clkMove). -/
def Dev.pllLock (band : Nat) (d : Dev) : Dev :=
  if d.clk.state ≠ .search ∨ !d.clk.refOk then d
  else (d.onClk fun c => { c with
    state := .locked, band := band, lockCnt := satInc c.lockCnt, trim := 0
    seed := d.fld Reg.CLK_CFG 12 8, lockTick := d.now }).clkEvent 0 none

/-- Step 4 of a lock (R340): 256 system-clock cycles after the declaration the logic moves back from the fallback oscillator,
and the lock is complete. -/
def Dev.clkMove (d : Dev) : Dev :=
  if d.clk.fallback = true ∧ d.clk.state ≠ .search ∧ d.clk.state ≠ .noLock ∧ d.clk.lockTick + 256 ≤ d.now then
    (d.onClk fun c => { c with fallback := false }).clockLockEnd
  else d

/-- PLL_LOCK (R340). -/
def execPllLock (band : Fin 16) (s : State) : Outcome State Fault Refusal := .next (s.run (Dev.pllLock band.val))

/-- LOCK_FAIL (R344): no lock within 2 ms. -/
def Dev.lockFail (d : Dev) : Dev :=
  if d.clk.state ≠ .search ∨ d.now < d.clk.lockStart + 2 * msTicks then d
  else ((d.onClk fun c => { c with state := .noLock, lockStart := d.now }).clkEvent 9 none).clockLockEnd

/-- LOCK_FAIL (R344). -/
def execLockFail (s : State) : Outcome State Fault Refusal := .next (s.run Dev.lockFail)

/-- A lock with band search begins (R340, R342). -/
def Dev.startLock (d : Dev) : Dev :=
  d.endSteps.onClk fun c => { c with state := .search, fallback := true, lockStart := d.now }

/-- LOCK_RETRY (R344): 100 ms after the failure, while a lock is permitted (R342). -/
def Dev.lockRetry (d : Dev) : Dev :=
  let idle : Bool := decide (d.gfm.mode = .off ∨ (d.gfm.mode = .tripped ∧ d.sup.acting = false))
  if d.clk.state ≠ .noLock ∨ d.now < d.clk.lockStart + 100 * msTicks ∨ !idle then d else d.startLock

/-- LOCK_RETRY (R344). -/
def execLockRetry (s : State) : Outcome State Fault Refusal := .next (s.run Dev.lockRetry)

/-- PULL_DONE (R346, R348): e has been removed by phase steps, and the loop closes. -/
def Dev.pullDone (d : Dev) : Dev :=
  if d.clk.state ≠ .pulling ∨ d.stepsComplete = false ∨ d.clk.openCmds.any (·.step) = true then d
  else
    let d := d.endSteps.onClk fun c => { c with state := .locked }
    let d := if d.clk.openCmds.isEmpty then d else (d.clkEvent 6 (some d.clk.phaseErr)).closeTime stOk
    d.irq 46

/-- PULL_DONE (R348). -/
def execPullDone (s : State) : Outcome State Fault Refusal := .next (s.run Dev.pullDone)

/-- The physical part of a jump (R349): all of e for a reference, the part below one tick for PPS. -/
def physical (j : JumpSource) (e : Int) : Int := match j with
  | .ref => e
  | .pps => e.tmod unitsTick

/-- STEP begins at the stroke boundary after its acceptance, with the physical part of what remains of e, one step per VCO
period (R349); the whole ticks re-base the second boundary. -/
def Dev.beginStep (d : Dev) : Dev :=
  if !d.clk.openCmds.any (·.step) || d.stepping then d
  else
    let rest := d.clk.phaseErr - (if d.clk.state = .pulling then d.removed else 0)
    let p := physical d.clk.jump rest
    let whole : Int := (rest - p) / unitsTick
    (d.onClk fun c => { c with secTick := ((c.secTick : Int) + whole).toNat }).startSteps perStep p

/-- STEP_DONE (R349): the phase steps of a STEP that has begun are applied, and every open TIME_SET completes. -/
def Dev.stepDone (d : Dev) : Dev :=
  if !d.stepping || !d.stepsComplete then d
  else
    let d := d.endSteps.onClk fun c => { c with state := .locked }
    ((d.clkEvent 7 (some d.clk.phaseErr)).irq 46).closeTime stOk

/-- STEP_DONE (R349). -/
def execStepDone (s : State) : Outcome State Fault Refusal := .next (s.run Dev.stepDone)

/-- TIME_SET's own checks and effect (R347–R349). PULL takes ceil(1,953.125 / RATE) ticks a step. A PULL accepted while a
STEP waits for its boundary removes e until then (DESIGN CHOICE, log 108). -/
def Dev.timeSet (c : Cmd) (d : Dev) : Dev :=
  let action := c.byte 20
  let open_ (step : Bool) (d : Dev) : Dev := d.onClk fun k => { k with
    openCmds := k.openCmds ++ [{ ring := c.ring.val, slot := c.slot.toNat, tag := c.tag.toNat, step := step }] }
  if 2 < action then d.complete c 0xC0 stBadParam
  else if action = 0 then
    (d.onClk fun k => { k with pendTod := some (c.word 24 + 2 ^ 32 * c.word 28) }).complete c 0xC0 stOk
  else if d.clk.state ≠ .jumpPending then d.complete c 0xC0 stRejected
  else if action = 1 then
    let per := ceilDiv 1953125 (1000 * max 1 (d.fld Reg.CLK_PULL 6 0))
    if d.stepping then open_ false d
    else open_ false ((d.onClk fun k => { k with state := .pulling }).startSteps (8 * per) d.clk.phaseErr)
  else
    let p := physical d.clk.jump d.clk.phaseErr
    if (d.gfm.mode ≠ .off ∧ d.gfm.mode ≠ .standby) ∨ (d.gfm.mode = .standby ∧ units40ns < p.natAbs) then
      d.complete c 0xC0 stRejected
    else open_ true d

/-- TIME_SET (R347). -/
def execTimeSet (c : Cmd) (s : State) : Outcome State Fault Refusal :=
  s.runCmd 0xC0 (inlMask [(20, 0xFF), (24, 0xFFFFFFFF), (28, 0xFFFFFFFF)]) c (Dev.timeSet c)

/-! ### Seconds and PPS (R351, R352) -/

/-- Second boundaries, the last of `k` at tick `t`: SET_TOD's seconds load at the first of them (R352). -/
def Dev.secondsTo (t k : Nat) (d : Dev) : Dev :=
  if k = 0 then d
  else match d.clk.pendTod with
  | some s => (d.onClk fun c => { c with secs := (s + (k - 1)) % 2 ^ 64, secTick := t, pendTod := none }).clkEvent 8 none
  | none => d.onClk fun c => { c with secs := (c.secs + k) % 2 ^ 64, secTick := t }

/-- SECOND_BOUNDARY (R352): 400,000,000 ticks after the last one. An accepted PPS edge falls on the same tick or the one
before, and then has marked it already. -/
def Dev.secondBoundary (d : Dev) : Dev :=
  if d.now < d.clk.secTick + secTicks then d else d.secondsTo (d.clk.secTick + secTicks) 1

/-- SECOND_BOUNDARY (R352). -/
def execSecondBoundary (s : State) : Outcome State Fault Refusal := .next (s.run Dev.secondBoundary)

/-- Whole seconds from the last second boundary to the expected edge nearest to a time in fine ticks (R351). -/
def Dev.ppsSeconds (fine : Nat) (d : Dev) : Nat := (fine + 32 * secTicks - 64 * d.clk.secTick) / (64 * secTicks)

/-- e of an edge at a time in fine ticks (R351): the last accepted edge and the ticks since are the second boundaries. -/
def Dev.ppsError (fine : Nat) (d : Dev) : Int :=
  (fine : Int) - 64 * ((d.clk.secTick + secTicks * d.ppsSeconds fine : Nat) : Int)

/-- PPS_EDGE (R351): an edge `frac` fine ticks of 39.0625 ps, 8 units each, after this tick. An edge within 2 ns is
accepted and marks its second (R352). The first edge after an outage is measured by R346; while the SYSPLL is not locked,
an edge only marks its second (DEDUCED). -/
def Dev.ppsEdge (frac : Nat) (d : Dev) : Dev :=
  if !d.ppsUsed then d
  else
    let fine := 64 * d.now + frac
    let e := d.ppsError fine
    let k := d.ppsSeconds fine
    let first := !d.clk.ppsOk
    let near : Bool := decide (8 * e.natAbs ≤ units2ns)
    let d := d.onClk fun c => { c with ppsOk := true, lastPps := some d.now }
    let d := if near then d.secondsTo (d.clk.secTick + secTicks * k) k else d
    if d.clk.state ≠ .locked then d
    else if first || !near then d.measured (8 * e) .pps
    else (d.onClk fun c => { c with
      phaseErr := 8 * e, trim := c.trim + clampI (-20480) 20480 (-e) }).startSteps perPullIn (8 * e)

/-- PPS_EDGE (R351). -/
def execPpsEdge (frac : BitVec 6) (s : State) : Outcome State Fault Refusal := .next (s.run (Dev.ppsEdge frac.toNat))

/-- PPS_LOST (R351): no edge within 1.1 s of the last one. -/
def Dev.ppsLost (d : Dev) : Dev := match d.clk.lastPps with
  | none => d
  | some t =>
    if !d.ppsUsed ∨ !d.clk.ppsOk ∨ d.now < t + 11 * secTicks / 10 then d
    else ((d.onClk fun c => { c with ppsOk := false }).clkEvent 5 none).irq 46

/-- PPS_LOST (R351). -/
def execPpsLost (s : State) : Outcome State Fault Refusal := .next (s.run Dev.ppsLost)

/-! ### Clock failure (R354, R368) -/

/-- CLOCK_FAILURE (R354): an active twin resigns with cause 4, or without a ready partner trips with cause 19 (R368); the
block itself performs no trip. -/
def Dev.clockFailure (d : Dev) : Dev :=
  if d.clk.fallback then d
  else
    let d := ((d.onClk fun c => { c with fail := true }).clkEvent 9 none).irq 46
    if d.twn.st = .active then d.resignOr 4 (Dev.takeEffect .hard 19 []) else d

/-- CLOCK_FAILURE (R354). -/
def execClockFailure (s : State) : Outcome State Fault Refusal := .next (s.run Dev.clockFailure)

/-! ### Clock outputs (R353) -/

/-- CLKOUT_n. -/
def Dev.clkOut (d : Dev) (n : Nat) : ClkOut := d.clk.outs.get ClkOut.reset n

/-- The level of an output: high in the first half of a cycle. -/
def outHigh (o : ClkOut) : Bool := o.on && decide (2 * o.pos < o.div)

/-- One tick, eight VCO periods, of an output that is to run (`en`) with divisor `div` and runs only by the SYSPLL: a
disabled output stops once it is low, the fallback stops it at the end of its cycle, a new divisor waits for that end. -/
def outTick (en vco settled : Bool) (div : Nat) (o : ClkOut) : ClkOut :=
  if !o.on then (if en && vco && settled then { on := true, div := div, pos := 0 } else o)
  else if o.pos + 8 < o.div then
    (if !en && decide (o.div ≤ 2 * (o.pos + 8)) then { o with on := false } else { o with pos := o.pos + 8 })
  else if en && vco then { on := true, div := div, pos := o.pos + 8 - o.div }
  else { o with on := false }

/-- One tick of the four outputs; after a lock they start 256 ticks later (R340, R353), and none
before READY (R526). -/
def Dev.clkOutTick (d : Dev) : Dev :=
  let vco := !d.clk.fallback
  let settled : Bool := decide (d.clk.lockTick + 256 ≤ d.now)
  d.onClk fun c => { c with outs := (upto 4).foldl (fun m n =>
    m.set ClkOut.reset n (outTick (d.ready && d.flag (Reg.CLK_OUT n) 31) vco settled (d.fld (Reg.CLK_OUT n) 15 0) (d.clkOut n))) c.outs }

/-! ### Registers -/

/-- CLK_STATUS. -/
def Dev.clkStatus (d : Dev) : Nat :=
  let c := d.clk
  pack [(c.band, 8), (b2n c.fail, 7), (b2n c.fallback, 6), (b2n c.ppsOk, 5), (b2n c.refOk, 4), (pllCode c.state, 0)]

/-- CLK_SNAP (R9). The trim reads in 0.001 ppm: 39.0625 ps / 16 s is 5/2,048 of that. -/
def Dev.clkSnap (v : W32) (d : Dev) : Dev :=
  if v.getLsbD 0 then
    let c := d.clk
    d.snapAll [(Reg.CLK_PHASE_ERR_SNAP, unsigned 32 (sat 32 c.phaseErr)), (Reg.CLK_FOFS_SNAP, unsigned 32 (rdiv (5 * c.trim) 2048)),
      (Reg.CLK_TOD_L_SNAP, c.secs % 2 ^ 32), (Reg.CLK_TOD_H_SNAP, c.secs / 2 ^ 32), (Reg.CLK_SEC_TICK_SNAP, d.secOfs),
      (Reg.CLK_HOLD_CNT_SNAP, c.holdCnt), (Reg.CLK_STEP_CNT_SNAP, d.phaseSteps), (Reg.CLK_LOCK_CNT_SNAP, c.lockCnt)]
  else d

/-- CLK_SNAP (R9). -/
def execClkSnap (v : W32) (s : State) : Outcome State Fault Refusal := .next (s.run (Dev.clkSnap v))

/-- A commit that changes SRC or DITHER starts a lock with band search (R342). -/
def Dev.clkCommitted (old : Dev) (d : Dev) : Dev :=
  if old.fld Reg.CLK_CFG 1 0 ≠ d.fld Reg.CLK_CFG 1 0 ∨ old.fld Reg.CLK_CFG 12 8 ≠ d.fld Reg.CLK_CFG 12 8 then
    d.dropTime.startLock
  else d

end Sys2Proof.Machine
end

