-- ==== Sys2Proof/Machine/Points.lean ====
section
/-! DEFINITION. The point store at work (R274–R299): arrivals with their limits, delivery to the point rings and the dirty
bitmap, the stale scan, host writes and reads, and the drain. -/

namespace Sys2Proof.Machine

open Host

/-! ### Operations (R276, R280–R284) -/

/-- A record is stored; flags that rise are reported (R285), and LOLO or HIHI on a point of kind 0 or 1 that held
neither fires trip source 6 (R286). -/
def Dev.storeRec (id : Nat) (r : W32) (d : Dev) : Dev :=
  let old := d.point id
  let bad := d.pointBad id
  let d := d.onPnt fun p => { p with records := p.records.set 0x10FF id r }
  let rise := recFlags r &&& (15 - recFlags old)
  let d := if rise ≠ 0 then (d.setBit Reg.PNT_EVENT 0).irq 42 else d
  let d := if recQual r = qStale ∧ recQual old ≠ qStale then (d.setBit Reg.PNT_EVENT 1).irq 43 else d
  if d.pointBad id ∧ ¬ bad then d.routed 6 id [id] else d

/-- A change for delivery (R282), if VALUE, QUAL or FLAGS have changed and the point's class delivers. -/
def Dev.changeOf (d : Dev) (id : Nat) (old : W32) : List PointChange :=
  let r := d.point id
  if r.toNat / 256 ≠ old.toNat / 256 ∧ clsDeliver (d.cls (d.pointCls id)) then
    [{ id := id, record := r, sn := d.ang.cur.sn, limitChg := decide (recFlags r ≠ recFlags old),
       qualChg := decide (recQual r ≠ recQual old) }]
  else []

/-- A record is stored, and its change awaits delivery. -/
def Dev.storeChange (id : Nat) (r : W32) (x : Dev × List PointChange) : Dev × List PointChange :=
  let old := x.1.point id
  let d := x.1.storeRec id r
  (d, x.2 ++ d.changeOf id old)

/-- The operations of the tick in progress on a record. -/
def Dev.turnOf (d : Dev) (id : Nat) : PointTurn :=
  let none_ : PointTurn := { id := id, pre := d.point id, cls := d.cls (d.pointCls id), ops := [] }
  if d.pnt.turnTick = d.now then (d.pnt.turns.find? fun t => decide (t.id = id)).getD none_ else none_

/-- The operations of the tick in progress on a record are noted. -/
def Dev.setTurn (t : PointTurn) (d : Dev) : Dev :=
  d.onPnt fun p => { p with
    turnTick := d.now, turns := t :: if p.turnTick = d.now then p.turns.filter fun y => decide (y.id ≠ t.id) else [] }

/-- What the operations of a tick have already reported of a record, when one that precedes them comes after them in the
queue: flags that rose, STALE, and trip source 6. -/
structure PointSaid where
  flags : Nat
  stale : Bool
  bad : Bool
deriving DecidableEq, Repr

/-- A flag mask with LOLO or HIHI of a point of kind 0 or 1 (R286). -/
def Dev.badRec (d : Dev) (id : Nat) (r : W32) : Bool :=
  decide (recFlags r &&& 12 ≠ 0 ∧ (d.pointKind id = some 0 ∨ d.pointKind id = some 1))

/-- What the records `old` to `new` of a point have reported. -/
def Dev.saidOf (d : Dev) (id : Nat) (old new : W32) : PointSaid :=
  { flags := recFlags new &&& (15 - recFlags old), stale := decide (recQual new = qStale ∧ recQual old ≠ qStale)
    bad := d.badRec id new && !d.badRec id old }

/-- The reports of a record that goes from `old` to `new` (R285, R286), but for those already made. -/
def Dev.sayRec (id : Nat) (said : PointSaid) (old new : W32) (d : Dev) : Dev :=
  let x := d.saidOf id old new
  let d := if x.flags &&& (15 - said.flags) ≠ 0 then (d.setBit Reg.PNT_EVENT 0).irq 42 else d
  let d := if x.stale && !said.stale then (d.setBit Reg.PNT_EVENT 1).irq 43 else d
  if x.bad && !said.bad then d.routed 6 id [id] else d

/-- An operation that comes in the queue after the operations `later` of its tick, which it precedes (R284): the record
becomes what the right order gives. Each report is made once, and the record is delivered where it is not the one that has
been (log 125, DESIGN CHOICE). -/
def Dev.insertOp (id : Nat) (base r : W32) (later : List (PointOp × PointClass)) (x : Dev × List PointChange) :
    Dev × List PointChange :=
  let d := x.1
  let cur := d.point id
  let final := recSteps later r
  let said := d.saidOf id base cur
  let d := d.onPnt fun p => { p with records := p.records.set 0x10FF id final }
  let d := (d.sayRec id said base r).sayRec id said r final
  (d, x.2 ++ d.changeOf id cur)

/-- One operation on a record, with the changes that await delivery (R282, R284); `was` is the class before a commit that
the operation follows. One that comes in the queue after an operation of the same tick that it precedes takes its place
before it. -/
def Dev.operateAs (was : PointClass) (op : PointOp) (id : Nat) (x : Dev × List PointChange) : Dev × List PointChange :=
  let d := x.1
  let t := d.turnOf id
  let t := if t.ops = [] then { t with cls := was } else t
  let before := t.ops.filter fun o => decide (opRank o.1 ≤ opRank op)
  let later := t.ops.filter fun o => decide (opRank op < opRank o.1)
  let c := if later.any fun o => decide (o.1 = .reevaluate) then t.cls else d.cls (d.pointCls id)
  let base := if later = [] then d.point id else recSteps before t.pre
  match recStep c op base with
  | none => ((d.onPnt fun p => { p with unusedCnt := satInc p.unusedCnt }).event 12 5 id 0 0, x.2)
  | some r =>
    let d := d.setTurn { t with ops := before ++ (op, c) :: later }
    if later = [] then Dev.storeChange id r (d, x.2) else Dev.insertOp id base r later (d, x.2)

/-- One operation on a record under the classes in force. -/
def Dev.operate (op : PointOp) (id : Nat) (x : Dev × List PointChange) : Dev × List PointChange :=
  Dev.operateAs (x.1.cls (x.1.pointCls id)) op id x

/-- An arrival (R276, R279–R282, R291): one for an unused point is discarded, one for a FORCED point as well unless it is an
entry of POINT_WRITE. A FORCE of the code 0xFFFF, which has no normalised value, arrives as INVALID (DEDUCED). -/
def Dev.arrive (op : PointOp) (id raw : Nat) (x : Dev × List PointChange) : Dev × List PointChange :=
  let d := x.1
  if d.pointCls id = 0 then
    ((d.onPnt fun p => { p with unusedCnt := satInc p.unusedCnt }).event 12 4 id 0 0, x.2)
  else
    let lost : Bool := (recStep (d.cls (d.pointCls id)) op (d.point id)).isNone
    let d := d.onPnt fun p => { p with
      arriveCnt := if lost then p.arriveCnt else satInc p.arriveCnt
      stored := if lost || decide (raw = 0xFFFF) then p.stored else p.stored.set false id true }
    Dev.operate op id (d, x.2)

/-! ### Delivery (R293–R296) -/

/-- The ring, 0–3, of a point's class. -/
def Dev.pointRing (d : Dev) (id : Nat) : Nat := clsRing (d.cls (d.pointCls id))

/-- A point descriptor (R293). -/
def pointDesc (bitmap : Bool) (c : PointChange) (c2 : Option PointChange) : List Byte :=
  let any (f : PointChange → Bool) : Bool := f c || (match c2 with
    | some x => f x
    | none => false)
  leBytes 2 0x0201 ++ [BitVec.ofNat 8 (b2n bitmap + 2 * b2n (any (·.limitChg)) + 4 * b2n (any (·.qualChg))), 0, 0, 0] ++
    leBytes 2 (if c2.isSome then 2 else 1) ++ leBytes 4 c.sn.toNat ++ leBytes 4 c.id ++ leBytes 4 c.record.toNat ++
    (match c2 with
      | some x => leBytes 4 x.id ++ leBytes 4 x.record.toNat
      | none => leBytes 8 0) ++ leBytes 4 0

/-- A descriptor with one or two changes goes to its ring. -/
def Dev.putPoint (r : Nat) (bitmap : Bool) (c : PointChange) (c2 : Option PointChange) (d : Dev) : Dev :=
  (d.onPnt fun p => { p with deliverCnt := satAdd p.deliverCnt (if c2.isSome then 2 else 1) }).putDesc
    (20 + r) (16 + r) (pointDesc bitmap c c2)

/-- A ring is in overflow from now on (R294). -/
def Dev.ringOverflow (r : Nat) (d : Dev) : Dev :=
  if bitAt d.pnt.overflow r then d
  else (d.onPnt fun p => { p with overflow := p.overflow ||| 2 ^ r }).event 12 2 r 0 0

/-- A change that cannot go to its ring sets the point's dirty bit (R294). -/
def Dev.markDirty (r : Nat) (c : PointChange) (d : Dev) : Dev :=
  (d.ringOverflow r).onPnt fun p =>
    let old := p.dirty.get none c.id
    { p with
      coalesceCnt := if old.isSome then satInc p.coalesceCnt else p.coalesceCnt
      dirty := p.dirty.set none c.id (some {
        ring := r, sn := c.sn, limitChg := c.limitChg || old.any (·.limitChg), qualChg := c.qualChg || old.any (·.qualChg) }) }

/-- A ring takes changes directly: it is not in bitmap mode and has room (R294). -/
def Dev.ringDirect (d : Dev) (r : Nat) : Bool := !bitAt d.pnt.overflow r && decide (d.ringRoom (20 + r) ≠ 0)

/-- The changes of one row are delivered in order; two of one ring that follow one another share a descriptor, the
second being pending when the first is written (R293). -/
def Dev.deliver : Nat → List PointChange → Dev → Dev
  | 0, _, d => d
  | _, [], d => d
  | fuel + 1, c :: rest, d =>
    let r := d.pointRing c.id
    if !d.ringDirect r then Dev.deliver fuel rest (d.markDirty r c)
    else match rest with
      | c2 :: more =>
        if d.pointRing c2.id = r then Dev.deliver fuel more (d.putPoint r false c (some c2))
        else Dev.deliver fuel rest (d.putPoint r false c none)
      | [] => d.putPoint r false c none

/-- The changes that arrivals have left are delivered. -/
def Dev.deliverAll (x : Dev × List PointChange) : Dev := Dev.deliver x.2.length x.2 x.1

/-- The dirty points that the drain of a ring takes, those from the walk onwards first (R295, R296): those marked for it, and
those whose class in force belongs to it. -/
def Dev.dirtyOf (d : Dev) (r : Nat) : List (Nat × DirtyBit) :=
  let mine := d.pnt.dirty.cells.filterMap fun c => match c.2 with
    | some b => if b.ring = r ∨ d.pointRing c.1 = r then some (c.1, b) else none
    | none => none
  let w := d.pnt.walk.get 0 r
  (mine.filter fun x => decide (w ≤ x.1)) ++ mine.filter fun x => decide (x.1 < w)

/-- A dirty bit cleared, the walk being past it. -/
def Dev.cleanBit (r id : Nat) (d : Dev) : Dev :=
  d.onPnt fun p => { p with dirty := p.dirty.set none id none, walk := p.walk.set 0 r (id + 1) }

/-- A dirty point whose class in force belongs to another ring than the one drained (R296): its record goes to that ring, or
its bit becomes that ring's. -/
def Dev.drainMoved (c : PointChange) (d : Dev) : Dev :=
  let q := d.pointRing c.id
  if d.ringDirect q then
    let d := d.putPoint q true c none
    d.onPnt fun p => { p with dirty := p.dirty.set none c.id none }
  else
    (d.ringOverflow q).onPnt fun p => { p with
      dirty := p.dirty.set none c.id ((p.dirty.get none c.id).map fun b => { b with ring := q }) }

/-- The walk over the dirty points of a ring (R295, R296): each record as it stands goes to the ring, two to a
descriptor; a point that its class no longer delivers only loses its bit. The walk stops while the ring is full. -/
def Dev.drainWalk (r : Nat) : List (Nat × DirtyBit) → Option PointChange → Dev → Dev
  | [], none, d => d
  | [], some c, d => (d.putPoint r true c none).cleanBit r c.id
  | (id, b) :: rest, held, d =>
    if d.ringRoom (20 + r) = 0 then d
    else if !clsDeliver (d.cls (d.pointCls id)) then Dev.drainWalk r rest held (d.cleanBit r id)
    else
      let c : PointChange := { id := id, record := d.point id, sn := b.sn, limitChg := b.limitChg, qualChg := b.qualChg }
      if d.pointRing id ≠ r then Dev.drainWalk r rest held (d.drainMoved c)
      else match held with
      | none => Dev.drainWalk r rest (some c) d
      | some c1 =>
        Dev.drainWalk r rest none (((d.putPoint r true c1 (some c)).cleanBit r c1.id).cleanBit r id)

/-- POINT_RING_DRAIN (R295): once a quarter of a ring in bitmap mode is free, its dirty points go to it; when none is
left, direct delivery resumes. -/
def Dev.pointDrain (r : Nat) (d : Dev) : Dev :=
  if !bitAt d.pnt.overflow r ∨ !d.ringQuarter (20 + r) then d
  else
    let d := d.onPnt fun p => { p with drain := p.drain ||| 2 ^ r }
    let d := Dev.drainWalk r (d.dirtyOf r) none d
    if d.dirtyOf r = [] then
      (d.onPnt fun p => { p with
        drain := p.drain &&& (15 - 2 ^ r), overflow := p.overflow &&& (15 - 2 ^ r)
        walk := p.walk.set 0 r 0 }).event 12 3 r 0 0
    else d

/-- POINT_RING_DRAIN (R295). -/
def execPointRingDrain (r : Fin 4) (s : State) : Outcome State Fault Refusal := .next (s.run (Dev.pointDrain r.val))

/-! ### Age and the stale scan (R287) -/

/-- The points of a group that have a record of their own. -/
def Dev.groupPoints (d : Dev) (g : Nat) : List Nat :=
  d.pnt.records.cells.filterMap fun c => if c.1 / 1024 = g then some c.1 else none

/-- STALE_SCAN_VISIT (R287): the next group is visited. -/
def Dev.staleVisit (d : Dev) : Dev :=
  let g := d.pnt.scanGroup
  let rounds := d.hk.rounds - d.pnt.visits.get 0 g
  let d := Dev.deliverAll ((d.groupPoints g).foldl (fun x id => Dev.operate (.visit rounds) id x) (d, []))
  let last : Bool := decide (g = 1023)
  d.onPnt fun p => { p with
    visits := p.visits.set 0 g d.hk.rounds, scanGroup := (g + 1) % 1024
    passMs := if last then (d.now - p.passStart) / msTicks else p.passMs
    passStart := if last then d.now else p.passStart }

/-- STALE_SCAN_VISIT (R287). -/
def execStaleScanVisit (s : State) : Outcome State Fault Refusal := .next (s.run Dev.staleVisit)

/-- The points of which a valid arrival has stored a VALUE. -/
def Dev.storedPoints (d : Dev) : List Nat := d.pnt.stored.cells.map (·.1)

/-- The pass after a commit that changes classes or map (R298): FLAGS of every stored VALUE anew. A point that holds LOLO or
HIHI and only now is of kind 0 or 1 fires trip source 6 (R286). -/
def Dev.reevaluate (old d : Dev) : Dev :=
  let ids := d.storedPoints.filter fun id => decide (d.pointCls id ≠ 0)
  let d := ids.foldl (fun d id => if d.pointBad id && !old.pointBad id then d.routed 6 id [id] else d) d
  Dev.deliverAll (ids.foldl (fun x id => Dev.operateAs (old.cls (old.pointCls id)) .reevaluate id x) (d, []))

/-! ### Glean slots (R239, R280) -/

/-- The point entries of an accepted glean slot of a submodule, in slot order. -/
def Dev.gleanPoints (sub : Nat) (entries : List Nat) (d : Dev) : Dev :=
  Dev.deliverAll (entries.foldl (fun x e =>
    if bitAt e 21 then Dev.arrive (.glean (bits e 15 0)) (1024 * sub + bits e 31 22) (bits e 15 0) x else x) (d, []))

/-! ### Commands (R290–R292) -/

/-- One entry of POINT_WRITE: its two words. -/
def pointEntries : Nat → List Byte → List (Nat × Nat)
  | 0, _ => []
  | n + 1, bs => (leAt bs 0 4, leAt bs 4 4) :: pointEntries n (bs.drop 8)

/-- An entry of POINT_WRITE is acceptable. -/
def pointEntryOk (special : Bool) (e : Nat × Nat) : Bool :=
  let q := bits e.1 27 24
  decide (bits e.1 23 20 = 0 ∧ bits e.1 31 28 = 0 ∧ bits e.2 31 16 = 0) &&
  (special || (decide (q = 0 ∨ q = 2 ∨ q = 3) && decide (768 ≤ bits e.1 19 10)))

/-- POINT_WRITE's own checks and effect. -/
def Dev.pointWrite (c : Cmd) (d : Dev) : Dev :=
  let n := c.len.toNat
  let force := bitAt (c.byte 20) 0
  let unf := bitAt (c.byte 20) 1
  if (force ∧ unf) ∨ n % 8 ≠ 0 ∨ n = 0 ∨ 32768 < n then d.complete c 0x30 stBadParam
  else d.withBuffer 0x30 c fun d =>
    let es := pointEntries (n / 8) c.data
    if es.all (pointEntryOk (force || unf)) then
      (Dev.deliverAll (es.foldl (fun x e =>
        let id := bits e.1 19 0
        let raw := bits e.2 15 0
        if unf then (if x.1.pointCls id = 0 then Dev.arrive .unforce id 0 x else Dev.operate .unforce id x)
        else Dev.arrive (if force then .force raw else .write (bits e.1 27 24) raw) id
          (if bits e.1 27 24 = qInvalid ∧ force = false then 0xFFFF else raw) x)
        (d, []))).completeRes c 0x30 stOk n []
    else d.completeRes c 0x30 stBadParam n []

/-- POINT_WRITE (R290, R291). -/
def execPointWrite (c : Cmd) (s : State) : Outcome State Fault Refusal :=
  s.runCmd 0x30 (inlMask [(20, 3)]) c (Dev.pointWrite c)

/-- The bytes of an aggregate block (R292). -/
def Dev.aggBytes (d : Dev) (g : Nat) : List Byte :=
  (upto 4).flatMap fun k =>
    let (mn, mx, sm, n) := d.aggregate g k
    leBytes 2 mn ++ leBytes 2 mx ++ leBytes 2 n ++ leBytes 2 0 ++ leBytes 4 sm ++ leBytes 4 0

/-- The bytes of a class definition (R277). -/
def Dev.clsBytes (d : Dev) (k : Nat) : List Byte :=
  let c := d.cls k
  leBytes 4 c.w0.toNat ++ leBytes 4 c.w1.toNat ++ leBytes 4 c.w2.toNat ++ leBytes 4 c.w3.toNat

/-- POINT_READ_BLOCK's own checks and effect. -/
def Dev.pointRead (c : Cmd) (d : Dev) : Dev :=
  let what := c.byte 20
  let first := c.word 24
  let count := c.word 28
  let lim := [262144, 1048576, 1024, 255].getD what 0
  let space := [1048576, 1048576, 1024, 256].getD what 0
  let size := [4, 1, 64, 16].getD what 0
  if 3 < what ∨ count = 0 ∨ lim < count ∨ space < first + count ∨ (what = 3 ∧ first = 0) ∨
      c.len.toNat ≠ size * count then d.complete c 0x31 stBadParam
  else
    let bs := (upto count).flatMap fun k => match what with
      | 0 => leBytes 4 (d.point (first + k)).toNat
      | 1 => leBytes 1 (d.pointCls (first + k))
      | 2 => d.aggBytes (first + k)
      | _ => d.clsBytes (first + k)
    (d.post c.addr.toNat bs).completeRes c 0x31 stOk (size * count) []

/-- POINT_READ_BLOCK (R292). -/
def execPointReadBlock (c : Cmd) (s : State) : Outcome State Fault Refusal :=
  s.runCmd 0x31 (inlMask [(20, 0xFF), (24, 0xFFFFFFFF), (28, 0xFFFFFFFF)]) c (Dev.pointRead c)

/-- PNT_SNAP (R9). -/
def Dev.pntSnap (v : W32) (d : Dev) : Dev :=
  if v.getLsbD 0 then
    let id := d.fld Reg.PNT_PEEK_ID 19 0
    let (mn, mx, sm, n) := d.aggregate (d.fld Reg.PNT_AGG_SEL 9 0) (d.fld Reg.PNT_AGG_SEL 17 16)
    d.snapAll [(Reg.PNT_PEEK_SNAP, (d.point id).toNat), (Reg.PNT_PEEK_CLASS_SNAP, d.pointCls id),
      (Reg.PNT_AGG_MM_SNAP, mx * 65536 + mn), (Reg.PNT_AGG_SUM_SNAP, sm), (Reg.PNT_AGG_CNT_SNAP, n),
      (Reg.PNT_ARRIVE_CNT_SNAP, d.pnt.arriveCnt), (Reg.PNT_DELIVER_CNT_SNAP, d.pnt.deliverCnt),
      (Reg.PNT_COALESCE_CNT_SNAP, d.pnt.coalesceCnt), (Reg.PNT_UNUSED_CNT_SNAP, d.pnt.unusedCnt),
      (Reg.PNT_DIRTY_SNAP, d.pnt.dirty.cells.length), (Reg.PNT_SCAN_SNAP, d.pnt.passMs)]
  else d

/-- PNT_SNAP (R9). -/
def execPntSnap (v : W32) (s : State) : Outcome State Fault Refusal := .next (s.run (Dev.pntSnap v))

end Sys2Proof.Machine
end

