-- ==== Sys2Proof/Machine/Submodules.lean ====
section
/-! DEFINITION. Arms and submodules (R171, R172, R176–R181): which submodules are available at a sample instant, their
sort keys, and the rankings of every arm. -/

namespace Sys2Proof.Machine

/-- A submodule as the device knows it; submodule 64 s + p stands at position p of string s. -/
def Dev.subm (d : Dev) (k : Nat) : Subm := d.mod.subs.get Subm.reset k

/-- A submodule replaced. -/
def Dev.setSubm (k : Nat) (v : Subm) (d : Dev) : Dev :=
  d.onMod fun m => { m with subs := m.subs.set Subm.reset k v }

/-- An arm. -/
def Dev.arm (d : Dev) (a : Nat) : Arm := d.mod.arms.get Arm.reset a

/-- An arm replaced. -/
def Dev.setArm (a : Nat) (v : Arm) (d : Dev) : Dev := d.onMod fun m => { m with arms := m.arms.set Arm.reset a v }

/-- The number of arms of a topology (R171). -/
def Dev.armCount (d : Dev) : Nat := match d.topo with
  | 1 => 6
  | 2 => 3
  | 3 => 3
  | _ => 0

/-- The configured submodules of a string. -/
def Dev.strSubs (d : Dev) (s : Nat) : List Nat := (upto (d.strLen s)).map (64 * s + ·)

/-- The strings of an arm (R172). -/
def Dev.armStrings (d : Dev) (a : Nat) : List Nat := d.strings.filter fun s => decide (d.strArm s = a)

/-- The configured submodules of an arm. -/
def Dev.armSubs (d : Dev) (a : Nat) : List Nat := (d.armStrings a).flatMap d.strSubs

/-- A string is in RUN (R176). -/
def Dev.strRun (d : Dev) (s : Nat) : Bool := d.strEn s && decide ((d.str s).phase = 3)

/-- No CRC-valid glean slot yet since RUN, or none for GLEAN_STALE strokes (R176). `gap` counts the sample
instants since the last slot, this one included. -/
def Dev.gleanStale (d : Dev) (k : Nat) : Bool :=
  let x := d.subm k
  !x.seen || decide (d.fld Reg.MOD_CFG 15 8 < x.gap)

/-- The exclusions of R176 that hold for a submodule of a string in RUN: bit 0 faulted, 1 bypassed, 2 glean-stale,
3 late. -/
def Dev.exclsNow (d : Dev) (k : Nat) : Nat :=
  let x := d.subm k
  pack [(b2n x.faulted, 0), (b2n x.bypassed, 1), (b2n (d.gleanStale k), 2), (b2n x.late, 3)]

/-- An exclusion of R176 holds for a submodule of a string in RUN. -/
def Dev.exclNow (d : Dev) (k : Nat) : Bool := decide (d.exclsNow k ≠ 0)

/-- A configured submodule is available (R176). -/
def Dev.availNow (d : Dev) (k : Nat) : Bool :=
  d.strRun (k / 64) && decide (k % 64 < d.strLen (k / 64)) && !d.exclNow k

/-- The available submodules of an arm now. -/
def Dev.armAvail (d : Dev) (a : Nat) : List Nat := (d.armSubs a).filter d.availNow

/-- The pack voltage lies inside its limits (R272). -/
def Dev.inWindow (d : Dev) (k : Nat) : Bool :=
  let v := (d.subm k).fastV
  decide (d.fld Reg.PEN_VWIN 15 0 ≤ v ∧ v ≤ d.fld Reg.PEN_VWIN 31 16)

/-- SoC_m of R179 and R289; none where the input is neutral (R178). -/
def Dev.socOf (d : Dev) (k : Nat) : Option Nat :=
  let (_, _, sum, n) := d.aggregate k 2
  if n = 0 then none else some (sum / n)

/-- T_m of R179 and R289. -/
def Dev.tempOf (d : Dev) (k : Nat) : Option Nat :=
  let (_, mx, _, n) := d.aggregate k 1
  if n = 0 then none else some mx

/-- The sum and the number of the values that are there. -/
def sumSome (vs : List (Option Nat)) : Int × Nat :=
  vs.foldl (fun a v => match v with
    | some x => (a.1 + x, a.2 + 1)
    | none => a) (0, 0)

/-- A value less the mean of its kind, over a denominator; 0 where it is neutral. -/
def fromMean (v : Option Nat) (sum : Int) (n : Nat) : Int := match v with
  | some x => (x : Int) * n - sum
  | none => 0

/-- The inputs of one submodule's key. -/
structure KeyInput where
  sub : Nat
  v : Nat
  soc : Option Nat
  temp : Option Nat
deriving DecidableEq, Repr

/-- The keys of an arm's submodules for an energy sign (R179): computed exactly from the means, then rounded once. -/
def Dev.keys (d : Dev) (sigma : Int) (xs : List KeyInput) : List (Nat × Int) :=
  let (sv, nv) := sumSome (xs.map fun x => some x.v)
  let (ss, ns) := sumSome (xs.map (·.soc))
  let (st, nt) := sumSome (xs.map (·.temp))
  let nv1 := max nv 1
  let ns1 := max ns 1
  let nt1 := max nt 1
  let wv : Int := d.fld Reg.MOD_SORT_W 15 0
  let ws : Int := d.fld Reg.MOD_SORT_W 31 16
  let wt : Int := d.fld Reg.MOD_SORT_WT 15 0
  xs.map fun x =>
    let num := sigma * (wv * fromMean (some x.v) sv nv * ns1 * nt1 + ws * fromMean x.soc ss ns * nv1 * nt1) -
      wt * fromMean x.temp st nt * nv1 * ns1
    (x.sub, sat 32 (rdiv num (256 * nv1 * ns1 * nt1 : Nat)))

/-- A submodule placed in a ranking: higher keys first, equal keys by ascending index (R181). -/
def placeKey (x : Nat × Int) : List (Nat × Int) → List (Nat × Int)
  | [] => [x]
  | y :: rest => if y.2 < x.2 ∨ (y.2 = x.2 ∧ x.1 < y.1) then x :: y :: rest else y :: placeKey x rest

/-- A ranking, best first. -/
def ranking (ks : List (Nat × Int)) : List (Nat × Int) := ks.foldl (fun acc x => placeKey x acc) []

/-- Both rankings of an arm (R181). -/
def Dev.rankArm (d : Dev) (avail : List Nat) : ArmRank :=
  let xs : List KeyInput := avail.map fun k => ⟨k, (d.subm k).fastV, d.socOf k, d.tempOf k⟩
  { pos := ranking (d.keys 1 xs), neg := ranking (d.keys (-1) xs) }

/-- SIG_(72+a) (R250): the fast voltages of the available submodules of an arm, in pu. -/
def Dev.armVolts (d : Dev) (avail : List Nat) : W32 :=
  sat32 (rshr ((avail.foldl (fun n k => n + (d.subm k).fastV) 0 : Nat) * (d.cfg Reg.PEN_VCODE : Int)) 16)

/-- The mean state of charge of an arm's available submodules (R194); 0 where none has one. -/
def Dev.armSoc (d : Dev) (avail : List Nat) : W32 :=
  let (s, n) := sumSome (avail.map d.socOf)
  if n = 0 then 0 else sat32 (rdiv (s * 256) n)

/-- An input of R178 is neutral. -/
def Dev.neutralNow (d : Dev) (k : Nat) : Bool := (d.socOf k).isNone || (d.tempOf k).isNone

/-- The tests of one submodule at a sample instant: each new exclusion and a new neutral input are reported (R176, R178).
The glean-stale exclusion before the first slot is no new one. -/
def Dev.testSubm (a : Nat) (d : Dev) (k : Nat) : Dev :=
  let x := d.subm k
  let now := d.exclsNow k
  let neutral := d.neutralNow k
  let d := d.setSubm k { x with excls := now, neutral := neutral, exclSent := x.exclSent && decide (now ≠ 0) }
  let news := (upto 4).filter fun b => bitAt now b && !bitAt x.excls b && !(decide (b = 2) && !x.seen)
  let d := news.foldl (fun d b => let d := d.event 8 0 a k 0; if b = 0 then d.irq 40 else d) d
  if neutral && !x.neutral then d.event 8 1 a k 0 else d

/-- The tests of every submodule of the strings in RUN. Exclusions do not apply to those of other strings, so that none is
carried into RUN (R176); their bits in MOD_STALE_SNAP read 0, and a neutral input is reported anew when RUN is entered
(R178; log 95, DESIGN CHOICE). -/
def Dev.testSubms (d : Dev) : Dev :=
  d.strings.foldl (fun d s =>
    if d.strRun s then (d.strSubs s).foldl (Dev.testSubm (d.strArm s)) d
    else (d.strSubs s).foldl (fun d k =>
      let x := d.subm k
      d.setSubm k { x with
        excls := 0, exclSent := false, seen := false, gap := 0, neutral := false
        faulted := false, clearReq := false, clean := false, late := false, lateFree := 0, lateNow := false }) d) d

/-- The configured submodules of the strings in RUN of which something holds. -/
def Dev.runSubs (d : Dev) (f : Nat → Bool) : List Nat :=
  ((d.strings.filter d.strRun).flatMap d.strSubs).filter f

end Sys2Proof.Machine
end

