-- ==== Sys2Proof/Machine/Modulation.lean ====
section
/-! DEFINITION. Arm modulation (MOD, R171–R197): the insertion count with its pulse carry, the selection of the inserted
set and of the tiller, the furrows, and the strokes in which switching is not permitted. -/

namespace Sys2Proof.Machine

open Host

/-- 1.0 in Q7.24. -/
def one24 : Int := 2 ^ 24

/-- The arm voltage reference of R171. -/
def armRef (topo a : Nat) (ref : Nat → Int) : Int :=
  match topo with
  | 1 => if a < 3 then ref 6 - ref a - ref (a + 3) else ref 6 + ref (a - 3) - ref a
  | 2 => ref a
  | _ => ref a - ref ((a + 1) % 3)

/-- What R173 gives for an arm: count, fraction in Q7.24, polarity, carry, and the events. -/
structure Count where
  n : Nat
  frac : Int
  neg : Bool
  carry : Int
  sat : Bool
  negClamp : Bool
deriving DecidableEq, Repr

/-- sign(N) under a polarity. -/
def polSign (neg : Bool) : Int := if neg then -1 else 1

/-- Insertion count, tiller fraction, polarity and pulse carry (R173); tf and tmp in fine ticks. Without an available
submodule or with v_mod ≤ 0 the rule gives no polarity: it is INSERT_POS (log 94, DESIGN CHOICE). -/
def countRule (half : Bool) (nAvail : Nat) (vmod v c : Int) (tf tmp : Nat) : Count :=
  if nAvail = 0 ∨ vmod ≤ 0 then { n := 0, frac := 0, neg := false, carry := 0, sat := true, negClamp := false }
  else
    let n0 := sat 32 (sat 32 (rdiv (v * one24) vmod) + c)
    let clamp : Bool := half && decide (n0 < 0)
    let n1 := if clamp then 0 else n0
    let neg := decide (n1 < 0)
    let a : Int := n1.natAbs
    if nAvail * one24 ≤ a then
      { n := nAvail, frac := 0, neg := neg, carry := 0, sat := true, negClamp := clamp }
    else
      let n := (a / one24).toNat
      let f := a % one24
      let w := rdiv (f * tf) one24
      if f = 0 then { n := n, frac := 0, neg := neg, carry := 0, sat := false, negClamp := clamp }
      else if w < tmp then
        { n := n, frac := 0, neg := neg, carry := polSign neg * f, sat := false, negClamp := clamp }
      else if tf - w < tmp then
        { n := n + 1, frac := 0, neg := neg, carry := polSign neg * (f - one24), sat := false, negClamp := clamp }
      else { n := n, frac := f, neg := neg, carry := 0, sat := false, negClamp := clamp }

/-! ### Selection and edges (R182–R187) -/

/-- What the building of one arm's furrow reads: the stroke's start and t_MP in fine ticks, the state each submodule
holds, its last edge, the ranking, and the state code of the polarity. -/
structure ArmView where
  start : Nat
  state : Nat → Nat
  lastEdge : Nat → Option Nat
  tmp : Nat → Nat
  rank : List (Nat × Int)
  pol : Nat

/-- A change at a fine tick of this stroke would come less than t_MP after the last one (R182). -/
def ArmView.locked (v : ArmView) (m t : Nat) : Bool := match v.lastEdge m with
  | some e => decide (v.start + t < e + v.tmp m)
  | none => false

/-- A submodule that the device holds inserted. -/
def inserted (state : Nat) : Bool := decide (state = 1 ∨ state = 2)

/-- Best-ranked submodules that are no members and not locked, up to a number. -/
def ArmView.joiners (v : ArmView) (members : List Nat) (n : Nat) : List Nat :=
  ((v.rank.map (·.1)).filter fun m => !members.contains m && !v.locked m 0).take n

/-- A ranking's key of a submodule. -/
def ArmView.key (v : ArmView) (m : Nat) : Int := match v.rank.find? (fun x => x.1 = m) with
  | some x => x.2
  | none => 0

/-- The swap loop of R183: `room` edges remain, two to a swap. Answers the set and the number of swaps. -/
def ArmView.swap (v : ArmView) (db : Int) : Nat → Nat → List Nat → Nat → List Nat × Nat
  | 0, _, s, k => (s, k)
  | fuel + 1, room, s, k =>
    let out := (v.rank.map (·.1)).find? fun m => !s.contains m && !v.locked m 0
    let worst := ((v.rank.map (·.1)).filter s.contains).getLast?
    match out, worst with
    | some o, some i =>
      if v.key o - v.key i ≤ db ∨ room < 2 then (s, k)
      else v.swap db fuel (room - 2) (o :: s.filter (· ≠ i)) (k + 1)
    | _, _ => (s, k)

/-- A non-member can be the tiller of a pulse that begins at `on` (R177, R182, R183). -/
def ArmView.canTill (v : ArmView) (late : Nat → Bool) (on m : Nat) : Bool :=
  !late m && (if v.state m = 0 then !v.locked m on else !v.locked m 0 && decide (v.tmp m ≤ on))

/-- One arm's furrow. -/
structure ArmFurrow where
  edges : List Edge
  sent : List Nat
  members : List Nat
  carry : Int
  tiller : Option Nat
  nIns : Nat
  swaps : Nat
  full : Bool
  lockLimit : Bool
  tillerNone : Bool
deriving DecidableEq, Repr

/-- The count edges of R185, priority 3, of which as many as fit are made: members that leave, members that receive
their polarity, and available submodules that leave BLOCK. -/
def ArmView.countEdges (v : ArmView) (s : List Nat) : List (Nat × Nat) :=
  let ms := v.rank.map (·.1)
  (ms.filterMap fun m => if inserted (v.state m) && !s.contains m then some (m, 0) else none) ++
  (ms.filterMap fun m => if s.contains m && decide (v.state m ≠ v.pol) then some (m, v.pol) else none) ++
  (ms.filterMap fun m => if v.state m = 7 ∧ ¬ s.contains m then some (m, 0) else none)

/-- The state that a list of changes gives a submodule, `old` where it names none. -/
def changedTo (changes : List (Nat × Nat)) (m old : Nat) : Nat := match changes.find? (fun x => x.1 = m) with
  | some x => x.2
  | none => old

/-- The furrow of one arm (R182–R185). An exclusion edge that R182 locks is made in a later stroke. `excl` are the submodules that are due EXCL_STATE, `k` the count of R173, `tf`
the stroke's length in fine ticks. -/
def ArmView.build (v : ArmView) (k : Count) (tf cap : Nat) (db : Int) (excl : List Nat) (exclState : Nat)
    (late : Nat → Bool) : ArmFurrow :=
  let due := excl.filter fun m => decide (v.state m ≠ exclState) && !v.locked m 0
  let exclMade := due.take 64
  let hold := min 3 (64 - exclMade.length)
  let reserve := if k.frac = 0 then 0 else hold
  let room := 64 - exclMade.length - reserve
  let kept := ((v.rank.map (·.1)).filter fun m => inserted (v.state m)).take k.n
  let wanted := kept ++ v.joiners ((v.rank.map (·.1)).filter fun m => inserted (v.state m)) (k.n - kept.length)
  let short : Bool := decide (wanted.length < k.n)
  let need := v.countEdges wanted
  let made := need.take room
  let stateOf : Nat → Nat := fun m => changedTo made m (v.state m)
  let now : List Nat := (v.rank.map (·.1)).filter fun m => stateOf m == v.pol
  let (s, swaps) := v.swap db cap (room - made.length) now 0
  let wf := (rdiv (k.frac * tf) one24).toNat
  let on := (tf - wf) / 2
  let cand := (v.rank.map (·.1)).find? fun m => !s.contains m && v.canTill late on m
  let needs (m : Nat) : Nat := if v.state m = 0 then 2 else 3
  let noRoom : Bool := match cand with
    | some m => decide (hold < needs m)
    | none => false
  let tiller : Option Nat := if k.frac = 0 ∨ noRoom then none else cand
  let lost : Bool := decide (k.frac ≠ 0) && tiller.isNone
  let final (m : Nat) : Nat := if s.contains m then v.pol
    else if stateOf m = v.pol then 0 else stateOf m
  let flat : List Edge := (v.rank.map (·.1)).filterMap fun m =>
    if some m = tiller then (if v.state m = 0 then none else some ⟨m, 0, 0⟩)
    else if final m = v.state m then none else some ⟨m, final m, 0⟩
  let pulse : List Edge := match tiller with
    | some m => [⟨m, v.pol, on⟩, ⟨m, 0, on + wf⟩]
    | none => []
  let others := (v.rank.map (·.1)).filter fun m =>
    some m ≠ tiller && inserted (final m) && decide (final m ≠ v.pol)
  let net : Int := (s.length : Int) - others.length
  let sign : Int := if v.pol = 2 then -1 else 1
  { edges := (exclMade.map fun m => ⟨m, exclState, 0⟩) ++ flat ++ pulse
    sent := exclMade ++ excl.filter (fun m => decide (v.state m = exclState))
    members := s
    carry := sat 32 (k.carry + sign * ((k.n : Int) - net) * one24 + (if lost then sign * k.frac else 0))
    tiller := tiller, nIns := s.length, swaps := swaps
    full := decide (exclMade.length < due.length) || decide (made.length < need.length) ||
      (decide (k.frac ≠ 0) && noRoom)
    lockLimit := short
    tillerNone := lost }

/-! ### One stroke -/

/-- Switching is permitted in the stroke of a job (R189, R190). -/
def Dev.switchingFor (d : Dev) (j : Job) : Bool :=
  let stopped : Bool := match d.gfm.stopSn with
    | some x => decide (j.g.sn = x) || decide ((j.g.sn - x).toNat < 2 ^ 31)
    | none => false
  j.g.angle && !stopped &&
    (if angleMode d.gfm.mode || decide (d.gfm.mode = .tripped) then !d.sup.blocked
     else angleMode j.mode && d.sup.tripTick.isNone)

/-- The release of the block signal (R190): every submodule in BYPASS, no carry, sign(i_a) positive, nothing locked. -/
def Dev.releaseArms (d : Dev) : Dev :=
  let d := (d.strings.flatMap d.strSubs).foldl (fun d k =>
    d.setSubm k { d.subm k with state := 0, lastEdge := none, exclSent := false }) d
  (upto 6).foldl (fun d a => d.setArm a { d.arm a with carry := 0, iNeg := false, members := [], tiller := none }) d

/-- Furrows are empty and every submodule holds BLOCK (R189). -/
def Dev.emptyFurrow (j : Job) (d : Dev) : Dev :=
  let d := (d.strings.flatMap d.strSubs).foldl (fun d k => d.setSubm k { d.subm k with state := 7 }) d
  let d := (upto 6).foldl (fun d a => d.setArm a { Arm.reset with nAvail := (j.avail.getD a []).length }) d
  d.onMod fun m => { m with switching := false }

/-- An edge is noted as made: the submodule's state and the time of its change. -/
def Dev.noteEdge (start : Nat) (d : Dev) (e : Edge) : Dev :=
  d.setSubm e.sub { d.subm e.sub with state := e.state, lastEdge := some (start + e.time) }

/-- sign(i_a) (R180, R181), from i_a as the last stage 1 has written it. -/
def Dev.signOf (d : Dev) (a : Nat) (old : Bool) : Bool :=
  let i := d.sigI (56 + a)
  if i.natAbs * 1000 ≤ d.fld Reg.MOD_SORT_WT 31 16 * 2 ^ 24 then old else decide (i < 0)

/-- The signs of a job's stroke are taken, if they are not yet: with its own stage 1 still to come, SIG_56–SIG_61 are those of
the stroke before (R181). -/
def Dev.takeSigns (j : Job) (d : Dev) : Dev × Job :=
  if j.signs ≠ [] then (d, j)
  else
    let d := (upto 6).foldl (fun d a => d.setArm a { d.arm a with iNeg := d.signOf a (d.arm a).iNeg }) d
    (d, { j with signs := (upto 6).map fun a => (d.arm a).iNeg })

/-- One arm of a switching stroke: its furrow, its events, and its edges. -/
def Dev.buildArm (j : Job) (x : Dev × List Edge) (a : Nat) : Dev × List Edge :=
  let d := x.1
  let r := d.arm a
  let half : Bool := decide (d.topo = 1)
  let avail := j.avail.getD a []
  let tf := 64 * j.g.len
  let tmp := 64 * maxList 0 ((d.armStrings a).map fun s => d.fld (Reg.MOD_STR s) 11 0)
  let vmod : Int := if d.flag Reg.MOD_CFG 4 then signed 32 (d.cfg Reg.MOD_VNOM)
    else rdiv (j.armSum.getD a 0).toInt (max avail.length 1 : Nat)
  let ref := sat 32 (armRef d.topo a fun i => (j.refs.getD i 0).toInt)
  let k := countRule half avail.length vmod ref r.carry tf tmp
  let sigma : Int := (if half then -1 else 1) * polSign k.neg * polSign (j.signs.getD a r.iNeg)
  let ranks := j.rank.getD a ⟨[], []⟩
  let v : ArmView := {
    start := 64 * j.g.start, state := fun m => (d.subm m).state,
    lastEdge := fun m => (d.subm m).lastEdge, tmp := fun m => 64 * d.fld (Reg.MOD_STR (m / 64)) 11 0,
    rank := if 0 < sigma then ranks.pos else ranks.neg, pol := if k.neg then 2 else 1 }
  let excl := (d.armSubs a).filter fun m => d.strRun (m / 64) && !avail.contains m && !(d.subm m).exclSent
  let f := v.build k tf (d.fld (Reg.MOD_ARM a) 5 0) (d.fld Reg.MOD_SORT_DB 15 0) excl
    (if d.flag Reg.MOD_CFG 5 then 7 else 0) j.lateCap.contains
  let d := f.edges.foldl (Dev.noteEdge v.start) d
  let d := f.sent.foldl (fun d m => d.setSubm m { d.subm m with exclSent := true }) d
  let d := d.setArm a {
    members := f.members, tiller := f.tiller, polNeg := k.neg, carry := f.carry,
    iNeg := r.iNeg, sigmaNeg := decide (sigma < 0), nIns := f.nIns, nAvail := avail.length,
    edges := f.edges.length, swaps := f.swaps, sat := k.sat, full := f.full }
  let ev (on : Bool) (bit : Nat) (d : Dev) : Dev := if on then d.event 8 bit a 0xFFFFFFFF 0 else d
  (ev k.negClamp 6 (ev f.lockLimit 5 (ev f.tillerNone 4 (ev f.full 3 (ev k.sat 2 d)))), x.2 ++ f.edges)

/-- An edge placed among a string's edges: ascending time, equal times by position (R187). -/
def placeEdge (e : Edge) : List Edge → List Edge
  | [] => [e]
  | y :: rest => if e.time < y.time ∨ (e.time = y.time ∧ e.sub < y.sub) then e :: y :: rest else y :: placeEdge e rest

/-- The edges of each string, in order (R187). -/
def stringEdges (es : List Edge) : List (List Edge) :=
  (upto 12).map fun s => (es.filter fun e => decide (e.sub / 64 = s)).foldl (fun acc e => placeEdge e acc) []

/-- The furrows of a job's stroke. -/
def Dev.buildFurrow (j : Job) (d : Dev) : Dev × List (List Edge) :=
  if !d.switchingFor j then (d.emptyFurrow j, [])
  else
    let (d, j) := if d.mod.switching then (d, j) else (d.releaseArms, { j with signs := [] })
    let d := d.onMod fun m => { m with switching := true }
    let (d, es) := (upto d.armCount).foldl (Dev.buildArm j) (d, [])
    let arms := (upto d.armCount).map d.arm
    let swaps := arms.foldl (fun n r => n + r.swaps) 0
    (d.onMod fun m => { m with
      swapCnt := satAdd m.swapCnt swaps
      satCnt := if arms.any (fun r => r.sat || r.full) then satInc m.satCnt else m.satCnt }, stringEdges es)

/-- A job of the list replaced by its stroke number. -/
def Dev.setJob (j : Job) (d : Dev) : Dev :=
  d.onAng fun a => { a with jobs := a.jobs.map fun x => if x.g.sn = j.g.sn then j else x }

/-- What MOD_SNAP shows of a stroke whose furrows have been built. -/
def Dev.modShown (d : Dev) (j : Job) : ModShown :=
  { arms := (upto 6).map d.arm, excl := j.excl, stale := j.stale
    lateCnt := d.mod.lateCnt, swapCnt := d.mod.swapCnt, satCnt := d.mod.satCnt }

/-- The furrows of a stroke, under the configuration of its sample instant (R196). -/
def Dev.jobFurrow (j : Job) (d : Dev) : Dev :=
  let (d, j) := d.takeSigns j
  let (d, fs) := if d.topo = 0 then (d, []) else d.buildFurrow j
  let d := (upto d.armCount).foldl (fun d a =>
    d.acqPatch false (fun x => decide (x.sn = j.g.sn)) 2 a (armSummary (d.arm a))) d
  d.setJob { j with built := true, furrows := fs, shown := some (d.modShown j) }

/-- FURROW_BUILD (R188): the first stroke whose evaluation is complete or abandoned gets its furrow. -/
def Dev.furrowBuild (d : Dev) : Dev :=
  match d.ang.jobs.find? (fun j => (j.evaluated || j.missed) && !j.built) with
  | none => d
  | some j => d.under j.conf (Dev.jobFurrow j)

/-- FURROW_BUILD (R188). -/
def execFurrowBuild (s : State) : Outcome State Fault Refusal := .next (s.run Dev.furrowBuild)

/-- MOD_STATUS. -/
def Dev.modStatus (d : Dev) : Nat :=
  pack ((upto 6).flatMap fun a => [(b2n (d.arm a).full, 8 + a), (b2n (d.arm a).sat, a)])

/-- One bit per submodule of a list in a 32-bit snapshot register. -/
def submBits (r : Nat) (ks : List Nat) : Nat := pack ((upto 32).map fun i => (b2n (ks.contains (32 * r + i)), i))

/-- MOD_SNAP (R9, R14): the stroke in progress, as its boundary has filled it. -/
def Dev.modSnap (v : W32) (d : Dev) : Dev :=
  if v.getLsbD 0 then
    let x := d.mod.shown
    let arm (a : Nat) : Arm := x.arms.getD a Arm.reset
    let d := (upto 6).foldl (fun d a =>
      let r := arm a
      d.snapAll [(Reg.MOD_ARM_SNAP a, pack [(b2n r.tiller.isSome, 31), (b2n r.polNeg, 30), (b2n r.sigmaNeg, 29),
        (r.tiller.getD 0, 19), (r.nAvail, 10), (r.nIns, 0)]), (Reg.MOD_CARRY_SNAP a, unsigned 32 r.carry),
        (Reg.MOD_EDGE_SNAP a, pack [(r.swaps, 16), (r.edges, 0)])]) d
    let d := (upto 24).foldl (fun d r => d.snapAll [(Reg.MOD_EXCL_SNAP r, submBits r x.excl),
      (Reg.MOD_STALE_SNAP r, submBits r x.stale)]) d
    d.snapAll [(Reg.MOD_LATE_CNT_SNAP, x.lateCnt), (Reg.MOD_SWAP_CNT_SNAP, x.swapCnt), (Reg.MOD_SAT_CNT_SNAP, x.satCnt)]
  else d

/-- MOD_SNAP (R9). -/
def execModSnap (v : W32) (s : State) : Outcome State Fault Refusal := .next (s.run (Dev.modSnap v))

end Sys2Proof.Machine
end

