-- ==== Sys2Proof/Machine/GridForming.lean ====
section
/-! DEFINITION. The grid-forming machine (GFM, R54–R84, R539): modes and their conditions, the machine-level evaluation, black
start, resynchronisation with the breaker, and stopping. -/

namespace Sys2Proof.Machine

open Host

/-! ### Configuration -/

/-- N_S and M (ANG_GRID). -/
def Dev.nS (d : Dev) : Nat := d.fld Reg.ANG_GRID 12 0
def Dev.mCycle (d : Dev) : Nat := d.fld Reg.ANG_GRID 22 16

/-- A 48-bit frequency word in two registers. -/
def Dev.fwReg (d : Dev) (lo hi : Nat) : Nat := d.cfg lo + 2 ^ 32 * d.fld hi 15 0

def Dev.fwNom (d : Dev) : Nat := d.fwReg Reg.ANG_FW_L Reg.ANG_FW_H
def Dev.fwMin (d : Dev) : Nat := d.fwReg Reg.ANG_FWMIN_L Reg.ANG_FWMIN_H
def Dev.fwMax (d : Dev) : Nat := d.fwReg Reg.ANG_FWMAX_L Reg.ANG_FWMAX_H

/-- A frequency word as a per-unit frequency in Q7.24; 1.0 where the machine holds it (R68). -/
def Dev.omegaPu (d : Dev) (w : Option Nat) : W32 := match w with
  | none => 0x01000000
  | some fw => sat32 (rdiv ((fw : Int) * 2 ^ 24) (max d.fwNom 1 : Nat))

/-- Signal n is below, or at or above, a threshold in 0.01 pu. -/
def Dev.sigBelow (d : Dev) (n hundredths : Nat) : Bool := decide (d.sigI n * 100 < hundredths * 2 ^ 24)

/-! ### Conditions of the transitions (R59) -/

/-- The STANDBY condition (R59, R272), and an accepted configuration: the reset values, with no nominal frequency, fail
admission and keep the converter in OFF (R452). -/
def Dev.standbyOk (d : Dev) : Bool :=
  let need (a : Nat) : Nat :=
    if d.fld Reg.GFM_STOP 8 0 = 0 then (d.armSubs a).length else d.fld Reg.GFM_STOP 8 0
  decide (d.fwNom ≠ 0) && !d.fenceDemand && d.strings.all (fun s => d.strRun s && (d.str s).leaseOk) &&
  (upto d.armCount).all fun a => decide (need a ≤ ((d.armAvail a).filter d.inWindow).length)

/-- The far side is live. -/
def Dev.farLive (d : Dev) : Bool := !d.sigBelow 85 (d.fld Reg.GFM_RS_WIN 7 0)

/-- A requested transition from a mode stands in the table and its condition holds (R59, R61). -/
def Dev.modeAllowed (d : Dev) (mode target : Mode) (ack : Bool) : Bool :=
  match mode, target with
  | .off, .standby => d.standbyOk
  | .standby, .off => true
  | .standby, .blackstart => d.sigBelow 84 (d.fld Reg.GFM_BS 31 24)
  | .forming, .resync =>
    d.flag Reg.GFM_BKR 31 && !d.gfm.bkrFb && d.farLive && decide (d.gfm.sub = .normal)
  | .resync, .forming => true
  | .blackstart, .stopping => true
  | .forming, .stopping => true
  | .resync, .stopping => true
  | .tripped, .off => ack && decide (d.tripActive = 0) && !d.fenceDemand && !d.hk.halt
  | _, _ => false

/-- MODE_REQUEST's own checks and effect (R62, R63, R343, R377, R470). -/
def Dev.modeRequest (c : Cmd) (d : Dev) : Dev :=
  match modeOf (c.byte 20) with
  | none => d.complete c 0x02 stBadParam
  | some t =>
    if d.twn.st = .standby ∨ ((d.clk.fallback ∨ d.sec.debug = 2) ∧ t ≠ .off) then d.complete c 0x02 stRejected
    else if d.gfm.req.isSome then d.complete c 0x02 stBusy
    else if t = d.gfm.mode then d.complete c 0x02 stOk
    else if !d.modeAllowed d.gfm.mode t (bitAt (c.byte 21) 1) then d.complete c 0x02 stRejected
    else
      let r : ModeReq := { target := t, finalOff := bitAt (c.byte 21) 0, tripAck := bitAt (c.byte 21) 1, cause := 1,
                           tick := d.now }
      (d.onGfm fun g => { g with req := some r }).complete c 0x02 stOk

/-- MODE_REQUEST (R62, R63). -/
def execModeRequest (c : Cmd) (s : State) : Outcome State Fault Refusal :=
  s.runCmd 0x02 (inlMask [(20, 7), (21, 3)]) c (Dev.modeRequest c)

/-- A pending request is dropped (R64). -/
def Dev.lapse (d : Dev) : Dev :=
  if d.gfm.req.isSome then (d.onGfm fun g => { g with req := none }).event 4 1 0 0 0 else d

/-- An automatic transition is due at the next machine-cycle boundary (R59, R40). The STOP action of the host watchdog
outranks the others (R22). -/
def Dev.autoMode (target : Mode) (cause : Nat) (finalOff : Bool) (d : Dev) : Dev :=
  if d.gfm.auto.isSome ∧ cause ≠ 12 then d
  else
    let r : ModeReq := { target := target, finalOff := finalOff, tripAck := false, cause := cause, tick := d.now }
    d.onGfm fun g => { g with auto := some r }

/-- An automatic transition, by its cause, stands in the table for a mode (R59). -/
def autoFrom (cause : Nat) : Mode → Bool
  | .off => false
  | .standby => cause = 9
  | .blackstart => cause = 2 || cause = 12
  | .forming => cause = 12
  | .resync => cause = 12 || (4 ≤ cause && cause ≤ 8)
  | .stopping => cause = 11
  | .tripped => false

/-- What is planned for a machine-cycle boundary whose first stroke is sampled now, after strokes of a mode (R40, R42, R64):
what was accepted before the sample instant and is not planned for an earlier boundary. A request's condition is tested
again at the boundary itself. A twin that does not control the converter follows the mirror record instead (R365). -/
def Dev.planMode (d : Dev) (mode : Mode) : Option ModePlan :=
  if d.sup.tripTick.isSome || !d.controls then none
  else
    let open_ (r : ModeReq) : Bool := decide (r.tick < d.now) && d.ang.jobs.all fun j => j.plan.all fun p => decide (p.req ≠ r)
    match d.gfm.auto.filter (fun r => open_ r && autoFrom r.cause mode), d.gfm.req.filter open_ with
    | some a, _ => some { req := a, host := false }
    | none, some r => some { req := r, host := true }
    | none, none => none

/-! ### Entering a mode -/

/-- A sub-state change is reported (R149). -/
def Dev.subEvent (old new : Sub) (d : Dev) : Dev :=
  let bit := match new with
    | .limit => 0 | .frtLow => 1 | .frtHigh => 2 | .recover => 3 | .normal => 4
  (d.event 9 bit (subCode old) (subCode new) 0).irq 29

/-- What a cycle of RESYNC computed is dropped: the mode is left, or a trip came before its boundary. -/
def Dev.dropResync (d : Dev) : Dev :=
  d.onGfm fun g => { g with ready := false, holdStart := none, dTheta := 0, dF := 0, dV := 0 }

/-- RESYNC is left with a cause (R78–R80): any exit but that of a closed breaker is an abort. -/
def Dev.leaveResync (cause : Nat) (d : Dev) : Dev :=
  let d := d.dropResync.onGfm fun g => { g with bkrClose := false, pulseEnd := none, attempt := none }
  if cause = 4 then d else d.event 4 3 0 0 0

/-- Sub-state at the entry into FORMING (R146, R150). -/
def Dev.entrySub (d : Dev) (old : Mode) : Sub :=
  if old = .blackstart ∨ old = .resync then
    match d.gfm.frtEntry with
    | some s => s
    | none => if d.sup.limitHold then .limit else .normal
  else .normal

/-- A ride-through sub-state. -/
def isFrt : Sub → Bool
  | .frtLow => true
  | .frtHigh => true
  | .normal => false
  | .limit => false
  | .recover => false

/-- The first stroke of a mode is evaluated, or the mode begins without that: the sub-state starts anew, limit_hold ends
where it may not go on, also on entry into STANDBY, OFF or TRIPPED (log 119, DESIGN CHOICE), and the sub-state changes that
come with it are noted (R146, R149, R150). -/
def Dev.evalEnter (new : Mode) (d : Dev) : Dev :=
  let old := d.sup.evalMode
  if new = old then d
  else
    let was := d.sup.sub
    let sub := if new = .forming then d.entrySub old else .normal
    let changes := if new = .forming ∧ sub ≠ .normal then [(Sub.normal, sub)]
      else if old = .forming ∧ was ≠ .normal then [(was, Sub.normal)] else []
    let d := d.onSup fun s => { s with
      evalMode := new, sub := sub, late := changes
      limitHold := s.limitHold && decide (new ≠ .forming) && angleMode new
      frtStart := s.frtStart.filter fun _ => decide (new = .forming), frtFired := s.frtFired && decide (new = .forming)
      limStart := s.limStart.filter fun _ => angleMode new, limFired := s.limFired && angleMode new
      frtCnt := if isFrt sub then satInc s.frtCnt else s.frtCnt }
    d.onGfm fun g => { g with frtEntry := none }

/-- The sub-state changes of a mode that begins are reported at its boundary (R149). -/
def Dev.showSub (d : Dev) : Dev :=
  let changes := d.sup.late
  let d := (d.onSup fun s => { s with late := [] }).onGfm fun g => { g with sub := d.sup.sub }
  changes.foldl (fun d c => d.subEvent c.1 c.2) d

/-- Channel 2 starts a black start at 0 towards the host target (R73). A host command accepted before the entry whose
profile tick follows it (R95) is applied after the load of 0, and the start towards the target that was in force at the
entry comes after it (log 119, DESIGN CHOICE). -/
def Dev.startBlackstart (d : Dev) : Dev :=
  let moving : Bool := decide ((d.prf 2).seg ≠ .idle)
  let d := d.loadPos 2 0
  let d := if moving then d.profDone 2 .written else d
  d.queueOp (.start 2 d.prof.hostTarget2 none true)

/-- Every source in a mask has AUTO set (R216). -/
def Dev.allAuto (d : Dev) (mask : Nat) : Bool :=
  (upto 16).all fun n => !bitAt mask n || d.flag (Reg.PWM_TSRC n) 27

/-- Local trip latches at the entry into OFF (R216): those with a source that is not AUTO clear once all their sources
are inactive. -/
def Dev.clearLatches (d : Dev) : Dev :=
  (upto 12).foldl (fun d p =>
    let x := d.pair p
    if x.latch &&& d.pwm.qual = 0 ∧ ¬ d.allAuto x.latch then d.setPair p { x with latch := 0 } else d) d

/-- A mode is entered at the boundary that begins stroke `sn` (R41, R57, R64, R68, R73, R82, R149, R150). -/
def Dev.enterMode (new : Mode) (cause : Nat) (finalOff : Bool) (sn : W32) (d : Dev) : Dev :=
  let old := d.gfm.mode
  let d := if old = .resync then d.leaveResync cause else if new = .resync then d else d.dropResync
  let d := d.onGfm fun g => { g with
    cause := cause, auto := g.auto.filter fun r => autoFrom r.cause new, finalOff := finalOff, entryTick := d.now
    hold := CycleHold.reset, stop := .none, stopSn := none, standbyLost := false, failures := 0 }
  let d := (d.onAng fun a => { a with mcBase := sn }).onSup fun s => { s with hardHold := s.hardHold && decide (new = .tripped) }
  let d := if angleMode new then d
    else d.onGfm fun g => { g with omega := none, e := 0, eps := 0, next := none, eAtLim := false, swingHeld := false }
  let d := match new with
    | .blackstart => d.startBlackstart
    | .stopping => ((d.queueOp (.start 0 0 none true)).queueOp (.start 1 0 none true)).onGfm fun g =>
        { g with stop := .rampPQ }
    | .off => d.clearLatches
    | _ => d
  let d := if cause = 2 then d.event 4 7 0 0 0 else d
  let d := ((d.onGfm fun g => { g with mode := new }).event 4 0 (modeCode old) (modeCode new) cause).irq 34
  if d.sup.evalMode = new then d.showSub
  else ((d.onSup fun s => { s with evalMode := old, sub := d.gfm.sub }).evalEnter new).showSub

/-- A planned transition at its boundary (R59, R64). -/
def Dev.runPlan (p : ModePlan) (sn : W32) (d : Dev) : Dev :=
  (if p.host then d.onGfm fun g => { g with req := none } else d).enterMode p.req.target p.req.cause p.req.finalOff sn

/-- A planned change does not take place (R64): the mode in force goes on, also where the first stroke of the other one has
been evaluated. -/
def Dev.keepMode (d : Dev) : Dev :=
  let m := d.gfm.mode
  let d := if m = .resync then d else d.dropResync
  if d.sup.evalMode = m then d
  else (d.onSup fun s => { s with
    evalMode := m, sub := d.gfm.sub, late := [], limitHold := s.limitHold && decide (m ≠ .forming) }).onGfm fun g =>
      { g with frtEntry := none }

/-- TRIPPED is entered (R57). -/
def Dev.enterTripped (sn : W32) (d : Dev) : Dev :=
  let cause := d.sup.tripCause
  let d := d.onSup fun s => { s with tripTick := none }
  if d.gfm.mode = .tripped then d else d.enterMode .tripped cause false sn

/-! ### Conditions tested at every sample instant (R74, R82, R272, R539) -/

/-- The watch of R539 with one more sample instant of the cycle: `first` and `last` place the stroke in it. -/
def watchCycle (h : CycleHold) (first last ok : Bool) : CycleHold :=
  let w := first || h.watching
  let k := if first then ok else h.ok && ok
  { watching := w && !last, ok := k, met := h.met || (w && k && last) }

/-- |i| ≤ 0.02 pu (R82). -/
def Dev.currentSmall (d : Dev) : Bool := decide (magnitude (d.sigI 78) (d.sigI 79) * 50 ≤ 2 ^ 24)

/-- Channel c reports done at the sample instant of a job. -/
def jobDone (j : Job) (c : Nat) : Bool := bitAt j.profDone c

/-- The condition of BLACKSTART's completion at one sample instant (R74). -/
def Dev.bsCond (d : Dev) (j : Job) : Bool :=
  jobDone j 2 && decide ((d.sigI 84 - d.sigI 101).natAbs * 100 ≤ d.fld Reg.GFM_BS 23 16 * 2 ^ 24)

/-- The stop sequence at one sample instant (R82). -/
def Dev.stopSequence (j : Job) (first last : Bool) (d : Dev) : Dev :=
  match d.gfm.stop with
  | .rampPQ =>
    if jobDone j 0 ∧ jobDone j 1 then
      if d.gfm.bkrFb ∧ d.farLive then d.onGfm fun g => { g with stop := .waitCurrent, hold := CycleHold.reset }
      else (d.queueOp (.start 2 0 none true)).onGfm fun g => { g with stop := .rampE, hold := CycleHold.reset }
    else d
  | .waitCurrent | .rampE =>
    let ok := d.currentSmall && (decide (d.gfm.stop = .waitCurrent) || decide (d.sigI 95 = 0))
    let h := watchCycle d.gfm.hold first last ok
    d.onGfm fun g => { g with
      hold := h, stop := if h.met then .blocking else g.stop, stopSn := if h.met then some (j.g.sn + 1) else g.stopSn }
  | _ => d

/-- Stage 1 of a stroke has the values of its sample instant: the conditions that must hold for a machine cycle are
tested (R539). A stroke sampled before or in the tick in which its mode was entered tests nothing (log 37, DEDUCED). -/
def Dev.testCycle (j : Job) (d : Dev) : Dev :=
  if d.sup.tripTick.isSome ∨ j.mode ≠ d.gfm.mode ∨ j.sampleTick ≤ d.gfm.entryTick then d
  else
    let last : Bool := decide (0 < d.mCycle ∧ (j.g.sn + 1 - d.ang.mcBase).toNat % d.mCycle = 0)
    match d.gfm.mode with
    | .blackstart =>
      let h := watchCycle d.gfm.hold j.g.mcFirst last (d.bsCond j)
      let d := d.onGfm fun g => { g with hold := h }
      if h.met then d.autoMode .forming 2 false else d
    | .stopping => d.stopSequence j j.g.mcFirst last
    | _ => d

/-- The tests at a sample instant that need no evaluation: the STANDBY condition (R272), and the end of a stop sequence
once every submodule has blocked (R82). -/
def Dev.testInstant (d : Dev) : Dev :=
  match d.gfm.mode with
  | .standby =>
    if d.gfm.standbyLost ∨ d.standbyOk then d
    else ((d.onGfm fun g => { g with standbyLost := true }).event 4 8 0 0 0).autoMode .off 9 false
  | .stopping =>
    if d.gfm.stop = .blocking ∧ d.sup.blocked ∧ d.sup.blockBy ≤ d.now then
      (d.onGfm fun g => { g with stop := .done }).autoMode (if d.gfm.finalOff then .off else .standby) 11 false
    else d
  | _ => d

/-! ### The machine level (R66–R72) -/

/-- Coefficients of section s of the power filter. -/
def Dev.pfCoef (d : Dev) (s : Nat) : Coef :=
  let c (k : Nat) : W32 := BitVec.ofNat 32 (d.cfg (Reg.GFM_PF (5 * s + k)))
  { b0 := c 0, b1 := c 1, b2 := c 2, a1 := c 3, a2 := c 4 }

/-- A value through the two sections of the power filter, with their states. -/
def Dev.powerFilter (d : Dev) (x : Int) (st : List (Int × Int)) : Int × List (Int × Int) :=
  let a := st.getD 0 (0, 0)
  let b := st.getD 1 (0, 0)
  let r0 := biquad (d.pfCoef 0) x a.1 a.2
  let r1 := biquad (d.pfCoef 1) r0.y b.1 b.2
  (r1.y, [(r0.n1, r0.n2), (r1.n1, r1.n2)])

/-- The mean over the M most recent sample instants (R66). -/
def meanOf (m : Nat) (vs : List Int) : Int := sat 32 (rdiv ((vs.take m).foldl (· + ·) 0) m)

/-- P_e and Q_e of a machine cycle (R66). -/
def Dev.powers (i : McInput) (d : Dev) : Dev :=
  let m := d.mCycle
  let (p, sp) := d.powerFilter (meanOf m (i.hist.map (·.1))) (d.gfm.pf.take 2)
  let (q, sq) := d.powerFilter (meanOf m (i.hist.map (·.2))) (d.gfm.pf.drop 2)
  d.onGfm fun g => { g with pe := p, qe := q, pf := sp ++ sq }

/-- The frequency word of a swing update, before its clamp (R67): FW + K × FW_NOM / ω × (P_ref − P_e − D (ω − ω_ref)),
formed exactly and rounded once. -/
def Dev.swingFw (d : Dev) (i : McInput) (fw : Nat) : Int :=
  let nom : Int := d.fwNom
  let f : Int := fw
  let x : Int := (i.pRef - d.gfm.pe) * 100 * nom - d.fld Reg.GFM_SWING 15 0 * (f * 2 ^ 24 - i.wRef * nom)
  let num : Int := d.mCycle * 2 ^ 64 * 1000 * x
  let den : Int := d.nS * 800000000 * d.fld Reg.GFM_SWING 31 16 * f * 2 ^ 24 * 100
  f + rdiv num den

/-- A frequency word is delivered and held pending (R31, R32). -/
def Dev.deliverFw (x : Int) (d : Dev) : Dev :=
  let v := (clampI d.fwMin d.fwMax x).toNat
  let d := d.onAng fun a => { a with pendFw := some v }
  if x = v then d else (d.onAng fun a => { a with clampCnt := satInc a.clampCnt }).event 3 0 0 0 0

/-- ε of the next machine cycle (R70). -/
def Dev.epsNext (d : Dev) (i : McInput) (fw : Nat) : Int :=
  let tqi := d.fld Reg.GFM_QV 31 16
  let lim := signed 32 (d.cfg Reg.GFM_EPS_LIM)
  if tqi = 0 ∨ i.mode ≠ .forming ∨ i.held then d.gfm.eps
  else
    let num : Int := d.mCycle * 2 ^ 64 * 100 * (i.eSet - i.vNr)
    let den : Int := d.nS * 400000000 * fw * tqi
    clampI (-lim) lim (d.gfm.eps + rdiv num den)

/-- E of the next machine cycle before its clamp (R70). -/
def Dev.emfNext (d : Dev) (i : McInput) (eps : Int) : Int :=
  i.eSet + rdiv (-(d.fld Reg.GFM_QV 15 0 * (d.gfm.qe - i.qRef))) 10000 + eps

/-- The swing update, the droop and the integrator of one machine cycle (R67, R70), or the held values (R68). -/
def Dev.swing (i : McInput) (d : Dev) : Dev :=
  if !angleMode i.mode then
    d.onGfm fun g => { g with next := some (none, 0, i.phi), eps := 0, eAtLim := false, swingHeld := false }
  else
    let fw := i.wFw.getD d.fwNom
    let d := d.deliverFw (if i.held then fw else d.swingFw i fw)
    let eps := d.epsNext i fw
    let raw := d.emfNext i eps
    let e := clampI (signed 32 (d.cfg Reg.GFM_E_MIN)) (signed 32 (d.cfg Reg.GFM_E_MAX)) raw
    let clamped : Bool := decide (e ≠ raw)
    let d := if clamped ∧ ¬ d.gfm.eAtLim then d.event 4 9 0 0 0 else d
    d.onGfm fun g => { g with
      next := some (d.ang.pendFw, e, i.phi), eps := eps, eAtLim := clamped, swingHeld := i.held }

/-! ### Resynchronisation and the breaker (R75–R81) -/

/-- The Fence permits a close (R77). -/
def Dev.fencePermits (d : Dev) : Bool :=
  let p := d.fld Reg.GFM_BKR 29 28
  let o := d.fen.outs.get FenOut.reset p
  !d.fenceDemand && (decide (p = 0) || (o.hi.cmd && o.lo.cmd))

/-- The close outputs may be asserted (R78), which a ride-through entry found in RESYNC ends (R60). -/
def Dev.mayClose (d : Dev) : Bool :=
  decide (d.gfm.mode = .resync) && d.flag Reg.GFM_BKR 31 && d.gfm.ready && d.fencePermits &&
    d.sup.tripTick.isNone && d.gfm.frtEntry.isNone

/-- A close begins while the breaker is open: both outputs assert (R78). FB_TIMEOUT runs from the first close that has
had no feedback (R79, log 87). -/
def Dev.startClose (d : Dev) : Dev :=
  if d.gfm.bkrFb then d
  else d.onGfm fun g => { g with
    bkrClose := true, attempt := some (g.attempt.getD d.now)
    pulseEnd := if d.flag Reg.GFM_BKR 30 then none else some (d.now + d.fld Reg.GFM_BKR 15 8 * 10 * msTicks) }

/-- The close outputs follow their conditions (R78). In PERMIT mode they assert again, as a new close, when the Fence
permits again while RESYNC_READY holds. -/
def Dev.gateClose (d : Dev) : Dev :=
  if d.gfm.bkrClose ∧ ¬ d.mayClose then d.onGfm fun g => { g with bkrClose := false, pulseEnd := none }
  else if d.flag Reg.GFM_BKR 30 ∧ d.mayClose ∧ ¬ d.gfm.bkrClose then d.startClose
  else d

/-- The three windows of R76. -/
def Dev.inWindows (d : Dev) (pred df dv : Int) : Bool :=
  decide (pred.natAbs * 3600 ≤ d.fld Reg.GFM_RS_WIN 31 24 * 2 ^ 32) &&
  decide (df.natAbs * d.fwNom * 40000000000 ≤ d.fld Reg.GFM_RS_WIN 23 16 * 2 ^ 88) &&
  decide (dv.natAbs * 100 ≤ d.fld Reg.GFM_RS_WIN 15 8 * 2 ^ 24)

/-- One machine cycle of RESYNC (R75, R76): the differences, the retargets, and RESYNC_READY. The far-side magnitude that
ends RESYNC (R59) is tested here, once in a machine cycle (log 119, DESIGN CHOICE). -/
def Dev.resync (i : McInput) (d : Dev) : Dev :=
  let w := (d.omegaPu i.wFw).toInt
  let df := sat 32 (i.fFar - w)
  let dv := sat 32 (i.vFar - i.vNr)
  let pred := i.dTheta + rdiv (df * d.fwNom * 400000 * d.fld Reg.GFM_BKR 23 16) (2 ^ 56)
  let dead : Bool := decide (i.vFar * 100 < d.fld Reg.GFM_RS_WIN 7 0 * 2 ^ 24)
  let d := if dead ∧ d.gfm.mode = .resync then d.autoMode .forming 6 false else d
  let d := ((d.queueOp (.start 3 (BitVec.ofInt 32 i.fFar) none true)).queueOp
    (.start 4 (i.phi + BitVec.ofInt 32 pred) none true)).queueOp (.start 2 (sat32 (i.eSet + dv)) none true)
  let d := d.onGfm fun g => { g with dTheta := pred, dF := df, dV := dv }
  if !d.inWindows pred df dv then (d.onGfm fun g => { g with ready := false, holdStart := none }).gateClose
  else
    let t0 := d.gfm.holdStart.getD i.sampleTick
    let rise : Bool := !d.gfm.ready && decide (d.fld Reg.GFM_RS_TIME 31 16 * msTicks ≤ i.sampleTick - t0)
    let d := d.onGfm fun g => { g with holdStart := some t0, ready := g.ready || rise }
    if rise then
      let d := (d.event 4 2 0 0 0).irq 36
      if d.mayClose then d.startClose else d
    else d.gateClose

/-- The quantities of a machine cycle that is in progress and has been evaluated are those that GFM_SNAP captures. -/
def Dev.showCycle (d : Dev) : Dev :=
  d.onGfm fun g => { g with
    shown := { pe := g.pe, qe := g.qe, dTheta := g.dTheta, dF := g.dF, dV := g.dV, eps := g.eps } }

/-- MACHINE_EVALUATION (R66–R72, R75): machine cycle m from the samples of its first stroke. A cycle of RESYNC may be
evaluated before the boundary that puts the mode in force, and not after one that has ended it. -/
def Dev.machineEval (d : Dev) : Dev :=
  match d.gfm.mcDue with
  | none => d
  | some i =>
    let d := d.onGfm fun g => { g with mcDue := none }
    let d := (d.powers i).swing i
    let d := if i.mode = .resync ∧ (d.gfm.mode = .resync ∨ d.gfm.entryTick ≤ i.sampleTick) then d.resync i else d
    if afterSn i.sn d.ang.cur.sn then d else d.showCycle

/-- MACHINE_EVALUATION (R67). -/
def execMachineEvaluation (s : State) : Outcome State Fault Refusal := .next (s.run Dev.machineEval)

/-- BKR_CLOSE_PULSE_END (R78). -/
def Dev.pulseEndRow (d : Dev) : Dev :=
  match d.gfm.pulseEnd with
  | none => d
  | some t => if t ≤ d.now then d.onGfm fun g => { g with bkrClose := false, pulseEnd := none } else d

/-- BKR_CLOSE_PULSE_END (R78). -/
def execBkrClosePulseEnd (s : State) : Outcome State Fault Refusal := .next (s.run Dev.pulseEndRow)

/-- BKR_FB_CHANGE (R79, R81): a change that has been stable for 2 ms. Where another exit from RESYNC already waits for its
boundary, that exit stands and the closed breaker is reported beside it (log 87). -/
def Dev.bkrFbChange (level : Bool) (d : Dev) : Dev :=
  if level = d.gfm.bkrFb then d
  else
    let d := d.onGfm fun g => { g with bkrFb := level }
    match d.gfm.mode, level with
    | .resync, true =>
      ((d.onGfm fun g => { g with attempt := none }).event 4 4 0 0 0).autoMode .forming 4 false
    | .forming, false => d.event 4 6 0 0 0
    | _, _ => d

/-- BKR_FB_CHANGE (R79, R81). -/
def execBkrFbChange (level : Bool) (s : State) : Outcome State Fault Refusal := .next (s.run (Dev.bkrFbChange level))

/-- BKR_NO_CLOSE (R79): FB_TIMEOUT has passed since the start of a close, without feedback. -/
def Dev.bkrNoClose (d : Dev) : Dev :=
  match d.gfm.attempt with
  | none => d
  | some t =>
    if d.gfm.mode ≠ .resync ∨ d.gfm.bkrFb ∨ d.now < t + d.fld Reg.GFM_BKR 7 0 * 10 * msTicks then d
    else
      let d := (d.onGfm fun g => { g with
        attempt := none, bkrClose := false, pulseEnd := none, ready := false, holdStart := none
        failures := g.failures + 1 }).event 4 5 0 0 0
      if d.fld Reg.GFM_BKR 25 24 < d.gfm.failures then d.autoMode .forming 8 false else d

/-- BKR_NO_CLOSE (R79). -/
def execBkrNoClose (s : State) : Outcome State Fault Refusal := .next (s.run Dev.bkrNoClose)

/-- RESYNC_TIMEOUT (R79): RESYNC has lasted longer than TIMEOUT. -/
def Dev.resyncTimeout (d : Dev) : Dev :=
  if d.gfm.mode = .resync ∧ d.gfm.entryTick + d.fld Reg.GFM_RS_TIME 15 0 * 100 * msTicks < d.now then
    d.autoMode .forming 5 false
  else d

/-- RESYNC_TIMEOUT (R79). -/
def execResyncTimeout (s : State) : Outcome State Fault Refusal := .next (s.run Dev.resyncTimeout)

/-- An automatic transition with a cause waits for its boundary, or is planned for it. -/
def Dev.autoDue (d : Dev) (cause : Nat) : Bool :=
  d.gfm.auto.any (fun r => decide (r.cause = cause)) ||
    d.ang.jobs.any fun j => j.plan.any fun p => !p.host && decide (p.req.cause = cause)

/-- A timeout trip of a mode, unless the mode's completion, which has the cause `done`, is due or the device trips
already. -/
def Dev.modeTimeout (m : Mode) (done ticks cause : Nat) (d : Dev) : Dev :=
  if d.gfm.mode ≠ m ∨ d.now < d.gfm.entryTick + ticks ∨ d.tripping ∨ d.autoDue done ∨
      d.sup.delayed.any (fun t => t.cause = cause) then d
  else d.tripNextStroke .soft cause []

/-- BS_TIMEOUT (R74). -/
def execBsTimeout (s : State) : Outcome State Fault Refusal :=
  .next (s.run fun d => d.modeTimeout .blackstart 2 (d.fld Reg.GFM_BS 15 0 * 10 * msTicks) 15)

/-- STOP_TIMEOUT (R59). -/
def execStopTimeout (s : State) : Outcome State Fault Refusal :=
  .next (s.run fun d => d.modeTimeout .stopping 11 (d.fld Reg.GFM_STOP 31 16 * 10 * msTicks) 16)

/-! ### Registers -/

/-- GFM_STATUS. -/
def Dev.gfmStatus (d : Dev) : Nat :=
  let g := d.gfm
  let lim := signed 32 (d.cfg Reg.GFM_EPS_LIM)
  pack [(g.cause, 24), (b2n g.req.isSome, 20), (b2n g.ready, 19), (b2n g.bkrClose, 18), (b2n g.bkrFb, 17),
    (b2n g.swingHeld, 16), (b2n g.eAtLim, 15), (b2n (decide (g.eps = lim ∨ g.eps = -lim)), 14), (d.subNow, 8),
    (modeCode g.mode, 0)]

/-- GFM_SNAP (R9): all from the machine cycle in progress; the quantities of R75 are 0 outside RESYNC. -/
def Dev.gfmSnap (v : W32) (d : Dev) : Dev :=
  if v.getLsbD 0 then
    let g := d.gfm
    let shown (v : Int) : Nat := if g.mode = .resync then unsigned 32 v else 0
    d.snapAll [(Reg.GFM_OMEGA_SNAP, (d.omegaPu g.omega).toNat), (Reg.GFM_PE_SNAP, unsigned 32 g.shown.pe),
      (Reg.GFM_QE_SNAP, unsigned 32 g.shown.qe), (Reg.GFM_E_SNAP, unsigned 32 g.e), (Reg.GFM_PHI_SNAP, g.phi.toNat),
      (Reg.GFM_DTHETA_SNAP, shown g.shown.dTheta), (Reg.GFM_DF_SNAP, shown g.shown.dF),
      (Reg.GFM_DV_SNAP, shown g.shown.dV), (Reg.GFM_EPS_SNAP, unsigned 32 g.shown.eps)]
  else d

/-- GFM_SNAP (R9). -/
def execGfmSnap (v : W32) (s : State) : Outcome State Fault Refusal := .next (s.run (Dev.gfmSnap v))

end Sys2Proof.Machine
end

