-- ==== Sys2Proof/Machine/Limiter.lean ====
section
/-! DEFINITION. Stage 4 of the loop evaluation (R143–R153, R164, R60): the current limiter, the sub-states of FORMING,
limit_hold, the recovery ramp, and the TRIP_SOFT ramp. -/

namespace Sys2Proof.Machine

open Host

/-- Hundredths of a pu compared with a signal in Q7.24: x < n × 0.01 pu, exactly (log 89, DESIGN CHOICE). -/
def belowCenti (x : Int) (n : Nat) : Bool := decide (x * 100 < n * 2 ^ 24)

/-- I, the limit in force (R143), for a derating of `dT` × 0.1 %. -/
def Dev.limitNow (d : Dev) (dT : Nat) : Int :=
  let s := minList 100 ((d.sup.chans.cells.filter fun c => (c.2.subst && c.2.started) || c.2.ending).map (·.2.scale))
  rdiv (d.fld Reg.SUP_ILIM 15 0 * dT * s * 2 ^ 24 : Nat) 100000000

/-- −b ≤ x ≤ b. -/
def clampSym (b x : Int) : Int := clampI (-b) b x

/-- sqrt(I² − x²), rounded down. -/
def restOf (i x : Int) : Int := isqrt (i * i - x * x).toNat

/-- The limiter (R144): modes 0 CIRCULAR, 1 D_PRIO, 2 Q_PRIO. -/
def limiter (mode : Nat) (i c d q : Int) : Int × Int :=
  match mode with
  | 0 =>
    let m := magnitude d q
    let (d1, q1) := if i < m then (rdiv (d * i) m, rdiv (q * i) m) else (d, q)
    (clampSym c d1, q1)
  | 1 =>
    let d1 := clampSym c d
    (d1, clampSym (restOf i d1) q)
  | _ =>
    let q1 := clampSym i q
    let l := restOf i q1
    (clampSym (if c < l then c else l) d, q1)

/-- A sub-state change in the evaluation (R147–R149). SUP_FRT_CNT counts entries from a sub-state other than the two of
ride-through (log 90, DESIGN CHOICE). -/
def Dev.setSub (new : Sub) (d : Dev) : Dev :=
  let old : Sub := d.sup.sub
  if new = old then d
  else
    let d := d.onSup fun s => { s with
      sub := new, frtCnt := if isFrt new && !isFrt old then satInc s.frtCnt else s.frtCnt }
    if d.gfm.mode = d.sup.evalMode then (d.onGfm fun g => { g with sub := new }).subEvent old new
    else d.onSup fun s => { s with late := s.late ++ [(old, new)] }

/-- V_nr of the last N_S angle strokes before the one under evaluation, whose own V_nr stage 1 has noted (R151). -/
def Dev.vBefore (d : Dev) : List Int := d.sup.vHist.tail.take d.nS

/-- V_pre and i_r0 are frozen, and a running recovery ramp ends (R150, R151). -/
def Dev.freeze (d : Dev) : Dev :=
  let n := d.vBefore.length
  let v := if n = 0 then 2 ^ 24 else rdiv (d.vBefore.foldl (· + ·) 0) n
  d.onSup fun s => { s with vPre := v, iR0 := -(d.sigI 112), ramp := none }

/-- The recovery ramp starts at |SIG_111| (R152); one that stands at I already has ended. -/
def Dev.startRamp (i : Int) (d : Dev) : Dev :=
  let irec : Int := (d.sigI 111).natAbs
  let r : RecRamp := { irec := irec, rate := d.fld Reg.SUP_FRT_T 31 16 }
  d.onSup fun s => { s with ramp := if irec < i then some r else none }

/-- The recovery ramp in a following stroke of `len` ticks (R152). -/
def Dev.advanceRamp (i : Int) (len : Nat) (d : Dev) : Dev :=
  match d.sup.ramp with
  | none => d
  | some r =>
    let v := r.irec + rdiv (r.rate * len * 2 ^ 24 : Nat) 40000000000
    d.onSup fun s => { s with ramp := if v < i then some { r with irec := v } else none }

/-- The start of an unbroken run of a condition tested at a sample instant (R538). -/
def runFrom (start : Option Nat) (ok : Bool) (tick : Nat) : Option Nat := if ok then some (start.getD tick) else none

/-- A run has lasted for at least `t` at a sample instant (R538). -/
def heldFor (start : Option Nat) (tick t : Nat) : Bool := match start with
  | none => false
  | some t0 => decide (t ≤ tick - t0)

/-- T_LIM_EXIT and T_FRT_CLR. -/
def Dev.tLimExit (d : Dev) : Nat := d.fld Reg.SUP_ILIM 31 24 * msTicks
def Dev.tFrtClr (d : Dev) : Nat := d.fld Reg.SUP_FRT_T 15 0 * msTicks

/-- The exit from ride-through has been timed (R147): the ramp starts and the sub-state follows what the limiter did. -/
def Dev.frtExit (acts : Bool) (d : Dev) : Dev := d.setSub (if acts then .limit else .recover)

/-- The limiter's exit has been timed (R146, R147). -/
def Dev.limExit (d : Dev) : Dev :=
  let d := if d.sup.evalMode = .forming ∧ d.sup.sub = .limit then
    d.setSub (if d.sup.ramp.isSome then .recover else .normal) else d
  d.onSup fun s => { s with limitHold := false }

/-- The ride-through that a stroke asks for: FRT_LOW or FRT_HIGH (R147). -/
def Dev.dip (d : Dev) (v : Int) : Option Sub :=
  if d.flag Reg.SUP_CTRL 3 && belowCenti v (d.fld Reg.SUP_FRT_V 7 0) then some .frtLow
  else if d.flag Reg.SUP_CTRL 4 && decide (d.fld Reg.SUP_FRT_V 15 8 * 2 ^ 24 < v * 100) then some .frtHigh
  else none

/-- V_nr lies in the clearing band (R147). -/
def Dev.clearing (d : Dev) (v : Int) : Bool :=
  let h := d.fld Reg.SUP_FRT_V 23 16
  !belowCenti v (d.fld Reg.SUP_FRT_V 7 0 + h) && decide (v * 100 ≤ (d.fld Reg.SUP_FRT_V 15 8 - h : Int) * 2 ^ 24)

/-- Ride-through in RESYNC (R60): the entry is noted once, with V_pre and i_r0, and FORMING follows. -/
def Dev.resyncDip (v : Int) (d : Dev) : Dev :=
  if d.sup.evalMode ≠ .resync then d
  else
    let d := match d.gfm.frtEntry, d.dip v with
      | none, some s => d.freeze.onGfm fun g => { g with frtEntry := some s }
      | _, _ => d
    if d.gfm.frtEntry.isSome ∧ d.gfm.mode = .resync then (d.autoMode .forming 7 false).gateClose else d

/-- Rows 1 and 2 of R147: the row for FRT_LOW first, each only from another sub-state. -/
def Dev.dipRow (d : Dev) (v : Int) : Option Sub :=
  let low : Bool := d.flag Reg.SUP_CTRL 3 && belowCenti v (d.fld Reg.SUP_FRT_V 7 0)
  let high : Bool := d.flag Reg.SUP_CTRL 4 && decide (d.fld Reg.SUP_FRT_V 15 8 * 2 ^ 24 < v * 100)
  if low ∧ d.sup.sub ≠ .frtLow then some .frtLow
  else if high ∧ d.sup.sub ≠ .frtHigh then some .frtHigh
  else none

/-- The exit condition (R145), with the reference as the limiter took it; both products are compared exactly (log 89,
DESIGN CHOICE). -/
def Dev.exitCond (d : Dev) (i din qin : Int) : Bool :=
  let e := d.fld Reg.SUP_ILIM 23 16
  decide (magnitude din qin * 100 ≤ e * i) && (match d.sup.ramp with
    | none => true
    | some r => decide ((din.natAbs : Int) * 100 ≤ e * r.irec))

/-- The limiter's computation of a stroke (R144): what it reads, what it writes, and whether it acts. -/
structure LimStep where
  din : Int
  qin : Int
  d : Int
  q : Int
  acts : Bool
deriving DecidableEq, Repr

/-- The limiter of a stroke (R144) in the sub-state that rows 1–3 give. -/
def Dev.limStep (d : Dev) (i v : Int) (frt : Bool) : LimStep :=
  let din := d.sigI 109
  let qin := if frt then sat 32 (-(d.sup.iR0 + rdiv (d.fld Reg.SUP_FRT_V 31 24 * (d.sup.vPre - v)) 10))
    else d.sigI 110
  let mode := if frt then 2 else d.fld Reg.SUP_CTRL 2 1
  let c := match d.sup.ramp with
    | none => i
    | some r => r.irec
  let (x, y) := limiter mode i c din qin
  { din := din, qin := qin, d := x, q := y, acts := decide (x ≠ din ∨ y ≠ qin) }

/-- The runs of R153 after a stroke's sub-state is known. -/
def Dev.timeRuns (tick : Nat) (d : Dev) : Dev :=
  let frt : Bool := decide (d.sup.evalMode = .forming) && isFrt d.sup.sub
  let lim : Bool := d.sup.limitHold || (decide (d.sup.evalMode = .forming ∧ d.sup.sub = .limit))
  d.onSup fun s => { s with
    frtStart := runFrom s.frtStart frt tick, limStart := runFrom s.limStart lim tick
    frtFired := s.frtFired && frt, limFired := s.limFired && lim }

/-- The stage outside a TRIP_SOFT ramp (R143–R152). A stroke whose stages 2 to 8 are abandoned does not advance i_rec
(log 91, DESIGN CHOICE). -/
def Dev.limitStage (j : Job) (i : Int) (d : Dev) : Dev :=
  let v := d.sigI 84
  let tick := j.sampleTick
  let d := (d.advanceRamp i j.g.len).onSup fun s => { s with clearStart := runFrom s.clearStart (d.clearing v) tick }
  let d := d.resyncDip v
  let forming : Bool := decide (d.sup.evalMode = .forming)
  let old : Sub := d.sup.sub
  let dipTo := if forming then d.dipRow v else none
  let cleared : Bool := forming && isFrt old && dipTo.isNone && heldFor d.sup.clearStart tick d.tFrtClr
  let d := if dipTo.isSome && !isFrt old then d.freeze else d
  let d := if cleared then d.startRamp i else d
  let o := d.limStep i v (forming && (dipTo.isSome || (isFrt old && !cleared)))
  let d := d.setSigs 111 [sat32 o.d, sat32 o.q, sat32 i]
  let d := d.onSup fun s => { s with
    limAct := o.acts, exitStart := runFrom s.exitStart (d.exitCond i o.din o.qin) tick }
  let timed := heldFor d.sup.exitStart tick d.tLimExit
  let d := match dipTo with
    | some s => d.setSub s
    | none =>
      if cleared then d.frtExit o.acts
      else if forming ∧ (old = Sub.normal ∨ old = Sub.recover) then
        (if o.acts then d.setSub .limit
         else if old = Sub.recover ∧ d.sup.ramp.isNone then d.setSub .normal else d)
      else if timed then d.limExit
      else d
  let holds : Bool := decide (d.sup.evalMode = .blackstart ∨ d.sup.evalMode = .resync ∨ d.sup.evalMode = .stopping)
  let d := if holds && o.acts then d.onSup fun s => { s with limitHold := true } else d
  d.timeRuns tick

/-- The reference of a TRIP_SOFT ramp at a sample instant (R164). -/
def rampRef (r : SoftRamp) (t0 tick : Nat) : Int × Int :=
  let t := min (tick - t0) r.tSoft
  (rdiv (r.d0 * (r.tSoft - t : Nat)) r.tSoft, rdiv (r.q0 * (r.tSoft - t : Nat)) r.tSoft)

/-- Stage 4 (R108). A recovery ramp goes on under a TRIP_SOFT ramp (R152). -/
def Dev.stage4 (j : Job) (d : Dev) : Dev :=
  let i := d.limitNow j.dT
  let ramp := match d.sup.soft with
    | none => none
    | some r => match r.start with
      | none => none
      | some t0 => if t0 ≤ j.sampleTick then some (rampRef r t0 j.sampleTick) else none
  match ramp with
  | some (x, y) =>
    ((d.advanceRamp i j.g.len).setSigs 111 [sat32 x, sat32 y, sat32 i]).onSup fun s => { s with
      limAct := false, exitStart := none, clearStart := none
      frtStart := none, frtFired := false, limStart := none, limFired := false }
  | none => (d.evalEnter j.mode).limitStage j i

/-! ### The rows of the timed conditions -/

/-- FRT_CLEARED (R147): the clearing band has held for T_FRT_CLR at the last evaluated stroke. A loop evaluation takes
this exit itself in the stroke that reaches the time. -/
def Dev.frtClearedRow (d : Dev) : Dev :=
  if d.sup.evalMode = .forming ∧ isFrt d.sup.sub = true ∧ heldFor d.sup.clearStart d.sup.evalTick d.tFrtClr = true then
    (d.startRamp (d.sigI 113)).frtExit d.sup.limAct
  else d

/-- FRT_CLEARED (R147). -/
def execFrtCleared (s : State) : Outcome State Fault Refusal := .next (s.run Dev.frtClearedRow)

/-- LIMIT_EXIT (R146, R147): the exit condition has held for T_LIM_EXIT at the last evaluated stroke. A loop evaluation
takes this exit itself in the stroke that reaches the time. -/
def Dev.limitExitRow (d : Dev) : Dev :=
  if heldFor d.sup.exitStart d.sup.evalTick d.tLimExit = true ∧
      (d.sup.limitHold = true ∨ (d.sup.evalMode = .forming ∧ d.sup.sub = .limit)) then d.limExit
  else d

/-- LIMIT_EXIT (R146, R147). -/
def execLimitExit (s : State) : Outcome State Fault Refusal := .next (s.run Dev.limitExitRow)

/-- A run has lasted longer than a limit of `n` × 10 ms; 0 disables the check (R153, R538). -/
def tooLong (start : Option Nat) (tick n : Nat) : Bool := match start with
  | none => false
  | some t0 => decide (n ≠ 0 ∧ n * 10 * msTicks < tick - t0)

/-- FRT_TMAX_EXPIRE (R153). -/
def Dev.frtTmaxRow (d : Dev) : Dev :=
  if tooLong d.sup.frtStart d.sup.evalTick (d.fld Reg.SUP_TMAX 31 16) && !d.sup.frtFired then
    (((d.onSup fun s => { s with frtFired := true }).event 9 12 0 0 0).tripEval .soft 11 [])
  else d

/-- FRT_TMAX_EXPIRE (R153). -/
def execFrtTmaxExpire (s : State) : Outcome State Fault Refusal := .next (s.run Dev.frtTmaxRow)

/-- LIM_TMAX_EXPIRE (R153). -/
def Dev.limTmaxRow (d : Dev) : Dev :=
  if tooLong d.sup.limStart d.sup.evalTick (d.fld Reg.SUP_TMAX 15 0) && !d.sup.limFired then
    (((d.onSup fun s => { s with limFired := true }).event 9 13 0 0 0).tripEval .soft 12 [])
  else d

/-- LIM_TMAX_EXPIRE (R153). -/
def execLimTmaxExpire (s : State) : Outcome State Fault Refusal := .next (s.run Dev.limTmaxRow)

/-- SUB_EXPIRED (R159). -/
def Dev.subExpiredRow (c : Nat) (d : Dev) : Dev :=
  let x := d.chan c
  if x.subst && x.started && !x.expired && decide (x.substTick + x.tSub ≤ d.now) then
    ((d.setChan c { x with expired := true }).event 9 10 c 0 0).tripNextStroke .soft 9 []
  else d

/-- SUB_EXPIRED (R159). -/
def execSubExpired (ch : Fin 56) (s : State) : Outcome State Fault Refusal := .next (s.run (Dev.subExpiredRow ch.val))

/-- SOFT_RAMP_END (R164): the ramp's time has reached T_SOFT, and every submodule is commanded to BLOCK. -/
def Dev.softRampEnd (d : Dev) : Dev :=
  match d.sup.soft with
  | none => d
  | some r => match r.start with
    | none => d
    | some t0 =>
      if !d.sup.softEnd && decide (t0 + r.tSoft ≤ d.now) then
        (d.onSup fun s => { s with softEnd := true }).blockAll
      else d

/-- SOFT_RAMP_END (R164). -/
def execSoftRampEnd (s : State) : Outcome State Fault Refusal := .next (s.run Dev.softRampEnd)

end Sys2Proof.Machine
end

