-- ==== Sys2Proof/Machine/MirrorLoad.lean ====
section
/-! DEFINITION. The mirror record as a standby takes it over (R364, R365, R371, R373). -/

namespace Sys2Proof.Machine

/-- A time moved by `k` ticks. -/
def moveTime (k : Int) (t : Nat) : Nat := ((t : Int) + k).toNat

/-- The times of a record moved by `k` ticks: those of a device and those of the pair differ by what R362 has aligned. -/
def shiftRecord (k : Int) (r : MirrorRec) : MirrorRec :=
  let m := moveTime k
  let s := r.sup
  { r with
    grid := { r.grid with start := m r.grid.start }
    sup := { s with
      exitStart := s.exitStart.map m, clearStart := s.clearStart.map m, frtStart := s.frtStart.map m
      limStart := s.limStart.map m
      soft := s.soft.map fun x => { x with effTick := m x.effTick, start := x.start.map m }
      chans := s.chans.cells.foldl (fun t c => t.set ChanSup.reset c.1 { c.2 with substTick := m c.2.substTick }) .empty
      feStart := s.feStart.cells.foldl (fun t c => t.set 0 c.1 (m c.2)) .empty }
    subs := r.subs.map fun x => (x.1, x.2.1, x.2.2.map (moveTime (64 * k)))
    mach := r.mach.map fun g => { g with req := g.req.map fun q => { q with tick := m q.tick } } }

/-- The supervision section. -/
def loadSup (r : MirrorRec) (s : SupState) : SupState :=
  let m := r.sup
  { s with
    evalMode := r.mode, sub := r.sub, limitHold := m.limitHold, exitStart := m.exitStart, clearStart := m.clearStart
    frtStart := m.frtStart, limStart := m.limStart, ramp := m.ramp, vPre := m.vPre, iR0 := m.iR0, soft := m.soft
    chans := m.chans, model := m.model, feExc := m.feExc, feStart := m.feStart
    causeCount := m.causeCount, causeLast := m.causeLast, causeClass := m.causeClass, causeFirst := m.causeFirst }

/-- The modulation section: every arm, and the states and last edges of submodules (R192). -/
def loadMod (r : MirrorRec) (m : ModState) : ModState :=
  { m with
    arms := r.arms
    subs := r.subs.foldl (fun t x =>
      t.set Subm.reset x.1 { t.get Subm.reset x.1 with state := x.2.1, lastEdge := x.2.2 }) m.subs }

/-- The machine section. -/
def loadMach (r : MirrorRec) (g : GfmState) : GfmState :=
  match r.mach with
  | none => g
  | some m => { g with omega := m.omega, e := m.e, phi := m.phi, eps := m.eps, pf := m.pf, req := m.req }

/-- The state of a record goes into force (R365). -/
def Dev.loadRecord (r : MirrorRec) (d : Dev) : Dev :=
  let d := d.onLoop fun l => { l with
    region := r.region, col := r.region % 4, row := r.region / 4, secs := r.secs
    sig := r.outs.foldl (fun m x => m.set 0 x.1 x.2) l.sig }
  let d := ((d.onSup (loadSup r)).onMod (loadMod r)).onGfm (loadMach r)
  d.onProf fun p => { p with chans := (r.chans.zip (upto 8)).foldl (fun m x => m.set ProfChan.reset x.2 x.1) p.chans }

/-- The first `n` 40-bit entries of a drill section (R186). -/
def drillEntries : Nat → List Byte → List Nat
  | 0, _ => []
  | n + 1, bs => leAt bs 0 5 :: drillEntries n (bs.drop 5)

/-- The edges of a DRILL packet (R186, R363). -/
def drillEdges (p : DrillPkt) : List Edge :=
  (drillEntries (leAt p.body 0 4 % 128) (p.body.drop 4)).map fun w => ⟨64 * p.string + bits w 39 34, bits w 33 31, bits w 25 0⟩

/-- An edge as made in a stroke that starts at a tick. -/
def madeEdge (start : Nat) (m : ModState) (e : Edge) : ModState :=
  let x := m.subs.get Subm.reset e.sub
  { m with subs := m.subs.set Subm.reset e.sub { x with state := e.state, lastEdge := some (64 * start + e.time) } }

/-- What an arm takes from the edges made since a record, `last` those of the last stroke (R371): the polarity is that of the
last submodule inserted, the tiller has an edge within the stroke, and S_prev is what stays inserted. -/
def Dev.takeArm (edges last : List Edge) (a : Nat) (d : Dev) : Dev :=
  let mine (e : Edge) : Bool := (d.armSubs a).contains e.sub
  let tiller := ((last.filter mine).find? fun e => decide (0 < e.time)).map (·.sub)
  let put := ((edges.filter mine).filter fun e => decide (e.state = 1 ∨ e.state = 2)).getLast?
  let r := d.arm a
  d.setArm a { r with
    tiller := tiller
    polNeg := (put.map fun e => decide (e.state = 2)).getD r.polNeg
    members := (d.armSubs a).filter fun k => decide ((d.subm k).state = 1 ∨ (d.subm k).state = 2) }

/-- The DRILL packets after the newest record, oldest first. -/
def Dev.laterDrills (d : Dev) (sn : W32) : List (DrillPkt × Nat) :=
  (upto 12).flatMap fun n => ((d.twn.drills.get [] n).filter fun p => afterSn p.1.sn sn).reverse

/-- The module state from which a device that takes over builds its first furrow (R371, step 4): the newest record with
every later DRILL packet applied, c = 0. A BLIND device has its own. -/
def Dev.takeModules (d : Dev) : Dev :=
  let d := match d.twn.mirror with
    | none => d
    | some r =>
      let later := d.laterDrills r.evalSn
      let d := d.onMod (loadMod (shiftRecord (-d.ang.tickBase) r))
      if later = [] then d
      else
        let d := later.foldl (fun d p => (drillEdges p.1).foldl (fun d e => d.onMod fun m => madeEdge p.2 m e) d) d
        let last := later.filter fun p => decide (p.1.sn = d.twn.lastL)
        (upto 6).foldl (fun d a => d.takeArm (later.flatMap fun p => drillEdges p.1) (last.flatMap fun p => drillEdges p.1) a) d
  (upto 6).foldl (fun d a => d.setArm a { d.arm a with carry := 0 }) d

/-- The expected record is not held (R365). A device that has no link, or has not synchronised yet, expects none
(DEDUCED). -/
def Dev.mirrorMiss (d : Dev) : Dev :=
  if d.twn.st = .standby then
    ((d.onTwn fun t => { t with missCnt := satInc t.missCnt }).event 14 6 0 0 0).irq 38
  else d

/-- The partner's record is loaded before the evaluation of stroke n (R365, R371, R373). -/
def Dev.twinLoad (n : W32) (d : Dev) : Dev :=
  if d.twn.loadSn = some n then
    let d := d.onTwn fun t => { t with loadSn := none }
    if d.twn.nT = some n then d.takeModules
    else match d.twn.mirror with
      | some r => if r.evalSn + 1 = n then d.loadRecord (shiftRecord (-d.ang.tickBase) r) else d
      | none => d
  else if d.twn.st = .standby ∨ d.twn.st = .syncing ∨ d.twn.st = .blind then
    match d.twn.mirror with
    | some r => if r.evalSn + 1 = n then d.loadRecord (shiftRecord (-d.ang.tickBase) r) else d.mirrorMiss
    | none => d.mirrorMiss
  else d

end Sys2Proof.Machine
end

