-- ==== Sys2Proof/Machine/Telemetry.lean ====
section
/-! DEFINITION. Telemetry (R426, R436, R437, R441): subscriptions, and the snapshot of every DIV-th stroke. -/

namespace Sys2Proof.Machine

open Host

/-- A telemetry subscription. -/
def Dev.tel (d : Dev) (k : Nat) : Telemetry := d.host.tel.get Telemetry.reset k

/-- A telemetry subscription replaced. -/
def Dev.setTel (k : Nat) (v : Telemetry) (d : Dev) : Dev :=
  d.onHost fun h => { h with tel := h.tel.set Telemetry.reset k v }

/-- SEQ counts from 1 and skips 0 at the wrap (R437). -/
def nextSeq (s : W32) : W32 := if s + 1 = 0 then 1 else s + 1

/-- The bytes of a slot (R437). -/
def Dev.telSlot (d : Dev) (x : Telemetry) (seq sn : W32) : List Byte :=
  leBytes 4 seq.toNat ++ leBytes 4 sn.toNat ++ leBytes 2 x.sigs.length ++ leBytes 2 0 ++
    x.sigs.flatMap (fun n => leBytes 4 (d.sig n).toNat) ++ leBytes 4 seq.toNat

/-- One snapshot of a subscription: its slot, then its descriptor, which is skipped where the ring has no room. -/
def Dev.telSnapshot (k : Nat) (sn : W32) (d : Dev) : Dev :=
  let x := d.tel k
  let seq := nextSeq x.seq
  let addr := x.addr + x.nextSlot * (64 * ceilDiv (16 + 4 * x.sigs.length) 64)
  let y := { x with seq := seq, nextSlot := (x.nextSlot + 1) % x.slots, wait := x.div - 1 }
  let d := d.post addr (d.telSlot x seq sn)
  let r := 24 + x.ring
  if d.ringRoom r = 0 then
    ((d.setTel k { y with skip := x.skip + 1 }).onHost fun h => { h with telSkipCnt := satInc h.telSkipCnt }).event
      2 3 k (x.skip + 1) 0
  else
    let desc := leBytes 2 0x0501 ++ [0, 0] ++ leBytes 2 k ++ leBytes 2 0 ++ leBytes 8 addr ++
      leBytes 4 (16 + 4 * x.sigs.length) ++ leBytes 4 seq.toNat ++ leBytes 4 sn.toNat ++ leBytes 4 x.skip
    (d.setTel k { y with skip := 0 }).putDesc r (20 + x.ring) desc

/-- A change of a subscription applies from the next stroke (R436), in place of an earlier one that has not applied. -/
def Dev.changeTel (k : Nat) (v : Telemetry) (d : Dev) : Dev :=
  d.onHost fun h => { h with telDue := (h.telDue.filter fun x => decide (x.1 ≠ k)) ++ [(k, d.ang.cur.sn + 1, v)] }

/-- The changes that apply in a stroke are made (R436). -/
def Dev.applyTel (sn : W32) (d : Dev) : Dev :=
  let isDue (x : Nat × W32 × Telemetry) : Bool := decide ((sn - x.2.1).toNat < 2 ^ 31)
  let due := d.host.telDue.filter isDue
  (due.foldl (fun d x => d.setTel x.1 x.2.2) d).onHost fun h => { h with telDue := h.telDue.filter fun x => !isDue x }

/-- The end of stage 7 of a stroke, or its abandonment, for every subscription (R437). -/
def Dev.telemetrySample (sn : W32) (d : Dev) : Dev :=
  let d := d.applyTel sn
  (upto 16).foldl (fun d k =>
    let x := d.tel k
    if !x.active then d
    else if x.wait = 0 then d.telSnapshot k sn
    else d.setTel k { x with wait := x.wait - 1 }) d

/-- The subscription that a buffer of TELEMETRY_SUBSCRIBE describes, if it is well formed (R436). -/
def telemetryOf (ring : Nat) (bs : List Byte) : Option Telemetry :=
  let addr := leAt bs 0 8
  let k := leAt bs 8 2
  let div := leAt bs 10 2
  let n := leAt bs 12 2
  let sigs := (upto n).map fun i => leAt bs (16 + 2 * i) 2
  if addr % 4096 = 0 ∧ 1 ≤ k ∧ k ≤ 4096 ∧ 1 ≤ div ∧ 1 ≤ n ∧ n ≤ 64 ∧ leAt bs 14 2 = 0 ∧ bs.length = 16 + 2 * n ∧
      sigs.all (fun s => decide (s < 512)) = true then
    some { active := true, ring := ring, addr := addr, slots := k, div := div, sigs := sigs, nextSlot := 0, seq := 0,
           wait := 0, skip := 0 }
  else none

/-- TELEMETRY_SUBSCRIBE (R436). -/
def Dev.telemetrySubscribe (c : Cmd) (d : Dev) : Dev :=
  let k := c.byte 20
  if 15 < k ∨ 3 < c.byte 21 then d.complete c 0x90 stBadParam
  else if !bitAt (c.byte 22) 0 then
    if c.len = 0 then (d.changeTel k Telemetry.reset).complete c 0x90 stOk else d.complete c 0x90 stBadParam
  else if c.len.toNat < 18 ∨ 144 < c.len.toNat then d.complete c 0x90 stBadParam
  else d.withBuffer 0x90 c fun d =>
    match telemetryOf (c.byte 21) c.data with
    | none => d.completeRes c 0x90 stBadParam c.len.toNat []
    | some t => (d.changeTel k t).completeRes c 0x90 stOk c.len.toNat []

/-- TELEMETRY_SUBSCRIBE (R436). -/
def execTelemetrySubscribe (c : Cmd) (s : State) : Outcome State Fault Refusal :=
  s.runCmd 0x90 (inlMask [(20, 0xFF), (21, 0xFF), (22, 1)]) c (Dev.telemetrySubscribe c)

end Sys2Proof.Machine
end

