-- ==== Sys2Proof/Machine/LoopEngine.lean ====
section
/-! DEFINITION. The loop engine (LOOP, R108–R131, R140): stage 1, compensation tables, cascades with their banks and
anti-windup, the output stage, the region selector, and what a missed deadline does. -/

namespace Sys2Proof.Machine

open Host

/-! ### Stage 1: map, transforms, powers (R114–R117, R158) -/

/-- The value of map entry q (R117). -/
def Dev.entryVal (d : Dev) (q : Nat) : Int := match d.mapSrc q with
  | some s => d.sigI s
  | none => 0

/-- A phase current as the map and PHASE_I form it (R117). -/
def Dev.phaseVal (d : Dev) (x : Nat) : Int :=
  match d.phaseI with
  | 0 => d.entryVal (6 + x)
  | 1 => d.entryVal x
  | 2 => sat 32 (d.entryVal x - d.entryVal ((x + 2) % 3))
  | _ => sat 32 (d.entryVal x - d.entryVal (x + 3))

/-- An arm current with its substitution (R158); `rep` says whether an entry's channel is replaced. -/
def Dev.armVal (d : Dev) (rep : Nat → Bool) (est : Nat → Int) (q : Nat) : Int :=
  if !rep q then d.entryVal q
  else match d.phaseI with
    | 1 => if q < 3 then est q else d.entryVal q
    | 2 => if q < 3 then sat 32 (est q + d.entryVal ((q + 2) % 3)) else d.entryVal q
    | 3 => if q < 3 then sat 32 (est q + d.entryVal (q + 3)) else sat 32 (d.entryVal (q - 3) - est (q - 3))
    | _ => d.entryVal q

/-- The d and q components of three phase values at an angle (R115, R536). -/
def rotorFrame (theta : Nat) (a b c : Int) : Int × Int :=
  let (ca, sa) := cosSin theta 0
  let (cb, sb) := cosSin theta 2
  let (cc, sc) := cosSin theta 1
  (sat 32 (rdiv (2 * (a * ca + b * cb + c * cc)) (3 * 2 ^ 30)),
   sat 32 (rdiv (-2 * (a * sa + b * sb + c * sc)) (3 * 2 ^ 30)))

/-- All three map entries of a side are fitted (R116). -/
def Dev.sideFitted (d : Dev) (q : Nat) : Bool := [q, q + 1, q + 2].all fun k => (d.mapSrc k).isSome

/-- f of a side at its update (R116): ω in Q7.24 plus the turning of its vector, each ratio rounded by R112. -/
def Dev.sideFreq (d : Dev) (wFw : Nat) (prev : Option Nat) (ang ticks : Nat) : W32 :=
  let delta : Int := match prev with
    | some a => (BitVec.ofNat 32 ang - BitVec.ofNat 32 a).toInt
    | none => 0
  let nom := max d.fwNom 1
  let turn : Int := if ticks = 0 then 0 else rdiv (delta * 2 ^ 56) (nom * ticks : Nat)
  sat32 (rdiv (wFw * 2 ^ 24 : Nat) nom + turn)

/-- R71: the voltage reference v* = E∠φ − Z i. -/
def Dev.voltageRef (d : Dev) (e : Int) (phi : W32) (held : Bool) (id iq : Int) : Int × Int :=
  let r := if held then Reg.GFM_ZF else Reg.GFM_ZV
  let rr : Int := d.fld r 15 0
  let xx : Int := d.fld r 31 16
  let (c, s) := cosSin phi.toNat 0
  (sat 32 (rshr (e * c - (rr * id - xx * iq) * 2 ^ 14) 30), sat 32 (rshr (e * s - (rr * iq + xx * id) * 2 ^ 14) 30))

/-- ω in force in the stroke before one whose stage 1 runs, as a frequency word. -/
def Dev.fwBefore (j : Job) (d : Dev) : Nat :=
  (match d.ang.jobs.find? (fun k : Job => decide (k.g.sn + 1 = j.g.sn)) with
    | some k => k.mach.wFw
    | none => d.gfm.omega).getD d.fwNom

/-- The frequencies of both sides at the first stroke of a machine cycle (R116). ω is that of the elapsed machine cycle,
over which the vectors have turned (DEDUCED). -/
def Dev.updateFreqs (j : Job) (d : Dev) : Dev :=
  let wFw := if j.g.angle then d.fwBefore j else 0
  let ticks := match d.loop.mcStart with
    | some t => j.g.start - t
    | none => 0
  let angN := atan2 (d.sigI 81) (d.sigI 80)
  let angF := atan2 (d.sigI 83) (d.sigI 82)
  let n := d.sideFitted 9
  let f := d.sideFitted 12
  let d := d.setSigs 86 [if n then d.sideFreq wFw d.loop.angNr angN ticks else 0,
    if f then d.sideFreq wFw d.loop.angFar angF ticks else 0]
  d.onLoop fun l => { l with
    mcStart := some j.g.start
    angNr := if n && decide (d.sig 84 ≠ 0) then some angN else none
    angFar := if f && decide (d.sig 85 ≠ 0) then some angF else none }

/-- A side that is not fitted reads frequency 0 and has no vector angle from before (R116). -/
def Dev.unfittedFreqs (d : Dev) : Dev :=
  let n := d.sideFitted 9
  let f := d.sideFitted 12
  let d := if n then d else (d.setSig 86 0).onLoop fun l => { l with angNr := none }
  if f then d else (d.setSig 87 0).onLoop fun l => { l with angFar := none }

/-- Stage 1 of a stroke (R108): SIG_0–SIG_108, with the model and its substitutions, and the exported means of the state of
charge (R194). In a direct topology, where MOD is not active, the six exported signals are written 0 (log 96, DESIGN
CHOICE). -/
def Dev.stage1 (j : Job) (d : Dev) : Dev :=
  let rawOf := d.rawCode
  let d := d.setSigs 0 ((upto 56).map d.entrySignal)
  let est : Nat → Int := fun x => estOf (d.phaseModel x)
  let rep : Nat → Bool := fun q => match d.mapSrc q with
    | some c => d.replaced c
    | none => false
  let phaseRep : Nat → Bool := fun x => (entriesOfPhase d.phaseI x).any rep
  let vals := (upto 6).map fun q => d.armVal rep est q
  let phases := (upto 3).map fun x => if phaseRep x then est x else d.phaseVal x
  let meas := (upto 3).map d.phaseVal
  let volts := (upto 7).map fun k => d.entryVal (9 + k)
  let w := BitVec.ofInt 32
  let d := d.setSigs 56 (vals.map w ++ phases.map w ++ volts.map w ++ slice32 j.armSum)
  let d := d.endSubLimits.plausibility j.g.sn rawOf (fun x => meas.getD x 0) (fun x => ((j.u1.getD x 0).toInt)) (fun x => volts.getD x 0)
  let theta := j.g.thetaA.toNat
  let near := d.sideFitted 9
  let far := d.sideFitted 12
  let (id, iq) := rotorFrame theta (phases.getD 0 0) (phases.getD 1 0) (phases.getD 2 0)
  let (vd, vq) := if near then rotorFrame theta (volts.getD 0 0) (volts.getD 1 0) (volts.getD 2 0) else (0, 0)
  let (fd, fq) := if far then rotorFrame theta (volts.getD 3 0) (volts.getD 4 0) (volts.getD 5 0) else (0, 0)
  let d := d.setSigs 78 [w id, w iq, w vd, w vq, w fd, w fq, sat32 (magnitude vd vq), sat32 (magnitude fd fq)]
  let d := (if j.g.mcFirst then d.updateFreqs j else d).unfittedFreqs
  let dTheta : W32 := if near && far then BitVec.ofNat 32 (atan2 fq fd) - BitVec.ofNat 32 (atan2 vq vd) else 0
  let p := sat32 (rshr (vd * id + vq * iq) 24)
  let q := sat32 (rshr (vq * id - vd * iq) 24)
  let (rd, rq) := d.voltageRef j.mach.e j.mach.phi j.held id iq
  let d := d.setSigs 88 ([dTheta, p, q, j.g.thetaS, j.g.thetaC, j.g.thetaA, d.omegaPu j.mach.wFw, w j.mach.e, j.mach.phi,
    w d.gfm.pe, w d.gfm.qe] ++ (upto 8).map (fun c => j.prof.getD c 0) ++ [w rd, w rq])
  if d.flag Reg.MOD_EXPORT 31 then d.setSigs (d.fld Reg.MOD_EXPORT 8 0) (slice32 j.socMean) else d
where
  /-- Six words, with 0 for those that are missing. -/
  slice32 (ws : List W32) : List W32 := (upto 6).map fun k => ws.getD k 0

/-- What follows stage 1 at once: the conditions of R539, V_nr for R151, the powers kept for R66, and at the first stroke of a machine
cycle the inputs of the machine level (R67). -/
def Dev.afterStage1 (j : Job) (d : Dev) : Dev :=
  let d := d.testCycle j
  let d := if j.g.angle then d.onSup fun s => { s with vHist := (d.sigI 84 :: s.vHist).take (d.nS + 1) } else d
  let hist := (d.sigI 89, d.sigI 90) :: d.gfm.hist
  let pos (c : Nat) : Int := (j.prof.getD c 0).toInt
  let mc : McInput := {
    sampleTick := j.sampleTick, sn := j.g.sn, mode := j.mode, held := j.held, wFw := j.mach.wFw
    pRef := pos 0, qRef := pos 1, eSet := pos 2, wRef := pos 3, phi := j.prof.getD 4 0
    vNr := d.sigI 84, vFar := d.sigI 85, fFar := d.sigI 87, dTheta := d.sigI 88, hist := hist.take 64 }
  let d := d.onGfm fun g => { g with hist := hist.take 64, mcDue := if j.g.mcFirst then some mc else g.mcDue }
  d.onAdc fun a => { a with rawDone := (upto 56).map fun e => BitVec.ofInt 32 (d.rawCode e) }

/-! ### Compensation tables (R126, R127) -/

/-- EN and MODE of a table. -/
def Dev.tabEn (d : Dev) (t : Nat) : Bool := d.flag (Reg.LOOP_COMP_CFG t) 31
def Dev.tabAdd (d : Dev) (t : Nat) : Bool := d.flag (Reg.LOOP_COMP_CFG t) 30

/-- w of a table (R126). -/
def Dev.tableOut (j : Job) (t : Nat) (d : Dev) : Int :=
  let src : W32 := match d.fld (Reg.LOOP_COMP_CFG t) 26 24 with
    | 0 => j.g.thetaS
    | 1 => j.g.thetaC
    | 2 => j.g.thetaA
    | s => j.auxAngle.getD (s - 4) 0
  let a := (src + BitVec.ofNat 32 (d.cfg (Reg.LOOP_COMP_OFS t))).toNat
  let es := d.loop.tab.get [] t
  let e (i : Nat) : Int := (es.getD (i % 1024) 0).toInt
  let i := bits a 31 22
  let v := e i + rshr ((e (i + 1) - e i) * bits a 21 6) 16
  sat 32 (rshr (signed 32 (d.cfg (Reg.LOOP_COMP_GAIN t)) * v) 15)

/-- Tables in SOURCE mode (stage 2). -/
def Dev.stage2 (j : Job) (d : Dev) : Dev :=
  (upto 8).foldl (fun d t => if d.tabEn t && !d.tabAdd t then
    d.setSig (d.fld (Reg.LOOP_COMP_CFG t) 8 0) (BitVec.ofInt 32 (d.tableOut j t)) else d) d

/-- Tables in ADD mode (stage 7). -/
def Dev.stage7 (j : Job) (d : Dev) : Dev :=
  (upto 8).foldl (fun d t => if d.tabEn t && d.tabAdd t then
    let n := d.fld (Reg.LOOP_COMP_CFG t) 8 0
    d.setSig n (sat32 (d.sigI n + d.tableOut j t)) else d) d

/-! ### Cascades (R118–R125) -/

/-- The region in force: 0 in every stroke while REGION_EN is 0 (R122). -/
def Dev.regionNow (d : Dev) : Nat := if d.flag Reg.LOOP_CTRL 3 then d.loop.region else 0

/-- The bank that a cascade uses in the region in force (R122). -/
def Dev.bankOf (d : Dev) (n : Nat) : Nat :=
  let r := d.regionNow
  if r < 8 then d.fld (Reg.LOOP_CASC_MAP_L n) (4 * r + 3) (4 * r)
  else d.fld (Reg.LOOP_CASC_MAP_H n) (4 * (r - 8) + 3) (4 * (r - 8))

/-- NSEC of a cascade. -/
def Dev.nsec (d : Dev) (n : Nat) : Nat := d.fld (Reg.LOOP_CASC_SEC n) 14 10

/-- A pass through the sections: the last output, the new states, and whether a narrowing saturated. -/
def sections : List (Coef × Biquad) → Int → Int × List Biquad × Bool
  | [], x => (x, [], false)
  | (c, s) :: rest, x =>
    let r := biquad c x s.s1 s.s2
    let (y, ns, e) := sections rest r.y
    (y, { s1 := r.n1, s2 := r.n2 } :: ns, r.satd || e)

/-- The last section's s1 with the correction of R125. -/
def correctLast (corr : Int) : List Biquad → List Biquad
  | [] => []
  | [s] => [{ s with s1 := sat 40 (s.s1 + corr) }]
  | s :: rest => s :: correctLast corr rest

/-- The states after a stroke with the clamp anti-windup (R118). -/
def antiWindup (hold : Nat) (dir : Int) : Nat → List (Biquad × Biquad) → List Biquad
  | _, [] => []
  | k, (old, new) :: rest =>
    (if bitAt hold k && decide (0 < dir * (new.s1 - old.s1)) then old else new) :: antiWindup hold dir (k + 1) rest

/-- A cascade's output limiter (R118, R119): output, direction, whether it clamped, and whether the limits cross. Where they
cross, the cascade counts as clamped if the midpoint is not its value (log 119, DESIGN CHOICE). -/
def outLimit (lo hi u : Int) : Int × Int × Bool × Bool :=
  if hi < lo then ((lo + hi) / 2, 0, decide ((lo + hi) / 2 ≠ u), true)
  else if hi < u then (hi, 1, true, false)
  else if u < lo then (lo, -1, true, false)
  else (u, 0, false, false)

/-- The states of the first `k` sections of a cascade. -/
def Dev.cascStates (d : Dev) (n k : Nat) : List Biquad := (upto k).map fun i => d.loop.secs.get Biquad.reset (16 * n + i)

/-- The states of a cascade replaced. -/
def Dev.setCascStates (n : Nat) (ss : List Biquad) (d : Dev) : Dev :=
  d.onLoop fun l => { l with secs := (ss.zip (upto 16)).foldl (fun m s => m.set Biquad.reset (16 * n + s.2) s.1) l.secs }

/-- The correction of R125 in Q7.32, and whether it saturated: the last output of a pass with the old coefficients less
that of a pass with the new ones, both from the stored states. -/
def Dev.matchCorr (d : Dev) (n : Nat) (old new : List Coef) (x : Int) : Int × Bool :=
  let pass (cs : List Coef) : Int := (sections (cs.zip (d.cascStates n cs.length)) x).1
  let raw := (pass old - pass new) * 2 ^ 8
  (sat 40 raw, decide (sat 40 raw ≠ raw))

/-- An enabled cascade evaluated in its place (R118–R120, R125). -/
def Dev.runCascade (n : Nat) (d : Dev) : Dev :=
  let rIn := Reg.LOOP_CASC_IN n
  let rOut := Reg.LOOP_CASC_OUT n
  let coefs := (d.loop.bank.get [] (16 * n + d.bankOf n)).take (d.nsec n)
  let old := d.loop.used.get [] n
  let raw : Int := d.sigI (d.fld rIn 8 0) - (if d.flag rIn 29 then d.sigI (d.fld rIn 24 16) else 0)
  let x := sat 32 raw
  let ss0 := d.cascStates n coefs.length
  let changed : Bool := d.flag rIn 30 && decide (old ≠ [] ∧ old ≠ coefs)
  let (corr, e3) := if changed then d.matchCorr n old coefs x else (0, false)
  let ss := correctLast corr ss0
  let e4 := changed && decide ((ss0.getLastD Biquad.reset).s1 + corr ≠ (ss.getLastD Biquad.reset).s1)
  let (y, ns, e0) := sections (coefs.zip ss) x
  let g := signed 32 (d.cfg (Reg.LOOP_CASC_GAIN n))
  let (u1, e1) := narrow 32 27 (g * y)
  let (u2, e2) := if d.flag rOut 31 then narrow 32 0 (u1 + d.sigI (d.fld rOut 24 16)) else (u1, false)
  let lim (src : Bool) (r : Nat) : Int := if src then d.sigI (d.fld r 8 0) else signed 32 (d.cfg r)
  let (u, dir, clamped, cross) := outLimit (lim (d.flag rOut 30) (Reg.LOOP_CASC_LO n)) (lim (d.flag rOut 29) (Reg.LOOP_CASC_HI n)) u2
  let satd := e0 || e1 || e2 || e3 || e4 || decide (x ≠ raw)
  let d := d.setCascStates n (antiWindup (d.fld (Reg.LOOP_CASC_SEC n) 31 16) (dir * g.sign) 0 (ss.zip ns))
  let d := d.onLoop fun l => { l with
    used := l.used.set [] n coefs
    clampMask := if clamped then l.clampMask ||| 2 ^ n else l.clampMask
    satMask := if satd then l.satMask ||| 2 ^ n else l.satMask }
  let d := d.setSig (d.fld rOut 8 0) (BitVec.ofInt 32 u)
  let d := if satd then d.event 6 2 n 0 0 else d
  if cross then d.event 6 4 n 0 0 else d

/-- One cascade of a stroke (R110): while free strokes run, one without ALWAYS has zero states and writes 0. The kind that
counts is that of the stroke in progress at the evaluation (log 64, DEDUCED). -/
def Dev.cascade (n : Nat) (d : Dev) : Dev :=
  let rIn := Reg.LOOP_CASC_IN n
  if !d.flag rIn 31 then d
  else if d.flag rIn 28 || d.ang.cur.angle then d.runCascade n
  else (d.setCascStates n ((upto 16).map fun _ => Biquad.reset)).setSig (d.fld (Reg.LOOP_CASC_OUT n) 8 0) 0

/-! ### Output and region (R121–R123, R140) -/

/-- The output stage (stage 6). -/
def Dev.stage6 (j : Job) (d : Dev) : Dev :=
  if !d.flag Reg.LOOP_CTRL 0 then d
  else
    let x := d.sigI (d.fld Reg.LOOP_OUT_SEL 8 0)
    let q := d.sigI (d.fld Reg.LOOP_OUT_SEL 24 16)
    let z := d.sigI 114
    let th := (j.g.thetaC + BitVec.ofNat 32 (d.cfg Reg.LOOP_OUT_ADV)).toNat
    let out (thirds : Nat) : W32 :=
      let (c, s) := cosSin th thirds
      sat32 (rshr (x * c - q * s + z * 2 ^ 30) 30)
    d.setSigs 116 [out 0, out 2, out 1]

/-- A column or row moved across breakpoints with hysteresis until no test holds (R123). The hysteresis, a multiple of
0.001 pu, is compared exactly: R123 forms no value of a target format (log 89, DESIGN CHOICE). -/
def moveAxis (bp : Nat → Int) (n : Nat) (h v : Int) : Nat → Nat → Nat
  | 0, c => c
  | fuel + 1, c =>
    if c < n ∧ bp c * 1000 + h ≤ v * 1000 then moveAxis bp n h v fuel (c + 1)
    else if 0 < c ∧ v * 1000 < bp (c - 1) * 1000 - h then moveAxis bp n h v fuel (c - 1)
    else c

/-- The region selector (stage 8). -/
def Dev.stage8 (d : Dev) : Dev :=
  let axis (sel hiN loN hyst : Nat) (bp : Nat → Nat) (at0 : Nat) : Nat :=
    let n := d.fld Reg.LOOP_REG_SEL hiN loN
    let v := d.sigI (d.fld Reg.LOOP_REG_SEL (sel + 8) sel)
    let h : Int := if d.loop.place then 0 else d.fld Reg.LOOP_REG_HYST (hyst + 7) hyst * 2 ^ 24
    moveAxis (fun c => signed 32 (d.cfg (bp c))) n h v 8 (if d.loop.place then 0 else min at0 n)
  let en := d.flag Reg.LOOP_CTRL 3
  let col := if en then axis 0 13 12 0 (fun c => Reg.LOOP_REG_XBP c) d.loop.col else 0
  let row := if en then axis 16 29 28 8 (fun c => Reg.LOOP_REG_YBP c) d.loop.row else 0
  let region := if en then 4 * row + col else 0
  let changed : Bool := decide (region ≠ d.loop.region)
  let d := d.onLoop fun l => { l with col := col, row := row, region := region, place := l.place && !en }
  if changed then d.event 6 3 0 0 0 else d

/-! ### One stroke (R108, R128, R129) -/

/-- t_SA and t_EP (R128). -/
def Dev.tSA (d : Dev) : Nat := d.fld Reg.ANG_TSA 15 0
def Dev.tEP (d : Dev) : Nat := if d.topo = 0 then 360 else 200 + 12 * d.maxLen

/-- The loop cost C from the values of registers (R137). -/
def loopCost (cfg : Nat → Nat) : Nat :=
  let casc := (upto 48).filter fun n => bitAt (cfg (Reg.LOOP_CASC_IN n)) 31
  let s := (casc.map fun n => bits (cfg (Reg.LOOP_CASC_SEC n)) 14 10 * (1 + b2n (bitAt (cfg (Reg.LOOP_CASC_IN n)) 30))).foldl
    (· + ·) 0
  let t := ((upto 8).filter fun k => bitAt (cfg (Reg.LOOP_COMP_CFG k)) 31).length
  24 + 4 + 2 * t + ceilDiv (5 * s) 8 + 3 * casc.length + 8 + 8 + 12 * b2n (bitAt (cfg Reg.SUP_CTRL) 0)

/-- Stages 2 to 8 of a stroke. -/
def Dev.stages (j : Job) (d : Dev) : Dev :=
  let pos := d.fld Reg.LOOP_CTRL 13 8
  let d := (d.onLoop fun l => { l with clampMask := 0, satMask := 0 }).stage2 j
  let d := (upto (min pos 48)).foldl (fun d n => d.cascade n) d
  let d := d.stage4 j
  let d := ((upto 48).drop pos).foldl (fun d n => d.cascade n) d
  ((d.stage6 j).stage7 j).stage8

/-- What modulation reads of a stroke: MOD_REF_0–MOD_REF_11 and the DC-link voltage SIG_71 (R108, R201). -/
def Dev.modRefs (d : Dev) : List W32 := (upto 12).map (fun k => d.sig (116 + k)) ++ [d.sig 71]

/-- The following-error monitors at the end of a stroke's evaluation (R161). -/
def Dev.followErrors (j : Job) (d : Dev) : Dev :=
  let run : Bool := j.g.angle && angleMode j.mode
  (upto 4).foldl (fun d m =>
    let r := Reg.SUP_FE_CFG m
    let err := d.sigI (d.fld r 8 0) - d.sigI (d.fld r 24 16)
    let above : Bool := run && d.flag r 31 && aboveMilli err (d.fld (Reg.SUP_FE_LIM m) 15 0)
    let was := bitAt d.sup.feExc m
    let d := d.onSup fun s => { s with
      feExc := if above == was then s.feExc else if above then s.feExc + 2 ^ m else s.feExc - 2 ^ m
      feStart := s.feStart.set 0 m (if above then (if was then s.feStart.get 0 m else j.sampleTick) else 0)
      feFired := if !above && bitAt s.feFired m then s.feFired - 2 ^ m else s.feFired }
    if above && !was then d.irq 33 else d) d

/-- What SUP_SNAP shows after a completed stroke: trip, ride-through and substitution counts, residuals, i_rec. -/
def Dev.supDone (d : Dev) : List Nat :=
  [d.sup.tripCount, d.sup.frtCnt, d.sup.subCnt] ++ (upto 3).map (fun x => unsigned 32 (d.phaseModel x).res) ++
  [match d.sup.ramp with
    | some r => unsigned 32 r.irec
    | none => 0]

/-- The end of a stroke's evaluation, completed or not: references, monitors, tail buffer, telemetry and
capture (R437, R514, R321), and in a direct topology the claim of a stroke whose compares are then complete (R366). -/
def Dev.endEvaluation (j : Job) (d : Dev) : Dev :=
  let d := d.followErrors j
  let d := if d.topo = 0 then d.claim j.g.sn else d
  let d := d.onSup fun s => { s with
    evalTick := j.sampleTick }
  ((d.sampleTail j.g.sn).telemetrySample j.g.sn).acqStroke j.sampleTick j.g.sn j.theta

/-- A TRIP_SOFT ramp is in progress (R164). -/
def Dev.rampRunning (d : Dev) : Bool := d.sup.soft.isSome && !d.sup.softEnd

/-- A stroke misses its deadline (R129, R130). -/
def Dev.missStroke (j : Job) (d : Dev) : Dev :=
  let d := (d.setJob { j with missed := true, refs := d.modRefs }).onSup fun s => { s with evalSn := j.g.sn }
  let d := ((d.onLoop fun l => { l with
    consec := l.consec + 1, misses := satInc l.misses, lastMiss := true }).event 6 0 0 0 0).irq 30
  let limit : Bool := decide (d.loop.consec = d.fld Reg.LOOP_CTRL 19 16)
  let d := if limit then d.event 6 1 0 0 0 else d
  let ramp := if d.rampRunning then d.sup.soft else none
  let d := match ramp with
    | some r => if limit ∨ r.cause = 13 then d.tripEval .hard 14 [] else d
    | none => if limit then d.resignOr 2 (fun d => d.tripEval .soft 13 []) else d
  d.endEvaluation j

/-- Every fitted channel holds a result of the sample instant or is failed, by sensing or as frozen (R129, R155, R156). -/
def Dev.inputsReady (d : Dev) : Bool := (upto 56).all fun e => !d.entryOn e || d.entryFailed e || (d.chan e).frozen || !d.entryDue e

/-- The evaluation of a stroke: stage 1, and stages 2 to 8 unless the stroke has been abandoned, an injected miss takes it,
or they cannot end by the deadline. -/
def Dev.evaluateJob (j : Job) (d : Dev) : Dev :=
  let (d, j) := d.takeSigns j
  let d := ((d.onSup fun s => { s with evalSn := j.g.sn }).stage1 j).afterStage1 j
  let j := { j with stage1 := true }
  if j.missed then d.setJob j
  else if 0 < d.loop.inject then (d.onLoop fun l => { l with inject := l.inject - 1 }).missStroke j
  else if j.sampleTick + d.tSA < d.now + loopCost d.cfg + d.tEP then d.setJob j
  else
    let d := (d.stages j).endEvaluation j
    let d := d.onLoop fun l => { l with
      consec := 0, lastMiss := false, doneSn := j.g.sn
      done := { misses := l.misses, clampMask := l.clampMask, satMask := l.satMask, sig := l.sig } }
    (d.onSup fun s => { s with done := d.supDone }).setJob { j with evaluated := true, refs := d.modRefs }

/-- LOOP_EVALUATION (R108, R129, R131): the stroke whose stage 1 is still to come, once its inputs are valid, under the
configuration of its sample instant (R133). Stage 1 of a stroke that has begun meanwhile comes first. -/
def Dev.loopEvaluation (d : Dev) : Dev :=
  match (d.ang.lateJobs ++ d.ang.jobs).find? (fun j => !j.stage1) with
  | none => d
  | some j =>
    if !d.inputsReady || decide (d.now < j.sampleTick + 200) then d
    else
      let d := d.onAng fun a => { a with lateJobs := a.lateJobs.filter fun x => decide (x.g.sn ≠ j.g.sn) }
      (d.twinLoad j.g.sn).under j.conf (Dev.evaluateJob j)

/-- LOOP_EVALUATION (R108). -/
def execLoopEvaluation (s : State) : Outcome State Fault Refusal := .next (s.run Dev.loopEvaluation)

/-- DEADLINE_MISS (R129): a stroke's deadline has passed and its stages 2 to 8 have not completed. -/
def Dev.deadlineMiss (d : Dev) : Dev :=
  match d.ang.jobs.find? (fun j => !j.evaluated && !j.missed) with
  | none => d
  | some j => d.under j.conf fun d => if j.sampleTick + d.tSA ≤ d.now + d.tEP then d.missStroke j else d

/-- DEADLINE_MISS (R129). -/
def execDeadlineMiss (s : State) : Outcome State Fault Refusal := .next (s.run Dev.deadlineMiss)

/-- INJECT_MISS (R131): one more stroke whose evaluation has not started will be abandoned. -/
def Dev.injectMiss (v : W32) (d : Dev) : Dev :=
  if v.getLsbD 0 then d.onLoop fun l => { l with inject := l.inject + 1 } else d

/-- INJECT_MISS (R131). -/
def execInjectMiss (v : W32) (s : State) : Outcome State Fault Refusal := .next (s.run (Dev.injectMiss v))

/-- FOLLOWING_ERROR_TRIP (R161): the run of monitor m has lasted longer than T_FE. -/
def Dev.followTrip (m : Nat) (d : Dev) : Dev :=
  if bitAt d.sup.feExc m && !bitAt d.sup.feFired m &&
      decide (d.fld (Reg.SUP_FE_LIM m) 31 16 * 40000 < d.sup.evalTick - d.sup.feStart.get 0 m) then
    ((d.onSup fun s => { s with feFired := s.feFired + 2 ^ m }).event 9 11 m 0 0).tripEval .soft 10 []
  else d

/-- FOLLOWING_ERROR_TRIP (R161). -/
def execFollowingErrorTrip (m : Fin 4) (s : State) : Outcome State Fault Refusal := .next (s.run (Dev.followTrip m.val))

/-! ### Registers -/

/-- LOOP_STATUS. -/
def Dev.loopStatus (d : Dev) : Nat :=
  pack [(d.regionNow, 16), (min d.loop.consec 15, 8), (b2n d.loop.lastMiss, 0)]

/-- LOOP_ADM_RESULT: the result of the last admission (R132, R139), shown at once. -/
def Dev.loopAdmResult (d : Dev) : Nat :=
  pack [(d.loop.admCheck, 24), (d.loop.admItem, 16), (d.loop.admCost % 65536, 0)]

/-- LOOP_SNAP (R9): after the last completed stroke; the cost is that of the active configuration. -/
def Dev.loopSnap (v : W32) (d : Dev) : Dev :=
  if v.getLsbD 0 then
    let l := d.loop.done
    d.snapAll [(Reg.LOOP_MISS_CNT_SNAP, l.misses), (Reg.LOOP_CLAMP_SNAP_L, l.clampMask % 2 ^ 32),
      (Reg.LOOP_CLAMP_SNAP_H, l.clampMask / 2 ^ 32), (Reg.LOOP_SAT_SNAP_L, l.satMask % 2 ^ 32),
      (Reg.LOOP_SAT_SNAP_H, l.satMask / 2 ^ 32),
      (Reg.LOOP_COST_SNAP, pack [((d.tSA - 200 - d.tEP) % 65536, 16), (loopCost d.cfg % 65536, 0)]),
      (Reg.LOOP_PEEK_SNAP, (l.sig.get 0 (d.fld Reg.LOOP_PEEK_SEL 8 0)).toNat)]
  else d

/-- LOOP_SNAP (R9). -/
def execLoopSnap (v : W32) (s : State) : Outcome State Fault Refusal := .next (s.run (Dev.loopSnap v))

/-- SUP_STATUS. -/
def Dev.supStatus (d : Dev) : Nat :=
  let s := d.sup
  pack [(s.feExc, 8), (b2n s.ramp.isSome, 4), (b2n d.substActive, 3), (b2n d.rampRunning, 2),
    (b2n (s.limitHold || decide (d.gfm.mode = .forming ∧ d.gfm.sub = .limit)), 1), (b2n s.limAct, 0)]

/-- SUP_SNAP (R9): after the same completed stroke. -/
def Dev.supSnap (v : W32) (d : Dev) : Dev :=
  if v.getLsbD 0 then
    let x (k : Nat) : Nat := d.sup.done.getD k 0
    d.snapAll [(Reg.SUP_TRIP_CNT_SNAP, x 0), (Reg.SUP_FRT_CNT_SNAP, x 1), (Reg.SUP_SUB_CNT_SNAP, x 2),
      (Reg.SUP_RES_SNAP 0, x 3), (Reg.SUP_RES_SNAP 1, x 4), (Reg.SUP_RES_SNAP 2, x 5), (Reg.SUP_IREC_SNAP, x 6)]
  else d

/-- SUP_SNAP (R9). -/
def execSupSnap (v : W32) (s : State) : Outcome State Fault Refusal := .next (s.run (Dev.supSnap v))

end Sys2Proof.Machine
end

