-- ==== Sys2Proof/Machine/DirectPwm.lean ====
section
/-! DEFINITION. Direct PWM (R198–R213, R219): periods, compares and pulse carry, dead time, host shadows and commits. -/

namespace Sys2Proof.Machine

open Host

/-- DT_RISE, DT_FALL, MIN_PULSE in fine ticks. -/
def Dev.dtRise (d : Dev) (p : Nat) : Nat := 64 * d.fld (Reg.PWM_DT p) 11 0
def Dev.dtFall (d : Dev) (p : Nat) : Nat := 64 * d.fld (Reg.PWM_DT p) 27 16
def Dev.minPulse (d : Dev) (p : Nat) : Nat := 64 * d.fld (Reg.PWM_MINP p) 11 0

/-- 4 × max(t_A, t_B) in fine ticks (R204). -/
def Dev.shortest (d : Dev) (p : Nat) : Nat := 4 * (max (d.dtRise p) (d.dtFall p) + d.minPulse p)

/-! ### Dead time (R203) -/

/-- X becomes active at fine tick `ft`: B falls, A rises DT_RISE later. -/
def Dev.xOn (p ft : Nat) (d : Dev) : Dev :=
  let dt := d.dtRise p
  let d := d.setPair p { d.pair p with x := true, rise := if dt = 0 then none else some (ft + dt, true) }
  d.setOut p (if dt = 0 then 1 else 0) 0

/-- X becomes inactive at fine tick `ft`: A falls, B rises DT_FALL later. -/
def Dev.xOff (p ft : Nat) (d : Dev) : Dev :=
  let dt := d.dtFall p
  let d := d.setPair p { d.pair p with x := false, rise := if dt = 0 then none else some (ft + dt, false) }
  d.setOut p 0 (if dt = 0 then 1 else 0)

/-- X takes a value; a change makes the outputs follow. -/
def Dev.setX (p : Nat) (v : Bool) (ft : Nat) (d : Dev) : Dev :=
  if (d.pair p).x = v then d else if v then d.xOn p ft else d.xOff p ft

/-! ### Duty and width (R201, R204, R205) -/

/-- A width that R199 gives explicitly, or a duty in Q7.24. -/
inductive Duty where
  | width (w : Nat) (beyond : Bool)
  | duty (x : Int)
deriving DecidableEq, Repr

/-- The duty of a LOOP pair (R201), and whether the DC-link voltage is too low. -/
def Dev.loopDuty (d : Dev) (p : Nat) : Int × Bool :=
  let levels := d.flag Reg.PWM_CFG 0
  let leg := if levels then p / 2 else p
  let r := (d.ang.refs.getD leg 0).toInt
  let v := if d.flag Reg.PWM_CFG 8 then signed 32 (d.cfg Reg.PWM_VDC_NOM) else (d.ang.refs.getD 12 0).toInt
  let one : Int := 2 ^ 24
  if v * 100 ≤ one then ((if levels then (if p % 2 = 0 then 0 else one) else one / 2), true)
  else if !levels then (clampI 0 one (one / 2 + rdiv (r * one) v), false)
  else
    let u := clampI (-one) one (rdiv (2 * r * one) v)
    ((if p % 2 = 0 then max u 0 else one + min u 0), false)

/-- The compare of a HOST pair for a period of `len` fine ticks (R199, R205). -/
def Dev.hostDuty (d : Dev) (p len : Nat) : Duty :=
  let c := (d.pair p).cmp
  if d.flag (Reg.PWM_PAIR p) 28 then
    if bitAt c 16 then .width len false
    else if c % 65536 = 0 then .width 0 false
    else .duty ((c % 65536 : Nat) * 2 ^ 8)
  else if c = 0 then .width 0 false
  else if c = len then .width len false
  else if len < c then .width len true
  else .duty (rdiv (c * 2 ^ 24 : Nat) len)

/-- The width of X and the new carry for a duty (R204), and whether a pulse was suppressed. -/
def pulseWidth (x0 c : Int) (len tA tB : Nat) : Nat × Int × Bool :=
  let x := clampI 0 (2 ^ 24) (x0 + c)
  let w := (rdiv (x * len) (2 ^ 24)).toNat
  if w = 0 ∨ w = len then (w, 0, false)
  else if w < tA then (0, x, true)
  else if len - w < tB then (len, x - 2 ^ 24, true)
  else (w, 0, false)

/-- The compare that a period of a LOOP pair takes instead of its own (R219, R369, R370): the mirrored one on a standby
and in a takeover gap, the last one on a resigned device. -/
def Dev.takenCompare (d : Dev) (p : Nat) : Option (Nat × Int) :=
  let x := d.pair p
  match d.twn.st with
  | .standby | .blind => x.mirror
  | .resigned => some (x.w, x.carry)
  | _ => if d.beforeTake d.ang.cur.sn then x.mirror else none

/-- The width of a pair in a period of `len` fine ticks, with its events and counters (R199, R201, R204, R219). -/
def Dev.computeWidth (p len : Nat) (d : Dev) : Dev :=
  let x := d.pair p
  let host := d.pairHost p
  let (lx, low) := d.loopDuty p
  let duty := if host then d.hostDuty p len else .duty lx
  let d := if !host && low then d.event 10 4 p 0 0 else d
  match duty with
  | .width w beyond =>
    let d := d.setPair p { x with w := w, carry := 0 }
    if beyond then (d.onPwm fun s => { s with beyondCnt := satInc s.beyondCnt }).event 10 0 p 0 0 else d
  | .duty v =>
    let (w, c, supp) := pulseWidth v x.carry len (d.dtRise p + d.minPulse p) (d.dtFall p + d.minPulse p)
    let d := if supp then d.onPwm fun s => { s with suppCnt := satInc s.suppCnt } else d
    let (w, c) := if host then (w, c) else (d.takenCompare p).getD (w, c)
    d.setPair p { x with w := w, carry := c }

/-! ### Periods (R200, R202, R206, R211) -/

/-- delay_j of a STROKE pair (R200). -/
def Dev.carrierDelay (d : Dev) (p : Nat) : Nat :=
  if d.ang.cur.angle then d.cfg (Reg.PWM_CAROFS p) * d.nS * d.ang.cur.len / 2 ^ 32 else 0

/-- The start of the next period of a pair, if it is fixed, and its length in ticks. -/
def Dev.nextPeriod (d : Dev) (p : Nat) : Option Nat :=
  let x := d.pair p
  if d.pairFree p then x.next
  else if x.sn = some d.ang.cur.sn then none else some (d.ang.cur.start + d.carrierDelay p)

/-- Loads accepted at least 16 ticks before a period start take effect there, the newest last (R206). -/
def Dev.takeLoads (p start : Nat) (d : Dev) : Dev :=
  let x := d.pair p
  let ready := x.loads.filter fun l => decide (l.1 + 16 ≤ start)
  match ready.getLast? with
  | none => d
  | some (_, per, c) =>
    d.setPair p { x with
      period := per, cmp := c, loads := x.loads.filter fun l => !decide (l.1 + 16 ≤ start) }

/-- A latch whose sources all have AUTO and are all inactive clears (R216). -/
def Dev.autoClear (p : Nat) (d : Dev) : Dev :=
  let x := d.pair p
  if x.latch ≠ 0 ∧ x.latch &&& d.pwm.qual = 0 ∧ d.allAuto x.latch = true then d.setPair p { x with latch := 0 } else d

/-- What PWM_SNAP shows, filled at a stroke or period boundary (R14). -/
def Dev.pwmShow (d : Dev) : Dev := d.onPwm fun s => { s with
  shown := { trip := s.tripSnap, supp := s.suppCnt, blank := s.blankCnt, beyond := s.beyondCnt } }

/-- PWM_PERIOD_START (R198): pair p begins a period. -/
def Dev.periodStart (p : Nat) (d : Dev) : Dev :=
  if !d.pairEn p then d
  else match d.nextPeriod p with
    | none => d
    | some start =>
      if d.now < start then d
      else
        let d := (d.takeLoads p start).autoClear p
        let x := d.pair p
        let ticks := if d.pairFree p then x.period else d.ang.cur.len
        let len := 64 * ticks
        let d := d.setPair p { x with
          start := start, len := len, sn := some d.ang.cur.sn, next := if d.pairFree p then some (start + ticks) else none }
        if d.pairHeld p then (if (d.pair p).safe then d else d.pairSafe p).pwmShow
        else
          let leaving := (d.pair p).safe
          let d := if leaving then d.setPair p { d.pair p with safe := false, carry := 0, x := false } else d
          let d := d.computeWidth p len
          let d := if leaving then d.xOff p (64 * start) else d
          let d := d.setX p (decide (0 < (d.pair p).w)) (64 * start)
          d.acqPatch false (fun s => decide (s.sn = d.ang.cur.sn)) 3 p (BitVec.ofNat 32 (d.pair p).w) |>.pwmShow

/-- PWM_PERIOD_START (R198). -/
def execPwmPeriodStart (p : Fin 12) (s : State) : Outcome State Fault Refusal := .next (s.run (Dev.periodStart p.val))

/-- COMPARE_MATCH (R198): the counter reaches CMP in this tick. -/
def Dev.compareMatch (p : Nat) (d : Dev) : Dev :=
  let x := d.pair p
  let ft := 64 * x.start + x.w
  if !x.safe && x.x && decide (x.w < x.len ∧ ft < 64 * (d.now + 1)) then d.xOff p ft else d

/-- COMPARE_MATCH (R198). -/
def execCompareMatch (p : Fin 12) (s : State) : Outcome State Fault Refusal := .next (s.run (Dev.compareMatch p.val))

/-- DEAD_TIME_EXPIRE (R203): the pending output rises in this tick. -/
def Dev.deadTimeExpire (p : Nat) (d : Dev) : Dev :=
  let x := d.pair p
  match x.rise with
  | none => d
  | some (ft, a) =>
    if 64 * (d.now + 1) ≤ ft then d
    else (d.setPair p { x with rise := none }).setOut p (if a then 1 else x.outA) (if a then x.outB else 1)

/-- DEAD_TIME_EXPIRE (R203). -/
def execDeadTimeExpire (p : Fin 12) (s : State) : Outcome State Fault Refusal :=
  .next (s.run (Dev.deadTimeExpire p.val))

/-! ### Commits (R206–R209, R213) -/

/-- The PERIOD that a commit would load is out of range (R208). -/
def Dev.periodRefused (d : Dev) (p per : Nat) : Bool :=
  d.pairFree p && decide (per < 400 ∨ 1048575 < per ∨ 64 * per < d.shortest p)

/-- A commit of one pair's shadow values (R206, R208, R213). A pair that is not enabled has no period start: it takes them at
once (log 93, DESIGN CHOICE). -/
def Dev.commitPair (d : Dev) (p : Nat) : Dev :=
  let per := d.cfg (Reg.PWM_PERIOD p)
  let c := d.cfg (Reg.PWM_CMPA p)
  let x := d.pair p
  if d.periodRefused p per then d.event 10 3 p 0 0
  else if d.pairFree p ∧ d.pairEn p = true ∧ x.period = 0 then
    d.setPair p { x with period := per, cmp := c, next := some d.now, loads := [] }
  else if !d.pairEn p then d.setPair p { x with period := per, cmp := c, loads := [] }
  else d.setPair p { x with loads := x.loads ++ [(d.now, per, c)] }

/-- PWM_COMMIT (R206). -/
def Dev.pwmCommit (v : W32) (d : Dev) : Dev :=
  ((upto 12).filter fun p => v.getLsbD p).foldl Dev.commitPair d

/-- PWM_COMMIT (R206). -/
def execPwmCommit (v : W32) (s : State) : Outcome State Fault Refusal := .next (s.run (Dev.pwmCommit v))

/-- An accepted configuration goes into force for the pairs (R200): a FREE pair that is now enabled starts its periods at
this tick if a PERIOD is loaded; a pair that is no longer one of that kind has none. A trip source that is not enabled is
ignored (R215). -/
def Dev.pwmApplied (old : Dev) (d : Dev) : Dev :=
  let d := d.onPwm fun s => { s with qual := s.qual &&& pack ((upto 16).map fun n => (b2n (d.srcEn n), n)) }
  (upto 12).foldl (fun d p =>
    let x := d.pair p
    let free (d : Dev) : Bool := d.pairEn p && d.pairFree p
    if free d && !free old then d.setPair p { x with next := if x.period = 0 then none else some d.now }
    else if !free d && free old then d.setPair p { x with next := none }
    else d) d

/-! ### TABLE_LOAD class 0x03 (R208, R209) -/

/-- The records of a buffer: pair, PERIOD, CMPA; none where the buffer is malformed (R209). -/
def pwmRecords : Nat → List Byte → Option (List (Nat × Nat × Nat))
  | 0, bs => if bs = [] then some [] else none
  | n + 1, bs =>
    if bs = [] then some []
    else if bs.length < 12 ∨ leAt bs 1 3 ≠ 0 ∨ 11 < leAt bs 0 1 then none
    else match pwmRecords n (bs.drop 12) with
      | none => none
      | some rest =>
        if rest.any fun r => decide (r.1 = leAt bs 0 1) then none
        else some ((leAt bs 0 1, leAt bs 4 4, leAt bs 8 4) :: rest)

/-- The load of class 0x03: the shadows are written, and with COMMIT every named pair is committed, or none where one
would be refused. -/
def Dev.loadPwm (commit : Bool) (recs : List (Nat × Nat × Nat)) (d : Dev) : Dev × Nat :=
  let refused := recs.filter fun r => commit && d.periodRefused r.1 r.2.1
  match refused with
  | r :: _ => (d.event 10 3 r.1 0 0, stBadParam)
  | [] =>
    let d := recs.foldl (fun d r =>
      (d.setForce (Reg.PWM_PERIOD r.1) (BitVec.ofNat 32 (r.2.1 % 2 ^ 20))).setForce (Reg.PWM_CMPA r.1)
        (BitVec.ofNat 32 (r.2.2 % 2 ^ 26))) d
    (if commit then (recs.map (·.1)).foldl Dev.commitPair d else d, stOk)

/-! ### Registers -/

/-- PWM_STATUS. -/
def Dev.pwmStatus (d : Dev) : Nat :=
  pack ((upto 12).flatMap fun p => [(b2n (decide ((d.pair p).latch ≠ 0)), 12 + p), (b2n (d.pair p).safe, p)])

/-- PWM_SNAP (R9, R14): what the last stroke or period boundary has filled. -/
def Dev.pwmSnap (v : W32) (d : Dev) : Dev :=
  if v.getLsbD 0 then
    let x := d.pwm.shown
    d.snapAll [(Reg.PWM_TRIP_SNAP, x.trip), (Reg.PWM_SUPP_CNT_SNAP, x.supp), (Reg.PWM_BLANK_CNT_SNAP, x.blank),
      (Reg.PWM_BEYOND_CNT_SNAP, x.beyond)]
  else d

/-- PWM_SNAP (R9). -/
def execPwmSnap (v : W32) (s : State) : Outcome State Fault Refusal := .next (s.run (Dev.pwmSnap v))

end Sys2Proof.Machine
end

