-- ==== Sys2Proof/Machine/Grid.lean ====
section
/-! DEFINITION. The stroke grid (R29–R50): the boundaries, the length of a stroke, and the stroke that follows another one
with or without a change of kind. -/

namespace Sys2Proof.Machine

/-- The boundary B_i without an offset (R34). -/
def boundary (ns i : Nat) : Nat := i * 2 ^ 32 / ns

/-- The ticks until an accumulator, advanced by `fw` a tick, reaches a boundary (R34): the first tick whose θ interval
contains it. -/
def ticksTo (acc : W64) (fw b : Nat) : Nat :=
  ceilDiv ((b * 2 ^ 32 + (2 ^ 64 - acc.toNat)) % 2 ^ 64) (max fw 1)

/-- A timebase commit has come into use with a stroke that is sampled (R50). -/
def Dev.tbUsed (d : Dev) : Bool := d.ang.jobs.any (·.tb)

/-- A timebase register, as accepted or as in force (R50). -/
def Dev.tbReg (d : Dev) (tb : Bool) (off : Nat) : Nat := if tb then d.activeReg off else d.cfg off

def Dev.tbNs (d : Dev) (tb : Bool) : Nat := bits (d.tbReg tb Reg.ANG_GRID) 12 0
def Dev.tbM (d : Dev) : Nat := bits (d.tbReg d.tbUsed Reg.ANG_GRID) 22 16
def Dev.tbFree (d : Dev) (tb : Bool) : Nat := bits (d.tbReg tb Reg.ANG_TFREE) 18 0
def Dev.tbTsa (d : Dev) : Nat := bits (d.tbReg d.tbUsed Reg.ANG_TSA) 15 0

/-- The mode of that stroke. -/
def Dev.lastMode (d : Dev) : Mode := match d.ang.jobs.getLast? with
  | some j => j.mode
  | none => d.gfm.mode

/-- MC_BASE as that stroke leaves it (R41, R50). -/
def Dev.lastBase (d : Dev) : W32 := match (d.ang.jobs.filter (·.rebase)).getLast? with
  | some j => j.g.sn
  | none => d.ang.mcBase

/-- Stroke `sn` begins a machine cycle (R41). -/
def Dev.mcAt (d : Dev) (sn : W32) : Bool := decide ((sn - d.lastBase).toNat % max d.tbM 1 = 0)

/-- OFFSET_ACT after the step at a start of index 0 (R47, R48). -/
def Dev.stepOffset (d : Dev) (old : W32) : W32 :=
  let target := BitVec.ofNat 32 (d.activeReg Reg.ANG_OFFSET)
  let step := d.activeReg Reg.ANG_OFFSET_STEP
  let x := (target - old).toInt
  old + BitVec.ofInt 32 (if x < 0 then -(min x.natAbs step : Nat) else (min x.natAbs step : Nat))

/-- The accumulator at the end of a stroke. -/
def gridEnd (g : Grid) : W64 := if g.angle then g.acc0 + BitVec.ofNat 64 (g.len * g.fw) else g.acc0

/-- The first angle stroke, after a free stroke (R38). -/
def Dev.angleFirst (d : Dev) (tb : Bool) (g : Grid) : Grid :=
  let ns := max (d.tbNs tb) 1
  let off := BitVec.ofNat 32 (d.activeReg Reg.ANG_OFFSET)
  let i := (BitVec.ofNat 32 (d.tbReg tb Reg.ANG_THETA_START) - off).toNat * ns / 2 ^ 32
  let b := BitVec.ofNat 32 (boundary ns i) + off
  let next := BitVec.ofNat 32 (boundary ns ((i + 1) % ns)) + off
  let acc : W64 := BitVec.ofNat 64 (b.toNat * 2 ^ 32)
  let fw := d.tbReg tb Reg.ANG_FW_L + 2 ^ 32 * bits (d.tbReg tb Reg.ANG_FW_H) 15 0
  { sn := g.sn + 1, start := g.start + g.len, len := ticksTo acc fw next.toNat, angle := true
    mcFirst := true, index := i, acc0 := acc, fw := fw, off := off
    thetaS := b, thetaC := b + BitVec.ofNat 32 (2 ^ 31 / ns), thetaA := g.thetaA }

/-- An angle stroke whose offset is that of the registers accepted last: the first one, which loads OFFSET at its start
(R38), and one of index 0, whose step fixes its end (R34, R47, R51). -/
def Dev.settle (d : Dev) (before g : Grid) : Grid :=
  if g.angle && !before.angle then { d.angleFirst d.tbUsed before with thetaA := g.thetaA }
  else if g.angle && decide (g.index = 0) then
    let ns := max (d.tbNs d.tbUsed) 1
    let off := d.stepOffset before.off
    { g with off := off, len := ticksTo g.acc0 g.fw (BitVec.ofNat 32 (boundary ns (1 % ns)) + off).toNat }
  else g

/-- The last one of the strokes whose samples are taken, after the stroke in progress: its load of OFFSET (R38) or its step
(R47) is open until the sample instant of the stroke that it moves (R42, R51). -/
def Dev.settleJobs (d : Dev) : Grid → List Job → List Job
  | _, [] => []
  | before, [j] => [{ j with g := d.settle before j.g }]
  | _, j :: k :: rest => j :: Dev.settleJobs d j.g (k :: rest)

/-- The strokes whose samples are taken, as they stand now. -/
def Dev.settledJobs (d : Dev) : List Job := d.settleJobs d.ang.cur d.ang.jobs

/-- The last stroke whose place is fixed: the last one sampled, or the one in progress. -/
def Dev.lastGrid (d : Dev) : Grid := match d.settledJobs.getLast? with
  | some j => j.g
  | none => d.ang.cur

/-- The free stroke after a stroke (R37). -/
def Dev.freeAfter (d : Dev) (tb : Bool) (g : Grid) : Grid :=
  { g with sn := g.sn + 1, start := g.start + g.len, len := d.tbFree tb, angle := false, mcFirst := d.mcAt (g.sn + 1),
           acc0 := (gridEnd g) }

/-- The angle stroke after an angle stroke; `tb` says whether a timebase commit is in use by then (R50), and `fw` is the
frequency word from its start on (R31, R34, R46, R47). -/
def Dev.angleAfter (d : Dev) (tb : Bool) (g : Grid) (fw : Nat) : Grid :=
  let ns := max (d.tbNs tb) 1
  let i := (g.index + 1) % ns
  let off := if i = 0 then d.stepOffset g.off else g.off
  let b := BitVec.ofNat 32 (boundary ns i) + g.off
  let next := BitVec.ofNat 32 (boundary ns ((i + 1) % ns)) + off
  { sn := g.sn + 1, start := g.start + g.len, len := ticksTo (gridEnd g) fw next.toNat, angle := true
    mcFirst := d.mcAt (g.sn + 1), index := i, acc0 := (gridEnd g), fw := fw, off := off
    thetaS := b, thetaC := b + BitVec.ofNat 32 (2 ^ 31 / ns), thetaA := g.thetaA }

/-- The stroke that follows a stroke of the same kind: the pending frequency word goes into force at a planned
machine-cycle boundary (R31). -/
def Dev.after (d : Dev) (g : Grid) : Grid :=
  if g.angle then d.angleAfter d.tbUsed g (if d.mcAt (g.sn + 1) then d.ang.pendFw.getD g.fw else g.fw)
  else d.freeAfter d.tbUsed g

/-! ### Sampled strokes placed anew (R31) -/

/-- The mode that a plan leads to. -/
def planned (old : Mode) : Option ModePlan → Mode
  | some p => p.req.target
  | none => old

/-- What waits for a machine-cycle boundary while sampled strokes are placed anew: MC_BASE, the mode, the FW that a
displaced stroke has given back (R31), and a timebase commit, with whether it is in use (R50). -/
structure Replan where
  base : W32
  mode : Mode
  /-- The end of a trip action alone changes the kind, so that planned changes of mode stand. -/
  keep : Bool
  fw : Option Nat
  tbWaits : Bool
  tbUsed : Bool
deriving DecidableEq, Repr

/-- The FW of a sampled stroke that is placed anew after a stroke with `old`, and what waits after it (R31): a stroke that
still begins a machine cycle keeps its own FW, another gives it back, and one that begins a cycle in its place takes what
waits (log 33, DEDUCED). -/
def refw (mc own : Bool) (fw old : Nat) (waits : Option Nat) : Nat × Option Nat :=
  match mc, own with
  | true, true => (fw, none)
  | true, false => (waits.getD old, none)
  | false, true => (old, some fw)
  | false, false => (old, waits)

/-- The stroke after `g` with the count of machine cycles from `x.base` (R31, R41, R50). -/
def Dev.replanOne (d : Dev) (x : Replan) (g : Grid) (j : Job) : Job × Replan :=
  let m := max (bits (d.tbReg x.tbUsed Reg.ANG_GRID) 22 16) 1
  let mc : Bool := decide ((g.sn + 1 - x.base).toNat % m = 0)
  let tb := mc && !g.angle && x.tbWaits
  let used := x.tbUsed || tb
  let f := refw mc (j.planned && j.g.angle) j.g.fw g.fw x.fw
  let next := if g.angle then d.angleAfter used g f.1 else d.freeAfter used g
  let off : Mach := { wFw := none, e := 0, phi := j.mach.phi }
  let plan := if x.keep && mc then j.plan else none
  let mode := planned x.mode plan
  let rebase := tb || plan.isSome
  ({ j with
      g := { next with thetaA := if g.angle then j.theta else g.thetaA, mcFirst := mc }, planned := mc, plan := plan, rebase := rebase, tb := tb
      mode := mode, mach := if angleMode mode then j.mach else off },
   { x with base := if rebase then g.sn + 1 else x.base, mode := mode, fw := if g.angle then f.2 else x.fw
            tbWaits := x.tbWaits && !tb, tbUsed := used })

/-- The strokes sampled beyond one that does not begin as planned are placed anew (R31), and what still waits then. -/
def Dev.replan (d : Dev) : Replan → Grid → List Job → List Job × Replan
  | x, _, [] => ([], x)
  | x, g, j :: rest =>
    let (j', x') := d.replanOne x g j
    let (js, y) := Dev.replan d x' j'.g rest
    (j' :: js, y)

/-! ### Depth (R43) -/

/-- A 48-bit frequency word in two registers of a configuration. -/
def fwOf (cfg : Nat → Nat) (lo hi : Nat) : Nat := cfg lo + 2 ^ 32 * bits (cfg hi) 15 0

/-- T_min of a configuration (R43). Without a ceiling no angle stroke is shorter than a free one. -/
def tMin (cfg : Nat → Nat) : Nat :=
  let free := bits (cfg Reg.ANG_TFREE) 18 0
  let fmax := fwOf cfg Reg.ANG_FWMAX_L Reg.ANG_FWMAX_H
  if fmax = 0 then free
  else min free ((2 ^ 32 / max (bits (cfg Reg.ANG_GRID) 12 0) 1 - cfg Reg.ANG_OFFSET_STEP) * 2 ^ 32 / fmax - 1)

/-- D of a configuration (R43). -/
def depthOf (cfg : Nat → Nat) : Nat := ceilDiv (bits (cfg Reg.ANG_TSA) 15 0) (max (tMin cfg) 1)

end Sys2Proof.Machine
end

