-- ==== Sys2Proof/Machine/Frames.lean ====
section
/-! DEFINITION. Penras frames as bytes (R232–R240): how a frame is built and how one that comes in is read. -/

namespace Sys2Proof.Machine

/-- A drill section's fields of the header (R233): flags, EPOCH, HO_SN, and the count word with the entries. -/
structure DrillSection where
  flags : Nat
  epoch : Nat
  hoSn : W32
  body : List Byte
deriving DecidableEq, Repr

/-- The flags of bytes 4–5. -/
structure FrameFlags where
  blockAll : Bool
  grant : Bool
  takeover : Bool
  handover : Bool
  noDrill : Bool
  msg : Bool
  free : Bool
deriving DecidableEq, Repr

/-- Bytes 4–5 (R233). -/
def FrameFlags.word (f : FrameFlags) : Nat :=
  pack [(b2n f.blockAll, 0), (b2n f.grant, 1), (b2n f.takeover, 2), (b2n f.handover, 3), (b2n f.noDrill, 4),
    (b2n f.msg, 5), (b2n f.free, 6)]

/-- A 40-bit entry (R186). -/
def entryWord (e : Edge) : Nat := pack [(e.sub % 64, 34), (e.state, 31), (e.time, 0)]

/-- The count word (R234); LATE_ALLOW is held to its 12 bits. -/
def countWord (count late : Nat) : Nat := pack [(min late 4095, 8), (count, 0)]

/-- ceil(0.8 × n): the ticks that n bytes take on the line (R225). -/
def lineTicks (n : Nat) : Nat := ceilDiv (4 * n) 5

/-- Bytes of a glean slot (R233). -/
def slotBytes (code : Nat) : Nat := 8 * (code + 1)

/-- A run of bytes 0xFF with the complement of its CRC-16 (R240). -/
def fillerBlock (n : Nat) : List Byte :=
  let bs := List.replicate (n - 2) (0xFF : Byte)
  bs ++ leBytes 2 (~~~ crc16 bs).toNat

/-- A message block (R235). -/
def messageBlock (m : Message) : List Byte :=
  leBytes 1 m.opc ++ leBytes 1 m.pos ++ leBytes 2 m.tag ++ slice m.params 0 12

/-- Bytes with their CRC-16 after them. -/
def withCrc16 (bs : List Byte) : List Byte := bs ++ leBytes 2 (crc16 bs).toNat

/-- The reply block that goes out with a message (R240, R259). -/
def replyStart (m : Message) : List Byte :=
  if m.opc = 1 then withCrc16 (leBytes 1 1 ++ leBytes 1 m.pos ++ leBytes 12 0) else fillerBlock 16

/-- A frame from the header to before EOF (R232). `hdr` holds the 36 header bytes. -/
def frameBytes (hdr body : List Byte) (m : Option Message) (len slot : Nat) : List Byte :=
  let msg := match m with
    | some x => messageBlock x
    | none => []
  let head := hdr ++ body ++ msg
  head ++ leBytes 4 (crc32 head).toNat ++ ((upto len).flatMap fun _ => fillerBlock (slotBytes slot)) ++
    (match m with
      | some x => replyStart x
      | none => [])

/-! ### Reading -/

/-- A frame that came in, by its fields (R232–R235). -/
structure Frame where
  string : Nat
  dir : Nat
  role : Nat
  phase : Nat
  len : Nat
  slot : Nat
  tHold : Nat
  flags : Nat
  epoch : Nat
  sn : W32
  start : Nat
  strokeLen : Nat
  hoSn : W32
  /-- TX_TIME in fine ticks, 54 bits. -/
  txTime : Nat
  count : Nat
  lateAllow : Nat
  /-- The count word and the entries, byte by byte, and the entries' 40-bit words. -/
  body : List Byte
  entries : List Nat
  msg : Option Message
  /-- The CRC-32 is correct. -/
  crcOk : Bool
  /-- The byte at which the slots begin. -/
  slotPos : Nat
  slots : List (List Byte)
  reply : List Byte
deriving DecidableEq, Repr

/-- The 40-bit entries of a drill section. -/
def readEntries : Nat → List Byte → List Nat
  | 0, _ => []
  | n + 1, bs => leAt bs 0 5 :: readEntries n (bs.drop 5)

/-- The glean slots, one after another. -/
def readSlots (size : Nat) : Nat → List Byte → List (List Byte)
  | 0, _ => []
  | n + 1, bs => slice bs 0 size :: readSlots size n (bs.drop size)

/-- A block that holds none of the places given. -/
def whole (holes : List Nat) (i n : Nat) : Bool := holes.all fun h => decide (h < i ∨ i + n ≤ h)

/-- A frame from its bytes, header to before EOF, where `holes` are the places of characters that carry no byte. A frame
that ends before its CRC-32 has none that is correct, and a block with a violated character fails its check (log 98). -/
def readFrame (bs : List Byte) (holes : List Nat) : Frame :=
  let b (i : Nat) : Nat := leAt bs i 1
  let flags := leAt bs 4 2
  let cw := leAt bs 36 4
  let count := bits cw 6 0
  let hasMsg := bitAt flags 5
  let bodyLen := 4 + 5 * count
  let crcPos := 36 + bodyLen + (if hasMsg then 16 else 0)
  let len := bits (b 1) 5 0 + 1
  let size := slotBytes (bits (b 2) 1 0)
  let mb := slice bs (36 + bodyLen) 16
  { string := bits (b 0) 7 4, dir := bits (b 0) 3 3, role := bits (b 0) 2 1, phase := bits (b 1) 7 6, len := len
    slot := bits (b 2) 1 0, tHold := b 3, flags := flags, epoch := leAt bs 6 2
    sn := BitVec.ofNat 32 (leAt bs 8 4), start := leAt bs 12 6, strokeLen := leAt bs 18 3
    hoSn := BitVec.ofNat 32 (leAt bs 24 4), txTime := leAt bs 28 8 % 2 ^ 54, count := count, lateAllow := bits cw 19 8
    body := slice bs 36 bodyLen, entries := readEntries count (bs.drop 40)
    msg := if hasMsg then
        some { opc := leAt mb 0 1, pos := leAt mb 1 1, tag := leAt mb 2 2, params := slice mb 4 12 } else none
    crcOk := whole holes 0 (crcPos + 4) &&
      decide (crcPos + 4 ≤ bs.length ∧ count ≤ 64 ∧ (crc32 (bs.take crcPos)).toNat = leAt bs crcPos 4)
    slotPos := crcPos + 4
    slots := ((upto len).zip (readSlots size len (bs.drop (crcPos + 4)))).map fun x =>
      if whole holes (crcPos + 4 + x.1 * size) size then x.2 else []
    reply := if whole holes (crcPos + 4 + len * size) 16 then slice bs (crcPos + 4 + len * size) 16 else [] }

/-- The frame that a line brings, with the places its characters have in it; none where it brings no frame (R231). -/
def frameOf (line : LineIn) : Option Frame :=
  (framePayload (decodeLine line.rd line.codes)).map fun cs =>
    readFrame (cs.map charByte) ((upto cs.length).filter fun i => match cs.getD i .bad with
      | .data _ => false
      | _ => true)

/-- A block of bytes whose last two are its CRC-16 (R236). -/
def crc16Ok (bs : List Byte) : Bool :=
  let n := bs.length - 2
  decide ((crc16 (bs.take n)).toNat = leAt bs n 2)

/-- A reply block by its fields (R235). -/
def readReply (bs : List Byte) : Reply :=
  { opc := leAt bs 0 1, pos := leAt bs 1 1, result := leAt bs 2 1, caps := leAt bs 3 1, data := slice bs 4 10 }

end Sys2Proof.Machine
end

