-- ==== Sys2Proof/Machine/Penras.lean ====
section
/-! DEFINITION. The Penras link, sending side (R226, R227, R233, R241, R242, R249, R257, R268, R271): which lanes carry frames,
when a frame is due, what it holds, and the messages. -/

namespace Sys2Proof.Machine

open Host

/-- What a lane sends between frames (R227, R230): nothing, which is electrical idle, while its string is disabled, in the
fallback (R343) and until READY (R526); LINK_DOWN on the own lane of a RESIGNED or FAULTED device, and on a lane that
carries frames while its receiver is not in character sync (DEDUCED, log 99); else IDLE. -/
def Dev.laneFill (d : Dev) (l : Nat) : Option OrderedSet :=
  if !d.strEn (l / 2) || d.lanesOff then none
  else
    let gone : Bool := decide ((d.twn.st = .resigned ∨ d.twn.st = .faulted) ∧ (l % 2 = 0 ↔ d.twn.primary = true))
    let deaf : Bool := decide (l % 2 ∈ d.myEnds) && !(d.lane l).sync
    some (if gone || deaf then .linkDown else .idle)

/-- The device takes its drill sections from the active device (R227). -/
def Dev.shadows (d : Dev) : Bool := decide (d.twn.st = .standby ∨ d.twn.st = .syncing)

/-! ### Messages (R268) -/

/-- A message may be sent in a phase (R268). -/
def msgInPhase (m : Message) (phase : Nat) : Bool := match m.opc with
  | 1 => decide (phase = 0)
  | 3 => decide (phase = 2 ∨ phase = 3)
  | 4 => decide (phase = 3)
  | _ => true

/-- The message in progress: the first that the phase allows. -/
def Dev.message (d : Dev) (n : Nat) : Option Message :=
  (d.str n).messages.find? fun m => msgInPhase m (d.str n).phase

/-- A message is issued. -/
def Dev.issue (n opc pos : Nat) (params : List Byte) (d : Dev) : Dev :=
  let tag := (d.pen.tag + 1) % 2 ^ 16
  let d := d.onPen fun p => { p with tag := tag }
  let x := d.str n
  d.setStr n { x with messages := x.messages ++ [{ opc := opc, pos := pos, tag := tag, params := params }] }

/-- The message in progress is done with. -/
def Dev.endMessage (n : Nat) (d : Dev) : Dev := match d.message n with
  | none => d
  | some m => d.setStr n { d.str n with messages := (d.str n).messages.erase m }

/-! ### Launching -/

/-- The stroke whose frame a lane sends next: the first it has not sent yet, with its job where it is sampled. -/
def Dev.nextFrame (d : Dev) (l : Nat) : Option (Grid × Option Job) :=
  let fresh (g : Grid) : Bool := match (d.lane l).lastSn with
    | none => true
    | some s => afterSn g.sn s
  match d.ang.jobs.find? (fun j => fresh j.g) with
  | some j => some (j.g, some j)
  | none =>
    let g := d.after d.lastGrid
    if fresh g then some (g, none) else none

/-- The active device's drill section of a string and stroke, where it is held (R363) and still forwarded (R371). -/
def Dev.heldDrill (d : Dev) (n : Nat) (sn : W32) : Option DrillPkt :=
  if d.twn.takeDue then none else ((d.twn.drills.get [] n).map (·.1)).find? fun p => decide (p.sn = sn)

/-- The frame of a stroke is due on a lane of string n (R241): the furrow is complete, or outside RUN and in free strokes
4,000 ticks remain or the stroke is shorter; a standby waits for the drill section until the last tick at which the furrow could be complete
(DEDUCED: 120 ticks and D_BUDGET before the start, R188). -/
def Dev.frameDue (d : Dev) (n : Nat) (g : Grid) (j : Option Job) : Bool :=
  let own : Bool := if (d.str n).phase = 3 ∧ g.angle = true then (match j with
      | some x => x.built
      | none => false)
    else decide (g.start ≤ d.now + 4000 ∨ g.len < 4000)
  own && (!d.shadows || (d.heldDrill n g.sn).isSome || decide (g.start ≤ d.now + 120 + 12 * d.strLen n))

/-- The furrow that a string's frame carries: none while switching is not permitted (R189, R249). -/
def Dev.frameEdges (d : Dev) (n : Nat) (j : Option Job) : Option (List Edge) := match j with
  | none => none
  | some x =>
    if (d.str n).phase = 3 ∧ x.built ∧ x.furrows ≠ [] ∧ d.switchingFor x then some (x.furrows.getD n []) else none

/-- The drill section of the device's own furrows (R233, R234, R242, R371); GRANT goes with an epoch that has been issued
(R252, R253). -/
def Dev.ownDrill (d : Dev) (n : Nat) (g : Grid) (j : Option Job) (msg : Bool) : DrillSection :=
  let x := d.str n
  let run : Bool := decide (x.phase = 3)
  let wait := d.beforeTake g.sn || decide (d.twn.st = .blind)
  let edges := if wait then none else d.frameEdges n j
  let es := edges.getD []
  let bd := 4 + 5 * es.length + (if msg then 16 else 0) + 4
  let late := (d.now + lineTicks (40 + bd) + 10 + 12 * d.strLen n) - g.start
  let epoch := if d.twn.st = .blind then x.epoch else x.nextEpoch.getD x.epoch
  let f : FrameFlags := {
    blockAll := (d.frameEdges n j).isNone, grant := run && !d.beforeTake g.sn && decide (epoch ≠ 0)
    takeover := run && x.takeover && !d.beforeTake g.sn, handover := d.twn.st = .active && d.twn.hoSn.isSome
    noDrill := wait, msg := msg, free := !g.angle }
  { flags := f.word, epoch := sentEpoch n epoch
    hoSn := if f.handover then d.twn.hoSn.getD 0 else 0
    body := leBytes 4 (countWord es.length late) ++ es.flatMap fun e => leBytes 5 (entryWord e) }

/-- What a standby sends (R227, R363): the active device's drill section without messages, or NO_DRILL. Outside RUN and
with NO_DRILL it commands nothing (R234); while its own MOD emits empty furrows, BLOCK_ALL is set (R249); GRANT goes with the
holder's epoch, once there is one (R252, R253). -/
def Dev.copyDrill (d : Dev) (n : Nat) (g : Grid) (j : Option Job) (msg : Bool) : DrillSection :=
  let x := d.str n
  match d.heldDrill n g.sn with
  | some p => { flags := p.flags - p.flags / 32 % 2 * 32 + (if msg then 32 else 0), epoch := p.epoch, hoSn := p.hoSn
                body := if x.phase = 3 ∧ bitAt p.flags 4 = false then p.body else leBytes 4 0 }
  | none =>
    let f : FrameFlags := { blockAll := (d.frameEdges n j).isNone, grant := decide (x.phase = 3 ∧ x.epoch ≠ 0)
                            takeover := false, handover := false, noDrill := true, msg := msg, free := !g.angle }
    { flags := f.word, epoch := sentEpoch n x.epoch, hoSn := 0, body := leBytes 4 0 }

/-- The header of a frame (R233). T_HOLD is the one accepted last (R271). -/
def Dev.frameHeader (d : Dev) (n e : Nat) (g : Grid) (s : DrillSection) : List Byte :=
  let role := match d.twn.st with
    | .solo => 0
    | .active => 1
    | _ => 2
  leBytes 1 (16 * n + 8 * e + 2 * role) ++ leBytes 1 (64 * (d.str n).phase + (d.strLen n - 1)) ++
    leBytes 1 (d.fld (Reg.PEN_STR n) 1 0) ++ leBytes 1 (bits (d.activeReg Reg.PEN_CFG) 7 0) ++ leBytes 2 s.flags ++
    leBytes 2 s.epoch ++ leBytes 4 g.sn.toNat ++ leBytes 6 (g.start + d.ang.tickBase).toNat ++ leBytes 3 g.len ++ leBytes 3 0 ++
    leBytes 4 s.hoSn.toNat ++ leBytes 8 (d.tickCount % 2 ^ 48 * 64)

/-- The message that a frame of stroke `sn` from end e carries: a standby sends none in RUN (R363), COUNT goes out from lane
2s alone (R259), a stroke carries one message, and after its first stroke and four repeats a message is sent no more
(R268). -/
def Dev.frameMsg (d : Dev) (n e : Nat) (sn : W32) : Option Message :=
  let x := d.str n
  if d.shadows && decide (x.phase = 3) then none
  else (d.message n).filter fun m =>
    decide (m.opc ≠ 1 ∨ e = 0) && (decide (m.sent < 5) || decide (m.sentSn = some sn)) &&
      x.lastMsg.all fun v => decide (v.1 ≠ sn ∨ v.2 = m.tag)

/-- A message is counted as sent once a stroke (R268). -/
def Dev.countMsg (n : Nat) (sn : W32) (m : Message) (d : Dev) : Dev :=
  let x := d.str n
  if m.sentSn = some sn then d
  else d.setStr n { x with
    lastMsg := some (sn, m.tag)
    messages := x.messages.map fun y => if y = m then { y with sent := y.sent + 1, sentSn := some sn } else y }

/-- A frame leaves on a lane. -/
def Dev.sendFrame (n e : Nat) (g : Grid) (j : Option Job) (d : Dev) : Dev :=
  let m := d.frameMsg n e g.sn
  let s := if d.shadows then d.copyDrill n g j m.isSome else d.ownDrill n g j m.isSome
  let bs := frameBytes (d.frameHeader n e g s) s.body m (d.strLen n) (d.fld (Reg.PEN_STR n) 1 0)
  let l := 2 * n + e
  let x := d.lane l
  let d := d.setLane l { x with freeAt := d.now + lineTicks (bs.length + 8), lastSn := some g.sn, frame := bs
                                rd := lineDisparity x.rd (frameChars bs) }
  let d := d.onPen fun p => { p with txCnt := satInc p.txCnt }
  let x := d.str n
  let d := d.setStr n { x with fedFrom := some (x.fedFrom.getD g.sn), block := x.block && (bitAt s.flags 0 || bitAt s.flags 4) }
  let d := match m with
    | some v => d.countMsg n g.sn v
    | none => d
  if d.twn.st = .active then
    (d.send (.drill { string := n, sn := g.sn, flags := s.flags, epoch := s.epoch, hoSn := s.hoSn, body := s.body })).claim
      g.sn
  else d

/-- FRAME_LAUNCH (R241): string n, lane 2n + e. None leaves while the lanes carry electrical idle (R343, R526). -/
def Dev.frameLaunch (n e : Nat) (d : Dev) : Dev :=
  let l := 2 * n + e
  if !d.strEn n ∨ e ∉ d.myEnds ∨ d.lanesOff ∨ d.now < (d.lane l).freeAt then d
  else match d.nextFrame l with
    | none => d
    | some (g, j) => if d.frameDue n g j then d.sendFrame n e g j else d

/-- FRAME_LAUNCH (R241). -/
def execFrameLaunch (n : Fin 12) (e : Fin 2) (s : State) : Outcome State Fault Refusal :=
  .next (s.run (Dev.frameLaunch n.val e.val))

/-- MSG_TIMEOUT (R268): sent and repeated four times without a reply. -/
def Dev.msgTimeout (n : Nat) (d : Dev) : Dev := match d.message n with
  | none => d
  | some m => if m.sent < 5 then d
    else (d.endMessage n).event 11 6 n (if m.pos = 0xFF then 0xFFFFFFFF else m.pos) 0

/-! ### Registers -/

/-- PEN_STR_STATUS_n. -/
def Dev.penStrStatus (d : Dev) (n : Nat) : Nat :=
  let x := d.str n
  let res := match x.result with
    | .ok => 0 | .noSignal => 1 | .countMismatch => 2 | .idMismatch => 3 | .slotUnsupported => 4 | .delayFail => 5
    | .syncFail => 6 | .broken => 7 | .leaseFail => 8 | .notTrained => 9
  pack [(x.epoch, 16), (b2n x.leaseOk, 15), (b2n x.brk2, 14), (b2n x.brk, 13), (x.breakPos, 6), (res, 2), (x.phase, 0)]

/-- PEN_LINK. -/
def Dev.penLink (d : Dev) : Nat := pack ((upto 24).map fun l => (b2n (d.lane l).sync, l))

/-- PEN_SNAP (R9). -/
def Dev.penSnap (v : W32) (d : Dev) : Dev :=
  if v.getLsbD 0 then
    let d := d.snapAll [(Reg.PEN_TX_CNT_SNAP, d.pen.txCnt), (Reg.PEN_HDR_ERR_CNT_SNAP, d.pen.hdrErrCnt),
      (Reg.PEN_GLEAN_ERR_CNT_SNAP, d.pen.gleanErrCnt), (Reg.PEN_URGENT_CNT_SNAP, d.pen.urgentCnt)]
    (upto 24).foldl (fun d r => d.snap (Reg.PEN_LATECAP_SNAP r) (submBits r (((upto 32).map (32 * r + ·)).filter fun k => (d.subm k).lateCap))) d
  else d

/-- PEN_SNAP (R9). -/
def execPenSnap (v : W32) (s : State) : Outcome State Fault Refusal := .next (s.run (Dev.penSnap v))

/-! ### Lanes (R264) -/

/-- A lane that this device uses. -/
def Dev.laneUsed (d : Dev) (l : Nat) : Bool := d.strEn (l / 2) && decide (l % 2 ∈ d.myEnds)

/-- LANE_SYNC_REGAINED (R264). -/
def Dev.laneBack (l : Nat) (d : Dev) : Dev := d.setLane l { d.lane l with sync := true }

/-- LANE_SYNC_REGAINED (R264). -/
def execLaneSyncRegained (l : Fin 24) (s : State) : Outcome State Fault Refusal := .next (s.run (Dev.laneBack l.val))

end Sys2Proof.Machine
end

