-- ==== Sys2Proof/Machine/Training.lean ====
section
/-! DEFINITION. String bring-up (R253, R258–R262, R268, R377): DISCOVER, MEASURE, SYNC and RUN, and STRING_TRAIN. -/

namespace Sys2Proof.Machine

open Host

/-- IDENTIFY replies by end. -/
def identOf (x : PenString) (e p : Nat) : Option Ident := (if e = 0 then x.id0 else x.id1).get none p

/-- Delay sums by end. -/
def sumOf (x : PenString) (e p : Nat) : Option Int := (if e = 0 then x.sum0 else x.sum1).get none p

/-- e0 (R253): the reported epoch that lies after every other one, plus 1. Where none lies after every other, the last of
the comparisons decides (DESIGN CHOICE). -/
def firstEpoch (es : List Nat) : Nat := match es.filter (· ≠ 0) with
  | [] => 1
  | e :: rest => nextEpochOf (rest.foldl (fun a b => if afterMod 16 b a then b else a) e)

/-- A TRAIN packet for the partner's end (R377). -/
def Dev.sendTrain (n : Nat) (replies : List Reply) (sums : List (Nat × Int)) (fail : Option TrainResult) (d : Dev) : Dev :=
  if d.twn.st = .solo then d
  else d.send (.train { string := n, phase := (d.str n).phase, replies := replies, sums := sums, fail := fail })

/-- The messages that do not belong to training: BYPASS_CLOSE and CLEAR_FAULT (R268). -/
def otherMessages (ms : List Message) : List Message := ms.filter fun m => decide (4 ≤ m.opc)

/-- A string fails training with a result (R259–R262); its messages are dropped. -/
def Dev.trainEnd (n : Nat) (r : TrainResult) (d : Dev) : Dev :=
  let x := d.str n
  d.setStr n { x with training := false, result := r, messages := otherMessages x.messages, req0 := none, req1 := none }

/-- A string fails training with a result, which the partner's end is told (R377). -/
def Dev.trainFail (n : Nat) (r : TrainResult) (d : Dev) : Dev := (d.trainEnd n r).sendTrain n [] [] (some r)

/-- The next echo exchange of an end (R260): position by position in ascending order, 16 with each (DESIGN CHOICE, log 100).
ECHO_REQ leaves between frames and names the port at which it arrives, L from lane 2s and R from lane 2s+1. -/
def Dev.echoAsk (n : Nat) (d : Dev) (e : Nat) : Dev :=
  let x := d.str n
  let tick := max d.now (d.lane (2 * n + e)).freeAt
  let req := ((upto (d.strLen n)).find? fun p => (sumOf x e p).isNone).map fun p => ({ pos := p, tick := tick } : EchoReq)
  let d := d.setStr n (if e = 0 then { x with req0 := req } else { x with req1 := req })
  match req with
  | some q => d.insertSets (2 * n + e) q.tick (setChars (.echoReq q.pos e))
  | none => d

/-- A training phase begins at this device's ends; MEASURE with the first echo exchanges. -/
def Dev.phaseBegins (n phase : Nat) (d : Dev) : Dev :=
  let x := d.str n
  let d := d.setStr n { x with
    phase := phase, phaseTick := d.now, req0 := none, req1 := none, syncRun := 0, syncErr := false }
  if phase = 1 then d.myEnds.foldl (Dev.echoAsk n) d else d

/-- A training phase begins, and the partner's end is told (R377). -/
def Dev.trainPhase (n phase : Nat) (d : Dev) : Dev := (d.phaseBegins n phase).sendTrain n [] [] none

/-- Every position's check in DISCOVER (R259), once the count and both ends' replies are there. -/
def Dev.discoverResult (d : Dev) (n : Nat) : Option TrainResult :=
  let x := d.str n
  let ps := upto (d.strLen n)
  let all (e : Nat) : Bool := ps.all fun p => (identOf x e p).isSome
  match x.count with
  | none => none
  | some c =>
    if c ≠ d.strLen n then some .countMismatch
    else if !(all 0 && all 1) then none
    else if ps.any fun p => (identOf x 0 p).map (·.id) ≠ (identOf x 1 p).map (·.id) then some .idMismatch
    else
      let code := d.fld (Reg.PEN_STR n) 1 0
      let lacks (i : Option Ident) : Bool := match i with
        | some y => decide (code ≠ 0) && !bitAt y.caps (code - 1)
        | none => true
      if ps.any fun p => lacks (identOf x 0 p) then some .slotUnsupported else some .ok

/-- Both delays of every position are known, or one pair lies outside the budget (R229, R260). -/
def Dev.measureResult (d : Dev) (n : Nat) : Option TrainResult :=
  let x := d.str n
  let ps := upto (d.strLen n)
  let limit : Int := 12 * d.strLen n * 64 * 32
  if !(ps.all fun p => (sumOf x 0 p).isSome && (sumOf x 1 p).isSome) then none
  else if ps.any fun p => decide (limit < min ((sumOf x 0 p).getD 0) ((sumOf x 1 p).getD 0)) then some .delayFail
  else some .ok

/-- SYNC_SET of a position (R261): both delays in fine ticks, and the nearer end as its timing port. -/
def Dev.syncSet (n : Nat) (d : Dev) (p : Nat) : Dev :=
  let x := d.str n
  let a := (sumOf x 0 p).getD 0
  let b := (sumOf x 1 p).getD 0
  d.issue n 3 p (leBytes 4 (unsigned 32 (rdiv a 32)) ++ leBytes 4 (unsigned 32 (rdiv b 32)) ++
    leBytes 1 (if a ≤ b then 0 else 1))

/-- The epochs that a string's positions report. -/
def Dev.reportedEpochs (d : Dev) (n : Nat) : List Nat :=
  (upto (d.strLen n)).map fun p => ((identOf (d.str n) 0 p).map (·.epoch)).getD 0

/-- RUN is entered (R253): e0 is issued with GRANT and TAKEOVER. -/
def Dev.enterRun (n : Nat) (d : Dev) : Dev :=
  let e0 := firstEpoch (d.reportedEpochs n)
  let d := d.trainPhase n 3
  let x := d.str n
  let d := (d.strSubs n).foldl (fun d k => d.setSubm k { d.subm k with lease := false, seen := false, gap := 0 }) d
  d.setStr n { x with epoch := e0, nextEpoch := none, takeover := true, leaseOk := false }

/-- Training goes on as far as what has come in allows. In a twin pair the device that trains directs the phases, and its
partner follows its TRAIN packets (R377). -/
def Dev.trainStep (n : Nat) (d : Dev) : Dev :=
  let x := d.str n
  if !x.training || d.shadows then d
  else match x.phase with
    | 0 => match d.discoverResult n with
      | none => d
      | some .ok => d.trainPhase n 1
      | some r => d.trainFail n r
    | 1 => match d.measureResult n with
      | none => d
      | some .ok => (upto (d.strLen n)).foldl (Dev.syncSet n) (d.trainPhase n 2)
      | some r => d.trainFail n r
    | 2 => if 64 ≤ x.syncRun ∧ x.messages.all (fun m => decide (m.opc ≠ 3)) then d.enterRun n else d
    | _ => d

/-! ### Replies of training messages -/

/-- A reply to COUNT, IDENTIFY or SYNC_SET to the messages sent from end e (R259, R261, R268). -/
def Dev.trainReply (n e : Nat) (r : Reply) (d : Dev) : Dev :=
  let x := d.str n
  match r.opc with
  | 1 => if e = 0 then d.setStr n { x with count := some (leAt r.data 0 1) } else d
  | 2 =>
    let i : Ident := { id := leAt r.data 0 8, epoch := leAt r.data 8 2, caps := r.caps }
    d.setStr n (if e = 0 then { x with id0 := x.id0.set none r.pos (some i) }
      else { x with id1 := x.id1.set none r.pos (some i) })
  | _ => d

/-- The message in progress has had its reply: COUNT once the count is back, IDENTIFY once every end that asked has its
answer, the others at a CRC-valid reply of the same OPC and POS. -/
def Dev.answered (d : Dev) (n : Nat) (m : Message) (r : Reply) : Bool :=
  decide (m.opc = r.opc ∧ m.pos = r.pos) && (match m.opc with
    | 1 => (d.str n).count.isSome
    | 2 => d.myEnds.all fun e => (identOf (d.str n) e m.pos).isSome
    | _ => true)

/-! ### STRING_TRAIN -/

/-- A string starts training: everything earlier training found is forgotten. -/
def Dev.startTraining (n : Nat) (d : Dev) : Dev :=
  let x : PenString := { d.str n with
    training := true, result := .notTrained, leaseOk := false, id0 := .empty, id1 := .empty, count := none, echo0 := .empty
    echo1 := .empty, sum0 := .empty, sum1 := .empty, messages := otherMessages (d.str n).messages
    nextEpoch := none, takeover := false }
  let d := (d.setStr n x).trainPhase n 0
  let d := if 0 ∈ d.myEnds then d.issue n 1 0xFF [] else d
  let d := (upto (d.strLen n)).foldl (fun d p => d.issue n 2 p []) d
  if d.myEnds.isEmpty || d.myEnds.any (fun e => !(d.lane (2 * n + e)).sync) then d.trainFail n .noSignal else d

/-- LANE_SYNC_LOSS (R264): the lane's port is down. A string that trains fails with NO_SIGNAL (R259). -/
def Dev.laneLoss (l : Nat) (d : Dev) : Dev :=
  let x := d.lane l
  if !x.sync then d
  else
    let d := d.setLane l { x with sync := false }
    if d.laneUsed l then
      let d := d.event 11 7 (l / 2) 0xFFFFFFFF 0
      if (d.str (l / 2)).training then d.trainFail (l / 2) .noSignal else d
    else d

/-- LANE_SYNC_LOSS (R264). -/
def execLaneSyncLoss (l : Fin 24) (s : State) : Outcome State Fault Refusal := .next (s.run (Dev.laneLoss l.val))

/-- The partner can take part in training (R377). -/
def Dev.partnerTrains (d : Dev) : Bool :=
  d.twn.linkUp && (match d.twn.partner with
    | some p => decide (p.st = 1 ∨ p.st = 3)
    | none => false)

/-- The strings of a mask. -/
def maskStrings (mask : Nat) : List Nat := (upto 12).filter (bitAt mask)

/-- STRING_TRAIN's own checks and effect (R258, R377). A string that already trains begins anew (DESIGN CHOICE, log 61). -/
def Dev.stringTrain (c : Cmd) (d : Dev) : Dev :=
  let ns := maskStrings (c.half 20)
  if ns.any (fun n => !d.strEn n) ∨ c.len.toNat ≠ 1024 * ns.length then d.complete c 0x41 stBadParam
  else if d.gfm.mode ≠ .off ∨ d.twn.st = .standby ∨ (d.twn.st ≠ .solo ∧ d.partnerTrains = false) then
    d.complete c 0x41 stRejected
  else
    let op : TrainOp := { mask := c.half 20, ring := c.ring.val, slot := c.slot.toNat, tag := c.tag.toNat
                          addr := c.addr.toNat, start := d.now }
    ns.foldl (fun d n => d.startTraining n) (d.onPen fun p => { p with train := p.train ++ [op] })

/-- STRING_TRAIN (R258). -/
def execStringTrain (c : Cmd) (s : State) : Outcome State Fault Refusal :=
  s.runCmd 0x41 (inlMask [(20, 0xFF), (21, 0x0F)]) c (Dev.stringTrain c)

/-- The 16 bytes of a position (R258); delays in 1/16 tick. -/
def trainBytes (x : PenString) (p : Nat) : List Byte :=
  let i := (identOf x 0 p).getD ((identOf x 1 p).getD { id := 0, epoch := 0, caps := 0 })
  let dly (e : Nat) : List Byte := leBytes 2 (unsigned 16 (rdiv ((sumOf x e p).getD 0) 128))
  leBytes 8 i.id ++ leBytes 2 i.epoch ++ leBytes 1 i.caps ++ leBytes 1 0 ++ dly 0 ++ dly 1

/-- The 1,024 bytes of a string. -/
def Dev.trainBlock (d : Dev) (n : Nat) : List Byte :=
  slice ((upto (d.strLen n)).flatMap (trainBytes (d.str n))) 0 1024

/-- What a string that is still training after 100 ms fails with. -/
def Dev.overdue (d : Dev) (n : Nat) : TrainResult := match (d.str n).phase with
  | 0 => if (d.str n).count.isNone then .countMismatch else .idMismatch
  | 1 => .delayFail
  | 2 => .syncFail
  | _ => .leaseFail

/-- Every string that a STRING_TRAIN names has reached RUN or failed, or 100 ms have passed (R258). -/
def Dev.trainOver (d : Dev) (op : TrainOp) : Bool :=
  (maskStrings op.mask).all (fun n => !(d.str n).training) || decide (op.start + 100 * msTicks ≤ d.now)

/-- A STRING_TRAIN completes (R258): a string that has neither reached RUN nor failed within 100 ms fails. One event
descriptor names each string (R273). -/
def Dev.trainFinish (op : TrainOp) (d : Dev) : Dev :=
  let ns := maskStrings op.mask
  let d := ns.foldl (fun d n => if (d.str n).training then d.trainFail n (d.overdue n) else d) d
  let ok := ns.all fun n => decide ((d.str n).result = .ok)
  let d := ns.foldl (fun d n => d.event 11 0 n 0xFFFFFFFF 0) (d.onPen fun p => { p with train := p.train.erase op })
  (d.post op.addr (ns.flatMap d.trainBlock)).completeAs op.ring op.slot op.tag 0x41
    (if ok then stOk else stPartial) (1024 * ns.length) []

/-- TRAIN_DONE (R258). -/
def Dev.trainDone (d : Dev) : Dev := (d.pen.train.filter d.trainOver).foldl (fun d op => d.trainFinish op) d

/-- TRAIN_DONE (R258). -/
def execTrainDone (s : State) : Outcome State Fault Refusal := .next (s.run Dev.trainDone)

/-! ### Echo exchanges (R260) -/

/-- The exchange under way at an end. -/
def echoReqOf (x : PenString) (e : Nat) : Option EchoReq := if e = 0 then x.req0 else x.req1

/-- An echo exchange with position p from end e is under way. -/
def Dev.echoing (d : Dev) (n e p : Nat) : Bool :=
  let x := d.str n
  x.training && decide (x.phase = 1 ∧ e ∈ d.myEnds) && (echoReqOf x e).any fun q => decide (q.pos = p)

/-- The exchanges of a position are complete: their sum, unless they spread by more than 1 ns (25.6 fine ticks). -/
def echoSum (vs : List Int) : Option Int :=
  let mx := vs.foldl max (vs.headD 0)
  let mn := vs.foldl min (vs.headD 0)
  if 256 < (mx - mn) * 5 then none else some (vs.foldl (· + ·) 0)

/-- The response of a position to the exchange under way (R260), after which the next one begins. -/
def Dev.echoTaken (n e p rt tau : Nat) (d : Dev) : Dev :=
  if !d.echoing n e p then d
  else
    let x := d.str n
    let vs := ((rt : Int) - tau) :: (if e = 0 then x.echo0 else x.echo1).get [] p
    let x := if e = 0 then { x with echo0 := x.echo0.set [] p vs } else { x with echo1 := x.echo1.set [] p vs }
    if vs.length < 16 then (d.setStr n x).echoAsk n e
    else match echoSum vs with
      | none => (d.setStr n x).trainFail n .delayFail
      | some v =>
        let x := if e = 0 then { x with sum0 := x.sum0.set none p (some v) } else { x with sum1 := x.sum1.set none p (some v) }
        (((d.setStr n x).echoAsk n e).sendTrain n [] [(p, v)] none).trainStep n

/-- ECHO_RESPONSE (R260): an ECHO_RSP, which names position and turnaround; one that violates the code is discarded
(R230). -/
def Dev.echoResponse (n e rt : Nat) (line : LineIn) (d : Dev) : Dev :=
  match firstSet line isEchoRsp with
  | some (.echoRsp p tau) => d.echoTaken n e p rt tau
  | _ => d

/-- ECHO_RESPONSE (R260): round trip in fine ticks. -/
def execEchoResponse (n : Fin 12) (e : Fin 2) (rt : W32) (rd : Bool) (codes : List (BitVec 10)) (s : State) :
    Outcome State Fault Refusal := .next (s.run (Dev.echoResponse n.val e.val rt.toNat ⟨rd, codes⟩))

/-- ECHO_TIMEOUT (R260): no response within 10 µs of its request. -/
def Dev.echoTimeout (n e p : Nat) (d : Dev) : Dev :=
  if d.echoing n e p ∧ ((echoReqOf (d.str n) e).any fun q => decide (q.tick + 10 * usTicks ≤ d.now)) then
    d.trainFail n .delayFail
  else d

/-- ECHO_TIMEOUT (R260). -/
def execEchoTimeout (n : Fin 12) (e : Fin 2) (pos : Fin 64) (s : State) : Outcome State Fault Refusal :=
  .next (s.run (Dev.echoTimeout n.val e.val pos.val))

/-- SYNC_FAIL (R262): 20 ms after SYNC_SET. -/
def Dev.syncFail (n : Nat) (d : Dev) : Dev :=
  let x := d.str n
  if x.training ∧ x.phase = 2 ∧ x.phaseTick + 20 * msTicks ≤ d.now then d.trainFail n .syncFail else d

/-- SYNC_FAIL (R262). -/
def execSyncFail (n : Fin 12) (s : State) : Outcome State Fault Refusal := .next (s.run (Dev.syncFail n.val))

/-- LEASE_FAIL (R262): 10 ms after the positions were aligned. -/
def Dev.leaseFail (n : Nat) (d : Dev) : Dev :=
  let x := d.str n
  if x.training ∧ x.phase = 3 ∧ x.phaseTick + 10 * msTicks ≤ d.now then d.trainFail n .leaseFail else d

/-- LEASE_FAIL (R262). -/
def execLeaseFail (n : Fin 12) (s : State) : Outcome State Fault Refusal := .next (s.run (Dev.leaseFail n.val))

/-- A message of training times out (R268): the string cannot complete DISCOVER without its answer (DESIGN CHOICE,
log 60). -/
def Dev.trainTimeout (n opc : Nat) (d : Dev) : Dev :=
  if (d.str n).training ∧ (d.str n).phase = 0 then
    (if opc = 1 then d.trainFail n .countMismatch else if opc = 2 then d.trainFail n .idMismatch else d)
  else d

/-- MSG_TIMEOUT (R268). -/
def execMsgTimeout (n : Fin 12) (s : State) : Outcome State Fault Refusal :=
  .next (s.run fun d => match d.message n.val with
    | none => d
    | some m =>
      let expired : Bool := decide (5 ≤ m.sent)
      let d := d.msgTimeout n.val
      if expired then d.trainTimeout n.val m.opc else d)

end Sys2Proof.Machine
end

