-- ==== Sys2Proof/Machine/PenrasReceive.lean ====
section
/-! DEFINITION. The Penras link, receiving side (R176, R239, R240, R245, R250, R256, R263–R270): glean slots, replies, urgent
faults, breaks, and the bypass and fault-clear messages. -/

namespace Sys2Proof.Machine

open Host

/-! ### Bypass and fault clear (R269, R270) -/

/-- The bypasses in progress for a submodule, oldest first. -/
def Dev.bypassOps (d : Dev) (k : Nat) : List BypassOp := d.pen.bypass.filter fun b => decide (b.sub = k)

/-- BYPASS_CLOSE of a submodule is no longer repeated. -/
def Dev.dropBypass (k : Nat) (d : Dev) : Dev :=
  let n := k / 64
  let x := d.str n
  d.setStr n { x with messages := x.messages.filter fun m => decide (m.opc ≠ 4 ∨ m.pos ≠ k % 64) }

/-- A MODULE_BYPASS completes; with the last one of its submodule the repetition ends. -/
def Dev.endBypass (b : BypassOp) (status : Nat) (d : Dev) : Dev :=
  let d := d.onPen fun p => { p with bypass := p.bypass.erase b }
  (if d.bypassOps b.sub = [] then d.dropBypass b.sub else d).completeAs b.ring b.slot b.tag 0x40 status 0 []

/-- A reply to BYPASS_CLOSE (R269): closed, failed, or still in progress. -/
def Dev.bypassReply (n : Nat) (r : Reply) (d : Dev) : Dev :=
  let ops := d.bypassOps (64 * n + r.pos)
  if r.result = 0 then ops.foldl (fun d b => d.endBypass b stOk) d
  else if r.result = 1 then ops.foldl (fun d b => d.endBypass b stPartial) d
  else d

/-- A submodule is a configured position (R269). -/
def Dev.configured (d : Dev) (k : Nat) : Bool := decide (k < 768) && d.strEn (k / 64) && decide (k % 64 < d.strLen (k / 64))

/-- MODULE_BYPASS's own checks and effect (R269, R377). A further one for the same submodule ends with the same reply, or
200 ms after its own acceptance (DESIGN CHOICE, log 61). -/
def Dev.moduleBypass (c : Cmd) (d : Dev) : Dev :=
  let k := bits (c.half 20) 9 0
  if !d.configured k then d.complete c 0x40 stBadParam
  else if d.twn.st = .standby then d.complete c 0x40 stRejected
  else
    let op : BypassOp := { sub := k, ring := c.ring.val, slot := c.slot.toNat, tag := c.tag.toNat, start := d.now
                           lastSent := d.now }
    ((d.setSubm k { d.subm k with bypassed := true }).onPen fun p => { p with bypass := p.bypass ++ [op] }).issue
      (k / 64) 4 (k % 64) []

/-- MODULE_BYPASS (R269). -/
def execModuleBypass (c : Cmd) (s : State) : Outcome State Fault Refusal :=
  s.runCmd 0x40 (inlMask [(20, 0xFF), (21, 3)]) c (Dev.moduleBypass c)

/-- BYPASS_CLOSE_REPEAT (R269): every 1 ms. -/
def Dev.bypassRepeat (k : Nat) (d : Dev) : Dev :=
  let ops := d.bypassOps k
  if ops = [] ∨ ops.any (fun b => decide (d.now < b.lastSent + msTicks)) = true then d
  else
    let d := d.onPen fun p => { p with bypass := p.bypass.map fun o => if o.sub = k then { o with lastSent := d.now } else o }
    if (d.str (k / 64)).messages.any fun m => decide (m.opc = 4 ∧ m.pos = k % 64) then d
    else d.issue (k / 64) 4 (k % 64) []

/-- BYPASS_CLOSE_REPEAT (R269). -/
def execBypassCloseRepeat (sub : Fin 768) (s : State) : Outcome State Fault Refusal :=
  .next (s.run (Dev.bypassRepeat sub.val))

/-- MODULE_BYPASS_TIMEOUT (R269): no confirmation within 200 ms. -/
def Dev.bypassTimeout (k : Nat) (d : Dev) : Dev :=
  ((d.bypassOps k).filter fun b => decide (b.start + 200 * msTicks ≤ d.now)).foldl (fun d b => d.endBypass b stTimeout) d

/-- MODULE_BYPASS_TIMEOUT (R269). -/
def execModuleBypassTimeout (sub : Fin 768) (s : State) : Outcome State Fault Refusal :=
  .next (s.run (Dev.bypassTimeout sub.val))

/-- A write to MOD_FAULT_CLEAR (R176, R270): a fault exclusion whose submodule has reported no fault since ends at once. -/
def Dev.modFaultClear (v : W32) (d : Dev) : Dev :=
  let k := bits v.toNat 9 0
  if v.getLsbD 31 && d.configured k then
    let x := d.subm k
    let ends := x.faulted && x.clean
    (d.setSubm k { x with
      clearReq := (x.clearReq || x.faulted) && !ends, faulted := x.faulted && !ends, urgent := x.urgent && !ends
      clean := x.clean && !ends }).issue (k / 64) 5 (k % 64) []
  else d

/-- MOD_FAULT_CLEAR (R270). -/
def execModFaultClear (v : W32) (s : State) : Outcome State Fault Refusal := .next (s.run (Dev.modFaultClear v))

/-! ### Urgent faults (R256) -/

/-- A FAULT of a position (R256). -/
def Dev.urgentFault (n p code : Nat) (d : Dev) : Dev :=
  let k := 64 * n + p
  if !d.configured k ∨ 64 ≤ p then d
  else
    let x := d.subm k
    let run := d.strRun n
    let d := d.setSubm k { x with
      faulted := x.faulted || run, urgent := x.urgent || run, clearReq := x.clearReq && !run, clean := x.clean && !run
      fault := code % 8 }
    let d := d.onPen fun s => { s with urgentCnt := satInc s.urgentCnt }
    ((d.event 11 4 n p 0).irq 40).routed 5 k [k, code]

/-- URGENT_FAULT_RECEIVED (R231, R256): the first valid copy of a FAULT set on a lane that this device receives. -/
def Dev.faultSet (n e : Nat) (line : LineIn) (d : Dev) : Dev :=
  if e ∉ d.myEnds then d
  else match firstSet line isFaultSet with
    | some (.fault p code) => d.urgentFault n p code
    | _ => d

/-- URGENT_FAULT_RECEIVED (R256). -/
def execUrgentFaultReceived (n : Fin 12) (e : Fin 2) (line : LineIn) (s : State) : Outcome State Fault Refusal :=
  .next (s.run (Dev.faultSet n.val e.val line))

/-! ### Glean slots -/

/-- Late reports count towards exclusion (R177, R266): not for a late-capable submodule, and not in the stroke of a
break's declaration and the one after it. -/
def Dev.lateCounts (d : Dev) (k : Nat) : Bool :=
  !(d.subm k).lateCap && (match (d.str (k / 64)).breakSn with
    | none => true
    | some s => decide (1 < (d.ang.cur.sn - s).toNat))

/-- What a new slot says of its submodule (R176, R237, R238). Faults and late edges of a string that is not in RUN do not
exclude and are not counted. -/
def Dev.readStatus (k : Nat) (bs : List Byte) (d : Dev) : Dev :=
  let x := d.subm k
  let run := d.strRun (k / 64)
  let st := leAt bs 3 2
  let fault := bitAt st 3 && run
  let late := bitAt st 4 && run
  let clears : Bool := !fault && x.faulted && x.clearReq
  let d := d.setSubm k { x with
    fastV := leAt bs 0 2, temp := leAt bs 2 1, status := st, fault := if bitAt st 3 then st % 8 else x.fault
    seq := leAt bs 5 1, inBlock := decide (st / 2 ^ 13 = 7)
    faulted := if fault then true else x.faulted && !clears, urgent := x.urgent && !clears
    clearReq := x.clearReq && !clears, clean := !fault && x.faulted && !clears
    late := x.late || (late && d.lateCounts k), lateNow := x.lateNow || late }
  if late then d.onMod fun m => { m with lateCnt := satInc m.lateCnt } else d

/-- A CRC-valid slot (R280): what it says once per SEQ, LEASE in every frame under the string's epoch. -/
def Dev.goodSlot (n p epoch : Nat) (bs : List Byte) (d : Dev) : Dev :=
  let k := 64 * n + p
  let x := d.subm k
  let new : Bool := decide (d.pnt.lastSeq.get none k ≠ some (leAt bs 5 1))
  let st := leAt bs 3 2
  let s := d.str n
  let lease := if s.nextEpoch.getD s.epoch = epoch then bitAt st 5 else x.lease
  let d := d.setSubm k { x with seen := true, gap := 0, lease := lease }
  if !new then d
  else
    let d := d.onPnt fun q => { q with lastSeq := q.lastSeq.set none k (some (leAt bs 5 1)) }
    let d := d.readStatus k bs
    let d := if bitAt st 11 then d.event 11 5 n p 0 else d
    let d := if bitAt st 10 ∧ s.phase = 3 ∧ s.syncErr = false then
        ((d.setStr n { d.str n with syncErr := true }).event 11 3 n p 0).irq 41 else d
    d.gleanPoints k (readWords ((bs.length - 8) / 4) (bs.drop 6))
where
  /-- The 32-bit point entries of a slot. -/
  readWords : Nat → List Byte → List Nat
    | 0, _ => []
    | m + 1, b => leAt b 0 4 :: readWords m (b.drop 4)

/-- The slots of a frame, position by position; each is the position and its bytes. -/
def Dev.takeSlots (n epoch : Nat) (d : Dev) (x : Nat × List Byte) : Dev :=
  if crc16Ok x.2 then d.goodSlot n x.1 epoch x.2
  else d.onPen fun p => { p with gleanErrCnt := satInc p.gleanErrCnt }

/-- LEASE_OK of a string (R253, R371): every position reports LEASE for the epoch it is to hold, which is then in force. -/
def Dev.updateLease (n : Nat) (d : Dev) : Dev :=
  let x := d.str n
  let ok : Bool := decide (x.phase = 3) && (d.strSubs n).all fun k => (d.subm k).lease
  if ok then d.setStr n { x with
      leaseOk := true, epoch := x.nextEpoch.getD x.epoch, nextEpoch := none, takeover := false
      training := false, result := if x.training then .ok else x.result }
  else d.setStr n { x with leaseOk := false }

/-- A CRC-valid reply that answers the message in progress (R268). -/
def Dev.takeReply (n dir : Nat) (r : Reply) (d : Dev) : Dev :=
  let d := d.trainReply n dir r
  let d := match d.message n with
    | none => d
    | some m => if d.answered n m r then d.endMessage n else d
  let d := if r.opc = 4 then d.bypassReply n r else d
  d.trainStep n

/-- A frame's reply block. -/
def Dev.frameReply (n : Nat) (f : Frame) (d : Dev) : Dev :=
  if f.msg.isNone then d
  else if crc16Ok f.reply then
    let r := readReply f.reply
    (if (d.str n).training then d.sendTrain n [r] [] none else d).takeReply n f.dir r
  else d.onPen fun p => { p with gleanErrCnt := satInc p.gleanErrCnt }

/-- A stroke with a looped or missing frame (R265) is kept among the latest ones. -/
def badStroke (sn : W32) (x : PenString) : PenString :=
  let near (s : W32) : Bool := decide (s ≠ sn) && decide ((sn - s).toNat < 4 ∨ (s - sn).toNat < 4)
  { x with bads := sn :: x.bads.filter near, goodRun := 0 }

/-- Two strokes in a row had a looped or missing frame (R265). -/
def badPair (x : PenString) : Bool := x.bads.any fun s => x.bads.contains (s + 1)

/-- Frames of a stroke are expected back: the device has sent them (R265). -/
def fedIn (x : PenString) (sn : W32) : Bool := x.fedFrom.any fun s => !afterSn s sn

/-- The ranges that the ends of a string reached in a stroke, counted from each end (R265): by the slots of the own frame that
returned, or of one that crossed. What this device's end does not reach in a twin pair, the partner's end does (DEDUCED, log
101). -/
def Dev.rangesOf (d : Dev) (n : Nat) (rx : List PenRx) : Nat × Nat :=
  let l := d.strLen n
  let from_ (e : Nat) : List Nat :=
    (rx.filter fun r => if r.looped then decide (r.e = e) else decide (r.e ≠ e)).flatMap (·.reach)
  let a := (from_ 0).foldl (fun m p => max m (p + 1)) 0
  let b := (from_ 1).foldl (fun m p => max m (l - p)) 0
  match d.myEnds with
  | [0] => (a, l - a)
  | [1] => (l - b, b)
  | _ => (a, b)

/-- The ranges of a stroke with a looped or missing frame are kept. -/
def Dev.keepRanges (n : Nat) (rx : List PenRx) (d : Dev) : Dev :=
  let r := d.rangesOf n rx
  d.setStr n { d.str n with reach0 := r.1, reach1 := r.2 }

/-- A frame is taken (R240, R265): its slots, its place in the stroke, and its reply block. -/
def Dev.takeFrame (n e : Nat) (f : Frame) (d : Dev) : Dev :=
  let xs := (upto f.len).zip f.slots
  let good := xs.filter fun x => crc16Ok x.2
  let rx : PenRx := { sn := f.sn, e := e, looped := decide (f.dir = e), reach := good.map (·.1)
                      syncErrs := (good.filter fun x => bitAt (leAt x.2 3 2) 10).length
                      leases := if f.epoch = (d.str n).nextEpoch.getD (d.str n).epoch then
                        (good.filter fun x => bitAt (leAt x.2 3 2) 5).length else 0 }
  let d := xs.foldl (Dev.takeSlots n f.epoch) d
  let x := d.str n
  let x : PenString := { x with rx := x.rx ++ [rx] }
  let d := d.setStr n (if rx.looped && fedIn x f.sn then badStroke f.sn x else x)
  let d := if rx.looped then d.keepRanges n (x.rx.filter fun r => decide (r.sn = f.sn)) else d
  let d := d.updateLease n
  if rx.looped ∧ (d.str n).training ∧ (d.str n).phase = 0 then d.trainFail n .broken else d.frameReply n f

/-- FRAME_RECEIVED (R240): the characters of a frame on lane 2n + e. A frame whose CRC-32 is wrong is counted and nothing
in it is used; a correct one that is not of this string, or names another length, is not used either (DESIGN CHOICE, log
102). -/
def Dev.frameReceived (n e : Nat) (line : LineIn) (d : Dev) : Dev :=
  if !d.strEn n ∨ e ∉ d.myEnds then d
  else match frameOf line with
    | none => d
    | some f =>
      if !f.crcOk then d.onPen fun p => { p with hdrErrCnt := satInc p.hdrErrCnt }
      else if f.string = n ∧ f.len = d.strLen n then d.takeFrame n e f
      else d

/-- FRAME_RECEIVED (R240). -/
def execFrameReceived (n : Fin 12) (e : Fin 2) (line : LineIn) (s : State) : Outcome State Fault Refusal :=
  .next (s.run (Dev.frameReceived n.val e.val line))

/-! ### The end of a stroke (R262, R265, R267) -/

/-- A stroke has ended for a submodule: 16 in a row without a late edge end the exclusion that one has brought (R176). A
stroke without a slot reports none (log 124, DEDUCED). -/
def Dev.lateStroke (d : Dev) (k : Nat) : Dev :=
  let x := d.subm k
  let free := if x.lateNow then 0 else min (x.lateFree + 1) 16
  d.setSubm k { x with lateNow := false, lateFree := free, late := x.late && decide (free < 16) }

/-- Stroke `sn` has ended for string n: what came back is judged, for breaks while the string is fed, and for alignment
while it trains. -/
def Dev.strokeEnded (sn : W32) (d : Dev) (n : Nat) : Dev :=
  let x := d.str n
  let mine := x.rx.filter fun r => decide (r.sn = sn)
  let rest := x.rx.filter fun r => afterSn r.sn sn
  let ends := d.myEnds
  let bad : Bool := ends.any fun e => !(mine.any fun r => decide (r.e = e) && !r.looped) || mine.any fun r => decide (r.e = e) && r.looped
  let aligned : Bool := mine ≠ [] && mine.all (fun r => decide (r.syncErrs = 0)) &&
    (upto (d.strLen n)).all fun p => mine.any fun r => r.reach.contains p
  let fed : Bool := fedIn x sn && !ends.isEmpty
  let x := { x with rx := rest, syncRun := if x.phase = 2 ∧ aligned then x.syncRun + 1 else 0
                    fedFrom := if fedIn x sn then some (sn + 1) else x.fedFrom }
  let d := d.setStr n (if !fed then { x with bads := [], goodRun := 0 }
    else if bad then badStroke sn x
    else { x with bads := x.bads.filter fun s => afterSn s sn, goodRun := x.goodRun + 1 })
  let d := (d.strSubs n).foldl Dev.lateStroke d
  (if fed && bad then d.keepRanges n mine else d).trainStep n

/-- BREAK_DECLARED (R265): two strokes in a row with a frame returned or missing; a break that is declared is declared anew
where the ends reach other ranges than before. -/
def Dev.breakDeclared (n : Nat) (d : Dev) : Dev :=
  let x := d.str n
  let two : Bool := decide (x.reach0 + x.reach1 < d.strLen n)
  let pos := if two then 0 else x.reach0
  if !badPair x ∨ !d.strEn n ∨ (x.brk ∧ x.brk2 = two ∧ x.breakPos = pos) then d
  else
    let d := d.setStr n { x with
      brk := true, brk2 := two, breakPos := pos, markFrom := some d.now, breakSn := some d.ang.cur.sn, goodRun := 0 }
    (d.event 11 1 n (if two then 0xFFFFFFFF else pos) 0).irq 39

/-- BREAK_DECLARED (R265). -/
def execBreakDeclared (n : Fin 12) (s : State) : Outcome State Fault Refusal := .next (s.run (Dev.breakDeclared n.val))

/-- The late-capable marks of a string, at the first sample instant after a declaration (R266): positions that one end
alone reaches with a delay greater than D_BUDGET. -/
def Dev.markLate (n : Nat) (d : Dev) : Dev :=
  let x := d.str n
  match x.markFrom with
  | none => d
  | some t =>
    if d.now ≤ t then d
    else
      let far (e p : Nat) : Bool := decide ((12 * d.strLen n * 64 * 32 : Nat) < (sumOf x e p).getD 0)
      let d := (upto (d.strLen n)).foldl (fun d p =>
        let at0 : Bool := decide (p < x.reach0)
        let at1 : Bool := decide (d.strLen n < x.reach1 + p + 1)
        let only0 := at0 && !at1
        let only1 := at1 && !at0
        if (only0 && far 0 p) || (only1 && far 1 p) then d.setSubm (64 * n + p) { d.subm (64 * n + p) with lateCap := true }
        else d) d
      d.setStr n { d.str n with markFrom := none }

/-- BREAK_HEALED (R267): 16 strokes in a row with frames that crossed the whole string. -/
def Dev.breakHealed (n : Nat) (d : Dev) : Dev :=
  let x := d.str n
  if !x.brk ∨ x.goodRun < 16 then d
  else
    let d := (upto 64).foldl (fun d p => d.setSubm (64 * n + p) { d.subm (64 * n + p) with lateCap := false }) d
    (d.setStr n { x with brk := false, brk2 := false, breakPos := 0, markFrom := none }).event 11 2 n 0xFFFFFFFF 0

/-- BREAK_HEALED (R267). -/
def execBreakHealed (n : Fin 12) (s : State) : Outcome State Fault Refusal := .next (s.run (Dev.breakHealed n.val))

/-! ### Changes of configuration (R271) -/

/-- A string whose SLOT, EN or LEN a commit changes is untrained; a training of it ends (R271). The epoch (R253) and a
break with its late-capable marks (R267) stand. Frames that left before the commit are not waited for. -/
def Dev.resetString (n : Nat) (d : Dev) : Dev :=
  let d := d.trainEnd n .notTrained
  d.setStr n { d.str n with phase := 0, leaseOk := false, fedFrom := none, bads := [] }

end Sys2Proof.Machine
end

