-- ==== Sys2Proof/Machine/Endpoints.lean ====
section
/-! DEFINITION. The endpoints of submodules (R244–R255, R259–R264, R268–R270): drill sections, holds, the block signal,
epochs, faults, ports, glean slots and replies. -/

namespace Sys2Proof.Machine

open Host

/-- The endpoint of submodule k. -/
def Dev.endp (d : Dev) (k : Nat) : Endpoint := d.pen.ends.get Endpoint.reset k

/-- An endpoint replaced. -/
def Dev.setEndp (k : Nat) (v : Endpoint) (d : Dev) : Dev :=
  d.onPen fun p => { p with ends := p.ends.set Endpoint.reset k v }

/-- A row of a submodule's endpoint. An endpoint acts whatever the device has configured. -/
def Dev.onEndp (k : Nat) (f : Endpoint → Endpoint) (d : Dev) : Dev := d.setEndp k (f (d.endp k))

/-- A latched fault or the block signal holds the endpoint in BLOCK (R245, R248). -/
def heldInBlock (e : Endpoint) : Bool := e.blocked || e.faults.any fun c => decide (c ≤ 4)

/-- A port, 0 L and 1 R, is down (R264). -/
def portDown (port : Nat) (e : Endpoint) : Bool := if port = 0 then e.lDown else e.rDown

/-- Characters leave a port; everything that would leave a port that is down leaves the other one, and nothing leaves while
both are down (R264). -/
def emit (port : Nat) (cs : List LineChar) (e : Endpoint) : Endpoint :=
  let out := if portDown port e then 1 - port else port
  if portDown out e then e else if out = 0 then { e with outL := cs } else { e with outR := cs }

/-- What arrives on one port leaves the other one (R228). -/
def forward (port : Nat) (cs : List LineChar) (e : Endpoint) : Endpoint := emit (1 - port) cs e

/-- A fault is latched, and one detected is sent out of both ports as three copies of FAULT (R231, R245, R255). A code 0–4
holds the endpoint in BLOCK until it is released after the fault clears (R248). -/
def latchFault (p c : Nat) (e : Endpoint) : Endpoint :=
  if e.faults.contains c then e
  else
    let cs := threeCopies (.fault p c)
    let e := emit 1 cs (emit 0 cs { e with faults := e.faults ++ [c] })
    if c ≤ 4 then { e with blocked := true, state := 7, armed := [] } else e

/-- The endpoint's own tick count, in fine ticks (R261). -/
def localFine (now : Nat) (e : Endpoint) : Nat := ((64 * now : Nat) + e.ofs).toNat

/-- The endpoint's own tick count. -/
def localTick (now : Nat) (e : Endpoint) : Nat := localFine now e / 64

/-- A tick, bits 47:0, as the tick nearest to now (R233). -/
def fullTick (now t48 : Nat) : Nat := ((now : Int) + signed 48 (t48 + 2 ^ 48 - now % 2 ^ 48)).toNat

/-! ### Epochs (R252–R254) -/

/-- An epoch is adopted. -/
def adopt (epoch : Nat) (e : Endpoint) : Endpoint := { e with epoch := some epoch, hoSn := none }

/-- The hold count is at least 2 at the start of stroke `sn` (R252, R372). -/
def heldTwo (e : Endpoint) (sn : W32) : Bool := decide (2 ≤ e.hold) || (match e.lastSn with
  | some l => afterSn sn (l + 2)
  | none => false)

/-- What a CRC-correct frame does to the epoch (R252, R254). -/
def frameEpoch (p : Nat) (f : Frame) (e : Endpoint) : Endpoint :=
  let drill : Bool := decide (f.phase = 3) && !bitAt f.flags 4
  match e.epoch with
  | none =>
    if bitAt f.flags 1 then
      let e := adopt f.epoch e
      if f.phase = 3 ∧ bitAt f.flags 0 = false then latchFault p 5 e else e
    else e
  | some h =>
    let done : Bool := match e.hoSn with
      | some s => drill && decide (f.epoch = nextEpochOf h) && !afterSn s f.sn
      | none => false
    if done then adopt f.epoch e
    else if bitAt f.flags 2 && afterMod 16 f.epoch h && heldTwo e f.sn then adopt f.epoch e
    else if f.epoch = h ∧ bitAt f.flags 3 then { e with hoSn := some f.hoSn }
    else e

/-! ### Drill sections (R244–R248) -/

/-- A drill section is valid at the endpoint (R244, R263). -/
def drillValid (f : Frame) (e : Endpoint) : Bool :=
  f.crcOk && decide (f.phase = 3) && !bitAt f.flags 4 && decide (e.epoch = some f.epoch) && !e.far &&
  (match e.lastSn with
    | some l => afterSn f.sn l
    | none => true)

/-- The state that an entry gives (R245). -/
def entryState (half : Bool) (code : Nat) : Nat :=
  if code = 0 ∨ code = 1 ∨ (code = 2 ∧ half = false) then code else 7

/-- The entries of a position, armed: each is applied at its time, or at once where that has passed (R245, R246); `now` and
`start` are ticks of the endpoint's time. -/
def armEntry (now start allow : Nat) (half : Bool) (e : Endpoint) (w : Nat) : Endpoint :=
  let t := 64 * start + bits w 25 0
  let soon := 64 * (now + 10)
  { e with armed := e.armed ++ [{ time := max t soon, state := entryState half (bits w 33 31) }]
           late := e.late || decide (t + 64 * (allow + 4) < soon) }

/-- A valid drill section's stroke in the prediction (R247): the stroke before it ends at its START, and it ends STROKE_LEN
later. -/
def noteStroke (now start : Nat) (f : Frame) (e : Endpoint) : Endpoint :=
  let first := e.lastSn.isNone
  let ahead : Bool := !first && (decide (now < start) || decide (e.holdSn + 1 = f.sn))
  { e with lastSn := some f.sn, drill := f.body, hold := 0, tHold := f.tHold, strokeLen := f.strokeLen
           got := f.sn :: e.got.filter fun s => decide (s ≠ f.sn)
           holdSn := if ahead then f.sn - 1 else f.sn, holdAt := if ahead then start else start + f.strokeLen }

/-- A valid drill section is acted on (R245–R248). An endpoint held in BLOCK is released at the start of the stroke, unless
BLOCK_ALL or a fault holds it. -/
def takeDrill (now : Nat) (p : Nat) (half : Bool) (f : Frame) (e : Endpoint) : Endpoint :=
  let start := fullTick now f.start
  let e := noteStroke now start f e
  if bitAt f.flags 0 then { e with blocked := true, state := 7, armed := [] }
  else if e.faults.any (fun c => decide (c ≤ 4)) then { e with armed := [] }
  else
    let e := if e.blocked then { e with blocked := false, armed := [{ time := 64 * start, state := 0 }] } else e
    (f.entries.filter fun w => decide (bits w 39 34 = p)).foldl (armEntry now start f.lateAllow half) e

/-- A frame's drill section at an endpoint: acted on, compared with the first one of its stroke (R245), or not obeyed. -/
def frameDrill (now p : Nat) (half : Bool) (f : Frame) (e : Endpoint) : Endpoint :=
  if drillValid f e then takeDrill now p half f e
  else if f.phase = 3 ∧ bitAt f.flags 4 = false ∧ e.lastSn = some f.sn ∧ f.body ≠ e.drill then
    { e with mismatch := true }
  else e

/-! ### Slots and replies (R237, R238, R250, R259, R268–R270) -/

/-- STATUS with LEASE clear (R238). -/
def endpointStatus (run : Bool) (e : Endpoint) : Nat :=
  let sync : Bool := if run then decide (8 ≤ e.errRun) else decide (e.errRun ≠ 0)
  let code := e.faults.foldl min 7
  pack [(e.state, 13), (b2n e.bypClosed, 12), (b2n e.mismatch, 11), (b2n sync, 10), (b2n (e.lDown || e.rDown), 9),
    (b2n e.rDown, 8), (b2n e.lDown, 7), (b2n e.holding, 6), (b2n e.late, 4), (b2n (decide (e.faults ≠ [])), 3),
    (if e.faults = [] then 0 else code, 0)]

/-- The slot content for stroke `sn` is prepared (R237, R250): SEQ advances, and LATE and DRILL_MISMATCH of the stroke that
ends are reported in it (R245, R246). -/
def prepareSlot (run : Bool) (sn : W32) (e : Endpoint) : Endpoint :=
  let seq := (e.seq + 1) % 256
  let c : SlotContent := { sn := sn, status := endpointStatus run e, seq := seq, sensed := none }
  { e with seq := seq, contents := c :: e.contents.take 1, late := false, mismatch := false }

/-- A frame with a correct CRC-32 tells when its stroke starts, where the content for the stroke after it is prepared (R250). -/
def noteClock (now : Nat) (f : Frame) (e : Endpoint) : Endpoint :=
  let start := fullTick now f.start
  { e with clock := if now < start then some { sn := f.sn, start := start, len := f.strokeLen }
      else some { sn := f.sn + 1, start := start + f.strokeLen, len := f.strokeLen } }

/-- The content of a frame's stroke, prepared now where none is (R250). -/
def contentOf (f : Frame) (e : Endpoint) : Endpoint × SlotContent :=
  match e.contents.find? fun c => decide (c.sn = f.sn) with
  | some c => (e, c)
  | none =>
    let e := prepareSlot (decide (f.phase = 3)) f.sn e
    (e, e.contents.headD { sn := f.sn, status := 0, seq := e.seq, sensed := none })

/-- The slot of a frame (R237, R238, R250): what the submodule's sensing gave for its first frame stays its content, and LEASE
follows the frame's EPOCH. -/
def writeSlot (i : EndpointInput) (f : Frame) (e : Endpoint) : Endpoint :=
  let x := contentOf f { e with bypClosed := i.contact }
  let e := x.1
  let n := 6 + 4 * ((slotBytes f.slot - 8) / 4)
  let sensed := x.2.sensed.getD (leBytes 2 i.volt.toNat ++ leBytes 1 i.temp.toNat ++ i.points.flatMap fun w => leBytes 4 w.toNat)
  let st := x.2.status + (if e.epoch = some f.epoch then 32 else 0)
  let body := slice (slice sensed 0 3 ++ leBytes 2 st ++ leBytes 1 x.2.seq ++ sensed.drop 3) 0 n
  { e with slot := withCrc16 body
           contents := e.contents.map fun c => if c.sn = f.sn then { c with sensed := some sensed } else c }

/-- A reply block (R235). -/
def replyBlock (m : Message) (result caps : Nat) (data : List Byte) : List Byte :=
  withCrc16 (leBytes 1 m.opc ++ leBytes 1 m.pos ++ leBytes 1 result ++ leBytes 1 caps ++ slice data 0 10)

/-- Fault codes that are cleared: 4, 5 and 6 at once, the others once their condition has ended (R270). -/
def clearFaults (conds : Nat) (e : Endpoint) : Endpoint :=
  let gone (c : Nat) : Bool := decide (4 ≤ c ∧ c ≤ 6) || !bitAt conds c
  { e with faults := e.faults.filter fun c => !(e.clearing.contains c && gone c)
           clearing := e.clearing.filter fun c => !gone c }

/-- COUNT (R259): an endpoint that receives it on its L port takes the count as its position and writes count + 1; where
the old CRC failed, it writes a complemented one. -/
def countReply (port : Nat) (f : Frame) (e : Endpoint) : Endpoint :=
  if port ≠ 0 then { e with reply := none }
  else
    let c := leAt f.reply 4 1
    let bs := slice f.reply 0 4 ++ leBytes 1 (c + 1) ++ slice f.reply 5 9
    let crc := crc16 bs
    { e with pos := some c, reply := some (bs ++ leBytes 2 (if crc16Ok f.reply then crc else ~~~ crc).toNat) }

/-- A message at the endpoint it is addressed to (R268). -/
def endpointMessage (port p : Nat) (i : EndpointInput) (f : Frame) (e : Endpoint) : Endpoint :=
  match f.msg with
  | none => { e with reply := none }
  | some m =>
    let caps := i.caps.toNat
    if m.opc = 1 then countReply port f e
    else if m.pos ≠ p then { e with reply := none }
    else match m.opc with
      | 2 => { e with reply := some (replyBlock m 0 caps (leBytes 8 i.id.toNat ++ leBytes 2 (e.epoch.getD 0))) }
      | 3 => { e with d0 := leAt m.params 0 4, d1 := leAt m.params 4 4, port := leAt m.params 8 1 % 2
                      reply := some (replyBlock m 0 caps []) }
      | 4 =>
        let failed := bitAt i.conds.toNat 7
        let e := { e with bypass := true, state := if heldInBlock e then 7 else 0 }
        let e := if failed then latchFault p 7 e else e
        { e with reply := some (replyBlock m (if i.contact then 0 else if failed then 1 else 2) caps []) }
      | 5 =>
        let e := clearFaults i.conds.toNat { e with clearing := e.faults }
        { e with reply := some (replyBlock m (if e.faults = [] then 0 else 2) caps []) }
      | _ => { e with reply := some (replyBlock m 0xFE caps []) }

/-- The last stroke whose frame came from the matching direction at a port. -/
def matchOf (port : Nat) (e : Endpoint) : Option W32 := if port = 0 then e.matchL else e.matchR

/-- The timing port (R261): the preferred one while it receives frames of the matching direction, which it no longer does once
it is down or one of the frame's stroke and of the stroke before has not come (DEDUCED, log 103). -/
def timingPort (sn : W32) (e : Endpoint) : Nat :=
  let here : Bool := !portDown e.port e && (match matchOf e.port e with
    | some s => decide (s = sn ∨ s + 1 = sn)
    | none => false)
  if here then e.port else 1 - e.port

/-- The alignment error of a frame on the timing port, in fine ticks, and the correction of the endpoint's tick count towards
e = 0 (R261, R263). `sof` is the arrival of SOF in fine ticks of the device's time. -/
def frameTiming (port p sof : Nat) (f : Frame) (e : Endpoint) : Endpoint :=
  if f.dir ≠ port then e
  else
    let e := if port = 0 then { e with matchL := some f.sn } else { e with matchR := some f.sn }
    if timingPort f.sn e ≠ port then e
    else
      let at_ : Int := sof + e.ofs
      let x := signed 54 ((at_ - (f.txTime + (if port = 0 then e.d0 else e.d1) : Nat)) % 2 ^ 54).toNat
      let step : Int := min (Config.discipline x) x.natAbs
      let e := { e with
        ofs := if x < 0 then e.ofs + step else e.ofs - step
        errRun := if 128 < 5 * x.natAbs then e.errRun + 1 else 0, far := decide (1280 < x.natAbs) }
      if e.far ∧ f.phase = 3 then latchFault p 6 e else e

/-- The bytes of a frame that the endpoint of position p writes anew (R232, R237, R259): its slot, and its reply. -/
def rewritten (p : Nat) (f : Frame) (e : Endpoint) (i : Nat) : Option Byte :=
  let size := slotBytes f.slot
  let a := f.slotPos + p * size
  let r := f.slotPos + f.len * size
  if a ≤ i ∧ i < a + size then e.slot[i - a]?
  else if r ≤ i then (e.reply.getD [])[i - r]?
  else none

/-- ENDPOINT_DRILL_RECEIVED (R228, R244, R245): a frame passes the endpoint of position p through a port, with its slot and
its reply written into it, whether its drill section is valid or not. -/
def endpointFrame (now port p : Nat) (half : Bool) (i : EndpointInput) (cs : List LineChar) (f : Frame) (e : Endpoint) :
    Endpoint :=
  let e := clearFaults i.conds.toNat (if f.crcOk then frameTiming port p i.sof.toNat f e else e)
  let t := localTick now e
  let e := if f.crcOk then noteClock t f (frameDrill t p half f (frameEpoch p f e)) else e
  let e := writeSlot i f e
  let e := if f.crcOk then endpointMessage port p i f e else { e with reply := none }
  forward port (rewriteChars (fun k => if k < 4 then none else rewritten p f e (k - 4)) 0 0 cs) e

/-- ENDPOINT_DRILL_RECEIVED (R245): what arrives on a port that is down is not received; characters that are no frame pass
through (R228). -/
def endpointLine (now port p : Nat) (half : Bool) (i : EndpointInput) (line : LineIn) (e : Endpoint) : Endpoint :=
  if portDown port e then e
  else
    let cs := decodeLine line.rd line.codes
    match frameOf line with
    | some f => endpointFrame now port p half i cs f e
    | none => forward port cs e

/-- ENDPOINT_DRILL_RECEIVED (R245). -/
def execEndpointDrillReceived (sub : Fin 768) (port : Fin 2) (inp : EndpointInput) (line : LineIn) (s : State) :
    Outcome State Fault Refusal :=
  .next (s.run fun d => d.onEndp sub.val (endpointLine d.now port.val (sub.val % 64) (decide (d.topo = 1)) inp line))

/-! ### The endpoint's strokes (R247, R250) -/

/-- The stroke in progress has ended by the endpoint's time. -/
def strokeOver (now : Nat) (e : Endpoint) : Bool := e.lastSn.isSome && decide (e.holdAt ≤ localTick now e)

/-- The prediction goes on to the next stroke. -/
def nextHold (e : Endpoint) : Endpoint :=
  { e with holdSn := e.holdSn + 1, holdAt := e.holdAt + e.strokeLen, got := e.got.filter fun s => afterSn s e.holdSn }

/-- The slot content whose time has come is prepared; `run` says that the string is in RUN. -/
def prepareDue (now : Nat) (run : Bool) (e : Endpoint) : Endpoint := match e.clock with
  | none => e
  | some c =>
    if localTick now e < c.start then e
    else { prepareSlot run (c.sn + 1) e with clock := some { c with sn := c.sn + 1, start := c.start + c.len } }

/-- ENDPOINT_HOLD (R247): the predicted end of a stroke without a valid drill section; the slot content that waited for it
is prepared then (R250). -/
def endpointHold (now p : Nat) (run : Bool) (e : Endpoint) : Endpoint :=
  if !strokeOver now e ∨ e.got.contains e.holdSn then e
  else
    let h := min 255 (e.hold + 1)
    let e := nextHold { e with hold := h, holding := true }
    prepareDue now run (if h = e.tHold then latchFault p 4 e else e)

/-- The string of an endpoint is in RUN. -/
def Dev.endRun (d : Dev) (k : Nat) : Bool := decide ((d.str (k / 64)).phase = 3)

/-- ENDPOINT_HOLD (R247). -/
def execEndpointHold (sub : Fin 768) (s : State) : Outcome State Fault Refusal :=
  .next (s.run fun d => d.onEndp sub.val (endpointHold d.now (sub.val % 64) (d.endRun sub.val)))

/-- A BLOCK set under the epoch held is obeyed (R248). -/
def endpointBlock (epoch : Nat) (e : Endpoint) : Endpoint :=
  if e.epoch = some epoch then { e with blocked := true, state := 7, armed := [] } else e

/-- ENDPOINT_BLOCK_RECEIVED (R228, R231, R248): the characters pass on, and the first valid copy acts. -/
def endpointBlockSet (port : Nat) (line : LineIn) (e : Endpoint) : Endpoint :=
  if portDown port e then e
  else
    let e := forward port (decodeLine line.rd line.codes) e
    match firstSet line isBlockSet with
    | some (.block epoch) => endpointBlock epoch e
    | _ => e

/-- ENDPOINT_BLOCK_RECEIVED (R248). -/
def execEndpointBlockReceived (sub : Fin 768) (rx : PortLine) (s : State) : Outcome State Fault Refusal :=
  .next (s.run fun d => d.onEndp sub.val (endpointBlockSet rx.port.val rx.line))

/-- ENDPOINT_FAULT_DETECT (R255): a fault code of R238. -/
def execEndpointFaultDetect (sub : Fin 768) (code : Byte) (s : State) : Outcome State Fault Refusal :=
  .next (s.run fun d => if code.toNat < 8 then d.onEndp sub.val (latchFault (sub.val % 64) code.toNat) else d)

/-- A port goes down or up (R264): while it is down, LINK_DOWN leaves it. -/
def setPort (port : Nat) (down : Bool) (e : Endpoint) : Endpoint :=
  let out := if down then setChars .linkDown else []
  if port = 0 then { e with lDown := down, outL := out } else { e with rDown := down, outR := out }

/-- ENDPOINT_PORT_DOWN (R264). -/
def execEndpointPortDown (sub : Fin 768) (port : Fin 2) (s : State) : Outcome State Fault Refusal :=
  .next (s.run fun d => d.onEndp sub.val (setPort port.val true))

/-- ENDPOINT_PORT_UP (R264). -/
def execEndpointPortUp (sub : Fin 768) (port : Fin 2) (s : State) : Outcome State Fault Refusal :=
  .next (s.run fun d => d.onEndp sub.val (setPort port.val false))

/-- ENDPOINT_ECHO_REQ (R260): a request for its position is absorbed and answered out of the same port within the 40 ns (1,024
fine ticks) of a turnaround; one for another position passes on. -/
def endpointEcho (port p delay : Nat) (line : LineIn) (e : Endpoint) : Endpoint :=
  if portDown port e then e
  else match firstSet line isEchoReq with
    | some (.echoReq pos _) =>
      if pos ≠ p then forward port (decodeLine line.rd line.codes) e
      else if 1024 < delay then e
      else emit port (setChars (.echoRsp p delay)) e
    | _ => e

/-- ENDPOINT_ECHO_REQ (R260). -/
def execEndpointEchoReq (sub : Fin 768) (delay : W32) (rx : PortLine) (s : State) :
    Outcome State Fault Refusal :=
  .next (s.run fun d => d.onEndp sub.val (endpointEcho rx.port.val (sub.val % 64) delay.toNat rx.line))

/-! ### Ticks -/

/-- Armed entries whose tick has come take effect, in order of time (R245). -/
def applyArmed (now : Nat) (e : Endpoint) : Endpoint :=
  let isDue (a : Armed) : Bool := decide (a.time < 64 * (localTick now e + 1))
  let due := e.armed.filter isDue
  if due = [] then e
  else
    let last := due.foldl (fun (x : Nat × Nat) a => if x.1 ≤ a.time then (a.time, a.state) else x) (0, e.state)
    { e with armed := e.armed.filter fun a => !isDue a, state := if heldInBlock e then 7 else last.2 }

/-- A stroke with a valid drill section ends (R247): its slot does not report HOLDING. -/
def strokeHeld (now : Nat) (e : Endpoint) : Endpoint :=
  if strokeOver now e && e.got.contains e.holdSn then nextHold { e with holding := false } else e

/-- An endpoint at a tick: a stroke with a valid drill section ends, the slot content that is due is prepared, unless it waits
for the end of a stroke without one (ENDPOINT_HOLD), and entries that are due are applied. -/
def endpointTick (now : Nat) (run : Bool) (e : Endpoint) : Endpoint :=
  let e := strokeHeld now e
  applyArmed now (if strokeOver now e then e else prepareDue now run e)

/-- The endpoints at a tick. -/
def Dev.endpointsTick (d : Dev) : Dev :=
  d.onPen fun p => { p with ends := p.ends.cells.foldl (fun m c =>
    m.set Endpoint.reset c.1 (endpointTick d.now (d.endRun c.1) c.2)) p.ends }

end Sys2Proof.Machine
end

