-- ==== Sys2Proof/Machine/Twin.lean ====
section
/-! DEFINITION. Twin operation (TWN, R356–R380): states, claims, the mirror record, takeover, handover and the commands. -/

namespace Sys2Proof.Machine

open Host

/-- EN. -/
def Dev.twinEn (d : Dev) : Bool := d.flag Reg.TWN_CFG 31

/-- The partner reports a state over a link that is up. -/
def Dev.partnerIs (d : Dev) (code : Nat) : Bool :=
  d.twn.linkUp && (match d.twn.partner with
    | some p => decide (p.st = code)
    | none => false)

/-- An event of TWN without items, with interrupt source 38 where R380 names it. -/
def Dev.twnEvent (bit : Nat) (d : Dev) : Dev :=
  let d := d.event 14 bit 0 0 0
  if bit = 4 ∨ bit = 5 ∨ bit = 6 ∨ bit = 8 ∨ bit = 9 ∨ bit = 11 then d.irq 38 else d

/-- A handover that is agreed or asked for is abandoned (R374). -/
def Dev.abandon (d : Dev) : Dev :=
  d.onTwn fun t => { t with abandoned := t.abandoned || t.hoSn.isSome, hoSn := none, hoAsked := false }

/-- SYNCING is entered (R358): its counts start anew. -/
def Dev.enterSyncing (d : Dev) : Dev :=
  let d := d.abandon.setTwin .syncing
  d.onTwn fun t => { t with
    alone := 0, consistCnt := 0, sinceSync := 0, prevSn := none, nT := none, act := false, takeDue := false }

/-- FAULTED is entered (R358). -/
def Dev.enterFaulted (d : Dev) : Dev :=
  let d := d.abandon.onTwn fun t => { t with act := false, takeDue := false }
  (d.setTwin .faulted).holdPairs

/-- ACTIVE is entered: TWIN_ACT is high. -/
def Dev.enterActive (d : Dev) : Dev :=
  (d.onTwn fun t => { t with act := true, lastLaunch := d.ang.cur.sn }).setTwin .active

/-! ### Takeover (R367, R371, R374) -/

/-- The epoch that the next change of a string issues (R371, R374). -/
def Dev.epochNext (d : Dev) (n : Nat) : Nat :=
  let e := nextEpochOf (d.str n).epoch
  if d.twn.abandoned then nextEpochOf e else e

/-- Every enabled string is to change to its next epoch. -/
def Dev.changeEpochs (d : Dev) : Dev :=
  let d := d.strings.foldl (fun d n =>
    let d := (d.strSubs n).foldl (fun d k => d.setSubm k { d.subm k with lease := false }) d
    d.setStr n { d.str n with nextEpoch := some (d.epochNext n), takeover := true, leaseOk := false }) d
  d.onTwn fun t => { t with abandoned := false }

/-- A takeover trigger (R371): L is the last stroke of the former active device, `why` 1 for RESIGN, 2 for claim absence. -/
def Dev.takeTrigger (l : W32) (why : Nat) (d : Dev) : Dev :=
  if (d.twn.st ≠ .standby ∧ d.twn.st ≠ .blind) ∨ d.twn.takeDue then d
  else
    let d := d.abandon
    let epochs := (upto 12).flatMap fun n => leBytes 2 (if d.strEn n then d.epochNext n else 0)
    let d := d.onTwn fun t => { t with
      act := true, takeDue := true, lastL := l, nT := some (l + 3), loadSn := some (l + 3), noLease := 0, noLeaseClaim := 0
      takeoverCnt := satInc t.takeoverCnt }
    (d.twnEvent 1).record 4 0 (leBytes 4 l.toNat ++ leBytes 4 (l + 3).toNat ++ leBytes 1 why ++ [0] ++ epochs)

/-! ### Packets -/

/-- A packet that fails its CRC is discarded and counted; without EN the link is ignored (R357, R359). -/
def Dev.packet (crcOk : Bool) (f : Dev → Dev) (d : Dev) : Dev :=
  if !d.twinEn then d
  else if crcOk then f d else d.onTwn fun t => { t with pktErrCnt := satInc t.pktErrCnt }

/-- A role conflict (R361). -/
def Dev.conflict (d : Dev) : Dev :=
  let d := if d.twn.roleConflict then d else d.twnEvent 11
  let d := d.onTwn fun t => { t with roleConflict := true }
  match d.twn.st with
  | .syncing | .standby | .blind | .resigned => d.enterFaulted
  | _ => d

/-- A STATUS packet (R360, R361). A standby's strings are under the epochs that the active device reports. -/
def Dev.statusPacket (p : StatusPkt) (d : Dev) : Dev :=
  let d := d.onTwn fun t => { t with partner := some p, statusNow := true }
  let d := if d.shadows ∧ p.st = 2 then
      d.strings.foldl (fun d n => d.setStr n { d.str n with epoch := p.epochs.getD n 0 }) d else d
  if d.twn.linkUp && p.primary == d.twn.primary then d.conflict
  else d.onTwn fun t => { t with roleConflict := false }

/-- STATUS_PACKET (R361). -/
def execStatusPacket (p : StatusPkt) (crcOk : Bool) (s : State) : Outcome State Fault Refusal :=
  .next (s.run (Dev.packet crcOk (Dev.statusPacket p)))

/-- The record's timebase is the standby's own (R365): SN, FW and θ, which is that of the stroke's start at the same tick of
the pair's count. -/
def Dev.sameTimebase (d : Dev) (r : MirrorRec) : Bool :=
  let g := d.ang.cur
  decide (r.grid.sn = g.sn ∧ r.grid.acc0 = g.acc0 ∧ r.grid.fw = g.fw ∧ (r.grid.start : Int) = g.start + d.ang.tickBase)

/-- A standby's timebase is that of the record (R52), with which SN, θ and FW agree: MC_BASE, MCN, revolution count, index,
OFFSET_ACT and the pending FW follow, and the strokes already sampled are placed by them. -/
def Dev.adoptTimebase (r : MirrorRec) (d : Dev) : Dev :=
  let a := d.ang
  let cur := { a.cur with index := r.grid.index, off := r.grid.off, mcFirst := r.grid.mcFirst }
  let moved : Bool := decide (a.mcBase ≠ r.mcBase ∨ a.cur.index ≠ r.grid.index ∨ a.cur.off ≠ r.grid.off)
  let d := d.onAng fun a => { a with cur := cur, mcBase := r.mcBase, mcn := r.mcn, rev := r.rev, pendFw := r.pend }
  if !moved then d
  else
    let waits : Replan := { base := r.mcBase, mode := r.mode, keep := false, fw := r.pend
                            tbWaits := a.jobs.any (·.tb), tbUsed := false }
    let (js, x) := d.replan waits cur a.jobs
    d.onAng fun a => { a with
      jobs := js, pendFw := x.fw, cfgDue := if x.tbWaits then some d.regs.commitTick else a.cfgDue }

/-- The mode of a record, taken over by a standby (R365). -/
def Dev.followMode (r : MirrorRec) (d : Dev) : Dev :=
  let old := d.gfm.mode
  let d := d.onGfm fun g => { g with mode := r.mode, sub := r.sub }
  if old = r.mode then d else (d.event 4 0 (modeCode old) (modeCode r.mode) 0xFFFFFFFF).irq 34

/-- A mirror record (R364, R365). A device that has just become ACTIVE still takes the one it is to load (R371, R373). -/
def Dev.mirrorRecord (r : MirrorRec) (len : Nat) (d : Dev) : Dev :=
  if d.twn.st = .active ∧ d.twn.loadSn.isSome then d.onTwn fun t => { t with mirror := some r, mirrorLen := len }
  else if d.twn.st ≠ .standby ∧ d.twn.st ≠ .syncing then d
  else
    let tb := d.sameTimebase r
    let dig : Bool := decide (r.digest = d.digest8)
    let next : Bool := match d.twn.prevSn with
      | some s => decide (r.evalSn = s + 1)
      | none => false
    let ok := tb && dig && next
    let d := d.onTwn fun t => { t with
      mirror := some r, prevSn := some r.evalSn, mirrorLen := len, consistCnt := if ok then satInc t.consistCnt else 0
      sinceSync := if ok then satInc t.sinceSync else 0, loadTb := t.loadTb || (!tb && decide (t.st = .syncing)) }
    let d := r.pwm.foldl (fun d x => d.setPair x.1 { d.pair x.1 with mirror := some x.2 }) d
    let d := d.followMode r
    let d := if tb then d.adoptTimebase r else d
    if d.twn.st = .standby then (if tb && dig || d.twn.takeDue then d else (d.twnEvent 7).enterSyncing)
    else if 1000 ≤ d.twn.consistCnt then d.setTwin .standby else d

/-- B_M (R364). -/
def Dev.mirrorBytes (d : Dev) (first : Bool) : Nat :=
  let casc := (upto 48).filter fun n => d.flag (Reg.LOOP_CASC_IN n) 31
  let secs := (casc.map d.nsec).foldl (· + ·) 0
  let pairs := ((upto 12).filter fun p => d.pairEn p && !d.pairHost p).length
  48 + 40 + (16 + 10 * secs + 4 * casc.length) + 112 + (if d.topo = 0 then 8 * pairs else 96 + 16 * d.armCount) + 512 +
    (if first then 96 else 0) + 4

/-- MIRROR_RECORD (R365). -/
def execMirrorRecord (r : MirrorRec) (crcOk : Bool) (s : State) : Outcome State Fault Refusal :=
  .next (s.run (Dev.packet crcOk fun d => d.mirrorRecord r (d.mirrorBytes r.mach.isSome)))

/-- The start of a stroke among those in progress, sampled or next; of another one, now. -/
def Dev.startOf (d : Dev) (sn : W32) : Nat :=
  match (d.ang.cur :: (d.settledJobs.map (·.g) ++ [d.after d.lastGrid])).find? fun g => decide (g.sn = sn) with
  | some g => g.start
  | none => d.now

/-- A DRILL packet is kept until a record covers its stroke (R363, R371). -/
def Dev.drillPacket (p : DrillPkt) (d : Dev) : Dev :=
  if d.shadows ∧ d.twn.takeDue = false ∧ p.string < 12 then
    let covered (x : DrillPkt × Nat) : Bool := match d.twn.mirror with
      | some r => !afterSn x.1.sn r.evalSn
      | none => false
    let old := (d.twn.drills.get [] p.string).filter fun x => !covered x && decide (x.1.sn ≠ p.sn)
    d.onTwn fun t => { t with drills := t.drills.set [] p.string ((p, d.startOf p.sn) :: old) }
  else d

/-- DRILL_PACKET (R363); forwarding ends at a takeover trigger (R371). -/
def execDrillPacket (p : DrillPkt) (crcOk : Bool) (s : State) : Outcome State Fault Refusal :=
  .next (s.run (Dev.packet crcOk (Dev.drillPacket p)))

/-- RESIGN_PACKET (R367). -/
def execResignPacket (cause : Byte) (lastSn : W32) (crcOk : Bool) (s : State) : Outcome State Fault Refusal :=
  .next (s.run (Dev.packet crcOk fun d =>
    let d := d.event 14 3 cause.toNat lastSn.toNat 0
    if d.twn.st = .standby then d.takeTrigger lastSn 1 else d))

/-- TRIP_PACKET (R376): a standby follows the trip, with cause 19, the partner's first cause and class. A further one joins
the record of the first (R25, R167, R512). -/
def Dev.tripPacket (cls : TripClass) (cause : Nat) (d : Dev) : Dev :=
  if d.twn.st ≠ .standby then d
  else
    let d := d.event 14 10 cause (classCode cls) 0
    if d.tripping then (if cls = .hard then d.hardAction else d).tripAlso cls 19 else d.tripNew cls 19 [cause, classCode cls]

/-- TRIP_PACKET (R376): class 0 is TRIP_SOFT, 1 TRIP_HARD. -/
def execTripPacket (cls : Fin 2) (cause : Byte) (crcOk : Bool) (s : State) : Outcome State Fault Refusal :=
  .next (s.run (Dev.packet crcOk (Dev.tripPacket (if cls.val = 0 then .soft else .hard) cause.toNat)))

/-- Nothing stands in the way of a handover (R373): no trip action, STOP ramp, recovery ramp or ride-through. -/
def Dev.converterCalm (d : Dev) : Bool :=
  !d.sup.acting && d.sup.tripTick.isNone && decide (d.gfm.mode ≠ .stopping ∧ d.gfm.mode ≠ .tripped) && d.sup.ramp.isNone &&
  decide (d.sup.sub = .normal)

/-- HANDOVER_PACKET (R373): the active SECONDARY answers a request with HO_SN = s + 16, where s is the stroke whose frames
it launches next; the PRIMARY takes the confirmation. -/
def Dev.handoverPacket (confirm : Bool) (ho : W32) (d : Dev) : Dev :=
  if confirm then
    (if d.twn.st = .standby ∧ d.twn.hoAsked then d.onTwn fun t => { t with hoSn := some ho, hoAsked := false } else d)
  else if d.twn.st = .active ∧ d.twn.primary = false ∧ d.converterCalm ∧ d.twn.hoSn.isNone then
    let h := d.twn.lastLaunch + 17
    (d.onTwn fun t => { t with hoSn := some h }).send (.handover true h)
  else d

/-- HANDOVER_PACKET (R373). -/
def execHandoverPacket (confirm : Bool) (hoSn : W32) (crcOk : Bool) (s : State) : Outcome State Fault Refusal :=
  .next (s.run (Dev.packet crcOk (Dev.handoverPacket confirm hoSn)))

/-- Both devices of a pair send TIME every 1 ms (R359, R362). -/
def Dev.sendTime (d : Dev) : Dev :=
  if !d.twinEn || decide (d.now % msTicks ≠ 0) then d
  else
    let tx := 64 * d.tickCount
    (d.send (.time { tx := tx, echo := d.twn.timeRx })).onTwn fun t => { t with timeTx := (tx :: t.timeTx).take 2 }

/-- The device aligns its ticks to its partner's (R362): a SECONDARY does, unless it is the ACTIVE one that a PRIMARY joins,
and that PRIMARY does. -/
def Dev.alignsTime (d : Dev) : Bool :=
  if d.twn.primary then decide (d.twn.st = .syncing) && d.partnerIs 2
  else !(decide (d.twn.st = .active) && d.partnerIs 1)

/-- The tick offset from the partner, in fine ticks, is taken into account (R362): the tick count is the partner's, and what is
left of the offset beyond ±0.2 ns goes by phase steps. -/
def Dev.alignTime (ofs : Int) (d : Dev) : Dev :=
  let d := d.onTwn fun t => { t with timeOfs := ofs }
  if !d.alignsTime then d
  else
    let whole := rdiv ofs 64
    let rest := ofs - 64 * whole
    let d := if whole = 0 then d else
      (d.onAng fun a => { a with tickBase := a.tickBase - whole }).onTwn fun t => { t with timeTx := [], timeRx := none }
    if rest.natAbs ≤ 5 ∨ d.clk.state ≠ .locked then d
    else d.startSteps (if d.twn.primary then perFast else perPullIn) (8 * rest)

/-- TIME_PACKET (R362), with the fine tick of its arrival: the round trip of the device's own TIME packet that it names
gives the offset, half the difference of the two ways. -/
def Dev.timePacket (p : TimePkt) (frac : Nat) (d : Dev) : Dev :=
  let rx := 64 * d.tickCount + frac
  let known := p.echo.filter fun e => decide (e.1 ∈ d.twn.timeTx)
  let d := d.onTwn fun t => { t with timeRx := some (p.tx, rx) }
  match known with
  | some (tx, there) => d.alignTime ((((tx : Int) - there) + ((rx : Int) - p.tx)) / 2)
  | none => d

/-- TIME_PACKET (R362). -/
def execTimePacket (rx : TimeIn) (crcOk : Bool) (s : State) : Outcome State Fault Refusal :=
  .next (s.run (Dev.packet crcOk (Dev.timePacket rx.pkt rx.frac.toNat)))

/-- TRAIN_PACKET (R377): the partner's end of a string reports reply blocks and delay sums, or that the string fails; the
device that does not direct the training follows the phase it names. -/
def Dev.trainPacket (p : TrainPkt) (d : Dev) : Dev :=
  let n := p.string
  if !d.strEn n ∨ d.myEnds.isEmpty then d
  else
    let own := d.myEnds.headD 0
    let d := if p.fail.isNone ∧ d.pen.train.isEmpty ∧ ((d.str n).phase ≠ p.phase ∨ ((d.str n).training = false ∧ p.phase ≠ 3)) then
        (if p.phase = 0 then d.startTraining n
         else (d.setStr n { d.str n with training := true }).phaseBegins n p.phase) else d
    let d := p.replies.foldl (fun d r => d.takeReply n own r) d
    let x := d.str n
    let d := d.setStr n (if own = 0 then { x with sum1 := p.sums.foldl (fun m v => m.set none v.1 (some v.2)) x.sum1 }
      else { x with sum0 := p.sums.foldl (fun m v => m.set none v.1 (some v.2)) x.sum0 })
    match p.fail with
    | some r => if (d.str n).training then d.trainEnd n r else d
    | none => d.trainStep n

/-- TRAIN_PACKET (R377). -/
def execTrainPacket (p : TrainPkt) (crcOk : Bool) (s : State) : Outcome State Fault Refusal :=
  .next (s.run (Dev.packet crcOk fun d => if p.string < 12 then d.trainPacket p else d))

/-! ### Link (R360, R375) -/

/-- Both receive lanes have block lock. -/
def Dev.linkLocked (d : Dev) : Bool := decide (d.twn.locks = 3)

/-- The block locks of a tick are noted; valid STATUS packets count only on locked lanes (R360). -/
def Dev.noteLocks (locks : BitVec 2) (d : Dev) : Dev :=
  d.onTwn fun t => { t with locks := locks, statusRun := if locks = 3 then t.statusRun else 0 }

/-- TWIN_LINK_DOWN (R360): a receive lane lacks block lock, or three strokes have passed without a valid STATUS. A link that is
down shows no role conflict (R361; DEDUCED). -/
def Dev.linkLost (d : Dev) : Dev :=
  if !d.twinEn ∨ !d.twn.linkUp ∨ (d.linkLocked ∧ d.twn.statusless < 3) then d
  else
    let d := ((d.onTwn fun t => { t with linkUp := false, statusRun := 0, roleConflict := false }).twnEvent 4).abandon
    if d.twn.st = .standby then (d.onTwn fun t => { t with mirror := none, drills := .empty }).setTwin .blind else d

/-- TWIN_LINK_DOWN (R360). -/
def execTwinLinkDown (s : State) : Outcome State Fault Refusal := .next (s.run Dev.linkLost)

/-- TWIN_LINK_UP (R360): 16 strokes in a row with valid STATUS packets on locked lanes. A takeover that has begun goes on
(R358, R371; DEDUCED). -/
def Dev.linkBack (d : Dev) : Dev :=
  if !d.twinEn ∨ d.twn.linkUp ∨ d.twn.statusRun < 16 ∨ !d.linkLocked then d
  else
    let d := (d.onTwn fun t => { t with linkUp := true, statusless := 0 }).twnEvent 5
    if d.twn.st = .blind ∧ d.twn.takeDue = false then d.enterSyncing else d

/-- TWIN_LINK_UP (R360). -/
def execTwinLinkUp (s : State) : Outcome State Fault Refusal := .next (s.run Dev.linkBack)

/-! ### Claims (R366, R367, R361, R371) -/

/-- The tick of the latest toggle of a claim, start − t_EP + 160, has passed for the stroke that begins next (R366). -/
def Dev.claimPast (d : Dev) : Bool := decide (d.ang.cur.start + d.ang.cur.len + 160 < d.now + d.tEP)

/-- CLAIM_TOGGLE_SEEN (R366): the claim of the stroke that begins next. One that comes after its tick has been missed. -/
def Dev.claimToggle (d : Dev) : Dev :=
  if !d.twinEn then d
  else
    let late := d.claimPast
    d.onTwn fun t => { t with
      lastClaim := some (d.ang.cur.sn + 1), claimLate := late, missed := if late then t.missed else 0 }

/-- CLAIM_TOGGLE_SEEN (R366). -/
def execClaimToggleSeen (s : State) : Outcome State Fault Refusal := .next (s.run Dev.claimToggle)

/-- MISSED_CLAIM (R366, R367): the toggle of the next stroke is missing at start − t_EP + 160; two in a row declare claim
absence, on which a STANDBY or BLIND device takes over. -/
def Dev.missedClaim (d : Dev) : Dev :=
  let n := d.ang.cur.sn + 1
  let latest := d.ang.cur.start + d.ang.cur.len + 160
  if !d.twinEn ∨ d.now + d.tEP < latest ∨ (d.twn.lastClaim = some n ∧ d.twn.claimLate = false) ∨ d.twn.lastMissed = some n ∨
      (d.twn.st ≠ .standby ∧ d.twn.st ≠ .blind) then d
  else
    let d := d.onTwn fun t => { t with missed := t.missed + 1, lastMissed := some n }
    if d.twn.missed < 2 then d else d.takeTrigger (d.twn.lastClaim.getD (n - 2)) 2

/-- MISSED_CLAIM (R366). -/
def execMissedClaim (s : State) : Outcome State Fault Refusal := .next (s.run Dev.missedClaim)

/-- DUAL_CLAIM (R361): the partner's claim in 16 strokes in a row while ACTIVE. -/
def Dev.dualClaim (d : Dev) : Dev :=
  if d.twn.st ≠ .active ∨ d.twn.claimRun < 16 then d
  else ((d.twnEvent 8).takeEffect .hard 19 []).enterFaulted

/-- DUAL_CLAIM (R361). -/
def execDualClaim (s : State) : Outcome State Fault Refusal := .next (s.run Dev.dualClaim)

/-- LEASE_REFUSED (R371): no lease in the four strokes from n_T. -/
def Dev.leaseRefused (d : Dev) : Dev :=
  if d.twn.st ≠ .active ∨ d.twn.noLease < 4 then d
  else
    let d := d.twnEvent 9
    (if 4 ≤ d.twn.noLeaseClaim then d.twnEvent 8 else d).enterFaulted

/-- LEASE_REFUSED (R371). -/
def execLeaseRefused (s : State) : Outcome State Fault Refusal := .next (s.run Dev.leaseRefused)

/-- SYNCING_TO_ACTIVE (R358): a PRIMARY alone for 1,000 strokes. -/
def Dev.aloneActive (d : Dev) : Dev :=
  if d.twn.st = .syncing ∧ d.twn.primary ∧ 1000 ≤ d.twn.alone then d.enterActive else d

/-- SYNCING_TO_ACTIVE (R358). -/
def execSyncingToActive (s : State) : Outcome State Fault Refusal := .next (s.run Dev.aloneActive)

/-- SELF_TEST_DONE (R358). -/
def execSelfTestDone (ok : Bool) (s : State) : Outcome State Fault Refusal :=
  .next (s.run fun d => if d.twn.st ≠ .resigned then d else if ok then d.enterSyncing else d.enterFaulted)

/-- A PRIMARY asks for a handover. -/
def Dev.askHandover (d : Dev) : Dev := (d.onTwn fun t => { t with hoAsked := true }).send (.handover false 0)

/-- REVERT_EN, REVERT_HOLD and REVERT_DELAY let a PRIMARY ask for a handover (R373). -/
def Dev.revertOk (d : Dev) : Bool :=
  d.flag Reg.TWN_CFG 30 && !d.twn.revertHold && decide (d.fld Reg.TWN_CFG 24 0 ≤ d.twn.sinceSync)

/-- HANDOVER_REQUEST (R373). A request that has had no answer is repeated (DESIGN CHOICE, log 120). -/
def Dev.handoverRequest (d : Dev) : Dev :=
  if d.twn.st = .standby ∧ d.twn.primary ∧ d.revertOk ∧ d.converterCalm ∧ d.twn.hoSn.isNone then
    (d.onTwn fun t => { t with hoByHost := false }).askHandover
  else d

/-- HANDOVER_REQUEST (R373). -/
def execHandoverRequest (s : State) : Outcome State Fault Refusal := .next (s.run Dev.handoverRequest)

/-- TWIN_CONTROL's own checks and effect (R361, R378). -/
def Dev.twinControl (c : Cmd) (d : Dev) : Dev :=
  let reject (d : Dev) : Dev := d.complete c 0x50 stRejected
  match c.byte 20 with
  | 0 =>
    if d.twn.st = .active ∧ d.partnerReady then
      ((if d.twn.primary then d.onTwn fun t => { t with revertHold := true } else d).resign 6).complete c 0x50 stOk
    else reject d
  | 1 =>
    if d.twn.st = .syncing ∧ d.twn.primary = false ∧ 2 ≤ d.twn.quietRun ∧ d.partnerIs 2 = false then
      d.enterActive.complete c 0x50 stOk
    else reject d
  | 2 =>
    if d.twn.st = .standby ∧ d.twn.primary then
      (d.onTwn fun t => { t with revertHold := false, hoByHost := true }).askHandover.complete c 0x50 stOk
    else reject d
  | 3 =>
    if d.twn.st = .faulted ∧ d.twn.roleConflict = false then (d.setTwin .resigned).complete c 0x50 stOk else reject d
  | _ => d.complete c 0x50 stBadParam

/-- TWIN_CONTROL (R378). -/
def execTwinControl (c : Cmd) (s : State) : Outcome State Fault Refusal :=
  s.runCmd 0x50 (inlMask [(20, 0xFF)]) c (Dev.twinControl c)

/-- CONTROL_DATAPATH_MISMATCH (R368): an ACTIVE device resigns with cause 5, or without a ready partner trips with cause 19;
a SOLO device, which has no partner at all, trips as well (DEDUCED). -/
def Dev.datapathMismatch (d : Dev) : Dev := d.resignOr 5 (Dev.takeEffect .hard 19 [])

/-- CONTROL_DATAPATH_MISMATCH (R368). -/
def execControlDatapathMismatch (s : State) : Outcome State Fault Refusal := .next (s.run Dev.datapathMismatch)

/-! ### Stroke boundaries -/

/-- The record that the ACTIVE device sends at the end of a stroke (R364); `first` says whether that stroke was the first
of its machine cycle. It names the stroke that begins, also where that stroke's evaluation was abandoned and the state is that
of an earlier one. Its times are ticks of the pair's count (R362). -/
def Dev.mirrorOf (first : Bool) (d : Dev) : MirrorRec :=
  let s := d.sup
  let sup : SupMirror := {
    limitHold := s.limitHold, exitStart := s.exitStart, clearStart := s.clearStart, frtStart := s.frtStart
    limStart := s.limStart, ramp := s.ramp, vPre := s.vPre, iR0 := s.iR0, soft := s.soft, chans := s.chans, model := s.model
    feExc := s.feExc, feStart := s.feStart, causeCount := s.causeCount, causeLast := s.causeLast, causeClass := s.causeClass
    causeFirst := s.causeFirst }
  let g := d.gfm
  let mach : MachMirror := { omega := g.omega, e := g.e, phi := g.phi, eps := g.eps, pf := g.pf, req := g.req }
  let casc := (upto 48).filter fun n => d.flag (Reg.LOOP_CASC_IN n) 31
  let outs := casc.map fun n => let k := d.fld (Reg.LOOP_CASC_OUT n) 8 0; (k, d.sig k)
  let pairs := (upto 12).filter fun p => d.pairEn p && !d.pairHost p
  let pwm := pairs.map fun p =>
    let x := d.pair p
    let (w, c, _) := pulseWidth (d.loopDuty p).1 x.carry (64 * d.ang.cur.len) (d.dtRise p + d.minPulse p)
      (d.dtFall p + d.minPulse p)
    (p, w, c)
  let r : MirrorRec := {
    evalSn := d.ang.cur.sn, mcn := d.ang.mcn, mode := g.mode, sub := s.sub, digest := d.digest8
    grid := d.ang.cur, pend := d.ang.pendFw, rev := d.ang.rev, mcBase := d.ang.mcBase
    region := d.loop.region, secs := d.loop.secs, outs := outs, sup := sup, arms := d.mod.arms
    subs := (d.strings.flatMap d.strSubs).map fun k => (k, (d.subm k).state, (d.subm k).lastEdge)
    pwm := if d.topo = 0 then pwm else [], chans := (upto 8).map d.prf
    mach := if first then some mach else none }
  shiftRecord d.ang.tickBase r

/-- The grid of a record goes on, stroke by stroke, to the one in progress at a tick. -/
def Dev.followGrid (now : Nat) : Nat → Dev → Dev
  | 0, d => d
  | n + 1, d =>
    let g := d.ang.cur
    if now < g.start + g.len then d
    else
      let next := d.after g
      Dev.followGrid now n (d.onAng fun a => { a with
        cur := next, pendFw := if next.angle && next.mcFirst then none else a.pendFw
        mcn := a.mcn + (if next.mcFirst then 1 else 0)
        rev := a.rev + (if next.angle && decide (next.index = 0) then 1 else 0) })

/-- The timebase of a record is loaded at a stroke boundary (R365): the record's grid, in the device's own ticks, up to the
stroke and the θ of this tick. -/
def Dev.loadTimebase (r : MirrorRec) (d : Dev) : Dev :=
  let g := (shiftRecord (-d.ang.tickBase) r).grid
  let d := d.onAng fun a => { a with
    cur := g, jobs := [], mcBase := r.mcBase, pendFw := r.pend, mcn := r.mcn, rev := r.rev }
  let d := d.followGrid d.now 16
  let d := d.onAng fun a =>
    let acc := if a.cur.angle then a.cur.acc0 + BitVec.ofNat 64 ((d.now - a.cur.start) * a.cur.fw) else a.cur.acc0
    { a with acc := acc, prevAcc := acc }
  let d := d.onTwn fun t => { t with loadTb := false }
  (upto 24).foldl (fun d l => d.setLane l { d.lane l with lastSn := none }) d

/-- No slot of a string in RUN that came back in stroke `sn` reported the lease (R371). -/
def Dev.noLeaseIn (d : Dev) (sn : W32) : Bool :=
  let run := (d.strings.filter d.strRun).flatMap fun n => (d.str n).rx.filter fun r => decide (r.sn = sn)
  decide (run ≠ []) && run.all fun r => decide (r.leases = 0)

/-- The counts of a stroke that has ended (R358, R360, R361, R371), `refused` where it showed no lease; stroke `sn` begins. -/
def Dev.twinCounts (refused : Bool) (sn : W32) (d : Dev) : Dev :=
  let seen : Bool := decide (d.twn.lastClaim = some sn)
  let since : Nat := match d.twn.nT with
    | some t => if afterSn t sn then 2 ^ 32 else (sn - t).toNat
    | none => 2 ^ 32
  let ended := decide (1 ≤ since) && decide (since ≤ 4)
  d.onTwn fun t => { t with
    claimSeen := seen
    claimRun := if seen && decide (t.st = .active) && decide (4 ≤ since) then t.claimRun + 1 else 0
    quietRun := if seen then 0 else t.quietRun + 1
    alone := if decide (t.st = .syncing) && !seen && !d.partnerIs 2 && !t.roleConflict then t.alone + 1 else 0
    statusRun := if t.statusNow && decide (t.locks = 3) then t.statusRun + 1 else 0
    statusless := if t.statusNow then 0 else t.statusless + 1
    statusNow := false
    noLease := if ended then (if refused then t.noLease + 1 else 0) else t.noLease
    noLeaseClaim := if ended then (if refused && seen then t.noLeaseClaim + 1 else 0) else t.noLeaseClaim
    repeatLeft := t.repeatLeft - 1 }

/-- The conditions of R373 still hold (R374): those of the PRIMARY's own request stand on its side, unless the host has asked
for the handover (R378). -/
def Dev.handoverHolds (d : Dev) : Bool :=
  d.twn.linkUp && d.converterCalm && (match d.twn.st with
    | .active => d.partnerReady
    | _ => d.twn.hoByHost || d.revertOk)

/-- The switch of a handover at the boundary that starts stroke HO_SN − 1 (R373), or its abandonment (R374). -/
def Dev.handoverBoundary (sn : W32) (d : Dev) : Dev := match d.twn.hoSn with
  | none => if d.twn.hoAsked && !d.handoverHolds then d.abandon else d
  | some h =>
    if !d.handoverHolds then d.abandon
    else if sn + 1 ≠ h then d
    else
      let d := (d.onTwn fun t => { t with hoSn := none, takeoverCnt := satInc t.takeoverCnt }).twnEvent 2
      match d.twn.st with
      | .standby => (d.changeEpochs.onTwn fun t => { t with nT := none, loadSn := some h }).enterActive
      | .active => (d.onTwn fun t => { t with act := false, nT := none }).setTwin .standby
      | _ => d

/-- What twin operation does at the boundary that begins stroke `sn`; `first` says whether the stroke that ends was the
first of its machine cycle, and `refused` whether it showed no lease. The record of a stroke comes from the device that was
ACTIVE in it (R364, R373). -/
def Dev.twinBoundary (first refused : Bool) (sn : W32) (d : Dev) : Dev :=
  if !d.twinEn then d
  else
    let d := d.twinCounts refused sn
    let d := if d.twn.st = .active then
        let len := d.mirrorBytes first
        (d.sendLen (.mirror (d.mirrorOf first)) len).onTwn fun t => { t with mirrorLen := len } else d
    let d := if d.twn.takeDue && decide (d.twn.st = .standby ∨ d.twn.st = .blind) then
        ((d.onTwn fun t => { t with takeDue := false }).changeEpochs.onTwn fun t => { t with lastLaunch := sn }).setTwin .active
      else d
    let d := d.handoverBoundary sn
    let d := match d.twn.loadTb, d.twn.mirror with
      | true, some r => d.loadTimebase r
      | _, _ => d
    d.send (.status { st := twinCode d.twn.st, primary := d.twn.primary, digest := d.digest8
                      epochs := (upto 12).map fun n => (d.str n).epoch, sn := d.ang.cur.sn })

/-- A commit that changes EN (R357). -/
def Dev.twnCommitted (old d : Dev) : Dev :=
  if old.twinEn = d.twinEn then d
  else if d.twinEn then d.enterSyncing
  else (d.onTwn fun t => { t with
    act := false, linkUp := false, statusRun := 0, statusless := 0, statusNow := false, nT := none, hoSn := none
    hoAsked := false, takeDue := false }).setTwin .solo

/-! ### Registers -/

/-- The level of TWIN_ACT (R370): low until READY (R526). -/
def Dev.twinAct (d : Dev) : Bool := d.ready && d.twn.act

/-- TWN_STATUS. -/
def Dev.twnStatus (d : Dev) : Nat :=
  let t := d.twn
  let p := match t.partner with
    | some x => x.st
    | none => 7
  pack [(t.resignCause, 16), (b2n t.revertHold, 12), (b2n t.primary, 11), (b2n d.twinAct, 10), (b2n t.claimSeen, 9),
    (b2n t.linkUp, 8), (p, 4), (twinCode t.st, 0)]

/-- TWN_SNAP (R9). -/
def Dev.twnSnap (v : W32) (d : Dev) : Dev :=
  if v.getLsbD 0 then
    let t := d.twn
    d.snapAll [(Reg.TWN_CONSIST_SNAP, t.consistCnt), (Reg.TWN_MISS_CNT_SNAP, t.missCnt),
      (Reg.TWN_PKT_ERR_CNT_SNAP, t.pktErrCnt), (Reg.TWN_TAKEOVER_CNT_SNAP, t.takeoverCnt),
      (Reg.TWN_LAST_L_SNAP, t.lastL.toNat), (Reg.TWN_TIME_OFS_SNAP, unsigned 32 t.timeOfs),
      (Reg.TWN_MIRROR_LEN_SNAP, t.mirrorLen)]
  else d

/-- TWN_SNAP (R9). -/
def execTwnSnap (v : W32) (s : State) : Outcome State Fault Refusal := .next (s.run (Dev.twnSnap v))

end Sys2Proof.Machine
end

