-- ==== Sys2Proof/Machine/Committed.lean ====
section
/-! DEFINITION. What else happens when accepted registers go into force: cleared cascade states (R120), restarted filters
(R316), strings that start anew (R271), bypasses that end (R176), trigger units (R323), and the twin state (R357). -/

namespace Sys2Proof.Machine

/-- A register has another value in force than before. -/
def Dev.moved (old d : Dev) (off : Nat) : Bool := decide (old.cfg off ≠ d.cfg off)

/-- Bits of a register have another value in force than before. -/
def Dev.movedBits (old d : Dev) (off hi lo : Nat) : Bool := decide (old.fld off hi lo ≠ d.fld off hi lo)

/-- Cascades whose EN, IN_A, IN_B, B_EN, BASE, NSEC or OUT changes lose their states (R120). -/
def Dev.clearCascades (old d : Dev) : Dev :=
  (upto 48).foldl (fun d n =>
    let i := Reg.LOOP_CASC_IN n
    if old.movedBits d i 31 31 || old.movedBits d i 8 0 || old.movedBits d i 24 16 || old.movedBits d i 29 29 ||
        old.movedBits d (Reg.LOOP_CASC_SEC n) 14 0 || old.movedBits d (Reg.LOOP_CASC_OUT n) 8 0 then
      d.setCascStates n ((upto 16).map fun _ => Biquad.reset)
    else d) d

/-- The selector changes: its next evaluation places the point without hysteresis (R123). -/
def Dev.replaceSelector (old d : Dev) : Dev :=
  let regs := [Reg.LOOP_REG_SEL, Reg.LOOP_REG_HYST] ++ (upto 3).map Reg.LOOP_REG_XBP ++ (upto 3).map Reg.LOOP_REG_YBP
  if regs.any (fun r => old.moved d r) || old.movedBits d Reg.LOOP_CTRL 3 3 then d.onLoop fun l => { l with place := true } else d

/-- A channel that is no longer enabled is not failed (R306). -/
def Dev.notFailed (e : Nat) (d : Dev) : Dev := d.setChan e { d.chan e with failed := false }

/-- A SAR channel after a change of its EN (R316). -/
def Dev.restartSar (old : Dev) (c : Nat) (d : Dev) : Dev :=
  if old.sarOn c = d.sarOn c then d
  else (d.setSar c { SarChan.reset with decision := (d.sar c).decision }).notFailed c

/-- A sigma-delta filter after a change of its group, EN or OSR3: it starts from alternating bits (R316). A channel that
stays enabled stays failed, with what it holds (R314). -/
def Dev.restartSd (old : Dev) (c : Nat) (d : Dev) : Dev :=
  let r := Reg.ADC_SD_CH c
  if !(old.moved d (Reg.ADC_SD_GRP (c / 8)) || old.movedBits d r 31 31 || old.movedBits d r 26 24) then d
  else
    let x := d.sd c
    let y : SdChan := { SdChan.reset with decision := x.decision, level := x.level, lastChange := d.now }
    if d.sdOn c && x.failed then d.setSd c { y with failed := true, raw := x.raw, held := x.held }
    else (d.setSd c y).notFailed (24 + c)

/-- Filters restart where their group, EN or OSR3 changes; a comparator that is no longer enabled has no decision (R306,
R309, R310, R316). -/
def Dev.restartFilters (old d : Dev) : Dev :=
  let d := (upto 24).foldl (fun d c => Dev.restartSar old c d) d
  let d := (upto 32).foldl (fun d c => Dev.restartSd old c d) d
  let d := d.onAdc fun a => { a with
    clk := (upto 4).foldl (fun m g => if old.moved d (Reg.ADC_SD_GRP g) then
      m.set PinLevel.reset g { m.get PinLevel.reset g with since := d.now } else m) a.clk
    banks := pack ((upto 4).map fun b => (b2n (bitAt a.banks b && (upto 6).any fun k => (d.sar (6 * b + k)).failed), b))
    groups := pack ((upto 4).map fun g => (b2n (bitAt a.groups g && !old.moved d (Reg.ADC_SD_GRP g)), g)) }
  let d := (upto 24).foldl (fun d c =>
    if (d.sar c).decision && !(d.flag Reg.ADC_WIN_EN c && d.sarOn c) then
      (d.setSar c { d.sar c with decision := false, run := 0 }).decided c false
    else d) d
  (upto 32).foldl (fun d c =>
    if (d.sd c).decision && !(d.flag (Reg.ADC_SD_CH c) 0 && d.sdOn c) then
      (d.setSd c { d.sd c with decision := false, run := 0 }).decided (24 + c) false
    else d) d

/-- Trigger units whose register changes start from out of level (R323). -/
def Dev.restartUnits (old d : Dev) : Dev :=
  (upto 8).foldl (fun d u =>
    if [Reg.ACQ_UNIT_CFG u, Reg.ACQ_UNIT_LA u, Reg.ACQ_UNIT_LB u, Reg.ACQ_UNIT_T1 u, Reg.ACQ_UNIT_T2 u].any
        (fun r => old.moved d r) then d.setAunit u AcqUnit.reset
    else d) d

/-- Strings whose SLOT, EN or LEN changes start anew (R271); a bypass ends with TOPO and with EN, ARM or LEN of its string
(R176). -/
def Dev.restartStrings (old d : Dev) : Dev :=
  let topo := old.movedBits d Reg.MOD_CFG 2 0
  (upto 12).foldl (fun d n =>
    let r := Reg.MOD_STR n
    let place := old.movedBits d r 31 31 || old.movedBits d r 22 16
    let d := if place || old.movedBits d (Reg.PEN_STR n) 1 0 then d.resetString n else d
    if topo || place || old.movedBits d r 26 24 then
      (upto 64).foldl (fun d p => let k := 64 * n + p
        if (d.subm k).bypassed then d.setSubm k { d.subm k with bypassed := false } else d) d
    else d) d

/-- The tail buffer starts anew where LRD_SIG changes (R514). -/
def Dev.restartTail (old d : Dev) : Dev :=
  if (upto 16).any fun i => old.moved d (Reg.LRD_SIG i) then { d with lrd := { d.lrd with tail := [] } } else d

/-- What follows when the registers that apply at a sample instant have gone into force. -/
def Dev.sampleApplied (old d : Dev) : Dev :=
  let d := old.clearCascades d
  let d := old.replaceSelector d
  let d := old.restartFilters d
  let d := old.restartUnits d
  let d := old.restartStrings d
  let d := old.restartTail d
  Dev.twnCommitted old d

/-- PWM registers come into force with a stroke (R222). The commit registers hold what has been loaded. -/
def Dev.pwmStroke (accepted : SMap W32) (d : Dev) : Dev :=
  let inForce := accepted.cells.foldl (fun m c =>
    if domainOf c.1 = some .stroke then m.set (regReset c.1) c.1 c.2 else m)
    (⟨d.regs.inForce.cells.filter fun c => !decide (domainOf c.1 = some .stroke)⟩ : SMap W32)
  (Dev.pwmApplied d { d with regs := { d.regs with inForce := inForce } }).holdPairs.requalify

/-- Accepted registers go into force at the first sample instant that follows their acceptance (R133). -/
def Dev.takeSample (d : Dev) : Dev :=
  if Domain.sample ∈ d.regs.due ∧ d.regs.commitTick < d.now then Dev.sampleApplied d (d.applyDue .sample) else d

end Sys2Proof.Machine
end

