-- ==== Sys2Proof/Machine/AngleTimebase.lean ====
section
/-! DEFINITION. The angle timebase (ANG, R29–R53): ticks, sample instants, stroke boundaries with what happens at them, and
angle stamps. -/

namespace Sys2Proof.Machine

open Host

/-! ### Ticks (R29) -/

/-- The pins of a tick are noted: trip inputs (R215), EXT_TRIG_IN (R324) and the straps (R524). -/
def Dev.notePins (pins : TickPins) (d : Dev) : Dev :=
  let d := d.onSys fun s => { s with strapPins := pins.straps.toNat }
  let d := d.onPwm fun s => { s with pins := (upto 8).foldl (fun m n =>
    m.set PinLevel.reset n ((m.get PinLevel.reset n).at (pins.trip.getLsbD n) d.now)) s.pins }
  d.onAcq fun a => { a with
    ext := a.ext.at pins.ext d.now, extSeen := a.extSeen && decide (pins.ext = a.ext.level) }

/-- The next tick: the records due in the tick that ends are written (R513), commands with an unknown opcode that waited
complete (R430), the rotor turns by FW while angle strokes run (R29, R37), the clock of a completed lock takes over (R340), the
pins are read (R215, R303, R312, R324), the
conversion grid advances (R301), the clock outputs run on (R353) and edges that are due take effect in the endpoints
(R245). -/
def Dev.oneTick (pins : TickPins) (d : Dev) : Dev :=
  let d := d.flushRecords.badOpcodes
  let g := d.ang.cur
  let d := d.onAng fun a => { a with
    tick := a.tick + 1, prevAcc := a.acc, acc := if g.angle then a.acc + BitVec.ofNat 64 g.fw else a.acc }
  let d := ((d.clkMove.notePins pins).noteLocks pins.lock).sdTick pins.sd pins.clk
  let grid : Bool := decide (d.adc.gridTick < d.now ∧ (d.now - d.adc.gridTick) % 200 = 0 ∧ d.now ≤ d.adc.gridEnd)
  let d := if grid then d.sarPoint.acqGrid else d
  d.clkOutTick.sendTime.endpointsTick

/-- The ticks of the next clock cycle (R29, R343). -/
def Dev.tick (pins : TickPins) (d : Dev) : Dev :=
  (upto d.cycle).foldl (fun d _ => d.oneTick pins) d

/-- TICK (R29, R343). -/
def execTick (pins : TickPins) (s : State) : Outcome State Fault Refusal := .next (s.run (Dev.tick pins))

/-- The tick's interval (θ before, θ after], modulo a revolution, contains an angle (R34, R45). -/
def crossed (before after : W64) (angle : Nat) : Bool :=
  let b : W64 := BitVec.ofNat 64 (angle * 2 ^ 32)
  decide (0 < (b - before).toNat ∧ (b - before).toNat ≤ (after - before).toNat)

/-! ### The sample instant (R42) -/

/-- The stroke sampled next, whether the count of R41 begins a machine cycle with it, its planned change of mode, whether
a timebase commit comes into use with it, and its mode. -/
structure NextStroke where
  g : Grid
  mc : Bool
  plan : Option ModePlan
  tb : Bool
  mode : Mode
deriving DecidableEq, Repr

/-- Angle strokes run in a mode (R37–R39): in TRIPPED they go on from angle strokes while the trip action does. -/
def Dev.strokesOf (d : Dev) (m : Mode) (before : Bool) : Bool :=
  angleMode m || (decide (m = .tripped) && before && d.sup.acting)

/-- The stroke after the last one whose place is fixed (R31, R38, R39, R40, R50). After a trip its mode is TRIPPED, which
the next boundary enters (R57, R68). -/
def Dev.planStroke (d : Dev) : NextStroke :=
  let g := d.lastGrid
  let mc := d.mcAt (g.sn + 1)
  let plan := if mc then d.planMode d.lastMode else none
  let mode := if d.sup.tripTick.isSome then .tripped else planned d.lastMode plan
  let entry := d.sup.tripTick.isSome && d.ang.jobs.isEmpty
  let tb : Bool := mc && !g.angle && (match d.ang.cfgDue with
    | some t => decide (t < d.now)
    | none => false)
  let use := tb || d.tbUsed
  let next :=
    if d.strokesOf mode g.angle then (if g.angle then d.after g else d.angleFirst use g)
    else { d.freeAfter use g with mcFirst := mc }
  { g := { next with mcFirst := next.mcFirst || entry }, mc := mc, plan := plan, tb := tb, mode := mode }

/-- The machine quantities of the stroke sampled next (R72): those that the machine level has delivered go into force at a
machine cycle that was planned. Outside the modes of angle strokes ω is 1.0 pu and E is 0 (R68). -/
def Dev.nextMach (d : Dev) (mc : Bool) (mode : Mode) : Mach :=
  let last : Mach := match d.ang.jobs.getLast? with
    | some j => j.mach
    | none => { wFw := d.gfm.omega, e := d.gfm.e, phi := d.gfm.phi }
  let m : Mach := match mc, d.gfm.next with
    | true, some (w, e, phi) => { wFw := w, e := e, phi := phi }
    | _, _ => last
  if angleMode mode then m else { wFw := none, e := 0, phi := m.phi }

/-- Channel c reports done: no move in progress, and none accepted (R539). -/
def Dev.chanDone (d : Dev) (c : Nat) : Bool :=
  decide ((d.prf c).seg = .idle) && d.prof.ops.all fun o => match o with
    | .start k _ _ _ => decide (k ≠ c)
    | _ => true

/-- Swing and impedance are those of the limited sub-states (R67, R71, R148), also in the RESYNC that a ride-through ends
(R60). -/
def Dev.limited (d : Dev) : Bool :=
  d.sup.limitHold || d.gfm.frtEntry.isSome ||
  (decide (d.sup.evalMode = .forming) && (isFrt d.sup.sub || decide (d.sup.sub = .limit)))

/-- What is taken at a sample instant for a stroke (R42, R88, R154, R176–R181, R194, R250). -/
def Dev.newJob (d : Dev) (n : NextStroke) : Job :=
  let mc := n.mc
  let avail := (upto d.armCount).map d.armAvail
  { g := { n.g with thetaA := if n.g.angle then BitVec.ofNat 32 (d.ang.acc.toNat / 2 ^ 32) else n.g.thetaA }
    mach := d.nextMach mc n.mode, planned := mc, plan := n.plan, rebase := n.plan.isSome || n.tb, tb := n.tb, mode := n.mode
    sampleTick := d.now, theta := BitVec.ofNat 32 (d.ang.acc.toNat / 2 ^ 32), conf := d.conf
    pwm := if Domain.stroke ∈ d.regs.due ∧ d.regs.commitTick < d.now then some d.regs.active else none
    held := d.limited, dT := d.hk.dT
    u1 := d.ang.refs.take 3, prof := (upto 8).map fun c => BitVec.ofNat 32 ((d.prf c).pos.toNat / 2 ^ 16)
    profDone := pack ((upto 16).map fun c => (b2n (d.chanDone c), c))
    rank := avail.map d.rankArm, avail := avail, armSum := avail.map d.armVolts, socMean := avail.map d.armSoc
    auxAngle := (upto 4).map d.auxAngle
    excl := d.runSubs d.exclNow, stale := d.runSubs d.neutralNow
    stage1 := false, signs := []
    lateCap := (d.strings.flatMap d.strSubs).filter fun k => (d.subm k).lateCap
    evaluated := false, missed := false, built := false, refs := [], furrows := [], shown := none }

/-- A TRIP_SOFT ramp starts at the first sample instant after its trip (R164). -/
def Dev.startSoft (d : Dev) : Dev :=
  d.onSup fun s => { s with soft := s.soft.map fun r =>
    if r.start.isNone && decide (r.effTick < d.now) then { r with start := some d.now } else r }

/-- Sample instants since the last glean slot are counted for every submodule that has sent one (R176). -/
def Dev.countGaps (d : Dev) : Dev :=
  d.strings.foldl (fun d n =>
    if d.strRun n then (d.strSubs n).foldl (fun d k =>
      if (d.subm k).seen then d.setSubm k { d.subm k with gap := min 65535 ((d.subm k).gap + 1) } else d) d
    else d) d

/-- The sample instant of the next stroke (R42). -/
def Dev.sampleInstant (d : Dev) : Dev :=
  if d.lastGrid.start + d.lastGrid.len > d.now + d.tbTsa then d
  else
    let d := d.takeSample.acqArm
    let d := (d.strings.foldl (fun d n => d.markLate n) d).countGaps.testSubms
    let d := d.startSoft.startSubs.testInstant
    let d := d.onAng fun a => { a with jobs := d.settledJobs }
    let n := d.planStroke
    let j := d.newJob n
    let fresh : Bool := n.g.angle && !d.lastGrid.angle
    let d := (d.auxSample.sampleConverters n.g.sn (n.g.start + n.g.len - d.tbTsa)).acqGrid
    let d := if j.pwm.isSome then
        { d with regs := { d.regs with due := d.regs.due.filter fun x => !decide (x = Domain.stroke) } } else d
    let d := d.onAng fun a => { a with
      jobs := a.jobs ++ [j]
      cfgDue := if n.tb then none else a.cfgDue
      pendFw := if fresh || (n.g.angle && n.mc) then none else a.pendFw }
    d.onGfm fun g => { g with next := if n.mc then none else g.next }

/-- SAMPLE_INSTANT (R42). -/
def execSampleInstant (s : State) : Outcome State Fault Refusal := .next (s.run Dev.sampleInstant)

/-! ### Stroke boundaries (R34–R41) -/

/-- The stroke that a boundary begins, its planning, and what the boundary does to the mode. -/
structure Boundary where
  g : Grid
  job : Option Job
  /-- TRIPPED is entered (R57). -/
  trip : Bool
  /-- The trip action ends here (R39). -/
  ended : Bool
  mode : Mode
  /-- The change of mode that takes effect here (R59, R64). -/
  applies : Option ModePlan
  /-- The pending FW comes into force here though the stroke was not planned with it (R31). -/
  takesFw : Bool
deriving DecidableEq, Repr

/-- The trip action in progress has done what R39 waits for. -/
def Dev.actionOver (d : Dev) : Bool :=
  d.sup.acting && (if d.sup.soft.isSome then d.sup.softEnd else d.sup.blocked && decide (d.sup.blockBy ≤ d.now))

/-- The condition of a planned change still holds at its boundary (R59, R64); an automatic transition has none. -/
def Dev.planHolds (d : Dev) (p : ModePlan) : Bool :=
  !p.host || d.modeAllowed d.gfm.mode p.req.target p.req.tripAck

/-- A trip takes effect in the start tick of stroke `sn`, or has taken effect and not yet entered TRIPPED (R57, R162). -/
def Dev.tripAt (d : Dev) (sn : W32) : Bool :=
  d.sup.tripTick.isSome || (d.controls && d.sup.delayed.any fun t => !afterSn t.sn sn && decide (t.cls ≠ .report))

/-- The planned change of mode that takes effect with stroke `sn`: none where a trip outranks it (R22, R23, R64). -/
def Dev.planOf (d : Dev) (sn : W32) (job : Option Job) : Option ModePlan :=
  if d.tripAt sn then none else (job.bind (·.plan)).filter d.planHolds

/-- The stroke that begins at the end of the one in progress (R34–R39, R57). -/
def Dev.nextBoundary (d : Dev) : Boundary :=
  let old := d.ang.cur
  let job := d.settledJobs.find? fun j => j.g.sn = old.sn + 1
  let trip : Bool := match d.sup.tripTick with
    | some t => decide (t < d.now)
    | none => false
  let plan := d.planOf (old.sn + 1) job
  let mode := if trip then .tripped else planned d.gfm.mode plan
  let ended := decide (mode = .tripped) && d.actionOver
  let angle := d.strokesOf mode old.angle && !ended
  let tb := job.any (·.tb)
  let takesFw := match job with
    | some j => angle && !j.g.angle && j.planned
    | none => false
  let g := match job with
    | some j => if j.g.angle = angle then j.g
      else if angle then d.angleAfter tb old (if takesFw then d.ang.pendFw.getD old.fw else old.fw) else d.freeAfter tb old
    | none => if old.angle = angle then d.after old else if angle then d.angleFirst tb old else d.freeAfter tb old
  let thetaA := match job with
    | some j => if angle then j.theta else old.thetaA
    | none => g.thetaA
  { g := { g with thetaA := thetaA, mcFirst := g.mcFirst || trip }
    job := job, trip := trip, ended := ended, mode := mode, applies := if trip then none else plan, takesFw := takesFw }

/-- The machine quantities of a stroke as it begins (R68, R72): an angle stroke that was planned to be free goes on with
those in force. -/
def Dev.machOf (d : Dev) (b : Boundary) (j : Job) : Mach :=
  if angleMode b.mode && !angleMode j.mode then { wFw := some b.g.fw, e := d.gfm.e, phi := j.mach.phi } else j.mach

/-- The stroke is begun: SN, MCN, revolution count, rotor and the quantities in force (R31, R35, R37, R38, R41, R72). -/
def Dev.install (b : Boundary) (d : Dev) : Dev :=
  let old := d.ang.cur
  let rest := d.ang.jobs.filter fun j => afterSn j.g.sn b.g.sn
  let asPlanned : Bool := !b.trip && (match b.job with
    | some j => j.g.angle == b.g.angle && (j.plan.isNone || b.applies.isSome)
    | none => true)
  let d := d.onAng fun a => { a with
    cur := b.g, jobs := rest
    lateJobs := a.lateJobs ++ (a.jobs.filter fun j => !afterSn j.g.sn b.g.sn && !j.stage1)
    acc := if b.g.angle && !old.angle then b.g.acc0 else a.acc
    prevAcc := if b.g.angle && !old.angle then b.g.acc0 else a.prevAcc
    mcn := if b.g.mcFirst then a.mcn + 1 else a.mcn
    rev := if b.g.angle && decide (b.g.index = 0) then a.rev + 1 else a.rev
    mcBase := if b.trip || b.applies.isSome || b.job.any (·.tb) then b.g.sn else a.mcBase
    pendFw := if b.takesFw then none else a.pendFw
    refs := match b.job with
      | some j => if j.evaluated || j.missed then j.refs else a.refs
      | none => a.refs }
  let d := if asPlanned then d
    else
      let waits : Replan := { base := d.ang.mcBase, mode := b.mode, keep := b.ended, fw := none
                              tbWaits := rest.any (·.tb), tbUsed := b.job.any (·.tb) }
      let (js, x) := d.replan waits b.g rest
      d.onAng fun a => { a with
        jobs := js, pendFw := a.pendFw.or x.fw, cfgDue := if x.tbWaits then some d.regs.commitTick else a.cfgDue }
  let d := match b.job with
    | some j =>
      let x := d.machOf b j
      (d.onGfm fun g => { g with omega := x.wFw, e := x.e, phi := x.phi }).onMod fun m =>
        { m with shown := j.shown.getD m.shown }
    | none => d
  if b.g.mcFirst && d.gfm.mcDue.isNone then d.showCycle else d

/-- Accepted registers whose time comes at a boundary (R50, R51, R83, R222). -/
def Dev.boundaryRegs (b : Boundary) (d : Dev) : Dev :=
  let d := match b.job.bind (·.pwm) with
    | some m => d.pwmStroke m
    | none => d
  let early : Bool := decide (d.regs.commitTick < d.now)
  let d := if b.g.mcFirst && early then d.applyDue .machine else d
  let d := if b.job.any (·.tb) then d.applyDue .timebase else d
  if !b.g.angle || decide (b.g.index = 0) then d.applyDue .index0 else d

/-- The stroke kind changes (R38, R39): the block signal is released where angle strokes begin. -/
def Dev.kindChange (old new : Bool) (d : Dev) : Dev :=
  if old = new then d
  else
    let d := d.event 3 2 0 0 0
    if new then
      let d := d.onSup fun s => { s with blocked := false }
      d.strings.foldl (fun d n => d.setStr n { d.str n with block := false }) d
    else d

/-- OFFSET_ACT reaches OFFSET (R47). -/
def Dev.offsetDone (old new : Grid) (d : Dev) : Dev :=
  if old.angle && new.angle && decide (old.off ≠ new.off ∧ new.off.toNat = d.activeReg Reg.ANG_OFFSET) then d.event 3 1 0 0 0
  else d

/-- The mode changes that are planned for the boundary, or TRIPPED (R57, R64), and the end of a trip action (R39, R512). -/
def Dev.boundaryMode (b : Boundary) (d : Dev) : Dev :=
  let due : Bool := b.job.any fun j => j.planned && d.gfm.req.any fun r => decide (r.tick < j.sampleTick)
  let d := if b.trip then (if due then d.lapse else d).enterTripped b.g.sn
    else match b.applies with
      | some p => (if due && !p.host then d.lapse else d).runPlan p b.g.sn
      | none => if b.job.any (fun j => j.plan.isSome) then (if due then d.lapse else d).keepMode else d
  if b.ended then
    (d.onSup fun s => { s with acting := false, soft := none, softEnd := false }).commitTrip false b.g.sn.toNat
  else d

/-- A stop sequence commands every submodule to BLOCK from this stroke on (R82). -/
def Dev.stopBlock (sn : W32) (d : Dev) : Dev :=
  if d.gfm.mode = .stopping ∧ d.gfm.stopSn = some sn then d.blockAll else d

/-- A stroke boundary (R34–R41, R57): the stroke in progress ends, and the next one begins in this tick. -/
def Dev.beginStroke (d : Dev) : Dev :=
  let old := d.ang.cur
  let refused := d.noLeaseIn old.sn
  let d := d.strings.foldl (Dev.strokeEnded old.sn) d
  let b := d.nextBoundary
  let d := (d.install b).boundaryRegs b
  let d := d.kindChange old.angle b.g.angle
  let d := d.offsetDone old b.g
  let d := (d.boundaryMode b).stopBlock b.g.sn
  let d := d.tripDue b.g.sn
  let d := ((d.gateClose.holdPairs).twinBoundary old.mcFirst refused b.g.sn).beginStep.pwmShow
  d.regrid (d.lastGrid.start + d.lastGrid.len - d.tbTsa)

/-- The boundary that ends the angle stroke in progress lies in this tick's interval (R34). -/
def Dev.atBoundary (d : Dev) : Bool :=
  let g := d.ang.cur
  let ns := max d.nS 1
  crossed d.ang.prevAcc d.ang.acc (BitVec.ofNat 32 (boundary ns ((g.index + 1) % ns)) + g.off).toNat

/-- STROKE_START (R34, R38, R39): an angle stroke ends or begins. -/
def Dev.strokeStart (d : Dev) : Dev :=
  let g := d.ang.cur
  if g.angle then (if d.atBoundary then d.beginStroke else d)
  else if g.start + g.len ≤ d.now ∧ d.nextBoundary.g.angle = true then d.beginStroke
  else d

/-- STROKE_START (R34). -/
def execStrokeStart (s : State) : Outcome State Fault Refusal := .next (s.run Dev.strokeStart)

/-- FREE_STROKE_START (R37): a free stroke follows a free stroke. -/
def Dev.freeStrokeStart (d : Dev) : Dev :=
  let g := d.ang.cur
  if g.angle = false ∧ g.start + g.len ≤ d.now ∧ d.nextBoundary.g.angle = false then d.beginStroke else d

/-- FREE_STROKE_START (R37). -/
def execFreeStrokeStart (s : State) : Outcome State Fault Refusal := .next (s.run Dev.freeStrokeStart)

/-! ### Angle stamps (R45) -/

/-- ANGLE_STAMP_FIRE (R45): the stamp of a trigger unit of TYPE ANGLE lies in this tick's interval. The start tick of the
first angle stroke, in which θ is loaded (R38), has no interval (log 117, DESIGN CHOICE). None fires in the fallback
(R343). -/
def Dev.angleStamp (u : Nat) (d : Dev) : Dev :=
  let x := d.aunit u
  if d.ang.cur.angle && !d.clk.fallback && d.unitOn u && decide (d.fld (Reg.ACQ_UNIT_CFG u) 30 28 = 4) &&
      decide (x.lastRev ≠ some d.ang.rev) && crossed d.ang.prevAcc d.ang.acc (d.cfg (Reg.ACQ_UNIT_LA u)) then
    d.setAunit u { x with pending := true, lastRev := some d.ang.rev }
  else d

/-- ANGLE_STAMP_FIRE (R45). -/
def execAngleStampFire (u : Fin 8) (s : State) : Outcome State Fault Refusal := .next (s.run (Dev.angleStamp u.val))

/-! ### Registers -/

/-- ANG_STATUS. AT_FWMIN and AT_FWMAX follow their meaning also while FW, FWMIN and FWMAX are all 0, where the header's
reset value shows 0 (log 86, DESIGN CHOICE). -/
def Dev.angStatus (d : Dev) : Nat :=
  let g := d.ang.cur
  let at_ (lo hi : Nat) : Bool := decide (g.fw = fwOf d.cfg lo hi)
  pack [(depthOf d.activeReg, 4), (b2n (decide (g.off.toNat ≠ d.cfg Reg.ANG_OFFSET)), 3),
    (b2n (at_ Reg.ANG_FWMAX_L Reg.ANG_FWMAX_H), 2), (b2n (at_ Reg.ANG_FWMIN_L Reg.ANG_FWMIN_H), 1), (b2n g.angle, 0)]

/-- ANG_SNAP (R9). -/
def Dev.angSnap (v : W32) (d : Dev) : Dev :=
  if v.getLsbD 0 then
    let a := d.ang
    let g := a.cur
    d.snapAll [(Reg.ANG_SN_SNAP, g.sn.toNat), (Reg.ANG_REV_SNAP, a.rev.toNat), (Reg.ANG_THETA_SNAP, a.acc.toNat / 2 ^ 32),
      (Reg.ANG_INDEX_SNAP, g.index), (Reg.ANG_FW_ACT_L, g.fw % 2 ^ 32), (Reg.ANG_FW_ACT_H, g.fw / 2 ^ 32),
      (Reg.ANG_OFFSET_ACT, g.off.toNat), (Reg.ANG_MCN_SNAP, a.mcn.toNat), (Reg.ANG_MC_BASE_SNAP, a.mcBase.toNat),
      (Reg.ANG_TICK_L_SNAP, d.tickCount % 2 ^ 32), (Reg.ANG_TICK_H_SNAP, d.tickCount / 2 ^ 32), (Reg.ANG_CLAMP_CNT_SNAP, a.clampCnt)]
  else d

/-- ANG_SNAP (R9). -/
def execAngSnap (v : W32) (s : State) : Outcome State Fault Refusal := .next (s.run (Dev.angSnap v))

end Sys2Proof.Machine
end

