-- ==== Sys2Proof/Machine/Fence.lean ====
section
/-! DEFINITION. The Fence safety partition (R381–R408): its samples, test pulses, latches, output pairs, contactor
tests, parameters with their change log, and its event ring. -/

namespace Sys2Proof.Machine

open Host

def Dev.fenIn (d : Dev) (i : Nat) : FenIn := d.fen.ins.get FenIn.reset i
def Dev.fenOut (d : Dev) (k : Nat) : FenOut := d.fen.outs.get FenOut.reset k
def Dev.setFenIn (i : Nat) (v : FenIn) (d : Dev) : Dev := d.onFen fun f => { f with ins := f.ins.set FenIn.reset i v }
def Dev.setFenOut (k : Nat) (v : FenOut) (d : Dev) : Dev :=
  d.onFen fun f => { f with outs := f.outs.set FenOut.reset k v }

/-- IN_CFG_i and PAIR_CFG_k (R403). -/
def Dev.inCfg (d : Dev) (i : Nat) : Nat := (d.fen.inCfg.get factoryIn i).toNat
def Dev.pairCfg (d : Dev) (k : Nat) : Nat := (d.fen.pairCfg.get 0 k).toNat

def Dev.fenInEn (d : Dev) (i : Nat) : Bool := bitAt (d.inCfg i) 31
def Dev.fenPairEn (d : Dev) (k : Nat) : Bool := bitAt (d.pairCfg k) 31
/-- RESET_MODE = MANUAL (R393). -/
def Dev.fenManual (d : Dev) (k : Nat) : Bool := !bitAt (d.pairCfg k) 30

/-- An input demands (R389). -/
def Dev.inDemand (d : Dev) (i : Nat) : Bool :=
  let x := d.fenIn i
  x.a.demand || x.b.demand || x.disc || x.tpf

/-- A pair's causes of demand other than its MANUAL latch (R392). A Fence in reset or in FENCE_INIT counts as one that
demands (R382; DEDUCED). -/
def Dev.pairCause (d : Dev) (k : Nat) : Bool :=
  let o := d.fenOut k
  decide (d.fen.st ≠ .run) || d.fen.held || decide (d.fen.passcode = 0) || o.hi.fault || o.lo.fault ||
    (upto 8).any fun i => d.fenInEn i && bitAt (d.inCfg i) (20 + k) && d.inDemand i

/-- Both switches of a pair are commanded closed. -/
def pairClosed (o : FenOut) : Bool := o.hi.cmd && o.lo.cmd

/-! ### Registers -/

/-- STATE of the Fence. -/
def fenCode : FenPhase → Nat
  | .init => 0
  | .run => 1
  | .fault => 2

/-- The FENCE_PARAM path is locked (R404). -/
def Dev.fenLocked (d : Dev) : Bool := match d.fen.lockEnd with
  | some t => decide (d.fen.time < t)
  | none => false

/-- Pair k as its causes make it: its MANUAL latch and its demand (R392, R393). -/
def Dev.pairNow (d : Dev) (k : Nat) : FenOut :=
  let o := d.fenOut k
  let latched := o.latched || (d.pairCause k && d.fenManual k)
  { o with latched := latched, demanded := d.pairCause k || latched }

/-- FEN_STATUS with the pairs that `out` gives. -/
def Dev.fenStatusOf (d : Dev) (out : Nat → FenOut) : Nat :=
  pack ([(fenCode d.fen.st, 30), (b2n (decide (d.fen.passcode ≠ 0)), 29), (b2n d.fenLocked, 28),
    (b2n d.fen.sysclkDev, 27)] ++ (upto 4).flatMap fun k =>
      [(b2n (decide ((out k).stage ≠ .none)), 20 + k), (b2n (out k).latched, 8 + k), (b2n (out k).demanded, k)])

/-- FEN_STATUS. -/
def Dev.fenStatus (d : Dev) : Nat := d.fenStatusOf d.fenOut

/-- FEN_INPUT. -/
def Dev.fenInput (d : Dev) : Nat :=
  pack ((upto 8).flatMap fun i =>
    let x := d.fenIn i
    [(b2n x.disc, 24 + i), (b2n (d.inDemand i), 16 + i), (b2n (!x.b.demand), 8 + i), (b2n (!x.a.demand), i)])

/-- FEN_PAIR_STATUS. -/
def Dev.fenPairStatus (d : Dev) : Nat :=
  pack ((upto 4).flatMap fun k =>
    let o := d.fenOut k
    [(b2n o.lo.rb, 12 + k), (b2n o.hi.rb, 8 + k), (b2n o.lo.cmd, 4 + k), (b2n o.hi.cmd, k)])

/-- FEN_FAULT. -/
def Dev.fenFaultWord (d : Dev) : Nat :=
  pack ((d.fen.code, 24) :: (upto 8).map (fun i => (b2n (d.fenIn i).tpf, 16 + i)) ++
    (upto 4).flatMap fun k => [(b2n (d.fenOut k).lo.fault, 8 + k), (b2n (d.fenOut k).hi.fault, k)])

/-- FEN_TEST_RESULT. -/
def Dev.fenResults (d : Dev) : Nat := pack ((upto 4).map fun k => ((d.fenOut k).result, 4 * k))

/-- FEN_AUTH. -/
def Dev.fenAuth (d : Dev) : Nat :=
  let remain := match d.fen.lockEnd with
    | some t => (t - d.fen.time + 19999) / 20000
    | none => 0
  remain * 2 ^ 16 + d.fen.wrong

/-- SHA-384 of the parameter set (R406, R468). -/
def Dev.fenDigest (d : Dev) : List Byte :=
  sha384 (Config.fenceForm (d.fen.passcode :: (upto 8).map (fun i => d.fen.inCfg.get factoryIn i) ++
    (upto 4).map fun k => d.fen.pairCfg.get 0 k))

/-- The whole register image is refreshed in one step (R9). -/
def Dev.fenRefresh (d : Dev) : Dev :=
  let n := (d.fen.imageSeq + 1) % 2 ^ 32
  let g := d.fenDigest
  let vs := [(Reg.FEN_SEQ_HEAD, n), (Reg.FEN_STATUS, d.fenStatus), (Reg.FEN_INPUT, d.fenInput),
    (Reg.FEN_PAIR_STATUS, d.fenPairStatus), (Reg.FEN_FAULT, d.fenFaultWord), (Reg.FEN_TEST_RESULT, d.fenResults),
    (Reg.FEN_LOG_SEQ, d.fen.logSeq), (Reg.FEN_AUTH, d.fenAuth)] ++
    (upto 8).map (fun i => (Reg.FEN_IN_CFG i, d.inCfg i)) ++
    (upto 4).map (fun k => (Reg.FEN_PAIR_CFG k, d.pairCfg k)) ++
    [(Reg.FEN_DIGEST_L, leAt g 0 4), (Reg.FEN_DIGEST_H, leAt g 4 4), (Reg.FEN_SEQ_TAIL, n)]
  d.onFen fun f => { f with
    imageSeq := n, image := vs.foldl (fun m x => m.set 0 x.1 (BitVec.ofNat 32 x.2)) f.image }

/-! ### Events (R408, R442) -/

/-- A Fence event: its descriptor goes to ring 30, or waits in the queue of 256, or is lost. Its FEN_STATUS is that after
the event, the demands it causes or ends included. -/
def Dev.fenEvent (code item detail : Nat) (d : Dev) : Dev :=
  let bs := leBytes 2 0x0601 ++ [0, 0] ++ leBytes 4 0 ++ leBytes 4 d.ang.cur.sn.toNat ++ leBytes 4 d.secOfs ++
    leBytes 1 code ++ leBytes 1 item ++ leBytes 1 detail ++ [0] ++ leBytes 4 (d.fenStatusOf d.pairNow) ++
    leBytes 4 d.fen.logSeq ++ leBytes 4 0
  if d.fen.queue = [] ∧ d.ringRoom 30 ≠ 0 then d.putDesc 30 26 bs
  else if d.fen.queue.length < 256 then d.onFen fun f => { f with queue := f.queue ++ [bs] }
  else (d.onHost fun h => { h with fenLostCnt := satInc h.fenLostCnt }).event 2 5 code 0 0

/-- Up to `n` queued descriptors are written in order while ring 30 has room (R442). -/
def Dev.fenDrain : Nat → Dev → Dev
  | 0, d => d
  | n + 1, d => match d.fen.queue with
    | [] => d
    | bs :: rest =>
      if d.ringRoom 30 = 0 then d
      else Dev.fenDrain n ((d.onFen fun f => { f with queue := rest }).putDesc 30 26 bs)

/-! ### Pairs -/

/-- A switch follows its command; the comparison of R395 starts afresh at a change. -/
def driveSwitch (v : Bool) (x : FenSwitch) : FenSwitch :=
  if x.cmd = v then x else { x with cmd := v, bad := 0 }

/-- The result of a test (R400); a completed test restarts the period, and an aborted one runs again (R398, R399). -/
def Dev.testResult (k res : Nat) (d : Dev) : Dev :=
  let o := d.fenOut k
  let t := d.fen.time
  let done := decide (res = 1 ∨ res = 2)
  ((d.setFenOut k { o with stage := .none, result := res, lastTest := if done then t else o.lastTest,
                           tested := o.tested || done, waiting := decide (res = 3 ∧ k ≠ 0) }).fenEvent 9 k res).irq 61

/-- The commands of a pair's switches: both closed only on an enabled, undemanded pair, but for the switch that a test
holds open (R392, R397, R399). -/
def Dev.drivePair (k : Nat) (d : Dev) : Dev :=
  let o := d.fenOut k
  let on := d.fenPairEn k && !o.demanded
  d.setFenOut k { o with hi := driveSwitch (on && decide (o.stage ≠ .high)) o.hi,
                         lo := driveSwitch (on && decide (o.stage ≠ .low)) o.lo }

/-- Pair k follows its causes (R392–R394, R399): every demand sets the latch of a MANUAL pair, a new one raises source
59 and forces TRIP_HARD with cause 1 on pair 0, and a test of the pair ends as ABORTED. -/
def Dev.updatePair (d : Dev) (k : Nat) : Dev :=
  let o := d.fenOut k
  let dem := (d.pairNow k).demanded
  let d := (d.setFenOut k (d.pairNow k)).drivePair k
  let d := if dem ∧ ¬ o.demanded then (d.fenEvent 1 k 0).irq 59
           else if o.demanded ∧ ¬ dem then d.fenEvent 2 k 0 else d
  let d := if k = 0 ∧ dem ∧ ¬ o.demanded then (d.takeEffect .hard 1 []).holdPairs else d
  if dem ∧ o.stage ≠ .none then d.testResult k 3 else d

/-- Every pair follows its causes, and the breaker's close outputs follow them (R77, R78). -/
def Dev.updatePairs (d : Dev) : Dev := ((upto 4).foldl Dev.updatePair d).gateClose

/-! ### Contactor tests (R397–R401) -/

/-- A pair may be tested: closed and undemanded. -/
def Dev.testable (d : Dev) (k : Nat) : Bool :=
  let o := d.fenOut k
  decide (d.fen.st = .run) && !d.fen.held && !o.demanded && pairClosed o && decide (o.stage = .none)

/-- The high-side switch opens: the test begins. -/
def Dev.testHigh (k : Nat) (d : Dev) : Dev :=
  (d.setFenOut k { d.fenOut k with stage := .high, since := d.fen.time, waiting := false }).drivePair k

/-- A commanded test whose pair cannot be tested is deferred (R398, R401). -/
def Dev.testDefer (k : Nat) (d : Dev) : Dev :=
  d.setFenOut k { d.fenOut k with result := 4, waiting := decide (k ≠ 0) }

/-- The next pairs of a FENCE_TEST, at most `n`, until one is under test (R401); with none left the command
completes. -/
def Dev.nextTest : Nat → Dev → Dev
  | 0, d => d
  | n + 1, d => match d.fen.openTest with
    | none => d
    | some t => match t.left with
      | [] => (d.onFen fun f => { f with openTest := none }).completeAs t.ring t.slot t.tag 0x61
          (if t.pass then stOk else stPartial) 0 []
      | k :: rest =>
        if d.testable k then
          (d.onFen fun f => { f with openTest := some { t with left := rest, cur := k } }).testHigh k
        else Dev.nextTest n ((d.onFen fun f => { f with openTest := some { t with left := rest, pass := false } }).testDefer k)

/-- The FENCE_TEST command goes on once the test of its pair has ended (R401). -/
def Dev.followTest (d : Dev) : Dev := match d.fen.openTest with
  | none => d
  | some t =>
    let o := d.fenOut t.cur
    if o.stage ≠ .none then d
    else Dev.nextTest 5 (d.onFen fun f => { f with openTest := some { t with pass := t.pass && decide (o.result = 1) } })

/-- A read-back fault latches on a switch of pair k, and the pair is demanded (R392, R395). -/
def Dev.latchReadBack (k : Nat) (low : Bool) (d : Dev) : Dev :=
  let o := d.fenOut k
  let d := d.setFenOut k (if low then { o with lo := { o.lo with fault := true } }
                          else { o with hi := { o.hi with fault := true } })
  (d.fenEvent 7 k 0).irq 60

/-- A read-back that has differed from the command for 0.5 ms (R395): the first differing sample and ten more. -/
def switchLate (x : FenSwitch) : Bool := decide (11 ≤ x.bad) && !x.fault

/-- The switches of pair k whose read-back has differed for 0.5 ms latch their faults (R395); a test of the pair ends
as FAIL (R397). -/
def Dev.readBackDue (k : Nat) (d : Dev) : Dev :=
  let o := d.fenOut k
  if !(switchLate o.hi) && !(switchLate o.lo) then d
  else
    let d := if switchLate o.hi then d.latchReadBack k false else d
    let d := if switchLate o.lo then d.latchReadBack k true else d
    let d := if o.stage ≠ .none then d.testResult k 2 else d
    (d.updatePair k).followTest

/-- A pair's read-back as its pins give it: bit k the high side, bit 4 + k the low side. -/
def rbHigh (rb : Byte) (k : Nat) : Bool := rb.getLsbD k
def rbLow (rb : Byte) (k : Nat) : Bool := rb.getLsbD (4 + k)

/-- A switch that a test holds open has been read as open, or has not followed within 1 ms (R397). -/
def Dev.testCheck (k : Nat) (rb : Byte) (d : Dev) : Dev :=
  let o := d.fenOut k
  let overdue := decide (o.since + 20 ≤ d.fen.time)
  match o.stage with
  | .high =>
    if rbHigh rb k = false then (d.setFenOut k { o with stage := .gap, since := d.fen.time }).drivePair k
    else if overdue then ((d.latchReadBack k false).testResult k 2).updatePair k |>.followTest
    else d
  | .low =>
    if rbLow rb k = false then ((d.testResult k 1).drivePair k).followTest
    else if overdue then ((d.latchReadBack k true).testResult k 2).updatePair k |>.followTest
    else d
  | _ => d

/-- Samples of 50 µs in an hour of Fence time. -/
def fenHour : Nat := 72000000

/-- The device is the SECONDARY of a twin pair. -/
def Dev.twinHalf (d : Dev) : Bool := d.flag Reg.TWN_CFG 31 && !d.twn.primary

/-- A periodic test of pair k is due (R398). A SECONDARY counts from half a period after FENCE_INIT. -/
def Dev.testDue (d : Dev) (k : Nat) : Bool :=
  let o := d.fenOut k
  let per := bits (d.pairCfg k) 7 0 * fenHour
  let start := if o.tested then o.lastTest else if d.twinHalf then per / 2 else 0
  o.waiting || (decide (per ≠ 0) && decide (k ≠ 0) && decide (start + per ≤ d.fen.time))

/-- A periodic test that falls due while its pair is open is deferred (R398). -/
def Dev.deferTest (d : Dev) (k : Nat) : Dev :=
  let o := d.fenOut k
  if d.testDue k && !o.waiting && !(pairClosed o) then d.testDefer k else d

/-! ### Inputs -/

/-- Samples since the pulse of the line that feeds a channel began; none for a self-testing source (R387). -/
def Dev.pulseAge (d : Dev) (tp : Nat) : Option Nat :=
  if 4 ≤ tp then none
  else match d.fen.pulses.get none tp with
    | some t => some (d.fen.time - t)
    | none => none

/-- A channel's sample is masked: from the pulse's start to 100 µs after its end (R388). -/
def maskedAt : Option Nat → Bool
  | some a => decide (a < 8)
  | none => false

/-- A channel's new sample (R386, R388): the pulse check of 150 to 300 µs, then the filter unless masked. -/
def sampleChan (filt : Nat) (age : Option Nat) (high : Bool) (x : FenChan) : FenChan :=
  let x := match age with
    | some a =>
      let seen := x.seen || (!high && decide (3 ≤ a ∧ a ≤ 6))
      { x with seen := seen, followed := if a = 6 then seen else x.followed }
    | none => x
  if maskedAt age then x
  else
    let low := if high then 0 else x.low + 1
    let hi := if high then x.high + 1 else 0
    { x with low := low, high := hi,
             demand := if 2 * filt + 1 ≤ low then true else if 2 * filt + 1 ≤ hi then false else x.demand }

/-- A disagreement begins, goes on or ends (R390). It begins only while the channel that is not demanding also reads
high: one that reads low asks for a demand too (DEDUCED from the chapter's example). -/
def disagree (masked : Bool) (x : FenIn) : FenIn :=
  let begins := (x.a.demand && decide (x.b.low = 0)) || (x.b.demand && decide (x.a.low = 0))
  if x.a.demand = x.b.demand then { x with differ := 0 }
  else if masked then x
  else if x.differ ≠ 0 ∨ begins = true then { x with differ := x.differ + 1 } else x

/-- The disagreement of input i has lasted T_DISC: the first sample of it and 20 a millisecond. -/
def Dev.discDue (d : Dev) (i : Nat) : Bool :=
  decide (20 * bits (d.inCfg i) 12 0 + 1 ≤ (d.fenIn i).differ) && !(d.fenIn i).disc

/-- A discrepancy latches (R390). -/
def Dev.latchDisc (d : Dev) (i : Nat) : Dev :=
  if d.discDue i then ((d.setFenIn i { d.fenIn i with disc := true }).fenEvent 4 i 0).irq 60 else d

/-- Input i's new samples (R386–R390), whether it is enabled or not: EN decides only whether it demands its pairs
(R392). -/
def Dev.sampleInput (a b : Byte) (d : Dev) (i : Nat) : Dev :=
  let c := d.inCfg i
  let x := d.fenIn i
  let ageA := d.pulseAge (bits c 30 28)
  let ageB := d.pulseAge (bits c 27 25)
  let filt := bits c 19 13
  let ca := sampleChan filt ageA (a.getLsbD i) x.a
  let cb := sampleChan filt ageB (b.getLsbD i) x.b
  let z := disagree (maskedAt ageA || maskedAt ageB) { x with a := ca, b := cb }
  let lost := (decide (ageA = some 6) && !ca.followed) || (decide (ageB = some 6) && !cb.followed)
  let near := decide (x.differ ≠ 0 ∧ z.differ = 0 ∧ x.differ < 20 * bits c 12 0 + 1)
  let newTpf := lost && !x.tpf
  let d := d.setFenIn i { z with tpf := x.tpf || lost,
                                 near := if near ∧ z.near < 65535 then z.near + 1 else z.near }
  let d := if near then d.fenEvent 5 i 0 else d
  if newTpf then (d.fenEvent 6 i 0).irq 60 else d

/-- Read-back of pair k is sampled and compared with the command (R395). -/
def Dev.sampleReadBack (rb : Byte) (d : Dev) (k : Nat) : Dev :=
  let o := d.fenOut k
  let look (v : Bool) (x : FenSwitch) : FenSwitch := { x with rb := v, bad := if v = x.cmd then 0 else x.bad + 1 }
  d.setFenOut k { o with hi := look (rbHigh rb k) o.hi, lo := look (rbLow rb k) o.lo }

/-- The Fence samples: it has left reset and FENCE_INIT. -/
def Dev.fenRuns (d : Dev) : Bool := decide (d.fen.st ≠ .init) && !d.fen.held

/-- The level of STP_l, off for 300 µs from the start of a pulse (R387); while the Fence is in reset it is on (R382). -/
def Dev.stpOn (d : Dev) (l : Nat) : Bool := match d.fen.pulses.get none l with
  | some t => !d.fenRuns || decide (t + 6 ≤ d.fen.time)
  | none => true

/-! ### Rows -/

/-- FENCE_SAMPLE (R386): channels, tests and read-backs are sampled, every pair follows its causes, and the register
image is refreshed every second sample. -/
def Dev.fenceSample (a b rb : Byte) (d : Dev) : Dev :=
  if !d.fenRuns then d
  else
    let d := (upto 8).foldl Dev.latchDisc d
    let d := (upto 4).foldl (fun d k => d.readBackDue k) d
    let d := (upto 8).foldl (Dev.sampleInput a b) d
    let d := (upto 4).foldl (Dev.sampleReadBack rb) d
    let d := (upto 4).foldl (fun d k => d.testCheck k rb) d
    let d := d.updatePairs.followTest
    let d := (upto 4).foldl Dev.deferTest d
    let d := d.onFen fun f => { f with time := f.time + 1 }
    if d.fen.time % 2 = 0 then d.fenRefresh else d

def execFenceSample (a b rb : Byte) (s : State) : Outcome State Fault Refusal := .next (s.run (Dev.fenceSample a b rb))

/-- TEST_PULSE (R387): line l switches off at 25 × l ms after each 100 ms boundary of Fence time. -/
def Dev.testPulse (l : Nat) (d : Dev) : Dev :=
  if !d.fenRuns || decide (d.fen.time % 2000 ≠ 500 * l) || decide (d.fen.pulses.get none l = some d.fen.time) then d
  else
    let d := d.onFen fun f => { f with pulses := f.pulses.set none l (some f.time) }
    (upto 8).foldl (fun d i =>
      let x := d.fenIn i
      let c := d.inCfg i
      let arm (on : Bool) (y : FenChan) : FenChan := if on then { y with seen := false } else y
      d.setFenIn i { x with a := arm (decide (bits c 30 28 = l)) x.a, b := arm (decide (bits c 27 25 = l)) x.b }) d

def execTestPulse (line : Fin 4) (s : State) : Outcome State Fault Refusal := .next (s.run (Dev.testPulse line.val))

/-- DISCREPANCY (R390). -/
def execDiscrepancy (k : Fin 8) (s : State) : Outcome State Fault Refusal :=
  .next (s.run fun d => if d.fenRuns && d.discDue k.val then (d.latchDisc k.val).updatePairs.followTest else d)

/-- READ_BACK_FAULT (R395). -/
def execReadBackFault (p : Fin 4) (s : State) : Outcome State Fault Refusal :=
  .next (s.run fun d => if d.fenRuns then d.readBackDue p.val else d)

/-- An internal fault (R384): every pair is demanded and the Fence enters FAULT; under code 3 the supply monitor holds
it in reset. -/
def Dev.fenceFault (code : Nat) (d : Dev) : Dev :=
  if code = 0 ∨ 5 < code then d
  else
    let held := d.fen.held || decide (code = 3)
    if d.fen.st = .fault then d.onFen fun f => { f with held := held }
    else
      let d := d.onFen fun f => { f with st := .fault, code := code, held := held }
      (((d.fenEvent 8 0xFF code).irq 60).updatePairs).followTest

/-- FENCE_INTERNAL_FAULT. Codes 4 and 5 arise only in FENCE_INIT. -/
def execFenceInternalFault (code : Byte) (s : State) : Outcome State Fault Refusal :=
  .next (s.run fun d => if code.toNat < 4 then d.fenceFault code.toNat else d)

/-- SYSCLK_DEV (R385): the flag sets and the event is reported; nothing is demanded. -/
def execSysclkDev (s : State) : Outcome State Fault Refusal :=
  .next (s.run fun d =>
    if d.fenRuns then (d.onFen fun f => { f with sysclkDev := true }).fenEvent 13 0xFF 0 else d)

/-- DRIVE_TIMER_EXPIRE (R385): a drive that is not retriggered turns off. -/
def execDriveTimerExpire (p : Fin 4) (low : Bool) (s : State) : Outcome State Fault Refusal :=
  .next (s.run fun d =>
    let o := d.fenOut p.val
    d.setFenOut p.val (if low then { o with lo := driveSwitch false o.lo } else { o with hi := driveSwitch false o.hi }))

/-- CONTACTOR_TEST_START (R397, R398): the high-side switch of a due pair opens and its read-back is checked; the check
goes on at the samples of the next millisecond where it has not followed yet. -/
def execContactorTestStart (p : Fin 4) (rb : Byte) (s : State) : Outcome State Fault Refusal :=
  .next (s.run fun d =>
    if d.testDue p.val && d.testable p.val then (d.testHigh p.val).testCheck p.val rb else d)

/-- CONTACTOR_TEST_LOW_SIDE (R397): 100 ms after the high-side check. -/
def execContactorTestLowSide (p : Fin 4) (rb : Byte) (s : State) : Outcome State Fault Refusal :=
  .next (s.run fun d =>
    let o := d.fenOut p.val
    if o.stage = .gap ∧ o.since + 2000 ≤ d.fen.time then
      ((d.setFenOut p.val { o with stage := .low, since := d.fen.time }).drivePair p.val).testCheck p.val rb
    else d)

/-- An entry of the change log agrees with its CRC-32 (R406). -/
def entryOk (e : List Byte) : Bool := decide (leAt e 28 4 = (crc32 (slice e 0 28)).toNat)

/-- The parameter set of the last valid entry of the change log (R405); the factory's where there is none. -/
def Dev.lastSet (d : Dev) : FenSet := match (d.fen.log.zip d.fen.sets).find? fun x => entryOk x.1 with
  | some x => x.2
  | none => { passcode := 0, inCfg := .empty, pairCfg := .empty }

/-- FENCE_INIT (R393, R402, R405, R450): the volatile state starts anew with the parameter set of the last valid entry of
the log, a lockout restarts at 10 minutes, and every enabled MANUAL pair has its latch set. A parameter set that fails its
CRC is internal fault 4, a failed self-test 5. A FAULT declared before stays (R384). -/
def Dev.fenceStart (crcOk selfOk : Bool) (d : Dev) : Dev :=
  let locked := d.fenLocked
  let p := d.lastSet
  let d := d.onFen fun f => { FenState.reset with
    st := if f.st = .fault then .fault else .run, code := f.code,
    passcode := p.passcode, inCfg := p.inCfg, pairCfg := p.pairCfg, logSeq := f.logSeq, log := f.log, sets := f.sets,
    queue := f.queue, lockEnd := if locked then some 12000000 else none, openTest := f.openTest }
  let d := (upto 4).foldl (fun d k =>
    d.setFenOut k { d.fenOut k with latched := d.fenPairEn k && d.fenManual k }) d
  let d := if crcOk = false then d.fenceFault 4 else if selfOk = false then d.fenceFault 5 else d
  d.updatePairs.followTest

/-- FENCE_SUPPLY_RELEASE (R522): it acts as a power cycle of the Fence: FAULT clears, and the Fence stands in INIT with every
pair demanded until its FENCE_INIT, a row of its own that brings the parameter CRC and the self-test, has run again
(log 126, DESIGN CHOICE). -/
def Dev.supplyRelease (d : Dev) : Dev :=
  if d.fen.held then d.onFen fun f => { f with st := .init, code := 0, held := false } else d

def execFenceSupplyRelease (s : State) : Outcome State Fault Refusal := .next (s.run Dev.supplyRelease)

/-- FENCE_EVENT_QUEUE_DRAIN (R442). -/
def execFenceEventQueueDrain (s : State) : Outcome State Fault Refusal := .next (s.run (Dev.fenDrain 256))

/-- LOCKOUT_END (R404). -/
def execLockoutEnd (s : State) : Outcome State Fault Refusal :=
  .next (s.run fun d => if d.fenLocked then d else d.onFen fun f => { f with lockEnd := none })

/-! ### Commands -/

/-- A value of an IN_CFG parameter is valid (R387, R403). -/
def inCfgValid (v : Nat) : Bool :=
  let a := bits v 30 28
  let b := bits v 27 25
  let f := bits v 19 13
  let t := bits v 12 0
  decide (bits v 24 24 = 0 ∧ a ≤ 4 ∧ b ≤ 4 ∧ 2 ≤ f ∧ f ≤ 50 ∧ 10 ≤ t ∧ t ≤ 5000) &&
    (!bitAt v 31 || (decide (a ≠ b ∨ a = 4) && decide (bits v 23 20 ≠ 0)))

/-- A value of PAIR_CFG_k is valid (R403). -/
def pairCfgValid (k v : Nat) : Bool :=
  decide (bits v 29 8 = 0 ∧ bits v 7 0 ≤ 168 ∧ (k ≠ 0 ∨ bits v 7 0 = 0))

/-- A parameter and its value are known and valid (R403). -/
def paramValid (id v : Nat) : Bool :=
  if id = 0 then decide (v ≠ 0)
  else if 0x10 ≤ id ∧ id ≤ 0x17 then inCfgValid v
  else if 0x20 ≤ id ∧ id ≤ 0x23 then pairCfgValid (id - 0x20) v
  else false

/-- The value of a parameter, as the change log shows it (R406). -/
def Dev.paramOf (d : Dev) (id : Nat) : Nat :=
  if id = 0 then 0 else if id < 0x20 then d.inCfg (id - 0x10) else d.pairCfg (id - 0x20)

/-- The input or pair that a parameter concerns, as byte 17 of an event names it (R408). -/
def paramItem (id : Nat) : Nat := if id = 0 then 0xFF else if id < 0x20 then id - 0x10 else id - 0x20

/-- An accepted change (R405, R406): its log entry is committed, then the parameter applies. A changed input starts
afresh as demanding, and the pairs follow. -/
def Dev.applyParam (id v : Nat) (d : Dev) : Dev :=
  let seq := d.fen.logSeq + 1
  let entry := leBytes 4 seq ++ leBytes 8 d.clk.secs ++ leBytes 4 d.secOfs ++ leBytes 2 id ++ leBytes 2 0 ++
    leBytes 4 (d.paramOf id) ++ leBytes 4 (if id = 0 then 0 else v)
  let d := d.onFen fun f => { f with
    logSeq := seq, log := ((entry ++ leBytes 4 (crc32 entry).toNat) :: f.log).take 1024 }
  let w := BitVec.ofNat 32 v
  let d :=
    if id = 0 then d.onFen fun f => { f with passcode := w }
    else if id < 0x20 then
      let x := d.fenIn (id - 0x10)
      (d.onFen fun f => { f with inCfg := f.inCfg.set factoryIn (id - 0x10) w }).setFenIn (id - 0x10)
        { x with a := FenChan.reset, b := FenChan.reset, differ := 0 }
    else d.onFen fun f => { f with pairCfg := f.pairCfg.set 0 (id - 0x20) w }
  let d := d.onFen fun f => { f with
    sets := ({ passcode := f.passcode, inCfg := f.inCfg, pairCfg := f.pairCfg } :: f.sets).take 1024 }
  ((d.fenEvent 10 (paramItem id) (id % 256)).updatePairs).followTest

/-- A contactor test runs, commanded or periodic. -/
def Dev.testRuns (d : Dev) : Bool :=
  d.fen.openTest.isSome || (upto 4).any fun k => decide ((d.fenOut k).stage ≠ .none)

/-- The mode is OFF or TRIPPED. -/
def Dev.offOrTripped (d : Dev) : Bool := decide (d.gfm.mode = .off ∨ d.gfm.mode = .tripped)

/-- The passcode is wrong (R404): the third in a row locks the path for 10 minutes of Fence time. -/
def Dev.wrongPasscode (d : Dev) : Dev :=
  let d := d.onFen fun f => { f with wrong := f.wrong + 1, authFail := satInc f.authFail }
  let d := (d.fenEvent 11 0xFF 0).irq 62
  if d.fen.wrong < 3 then d
  else (d.onFen fun f => { f with wrong := 0, lockEnd := some (f.time + 12000000) }).fenEvent 12 0xFF 0

/-- FENCE_PARAM by the first matching line of R404. `committed` says whether the log entry commits within 10 ms. -/
def Dev.fenceParam (c : Cmd) (committed : Bool) (d : Dev) : Dev :=
  let id := c.half 24
  let v := c.word 28
  if d.fenLocked then d.complete c 0x60 stLocked
  else if c.word 20 ≠ d.fen.passcode.toNat then d.wrongPasscode.complete c 0x60 stAuth
  else
    let e := d.onFen fun f => { f with wrong := 0 }
    if !paramValid id v then e.complete c 0x60 stBadParam
    else if !d.offOrTripped || d.testRuns then e.complete c 0x60 stRejected
    else if !committed then d.complete c 0x60 stTimeout
    else (e.applyParam id v).complete c 0x60 stOk

def execFenceParam (c : Cmd) (committed : Bool) (s : State) : Outcome State Fault Refusal :=
  s.runCmd 0x60 (inlMask [(20, 0xFFFFFFFF), (24, 0xFFFF), (28, 0xFFFFFFFF)]) c (Dev.fenceParam c committed)

/-- FENCE_TEST by the first matching line of R401. -/
def Dev.fenceTest (c : Cmd) (d : Dev) : Dev :=
  let m := c.byte 20
  let ks := (upto 4).filter fun k => bitAt m k
  if m = 0 then d.complete c 0x61 stBadParam
  else if d.testRuns then d.complete c 0x61 stBusy
  else if (bitAt m 0 && !d.offOrTripped) || ks.any (fun k => !(pairClosed (d.fenOut k))) then d.complete c 0x61 stRejected
  else
    let t : OpenFenceTest :=
      { ring := c.ring.val, slot := c.slot.toNat, tag := c.tag.toNat, left := ks, cur := 0, pass := true }
    Dev.nextTest 5 (d.onFen fun f => { f with openTest := some t })

def execFenceTest (c : Cmd) (s : State) : Outcome State Fault Refusal :=
  s.runCmd 0x61 (inlMask [(20, 0xF)]) c (Dev.fenceTest c)

/-- The latches of inputs that may clear do (R391). -/
def Dev.clearInput (d : Dev) (i : Nat) : Dev :=
  let x := d.fenIn i
  let normal := !x.a.demand && !x.b.demand
  d.setFenIn i { x with disc := x.disc && !normal, tpf := x.tpf && !(normal && x.a.followed && x.b.followed) }

/-- The MANUAL latch of a pair that nothing else demands clears (R393). -/
def Dev.clearLatch (d : Dev) (k : Nat) : Dev :=
  if d.pairCause k then d else d.setFenOut k { d.fenOut k with latched := false }

/-- The read-back fault of a switch clears, and its comparison starts afresh: where the switch still disagrees, the fault
latches again 0.5 ms later (R395). -/
def clearSwitch (x : FenSwitch) : FenSwitch := if x.fault then { x with fault := false, bad := 0 } else x

/-- The read-back faults of a pair clear (R395). -/
def Dev.clearReadBack (d : Dev) (k : Nat) : Dev :=
  let o := d.fenOut k
  d.setFenOut k { o with hi := clearSwitch o.hi, lo := clearSwitch o.lo }

/-- A Fence latch remains (R407). -/
def Dev.anyLatch (d : Dev) : Bool :=
  ((upto 8).any fun i => (d.fenIn i).disc || (d.fenIn i).tpf) ||
    (upto 4).any fun k => (d.fenOut k).latched || (d.fenOut k).hi.fault || (d.fenOut k).lo.fault

/-- FENCE_RESET (R407): the latches of R391, R393 and R395 clear in that order where their conditions permit. -/
def Dev.fenceReset (c : Cmd) (d : Dev) : Dev :=
  let d := if d.fen.held || decide (d.fen.st = .init) then d
    else
      let d := (upto 8).foldl Dev.clearInput d
      let d := (upto 4).foldl Dev.clearLatch d
      let d := (upto 4).foldl Dev.clearReadBack d
      (d.fenEvent 3 0xFF 0).updatePairs
  d.complete c 0x62 (if d.anyLatch then stPartial else stOk)

def execFenceReset (c : Cmd) (s : State) : Outcome State Fault Refusal := s.runCmd 0x62 0 c (Dev.fenceReset c)

end Sys2Proof.Machine
end

