-- ==== Sys2Proof/Machine/Harvest.lean ====
section
/-! DEFINITION. The harvest round (R472–R483): housekeeping channels, die throttling, thermal shutdown, supply warnings
and failures, and derating. A round's operand gives each channel's conversion: a die sensor in 0.1 °C, a supply or
reference in mV, a thermistor as the 12-bit code of its input voltage, of which 4096 stands for 1.2 V (DEDUCED). -/

namespace Sys2Proof.Machine

open Host

def Dev.hkChan (d : Dev) (n : Nat) : HkChan := d.hk.chans.get HkChan.reset n
def Dev.setHkChan (n : Nat) (v : HkChan) (d : Dev) : Dev :=
  d.onHk fun h => { h with chans := h.chans.set HkChan.reset n v }

/-- HK_TH_n of a thermistor channel. -/
def Dev.thEn (d : Dev) (n : Nat) : Bool := d.flag (Reg.HK_TH n) 31

/-- A channel's value as a signed number. -/
def hkInt (v : BitVec 16) : Int := signed 16 v.toNat

/-- The temperature of a thermistor in 0.1 °C (R474): 298.15 K × BETA / (BETA + 298.15 K × ln(r / NOM)) less 273.15 K,
rounded half upwards; none where that has no value. -/
def thermistor (nom beta code : Nat) : Option Int :=
  if code = 0 ∨ 4096 ≤ code ∨ nom = 0 then none
  else
    let one : Int := (2 ^ fixBits : Nat)
    let ln := lnFix (1000 * code) ((4096 - code) * nom)
    let den := 100 * (beta : Int) * one + 29815 * ln
    if den ≤ 0 then none else some (298150 * (beta : Int) * one / den - 2731)

/-- What a round reads on channel n: its value, and whether the reading is a break (R473). -/
def Dev.hkRead (d : Dev) (n : Nat) (code : Option (BitVec 16)) : BitVec 16 × Bool :=
  match code with
  | none => (Config.hkValue d.free, true)
  | some c =>
    if n < 8 then (c, decide (hkInt c < -550 ∨ 1500 < hkInt c))
    else if 19 ≤ n ∧ n < 35 then
      let r := Reg.HK_TH (n - 19)
      match thermistor (d.fld r 29 16) (d.fld r 12 0) c.toNat with
      | none => (Config.hkValue d.free, d.thEn (n - 19))
      | some t =>
        let open_ := decide (98 * 4096 < 100 * c.toNat)
        let short := decide (100 * c.toNat < 2 * 4096)
        (BitVec.ofInt 16 t, d.thEn (n - 19) && (open_ || short || decide (t < -500 ∨ 2000 < t)))
    else (c, false)

/-- A channel's break or recovery (R473): 3 rounds in a row without a break make it valid again. -/
def Dev.hkTake (codes : List (Option (BitVec 16))) (d : Dev) (n : Nat) : Dev :=
  let x := d.hkChan n
  let (v, bad) := d.hkRead n (codes.getD n none)
  let d := { d with free := d.free + 1 }
  if bad then
    let d := d.setHkChan n { value := v, broken := true, valid := 0 }
    if x.broken then d else d.event 16 2 n 0 0
  else if !x.broken then d.setHkChan n { x with value := v }
  else if x.valid + 1 < 3 then d.setHkChan n { x with value := v, valid := x.valid + 1 }
  else (d.setHkChan n { value := v, broken := false, valid := 0 }).event 16 3 n 0 0

/-- T_die of the latest round in 0.1 °C (R475): a broken sensor counts as T_THR + 9 °C. -/
def Dev.tDie (d : Dev) : Int :=
  let thr := d.fld Reg.HK_CFG 15 8
  ((upto 8).map fun n => let x := d.hkChan n; if x.broken then ((10 * (thr + 9) : Nat) : Int) else hkInt x.value).foldl
    (fun a b => if a < b then b else a) (-32768)

/-- The mask of broken die sensors. -/
def Dev.dieBroken (d : Dev) : Nat := pack ((upto 8).map fun n => (b2n (d.hkChan n).broken, n))

/-- The threshold of a throttle step in 0.1 °C. -/
def Dev.stepAt (d : Dev) (n : Nat) : Int := ((10 * (d.fld Reg.HK_CFG 15 8 + 3 * (n - 1)) : Nat) : Int)

/-- The throttle step after a round (R475): it rises at once to the highest step reached, and falls by one. -/
def Dev.nextStep (d : Dev) : Nat :=
  let t := d.tDie
  let reached := maxList 0 ([1, 2, 3, 4].filter fun n => decide (d.stepAt n ≤ t))
  if d.hk.step < reached then reached
  else if d.hk.step ≠ 0 ∧ t < d.stepAt d.hk.step - 20 then d.hk.step - 1
  else d.hk.step

/-- Die throttling (R475). -/
def Dev.throttle (d : Dev) : Dev :=
  let s := d.nextStep
  if s = d.hk.step then d
  else ((d.onHk fun h => { h with step := s }).event 16 0 0xFFFFFFFF 0 0).irq 48

/-- The valid die sensor that reads T_SHUT or more. -/
def Dev.hotSensor (d : Dev) : Option Nat :=
  (upto 8).find? fun n => !(d.hkChan n).broken && decide (1250 ≤ hkInt (d.hkChan n).value)

/-- Thermal shutdown (R477): TRIP_SOFT with cause 17, whose details are the reason, T_die and the broken sensors. -/
def Dev.thermalShutdown (d : Dev) : Dev :=
  let two := decide (2 ≤ ((upto 8).filter fun n => (d.hkChan n).broken).length)
  let go (reason chan : Nat) (d : Dev) : Dev :=
    let d := (d.onHk fun h => { h with halt := true, shutCnt := satInc h.shutCnt }).event 16 1 chan 0 0
    (d.irq 49).takeEffect .soft 17 [reason, unsigned 32 d.tDie, d.dieBroken]
  if d.hk.halt then d
  else match d.hotSensor with
    | some n => go 1 n d
    | none => if two then go 2 0xFFFFFFFF d else d

/-- AUX drive k is enabled in its configuration. -/
def Dev.driveEn (d : Dev) (k : Nat) : Bool := d.flag (Reg.AUX_DRV_CFG k) 31

/-- The warning limits of a supply channel in units of 0.1 mV (R479); none for a channel that is not watched. -/
def Dev.warnLimits (d : Dev) (n : Nat) : Option (Nat × Nat) :=
  if n = 8 then some (17000, 36000)
  else if n = 9 then some (7275, 7725)
  else if n = 10 then some (11400, 12600)
  else if n = 11 then some (8730, 9270)
  else if 12 ≤ n ∧ n < 18 then (if d.flag Reg.HK_SUP_USE (n - 12) then some (16200, 37800) else none)
  else if n = 18 then (if (upto 4).any fun k => d.driveEn k then some (80000, 150000) else none)
  else none

/-- A supply's warning in the first round of an excursion (R479). A round whose conversion is missing has no value to
compare, and an excursion goes on over it. -/
def Dev.supplyWarn (codes : List (Option (BitVec 16))) (d : Dev) (n : Nat) : Dev :=
  let was := bitAt d.hk.warn n
  let out := match d.warnLimits n, codes.getD n none with
    | some (lo, hi), some v => decide (10 * v.toNat < lo ∨ hi < 10 * v.toNat)
    | some _, none => was
    | none, _ => false
  let d := d.onHk fun h => { h with warn := if out = was then h.warn else if out then h.warn + 2 ^ n else h.warn - 2 ^ n }
  if out ∧ ¬ was then (d.event 16 5 n 0 0).irq 57 else d

/-- Point p of a curve: T in 0.1 °C and S in %. -/
def Dev.curvePoint (d : Dev) (c p : Nat) : Int × Int :=
  let r := if c = 0 then Reg.HK_CURVE_0 p else Reg.HK_CURVE_1 p
  (signed 16 (d.fld r 31 16), (d.fld r 7 0 : Nat))

/-- The scale of a curve at a temperature in 0.1 % (R481), from segment p on. -/
def Dev.curveFrom (d : Dev) (c : Nat) (t : Int) : Nat → Nat → Int
  | 0, _ => 10 * (d.curvePoint c 7).2
  | fuel + 1, p =>
    let (t0, s0) := d.curvePoint c p
    let (t1, s1) := d.curvePoint c (p + 1)
    if t ≤ t0 then 10 * s0
    else if t < t1 then rdiv (10 * (s0 * (t1 - t) + s1 * (t - t0))) (t1 - t0)
    else d.curveFrom c t fuel (p + 1)

/-- The scale of an enabled thermistor (R481); a broken one takes S_7. -/
def Dev.thScale (d : Dev) (n : Nat) : Nat :=
  let x := d.hkChan (19 + n)
  let c := b2n (d.flag (Reg.HK_TH n) 30)
  (if x.broken then 10 * (d.curvePoint c 7).2 else d.curveFrom c (hkInt x.value) 7 0).toNat

/-- DERATE (R482). -/
def Dev.derateEvent (chan : Nat) (d : Dev) : Dev := (d.event 16 4 chan 0 0).irq 50

/-- d_T (R481, R482): the lowest scale over the enabled thermistors. `broke` are the channels of those that became
broken. -/
def Dev.derate (broke : List Nat) (d : Dev) : Dev :=
  let new := minList 1000 (((upto 16).filter d.thEn).map d.thScale)
  let new := if new < 1000 then new else 1000
  let old := d.hk.dT
  let d := d.onHk fun h => { h with dT := new }
  if broke ≠ [] then broke.foldl (fun d n => d.derateEvent n) d
  else if (old = 1000 ∧ new < 1000) ∨ (old < 1000 ∧ new = 1000) then d.derateEvent 0xFFFFFFFF
  else d

/-- One round (R472). Staged HK values apply from it (R483). -/
def Dev.harvestRound (codes : List (Option (BitVec 16))) (d : Dev) : Dev :=
  let start := d.hk.lastRound + d.fld Reg.HK_CFG 7 0 * msTicks
  if d.now < start then d
  else
    let d := (d.applyDue .round).onHk fun h => { h with lastRound := start, rounds := h.rounds + 1 }
    let before := (upto 16).filter fun n => (d.hkChan (19 + n)).broken
    let d := (upto 64).foldl (Dev.hkTake codes) d
    let broke := (upto 16).filter fun n => d.thEn n && (d.hkChan (19 + n)).broken && !(before.contains n)
    let d := d.throttle.thermalShutdown
    let d := ((upto 11).map (8 + ·)).foldl (Dev.supplyWarn codes) d
    d.derate (broke.map (19 + ·))

/-- HARVEST_ROUND. -/
def execHarvestRound (codes : List (Option (BitVec 16))) (s : State) : Outcome State Fault Refusal :=
  .next (s.run (Dev.harvestRound codes))

/-- SUPPLY_FAILURE (R480): VCORE, VAUX or VSER, HK channels 9 to 11. -/
def execSupplyFailure (ch : Fin 64) (s : State) : Outcome State Fault Refusal :=
  .next (s.run fun d =>
    if 9 ≤ ch.val ∧ ch.val ≤ 11 then (d.event 16 6 ch.val 0 0).resignOr 3 (Dev.takeEffect .hard 18 []) else d)

/-- THERMAL_RESUME (R478). -/
def Dev.thermalResume (c : Cmd) (d : Dev) : Dev :=
  if !d.hk.halt || decide (d.dieBroken ≠ 0) || decide (1000 ≤ d.tDie) then d.complete c 0xB0 stRejected
  else (d.onHk fun h => { h with halt := false }).complete c 0xB0 stOk

def execThermalResume (c : Cmd) (s : State) : Outcome State Fault Refusal := s.runCmd 0xB0 0 c (Dev.thermalResume c)

/-- HK_STATUS. -/
def Dev.hkStatus (d : Dev) : Nat :=
  pack ([(d.hk.step, 0), (b2n d.hk.halt, 4), (d.dieBroken, 8)] ++
    (upto 16).map fun n => (b2n (d.hkChan (19 + n)).broken, 16 + n))

/-- The values of HK_SNAP, all of the latest round. -/
def Dev.hkSnap (d : Dev) : Dev :=
  (d.snapAll [(Reg.HK_DT_SNAP, d.hk.dT), (Reg.HK_SHUT_CNT_SNAP, d.hk.shutCnt)]).snapAll
    ((upto 64).map fun n => let x := d.hkChan n; (Reg.HK_VAL_SNAP n, b2n x.broken * 2 ^ 31 + x.value.toNat))

/-- HK_SNAP. -/
def execHkSnap (v : W32) (s : State) : Outcome State Fault Refusal :=
  .next (s.run fun d => if v.getLsbD 0 then d.hkSnap else d)

end Sys2Proof.Machine
end

