-- ==== Sys2Proof/Machine/Larder.lean ====
section
/-! DEFINITION. The Larder (R506–R517): the boot scan, finished snapshots, power failure, and the commands that read and
mark it. -/

namespace Sys2Proof.Machine

open Host

/-- Bytes 0–59 of a record agree with its CRC (R509). -/
def recordOk (bs : List Byte) : Bool := decide (leAt bs 60 4 = (crc32 (slice bs 0 60)).toNat)

/-- The record of a sequence, where it is retained (R508). -/
def Dev.lrdRecord (d : Dev) (q : Nat) : Option (List Byte) :=
  let bs := d.lrd.lines.get [] ((q - 1) % recordLines)
  if q ≠ 0 ∧ leAt bs 0 4 = q ∧ recordOk bs = true then some bs else none

/-- The boot scan (R508): the newest valid sequence, and the lines that fail their CRC. A line that has never been
written fails it. Records that came due before the scan follow it. -/
def Dev.lrdScan (d : Dev) : Dev :=
  let good := (d.lrd.lines.cells.map (·.2)).filter recordOk
  let bad := recordLines - good.length
  let d := d.onLrd fun l => { l with head := maxList 0 (good.map fun bs => leAt bs 0 4), badCnt := bad }
  let d := if bad = 0 then d else d.event 18 3 0 0 0
  d.writeWaiting

/-- SNAPSHOT_COMPLETE (R514); while writes are halted no snapshot is written (R515). -/
def execSnapshotComplete (s : State) : Outcome State Fault Refusal :=
  .next (s.run fun d => if d.lrd.halt then d else d.finishSnapshot)

/-- A snapshot that a trip began while Larder writes were halted starts now with the erasure of its slot's header. -/
def Dev.resumeSnapshot (d : Dev) : Dev := match d.lrd.openSnap with
  | some (k, _) => d.onLrd fun l => { l with slots := l.slots.set SnapSlot.reset k SnapSlot.reset }
  | none => d

/-- The due records up to a type are written now; the others of the tick stay due. -/
def Dev.flushUpTo (typ : Nat) (d : Dev) : Dev :=
  let late := d.lrd.due.filter fun x => decide (typ < recordType x.2)
  let d := (d.onLrd fun l => { l with due := l.due.filter fun x => decide (recordType x.2 ≤ typ) }).flushRecords
  d.onLrd fun l => { l with due := late }

/-- POWER_FAIL_WARNING (R515): PFW_L has been low for 1 µs. Of the records due in the same tick those of a type up to
POWER_FAIL's precede it, and the others find the writes halted. -/
def Dev.powerFail (d : Dev) : Dev :=
  if d.lrd.pfw then d
  else
    let d := (((d.onLrd fun l => { l with pfw := true }).event 18 2 0 0 0).irq 58).finishSnapshot
    let seq := match d.lrd.openTrip with
      | some r => r.seq
      | none => 0
    let d := ((d.commitTrip true 0).record 6 0 (leBytes 4 seq)).flushUpTo 6
    d.onLrd fun l => { l with halt := true }

def execPowerFailWarning (s : State) : Outcome State Fault Refusal := .next (s.run Dev.powerFail)

/-- LARDER_RESUME (R515): PFW_L has stayed high for 10 ms; what came due meanwhile is written in order. -/
def Dev.lrdResume (d : Dev) : Dev :=
  if d.lrd.pfw then ((d.onLrd fun l => { l with pfw := false, halt := false }).resumeSnapshot).writeWaiting
  else d

def execLarderResume (s : State) : Outcome State Fault Refusal := .next (s.run Dev.lrdResume)

/-! ### Reading (R427, R516) -/

/-- A row of a snapshot slot: word `c` of row `r`, counted from the oldest of 256; the newest rows are the valid ones. -/
def slotWord (s : SnapSlot) (r c : Nat) : Nat :=
  let first := 256 - s.rows.length
  if r < first then (Config.emptyRow s.seq (32 * r + c)).toNat else ((s.rows.getD (r - first) []).getD c 0).toNat

/-- The 64 KiB of a snapshot slot. -/
def slotImage (s : SnapSlot) : List Byte :=
  let head := leBytes 4 s.seq ++ leBytes 4 s.sn.toNat ++ leBytes 2 s.rows.length ++
    slice (s.sigs.flatMap (leBytes 2)) 0 64 ++ List.replicate 46 0
  let rows := (upto 256).flatMap fun r => (upto 32).flatMap fun c => leBytes 4 (slotWord s r c)
  slice (head ++ leBytes 4 (crc32 (head ++ rows)).toNat) 0 0x1000 ++ rows ++ List.replicate 0x7000 0

/-- An item of LARDER_READ, where it is retained. -/
def Dev.lrdItem (d : Dev) (kind i : Nat) : Option (List Byte) :=
  match kind with
  | 0 => d.lrdRecord i
  | 1 => let s := d.lrd.slots.get SnapSlot.reset i
         if s.valid then some (slotImage s) else none
  | _ => d.fen.log.find? fun e => decide (leAt e 0 4 = i ∧ leAt e 28 4 = (crc32 (slice e 0 28)).toNat)

/-- The size of an item, and how many a command may ask for. -/
def itemSize : Nat → Nat
  | 0 => 64
  | 1 => 65536
  | _ => 32
def itemLimit : Nat → Nat
  | 0 => 16384
  | 1 => 1
  | _ => 1024

/-- Runs of consecutive retained items, each of at most `cap` items, as (first index, items). -/
def itemRuns (cap : Nat) (get : Nat → Option (List Byte)) : Nat → Nat → Option (Nat × List (List Byte)) →
    List (Nat × List (List Byte))
  | 0, _, cur => cur.toList
  | n + 1, i, cur => match get i, cur with
    | none, _ => cur.toList ++ itemRuns cap get n (i + 1) none
    | some x, none => itemRuns cap get n (i + 1) (some (i, [x]))
    | some x, some (f, xs) =>
      if xs.length < cap then itemRuns cap get n (i + 1) (some (f, xs ++ [x]))
      else (f, xs) :: itemRuns cap get n (i + 1) (some (i, [x]))

/-- A Larder readout descriptor (R427). -/
def readDesc (last : Bool) (tag addr len first count kind : Nat) : List Byte :=
  leBytes 2 0x0701 ++ leBytes 1 (b2n last) ++ [0] ++ leBytes 2 tag ++ leBytes 2 0 ++ leBytes 8 addr ++ leBytes 4 len ++
    leBytes 4 first ++ leBytes 4 count ++ leBytes 1 kind ++ leBytes 3 0

/-- The runs of a read: item i stands at its place in the buffer, counted from FIRST (DESIGN CHOICE). -/
def Dev.readRuns (d : Dev) (kind first count tag addr : Nat) : List (Nat × List Byte × List Byte) :=
  let size := itemSize kind
  let rs := itemRuns (65536 / size) (d.lrdItem kind) count first none
  rs.zipIdx.map fun (r, k) =>
    let data := r.2.flatten
    let a := addr + (r.1 - first) * size
    (a, data, readDesc (decide (k + 1 = rs.length)) tag a data.length r.1 r.2.length kind)

/-- Reads in progress go on while their rings have room, at most `n` runs (R439), and complete after their last
descriptor. -/
def Dev.readProgress : Nat → Dev → Dev
  | 0, d => d
  | n + 1, d =>
    match d.lrd.reads.find? fun r => decide (r.runs = [] ∨ d.ringRoom (28 + r.target) ≠ 0) with
    | none => d
    | some r =>
      let others := d.lrd.reads.filter fun x => !decide (x.ring = r.ring ∧ x.slot = r.slot)
      match r.runs with
      | [] => Dev.readProgress n
          ((d.onLrd fun l => { l with reads := others }).completeAs r.ring r.slot r.tag 0x70 r.status r.bytes [])
      | (a, data, desc) :: rest =>
        Dev.readProgress n (((d.onLrd fun l => { l with reads := others ++ [{ r with runs := rest }] }).post a data).putDesc
          (28 + r.target) (24 + r.target) desc)

/-- The rounds that every run of every read in progress can need. -/
def Dev.readFuel (d : Dev) : Nat := (d.lrd.reads.map fun r => r.runs.length + 1).foldl (· + ·) 0

/-- LARDER_READ (R516). -/
def Dev.larderRead (c : Cmd) (d : Dev) : Dev :=
  let kind := c.byte 20
  let first := c.word 24
  let count := c.word 28
  let len := c.len.toNat
  let bad : Bool := decide (3 < kind ∨ count = 0) ||
    (if kind = 3 then decide (first % 4 ≠ 0 ∨ count % 4 ≠ 0 ∨ 1572864 < first + count ∨ len < count)
     else decide (itemLimit kind < count ∨ len < count * itemSize kind) || (kind = 1 && decide (15 < first)))
  if bad then d.complete c 0x70 stBadParam
  else if kind = 3 then
    (d.post c.addr.toNat ((upto count).map fun i => d.lrd.user.get 0 (first + i))).completeRes c 0x70 stOk count []
  else
    let runs := d.readRuns kind first count c.tag.toNat c.addr.toNat
    let bytes := (runs.map fun r => r.2.1.length).foldl (· + ·) 0
    let r : OpenRead := { ring := c.ring.val, slot := c.slot.toNat, tag := c.tag.toNat, target := bits (c.byte 21) 0 0,
                          runs := runs, bytes := bytes,
                          status := if bytes = count * itemSize kind then stOk else stPartial }
    let d := d.onLrd fun l => { l with reads := l.reads ++ [r] }
    Dev.readProgress d.readFuel d

def execLarderRead (c : Cmd) (s : State) : Outcome State Fault Refusal :=
  s.runCmd 0x70 (inlMask [(20, 0x1FF), (24, 0xFFFFFFFF), (28, 0xFFFFFFFF)]) c (Dev.larderRead c)

/-- The inline bits that LARDER_MARK names for an action (R517). -/
def markMask : Nat → Nat
  | 0 => inlMask [(20, 0xFF), (24, 0xFFFFFFFF), (28, 0xFFFFFFFF)]
  | 1 => inlMask [(20, 0xFFFF)]
  | 2 => inlMask [(20, 0xFFFF)]
  | _ => inlMask [(20, 0xFF), (24, 0xFFFFFFFF)]

/-- Slots pinned. -/
def Dev.pins (d : Dev) : Nat := ((upto 16).filter fun k => bitAt d.lrd.pinned k).length

/-- LARDER_MARK (R517). Actions that write the memory other than as records wait while Larder writes are halted. -/
def Dev.larderMark (c : Cmd) (d : Dev) : Dev :=
  let a := c.byte 20
  let k := c.byte 21
  let ofs := c.word 24
  let len := c.len.toNat
  if 3 < a ∨ c.reservedSet (markMask a) = true then d.complete c 0x71 stBadParam
  else if a = 0 then
    (d.record 8 0 (leBytes 4 ofs ++ leBytes 4 (c.word 28))).complete c 0x71 stOk
  else if a < 3 ∧ 15 < k then d.complete c 0x71 stBadParam
  else if a = 3 ∧ (ofs % 4 ≠ 0 ∨ len % 4 ≠ 0 ∨ 65536 < len ∨ 1572864 < ofs + len) then d.complete c 0x71 stBadParam
  else if d.lrd.halt then d
  else if a = 1 then
    if 8 ≤ d.pins then d.complete c 0x71 stRejected
    else (d.onLrd fun l => { l with pinned := l.pinned ||| 2 ^ k }).complete c 0x71 stOk
  else if a = 2 then
    (d.onLrd fun l => { l with pinned := if bitAt l.pinned k then l.pinned - 2 ^ k else l.pinned }).complete c 0x71 stOk
  else d.withBuffer 0x71 c fun d =>
    (d.onLrd fun l => { l with user := writeBytes l.user ofs c.data }).completeRes c 0x71 stOk len []

def execLarderMark (c : Cmd) (s : State) : Outcome State Fault Refusal :=
  s.runCmd 0x71 (2 ^ 96 - 1) c (Dev.larderMark c)

/-! ### Registers -/

/-- The newest sequence that is retained, at most `n` below `q`. -/
def Dev.newestSeq (d : Dev) : Nat → Nat → Nat
  | 0, _ => 0
  | n + 1, q => if q = 0 ∨ (d.lrdRecord q).isSome = true then q else d.newestSeq n (q - 1)

/-- The oldest sequence that is retained. -/
def Dev.oldestSeq (d : Dev) : Nat :=
  let qs := (d.lrd.lines.cells.map fun c => leAt c.2 0 4).filter fun q => (d.lrdRecord q).isSome
  minList 0 qs

/-- LRD_STATUS. OPEN is the snapshot being written: none is while writes are halted (R515). -/
def Dev.lrdStatus (d : Dev) : Nat :=
  pack [(d.lrd.pinned, 16), (nextUnpinned d.lrd.pinned 16 d.lrd.nextSlot, 8), (b2n d.lrd.halt, 2),
    (b2n (d.lrd.openSnap.isSome && !d.lrd.halt), 1), (b2n d.lrd.pfw, 0)]

/-- LRD_SNAP: head, tail, bad lines and the peeked record in one tick. -/
def Dev.lrdSnap (d : Dev) : Dev :=
  let bs := (d.lrdRecord (d.cfg Reg.LRD_PEEK_SEQ)).getD []
  (d.snapAll [(Reg.LRD_HEAD_SNAP, d.newestSeq (3 + d.lrd.waiting.length) d.lrd.head), (Reg.LRD_TAIL_SNAP, d.oldestSeq),
    (Reg.LRD_BAD_CNT_SNAP, d.lrd.badCnt)]).snapAll ((upto 16).map fun i => (Reg.LRD_PEEK_SNAP i, leAt bs (4 * i) 4))

def execLrdSnap (v : W32) (s : State) : Outcome State Fault Refusal :=
  .next (s.run fun d => if v.getLsbD 0 then d.lrdSnap else d)

end Sys2Proof.Machine
end

