-- ==== Sys2Proof/Machine/MemoryErrors.lean ====
section
/-! DEFINITION. Memory errors (R529–R531): the corrected errors of a window, and what an uncorrectable error does by
its region. The row's operand says what the word held, for the spec gives no layout of the memories. -/

namespace Sys2Proof.Machine

open Host

/-- SYS_ECC_LAST: the latest error. -/
def eccWord (region addr : Nat) (ue : Bool) : Nat := region * 2 ^ 28 + b2n ue * 2 ^ 27 + addr

/-- CE_THRESHOLD (R530): `n` further corrected errors are counted, the latest at `addr` of a region. The first that makes
the window's count reach THRESHOLD sets CE_THRESH. Windows follow one another from the start of the tick count
(DEDUCED). -/
def Dev.corrected (n region addr : Nat) (d : Dev) : Dev :=
  let w := d.now / (d.fld Reg.SYS_ECC_CFG 15 0 * secTicks)
  let fresh := decide (w ≠ d.sys.window)
  let cnt := (if fresh then 0 else d.sys.windowCnt) + n
  let done := !fresh && d.sys.windowSet
  let hit := !done && decide (d.fld Reg.SYS_ECC_CFG 31 16 ≤ cnt)
  let d := d.onSys fun s => { s with
    ceCnt := satAdd s.ceCnt n, eccLast := if n = 0 then s.eccLast else eccWord region addr false,
    window := w, windowCnt := cnt, windowSet := done || hit }
  if hit then (d.event 0 0 region addr 0).irq 55 else d

def execCeThreshold (n : BitVec 16) (region : Fin 7) (addr : BitVec 24) (s : State) : Outcome State Fault Refusal :=
  .next (s.run (Dev.corrected n.toNat region.val addr.toNat))

/-- Regions 0 and 1: an ACTIVE device resigns with cause 1 or trips, a SOLO device trips (R368, R531). -/
def Dev.controlPathError (d : Dev) : Dev := match d.twn.st with
  | .active => d.resignOr 1 (Dev.takeEffect .hard 19 [])
  | .solo => d.takeEffect .hard 19 []
  | _ => d

/-- Region 2: the points of the word, unused ones too, become INVALID with flags cleared, and are delivered. Aggregates follow from the
records, so their rebuilding needs no act. -/
def Dev.losePoints (ids : List Nat) (d : Dev) : Dev :=
  Dev.deliverAll (ids.foldl (fun x id =>
    let d := x.1
    let old := d.point id
    if recQual old = qInvalid ∧ recFlags old = 0 then x
    else
      let d := d.storeRec id (mkRec (recValue old) qInvalid 0 (recAge old))
      (d, x.2 ++ d.changeOf id old)) (d, []))

/-- Region 3: a record is dropped and counted (R329). A record that was being taken leaves its set filling again. -/
def Dev.loseRecord (k i : Nat) (d : Dev) : Dev :=
  let x := d.aset k
  let drop (v : AcqSet) (d : Dev) : Dev :=
    (d.setAset k { v with dropCnt := satInc v.dropCnt, dropSince := v.dropSince + 1 }).event 13 2 k 0 0
  if i < x.closed.length then drop { x with closed := x.closed.eraseIdx i } d
  else if x.cur.isSome then (drop { x with cur := none } d).startFilling k
  else d

/-- Region 4: the descriptor of a completion is discarded; it is counted and sets CPL_LOST. The command itself goes on, and
nothing is written when it completes. -/
def Dev.loseCompletion (ring slot : Nat) (d : Dev) : Dev :=
  let hit (f : InFlight) : Bool := decide (f.ring = ring ∧ f.slot = slot) && !f.dropped
  match d.host.inflight.find? hit with
  | none => d
  | some f =>
    (d.onHost fun h => { h with
      inflight := h.inflight.map fun g => if g = f then { g with dropped := true } else g,
      cplLostCnt := satInc h.cplLostCnt }).event 2 4 ring f.tag 0

/-- The outcome of an uncorrectable error by its region (R531). -/
def Dev.regionOutcome (region : Nat) (hit : UeHit) (d : Dev) : Dev :=
  match region, hit with
  | 0, _ => d.controlPathError
  | 1, _ => d.controlPathError
  | 2, .points ids => d.losePoints (ids.map (·.toNat))
  | 3, .record k i => d.loseRecord k.val i.val
  | 4, .fence i => d.onFen fun f => { f with queue := f.queue.eraseIdx i.val }
  | 4, .completion r c => d.loseCompletion r.val c.toNat
  | 5, _ => d.onLrd fun l => { l with tail := [] }
  | 6, _ => d.onTwn fun t => { t with pktErrCnt := satInc t.pktErrCnt }
  | _, _ => d

/-- UNCORRECTABLE_ERROR (R531). -/
def Dev.uncorrectable (region addr : Nat) (hit : UeHit) (d : Dev) : Dev :=
  let d := d.onSys fun s => { s with ueCnt := satInc s.ueCnt, eccLast := eccWord region addr true }
  ((d.event 0 1 region addr 0).irq 56).regionOutcome region hit

def execUncorrectableError (region : Fin 7) (addr : BitVec 24) (hit : UeHit) (s : State) : Outcome State Fault Refusal :=
  .next (s.run (Dev.uncorrectable region.val addr.toNat hit))

/-- SYS_SNAP: the error counters of one tick. -/
def Dev.sysSnap (d : Dev) : Dev :=
  d.snapAll [(Reg.SYS_CE_CNT_SNAP, d.sys.ceCnt), (Reg.SYS_UE_CNT_SNAP, d.sys.ueCnt), (Reg.SYS_ECC_LAST_SNAP, d.sys.eccLast)]

def execSysSnap (v : W32) (s : State) : Outcome State Fault Refusal :=
  .next (s.run fun d => if v.getLsbD 0 then d.sysSnap else d)

end Sys2Proof.Machine
end

