-- ==== Sys2Proof/Machine/Registers.lean ====
section
/-! DEFINITION. What a register reads (R5, R9) and the staging of a write (R49): the live status registers of every
block, gathered in one place. -/

namespace Sys2Proof.Machine

/-- HOST_LINK. -/
def Dev.hostLink (d : Dev) : Nat :=
  pack [(b2n d.ready, 8), (d.host.width, 4), (d.host.speed, 1), (b2n d.host.linkUp, 0)]

/-- HOST_RING_STATUS of a ring. -/
def Dev.ringStatus (d : Dev) (r : Nat) : Nat := pack [((d.ring r).prod, 16), ((d.ring r).cons, 0)]

/-- PROF_EVENT_SUM: channels with a bit of PROF_EVENT set. -/
def Dev.profEventSum (d : Dev) : Nat :=
  pack ((upto 16).map fun c => (b2n (decide (d.w1c (Reg.PROF_EVENT c) ≠ 0)), c))

/-- SUP_TRIP_CAUSE (R166). -/
def Dev.tripCauseWord (d : Dev) : Nat :=
  pack [(d.sup.causeCount, 24), (d.sup.causeLast, 16), (d.sup.causeClass, 8), (d.sup.causeFirst, 0)]

/-- ACQ_STATUS (R326). -/
def Dev.acqStatus (d : Dev) : Nat := pack ((upto 8).map fun k => (phaseCode (d.aset k).phase, 3 * k))

/-- A key slot is programmed (R457), or revoked. -/
def Dev.slotProg (d : Dev) (k : Nat) : Bool := decide (d.sec.keys.get 0 k ≠ 0)
def Dev.slotRevoked (d : Dev) (k : Nat) : Bool := bitAt d.sec.revoked k

/-- The device is PROVISIONING (R457). -/
def Dev.provisioning (d : Dev) : Bool := (upto 4).all fun k => !d.slotProg k && !d.slotRevoked k

/-- SEC_BOOT, SEC_KEYS and SEC_SLOTS. -/
def Dev.secBoot (d : Dev) : Nat := pack [(d.sec.err, 16), (d.sec.slot, 8), (d.sec.src, 4), (d.sec.phase, 0)]
def Dev.secKeys (d : Dev) : Nat := pack [(b2n d.provisioning, 16), (d.sec.arb, 2), (d.sec.debug, 0)]
def Dev.secSlots (d : Dev) : Nat :=
  pack (((upto 4).map fun k => (b2n (d.slotRevoked k), 4 + k)) ++ (upto 4).map fun k => (b2n (d.slotProg k), k))

/-- The arrays of live registers: offset of the first, number, stride, and the value of each. -/
def Dev.liveArrays (d : Dev) : List (Nat × Nat × Nat × (Nat → Nat)) :=
  [(Reg.HOST_RING_STATUS 0, 32, 0x10, d.ringStatus),
   (Reg.PROF_TARGET 0, 16, 0x40, fun c => (d.prf c).target.toNat),
   (Reg.PROF_STATUS 0, 16, 0x40, d.profStatus),
   (Reg.ADC_CAL_OFS 0, 56, 8, fun e => (d.calib e).ofs.toNat),
   (Reg.ADC_CAL_GAIN 0, 56, 8, fun e => (d.calib e).gain.toNat),
   (Reg.PEN_STR_STATUS 0, 12, 4, d.penStrStatus),
   (Reg.FEN_NEAR_CNT 0, 4, 4, fun r => (d.fenIn (2 * r)).near + 2 ^ 16 * (d.fenIn (2 * r + 1)).near),
   (Reg.AUX_DRV_STATUS 0, 4, 4, d.drvStatus)]

/-- The live registers that stand alone. -/
def Dev.liveSingles (d : Dev) : List (Nat × Nat) :=
  [(Reg.SYS_ID_DEVICE, 0x9160), (Reg.SYS_ID_STEP, 0x43), (Reg.SYS_STRAPS, d.sys.straps),
   (Reg.SYS_RESET_CAUSE, d.sys.resetCause), (Reg.CLK_STATUS, d.clkStatus), (Reg.HOST_LINK, d.hostLink),
   (Reg.ANG_STATUS, d.angStatus), (Reg.GFM_STATUS, d.gfmStatus), (Reg.PROF_EVENT_SUM, d.profEventSum),
   (Reg.LOOP_STATUS, d.loopStatus), (Reg.LOOP_TEST, b2n (decide (0 < d.loop.inject))),
   (Reg.LOOP_ADM_RESULT, d.loopAdmResult),
   (Reg.ADC_STATUS, pack [(d.adc.banks, 4), (d.adc.groups, 0)]),
   (Reg.ADC_FAIL_L, entryBits d.entryFailed % 2 ^ 32), (Reg.ADC_FAIL_H, entryBits d.entryFailed / 2 ^ 32),
   (Reg.ADC_WIN_STATUS, pack ((upto 24).map fun c => (b2n (d.sar c).decision, c))),
   (Reg.ADC_SINC2_STATUS, pack ((upto 32).map fun c => (b2n (d.sd c).decision, c))),
   (Reg.MOD_STATUS, d.modStatus), (Reg.SUP_STATUS, d.supStatus),
   (Reg.SUP_SUSP_L, entryBits d.chanBad % 2 ^ 32), (Reg.SUP_SUSP_H, entryBits d.chanBad / 2 ^ 32),
   (Reg.SUP_SUBST_L, entryBits (fun c => (d.chan c).subst) % 2 ^ 32),
   (Reg.SUP_SUBST_H, entryBits (fun c => (d.chan c).subst) / 2 ^ 32),
   (Reg.SUP_TRIP_CAUSE, d.tripCauseWord), (Reg.SUP_TRIP_ACTIVE, d.tripActive),
   (Reg.PWM_STATUS, d.pwmStatus), (Reg.PEN_LINK, d.penLink),
   (Reg.PNT_STATUS, pack [(d.pnt.drain, 8), (d.pnt.overflow, 0)]), (Reg.ACQ_STATUS, d.acqStatus),
   (Reg.TWN_STATUS, d.twnStatus), (Reg.FEN_WRITE_IGN_CNT, d.fen.ignCnt), (Reg.FEN_AUTH_FAIL_CNT, d.fen.authFail),
   (Reg.HK_STATUS, d.hkStatus), (Reg.AUX_STATUS, d.auxStatus), (Reg.LRD_STATUS, d.lrdStatus),
   (Reg.SEC_BOOT, d.secBoot), (Reg.SEC_KEYS, d.secKeys), (Reg.SEC_SLOTS, d.secSlots),
   (Reg.SEC_UID_L, d.sec.uid % 2 ^ 32), (Reg.SEC_UID_H, d.sec.uid / 2 ^ 32),
   (Reg.SEC_IMG_DIGEST_L, leAt d.sec.imgDigest 0 4), (Reg.SEC_IMG_DIGEST_H, leAt d.sec.imgDigest 4 4),
   (Reg.SEC_XFER, d.sec.received)]

/-- The value of an array's register at an offset. -/
def arrayAt (off : Nat) : List (Nat × Nat × Nat × (Nat → Nat)) → Option Nat
  | [] => none
  | (base, count, stride, f) :: rest =>
    if base ≤ off ∧ off < base + count * stride ∧ (off - base) % stride = 0 then some (f ((off - base) / stride))
    else arrayAt off rest

/-- The value of a register that shows live state. -/
def Dev.liveReg (d : Dev) (off : Nat) : Option Nat :=
  match (d.liveSingles.find? fun x => decide (x.1 = off)) with
  | some x => some x.2
  | none => arrayAt off d.liveArrays

/-- What the dword at an offset of BAR0 reads (R5, R9, R49): 0 where no register stands. A staged register reads its
staged value. -/
def Dev.regRead (off : Nat) (d : Dev) : Nat :=
  match regRow off with
  | none => 0
  | some r =>
    if r.staged then d.stagedReg off
    else if r.rw ≠ 0 then d.cfg off
    else if r.w1c ≠ 0 then (d.w1c off).toNat
    else match d.liveReg off with
      | some v => v % 2 ^ 32
      | none =>
        if 0xB0000 ≤ off ∧ off < 0xC0000 then (d.fen.image.get 0 off).toNat
        else (d.regs.snaps.get (regReset off) off).toNat

/-- What a read of BAR0 returns (R10): the bytes that it enables of the full register, lowest first. -/
def Dev.barRead (off be : Nat) (d : Dev) : List Byte :=
  let v := leBytes 4 (d.regRead off)
  ((upto 4).filter fun i => bitAt be i).map fun i => v.getD i 0

/-- What the dword at an offset reads with active values in place of staged ones (R434). -/
def Dev.regActive (off : Nat) (d : Dev) : Nat :=
  match regRow off with
  | some r => if r.staged then d.activeReg off else d.regRead off
  | none => 0

/-- A write stores the RW bits of a register that is not staged or stages them (R5, R8, R49). -/
def Dev.storeReg (off : Nat) (v : W32) (d : Dev) : Dev :=
  match regRow off with
  | none => d
  | some r =>
    let w := v &&& BitVec.ofNat 32 r.rw
    if r.staged then { d with regs := { d.regs with staged := d.regs.staged.set (regReset off) off w } }
    else d.setForce off w

end Sys2Proof.Machine
end

