-- ==== Sys2Proof/Machine/Admission.lean ====
section
/-! DEFINITION. Admission of the staged set (R132–R137): the seventeen checks in code order, each answering the index of
the first instance that fails it, and the refusals that blocks raise by their own rules for the current mode. -/

namespace Sys2Proof.Machine

/-- The first index for which a test fails. -/
def firstBad (n : Nat) (bad : Nat → Bool) : Option Nat := (upto n).find? bad

/-- The first of several checks that fails. -/
def firstOf : List (Option Nat) → Option Nat
  | [] => none
  | some i :: _ => some i
  | none :: rest => firstOf rest

/-- A condition of the whole set, without an instance. -/
def failIf (b : Bool) : Option Nat := if b then some 0 else none

/-! ### Ranges (check 2) -/

/-- A field with a range "lo–hi" in its register table; `zero` admits 0 besides. The registers are `count` from `base`
on. `en` names the enable bit of the instance: first register, stride and bit (R134). -/
structure RangeRow where
  base : Nat
  count : Nat
  stride : Nat
  hi : Nat
  lo : Nat
  min : Nat
  max : Nat
  zero : Bool
  en : Option (Nat × Nat × Nat)
deriving DecidableEq, Repr

/-- A field of one register. -/
def rng (base hi lo min max : Nat) : RangeRow := ⟨base, 1, 4, hi, lo, min, max, false, none⟩

/-- A field of one register that 0 turns off. -/
def rngOr0 (base hi lo min max : Nat) : RangeRow := ⟨base, 1, 4, hi, lo, min, max, true, none⟩

/-- A field of each instance of an array, tested while the instance is enabled. -/
def rngEn (base count stride hi lo min max : Nat) (en : Nat × Nat × Nat) : RangeRow :=
  ⟨base, count, stride, hi, lo, min, max, false, some en⟩

/-- A field of each register of an array. -/
def rngAll (base count stride hi lo min max : Nat) : RangeRow := ⟨base, count, stride, hi, lo, min, max, false, none⟩

def rangesA : List RangeRow :=
  [rng Reg.SYS_ECC_CFG 31 16 1 65535, rng Reg.SYS_ECC_CFG 15 0 1 3600,
   rng Reg.CLK_CFG 12 8 0 16, rng Reg.CLK_PULL 6 0 5 100, rngAll (Reg.CLK_OUT 0) 4 4 15 0 16 65535,
   rng Reg.ANG_GRID 22 16 1 64, rng Reg.ANG_GRID 12 0 24 4096, rng Reg.ANG_TFREE 18 0 2000 400000,
   rng Reg.GFM_SWING 31 16 50 20000, rng Reg.GFM_SWING 15 0 0 40000,
   rngOr0 Reg.GFM_QV 31 16 100 10000, rng Reg.GFM_QV 15 0 0 2000, rng Reg.GFM_EPS_LIM 31 0 0 0x333333,
   rng Reg.GFM_ZV 31 16 0 0x8000, rng Reg.GFM_ZV 15 0 0 0x8000,
   rng Reg.GFM_ZF 31 16 0 0x8000, rng Reg.GFM_ZF 15 0 0 0x8000,
   rng Reg.GFM_BS 31 24 2 30, rng Reg.GFM_BS 23 16 1 10, rng Reg.GFM_BS 15 0 10 6000,
   rng Reg.GFM_STOP 31 16 100 6000, rngOr0 Reg.GFM_STOP 8 0 1 256,
   rng Reg.GFM_RS_WIN 31 24 5 100, rng Reg.GFM_RS_WIN 23 16 1 50, rng Reg.GFM_RS_WIN 15 8 1 10,
   rng Reg.GFM_RS_WIN 7 0 50 95, rng Reg.GFM_RS_TIME 31 16 10 2000, rng Reg.GFM_RS_TIME 15 0 10 6000,
   rng Reg.GFM_BKR 23 16 0 200, rng Reg.GFM_BKR 15 8 2 50, rng Reg.GFM_BKR 7 0 5 100]

def rangesB : List RangeRow :=
  let casc := (Reg.LOOP_CASC_IN 0, 0x20, 31)
  let sd := (Reg.ADC_SD_CH 0, 4, 31)
  [rng Reg.LOOP_CTRL 19 16 1 15, rng Reg.LOOP_CTRL 13 8 0 48,
   rngAll (Reg.LOOP_MAP 0) 4 4 29 24 0 55, rngAll (Reg.LOOP_MAP 0) 4 4 21 16 0 55,
   rngAll (Reg.LOOP_MAP 0) 4 4 13 8 0 55, rngAll (Reg.LOOP_MAP 0) 4 4 5 0 0 55,
   rng Reg.LOOP_REG_HYST 15 8 0 100, rng Reg.LOOP_REG_HYST 7 0 0 100,
   rngEn (Reg.LOOP_CASC_SEC 0) 48 0x20 14 10 1 16 casc, rngEn (Reg.LOOP_CASC_SEC 0) 48 0x20 8 0 0 383 casc,
   rngEn (Reg.ADC_SD_GRP 0) 4 4 5 0 16 40 (Reg.ADC_SD_GRP 0, 4, 31),
   rngEn (Reg.ADC_SD_CH 0) 32 4 26 24 4 8 sd, rngEn (Reg.ADC_SD_CH 0) 32 4 18 16 3 5 sd,
   rng Reg.MOD_CFG 15 8 1 255, rng Reg.MOD_SORT_WT 31 16 0 100, rngAll (Reg.MOD_ARM 0) 6 4 5 0 0 32,
   rngEn (Reg.MOD_STR 0) 12 4 26 24 0 5 (Reg.MOD_STR 0, 4, 31),
   rngEn (Reg.MOD_STR 0) 12 4 22 16 1 64 (Reg.MOD_STR 0, 4, 31),
   rngEn (Reg.MOD_STR 0) 12 4 11 0 200 4000 (Reg.MOD_STR 0, 4, 31),
   rngEn Reg.MOD_EXPORT 1 4 8 0 128 506 (Reg.MOD_EXPORT, 4, 31)]

def rangesC : List RangeRow :=
  let fe := (Reg.SUP_FE_CFG 0, 8, 31)
  [rng Reg.SUP_CTRL 2 1 0 2, rng Reg.SUP_ILIM 31 24 1 200, rng Reg.SUP_ILIM 23 16 50 99,
   rng Reg.SUP_ILIM 15 0 500 2000, rngOr0 Reg.SUP_TMAX 31 16 1 6000, rngOr0 Reg.SUP_TMAX 15 0 1 6000,
   rng Reg.SUP_FRT_V 31 24 0 100, rng Reg.SUP_FRT_V 23 16 1 10, rng Reg.SUP_FRT_V 15 8 105 140,
   rng Reg.SUP_FRT_V 7 0 50 95, rng Reg.SUP_FRT_T 31 16 5 2000, rng Reg.SUP_FRT_T 15 0 5 500,
   rng Reg.SUP_PLAUS 31 24 4 255, rng Reg.SUP_PLAUS 23 16 1 255, rng Reg.SUP_PLAUS 15 0 10 1000,
   rng Reg.SUP_SUB 23 16 5 100, rng Reg.SUP_SUB 15 8 10 100, rng Reg.SUP_SUB 7 0 0 40] ++
  (upto 11).map (fun k => rng Reg.SUP_TRIP_ROUTE (2 * k + 1) (2 * k) 0 2) ++
  [rngEn (Reg.SUP_FE_LIM 0) 4 8 31 16 1 10000 fe, rngEn (Reg.SUP_FE_LIM 0) 4 8 15 0 1 2000 fe]

def rangesD : List RangeRow :=
  let pair := (Reg.PWM_PAIR 0, 0x20, 31)
  let set := (Reg.ACQ_SET_CFG 0, 0x40, 31)
  [rng Reg.PWM_CFG 7 4 3 12,
   rngEn (Reg.PWM_DT 0) 12 0x20 27 16 0 3200 pair, rngEn (Reg.PWM_DT 0) 12 0x20 11 0 0 3200 pair,
   rngEn (Reg.PWM_MINP 0) 12 0x20 11 0 0 3200 pair, rngAll (Reg.PWM_BLANK 0) 8 4 19 16 0 11,
   rng Reg.PEN_CFG 7 0 1 255,
   rngEn (Reg.ACQ_SET_CFG 0) 8 0x40 23 16 0 100 set, rngEn (Reg.ACQ_SET_LEN 0) 8 0x40 20 0 16 1048576 set,
   rngEn (Reg.ACQ_SET_MEM 0) 8 0x40 7 0 0 128 set, rngEn (Reg.ACQ_SET_HSIZE 0) 8 0x40 4 0 16 30 set,
   rngEn (Reg.ACQ_SET_WM 0) 8 0x40 15 8 1 100 set, rngEn (Reg.ACQ_SET_WM 0) 8 0x40 7 0 0 99 set,
   rng Reg.TWN_CFG 24 0 1000 16777216]

def rangesE : List RangeRow :=
  let th := (Reg.HK_TH 0, 4, 31)
  let drv := (Reg.AUX_DRV_CFG 0, 0x20, 31)
  [rng Reg.HK_CFG 15 8 85 110, rng Reg.HK_CFG 7 0 5 100,
   rngEn (Reg.HK_TH 0) 16 4 29 16 100 10000 th, rngEn (Reg.HK_TH 0) 16 4 12 0 2000 6000 th,
   rngAll (Reg.HK_CURVE_0 0) 8 4 7 0 10 100, rngAll (Reg.HK_CURVE_1 0) 8 4 7 0 10 100,
   rng Reg.AUX_CFG 15 0 8000 65535,
   rngEn (Reg.AUX_DRV_CFG 0) 4 0x20 26 24 0 4 drv,
   ⟨Reg.AUX_DRV_CFG 0, 4, 0x20, 14, 8, 5, 127, true, some drv⟩,
   rngEn (Reg.AUX_DRV_CFG 0) 4 0x20 7 0 1 200 drv,
   rngEn (Reg.AUX_DRV_CUR 0) 4 0x20 31 24 1 127 drv, rngEn (Reg.AUX_DRV_CUR 0) 4 0x20 23 16 0 100 drv,
   rngEn (Reg.AUX_DRV_CUR 0) 4 0x20 15 8 10 100 drv,
   rngEn (Reg.AUX_DRV_REF 0) 4 0x20 31 16 1 65535 drv, rngEn (Reg.AUX_DRV_REF 0) 4 0x20 15 0 1 65535 drv,
   rngEn (Reg.AUX_DRV_HALL 0) 4 0x20 31 24 1 255 drv, rngEn (Reg.AUX_DRV_DUTY 0) 4 0x20 23 16 10 100 drv,
   rngAll (Reg.AUX_GRP 0) 4 8 24 16 0 400, rngAll (Reg.AUX_GRP 0) 4 8 6 0 1 127]

/-- A range row's first instance out of range. -/
def rangeBad (cfg : Nat → Nat) (r : RangeRow) : Option Nat :=
  firstBad r.count fun i =>
    let v := bits (cfg (r.base + r.stride * i)) r.hi r.lo
    let on := match r.en with
      | some (b, st, k) => bitAt (cfg (b + st * i)) k
      | none => true
    on && !((r.zero && decide (v = 0)) || decide (r.min ≤ v ∧ v ≤ r.max))

/-- The points of a derating curve ascend strictly in T (R483). -/
def curveBad (cfg : Nat → Nat) (base : Nat) : Bool :=
  (upto 7).any fun i =>
    decide (signed 16 (bits (cfg (base + 4 * (i + 1))) 31 16) ≤ signed 16 (bits (cfg (base + 4 * i)) 31 16))

/-- Check 2: every field within the range of its register table (R134, R483). -/
def check2 (cfg : Nat → Nat) : Option Nat :=
  firstOf ((rangesA ++ rangesB ++ rangesC ++ rangesD ++ rangesE).map (rangeBad cfg) ++
    [failIf (curveBad cfg (Reg.HK_CURVE_0 0)), failIf (curveBad cfg (Reg.HK_CURVE_1 0))])

/-! ### Capacities and timebase (checks 1 and 3) -/

section
variable (cfg : Nat → Nat)

def aNs : Nat := bits (cfg Reg.ANG_GRID) 12 0
def aM : Nat := bits (cfg Reg.ANG_GRID) 22 16
def aTopo : Nat := bits (cfg Reg.MOD_CFG) 2 0
def aStrEn (s : Nat) : Bool := bitAt (cfg (Reg.MOD_STR s)) 31
def aStrLen (s : Nat) : Nat := bits (cfg (Reg.MOD_STR s)) 22 16
def aStrArm (s : Nat) : Nat := bits (cfg (Reg.MOD_STR s)) 26 24
def aTsa : Nat := bits (cfg Reg.ANG_TSA) 15 0
def aFwMax : Nat := fwOf cfg Reg.ANG_FWMAX_L Reg.ANG_FWMAX_H
def aFwMin : Nat := fwOf cfg Reg.ANG_FWMIN_L Reg.ANG_FWMIN_H

/-- The longest configured string, 0 in a direct topology. -/
def aLongest : Nat := if aTopo cfg = 0 then 0 else maxList 0 (((upto 12).filter (aStrEn cfg)).map (aStrLen cfg))

/-- t_EP (R128). -/
def aTep : Nat := if aTopo cfg = 0 then 360 else 200 + 12 * aLongest cfg

/-- Arms of a topology, and submodules an arm may have (R19, R171). -/
def aArms : Nat := if aTopo cfg = 1 then 6 else 3
def aArmMax : Nat := if aTopo cfg = 1 then 128 else 256

/-- The grid is out of the limits of R19. -/
def gridBad : Bool := decide (aNs cfg % 2 = 1 ∨ aNs cfg < 24 ∨ 4096 < aNs cfg ∨ aM cfg < 1 ∨ 64 < aM cfg)

/-- The stroke rate at FWMAX exceeds 200 kHz (R19, R44). -/
def rateBad : Bool := decide (200000 * 2 ^ 64 < aNs cfg * aFwMax cfg * secTicks)

/-- Signals written by enabled cascades and SOURCE-mode tables, each with its writer's index (R135). -/
def aWriters : List (Nat × Nat) :=
  (((upto 48).filter fun n => bitAt (cfg (Reg.LOOP_CASC_IN n)) 31).map fun n => (n, bits (cfg (Reg.LOOP_CASC_OUT n)) 8 0)) ++
  (((upto 8).filter fun t => bitAt (cfg (Reg.LOOP_COMP_CFG t)) 31 && !bitAt (cfg (Reg.LOOP_COMP_CFG t)) 30).map fun t =>
    (t, bits (cfg (Reg.LOOP_COMP_CFG t)) 8 0))

/-- The longest stroke exceeds 1,048,575 ticks (R195). -/
def longBad : Bool :=
  let num := (ceilDiv (2 ^ 32) (aNs cfg) + cfg Reg.ANG_OFFSET_STEP) * 2 ^ 32
  decide (aFwMin cfg = 0 ∨ 1048575 < ceilDiv num (aFwMin cfg) + 1 ∨ 1048575 < bits (cfg Reg.ANG_TFREE) 18 0)

/-- A string of R195 that the topology cannot have. -/
def stringBad (s : Nat) : Bool :=
  let tmp := bits (cfg (Reg.MOD_STR s)) 11 0
  aStrEn cfg s && decide (aArms cfg ≤ aStrArm cfg s ∨ aStrLen cfg s < 1 ∨ 64 < aStrLen cfg s ∨
    tmp < 200 ∨ 4000 < tmp ∨ tMin cfg < 4 * tmp)

/-- An arm without strings, or with too many submodules (R195). -/
def armBad (a : Nat) : Bool :=
  let n := (((upto 12).filter fun s => aStrEn cfg s && decide (aStrArm cfg s = a)).map (aStrLen cfg)).foldl (· + ·) 0
  decide (n = 0 ∨ aArmMax cfg < n)

/-- Exported signals outside the free ones, or with another writer (R194, R195). -/
def exportBad : Option Nat :=
  let x := cfg Reg.MOD_EXPORT
  let base := bits x 8 0
  if !bitAt x 31 then none
  else if base < 128 ∨ 506 < base then some 0
  else ((aWriters cfg).find? fun w => decide (base ≤ w.2 ∧ w.2 < base + 6)).map (·.1)

/-- Check 1: capacities (R19, R195). -/
def check1 : Option Nat :=
  firstOf ([failIf (gridBad cfg), failIf (rateBad cfg), failIf (decide (4 ≤ aTopo cfg))] ++
    if aTopo cfg = 0 then
      let legs := bits (cfg Reg.PWM_CFG) 7 4
      [failIf (decide (legs < 3 ∨ 12 < legs))]
    else
      [firstBad 12 (stringBad cfg), firstBad (aArms cfg) (armBad cfg), failIf (longBad cfg),
       firstBad 6 (fun a => decide (32 < bits (cfg (Reg.MOD_ARM a)) 5 0)),
       failIf (bitAt (cfg Reg.MOD_CFG) 4 && decide (signed 32 (cfg Reg.MOD_VNOM) ≤ 0)), exportBad cfg])

/-- FW(10 Hz) and FW(100 Hz) (R30). -/
def fw10Hz : Nat := 461168601843
def fw100Hz : Nat := 4611686018427

/-- Check 3: timebase (R44). -/
def check3 : Option Nat :=
  let nom := fwOf cfg Reg.ANG_FW_L Reg.ANG_FW_H
  let free := bits (cfg Reg.ANG_TFREE) 18 0
  let least := if aTopo cfg = 0 then 800 else 640 + 12 * aLongest cfg
  failIf (gridBad cfg || rateBad cfg || decide (aFwMin cfg < fw10Hz ∨ nom < aFwMin cfg ∨ aFwMax cfg < nom ∨
    fw100Hz < aFwMax cfg ∨ tMin cfg < 2000 ∨ free < 2000 ∨ 400000 < free ∨
    2 ^ 32 / (2 * aNs cfg) < cfg Reg.ANG_OFFSET_STEP ∨ aTsa cfg < least ∨ 4 < depthOf cfg))

/-! ### Machine and profiles (checks 4 and 5) -/

/-- Check 4: the machine (R84). -/
def check4 : Option Nat :=
  let i (off : Nat) : Int := signed 32 (cfg off)
  let two : Int := 2 ^ 28
  let one : Int := 2 ^ 27
  firstOf [
    failIf (decide (i Reg.GFM_E_MAX ≤ i Reg.GFM_E_MIN ∨ (3 * 2 ^ 23 : Int) < i Reg.GFM_E_MAX ∨
      (2 ^ 24 : Int) < 5 * i Reg.GFM_EPS_LIM)),
    failIf ([Reg.GFM_ZV, Reg.GFM_ZF].any fun r => decide (0x8000 < bits (cfg r) 31 16 ∨ 0x8000 < bits (cfg r) 15 0)),
    firstBad 2 fun s =>
      let a1 := i (Reg.GFM_PF (5 * s + 3))
      let a2 := i (Reg.GFM_PF (5 * s + 4))
      decide (two ≤ a1 ∨ a1 ≤ -two ∨ one ≤ a2 ∨ a2 ≤ -one)]

/-- The nine parameters of a channel. -/
def aRamp (c : Nat) : Ramp where
  vStart := cfg (Reg.PROF_VSTART c)
  vBrk := cfg (Reg.PROF_VBRK c)
  vMax := cfg (Reg.PROF_VMAX c)
  vStop := cfg (Reg.PROF_VSTOP c)
  a1 := cfg (Reg.PROF_A1 c)
  a2 := cfg (Reg.PROF_A2 c)
  d2 := cfg (Reg.PROF_D2 c)
  d1 := cfg (Reg.PROF_D1 c)
  decMax := cfg (Reg.PROF_DECMAX c)

/-- Check 5: profile parameter sets (R93, R107). -/
def check5 : Option Nat := firstBad 16 fun c => !rampValid (aRamp cfg c)

/-! ### Loop engine (checks 6 to 9) -/

def aCascEn (n : Nat) : Bool := bitAt (cfg (Reg.LOOP_CASC_IN n)) 31
def aNsec (n : Nat) : Nat := bits (cfg (Reg.LOOP_CASC_SEC n)) 14 10
def aBase (n : Nat) : Nat := bits (cfg (Reg.LOOP_CASC_SEC n)) 8 0

/-- The bank that a cascade's map gives a region (R141). -/
def aBank (n r : Nat) : Nat :=
  if r < 8 then bits (cfg (Reg.LOOP_CASC_MAP_L n)) (4 * r + 3) (4 * r)
  else bits (cfg (Reg.LOOP_CASC_MAP_H n)) (4 * (r - 8) + 3) (4 * (r - 8))

/-- Another enabled cascade below has a section range that overlaps. -/
def rangeOverlaps (n : Nat) : Bool :=
  (upto n).any fun k => aCascEn cfg k && decide (aBase cfg k < aBase cfg n + aNsec cfg n ∧
    aBase cfg n < aBase cfg k + aNsec cfg k)

/-- An output signal that a cascade may write (R135). -/
def outAllowed (out : Nat) : Bool :=
  decide (out = 109 ∨ out = 110 ∨ out = 114 ∨ 119 ≤ out) ||
    (!bitAt (cfg Reg.LOOP_CTRL) 0 && decide (116 ≤ out ∧ out ≤ 118))

/-- A cascade that R135 refuses. -/
def cascBad (banks : SMap (List Coef)) (n : Nat) : Bool :=
  let o := cfg (Reg.LOOP_CASC_OUT n)
  let k := aNsec cfg n
  aCascEn cfg n && (decide (k < 1 ∨ 16 < k ∨ 384 < aBase cfg n + k) || rangeOverlaps cfg n ||
    !outAllowed cfg (bits o 8 0) ||
    (!bitAt o 29 && !bitAt o 30 &&
      decide (signed 32 (cfg (Reg.LOOP_CASC_HI n)) ≤ signed 32 (cfg (Reg.LOOP_CASC_LO n)))) ||
    (upto 16).any fun r => decide ((banks.get [] (16 * n + aBank cfg n r)).length < k))

/-- A writer whose signal an earlier one writes too. -/
def twoWriters : List (Nat × Nat) → List Nat → Option Nat
  | [], _ => none
  | (i, s) :: rest, seen => if seen.contains s then some i else twoWriters rest (s :: seen)

/-- The kind of drive k under ASSIGN (R484): 0 not present, 1 BLDC, 2 stepper. -/
def aDrive (k : Nat) : Nat :=
  match bits (cfg Reg.AUX_CFG) 17 16, k with
  | 1, _ => 1
  | 2, 0 => 1
  | 2, 1 => 1
  | 2, 2 => 2
  | 3, 0 => 2
  | 3, 2 => 2
  | _, _ => 0

def aDrvEn (k : Nat) : Bool := bitAt (cfg (Reg.AUX_DRV_CFG k)) 31

/-- A table that R135 refuses. -/
def tableBad (t : Nat) : Bool :=
  let x := cfg (Reg.LOOP_COMP_CFG t)
  let src := bits x 26 24
  let dest := bits x 8 0
  bitAt x 31 && (decide (src = 3) ||
    (if bitAt x 30 then decide (dest < 116 ∨ 127 < dest) else decide (dest < 128)) ||
    (decide (4 ≤ src) && !(aDrvEn cfg (src - 4) && decide (aDrive cfg (src - 4) ≠ 0))))

/-- Check 6: loop structure (R135). -/
def check6 (banks : SMap (List Coef)) : Option Nat :=
  let miss := bits (cfg Reg.LOOP_CTRL) 19 16
  firstOf [firstBad 48 (cascBad cfg banks), twoWriters (aWriters cfg) [],
    failIf (decide (48 < bits (cfg Reg.LOOP_CTRL) 13 8 ∨ miss < 1 ∨ 15 < miss)), firstBad 8 (tableBad cfg)]

/-- Regions that the selector can reach (R122). -/
def aRegions : List Nat :=
  if bitAt (cfg Reg.LOOP_CTRL) 3 then
    (upto 16).filter fun r => decide (r % 4 ≤ bits (cfg Reg.LOOP_REG_SEL) 13 12 ∧ r / 4 ≤ bits (cfg Reg.LOOP_REG_SEL) 29 28)
  else [0]

/-- A section that R136 refuses: unstable, or on the unit circle without HOLD. -/
def sectionBad (hold : Bool) (c : Coef) : Bool :=
  let one : Int := 2 ^ 27
  let a1 : Int := c.a1.toInt.natAbs
  let a2 := c.a2.toInt
  let m : Int := a2.natAbs
  decide (one < m ∨ one + a2 < a1) || (!hold && decide (m = one ∨ a1 = one + a2))

/-- Check 7: section stability (R136). -/
def check7 (banks : SMap (List Coef)) : Option Nat :=
  firstBad 48 fun n => aCascEn cfg n && (aRegions cfg).any fun r =>
    ((upto (aNsec cfg n)).zip (banks.get [] (16 * n + aBank cfg n r))).any fun x =>
      sectionBad (bitAt (cfg (Reg.LOOP_CASC_SEC n)) (16 + x.1)) x.2

/-- Check 8: the loop cost within the deadline budget (R137). -/
def check8 : Option Nat := failIf (decide (aTsa cfg < loopCost cfg + 200 + aTep cfg))

/-- Breakpoints in use that do not ascend. -/
def breaksBad (bp : Nat → Nat) (n : Nat) : Bool :=
  (upto (n - 1)).any fun i => decide (signed 32 (cfg (bp (i + 1))) ≤ signed 32 (cfg (bp i)))

/-- Check 9: region selector (R122, R134). -/
def check9 : Option Nat :=
  failIf (breaksBad cfg Reg.LOOP_REG_XBP (bits (cfg Reg.LOOP_REG_SEL) 13 12) ||
    breaksBad cfg Reg.LOOP_REG_YBP (bits (cfg Reg.LOOP_REG_SEL) 29 28))

/-! ### Links and outputs (checks 10 to 13) -/

/-- Check 10: Penras frames (R243) and the pack-voltage window (R272). -/
def check10 : Option Nat :=
  let twin := bitAt (cfg Reg.TWN_CFG) 31
  firstOf [failIf (decide (bits (cfg Reg.PEN_VWIN) 31 16 < bits (cfg Reg.PEN_VWIN) 15 0)),
    firstBad 12 fun s =>
      let slot := bits (cfg (Reg.PEN_STR s)) 1 0
      aStrEn cfg s && (decide (slot = 3 ∨ 7 * tMin cfg < 8 * (404 + aStrLen cfg s * (8 * (slot + 1)))) ||
        (decide (aTopo cfg ≠ 0 ∧ cfg Reg.PEN_VCODE = 0)) || (twin && decide (bits (cfg Reg.PEN_CFG) 7 0 < 3)))]

/-- A pair that LOOP drives. -/
def aLoopPair (p : Nat) : Bool := bitAt (cfg (Reg.PWM_PAIR p)) 31 && !bitAt (cfg (Reg.PWM_PAIR p)) 30

/-- B_M of the longest record (R364). -/
def aMirror : Nat :=
  let casc := (upto 48).filter (aCascEn cfg)
  let secs := (casc.map (aNsec cfg)).foldl (· + ·) 0
  48 + 40 + (16 + 10 * secs + 4 * casc.length) + 112 +
    (if aTopo cfg = 0 then 8 * ((upto 12).filter (aLoopPair cfg)).length else 96 + 16 * aArms cfg) + 512 + 96 + 4

/-- t_M (R364). -/
def aTm : Nat := ceilDiv (16 * (aMirror cfg + 16)) 100

/-- Check 11: the mirror record (R379). -/
def check11 (primary : Bool) : Option Nat :=
  let x := cfg Reg.TWN_CFG
  let twinSrc : Bool := decide (bits (cfg Reg.CLK_CFG) 1 0 = 3)
  let delay := bits x 24 0
  failIf ((primary && twinSrc) || (bitAt x 31 && (decide (1 < depthOf cfg ∨ tMin cfg / 2 < aTm cfg ∨
    tMin cfg + 200 < aTsa cfg + aTm cfg + 80 ∨ delay < 1000 ∨ 16777216 < delay) || (!primary && !twinSrc))))

/-- The pairs of a leg (R198). -/
def aLegPairs (k : Nat) : List Nat := if bitAt (cfg Reg.PWM_CFG) 0 then [2 * k, 2 * k + 1] else [k]

/-- 4 × max(t_A, t_B) of a pair, in ticks (R204). -/
def aShortest (p : Nat) : Nat :=
  4 * (max (bits (cfg (Reg.PWM_DT p)) 11 0) (bits (cfg (Reg.PWM_DT p)) 27 16) + bits (cfg (Reg.PWM_MINP p)) 11 0)

/-- A pair that R220 refuses; `period` is the PERIOD in force of each pair, 0 where none has been loaded. T_min is never
longer than T_FREE (R43), the stroke of a HOST pair in free strokes. -/
def pairBad (period : Nat → Nat) (p : Nat) : Bool :=
  let x := cfg (Reg.PWM_PAIR p)
  let limit := if bitAt x 29 then period p else tMin cfg
  let a := bits x 1 0
  let b := bits x 5 4
  decide (a = 3 ∨ b = 3 ∨ (a = 1 ∧ b = 1)) ||
    (bitAt x 31 && (decide (2 ^ 32 / max (aNs cfg) 1 ≤ cfg (Reg.PWM_CAROFS p)) ||
      decide (limit < aShortest cfg p)))

/-- Check 12: direct PWM (R220). -/
def check12 (period : Nat → Nat) : Option Nat :=
  let x := cfg Reg.PWM_CFG
  let legs := bits x 7 4
  let vdc := bitAt x 8
  firstOf [
    if aTopo cfg ≠ 0 then none
    else firstOf [
      failIf (decide (legs < 3 ∨ (if bitAt x 0 then 6 else 12) < legs)),
      (((upto legs).flatMap (aLegPairs cfg)).find? fun p => !aLoopPair cfg p)],
    firstBad 12 (pairBad cfg period),
    failIf (if vdc then decide (signed 32 (cfg Reg.PWM_VDC_NOM) ≤ 0) else !bitAt (cfg (Reg.LOOP_MAP 3)) 31)]

/-- Limit inputs that a drive names. -/
def aLimits (k : Nat) : List Nat :=
  let x := cfg (Reg.AUX_DRV_CFG k)
  if !aDrvEn cfg k then []
  else (if bitAt x 19 then [bits x 22 20] else []) ++ (if bitAt x 15 then [bits x 18 16] else [])

/-- A code 1–6 of a HALL_MAP has no sector 0–5 (R488), or two have the same. -/
def hallBad (k : Nat) : Bool :=
  let m := cfg (Reg.AUX_DRV_HALL k)
  let sector (h : Nat) : Nat := bits m (3 * h + 2) (3 * h)
  (upto 7).any fun h => decide (1 ≤ h) &&
    (decide (5 < sector h) || (upto h).any fun g => decide (1 ≤ g ∧ sector g = sector h))

/-- A cooling drive that R505 refuses. -/
def driveBad (k : Nat) : Bool :=
  let duty := cfg (Reg.AUX_DRV_DUTY k)
  aDrvEn cfg k && (decide (aDrive cfg k = 0) ||
    ((upto k).any fun j => (aLimits cfg j).any fun l => (aLimits cfg k).contains l) ||
    (decide (aDrive cfg k = 1) && bitAt duty 31 && decide (bits duty 8 0 < 128)) || hallBad cfg k)

/-- Check 13: cooling-drive assignment (R505). -/
def check13 : Option Nat := firstBad 4 (driveBad cfg)

/-! ### Points, capture, sensing and supervision (checks 14 to 17) -/

/-- A class that R297 refuses; one that was never loaded reads all zeros, so that its SCALE is 0. -/
def classBad (k : PointClass) : Bool :=
  let w0 := k.w0.toNat
  let w1 := k.w1.toNat
  let w2 := k.w2.toNat
  let w3 := k.w3.toNat
  let lolo := bits w1 15 0
  let lo := bits w1 31 16
  let hi := bits w2 15 0
  let hihi := bits w2 31 16
  decide (¬ (lolo ≤ lo ∧ lo ≤ hi ∧ hi ≤ hihi) ∨ bits w0 15 0 = 0 ∨ 4095 < bits w3 15 0 ∨ bits w3 26 24 ≠ 0)

/-- Check 14: the classes that the class map names (R297). -/
def check14 (map : SMap Nat) (classes : SMap PointClass) : Option Nat :=
  firstBad 256 fun k => decide (1 ≤ k) && (map.cells.any fun c => decide (c.2 = k)) && classBad (classes.get PointClass.reset k)

/-- An INDEX out of range for its KIND (R319). -/
def indexBad (x : Nat) : Bool :=
  decide ((match bits x 13 12 with
    | 0 => 512
    | 1 => 56
    | 2 => 6
    | _ => 12) ≤ bits x 8 0)

/-- Channels of a set's mask. -/
def aSetChans (k : Nat) : List Nat :=
  (upto 64).filter fun n => if n < 32 then bitAt (cfg (Reg.ACQ_SET_CHM_L k)) n else bitAt (cfg (Reg.ACQ_SET_CHM_H k)) (n - 32)

def aSetEn (k : Nat) : Bool := bitAt (cfg (Reg.ACQ_SET_CFG k)) 31

/-- A capture set that R336 refuses. -/
def setBad (k : Nat) : Bool :=
  let chans := aSetChans cfg k
  let b := 64 + 4 * bits (cfg (Reg.ACQ_SET_LEN k)) 20 0 * chans.length
  let wm := cfg (Reg.ACQ_SET_WM k)
  aSetEn cfg k && (decide (chans = [] ∨ bits (cfg (Reg.ACQ_SET_MEM k)) 7 0 * 65536 / b < 2 ∨
    2 ^ bits (cfg (Reg.ACQ_SET_HSIZE k)) 4 0 < b ∨ bits wm 15 8 ≤ bits wm 7 0 ∨
    bits (cfg (Reg.ACQ_SET_HBASE_L k)) 11 0 ≠ 0) || chans.any fun n => indexBad (cfg (Reg.ACQ_CH n)))

/-- A trigger unit that R336 refuses. -/
def unitBad (u : Nat) : Bool :=
  let x := cfg (Reg.ACQ_UNIT_CFG u)
  let ty := bits x 30 28
  let t1 := cfg (Reg.ACQ_UNIT_T1 u)
  bitAt x 31 && (indexBad x || decide (5 ≤ ty ∨
    ((ty = 1 ∨ ty = 3) ∧ signed 32 (cfg (Reg.ACQ_UNIT_LB u)) ≤ signed 32 (cfg (Reg.ACQ_UNIT_LA u))) ∨
    ((ty = 0 ∨ ty = 3) ∧ cfg (Reg.ACQ_UNIT_T2 u) < t1) ∨ (ty = 2 ∧ t1 = 0)))

/-- Check 15: capture (R336). -/
def check15 : Option Nat :=
  let regions := (((upto 8).filter (aSetEn cfg)).map fun k => bits (cfg (Reg.ACQ_SET_MEM k)) 7 0).foldl (· + ·) 0
  firstOf [failIf (decide (128 < regions)), firstBad 8 (setBad cfg), firstBad 8 (unitBad cfg)]

/-- A channel is enabled (R306). -/
def aEntryOn (e : Nat) : Bool :=
  if e < 24 then bitAt (cfg Reg.ADC_SAR_EN) e
  else bitAt (cfg (Reg.ADC_SD_CH (e - 24))) 31 && bitAt (cfg (Reg.ADC_SD_GRP ((e - 24) / 8))) 31

/-- A fitted map entry and its source (R117). -/
def aMapFit (q : Nat) : Bool := bitAt (cfg (Reg.LOOP_MAP (q / 4))) (8 * (q % 4) + 7)
def aMapSrc (q : Nat) : Nat := bits (cfg (Reg.LOOP_MAP (q / 4))) (8 * (q % 4) + 5) (8 * (q % 4))

/-- Thresholds in a register, high over low, that leave no window. -/
def windowBad (x : Nat) : Bool := decide (signed 16 (bits x 31 16) ≤ signed 16 (bits x 15 0))

/-- Check 16: sensing and calibration (R317). -/
def check16 (cal : SMap Calib) : Option Nat :=
  firstOf [
    ((upto 32).find? fun c => bitAt (cfg (Reg.ADC_SD_CH c)) 31 && !bitAt (cfg (Reg.ADC_SD_GRP (c / 8))) 31).map (24 + ·),
    ((upto 16).find? fun q => aMapFit cfg q && !aEntryOn cfg (aMapSrc cfg q)).map (aMapSrc cfg),
    firstBad 24 fun c => bitAt (cfg Reg.ADC_WIN_EN) c && windowBad (cfg (Reg.ADC_WIN c)),
    ((upto 32).find? fun c => bitAt (cfg (Reg.ADC_SD_CH c)) 31 && bitAt (cfg (Reg.ADC_SD_CH c)) 0 &&
      windowBad (cfg (Reg.ADC_SD_TH c))).map (24 + ·),
    firstBad 56 fun e => aEntryOn cfg e && decide (2 ^ 23 < ((cal.get Calib.reset e).ofs.toInt).natAbs)]

/-- The characteristic polynomial of A − L·(1, 0, 0) fails the Jury conditions (R169), in units of 2^−27, 2^−54 and
2^−81 for its coefficients. -/
def juryBad : Bool :=
  let a (r c : Nat) : Int :=
    signed 32 (cfg (Reg.SUP_MDL_A (3 * r + c))) - (if c = 0 then signed 32 (cfg (Reg.SUP_MDL_L r)) else 0)
  let q : Int := 2 ^ 27
  let minor (r s c t : Nat) : Int := a r c * a s t - a r t * a s c
  let c2 := -(a 0 0 + a 1 1 + a 2 2)
  let c1 := minor 0 1 0 1 + minor 0 2 0 2 + minor 1 2 1 2
  let c0 := -(a 0 0 * minor 1 2 1 2 - a 0 1 * minor 1 2 0 2 + a 0 2 * minor 1 2 0 1)
  let q3 := q * q * q
  !decide (0 < q3 + c2 * (q * q) + c1 * q + c0 ∧ 0 < q3 - c2 * (q * q) + c1 * q - c0 ∧ c0.natAbs < q3.natAbs ∧
    (c0 * c2 * (q * q) - c1 * (q3 * q)).natAbs < (c0 * c0 - q3 * q3).natAbs)

/-- Check 17: supervision (R169). -/
def check17 : Option Nat :=
  let v := cfg Reg.SUP_FRT_V
  let hyst := bits v 23 16
  let need := [9, 10, 11] ++ phaseEntries (bits (cfg Reg.LOOP_CTRL) 2 1)
  let en (m : Nat) : Bool := bitAt (cfg (Reg.SUP_FE_CFG m)) 31
  firstOf [
    failIf (decide (100 ≤ bits v 7 0 + hyst ∨ bits v 15 8 ≤ 100 + hyst)),
    failIf (!(upto 4).any en),
    firstBad 4 (fun m => en m && decide (bits (cfg (Reg.SUP_FE_LIM m)) 15 0 = 0)),
    if bitAt (cfg Reg.SUP_CTRL) 0 then
      firstOf [need.find? fun q => !aMapFit cfg q, failIf (juryBad cfg)]
    else none]

end

/-! ### Admission -/

/-- The first failing check of a list numbered from `n`, with its item. -/
def firstCheck : Nat → List (Unit → Option Nat) → Nat × Nat
  | _, [] => (0, 0)
  | n, f :: rest => match f () with
    | some i => (n, i % 256)
    | none => firstCheck (n + 1) rest

/-- The staged set against the checks of R134, in code order: the code of the first that fails, 0 where none does, and
the index of the instance concerned. -/
def Dev.admission (d : Dev) : Nat × Nat :=
  let cfg := d.stagedReg
  firstCheck 1 [fun _ => check1 cfg, fun _ => check2 cfg, fun _ => check3 cfg, fun _ => check4 cfg, fun _ => check5 cfg,
    fun _ => check6 cfg d.loop.bankStaged, fun _ => check7 cfg d.loop.bankStaged, fun _ => check8 cfg,
    fun _ => check9 cfg, fun _ => check10 cfg, fun _ => check11 cfg d.twn.primary,
    fun _ => check12 cfg fun p => (d.pair p).period, fun _ => check13 cfg,
    fun _ => check14 d.pnt.mapStaged d.pnt.classStaged, fun _ => check15 cfg, fun _ => check16 cfg d.adc.calStaged,
    fun _ => check17 cfg]

/-- Admission runs and LOOP_ADM_RESULT shows it (R132, R139). -/
def Dev.runAdmission (d : Dev) : Dev :=
  let r := d.admission
  d.onLoop fun l => { l with admCheck := r.1, admItem := r.2, admCost := loopCost d.stagedReg }

/-! ### Refusals by the current mode -/

/-- A commit would change a register. -/
def Dev.wouldMove (d : Dev) (off : Nat) : Bool := decide (d.stagedReg off ≠ d.activeReg off)

/-- A commit would change bits of a register. -/
def Dev.wouldMoveBits (d : Dev) (off hi lo : Nat) : Bool :=
  decide (bits (d.stagedReg off) hi lo ≠ bits (d.activeReg off) hi lo)

/-- A bit of the active configuration. -/
def Dev.activeBit (d : Dev) (off n : Nat) : Bool := bitAt (d.activeReg off) n

/-- The timebase may not change while angle strokes run (R50). -/
def Dev.refuseTimebase (d : Dev) : Bool :=
  d.ang.cur.angle && [Reg.ANG_GRID, Reg.ANG_TFREE, Reg.ANG_TSA, Reg.ANG_THETA_START, Reg.ANG_FW_L, Reg.ANG_FW_H,
    Reg.ANG_FWMIN_L, Reg.ANG_FWMIN_H, Reg.ANG_FWMAX_L, Reg.ANG_FWMAX_H].any d.wouldMove

/-- Changes that only OFF permits: topology and strings (R196), glean slots (R271), sensing (R316), the twin (R357). -/
def Dev.refuseNotOff (d : Dev) : Bool :=
  decide (d.gfm.mode ≠ .off) && (d.wouldMoveBits Reg.MOD_CFG 2 0 ||
    ((upto 12).any fun s => d.wouldMoveBits (Reg.MOD_STR s) 31 12 ||
      (d.activeBit (Reg.MOD_STR s) 31 && d.wouldMove (Reg.PEN_STR s))) ||
    ((upto 4).any fun g => d.wouldMove (Reg.ADC_SD_GRP g)) || d.wouldMove Reg.ADC_SAR_EN ||
    ((upto 32).any fun c => d.activeBit (Reg.ADC_SD_CH c) 31 &&
      (d.wouldMoveBits (Reg.ADC_SD_CH c) 31 31 || d.wouldMoveBits (Reg.ADC_SD_CH c) 26 24)) ||
    d.wouldMoveBits Reg.TWN_CFG 31 31)

/-- A trip action is in progress. -/
def Dev.tripAction (d : Dev) : Bool := d.sup.acting || d.sup.tripTick.isSome

/-- SRC and DITHER may change only in OFF, or in TRIPPED without a trip action (R342). -/
def Dev.refuseClock (d : Dev) : Bool :=
  (d.wouldMoveBits Reg.CLK_CFG 1 0 || d.wouldMoveBits Reg.CLK_CFG 12 8) &&
    !(decide (d.gfm.mode = .off) || (decide (d.gfm.mode = .tripped) && !d.tripAction))

/-- The registers of a capture set. -/
def setRegs (k : Nat) : List Nat :=
  [Reg.ACQ_SET_CFG k, Reg.ACQ_SET_DIV k, Reg.ACQ_SET_LEN k, Reg.ACQ_SET_MEM k, Reg.ACQ_SET_CHM_L k, Reg.ACQ_SET_CHM_H k,
   Reg.ACQ_SET_HBASE_L k, Reg.ACQ_SET_HBASE_H k, Reg.ACQ_SET_HSIZE k, Reg.ACQ_SET_WM k]

/-- A set that is not DISARMED keeps its registers and its channels (R337). -/
def Dev.refuseCapture (d : Dev) : Bool :=
  (upto 8).any fun k => decide ((d.aset k).phase ≠ .disarmed) &&
    ((setRegs k).any d.wouldMove || (aSetChans d.activeReg k).any fun n => d.wouldMove (Reg.ACQ_CH n))

/-- Drive k is OFF, or there is no such drive. -/
def Dev.drvIsOff (d : Dev) (k : Nat) : Bool := decide ((d.drv k).st = .off)

/-- ASSIGN, or the configuration of an enabled drive, while a drive concerned is not OFF (R505). -/
def Dev.refuseCooling (d : Dev) : Bool :=
  (d.wouldMoveBits Reg.AUX_CFG 17 16 && (upto 4).any fun k => !d.drvIsOff k) ||
  (upto 4).any fun k => d.activeBit (Reg.AUX_DRV_CFG k) 31 && !d.drvIsOff k &&
    [Reg.AUX_DRV_CFG k, Reg.AUX_DRV_CUR k, Reg.AUX_DRV_REF k, Reg.AUX_DRV_HOME k, Reg.AUX_DRV_GAIN k, Reg.AUX_DRV_HALL k,
      Reg.AUX_DRV_DUTY k, Reg.AUX_DRV_ANG k].any d.wouldMove

/-- A block refuses the commit by its own rule for the current mode (R132). -/
def Dev.blockRefuses (d : Dev) : Bool :=
  d.refuseTimebase || (decide (d.gfm.mode = .resync) && d.wouldMove Reg.GFM_BKR) || d.refuseNotOff || d.refuseClock ||
    d.refuseCapture || d.refuseCooling

end Sys2Proof.Machine
end

