-- ==== Sys2Proof/Machine/Configure.lean ====
section
/-! DEFINITION. The staged set: CONFIG_STAGE, TABLE_LOAD, CONFIG_COMMIT and CONFIG_READBACK (R132, R138, R139, R209, R308,
R433–R435), and the digest of a configuration (R469). -/

namespace Sys2Proof.Machine

open Host

/-! ### Staging registers (R433) -/

/-- CONFIG_STAGE may name the register at an offset. -/
def stageable (off : Nat) : Bool :=
  let win := off / 0x10000
  decide (off % 4 = 0 ∧ off < 0x100000 ∧ win ≠ 2 ∧ win ≠ 11 ∧ win ≠ 15) &&
  (match regRow off with
  | some r => decide (r.rw ≠ 0)
  | none => false)

/-- Entries of 8 bytes: first word and value. -/
def stageEntries : Nat → List Byte → List (Nat × Nat)
  | 0, _ => []
  | n + 1, bs => (leAt bs 0 4, leAt bs 4 4) :: stageEntries n (bs.drop 8)

/-- A buffer of entries is acceptable. -/
def stageOk (es : List (Nat × Nat)) : Bool := es.all fun e => stageable e.1

/-- Entries applied in order, each as a write of BAR0. -/
def Dev.stageAll (es : List (Nat × Nat)) (d : Dev) : Dev :=
  es.foldl (fun d e => d.storeReg e.1 (BitVec.ofNat 32 e.2)) d

/-- CONFIG_STAGE, TABLE_LOAD and CONFIG_COMMIT are blocked by a transfer, or by a staged image (R465). -/
def Dev.stagingBusy (d : Dev) : Bool := d.sec.xfer.isSome || d.sec.staged

/-- CONFIG_STAGE's own checks and effect. -/
def Dev.configStage (c : Cmd) (d : Dev) : Dev :=
  let n := c.len.toNat
  if n = 0 ∨ n % 8 ≠ 0 ∨ 32768 < n then d.complete c 0x11 stBadParam
  else if d.stagingBusy then d.complete c 0x11 stBusy
  else d.withBuffer 0x11 c fun d =>
    let es := stageEntries (n / 8) c.data
    if stageOk es then (d.stageAll es).completeRes c 0x11 stOk n [] else d.completeRes c 0x11 stBadParam n []

/-- CONFIG_STAGE (R433). -/
def execConfigStage (c : Cmd) (s : State) : Outcome State Fault Refusal := s.runCmd 0x11 0 c (Dev.configStage c)

/-! ### Loading tables (R138, R209, R296, R308) -/

/-- A TABLE_LOAD without its buffer: inline bytes 20–23 and 24–27, and the buffer's length. The inline bytes that the
class does not name are 0, its indices are in range, and the length matches. -/
def Dev.tableShape (d : Dev) (a0 a1 len : Nat) : Bool :=
  let b21 := bits a0 15 8
  let b22 := bits a0 23 16
  decide (bits a0 31 24 = 0) && match bits a0 7 0 with
  | 1 => decide (a1 = 0 ∧ b21 < 48 ∧ b22 < 16 ∧ len = 20 * bits (d.stagedReg (Reg.LOOP_CASC_SEC b21)) 14 10)
  | 2 => decide (a1 = 0 ∧ b21 < 8 ∧ b22 = 0 ∧ len = 2048)
  | 3 => decide (a1 = 0 ∧ b21 = 0 ∧ b22 < 2 ∧ len % 12 = 0 ∧ 0 < len ∧ len ≤ 144)
  | 4 => decide (a1 = 0 ∧ b22 = 0 ∧ 0 < b21 ∧ len % 16 = 0 ∧ 0 < len ∧ b21 + len / 16 ≤ 256)
  | 5 => decide (b21 = 0 ∧ b22 = 0 ∧ len % 1024 = 0 ∧ 0 < len ∧ a1 + len / 1024 ≤ 1024)
  | 6 => decide (a1 = 0 ∧ b21 = 0 ∧ b22 = 0 ∧ len = 448)
  | _ => false

/-- A word of a buffer. -/
def word32 (bs : List Byte) (i : Nat) : W32 := BitVec.ofNat 32 (leAt bs i 4)

/-- `n` sections of coefficients (R138). -/
def coefs : Nat → List Byte → List Coef
  | 0, _ => []
  | n + 1, bs =>
    { b0 := word32 bs 0, b1 := word32 bs 4, b2 := word32 bs 8, a1 := word32 bs 12, a2 := word32 bs 16 } ::
      coefs n (bs.drop 20)

/-- `n` entries of 16 bits. -/
def halves : Nat → List Byte → List (BitVec 16)
  | 0, _ => []
  | n + 1, bs => BitVec.ofNat 16 (leAt bs 0 2) :: halves n (bs.drop 2)

/-- Class definitions from class k on. -/
def loadClasses : Nat → Nat → List Byte → SMap PointClass → SMap PointClass
  | 0, _, _, m => m
  | n + 1, k, bs, m =>
    loadClasses n (k + 1) (bs.drop 16)
      (m.set PointClass.reset k { w0 := word32 bs 0, w1 := word32 bs 4, w2 := word32 bs 8, w3 := word32 bs 12 })

/-- Class bytes from a point on. -/
def loadMap : Nat → List Byte → SMap Nat → SMap Nat
  | _, [], m => m
  | id, b :: rest, m => loadMap (id + 1) rest (m.set 0 id b.toNat)

/-- Calibration entries from entry e on. -/
def loadCal : Nat → Nat → List Byte → SMap Calib → SMap Calib
  | 0, _, _, m => m
  | n + 1, e, bs, m => loadCal n (e + 1) (bs.drop 8) (m.set Calib.reset e { ofs := word32 bs 0, gain := word32 bs 4 })

/-- Tables of a class are marked as loaded. -/
def Dev.markLoaded (cls first n : Nat) (d : Dev) : Dev :=
  { d with regs := { d.regs with
      loadedStaged := (upto n).foldl (fun m i => m.set false (65536 * cls + first + i) true) d.regs.loadedStaged } }

/-- A TABLE_LOAD whose shape is right stores its buffer: in the staged tables, or in the shadows of the pairs. It answers
the status. -/
def Dev.tableStore (a0 a1 : Nat) (bs : List Byte) (d : Dev) : Dev × Nat :=
  let b21 := bits a0 15 8
  let b22 := bits a0 23 16
  match bits a0 7 0 with
  | 1 => (d.onLoop fun l => { l with bankStaged := l.bankStaged.set [] (16 * b21 + b22) (coefs (bs.length / 20) bs) }, stOk)
  | 2 => (d.onLoop fun l => { l with tabStaged := l.tabStaged.set [] b21 (halves 1024 bs) }, stOk)
  | 3 => match pwmRecords (bs.length / 12) bs with
    | some recs => d.loadPwm (decide (b22 = 1)) recs
    | none => (d, stBadParam)
  | 4 => ((d.onPnt fun p => { p with classStaged := loadClasses (bs.length / 16) b21 bs p.classStaged }).markLoaded
      4 b21 (bs.length / 16), stOk)
  | 5 => ((d.onPnt fun p => { p with mapStaged := loadMap (1024 * a1) bs p.mapStaged }).markLoaded 5 a1 (bs.length / 1024),
      stOk)
  | _ => ((d.onAdc fun a => { a with calStaged := loadCal 56 0 bs a.calStaged }).markLoaded 6 0 1, stOk)

/-- TABLE_LOAD's own checks and effect. -/
def Dev.tableLoad (c : Cmd) (d : Dev) : Dev :=
  let n := c.len.toNat
  if ¬ d.tableShape (c.word 20) (c.word 24) n ∨ c.word 28 ≠ 0 then d.complete c 0x10 stBadParam
  else if d.stagingBusy then d.complete c 0x10 stBusy
  else d.withBuffer 0x10 c fun d =>
    let r := d.tableStore (c.word 20) (c.word 24) c.data
    r.1.completeRes c 0x10 r.2 n []

/-- TABLE_LOAD (R138). Its classes name different inline bytes, so each checks its own. -/
def execTableLoad (c : Cmd) (s : State) : Outcome State Fault Refusal := s.runCmd 0x10 (2 ^ 96 - 1) c (Dev.tableLoad c)

/-! ### The digest of a configuration (R469) -/

/-- An offset inserted into an ascending list; the list is mostly in order already, so the search starts at its end. -/
def insertOff (off : Nat) : List Nat → List Nat
  | [] => [off]
  | x :: rest => if x < off then off :: x :: rest else x :: insertOff off rest

/-- Offsets of the staged registers of a window, ascending. -/
def stagedOffs (win : Nat) : List Nat :=
  (((windowRows (0x10000 * win)).filter fun r => r.staged).foldl (fun acc r =>
    (upto r.count).foldl (fun acc i => insertOff (r.base + r.stride * i) acc) acc) []).reverse

/-- The registers' part: offset and value of each. -/
def digestRegs (cfg : Nat → Nat) : List Byte :=
  ((upto 16).filter fun w => decide (w ≠ 2 ∧ w ≠ 11 ∧ w ≠ 15)).flatMap fun w =>
    (stagedOffs w).flatMap fun off => leBytes 4 off ++ leBytes 4 (cfg off)

/-- A bank in its buffer form. -/
def bankBytes (cs : List Coef) : List Byte :=
  cs.flatMap fun c => leBytes 4 c.b0.toNat ++ leBytes 4 c.b1.toNat ++ leBytes 4 c.b2.toNat ++ leBytes 4 c.a1.toNat ++
    leBytes 4 c.a2.toNat

/-- A class definition in its buffer form. -/
def classBytes (k : PointClass) : List Byte :=
  leBytes 4 k.w0.toNat ++ leBytes 4 k.w1.toNat ++ leBytes 4 k.w2.toNat ++ leBytes 4 k.w3.toNat

/-- The tables' part: every loaded table in ascending class and index. -/
def digestTables (banks : SMap (List Coef)) (tabs : SMap (List (BitVec 16))) (loaded : SMap Bool)
    (classes : SMap PointClass) (map : SMap Nat) (cal : SMap Calib) : List Byte :=
  (banks.cells.flatMap fun c => bankBytes c.2) ++ (tabs.cells.flatMap fun c => c.2.flatMap fun e => leBytes 2 e.toNat) ++
  loaded.cells.flatMap fun c =>
    let i := c.1 % 65536
    match c.1 / 65536 with
    | 4 => classBytes (classes.get PointClass.reset i)
    | 5 => (upto 1024).flatMap fun k => leBytes 1 (map.get 0 (1024 * i + k))
    | _ => (upto 56).flatMap fun e =>
        let x := cal.get Calib.reset e
        leBytes 4 x.ofs.toNat ++ leBytes 4 x.gain.toNat

/-- The digest of the staged configuration. -/
def Dev.stagedDigest (d : Dev) : List Byte :=
  sha384 (digestRegs d.stagedReg ++ digestTables d.loop.bankStaged d.loop.tabStaged d.regs.loadedStaged d.pnt.classStaged
    d.pnt.mapStaged d.adc.calStaged)

/-! ### Commit (R132) -/

/-- Offsets whose staged and accepted values differ. -/
def Dev.movedRegs (d : Dev) : List Nat :=
  ((d.regs.staged.cells ++ d.regs.active.cells).map (·.1)).filter d.wouldMove

/-- The staged set becomes the active set (R132). -/
def Dev.activate (d : Dev) : Dev :=
  let d := { d with regs := { d.regs with active := d.regs.staged, loaded := d.regs.loadedStaged } }
  let d := d.onLoop fun l => { l with bankActive := l.bankStaged, tabActive := l.tabStaged }
  d.onAdc fun a => { a with calActive := a.calStaged }

/-- The staged set returns to the active set (R460, R465). -/
def Dev.restoreStaged (d : Dev) : Dev :=
  let d := { d with regs := { d.regs with staged := d.regs.active, loadedStaged := d.regs.loaded } }
  let d := d.onLoop fun l => { l with bankStaged := l.bankActive, tabStaged := l.tabActive }
  let d := d.onAdc fun a => { a with calStaged := a.calActive }
  d.onPnt fun p => { p with mapStaged := p.map, classStaged := p.classes }

/-- The registers of CLK go into force at once, and a lock follows a change of SRC or DITHER (R342). -/
def Dev.applyClock (d : Dev) : Dev :=
  let inClk (off : Nat) : Bool := decide (off / 0x10000 = 1)
  let kept : SMap W32 := ⟨d.regs.inForce.cells.filter fun c => !inClk c.1⟩
  let new := { d with regs := { d.regs with
    inForce := d.regs.active.cells.foldl (fun m c => if inClk c.1 then m.set (regReset c.1) c.1 c.2 else m) kept } }
  Dev.clkCommitted d new

/-- Classes and class map go into force, and the pass over the stored values follows where they change (R298). -/
def Dev.applyPoints (d : Dev) : Dev :=
  let changed : Bool := decide (d.pnt.map ≠ d.pnt.mapStaged ∨ d.pnt.classes ≠ d.pnt.classStaged)
  let new := d.onPnt fun p => { p with map := p.mapStaged, classes := p.classStaged }
  if changed then Dev.reevaluate d new else new

/-- The channels whose parameter registers a commit changes take them at the next profile tick (R107). -/
def Dev.applyProfiles (moved : List Nat) (d : Dev) : Dev :=
  (upto 16).foldl (fun d c =>
    if moved.any fun off => decide (Reg.PROF_VSTART c ≤ off ∧ off ≤ Reg.PROF_DECMAX c) then
      d.queueOp (.commit c (aRamp d.activeReg c))
    else d) d

/-- An accepted configuration (R132): the staged set is the active set, and each block applies its part at its own time. -/
def Dev.accept (d : Dev) : Dev :=
  let moved := d.movedRegs
  let doms := [Domain.stroke, .machine, .index0, .timebase, .round].filter fun x =>
    moved.any fun off => decide (domainOf off = some x)
  let digest := d.stagedDigest
  let d := d.activate
  let d := { d with regs := { d.regs with
    due := d.regs.due.filter (fun x => !doms.contains x && !decide (x = Domain.sample)) ++ Domain.sample :: doms,
    commitTick := d.now } }
  let d := if doms.contains .timebase then d.onAng fun a => { a with cfgDue := some d.now } else d
  let d := d.onSec fun s => { s with digest := digest }
  ((d.applyProfiles moved).applyPoints).applyClock

/-- The commit of R132: admission, then the refusals of the blocks; it answers the status. -/
def Dev.commit (d : Dev) : Dev × Nat :=
  let d := d.runAdmission
  if d.loop.admCheck ≠ 0 then (d, stAdmission)
  else if d.blockRefuses then (d, stRejected)
  else (d.accept, stOk)

/-- The result data of a commit (R435). -/
def Dev.commitResult (d : Dev) (digest : List Byte) : List Nat := [d.loopAdmResult, leAt digest 0 4, leAt digest 4 4]

/-- CONFIG_COMMIT's own checks and effect. -/
def Dev.configCommit (c : Cmd) (d : Dev) : Dev :=
  if d.stagingBusy then d.complete c 0x12 stBusy
  else if bitAt (c.byte 20) 0 then
    let d := d.runAdmission
    d.completeRes c 0x12 (if d.loop.admCheck = 0 then stOk else stAdmission) 0 (d.commitResult d.stagedDigest)
  else
    let r := d.commit
    r.1.completeRes c 0x12 r.2 0 (r.1.commitResult r.1.sec.digest)

/-- CONFIG_COMMIT (R132, R139, R435). -/
def execConfigCommit (c : Cmd) (s : State) : Outcome State Fault Refusal :=
  s.runCmd 0x12 (inlMask [(20, 1)]) c (Dev.configCommit c)

/-- CONFIG_READBACK's own checks and effect. -/
def Dev.configReadback (c : Cmd) (d : Dev) : Dev :=
  let n := c.len.toNat
  let what := c.byte 20
  let off := c.word 24
  if 1 < what ∨ off % 4 ≠ 0 ∨ 0x100000 ≤ off ∨ n % 4 ≠ 0 ∨ 65536 < n ∨ (n ≠ 0 ∧ off / 0x10000 ≠ (off + n - 4) / 0x10000) then
    d.complete c 0x13 stBadParam
  else
    let bs := (upto (n / 4)).flatMap fun i =>
      leBytes 4 (if what = 1 then d.regActive (off + 4 * i) else d.regRead (off + 4 * i))
    (d.post c.addr.toNat bs).completeRes c 0x13 stOk n []

/-- CONFIG_READBACK (R434). -/
def execConfigReadback (c : Cmd) (s : State) : Outcome State Fault Refusal :=
  s.runCmd 0x13 (inlMask [(20, 0xFF), (24, 0xFFFFFFFF)]) c (Dev.configReadback c)

end Sys2Proof.Machine
end

