-- ==== Sys2Proof/Machine/Ecdsa.lean ====
section
/-! DEFINITION. ECDSA on P-384 (R455, R470), as FIPS 186-5 and SP 800-186 define it (PRESUMED: the spec names the
scheme and gives none of its constants). Only verification: the device's own signatures come from a key that no software
sees. -/

namespace Sys2Proof.Machine

/-- The field prime, the group order, the coefficient b and the base point of P-384. -/
def p384P : Nat := 2 ^ 384 - 2 ^ 128 - 2 ^ 96 + 2 ^ 32 - 1
def p384N : Nat := 0xFFFFFFFFFFFFFFFFFFFFFFFFFFFFFFFFFFFFFFFFFFFFFFFFC7634D81F4372DDF581A0DB248B0A77AECEC196ACCC52973
def p384B : Nat := 0xB3312FA7E23EE7E4988E056BE3F82D19181D9C6EFE8141120314088F5013875AC656398D8A2ED19D2A85C8EDD3EC2AEF
def p384Gx : Nat := 0xAA87CA22BE8B05378EB1C71EF320AD746E1D3B628BA79B9859F741E082542A385502F25DBF55296C3A545E3872760AB7
def p384Gy : Nat := 0x3617DE4A96262C6F5D9E98BF9292DC29F8F41DBD289A147CE9DA3113B5F0B8C00A60B1CE1D7E819D7A431D7C90EA0E5F

/-- A power modulo m, from the exponent's bits, the most significant first. -/
def powModBits (m b : Nat) : List Bool → Nat → Nat
  | [], acc => acc
  | x :: rest, acc => powModBits m b rest (let s := acc * acc % m; if x then s * b % m else s)

/-- The bits of a number, the most significant of `n` first. -/
def bitsDown : Nat → Nat → List Bool
  | 0, _ => []
  | n + 1, v => v.testBit n :: bitsDown n v

/-- The inverse modulo a prime. -/
def invMod (m x : Nat) : Nat := powModBits m (x % m) (bitsDown 384 (m - 2)) 1

/-- A point in Jacobian coordinates; z = 0 is the point at infinity. -/
structure JPoint where
  x : Nat
  y : Nat
  z : Nat
deriving DecidableEq, Repr

/-- Subtraction in the field. -/
def subP (a b : Nat) : Nat := (a + p384P - b % p384P) % p384P

/-- Twice a point. -/
def jDouble (q : JPoint) : JPoint :=
  let p := p384P
  let d := q.z * q.z % p
  let g := q.y * q.y % p
  let b := q.x * g % p
  let a := 3 * (subP q.x d * (q.x + d)) % p
  let x := subP (a * a % p) (8 * b % p)
  let z := subP (subP ((q.y + q.z) * (q.y + q.z) % p) g) d
  { x := x, y := subP (a * subP (4 * b % p) x % p) (8 * g * g % p), z := z }

/-- The sum of two points. -/
def jAdd (q r : JPoint) : JPoint :=
  if q.z % p384P = 0 then r
  else if r.z % p384P = 0 then q
  else
    let p := p384P
    let z1 := q.z * q.z % p
    let z2 := r.z * r.z % p
    let u1 := q.x * z2 % p
    let u2 := r.x * z1 % p
    let s1 := q.y * r.z * z2 % p
    let s2 := r.y * q.z * z1 % p
    let h := subP u2 u1
    let m := subP s2 s1
    if h = 0 then (if m = 0 then jDouble q else { x := 1, y := 1, z := 0 })
    else
      let h2 := h * h % p
      let h3 := h * h2 % p
      let v := u1 * h2 % p
      let x := subP (subP (m * m % p) h3) (2 * v % p)
      { x := x, y := subP (m * subP v x % p) (s1 * h3 % p), z := h * q.z * r.z % p }

/-- The sum of multiples of two points, from the bits of both multipliers, the most significant first. -/
def jMul2 (q r qr : JPoint) : List (Bool × Bool) → JPoint → JPoint
  | [], acc => acc
  | (a, b) :: rest, acc =>
    let t := jDouble acc
    jMul2 q r qr rest (if a && b then jAdd t qr else if a then jAdd t q else if b then jAdd t r else t)

/-- A signature (r, s) over a message verifies with an uncompressed public key (0x04, X, Y). -/
def ecdsaVerify (pub sig msg : List Byte) : Bool :=
  let x := beNat (slice pub 1 48)
  let y := beNat (slice pub 49 48)
  let r := beNat (slice sig 0 48)
  let s := beNat (slice sig 48 48)
  let onCurve := decide ((y * y) % p384P = (x * x * x + (p384P - 3) * x + p384B) % p384P ∧ x < p384P ∧ y < p384P)
  if slice pub 0 1 ≠ [0x04] ∨ onCurve = false ∨ r = 0 ∨ s = 0 ∨ p384N ≤ r ∨ p384N ≤ s then false
  else
    let e := beNat (sha384 msg)
    let w := invMod p384N s
    let g : JPoint := { x := p384Gx, y := p384Gy, z := 1 }
    let q : JPoint := { x := x, y := y, z := 1 }
    let t := jMul2 g q (jAdd g q) ((bitsDown 384 (e * w % p384N)).zip (bitsDown 384 (r * w % p384N)))
      { x := 1, y := 1, z := 0 }
    if t.z % p384P = 0 then false
    else
      let zi := invMod p384P t.z
      decide ((t.x * (zi * zi % p384P) % p384P) % p384N = r)

end Sys2Proof.Machine
end

