-- ==== Sys2Proof/Machine/Images.lean ====
section
/-! DEFINITION. Seed images (R455–R466): the checks of an image, its sections, transfers over ring 31, activation and
ADVANCE. -/

namespace Sys2Proof.Machine

open Host

/-! ### The header (R455) -/

/-- The largest image, and the size of its header. -/
def maxImage : Nat := 2 ^ 24
def headerLen : Nat := 320

/-- Fields of an image. -/
def imgKeySlot (bs : List Byte) : Nat := leAt bs 6 1
def imgBuild (bs : List Byte) : Nat := leAt bs 8 4
def imgArb (bs : List Byte) : Nat := leAt bs 12 1
def imgRevoke (bs : List Byte) : Nat := leAt bs 13 1
def imgSections (bs : List Byte) : Nat := leAt bs 14 2
def imgBodyLen (bs : List Byte) : Nat := leAt bs 16 4
def imgPubkey (bs : List Byte) : List Byte := slice bs 64 97

/-- The image digest. -/
def imgDigest (bs : List Byte) : List Byte := sha384 (slice bs 0 216)

/-- The hash of a public key, as a key slot holds it (R457). -/
def keyHash (pub : List Byte) : Nat := beNat (sha384 pub)

/-- FORMAT (R459). KEY_SLOT and ARB outside their ranges fail it too (DEDUCED). -/
def formatOk (bs : List Byte) : Bool :=
  decide (slice bs 0 4 = [0x53, 0x45, 0x45, 0x44] ∧ leAt bs 4 2 = 1 ∧ imgKeySlot bs ≤ 3 ∧ leAt bs 7 1 = 0 ∧ imgArb bs ≤ 64 ∧
    imgRevoke bs < 16 ∧ 1 ≤ imgSections bs ∧ imgSections bs ≤ 4096 ∧ imgBodyLen bs % 4 = 0 ∧
    headerLen + imgBodyLen bs ≤ maxImage ∧ leAt bs 28 36 = 0 ∧ leAt bs 161 7 = 0 ∧ leAt bs 312 8 = 0)

/-- KEY (R459). -/
def Dev.keyOk (d : Dev) (bs : List Byte) : Bool :=
  let k := imgKeySlot bs
  d.provisioning || (d.slotProg k && !d.slotRevoked k && decide (keyHash (imgPubkey bs) = d.sec.keys.get 0 k))

/-- The checks that need the header alone: the code of the first that fails, or 0 (R459). -/
def Dev.headerError (d : Dev) (bs : List Byte) : Nat :=
  if formatOk bs = false then 1
  else if leAt bs 20 4 ≠ 0x9160 ∨ leAt bs 24 4 ≠ 0x43 then 2
  else if d.keyOk bs = false then 3
  else if imgArb bs < d.sec.arb then 4
  else 0

/-- SIGNATURE and DIGEST (R459). -/
def bodyError (bs : List Byte) : Nat :=
  if ecdsaVerify (imgPubkey bs) (slice bs 216 96) (slice bs 0 216) = false then 5
  else if sha384 (slice bs headerLen (imgBodyLen bs)) ≠ slice bs 168 48 then 6
  else 0

/-! ### Sections (R456) -/

/-- The KEYS layout: entries of 52 bytes. -/
def keyEntries : Nat → List Byte → List (Nat × List Byte)
  | 0, _ => []
  | n + 1, bs => (leAt bs 0 4, slice bs 4 48) :: keyEntries n (bs.drop 52)

def keysOk (data : List Byte) : Bool :=
  decide (data.length % 52 = 0 ∧ 52 ≤ data.length ∧ data.length ≤ 208) &&
    (keyEntries (data.length / 52) data).all fun e => decide (e.1 ≤ 3)

/-- A section's effect on the staged set, and whether its content is right (R433, R456). A table of class 0x03 has no part in
the registers and tables that are staged: it is checked, and kept with the image until that is accepted (R460; log 49). -/
def Dev.takeSection (typ a0 a1 : Nat) (data : List Byte) (d : Dev) : Dev × Bool :=
  let n := data.length
  if typ = 1 then
    let es := stageEntries (n / 8) data
    if n = 0 ∨ n % 8 ≠ 0 ∨ 32768 < n ∨ stageOk es = false then (d, false) else (d.stageAll es, true)
  else if typ = 2 then
    if d.tableShape a0 a1 n then
      if bits a0 7 0 = 3 then match pwmRecords (n / 12) data with
        | some recs =>
          let commit : Bool := decide (bits a0 23 16 = 1)
          (d.onSec fun s => { s with pwmTables := s.pwmTables ++ [(commit, recs)] },
            !commit || recs.all fun r => !d.periodRefused r.1 r.2.1)
        | none => (d, false)
      else
        let r := d.tableStore a0 a1 data
        (r.1, decide (r.2 = stOk))
    else (d, false)
  else (d, decide (typ = 3) && keysOk data)

/-- Where the walk over an image's sections stands: the offset reached, sections taken, and one was wrong. -/
structure SectionWalk where
  pos : Nat
  count : Nat
  bad : Bool
deriving DecidableEq, Repr

/-- Sections that have arrived whole are taken in order (R460), at most `n` of them; `bs` is the image so far, from the
walk's offset on, and `total` its whole length. -/
def Dev.takeSections : Nat → Nat → List Byte → SectionWalk → Dev → Dev × SectionWalk
  | 0, _, _, w, d => (d, w)
  | n + 1, total, bs, w, d =>
    let len := leAt bs 4 4
    if w.bad ∨ total ≤ w.pos then (d, w)
    else if total < w.pos + 16 then (d, { w with bad := true })
    else if bs.length < 16 then (d, w)
    else if leAt bs 2 2 ≠ 0 ∨ len % 4 ≠ 0 ∨ total < w.pos + 16 + len ∨ leAt bs 0 2 = 0 ∨ 3 < leAt bs 0 2 then
      (d, { w with bad := true })
    else if bs.length < 16 + len then (d, w)
    else
      let r := d.takeSection (leAt bs 0 2) (leAt bs 8 4) (leAt bs 12 4) (slice bs 16 len)
      r.1.takeSections n total (bs.drop (16 + len)) { pos := w.pos + 16 + len, count := w.count + 1, bad := !r.2 }

/-- The sections of a whole image: whether all are right and as many as the header says (R459 code 7; the number is
DEDUCED to belong to it). -/
def SectionWalk.ok (w : SectionWalk) (bs : List Byte) : Bool :=
  !w.bad && decide (w.pos = headerLen + imgBodyLen bs ∧ w.count = imgSections bs)

/-- The sections of a whole image, staged on a device. -/
def Dev.walkImage (bs : List Byte) (d : Dev) : Dev × SectionWalk :=
  let total := headerLen + imgBodyLen bs
  d.takeSections 4097 total (slice bs headerLen (imgBodyLen bs)) { pos := headerLen, count := 0, bad := false }

/-! ### Outcomes -/

/-- A verification error (R459, R462). -/
def Dev.imageFails (code : Nat) (d : Dev) : Dev :=
  ((d.onSec fun s => { s with err := code }).event 19 1 code 0 0).irq 62

/-- The staged set is the active set again, and no image waits in it (R460, R462). An image that had not been kept in
another way is no longer a verified one (DEDUCED). -/
def Dev.dropStaged (d : Dev) : Dev :=
  d.restoreStaged.onSec fun s => { s with
    staged := false
    pwmTables := []
    verified := match s.verified with
      | some v => if v.staged ∧ !v.kept then none else some { v with staged := false }
      | none => none }

/-- The transfer ends with its command's completion (R463). -/
def Dev.endTransfer (t : Transfer) (code status : Nat) (d : Dev) : Dev :=
  let dg := if t.bytes.length < 216 then [] else imgDigest t.bytes
  (d.onSec fun s => { s with xfer := none }).completeAs t.ring t.slot t.tag 0x81 status 0
    [code, leAt dg 0 4, leAt dg 4 4]

/-- The status of a failed transfer (R463). -/
def statusOfError (code : Nat) : Nat :=
  if code = 10 then stTimeout else if 3 ≤ code ∧ code ≤ 6 then stAuth else stBadParam

/-- A transfer fails: a staging one restores the staged set (R460). -/
def Dev.transferFails (t : Transfer) (code : Nat) (d : Dev) : Dev :=
  let d := if t.purpose = 2 then d else d.dropStaged
  (d.imageFails code).endTransfer t code (statusOfError code)

/-- The flash slot of a STORE: the one not booted from, where host and no image count as slot 0 (R462). -/
def Dev.storeSlot (d : Dev) : Nat := if d.sec.slot = 1 then 0 else 1

/-- A transfer that verifies (R454, R462, R463). -/
def Dev.transferOk (t : Transfer) (d : Dev) : Dev :=
  let stored : Bool := decide (t.purpose = 2 ∨ t.purpose = 3)
  let staging : Bool := decide (t.purpose ≠ 2)
  let at_ := if stored then d.storeSlot else 2
  let d := d.onSec fun s => { s with
    verified := some { image := t.bytes, staged := staging, kept := stored }
    staged := s.staged || staging
    slots := if stored then s.slots.set none at_ (some t.bytes) else s.slots
    slot := if t.purpose = 0 then 2 else s.slot
    phase := if t.purpose = 0 ∧ s.phase = 4 then 5 else s.phase }
  (d.event 19 0 at_ 0 0).endTransfer t 0 stOk

/-- The checks of R459 on a whole transfer: the first code that fails, or 0. Sections of a STORE are checked without
touching the staged set. -/
def Dev.transferError (t : Transfer) (d : Dev) : Nat :=
  let h := d.headerError t.bytes
  if t.total ≠ headerLen + imgBodyLen t.bytes then 1
  else if h ≠ 0 then h
  else
    let b := bodyError t.bytes
    if b ≠ 0 then b
    else
      let w := if t.purpose = 2 then (d.walkImage t.bytes).2 else { pos := t.done, count := t.count, bad := t.bad }
      if w.ok t.bytes then 0 else 7

/-! ### Image descriptors (R428, R462) -/

/-- An image descriptor's chunk length is a multiple of 4 and at most 1 MiB, and its reserved bytes are 0. -/
def chunkDescOk (desc : BitVec 256) : Bool :=
  let f (hi lo : Nat) := bits desc.toNat hi lo
  decide (f 15 0 = 0x0801 ∧ f 23 17 = 0 ∧ f 63 48 = 0 ∧ f 159 128 % 4 = 0 ∧ f 159 128 ≤ 2 ^ 20 ∧ f 255 192 = 0)

/-- A chunk's bytes are taken, and with them the sections that they complete. -/
def Dev.takeChunk (t : Transfer) (bytes : List Byte) (d : Dev) : Dev × Transfer :=
  let all := t.bytes ++ bytes
  let t := { t with bytes := all, lastChunk := d.now }
  let d := d.onSec fun s => { s with received := all.length }
  if t.purpose = 2 ∨ all.length ≤ headerLen then (d, t)
  else
    let r := d.takeSections 4097 t.total (all.drop t.done) { pos := t.done, count := t.count, bad := t.bad }
    (r.1, { t with done := r.2.pos, count := r.2.count, bad := r.2.bad })

/-- The chunk of an image descriptor. One that ends beyond the total, or is malformed, is a length error (DEDUCED). -/
def Dev.chunk (t : Transfer) (desc : BitVec 256) (bytes : List Byte) (d : Dev) : Dev :=
  let f (hi lo : Nat) := bits desc.toNat hi lo
  let stop := f 191 160 + f 159 128
  if chunkDescOk desc = false then d.transferFails t 1
  else if f 191 160 ≠ t.bytes.length then d.transferFails t 8
  else if t.total < stop then d.transferFails t 1
  else
    let r := d.takeChunk t bytes
    if bitAt desc.toNat 16 then
      if stop ≠ t.total then r.1.transferFails r.2 1
      else
        let e := r.1.transferError r.2
        if e = 0 then r.1.transferOk r.2 else r.1.transferFails r.2 e
    else r.1.onSec fun s => { s with xfer := some r.2 }

/-- A descriptor of ring 31 is consumed (R416, R421, R444). -/
def Dev.imageRingAdvance (d : Dev) : Dev :=
  let g := d.ring 31
  let c := (g.cons + 1) % d.ringSize 31
  ((d.setRing 31 { g with cons := c }).shadow 31 c).irq 27

/-- IMAGE_CHUNK: descriptors of ring 31 are taken while a transfer is open. -/
def Dev.imageChunk (desc : BitVec 256) (bytes : List Byte) (d : Dev) : Dev :=
  match d.sec.xfer with
  | none => d
  | some t =>
    if d.ringEn 31 = false ∨ (d.ring 31).prod = (d.ring 31).cons then d else d.imageRingAdvance.chunk t desc bytes

/-- IMAGE_CHUNK (R462). A descriptor that is well formed brings as many bytes as it says. -/
def execImageChunk (desc : BitVec 256) (bytes : List Byte) (s : State) : Outcome State Fault Refusal :=
  s.runIf (!chunkDescOk desc || decide (bytes.length = bits desc.toNat 159 128)) (Dev.imageChunk desc bytes)

/-- IMAGE_TRANSFER_TIMEOUT (R462). -/
def execImageTransferTimeout (s : State) : Outcome State Fault Refusal :=
  .next (s.run fun d => match d.sec.xfer with
    | none => d
    | some t => if d.now < t.lastChunk + secTicks then d else d.transferFails t 10)

/-! ### Commands (R462–R466) -/

/-- A PURPOSE other than ABORT is permitted now (R462). -/
def Dev.purposeOk (d : Dev) (purpose : Nat) : Bool :=
  if purpose = 0 then !d.ready && decide (d.sec.src = 1 ∨ d.sec.src = 2) else d.ready

/-- A BOOT takes the place of an image that waits for phase 5: the staged set is restored, and phase 4 goes on (DESIGN
CHOICE, log 48: the spec does not say what becomes of the image that waits). -/
def Dev.replaceBoot (d : Dev) : Dev :=
  if d.sec.staged then d.dropStaged.onSec fun s => { s with phase := min s.phase 4 } else d

/-- ABORT (R462): the open transfer closes, and the staged set is restored. What its own command completes with, the spec
does not say: a free status and error code. -/
def Dev.abortImage (d : Dev) : Dev :=
  match d.sec.xfer with
  | some t =>
    let d := d.dropStaged
    let k := d.free
    ({ d with free := k + 1 } : Dev).endTransfer t (Config.abortError k).toNat (Config.abortStatus k).toNat
  | none => if d.sec.staged then d.dropStaged else d

/-- IMAGE_BEGIN's own checks and effect. -/
def Dev.imageBegin (c : Cmd) (d : Dev) : Dev :=
  let p := c.byte 20
  let total := c.word 24
  if 4 < p ∨ (p ≠ 4 ∧ (total < headerLen ∨ maxImage < total)) then d.complete c 0x81 stBadParam
  else if p = 4 then d.abortImage.complete c 0x81 stOk
  else if d.purposeOk p = false then d.complete c 0x81 stRejected
  else if d.sec.xfer.isSome then d.complete c 0x81 stBusy
  else
    let t : Transfer := { purpose := p, total := total, bytes := [], lastChunk := d.now, ring := c.ring.val,
                          slot := c.slot.toNat, tag := c.tag.toNat, done := headerLen, count := 0, bad := false }
    (if p = 0 then d.replaceBoot else d).onSec fun s => { s with
      xfer := some t
      received := 0
      slots := if p = 2 ∨ p = 3 then s.slots.set none d.storeSlot (some []) else s.slots }

/-- IMAGE_BEGIN (R462, R463). -/
def execImageBegin (c : Cmd) (s : State) : Outcome State Fault Refusal :=
  s.runCmd 0x81 (inlMask [(20, 0xFF), (24, 0xFFFFFFFF)]) c (Dev.imageBegin c)

/-- A key slot is programmed where it was not (R461). -/
def Dev.programKey (k hash : Nat) (d : Dev) : Dev :=
  if d.slotProg k ∨ hash = 0 then d
  else ((d.onSec fun s => { s with keys := s.keys.set 0 k hash }).event 19 4 k 0 0).irq 62

/-- A key slot is revoked where it was not. -/
def Dev.revokeKey (k : Nat) (d : Dev) : Dev :=
  if d.slotRevoked k then d
  else ((d.onSec fun s => { s with revoked := s.revoked ||| 2 ^ k }).event 19 4 k 0 0).irq 62

/-- The KEYS entries of a verified image's body, at most `n` sections. -/
def imageKeys : Nat → List Byte → List (Nat × List Byte)
  | 0, _ => []
  | n + 1, bs =>
    let len := leAt bs 4 4
    if bs.length < 16 then []
    else (if leAt bs 0 2 = 3 then keyEntries (len / 52) (slice bs 16 len) else []) ++ imageKeys n (bs.drop (16 + len))

/-- ADVANCE (R461), in its order. What the fuses held before is kept for a power failure that comes while it runs. -/
def Dev.advance (bs : List Byte) (d : Dev) : Dev :=
  let own := imgKeySlot bs
  let prov := d.provisioning
  let d := d.onSec fun s => { s with advance := some { since := d.now, arb := s.arb, keys := s.keys, revoked := s.revoked } }
  let d := if d.sec.arb < imgArb bs then
      ((d.onSec fun s => { s with arb := imgArb bs }).event 19 3 own 0 0).irq 62 else d
  let d := if prov then d.programKey own (keyHash (imgPubkey bs)) else d
  let d := (imageKeys 4096 (slice bs headerLen (imgBodyLen bs))).foldl (fun d e => d.programKey e.1 (beNat e.2)) d
  ((upto 4).filter fun k => bitAt (imgRevoke bs) k && decide (k ≠ own)).foldl (fun d k => d.revokeKey k) d

/-- Power fails: an ADVANCE of the last 5 ms may be cut short. The counter is left between its old and its new value, and each
fuse either blown or not, by free values (R461). -/
def Dev.cutAdvance (d : Dev) : Dev := match d.sec.advance with
  | none => d
  | some r =>
    if r.since + 5 * msTicks ≤ d.now then d
    else
      let k := d.free
      let f := (Config.cutFuses k).toNat
      let d : Dev := { d with free := k + 1 }
      d.onSec fun s => { s with
        arb := r.arb + (Config.cutCounter k).toNat % (s.arb + 1 - r.arb)
        keys := (upto 4).foldl (fun m i => if bitAt f i then m else m.set 0 i (r.keys.get 0 i)) s.keys
        revoked := r.revoked ||| (s.revoked &&& (f / 16)) }

/-- The last verified image has been committed (R454, R466): its tables of class 0x03 write the shadows of their pairs
(R209). -/
def Dev.imageApplied (v : Verified) (d : Dev) : Dev :=
  let d := d.sec.pwmTables.foldl (fun d t => (d.loadPwm t.1 t.2).1) d
  d.onSec fun s => { s with
    pwmTables := [], staged := false, imgDigest := imgDigest v.image, verified := some { v with staged := false, kept := true } }

/-- IMAGE_ACTIVATE's own checks and effect. A failure of admission is error 9 (R460). -/
def Dev.imageActivate (c : Cmd) (d : Dev) : Dev :=
  let adv (bs : List Byte) (d : Dev) : Dev := if bitAt (c.byte 20) 0 then d.advance bs else d
  match d.sec.verified with
  | none => d.complete c 0x82 stRejected
  | some v =>
    if v.staged then
      let r := d.commit
      let d := if r.2 = stOk then adv v.image (r.1.imageApplied v)
        else if r.2 = stAdmission then r.1.imageFails 9 else r.1
      d.completeRes c 0x82 r.2 0 (d.commitResult d.sec.digest)
    else (adv v.image d).complete c 0x82 stOk

/-- IMAGE_ACTIVATE (R466). -/
def execImageActivate (c : Cmd) (s : State) : Outcome State Fault Refusal :=
  s.runCmd 0x82 (inlMask [(20, 1)]) c (Dev.imageActivate c)

end Sys2Proof.Machine
end

