-- ==== Sys2Proof/Machine/Boot.lean ====
section
/-! DEFINITION. Resets and the boot (R35, R450–R454, R521–R524): power-on reset, the main-partition reset, and the rows
that end the boot's phases. Phase 3 ends with PLL_LOCK or LOCK_FAIL. -/

namespace Sys2Proof.Machine

open Host

/-! ### Resets -/

/-- What every reset keeps: non-volatile memory and fuses, and the count of free values drawn (R402, R406, R506, R523). -/
def Dev.keepNv (old d : Dev) : Dev :=
  let d := d.onLrd fun l => { l with
    lines := old.lrd.lines, slots := old.lrd.slots, user := old.lrd.user, pinned := old.lrd.pinned
    nextSlot := old.lrd.nextSlot }
  let d := d.onSec fun s => { s with
    arb := old.sec.arb, keys := old.sec.keys, revoked := old.sec.revoked, uid := old.sec.uid, slots := old.sec.slots }
  { d with free := old.free }

/-- The endpoints are no part of the device: they go on, and their tick counts with them, while the device's restarts at 0
(R247, R523, R526). -/
def Dev.keepEnds (old d : Dev) : Dev :=
  d.onPen fun p => { p with ends := old.pen.ends.cells.foldl (fun m c =>
    m.set Endpoint.reset c.1 { c.2 with ofs := c.2.ofs + (64 * old.now : Nat) }) .empty }

/-- The sampled straps (R356, R452, R524). -/
def Dev.sampleStraps (straps : Nat) (d : Dev) : Dev :=
  ((d.onSys fun s => { s with straps := straps }).onTwn fun t => { t with primary := bitAt straps 2 }).onSec fun s =>
    { s with src := bits straps 1 0 }

/-- POWER_ON_RESET (R35, R521): the whole device, up to the start of phase 2. The Fence keeps its parameters, its log and
its lockout (R402, R404, R406). An ADVANCE that was running is cut short (R461). -/
def Dev.powerOn (straps : Nat) (old : Dev) : Dev :=
  let old := old.flushRecords.cutAdvance
  let f := old.fen
  let d := (Dev.keepEnds old (Dev.keepNv old Dev.reset)).onFen fun g => { g with
    passcode := f.passcode, inCfg := f.inCfg, pairCfg := f.pairCfg, logSeq := f.logSeq, log := f.log, sets := f.sets
    lockEnd := if old.fenLocked then some 12000000 else none }
  ((d.sampleStraps straps).onSys fun s => { s with strapPins := straps }).onSec fun s => { s with phase := 2 }

/-- POWER_ON_RESET (R521). -/
def execPowerOnReset (straps : BitVec 4) (s : State) : Outcome State Fault Refusal :=
  .next (s.run (Dev.powerOn straps.toNat))

/-- The main partition leaves reset: phase 3 begins, with the Larder's scan (R508) and the lock. While TEST_EN is high it
stays in reset, and phase 2 goes on (R524). -/
def Dev.leaveReset (d : Dev) : Dev :=
  if bitAt d.sys.strapPins 3 then d.onSec fun s => { s with phase := 2 }
  else (d.onSec fun s => { s with phase := 3 }).lrdScan.startLock

/-- FENCE_INIT (R450, R522): the Fence starts where it stands in INIT, after a power-on reset or the release of its supply
monitor, which until then holds it in reset (R384). In phase 2 the main partition then leaves reset; where the Fence runs
already, because TEST_EN has held up phase 2 or a main reset (R381), only the phase goes on. -/
def Dev.fenceInit (crcOk selfOk : Bool) (d : Dev) : Dev :=
  if d.fen.held then d
  else
    let starts := decide (d.fen.st = .init) || (decide (d.fen.st = .fault) && decide (d.sec.phase ≤ 2) &&
      decide (d.sys.resetCause ≠ 1))
    let e := if starts then d.fenceStart crcOk selfOk else d
    if 2 < d.sec.phase then e else e.leaveReset

def execFenceInit (crcOk selfOk : Bool) (s : State) : Outcome State Fault Refusal :=
  .next (s.run (Dev.fenceInit crcOk selfOk))

/-- SYS_RESET is accepted (R523). -/
def Dev.resetAllowed (d : Dev) : Bool := match d.gfm.mode with
  | .off => true
  | .tripped => !d.sup.acting && decide (d.tripActive = 0) && !d.fenceDemand && !d.hk.halt
  | _ => false

/-- The main-partition reset (R35, R523). A FENCE_TEST in progress goes on in the Fence, and its completion is lost. BOOT_SRC is
sampled again, TWIN_ROLE is not (R524). -/
def Dev.mainReset (old : Dev) : Dev :=
  let old := old.flushRecords
  let d := { Dev.keepEnds old (Dev.keepNv old Dev.reset) with fen := old.fen }
  let lost := match old.fen.openTest with
    | some t => [{ ring := t.ring, slot := t.slot, tag := t.tag, opcode := 0x61, ordered := false, lost := true,
                   dropped := false, desc := 0 }]
    | none => []
  let d := d.onHost fun h => { h with
    pcie := old.host.pcie, linkUp := old.host.linkUp, speed := old.host.speed, width := old.host.width, inflight := lost }
  let p := old.sys.strapPins
  let straps := pack [(bits p 3 3, 3), (bits old.sys.straps 2 2, 2), (bits p 1 0, 0)]
  let d := (d.sampleStraps straps).onTwn fun t => { t with primary := old.twn.primary }
  (d.onSys fun s => { s with resetCause := 1, strapPins := p }).leaveReset

/-- A write to SYS_RESET through BAR0 (R523). -/
def Dev.sysReset (v : W32) (d : Dev) : Dev :=
  if v.extractLsb' 16 16 = 0xA5C3 ∧ v.getLsbD 0 = true ∧ d.resetAllowed = true then d.mainReset
  else d.accessErr 0 Reg.SYS_RESET

/-- SYS_RESET (R523). -/
def execSysReset (v : W32) (s : State) : Outcome State Fault Refusal := .next (s.run (Dev.sysReset v))

/-! ### Phases 4 to 6 -/

/-- An image from flash: at most 16 MiB, as long as its header says. -/
def flashImage (bs : List Byte) : List Byte := slice bs 0 (headerLen + imgBodyLen bs)

/-- The image of slot k passes every later step of R459 and is staged, or fails with its code. -/
def Dev.loadSlot (k : Nat) (bs : List Byte) (d : Dev) : Dev × Nat :=
  let img := flashImage bs
  let b := bodyError img
  if b ≠ 0 then (d.imageFails b, b)
  else
    let r := d.walkImage img
    if r.2.ok img then
      ((r.1.onSec fun s => { s with
        slot := k, staged := true, received := img.length, phase := 5
        verified := some { image := img, staged := true, kept := false } }).event 19 0 k 0 0, 0)
    else (r.1.dropStaged.imageFails 7, 7)

/-- Slots are tried in an order until one succeeds. Every try after a slot that has failed a later step is a fallback
(R453). -/
def Dev.trySlots : List (Nat × List Byte) → Dev → Dev
  | [], d =>
    if d.sec.src = 0 then d.onSec fun s => { s with slot := 3, imgDigest := [] } else d
  | (k, bs) :: rest, d =>
    let d := if d.sec.tried ≠ 0 then d.event 19 2 k 0 0 else d
    let r := d.loadSlot k bs
    if r.2 = 0 then r.1
    else Dev.trySlots rest (r.1.onSec fun s => { s with tried := s.tried ||| 2 ^ k })

/-- A slot whose header fails is a verification error (R453, R459). -/
def Dev.headerTry (bs : List Byte) (d : Dev) : Dev :=
  let e := d.headerError bs
  if e = 0 then d else d.imageFails e

/-- The slots whose headers are valid, in the order in which they are loaded (R453): the larger BUILD first, slot 0 of
two equal ones. Slots that have failed in this boot are out. -/
def Dev.slotOrder (s0 s1 : List Byte) (d : Dev) : List (Nat × List Byte) :=
  let ok (k : Nat) (bs : List Byte) : Bool := !bitAt d.sec.tried k && decide (d.headerError bs = 0)
  (if imgBuild s0 < imgBuild s1 then [(1, s1), (0, s0)] else [(0, s0), (1, s1)]).filter fun x => ok x.1 x.2

/-- IMAGE_LOAD (R452, R453): the operands are what the flash's slots read where no STORE has touched them; a slot that one
has reads as it left it (R464). A byte past the end of either reads 0. -/
def Dev.imageLoad (s0 s1 : List Byte) (d : Dev) : Dev :=
  let s0 := (d.sec.slots.get none 0).getD s0
  let s1 := (d.sec.slots.get none 1).getD s1
  if d.sec.phase ≠ 4 ∨ d.sec.xfer.isSome = true ∨ d.sec.slot = 3 then d
  else match d.sec.src with
    | 1 => d
    | 3 => d.onSec fun s => { s with slot := 3 }
    | _ =>
      let fresh : Bool := decide (d.sec.tried = 0)
      let order := d.slotOrder s0 s1
      let d := if fresh then (d.headerTry s0).headerTry s1 else d
      d.trySlots order

/-- IMAGE_LOAD (R453). -/
def execImageLoad (slot0 slot1 : List Byte) (s : State) : Outcome State Fault Refusal :=
  .next (s.run (Dev.imageLoad slot0 slot1))

/-- CONFIG_APPLY (R450, R460): admission and application of the staged image. A refusal is error 9 and a failure of its
slot. -/
def Dev.configApply (d : Dev) : Dev :=
  match d.sec.verified with
  | none => d
  | some v =>
    if d.sec.phase ≠ 5 ∨ d.sec.staged = false ∨ v.staged = false then d
    else
      let r := d.commit
      if r.2 = stOk then r.1.imageApplied v
      else (r.1.dropStaged.onSec fun s => { s with
        phase := 4, tried := if s.slot < 2 then s.tried ||| 2 ^ s.slot else s.tried }).imageFails 9

/-- CONFIG_APPLY (R450). -/
def execConfigApply (s : State) : Outcome State Fault Refusal := .next (s.run Dev.configApply)

/-- BOOT_READY (R26, R450, R453, R510, R526): after an application, or with no image. -/
def Dev.bootReady (d : Dev) : Dev :=
  if (d.sec.phase = 5 ∧ d.sec.staged = false) ∨ (d.sec.phase = 4 ∧ d.sec.slot = 3) then
    ((d.onSec fun s => { s with phase := 6 }).holdPairs).record 7 0
      (leBytes 1 d.sec.slot ++ leBytes 1 d.sec.arb ++ leBytes 2 0 ++ slice d.sec.imgDigest 0 8)
  else d

/-- BOOT_READY (R26). -/
def execBootReady (s : State) : Outcome State Fault Refusal := .next (s.run Dev.bootReady)

end Sys2Proof.Machine
end

