-- ==== Sys2Proof/Machine/Identity.lean ====
section
/-! DEFINITION. Identity, attestation and debug unlock (R467–R470). The identity key never leaves the die, so a report's
signature and the certificate chain are free values. -/

namespace Sys2Proof.Machine

open Host

/-- The image digest that a report shows: 48 bytes, 0 under NONE. -/
def Dev.reportDigest (d : Dev) : List Byte := slice d.sec.imgDigest 0 48

/-- Bytes 0–215 of an attestation report (R468). -/
def Dev.reportBody (d : Dev) (nonce : List Byte) : List Byte :=
  [0x41, 0x54, 0x53, 0x54] ++ leBytes 2 1 ++ leBytes 1 (b2n d.twn.primary) ++ leBytes 1 (twinCode d.twn.st) ++
    leBytes 4 0x9160 ++ leBytes 4 0x43 ++ slice nonce 0 32 ++ d.reportDigest ++ slice d.sec.digest 0 48 ++
    slice d.fenDigest 0 48 ++ leBytes 4 d.fen.logSeq ++ leBytes 1 d.sec.arb ++ leBytes 1 d.sec.slot ++
    leBytes 1 d.sec.debug ++ leBytes 1 0 ++ leBytes 8 d.clk.secs ++ leBytes 4 d.ang.cur.sn.toNat ++ leBytes 4 0

/-- The certificate chain (R467). -/
def certChain : List Byte := (upto Config.certLength.toNat).map Config.certByte

/-- ATTEST's own checks and effect. -/
def Dev.attest (c : Cmd) (d : Dev) : Dev :=
  match c.byte 20 with
  | 0 =>
    if c.len.toNat ≠ 312 then d.complete c 0x80 stBadParam
    else d.withBuffer 0x80 c fun d =>
      let sig := beBytes 96 (Config.attestSignature d.free).toNat
      (({ d with free := d.free + 1 } : Dev).post c.addr.toNat (d.reportBody c.data ++ sig)).completeRes c 0x80 stOk 312 []
  | 1 =>
    let n := Config.certLength.toNat
    if c.len.toNat < n then d.complete c 0x80 stBadParam
    else (d.post c.addr.toNat certChain).completeRes c 0x80 stOk n []
  | _ => d.complete c 0x80 stBadParam

/-- ATTEST (R468). -/
def execAttest (c : Cmd) (s : State) : Outcome State Fault Refusal := s.runCmd 0x80 (inlMask [(20, 0xFF)]) c (Dev.attest c)

/-- SEC_CHAL (R470): 48 random bytes. -/
def execSecChal (s : State) : Outcome State Fault Refusal :=
  .next (s.run fun d =>
    { d.onSec fun s => { s with challenge := some (Config.challenge d.free).toNat } with free := d.free + 1 })

/-- What a response signs: the challenge, the unique device number and the level. -/
def Dev.challengeBytes (d : Dev) (chal level : Nat) : List Byte :=
  leBytes 48 chal ++ leBytes 8 d.sec.uid ++ leBytes 1 level

/-- A response to a challenge is good (R470). -/
def Dev.respOk (d : Dev) (chal level slot : Nat) (key sig : List Byte) : Bool :=
  decide (1 ≤ level ∧ level ≤ 2 ∧ slot ≤ 3) && d.slotProg slot && !d.slotRevoked slot &&
    decide (keyHash key = d.sec.keys.get 0 slot) && ecdsaVerify key sig (d.challengeBytes chal level) &&
    decide (d.gfm.mode = .off ∨ d.gfm.mode = .tripped)

/-- SEC_RESP (R470): one response uses up the challenge. -/
def Dev.secResp (level slot : Nat) (key sig : List Byte) (d : Dev) : Dev :=
  let good := match d.sec.challenge with
    | some x => d.respOk x level slot key sig
    | none => false
  let d := d.onSec fun s => { s with challenge := none }
  if good then
    ((((d.onSec fun s => { s with debug := level }).event 19 5 slot 0 0).irq 62).record 5 0
      (leBytes 1 level ++ leBytes 1 slot))
  else d.event 19 6 slot 0 0

/-- SEC_RESP (R470). The TAP register has room for a 97-byte key and a 96-byte signature. -/
def execSecResp (level slot : Byte) (key sig : List Byte) (s : State) : Outcome State Fault Refusal :=
  s.runIf (decide (key.length = 97 ∧ sig.length = 96)) (Dev.secResp level.toNat slot.toNat key sig)

end Sys2Proof.Machine
end

