-- ==== Sys2Proof/Machine/HostPort.lean ====
section
/-! DEFINITION. The host's ways in: register writes (R5–R11), the service port (R446, R447), doorbells and the fetch of
commands (R414–R419, R429), the watchdog (R443), interrupts (R444, R445) and the resets of the link (R412). -/

namespace Sys2Proof.Machine

open Host

/-! ### Register writes -/

/-- HOST_SNAP: the host counters of one tick. -/
def Dev.hostSnap (v : W32) (d : Dev) : Dev :=
  if v.getLsbD 0 then
    let h := d.host
    d.snapAll [(Reg.HOST_CMD_CNT_SNAP, h.cmdCnt), (Reg.HOST_CMD_ERR_CNT_SNAP, h.cmdErrCnt),
      (Reg.HOST_DB_DISC_CNT_SNAP, h.dbDiscCnt), (Reg.HOST_ACC_ERR_CNT_SNAP, h.accErrCnt),
      (Reg.HOST_CPL_LOST_CNT_SNAP, h.cplLostCnt), (Reg.HOST_EVT_COAL_CNT_SNAP, h.coalCnt),
      (Reg.HOST_TEL_SKIP_CNT_SNAP, h.telSkipCnt), (Reg.HOST_FEN_LOST_CNT_SNAP, h.fenLostCnt),
      (Reg.HOST_SVC_IGN_CNT_SNAP, h.svcIgnCnt)]
  else d

/-- HOST_SNAP (R9). -/
def execHostSnap (v : W32) (s : State) : Outcome State Fault Refusal := .next (s.run (Dev.hostSnap v))

/-- The registers whose writes act (WO and W1S, R5). -/
def writeActions : List (Nat × (W32 → Dev → Dev)) :=
  let whole (f : Dev → Dev) (v : W32) (d : Dev) : Dev := if v.getLsbD 0 then f d else d
  [(Reg.SYS_RESET, Dev.sysReset), (Reg.SYS_SNAP, whole Dev.sysSnap), (Reg.CLK_SNAP, Dev.clkSnap),
   (Reg.HOST_SNAP, Dev.hostSnap), (Reg.ANG_SNAP, Dev.angSnap), (Reg.GFM_SNAP, Dev.gfmSnap), (Reg.PROF_SNAP, Dev.profSnap),
   (Reg.LOOP_TEST, Dev.injectMiss), (Reg.LOOP_SNAP, Dev.loopSnap), (Reg.ADC_SNAP, Dev.adcSnap),
   (Reg.MOD_SNAP, Dev.modSnap), (Reg.MOD_FAULT_CLEAR, Dev.modFaultClear), (Reg.SUP_SNAP, Dev.supSnap),
   (Reg.PWM_COMMIT, Dev.pwmCommit), (Reg.PWM_SNAP, Dev.pwmSnap), (Reg.PEN_SNAP, Dev.penSnap), (Reg.PNT_SNAP, Dev.pntSnap),
   (Reg.ACQ_SNAP, Dev.acqSnap), (Reg.TWN_SNAP, Dev.twnSnap), (Reg.HK_SNAP, whole Dev.hkSnap),
   (Reg.AUX_SNAP, whole Dev.auxSnap), (Reg.LRD_SNAP, whole Dev.lrdSnap)]

/-- A write of 1 clears W1C bits (R5), but for those that the device has set in this very tick (R6). -/
def Dev.clearBits (off : Nat) (v : W32) (d : Dev) : Dev :=
  let e := d.regs.events
  let left := d.w1c off &&& (~~~v ||| d.w1cRecent off)
  { d with regs := { d.regs with events := { e with bits := e.bits.set 0 off left } } }

/-- HOST_WD (R443): a value out of range is discarded as an access error; EN from 0 to 1 starts the timer.
After an expiry the next one still waits for a fetch. -/
def Dev.writeWd (v : W32) (d : Dev) : Dev :=
  let n := v.toNat
  if bits n 15 0 < 10 ∨ 60000 < bits n 15 0 ∨ bits n 29 28 = 3 then d.accessErr 0 Reg.HOST_WD
  else
    let fresh := !d.flag Reg.HOST_WD 31 && bitAt n 31
    let d := d.storeReg Reg.HOST_WD v
    if fresh then d.onHost fun h => { h with wdStart := d.now } else d

/-- HOST_RING_CFG (R414). -/
def Dev.writeRingCfg (r : Nat) (v : W32) (d : Dev) : Dev :=
  let off := Reg.HOST_RING_CFG r
  let size := bits v.toNat 4 0
  if size < 6 ∨ 16 < size ∨ (d.ringEn r = true ∧ size ≠ d.fld off 4 0) then d.accessErr 0 off
  else
    let fresh := !d.ringEn r && bitAt v.toNat 31
    let d := d.storeReg off v
    if fresh then
      let d := (d.setRing r { d.ring r with prod := 0, cons := 0, phase := true }).shadow r 0
      Dev.readProgress d.readFuel d
    else d

/-- The base registers of a ring (R414). -/
def Dev.writeRingBase (off r : Nat) (low : Bool) (v : W32) (d : Dev) : Dev :=
  if (low && decide (bits v.toNat 11 0 ≠ 0)) || (d.ringEn r && decide (v.toNat ≠ d.cfg off)) then d.accessErr 0 off
  else d.storeReg off v

/-- A ring that the host fills (R413). -/
def hostFills (r : Nat) : Bool := decide (r < 4 ∨ r = 31)

/-- The shadow area is written anew where its base has been set (R421): the consumer index of the rings that the host fills,
and the producer index of every other enabled ring. -/
def Dev.writeShadows (d : Dev) : Dev :=
  ((upto 32).filter fun r => hostFills r || d.ringEn r).foldl (fun d r =>
    d.shadow r (if hostFills r then (d.ring r).cons else (d.ring r).prod)) d

/-- A write to the HOST window that its access codes allow (R414, R421, R443). -/
def Dev.writeHost (off : Nat) (v : W32) (d : Dev) : Dev :=
  if off = Reg.HOST_WD then d.writeWd v
  else if off = Reg.HOST_SHADOW_L ∧ bits v.toNat 6 0 ≠ 0 then d.accessErr 0 off
  else if off = Reg.HOST_SHADOW_L ∨ off = Reg.HOST_SHADOW_H then (d.storeReg off v).writeShadows
  else if 0x20100 ≤ off ∧ off < 0x20300 then
    let r := (off - 0x20100) / 16
    match off % 16 with
    | 0 => d.writeRingBase off r true v
    | 4 => d.writeRingBase off r false v
    | 8 => d.writeRingCfg r v
    | _ => d
  else d.storeReg off v

/-- A write of 32 bits to BAR0 (R5, R8, R11): an action, a clear, a value stored or staged, or nothing. -/
def Dev.regWrite (off : Nat) (v : W32) (d : Dev) : Dev :=
  if off / 0x10000 = 11 then d.onFen fun f => { f with ignCnt := satInc f.ignCnt }
  else match writeActions.find? fun x => decide (x.1 = off) with
    | some x => x.2 v d
    | none => match regRow off with
      | none => d
      | some r =>
        if r.w1c ≠ 0 then d.clearBits off v
        else if r.rw = 0 then d
        else if off / 0x10000 = 2 then d.writeHost off v
        else d.storeReg off v

/-- A write of BAR0 (R10): aligned and whole, or an access error. A partial or unaligned write into the FEN window is an access
error alone, and not one of the ignored writes that R11 counts (DESIGN CHOICE, log 119). -/
def Dev.barWrite (off : Nat) (v : W32) (be : Nat) (d : Dev) : Dev :=
  if be ≠ 15 ∨ off % 4 ≠ 0 then d.accessErr 0 off else d.regWrite off v

/-- REGISTER_WRITE (R5, R10, R11). -/
def execRegisterWrite (off : BitVec 20) (v : W32) (be : BitVec 4) (s : State) : Outcome State Fault Refusal :=
  .next (s.run (Dev.barWrite off.toNat v be.toNat))

/-- RING_ENABLE (R414): a write to HOST_RING_CFG_r with EN = 1. -/
def execRingEnable (r : Fin 32) (v : W32) (s : State) : Outcome State Fault Refusal :=
  .next (s.run fun d => if v.getLsbD 31 then d.writeRingCfg r.val v else d)

/-- RING_DISABLE (R414): a write to HOST_RING_CFG_r with EN = 0. -/
def execRingDisable (r : Fin 32) (v : W32) (s : State) : Outcome State Fault Refusal :=
  .next (s.run fun d => if v.getLsbD 31 then d else d.writeRingCfg r.val v)

/-! ### The service port (R446, R447) -/

/-- The service port reaches the dword at an offset. -/
def svcReaches (off : Nat) : Bool := decide (off % 4 = 0 ∧ off ≤ 0xFFFFC)

/-- An access error of the service port. -/
def Dev.svcFail (d : Dev) : Dev := d.onHost fun h => { h with svcErr := true }

/-- SVC_READ: the turnaround byte, then `n` dwords, most significant byte first. -/
def Dev.svcRead (off n : Nat) (d : Dev) : Dev :=
  let bytes := (upto n).flatMap fun i =>
    beBytes 4 (if svcReaches (off + 4 * i) then d.regRead (off + 4 * i) else 0)
  let d := d.onHost fun h => { h with svcOut := 0 :: bytes }
  if svcReaches off && svcReaches (off + 4 * (n - 1)) then d else d.svcFail

/-- SVC_READ (R446). -/
def execSvcRead (off : BitVec 24) (n : BitVec 16) (s : State) : Outcome State Fault Refusal :=
  .next (s.run (Dev.svcRead off.toNat n.toNat))

/-- One dword that the service port writes. -/
def Dev.svcWriteOne (off : Nat) (v : W32) (d : Dev) : Dev :=
  let win := off / 0x10000
  if svcReaches off = false then d.svcFail
  else if win = 2 ∨ win = 11 ∨ win = 15 ∨ off = Reg.SYS_RESET then
    let d := d.onHost fun h => { h with svcIgnCnt := satInc h.svcIgnCnt }
    if win = 11 then d.regWrite off v else d
  else d.regWrite off v

/-- Dwords that the service port writes to consecutive offsets. -/
def Dev.svcWrite : Nat → List W32 → Dev → Dev
  | _, [], d => d
  | off, v :: rest, d => Dev.svcWrite (off + 4) rest (d.svcWriteOne off v)

/-- SVC_WRITE (R446, R447). -/
def execSvcWrite (off : BitVec 24) (vs : List W32) (s : State) : Outcome State Fault Refusal :=
  .next (s.run fun d =>
    Dev.svcWrite off.toNat vs (if svcReaches off.toNat then d else d.svcFail))

/-- SVC_STATUS (R446). -/
def execSvcStatus (s : State) : Outcome State Fault Refusal :=
  .next (s.run fun d => d.onHost fun h => { h with
    svcOut := leBytes 1 (pack [(b2n d.ready, 1), (b2n h.svcErr, 0)]), svcErr := false })

/-! ### Doorbells (R416–R419) -/

/-- A doorbell value moves its index backwards (R418). -/
def Dev.backwards (d : Dev) (r v : Nat) : Bool :=
  let n := d.ringSize r
  let g := d.ring r
  let used := (g.prod + n - g.cons) % n
  if hostFills r then decide ((v + n - g.cons) % n < used) else decide (used < (g.prod + n - v) % n)

/-- A doorbell value is discarded (R418). -/
def Dev.discardDoorbell (r v : Nat) (d : Dev) : Dev :=
  ((d.onHost fun h => { h with dbDiscCnt := satInc h.dbDiscCnt }).event 2 0 r v 0).irq 63

/-- DOORBELL_WRITE: room on a Larder ring lets paused reads go on (R439). -/
def Dev.doorbell (off be : Nat) (v : W32) (d : Dev) : Dev :=
  if be ≠ 15 ∨ off % 0x1000 ≠ 0 then d.accessErr 2 off
  else
    let r := off / 0x1000
    let n := v.toNat
    let d := d.setRing r { d.ring r with doorbell := v }
    if d.ringEn r = false ∨ d.ringSize r ≤ n ∨ d.backwards r n = true then d.discardDoorbell r n
    else if hostFills r then d.setRing r { d.ring r with prod := n }
    else
      let d := d.setRing r { d.ring r with cons := n }
      Dev.readProgress d.readFuel d

/-- DOORBELL_WRITE (R416–R419). -/
def execDoorbellWrite (off : BitVec 17) (be : BitVec 4) (v : W32) (s : State) : Outcome State Fault Refusal :=
  .next (s.run (Dev.doorbell off.toNat be.toNat v))

/-! ### Fetching commands (R429, R431, R443) -/

/-- The next command of a ring may be fetched: one is announced, fewer than 16 are in progress, and its completion has a
slot of its own. -/
def Dev.fetchable (d : Dev) (r : Nat) : Bool :=
  let mine := d.host.inflight.filter fun f => decide (f.ring = r)
  d.ringEn r && decide ((d.ring r).prod ≠ (d.ring r).cons ∧ mine.length < 16 ∧
    (mine.filter fun f => !f.lost).length < d.ringRoom (4 + r))

/-- The watchdog is serviced (R100, R443). -/
def Dev.serviceWd (d : Dev) : Dev :=
  let d := d.onHost fun h => { h with wdStart := d.now, wdExpired := false }
  [0, 1].foldl (fun d c => d.setPrf c { d.prf c with held := false }) d

/-- COMMAND_FETCH of ring r: the descriptor's 32 bytes, byte 0 lowest. A command with an unknown opcode completes as soon as
it may start (R430, R431); the others are rows of their own, whose fields are those of the descriptor. -/
def Dev.fetch (r : Nat) (desc : BitVec 256) (d : Dev) : Dev :=
  if d.fetchable r = false ∨ (upto r).any (fun q => d.fetchable q) = true then d
  else
    let f (hi lo : Nat) := bits desc.toNat hi lo
    let g := d.ring r
    let c := (g.cons + 1) % d.ringSize r
    let d := ((d.setRing r { g with cons := c }).shadow r c).serviceWd
    let op := f 15 0
    let d := d.onHost fun h => { h with inflight := h.inflight ++
      [{ ring := r, slot := g.cons, tag := f 47 32, opcode := op, ordered := bitAt desc.toNat 16, lost := false,
         dropped := false, desc := desc &&& ~~~(BitVec.ofNat 256 (0xFF * 2 ^ 24)) }] }
    if knownOpcode op then d else d.badOpcodes

/-- COMMAND_FETCH (R429). -/
def execCommandFetch (r : Fin 4) (desc : BitVec 256) (s : State) : Outcome State Fault Refusal :=
  .next (s.run (Dev.fetch r.val desc))

/-- NOP (R432). -/
def execNop (c : Cmd) (s : State) : Outcome State Fault Refusal :=
  s.runCmd 0x01 0 c fun d => d.complete c 0x01 stOk

/-! ### Coalesced events (R440) -/

/-- Counters are written while the ring has room, each with COALESCED. -/
def Dev.drainCoal (r : Nat) : List (Nat × Coal) → Dev → Dev
  | [], d => d
  | (key, k) :: rest, d =>
    if d.ringRoom (16 + r) = 0 then d
    else
      let d := d.onHost fun h => { h with coal := h.coal.set Coal.reset key Coal.reset }
      Dev.drainCoal r rest (d.putDesc (16 + r) (12 + r) (eventDesc (key / 32) (key % 32) k true))

/-- EVENT_RING_DRAIN (R440). -/
def Dev.eventDrain (r : Nat) (d : Dev) : Dev :=
  if d.ringQuarter (16 + r) then
    d.drainCoal r (d.host.coal.cells.filter fun c => decide (d.eventRing (c.1 / 32) = 16 + r))
  else d

/-- EVENT_RING_DRAIN (R440). -/
def execEventRingDrain (r : Fin 4) (s : State) : Outcome State Fault Refusal := .next (s.run (Dev.eventDrain r.val))

/-! ### The watchdog (R443) -/

/-- HOLD_P (R100): HALT and HELD on channels 0 and 1, but for one that the device drives in STOPPING. -/
def Dev.holdPower (d : Dev) : Dev :=
  [0, 1].foldl (fun d c =>
    if d.deviceDrives c then d
    else (d.queueOp (.stop c true)).setPrf c { d.prf c with held := true }) d

/-- The watchdog's ACTION. -/
def Dev.wdAction (action : Nat) (d : Dev) : Dev :=
  match action with
  | 1 => d.holdPower
  | 2 => match d.gfm.mode with
    | .blackstart | .forming | .resync =>
      if d.controls then d.autoMode .stopping 12 (d.flag Reg.HOST_WD 30) else d
    | _ => d
  | _ => d

/-- HOST_WD_EXPIRE: once for each expiry. A twin standby only raises the interrupt (R377). -/
def Dev.wdExpire (d : Dev) : Dev :=
  let limit := d.fld Reg.HOST_WD 15 0
  let action := d.fld Reg.HOST_WD 29 28
  if !d.flag Reg.HOST_WD 31 ∨ d.host.wdExpired ∨ d.now < d.host.wdStart + limit * msTicks then d
  else
    let d := d.onHost fun h => { h with wdExpired := true }
    if d.twn.st = .standby then d.irq 54 else ((d.event 2 2 action limit 0).irq 54).wdAction action

/-- HOST_WD_EXPIRE (R443). -/
def execHostWdExpire (s : State) : Outcome State Fault Refusal := .next (s.run Dev.wdExpire)

/-! ### MSI-X (R444, R445) -/

/-- HOLDOFF_END: one message if the vector is pending. A masked vector stays pending, and so do all of a masked
function. -/
def Dev.holdoffEnd (v : Nat) (d : Dev) : Dev :=
  let x := d.vec v
  match x.holdoff with
  | none => d
  | some t =>
    if d.now < t then d
    else
      let d := d.setVec v { x with holdoff := none }
      if x.pending && !x.masked && !d.msixOff then d.sendMsi v else d

/-- HOLDOFF_END (R445). -/
def execHoldoffEnd (v : Fin 64) (s : State) : Outcome State Fault Refusal := .next (s.run (Dev.holdoffEnd v.val))

/-- A write of 32 bits to BAR4 (R411, R444): an entry of the MSI-X table holds address, data and the mask bit. The
pending-bit array is read-only. Layout and mask as the PCI Express Base Specification has them (PRESUMED). -/
def Dev.msixWrite (off : Nat) (v : W32) (d : Dev) : Dev :=
  if 0x400 ≤ off ∨ off % 4 ≠ 0 then d
  else
    let k := off / 16
    let x := d.vec k
    match off % 16 with
    | 0 => d.setVec k { x with addr := x.addr.extractLsb' 32 32 ++ v }
    | 4 => d.setVec k { x with addr := v ++ x.addr.extractLsb' 0 32 }
    | 8 => d.setVec k { x with data := v }
    | _ =>
      let m := v.getLsbD 0
      let d := d.setVec k { x with masked := m }
      if x.pending && !m && x.holdoff.isNone && !d.msixOff then d.sendMsi k else d

/-- A write of Enable and Function Mask (R444): vectors that are pending and may send now do, in ascending order
(PRESUMED, log 127). -/
def Dev.msixControl (enable mask : Bool) (d : Dev) : Dev :=
  let d := d.onHost fun h => { h with pcie := { h.pcie with msixEn := enable, msixMask := mask } }
  if d.msixOff then d
  else ((upto 64).filter fun k => (d.vec k).pending && !(d.vec k).masked && (d.vec k).holdoff.isNone).foldl
    (fun d k => d.sendMsi k) d

/-- MSIX_TABLE_WRITE (R444). -/
def execMsixTableWrite (place : MsixPlace) (v : W32) (s : State) : Outcome State Fault Refusal :=
  .next (s.run (match place with
    | .bar4 off => Dev.msixWrite off.toNat v
    | .control => Dev.msixControl (v.getLsbD 31) (v.getLsbD 30)))

/-! ### The link (R412) -/

/-- The register values outside the HOST window, and HOST_WD. -/
def outsideHost (m : SMap W32) : SMap W32 :=
  ⟨m.cells.filter fun c => decide (c.1 / 0x10000 ≠ 2 ∨ c.1 = Reg.HOST_WD)⟩

/-- HOST_RESET (R412): HOST registers but HOST_WD, counters, rings, the MSI-X table and what the host had set in the
configuration space are reset (R409: No_Soft_Reset = 0). Telemetry subscriptions
and coalesced counters stay (DEDUCED), and commands in progress lose their completions. -/
def Dev.hostReset (linkLost : Bool) (d : Dev) : Dev :=
  let h := d.host
  let keep := !linkLost
  let d := { d with regs := { d.regs with
    inForce := outsideHost d.regs.inForce, snaps := outsideHost d.regs.snaps,
    events := { d.regs.events with
      bits := outsideHost d.regs.events.bits, recent := outsideHost d.regs.events.recent } } }
  d.onHost fun _ => { HostState.reset with
    coal := h.coal, tel := h.tel, telDue := h.telDue, out := h.out, svcOut := h.svcOut, svcErr := h.svcErr
    inflight := h.inflight.map fun f => { f with lost := true }
    wdStart := h.wdStart, wdExpired := h.wdExpired
    pcie := { ConfigSpace.reset with aerCnt := h.pcie.aerCnt }
    linkUp := keep && h.linkUp, speed := if keep then h.speed else 0, width := if keep then h.width else 0 }

/-- HOST_RESET (R412); the operand says whether the data link layer has gone down. -/
def execHostReset (linkLost : Bool) (s : State) : Outcome State Fault Refusal := .next (s.run (Dev.hostReset linkLost))

/-! ### What the host reads of BAR2, BAR4 and the configuration space (R409, R411, R419, R444) -/

/-- A BAR2 read (R419): the value last written to the page. -/
def Dev.bar2Read (off : Nat) (d : Dev) : W32 := (d.ring (off / 0x1000)).doorbell

/-- The dword at an offset of BAR4 (R411, R444): an entry of the MSI-X table, or of the pending-bit array. The layout is that
of the PCI Express Base Specification (PRESUMED, log 127). -/
def Dev.bar4Read (off : Nat) (d : Dev) : W32 :=
  let x := d.vec (off / 16)
  let pend (k : Nat) : W32 := BitVec.ofNat 32 (pack ((upto 32).map fun i => (b2n (d.vec (32 * k + i)).pending, i)))
  if off < 0x400 then match off % 16 with
    | 0 => x.addr.extractLsb' 0 32
    | 4 => x.addr.extractLsb' 32 32
    | 8 => x.data
    | _ => BitVec.ofNat 32 (b2n x.masked)
  else if off = 0x1000 then pend 0
  else if off = 0x1004 then pend 1
  else 0

/-- What the configuration space presents (R409). -/
inductive ConfigItem where
  | vendorId | deviceId | revisionId | classCode | interruptPin | msixVectors | msixEnable | msixMask
  | maxPayload | maxReadRequest | noSoftReset | functionLevelReset | relaxedOrdering | noSnoop | aspm | aerErrors
deriving DecidableEq, Repr

/-- The capabilities of the table of R409; the device has no INTx and no MSI. -/
inductive Capability where
  | powerManagement | pciExpress | msix | msi | advancedErrorReporting
deriving DecidableEq, Repr

/-- The value of an item, payload and request sizes in bytes. -/
def Dev.configItem (d : Dev) : ConfigItem → Nat
  | .vendorId => 0x1F6C
  | .deviceId => 0x9160
  | .revisionId => 0x43
  | .classCode => 0x118000
  | .interruptPin => 0
  | .msixVectors => 64
  | .msixEnable => b2n d.host.pcie.msixEn
  | .msixMask => b2n d.host.pcie.msixMask
  | .maxPayload => 128 * 2 ^ d.host.pcie.payload
  | .maxReadRequest => 128 * 2 ^ d.host.pcie.readReq
  | .noSoftReset => 0
  | .functionLevelReset => 1
  | .relaxedOrdering => 0
  | .noSnoop => 0
  | .aspm => 0
  | .aerErrors => d.host.pcie.aerCnt

/-- The device presents a capability. -/
def hasCapability : Capability → Bool
  | .msi => false
  | _ => true

/-! ### Debug access (R470) -/

/-- A JTAG read of BAR0: granted from level 1 on. -/
def Dev.jtagRead (off : Nat) (d : Dev) : Option Nat := if 1 ≤ d.sec.debug then some (d.regRead off) else none

/-- A JTAG read of capture memory: record i of set k, counted from the oldest that is closed. -/
def Dev.jtagCapture (k i : Nat) (d : Dev) : Option (List Byte) :=
  if 1 ≤ d.sec.debug then ((d.aset k).closed[i]?).map fun r => recordBytes r (d.aset k).sieve else none

/-- A JTAG write of BAR0: granted at level 2, with the exclusions of R447, so that no level reaches the Fence or the
fuses. -/
def Dev.jtagWrite (off : Nat) (v : W32) (d : Dev) : Dev :=
  let win := off / 0x10000
  if d.sec.debug ≠ 2 ∨ svcReaches off = false ∨ win = 2 ∨ win = 11 ∨ win = 15 ∨ off = Reg.SYS_RESET then d
  else d.regWrite off v

/-! ### Pins of the service and boot interfaces (R526) -/

/-- How a pin is driven. -/
inductive PinDrive where
  | high | pullUp | driven | highImpedance | electricalIdle | training | link
deriving DecidableEq, Repr

/-- QSPI_CS_L: a main partition that TEST_EN holds in its reset drives it high. -/
def Dev.qspiCs (d : Dev) : PinDrive :=
  if d.sec.phase = 1 then .pullUp else if d.sec.phase = 2 ∧ d.sys.resetCause = 1 then .high else .driven

/-- SVC_MISO and TDO, which carry data only inside a transaction or a shift, and so never between two rows. -/
def Dev.serialOut (_ : Dev) : PinDrive := .highImpedance

/-- PCIE_TXP/N. -/
def Dev.pcieTx (d : Dev) : PinDrive :=
  if d.host.linkUp then .link else if d.sec.phase = 1 then .electricalIdle else .training

/-- DATA_LINK_UP (R409, R412): speeds and widths are those of HOST_LINK; payload and read request size are those that the
host sets as it enumerates the device. -/
def execDataLinkUp (speed : Fin 4) (link : LinkSetup) (s : State) : Outcome State Fault Refusal :=
  s.runIf (decide (speed.val ≠ 0 ∧ (link.width.val = 1 ∨ link.width.val = 2 ∨ link.width.val = 4))) fun d =>
    d.onHost fun h => { h with
      linkUp := true, speed := speed.val, width := link.width.val
      pcie := { h.pcie with payload := link.payload.val, readReq := link.readReq.val } }

end Sys2Proof.Machine
end

