-- ==== Sys2Proof/Machine/Dispatch.lean ====
section
/-! DEFINITION. The dispatch: one arm per command, each one direct call of its meaning. -/

namespace Sys2Proof.Machine

open Host

/-- A command's effect on everything but the queue. -/
def exec (i : Instr) (s : State) : Host.Outcome State Fault Refusal :=
  match i with
  | .tick pins => Sys2Proof.Machine.execTick pins s
  | .strokeStart => Sys2Proof.Machine.execStrokeStart s
  | .freeStrokeStart => Sys2Proof.Machine.execFreeStrokeStart s
  | .sampleInstant => Sys2Proof.Machine.execSampleInstant s
  | .angleStampFire u => Sys2Proof.Machine.execAngleStampFire u s
  | .machineEvaluation => Sys2Proof.Machine.execMachineEvaluation s
  | .bkrClosePulseEnd => Sys2Proof.Machine.execBkrClosePulseEnd s
  | .bkrFbChange level => Sys2Proof.Machine.execBkrFbChange level s
  | .bkrNoClose => Sys2Proof.Machine.execBkrNoClose s
  | .resyncTimeout => Sys2Proof.Machine.execResyncTimeout s
  | .bsTimeout => Sys2Proof.Machine.execBsTimeout s
  | .stopTimeout => Sys2Proof.Machine.execStopTimeout s
  | .modeRequest c => Sys2Proof.Machine.execModeRequest c s
  | .profileTick => Sys2Proof.Machine.execProfileTick s
  | .profileStart c => Sys2Proof.Machine.execProfileStart c s
  | .profileModify c => Sys2Proof.Machine.execProfileModify c s
  | .profileStop c => Sys2Proof.Machine.execProfileStop c s
  | .setpointWrite c => Sys2Proof.Machine.execSetpointWrite c s
  | .loopEvaluation => Sys2Proof.Machine.execLoopEvaluation s
  | .frtCleared => Sys2Proof.Machine.execFrtCleared s
  | .limitExit => Sys2Proof.Machine.execLimitExit s
  | .frtTmaxExpire => Sys2Proof.Machine.execFrtTmaxExpire s
  | .limTmaxExpire => Sys2Proof.Machine.execLimTmaxExpire s
  | .subExpired ch => Sys2Proof.Machine.execSubExpired ch s
  | .followingErrorTrip m => Sys2Proof.Machine.execFollowingErrorTrip m s
  | .deadlineMiss => Sys2Proof.Machine.execDeadlineMiss s
  | .injectMiss v => Sys2Proof.Machine.execInjectMiss v s
  | .softRampEnd => Sys2Proof.Machine.execSoftRampEnd s
  | .furrowBuild => Sys2Proof.Machine.execFurrowBuild s
  | .modFaultClear v => Sys2Proof.Machine.execModFaultClear v s
  | .moduleBypass c => Sys2Proof.Machine.execModuleBypass c s
  | .bypassCloseRepeat sub => Sys2Proof.Machine.execBypassCloseRepeat sub s
  | .moduleBypassTimeout sub => Sys2Proof.Machine.execModuleBypassTimeout sub s
  | .pwmPeriodStart p => Sys2Proof.Machine.execPwmPeriodStart p s
  | .compareMatch p => Sys2Proof.Machine.execCompareMatch p s
  | .deadTimeExpire p => Sys2Proof.Machine.execDeadTimeExpire p s
  | .pwmCommit v => Sys2Proof.Machine.execPwmCommit v s
  | .localTrip conds => Sys2Proof.Machine.execLocalTrip conds s
  | .blankEnd t => Sys2Proof.Machine.execBlankEnd t s
  | .frameLaunch n e => Sys2Proof.Machine.execFrameLaunch n e s
  | .frameReceived n e line => Sys2Proof.Machine.execFrameReceived n e line s
  | .urgentFaultReceived n e line => Sys2Proof.Machine.execUrgentFaultReceived n e line s
  | .laneSyncLoss l => Sys2Proof.Machine.execLaneSyncLoss l s
  | .breakDeclared n => Sys2Proof.Machine.execBreakDeclared n s
  | .breakHealed n => Sys2Proof.Machine.execBreakHealed n s
  | .msgTimeout n => Sys2Proof.Machine.execMsgTimeout n s
  | .stringTrain c => Sys2Proof.Machine.execStringTrain c s
  | .echoResponse n e rt rd codes => Sys2Proof.Machine.execEchoResponse n e rt rd codes s
  | .echoTimeout n e pos => Sys2Proof.Machine.execEchoTimeout n e pos s
  | .syncFail n => Sys2Proof.Machine.execSyncFail n s
  | .leaseFail n => Sys2Proof.Machine.execLeaseFail n s
  | .trainDone => Sys2Proof.Machine.execTrainDone s
  | .endpointDrillReceived sub port inp line => Sys2Proof.Machine.execEndpointDrillReceived sub port inp line s
  | .endpointHold sub => Sys2Proof.Machine.execEndpointHold sub s
  | .endpointBlockReceived sub rx => Sys2Proof.Machine.execEndpointBlockReceived sub rx s
  | .endpointFaultDetect sub code => Sys2Proof.Machine.execEndpointFaultDetect sub code s
  | .endpointPortDown sub port => Sys2Proof.Machine.execEndpointPortDown sub port s
  | .staleScanVisit => Sys2Proof.Machine.execStaleScanVisit s
  | .pointRingDrain r => Sys2Proof.Machine.execPointRingDrain r s
  | .pointWrite c => Sys2Proof.Machine.execPointWrite c s
  | .pointReadBlock c => Sys2Proof.Machine.execPointReadBlock c s
  | .sarConversionResult ch raw => Sys2Proof.Machine.execSarConversionResult ch raw s
  | .sinc2Decision ch => Sys2Proof.Machine.execSinc2Decision ch s
  | .sdClockLost g => Sys2Proof.Machine.execSdClockLost g s
  | .sdDataLost ch => Sys2Proof.Machine.execSdDataLost ch s
  | .sarBankFail b reference => Sys2Proof.Machine.execSarBankFail b reference s
  | .channelRecover ch => Sys2Proof.Machine.execChannelRecover ch s
  | .triggerUnitFire u => Sys2Proof.Machine.execTriggerUnitFire u s
  | .extTrigIn level => Sys2Proof.Machine.execExtTrigIn level s
  | .autoTimeout set => Sys2Proof.Machine.execAutoTimeout set s
  | .recordDelivery set => Sys2Proof.Machine.execRecordDelivery set s
  | .captureArm c => Sys2Proof.Machine.execCaptureArm c s
  | .captureDisarm c => Sys2Proof.Machine.execCaptureDisarm c s
  | .captureForce c => Sys2Proof.Machine.execCaptureForce c s
  | .refLost => Sys2Proof.Machine.execRefLost s
  | .refBack e => Sys2Proof.Machine.execRefBack e s
  | .pllLock band => Sys2Proof.Machine.execPllLock band s
  | .lockFail => Sys2Proof.Machine.execLockFail s
  | .lockRetry => Sys2Proof.Machine.execLockRetry s
  | .pullDone => Sys2Proof.Machine.execPullDone s
  | .stepDone => Sys2Proof.Machine.execStepDone s
  | .timeSet c => Sys2Proof.Machine.execTimeSet c s
  | .ppsEdge frac => Sys2Proof.Machine.execPpsEdge frac s
  | .ppsLost => Sys2Proof.Machine.execPpsLost s
  | .secondBoundary => Sys2Proof.Machine.execSecondBoundary s
  | .clockFailure => Sys2Proof.Machine.execClockFailure s
  | .twinLinkDown => Sys2Proof.Machine.execTwinLinkDown s
  | .twinLinkUp => Sys2Proof.Machine.execTwinLinkUp s
  | .statusPacket p crcOk => Sys2Proof.Machine.execStatusPacket p crcOk s
  | .mirrorRecord r crcOk => Sys2Proof.Machine.execMirrorRecord r crcOk s
  | .drillPacket p crcOk => Sys2Proof.Machine.execDrillPacket p crcOk s
  | .resignPacket cause lastSn crcOk => Sys2Proof.Machine.execResignPacket cause lastSn crcOk s
  | .tripPacket cls cause crcOk => Sys2Proof.Machine.execTripPacket cls cause crcOk s
  | .handoverPacket confirm hoSn crcOk => Sys2Proof.Machine.execHandoverPacket confirm hoSn crcOk s
  | .timePacket rx crcOk => Sys2Proof.Machine.execTimePacket rx crcOk s
  | .trainPacket p crcOk => Sys2Proof.Machine.execTrainPacket p crcOk s
  | .missedClaim => Sys2Proof.Machine.execMissedClaim s
  | .leaseRefused => Sys2Proof.Machine.execLeaseRefused s
  | .dualClaim => Sys2Proof.Machine.execDualClaim s
  | .syncingToActive => Sys2Proof.Machine.execSyncingToActive s
  | .selfTestDone ok => Sys2Proof.Machine.execSelfTestDone ok s
  | .handoverRequest => Sys2Proof.Machine.execHandoverRequest s
  | .twinControl c => Sys2Proof.Machine.execTwinControl c s
  | .fenceSample a b rb => Sys2Proof.Machine.execFenceSample a b rb s
  | .testPulse line => Sys2Proof.Machine.execTestPulse line s
  | .discrepancy k => Sys2Proof.Machine.execDiscrepancy k s
  | .readBackFault p => Sys2Proof.Machine.execReadBackFault p s
  | .fenceInternalFault code => Sys2Proof.Machine.execFenceInternalFault code s
  | .sysclkDev => Sys2Proof.Machine.execSysclkDev s
  | .driveTimerExpire p low => Sys2Proof.Machine.execDriveTimerExpire p low s
  | .contactorTestStart p rb => Sys2Proof.Machine.execContactorTestStart p rb s
  | .contactorTestLowSide p rb => Sys2Proof.Machine.execContactorTestLowSide p rb s
  | .fenceParam c committed => Sys2Proof.Machine.execFenceParam c committed s
  | .fenceTest c => Sys2Proof.Machine.execFenceTest c s
  | .fenceReset c => Sys2Proof.Machine.execFenceReset c s
  | .lockoutEnd => Sys2Proof.Machine.execLockoutEnd s
  | .fenceSupplyRelease => Sys2Proof.Machine.execFenceSupplyRelease s
  | .fenceEventQueueDrain => Sys2Proof.Machine.execFenceEventQueueDrain s
  | .doorbellWrite off be v => Sys2Proof.Machine.execDoorbellWrite off be v s
  | .ringEnable r v => Sys2Proof.Machine.execRingEnable r v s
  | .ringDisable r v => Sys2Proof.Machine.execRingDisable r v s
  | .commandFetch r desc => Sys2Proof.Machine.execCommandFetch r desc s
  | .nop c => Sys2Proof.Machine.execNop c s
  | .configStage c => Sys2Proof.Machine.execConfigStage c s
  | .configCommit c => Sys2Proof.Machine.execConfigCommit c s
  | .configReadback c => Sys2Proof.Machine.execConfigReadback c s
  | .tableLoad c => Sys2Proof.Machine.execTableLoad c s
  | .telemetrySubscribe c => Sys2Proof.Machine.execTelemetrySubscribe c s
  | .eventRingDrain r => Sys2Proof.Machine.execEventRingDrain r s
  | .hostWdExpire => Sys2Proof.Machine.execHostWdExpire s
  | .holdoffEnd v => Sys2Proof.Machine.execHoldoffEnd v s
  | .hostReset linkLost => Sys2Proof.Machine.execHostReset linkLost s
  | .svcRead off n => Sys2Proof.Machine.execSvcRead off n s
  | .svcWrite off vs => Sys2Proof.Machine.execSvcWrite off vs s
  | .svcStatus => Sys2Proof.Machine.execSvcStatus s
  | .registerWrite off v be => Sys2Proof.Machine.execRegisterWrite off v be s
  | .angSnap v => Sys2Proof.Machine.execAngSnap v s
  | .gfmSnap v => Sys2Proof.Machine.execGfmSnap v s
  | .profSnap v => Sys2Proof.Machine.execProfSnap v s
  | .loopSnap v => Sys2Proof.Machine.execLoopSnap v s
  | .supSnap v => Sys2Proof.Machine.execSupSnap v s
  | .modSnap v => Sys2Proof.Machine.execModSnap v s
  | .pwmSnap v => Sys2Proof.Machine.execPwmSnap v s
  | .penSnap v => Sys2Proof.Machine.execPenSnap v s
  | .pntSnap v => Sys2Proof.Machine.execPntSnap v s
  | .adcSnap v => Sys2Proof.Machine.execAdcSnap v s
  | .acqSnap v => Sys2Proof.Machine.execAcqSnap v s
  | .clkSnap v => Sys2Proof.Machine.execClkSnap v s
  | .twnSnap v => Sys2Proof.Machine.execTwnSnap v s
  | .hostSnap v => Sys2Proof.Machine.execHostSnap v s
  | .hkSnap v => Sys2Proof.Machine.execHkSnap v s
  | .auxSnap v => Sys2Proof.Machine.execAuxSnap v s
  | .lrdSnap v => Sys2Proof.Machine.execLrdSnap v s
  | .sysSnap v => Sys2Proof.Machine.execSysSnap v s
  | .powerOnReset straps => Sys2Proof.Machine.execPowerOnReset straps s
  | .fenceInit crcOk selfOk => Sys2Proof.Machine.execFenceInit crcOk selfOk s
  | .imageLoad slot0 slot1 => Sys2Proof.Machine.execImageLoad slot0 slot1 s
  | .configApply => Sys2Proof.Machine.execConfigApply s
  | .bootReady => Sys2Proof.Machine.execBootReady s
  | .sysReset v => Sys2Proof.Machine.execSysReset v s
  | .imageChunk desc bytes => Sys2Proof.Machine.execImageChunk desc bytes s
  | .imageTransferTimeout => Sys2Proof.Machine.execImageTransferTimeout s
  | .imageBegin c => Sys2Proof.Machine.execImageBegin c s
  | .imageActivate c => Sys2Proof.Machine.execImageActivate c s
  | .attest c => Sys2Proof.Machine.execAttest c s
  | .secChal => Sys2Proof.Machine.execSecChal s
  | .secResp level slot key sig => Sys2Proof.Machine.execSecResp level slot key sig s
  | .harvestRound codes => Sys2Proof.Machine.execHarvestRound codes s
  | .supplyFailure ch => Sys2Proof.Machine.execSupplyFailure ch s
  | .thermalResume c => Sys2Proof.Machine.execThermalResume c s
  | .auxPeriodStart d => Sys2Proof.Machine.execAuxPeriodStart d s
  | .hallChange d code => Sys2Proof.Machine.execHallChange d code s
  | .bootstrapLow h => Sys2Proof.Machine.execBootstrapLow h s
  | .prechargeEnd d => Sys2Proof.Machine.execPrechargeEnd d s
  | .shuntCrossing g uv => Sys2Proof.Machine.execShuntCrossing g uv s
  | .auxBlankEnd g uv => Sys2Proof.Machine.execAuxBlankEnd g uv s
  | .limitInputEdge pin level => Sys2Proof.Machine.execLimitInputEdge pin level s
  | .stillDelayExpire d => Sys2Proof.Machine.execStillDelayExpire d s
  | .vgdLow => Sys2Proof.Machine.execVgdLow s
  | .auxDrive c => Sys2Proof.Machine.execAuxDrive c s
  | .auxSelftest c pass => Sys2Proof.Machine.execAuxSelftest c pass s
  | .snapshotComplete => Sys2Proof.Machine.execSnapshotComplete s
  | .powerFailWarning => Sys2Proof.Machine.execPowerFailWarning s
  | .larderResume => Sys2Proof.Machine.execLarderResume s
  | .larderRead c => Sys2Proof.Machine.execLarderRead c s
  | .larderMark c => Sys2Proof.Machine.execLarderMark c s
  | .uncorrectableError region addr hit => Sys2Proof.Machine.execUncorrectableError region addr hit s
  | .ceThreshold n region addr => Sys2Proof.Machine.execCeThreshold n region addr s
  | .tripInputRelease pin => Sys2Proof.Machine.execTripInputRelease pin s
  | .laneSyncRegained l => Sys2Proof.Machine.execLaneSyncRegained l s
  | .endpointPortUp sub port => Sys2Proof.Machine.execEndpointPortUp sub port s
  | .endpointEchoReq sub delay rx => Sys2Proof.Machine.execEndpointEchoReq sub delay rx s
  | .claimToggleSeen => Sys2Proof.Machine.execClaimToggleSeen s
  | .lockWindowOutside => Sys2Proof.Machine.execLockWindowOutside s
  | .controlDatapathMismatch => Sys2Proof.Machine.execControlDatapathMismatch s
  | .dataLinkUp speed link => Sys2Proof.Machine.execDataLinkUp speed link s
  | .msixTableWrite place v => Sys2Proof.Machine.execMsixTableWrite place v s

end Sys2Proof.Machine
end

