-- ==== Sys2Proof/Safety.lean ====
section
/-! DEFINITION. What a safe run is, and the words in which claims are made: a row that answers a next state, the parts of
the device, and what a row leaves unchanged. -/

namespace Sys2Proof.Machine

open Host

/-- The invariant of every step: host memory is in canonical form, and no posted write is left over between rows. -/
def State.Safe (s : State) : Prop := Memory.wf s.mem = true ∧ s.dev.host.out = []

/-- The row answers a next state, and that state satisfies `P`. -/
def Answers (i : Instr) (s : State) (P : State → Prop) : Prop := ∃ t, exec i s = .next t ∧ P t

/-- A mask of W1C bits stands in a register. -/
def Dev.stands (off : Nat) (m : W32) (d : Dev) : Prop := d.w1c off &&& m = m

/-- A command may start and its fields are in order: the steps of R431 up to its reserved inline bits. -/
abbrev Dev.admits (op mask : Nat) (c : Cmd) (d : Dev) : Prop :=
  c.wf = true ∧ d.waits c op = false ∧ c.flags &&& 0xFE = 0 ∧ c.resv = 0 ∧ c.len.toNat ≤ 2 ^ 24 ∧ d.ready = true ∧
    c.reservedSet mask = false

/-- The parts of the device. The registers and the host interface are divided: values and captured values, and what a
report changes (W1C bits; rings, vectors and coalescing counters), what a completion changes (commands in progress and
their counters), and the rest of the host interface. -/
inductive Part where
  | ang | gfm | prof | loop | sup | mod | pwm | pen | pnt | adc | acq | clk | twn | fen | sec | hk | aux | lrd | sys | free
  | values | snaps | events | reports | commands | host
deriving DecidableEq, Repr

/-- What a completion or a report changes in the host interface is left out. -/
def hostCore (h : HostState) : HostState :=
  { h with rings := .empty, msix := .empty, coal := .empty, coalCnt := 0, out := [],
           inflight := [], cmdCnt := 0, cmdErrCnt := 0, cplLostCnt := 0, pcie := { h.pcie with aerCnt := 0 } }

/-- A part is the same in two devices. The packets of the last row are no part of the twin's state. -/
def Part.same (p : Part) (a b : Dev) : Prop :=
  match p with
  | .ang => a.ang = b.ang
  | .gfm => a.gfm = b.gfm
  | .prof => a.prof = b.prof
  | .loop => a.loop = b.loop
  | .sup => a.sup = b.sup
  | .mod => a.mod = b.mod
  | .pwm => a.pwm = b.pwm
  | .pen => a.pen = b.pen
  | .pnt => a.pnt = b.pnt
  | .adc => a.adc = b.adc
  | .acq => a.acq = b.acq
  | .clk => a.clk = b.clk
  | .twn => { a.twn with sent := [] } = { b.twn with sent := [] }
  | .fen => a.fen = b.fen
  | .sec => a.sec = b.sec
  | .hk => a.hk = b.hk
  | .aux => a.aux = b.aux
  | .lrd => a.lrd = b.lrd
  | .sys => a.sys = b.sys
  | .free => a.free = b.free
  | .values => { a.regs with events := .empty, snaps := .empty } = { b.regs with events := .empty, snaps := .empty }
  | .snaps => a.regs.snaps = b.regs.snaps
  | .events => a.regs.events = b.regs.events
  | .reports => a.host.rings = b.host.rings ∧ a.host.msix = b.host.msix ∧ a.host.coal = b.host.coal ∧
      a.host.coalCnt = b.host.coalCnt
  | .commands => a.host.inflight = b.host.inflight ∧ a.host.cmdCnt = b.host.cmdCnt ∧
      a.host.cmdErrCnt = b.host.cmdErrCnt ∧ a.host.cplLostCnt = b.host.cplLostCnt ∧
      a.host.pcie.aerCnt = b.host.pcie.aerCnt
  | .host => hostCore a.host = hostCore b.host

/-- No part changes but those named. -/
structure Dev.Keeps (ps : List Part) (a b : Dev) : Prop where
  same : ∀ p, p ∉ ps → p.same a b

/-- Nothing of the device changes but the parts named, and the queue stays. -/
def ChangesOnly (ps : List Part) (s t : State) : Prop := Dev.Keeps ps s.dev t.dev ∧ t.pending = s.pending

/-- Every byte of host memory reads as before (in a state without a posted write left over, as every step leaves it). -/
def Quiet (s t : State) : Prop := s.dev.host.out = [] → ∀ a, t.readByte a = s.readByte a

/-- The command completes with a status, and the device as it stands before its completion is written satisfies `P`. -/
def Completes (i : Instr) (c : Cmd) (op st : Nat) (s : State) (P : Dev → Prop) : Prop :=
  ∃ d, exec i s = .next (s.after (d.complete c op st)) ∧ P d

/-- The addresses at which a descriptor of ring r may store: the next slot of the ring, its shadow dword, and the
messages of the vectors (R420, R421, R445). -/
def Dev.descPlace (d : Dev) (r a : Nat) : Prop :=
  let slot := d.ringBase r + 32 * (d.ring r).prod
  let shadow := d.cfg Reg.HOST_SHADOW_L + 2 ^ 32 * d.cfg Reg.HOST_SHADOW_H + 4 * r
  (slot ≤ a ∧ a < slot + 32) ∨ (shadow ≤ a ∧ a < shadow + 4) ∨
    ∃ v, (d.vec v).addr.toNat ≤ a ∧ a < (d.vec v).addr.toNat + 4

/-- The addresses at which one event of a block may store. -/
def Dev.eventPlace (d : Dev) (blk a : Nat) : Prop := d.descPlace (d.eventRing blk) a

/-- The base of the shadow area (R421). -/
def Dev.shadowBase (d : Dev) : Nat := d.cfg Reg.HOST_SHADOW_L + 2 ^ 32 * d.cfg Reg.HOST_SHADOW_H

/-- What a capture set holds was sampled before tick t. -/
def setOlder (x : AcqSet) (t : Nat) : Prop :=
  (∀ r ∈ x.closed, recLast r < t) ∧ (∀ p ∈ x.pre, p.tick < t) ∧
    ∀ r ∈ x.cur, r.trigTick < t ∧ ∀ p ∈ recKept r, p.tick < t

/-- The capture set k of the device, as a trigger with mask bit `bit` at this tick leaves it (R324, R325, R327): a set whose
samples are all older keeps the trigger for its next sample; a READY one whose newest sample is of this very tick, no other
trigger waiting, begins its record with it. -/
def Dev.Triggered (k bit : Nat) (y : AcqSet) (d : Dev) : Prop :=
  let x := d.aset k
  (x.phase = .disarmed → (∀ r ∈ x.closed, recLast r < d.now) → y = x) ∧
  (x.phase ≠ .disarmed → (x.phase = .post → x.cur ≠ none) → setOlder x d.now →
    y = { x with trig := x.trig ++ [(bit, d.now)] }) ∧
  ∀ p rest, x.phase = .ready → x.pre = p :: rest → p.tick = d.now → (∀ q ∈ rest, q.tick < d.now) → x.trig = [] →
    (∀ r ∈ x.closed, recLast r < d.now) → d.asetP k + 1 ≠ d.asetN k →
    y.phase = .post ∧ y.pre = [] ∧ y.closed = x.closed ∧ ∃ r, y.cur = some r ∧ r.mask = 2 ^ bit ∧
      r.trigTick = d.now ∧ r.samples = p :: rest.take (d.asetP k) ∧ r.pre = min (d.asetP k) rest.length ∧ r.seq = x.seq

end Sys2Proof.Machine
end

