-- ==== Sys2Proof/WellFormed.lean ====
section
/-! DEFINITION. Well-formed commands: the operands of a row agree with one another. Every other operand is as its type
says, so most rows are always well formed. -/

namespace Sys2Proof

open Sys2Proof.Machine

/-- Speeds and widths that HOST_LINK names (R409). -/
def linkWf (speed width : Nat) : Bool := decide (speed ≠ 0 ∧ (width = 1 ∨ width = 2 ∨ width = 4))

/-- A public key of 97 bytes and a signature of 96 (R455, R470). -/
def respWf (key sig : List Byte) : Bool := decide (key.length = 97 ∧ sig.length = 96)

/-- A well-formed image descriptor brings as many bytes as it says (R428). -/
def chunkWf (desc : BitVec 256) (bytes : List Byte) : Bool :=
  !chunkDescOk desc || decide (bytes.length = bits desc.toNat 159 128)

/-- The operands of a command agree. -/
def Instr.wf : Instr → Bool
  | .tick _ => true
  | .strokeStart => true
  | .freeStrokeStart => true
  | .sampleInstant => true
  | .angleStampFire _ => true
  | .machineEvaluation => true
  | .bkrClosePulseEnd => true
  | .bkrFbChange _ => true
  | .bkrNoClose => true
  | .resyncTimeout => true
  | .bsTimeout => true
  | .stopTimeout => true
  | .modeRequest c => c.wf
  | .profileTick => true
  | .profileStart c => c.wf
  | .profileModify c => c.wf
  | .profileStop c => c.wf
  | .setpointWrite c => c.wf
  | .loopEvaluation => true
  | .frtCleared => true
  | .limitExit => true
  | .frtTmaxExpire => true
  | .limTmaxExpire => true
  | .subExpired _ => true
  | .followingErrorTrip _ => true
  | .deadlineMiss => true
  | .injectMiss _ => true
  | .softRampEnd => true
  | .furrowBuild => true
  | .modFaultClear _ => true
  | .moduleBypass c => c.wf
  | .bypassCloseRepeat _ => true
  | .moduleBypassTimeout _ => true
  | .pwmPeriodStart _ => true
  | .compareMatch _ => true
  | .deadTimeExpire _ => true
  | .pwmCommit _ => true
  | .localTrip _ => true
  | .blankEnd _ => true
  | .frameLaunch _ _ => true
  | .frameReceived _ _ _ => true
  | .urgentFaultReceived _ _ _ => true
  | .laneSyncLoss _ => true
  | .breakDeclared _ => true
  | .breakHealed _ => true
  | .msgTimeout _ => true
  | .stringTrain c => c.wf
  | .echoResponse _ _ _ _ _ => true
  | .echoTimeout _ _ _ => true
  | .syncFail _ => true
  | .leaseFail _ => true
  | .trainDone => true
  | .endpointDrillReceived _ _ _ _ => true
  | .endpointHold _ => true
  | .endpointBlockReceived _ _ => true
  | .endpointFaultDetect _ _ => true
  | .endpointPortDown _ _ => true
  | .staleScanVisit => true
  | .pointRingDrain _ => true
  | .pointWrite c => c.wf
  | .pointReadBlock c => c.wf
  | .sarConversionResult _ _ => true
  | .sinc2Decision _ => true
  | .sdClockLost _ => true
  | .sdDataLost _ => true
  | .sarBankFail _ _ => true
  | .channelRecover _ => true
  | .triggerUnitFire _ => true
  | .extTrigIn _ => true
  | .autoTimeout _ => true
  | .recordDelivery _ => true
  | .captureArm c => c.wf
  | .captureDisarm c => c.wf
  | .captureForce c => c.wf
  | .refLost => true
  | .refBack _ => true
  | .pllLock _ => true
  | .lockFail => true
  | .lockRetry => true
  | .pullDone => true
  | .stepDone => true
  | .timeSet c => c.wf
  | .ppsEdge _ => true
  | .ppsLost => true
  | .secondBoundary => true
  | .clockFailure => true
  | .twinLinkDown => true
  | .twinLinkUp => true
  | .statusPacket _ _ => true
  | .mirrorRecord _ _ => true
  | .drillPacket _ _ => true
  | .resignPacket _ _ _ => true
  | .tripPacket _ _ _ => true
  | .handoverPacket _ _ _ => true
  | .timePacket _ _ => true
  | .trainPacket _ _ => true
  | .missedClaim => true
  | .leaseRefused => true
  | .dualClaim => true
  | .syncingToActive => true
  | .selfTestDone _ => true
  | .handoverRequest => true
  | .twinControl c => c.wf
  | .fenceSample _ _ _ => true
  | .testPulse _ => true
  | .discrepancy _ => true
  | .readBackFault _ => true
  | .fenceInternalFault _ => true
  | .sysclkDev => true
  | .driveTimerExpire _ _ => true
  | .contactorTestStart _ _ => true
  | .contactorTestLowSide _ _ => true
  | .fenceParam c _ => c.wf
  | .fenceTest c => c.wf
  | .fenceReset c => c.wf
  | .lockoutEnd => true
  | .fenceSupplyRelease => true
  | .fenceEventQueueDrain => true
  | .doorbellWrite _ _ _ => true
  | .ringEnable _ _ => true
  | .ringDisable _ _ => true
  | .commandFetch _ _ => true
  | .nop c => c.wf
  | .configStage c => c.wf
  | .configCommit c => c.wf
  | .configReadback c => c.wf
  | .tableLoad c => c.wf
  | .telemetrySubscribe c => c.wf
  | .eventRingDrain _ => true
  | .hostWdExpire => true
  | .holdoffEnd _ => true
  | .hostReset _ => true
  | .svcRead _ _ => true
  | .svcWrite _ _ => true
  | .svcStatus => true
  | .registerWrite _ _ _ => true
  | .angSnap _ => true
  | .gfmSnap _ => true
  | .profSnap _ => true
  | .loopSnap _ => true
  | .supSnap _ => true
  | .modSnap _ => true
  | .pwmSnap _ => true
  | .penSnap _ => true
  | .pntSnap _ => true
  | .adcSnap _ => true
  | .acqSnap _ => true
  | .clkSnap _ => true
  | .twnSnap _ => true
  | .hostSnap _ => true
  | .hkSnap _ => true
  | .auxSnap _ => true
  | .lrdSnap _ => true
  | .sysSnap _ => true
  | .powerOnReset _ => true
  | .fenceInit _ _ => true
  | .imageLoad _ _ => true
  | .configApply => true
  | .bootReady => true
  | .sysReset _ => true
  | .imageChunk desc bytes => chunkWf desc bytes
  | .imageTransferTimeout => true
  | .imageBegin c => c.wf
  | .imageActivate c => c.wf
  | .attest c => c.wf
  | .secChal => true
  | .secResp _ _ key sig => respWf key sig
  | .harvestRound _ => true
  | .supplyFailure _ => true
  | .thermalResume c => c.wf
  | .auxPeriodStart _ => true
  | .hallChange _ _ => true
  | .bootstrapLow _ => true
  | .prechargeEnd _ => true
  | .shuntCrossing _ _ => true
  | .auxBlankEnd _ _ => true
  | .limitInputEdge _ _ => true
  | .stillDelayExpire _ => true
  | .vgdLow => true
  | .auxDrive c => c.wf
  | .auxSelftest c _ => c.wf
  | .snapshotComplete => true
  | .powerFailWarning => true
  | .larderResume => true
  | .larderRead c => c.wf
  | .larderMark c => c.wf
  | .uncorrectableError _ _ _ => true
  | .ceThreshold _ _ _ => true
  | .tripInputRelease _ => true
  | .laneSyncRegained _ => true
  | .endpointPortUp _ _ => true
  | .endpointEchoReq _ _ _ => true
  | .claimToggleSeen => true
  | .lockWindowOutside => true
  | .controlDatapathMismatch => true
  | .dataLinkUp speed link => linkWf speed.val link.width.val
  | .msixTableWrite _ _ => true

end Sys2Proof
end

