-- ==== Sys2Proof/Certificates/Slice0/Obligations.lean ====
section
/-! DEFINITION. The statements about the YN9160 for the provers. `Answers i s P`: the row answers a next state, and it
satisfies P. `ChangesOnly ps s t`: no other part of the device changes, and the queue stays. `Quiet s t`: every byte of
host memory reads as before. `s.fresh` is the device as a row finds it, and `s.after d` the machine once the row has left the
device as `d` and its posted writes have reached memory. -/

open Sys2Proof Sys2Proof.Machine

/-- For every command and state, a step of the state with the command at the front of its queue is the command's effect on
the state with the rest of the queue. The queue is the model's (log 3). -/
def Obligations.StepRunsFrontCommand : Prop :=
  ∀ (c : Instr) (rest : List Instr) (s : State),
    step { s with pending := c :: rest } = exec c { s with pending := rest }

/-- The model's choice (log 1): with no command waiting, a step answers the state as it is. -/
def Obligations.EmptyQueueIdles : Prop := ∀ s : State, s.pending = [] → step s = .next s

/-- Every step keeps the invariant: canonical host memory, every posted write of a row in memory when the row ends (R438),
and the queue loses its front command and nothing else. -/
def Obligations.StepKeepsSafe : Prop :=
  ∀ s t : State, s.Safe → step s = .next t → t.Safe ∧ t.pending = s.pending.tail

/-- The state after reset has the invariant of every step. -/
def Obligations.ResetIsSafe : Prop := State.reset.Safe ∧ State.reset.pending = []

/-- Every well-formed row answers a next state in every state, and every other row is the fault `malformed` (the model's
choice, log 7): no row is refused. -/
def Obligations.WellFormedRowsAnswer : Prop :=
  ∀ (i : Instr) (s : State),
    (i.wf = true → ∃ t, exec i s = .next t) ∧ (i.wf = false → exec i s = .fault .malformed)

/-- R29, R37, R343: a tick advances the count and, while angle strokes run, the rotor accumulator by FW; a cycle of the
fallback oscillator is four ticks. R340: the logic leaves it 256 ticks after a lock. R508, R509, R513: a due record takes the
next number and its line; that the records of a tick are numbered as it ends is the model's (log 55, DEDUCED). -/
def Obligations.TickAdvancesRotor : Prop :=
  ∀ (pins : TickPins) (s : State), Answers (.tick pins) s fun t =>
    (s.dev.clk.fallback = false → t.dev.ang = { s.dev.ang with
      tick := s.dev.ang.tick + 1
      prevAcc := s.dev.ang.acc
      acc := if s.dev.ang.cur.angle then s.dev.ang.acc + BitVec.ofNat 64 s.dev.ang.cur.fw else s.dev.ang.acc }) ∧
    (s.dev.clk.fallback = true → t.dev.ang.tick = s.dev.ang.tick + 4 ∧ t.dev.ang.cur = s.dev.ang.cur ∧
      t.dev.ang.jobs = s.dev.ang.jobs ∧
      (s.dev.clk.state = .locked → s.dev.clk.lockTick + 256 ≤ s.dev.now + 4 → t.dev.clk.fallback = false)) ∧
    (∀ body, s.dev.lrd.due = [(0, body)] → s.dev.lrd.halt = false → 3 ≤ s.dev.sec.phase →
      t.dev.lrd.head = s.dev.lrd.head + 1 ∧ t.dev.lrd.due = [] ∧ t.dev.stands Reg.LRD_EVENT 1 ∧
      t.dev.lrd.lines.get [] (s.dev.lrd.head % recordLines) = leBytes 4 (s.dev.lrd.head + 1) ++ body ++
        leBytes 4 (crc32 (leBytes 4 (s.dev.lrd.head + 1) ++ body)).toNat) ∧
    (∀ p ∈ [Part.gfm, .prof, .sup, .mod, .fen, .hk, .aux], p.same s.dev t.dev) ∧
    (s.dev.lrd.due = [] → Part.lrd.same s.dev t.dev) ∧ (s.dev.clk.fallback = false → Part.sec.same s.dev t.dev) ∧
    t.pending = s.pending

/-- R35: each stroke start increments SN by one; a row whose boundary is not reached changes nothing (log 6). -/
def Obligations.StrokeStartAdvancesSn : Prop :=
  (∀ s : State, s.dev.twinEn = false ∨ s.dev.twn.loadTb = false →
    ((s.dev.ang.cur.angle = true ∧ s.fresh.atBoundary = true) ∨
     (s.dev.ang.cur.angle = false ∧ s.dev.ang.cur.start + s.dev.ang.cur.len ≤ s.dev.now ∧
       s.fresh.nextBoundary.g.angle = true)) →
    Answers .strokeStart s fun t => t.dev.ang.cur.sn = s.dev.ang.cur.sn + 1 ∧ t.dev.ang.tick = s.dev.ang.tick ∧
      t.pending = s.pending) ∧
  (∀ s : State, s.dev.twinEn = false ∨ s.dev.twn.loadTb = false → s.dev.ang.cur.angle = false →
    s.dev.ang.cur.start + s.dev.ang.cur.len ≤ s.dev.now → s.fresh.nextBoundary.g.angle = false →
    Answers .freeStrokeStart s fun t => t.dev.ang.cur.sn = s.dev.ang.cur.sn + 1 ∧ t.dev.ang.tick = s.dev.ang.tick ∧
      t.pending = s.pending) ∧
  (∀ s : State, s.dev.ang.cur.angle = true → s.fresh.atBoundary = false →
    exec .strokeStart s = .next (s.after s.fresh)) ∧
  (∀ s : State, s.dev.ang.cur.angle = true ∨ s.dev.now < s.dev.ang.cur.start + s.dev.ang.cur.len →
    exec .freeStrokeStart s = .next (s.after s.fresh))

/-- R42: the sample instant of a stroke adds that stroke to those in progress. -/
def Obligations.SampleInstantTakesOneStroke : Prop :=
  (∀ s : State, s.dev.lastGrid.start + s.dev.lastGrid.len ≤ s.dev.now + s.dev.tbTsa →
    Answers .sampleInstant s fun t =>
      (∃ j : Job, t.dev.ang.jobs = s.dev.settledJobs ++ [j] ∧ j.sampleTick = s.dev.now ∧ j.evaluated = false ∧
        j.missed = false ∧ j.built = false) ∧
      t.dev.ang.cur = s.dev.ang.cur ∧ t.dev.ang.tick = s.dev.ang.tick ∧ t.dev.ang.acc = s.dev.ang.acc ∧
      t.dev.ang.rev = s.dev.ang.rev ∧ t.pending = s.pending) ∧
  (∀ s : State, s.dev.now + s.dev.tbTsa < s.dev.lastGrid.start + s.dev.lastGrid.len →
    exec .sampleInstant s = .next (s.after s.fresh))

/-- R45: a stamp fires in the tick whose interval contains its angle, and at most once for each revolution count. -/
def Obligations.AngleStampFiresOncePerRevolution : Prop :=
  ∀ (u : Fin 8) (s : State),
    (s.dev.ang.cur.angle = true → s.dev.clk.fallback = false → s.dev.unitOn u.val = true → s.dev.fld (Reg.ACQ_UNIT_CFG u.val) 30 28 = 4 →
      (s.dev.aunit u.val).lastRev ≠ some s.dev.ang.rev →
      crossed s.dev.ang.prevAcc s.dev.ang.acc (s.dev.cfg (Reg.ACQ_UNIT_LA u.val)) = true →
      Answers (.angleStampFire u) s fun t =>
        t.dev.aunit u.val = { s.dev.aunit u.val with pending := true, lastRev := some s.dev.ang.rev } ∧
        ChangesOnly [.acq] s t ∧ Quiet s t) ∧
    ((s.dev.aunit u.val).lastRev = some s.dev.ang.rev ∨ s.dev.clk.fallback = true →
      exec (.angleStampFire u) s = .next (s.after s.fresh))

/-- R62, R63: the lines of MODE_REQUEST's completion table for a permitted request, a reserved mode and a refused one. -/
def Obligations.ModeRequestCompletes : Prop :=
  ∀ (c : Cmd) (s : State), s.dev.admits 0x02 (inlMask [(20, 7), (21, 3)]) c →
    (∀ m, modeOf (c.byte 20) = some m → s.dev.twn.st ≠ .standby →
      ((s.dev.clk.fallback = false ∧ s.dev.sec.debug ≠ 2) ∨ m = .off) → s.dev.gfm.req = none → m ≠ s.dev.gfm.mode →
      s.fresh.modeAllowed s.dev.gfm.mode m (bitAt (c.byte 21) 1) = true →
      exec (.modeRequest c) s = .next (s.after ((s.fresh.onGfm fun g => { g with
        req := some (ModeReq.mk m (bitAt (c.byte 21) 0) (bitAt (c.byte 21) 1) 1 s.dev.now) }).complete c 0x02 stOk))) ∧
    (modeOf (c.byte 20) = none → exec (.modeRequest c) s = .next (s.after (s.fresh.complete c 0x02 stBadParam))) ∧
    (∀ m, modeOf (c.byte 20) = some m → s.dev.gfm.req = none → m ≠ s.dev.gfm.mode →
      s.fresh.modeAllowed s.dev.gfm.mode m (bitAt (c.byte 21) 1) = false →
      exec (.modeRequest c) s = .next (s.after (s.fresh.complete c 0x02 stRejected)))

/-- R31, R32, R67, R68, R70: what a machine evaluation delivers. -/
def Obligations.MachineEvaluationDelivers : Prop :=
  (∀ (s : State) (i : McInput), s.dev.gfm.mcDue = some i →
    Answers .machineEvaluation s fun t =>
      t.dev.gfm.mcDue = none ∧
      (angleMode i.mode = true → s.dev.fwMin ≤ s.dev.fwMax →
        ∃ fw e, t.dev.ang.pendFw = some fw ∧ s.dev.fwMin ≤ fw ∧ fw ≤ s.dev.fwMax ∧
          t.dev.gfm.next = some (some fw, e, i.phi) ∧
          (signed 32 (s.dev.cfg Reg.GFM_E_MIN) ≤ signed 32 (s.dev.cfg Reg.GFM_E_MAX) →
            signed 32 (s.dev.cfg Reg.GFM_E_MIN) ≤ e ∧ e ≤ signed 32 (s.dev.cfg Reg.GFM_E_MAX))) ∧
      (angleMode i.mode = false → t.dev.gfm.next = some (none, 0, i.phi)) ∧
      t.dev.ang.cur = s.dev.ang.cur ∧ t.dev.ang.tick = s.dev.ang.tick ∧ t.dev.ang.acc = s.dev.ang.acc ∧
      t.pending = s.pending) ∧
  (∀ s : State, s.dev.gfm.mcDue = none → exec .machineEvaluation s = .next (s.after s.fresh))

/-- R78, R79, R81: the rows of the breaker. -/
def Obligations.BreakerRowsTakeEffect : Prop :=
  (∀ (s : State) (e : Nat), s.dev.gfm.pulseEnd = some e → e ≤ s.dev.now → Answers .bkrClosePulseEnd s fun t =>
    t.dev.gfm = { s.dev.gfm with bkrClose := false, pulseEnd := none } ∧ ChangesOnly [.gfm] s t ∧ Quiet s t) ∧
  (∀ (l : Bool) (s : State), l ≠ s.dev.gfm.bkrFb → Answers (.bkrFbChange l) s fun t =>
    t.dev.gfm.bkrFb = l ∧ t.dev.gfm.mode = s.dev.gfm.mode ∧
    (s.dev.gfm.mode = .resync → l = true → s.dev.gfm.auto = none →
      t.dev.stands Reg.GFM_EVENT 0x10 ∧ t.dev.gfm.attempt = none ∧
      ∃ r, t.dev.gfm.auto = some r ∧ r.target = .forming ∧ r.cause = 4) ∧
    (s.dev.gfm.mode = .forming → l = false → t.dev.stands Reg.GFM_EVENT 0x40) ∧
    ChangesOnly [.gfm, .events, .reports] s t) ∧
  (∀ (s : State) (a : Nat), s.dev.gfm.attempt = some a → s.dev.gfm.mode = .resync → s.dev.gfm.bkrFb = false →
    a + s.dev.fld Reg.GFM_BKR 7 0 * 10 * msTicks ≤ s.dev.now → Answers .bkrNoClose s fun t =>
      t.dev.gfm.attempt = none ∧ t.dev.gfm.bkrClose = false ∧ t.dev.gfm.ready = false ∧
      t.dev.gfm.failures = s.dev.gfm.failures + 1 ∧ t.dev.stands Reg.GFM_EVENT 0x20 ∧
      (s.dev.fld Reg.GFM_BKR 25 24 < s.dev.gfm.failures + 1 → s.dev.gfm.auto = none →
        ∃ r, t.dev.gfm.auto = some r ∧ r.target = .forming ∧ r.cause = 8) ∧
      ChangesOnly [.gfm, .events, .reports] s t) ∧
  (∀ s : State, s.dev.gfm.mode = .resync → s.dev.gfm.auto = none →
    s.dev.gfm.entryTick + s.dev.fld Reg.GFM_RS_TIME 15 0 * 100 * msTicks < s.dev.now →
    Answers .resyncTimeout s fun t => (∃ r, t.dev.gfm.auto = some r ∧ r.target = .forming ∧ r.cause = 5) ∧
      ChangesOnly [.gfm] s t ∧ Quiet s t)

/-- R59, R74: the two timeouts lead to TRIP_SOFT, cause 15 and cause 16. That the action starts with the stroke after the
last one sampled is the model's reading (log 84, DEDUCED). -/
def Obligations.ModeTimeoutsTripSoft : Prop :=
  (∀ s : State, s.dev.gfm.mode = .blackstart →
    s.dev.gfm.entryTick + s.dev.fld Reg.GFM_BS 15 0 * 10 * msTicks ≤ s.dev.now → s.dev.tripping = false →
    s.dev.autoDue 2 = false → (∀ d ∈ s.dev.sup.delayed, d.cause ≠ 15) → Answers .bsTimeout s fun t =>
      t.dev.sup = { s.dev.sup with delayed := s.dev.sup.delayed ++
        [{ cause := 15, cls := .soft, details := [], sn := s.dev.lastSn + 1 }] } ∧ ChangesOnly [.sup] s t ∧ Quiet s t) ∧
  (∀ s : State, s.dev.gfm.mode = .stopping →
    s.dev.gfm.entryTick + s.dev.fld Reg.GFM_STOP 31 16 * 10 * msTicks ≤ s.dev.now → s.dev.tripping = false →
    s.dev.autoDue 11 = false → (∀ d ∈ s.dev.sup.delayed, d.cause ≠ 16) → Answers .stopTimeout s fun t =>
      t.dev.sup = { s.dev.sup with delayed := s.dev.sup.delayed ++
        [{ cause := 16, cls := .soft, details := [], sn := s.dev.lastSn + 1 }] } ∧ ChangesOnly [.sup] s t ∧ Quiet s t)

/-- R94–R97, R99: what each profile command leaves waiting, and its status: also on a channel that refuses it and for a
channel number out of range. -/
def Obligations.ProfileCommandsAreAccepted : Prop :=
  (∀ (c : Cmd) (s : State), s.dev.admits 0x04 (inlMask [(20, 0xFF), (21, 1), (24, 0xFFFFFFFF)]) c → c.byte 20 < 8 →
    s.dev.rankBusy = false → s.dev.chanRefused (c.byte 20) = false →
    (c.byte 21 = 0 → c.len = 0 → rampValid (s.dev.rampPlanned (c.byte 20)) = true →
      exec (.profileStart c) s = .next (s.after
        ((s.fresh.queueOp (.start (c.byte 20) (BitVec.ofNat 32 (c.word 24)) none false)).complete c 0x04 stOk))) ∧
    (c.byte 21 = 1 → c.len = 36 → c.bufErr = false → rampValid (bufRamp c) = true →
      exec (.profileStart c) s = .next (s.after
        ((s.fresh.queueOp (.start (c.byte 20) (BitVec.ofNat 32 (c.word 24)) (some (bufRamp c)) false)).completeRes
          c 0x04 stOk 36 [])))) ∧
  (∀ (c : Cmd) (s : State), s.dev.admits 0x05 (inlMask [(20, 0xFF), (22, 0x3FF), (24, 0xFFFFFFFF)]) c →
    c.byte 20 < 16 → s.dev.chanRefused (c.byte 20) = false →
    (bitAt (c.half 22) 9 = true → 8 ≤ c.byte 20 → s.dev.driveKind (c.byte 20 - 8) = 0 ∨ 12 ≤ c.byte 20) →
    (bitAt (c.half 22) 9 = true → 8 ≤ c.byte 20 → -(2 ^ 23 : Int) ≤ (BitVec.ofNat 32 (c.word 24)).toInt ∧
      (BitVec.ofNat 32 (c.word 24)).toInt < 2 ^ 23) →
    (c.half 22 % 512 = 0 → c.len = 0 → rampValid (s.dev.rampPlanned (c.byte 20)) = true →
      exec (.profileModify c) s = .next (s.after
        ((s.fresh.queueOp (.modify (c.byte 20) 0 Ramp.reset
          (if bitAt (c.half 22) 9 then some (BitVec.ofNat 32 (c.word 24)) else none))).complete c 0x05 stOk))) ∧
    (c.half 22 % 512 ≠ 0 → c.len = 36 → c.bufErr = false →
      rampValid (rampMerge (c.half 22 % 512) (bufRamp c) (s.dev.rampPlanned (c.byte 20))) = true →
      exec (.profileModify c) s = .next (s.after
        ((s.fresh.queueOp (.modify (c.byte 20) (c.half 22 % 512) (bufRamp c)
          (if bitAt (c.half 22) 9 then some (BitVec.ofNat 32 (c.word 24)) else none))).completeRes c 0x05 stOk 36 [])))) ∧
  (∀ (c : Cmd) (s : State), s.dev.admits 0x06 (inlMask [(20, 0xFF), (21, 1)]) c → c.byte 20 < 16 → c.len = 0 →
    (s.dev.chanRefused (c.byte 20) = true → exec (.profileStop c) s = .next (s.after (s.fresh.complete c 0x06 stRejected))) ∧
    (s.dev.chanRefused (c.byte 20) = false → (s.dev.prf (c.byte 20)).seg = .idle → s.dev.prof.ops = [] →
      exec (.profileStop c) s = .next (s.after (s.fresh.complete c 0x06 stOk))) ∧
    (s.dev.chanRefused (c.byte 20) = false → (s.dev.prf (c.byte 20)).seg ≠ .idle ∨ s.dev.prof.ops ≠ [] →
      exec (.profileStop c) s = .next (s.after
        ((s.fresh.queueOp (.stop (c.byte 20) (decide (c.byte 21 = 1)))).complete c 0x06 stOk)))) ∧
  (∀ (c : Cmd) (s : State), s.dev.admits 0x03 (inlMask [(20, 0xFF), (24, 0xFFFFFFFF)]) c →
    (c.byte 20 < 8 → c.len = 0 → s.dev.chanRefused (c.byte 20) = true →
      exec (.setpointWrite c) s = .next (s.after (s.fresh.complete c 0x03 stRejected))) ∧
    (8 ≤ c.byte 20 → exec (.setpointWrite c) s = .next (s.after (s.fresh.complete c 0x03 stBadParam)))) ∧
  (∀ (c : Cmd) (s : State), s.dev.admits 0x04 (inlMask [(20, 0xFF), (21, 1), (24, 0xFFFFFFFF)]) c →
    (c.byte 20 < 8 → c.len.toNat = (if c.byte 21 = 1 then 36 else 0) → s.dev.chanRefused (c.byte 20) = true →
      exec (.profileStart c) s = .next (s.after (s.fresh.complete c 0x04 stRejected))) ∧
    (8 ≤ c.byte 20 → exec (.profileStart c) s = .next (s.after (s.fresh.complete c 0x04 stBadParam)))) ∧
  (∀ (c : Cmd) (s : State), s.dev.admits 0x05 (inlMask [(20, 0xFF), (22, 0x3FF), (24, 0xFFFFFFFF)]) c →
    (c.byte 20 < 16 → c.len.toNat = (if c.half 22 % 512 = 0 then 0 else 36) →
      (bitAt (c.half 22) 9 = true → 8 ≤ c.byte 20 → -(2 ^ 23 : Int) ≤ (BitVec.ofNat 32 (c.word 24)).toInt ∧
        (BitVec.ofNat 32 (c.word 24)).toInt < 2 ^ 23) → s.dev.chanRefused (c.byte 20) = true →
      exec (.profileModify c) s = .next (s.after (s.fresh.complete c 0x05 stRejected))) ∧
    (16 ≤ c.byte 20 → exec (.profileModify c) s = .next (s.after (s.fresh.complete c 0x05 stBadParam)))) ∧
  (∀ (c : Cmd) (s : State), 16 ≤ c.byte 20 → s.dev.admits 0x06 (inlMask [(20, 0xFF), (21, 1)]) c →
    exec (.profileStop c) s = .next (s.after (s.fresh.complete c 0x06 stBadParam)))

/-- R98: what SETPOINT_WRITE leaves waiting, and what the profile tick that applies it leaves. -/
def Obligations.SetpointWriteSetsPosition : Prop :=
  (∀ (c : Cmd) (s : State), s.dev.admits 0x03 (inlMask [(20, 0xFF), (24, 0xFFFFFFFF)]) c → c.byte 20 < 8 → c.len = 0 →
    s.dev.rankBusy = false → s.dev.chanRefused (c.byte 20) = false →
    exec (.setpointWrite c) s = .next (s.after
      ((s.fresh.queueOp (.write (c.byte 20) (BitVec.ofNat 32 (c.word 24)))).complete c 0x03 stOk))) ∧
  (∀ (k : Nat) (v : W32) (s : State), k < 8 → s.dev.now % 400 < s.dev.cycle →
    (s.dev.prof.lastTick / 400 ≠ s.dev.now / 400 ∨ s.dev.now = 0) → s.dev.prof.ops = [.write k v] → s.dev.prof.tripHalt = false →
    Answers .profileTick s fun t =>
      (t.dev.prf k).pos = targetPos k v ∧ (t.dev.prf k).rem = 0 ∧ (t.dev.prf k).target = v ∧ (t.dev.prf k).vel = 0 ∧
      (t.dev.prf k).seg = .idle ∧ (t.dev.prf k).ramp = (s.dev.prf k).ramp ∧ (t.dev.prf k).held = (s.dev.prf k).held ∧
      t.dev.stands (Reg.PROF_EVENT k) 1)

/-- R85: the profile tick. -/
def Obligations.ProfileTickMovesEachChannelOnce : Prop :=
  (∀ s : State, s.dev.now % 400 < s.dev.cycle →
    (s.dev.prof.lastTick / 400 ≠ s.dev.now / 400 ∨ s.dev.now = 0) → Answers .profileTick s fun t =>
      t.dev.prof.tripHalt = false ∧ t.dev.prof.lastTick = s.dev.now ∧
      (s.dev.prof.ops = [] → s.dev.prof.tripHalt = false → ∀ c < 8,
        ((s.dev.prf c).seg = .idle → t.dev.prf c = s.dev.prf c) ∧
        ((s.dev.prf c).seg ≠ .idle → t.dev.prf c = (moveTick c (s.dev.prf c)).1)) ∧
      ((∀ k < 4, (s.dev.drv k).st ≠ .moving ∧ (s.dev.drv k).st ≠ .homing) → (∀ k, (s.dev.drv k).saved = none) →
        t.dev.prof.ops = [] ∧
        t.dev.aux = s.dev.aux ∧ (s.dev.prof.ops = [] → s.dev.prof.tripHalt = false → ∀ c, 8 ≤ c →
          ((s.dev.prf c).seg = .idle ∨ 16 ≤ c → t.dev.prf c = s.dev.prf c) ∧
          (c < 16 → (s.dev.prf c).seg ≠ .idle → t.dev.prf c = (moveTick c (s.dev.prf c)).1))) ∧
      ChangesOnly [.prof, .values, .aux, .events, .reports] s t) ∧
  (∀ s : State, s.dev.cycle ≤ s.dev.now % 400 ∨ (s.dev.prof.lastTick / 400 = s.dev.now / 400 ∧ s.dev.now ≠ 0) →
    exec .profileTick s = .next (s.after s.fresh))

/-- R85, R87, R90, R92: one update of a moving channel. -/
def Obligations.MoveFollowsItsRamp : Prop :=
  (∀ (c : Nat) (p : ProfChan), p.fresh = false → p.halting = false → p.overshot = false → p.stopping = false →
    p.decel = false → p.seg ≠ .reversing → p.seg ≠ .decMax → stopExceeds p (remaining c p + p.vel) = false →
    stopExceeds p (remaining c p - p.vel) = false → (accelerate p : Int) < remaining c p →
    (moveTick c p).1.vel = accelerate p ∧ (moveTick c p).2.done = none) ∧
  (∀ p : ProfChan, p.ramp.vBrk ≤ p.ramp.vMax →
    (p.vel < wide p.ramp.vBrk → accelerate p = min (p.vel + p.ramp.a1) (wide p.ramp.vBrk)) ∧
    (wide p.ramp.vBrk ≤ p.vel → p.vel < wide p.ramp.vMax → accelerate p = min (p.vel + p.ramp.a2) (wide p.ramp.vMax)) ∧
    (p.vel = wide p.ramp.vMax → accelerate p = wide p.ramp.vMax) ∧
    (wide p.ramp.vMax < p.vel → accelerate p =
      max (p.vel - (if wide p.ramp.vBrk < p.vel then p.dReq.getD p.ramp.d2 else p.dReq.getD p.ramp.d1))
        (wide p.ramp.vMax))) ∧
  (∀ (c : Nat) (p : ProfChan), (moveTick c p).2.done = none → (moveTick c p).1.fresh = false →
    (ProfState.full (moveTick c p).1 : Int) % 2 ^ 64 =
      ((ProfState.full p : Int) + (if p.neg then -((moveTick c p).1.vel : Int) else (moveTick c p).1.vel)) % 2 ^ 64) ∧
  (∀ (c : Nat) (p : ProfChan), (moveTick c p).2.done = some .target →
    (moveTick c p).1.pos = targetPos c p.target ∧ (moveTick c p).1.rem = 0 ∧ (moveTick c p).1.vel = 0 ∧
    (moveTick c p).1.seg = .idle)

/-- R108, R129, R131: the ways a loop evaluation goes on a device that controls the converter; `c` is the device under the
configuration of the stroke's sample instant (R133). -/
def Obligations.LoopEvaluationCompletesOneStroke : Prop :=
  (∀ (s : State) (j : Job) (c : Dev), s.dev.twn.st = .solo ∨ s.dev.twn.st = .active → s.dev.twn.loadSn = none →
    (s.dev.ang.lateJobs ++ s.dev.ang.jobs).find? (fun j => !j.stage1) = some j → s.dev.inputsReady = true →
    j.sampleTick + 200 ≤ s.dev.now → j.missed = false → c = s.dev.setConf j.conf →
    (s.dev.loop.inject = 0 → s.dev.now + loopCost c.cfg + c.tEP ≤ j.sampleTick + c.tSA →
      Answers .loopEvaluation s fun t =>
        (∃ refs arms, t.dev.ang.jobs = s.dev.ang.jobs.map fun x =>
          if x.g.sn = j.g.sn then { j with stage1 := true, signs := arms, evaluated := true, refs := refs } else x) ∧
        t.dev.ang.lateJobs = s.dev.ang.lateJobs.filter (fun x => decide (x.g.sn ≠ j.g.sn)) ∧
        t.dev.loop.consec = 0 ∧ t.dev.loop.lastMiss = false ∧ t.dev.loop.doneSn = j.g.sn ∧
        t.dev.sup.evalTick = j.sampleTick ∧ t.dev.ang.cur = s.dev.ang.cur ∧ t.dev.ang.tick = s.dev.ang.tick ∧
        t.dev.ang.acc = s.dev.ang.acc ∧ t.pending = s.pending) ∧
    (s.dev.loop.inject = 0 → j.sampleTick + c.tSA < s.dev.now + loopCost c.cfg + c.tEP →
      Answers .loopEvaluation s fun t =>
        (∃ arms, t.dev.ang.jobs = s.dev.ang.jobs.map fun x =>
          if x.g.sn = j.g.sn then { j with stage1 := true, signs := arms } else x) ∧
        t.dev.loop.doneSn = s.dev.loop.doneSn ∧ t.dev.loop.consec = s.dev.loop.consec ∧
        t.dev.ang.cur = s.dev.ang.cur ∧ t.dev.ang.tick = s.dev.ang.tick ∧ t.pending = s.pending) ∧
    (0 < s.dev.loop.inject → Answers .loopEvaluation s fun t =>
        t.dev.loop.inject = s.dev.loop.inject - 1 ∧ t.dev.loop.consec = s.dev.loop.consec + 1 ∧
        t.dev.loop.misses = satInc s.dev.loop.misses ∧ t.dev.loop.lastMiss = true ∧ t.dev.stands Reg.LOOP_EVENT 1 ∧
        (∃ refs arms, t.dev.ang.jobs = s.dev.ang.jobs.map fun x =>
          if x.g.sn = j.g.sn then { j with stage1 := true, signs := arms, missed := true, refs := refs } else x) ∧
        t.dev.ang.cur = s.dev.ang.cur ∧ t.dev.ang.tick = s.dev.ang.tick ∧ t.pending = s.pending)) ∧
  (∀ s : State, s.dev.inputsReady = false → exec .loopEvaluation s = .next (s.after s.fresh))

/-- R129–R131, R368: misses; `c` is the device under the configuration of the stroke's sample instant (R133). -/
def Obligations.MissedDeadlinesAreCounted : Prop :=
  (∀ (s : State) (j : Job) (c : Dev), s.dev.twn.st = .solo ∨ s.dev.twn.st = .active →
    s.dev.ang.jobs.find? (fun j => !j.evaluated && !j.missed) = some j → c = s.dev.setConf j.conf →
    j.sampleTick + c.tSA ≤ s.dev.now + c.tEP → Answers .deadlineMiss s fun t =>
      t.dev.ang.jobs = (s.dev.ang.jobs.map fun x =>
        if x.g.sn = j.g.sn then { j with missed := true, refs := s.dev.modRefs } else x) ∧
      t.dev.loop = { s.dev.loop with
        consec := s.dev.loop.consec + 1, misses := satInc s.dev.loop.misses, lastMiss := true } ∧
      t.dev.stands Reg.LOOP_EVENT 1 ∧
      (s.dev.loop.consec + 1 = c.fld Reg.LOOP_CTRL 19 16 →
        t.dev.stands Reg.LOOP_EVENT 2 ∧
        (s.dev.rampRunning = false → s.dev.twn.st = .solo ∨ s.dev.partnerReady = false →
          (∃ x ∈ t.dev.sup.delayed, x.cause = 13 ∧ x.cls = .soft) ∧ t.dev.twn.st = s.dev.twn.st) ∧
        (s.dev.rampRunning = false → s.dev.twn.st = .active → s.dev.partnerReady = true →
          t.dev.twn.st = .resigned ∧ t.dev.twn.act = false ∧ t.dev.twn.resignCause = 2 ∧
          t.dev.stands Reg.TWN_EVENT 8 ∧ t.dev.sup.delayed = s.dev.sup.delayed ∧
          (s.dev.lanesOff = false → ∃ x ∈ t.dev.twn.sent, x.body = .resign 2 s.dev.twn.lastLaunch)) ∧
        (s.dev.rampRunning = true → ∃ x ∈ t.dev.sup.delayed, x.cause = 14 ∧ x.cls = .hard)) ∧
      t.dev.ang.cur = s.dev.ang.cur ∧ t.dev.ang.tick = s.dev.ang.tick ∧ t.pending = s.pending) ∧
  (∀ (s : State) (j : Job) (c : Dev), s.dev.ang.jobs.find? (fun j => !j.evaluated && !j.missed) = some j →
    c = s.dev.setConf j.conf → s.dev.now + c.tEP < j.sampleTick + c.tSA → exec .deadlineMiss s = .next (s.after s.fresh)) ∧
  (∀ (v : W32) (s : State), v.getLsbD 0 = true → Answers (.injectMiss v) s fun t =>
    t.dev.loop = { s.dev.loop with inject := s.dev.loop.inject + 1 } ∧ ChangesOnly [.loop] s t ∧ Quiet s t) ∧
  (∀ (v : W32) (s : State), v.getLsbD 0 = false → exec (.injectMiss v) s = .next (s.after s.fresh))

/-- R146, R147, R152, R153, R159: the rows of timed conditions. The stroke of SUB_EXPIRED's trip is the model's reading (log
84, DEDUCED). -/
def Obligations.TimedConditionsOfSupervision : Prop :=
  (∀ s : State, s.dev.sup.evalMode = .forming → isFrt s.dev.sup.sub = true →
    heldFor s.dev.sup.clearStart s.dev.sup.evalTick s.dev.tFrtClr = true → Answers .frtCleared s fun t =>
      t.dev.sup.sub = (if s.dev.sup.limAct then .limit else .recover) ∧
      t.dev.sup.ramp = (if ((s.dev.sigI 111).natAbs : Int) < s.dev.sigI 113 then
        some { irec := (s.dev.sigI 111).natAbs, rate := s.dev.fld Reg.SUP_FRT_T 31 16 } else none) ∧
      ChangesOnly [.gfm, .sup, .events, .reports] s t) ∧
  (∀ s : State, s.dev.sup.evalMode = .forming → s.dev.sup.sub = .limit →
    heldFor s.dev.sup.exitStart s.dev.sup.evalTick s.dev.tLimExit = true → Answers .limitExit s fun t =>
      t.dev.sup.sub = (if s.dev.sup.ramp.isSome then .recover else .normal) ∧ t.dev.sup.limitHold = false ∧
      ChangesOnly [.gfm, .sup, .events, .reports] s t) ∧
  (∀ s : State, s.dev.sup.evalMode ≠ .forming → s.dev.sup.limitHold = true →
    heldFor s.dev.sup.exitStart s.dev.sup.evalTick s.dev.tLimExit = true → Answers .limitExit s fun t =>
      t.dev.sup = { s.dev.sup with limitHold := false } ∧ ChangesOnly [.sup] s t ∧ Quiet s t) ∧
  (∀ s : State, tooLong s.dev.sup.frtStart s.dev.sup.evalTick (s.dev.fld Reg.SUP_TMAX 31 16) = true →
    s.dev.sup.frtFired = false → Answers .frtTmaxExpire s fun t =>
      t.dev.sup = { s.dev.sup with frtFired := true, delayed := s.dev.sup.delayed ++
        [{ cause := 11, cls := .soft, details := [], sn := s.dev.sup.evalSn + 1 }] } ∧
      t.dev.stands Reg.SUP_EVENT 0x1000 ∧ ChangesOnly [.sup, .events, .reports] s t) ∧
  (∀ s : State, tooLong s.dev.sup.limStart s.dev.sup.evalTick (s.dev.fld Reg.SUP_TMAX 15 0) = true →
    s.dev.sup.limFired = false → Answers .limTmaxExpire s fun t =>
      t.dev.sup = { s.dev.sup with limFired := true, delayed := s.dev.sup.delayed ++
        [{ cause := 12, cls := .soft, details := [], sn := s.dev.sup.evalSn + 1 }] } ∧
      t.dev.stands Reg.SUP_EVENT 0x2000 ∧ ChangesOnly [.sup, .events, .reports] s t) ∧
  (∀ (c : Fin 56) (s : State), (s.dev.chan c.val).subst = true → (s.dev.chan c.val).started = true →
    (s.dev.chan c.val).expired = false → (s.dev.chan c.val).substTick + (s.dev.chan c.val).tSub ≤ s.dev.now →
    Answers (.subExpired c) s fun t =>
      t.dev.chan c.val = { s.dev.chan c.val with expired := true } ∧
      t.dev.sup.delayed = s.dev.sup.delayed ++
        [{ cause := 9, cls := .soft, details := [], sn := s.dev.lastSn + 1 }] ∧
      t.dev.stands Reg.SUP_EVENT 0x400 ∧ ChangesOnly [.sup, .events, .reports] s t) ∧
  (∀ s : State, s.dev.sup.frtStart = none → exec .frtTmaxExpire s = .next (s.after s.fresh)) ∧
  (∀ s : State, s.dev.sup.limStart = none → exec .limTmaxExpire s = .next (s.after s.fresh))

/-- R161, R164: the following-error trip and the end of the TRIP_SOFT ramp. -/
def Obligations.FollowingErrorAndSoftRampEnd : Prop :=
  (∀ (m : Fin 4) (s : State), bitAt s.dev.sup.feExc m.val = true → bitAt s.dev.sup.feFired m.val = false →
    s.dev.fld (Reg.SUP_FE_LIM m.val) 31 16 * 40000 < s.dev.sup.evalTick - s.dev.sup.feStart.get 0 m.val →
    Answers (.followingErrorTrip m) s fun t =>
      t.dev.sup = { s.dev.sup with feFired := s.dev.sup.feFired + 2 ^ m.val, delayed := s.dev.sup.delayed ++
        [{ cause := 10, cls := .soft, details := [], sn := s.dev.sup.evalSn + 1 }] } ∧
      t.dev.stands Reg.SUP_EVENT 0x800 ∧ ChangesOnly [.sup, .events, .reports] s t) ∧
  (∀ (m : Fin 4) (s : State), bitAt s.dev.sup.feExc m.val = false →
    exec (.followingErrorTrip m) s = .next (s.after s.fresh)) ∧
  (∀ (s : State) (r : SoftRamp) (t0 : Nat), s.dev.sup.soft = some r → r.start = some t0 → s.dev.sup.softEnd = false →
    t0 + r.tSoft ≤ s.dev.now → Answers .softRampEnd s fun t =>
      t.dev.sup.softEnd = true ∧ t.dev.sup.blocked = true ∧ t.dev.sup.soft = s.dev.sup.soft ∧
      (∀ n ∈ s.dev.strings, (t.dev.str n).block = true) ∧ ChangesOnly [.sup, .pen, .pwm] s t ∧ Quiet s t) ∧
  (∀ s : State, s.dev.sup.soft = none → exec .softRampEnd s = .next (s.after s.fresh))

/-- R144: the limiter in its three modes. The 2 LSB by which CIRCULAR may exceed the limit come from its rounded square root
and quotients. -/
def Obligations.LimiterStaysWithinLimit : Prop :=
  ∀ i c d q : Int, 0 ≤ i → i < 2 ^ 32 → 0 ≤ c → c ≤ i →
    (-c ≤ (limiter 1 i c d q).1 ∧ (limiter 1 i c d q).1 ≤ c ∧
      (limiter 1 i c d q).1 ^ 2 + (limiter 1 i c d q).2 ^ 2 ≤ i ^ 2) ∧
    (-c ≤ (limiter 2 i c d q).1 ∧ (limiter 2 i c d q).1 ≤ c ∧ -i ≤ (limiter 2 i c d q).2 ∧ (limiter 2 i c d q).2 ≤ i ∧
      (limiter 2 i c d q).1 ^ 2 + (limiter 2 i c d q).2 ^ 2 ≤ i ^ 2) ∧
    (-c ≤ (limiter 0 i c d q).1 ∧ (limiter 0 i c d q).1 ≤ c) ∧
    (magnitude d q ≤ i → -c ≤ d → d ≤ c → limiter 0 i c d q = (d, q)) ∧
    (i < magnitude d q → limiter 0 i c d q =
      (max (-c) (min c (rdiv (d * i) (magnitude d q))), rdiv (q * i) (magnitude d q))) ∧
    (-(2 ^ 31) ≤ d → d < 2 ^ 31 → -(2 ^ 31) ≤ q → q < 2 ^ 31 →
      -i ≤ (limiter 0 i c d q).2 ∧ (limiter 0 i c d q).2 ≤ i ∧
      (limiter 0 i c d q).1 ^ 2 + (limiter 0 i c d q).2 ^ 2 < (i + 2) ^ 2)

/-- R173: pulse carry. -/
def Obligations.CountRuleLosesNoPulse : Prop :=
  ∀ (half : Bool) (nAvail : Nat) (vmod v c : Int) (tf tmp : Nat),
    ((countRule half nAvail vmod v c tf tmp).sat = true → (countRule half nAvail vmod v c tf tmp).carry = 0 ∧
      (countRule half nAvail vmod v c tf tmp).frac = 0) ∧
    (countRule half nAvail vmod v c tf tmp).n ≤ nAvail ∧
    (0 < nAvail → 0 < vmod → (countRule half nAvail vmod v c tf tmp).sat = false →
      (countRule half nAvail vmod v c tf tmp).negClamp = false →
      polSign (countRule half nAvail vmod v c tf tmp).neg *
          ((countRule half nAvail vmod v c tf tmp).n * one24 + (countRule half nAvail vmod v c tf tmp).frac) +
        (countRule half nAvail vmod v c tf tmp).carry = sat 32 (sat 32 (rdiv (v * one24) vmod) + c)) ∧
    ((countRule half nAvail vmod v c tf tmp).frac ≠ 0 →
      (tmp : Int) ≤ rdiv ((countRule half nAvail vmod v c tf tmp).frac * tf) one24 ∧
      (tmp : Int) ≤ tf - rdiv ((countRule half nAvail vmod v c tf tmp).frac * tf) one24)

/-- R188, R189: the building of furrows; `c` is the device under the configuration of the stroke's sample instant (R196). -/
def Obligations.FurrowBuildCompletesOneStroke : Prop :=
  (∀ (s : State) (j : Job) (c : Dev), s.dev.ang.jobs.find? (fun j => (j.evaluated || j.missed) && !j.built) = some j →
    c = s.dev.setConf j.conf → Answers .furrowBuild s fun t =>
      (∃ fs sh neg, t.dev.ang = { s.dev.ang with
          jobs := s.dev.ang.jobs.map fun x =>
            if x.g.sn = j.g.sn then { j with built := true, furrows := fs, shown := some sh, signs := neg } else x } ∧
        (j.signs ≠ [] → neg = j.signs) ∧ neg.length = (if j.signs = [] then 6 else j.signs.length) ∧
        (c.topo = 0 ∨ s.dev.switchingFor j = false → fs = [])) ∧
      (c.topo ≠ 0 → s.dev.switchingFor j = false → t.dev.mod.switching = false ∧
        ∀ n ∈ c.strings, ∀ k ∈ c.strSubs n, (t.dev.subm k).state = 7) ∧
      (c.topo ≠ 0 → s.dev.switchingFor j = true → t.dev.mod.switching = true) ∧
      (c.topo = 0 → t.dev.mod = { s.dev.mod with arms := t.dev.mod.arms } ∧
        (∀ a, t.dev.arm a = { s.dev.arm a with iNeg := (t.dev.arm a).iNeg }) ∧
        (j.signs ≠ [] → ∀ a, (t.dev.arm a).iNeg = (s.dev.arm a).iNeg)) ∧
      ChangesOnly [.ang, .mod, .acq, .events, .reports] s t) ∧
  (∀ s : State, s.dev.ang.jobs.find? (fun j => (j.evaluated || j.missed) && !j.built) = none →
    exec .furrowBuild s = .next (s.after s.fresh))

/-- R176, R269, R270: the bypass and fault-clear rows. That an exclusion ends at once where a slot without a fault has come
before the command is log 124 (DEDUCED). -/
def Obligations.BypassAndFaultClear : Prop :=
  (∀ (v : W32) (s : State), v.getLsbD 31 = true → s.dev.configured (bits v.toNat 9 0) = true →
    Answers (.modFaultClear v) s fun t =>
      t.dev.subm (bits v.toNat 9 0) = (
        if (s.dev.subm (bits v.toNat 9 0)).faulted = true ∧ (s.dev.subm (bits v.toNat 9 0)).clean = true then
          { s.dev.subm (bits v.toNat 9 0) with faulted := false, urgent := false, clearReq := false, clean := false }
        else { s.dev.subm (bits v.toNat 9 0) with
          clearReq := (s.dev.subm (bits v.toNat 9 0)).clearReq || (s.dev.subm (bits v.toNat 9 0)).faulted }) ∧
      (t.dev.str (bits v.toNat 9 0 / 64)).messages = (s.dev.str (bits v.toNat 9 0 / 64)).messages ++
        [{ opc := 5, pos := bits v.toNat 9 0 % 64, tag := (s.dev.pen.tag + 1) % 2 ^ 16, params := [] }] ∧
      ChangesOnly [.mod, .pen] s t ∧ Quiet s t) ∧
  (∀ (v : W32) (s : State), v.getLsbD 31 = false ∨ s.dev.configured (bits v.toNat 9 0) = false →
    exec (.modFaultClear v) s = .next (s.after s.fresh)) ∧
  (∀ (c : Cmd) (s : State), s.dev.admits 0x40 (inlMask [(20, 0xFF), (21, 3)]) c →
    (s.dev.configured (bits (c.half 20) 9 0) = false →
      exec (.moduleBypass c) s = .next (s.after (s.fresh.complete c 0x40 stBadParam))) ∧
    (s.dev.configured (bits (c.half 20) 9 0) = true → s.dev.twn.st = .standby →
      exec (.moduleBypass c) s = .next (s.after (s.fresh.complete c 0x40 stRejected))) ∧
    (s.dev.configured (bits (c.half 20) 9 0) = true → s.dev.twn.st ≠ .standby → Answers (.moduleBypass c) s fun t =>
        t.dev.subm (bits (c.half 20) 9 0) = { s.dev.subm (bits (c.half 20) 9 0) with bypassed := true } ∧
        t.dev.pen.bypass = s.dev.pen.bypass ++ [BypassOp.mk (bits (c.half 20) 9 0) c.ring.val c.slot.toNat
          c.tag.toNat s.dev.now s.dev.now] ∧
        (t.dev.str (bits (c.half 20) 9 0 / 64)).messages = (s.dev.str (bits (c.half 20) 9 0 / 64)).messages ++
          [{ opc := 4, pos := bits (c.half 20) 9 0 % 64, tag := (s.dev.pen.tag + 1) % 2 ^ 16, params := [] }] ∧
        ChangesOnly [.mod, .pen] s t ∧ Quiet s t)) ∧
  (∀ (k : Fin 768) (s : State), s.dev.bypassOps k.val ≠ [] →
    (∀ b ∈ s.dev.bypassOps k.val, b.lastSent + msTicks ≤ s.dev.now) →
    (∀ m ∈ (s.dev.str (k.val / 64)).messages, m.opc ≠ 4 ∨ m.pos ≠ k.val % 64) →
    Answers (.bypassCloseRepeat k) s fun t =>
      t.dev.pen.bypass = (s.dev.pen.bypass.map fun o => if o.sub = k.val then { o with lastSent := s.dev.now } else o) ∧
      (t.dev.str (k.val / 64)).messages = (s.dev.str (k.val / 64)).messages ++
        [{ opc := 4, pos := k.val % 64, tag := (s.dev.pen.tag + 1) % 2 ^ 16, params := [] }] ∧
      ChangesOnly [.pen] s t ∧ Quiet s t) ∧
  (∀ (k : Fin 768) (s : State) (b : BypassOp),
    (s.dev.bypassOps k.val).filter (fun o => decide (o.start + 200 * msTicks ≤ s.dev.now)) = [b] →
    exec (.moduleBypassTimeout k) s = .next (s.after (s.fresh.endBypass b stTimeout)) ∧
    b ∉ (s.fresh.endBypass b stTimeout).bypassOps k.val) ∧
  (∀ (k : Fin 768) (s : State), s.dev.bypassOps k.val = [] →
    exec (.bypassCloseRepeat k) s = .next (s.after s.fresh) ∧ exec (.moduleBypassTimeout k) s = .next (s.after s.fresh))

/-- R233, R241: FRAME_LAUNCH. -/
def Obligations.FrameLaunchSendsOneFrame : Prop :=
  (∀ (n : Fin 12) (e : Fin 2) (s : State) (g : Grid) (j : Option Job), s.dev.strEn n.val = true → e.val ∈ s.dev.myEnds →
    s.dev.lanesOff = false → (s.dev.lane (2 * n.val + e.val)).freeAt ≤ s.dev.now →
    s.dev.nextFrame (2 * n.val + e.val) = some (g, j) → s.dev.frameDue n.val g j = true →
    Answers (.frameLaunch n e) s fun t =>
      (t.dev.lane (2 * n.val + e.val)).lastSn = some g.sn ∧
      (t.dev.lane (2 * n.val + e.val)).freeAt =
        s.dev.now + lineTicks ((t.dev.lane (2 * n.val + e.val)).frame.length + 8) ∧
      (∀ l, l ≠ 2 * n.val + e.val → t.dev.lane l = s.dev.lane l) ∧
      t.dev.pen.txCnt = satInc s.dev.pen.txCnt ∧ (t.dev.str n.val).fedFrom = some ((s.dev.str n.val).fedFrom.getD g.sn) ∧
      (t.dev.twn.sent ≠ [] ↔ s.dev.twn.st = .active) ∧ ChangesOnly [.pen, .twn] s t ∧ Quiet s t) ∧
  (∀ (n : Fin 12) (e : Fin 2) (s : State), s.dev.strEn n.val = false ∨ e.val ∉ s.dev.myEnds ∨
      s.dev.lanesOff = true ∨ s.dev.now < (s.dev.lane (2 * n.val + e.val)).freeAt ∨
      s.dev.nextFrame (2 * n.val + e.val) = none →
    exec (.frameLaunch n e) s = .next (s.after s.fresh))

/-- R239, R240: FRAME_RECEIVED. That a correct frame of another string or length is not used is the model's choice (log 102). -/
def Obligations.ReceivedFramesAreTakenBySlot : Prop :=
  (∀ (n : Fin 12) (e : Fin 2) (line : LineIn) (s : State) (f : Frame), s.dev.strEn n.val = true → e.val ∈ s.dev.myEnds →
    frameOf line = some f →
    (f.crcOk = false → Answers (.frameReceived n e line) s fun t =>
      t.dev.pen = { s.dev.pen with hdrErrCnt := satInc s.dev.pen.hdrErrCnt } ∧ ChangesOnly [.pen] s t ∧ Quiet s t) ∧
    (f.crcOk = true → f.string ≠ n.val ∨ f.len ≠ s.dev.strLen n.val →
      exec (.frameReceived n e line) s = .next (s.after s.fresh)) ∧
    (f.crcOk = true → f.string = n.val → f.len = s.dev.strLen n.val →
      Answers (.frameReceived n e line) s fun t =>
        (∀ p ∈ [Part.ang, .gfm, .prof, .clk, .fen, .sec, .hk, .aux], p.same s.dev t.dev) ∧
        t.dev.pen.hdrErrCnt = s.dev.pen.hdrErrCnt ∧ t.pending = s.pending ∧
        ((s.dev.str n.val).training = false →
          (∃ rx : PenRx, (t.dev.str n.val).rx = (s.dev.str n.val).rx ++ [rx] ∧ rx.sn = f.sn ∧ rx.e = e.val) ∧
          (∀ x ∈ (upto f.len).zip f.slots, crc16Ok x.2 = true →
            (t.dev.subm (64 * n.val + x.1)).seen = true ∧ (t.dev.subm (64 * n.val + x.1)).gap = 0)))) ∧
  (∀ (n : Fin 12) (e : Fin 2) (line : LineIn) (s : State),
    s.dev.strEn n.val = false ∨ e.val ∉ s.dev.myEnds ∨ frameOf line = none →
    exec (.frameReceived n e line) s = .next (s.after s.fresh))

/-- R256, R264, R265, R267, R268: the rows of a string's conditions. -/
def Obligations.StringConditionsTakeEffect : Prop :=
  (∀ (n : Fin 12) (e : Fin 2) (line : LineIn) (p code : Nat) (s : State), e.val ∈ s.dev.myEnds →
    firstSet line isFaultSet = some (.fault p code) → p < 64 → s.dev.configured (64 * n.val + p) = true →
    Answers (.urgentFaultReceived n e line) s fun t =>
      (t.dev.subm (64 * n.val + p)).faulted = ((s.dev.subm (64 * n.val + p)).faulted || s.dev.strRun n.val) ∧
      (t.dev.subm (64 * n.val + p)).urgent = ((s.dev.subm (64 * n.val + p)).urgent || s.dev.strRun n.val) ∧
      (t.dev.subm (64 * n.val + p)).fault = code % 8 ∧
      t.dev.pen.urgentCnt = satInc s.dev.pen.urgentCnt ∧ t.dev.stands Reg.PEN_EVENT 0x10 ∧ t.pending = s.pending) ∧
  (∀ (n : Fin 12) (e : Fin 2) (line : LineIn) (s : State), e.val ∉ s.dev.myEnds ∨ firstSet line isFaultSet = none ∨
    (∃ p code, firstSet line isFaultSet = some (.fault p code) ∧ (64 ≤ p ∨ s.dev.configured (64 * n.val + p) = false)) →
    exec (.urgentFaultReceived n e line) s = .next (s.after s.fresh)) ∧
  (∀ (l : Fin 24) (s : State), (s.dev.lane l.val).sync = true → Answers (.laneSyncLoss l) s fun t =>
    t.dev.lane l.val = { s.dev.lane l.val with sync := false } ∧
    (∀ k, k ≠ l.val → t.dev.lane k = s.dev.lane k) ∧
    (s.dev.laneUsed l.val = true → t.dev.stands Reg.PEN_EVENT 0x80 ∧
      (s.dev.lanesOff = false → t.dev.laneFill l.val = some .linkDown) ∧
      ((s.dev.str (l.val / 2)).training = true →
        (t.dev.str (l.val / 2)).training = false ∧ (t.dev.str (l.val / 2)).result = .noSignal)) ∧
    ChangesOnly [.pen, .twn, .events, .reports] s t) ∧
  (∀ (l : Fin 24) (s : State), (s.dev.lane l.val).sync = false → exec (.laneSyncLoss l) s = .next (s.after s.fresh)) ∧
  (∀ (l : Fin 24) (s : State), Answers (.laneSyncRegained l) s fun t =>
    t.dev.lane l.val = { s.dev.lane l.val with sync := true } ∧
    (∀ k, k ≠ l.val → t.dev.lane k = s.dev.lane k) ∧ ChangesOnly [.pen] s t ∧ Quiet s t) ∧
  (∀ (n : Fin 12) (s : State) (two : Bool) (pos : Nat), badPair (s.dev.str n.val) = true → s.dev.strEn n.val = true →
    two = decide ((s.dev.str n.val).reach0 + (s.dev.str n.val).reach1 < s.dev.strLen n.val) →
    pos = (if two then 0 else (s.dev.str n.val).reach0) →
    (s.dev.str n.val).brk = false ∨ (s.dev.str n.val).brk2 ≠ two ∨ (s.dev.str n.val).breakPos ≠ pos →
    Answers (.breakDeclared n) s fun t =>
      (t.dev.str n.val).brk = true ∧ (t.dev.str n.val).goodRun = 0 ∧ (t.dev.str n.val).brk2 = two ∧
      (t.dev.str n.val).breakPos = pos ∧ (t.dev.str n.val).markFrom = some s.dev.now ∧
      t.dev.stands Reg.PEN_EVENT 2 ∧ ChangesOnly [.pen, .events, .reports] s t) ∧
  (∀ (n : Fin 12) (s : State), badPair (s.dev.str n.val) = false ∨ s.dev.strEn n.val = false →
    exec (.breakDeclared n) s = .next (s.after s.fresh)) ∧
  (∀ (n : Fin 12) (s : State), (s.dev.str n.val).brk = true → 16 ≤ (s.dev.str n.val).goodRun →
    Answers (.breakHealed n) s fun t =>
      (t.dev.str n.val).brk = false ∧ (t.dev.str n.val).brk2 = false ∧ (t.dev.str n.val).breakPos = 0 ∧
      (∀ k ∈ s.dev.strSubs n.val, (t.dev.subm k).lateCap = false) ∧ t.dev.stands Reg.PEN_EVENT 4 ∧
      ChangesOnly [.mod, .pen, .events, .reports] s t) ∧
  (∀ (n : Fin 12) (s : State), (s.dev.str n.val).brk = false ∨ (s.dev.str n.val).goodRun < 16 →
    exec (.breakHealed n) s = .next (s.after s.fresh)) ∧
  (∀ (n : Fin 12) (s : State) (m : Message), s.dev.message n.val = some m → 5 ≤ m.sent →
    (s.dev.str n.val).training = false → Answers (.msgTimeout n) s fun t =>
      (t.dev.str n.val).messages = (s.dev.str n.val).messages.erase m ∧
      t.dev.stands Reg.PEN_EVENT 0x40 ∧ ChangesOnly [.pen, .events, .reports] s t) ∧
  (∀ (n : Fin 12) (s : State), (∀ m, s.dev.message n.val = some m → m.sent < 5) →
    exec (.msgTimeout n) s = .next (s.after s.fresh))

/-- R258–R262: the rows of string bring-up. -/
def Obligations.StringTrainingRuns : Prop :=
  (∀ (c : Cmd) (s : State), s.dev.admits 0x41 (inlMask [(20, 0xFF), (21, 0x0F)]) c →
    (∀ n ∈ maskStrings (c.half 20), s.dev.strEn n = true) → c.len.toNat = 1024 * (maskStrings (c.half 20)).length →
    (s.dev.gfm.mode ≠ .off → exec (.stringTrain c) s = .next (s.after (s.fresh.complete c 0x41 stRejected))) ∧
    (s.dev.gfm.mode = .off → s.dev.twn.st = .solo → Answers (.stringTrain c) s fun t =>
      t.dev.pen.train = s.dev.pen.train ++ [TrainOp.mk (c.half 20) c.ring.val c.slot.toNat c.tag.toNat c.addr.toNat
        s.dev.now] ∧
      (∀ n ∈ maskStrings (c.half 20), (t.dev.str n).phase = 0 ∧ (t.dev.str n).phaseTick = s.dev.now ∧
        (t.dev.str n).training = ((s.dev.lane (2 * n)).sync && (s.dev.lane (2 * n + 1)).sync) ∧
        ((t.dev.str n).training = false → (t.dev.str n).result = .noSignal)) ∧
      (∀ n, n ∉ maskStrings (c.half 20) → t.dev.str n = s.dev.str n) ∧ ChangesOnly [.pen] s t ∧ Quiet s t)) ∧
  (∀ (n : Fin 12) (e : Fin 2) (rt : W32) (line : LineIn) (p tau : Nat) (old : List Int) (s : State),
    firstSet line isEchoRsp = some (.echoRsp p tau) → s.dev.echoing n.val e.val p = true → s.dev.twn.st = .solo →
    old = (if e.val = 0 then (s.dev.str n.val).echo0 else (s.dev.str n.val).echo1).get [] p →
    Answers (.echoResponse n e rt line.rd line.codes) s fun t =>
      (old.length < 15 →
        (if e.val = 0 then (t.dev.str n.val).echo0 else (t.dev.str n.val).echo1).get [] p =
          ((rt.toNat : Int) - tau) :: old ∧
        (s.dev.str n.val).phaseTick = (t.dev.str n.val).phaseTick ∧ ChangesOnly [.pen] s t ∧ Quiet s t) ∧
      (15 ≤ old.length →
        (echoSum (((rt.toNat : Int) - tau) :: old) = none →
          (t.dev.str n.val).training = false ∧ (t.dev.str n.val).result = .delayFail) ∧
        (∀ v, echoSum (((rt.toNat : Int) - tau) :: old) = some v → sumOf (t.dev.str n.val) e.val p = some v))) ∧
  (∀ (n : Fin 12) (e : Fin 2) (rt : W32) (line : LineIn) (s : State), firstSet line isEchoRsp = none →
    exec (.echoResponse n e rt line.rd line.codes) s = .next (s.after s.fresh)) ∧
  (∀ (n : Fin 12) (e : Fin 2) (p : Fin 64) (s : State) (q : EchoReq), s.dev.echoing n.val e.val p.val = true →
    echoReqOf (s.dev.str n.val) e.val = some q → q.tick + 10 * usTicks ≤ s.dev.now →
    exec (.echoTimeout n e p) s = .next (s.after (s.fresh.trainFail n.val .delayFail))) ∧
  (∀ (n : Fin 12) (s : State), (s.dev.str n.val).training = true →
    ((s.dev.str n.val).phase = 2 → (s.dev.str n.val).phaseTick + 20 * msTicks ≤ s.dev.now →
      exec (.syncFail n) s = .next (s.after (s.fresh.trainFail n.val .syncFail))) ∧
    ((s.dev.str n.val).phase = 3 → (s.dev.str n.val).phaseTick + 10 * msTicks ≤ s.dev.now →
      exec (.leaseFail n) s = .next (s.after (s.fresh.trainFail n.val .leaseFail)))) ∧
  (∀ (n : Nat) (r : TrainResult) (d : Dev), ((d.trainFail n r).str n).training = false ∧
    ((d.trainFail n r).str n).result = r ∧ ((d.trainFail n r).str n).messages = otherMessages (d.str n).messages ∧
    Dev.Keeps [.pen, .twn] d (d.trainFail n r)) ∧
  (∀ (s : State) (op : TrainOp), s.dev.pen.train = [op] →
    (∀ n ∈ maskStrings op.mask, (s.dev.str n).training = false) →
    exec .trainDone s = .next (s.after
      ((((maskStrings op.mask).foldl (fun d n => d.event 11 0 n 0xFFFFFFFF 0)
        (s.fresh.onPen fun p => { p with train := [] })).post op.addr ((maskStrings op.mask).flatMap s.dev.trainBlock)).completeAs op.ring op.slot op.tag 0x41
          (if (maskStrings op.mask).all (fun n => decide ((s.dev.str n).result = .ok)) then stOk else stPartial)
          (1024 * (maskStrings op.mask).length) []))) ∧
  (∀ s : State, s.dev.pen.train = [] → exec .trainDone s = .next (s.after s.fresh))

/-- R228, R244–R248, R255, R260, R264: the endpoint rows. -/
def Obligations.EndpointsObeyAndBlock : Prop :=
  (∀ (k : Fin 768) (q : Fin 2) (i : EndpointInput) (line : LineIn) (s : State) (f : Frame), frameOf line = some f →
    portDown q.val (s.dev.endp k.val) = false →
    Answers (.endpointDrillReceived k q i line) s fun t =>
      (portDown (1 - q.val) (s.dev.endp k.val) = false →
        ∃ out, out = (if q.val = 0 then (t.dev.endp k.val).outR else (t.dev.endp k.val).outL) ∧
          out.length = (decodeLine line.rd line.codes).length ∧
          (withoutSets 0 out).take 4 = (withoutSets 0 (decodeLine line.rd line.codes)).take 4 ∧
          ∀ (m : Nat) (b : Byte), b = 0x7C ∨ b = 0x3C → (decodeLine line.rd line.codes)[m]? = some (LineChar.ctrl b) → out[m]? = some (LineChar.ctrl b)) ∧
      (f.crcOk = true → f.phase = 3 → bitAt f.flags 2 = false → bitAt f.flags 3 = false → bitAt f.flags 4 = false →
        (s.dev.endp k.val).epoch = some f.epoch → (s.dev.endp k.val).hoSn = none →
        (frameTiming q.val (k.val % 64) i.sof.toNat f (s.dev.endp k.val)).far = false →
        (∀ l, (s.dev.endp k.val).lastSn = some l → afterSn f.sn l = true) →
        (t.dev.endp k.val).lastSn = some f.sn ∧ (t.dev.endp k.val).hold = 0 ∧ f.sn ∈ (t.dev.endp k.val).got ∧
        (t.dev.endp k.val).tHold = f.tHold ∧ (t.dev.endp k.val).strokeLen = f.strokeLen ∧
        (f.msg = none → (t.dev.endp k.val).reply = none ∧
          (bitAt f.flags 0 = true → (t.dev.endp k.val).blocked = true ∧ (t.dev.endp k.val).state = 7 ∧
            (t.dev.endp k.val).armed = []))) ∧
      (∀ m, m ≠ k.val → t.dev.endp m = s.dev.endp m) ∧ ChangesOnly [.pen] s t ∧ Quiet s t) ∧
  (∀ (k : Fin 768) (q : Fin 2) (i : EndpointInput) (line : LineIn) (s : State),
    frameOf line = none ∨ portDown q.val (s.dev.endp k.val) = true →
    Answers (.endpointDrillReceived k q i line) s fun t =>
      t.dev.endp k.val = (if portDown q.val (s.dev.endp k.val) then s.dev.endp k.val
        else forward q.val (decodeLine line.rd line.codes) (s.dev.endp k.val)) ∧
      (∀ m, m ≠ k.val → t.dev.endp m = s.dev.endp m) ∧ ChangesOnly [.pen] s t ∧ Quiet s t) ∧
  (∀ (k : Fin 768) (s : State), strokeOver s.dev.now (s.dev.endp k.val) = true →
    (s.dev.endp k.val).holdSn ∉ (s.dev.endp k.val).got → Answers (.endpointHold k) s fun t =>
      (t.dev.endp k.val).hold = min 255 ((s.dev.endp k.val).hold + 1) ∧ (t.dev.endp k.val).holding = true ∧
      (t.dev.endp k.val).holdSn = (s.dev.endp k.val).holdSn + 1 ∧
      (t.dev.endp k.val).holdAt = (s.dev.endp k.val).holdAt + (s.dev.endp k.val).strokeLen ∧
      (min 255 ((s.dev.endp k.val).hold + 1) = (s.dev.endp k.val).tHold → 4 ∈ (t.dev.endp k.val).faults) ∧
      (∀ m, m ≠ k.val → t.dev.endp m = s.dev.endp m) ∧ ChangesOnly [.pen] s t ∧ Quiet s t) ∧
  (∀ (k : Fin 768) (s : State), strokeOver s.dev.now (s.dev.endp k.val) = false ∨
      (s.dev.endp k.val).holdSn ∈ (s.dev.endp k.val).got → Answers (.endpointHold k) s fun t =>
    (∀ m, t.dev.endp m = s.dev.endp m) ∧ ChangesOnly [.pen] s t ∧ Quiet s t) ∧
  (∀ (k : Fin 768) (q : Fin 2) (line : LineIn) (epoch : Nat) (s : State),
    portDown q.val (s.dev.endp k.val) = false → firstSet line isBlockSet = some (.block epoch) →
    Answers (.endpointBlockReceived k ⟨q, line⟩) s fun t =>
      ((s.dev.endp k.val).epoch = some epoch → (t.dev.endp k.val).blocked = true ∧ (t.dev.endp k.val).state = 7 ∧
        (t.dev.endp k.val).armed = []) ∧
      ((s.dev.endp k.val).epoch ≠ some epoch →
        t.dev.endp k.val = forward q.val (decodeLine line.rd line.codes) (s.dev.endp k.val)) ∧
      (∀ m, m ≠ k.val → t.dev.endp m = s.dev.endp m) ∧ ChangesOnly [.pen] s t ∧ Quiet s t) ∧
  (∀ (k : Fin 768) (code : Byte) (s : State), code.toNat < 8 →
    Answers (.endpointFaultDetect k code) s fun t =>
      (code.toNat ∉ (s.dev.endp k.val).faults →
        (t.dev.endp k.val).faults = (s.dev.endp k.val).faults ++ [code.toNat] ∧
        (code.toNat ≤ 4 → (t.dev.endp k.val).blocked = true ∧ (t.dev.endp k.val).state = 7) ∧
        ((s.dev.endp k.val).lDown = false → (s.dev.endp k.val).rDown = false →
          (t.dev.endp k.val).outL = threeCopies (.fault (k.val % 64) code.toNat) ∧
          (t.dev.endp k.val).outR = threeCopies (.fault (k.val % 64) code.toNat))) ∧
      (code.toNat ∈ (s.dev.endp k.val).faults → t.dev.endp k.val = s.dev.endp k.val) ∧
      (∀ m, m ≠ k.val → t.dev.endp m = s.dev.endp m) ∧ ChangesOnly [.pen] s t ∧ Quiet s t) ∧
  (∀ (k : Fin 768) (q : Fin 2) (s : State),
    (Answers (.endpointPortDown k q) s fun t =>
      t.dev.endp k.val = (if q.val = 0 then { s.dev.endp k.val with lDown := true, outL := setChars .linkDown }
        else { s.dev.endp k.val with rDown := true, outR := setChars .linkDown }) ∧
      (∀ m, m ≠ k.val → t.dev.endp m = s.dev.endp m) ∧ ChangesOnly [.pen] s t ∧ Quiet s t) ∧
    (Answers (.endpointPortUp k q) s fun t =>
      portDown q.val (t.dev.endp k.val) = false ∧
      portDown (1 - q.val) (t.dev.endp k.val) = portDown (1 - q.val) (s.dev.endp k.val) ∧
      (∀ m, m ≠ k.val → t.dev.endp m = s.dev.endp m) ∧ ChangesOnly [.pen] s t ∧ Quiet s t)) ∧
  (∀ (k : Fin 768) (q : Fin 2) (delay : W32) (line : LineIn) (pos port : Nat) (s : State),
    portDown q.val (s.dev.endp k.val) = false → firstSet line isEchoReq = some (.echoReq pos port) →
    (pos ≠ k.val % 64 ∨ delay.toNat ≤ 1024) → Answers (.endpointEchoReq k delay ⟨q, line⟩) s fun t =>
      t.dev.endp k.val = (if pos = k.val % 64 then emit q.val (setChars (.echoRsp pos delay.toNat)) (s.dev.endp k.val)
        else forward q.val (decodeLine line.rd line.codes) (s.dev.endp k.val)) ∧
      (∀ m, m ≠ k.val → t.dev.endp m = s.dev.endp m) ∧ ChangesOnly [.pen] s t ∧ Quiet s t)

/-- R198–R211, R216: the rows of a PWM period; `d` is the device once the pair has taken its loads and its AUTO latch has
cleared. -/
def Obligations.PwmPeriodRuns : Prop :=
  (∀ (p : Fin 12) (s : State) (start : Nat) (x : PwmPair) (ready : List (Nat × Nat × Nat)) (d : Dev),
    s.dev.pairEn p.val = true → s.dev.nextPeriod p.val = some start → start ≤ s.dev.now → x = s.dev.pair p.val →
    ready = x.loads.filter (fun l => decide (l.1 + 16 ≤ start)) → d = (s.dev.takeLoads p.val start).autoClear p.val →
    Answers (.pwmPeriodStart p) s fun t =>
      (ready = [] → (t.dev.pair p.val).period = x.period ∧ (t.dev.pair p.val).cmp = x.cmp) ∧
      (∀ l, ready.getLast? = some l → (t.dev.pair p.val).period = l.2.1 ∧ (t.dev.pair p.val).cmp = l.2.2) ∧
      (t.dev.pair p.val).loads = x.loads.filter (fun l => !decide (l.1 + 16 ≤ start)) ∧
      (t.dev.pair p.val).latch =
        (if x.latch &&& s.dev.pwm.qual = 0 ∧ s.dev.allAuto x.latch = true then 0 else x.latch) ∧
      (t.dev.pair p.val).start = start ∧ (t.dev.pair p.val).sn = some s.dev.ang.cur.sn ∧
      (t.dev.pair p.val).len =
        64 * (if s.dev.pairFree p.val then (t.dev.pair p.val).period else s.dev.ang.cur.len) ∧
      (t.dev.pair p.val).next =
        (if s.dev.pairFree p.val then some (start + (t.dev.pair p.val).period) else none) ∧
      (d.pairHeld p.val = true → (t.dev.pair p.val).safe = true) ∧
      (d.pairHeld p.val = false → (t.dev.pair p.val).safe = false ∧
        (t.dev.pair p.val).x = decide (0 < (t.dev.pair p.val).w) ∧
        (∀ v : Int, (if s.dev.pairHost p.val then d.hostDuty p.val (t.dev.pair p.val).len
            else .duty (s.dev.loopDuty p.val).1) = .duty v →
          (s.dev.pairHost p.val = true ∨ (s.dev.twn.st = .solo ∧ s.dev.twn.nT = none)) →
          ∃ supp, pulseWidth v (if x.safe then 0 else x.carry) (t.dev.pair p.val).len
            (s.dev.dtRise p.val + s.dev.minPulse p.val) (s.dev.dtFall p.val + s.dev.minPulse p.val) =
              ((t.dev.pair p.val).w, (t.dev.pair p.val).carry, supp)) ∧
        (∀ w b, s.dev.pairHost p.val = true → d.hostDuty p.val (t.dev.pair p.val).len = .width w b →
          (t.dev.pair p.val).w = w ∧ (t.dev.pair p.val).carry = 0)) ∧
      (∀ q, q ≠ p.val → t.dev.pair q = s.dev.pair q) ∧ ChangesOnly [.pwm, .acq, .events, .reports] s t) ∧
  (∀ (p : Fin 12) (s : State), s.dev.pairEn p.val = false ∨ s.dev.nextPeriod p.val = none ∨
      (∃ start, s.dev.nextPeriod p.val = some start ∧ s.dev.now < start) →
    exec (.pwmPeriodStart p) s = .next (s.after s.fresh)) ∧
  (∀ (x0 c : Int) (len tA tB : Nat), (pulseWidth x0 c len tA tB).1 ≤ len ∧
    ((pulseWidth x0 c len tA tB).1 = 0 ∨ (pulseWidth x0 c len tA tB).1 = len ∨
      (tA ≤ (pulseWidth x0 c len tA tB).1 ∧ tB ≤ len - (pulseWidth x0 c len tA tB).1))) ∧
  (∀ (p : Fin 12) (s : State), (s.dev.pair p.val).safe = false → (s.dev.pair p.val).x = true →
    (s.dev.pair p.val).w < (s.dev.pair p.val).len →
    64 * (s.dev.pair p.val).start + (s.dev.pair p.val).w < 64 * (s.dev.now + 1) → Answers (.compareMatch p) s fun t =>
      t.dev.pair p.val = { s.dev.pair p.val with
        x := false, outA := 0, outB := if s.dev.dtFall p.val = 0 then 1 else 0
        rise := if s.dev.dtFall p.val = 0 then none
          else some (64 * (s.dev.pair p.val).start + (s.dev.pair p.val).w + s.dev.dtFall p.val, false) } ∧
      (∀ q, q ≠ p.val → t.dev.pair q = s.dev.pair q) ∧ ChangesOnly [.pwm] s t ∧ Quiet s t) ∧
  (∀ (p : Fin 12) (s : State), (s.dev.pair p.val).x = false → exec (.compareMatch p) s = .next (s.after s.fresh)) ∧
  (∀ (p : Fin 12) (s : State) (ft : Nat) (a : Bool), (s.dev.pair p.val).rise = some (ft, a) →
    ft < 64 * (s.dev.now + 1) → Answers (.deadTimeExpire p) s fun t =>
      t.dev.pair p.val = { s.dev.pair p.val with
        rise := none, outA := if a then 1 else (s.dev.pair p.val).outA
        outB := if a then (s.dev.pair p.val).outB else 1 } ∧
      (∀ q, q ≠ p.val → t.dev.pair q = s.dev.pair q) ∧ ChangesOnly [.pwm] s t ∧ Quiet s t) ∧
  (∀ (p : Fin 12) (s : State), (s.dev.pair p.val).rise = none →
    exec (.deadTimeExpire p) s = .next (s.after s.fresh))

/-- R206–R218: commits and trip sources. That a pair which is off takes its shadows at once is the model's choice (log
93, DESIGN CHOICE). -/
def Obligations.PwmCommitsAndTripSources : Prop :=
  (∀ (v : W32) (s : State), Answers (.pwmCommit v) s fun t =>
    (∀ p : Fin 12,
      (v.getLsbD p.val = false → t.dev.pair p.val = s.dev.pair p.val) ∧
      (v.getLsbD p.val = true → s.dev.periodRefused p.val (s.dev.cfg (Reg.PWM_PERIOD p.val)) = true →
        t.dev.pair p.val = s.dev.pair p.val ∧ t.dev.stands Reg.PWM_EVENT 8) ∧
      (v.getLsbD p.val = true → s.dev.periodRefused p.val (s.dev.cfg (Reg.PWM_PERIOD p.val)) = false →
        s.dev.pairEn p.val = false → t.dev.pair p.val = { s.dev.pair p.val with
          period := s.dev.cfg (Reg.PWM_PERIOD p.val), cmp := s.dev.cfg (Reg.PWM_CMPA p.val), loads := [] }) ∧
      (v.getLsbD p.val = true → s.dev.periodRefused p.val (s.dev.cfg (Reg.PWM_PERIOD p.val)) = false →
        s.dev.pairEn p.val = true → (s.dev.pairFree p.val = false ∨ (s.dev.pair p.val).period ≠ 0) →
        t.dev.pair p.val = { s.dev.pair p.val with loads := (s.dev.pair p.val).loads ++
          [(s.dev.now, s.dev.cfg (Reg.PWM_PERIOD p.val), s.dev.cfg (Reg.PWM_CMPA p.val))] }) ∧
      (v.getLsbD p.val = true → s.dev.periodRefused p.val (s.dev.cfg (Reg.PWM_PERIOD p.val)) = false →
        s.dev.pairEn p.val = true → s.dev.pairFree p.val = true → (s.dev.pair p.val).period = 0 →
        t.dev.pair p.val = { s.dev.pair p.val with
          period := s.dev.cfg (Reg.PWM_PERIOD p.val), cmp := s.dev.cfg (Reg.PWM_CMPA p.val), next := some s.dev.now
          loads := [] })) ∧
    ChangesOnly [.pwm, .events, .reports] s t) ∧
  (∀ (conds : BitVec 16) (n : Fin 8) (s : State), conds.getLsbD n.val = true → s.dev.pinCounts n.val true = true →
    s.dev.srcEn n.val = true →
    s.dev.srcBlanked n.val = false → bitAt s.dev.pwm.qual n.val = false → Answers (.localTrip conds) s fun t =>
      bitAt t.dev.pwm.qual n.val = true ∧ bitAt t.dev.pwm.cond n.val = true ∧
      (∀ p : Fin 12, bitAt (s.dev.srcPairs n.val) p.val = true →
        (t.dev.pair p.val).safe = true ∧ bitAt (t.dev.pair p.val).latch n.val = true) ∧
      (s.dev.srcPairs n.val ≠ 0 → s.dev.pwm.tripTick ≠ some s.dev.now → t.dev.stands Reg.PWM_EVENT 2) ∧ t.pending = s.pending) ∧
  (∀ (conds : BitVec 16) (s : State), s.dev.pwm.cond = 0 → conds.toNat &&& s.dev.activePins = 0 →
    exec (.localTrip conds) s = .next (s.after s.fresh)) ∧
  (∀ (k : Fin 8) (s : State) (e : Nat), s.dev.pwm.timers.get none k.val = some e → e ≤ s.dev.now →
    s.dev.pwm.cond = 0 → Answers (.blankEnd k) s fun t =>
      t.dev.pwm.timers.get none k.val = none ∧
      t.dev.pwm.blankCnt = satAdd s.dev.pwm.blankCnt
        (s.dev.pwm.lost.filter fun n => decide (s.dev.fld (Reg.PWM_TSRC n) 26 24 = k.val)).length ∧
      ChangesOnly [.pwm, .events, .reports] s t) ∧
  (∀ (k : Fin 8) (n : Fin 16) (s : State) (e : Nat), s.dev.pwm.timers.get none k.val = some e → e ≤ s.dev.now →
    bitAt s.dev.pwm.cond n.val = true → s.dev.srcEn n.val = true → s.dev.fld (Reg.PWM_TSRC n.val) 26 24 = k.val →
    bitAt s.dev.pwm.qual n.val = false →
    Answers (.blankEnd k) s fun t => bitAt t.dev.pwm.qual n.val = true ∧ t.pending = s.pending) ∧
  (∀ (k : Fin 8) (s : State), s.dev.pwm.timers.get none k.val = none →
    exec (.blankEnd k) s = .next (s.after s.fresh)) ∧
  (∀ (n : Fin 8) (s : State), bitAt s.dev.pwm.cond n.val = true → s.dev.pinCounts n.val false = true →
    Answers (.tripInputRelease n) s fun t =>
    t.dev.pwm.cond = s.dev.pwm.cond - 2 ^ n.val ∧ bitAt t.dev.pwm.qual n.val = false ∧
    t.dev.pwm.pairs = s.dev.pwm.pairs ∧ ChangesOnly [.pwm] s t ∧ Quiet s t) ∧
  (∀ (n : Fin 8) (s : State), bitAt s.dev.pwm.cond n.val = false ∨ s.dev.pinCounts n.val false = false →
    exec (.tripInputRelease n) s = .next (s.after s.fresh))

/-- R279–R295: the rows of the point store. An operation before which none of its tick has to be moved (R284; log 125 says
how the model moves one, DESIGN CHOICE). -/
def Obligations.PointRowsTakeEffect : Prop :=
  (∀ (c : Cmd) (s : State), s.dev.admits 0x30 (inlMask [(20, 3)]) c → c.byte 20 = 0 → c.len = 8 → c.bufErr = false →
    pointEntryOk false (leAt c.data 0 4, leAt c.data 4 4) = true → s.dev.pointCls (leAt c.data 0 4 % 2 ^ 20) ≠ 0 →
    (∀ o ∈ (s.dev.turnOf (leAt c.data 0 4 % 2 ^ 20)).ops, opRank o.1 ≤ 2) →
    ∃ d : Dev, exec (.pointWrite c) s = .next (s.after (d.completeRes c 0x30 stOk 8 [])) ∧
      (∀ id, id ≠ leAt c.data 0 4 % 2 ^ 20 → d.point id = s.dev.point id) ∧
      recAge (d.point (leAt c.data 0 4 % 2 ^ 20)) = 0 ∧
      recQual (d.point (leAt c.data 0 4 % 2 ^ 20)) =
        (if leAt c.data 4 4 % 2 ^ 16 = 0xFFFF then qInvalid else bits (leAt c.data 0 4) 27 24) ∧
      (leAt c.data 4 4 % 2 ^ 16 = 0xFFFF ∨ bits (leAt c.data 0 4) 27 24 = qInvalid →
        recValue (d.point (leAt c.data 0 4 % 2 ^ 20)) = recValue (s.dev.point (leAt c.data 0 4 % 2 ^ 20))) ∧
      (leAt c.data 4 4 % 2 ^ 16 ≠ 0xFFFF → bits (leAt c.data 0 4) 27 24 ≠ qInvalid →
        recValue (d.point (leAt c.data 0 4 % 2 ^ 20)) ≤
            normalise (s.dev.cls (s.dev.pointCls (leAt c.data 0 4 % 2 ^ 20))) (leAt c.data 4 4 % 2 ^ 16) +
              clsDb (s.dev.cls (s.dev.pointCls (leAt c.data 0 4 % 2 ^ 20))) ∧
          normalise (s.dev.cls (s.dev.pointCls (leAt c.data 0 4 % 2 ^ 20))) (leAt c.data 4 4 % 2 ^ 16) ≤
            recValue (d.point (leAt c.data 0 4 % 2 ^ 20)) +
              clsDb (s.dev.cls (s.dev.pointCls (leAt c.data 0 4 % 2 ^ 20))))) ∧
  (∀ (c : Cmd) (s : State), s.dev.admits 0x31 (inlMask [(20, 0xFF), (24, 0xFFFFFFFF), (28, 0xFFFFFFFF)]) c →
    c.word 28 ≠ 0 →
    (c.byte 20 = 0 → c.word 28 ≤ 262144 → c.word 24 + c.word 28 ≤ 1048576 → c.len.toNat = 4 * c.word 28 →
      exec (.pointReadBlock c) s = .next (s.after ((s.fresh.post c.addr.toNat
        ((upto (c.word 28)).flatMap fun k => leBytes 4 (s.dev.point (c.word 24 + k)).toNat)).completeRes c 0x31 stOk
          (4 * c.word 28) []))) ∧
    (c.byte 20 = 1 → c.word 28 ≤ 1048576 → c.word 24 + c.word 28 ≤ 1048576 → c.len.toNat = c.word 28 →
      exec (.pointReadBlock c) s = .next (s.after ((s.fresh.post c.addr.toNat
        ((upto (c.word 28)).flatMap fun k => leBytes 1 (s.dev.pointCls (c.word 24 + k)))).completeRes c 0x31 stOk
          (1 * c.word 28) []))) ∧
    (c.byte 20 = 2 → c.word 28 ≤ 1024 → c.word 24 + c.word 28 ≤ 1024 → c.len.toNat = 64 * c.word 28 →
      exec (.pointReadBlock c) s = .next (s.after ((s.fresh.post c.addr.toNat
        ((upto (c.word 28)).flatMap fun k => s.dev.aggBytes (c.word 24 + k))).completeRes c 0x31 stOk
          (64 * c.word 28) []))) ∧
    (c.byte 20 = 3 → c.word 24 ≠ 0 → c.word 28 ≤ 255 → c.word 24 + c.word 28 ≤ 256 → c.len.toNat = 16 * c.word 28 →
      exec (.pointReadBlock c) s = .next (s.after ((s.fresh.post c.addr.toNat
        ((upto (c.word 28)).flatMap fun k => s.dev.clsBytes (c.word 24 + k))).completeRes c 0x31 stOk
          (16 * c.word 28) [])))) ∧
  (∀ s : State, s.dev.pnt.records.wf 0x10FF = true → (∀ id, ∀ o ∈ (s.dev.turnOf id).ops, opRank o.1 = 0) →
    Answers .staleScanVisit s fun t =>
    t.dev.pnt.scanGroup = (s.dev.pnt.scanGroup + 1) % 1024 ∧
    t.dev.pnt.visits.get 0 s.dev.pnt.scanGroup = s.dev.hk.rounds ∧
    (∀ id, id / 1024 ≠ s.dev.pnt.scanGroup → t.dev.point id = s.dev.point id) ∧
    (∀ id, id / 1024 = s.dev.pnt.scanGroup → recValue (t.dev.point id) = recValue (s.dev.point id) ∧
      recFlags (t.dev.point id) = recFlags (s.dev.point id) ∧
      recAge (t.dev.point id) =
        min 255 (recAge (s.dev.point id) + (s.dev.hk.rounds - s.dev.pnt.visits.get 0 s.dev.pnt.scanGroup))) ∧
    t.dev.hk = s.dev.hk ∧ t.pending = s.pending) ∧
  (∀ (r : Fin 4) (s : State), Answers (.pointRingDrain r) s fun t =>
    t.dev.pnt.records = s.dev.pnt.records ∧ ChangesOnly [.pnt, .events, .reports] s t ∧
    (s.dev.pnt.dirty.wf none = true → bitAt s.dev.pnt.overflow r.val = true → s.dev.ringQuarter (20 + r.val) = true →
      (s.dev.dirtyOf r.val).length ≤ 1 → t.dev.dirtyOf r.val = [] ∧ bitAt t.dev.pnt.overflow r.val = false ∧
        t.dev.stands Reg.PNT_EVENT 8)) ∧
  (∀ (r : Fin 4) (s : State), bitAt s.dev.pnt.overflow r.val = false ∨ s.dev.ringQuarter (20 + r.val) = false →
    exec (.pointRingDrain r) s = .next (s.after s.fresh))

/-- R302–R314: the rows of sensing. -/
def Obligations.SensingRowsTakeEffect : Prop :=
  (∀ (c : Fin 24) (raw : BitVec 16) (s : State) (at_ : Nat), s.dev.sarOn c.val = true →
    (s.dev.sar c.val).failed = false → (s.dev.sar c.val).waits = some at_ → s.dev.now ≤ at_ + 192 →
    (s.dev.flag Reg.ADC_WIN_EN c.val = false → Answers (.sarConversionResult c raw) s fun t =>
      t.dev.sar c.val = { s.dev.sar c.val with
        waits := none
        raw := if (s.dev.sar c.val).due = true ∧ at_ = s.dev.adc.gridTick then raw.toInt else (s.dev.sar c.val).raw
        due := (s.dev.sar c.val).due && decide (at_ ≠ s.dev.adc.gridTick)
        good := if bitAt s.dev.adc.banks (c.val / 6) then (s.dev.sar c.val).good + 1 else 0 } ∧
      ChangesOnly [.adc, .acq, .events, .reports] s t) ∧
    (s.dev.flag Reg.ADC_WIN_EN c.val = true →
      s.dev.outside (Reg.ADC_WIN c.val) (s.dev.comparator c.val (sat 24 (raw.toInt * 2 ^ 8))) ≠
        (s.dev.sar c.val).decision →
      s.dev.fld Reg.ADC_WIN_CFG (2 * (c.val / 6) + 1) (2 * (c.val / 6)) ≤ (s.dev.sar c.val).run →
      Answers (.sarConversionResult c raw) s fun t =>
        (t.dev.sar c.val).decision = !(s.dev.sar c.val).decision ∧ (t.dev.sar c.val).run = 0 ∧
        (t.dev.sar c.val).waits = none ∧ t.pending = s.pending)) ∧
  (∀ (c : Fin 24) (raw : BitVec 16) (s : State) (at_ : Nat), s.dev.sarOn c.val = true →
    (s.dev.sar c.val).failed = true → (s.dev.sar c.val).waits = some at_ → s.dev.now ≤ at_ + 192 →
    Answers (.sarConversionResult c raw) s fun t =>
      t.dev.sar c.val = { s.dev.sar c.val with waits := none, good := (s.dev.sar c.val).good + 1 } ∧ ChangesOnly [.adc] s t ∧ Quiet s t) ∧
  (∀ (c : Fin 24) (raw : BitVec 16) (s : State), s.dev.sarOn c.val = false ∨ (s.dev.sar c.val).waits = none ∨
      (∃ at_, (s.dev.sar c.val).waits = some at_ ∧ at_ + 192 < s.dev.now) →
    exec (.sarConversionResult c raw) s = .next (s.after s.fresh)) ∧
  (∀ (c : Fin 32) (s : State), s.dev.sdOn c.val = true → (s.dev.sd c.val).failed = false →
    s.dev.fld (Reg.ADC_SD_CH c.val) 11 8 + 1 ≤ (s.dev.sd c.val).run → Answers (.sinc2Decision c) s fun t =>
      t.dev.sd c.val = { s.dev.sd c.val with run := 0, decision := !(s.dev.sd c.val).decision } ∧
      ((s.dev.sd c.val).decision = false → t.dev.adc.tripCh = 24 + c.val ∧ t.dev.stands Reg.ADC_EVENT 2) ∧
      t.pending = s.pending) ∧
  (∀ (c : Fin 32) (s : State), s.dev.sdOn c.val = false → exec (.sinc2Decision c) s = .next (s.after s.fresh)) ∧
  (∀ (g : Fin 4) (s : State), s.dev.sdGroupOn g.val = true →
    bitAt s.dev.adc.groups g.val = false ∨ (∃ k : Fin 8, s.dev.sdOn (8 * g.val + k.val) = true ∧
      (s.dev.sd (8 * g.val + k.val)).failed = false) →
    (s.dev.clkPad g.val).since + 640 ≤ s.dev.now → Answers (.sdClockLost g) s fun t =>
      bitAt t.dev.adc.groups g.val = true ∧ t.dev.stands Reg.ADC_EVENT 8 ∧
      (∀ k : Fin 8, s.dev.sdOn (8 * g.val + k.val) = true → (t.dev.sd (8 * g.val + k.val)).failed = true) ∧
      ChangesOnly [.adc, .sup, .events, .reports] s t) ∧
  (∀ (g : Fin 4) (s : State), s.dev.sdGroupOn g.val = false ∨ s.dev.now < (s.dev.clkPad g.val).since + 640 ∨
      (bitAt s.dev.adc.groups g.val = true ∧
        ∀ k : Fin 8, s.dev.sdOn (8 * g.val + k.val) = true → (s.dev.sd (8 * g.val + k.val)).failed = true) →
    exec (.sdClockLost g) s = .next (s.after s.fresh)) ∧
  (∀ (c : Fin 32) (s : State), s.dev.sdOn c.val = true → (s.dev.sd c.val).failed = false →
    (s.dev.sd c.val).lastChange + 640 ≤ s.dev.now → Answers (.sdDataLost c) s fun t =>
      t.dev.sd c.val = { s.dev.sd c.val with
        failed := true, held := s.dev.entrySignal (24 + c.val), due := false, run := 0, good := 0 } ∧
      t.dev.adc.failCnt = satInc s.dev.adc.failCnt ∧ (t.dev.chan (24 + c.val)).failed = true ∧
      t.dev.stands Reg.ADC_EVENT 8 ∧ ChangesOnly [.adc, .sup, .events, .reports] s t) ∧
  (∀ (b : Fin 4) (s : State), bitAt s.dev.adc.banks b.val = false ∨ (∃ k : Fin 6,
      s.dev.sarOn (6 * b.val + k.val) = true ∧ (s.dev.sar (6 * b.val + k.val)).failed = false) →
    Answers (.sarBankFail b true) s fun t =>
      bitAt t.dev.adc.banks b.val = true ∧ t.dev.stands Reg.ADC_EVENT 4 ∧
      (∀ k : Fin 6, s.dev.sarOn (6 * b.val + k.val) = true → (t.dev.sar (6 * b.val + k.val)).failed = true) ∧
      ChangesOnly [.adc, .sup, .events, .reports] s t) ∧
  (∀ (b : Fin 4) (f : Bool) (s : State), bitAt s.dev.adc.banks b.val = true →
    (∀ k : Fin 6, s.dev.sarOn (6 * b.val + k.val) = true → (s.dev.sar (6 * b.val + k.val)).failed = true) →
    exec (.sarBankFail b f) s = .next (s.after s.fresh)) ∧
  (∀ (c : Fin 32) (s : State), (s.dev.sd c.val).failed = true → 64 ≤ (s.dev.sd c.val).good →
    Answers (.channelRecover ⟨24 + c.val, by omega⟩) s fun t =>
      t.dev.sd c.val = { s.dev.sd c.val with failed := false, good := 0 } ∧ (t.dev.chan (24 + c.val)).failed = false ∧
      t.dev.stands Reg.ADC_EVENT 0x20 ∧ ChangesOnly [.adc, .sup, .events, .reports] s t) ∧
  (∀ (c : Fin 24) (s : State), (s.dev.sar c.val).failed = true →
    (∀ k : Fin 6, s.dev.sarOn (6 * (c.val / 6) + k.val) = true → 16 ≤ (s.dev.sar (6 * (c.val / 6) + k.val)).good) →
    Answers (.channelRecover ⟨c.val, by omega⟩) s fun t =>
      (∀ k : Fin 6, s.dev.sarOn (6 * (c.val / 6) + k.val) = true → (t.dev.sar (6 * (c.val / 6) + k.val)).failed = false) ∧
      t.dev.stands Reg.ADC_EVENT 0x20 ∧ ChangesOnly [.adc, .sup, .events, .reports] s t)

/-- R323–R335: the rows of capture. A closed record that waits for words of its samples is not delivered: log 121
(DEDUCED). -/
def Obligations.CaptureRowsTakeEffect : Prop :=
  (∀ (u : Fin 8) (s : State), (s.dev.aunit u.val).pending = true → s.dev.ang.cur.angle = true →
    Answers (.triggerUnitFire u) s fun t =>
    (t.dev.aunit u.val).pending = false ∧
    (∀ k : Fin 8, bitAt (s.dev.fld (Reg.ACQ_SET_CFG k.val) 15 8) u.val = true →
      s.dev.Triggered k.val u.val (t.dev.aset k.val)) ∧
    (∀ k : Fin 8, bitAt (s.dev.fld (Reg.ACQ_SET_CFG k.val) 15 8) u.val = false → t.dev.aset k.val = s.dev.aset k.val) ∧
    ChangesOnly [.acq, .events, .reports] s t) ∧
  (∀ (u : Fin 8) (s : State), (s.dev.aunit u.val).pending = false ∨ s.dev.ang.cur.angle = false →
    exec (.triggerUnitFire u) s = .next (s.after s.fresh)) ∧
  (∀ (l : Bool) (s : State), s.dev.extReady l = true → Answers (.extTrigIn l) s fun t =>
    (∀ k : Fin 8, s.dev.flag (Reg.ACQ_SET_CFG k.val) 29 = true → s.dev.Triggered k.val 8 (t.dev.aset k.val)) ∧
    (∀ k : Fin 8, s.dev.flag (Reg.ACQ_SET_CFG k.val) 29 = false → t.dev.aset k.val = s.dev.aset k.val) ∧
    ChangesOnly [.acq, .events, .reports] s t) ∧
  (∀ (l : Bool) (s : State), s.dev.extReady l = false → exec (.extTrigIn l) s = .next (s.after s.fresh)) ∧
  (∀ (k : Fin 8) (s : State), s.dev.fld (Reg.ACQ_SET_DIV k.val) 31 16 ≠ 0 →
    (s.dev.aset k.val).phase = .filling ∨ (s.dev.aset k.val).phase = .ready →
    (s.dev.aset k.val).fillStart + s.dev.fld (Reg.ACQ_SET_DIV k.val) 31 16 * msTicks ≤ s.dev.now →
    (∀ x ∈ (s.dev.aset k.val).trig, x.1 ≠ 11) → Answers (.autoTimeout k) s fun t =>
      s.dev.Triggered k.val 11 (t.dev.aset k.val) ∧ (∀ j : Fin 8, j ≠ k → t.dev.aset j.val = s.dev.aset j.val) ∧
      ChangesOnly [.acq, .events, .reports] s t) ∧
  (∀ (k : Fin 8) (s : State), s.dev.fld (Reg.ACQ_SET_DIV k.val) 31 16 = 0 ∨
      s.dev.now < (s.dev.aset k.val).fillStart + s.dev.fld (Reg.ACQ_SET_DIV k.val) 31 16 * msTicks →
    exec (.autoTimeout k) s = .next (s.after s.fresh)) ∧
  (∀ (k : Fin 8) (s : State) (r : AcqRecord) (rest : List AcqRecord) (ofs : Nat),
    (s.dev.aset k.val).closed = r :: rest → r.stepped = true → s.dev.recordOpen k.val r = false → s.dev.ringRoom (8 + k.val) ≠ 0 →
    ofs = (if (s.dev.aset k.val).areaNext + (recordBytes r (s.dev.aset k.val).sieve).length ≤
      s.dev.areaSize k.val then (s.dev.aset k.val).areaNext else 0) →
    freeRun (s.dev.areaHeld k.val) ofs (recordBytes r (s.dev.aset k.val).sieve).length = true →
    Answers (.recordDelivery k) s fun t =>
      (t.dev.aset k.val).closed = rest ∧ (t.dev.aset k.val).recCnt = satInc (s.dev.aset k.val).recCnt ∧
      (t.dev.aset k.val).areaNext = ofs + (recordBytes r (s.dev.aset k.val).sieve).length ∧
      (s.dev.host.out = [] → ∀ a, ¬ s.dev.descPlace (8 + k.val) a →
        t.readByte a = if s.dev.areaBase k.val + ofs ≤ a ∧
            a < s.dev.areaBase k.val + ofs + (recordBytes r (s.dev.aset k.val).sieve).length
          then (recordBytes r (s.dev.aset k.val).sieve).getD (a - (s.dev.areaBase k.val + ofs)) 0
          else s.readByte a) ∧
      ((s.dev.aset k.val).ending = true → rest = [] → (s.dev.aset k.val).cur = none →
        (t.dev.aset k.val).phase = .disarmed) ∧
      ChangesOnly [.acq, .events, .reports] s t) ∧
  (∀ (k : Fin 8) (s : State), (∀ r ∈ (s.dev.aset k.val).closed.head?, s.dev.recordOpen k.val r = true) →
    exec (.recordDelivery k) s = .next (s.after s.fresh)) ∧
  (∀ (c : Cmd) (s : State), s.dev.admits 0x20 (inlMask [(20, 0xFF), (21, 1)]) c →
    (s.dev.namedSets c = none → exec (.captureArm c) s = .next (s.after (s.fresh.complete c 0x20 stBadParam))) ∧
    (∀ ks, s.dev.namedSets c = some ks → Completes (.captureArm c) c 0x20 stOk s fun d =>
      (∀ k ∈ ks, (s.dev.aset k).phase = .disarmed → (s.dev.aset k).armTick = none → d.aset k = { s.dev.aset k with
        armTick := some s.dev.now, single := bitAt (c.byte 21) 0 }) ∧
      (∀ k, k ∉ ks ∨ (s.dev.aset k).phase ≠ .disarmed → d.aset k = s.dev.aset k) ∧ Dev.Keeps [.acq] s.dev d)) ∧
  (∀ (c : Cmd) (s : State), s.dev.admits 0x21 (inlMask [(20, 0xFF)]) c →
    (s.dev.namedSets c = none → exec (.captureDisarm c) s = .next (s.after (s.fresh.complete c 0x21 stBadParam))) ∧
    (∀ ks, s.dev.namedSets c = some ks → Completes (.captureDisarm c) c 0x21 stOk s fun d =>
      (∀ k ∈ ks, d.aset k = if (s.dev.aset k).phase = .post then { s.dev.aset k with ending := true }
        else { s.dev.aset k with phase := .disarmed, single := false, ending := false, armTick := none, pre := [], trig := [] }) ∧
      (∀ k, k ∉ ks → d.aset k = s.dev.aset k) ∧ Dev.Keeps [.acq] s.dev d)) ∧
  (∀ (c : Cmd) (s : State), s.dev.admits 0x22 (inlMask [(20, 0xFF)]) c →
    (s.dev.namedSets c = none → exec (.captureForce c) s = .next (s.after (s.fresh.complete c 0x22 stBadParam))) ∧
    (∀ ks, s.dev.namedSets c = some ks →
      ((∀ k ∈ ks, (s.dev.aset k).phase = .disarmed) →
        exec (.captureForce c) s = .next (s.after (s.fresh.complete c 0x22 stRejected))) ∧
      ((∃ k ∈ ks, (s.dev.aset k).phase ≠ .disarmed) → Completes (.captureForce c) c 0x22 stOk s fun d =>
        (∀ k ∈ ks, (s.dev.aset k).phase ≠ .disarmed → s.dev.Triggered k 9 (d.aset k)) ∧
        (∀ k, k ∉ ks ∨ (s.dev.aset k).phase = .disarmed → d.aset k = s.dev.aset k) ∧
        Dev.Keeps [.acq, .events, .reports] s.dev d)))

/-- R339–R346: the rows of lock and reference. A TIME_SET cut short by holdover completes with a free status (log 19); that
the row PLL_LOCK stands for the declaration, 256 ticks before the move, is log 109, and that LOCKED after an automatic
pull-in raises its own event log 67 (both DEDUCED). -/
def Obligations.ClockLockAndReference : Prop :=
  (∀ s : State, s.dev.clk.refOk = true → Answers .refLost s fun t =>
    t.dev.clk.refOk = false ∧ t.dev.stands Reg.CLK_EVENT 4 ∧
    (s.dev.clk.state = .locked ∨ s.dev.clk.state = .pulling ∨ s.dev.clk.state = .jumpPending →
      t.dev.clk = { s.dev.clk with refOk := false, state := .holdover, holdCnt := satInc s.dev.clk.holdCnt, openCmds := []
                                   stepCnt := s.dev.phaseSteps, steps := none } ∧ t.dev.stands Reg.CLK_EVENT 2) ∧
    (s.dev.clk.state ≠ .locked → s.dev.clk.state ≠ .pulling → s.dev.clk.state ≠ .jumpPending →
      t.dev.clk = { s.dev.clk with refOk := false } ∧ ChangesOnly [.clk, .events, .reports] s t) ∧
    (s.dev.clk.openCmds = [] → ChangesOnly [.clk, .events, .reports] s t) ∧
    ChangesOnly [.clk, .events, .reports, .commands, .free] s t) ∧
  (∀ s : State, s.dev.clk.refOk = false → exec .refLost s = .next (s.after s.fresh)) ∧
  (∀ s : State, s.dev.clk.refOk = true →
    s.dev.clk.state = .locked ∨ s.dev.clk.state = .pulling → Answers .lockWindowOutside s fun t =>
      t.dev.clk = { s.dev.clk with state := .holdover, holdCnt := satInc s.dev.clk.holdCnt, openCmds := []
                                   stepCnt := s.dev.phaseSteps, steps := none } ∧
      t.dev.stands Reg.CLK_EVENT 2 ∧ (s.dev.clk.openCmds = [] → ChangesOnly [.clk, .events, .reports] s t) ∧
      ChangesOnly [.clk, .events, .reports, .commands, .free] s t) ∧
  (∀ s : State, s.dev.clk.refOk = false ∨ (s.dev.clk.state ≠ .locked ∧ s.dev.clk.state ≠ .pulling) →
    exec .lockWindowOutside s = .next (s.after s.fresh)) ∧
  (∀ (e : W32) (s : State), s.dev.clk.refOk = false ∨ s.dev.clk.state = .holdover → Answers (.refBack e) s fun t =>
    (s.dev.clk.state = .holdover → e.toInt.natAbs ≤ 409 → t.dev.clk = { s.dev.clk with
      refOk := true, phaseErr := e.toInt, jump := .ref, state := .pulling, stepCnt := s.dev.phaseSteps
      steps := some (PhaseRun.mk s.dev.now 3200 e.toInt false) }) ∧
    (s.dev.clk.state = .holdover → 409 < e.toInt.natAbs → t.dev.clk = { s.dev.clk with
      refOk := true, phaseErr := e.toInt, jump := .ref, state := .jumpPending, stepCnt := s.dev.phaseSteps
      steps := none } ∧ t.dev.stands Reg.CLK_EVENT 16) ∧
    (s.dev.clk.state ≠ .holdover → t.dev.clk = { s.dev.clk with refOk := true }) ∧
    t.dev.stands Reg.CLK_EVENT 8 ∧ ChangesOnly [.clk, .events, .reports] s t) ∧
  (∀ (e : W32) (s : State), s.dev.clk.refOk = true → s.dev.clk.state ≠ .holdover →
    exec (.refBack e) s = .next (s.after s.fresh)) ∧
  (∀ (b : Fin 16) (s : State), s.dev.clk.state = .search → s.dev.clk.refOk = true → Answers (.pllLock b) s fun t =>
    t.dev.clk = { s.dev.clk with
      state := .locked, band := b.val, lockCnt := satInc s.dev.clk.lockCnt, trim := 0
      seed := s.dev.fld Reg.CLK_CFG 12 8, lockTick := s.dev.now } ∧
    t.dev.stands Reg.CLK_EVENT 1 ∧ ChangesOnly [.clk, .events, .reports] s t) ∧
  (∀ (b : Fin 16) (s : State), s.dev.clk.state ≠ .search ∨ s.dev.clk.refOk = false →
    exec (.pllLock b) s = .next (s.after s.fresh)) ∧
  (∀ d : Dev, d.clk.fallback = true → d.clk.state = .locked →
    (d.clk.lockTick + 256 ≤ d.now → d.clkMove.clk = { d.clk with fallback := false } ∧ Dev.Keeps [.clk, .sec] d d.clkMove) ∧
    (d.now < d.clk.lockTick + 256 → d.clkMove = d)) ∧
  (∀ s : State, s.dev.clk.state = .search → s.dev.clk.lockStart + 2 * msTicks ≤ s.dev.now → Answers .lockFail s fun t =>
    t.dev.clk = { s.dev.clk with state := .noLock, lockStart := s.dev.now } ∧ t.dev.stands Reg.CLK_EVENT 512 ∧
    ChangesOnly [.clk, .sec, .events, .reports] s t) ∧
  (∀ s : State, s.dev.clk.state ≠ .search ∨ s.dev.now < s.dev.clk.lockStart + 2 * msTicks →
    exec .lockFail s = .next (s.after s.fresh)) ∧
  (∀ s : State, s.dev.clk.state = .noLock → s.dev.clk.lockStart + 100 * msTicks ≤ s.dev.now →
    s.dev.gfm.mode = .off ∨ (s.dev.gfm.mode = .tripped ∧ s.dev.sup.acting = false) → Answers .lockRetry s fun t =>
      t.dev.clk = { s.dev.clk with state := .search, fallback := true, lockStart := s.dev.now
                                   stepCnt := s.dev.phaseSteps, steps := none } ∧
      ChangesOnly [.clk] s t ∧ Quiet s t) ∧
  (∀ s : State, s.dev.clk.state ≠ .noLock ∨ s.dev.now < s.dev.clk.lockStart + 100 * msTicks →
    exec .lockRetry s = .next (s.after s.fresh))

/-- R346–R354: the rows of time. All open TIME_SET commands complete together (log 108, DESIGN CHOICE); the expected edge is
the nearest second boundary and an edge while not locked only marks (log 110, DEDUCED). -/
def Obligations.ClockTimeAndPps : Prop :=
  (∀ s : State, s.dev.clk.state = .pulling → s.dev.stepsComplete = true → s.dev.clk.openCmds = [] →
    Answers .pullDone s fun t => t.dev.clk = { s.dev.clk with
        state := .locked, stepCnt := s.dev.phaseSteps, steps := none } ∧
      ChangesOnly [.clk, .events, .reports] s t) ∧
  (∀ (s : State) (o : OpenTime) (rest : List OpenTime), s.dev.clk.state = .pulling → s.dev.stepsComplete = true →
    s.dev.clk.openCmds = o :: rest → (∀ x ∈ o :: rest, x.step = false) → Answers .pullDone s fun t =>
      t.dev.clk = { s.dev.clk with state := .locked, stepCnt := s.dev.phaseSteps, steps := none, openCmds := [] } ∧
      (rest = [] → t.dev.host.cmdCnt = satInc s.dev.host.cmdCnt) ∧ t.dev.stands Reg.CLK_EVENT 64 ∧
      ChangesOnly [.clk, .events, .reports, .commands] s t) ∧
  (∀ s : State, s.dev.clk.state ≠ .pulling ∨ s.dev.stepsComplete = false →
    exec .pullDone s = .next (s.after s.fresh)) ∧
  (∀ d : Dev, d.clk.openCmds.any (·.step) = true → d.stepping = false → d.clk.state = .jumpPending →
    d.beginStep.clk = { d.clk with
      stepCnt := d.phaseSteps, steps := some (PhaseRun.mk d.now 1 (physical d.clk.jump d.clk.phaseErr) true)
      secTick := ((d.clk.secTick : Int) + (d.clk.phaseErr - physical d.clk.jump d.clk.phaseErr) / 512).toNat } ∧
    Dev.Keeps [.clk] d d.beginStep) ∧
  (∀ s : State, s.dev.stepping = true → s.dev.stepsComplete = true → Answers .stepDone s fun t =>
    t.dev.clk = { s.dev.clk with state := .locked, openCmds := [], stepCnt := s.dev.phaseSteps, steps := none } ∧
    (∀ o, s.dev.clk.openCmds = [o] → t.dev.host.cmdCnt = satInc s.dev.host.cmdCnt) ∧ t.dev.stands Reg.CLK_EVENT 128 ∧
    ChangesOnly [.clk, .events, .reports, .commands] s t) ∧
  (∀ s : State, s.dev.stepping = false ∨ s.dev.stepsComplete = false → exec .stepDone s = .next (s.after s.fresh)) ∧
  (∀ (c : Cmd) (s : State), s.dev.admits 0xC0 (inlMask [(20, 0xFF), (24, 0xFFFFFFFF), (28, 0xFFFFFFFF)]) c →
    (2 < c.byte 20 → exec (.timeSet c) s = .next (s.after (s.fresh.complete c 0xC0 stBadParam))) ∧
    (c.byte 20 = 0 → Completes (.timeSet c) c 0xC0 stOk s fun d =>
      d.clk = { s.dev.clk with pendTod := some (c.word 24 + 2 ^ 32 * c.word 28) } ∧ Dev.Keeps [.clk] s.dev d) ∧
    (c.byte 20 = 1 ∨ c.byte 20 = 2 → s.dev.clk.state ≠ .jumpPending →
      exec (.timeSet c) s = .next (s.after (s.fresh.complete c 0xC0 stRejected))) ∧
    (c.byte 20 = 1 → s.dev.clk.state = .jumpPending → s.dev.stepping = false → Answers (.timeSet c) s fun t =>
      t.dev.clk = { s.dev.clk with
        state := .pulling, stepCnt := s.dev.phaseSteps
        steps := some (PhaseRun.mk s.dev.now (8 * ceilDiv 1953125 (1000 * max 1 (s.dev.fld Reg.CLK_PULL 6 0)))
          s.dev.clk.phaseErr false)
        openCmds := s.dev.clk.openCmds ++ [OpenTime.mk c.ring.val c.slot.toNat c.tag.toNat false] } ∧
      ChangesOnly [.clk] s t ∧ Quiet s t) ∧
    (c.byte 20 = 2 → s.dev.clk.state = .jumpPending →
      s.dev.gfm.mode = .off ∨ (s.dev.gfm.mode = .standby ∧
        (physical s.dev.clk.jump s.dev.clk.phaseErr).natAbs ≤ 8192) → Answers (.timeSet c) s fun t =>
      t.dev.clk = { s.dev.clk with
        openCmds := s.dev.clk.openCmds ++ [OpenTime.mk c.ring.val c.slot.toNat c.tag.toNat true] } ∧
      ChangesOnly [.clk] s t ∧ Quiet s t) ∧
    (c.byte 20 = 2 → s.dev.clk.state = .jumpPending →
      (s.dev.gfm.mode ≠ .off ∧ s.dev.gfm.mode ≠ .standby) ∨ (s.dev.gfm.mode = .standby ∧
        8192 < (physical s.dev.clk.jump s.dev.clk.phaseErr).natAbs) →
      exec (.timeSet c) s = .next (s.after (s.fresh.complete c 0xC0 stRejected)))) ∧
  (∀ s : State, s.dev.clk.secTick + secTicks ≤ s.dev.now → Answers .secondBoundary s fun t =>
      (s.dev.clk.pendTod = none → t.dev.clk = { s.dev.clk with
        secs := (s.dev.clk.secs + 1) % 2 ^ 64, secTick := s.dev.clk.secTick + secTicks }) ∧
      (∀ v, s.dev.clk.pendTod = some v → t.dev.clk = { s.dev.clk with
        secs := v % 2 ^ 64, secTick := s.dev.clk.secTick + secTicks, pendTod := none } ∧
        t.dev.stands Reg.CLK_EVENT 256) ∧
      ChangesOnly [.clk, .events, .reports] s t) ∧
  (∀ s : State, s.dev.now < s.dev.clk.secTick + secTicks → exec .secondBoundary s = .next (s.after s.fresh)) ∧
  (∀ (frac : BitVec 6) (s : State) (fine k : Nat) (e : Int), s.dev.ppsUsed = true → fine = 64 * s.dev.now + frac.toNat →
    k = (fine + 32 * secTicks - 64 * s.dev.clk.secTick) / (64 * secTicks) →
    e = (fine : Int) - 64 * ((s.dev.clk.secTick + secTicks * k : Nat) : Int) → Answers (.ppsEdge frac) s fun t =>
      t.dev.clk.ppsOk = true ∧ t.dev.clk.lastPps = some s.dev.now ∧
      (8 * e.natAbs ≤ 409 → t.dev.clk.secTick = s.dev.clk.secTick + secTicks * k ∧
        (k ≠ 0 → t.dev.clk.pendTod = none ∧
          (s.dev.clk.pendTod = none → t.dev.clk.secs = (s.dev.clk.secs + k) % 2 ^ 64) ∧
          (∀ v, s.dev.clk.pendTod = some v → t.dev.clk.secs = (v + (k - 1)) % 2 ^ 64)) ∧
        (s.dev.clk.state = .locked → s.dev.clk.ppsOk = true → t.dev.clk.state = .locked ∧
          t.dev.clk.trim = s.dev.clk.trim + clampI (-20480) 20480 (-e))) ∧
      (409 < 8 * e.natAbs → t.dev.clk.secTick = s.dev.clk.secTick ∧ t.dev.clk.secs = s.dev.clk.secs ∧
        (s.dev.clk.state = .locked → t.dev.clk.state = .jumpPending ∧ t.dev.clk.phaseErr = 8 * e)) ∧
      ChangesOnly [.clk, .events, .reports] s t) ∧
  (∀ (frac : BitVec 6) (s : State), s.dev.ppsUsed = false → exec (.ppsEdge frac) s = .next (s.after s.fresh)) ∧
  (∀ (s : State) (l : Nat), s.dev.clk.lastPps = some l → s.dev.ppsUsed = true → s.dev.clk.ppsOk = true →
    l + 440000000 ≤ s.dev.now → Answers .ppsLost s fun t => t.dev.clk = { s.dev.clk with ppsOk := false } ∧
      t.dev.stands Reg.CLK_EVENT 32 ∧ ChangesOnly [.clk, .events, .reports] s t) ∧
  (∀ s : State, s.dev.clk.lastPps = none ∨ s.dev.ppsUsed = false → exec .ppsLost s = .next (s.after s.fresh)) ∧
  (∀ s : State, s.dev.clk.fallback = false → s.dev.twn.st ≠ .active →
    Answers .clockFailure s fun t => t.dev.clk = { s.dev.clk with fail := true } ∧ t.dev.stands Reg.CLK_EVENT 512 ∧
      ChangesOnly [.clk, .events, .reports] s t) ∧
  (∀ s : State, s.dev.clk.fallback = true → exec .clockFailure s = .next (s.after s.fresh))

/-- R163–R167: what a trip does when it takes effect. -/
def Obligations.TripTakesEffectOnce : Prop :=
  (∀ (d : Dev) (cls : TripClass) (cause : Nat) (details : List Nat), d.controls = true → d.tripping = false →
    cls ≠ .report →
    (d.takeEffect cls cause details).sup.causeFirst = cause ∧ (d.takeEffect cls cause details).sup.causeLast = cause ∧
    (d.takeEffect cls cause details).sup.causeCount = 1 ∧
    (d.takeEffect cls cause details).sup.causeClass = classCode cls ∧
    (d.takeEffect cls cause details).sup.tripCount = satInc d.sup.tripCount ∧
    (d.takeEffect cls cause details).sup.tripTick = some d.now ∧
    (d.takeEffect cls cause details).prof.tripHalt = true ∧ (d.takeEffect cls cause details).gfm.bkrClose = false ∧
    (d.takeEffect cls cause details).gfm.mode = d.gfm.mode ∧
    (d.takeEffect cls cause details).stands Reg.SUP_EVENT 0x4000 ∧
    (d.ang.cur.angle = true → cls = .hard → (d.takeEffect cls cause details).sup.blocked = true ∧
      ∀ n ∈ d.strings, ((d.takeEffect cls cause details).str n).block = true) ∧
    (d.ang.cur.angle = true → cls = .soft → (d.takeEffect cls cause details).sup.soft =
      some { cause := cause, effTick := d.now, d0 := d.sigI 111, q0 := d.sigI 112, start := none,
             tSoft := d.fld Reg.SUP_SUB 23 16 * 40000 })) ∧
  (∀ (d : Dev) (cls : TripClass) (cause : Nat) (details : List Nat), d.controls = true → d.tripping = true →
    cls ≠ .report →
    (d.takeEffect cls cause details).sup.causeLast = cause ∧
    (d.takeEffect cls cause details).sup.causeFirst = d.sup.causeFirst ∧
    (d.takeEffect cls cause details).sup.causeCount =
      (if d.sup.causeCount < 255 then d.sup.causeCount + 1 else 255) ∧
    (d.takeEffect cls cause details).sup.tripCount = satInc d.sup.tripCount ∧
    (d.takeEffect cls cause details).sup.tripTick = d.sup.tripTick ∧
    (d.takeEffect cls cause details).prof.tripHalt = true ∧ (d.takeEffect cls cause details).gfm.mode = d.gfm.mode ∧
    (d.takeEffect cls cause details).stands Reg.SUP_EVENT 0x4000 ∧
    (cls = .hard → d.sup.soft.isSome = true → d.sup.softEnd = false →
      (d.takeEffect cls cause details).sup.soft = none ∧
      (d.takeEffect cls cause details).sup.blocked = true))

/-- R357, R359: packets that are not taken. -/
def Obligations.BadTwinPacketsAreCounted : Prop :=
  ∀ (s : State) (p : StatusPkt) (r : MirrorRec) (q : DrillPkt) (u : TrainPkt) (b c : Byte) (l h : W32) (o : TimePkt) (x : BitVec 6)
      (k : Fin 2) (f : Bool),
    (∀ i ∈ [Instr.statusPacket p false, .mirrorRecord r false, .drillPacket q false, .resignPacket b l false,
        .tripPacket k c false, .handoverPacket f h false, .timePacket ⟨o, x⟩ false, .trainPacket u false],
      (s.dev.twinEn = true → Answers i s fun t =>
        t.dev.twn = { s.dev.twn with pktErrCnt := satInc s.dev.twn.pktErrCnt, sent := [] } ∧
        ChangesOnly [.twn] s t ∧ Quiet s t) ∧
      (s.dev.twinEn = false → exec i s = .next (s.after s.fresh))) ∧
    (s.dev.twinEn = false → ∀ i ∈ [Instr.statusPacket p true, .mirrorRecord r true, .drillPacket q true,
        .resignPacket b l true, .tripPacket k c true, .handoverPacket f h true, .timePacket ⟨o, x⟩ true, .trainPacket u true],
      exec i s = .next (s.after s.fresh))

/-- R361–R377: the packets of the twin link. -/
def Obligations.TwinPacketsTakeEffect : Prop :=
  (∀ (p : StatusPkt) (s : State), s.dev.twinEn = true → p.primary ≠ s.dev.twn.primary → s.dev.shadows = false →
    Answers (.statusPacket p true) s fun t =>
      t.dev.twn = { s.dev.twn with partner := some p, statusNow := true, roleConflict := false, sent := [] } ∧
      ChangesOnly [.twn] s t ∧ Quiet s t) ∧
  (∀ (r : MirrorRec) (s : State), s.dev.twinEn = true → s.dev.twn.st = .standby → s.dev.sameTimebase r = true →
    r.digest = s.dev.digest8 → s.dev.twn.prevSn = some (r.evalSn - 1) → Answers (.mirrorRecord r true) s fun t =>
      t.dev.twn.mirror = some r ∧ t.dev.twn.prevSn = some r.evalSn ∧ t.dev.twn.st = .standby ∧
      t.dev.twn.consistCnt = satInc s.dev.twn.consistCnt ∧ t.dev.gfm.mode = r.mode ∧ t.dev.gfm.sub = r.sub ∧
      t.dev.ang.mcBase = r.mcBase ∧ t.dev.ang.mcn = r.mcn ∧ t.dev.ang.rev = r.rev ∧
      ChangesOnly [.twn, .ang, .gfm, .pwm, .events, .reports] s t) ∧
  (∀ (r : MirrorRec) (s : State), s.dev.twn.st ≠ .standby → s.dev.twn.st ≠ .syncing → s.dev.twinEn = true →
    exec (.mirrorRecord r true) s = .next (s.after s.fresh)) ∧
  (∀ (q : DrillPkt) (s : State), s.dev.twinEn = true → s.dev.shadows = true → s.dev.twn.takeDue = false →
    q.string < 12 → Answers (.drillPacket q true) s fun t =>
      (t.dev.twn.drills.get [] q.string).head? = some (q, s.dev.startOf q.sn) ∧ ChangesOnly [.twn] s t ∧ Quiet s t) ∧
  (∀ (b : Byte) (l : W32) (s : State), s.dev.twinEn = true → s.dev.twn.st = .standby → s.dev.twn.takeDue = false →
    Answers (.resignPacket b l true) s fun t =>
      t.dev.twn.act = true ∧ t.dev.twn.takeDue = true ∧ t.dev.twn.lastL = l ∧ t.dev.twn.nT = some (l + 3) ∧
      t.dev.twn.takeoverCnt = satInc s.dev.twn.takeoverCnt ∧ t.dev.stands Reg.TWN_EVENT 8 ∧
      t.dev.stands Reg.TWN_EVENT 2 ∧ ChangesOnly [.twn, .lrd, .events, .reports] s t) ∧
  (∀ (k : Fin 2) (c : Byte) (s : State), s.dev.twinEn = true → s.dev.twn.st = .standby → s.dev.tripping = false →
    Answers (.tripPacket k c true) s fun t =>
      t.dev.sup.causeFirst = 19 ∧ t.dev.sup.causeClass = k.val + 1 ∧ t.dev.sup.tripTick = some s.dev.now ∧
      t.dev.stands Reg.TWN_EVENT 0x400 ∧ t.pending = s.pending) ∧
  (∀ (k : Fin 2) (c : Byte) (s : State), s.dev.twinEn = true → s.dev.twn.st = .standby → s.dev.tripping = true →
    Answers (.tripPacket k c true) s fun t =>
      t.dev.sup.causeFirst = s.dev.sup.causeFirst ∧ t.dev.sup.causeLast = 19 ∧
      t.dev.sup.causeCount = (if s.dev.sup.causeCount < 255 then s.dev.sup.causeCount + 1 else 255) ∧
      t.dev.sup.tripTick = s.dev.sup.tripTick ∧ t.dev.stands Reg.TWN_EVENT 0x400 ∧ t.pending = s.pending) ∧
  (∀ (k : Fin 2) (c : Byte) (s : State), s.dev.twinEn = true → s.dev.twn.st ≠ .standby →
    exec (.tripPacket k c true) s = .next (s.after s.fresh)) ∧
  (∀ (h : W32) (s : State), s.dev.twinEn = true → s.dev.twn.st = .active → s.dev.twn.primary = false →
    s.dev.converterCalm = true → s.dev.twn.hoSn = none → Answers (.handoverPacket false h true) s fun t =>
      t.dev.twn.hoSn = some (s.dev.twn.lastLaunch + 17) ∧
      t.dev.twn.sent.map (·.body) = (if s.dev.lanesOff then [] else [.handover true (s.dev.twn.lastLaunch + 17)]) ∧ ChangesOnly [.twn] s t ∧ Quiet s t) ∧
  (∀ (h : W32) (s : State), s.dev.twinEn = true → s.dev.twn.st = .standby → s.dev.twn.hoAsked = true →
    Answers (.handoverPacket true h true) s fun t =>
      t.dev.twn = { s.dev.twn with hoSn := some h, hoAsked := false, sent := [] } ∧ ChangesOnly [.twn] s t ∧ Quiet s t) ∧
  (∀ (o : TimePkt) (x : BitVec 6) (s : State), s.dev.twinEn = true →
    (∀ e, o.echo = some e → e.1 ∉ s.dev.twn.timeTx) → Answers (.timePacket ⟨o, x⟩ true) s fun t =>
      t.dev.twn = { s.dev.twn with timeRx := some (o.tx, 64 * s.dev.tickCount + x.toNat), sent := [] } ∧
      ChangesOnly [.twn] s t ∧ Quiet s t) ∧
  (∀ (o : TimePkt) (x : BitVec 6) (s : State) (tx there : Nat) (ofs : Int), s.dev.twinEn = true →
    o.echo = some (tx, there) → tx ∈ s.dev.twn.timeTx →
    ofs = (((tx : Int) - there) + (((64 * s.dev.tickCount + x.toNat : Nat) : Int) - o.tx)) / 2 →
    Answers (.timePacket ⟨o, x⟩ true) s fun t =>
      t.dev.twn.timeOfs = ofs ∧
      (s.dev.alignsTime = false → t.dev.ang = s.dev.ang ∧ t.dev.clk = s.dev.clk) ∧
      (s.dev.alignsTime = true →
        t.dev.ang = { s.dev.ang with tickBase := s.dev.ang.tickBase - rdiv ofs 64 } ∧
        (s.dev.clk.state ≠ .locked ∨ (ofs - 64 * rdiv ofs 64).natAbs ≤ 5 → t.dev.clk = s.dev.clk) ∧
        (s.dev.clk.state = .locked → 5 < (ofs - 64 * rdiv ofs 64).natAbs →
          t.dev.clk.steps = some (PhaseRun.mk s.dev.now (if s.dev.twn.primary then 160 else 3200)
            (8 * (ofs - 64 * rdiv ofs 64)) false) ∧ t.dev.clk.stepCnt = s.dev.phaseSteps)) ∧
      ChangesOnly [.twn, .ang, .clk] s t ∧ Quiet s t) ∧
  (∀ (u : TrainPkt) (s : State), s.dev.twinEn = true → u.string < 12 → s.dev.strEn u.string = true →
    s.dev.shadows = true → s.dev.pen.train = [] → (s.dev.str u.string).phase ≠ u.phase → u.phase ≠ 0 →
    u.replies = [] → u.fail = none → Answers (.trainPacket u true) s fun t =>
      (t.dev.str u.string).phase = u.phase ∧ (t.dev.str u.string).phaseTick = s.dev.now ∧
      (t.dev.str u.string).training = true ∧ ChangesOnly [.pen] s t ∧ Quiet s t) ∧
  (∀ (u : TrainPkt) (r : TrainResult) (s : State), s.dev.twinEn = true → u.string < 12 → s.dev.strEn u.string = true →
    s.dev.myEnds ≠ [] → (s.dev.str u.string).training = true → u.replies = [] → u.fail = some r →
    Answers (.trainPacket u true) s fun t =>
      (t.dev.str u.string).training = false ∧ (t.dev.str u.string).result = r ∧ ChangesOnly [.pen] s t ∧ Quiet s t)

/-- R358–R378: the rows of twin operation. That a toggle is the claim of the next stroke, that the absence of a lease counts
from n_T and that a mismatch trips a SOLO device are log 68, the takeover that stays decided log 111 (both DEDUCED); a
request without an answer is repeated (log 120, DESIGN CHOICE). -/
def Obligations.TwinConditionsTakeEffect : Prop :=
  (∀ s : State, s.dev.twinEn = true → s.dev.twn.linkUp = true → s.dev.twn.locks ≠ 3 ∨ 3 ≤ s.dev.twn.statusless →
    Answers .twinLinkDown s fun t =>
    t.dev.twn.linkUp = false ∧ t.dev.twn.statusRun = 0 ∧ t.dev.twn.hoSn = none ∧ t.dev.twn.hoAsked = false ∧
    t.dev.twn.st = (if s.dev.twn.st = .standby then .blind else s.dev.twn.st) ∧ t.dev.stands Reg.TWN_EVENT 16 ∧
    ChangesOnly [.twn, .events, .reports] s t) ∧
  (∀ s : State, s.dev.twn.linkUp = false ∨ (s.dev.twn.locks = 3 ∧ s.dev.twn.statusless < 3) →
    exec .twinLinkDown s = .next (s.after s.fresh)) ∧
  (∀ s : State, s.dev.twinEn = true → s.dev.twn.linkUp = false → 16 ≤ s.dev.twn.statusRun →
    s.dev.twn.locks = 3 → Answers .twinLinkUp s fun t => t.dev.twn.linkUp = true ∧
      t.dev.twn.st = (if s.dev.twn.st = .blind ∧ s.dev.twn.takeDue = false then .syncing else s.dev.twn.st) ∧
      t.dev.stands Reg.TWN_EVENT 32 ∧
      ChangesOnly [.twn, .pen, .events, .reports] s t) ∧
  (∀ s : State, s.dev.twn.linkUp = true ∨ s.dev.twn.statusRun < 16 ∨ s.dev.twn.locks ≠ 3 → exec .twinLinkUp s = .next (s.after s.fresh)) ∧
  (∀ s : State, s.dev.twinEn = true → Answers .claimToggleSeen s fun t =>
    t.dev.twn = { s.dev.twn with
      lastClaim := some (s.dev.ang.cur.sn + 1)
      claimLate := decide (s.dev.ang.cur.start + s.dev.ang.cur.len + 160 < s.dev.now + s.dev.tEP)
      missed := if s.dev.now + s.dev.tEP ≤ s.dev.ang.cur.start + s.dev.ang.cur.len + 160 then 0 else s.dev.twn.missed
      sent := [] } ∧
    ChangesOnly [.twn] s t ∧ Quiet s t) ∧
  (∀ s : State, s.dev.twinEn = true → s.dev.ang.cur.start + s.dev.ang.cur.len + 160 ≤ s.dev.now + s.dev.tEP →
    s.dev.twn.lastClaim ≠ some (s.dev.ang.cur.sn + 1) ∨ s.dev.twn.claimLate = true → s.dev.twn.lastMissed ≠ some (s.dev.ang.cur.sn + 1) →
    (s.dev.twn.st = .standby ∨ s.dev.twn.st = .blind) →
    (s.dev.twn.missed = 0 → Answers .missedClaim s fun t =>
      t.dev.twn = { s.dev.twn with missed := 1, lastMissed := some (s.dev.ang.cur.sn + 1), sent := [] } ∧
      ChangesOnly [.twn] s t ∧ Quiet s t) ∧
    (1 ≤ s.dev.twn.missed → s.dev.twn.takeDue = false → Answers .missedClaim s fun t =>
      t.dev.twn.takeDue = true ∧ t.dev.twn.act = true ∧
      t.dev.twn.nT = some (s.dev.twn.lastClaim.getD (s.dev.ang.cur.sn + 1 - 2) + 3) ∧ t.dev.stands Reg.TWN_EVENT 2 ∧
      ChangesOnly [.twn, .lrd, .events, .reports] s t)) ∧
  (∀ s : State, s.dev.twn.st ≠ .standby → s.dev.twn.st ≠ .blind → exec .missedClaim s = .next (s.after s.fresh)) ∧
  (∀ s : State, s.dev.twn.st = .active → 4 ≤ s.dev.twn.noLease → Answers .leaseRefused s fun t =>
    t.dev.twn.st = .faulted ∧ t.dev.twn.act = false ∧ t.dev.stands Reg.TWN_EVENT 512 ∧
    ChangesOnly [.twn, .pen, .pwm, .events, .reports] s t) ∧
  (∀ s : State, s.dev.twn.st ≠ .active → exec .leaseRefused s = .next (s.after s.fresh) ∧
    exec .dualClaim s = .next (s.after s.fresh)) ∧
  (∀ s : State, s.dev.twn.st = .active → 16 ≤ s.dev.twn.claimRun → Answers .dualClaim s fun t =>
    t.dev.twn.st = .faulted ∧ t.dev.twn.act = false ∧ t.dev.stands Reg.TWN_EVENT 256 ∧ t.pending = s.pending) ∧
  (∀ s : State, s.dev.twn.st = .syncing → s.dev.twn.primary = true → 1000 ≤ s.dev.twn.alone →
    Answers .syncingToActive s fun t => t.dev.twn.st = .active ∧ t.dev.twn.act = true ∧
      t.dev.twn.lastLaunch = s.dev.ang.cur.sn ∧ t.dev.stands Reg.TWN_EVENT 1 ∧
      ChangesOnly [.twn, .events, .reports] s t) ∧
  (∀ s : State, s.dev.twn.st ≠ .syncing → exec .syncingToActive s = .next (s.after s.fresh)) ∧
  (∀ (ok : Bool) (s : State), s.dev.twn.st = .resigned → Answers (.selfTestDone ok) s fun t =>
    t.dev.twn.st = (if ok then .syncing else .faulted) ∧ t.dev.twn.act = false ∧ t.dev.stands Reg.TWN_EVENT 1 ∧
    ChangesOnly [.twn, .pen, .pwm, .events, .reports] s t) ∧
  (∀ (ok : Bool) (s : State), s.dev.twn.st ≠ .resigned → exec (.selfTestDone ok) s = .next (s.after s.fresh)) ∧
  (∀ s : State, s.dev.twn.st = .standby → s.dev.twn.primary = true → s.dev.flag Reg.TWN_CFG 30 = true →
    s.dev.twn.revertHold = false → s.dev.fld Reg.TWN_CFG 24 0 ≤ s.dev.twn.sinceSync → s.dev.converterCalm = true →
    s.dev.twn.hoSn = none → Answers .handoverRequest s fun t =>
      { t.dev.twn with sent := [], sentEnd := 0 } =
        { s.dev.twn with hoAsked := true, hoByHost := false, sent := [], sentEnd := 0 } ∧
      t.dev.twn.sent.map (·.body) = (if s.dev.lanesOff then [] else [.handover false 0]) ∧ ChangesOnly [.twn] s t ∧ Quiet s t) ∧
  (∀ (c : Cmd) (s : State), s.dev.admits 0x50 (inlMask [(20, 0xFF)]) c →
    (c.byte 20 = 0 → s.dev.twn.st = .active → s.dev.partnerReady = true → Completes (.twinControl c) c 0x50 stOk s
      fun d => d.twn.st = .resigned ∧ d.twn.act = false ∧ d.twn.resignCause = 6 ∧
        (s.dev.twn.primary = true → d.twn.revertHold = true)) ∧
    (c.byte 20 = 0 → s.dev.twn.st ≠ .active ∨ s.dev.partnerReady = false →
      exec (.twinControl c) s = .next (s.after (s.fresh.complete c 0x50 stRejected))) ∧
    (c.byte 20 = 1 → s.dev.twn.st = .syncing → s.dev.twn.primary = false → 2 ≤ s.dev.twn.quietRun →
      s.dev.partnerIs 2 = false → Completes (.twinControl c) c 0x50 stOk s fun d =>
        d.twn.st = .active ∧ d.twn.act = true) ∧
    (c.byte 20 = 2 → s.dev.twn.st = .standby → s.dev.twn.primary = true → Completes (.twinControl c) c 0x50 stOk s
      fun d => { d.twn with sent := [], sentEnd := 0 } =
          { s.dev.twn with revertHold := false, hoByHost := true, hoAsked := true, sent := [], sentEnd := 0 } ∧
        d.twn.sent.map (·.body) = (if s.dev.lanesOff then [] else [.handover false 0])) ∧
    (c.byte 20 = 1 → s.dev.twn.st ≠ .syncing ∨ s.dev.twn.primary = true ∨ s.dev.twn.quietRun < 2 ∨ s.dev.partnerIs 2 = true →
      exec (.twinControl c) s = .next (s.after (s.fresh.complete c 0x50 stRejected))) ∧
    (c.byte 20 = 2 → s.dev.twn.st ≠ .standby ∨ s.dev.twn.primary = false →
      exec (.twinControl c) s = .next (s.after (s.fresh.complete c 0x50 stRejected))) ∧
    (c.byte 20 = 3 → s.dev.twn.st ≠ .faulted ∨ s.dev.twn.roleConflict = true →
      exec (.twinControl c) s = .next (s.after (s.fresh.complete c 0x50 stRejected))) ∧
    (c.byte 20 = 3 → s.dev.twn.st = .faulted → s.dev.twn.roleConflict = false →
      Completes (.twinControl c) c 0x50 stOk s fun d => d.twn = { s.dev.twn with st := .resigned, sent := [] }) ∧
    (3 < c.byte 20 → exec (.twinControl c) s = .next (s.after (s.fresh.complete c 0x50 stBadParam)))) ∧
  (∀ s : State, s.dev.twn.st = .active → s.dev.partnerReady = true → Answers .controlDatapathMismatch s fun t =>
    t.dev.twn.st = .resigned ∧ t.dev.twn.act = false ∧ t.dev.twn.resignCause = 5 ∧
    (s.dev.ang.cur.sn = s.dev.twn.lastLaunch ∨ s.dev.ang.cur.sn + 1 = s.dev.twn.lastLaunch →
      t.dev.twn.repeatLeft = (s.dev.twn.lastLaunch + 3 - s.dev.ang.cur.sn).toNat) ∧
    t.dev.stands Reg.TWN_EVENT 8 ∧ ChangesOnly [.twn, .pen, .lrd, .events, .reports] s t) ∧
  (∀ s : State, (s.dev.twn.st = .solo ∨ (s.dev.twn.st = .active ∧ s.dev.partnerReady = false)) →
    s.dev.tripping = false → Answers .controlDatapathMismatch s fun t =>
      t.dev.sup.causeFirst = 19 ∧ t.dev.sup.causeClass = 2 ∧ t.dev.sup.tripTick = some s.dev.now ∧ t.pending = s.pending)

/-- R384–R395: the samples and the conditions of the Fence. Which samples a mask takes, how many differing samples latch, and
that a disagreement begins while the other channel reads high are the model's reading (log 69, DEDUCED). -/
def Obligations.FenceSamplesAndDemands : Prop :=
  (∀ (a b rb : Byte) (s : State), s.dev.fenRuns = true → Answers (.fenceSample a b rb) s fun t =>
    t.dev.fen.time = s.dev.fen.time + 1 ∧
    (∀ i < 8, (t.dev.fenIn i).a = sampleChan (bits (s.dev.inCfg i) 19 13)
        (s.dev.pulseAge (bits (s.dev.inCfg i) 30 28)) (a.getLsbD i) (s.dev.fenIn i).a ∧
      (t.dev.fenIn i).b = sampleChan (bits (s.dev.inCfg i) 19 13)
        (s.dev.pulseAge (bits (s.dev.inCfg i) 27 25)) (b.getLsbD i) (s.dev.fenIn i).b) ∧
    (∀ k < 4, (t.dev.fenOut k).hi.rb = rbHigh rb k ∧ (t.dev.fenOut k).lo.rb = rbLow rb k ∧
      (t.dev.fenOut k).demanded = (t.dev.pairCause k || (t.dev.fenOut k).latched)) ∧
    t.dev.fen.imageSeq = (if (s.dev.fen.time + 1) % 2 = 0 then (s.dev.fen.imageSeq + 1) % 2 ^ 32
      else s.dev.fen.imageSeq) ∧ t.pending = s.pending) ∧
  (∀ (a b rb : Byte) (l : Fin 4) (k : Fin 8) (p : Fin 4) (s : State), s.dev.fenRuns = false →
    ∀ i ∈ [Instr.fenceSample a b rb, .testPulse l, .discrepancy k, .readBackFault p, .sysclkDev],
      exec i s = .next (s.after s.fresh)) ∧
  (∀ (l : Fin 4) (s : State), s.dev.fenRuns = true → s.dev.fen.time % 2000 = 500 * l.val →
    s.dev.fen.pulses.get none l.val ≠ some s.dev.fen.time → Answers (.testPulse l) s fun t =>
      t.dev.fen.pulses.get none l.val = some s.dev.fen.time ∧ t.dev.fen.outs = s.dev.fen.outs ∧
      ChangesOnly [.fen] s t ∧ Quiet s t) ∧
  (∀ (l : Fin 4) (s : State), s.dev.fen.time % 2000 ≠ 500 * l.val →
    exec (.testPulse l) s = .next (s.after s.fresh)) ∧
  (∀ (k : Fin 8) (s : State), s.dev.fenRuns = true → s.dev.discDue k.val = true → Answers (.discrepancy k) s fun t =>
    (t.dev.fenIn k.val).disc = true ∧ t.dev.fen.time = s.dev.fen.time ∧
    (∀ p < 4, s.dev.fenInEn k.val = true → bitAt (s.dev.inCfg k.val) (20 + p) = true → (t.dev.fenOut p).demanded = true) ∧
    t.pending = s.pending) ∧
  (∀ (k : Fin 8) (s : State), s.dev.discDue k.val = false → exec (.discrepancy k) s = .next (s.after s.fresh)) ∧
  (∀ (p : Fin 4) (s : State), s.dev.fenRuns = true → 11 ≤ (s.dev.fenOut p.val).hi.bad →
    (s.dev.fenOut p.val).hi.fault = false → Answers (.readBackFault p) s fun t =>
      (t.dev.fenOut p.val).hi.fault = true ∧ (t.dev.fenOut p.val).demanded = true ∧
      (t.dev.fenOut p.val).hi.cmd = false ∧ (t.dev.fenOut p.val).lo.cmd = false ∧ t.pending = s.pending) ∧
  (∀ (p : Fin 4) (s : State), s.dev.fenRuns = true → 11 ≤ (s.dev.fenOut p.val).lo.bad →
    (s.dev.fenOut p.val).lo.fault = false → Answers (.readBackFault p) s fun t =>
      (t.dev.fenOut p.val).lo.fault = true ∧ (t.dev.fenOut p.val).demanded = true ∧
      (t.dev.fenOut p.val).hi.cmd = false ∧ (t.dev.fenOut p.val).lo.cmd = false ∧ t.pending = s.pending) ∧
  (∀ (p : Fin 4) (s : State), (s.dev.fenOut p.val).hi.bad < 11 → (s.dev.fenOut p.val).lo.bad < 11 →
    exec (.readBackFault p) s = .next (s.after s.fresh)) ∧
  (∀ (c : Byte) (s : State), 1 ≤ c.toNat → c.toNat ≤ 3 → s.dev.fen.st ≠ .fault →
    Answers (.fenceInternalFault c) s fun t =>
      t.dev.fen.st = .fault ∧ t.dev.fen.code = c.toNat ∧ t.dev.fen.held = (s.dev.fen.held || decide (c.toNat = 3)) ∧
      (∀ k < 4, (t.dev.fenOut k).demanded = true ∧ (t.dev.fenOut k).hi.cmd = false ∧
        (t.dev.fenOut k).lo.cmd = false) ∧ t.pending = s.pending) ∧
  (∀ (c : Byte) (s : State), c.toNat = 0 ∨ 4 ≤ c.toNat →
    exec (.fenceInternalFault c) s = .next (s.after s.fresh)) ∧
  (∀ s : State, s.dev.fenRuns = true → Answers .sysclkDev s fun t =>
    t.dev.fen.sysclkDev = true ∧ t.dev.fen.outs = s.dev.fen.outs ∧
    ChangesOnly [.fen, .events, .reports, .host] s t) ∧
  (∀ (p : Fin 4) (low : Bool) (s : State), Answers (.driveTimerExpire p low) s fun t =>
    (t.dev.fenOut p.val).lo = (if low then driveSwitch false (s.dev.fenOut p.val).lo else (s.dev.fenOut p.val).lo) ∧
    (t.dev.fenOut p.val).hi = (if low then (s.dev.fenOut p.val).hi else driveSwitch false (s.dev.fenOut p.val).hi) ∧
    (∀ k, k ≠ p.val → t.dev.fenOut k = s.dev.fenOut k) ∧ ChangesOnly [.fen] s t ∧ Quiet s t) ∧
  (∀ s : State, s.dev.fenLocked = false → Answers .lockoutEnd s fun t =>
    t.dev.fen = { s.dev.fen with lockEnd := none } ∧ ChangesOnly [.fen] s t ∧ Quiet s t) ∧
  (∀ s : State, s.dev.fenLocked = true → exec .lockoutEnd s = .next (s.after s.fresh))

/-- R393–R405, R442, R522: tests, start and the event queue of the Fence. The set without a valid entry of the log, and
that FENCE_INIT follows the release as a row of its own, are log 126 (DESIGN CHOICE). -/
def Obligations.FenceTestsAndStart : Prop :=
  (∀ (p : Fin 4) (rb : Byte) (s : State), s.dev.testDue p.val = true → s.dev.testable p.val = true →
    s.dev.fenPairEn p.val = true → Answers (.contactorTestStart p rb) s fun t =>
      (t.dev.fenOut p.val).stage = (if rbHigh rb p.val then .high else .gap) ∧
      (t.dev.fenOut p.val).hi.cmd = (!rbHigh rb p.val) ∧ (t.dev.fenOut p.val).lo.cmd = true ∧
      (t.dev.fenOut p.val).since = s.dev.fen.time ∧ (t.dev.fenOut p.val).waiting = false ∧
      (∀ k, k ≠ p.val → t.dev.fenOut k = s.dev.fenOut k) ∧ ChangesOnly [.fen] s t ∧ Quiet s t) ∧
  (∀ (p : Fin 4) (rb : Byte) (s : State), s.dev.testDue p.val = false ∨ s.dev.testable p.val = false →
    exec (.contactorTestStart p rb) s = .next (s.after s.fresh)) ∧
  (∀ (p : Fin 4) (rb : Byte) (s : State), (s.dev.fenOut p.val).stage = .gap →
    (s.dev.fenOut p.val).since + 2000 ≤ s.dev.fen.time →
    (rbLow rb p.val = false → s.dev.fen.openTest = none → Answers (.contactorTestLowSide p rb) s fun t =>
      (t.dev.fenOut p.val).stage = .none ∧ (t.dev.fenOut p.val).result = 1 ∧
      (t.dev.fenOut p.val).lastTest = s.dev.fen.time ∧ (t.dev.fenOut p.val).tested = true ∧
      ChangesOnly [.fen, .events, .reports, .host] s t) ∧
    (rbLow rb p.val = true → Answers (.contactorTestLowSide p rb) s fun t =>
      (t.dev.fenOut p.val).stage = .low ∧ (t.dev.fenOut p.val).lo.cmd = false ∧ ChangesOnly [.fen] s t ∧ Quiet s t)) ∧
  (∀ (p : Fin 4) (rb : Byte) (s : State), (s.dev.fenOut p.val).stage ≠ .gap →
    exec (.contactorTestLowSide p rb) s = .next (s.after s.fresh)) ∧
  (∀ s : State, s.dev.fen.held = true → Answers .fenceSupplyRelease s fun t =>
    t.dev.fen = { s.dev.fen with st := .init, code := 0, held := false } ∧ (∀ k, t.dev.pairCause k = true) ∧
    ChangesOnly [.fen] s t ∧ Quiet s t) ∧
  (∀ s : State, s.dev.fen.held = false → exec .fenceSupplyRelease s = .next (s.after s.fresh)) ∧
  (∀ (crcOk selfOk : Bool) (s : State), 2 < s.dev.sec.phase → s.dev.fen.held = false → s.dev.fen.st = .init →
    Answers (.fenceInit crcOk selfOk) s fun t =>
      t.dev.fen.st = (if crcOk && selfOk then .run else .fault) ∧
      t.dev.fen.code = (if crcOk = false then 4 else if selfOk = false then 5 else s.dev.fen.code) ∧
      t.dev.fen.held = false ∧ t.dev.fen.time = 0 ∧ t.dev.fen.passcode = s.dev.lastSet.passcode ∧
      t.dev.fen.inCfg = s.dev.lastSet.inCfg ∧ t.dev.fen.pairCfg = s.dev.lastSet.pairCfg ∧ t.dev.fen.log = s.dev.fen.log ∧
      t.dev.fen.logSeq = s.dev.fen.logSeq ∧ t.dev.fen.sets = s.dev.fen.sets ∧
      t.dev.fen.lockEnd = (if s.dev.fenLocked then some 12000000 else none) ∧
      (∀ k < 4, t.dev.fenPairEn k = true → t.dev.fenManual k = true →
        (t.dev.fenOut k).latched = true ∧ (t.dev.fenOut k).demanded = true) ∧
      (crcOk && selfOk = false → ∀ k < 4, (t.dev.fenOut k).demanded = true) ∧ t.pending = s.pending) ∧
  (∀ (bs : List Byte) (s : State), s.dev.fen.queue = [bs] → s.dev.ringRoom 30 ≠ 0 →
    exec .fenceEventQueueDrain s = .next (s.after ((s.fresh.onFen fun f => { f with queue := [] }).putDesc 30 26 bs))) ∧
  (∀ s : State, s.dev.fen.queue = [] ∨ s.dev.ringRoom 30 = 0 →
    exec .fenceEventQueueDrain s = .next (s.after s.fresh))

/-- R391–R407: the commands of the Fence. That R395, not R16, says when a read-back fault clears is log 114 (DEDUCED). -/
def Obligations.FenceCommandsComplete : Prop :=
  (∀ (c : Cmd) (ok : Bool) (s : State),
    s.dev.admits 0x60 (inlMask [(20, 0xFFFFFFFF), (24, 0xFFFF), (28, 0xFFFFFFFF)]) c →
    (s.dev.fenLocked = true → exec (.fenceParam c ok) s = .next (s.after (s.fresh.complete c 0x60 stLocked))) ∧
    (s.dev.fenLocked = false → c.word 20 ≠ s.dev.fen.passcode.toNat → Completes (.fenceParam c ok) c 0x60 stAuth s
      fun d => d.fen.wrong = (if s.dev.fen.wrong + 1 < 3 then s.dev.fen.wrong + 1 else 0) ∧
        d.fen.lockEnd = (if s.dev.fen.wrong + 1 < 3 then s.dev.fen.lockEnd else some (s.dev.fen.time + 12000000)) ∧
        d.fen.authFail = satInc s.dev.fen.authFail ∧ d.fen.passcode = s.dev.fen.passcode ∧
        d.fen.inCfg = s.dev.fen.inCfg ∧ d.fen.pairCfg = s.dev.fen.pairCfg) ∧
    (s.dev.fenLocked = false → c.word 20 = s.dev.fen.passcode.toNat →
      (paramValid (c.half 24) (c.word 28) = false → Completes (.fenceParam c ok) c 0x60 stBadParam s fun d =>
        d.fen = { s.dev.fen with wrong := 0 }) ∧
      (paramValid (c.half 24) (c.word 28) = true → s.dev.offOrTripped = false ∨ s.dev.testRuns = true →
        Completes (.fenceParam c ok) c 0x60 stRejected s fun d => d.fen = { s.dev.fen with wrong := 0 }) ∧
      (paramValid (c.half 24) (c.word 28) = true → s.dev.offOrTripped = true → s.dev.testRuns = false →
        (ok = false → exec (.fenceParam c ok) s = .next (s.after (s.fresh.complete c 0x60 stTimeout))) ∧
        (ok = true → Completes (.fenceParam c ok) c 0x60 stOk s fun d =>
          d.fen.wrong = 0 ∧ d.fen.logSeq = s.dev.fen.logSeq + 1 ∧ d.fen.log.tail = s.dev.fen.log.take 1023 ∧
          (c.half 24 = 0 → d.fen.passcode.toNat = c.word 28 ∧ d.fen.inCfg = s.dev.fen.inCfg ∧
            d.fen.pairCfg = s.dev.fen.pairCfg) ∧
          (∀ i < 8, c.half 24 = 0x10 + i → d.inCfg i = c.word 28 ∧ d.fen.passcode = s.dev.fen.passcode ∧
            (∀ j, j ≠ i → d.inCfg j = s.dev.inCfg j) ∧ d.fen.pairCfg = s.dev.fen.pairCfg) ∧
          (∀ k < 4, c.half 24 = 0x20 + k → d.pairCfg k = c.word 28 ∧ d.fen.passcode = s.dev.fen.passcode ∧
            (∀ j, j ≠ k → d.pairCfg j = s.dev.pairCfg j) ∧ d.fen.inCfg = s.dev.fen.inCfg))))) ∧
  (∀ (c : Cmd) (s : State), s.dev.admits 0x61 (inlMask [(20, 0xF)]) c →
    (c.byte 20 = 0 → exec (.fenceTest c) s = .next (s.after (s.fresh.complete c 0x61 stBadParam))) ∧
    (c.byte 20 ≠ 0 → s.dev.testRuns = true →
      exec (.fenceTest c) s = .next (s.after (s.fresh.complete c 0x61 stBusy))) ∧
    (∀ k < 4, bitAt (c.byte 20) k = true → s.dev.testRuns = false →
      (k = 0 ∧ s.dev.offOrTripped = false) ∨ pairClosed (s.dev.fenOut k) = false →
      exec (.fenceTest c) s = .next (s.after (s.fresh.complete c 0x61 stRejected))) ∧
    (∀ k < 4, c.byte 20 = 2 ^ k → s.dev.testRuns = false → (k = 0 → s.dev.offOrTripped = true) →
      s.dev.testable k = true → Answers (.fenceTest c) s fun t =>
        (t.dev.fenOut k).stage = .high ∧ (t.dev.fenOut k).hi.cmd = false ∧
        (t.dev.fenOut k).since = s.dev.fen.time ∧
        t.dev.fen.openTest = some (OpenFenceTest.mk c.ring.val c.slot.toNat c.tag.toNat [] k true) ∧
        (∀ j, j ≠ k → t.dev.fenOut j = s.dev.fenOut j) ∧ ChangesOnly [.fen] s t ∧ Quiet s t)) ∧
  (∀ (c : Cmd) (s : State), s.dev.admits 0x62 0 c →
    (s.dev.fen.held = true ∨ s.dev.fen.st = .init → exec (.fenceReset c) s =
      .next (s.after (s.fresh.complete c 0x62 (if s.dev.anyLatch then stPartial else stOk)))) ∧
    (s.dev.fen.held = false → s.dev.fen.st ≠ .init →
      ∃ d : Dev, exec (.fenceReset c) s = .next (s.after (d.complete c 0x62 (if d.anyLatch then stPartial else stOk))) ∧
        (∀ k < 4,
          (d.fenOut k).hi.fault = false ∧ ((s.dev.fenOut k).hi.fault = true → (d.fenOut k).hi.bad = 0) ∧
          (d.fenOut k).lo.fault = false ∧ ((s.dev.fenOut k).lo.fault = true → (d.fenOut k).lo.bad = 0)) ∧
        (∀ i < 8, (d.fenIn i).disc =
          ((s.dev.fenIn i).disc && ((s.dev.fenIn i).a.demand || (s.dev.fenIn i).b.demand)))) ∧
    (s.dev.fen.held = false → s.dev.fen.st = .run → s.dev.fen.passcode ≠ 0 →
      (∀ i < 8, (s.dev.fenIn i).a.demand = false ∧ (s.dev.fenIn i).b.demand = false ∧
        (s.dev.fenIn i).a.followed = true ∧ (s.dev.fenIn i).b.followed = true) →
      (∀ k < 4, (s.dev.fenOut k).hi.fault = false ∧ (s.dev.fenOut k).lo.fault = false) →
      Completes (.fenceReset c) c 0x62 stOk s fun d =>
        d.anyLatch = false ∧ ∀ k < 4, (d.fenOut k).latched = false ∧ (d.fenOut k).demanded = false))

/-- R5–R11, R412, R444–R447: register accesses from outside. The layout of the MSI-X table and what Enable and Function Mask do
are those of the PCI Express Base Specification (logs 13 and 127, PRESUMED); what HOST_RESET keeps is log 53 and that a
service-port write to the Fence counts twice log 54 (both DEDUCED). -/
def Obligations.RegisterAccessesTakeEffect : Prop :=
  (∀ (bar off : Nat) (d : Dev), (d.accessErr bar off).host.accErrCnt = satInc d.host.accErrCnt ∧
    (d.accessErr bar off).stands Reg.HOST_EVENT 2 ∧ (d.accessErr bar off).stands Reg.HOST_IRQ_STAT_H 0x80000000 ∧
    Dev.Keeps [.events, .reports, .host] d (d.accessErr bar off)) ∧
  (∀ (off : BitVec 20) (v : W32) (be : BitVec 4) (s : State), be.toNat ≠ 15 ∨ off.toNat % 4 ≠ 0 →
    exec (.registerWrite off v be) s = .next (s.after (s.fresh.accessErr 0 off.toNat))) ∧
  (∀ (off : BitVec 20) (v : W32) (s : State), off.toNat % 4 = 0 →
    (off.toNat / 0x10000 = 11 → Answers (.registerWrite off v 15) s fun t =>
      t.dev.fen = { s.dev.fen with ignCnt := satInc s.dev.fen.ignCnt } ∧ ChangesOnly [.fen] s t ∧ Quiet s t) ∧
    (off.toNat / 0x10000 ≠ 11 → (∀ x ∈ writeActions, x.1 ≠ off.toNat) →
      (∀ r, regRow off.toNat = some r → r.w1c ≠ 0 → Answers (.registerWrite off v 15) s fun t =>
        t.dev.w1c off.toNat = s.dev.w1c off.toNat &&& (~~~v ||| s.dev.w1cRecent off.toNat) ∧
        (∀ o, o ≠ off.toNat → t.dev.w1c o = s.dev.w1c o) ∧ ChangesOnly [.events] s t ∧ Quiet s t) ∧
      (∀ r, regRow off.toNat = some r → r.w1c = 0 → r.rw ≠ 0 → r.staged = true → off.toNat / 0x10000 ≠ 2 →
        Answers (.registerWrite off v 15) s fun t =>
          t.dev.stagedReg off.toNat = (v &&& BitVec.ofNat 32 r.rw).toNat ∧
          (∀ o, o ≠ off.toNat → t.dev.stagedReg o = s.dev.stagedReg o) ∧
          t.dev.regs.active = s.dev.regs.active ∧ t.dev.regs.inForce = s.dev.regs.inForce ∧
          ChangesOnly [.values] s t ∧ Quiet s t) ∧
      ((regRow off.toNat = none ∨ ∃ r, regRow off.toNat = some r ∧ r.w1c = 0 ∧ r.rw = 0) →
        exec (.registerWrite off v 15) s = .next (s.after s.fresh)))) ∧
  (∀ (off : BitVec 24) (n : BitVec 16) (s : State), Answers (.svcRead off n) s fun t =>
    t.dev.host.svcOut = 0 :: ((upto n.toNat).flatMap fun i =>
      beBytes 4 (if svcReaches (off.toNat + 4 * i) then s.fresh.regRead (off.toNat + 4 * i) else 0)) ∧
    t.dev.host.svcErr = (s.dev.host.svcErr ||
      !(svcReaches off.toNat && svcReaches (off.toNat + 4 * (n.toNat - 1)))) ∧ ChangesOnly [.host] s t ∧ Quiet s t) ∧
  (∀ (off : BitVec 24) (v : W32) (s : State),
    (svcReaches off.toNat = false → Answers (.svcWrite off [v]) s fun t =>
      t.dev.host = { s.dev.host with svcErr := true, out := [] } ∧ ChangesOnly [.host] s t) ∧
    (svcReaches off.toNat = true → (off.toNat / 0x10000 = 2 ∨ off.toNat / 0x10000 = 15 ∨ off.toNat = Reg.SYS_RESET) →
      Answers (.svcWrite off [v]) s fun t => t.dev.host.svcIgnCnt = satInc s.dev.host.svcIgnCnt ∧
        ChangesOnly [.host] s t ∧ Quiet s t) ∧
    (svcReaches off.toNat = true → off.toNat / 0x10000 = 11 → Answers (.svcWrite off [v]) s fun t =>
      t.dev.host.svcIgnCnt = satInc s.dev.host.svcIgnCnt ∧
      t.dev.fen = { s.dev.fen with ignCnt := satInc s.dev.fen.ignCnt } ∧ ChangesOnly [.fen, .host] s t ∧ Quiet s t) ∧
    (svcReaches off.toNat = true → off.toNat / 0x10000 ≠ 2 → off.toNat / 0x10000 ≠ 11 → off.toNat / 0x10000 ≠ 15 →
      off.toNat ≠ Reg.SYS_RESET → exec (.svcWrite off [v]) s = exec (.registerWrite (off.setWidth 20) v 15) s)) ∧
  (∀ s : State, Answers .svcStatus s fun t =>
    t.dev.host.svcOut = [BitVec.ofNat 8 (2 * b2n s.dev.ready + b2n s.dev.host.svcErr)] ∧ t.dev.host.svcErr = false ∧
    ChangesOnly [.host] s t ∧ Quiet s t) ∧
  (∀ (off : BitVec 13) (v : W32) (s : State),
    (0x400 ≤ off.toNat ∨ off.toNat % 4 ≠ 0 → exec (.msixTableWrite (.bar4 off) v) s = .next (s.after s.fresh)) ∧
    (∀ k < 64,
      (off.toNat = 16 * k → Answers (.msixTableWrite (.bar4 off) v) s fun t => (t.dev.vec k).addr.toNat =
        (s.dev.vec k).addr.toNat / 2 ^ 32 * 2 ^ 32 + v.toNat ∧ ChangesOnly [.reports] s t ∧ Quiet s t) ∧
      (off.toNat = 16 * k + 4 → Answers (.msixTableWrite (.bar4 off) v) s fun t => (t.dev.vec k).addr.toNat =
        (s.dev.vec k).addr.toNat % 2 ^ 32 + v.toNat * 2 ^ 32 ∧ ChangesOnly [.reports] s t ∧ Quiet s t) ∧
      (off.toNat = 16 * k + 8 → Answers (.msixTableWrite (.bar4 off) v) s fun t =>
        t.dev.vec k = { s.dev.vec k with data := v } ∧ ChangesOnly [.reports] s t ∧ Quiet s t) ∧
      (off.toNat = 16 * k + 12 → (s.dev.vec k).pending = false ∨ v.getLsbD 0 = true → Answers (.msixTableWrite (.bar4 off) v) s
        fun t => t.dev.vec k = { s.dev.vec k with masked := v.getLsbD 0 } ∧ ChangesOnly [.reports] s t ∧ Quiet s t) ∧
      (off.toNat = 16 * k + 12 → (s.dev.vec k).pending = true → v.getLsbD 0 = false → (s.dev.vec k).holdoff = none →
        (s.dev.msixOff = true → Answers (.msixTableWrite (.bar4 off) v) s fun t =>
          t.dev.vec k = { s.dev.vec k with masked := false } ∧ ChangesOnly [.reports] s t ∧ Quiet s t) ∧
        (s.dev.msixOff = false → Answers (.msixTableWrite (.bar4 off) v) s fun t => (t.dev.vec k).pending = false ∧
          (t.dev.vec k).masked = false ∧ ChangesOnly [.reports] s t ∧
          (s.dev.host.out = [] → ∀ j < 4,
            t.readByte ((s.dev.vec k).addr.toNat + j) = (leBytes 4 (s.dev.vec k).data.toNat).getD j 0))))) ∧
  (∀ (v : W32) (s : State), Answers (.msixTableWrite .control v) s fun t =>
      t.dev.host.pcie = { s.dev.host.pcie with msixEn := v.getLsbD 31, msixMask := v.getLsbD 30 } ∧
      (v.getLsbD 31 = false ∨ v.getLsbD 30 = true → ChangesOnly [.host] s t ∧ Quiet s t) ∧
      (v.getLsbD 31 = true → v.getLsbD 30 = false → ChangesOnly [.reports, .host] s t ∧ ∀ k < 64,
        ((s.dev.vec k).pending = true → (s.dev.vec k).masked = false → (s.dev.vec k).holdoff = none →
          (t.dev.vec k).pending = false) ∧
        ((s.dev.vec k).pending = false ∨ (s.dev.vec k).masked = true ∨ (s.dev.vec k).holdoff ≠ none →
          t.dev.vec k = s.dev.vec k))) ∧
  (∀ (v : Fin 64) (s : State),
    ((s.dev.vec v.val).holdoff = none → exec (.holdoffEnd v) s = .next (s.after s.fresh)) ∧
    (∀ e, (s.dev.vec v.val).holdoff = some e →
      (s.dev.now < e → exec (.holdoffEnd v) s = .next (s.after s.fresh)) ∧
      (e ≤ s.dev.now → (s.dev.vec v.val).pending = false ∨ (s.dev.vec v.val).masked = true ∨ s.dev.msixOff = true →
        Answers (.holdoffEnd v) s fun t => t.dev.vec v.val = { s.dev.vec v.val with holdoff := none } ∧
          ChangesOnly [.reports] s t ∧ Quiet s t) ∧
      (e ≤ s.dev.now → (s.dev.vec v.val).pending = true → (s.dev.vec v.val).masked = false → s.dev.msixOff = false →
        Answers (.holdoffEnd v) s fun t => (t.dev.vec v.val).pending = false ∧ ChangesOnly [.reports] s t ∧
          (s.dev.host.out = [] →
            (∀ j < 4, t.readByte ((s.dev.vec v.val).addr.toNat + j) = (leBytes 4 (s.dev.vec v.val).data.toNat).getD j 0) ∧
            ∀ a, a < (s.dev.vec v.val).addr.toNat ∨ (s.dev.vec v.val).addr.toNat + 4 ≤ a →
              t.readByte a = s.readByte a)))) ∧
  (∀ (lost : Bool) (s : State), Answers (.hostReset lost) s fun t =>
    (∀ o, t.dev.cfg o = (if o / 0x10000 = 2 ∧ o ≠ Reg.HOST_WD then (regReset o).toNat else s.dev.cfg o)) ∧
    (∀ r < 32, t.dev.ring r = Ring.reset) ∧ (∀ v < 64, t.dev.vec v = MsixVec.reset) ∧
    (∀ f ∈ t.dev.host.inflight, f.lost = true) ∧ t.dev.host.inflight.length = s.dev.host.inflight.length ∧
    t.dev.host.wdStart = s.dev.host.wdStart ∧ t.dev.host.wdExpired = s.dev.host.wdExpired ∧
    t.dev.host.linkUp = (!lost && s.dev.host.linkUp) ∧
    t.dev.host.pcie = { ConfigSpace.reset with aerCnt := s.dev.host.pcie.aerCnt } ∧
    ChangesOnly [.values, .snaps, .events, .reports, .commands, .host] s t ∧ Quiet s t) ∧
  (∀ (sp : Fin 4) (l : LinkSetup) (s : State), sp.val ≠ 0 → (l.width.val = 1 ∨ l.width.val = 2 ∨ l.width.val = 4) →
    Answers (.dataLinkUp sp l) s fun t => t.dev.host.linkUp = true ∧ t.dev.host.speed = sp.val ∧
      t.dev.host.width = l.width.val ∧
      t.dev.host.pcie = { s.dev.host.pcie with payload := l.payload.val, readReq := l.readReq.val } ∧ ChangesOnly [.host] s t ∧ Quiet s t)

/-- R414–R419, R429, R440, R443: rings and the watchdog. Of these, that every fetch restarts the watchdog and clears HELD is log
51, and that a discarded doorbell value reads back log 52 (both DESIGN CHOICE); that an unknown opcode with ORDERED waits
for the earlier commands of its ring, also for those a HOST reset has survived, is log 53 (DEDUCED). -/
def Obligations.RingRowsTakeEffect : Prop :=
  (∀ (r : Fin 32) (v : W32) (s : State),
    (v.getLsbD 31 = false → exec (.ringEnable r v) s = .next (s.after s.fresh)) ∧
    (v.getLsbD 31 = true → exec (.ringDisable r v) s = .next (s.after s.fresh)) ∧
    (v.getLsbD 31 = true → bits v.toNat 4 0 < 6 ∨ 16 < bits v.toNat 4 0 → exec (.ringEnable r v) s =
      .next (s.after (s.fresh.accessErr 0 (Reg.HOST_RING_CFG r.val)))) ∧
    (v.getLsbD 31 = true → 6 ≤ bits v.toNat 4 0 → bits v.toNat 4 0 ≤ 16 → s.dev.ringEn r.val = false →
      s.dev.lrd.reads = [] → Answers (.ringEnable r v) s fun t =>
        t.dev.ringEn r.val = true ∧ t.dev.ringSize r.val = 2 ^ bits v.toNat 4 0 ∧
        t.dev.ring r.val = { s.dev.ring r.val with prod := 0, cons := 0, phase := true } ∧
        (∀ q, q ≠ r.val → t.dev.ring q = s.dev.ring q) ∧ ChangesOnly [.values, .reports] s t ∧
        (s.dev.host.out = [] →
          (s.dev.shadowBase ≠ 0 → ∀ j < 4, t.readByte (s.dev.shadowBase + 4 * r.val + j) = 0) ∧
          ∀ a, s.dev.shadowBase = 0 ∨ a < s.dev.shadowBase + 4 * r.val ∨ s.dev.shadowBase + 4 * r.val + 4 ≤ a →
            t.readByte a = s.readByte a)) ∧
    (v.getLsbD 31 = false → 6 ≤ bits v.toNat 4 0 → bits v.toNat 4 0 ≤ 16 →
      (s.dev.ringEn r.val = true → s.dev.ringSize r.val = 2 ^ bits v.toNat 4 0) → Answers (.ringDisable r v) s fun t =>
        t.dev.ringEn r.val = false ∧ t.dev.host.rings = s.dev.host.rings ∧ ChangesOnly [.values] s t ∧ Quiet s t)) ∧
  (∀ (off : BitVec 17) (be : BitVec 4) (v : W32) (s : State),
    (be.toNat ≠ 15 ∨ off.toNat % 0x1000 ≠ 0 →
      exec (.doorbellWrite off be v) s = .next (s.after (s.fresh.accessErr 2 off.toNat))) ∧
    (∀ r < 32, off.toNat = 0x1000 * r → be.toNat = 15 →
      ((s.dev.ringEn r = false ∨ s.dev.ringSize r ≤ v.toNat ∨ s.dev.backwards r v.toNat = true) →
        Answers (.doorbellWrite off be v) s fun t =>
          t.dev.host.dbDiscCnt = satInc s.dev.host.dbDiscCnt ∧ (t.dev.ring r).cons = (s.dev.ring r).cons ∧
          (t.dev.ring r).doorbell = v ∧
          (r ≠ s.dev.eventRing 2 → t.dev.ring r = { s.dev.ring r with doorbell := v }) ∧
          (∀ q, q ≠ r → q ≠ s.dev.eventRing 2 → t.dev.ring q = s.dev.ring q) ∧
          (∀ q, (t.dev.ring q).cons = (s.dev.ring q).cons) ∧ t.dev.stands Reg.HOST_EVENT 1 ∧ ChangesOnly [.events, .reports, .host] s t) ∧
      (s.dev.ringEn r = true → v.toNat < s.dev.ringSize r → s.dev.backwards r v.toNat = false →
        (hostFills r = true → Answers (.doorbellWrite off be v) s fun t =>
          t.dev.ring r = { s.dev.ring r with prod := v.toNat, doorbell := v } ∧
          (∀ q, q ≠ r → t.dev.ring q = s.dev.ring q) ∧ ChangesOnly [.reports] s t ∧ Quiet s t) ∧
        (hostFills r = false → s.dev.lrd.reads = [] → Answers (.doorbellWrite off be v) s fun t =>
          t.dev.ring r = { s.dev.ring r with cons := v.toNat, doorbell := v } ∧
          (∀ q, q ≠ r → t.dev.ring q = s.dev.ring q) ∧ ChangesOnly [.reports] s t ∧ Quiet s t)))) ∧
  (∀ (r : Fin 4) (desc : BitVec 256) (s : State),
    (s.dev.fetchable r.val = false → exec (.commandFetch r desc) s = .next (s.after s.fresh)) ∧
    (∀ q < r.val, s.dev.fetchable q = true → exec (.commandFetch r desc) s = .next (s.after s.fresh)) ∧
    (s.dev.fetchable r.val = true → (∀ q < r.val, s.dev.fetchable q = false) →
      (knownOpcode (bits desc.toNat 15 0) = true → Answers (.commandFetch r desc) s fun t =>
        (t.dev.ring r.val).cons = ((s.dev.ring r.val).cons + 1) % s.dev.ringSize r.val ∧
        t.dev.host.inflight = s.dev.host.inflight ++ [InFlight.mk r.val (s.dev.ring r.val).cons
          (bits desc.toNat 47 32) (bits desc.toNat 15 0) (bitAt desc.toNat 16) false false
          (desc &&& ~~~(BitVec.ofNat 256 (0xFF * 2 ^ 24)))] ∧
        t.dev.host.wdStart = s.dev.now ∧ t.dev.host.wdExpired = false ∧
        ChangesOnly [.prof, .reports, .commands, .host] s t) ∧
      (knownOpcode (bits desc.toNat 15 0) = false → bitAt desc.toNat 16 = true →
        (∀ f ∈ s.dev.host.inflight, knownOpcode f.opcode = true) → (∃ f ∈ s.dev.host.inflight, f.ring = r.val) →
        Answers (.commandFetch r desc) s fun t =>
          (t.dev.ring r.val).cons = ((s.dev.ring r.val).cons + 1) % s.dev.ringSize r.val ∧
          t.dev.host.inflight = s.dev.host.inflight ++ [InFlight.mk r.val (s.dev.ring r.val).cons
            (bits desc.toNat 47 32) (bits desc.toNat 15 0) true false false
            (desc &&& ~~~(BitVec.ofNat 256 (0xFF * 2 ^ 24)))] ∧ t.dev.host.cmdCnt = s.dev.host.cmdCnt ∧
          ChangesOnly [.prof, .reports, .commands, .host] s t) ∧
      (knownOpcode (bits desc.toNat 15 0) = false → s.dev.host.inflight = [] → Answers (.commandFetch r desc) s fun t =>
        t.dev.host.inflight = [] ∧ (t.dev.ring r.val).cons = ((s.dev.ring r.val).cons + 1) % s.dev.ringSize r.val ∧
        t.dev.host.cmdErrCnt = satInc s.dev.host.cmdErrCnt ∧ t.dev.host.cmdCnt = satInc s.dev.host.cmdCnt ∧
        ChangesOnly [.prof, .events, .reports, .commands, .host] s t))) ∧
  (∀ (r : Fin 4) (s : State),
    (s.dev.ringQuarter (16 + r.val) = false → exec (.eventRingDrain r) s = .next (s.after s.fresh)) ∧
    (∀ (key : Nat) (k : Coal), s.dev.ringQuarter (16 + r.val) = true →
      (s.dev.host.coal.cells.filter fun c => decide (s.dev.eventRing (c.1 / 32) = 16 + r.val)) = [(key, k)] →
      exec (.eventRingDrain r) s = .next (s.after
        ((s.fresh.onHost fun h => { h with coal := h.coal.set Coal.reset key Coal.reset }).putDesc (16 + r.val)
          (12 + r.val) (eventDesc (key / 32) (key % 32) k true)))) ∧
    ((s.dev.host.coal.cells.filter fun c => decide (s.dev.eventRing (c.1 / 32) = 16 + r.val)) = [] →
      exec (.eventRingDrain r) s = .next (s.after s.fresh))) ∧
  (∀ s : State, (s.dev.flag Reg.HOST_WD 31 = false ∨ s.dev.host.wdExpired = true ∨
      s.dev.now < s.dev.host.wdStart + s.dev.fld Reg.HOST_WD 15 0 * msTicks) →
    exec .hostWdExpire s = .next (s.after s.fresh)) ∧
  (∀ s : State, s.dev.flag Reg.HOST_WD 31 = true → s.dev.host.wdExpired = false →
    s.dev.host.wdStart + s.dev.fld Reg.HOST_WD 15 0 * msTicks ≤ s.dev.now → Answers .hostWdExpire s fun t =>
      t.dev.host.wdExpired = true ∧ t.dev.stands Reg.HOST_IRQ_STAT_H 0x400000 ∧
      (s.dev.twn.st ≠ .standby → t.dev.stands Reg.HOST_EVENT 4) ∧
      (s.dev.twn.st ≠ .standby → s.dev.fld Reg.HOST_WD 29 28 = 1 → ∀ c < 2, s.dev.deviceDrives c = false →
        (t.dev.prf c).held = true) ∧
      (s.dev.twn.st ≠ .standby → s.dev.fld Reg.HOST_WD 29 28 = 2 → s.dev.gfm.mode = .forming → s.dev.controls = true →
        t.dev.gfm.auto = some (ModeReq.mk .stopping (s.dev.flag Reg.HOST_WD 30) false 12 s.dev.now)) ∧
      ChangesOnly [.prof, .gfm, .events, .reports, .host] s t)

/-- R417–R425, R440, R537: what a completion and an event change. An event whose ring is disabled is coalesced as on a full one
(log 27, DESIGN CHOICE). -/
def Obligations.CompletionsAndEventsAreReported : Prop :=
  (∀ (ring slot tag op st bytes : Nat) (res : List Nat) (d : Dev), ring < 4 →
    (d.completeAs ring slot tag op st bytes res).host.cmdCnt = satInc d.host.cmdCnt ∧
    (d.completeAs ring slot tag op st bytes res).host.cmdErrCnt =
      (if st = 1 ∨ st = 2 ∨ st = 5 ∨ st = 7 then satInc d.host.cmdErrCnt else d.host.cmdErrCnt) ∧
    (d.completeAs ring slot tag op st bytes res).host.inflight = d.host.inflight.eraseP (inFlightOf ring slot tag) ∧
    Dev.Keeps [.events, .reports, .commands] d (d.completeAs ring slot tag op st bytes res) ∧
    ((∀ f ∈ d.host.inflight, inFlightOf ring slot tag f = true → f.lost = false ∧ f.dropped = false) →
      d.ringRoom (4 + ring) ≠ 0 →
      (d.completeAs ring slot tag op st bytes res).stands Reg.HOST_IRQ_STAT_L (BitVec.ofNat 32 (2 ^ ring)) ∧
      (d.completeAs ring slot tag op st bytes res).ring (4 + ring) = Sys2Proof.Ring.mk
        (((d.ring (4 + ring)).prod + 1) % d.ringSize (4 + ring)) (d.ring (4 + ring)).cons
        (if ((d.ring (4 + ring)).prod + 1) % d.ringSize (4 + ring) = 0 then !(d.ring (4 + ring)).phase
          else (d.ring (4 + ring)).phase) (d.ring (4 + ring)).doorbell ∧
      ∃ later, (d.completeAs ring slot tag op st bytes res).host.out = d.host.out ++
        (d.ringBase (4 + ring) + 32 * (d.ring (4 + ring)).prod + 4,
          slice (completionDesc st tag op slot bytes d.ang.cur.sn res) 4 28) ::
        (d.ringBase (4 + ring) + 32 * (d.ring (4 + ring)).prod,
          leBytes 2 0x0101 ++ leBytes 1 st ++ [if (d.ring (4 + ring)).phase then 0x80 else 0]) :: later) ∧
    ((d.host.inflight.find? (inFlightOf ring slot tag)).any (·.dropped) = true →
      (d.completeAs ring slot tag op st bytes res).host.cplLostCnt = d.host.cplLostCnt ∧
      (d.completeAs ring slot tag op st bytes res).host.rings = d.host.rings) ∧
    ((d.host.inflight.find? (inFlightOf ring slot tag)).any (·.dropped) = false →
      (d.host.inflight.find? (inFlightOf ring slot tag)).any (·.lost) = true ∨ d.ringRoom (4 + ring) = 0 →
      (d.completeAs ring slot tag op st bytes res).host.cplLostCnt = satInc d.host.cplLostCnt ∧
      (d.completeAs ring slot tag op st bytes res).stands Reg.HOST_EVENT 16 ∧
      (d.completeAs ring slot tag op st bytes res).ring (4 + ring) = d.ring (4 + ring))) ∧
  (∀ (blk bit d0 d1 d2 : Nat) (d : Dev), bit < 32 →
    (d.event blk bit d0 d1 d2).stands (eventReg blk d0) (BitVec.ofNat 32 (2 ^ bit)) ∧
    Dev.Keeps [.events, .reports] d (d.event blk bit d0 d1 d2) ∧
    (d.ringRoom (d.eventRing blk) ≠ 0 → d.coalPending (d.eventRing blk) = false →
      ((d.event blk bit d0 d1 d2).ring (d.eventRing blk)).prod =
        ((d.ring (d.eventRing blk)).prod + 1) % d.ringSize (d.eventRing blk) ∧
      ∃ later, (d.event blk bit d0 d1 d2).host.out = d.host.out ++
        (d.ringBase (d.eventRing blk) + 32 * (d.ring (d.eventRing blk)).prod + 4,
          slice (eventDesc blk bit (Coal.mk 1 d.ang.cur.sn d.secOfs d0 d1 d2) false) 4 28) ::
        (d.ringBase (d.eventRing blk) + 32 * (d.ring (d.eventRing blk)).prod,
          leBytes 2 0x0401 ++ [0, if (d.ring (d.eventRing blk)).phase then 0x80 else 0]) :: later) ∧
    (d.ringRoom (d.eventRing blk) = 0 ∨ d.coalPending (d.eventRing blk) = true →
      (d.event blk bit d0 d1 d2).host.coal.get Coal.reset (32 * blk + bit) = Coal.mk
        ((d.host.coal.get Coal.reset (32 * blk + bit)).count + 1) d.ang.cur.sn d.secOfs d0 d1 d2 ∧
      (d.event blk bit d0 d1 d2).host.out = d.host.out ∧
      (d.event blk bit d0 d1 d2).host.coalCnt =
        if (d.host.coal.get Coal.reset (32 * blk + bit)).count = 0 then d.host.coalCnt else satInc d.host.coalCnt))

/-- R432: NOP. -/
def Obligations.NopCompletes : Prop :=
  ∀ (c : Cmd) (s : State), c.wf = true → s.dev.waits c 0x01 = false → c.flags &&& 0xFE = 0 → c.resv = 0 →
    c.len.toNat ≤ 2 ^ 24 → c.inl = 0 → exec (.nop c) s = .next (s.after (s.fresh.complete c 0x01 stOk))

/-- R441: a skipped telemetry descriptor. -/
def Obligations.SkippedTelemetryIsReported : Prop :=
  ∀ (k : Nat) (sn : W32) (d : Dev),
    (d.ringRoom (24 + (d.tel k).ring) = 0 →
      (d.telSnapshot k sn).host.telSkipCnt = satInc d.host.telSkipCnt ∧
      ((d.telSnapshot k sn).tel k).skip = (d.tel k).skip + 1) ∧
    (d.ringRoom (24 + (d.tel k).ring) ≠ 0 → ∃ (e : Dev) (desc : List Byte),
      d.telSnapshot k sn = e.putDesc (24 + (d.tel k).ring) (20 + (d.tel k).ring) desc ∧
      slice desc 28 4 = leBytes 4 (d.tel k).skip ∧ ((d.telSnapshot k sn).tel k).skip = 0)

/-- R139: CONFIG_COMMIT with DRY_RUN. -/
def Obligations.DryRunAppliesNothing : Prop :=
  ∀ (c : Cmd) (s : State), s.dev.admits 0x12 (inlMask [(20, 1)]) c → bitAt (c.byte 20) 0 = true →
    s.dev.stagingBusy = false → ∃ d : Dev,
      exec (.configCommit c) s = .next (s.after (d.completeRes c 0x12 (if s.dev.admission.1 = 0 then stOk else stAdmission) 0
        (d.loopAdmResult :: [leAt s.dev.stagedDigest 0 4, leAt s.dev.stagedDigest 4 4]))) ∧
      d.loop.admCheck = s.dev.admission.1 ∧ d.loop.admItem = s.dev.admission.2 ∧
      d.loop.admCost = loopCost s.dev.stagedReg ∧ Dev.Keeps [.loop] s.dev d ∧
      d.loop = { s.dev.loop with admCheck := d.loop.admCheck, admItem := d.loop.admItem, admCost := d.loop.admCost }

/-- R132–R139, R433–R436: the commands of the staged set, and of telemetry. -/
def Obligations.ConfigurationCommandsComplete : Prop :=
  (∀ (c : Cmd) (s : State), s.dev.admits 0x11 0 c →
    (c.len.toNat = 0 ∨ c.len.toNat % 8 ≠ 0 ∨ 32768 < c.len.toNat →
      exec (.configStage c) s = .next (s.after (s.fresh.complete c 0x11 stBadParam))) ∧
    (c.len.toNat ≠ 0 → c.len.toNat % 8 = 0 → c.len.toNat ≤ 32768 →
      (s.dev.stagingBusy = true → exec (.configStage c) s = .next (s.after (s.fresh.complete c 0x11 stBusy))) ∧
      (s.dev.stagingBusy = false → c.bufErr = true →
        exec (.configStage c) s = .next (s.after (s.fresh.aerError.complete c 0x11 stBadParam))) ∧
      (s.dev.stagingBusy = false → c.bufErr = false →
        (stageOk (stageEntries (c.len.toNat / 8) c.data) = false →
          exec (.configStage c) s = .next (s.after (s.fresh.completeRes c 0x11 stBadParam c.len.toNat []))) ∧
        (stageOk (stageEntries (c.len.toNat / 8) c.data) = true → exec (.configStage c) s = .next (s.after
          ((s.fresh.stageAll (stageEntries (c.len.toNat / 8) c.data)).completeRes c 0x11 stOk c.len.toNat [])))))) ∧
  (∀ (off v : Nat) (r : RegRow) (d : Dev), regRow off = some r → r.staged = true →
    (d.stageAll [(off, v)]).stagedReg off = (BitVec.ofNat 32 v &&& BitVec.ofNat 32 r.rw).toNat ∧
    (∀ o, o ≠ off → (d.stageAll [(off, v)]).stagedReg o = d.stagedReg o) ∧
    (d.stageAll [(off, v)]).regs.active = d.regs.active ∧ (d.stageAll [(off, v)]).regs.inForce = d.regs.inForce ∧
    Dev.Keeps [.values] d (d.stageAll [(off, v)])) ∧
  (∀ (c : Cmd) (s : State), s.dev.admits 0x10 (2 ^ 96 - 1) c →
    (s.dev.tableShape (c.word 20) (c.word 24) c.len.toNat = false ∨ c.word 28 ≠ 0 →
      exec (.tableLoad c) s = .next (s.after (s.fresh.complete c 0x10 stBadParam))) ∧
    (s.dev.tableShape (c.word 20) (c.word 24) c.len.toNat = true → c.word 28 = 0 →
      (s.dev.stagingBusy = true → exec (.tableLoad c) s = .next (s.after (s.fresh.complete c 0x10 stBusy))) ∧
      (s.dev.stagingBusy = false → c.bufErr = false →
        (bits (c.word 20) 7 0 = 1 → exec (.tableLoad c) s = .next (s.after ((s.fresh.onLoop fun l => { l with
          bankStaged := l.bankStaged.set [] (16 * bits (c.word 20) 15 8 + bits (c.word 20) 23 16)
            (coefs (c.data.length / 20) c.data) }).completeRes c 0x10 stOk c.len.toNat []))) ∧
        (bits (c.word 20) 7 0 = 2 → exec (.tableLoad c) s = .next (s.after ((s.fresh.onLoop fun l =>
          { l with tabStaged := l.tabStaged.set [] (bits (c.word 20) 15 8) (halves 1024 c.data) }).completeRes c 0x10
              stOk c.len.toNat [])))))) ∧
  (∀ (c : Cmd) (s : State), s.dev.admits 0x12 (inlMask [(20, 1)]) c →
    (s.dev.stagingBusy = true → exec (.configCommit c) s = .next (s.after (s.fresh.complete c 0x12 stBusy))) ∧
    (s.dev.stagingBusy = false → bitAt (c.byte 20) 0 = false →
      (s.dev.admission.1 ≠ 0 → ∃ (d : Dev) (res : List Nat),
        exec (.configCommit c) s = .next (s.after (d.completeRes c 0x12 stAdmission 0 res)) ∧ d.regs = s.dev.regs ∧
        Dev.Keeps [.loop] s.dev d) ∧
      (s.dev.admission.1 = 0 → s.dev.blockRefuses = true → ∃ (d : Dev) (res : List Nat),
        exec (.configCommit c) s = .next (s.after (d.completeRes c 0x12 stRejected 0 res)) ∧ d.regs = s.dev.regs ∧
        Dev.Keeps [.loop] s.dev d) ∧
      (s.dev.admission.1 = 0 → s.dev.blockRefuses = false → ∃ (d : Dev) (res : List Nat),
        exec (.configCommit c) s = .next (s.after (d.completeRes c 0x12 stOk 0 res)) ∧
        d.regs.active = s.dev.regs.staged ∧ d.regs.staged = s.dev.regs.staged ∧ d.regs.loaded = s.dev.regs.loadedStaged ∧
        d.loop.bankActive = s.dev.loop.bankStaged ∧ d.loop.tabActive = s.dev.loop.tabStaged ∧
        d.sec.digest = s.dev.stagedDigest ∧ Domain.sample ∈ d.regs.due ∧ d.regs.commitTick = s.dev.now ∧
        res = d.loopAdmResult :: [leAt s.dev.stagedDigest 0 4, leAt s.dev.stagedDigest 4 4]))) ∧
  (∀ (c : Cmd) (s : State), s.dev.admits 0x13 (inlMask [(20, 0xFF), (24, 0xFFFFFFFF)]) c →
    (1 < c.byte 20 ∨ c.word 24 % 4 ≠ 0 ∨ 0x100000 ≤ c.word 24 ∨ c.len.toNat % 4 ≠ 0 ∨
      65536 < c.len.toNat ∨ (c.len.toNat ≠ 0 ∧ c.word 24 / 0x10000 ≠ (c.word 24 + c.len.toNat - 4) / 0x10000) →
      exec (.configReadback c) s = .next (s.after (s.fresh.complete c 0x13 stBadParam))) ∧
    (∀ n, c.byte 20 ≤ 1 → c.word 24 % 4 = 0 → c.len.toNat = 4 * n → 4 * n ≤ 65536 → c.word 24 < 0x100000 →
      (n ≠ 0 → c.word 24 / 0x10000 = (c.word 24 + 4 * (n - 1)) / 0x10000) → exec (.configReadback c) s = .next
      (s.after ((s.fresh.post c.addr.toNat ((upto n).flatMap fun i => leBytes 4 (if c.byte 20 = 1
        then s.fresh.regActive (c.word 24 + 4 * i) else s.fresh.regRead (c.word 24 + 4 * i)))).completeRes c 0x13 stOk
          (4 * n) [])))) ∧
  (∀ (c : Cmd) (s : State), s.dev.admits 0x90 (inlMask [(20, 0xFF), (21, 0xFF), (22, 1)]) c →
    (15 < c.byte 20 ∨ 3 < c.byte 21 → exec (.telemetrySubscribe c) s =
      .next (s.after (s.fresh.complete c 0x90 stBadParam))) ∧
    (c.byte 20 ≤ 15 → c.byte 21 ≤ 3 →
      (bitAt (c.byte 22) 0 = false → c.len = 0 → Completes (.telemetrySubscribe c) c 0x90 stOk s fun d =>
        d.host.tel = s.dev.host.tel ∧ (c.byte 20, s.dev.ang.cur.sn + 1, Telemetry.reset) ∈ d.host.telDue ∧
        ∀ x ∈ d.host.telDue, x.1 ≠ c.byte 20 → x ∈ s.dev.host.telDue) ∧
      (∀ x, bitAt (c.byte 22) 0 = true → 18 ≤ c.len.toNat → c.len.toNat ≤ 144 → c.bufErr = false →
        telemetryOf (c.byte 21) c.data = some x → ∃ d : Dev,
          exec (.telemetrySubscribe c) s = .next (s.after (d.completeRes c 0x90 stOk c.len.toNat [])) ∧
          d.host.tel = s.dev.host.tel ∧ (c.byte 20, s.dev.ang.cur.sn + 1, x) ∈ d.host.telDue ∧
          ∀ y ∈ d.host.telDue, y.1 ≠ c.byte 20 → y ∈ s.dev.host.telDue)))

/-- R9: the 18 snapshot registers. -/
def Obligations.SnapshotsCapture : Prop :=
  ∀ (v : W32) (s : State),
    (v.getLsbD 0 = false → ∀ i ∈ [Instr.angSnap v, .gfmSnap v, .profSnap v, .loopSnap v, .supSnap v, .modSnap v,
        .pwmSnap v, .penSnap v, .pntSnap v, .adcSnap v, .acqSnap v, .clkSnap v, .twnSnap v, .hostSnap v, .hkSnap v,
        .auxSnap v, .lrdSnap v, .sysSnap v], exec i s = .next (s.after s.fresh)) ∧
    (v.getLsbD 0 = true →
      (∀ i ∈ [Instr.angSnap v, .gfmSnap v, .profSnap v, .loopSnap v, .supSnap v, .modSnap v, .pwmSnap v, .penSnap v,
          .pntSnap v, .adcSnap v, .acqSnap v, .clkSnap v, .twnSnap v, .hostSnap v, .hkSnap v, .auxSnap v, .lrdSnap v,
          .sysSnap v], Answers i s fun t => ChangesOnly [.snaps] s t ∧ Quiet s t) ∧
      (∀ x ∈ [(Instr.angSnap v, Reg.ANG_SN_SNAP, s.dev.ang.cur.sn.toNat),
          (Instr.angSnap v, Reg.ANG_REV_SNAP, s.dev.ang.rev.toNat),
          (Instr.angSnap v, Reg.ANG_THETA_SNAP, s.dev.ang.acc.toNat / 2 ^ 32),
          (Instr.angSnap v, Reg.ANG_MCN_SNAP, s.dev.ang.mcn.toNat),
          (Instr.angSnap v, Reg.ANG_TICK_L_SNAP, s.dev.tickCount % 2 ^ 32),
          (Instr.angSnap v, Reg.ANG_CLAMP_CNT_SNAP, s.dev.ang.clampCnt),
          (Instr.gfmSnap v, Reg.GFM_PE_SNAP, unsigned 32 s.dev.gfm.shown.pe),
          (Instr.gfmSnap v, Reg.GFM_QE_SNAP, unsigned 32 s.dev.gfm.shown.qe),
          (Instr.gfmSnap v, Reg.GFM_E_SNAP, unsigned 32 s.dev.gfm.e),
          (Instr.gfmSnap v, Reg.GFM_EPS_SNAP, unsigned 32 s.dev.gfm.shown.eps),
          (Instr.loopSnap v, Reg.LOOP_MISS_CNT_SNAP, s.dev.loop.done.misses),
          (Instr.loopSnap v, Reg.LOOP_SAT_SNAP_L, s.dev.loop.done.satMask % 2 ^ 32),
          (Instr.supSnap v, Reg.SUP_TRIP_CNT_SNAP, s.dev.sup.done.getD 0 0),
          (Instr.supSnap v, Reg.SUP_FRT_CNT_SNAP, s.dev.sup.done.getD 1 0),
          (Instr.modSnap v, Reg.MOD_LATE_CNT_SNAP, s.dev.mod.shown.lateCnt),
          (Instr.modSnap v, Reg.MOD_SWAP_CNT_SNAP, s.dev.mod.shown.swapCnt),
          (Instr.pwmSnap v, Reg.PWM_TRIP_SNAP, s.dev.pwm.shown.trip),
          (Instr.pwmSnap v, Reg.PWM_BEYOND_CNT_SNAP, s.dev.pwm.shown.beyond),
          (Instr.penSnap v, Reg.PEN_TX_CNT_SNAP, s.dev.pen.txCnt),
          (Instr.penSnap v, Reg.PEN_URGENT_CNT_SNAP, s.dev.pen.urgentCnt),
          (Instr.pntSnap v, Reg.PNT_ARRIVE_CNT_SNAP, s.dev.pnt.arriveCnt),
          (Instr.pntSnap v, Reg.PNT_DIRTY_SNAP, s.dev.pnt.dirty.cells.length),
          (Instr.adcSnap v, Reg.ADC_CLIP_CNT_SNAP, s.dev.adc.clipCnt),
          (Instr.adcSnap v, Reg.ADC_FAIL_CNT_SNAP, s.dev.adc.failCnt),
          (Instr.clkSnap v, Reg.CLK_TOD_L_SNAP, s.dev.clk.secs % 2 ^ 32),
          (Instr.clkSnap v, Reg.CLK_SEC_TICK_SNAP, s.dev.secOfs),
          (Instr.clkSnap v, Reg.CLK_LOCK_CNT_SNAP, s.dev.clk.lockCnt),
          (Instr.twnSnap v, Reg.TWN_CONSIST_SNAP, s.dev.twn.consistCnt),
          (Instr.twnSnap v, Reg.TWN_PKT_ERR_CNT_SNAP, s.dev.twn.pktErrCnt),
          (Instr.twnSnap v, Reg.TWN_LAST_L_SNAP, s.dev.twn.lastL.toNat),
          (Instr.hostSnap v, Reg.HOST_CMD_CNT_SNAP, s.dev.host.cmdCnt),
          (Instr.hostSnap v, Reg.HOST_ACC_ERR_CNT_SNAP, s.dev.host.accErrCnt),
          (Instr.hostSnap v, Reg.HOST_SVC_IGN_CNT_SNAP, s.dev.host.svcIgnCnt),
          (Instr.hkSnap v, Reg.HK_DT_SNAP, s.dev.hk.dT), (Instr.hkSnap v, Reg.HK_SHUT_CNT_SNAP, s.dev.hk.shutCnt),
          (Instr.auxSnap v, Reg.AUX_OC_SNAP, s.dev.aux.oc),
          (Instr.auxSnap v, Reg.AUX_REFRESH_CNT_SNAP, s.dev.aux.refreshCnt),
          (Instr.lrdSnap v, Reg.LRD_TAIL_SNAP, s.dev.oldestSeq), (Instr.lrdSnap v, Reg.LRD_BAD_CNT_SNAP, s.dev.lrd.badCnt),
          (Instr.sysSnap v, Reg.SYS_CE_CNT_SNAP, s.dev.sys.ceCnt),
          (Instr.sysSnap v, Reg.SYS_UE_CNT_SNAP, s.dev.sys.ueCnt),
          (Instr.sysSnap v, Reg.SYS_ECC_LAST_SNAP, s.dev.sys.eccLast)],
        Answers x.1 s fun t => t.dev.regs.snaps.get (regReset x.2.1) x.2.1 = BitVec.ofNat 32 x.2.2) ∧
      (∀ c < 16, Answers (.profSnap v) s fun t => t.dev.regs.snaps.get (regReset (Reg.PROF_POS_SNAP c))
        (Reg.PROF_POS_SNAP c) = BitVec.ofNat 32 ((s.dev.prf c).pos.toNat / 2 ^ 16)) ∧
      (∀ k < 8, Answers (.acqSnap v) s fun t => t.dev.regs.snaps.get (regReset (Reg.ACQ_REC_CNT_SNAP k))
        (Reg.ACQ_REC_CNT_SNAP k) = BitVec.ofNat 32 (s.dev.aset k).recCnt))

/-- R35, R450–R454, R521–R524: resets and boot. Records due in the tick are numbered and written first (log 55, DEDUCED); the
set without a valid log entry is log 126 (DESIGN CHOICE). -/
def Obligations.BootRowsTakeEffect : Prop :=
  (∀ (st : BitVec 4) (s : State), Answers (.powerOnReset st) s fun t =>
    t.dev.regs = RegsState.reset ∧ t.dev.ang = AngState.reset ∧ t.dev.gfm = GfmState.reset ∧ t.dev.host = HostState.reset ∧
    t.dev.sec.phase = 2 ∧ t.dev.sys.straps = st.toNat ∧ t.dev.sys.strapPins = st.toNat ∧ t.dev.twn.primary = st.getLsbD 2 ∧
    t.dev.sec.src = st.toNat % 4 ∧ t.dev.fen.st = .init ∧ t.dev.fen.passcode = s.dev.fen.passcode ∧
    t.dev.fen.inCfg = s.dev.fen.inCfg ∧ t.dev.fen.pairCfg = s.dev.fen.pairCfg ∧ t.dev.fen.log = s.dev.fen.log ∧
    t.dev.fen.sets = s.dev.fen.sets ∧
    t.dev.fen.lockEnd = (if s.dev.fenLocked then some 12000000 else none) ∧
    t.dev.lrd.lines = s.dev.flushRecords.lrd.lines ∧ (s.dev.lrd.due = [] → t.dev.lrd.lines = s.dev.lrd.lines) ∧
    t.dev.lrd.user = s.dev.lrd.user ∧ t.dev.sec.slots = s.dev.sec.slots ∧
    ((∀ r ∈ s.dev.sec.advance, r.since + 5 * msTicks ≤ s.dev.now) → t.dev.sec.keys = s.dev.sec.keys ∧
      t.dev.sec.arb = s.dev.sec.arb ∧ t.dev.sec.revoked = s.dev.sec.revoked ∧ t.dev.free = s.dev.free) ∧
    (∀ r, s.dev.sec.advance = some r → s.dev.now < r.since + 5 * msTicks → t.dev.free = s.dev.free + 1 ∧
      (r.arb ≤ s.dev.sec.arb → r.arb ≤ t.dev.sec.arb ∧ t.dev.sec.arb ≤ s.dev.sec.arb) ∧
      ∀ k < 4, t.dev.sec.keys.get 0 k = s.dev.sec.keys.get 0 k ∨ t.dev.sec.keys.get 0 k = r.keys.get 0 k) ∧
    t.pending = s.pending ∧ t.mem = s.mem) ∧
  (∀ (a b : Bool) (s : State), (2 < s.dev.sec.phase ∧ s.dev.fen.st ≠ .init) ∨ s.dev.fen.held = true →
    exec (.fenceInit a b) s = .next (s.after s.fresh)) ∧
  (∀ (a b : Bool) (s : State), s.dev.sec.phase ≤ 2 → s.dev.fen.held = false → Answers (.fenceInit a b) s fun t =>
    (s.dev.fen.st = .init →
      t.dev.fen.st = (if a && b then .run else .fault) ∧
      t.dev.fen.code = (if a then (if b then s.dev.fen.code else 5) else 4) ∧
      t.dev.fen.passcode = s.dev.lastSet.passcode ∧ t.dev.fen.inCfg = s.dev.lastSet.inCfg ∧
      t.dev.fen.pairCfg = s.dev.lastSet.pairCfg) ∧
    (s.dev.fen.st = .fault → s.dev.sys.resetCause ≠ 1 → t.dev.fen.st = .fault ∧ t.dev.fen.code = s.dev.fen.code) ∧
    (s.dev.fen.st = .run ∨ (s.dev.fen.st = .fault ∧ s.dev.sys.resetCause = 1) → t.dev.fen = s.dev.fen) ∧
    (bitAt s.dev.sys.strapPins 3 = false → t.dev.sec.phase = 3 ∧ t.dev.clk.state = .search ∧ t.dev.clk.fallback = true) ∧
    (bitAt s.dev.sys.strapPins 3 = true → t.dev.sec = { s.dev.sec with phase := 2 }) ∧ t.pending = s.pending) ∧
  (∀ (v : W32) (s : State),
    (v.extractLsb' 16 16 ≠ 0xA5C3 ∨ v.getLsbD 0 = false ∨ s.dev.resetAllowed = false →
      exec (.sysReset v) s = .next (s.after (s.fresh.accessErr 0 Reg.SYS_RESET))) ∧
    (v.extractLsb' 16 16 = 0xA5C3 → v.getLsbD 0 = true → s.dev.resetAllowed = true → Answers (.sysReset v) s fun t =>
      t.dev.fen = s.dev.fen ∧ t.dev.sys.resetCause = 1 ∧ t.dev.regs.inForce = .empty ∧
      t.dev.regs.staged = .empty ∧ t.dev.ang = AngState.reset ∧ t.dev.gfm = GfmState.reset ∧
      (bitAt s.dev.sys.strapPins 3 = false → t.dev.sec.phase = 3 ∧ t.dev.clk.state = .search) ∧
      (bitAt s.dev.sys.strapPins 3 = true → t.dev.sec.phase = 2) ∧ t.dev.sys.strapPins = s.dev.sys.strapPins ∧
      t.dev.sec.src = s.dev.sys.strapPins % 4 ∧ t.dev.sec.slots = s.dev.sec.slots ∧
      t.dev.host.linkUp = s.dev.host.linkUp ∧ t.dev.host.pcie = s.dev.host.pcie ∧
      (s.dev.lrd.due = [] → t.dev.lrd.lines = s.dev.lrd.lines) ∧ t.dev.sec.keys = s.dev.sec.keys ∧
      t.dev.twn.primary = s.dev.twn.primary ∧ t.pending = s.pending ∧ Quiet s t)) ∧
  (∀ (a b : List Byte) (s : State), s.dev.sec.phase ≠ 4 ∨ s.dev.sec.xfer.isSome = true ∨ s.dev.sec.slot = 3 ∨
      s.dev.sec.src = 1 → exec (.imageLoad a b) s = .next (s.after s.fresh)) ∧
  (∀ (a b x y : List Byte) (s : State), s.dev.sec.phase = 4 → s.dev.sec.xfer = none → s.dev.sec.slot ≠ 3 →
    x = (s.dev.sec.slots.get none 0).getD a → y = (s.dev.sec.slots.get none 1).getD b →
    (s.dev.sec.src = 3 → Answers (.imageLoad a b) s fun t => t.dev.sec = { s.dev.sec with slot := 3 } ∧
      ChangesOnly [.sec] s t ∧ Quiet s t) ∧
    (s.dev.sec.src = 0 → s.dev.sec.tried ≠ 0 → s.dev.slotOrder x y = [] → Answers (.imageLoad a b) s fun t =>
      t.dev.sec = { s.dev.sec with slot := 3, imgDigest := [] } ∧ ChangesOnly [.sec] s t ∧ Quiet s t) ∧
    (∀ (k : Nat) (bs : List Byte), (s.dev.sec.src = 0 ∨ s.dev.sec.src = 2) → s.dev.sec.tried = 0 →
      s.dev.slotOrder x y = [(k, bs)] → bodyError (flashImage bs) = 0 →
      ((((s.fresh.headerTry x).headerTry y).walkImage (flashImage bs)).2.ok (flashImage bs)) = true →
      Answers (.imageLoad a b) s fun t => t.dev.sec.phase = 5 ∧ t.dev.sec.slot = k ∧ t.dev.sec.staged = true ∧
        t.dev.sec.verified = some (Verified.mk (flashImage bs) true false) ∧
        t.dev.sec.received = (flashImage bs).length ∧ t.dev.stands Reg.SEC_EVENT 1 ∧ t.pending = s.pending)) ∧
  (∀ s : State, s.dev.sec.phase ≠ 5 ∨ s.dev.sec.staged = false ∨ s.dev.sec.verified = none →
    exec .configApply s = .next (s.after s.fresh)) ∧
  (∀ (v : Verified) (s : State), s.dev.sec.phase = 5 → s.dev.sec.staged = true → s.dev.sec.verified = some v →
    v.staged = true →
    (s.dev.admission.1 = 0 → s.dev.blockRefuses = false → Answers .configApply s fun t =>
      t.dev.sec.phase = 5 ∧ t.dev.sec.staged = false ∧ t.dev.sec.imgDigest = imgDigest v.image ∧
      t.dev.sec.verified = some { v with staged := false, kept := true } ∧ t.dev.sec.digest = s.dev.stagedDigest ∧
      t.dev.regs.active = s.dev.regs.staged ∧ t.pending = s.pending) ∧
    (s.dev.admission.1 ≠ 0 → Answers .configApply s fun t =>
      t.dev.sec.phase = 4 ∧ t.dev.sec.err = 9 ∧ t.dev.sec.staged = false ∧ t.dev.regs.staged = s.dev.regs.active ∧
      t.dev.regs.active = s.dev.regs.active ∧ t.dev.stands Reg.SEC_EVENT 2 ∧ t.pending = s.pending)) ∧
  (∀ s : State, (s.dev.sec.phase = 5 ∧ s.dev.sec.staged = false) ∨ (s.dev.sec.phase = 4 ∧ s.dev.sec.slot = 3) →
    Answers .bootReady s fun t => t.dev.sec = { s.dev.sec with phase := 6 } ∧
      (∃ x, t.dev.lrd.due = insertDue x s.dev.lrd.due ∧ recordType x.2 = 7 ∧ x.1 = 0) ∧
      (∀ p < 12, t.dev.pairHeld p = true → (t.dev.pair p).outA = t.dev.safeA p ∧ (t.dev.pair p).outB = t.dev.safeB p) ∧
      ChangesOnly [.sec, .pwm, .lrd, .events, .reports] s t) ∧
  (∀ s : State, s.dev.sec.phase ≠ 4 → s.dev.sec.phase ≠ 5 → exec .bootReady s = .next (s.after s.fresh))

/-- R428, R459–R466: transfers. A BOOT in place of a waiting image is log 48 (DESIGN CHOICE); malformed chunks and the codes of
failed transfers are log 49 (DEDUCED). -/
def Obligations.ImageTransfersRun : Prop :=
  (∀ (c : Cmd) (s : State), s.dev.admits 0x81 (inlMask [(20, 0xFF), (24, 0xFFFFFFFF)]) c →
    (4 < c.byte 20 → exec (.imageBegin c) s = .next (s.after (s.fresh.complete c 0x81 stBadParam))) ∧
    (c.byte 20 < 4 → c.word 24 < 320 ∨ 2 ^ 24 < c.word 24 →
      exec (.imageBegin c) s = .next (s.after (s.fresh.complete c 0x81 stBadParam))) ∧
    (c.byte 20 < 4 → 320 ≤ c.word 24 → c.word 24 ≤ 2 ^ 24 →
      (s.dev.purposeOk (c.byte 20) = false →
        exec (.imageBegin c) s = .next (s.after (s.fresh.complete c 0x81 stRejected))) ∧
      (s.dev.purposeOk (c.byte 20) = true → s.dev.sec.xfer.isSome = true →
        exec (.imageBegin c) s = .next (s.after (s.fresh.complete c 0x81 stBusy))) ∧
      (s.dev.purposeOk (c.byte 20) = true → s.dev.sec.xfer = none → Answers (.imageBegin c) s fun t =>
        t.dev.sec.xfer = some (Transfer.mk (c.byte 20) (c.word 24) [] s.dev.now c.ring.val c.slot.toNat c.tag.toNat 320 0
          false) ∧ t.dev.sec.received = 0 ∧
        (c.byte 20 ≠ 2 → c.byte 20 ≠ 3 → t.dev.sec.slots = s.dev.sec.slots) ∧
        (c.byte 20 = 2 ∨ c.byte 20 = 3 → t.dev.sec.slots = s.dev.sec.slots.set none s.dev.storeSlot (some [])) ∧
        (c.byte 20 = 0 → s.dev.sec.staged = true → t.dev.sec.staged = false ∧ t.dev.sec.phase = min s.dev.sec.phase 4 ∧
          t.dev.regs.staged = s.dev.regs.active) ∧
        (c.byte 20 ≠ 0 ∨ s.dev.sec.staged = false → ChangesOnly [.sec] s t) ∧ t.pending = s.pending ∧ Quiet s t)) ∧
    (c.byte 20 = 4 → s.dev.sec.xfer = none → s.dev.sec.staged = false →
      exec (.imageBegin c) s = .next (s.after (s.fresh.complete c 0x81 stOk)))) ∧
  (∀ (desc : BitVec 256) (bs : List Byte) (s : State), s.dev.sec.xfer = none ∨ s.dev.ringEn 31 = false →
    bs.length = bits desc.toNat 159 128 → exec (.imageChunk desc bs) s = .next (s.after s.fresh)) ∧
  (∀ (desc : BitVec 256) (bs : List Byte) (x : Transfer) (s : State), s.dev.sec.xfer = some x →
    s.dev.ringEn 31 = true → (s.dev.ring 31).prod ≠ (s.dev.ring 31).cons → chunkDescOk desc = true →
    bs.length = bits desc.toNat 159 128 →
    (bits desc.toNat 191 160 = x.bytes.length → x.bytes.length + bs.length ≤ x.total → bitAt desc.toNat 16 = false →
      Answers (.imageChunk desc bs) s fun t =>
        (∃ y, t.dev.sec.xfer = some y ∧ y.bytes = x.bytes ++ bs ∧ y.lastChunk = s.dev.now ∧ y.total = x.total ∧
          y.purpose = x.purpose) ∧
        t.dev.sec.received = x.bytes.length + bs.length ∧
        (t.dev.ring 31).cons = ((s.dev.ring 31).cons + 1) % s.dev.ringSize 31 ∧ t.pending = s.pending) ∧
    (bits desc.toNat 191 160 ≠ x.bytes.length → Answers (.imageChunk desc bs) s fun t =>
      t.dev.sec.xfer = none ∧ t.dev.sec.err = 8 ∧ t.dev.stands Reg.SEC_EVENT 2 ∧
      t.dev.host.cmdCnt = satInc s.dev.host.cmdCnt ∧ t.dev.host.cmdErrCnt = satInc s.dev.host.cmdErrCnt ∧
      t.pending = s.pending)) ∧
  (∀ s : State, s.dev.sec.xfer = none → exec .imageTransferTimeout s = .next (s.after s.fresh)) ∧
  (∀ (x : Transfer) (s : State), s.dev.sec.xfer = some x →
    (s.dev.now < x.lastChunk + secTicks → exec .imageTransferTimeout s = .next (s.after s.fresh)) ∧
    (x.lastChunk + secTicks ≤ s.dev.now → Answers .imageTransferTimeout s fun t =>
      t.dev.sec.xfer = none ∧ t.dev.sec.err = 10 ∧ t.dev.stands Reg.SEC_EVENT 2 ∧
      t.dev.host.cmdCnt = satInc s.dev.host.cmdCnt ∧ t.pending = s.pending ∧
      (x.purpose ≠ 2 → t.dev.regs.staged = s.dev.regs.active))) ∧
  (∀ (c : Cmd) (s : State), s.dev.admits 0x82 (inlMask [(20, 1)]) c →
    (s.dev.sec.verified = none → exec (.imageActivate c) s = .next (s.after (s.fresh.complete c 0x82 stRejected))) ∧
    (∀ v, s.dev.sec.verified = some v → bitAt (c.byte 20) 0 = false →
      (v.staged = false → exec (.imageActivate c) s = .next (s.after (s.fresh.complete c 0x82 stOk))) ∧
      (v.staged = true → s.dev.admission.1 = 0 → s.dev.blockRefuses = false → ∃ (d : Dev) (res : List Nat),
        exec (.imageActivate c) s = .next (s.after (d.completeRes c 0x82 stOk 0 res)) ∧
        d.regs.active = s.dev.regs.staged ∧ d.sec.staged = false ∧ d.sec.imgDigest = imgDigest v.image ∧
        d.sec.verified = some { v with staged := false, kept := true }) ∧
      (v.staged = true → s.dev.admission.1 ≠ 0 → ∃ (d : Dev) (res : List Nat),
        exec (.imageActivate c) s = .next (s.after (d.completeRes c 0x82 stAdmission 0 res)) ∧
        d.sec = { s.dev.sec with err := 9 } ∧ d.stands Reg.SEC_EVENT 2 ∧ d.regs.staged = s.dev.regs.staged ∧
        d.regs.active = s.dev.regs.active ∧ d.regs.inForce = s.dev.regs.inForce)))

/-- R467–R470: identity. -/
def Obligations.IdentityRowsTakeEffect : Prop :=
  (∀ (c : Cmd) (s : State), s.dev.admits 0x80 (inlMask [(20, 0xFF)]) c →
    (c.byte 20 = 0 → c.len.toNat ≠ 312 → exec (.attest c) s = .next (s.after (s.fresh.complete c 0x80 stBadParam))) ∧
    (c.byte 20 = 0 → c.len.toNat = 312 → c.bufErr = false → exec (.attest c) s = .next (s.after
      ((({ s.fresh with free := s.dev.free + 1 } : Dev).post c.addr.toNat (s.fresh.reportBody c.data ++
        beBytes 96 (Config.attestSignature s.dev.free).toNat)).completeRes c 0x80 stOk 312 []))) ∧
    (c.byte 20 = 1 → c.len.toNat < Config.certLength.toNat →
      exec (.attest c) s = .next (s.after (s.fresh.complete c 0x80 stBadParam))) ∧
    (c.byte 20 = 1 → Config.certLength.toNat ≤ c.len.toNat → exec (.attest c) s = .next (s.after
      ((s.fresh.post c.addr.toNat certChain).completeRes c 0x80 stOk Config.certLength.toNat []))) ∧
    (1 < c.byte 20 → exec (.attest c) s = .next (s.after (s.fresh.complete c 0x80 stBadParam)))) ∧
  (∀ (d : Dev) (nonce : List Byte), (d.reportBody nonce).length = 216 ∧
    slice (d.reportBody nonce) 16 32 = slice nonce 0 32 ∧ slice (d.reportBody nonce) 96 48 = slice d.sec.digest 0 48) ∧
  (∀ s : State, Answers .secChal s fun t => t.dev.sec = { s.dev.sec with
      challenge := some (Config.challenge s.dev.free).toNat } ∧ t.dev.free = s.dev.free + 1 ∧
    ChangesOnly [.sec, .free] s t ∧ Quiet s t) ∧
  (∀ (l k : Byte) (key sig : List Byte) (s : State), key.length = 97 → sig.length = 96 →
    (s.dev.sec.challenge = none → Answers (.secResp l k key sig) s fun t =>
      t.dev.sec = s.dev.sec ∧ t.dev.stands Reg.SEC_EVENT 64 ∧ ChangesOnly [.events, .reports] s t) ∧
    (∀ x, s.dev.sec.challenge = some x → s.dev.respOk x l.toNat k.toNat key sig = false →
      Answers (.secResp l k key sig) s fun t => t.dev.sec = { s.dev.sec with challenge := none } ∧
        t.dev.stands Reg.SEC_EVENT 64 ∧ ChangesOnly [.sec, .events, .reports] s t) ∧
    (∀ x, s.dev.sec.challenge = some x → s.dev.respOk x l.toNat k.toNat key sig = true →
      Answers (.secResp l k key sig) s fun t =>
        t.dev.sec = { s.dev.sec with challenge := none, debug := l.toNat } ∧ t.dev.stands Reg.SEC_EVENT 32 ∧
        (∃ y, t.dev.lrd.due = insertDue y s.dev.lrd.due ∧ y.1 = 0) ∧
        ChangesOnly [.sec, .lrd, .events, .reports] s t))

/-- R472–R480, R514, R515, R530, R531. The row CE_THRESHOLD carries the number of errors (log 75) and a snapshot opened while
writes are halted starts when they resume (log 116, both DEDUCED); when records are numbered is log 55 (DEDUCED). -/
def Obligations.ThermalAndMemoryRowsTakeEffect : Prop :=
  (∀ (cs : List (Option (BitVec 16))) (s : State),
    (s.dev.now < s.dev.hk.lastRound + s.dev.fld Reg.HK_CFG 7 0 * msTicks →
      exec (.harvestRound cs) s = .next (s.after s.fresh)) ∧
    (s.dev.hk.lastRound + s.dev.fld Reg.HK_CFG 7 0 * msTicks ≤ s.dev.now → Answers (.harvestRound cs) s fun t =>
      t.dev.hk.rounds = s.dev.hk.rounds + 1 ∧
      t.dev.hk.lastRound = s.dev.hk.lastRound + s.dev.fld Reg.HK_CFG 7 0 * msTicks ∧ t.dev.free = s.dev.free + 64 ∧
      (∀ n c, n < 64 → (n < 19 ∨ 35 ≤ n) → cs.getD n none = some c → (8 ≤ n ∨ (-550 ≤ hkInt c ∧ hkInt c ≤ 1500)) →
        (s.dev.hkChan n).broken = false → t.dev.hkChan n = { s.dev.hkChan n with value := c }) ∧
      (∀ n < 64, cs.getD n none = none → (t.dev.hkChan n).broken = true ∧ (t.dev.hkChan n).valid = 0) ∧
      (∀ top, top = maxList 0 ([1, 2, 3, 4].filter fun n => decide (t.dev.stepAt n ≤ t.dev.tDie)) →
        t.dev.hk.step = (if s.dev.hk.step < top then top
          else if s.dev.hk.step ≠ 0 ∧ t.dev.tDie < t.dev.stepAt s.dev.hk.step - 20 then s.dev.hk.step - 1
          else s.dev.hk.step)) ∧
      (s.dev.hk.halt = false → t.dev.hotSensor.isSome = true → t.dev.hk.halt = true ∧
        t.dev.hk.shutCnt = satInc s.dev.hk.shutCnt ∧ t.dev.stands Reg.HK_EVENT 2) ∧ t.pending = s.pending)) ∧
  (∀ (ch : Fin 64) (s : State), (ch.val < 9 ∨ 11 < ch.val) → exec (.supplyFailure ch) s = .next (s.after s.fresh)) ∧
  (∀ (ch : Fin 64) (s : State), 9 ≤ ch.val → ch.val ≤ 11 →
    ((s.dev.twn.st ≠ .active ∨ s.dev.partnerReady = false) → s.dev.controls = true → s.dev.tripping = false →
      Answers (.supplyFailure ch) s fun t => t.dev.sup.causeFirst = 18 ∧ t.dev.sup.causeClass = 2 ∧
        t.dev.sup.tripTick = some s.dev.now ∧ t.dev.stands Reg.HK_EVENT 64 ∧ t.pending = s.pending) ∧
    (s.dev.twn.st = .active → s.dev.partnerReady = true → Answers (.supplyFailure ch) s fun t =>
      t.dev.twn.st = .resigned ∧ t.dev.twn.resignCause = 3 ∧ t.dev.sup = s.dev.sup ∧ t.dev.stands Reg.HK_EVENT 64 ∧
      t.pending = s.pending)) ∧
  (∀ (c : Cmd) (s : State), s.dev.admits 0xB0 0 c →
    (s.dev.hk.halt = false ∨ s.dev.dieBroken ≠ 0 ∨ 1000 ≤ s.dev.tDie →
      exec (.thermalResume c) s = .next (s.after (s.fresh.complete c 0xB0 stRejected))) ∧
    (s.dev.hk.halt = true → s.dev.dieBroken = 0 → s.dev.tDie < 1000 → Completes (.thermalResume c) c 0xB0 stOk s fun d =>
      d.hk = { s.dev.hk with halt := false } ∧ Dev.Keeps [.hk] s.dev d)) ∧
  (∀ s : State, s.dev.lrd.openSnap = none ∨ s.dev.lrd.halt = true → exec .snapshotComplete s = .next (s.after s.fresh)) ∧
  (∀ (k : Nat) (x : SnapSlot) (s : State), s.dev.lrd.openSnap = some (k, x) → s.dev.lrd.halt = false → Answers .snapshotComplete s fun t =>
    t.dev.lrd.openSnap = none ∧ t.dev.lrd.slots.get SnapSlot.reset k = x ∧ t.dev.lrd.lines = s.dev.lrd.lines ∧
    t.dev.stands Reg.LRD_EVENT 2 ∧ ChangesOnly [.lrd, .events, .reports] s t) ∧
  (∀ s : State, s.dev.lrd.pfw = true → exec .powerFailWarning s = .next (s.after s.fresh)) ∧
  (∀ s : State, s.dev.lrd.pfw = false → Answers .powerFailWarning s fun t =>
    t.dev.lrd.pfw = true ∧ t.dev.lrd.halt = true ∧ t.dev.lrd.openSnap = none ∧ t.dev.lrd.openTrip = none ∧
    (s.dev.lrd.halt = false → 3 ≤ s.dev.sec.phase → s.dev.lrd.due = [] →
      (∀ r, s.dev.lrd.openTrip = some r → r.seq ≠ 0 ∧ r.seq ≤ s.dev.lrd.head) →
      t.dev.lrd.head = s.dev.lrd.head + 1) ∧ t.dev.stands Reg.LRD_EVENT 4 ∧
    ChangesOnly [.lrd, .events, .reports] s t) ∧
  (∀ s : State, s.dev.lrd.pfw = false → exec .larderResume s = .next (s.after s.fresh)) ∧
  (∀ s : State, s.dev.lrd.pfw = true → Answers .larderResume s fun t =>
    t.dev.lrd.pfw = false ∧ t.dev.lrd.halt = false ∧
    (3 ≤ s.dev.sec.phase → t.dev.lrd.waiting = [] ∧ ((∀ x ∈ s.dev.lrd.waiting, x.1 ≤ s.dev.lrd.head) →
      t.dev.lrd.head = s.dev.lrd.head + (s.dev.lrd.waiting.filter fun x => decide (x.1 = 0)).length)) ∧
    (s.dev.sec.phase < 3 → t.dev.lrd.waiting = s.dev.lrd.waiting ∧ t.dev.lrd.head = s.dev.lrd.head) ∧
    t.dev.lrd.openSnap = s.dev.lrd.openSnap ∧ (∀ k x, s.dev.lrd.openSnap = some (k, x) →
      t.dev.lrd.slots.get SnapSlot.reset k = SnapSlot.reset) ∧
    ChangesOnly [.lrd, .events, .reports] s t) ∧
  (∀ (n : BitVec 16) (r : Fin 7) (a : BitVec 24) (s : State), Answers (.ceThreshold n r a) s fun t =>
    t.dev.sys.ceCnt = satAdd s.dev.sys.ceCnt n.toNat ∧
    (s.dev.sys.window = s.dev.now / (s.dev.fld Reg.SYS_ECC_CFG 15 0 * secTicks) →
      t.dev.sys.windowCnt = s.dev.sys.windowCnt + n.toNat ∧
      (s.dev.sys.windowSet = false → s.dev.fld Reg.SYS_ECC_CFG 31 16 ≤ s.dev.sys.windowCnt + n.toNat →
        t.dev.sys.windowSet = true ∧ t.dev.stands Reg.SYS_EVENT 1) ∧
      (s.dev.sys.windowSet = true → t.dev.sys.windowSet = true ∧ t.dev.regs = s.dev.regs)) ∧
    ChangesOnly [.sys, .events, .reports] s t) ∧
  (∀ (r : Fin 7) (a : BitVec 24) (h : UeHit) (s : State), Answers (.uncorrectableError r a h) s fun t =>
    t.dev.sys.ueCnt = satInc s.dev.sys.ueCnt ∧ t.dev.sys.eccLast = eccWord r.val a.toNat true ∧
    t.dev.stands Reg.SYS_EVENT 2 ∧ t.pending = s.pending ∧
    (r.val ≤ 1 → s.dev.twn.st = .solo → s.dev.tripping = false →
      t.dev.sup.causeFirst = 19 ∧ t.dev.sup.causeClass = 2) ∧
    (r.val ≤ 1 → s.dev.twn.st = .active → s.dev.partnerReady = true →
      t.dev.twn.st = .resigned ∧ t.dev.twn.resignCause = 1) ∧
    (r.val ≤ 1 → s.dev.twn.st = .standby → ChangesOnly [.sys, .events, .reports] s t) ∧
    (∀ id : BitVec 20, r.val = 2 → h = .points [id] → recQual (t.dev.point id.toNat) = qInvalid ∧
      recFlags (t.dev.point id.toNat) = 0 ∧ recValue (t.dev.point id.toNat) = recValue (s.dev.point id.toNat) ∧
      ∀ j, j ≠ id.toNat → t.dev.point j = s.dev.point j) ∧
    (∀ (q : Fin 4) (slot : BitVec 16) (f : InFlight), r.val = 4 → h = .completion q slot → s.dev.host.inflight = [f] →
      f.ring = q.val → f.slot = slot.toNat → f.dropped = false →
      t.dev.host.inflight = [{ f with dropped := true }] ∧ t.dev.host.cplLostCnt = satInc s.dev.host.cplLostCnt ∧
      t.dev.stands Reg.HOST_EVENT 16) ∧
    (r.val = 5 → t.dev.lrd = { s.dev.lrd with tail := [] } ∧ ChangesOnly [.sys, .lrd, .events, .reports] s t) ∧
    (r.val = 6 → t.dev.twn = { s.dev.twn with pktErrCnt := satInc s.dev.twn.pktErrCnt, sent := [] } ∧
      ChangesOnly [.sys, .twn, .events, .reports] s t))

/-- R516, R517: the commands of the Larder. Where an item stands, that nothing is written where nothing is retained, and that
user-area writes and pins wait while writes are halted are log 56 (DESIGN CHOICE). -/
def Obligations.LarderCommandsComplete : Prop :=
  (∀ (c : Cmd) (s : State), s.dev.admits 0x70 (inlMask [(20, 0x1FF), (24, 0xFFFFFFFF), (28, 0xFFFFFFFF)]) c →
    (3 < c.byte 20 ∨ c.word 28 = 0 → exec (.larderRead c) s = .next (s.after (s.fresh.complete c 0x70 stBadParam))) ∧
    (c.byte 20 < 3 → c.len.toNat < c.word 28 * itemSize (c.byte 20) →
      exec (.larderRead c) s = .next (s.after (s.fresh.complete c 0x70 stBadParam))) ∧
    (c.byte 20 = 3 → c.word 24 % 4 = 0 → c.word 28 % 4 = 0 → c.word 28 ≠ 0 → c.word 24 + c.word 28 ≤ 1572864 →
      c.word 28 ≤ c.len.toNat → exec (.larderRead c) s = .next (s.after ((s.fresh.post c.addr.toNat
        ((upto (c.word 28)).map fun i => s.dev.lrd.user.get 0 (c.word 24 + i))).completeRes c 0x70 stOk (c.word 28) []))) ∧
    (c.byte 20 = 0 → c.word 28 = 1 → 64 ≤ c.len.toNat → s.dev.lrd.reads = [] →
      (s.dev.lrdRecord (c.word 24) = none → ∃ d : Dev, exec (.larderRead c) s =
        .next (s.after (d.completeRes c 0x70 stPartial 0 [])) ∧ d.lrd = s.dev.lrd ∧ d.host = s.dev.host) ∧
      (∀ bs, s.dev.lrdRecord (c.word 24) = some bs → bs.length = 64 →
        s.dev.ringRoom (28 + bits (c.byte 21) 0 0) ≠ 0 → ∃ (d : Dev) (later : List (Nat × List Byte)),
          exec (.larderRead c) s = .next (s.after (d.completeRes c 0x70 stOk 64 [])) ∧ d.lrd = s.dev.lrd ∧
          d.host.out = s.dev.host.out ++ (c.addr.toNat, bs) ::
            (s.dev.ringBase (28 + bits (c.byte 21) 0 0) + 32 * (s.dev.ring (28 + bits (c.byte 21) 0 0)).prod + 4,
              slice (readDesc true c.tag.toNat c.addr.toNat 64 (c.word 24) 1 0) 4 28) :: later))) ∧
  (∀ (c : Cmd) (s : State), s.dev.admits 0x71 (2 ^ 96 - 1) c →
    (3 < c.byte 20 ∨ c.reservedSet (markMask (c.byte 20)) = true →
      exec (.larderMark c) s = .next (s.after (s.fresh.complete c 0x71 stBadParam))) ∧
    (c.reservedSet (markMask (c.byte 20)) = false →
      (c.byte 20 = 0 → exec (.larderMark c) s = .next (s.after ((s.fresh.record 8 0 (leBytes 4 (c.word 24) ++
        leBytes 4 (c.word 28))).complete c 0x71 stOk))) ∧
      (c.byte 20 = 1 ∨ c.byte 20 = 2 → 15 < c.byte 21 →
        exec (.larderMark c) s = .next (s.after (s.fresh.complete c 0x71 stBadParam))) ∧
      (c.byte 20 = 1 ∨ c.byte 20 = 2 → c.byte 21 ≤ 15 → s.dev.lrd.halt = true →
        exec (.larderMark c) s = .next (s.after s.fresh)) ∧
      (c.byte 20 = 1 → c.byte 21 ≤ 15 → s.dev.lrd.halt = false →
        (8 ≤ s.dev.pins → exec (.larderMark c) s = .next (s.after (s.fresh.complete c 0x71 stRejected))) ∧
        (s.dev.pins < 8 → Completes (.larderMark c) c 0x71 stOk s fun d =>
          d.lrd = { s.dev.lrd with pinned := s.dev.lrd.pinned ||| 2 ^ c.byte 21 } ∧ Dev.Keeps [.lrd] s.dev d)) ∧
      (c.byte 20 = 2 → c.byte 21 ≤ 15 → s.dev.lrd.halt = false → Completes (.larderMark c) c 0x71 stOk s fun d =>
        bitAt d.lrd.pinned (c.byte 21) = false ∧ Dev.Keeps [.lrd] s.dev d) ∧
      (c.byte 20 = 3 → c.word 24 % 4 = 0 → c.len.toNat % 4 = 0 → c.len.toNat ≤ 65536 →
        c.word 24 + c.len.toNat ≤ 1572864 → s.dev.lrd.halt = false → c.bufErr = false → ∃ d : Dev,
          exec (.larderMark c) s = .next (s.after (d.completeRes c 0x71 stOk c.len.toNat [])) ∧
          d.lrd = { s.dev.lrd with user := writeBytes s.dev.lrd.user (c.word 24) c.data } ∧ Dev.Keeps [.lrd] s.dev d)))

/-- R485–R504: the rows of the drives. The first Hall code, the tick from which a bootstrap counts as above 6.5 V and the shunt
voltage as the rows' operand are log 123 (DESIGN CHOICE); that a standing Hall code 0 or 7 faults at each period start is
log 74 (DEDUCED). -/
def Obligations.DriveRowsTakeEffect : Prop :=
  (∀ (k : Nat) (code : Nat) (d : Dev),
    ((d.auxFault k code).drv k).st = .fault ∧ ((d.auxFault k code).drv k).fault = code ∧
    (∀ h ∈ d.driveHalves k, ((d.auxFault k code).half h).want = .none ∧ ((d.auxFault k code).half h).refresh = none) ∧
    (∀ j, j ≠ k → (d.auxFault k code).drv j = d.drv j) ∧ (d.auxFault k code).stands Reg.AUX_EVENT 1 ∧
    Dev.Keeps [.prof, .aux, .events, .reports] d (d.auxFault k code)) ∧
  (∀ (k : Fin 4) (s : State), s.dev.cycle ≤ s.dev.now % max (s.dev.fld Reg.AUX_CFG 15 0) 1 →
    exec (.auxPeriodStart k) s = .next (s.after s.fresh)) ∧
  (∀ (k : Fin 4) (s : State), s.dev.now % max (s.dev.fld Reg.AUX_CFG 15 0) 1 < s.dev.cycle →
    (s.dev.driveKind k.val = 1 → (s.dev.drv k.val).st = .ready → (s.dev.drv k.val).running = false →
      hallDead (s.dev.drv k.val).hall = false → Answers (.auxPeriodStart k) s fun t => (∀ j < 3, (t.dev.half (3 * k.val + j)).want = .none) ∧
        ChangesOnly [.aux] s t ∧ Quiet s t) ∧
    (s.dev.driveKind k.val = 1 → (s.dev.drv k.val).st = .ready ∨ (s.dev.drv k.val).st = .moving →
      hallDead (s.dev.drv k.val).hall = true →
      exec (.auxPeriodStart k) s = .next (s.after (s.fresh.auxFault k.val 1))) ∧
    (s.dev.driveKind k.val = 1 → (s.dev.drv k.val).st = .moving → (s.dev.drv k.val).running = true →
      s.dev.drvEn k.val = true → hallDead (s.dev.drv k.val).hall = false →
      ((s.dev.hallError k.val).natAbs ≤ s.dev.fld (Reg.AUX_DRV_HALL k.val) 31 24 → ∀ plus minus,
        (plus, minus) = sectorPair (if decide (s.dev.dutyOf k.val < 0) != s.dev.drvInv k.val then
          ((s.dev.drv k.val).sector + 3) % 6 else (s.dev.drv k.val).sector) →
        Answers (.auxPeriodStart k) s fun t => (t.dev.half (3 * k.val + minus)).want = .low ∧
          (t.dev.half (3 * k.val + plus)).want ≠ .none ∧
          (∀ j < 3, j ≠ plus → j ≠ minus → (t.dev.half (3 * k.val + j)).want = .none) ∧
          ChangesOnly [.aux] s t ∧ Quiet s t) ∧
      (s.dev.fld (Reg.AUX_DRV_HALL k.val) 31 24 < (s.dev.hallError k.val).natAbs →
        exec (.auxPeriodStart k) s = .next (s.after (s.fresh.auxFault k.val 4)))) ∧
    (s.dev.driveKind k.val = 2 → (s.dev.drv k.val).st = .moving → s.dev.drvEn k.val = true →
      Answers (.auxPeriodStart k) s fun t =>
        (t.dev.half (3 * k.val)).want = (if 0 < (s.dev.coilDemands k.val).1 then .high else .low) ∧
        (t.dev.half (3 * k.val + 1)).want = (if (s.dev.coilDemands k.val).1 < 0 then .high else .low) ∧
        (t.dev.half (3 * (k.val + 1))).want = (if 0 < (s.dev.coilDemands k.val).2 then .high else .low) ∧
        (t.dev.grp k.val).chop = false ∧ (t.dev.grp (k.val + 1)).chop = false ∧ ChangesOnly [.aux] s t ∧ Quiet s t)) ∧
  (∀ (k : Fin 4) (c : Fin 8) (s : State), s.dev.driveKind k.val ≠ 1 ∨ (s.dev.drv k.val).hall = some c.val →
    exec (.hallChange k c) s = .next (s.after s.fresh)) ∧
  (∀ (k : Fin 4) (c : Fin 8) (s : State), s.dev.driveKind k.val = 1 → (s.dev.drv k.val).hall ≠ some c.val →
    (c.val = 0 ∨ c.val = 7 →
      Answers (.hallChange k c) s fun t => (t.dev.drv k.val).st = .fault ∧ (t.dev.drv k.val).fault = 1 ∧
        (t.dev.drv k.val).hall = some c.val ∧ ChangesOnly [.prof, .aux, .events, .reports] s t) ∧
    (1 ≤ c.val → c.val ≤ 6 → (s.dev.drv k.val).hall = none → Answers (.hallChange k c) s fun t =>
      t.dev.drv k.val = { s.dev.drv k.val with
        hall := some c.val, sector := s.dev.fld (Reg.AUX_DRV_HALL k.val) (3 * c.val + 2) (3 * c.val)
        lastChange := s.dev.now } ∧ ChangesOnly [.aux] s t ∧ Quiet s t) ∧
    (∀ step : Int, 1 ≤ c.val → c.val ≤ 6 → (s.dev.drv k.val).hall ≠ none →
      ((step = 2 ∧ (s.dev.fld (Reg.AUX_DRV_HALL k.val) (3 * c.val + 2) (3 * c.val) + 6 -
          (s.dev.drv k.val).sector % 6) % 6 = 2) ∨
        (step = -2 ∧ (s.dev.fld (Reg.AUX_DRV_HALL k.val) (3 * c.val + 2) (3 * c.val) + 6 -
          (s.dev.drv k.val).sector % 6) % 6 = 4)) → Answers (.hallChange k c) s fun t =>
      (t.dev.drv k.val).count = ((s.dev.drv k.val).count + (if s.dev.drvInv k.val then -step else step)) % 16777216 ∧
      (t.dev.drv k.val).sector = s.dev.fld (Reg.AUX_DRV_HALL k.val) (3 * c.val + 2) (3 * c.val) ∧
      (t.dev.drv k.val).hall = some c.val ∧ (t.dev.drv k.val).st = (s.dev.drv k.val).st ∧
      t.dev.stands Reg.AUX_EVENT 4 ∧ ChangesOnly [.aux, .events, .reports] s t) ∧
    (1 ≤ c.val → c.val ≤ 6 → (s.dev.drv k.val).hall ≠ none →
      (s.dev.fld (Reg.AUX_DRV_HALL k.val) (3 * c.val + 2) (3 * c.val) + 6 - (s.dev.drv k.val).sector % 6) % 6 = 3 →
      Answers (.hallChange k c) s fun t => (t.dev.drv k.val).st = .fault ∧ (t.dev.drv k.val).fault = 1 ∧
        (t.dev.drv k.val).count = (s.dev.drv k.val).count ∧ ChangesOnly [.prof, .aux, .events, .reports] s t) ∧
    (∀ step : Int, 1 ≤ c.val → c.val ≤ 6 → (s.dev.drv k.val).hall ≠ none →
      ((step = 1 ∧ (s.dev.fld (Reg.AUX_DRV_HALL k.val) (3 * c.val + 2) (3 * c.val) + 6 -
          (s.dev.drv k.val).sector % 6) % 6 = 1) ∨
        (step = -1 ∧ (s.dev.fld (Reg.AUX_DRV_HALL k.val) (3 * c.val + 2) (3 * c.val) + 6 -
          (s.dev.drv k.val).sector % 6) % 6 = 5)) → Answers (.hallChange k c) s fun t =>
      (t.dev.drv k.val).count = ((s.dev.drv k.val).count + (if s.dev.drvInv k.val then -step else step)) % 16777216 ∧
      (t.dev.drv k.val).sector = s.dev.fld (Reg.AUX_DRV_HALL k.val) (3 * c.val + 2) (3 * c.val) ∧
      (t.dev.drv k.val).hall = some c.val ∧ (t.dev.drv k.val).lastChange = s.dev.now ∧
      (t.dev.drv k.val).st = (s.dev.drv k.val).st ∧ ChangesOnly [.aux] s t ∧ Quiet s t)) ∧
  (∀ (h : Fin 12) (n : Nat) (s : State), (s.dev.wantNow h.val).1 ≠ .high ∨ s.dev.refreshing h.val = true →
    n = (if (s.dev.half h.val).lastLow + msTicks ≤ s.dev.now then 0 else (s.dev.half h.val).refreshes) →
    Answers (.bootstrapLow h) s fun t =>
      t.dev.half h.val = { s.dev.half h.val with refreshes := n, lastLow := max (s.dev.half h.val).lastLow s.dev.now } ∧
      t.dev.aux.refreshCnt = s.dev.aux.refreshCnt ∧ ChangesOnly [.aux] s t ∧ Quiet s t) ∧
  (∀ (h : Fin 12) (n : Nat) (s : State), (s.dev.wantNow h.val).1 = .high → s.dev.refreshing h.val = false →
    n = (if (s.dev.half h.val).lastLow + msTicks ≤ s.dev.now then 0 else (s.dev.half h.val).refreshes) + 1 →
    (n < 3 → Answers (.bootstrapLow h) s fun t =>
      t.dev.half h.val = { s.dev.half h.val with
        refresh := some s.dev.now, refreshes := n, lastLow := s.dev.now + s.dev.auxDt h.val + 800 } ∧
      t.dev.aux.refreshCnt = satInc s.dev.aux.refreshCnt ∧ ChangesOnly [.aux] s t ∧ Quiet s t) ∧
    (∀ k, 3 ≤ n → s.dev.groupDrive (h.val / 3) = some k → Answers (.bootstrapLow h) s fun t =>
      (t.dev.drv k).st = .fault ∧ (t.dev.drv k).fault = 2 ∧ ChangesOnly [.prof, .aux, .events, .reports] s t)) ∧
  (∀ (k : Fin 4) (s : State), (s.dev.drv k.val).st ≠ .precharge ∨ s.dev.now < (s.dev.drv k.val).preEnd →
    exec (.prechargeEnd k) s = .next (s.after s.fresh)) ∧
  (∀ (k : Fin 4) (s : State), (s.dev.drv k.val).st = .precharge → (s.dev.drv k.val).preEnd ≤ s.dev.now →
    ((s.dev.drv k.val).next = none → Answers (.prechargeEnd k) s fun t => (t.dev.drv k.val).st = .ready ∧ (t.dev.drv k.val).charged = true ∧
      (∀ h ∈ s.dev.driveHalves k.val, (t.dev.half h).want = .none) ∧ ChangesOnly [.aux] s t ∧ Quiet s t) ∧
    (∀ op ph, (s.dev.drv k.val).next = some (op, ph) → Answers (.prechargeEnd k) s fun t =>
      (t.dev.drv k.val).st = (if ph = .none then .moving else .homing) ∧ t.dev.prof.ops = s.dev.prof.ops ++ [op] ∧
      ChangesOnly [.prof, .aux] s t ∧ Quiet s t)) ∧
  (∀ (g : Fin 4) (uv : Int) (k : Nat) (d : Dev), d.groupDrive g.val = some k →
    (d.driveKind k = 1 → d.crossesSet g.val uv = decide (2000 * (d.fld (Reg.AUX_GRP g.val) 6 0 : Int) < uv) ∧
      d.crossesHard g.val uv = decide (4000 * (d.fld (Reg.AUX_GRP g.val) 6 0 : Int) < uv)) ∧
    (d.driveKind k ≠ 1 → d.crossesHard g.val uv = decide (4000 * (d.fld (Reg.AUX_DRV_CUR k) 31 24 : Int) < uv) ∧
      d.crossesSet g.val uv = decide
        (5 * ((if g.val = k then (d.coilDemands k).1 else (d.coilDemands k).2).natAbs : Int) < 64 * uv))) ∧
  (∀ (g : Fin 4) (uv : Int) (s : State),
    (s.dev.crossesHard g.val uv = false → s.dev.crossesSet g.val uv = false →
      exec (.shuntCrossing g uv) s = .next (s.after s.fresh)) ∧
    (s.dev.crossesHard g.val uv = false → s.dev.crossesSet g.val uv = true → s.dev.auxBlank g.val = true →
      Answers (.shuntCrossing g uv) s fun t =>
        t.dev.grp g.val = { s.dev.grp g.val with seen := true } ∧ ChangesOnly [.aux] s t ∧ Quiet s t) ∧
    (∀ k, s.dev.groupDrive g.val = some k → (s.dev.drv k).st ≠ .fault → (s.dev.drv k).st ≠ .off →
      (s.dev.crossesHard g.val uv = true ∨
        (s.dev.driveKind k = 1 ∧ s.dev.crossesSet g.val uv = true ∧ s.dev.auxBlank g.val = false) →
        Answers (.shuntCrossing g uv) s fun t =>
          (t.dev.drv k).st = .fault ∧ (t.dev.drv k).fault = 3 ∧ bitAt t.dev.aux.oc g.val = true ∧
          ChangesOnly [.prof, .aux, .events, .reports] s t) ∧
      (s.dev.crossesHard g.val uv = false → s.dev.crossesSet g.val uv = true → s.dev.driveKind k ≠ 1 →
        s.dev.auxBlank g.val = false →
        ((s.dev.drv k).st = .precharge ∨ (s.dev.drv k).st = .standstill →
          exec (.shuntCrossing g uv) s = .next (s.after s.fresh)) ∧
        ((s.dev.drv k).st = .ready ∨ (s.dev.drv k).st = .moving ∨ (s.dev.drv k).st = .homing →
          Answers (.shuntCrossing g uv) s fun t => (t.dev.grp g.val).chop = true ∧ (t.dev.half (3 * g.val)).want = .low ∧
            (t.dev.half (3 * g.val + 1)).want = .low ∧ ChangesOnly [.aux] s t ∧ Quiet s t))) ∧
    (∀ k, s.dev.crossesHard g.val uv = true → s.dev.groupDrive g.val = some k → (s.dev.drv k).st = .fault →
      (s.dev.drv k).fault = 3 → (s.dev.drv k).faultTick = s.dev.now → bitAt s.dev.aux.oc g.val = false →
      Answers (.shuntCrossing g uv) s fun t =>
        bitAt t.dev.aux.oc g.val = true ∧ t.dev.drv k = s.dev.drv k ∧ t.dev.stands Reg.AUX_EVENT 1 ∧
        ChangesOnly [.aux, .events, .reports] s t)) ∧
  (∀ (g : Fin 4) (uv : Int) (s : State), (s.dev.grp g.val).seen = false ∨ s.dev.auxBlank g.val = true →
    exec (.auxBlankEnd g uv) s = .next (s.after s.fresh)) ∧
  (∀ (g : Fin 4) (uv : Int) (s : State), (s.dev.grp g.val).seen = true → s.dev.auxBlank g.val = false →
    s.dev.crossesSet g.val uv = false → Answers (.auxBlankEnd g uv) s fun t => (t.dev.grp g.val).seen = false ∧
      (t.dev.grp g.val).blanked = satInc (s.dev.grp g.val).blanked ∧ t.dev.stands Reg.AUX_EVENT 8 ∧
      ChangesOnly [.aux, .events, .reports] s t) ∧
  (∀ (g : Fin 4) (uv : Int) (k : Nat) (s : State), (s.dev.grp g.val).seen = true → s.dev.auxBlank g.val = false →
    s.dev.crossesSet g.val uv = true → s.dev.groupDrive g.val = some k → s.dev.driveKind k = 1 →
    (s.dev.drv k).st ≠ .fault → (s.dev.drv k).st ≠ .off →
    Answers (.auxBlankEnd g uv) s fun t => (t.dev.grp g.val).seen = false ∧ (t.dev.drv k).st = .fault ∧
      (t.dev.drv k).fault = 3 ∧ ChangesOnly [.prof, .aux, .events, .reports] s t) ∧
  (∀ (i : Fin 8) (lv : Bool) (s : State), bitAt s.dev.aux.limits i.val = lv →
    exec (.limitInputEdge i lv) s = .next (s.after s.fresh)) ∧
  (∀ (i : Fin 8) (lv : Bool) (s : State), bitAt s.dev.aux.limits i.val = !lv → Answers (.limitInputEdge i lv) s fun t =>
    bitAt t.dev.aux.limits i.val = lv ∧
    (∀ k < 4, lv = true → s.dev.driveKind k ≠ 0 → (s.dev.drv k).st = .moving → (s.dev.prf (8 + k)).seg ≠ .idle →
      s.dev.limitOf k (!(s.dev.prf (8 + k)).neg) = some i.val →
      (t.dev.prf (8 + k)).halting = true ∧ t.dev.stands Reg.AUX_EVENT 2) ∧
    ChangesOnly [.prof, .aux, .events, .reports] s t) ∧
  (∀ (k : Fin 4) (s : State), (s.dev.drv k.val).stillStart = none ∨ (s.dev.drv k.val).st ≠ .ready →
    exec (.stillDelayExpire k) s = .next (s.after s.fresh)) ∧
  (∀ (k : Fin 4) (b : Nat) (s : State), (s.dev.drv k.val).stillStart = some b → (s.dev.drv k.val).st = .ready →
    b + s.dev.fld (Reg.AUX_DRV_CUR k.val) 7 0 * 10 * msTicks ≤ s.dev.now → Answers (.stillDelayExpire k) s fun t =>
      (t.dev.drv k.val).st = .standstill ∧ (∀ h ∈ s.dev.driveHalves k.val,
        (t.dev.half h).want = (if s.dev.drvShort k.val then .low else .none)) ∧ ChangesOnly [.aux] s t ∧ Quiet s t) ∧
  (∀ s : State, Answers .vgdLow s fun t => (∀ h < 12, (t.dev.half h).want = .none ∧ (t.dev.half h).refresh = none) ∧
    (∀ k < 4, s.dev.drvEn k = true → s.dev.driveKind k ≠ 0 →
      (t.dev.drv k).st = .fault ∧ (t.dev.drv k).fault = 7) ∧ ChangesOnly [.prof, .aux, .events, .reports] s t)

/-- R501, R502: the commands of the drives. That RUN is refused towards an active limit, that HOME from STANDSTILL runs a
precharge that is due, and the state from which ENABLE acts are log 74 (DEDUCED). -/
def Obligations.DriveCommandsComplete : Prop :=
  (∀ (c : Cmd) (s : State), s.dev.admits 0xA0 (inlMask [(20, 0xFFFF), (22, 1), (24, 0xFFFFFFFF)]) c →
    (4 ≤ c.byte 20 ∨ s.dev.driveKind (c.byte 20) = 0 ∨ 6 < c.byte 21 →
      exec (.auxDrive c) s = .next (s.after (s.fresh.complete c 0xA0 stBadParam))) ∧
    (c.byte 20 < 4 → s.dev.driveKind (c.byte 20) ≠ 0 → bitAt (c.byte 22) 0 = false → c.len = 0 →
      (c.byte 21 = 0 → (s.dev.drv (c.byte 20)).st = .fault →
        exec (.auxDrive c) s = .next (s.after (s.fresh.complete c 0xA0 stRejected))) ∧
      (c.byte 21 = 0 → (∃ g ∈ s.dev.driveGroups (c.byte 20), bitAt s.dev.aux.testFail g = true) →
        exec (.auxDrive c) s = .next (s.after (s.fresh.complete c 0xA0 stRejected))) ∧
      (c.byte 21 = 0 → (s.dev.drv (c.byte 20)).st = .off → s.dev.driveKind (c.byte 20) = 1 →
        hallDead (s.dev.drv (c.byte 20)).hall = true →
        (∀ g ∈ s.dev.driveGroups (c.byte 20), bitAt s.dev.aux.testFail g = false) →
        Completes (.auxDrive c) c 0xA0 stOk s fun d => (d.drv (c.byte 20)).st = .fault ∧
          (d.drv (c.byte 20)).fault = 1 ∧ Dev.Keeps [.prof, .aux, .events, .reports] s.dev d) ∧
      (c.byte 21 = 0 → (s.dev.drv (c.byte 20)).st = .off →
        s.dev.driveKind (c.byte 20) = 2 ∨ hallDead (s.dev.drv (c.byte 20)).hall = false →
        (∀ g ∈ s.dev.driveGroups (c.byte 20), bitAt s.dev.aux.testFail g = false) →
        Completes (.auxDrive c) c 0xA0 stOk s fun d => (d.drv (c.byte 20)).st = .precharge ∧
          (d.drv (c.byte 20)).preEnd = s.dev.now + s.dev.driveDt (c.byte 20) + (if s.dev.drvFld (c.byte 20) 14 8 = 0 then 20
            else s.dev.drvFld (c.byte 20) 14 8) * usTicks ∧ Dev.Keeps [.aux] s.dev d) ∧
      (c.byte 21 = 1 → s.dev.driveKind (c.byte 20) = 1 →
        exec (.auxDrive c) s = .next (s.after (s.fresh.complete c 0xA0 stBadParam))) ∧
      (∀ tgt, tgt = BitVec.ofNat 32 (c.word 24) → c.byte 21 = 1 → s.dev.driveKind (c.byte 20) = 2 →
        -8388608 ≤ tgt.toInt → tgt.toInt < 8388608 →
        ((s.dev.stepCount (c.byte 20) < tgt.toInt ∧ s.dev.limitActive (c.byte 20) true = true) ∨
            (tgt.toInt < s.dev.stepCount (c.byte 20) ∧ s.dev.limitActive (c.byte 20) false = true) →
          exec (.auxDrive c) s = .next (s.after (s.fresh.complete c 0xA0 stRejected))) ∧
        ((s.dev.drv (c.byte 20)).st = .ready →
          (s.dev.stepCount (c.byte 20) < tgt.toInt → s.dev.limitActive (c.byte 20) true = false) →
          (tgt.toInt < s.dev.stepCount (c.byte 20) → s.dev.limitActive (c.byte 20) false = false) →
          rampValid (s.dev.rampPlanned (8 + c.byte 20)) = true → Completes (.auxDrive c) c 0xA0 stOk s fun d =>
            (d.drv (c.byte 20)).st = .moving ∧
            d.prof.ops = s.dev.prof.ops ++ [.start (8 + c.byte 20) tgt none false] ∧
            Dev.Keeps [.prof, .aux] s.dev d)) ∧
      (c.byte 21 = 2 → s.dev.driveKind (c.byte 20) = 1 →
        s.dev.limitActive (c.byte 20) (decide (0 ≤ (BitVec.ofNat 32 (c.word 24)).toInt)) = true →
        exec (.auxDrive c) s = .next (s.after (s.fresh.complete c 0xA0 stRejected))) ∧
      (c.byte 21 = 4 → s.dev.driveKind (c.byte 20) = 1 →
        exec (.auxDrive c) s = .next (s.after (s.fresh.complete c 0xA0 stBadParam))) ∧
      (c.byte 21 = 4 → s.dev.driveKind (c.byte 20) = 2 →
        ((s.dev.drv (c.byte 20)).st ≠ .ready → (s.dev.drv (c.byte 20)).st ≠ .standstill →
          exec (.auxDrive c) s = .next (s.after (s.fresh.complete c 0xA0 stRejected))) ∧
        ((s.dev.drv (c.byte 20)).st = .ready ∨ (s.dev.drv (c.byte 20)).st = .standstill →
          rampValid (s.dev.rampPlanned (8 + c.byte 20)) = false →
          exec (.auxDrive c) s = .next (s.after (s.fresh.complete c 0xA0 stBadParam))) ∧
        ((s.dev.drv (c.byte 20)).st = .ready ∨
            ((s.dev.drv (c.byte 20)).st = .standstill ∧ (s.dev.drv (c.byte 20)).charged = true) →
          rampValid (s.dev.rampPlanned (8 + c.byte 20)) = true → Completes (.auxDrive c) c 0xA0 stOk s fun d =>
            (d.drv (c.byte 20)).st = .homing ∧
            (d.drv (c.byte 20)).homing = (if s.dev.drvFld (c.byte 20) 28 28 = 0 then .stall else .seek) ∧
            d.prof.ops = s.dev.prof.ops ++
              [s.dev.relMove (c.byte 20) (s.dev.seekSteps (c.byte 20)) (s.dev.refPos (c.byte 20))] ∧
            Dev.Keeps [.prof, .aux] s.dev d) ∧
        ((s.dev.drv (c.byte 20)).st = .standstill → (s.dev.drv (c.byte 20)).charged = false →
          rampValid (s.dev.rampPlanned (8 + c.byte 20)) = true → Completes (.auxDrive c) c 0xA0 stOk s fun d =>
            (d.drv (c.byte 20)).st = .precharge ∧ (d.drv (c.byte 20)).next =
              some (s.dev.relMove (c.byte 20) (s.dev.seekSteps (c.byte 20)) (s.dev.refPos (c.byte 20)),
                if s.dev.drvFld (c.byte 20) 28 28 = 0 then .stall else .seek) ∧
            d.prof.ops = s.dev.prof.ops ∧ Dev.Keeps [.prof, .aux] s.dev d)) ∧
      (c.byte 21 = 2 → s.dev.driveKind (c.byte 20) = 1 → (s.dev.drv (c.byte 20)).st = .ready →
        s.dev.limitActive (c.byte 20) (decide (0 ≤ (BitVec.ofNat 32 (c.word 24)).toInt)) = false →
        rampValid (s.dev.rampPlanned (8 + c.byte 20)) = true → Completes (.auxDrive c) c 0xA0 stOk s fun d =>
          (d.drv (c.byte 20)).st = .moving ∧ (d.drv (c.byte 20)).running = true ∧
          (d.drv (c.byte 20)).negRun = decide ((BitVec.ofNat 32 (c.word 24)).toInt < 0) ∧
          (d.prf (8 + c.byte 20)).wraps = true ∧ Dev.Keeps [.prof, .aux] s.dev d) ∧
      (c.byte 21 = 3 → (s.dev.drv (c.byte 20)).st = .moving → s.dev.chanIdle (8 + c.byte 20) = false →
        Completes (.auxDrive c) c 0xA0 stOk s fun d => d.prof.ops = s.dev.prof.ops ++ [.stop (8 + c.byte 20) false] ∧
          Dev.Keeps [.prof] s.dev d) ∧
      (c.byte 21 = 5 → (s.dev.drv (c.byte 20)).st = .moving → Completes (.auxDrive c) c 0xA0 stOk s fun d =>
        (d.drv (c.byte 20)).st = .standstill ∧ Dev.Keeps [.prof, .aux] s.dev d) ∧
      (c.byte 21 = 6 → (s.dev.drv (c.byte 20)).st ≠ .fault ∨ s.dev.faultPersists (c.byte 20) = true →
        exec (.auxDrive c) s = .next (s.after (s.fresh.complete c 0xA0 stRejected))) ∧
      (c.byte 21 = 6 → (s.dev.drv (c.byte 20)).st = .fault → s.dev.faultPersists (c.byte 20) = false →
        Completes (.auxDrive c) c 0xA0 stOk s fun d => d.drv (c.byte 20) =
          { s.dev.drv (c.byte 20) with st := .off, fault := 0 } ∧ Dev.Keeps [.aux] s.dev d)) ∧
    (c.byte 20 < 4 → s.dev.driveKind (c.byte 20) ≠ 0 → bitAt (c.byte 22) 0 = true →
      (c.byte 21 ≠ 1 → c.byte 21 ≠ 2 →
        exec (.auxDrive c) s = .next (s.after (s.fresh.complete c 0xA0 stBadParam))) ∧
      (c.len.toNat ≠ 36 → exec (.auxDrive c) s = .next (s.after (s.fresh.complete c 0xA0 stBadParam))) ∧
      (∀ tgt, tgt = BitVec.ofNat 32 (c.word 24) → c.len.toNat = 36 → c.byte 21 = 1 → s.dev.driveKind (c.byte 20) = 2 →
        -8388608 ≤ tgt.toInt → tgt.toInt < 8388608 → (s.dev.drv (c.byte 20)).st = .ready →
        (s.dev.stepCount (c.byte 20) < tgt.toInt → s.dev.limitActive (c.byte 20) true = false) →
        (tgt.toInt < s.dev.stepCount (c.byte 20) → s.dev.limitActive (c.byte 20) false = false) →
        (c.bufErr = true → exec (.auxDrive c) s = .next (s.after (s.fresh.aerError.complete c 0xA0 stBadParam))) ∧
        (c.bufErr = false → rampValid (bufRamp c) = false →
          exec (.auxDrive c) s = .next (s.after (s.fresh.completeRes c 0xA0 stBadParam 36 []))) ∧
        (c.bufErr = false → rampValid (bufRamp c) = true → ∃ d : Dev,
          exec (.auxDrive c) s = .next (s.after (d.completeRes c 0xA0 stOk 36 [])) ∧ (d.drv (c.byte 20)).st = .moving ∧
          d.prof.ops = s.dev.prof.ops ++ [.start (8 + c.byte 20) tgt (some (bufRamp c)) false] ∧
          Dev.Keeps [.prof, .aux] s.dev d)) ∧
      (∀ tgt, tgt = BitVec.ofNat 32 (c.word 24) → c.len.toNat = 36 → c.byte 21 = 2 → s.dev.driveKind (c.byte 20) = 1 →
        (s.dev.drv (c.byte 20)).st = .ready → s.dev.limitActive (c.byte 20) (decide (0 ≤ tgt.toInt)) = false →
        c.bufErr = false → rampValid (bufRamp c) = true → ∃ d : Dev,
          exec (.auxDrive c) s = .next (s.after (d.completeRes c 0xA0 stOk 36 [])) ∧ (d.drv (c.byte 20)).st = .moving ∧
          (d.drv (c.byte 20)).running = true ∧ (d.drv (c.byte 20)).negRun = decide (tgt.toInt < 0) ∧
          Dev.Keeps [.prof, .aux] s.dev d))) ∧
  (∀ (c : Cmd) (pass : BitVec 4) (s : State), s.dev.admits 0xA1 (inlMask [(20, 0xF)]) c →
    (c.byte 20 = 0 → exec (.auxSelftest c pass) s = .next (s.after (s.fresh.complete c 0xA1 stBadParam))) ∧
    (∀ g < 4, bitAt (c.byte 20) g = true → s.dev.groupIdle g = false →
      exec (.auxSelftest c pass) s = .next (s.after (s.fresh.complete c 0xA1 stRejected))) ∧
    (c.byte 20 ≠ 0 → (∀ g < 4, bitAt (c.byte 20) g = true → s.dev.groupIdle g = true) →
      Completes (.auxSelftest c pass) c 0xA1
        (if (upto 4).all (fun g => !bitAt (c.byte 20) g || pass.getLsbD g) then stOk else stPartial) s fun d =>
        (∀ g < 4, bitAt (c.byte 20) g = true → bitAt d.aux.testPass g = pass.getLsbD g ∧
          bitAt d.aux.testFail g = !pass.getLsbD g) ∧
        (∀ g < 4, bitAt (c.byte 20) g = false → bitAt d.aux.testPass g = bitAt s.dev.aux.testPass g ∧
          bitAt d.aux.testFail g = bitAt s.dev.aux.testFail g) ∧
        Dev.Keeps [.prof, .aux, .events, .reports] s.dev d))

/-- R2, R35, R402, R450: the state after reset, where the spec gives it. Of what registers read, the two identity registers are
stated; ANG_STATUS reads the meaning of its fields (log 86, DESIGN CHOICE). -/
def Obligations.ResetState : Prop :=
  State.reset.dev.regRead Reg.SYS_ID_DEVICE = 0x9160 ∧ State.reset.dev.regRead Reg.SYS_ID_STEP = 0x43 ∧
  (∀ off, State.reset.dev.cfg off = (regReset off).toNat ∧ State.reset.dev.stagedReg off = (regReset off).toNat ∧
    State.reset.dev.activeReg off = (regReset off).toNat ∧ State.reset.dev.w1c off = 0) ∧
  State.reset.dev.gfm.mode = .off ∧ State.reset.dev.ang.cur.angle = false ∧ State.reset.dev.ang.cur.sn = 0 ∧
  State.reset.dev.ang.acc = 0 ∧ State.reset.dev.ang.rev = 0 ∧
  (∀ r < 32, State.reset.dev.ringEn r = false ∧ State.reset.dev.ringRoom r = 0) ∧
  State.reset.dev.fen.st = .init ∧ State.reset.dev.fen.passcode = 0 ∧
  (∀ k < 4, (State.reset.dev.fenOut k).demanded = true ∧ State.reset.dev.pairCause k = true ∧
    pairClosed (State.reset.dev.fenOut k) = false) ∧
  State.reset.dev.sec.phase = 1 ∧ State.reset.dev.ready = false ∧ State.reset.dev.host.inflight = []
end

