-- ==== Sys2Proof/Laws/Tables.lean ====
section
/-! SUPPORT. The laws of the sparse tables: reading after writing, and the canonical form. -/

namespace Sys2Proof.SMap

variable {α : Type}

theorem lookup_insertCell (k : Nat) (v : α) (l : List (Nat × α)) (k' : Nat) :
    lookup (insertCell k v l) k' = if k = k' then some v else lookup l k' := by
  induction l with
  | nil => simp [insertCell, lookup]
  | cons c rest ih =>
    obtain ⟨a, b⟩ := c
    simp only [insertCell]
    split
    · simp [lookup]
    · split
      · rename_i h; subst h
        by_cases hk : k = k' <;> simp [lookup, hk]
      · rename_i h
        by_cases ha : a = k'
        · subst ha; simp [lookup, h]
        · simp [lookup, ha, ih]

theorem lookup_eraseCell (k : Nat) (l : List (Nat × α)) (k' : Nat) :
    lookup (eraseCell k l) k' = if k = k' then none else lookup l k' := by
  induction l with
  | nil => simp [eraseCell, lookup]
  | cons c rest ih =>
    obtain ⟨a, b⟩ := c
    simp only [eraseCell]
    split
    · rename_i h; subst h
      rw [ih]; by_cases hk : k = k' <;> simp [lookup, hk]
    · rename_i h
      by_cases ha : a = k'
      · subst ha; simp [lookup, h]
      · simp [lookup, ha, ih]

/-- Reading after writing. -/
theorem get_set [DecidableEq α] (m : SMap α) (d : α) (k : Nat) (v : α) (k' : Nat) :
    (m.set d k v).get d k' = if k = k' then v else m.get d k' := by
  unfold set get
  split
  · rename_i h; subst h
    rw [lookup_eraseCell]; split <;> rfl
  · rw [lookup_insertCell]; split <;> rfl

@[simp] theorem get_set_self [DecidableEq α] (m : SMap α) (d : α) (k : Nat) (v : α) :
    (m.set d k v).get d k = v := by simp [get_set]

@[simp] theorem get_set_of_ne [DecidableEq α] (m : SMap α) (d : α) {k k' : Nat} (v : α) (h : k ≠ k') :
    (m.set d k v).get d k' = m.get d k' := by simp [get_set, h]

@[simp] theorem get_empty (d : α) (k : Nat) : (empty : SMap α).get d k = d := rfl

@[simp] theorem wf_empty [DecidableEq α] (d : α) : (empty : SMap α).wf d = true := rfl

/-- The keys of a rising list: every later key is greater than the first. -/
theorem rising_cons {k : Nat} {v : α} {l : List (Nat × α)} :
    rising ((k, v) :: l) = true ↔ rising l = true ∧ ∀ c ∈ l, k < c.1 := by
  induction l generalizing k v with
  | nil => simp [rising]
  | cons c rest ih =>
    obtain ⟨a, b⟩ := c
    simp only [rising, Bool.and_eq_true, decide_eq_true_eq]
    constructor
    · rintro ⟨h1, h2⟩
      refine ⟨h2, ?_⟩
      intro c hc
      rcases List.mem_cons.mp hc with rfl | hc
      · exact h1
      · exact Nat.lt_trans h1 ((ih.mp h2).2 c hc)
    · rintro ⟨h1, h2⟩
      exact ⟨h2 _ (List.mem_cons_self ..), h1⟩

theorem mem_insertCell {k : Nat} {v : α} {l : List (Nat × α)} {c : Nat × α} (h : c ∈ insertCell k v l) :
    c = (k, v) ∨ c ∈ l := by
  induction l with
  | nil => simp [insertCell] at h; exact .inl h
  | cons a rest ih =>
    obtain ⟨a1, a2⟩ := a
    simp only [insertCell] at h
    split at h
    · simpa using h
    · split at h
      · rcases List.mem_cons.mp h with h | h
        · exact .inl h
        · exact .inr (List.mem_cons_of_mem _ h)
      · rcases List.mem_cons.mp h with h | h
        · subst h; exact .inr (List.mem_cons_self ..)
        · rcases ih h with h | h
          · exact .inl h
          · exact .inr (List.mem_cons_of_mem _ h)

theorem mem_eraseCell {k : Nat} {l : List (Nat × α)} {c : Nat × α} (h : c ∈ eraseCell k l) : c ∈ l := by
  induction l with
  | nil => simp [eraseCell] at h
  | cons a rest ih =>
    obtain ⟨a1, a2⟩ := a
    simp only [eraseCell] at h
    split at h
    · exact List.mem_cons_of_mem _ (ih h)
    · rcases List.mem_cons.mp h with h | h
      · subst h; exact List.mem_cons_self ..
      · exact List.mem_cons_of_mem _ (ih h)

theorem rising_insertCell {k : Nat} {v : α} {l : List (Nat × α)} (h : rising l = true) :
    rising (insertCell k v l) = true := by
  induction l with
  | nil => rfl
  | cons a rest ih =>
    obtain ⟨a1, a2⟩ := a
    have h' := rising_cons.mp h
    simp only [insertCell]
    split
    · rename_i hk
      refine rising_cons.mpr ⟨h, ?_⟩
      intro c hc
      rcases List.mem_cons.mp hc with rfl | hc
      · exact hk
      · exact Nat.lt_trans hk (h'.2 c hc)
    · split
      · rename_i hk; subst hk; exact rising_cons.mpr h'
      · rename_i h1 h2
        refine rising_cons.mpr ⟨ih h'.1, ?_⟩
        intro c hc
        rcases mem_insertCell hc with rfl | hc
        · show a1 < k
          omega
        · exact h'.2 c hc

theorem rising_eraseCell {k : Nat} {l : List (Nat × α)} (h : rising l = true) :
    rising (eraseCell k l) = true := by
  induction l with
  | nil => rfl
  | cons a rest ih =>
    obtain ⟨a1, a2⟩ := a
    have h' := rising_cons.mp h
    simp only [eraseCell]
    split
    · exact ih h'.1
    · exact rising_cons.mpr ⟨ih h'.1, fun c hc => h'.2 c (mem_eraseCell hc)⟩

/-- Writing keeps the canonical form. -/
theorem wf_set [DecidableEq α] {m : SMap α} {d : α} (h : m.wf d = true) (k : Nat) (v : α) :
    (m.set d k v).wf d = true := by
  simp only [wf, Bool.and_eq_true, List.all_eq_true, decide_eq_true_eq] at h ⊢
  unfold set
  split
  · exact ⟨rising_eraseCell h.1, fun c hc => h.2 c (mem_eraseCell hc)⟩
  · rename_i hv
    refine ⟨rising_insertCell h.1, fun c hc => ?_⟩
    rcases mem_insertCell hc with rfl | hc
    · exact hv
    · exact h.2 c hc

end Sys2Proof.SMap
end

