-- ==== Sys2Proof/Laws/Memory.lean ====
section
/-! SUPPORT. The laws of host memory: what a posted write leaves, what it leaves alone, and the canonical form. -/

namespace Sys2Proof.Machine

/-- A byte after a block has been written. -/
theorem get_writeBytes (m : SMap Byte) (addr : Nat) (bs : List Byte) (a : Nat) :
    (writeBytes m addr bs).get 0 a =
      if addr ≤ a ∧ a < addr + bs.length then bs.getD (a - addr) 0 else m.get 0 a := by
  induction bs generalizing m addr with
  | nil => simp [writeBytes]
  | cons b rest ih =>
    rw [writeBytes, ih, List.length_cons]
    by_cases h0 : a = addr
    · subst h0
      rw [if_neg (by omega), if_pos (by omega)]
      simp
    · rw [SMap.get_set_of_ne _ _ _ (fun h => h0 h.symm)]
      by_cases h1 : addr + 1 ≤ a ∧ a < addr + 1 + rest.length
      · rw [if_pos h1, if_pos (by omega)]
        obtain ⟨n, rfl⟩ : ∃ n, a = addr + 1 + n := ⟨a - (addr + 1), by omega⟩
        have h2 : addr + 1 + n - (addr + 1) = n := by omega
        have h3 : addr + 1 + n - addr = n + 1 := by omega
        rw [h2, h3, List.getD_cons_succ]
      · rw [if_neg h1, if_neg (by omega)]

/-- Addresses that a list of posted writes stores to. -/
def storedTo (ws : List (Nat × List Byte)) (a : Nat) : Prop :=
  ∃ w ∈ ws, w.1 ≤ a ∧ a < w.1 + w.2.length

/-- Posted writes leave every byte outside them alone. -/
theorem get_writeAll_outside (m : SMap Byte) (ws : List (Nat × List Byte)) (a : Nat) (h : ¬ storedTo ws a) :
    (writeAll m ws).get 0 a = m.get 0 a := by
  induction ws generalizing m with
  | nil => rfl
  | cons w rest ih =>
    obtain ⟨w1, w2⟩ := w
    rw [writeAll, ih, get_writeBytes, if_neg]
    · intro h1; exact h ⟨(w1, w2), List.mem_cons_self .., h1⟩
    · rintro ⟨x, hx, h1⟩; exact h ⟨x, List.mem_cons_of_mem _ hx, h1⟩

theorem wf_writeBytes {m : SMap Byte} (h : Memory.wf m = true) (addr : Nat) (bs : List Byte) :
    Memory.wf (writeBytes m addr bs) = true := by
  induction bs generalizing m addr with
  | nil => exact h
  | cons b rest ih => exact ih (SMap.wf_set h addr b) (addr + 1)

/-- Posted writes keep the canonical form of host memory. -/
theorem wf_writeAll {m : SMap Byte} (h : Memory.wf m = true) (ws : List (Nat × List Byte)) :
    Memory.wf (writeAll m ws) = true := by
  induction ws generalizing m with
  | nil => exact h
  | cons w rest ih => exact ih (wf_writeBytes h w.1 w.2)

theorem wf_reset : Memory.wf State.reset.mem = true := rfl

@[simp] theorem writeAll_nil (m : SMap Byte) : writeAll m [] = m := rfl

/-- A list of writes followed by another. -/
theorem writeAll_append (m : SMap Byte) (xs ys : List (Nat × List Byte)) :
    writeAll m (xs ++ ys) = writeAll (writeAll m xs) ys := by
  induction xs generalizing m with
  | nil => rfl
  | cons x rest ih => exact ih (writeBytes m x.1 x.2)

end Sys2Proof.Machine
end

