-- ==== Sys2Proof/Laws/State.lean ====
section
/-! SUPPORT. The laws of the state: one lemma per block and update of a block, and what a row does to the machine
around its own effect on the device. -/

namespace Sys2Proof.Machine

/-! ### One block replaced by a function of itself -/

@[simp] theorem Dev.onAng_ang (f : AngState → AngState) (d : Dev) : (d.onAng f).ang = f d.ang := rfl
@[simp] theorem Dev.onAng_regs (f : AngState → AngState) (d : Dev) : (d.onAng f).regs = d.regs := rfl
@[simp] theorem Dev.onAng_gfm (f : AngState → AngState) (d : Dev) : (d.onAng f).gfm = d.gfm := rfl
@[simp] theorem Dev.onAng_prof (f : AngState → AngState) (d : Dev) : (d.onAng f).prof = d.prof := rfl
@[simp] theorem Dev.onAng_loop (f : AngState → AngState) (d : Dev) : (d.onAng f).loop = d.loop := rfl
@[simp] theorem Dev.onAng_sup (f : AngState → AngState) (d : Dev) : (d.onAng f).sup = d.sup := rfl
@[simp] theorem Dev.onAng_mod (f : AngState → AngState) (d : Dev) : (d.onAng f).mod = d.mod := rfl
@[simp] theorem Dev.onAng_pwm (f : AngState → AngState) (d : Dev) : (d.onAng f).pwm = d.pwm := rfl
@[simp] theorem Dev.onAng_pen (f : AngState → AngState) (d : Dev) : (d.onAng f).pen = d.pen := rfl
@[simp] theorem Dev.onAng_pnt (f : AngState → AngState) (d : Dev) : (d.onAng f).pnt = d.pnt := rfl
@[simp] theorem Dev.onAng_adc (f : AngState → AngState) (d : Dev) : (d.onAng f).adc = d.adc := rfl
@[simp] theorem Dev.onAng_acq (f : AngState → AngState) (d : Dev) : (d.onAng f).acq = d.acq := rfl
@[simp] theorem Dev.onAng_clk (f : AngState → AngState) (d : Dev) : (d.onAng f).clk = d.clk := rfl
@[simp] theorem Dev.onAng_twn (f : AngState → AngState) (d : Dev) : (d.onAng f).twn = d.twn := rfl
@[simp] theorem Dev.onAng_fen (f : AngState → AngState) (d : Dev) : (d.onAng f).fen = d.fen := rfl
@[simp] theorem Dev.onAng_host (f : AngState → AngState) (d : Dev) : (d.onAng f).host = d.host := rfl
@[simp] theorem Dev.onAng_sec (f : AngState → AngState) (d : Dev) : (d.onAng f).sec = d.sec := rfl
@[simp] theorem Dev.onAng_hk (f : AngState → AngState) (d : Dev) : (d.onAng f).hk = d.hk := rfl
@[simp] theorem Dev.onAng_aux (f : AngState → AngState) (d : Dev) : (d.onAng f).aux = d.aux := rfl
@[simp] theorem Dev.onAng_lrd (f : AngState → AngState) (d : Dev) : (d.onAng f).lrd = d.lrd := rfl
@[simp] theorem Dev.onAng_sys (f : AngState → AngState) (d : Dev) : (d.onAng f).sys = d.sys := rfl
@[simp] theorem Dev.onAng_free (f : AngState → AngState) (d : Dev) : (d.onAng f).free = d.free := rfl

@[simp] theorem Dev.onGfm_gfm (f : GfmState → GfmState) (d : Dev) : (d.onGfm f).gfm = f d.gfm := rfl
@[simp] theorem Dev.onGfm_regs (f : GfmState → GfmState) (d : Dev) : (d.onGfm f).regs = d.regs := rfl
@[simp] theorem Dev.onGfm_ang (f : GfmState → GfmState) (d : Dev) : (d.onGfm f).ang = d.ang := rfl
@[simp] theorem Dev.onGfm_prof (f : GfmState → GfmState) (d : Dev) : (d.onGfm f).prof = d.prof := rfl
@[simp] theorem Dev.onGfm_loop (f : GfmState → GfmState) (d : Dev) : (d.onGfm f).loop = d.loop := rfl
@[simp] theorem Dev.onGfm_sup (f : GfmState → GfmState) (d : Dev) : (d.onGfm f).sup = d.sup := rfl
@[simp] theorem Dev.onGfm_mod (f : GfmState → GfmState) (d : Dev) : (d.onGfm f).mod = d.mod := rfl
@[simp] theorem Dev.onGfm_pwm (f : GfmState → GfmState) (d : Dev) : (d.onGfm f).pwm = d.pwm := rfl
@[simp] theorem Dev.onGfm_pen (f : GfmState → GfmState) (d : Dev) : (d.onGfm f).pen = d.pen := rfl
@[simp] theorem Dev.onGfm_pnt (f : GfmState → GfmState) (d : Dev) : (d.onGfm f).pnt = d.pnt := rfl
@[simp] theorem Dev.onGfm_adc (f : GfmState → GfmState) (d : Dev) : (d.onGfm f).adc = d.adc := rfl
@[simp] theorem Dev.onGfm_acq (f : GfmState → GfmState) (d : Dev) : (d.onGfm f).acq = d.acq := rfl
@[simp] theorem Dev.onGfm_clk (f : GfmState → GfmState) (d : Dev) : (d.onGfm f).clk = d.clk := rfl
@[simp] theorem Dev.onGfm_twn (f : GfmState → GfmState) (d : Dev) : (d.onGfm f).twn = d.twn := rfl
@[simp] theorem Dev.onGfm_fen (f : GfmState → GfmState) (d : Dev) : (d.onGfm f).fen = d.fen := rfl
@[simp] theorem Dev.onGfm_host (f : GfmState → GfmState) (d : Dev) : (d.onGfm f).host = d.host := rfl
@[simp] theorem Dev.onGfm_sec (f : GfmState → GfmState) (d : Dev) : (d.onGfm f).sec = d.sec := rfl
@[simp] theorem Dev.onGfm_hk (f : GfmState → GfmState) (d : Dev) : (d.onGfm f).hk = d.hk := rfl
@[simp] theorem Dev.onGfm_aux (f : GfmState → GfmState) (d : Dev) : (d.onGfm f).aux = d.aux := rfl
@[simp] theorem Dev.onGfm_lrd (f : GfmState → GfmState) (d : Dev) : (d.onGfm f).lrd = d.lrd := rfl
@[simp] theorem Dev.onGfm_sys (f : GfmState → GfmState) (d : Dev) : (d.onGfm f).sys = d.sys := rfl
@[simp] theorem Dev.onGfm_free (f : GfmState → GfmState) (d : Dev) : (d.onGfm f).free = d.free := rfl

@[simp] theorem Dev.onProf_prof (f : ProfState → ProfState) (d : Dev) : (d.onProf f).prof = f d.prof := rfl
@[simp] theorem Dev.onProf_regs (f : ProfState → ProfState) (d : Dev) : (d.onProf f).regs = d.regs := rfl
@[simp] theorem Dev.onProf_ang (f : ProfState → ProfState) (d : Dev) : (d.onProf f).ang = d.ang := rfl
@[simp] theorem Dev.onProf_gfm (f : ProfState → ProfState) (d : Dev) : (d.onProf f).gfm = d.gfm := rfl
@[simp] theorem Dev.onProf_loop (f : ProfState → ProfState) (d : Dev) : (d.onProf f).loop = d.loop := rfl
@[simp] theorem Dev.onProf_sup (f : ProfState → ProfState) (d : Dev) : (d.onProf f).sup = d.sup := rfl
@[simp] theorem Dev.onProf_mod (f : ProfState → ProfState) (d : Dev) : (d.onProf f).mod = d.mod := rfl
@[simp] theorem Dev.onProf_pwm (f : ProfState → ProfState) (d : Dev) : (d.onProf f).pwm = d.pwm := rfl
@[simp] theorem Dev.onProf_pen (f : ProfState → ProfState) (d : Dev) : (d.onProf f).pen = d.pen := rfl
@[simp] theorem Dev.onProf_pnt (f : ProfState → ProfState) (d : Dev) : (d.onProf f).pnt = d.pnt := rfl
@[simp] theorem Dev.onProf_adc (f : ProfState → ProfState) (d : Dev) : (d.onProf f).adc = d.adc := rfl
@[simp] theorem Dev.onProf_acq (f : ProfState → ProfState) (d : Dev) : (d.onProf f).acq = d.acq := rfl
@[simp] theorem Dev.onProf_clk (f : ProfState → ProfState) (d : Dev) : (d.onProf f).clk = d.clk := rfl
@[simp] theorem Dev.onProf_twn (f : ProfState → ProfState) (d : Dev) : (d.onProf f).twn = d.twn := rfl
@[simp] theorem Dev.onProf_fen (f : ProfState → ProfState) (d : Dev) : (d.onProf f).fen = d.fen := rfl
@[simp] theorem Dev.onProf_host (f : ProfState → ProfState) (d : Dev) : (d.onProf f).host = d.host := rfl
@[simp] theorem Dev.onProf_sec (f : ProfState → ProfState) (d : Dev) : (d.onProf f).sec = d.sec := rfl
@[simp] theorem Dev.onProf_hk (f : ProfState → ProfState) (d : Dev) : (d.onProf f).hk = d.hk := rfl
@[simp] theorem Dev.onProf_aux (f : ProfState → ProfState) (d : Dev) : (d.onProf f).aux = d.aux := rfl
@[simp] theorem Dev.onProf_lrd (f : ProfState → ProfState) (d : Dev) : (d.onProf f).lrd = d.lrd := rfl
@[simp] theorem Dev.onProf_sys (f : ProfState → ProfState) (d : Dev) : (d.onProf f).sys = d.sys := rfl
@[simp] theorem Dev.onProf_free (f : ProfState → ProfState) (d : Dev) : (d.onProf f).free = d.free := rfl

@[simp] theorem Dev.onLoop_loop (f : LoopState → LoopState) (d : Dev) : (d.onLoop f).loop = f d.loop := rfl
@[simp] theorem Dev.onLoop_regs (f : LoopState → LoopState) (d : Dev) : (d.onLoop f).regs = d.regs := rfl
@[simp] theorem Dev.onLoop_ang (f : LoopState → LoopState) (d : Dev) : (d.onLoop f).ang = d.ang := rfl
@[simp] theorem Dev.onLoop_gfm (f : LoopState → LoopState) (d : Dev) : (d.onLoop f).gfm = d.gfm := rfl
@[simp] theorem Dev.onLoop_prof (f : LoopState → LoopState) (d : Dev) : (d.onLoop f).prof = d.prof := rfl
@[simp] theorem Dev.onLoop_sup (f : LoopState → LoopState) (d : Dev) : (d.onLoop f).sup = d.sup := rfl
@[simp] theorem Dev.onLoop_mod (f : LoopState → LoopState) (d : Dev) : (d.onLoop f).mod = d.mod := rfl
@[simp] theorem Dev.onLoop_pwm (f : LoopState → LoopState) (d : Dev) : (d.onLoop f).pwm = d.pwm := rfl
@[simp] theorem Dev.onLoop_pen (f : LoopState → LoopState) (d : Dev) : (d.onLoop f).pen = d.pen := rfl
@[simp] theorem Dev.onLoop_pnt (f : LoopState → LoopState) (d : Dev) : (d.onLoop f).pnt = d.pnt := rfl
@[simp] theorem Dev.onLoop_adc (f : LoopState → LoopState) (d : Dev) : (d.onLoop f).adc = d.adc := rfl
@[simp] theorem Dev.onLoop_acq (f : LoopState → LoopState) (d : Dev) : (d.onLoop f).acq = d.acq := rfl
@[simp] theorem Dev.onLoop_clk (f : LoopState → LoopState) (d : Dev) : (d.onLoop f).clk = d.clk := rfl
@[simp] theorem Dev.onLoop_twn (f : LoopState → LoopState) (d : Dev) : (d.onLoop f).twn = d.twn := rfl
@[simp] theorem Dev.onLoop_fen (f : LoopState → LoopState) (d : Dev) : (d.onLoop f).fen = d.fen := rfl
@[simp] theorem Dev.onLoop_host (f : LoopState → LoopState) (d : Dev) : (d.onLoop f).host = d.host := rfl
@[simp] theorem Dev.onLoop_sec (f : LoopState → LoopState) (d : Dev) : (d.onLoop f).sec = d.sec := rfl
@[simp] theorem Dev.onLoop_hk (f : LoopState → LoopState) (d : Dev) : (d.onLoop f).hk = d.hk := rfl
@[simp] theorem Dev.onLoop_aux (f : LoopState → LoopState) (d : Dev) : (d.onLoop f).aux = d.aux := rfl
@[simp] theorem Dev.onLoop_lrd (f : LoopState → LoopState) (d : Dev) : (d.onLoop f).lrd = d.lrd := rfl
@[simp] theorem Dev.onLoop_sys (f : LoopState → LoopState) (d : Dev) : (d.onLoop f).sys = d.sys := rfl
@[simp] theorem Dev.onLoop_free (f : LoopState → LoopState) (d : Dev) : (d.onLoop f).free = d.free := rfl

@[simp] theorem Dev.onSup_sup (f : SupState → SupState) (d : Dev) : (d.onSup f).sup = f d.sup := rfl
@[simp] theorem Dev.onSup_regs (f : SupState → SupState) (d : Dev) : (d.onSup f).regs = d.regs := rfl
@[simp] theorem Dev.onSup_ang (f : SupState → SupState) (d : Dev) : (d.onSup f).ang = d.ang := rfl
@[simp] theorem Dev.onSup_gfm (f : SupState → SupState) (d : Dev) : (d.onSup f).gfm = d.gfm := rfl
@[simp] theorem Dev.onSup_prof (f : SupState → SupState) (d : Dev) : (d.onSup f).prof = d.prof := rfl
@[simp] theorem Dev.onSup_loop (f : SupState → SupState) (d : Dev) : (d.onSup f).loop = d.loop := rfl
@[simp] theorem Dev.onSup_mod (f : SupState → SupState) (d : Dev) : (d.onSup f).mod = d.mod := rfl
@[simp] theorem Dev.onSup_pwm (f : SupState → SupState) (d : Dev) : (d.onSup f).pwm = d.pwm := rfl
@[simp] theorem Dev.onSup_pen (f : SupState → SupState) (d : Dev) : (d.onSup f).pen = d.pen := rfl
@[simp] theorem Dev.onSup_pnt (f : SupState → SupState) (d : Dev) : (d.onSup f).pnt = d.pnt := rfl
@[simp] theorem Dev.onSup_adc (f : SupState → SupState) (d : Dev) : (d.onSup f).adc = d.adc := rfl
@[simp] theorem Dev.onSup_acq (f : SupState → SupState) (d : Dev) : (d.onSup f).acq = d.acq := rfl
@[simp] theorem Dev.onSup_clk (f : SupState → SupState) (d : Dev) : (d.onSup f).clk = d.clk := rfl
@[simp] theorem Dev.onSup_twn (f : SupState → SupState) (d : Dev) : (d.onSup f).twn = d.twn := rfl
@[simp] theorem Dev.onSup_fen (f : SupState → SupState) (d : Dev) : (d.onSup f).fen = d.fen := rfl
@[simp] theorem Dev.onSup_host (f : SupState → SupState) (d : Dev) : (d.onSup f).host = d.host := rfl
@[simp] theorem Dev.onSup_sec (f : SupState → SupState) (d : Dev) : (d.onSup f).sec = d.sec := rfl
@[simp] theorem Dev.onSup_hk (f : SupState → SupState) (d : Dev) : (d.onSup f).hk = d.hk := rfl
@[simp] theorem Dev.onSup_aux (f : SupState → SupState) (d : Dev) : (d.onSup f).aux = d.aux := rfl
@[simp] theorem Dev.onSup_lrd (f : SupState → SupState) (d : Dev) : (d.onSup f).lrd = d.lrd := rfl
@[simp] theorem Dev.onSup_sys (f : SupState → SupState) (d : Dev) : (d.onSup f).sys = d.sys := rfl
@[simp] theorem Dev.onSup_free (f : SupState → SupState) (d : Dev) : (d.onSup f).free = d.free := rfl

@[simp] theorem Dev.onMod_mod (f : ModState → ModState) (d : Dev) : (d.onMod f).mod = f d.mod := rfl
@[simp] theorem Dev.onMod_regs (f : ModState → ModState) (d : Dev) : (d.onMod f).regs = d.regs := rfl
@[simp] theorem Dev.onMod_ang (f : ModState → ModState) (d : Dev) : (d.onMod f).ang = d.ang := rfl
@[simp] theorem Dev.onMod_gfm (f : ModState → ModState) (d : Dev) : (d.onMod f).gfm = d.gfm := rfl
@[simp] theorem Dev.onMod_prof (f : ModState → ModState) (d : Dev) : (d.onMod f).prof = d.prof := rfl
@[simp] theorem Dev.onMod_loop (f : ModState → ModState) (d : Dev) : (d.onMod f).loop = d.loop := rfl
@[simp] theorem Dev.onMod_sup (f : ModState → ModState) (d : Dev) : (d.onMod f).sup = d.sup := rfl
@[simp] theorem Dev.onMod_pwm (f : ModState → ModState) (d : Dev) : (d.onMod f).pwm = d.pwm := rfl
@[simp] theorem Dev.onMod_pen (f : ModState → ModState) (d : Dev) : (d.onMod f).pen = d.pen := rfl
@[simp] theorem Dev.onMod_pnt (f : ModState → ModState) (d : Dev) : (d.onMod f).pnt = d.pnt := rfl
@[simp] theorem Dev.onMod_adc (f : ModState → ModState) (d : Dev) : (d.onMod f).adc = d.adc := rfl
@[simp] theorem Dev.onMod_acq (f : ModState → ModState) (d : Dev) : (d.onMod f).acq = d.acq := rfl
@[simp] theorem Dev.onMod_clk (f : ModState → ModState) (d : Dev) : (d.onMod f).clk = d.clk := rfl
@[simp] theorem Dev.onMod_twn (f : ModState → ModState) (d : Dev) : (d.onMod f).twn = d.twn := rfl
@[simp] theorem Dev.onMod_fen (f : ModState → ModState) (d : Dev) : (d.onMod f).fen = d.fen := rfl
@[simp] theorem Dev.onMod_host (f : ModState → ModState) (d : Dev) : (d.onMod f).host = d.host := rfl
@[simp] theorem Dev.onMod_sec (f : ModState → ModState) (d : Dev) : (d.onMod f).sec = d.sec := rfl
@[simp] theorem Dev.onMod_hk (f : ModState → ModState) (d : Dev) : (d.onMod f).hk = d.hk := rfl
@[simp] theorem Dev.onMod_aux (f : ModState → ModState) (d : Dev) : (d.onMod f).aux = d.aux := rfl
@[simp] theorem Dev.onMod_lrd (f : ModState → ModState) (d : Dev) : (d.onMod f).lrd = d.lrd := rfl
@[simp] theorem Dev.onMod_sys (f : ModState → ModState) (d : Dev) : (d.onMod f).sys = d.sys := rfl
@[simp] theorem Dev.onMod_free (f : ModState → ModState) (d : Dev) : (d.onMod f).free = d.free := rfl

@[simp] theorem Dev.onPwm_pwm (f : PwmState → PwmState) (d : Dev) : (d.onPwm f).pwm = f d.pwm := rfl
@[simp] theorem Dev.onPwm_regs (f : PwmState → PwmState) (d : Dev) : (d.onPwm f).regs = d.regs := rfl
@[simp] theorem Dev.onPwm_ang (f : PwmState → PwmState) (d : Dev) : (d.onPwm f).ang = d.ang := rfl
@[simp] theorem Dev.onPwm_gfm (f : PwmState → PwmState) (d : Dev) : (d.onPwm f).gfm = d.gfm := rfl
@[simp] theorem Dev.onPwm_prof (f : PwmState → PwmState) (d : Dev) : (d.onPwm f).prof = d.prof := rfl
@[simp] theorem Dev.onPwm_loop (f : PwmState → PwmState) (d : Dev) : (d.onPwm f).loop = d.loop := rfl
@[simp] theorem Dev.onPwm_sup (f : PwmState → PwmState) (d : Dev) : (d.onPwm f).sup = d.sup := rfl
@[simp] theorem Dev.onPwm_mod (f : PwmState → PwmState) (d : Dev) : (d.onPwm f).mod = d.mod := rfl
@[simp] theorem Dev.onPwm_pen (f : PwmState → PwmState) (d : Dev) : (d.onPwm f).pen = d.pen := rfl
@[simp] theorem Dev.onPwm_pnt (f : PwmState → PwmState) (d : Dev) : (d.onPwm f).pnt = d.pnt := rfl
@[simp] theorem Dev.onPwm_adc (f : PwmState → PwmState) (d : Dev) : (d.onPwm f).adc = d.adc := rfl
@[simp] theorem Dev.onPwm_acq (f : PwmState → PwmState) (d : Dev) : (d.onPwm f).acq = d.acq := rfl
@[simp] theorem Dev.onPwm_clk (f : PwmState → PwmState) (d : Dev) : (d.onPwm f).clk = d.clk := rfl
@[simp] theorem Dev.onPwm_twn (f : PwmState → PwmState) (d : Dev) : (d.onPwm f).twn = d.twn := rfl
@[simp] theorem Dev.onPwm_fen (f : PwmState → PwmState) (d : Dev) : (d.onPwm f).fen = d.fen := rfl
@[simp] theorem Dev.onPwm_host (f : PwmState → PwmState) (d : Dev) : (d.onPwm f).host = d.host := rfl
@[simp] theorem Dev.onPwm_sec (f : PwmState → PwmState) (d : Dev) : (d.onPwm f).sec = d.sec := rfl
@[simp] theorem Dev.onPwm_hk (f : PwmState → PwmState) (d : Dev) : (d.onPwm f).hk = d.hk := rfl
@[simp] theorem Dev.onPwm_aux (f : PwmState → PwmState) (d : Dev) : (d.onPwm f).aux = d.aux := rfl
@[simp] theorem Dev.onPwm_lrd (f : PwmState → PwmState) (d : Dev) : (d.onPwm f).lrd = d.lrd := rfl
@[simp] theorem Dev.onPwm_sys (f : PwmState → PwmState) (d : Dev) : (d.onPwm f).sys = d.sys := rfl
@[simp] theorem Dev.onPwm_free (f : PwmState → PwmState) (d : Dev) : (d.onPwm f).free = d.free := rfl

@[simp] theorem Dev.onPen_pen (f : PenState → PenState) (d : Dev) : (d.onPen f).pen = f d.pen := rfl
@[simp] theorem Dev.onPen_regs (f : PenState → PenState) (d : Dev) : (d.onPen f).regs = d.regs := rfl
@[simp] theorem Dev.onPen_ang (f : PenState → PenState) (d : Dev) : (d.onPen f).ang = d.ang := rfl
@[simp] theorem Dev.onPen_gfm (f : PenState → PenState) (d : Dev) : (d.onPen f).gfm = d.gfm := rfl
@[simp] theorem Dev.onPen_prof (f : PenState → PenState) (d : Dev) : (d.onPen f).prof = d.prof := rfl
@[simp] theorem Dev.onPen_loop (f : PenState → PenState) (d : Dev) : (d.onPen f).loop = d.loop := rfl
@[simp] theorem Dev.onPen_sup (f : PenState → PenState) (d : Dev) : (d.onPen f).sup = d.sup := rfl
@[simp] theorem Dev.onPen_mod (f : PenState → PenState) (d : Dev) : (d.onPen f).mod = d.mod := rfl
@[simp] theorem Dev.onPen_pwm (f : PenState → PenState) (d : Dev) : (d.onPen f).pwm = d.pwm := rfl
@[simp] theorem Dev.onPen_pnt (f : PenState → PenState) (d : Dev) : (d.onPen f).pnt = d.pnt := rfl
@[simp] theorem Dev.onPen_adc (f : PenState → PenState) (d : Dev) : (d.onPen f).adc = d.adc := rfl
@[simp] theorem Dev.onPen_acq (f : PenState → PenState) (d : Dev) : (d.onPen f).acq = d.acq := rfl
@[simp] theorem Dev.onPen_clk (f : PenState → PenState) (d : Dev) : (d.onPen f).clk = d.clk := rfl
@[simp] theorem Dev.onPen_twn (f : PenState → PenState) (d : Dev) : (d.onPen f).twn = d.twn := rfl
@[simp] theorem Dev.onPen_fen (f : PenState → PenState) (d : Dev) : (d.onPen f).fen = d.fen := rfl
@[simp] theorem Dev.onPen_host (f : PenState → PenState) (d : Dev) : (d.onPen f).host = d.host := rfl
@[simp] theorem Dev.onPen_sec (f : PenState → PenState) (d : Dev) : (d.onPen f).sec = d.sec := rfl
@[simp] theorem Dev.onPen_hk (f : PenState → PenState) (d : Dev) : (d.onPen f).hk = d.hk := rfl
@[simp] theorem Dev.onPen_aux (f : PenState → PenState) (d : Dev) : (d.onPen f).aux = d.aux := rfl
@[simp] theorem Dev.onPen_lrd (f : PenState → PenState) (d : Dev) : (d.onPen f).lrd = d.lrd := rfl
@[simp] theorem Dev.onPen_sys (f : PenState → PenState) (d : Dev) : (d.onPen f).sys = d.sys := rfl
@[simp] theorem Dev.onPen_free (f : PenState → PenState) (d : Dev) : (d.onPen f).free = d.free := rfl

@[simp] theorem Dev.onPnt_pnt (f : PntState → PntState) (d : Dev) : (d.onPnt f).pnt = f d.pnt := rfl
@[simp] theorem Dev.onPnt_regs (f : PntState → PntState) (d : Dev) : (d.onPnt f).regs = d.regs := rfl
@[simp] theorem Dev.onPnt_ang (f : PntState → PntState) (d : Dev) : (d.onPnt f).ang = d.ang := rfl
@[simp] theorem Dev.onPnt_gfm (f : PntState → PntState) (d : Dev) : (d.onPnt f).gfm = d.gfm := rfl
@[simp] theorem Dev.onPnt_prof (f : PntState → PntState) (d : Dev) : (d.onPnt f).prof = d.prof := rfl
@[simp] theorem Dev.onPnt_loop (f : PntState → PntState) (d : Dev) : (d.onPnt f).loop = d.loop := rfl
@[simp] theorem Dev.onPnt_sup (f : PntState → PntState) (d : Dev) : (d.onPnt f).sup = d.sup := rfl
@[simp] theorem Dev.onPnt_mod (f : PntState → PntState) (d : Dev) : (d.onPnt f).mod = d.mod := rfl
@[simp] theorem Dev.onPnt_pwm (f : PntState → PntState) (d : Dev) : (d.onPnt f).pwm = d.pwm := rfl
@[simp] theorem Dev.onPnt_pen (f : PntState → PntState) (d : Dev) : (d.onPnt f).pen = d.pen := rfl
@[simp] theorem Dev.onPnt_adc (f : PntState → PntState) (d : Dev) : (d.onPnt f).adc = d.adc := rfl
@[simp] theorem Dev.onPnt_acq (f : PntState → PntState) (d : Dev) : (d.onPnt f).acq = d.acq := rfl
@[simp] theorem Dev.onPnt_clk (f : PntState → PntState) (d : Dev) : (d.onPnt f).clk = d.clk := rfl
@[simp] theorem Dev.onPnt_twn (f : PntState → PntState) (d : Dev) : (d.onPnt f).twn = d.twn := rfl
@[simp] theorem Dev.onPnt_fen (f : PntState → PntState) (d : Dev) : (d.onPnt f).fen = d.fen := rfl
@[simp] theorem Dev.onPnt_host (f : PntState → PntState) (d : Dev) : (d.onPnt f).host = d.host := rfl
@[simp] theorem Dev.onPnt_sec (f : PntState → PntState) (d : Dev) : (d.onPnt f).sec = d.sec := rfl
@[simp] theorem Dev.onPnt_hk (f : PntState → PntState) (d : Dev) : (d.onPnt f).hk = d.hk := rfl
@[simp] theorem Dev.onPnt_aux (f : PntState → PntState) (d : Dev) : (d.onPnt f).aux = d.aux := rfl
@[simp] theorem Dev.onPnt_lrd (f : PntState → PntState) (d : Dev) : (d.onPnt f).lrd = d.lrd := rfl
@[simp] theorem Dev.onPnt_sys (f : PntState → PntState) (d : Dev) : (d.onPnt f).sys = d.sys := rfl
@[simp] theorem Dev.onPnt_free (f : PntState → PntState) (d : Dev) : (d.onPnt f).free = d.free := rfl

@[simp] theorem Dev.onAdc_adc (f : AdcState → AdcState) (d : Dev) : (d.onAdc f).adc = f d.adc := rfl
@[simp] theorem Dev.onAdc_regs (f : AdcState → AdcState) (d : Dev) : (d.onAdc f).regs = d.regs := rfl
@[simp] theorem Dev.onAdc_ang (f : AdcState → AdcState) (d : Dev) : (d.onAdc f).ang = d.ang := rfl
@[simp] theorem Dev.onAdc_gfm (f : AdcState → AdcState) (d : Dev) : (d.onAdc f).gfm = d.gfm := rfl
@[simp] theorem Dev.onAdc_prof (f : AdcState → AdcState) (d : Dev) : (d.onAdc f).prof = d.prof := rfl
@[simp] theorem Dev.onAdc_loop (f : AdcState → AdcState) (d : Dev) : (d.onAdc f).loop = d.loop := rfl
@[simp] theorem Dev.onAdc_sup (f : AdcState → AdcState) (d : Dev) : (d.onAdc f).sup = d.sup := rfl
@[simp] theorem Dev.onAdc_mod (f : AdcState → AdcState) (d : Dev) : (d.onAdc f).mod = d.mod := rfl
@[simp] theorem Dev.onAdc_pwm (f : AdcState → AdcState) (d : Dev) : (d.onAdc f).pwm = d.pwm := rfl
@[simp] theorem Dev.onAdc_pen (f : AdcState → AdcState) (d : Dev) : (d.onAdc f).pen = d.pen := rfl
@[simp] theorem Dev.onAdc_pnt (f : AdcState → AdcState) (d : Dev) : (d.onAdc f).pnt = d.pnt := rfl
@[simp] theorem Dev.onAdc_acq (f : AdcState → AdcState) (d : Dev) : (d.onAdc f).acq = d.acq := rfl
@[simp] theorem Dev.onAdc_clk (f : AdcState → AdcState) (d : Dev) : (d.onAdc f).clk = d.clk := rfl
@[simp] theorem Dev.onAdc_twn (f : AdcState → AdcState) (d : Dev) : (d.onAdc f).twn = d.twn := rfl
@[simp] theorem Dev.onAdc_fen (f : AdcState → AdcState) (d : Dev) : (d.onAdc f).fen = d.fen := rfl
@[simp] theorem Dev.onAdc_host (f : AdcState → AdcState) (d : Dev) : (d.onAdc f).host = d.host := rfl
@[simp] theorem Dev.onAdc_sec (f : AdcState → AdcState) (d : Dev) : (d.onAdc f).sec = d.sec := rfl
@[simp] theorem Dev.onAdc_hk (f : AdcState → AdcState) (d : Dev) : (d.onAdc f).hk = d.hk := rfl
@[simp] theorem Dev.onAdc_aux (f : AdcState → AdcState) (d : Dev) : (d.onAdc f).aux = d.aux := rfl
@[simp] theorem Dev.onAdc_lrd (f : AdcState → AdcState) (d : Dev) : (d.onAdc f).lrd = d.lrd := rfl
@[simp] theorem Dev.onAdc_sys (f : AdcState → AdcState) (d : Dev) : (d.onAdc f).sys = d.sys := rfl
@[simp] theorem Dev.onAdc_free (f : AdcState → AdcState) (d : Dev) : (d.onAdc f).free = d.free := rfl

@[simp] theorem Dev.onAcq_acq (f : AcqState → AcqState) (d : Dev) : (d.onAcq f).acq = f d.acq := rfl
@[simp] theorem Dev.onAcq_regs (f : AcqState → AcqState) (d : Dev) : (d.onAcq f).regs = d.regs := rfl
@[simp] theorem Dev.onAcq_ang (f : AcqState → AcqState) (d : Dev) : (d.onAcq f).ang = d.ang := rfl
@[simp] theorem Dev.onAcq_gfm (f : AcqState → AcqState) (d : Dev) : (d.onAcq f).gfm = d.gfm := rfl
@[simp] theorem Dev.onAcq_prof (f : AcqState → AcqState) (d : Dev) : (d.onAcq f).prof = d.prof := rfl
@[simp] theorem Dev.onAcq_loop (f : AcqState → AcqState) (d : Dev) : (d.onAcq f).loop = d.loop := rfl
@[simp] theorem Dev.onAcq_sup (f : AcqState → AcqState) (d : Dev) : (d.onAcq f).sup = d.sup := rfl
@[simp] theorem Dev.onAcq_mod (f : AcqState → AcqState) (d : Dev) : (d.onAcq f).mod = d.mod := rfl
@[simp] theorem Dev.onAcq_pwm (f : AcqState → AcqState) (d : Dev) : (d.onAcq f).pwm = d.pwm := rfl
@[simp] theorem Dev.onAcq_pen (f : AcqState → AcqState) (d : Dev) : (d.onAcq f).pen = d.pen := rfl
@[simp] theorem Dev.onAcq_pnt (f : AcqState → AcqState) (d : Dev) : (d.onAcq f).pnt = d.pnt := rfl
@[simp] theorem Dev.onAcq_adc (f : AcqState → AcqState) (d : Dev) : (d.onAcq f).adc = d.adc := rfl
@[simp] theorem Dev.onAcq_clk (f : AcqState → AcqState) (d : Dev) : (d.onAcq f).clk = d.clk := rfl
@[simp] theorem Dev.onAcq_twn (f : AcqState → AcqState) (d : Dev) : (d.onAcq f).twn = d.twn := rfl
@[simp] theorem Dev.onAcq_fen (f : AcqState → AcqState) (d : Dev) : (d.onAcq f).fen = d.fen := rfl
@[simp] theorem Dev.onAcq_host (f : AcqState → AcqState) (d : Dev) : (d.onAcq f).host = d.host := rfl
@[simp] theorem Dev.onAcq_sec (f : AcqState → AcqState) (d : Dev) : (d.onAcq f).sec = d.sec := rfl
@[simp] theorem Dev.onAcq_hk (f : AcqState → AcqState) (d : Dev) : (d.onAcq f).hk = d.hk := rfl
@[simp] theorem Dev.onAcq_aux (f : AcqState → AcqState) (d : Dev) : (d.onAcq f).aux = d.aux := rfl
@[simp] theorem Dev.onAcq_lrd (f : AcqState → AcqState) (d : Dev) : (d.onAcq f).lrd = d.lrd := rfl
@[simp] theorem Dev.onAcq_sys (f : AcqState → AcqState) (d : Dev) : (d.onAcq f).sys = d.sys := rfl
@[simp] theorem Dev.onAcq_free (f : AcqState → AcqState) (d : Dev) : (d.onAcq f).free = d.free := rfl

@[simp] theorem Dev.onClk_clk (f : ClkState → ClkState) (d : Dev) : (d.onClk f).clk = f d.clk := rfl
@[simp] theorem Dev.onClk_regs (f : ClkState → ClkState) (d : Dev) : (d.onClk f).regs = d.regs := rfl
@[simp] theorem Dev.onClk_ang (f : ClkState → ClkState) (d : Dev) : (d.onClk f).ang = d.ang := rfl
@[simp] theorem Dev.onClk_gfm (f : ClkState → ClkState) (d : Dev) : (d.onClk f).gfm = d.gfm := rfl
@[simp] theorem Dev.onClk_prof (f : ClkState → ClkState) (d : Dev) : (d.onClk f).prof = d.prof := rfl
@[simp] theorem Dev.onClk_loop (f : ClkState → ClkState) (d : Dev) : (d.onClk f).loop = d.loop := rfl
@[simp] theorem Dev.onClk_sup (f : ClkState → ClkState) (d : Dev) : (d.onClk f).sup = d.sup := rfl
@[simp] theorem Dev.onClk_mod (f : ClkState → ClkState) (d : Dev) : (d.onClk f).mod = d.mod := rfl
@[simp] theorem Dev.onClk_pwm (f : ClkState → ClkState) (d : Dev) : (d.onClk f).pwm = d.pwm := rfl
@[simp] theorem Dev.onClk_pen (f : ClkState → ClkState) (d : Dev) : (d.onClk f).pen = d.pen := rfl
@[simp] theorem Dev.onClk_pnt (f : ClkState → ClkState) (d : Dev) : (d.onClk f).pnt = d.pnt := rfl
@[simp] theorem Dev.onClk_adc (f : ClkState → ClkState) (d : Dev) : (d.onClk f).adc = d.adc := rfl
@[simp] theorem Dev.onClk_acq (f : ClkState → ClkState) (d : Dev) : (d.onClk f).acq = d.acq := rfl
@[simp] theorem Dev.onClk_twn (f : ClkState → ClkState) (d : Dev) : (d.onClk f).twn = d.twn := rfl
@[simp] theorem Dev.onClk_fen (f : ClkState → ClkState) (d : Dev) : (d.onClk f).fen = d.fen := rfl
@[simp] theorem Dev.onClk_host (f : ClkState → ClkState) (d : Dev) : (d.onClk f).host = d.host := rfl
@[simp] theorem Dev.onClk_sec (f : ClkState → ClkState) (d : Dev) : (d.onClk f).sec = d.sec := rfl
@[simp] theorem Dev.onClk_hk (f : ClkState → ClkState) (d : Dev) : (d.onClk f).hk = d.hk := rfl
@[simp] theorem Dev.onClk_aux (f : ClkState → ClkState) (d : Dev) : (d.onClk f).aux = d.aux := rfl
@[simp] theorem Dev.onClk_lrd (f : ClkState → ClkState) (d : Dev) : (d.onClk f).lrd = d.lrd := rfl
@[simp] theorem Dev.onClk_sys (f : ClkState → ClkState) (d : Dev) : (d.onClk f).sys = d.sys := rfl
@[simp] theorem Dev.onClk_free (f : ClkState → ClkState) (d : Dev) : (d.onClk f).free = d.free := rfl

@[simp] theorem Dev.onTwn_twn (f : TwnState → TwnState) (d : Dev) : (d.onTwn f).twn = f d.twn := rfl
@[simp] theorem Dev.onTwn_regs (f : TwnState → TwnState) (d : Dev) : (d.onTwn f).regs = d.regs := rfl
@[simp] theorem Dev.onTwn_ang (f : TwnState → TwnState) (d : Dev) : (d.onTwn f).ang = d.ang := rfl
@[simp] theorem Dev.onTwn_gfm (f : TwnState → TwnState) (d : Dev) : (d.onTwn f).gfm = d.gfm := rfl
@[simp] theorem Dev.onTwn_prof (f : TwnState → TwnState) (d : Dev) : (d.onTwn f).prof = d.prof := rfl
@[simp] theorem Dev.onTwn_loop (f : TwnState → TwnState) (d : Dev) : (d.onTwn f).loop = d.loop := rfl
@[simp] theorem Dev.onTwn_sup (f : TwnState → TwnState) (d : Dev) : (d.onTwn f).sup = d.sup := rfl
@[simp] theorem Dev.onTwn_mod (f : TwnState → TwnState) (d : Dev) : (d.onTwn f).mod = d.mod := rfl
@[simp] theorem Dev.onTwn_pwm (f : TwnState → TwnState) (d : Dev) : (d.onTwn f).pwm = d.pwm := rfl
@[simp] theorem Dev.onTwn_pen (f : TwnState → TwnState) (d : Dev) : (d.onTwn f).pen = d.pen := rfl
@[simp] theorem Dev.onTwn_pnt (f : TwnState → TwnState) (d : Dev) : (d.onTwn f).pnt = d.pnt := rfl
@[simp] theorem Dev.onTwn_adc (f : TwnState → TwnState) (d : Dev) : (d.onTwn f).adc = d.adc := rfl
@[simp] theorem Dev.onTwn_acq (f : TwnState → TwnState) (d : Dev) : (d.onTwn f).acq = d.acq := rfl
@[simp] theorem Dev.onTwn_clk (f : TwnState → TwnState) (d : Dev) : (d.onTwn f).clk = d.clk := rfl
@[simp] theorem Dev.onTwn_fen (f : TwnState → TwnState) (d : Dev) : (d.onTwn f).fen = d.fen := rfl
@[simp] theorem Dev.onTwn_host (f : TwnState → TwnState) (d : Dev) : (d.onTwn f).host = d.host := rfl
@[simp] theorem Dev.onTwn_sec (f : TwnState → TwnState) (d : Dev) : (d.onTwn f).sec = d.sec := rfl
@[simp] theorem Dev.onTwn_hk (f : TwnState → TwnState) (d : Dev) : (d.onTwn f).hk = d.hk := rfl
@[simp] theorem Dev.onTwn_aux (f : TwnState → TwnState) (d : Dev) : (d.onTwn f).aux = d.aux := rfl
@[simp] theorem Dev.onTwn_lrd (f : TwnState → TwnState) (d : Dev) : (d.onTwn f).lrd = d.lrd := rfl
@[simp] theorem Dev.onTwn_sys (f : TwnState → TwnState) (d : Dev) : (d.onTwn f).sys = d.sys := rfl
@[simp] theorem Dev.onTwn_free (f : TwnState → TwnState) (d : Dev) : (d.onTwn f).free = d.free := rfl

@[simp] theorem Dev.onFen_fen (f : FenState → FenState) (d : Dev) : (d.onFen f).fen = f d.fen := rfl
@[simp] theorem Dev.onFen_regs (f : FenState → FenState) (d : Dev) : (d.onFen f).regs = d.regs := rfl
@[simp] theorem Dev.onFen_ang (f : FenState → FenState) (d : Dev) : (d.onFen f).ang = d.ang := rfl
@[simp] theorem Dev.onFen_gfm (f : FenState → FenState) (d : Dev) : (d.onFen f).gfm = d.gfm := rfl
@[simp] theorem Dev.onFen_prof (f : FenState → FenState) (d : Dev) : (d.onFen f).prof = d.prof := rfl
@[simp] theorem Dev.onFen_loop (f : FenState → FenState) (d : Dev) : (d.onFen f).loop = d.loop := rfl
@[simp] theorem Dev.onFen_sup (f : FenState → FenState) (d : Dev) : (d.onFen f).sup = d.sup := rfl
@[simp] theorem Dev.onFen_mod (f : FenState → FenState) (d : Dev) : (d.onFen f).mod = d.mod := rfl
@[simp] theorem Dev.onFen_pwm (f : FenState → FenState) (d : Dev) : (d.onFen f).pwm = d.pwm := rfl
@[simp] theorem Dev.onFen_pen (f : FenState → FenState) (d : Dev) : (d.onFen f).pen = d.pen := rfl
@[simp] theorem Dev.onFen_pnt (f : FenState → FenState) (d : Dev) : (d.onFen f).pnt = d.pnt := rfl
@[simp] theorem Dev.onFen_adc (f : FenState → FenState) (d : Dev) : (d.onFen f).adc = d.adc := rfl
@[simp] theorem Dev.onFen_acq (f : FenState → FenState) (d : Dev) : (d.onFen f).acq = d.acq := rfl
@[simp] theorem Dev.onFen_clk (f : FenState → FenState) (d : Dev) : (d.onFen f).clk = d.clk := rfl
@[simp] theorem Dev.onFen_twn (f : FenState → FenState) (d : Dev) : (d.onFen f).twn = d.twn := rfl
@[simp] theorem Dev.onFen_host (f : FenState → FenState) (d : Dev) : (d.onFen f).host = d.host := rfl
@[simp] theorem Dev.onFen_sec (f : FenState → FenState) (d : Dev) : (d.onFen f).sec = d.sec := rfl
@[simp] theorem Dev.onFen_hk (f : FenState → FenState) (d : Dev) : (d.onFen f).hk = d.hk := rfl
@[simp] theorem Dev.onFen_aux (f : FenState → FenState) (d : Dev) : (d.onFen f).aux = d.aux := rfl
@[simp] theorem Dev.onFen_lrd (f : FenState → FenState) (d : Dev) : (d.onFen f).lrd = d.lrd := rfl
@[simp] theorem Dev.onFen_sys (f : FenState → FenState) (d : Dev) : (d.onFen f).sys = d.sys := rfl
@[simp] theorem Dev.onFen_free (f : FenState → FenState) (d : Dev) : (d.onFen f).free = d.free := rfl

@[simp] theorem Dev.onHost_host (f : HostState → HostState) (d : Dev) : (d.onHost f).host = f d.host := rfl
@[simp] theorem Dev.onHost_regs (f : HostState → HostState) (d : Dev) : (d.onHost f).regs = d.regs := rfl
@[simp] theorem Dev.onHost_ang (f : HostState → HostState) (d : Dev) : (d.onHost f).ang = d.ang := rfl
@[simp] theorem Dev.onHost_gfm (f : HostState → HostState) (d : Dev) : (d.onHost f).gfm = d.gfm := rfl
@[simp] theorem Dev.onHost_prof (f : HostState → HostState) (d : Dev) : (d.onHost f).prof = d.prof := rfl
@[simp] theorem Dev.onHost_loop (f : HostState → HostState) (d : Dev) : (d.onHost f).loop = d.loop := rfl
@[simp] theorem Dev.onHost_sup (f : HostState → HostState) (d : Dev) : (d.onHost f).sup = d.sup := rfl
@[simp] theorem Dev.onHost_mod (f : HostState → HostState) (d : Dev) : (d.onHost f).mod = d.mod := rfl
@[simp] theorem Dev.onHost_pwm (f : HostState → HostState) (d : Dev) : (d.onHost f).pwm = d.pwm := rfl
@[simp] theorem Dev.onHost_pen (f : HostState → HostState) (d : Dev) : (d.onHost f).pen = d.pen := rfl
@[simp] theorem Dev.onHost_pnt (f : HostState → HostState) (d : Dev) : (d.onHost f).pnt = d.pnt := rfl
@[simp] theorem Dev.onHost_adc (f : HostState → HostState) (d : Dev) : (d.onHost f).adc = d.adc := rfl
@[simp] theorem Dev.onHost_acq (f : HostState → HostState) (d : Dev) : (d.onHost f).acq = d.acq := rfl
@[simp] theorem Dev.onHost_clk (f : HostState → HostState) (d : Dev) : (d.onHost f).clk = d.clk := rfl
@[simp] theorem Dev.onHost_twn (f : HostState → HostState) (d : Dev) : (d.onHost f).twn = d.twn := rfl
@[simp] theorem Dev.onHost_fen (f : HostState → HostState) (d : Dev) : (d.onHost f).fen = d.fen := rfl
@[simp] theorem Dev.onHost_sec (f : HostState → HostState) (d : Dev) : (d.onHost f).sec = d.sec := rfl
@[simp] theorem Dev.onHost_hk (f : HostState → HostState) (d : Dev) : (d.onHost f).hk = d.hk := rfl
@[simp] theorem Dev.onHost_aux (f : HostState → HostState) (d : Dev) : (d.onHost f).aux = d.aux := rfl
@[simp] theorem Dev.onHost_lrd (f : HostState → HostState) (d : Dev) : (d.onHost f).lrd = d.lrd := rfl
@[simp] theorem Dev.onHost_sys (f : HostState → HostState) (d : Dev) : (d.onHost f).sys = d.sys := rfl
@[simp] theorem Dev.onHost_free (f : HostState → HostState) (d : Dev) : (d.onHost f).free = d.free := rfl

@[simp] theorem Dev.onSec_sec (f : SecState → SecState) (d : Dev) : (d.onSec f).sec = f d.sec := rfl
@[simp] theorem Dev.onSec_regs (f : SecState → SecState) (d : Dev) : (d.onSec f).regs = d.regs := rfl
@[simp] theorem Dev.onSec_ang (f : SecState → SecState) (d : Dev) : (d.onSec f).ang = d.ang := rfl
@[simp] theorem Dev.onSec_gfm (f : SecState → SecState) (d : Dev) : (d.onSec f).gfm = d.gfm := rfl
@[simp] theorem Dev.onSec_prof (f : SecState → SecState) (d : Dev) : (d.onSec f).prof = d.prof := rfl
@[simp] theorem Dev.onSec_loop (f : SecState → SecState) (d : Dev) : (d.onSec f).loop = d.loop := rfl
@[simp] theorem Dev.onSec_sup (f : SecState → SecState) (d : Dev) : (d.onSec f).sup = d.sup := rfl
@[simp] theorem Dev.onSec_mod (f : SecState → SecState) (d : Dev) : (d.onSec f).mod = d.mod := rfl
@[simp] theorem Dev.onSec_pwm (f : SecState → SecState) (d : Dev) : (d.onSec f).pwm = d.pwm := rfl
@[simp] theorem Dev.onSec_pen (f : SecState → SecState) (d : Dev) : (d.onSec f).pen = d.pen := rfl
@[simp] theorem Dev.onSec_pnt (f : SecState → SecState) (d : Dev) : (d.onSec f).pnt = d.pnt := rfl
@[simp] theorem Dev.onSec_adc (f : SecState → SecState) (d : Dev) : (d.onSec f).adc = d.adc := rfl
@[simp] theorem Dev.onSec_acq (f : SecState → SecState) (d : Dev) : (d.onSec f).acq = d.acq := rfl
@[simp] theorem Dev.onSec_clk (f : SecState → SecState) (d : Dev) : (d.onSec f).clk = d.clk := rfl
@[simp] theorem Dev.onSec_twn (f : SecState → SecState) (d : Dev) : (d.onSec f).twn = d.twn := rfl
@[simp] theorem Dev.onSec_fen (f : SecState → SecState) (d : Dev) : (d.onSec f).fen = d.fen := rfl
@[simp] theorem Dev.onSec_host (f : SecState → SecState) (d : Dev) : (d.onSec f).host = d.host := rfl
@[simp] theorem Dev.onSec_hk (f : SecState → SecState) (d : Dev) : (d.onSec f).hk = d.hk := rfl
@[simp] theorem Dev.onSec_aux (f : SecState → SecState) (d : Dev) : (d.onSec f).aux = d.aux := rfl
@[simp] theorem Dev.onSec_lrd (f : SecState → SecState) (d : Dev) : (d.onSec f).lrd = d.lrd := rfl
@[simp] theorem Dev.onSec_sys (f : SecState → SecState) (d : Dev) : (d.onSec f).sys = d.sys := rfl
@[simp] theorem Dev.onSec_free (f : SecState → SecState) (d : Dev) : (d.onSec f).free = d.free := rfl

@[simp] theorem Dev.onHk_hk (f : HkState → HkState) (d : Dev) : (d.onHk f).hk = f d.hk := rfl
@[simp] theorem Dev.onHk_regs (f : HkState → HkState) (d : Dev) : (d.onHk f).regs = d.regs := rfl
@[simp] theorem Dev.onHk_ang (f : HkState → HkState) (d : Dev) : (d.onHk f).ang = d.ang := rfl
@[simp] theorem Dev.onHk_gfm (f : HkState → HkState) (d : Dev) : (d.onHk f).gfm = d.gfm := rfl
@[simp] theorem Dev.onHk_prof (f : HkState → HkState) (d : Dev) : (d.onHk f).prof = d.prof := rfl
@[simp] theorem Dev.onHk_loop (f : HkState → HkState) (d : Dev) : (d.onHk f).loop = d.loop := rfl
@[simp] theorem Dev.onHk_sup (f : HkState → HkState) (d : Dev) : (d.onHk f).sup = d.sup := rfl
@[simp] theorem Dev.onHk_mod (f : HkState → HkState) (d : Dev) : (d.onHk f).mod = d.mod := rfl
@[simp] theorem Dev.onHk_pwm (f : HkState → HkState) (d : Dev) : (d.onHk f).pwm = d.pwm := rfl
@[simp] theorem Dev.onHk_pen (f : HkState → HkState) (d : Dev) : (d.onHk f).pen = d.pen := rfl
@[simp] theorem Dev.onHk_pnt (f : HkState → HkState) (d : Dev) : (d.onHk f).pnt = d.pnt := rfl
@[simp] theorem Dev.onHk_adc (f : HkState → HkState) (d : Dev) : (d.onHk f).adc = d.adc := rfl
@[simp] theorem Dev.onHk_acq (f : HkState → HkState) (d : Dev) : (d.onHk f).acq = d.acq := rfl
@[simp] theorem Dev.onHk_clk (f : HkState → HkState) (d : Dev) : (d.onHk f).clk = d.clk := rfl
@[simp] theorem Dev.onHk_twn (f : HkState → HkState) (d : Dev) : (d.onHk f).twn = d.twn := rfl
@[simp] theorem Dev.onHk_fen (f : HkState → HkState) (d : Dev) : (d.onHk f).fen = d.fen := rfl
@[simp] theorem Dev.onHk_host (f : HkState → HkState) (d : Dev) : (d.onHk f).host = d.host := rfl
@[simp] theorem Dev.onHk_sec (f : HkState → HkState) (d : Dev) : (d.onHk f).sec = d.sec := rfl
@[simp] theorem Dev.onHk_aux (f : HkState → HkState) (d : Dev) : (d.onHk f).aux = d.aux := rfl
@[simp] theorem Dev.onHk_lrd (f : HkState → HkState) (d : Dev) : (d.onHk f).lrd = d.lrd := rfl
@[simp] theorem Dev.onHk_sys (f : HkState → HkState) (d : Dev) : (d.onHk f).sys = d.sys := rfl
@[simp] theorem Dev.onHk_free (f : HkState → HkState) (d : Dev) : (d.onHk f).free = d.free := rfl

@[simp] theorem Dev.onAux_aux (f : AuxState → AuxState) (d : Dev) : (d.onAux f).aux = f d.aux := rfl
@[simp] theorem Dev.onAux_regs (f : AuxState → AuxState) (d : Dev) : (d.onAux f).regs = d.regs := rfl
@[simp] theorem Dev.onAux_ang (f : AuxState → AuxState) (d : Dev) : (d.onAux f).ang = d.ang := rfl
@[simp] theorem Dev.onAux_gfm (f : AuxState → AuxState) (d : Dev) : (d.onAux f).gfm = d.gfm := rfl
@[simp] theorem Dev.onAux_prof (f : AuxState → AuxState) (d : Dev) : (d.onAux f).prof = d.prof := rfl
@[simp] theorem Dev.onAux_loop (f : AuxState → AuxState) (d : Dev) : (d.onAux f).loop = d.loop := rfl
@[simp] theorem Dev.onAux_sup (f : AuxState → AuxState) (d : Dev) : (d.onAux f).sup = d.sup := rfl
@[simp] theorem Dev.onAux_mod (f : AuxState → AuxState) (d : Dev) : (d.onAux f).mod = d.mod := rfl
@[simp] theorem Dev.onAux_pwm (f : AuxState → AuxState) (d : Dev) : (d.onAux f).pwm = d.pwm := rfl
@[simp] theorem Dev.onAux_pen (f : AuxState → AuxState) (d : Dev) : (d.onAux f).pen = d.pen := rfl
@[simp] theorem Dev.onAux_pnt (f : AuxState → AuxState) (d : Dev) : (d.onAux f).pnt = d.pnt := rfl
@[simp] theorem Dev.onAux_adc (f : AuxState → AuxState) (d : Dev) : (d.onAux f).adc = d.adc := rfl
@[simp] theorem Dev.onAux_acq (f : AuxState → AuxState) (d : Dev) : (d.onAux f).acq = d.acq := rfl
@[simp] theorem Dev.onAux_clk (f : AuxState → AuxState) (d : Dev) : (d.onAux f).clk = d.clk := rfl
@[simp] theorem Dev.onAux_twn (f : AuxState → AuxState) (d : Dev) : (d.onAux f).twn = d.twn := rfl
@[simp] theorem Dev.onAux_fen (f : AuxState → AuxState) (d : Dev) : (d.onAux f).fen = d.fen := rfl
@[simp] theorem Dev.onAux_host (f : AuxState → AuxState) (d : Dev) : (d.onAux f).host = d.host := rfl
@[simp] theorem Dev.onAux_sec (f : AuxState → AuxState) (d : Dev) : (d.onAux f).sec = d.sec := rfl
@[simp] theorem Dev.onAux_hk (f : AuxState → AuxState) (d : Dev) : (d.onAux f).hk = d.hk := rfl
@[simp] theorem Dev.onAux_lrd (f : AuxState → AuxState) (d : Dev) : (d.onAux f).lrd = d.lrd := rfl
@[simp] theorem Dev.onAux_sys (f : AuxState → AuxState) (d : Dev) : (d.onAux f).sys = d.sys := rfl
@[simp] theorem Dev.onAux_free (f : AuxState → AuxState) (d : Dev) : (d.onAux f).free = d.free := rfl

@[simp] theorem Dev.onLrd_lrd (f : LrdState → LrdState) (d : Dev) : (d.onLrd f).lrd = f d.lrd := rfl
@[simp] theorem Dev.onLrd_regs (f : LrdState → LrdState) (d : Dev) : (d.onLrd f).regs = d.regs := rfl
@[simp] theorem Dev.onLrd_ang (f : LrdState → LrdState) (d : Dev) : (d.onLrd f).ang = d.ang := rfl
@[simp] theorem Dev.onLrd_gfm (f : LrdState → LrdState) (d : Dev) : (d.onLrd f).gfm = d.gfm := rfl
@[simp] theorem Dev.onLrd_prof (f : LrdState → LrdState) (d : Dev) : (d.onLrd f).prof = d.prof := rfl
@[simp] theorem Dev.onLrd_loop (f : LrdState → LrdState) (d : Dev) : (d.onLrd f).loop = d.loop := rfl
@[simp] theorem Dev.onLrd_sup (f : LrdState → LrdState) (d : Dev) : (d.onLrd f).sup = d.sup := rfl
@[simp] theorem Dev.onLrd_mod (f : LrdState → LrdState) (d : Dev) : (d.onLrd f).mod = d.mod := rfl
@[simp] theorem Dev.onLrd_pwm (f : LrdState → LrdState) (d : Dev) : (d.onLrd f).pwm = d.pwm := rfl
@[simp] theorem Dev.onLrd_pen (f : LrdState → LrdState) (d : Dev) : (d.onLrd f).pen = d.pen := rfl
@[simp] theorem Dev.onLrd_pnt (f : LrdState → LrdState) (d : Dev) : (d.onLrd f).pnt = d.pnt := rfl
@[simp] theorem Dev.onLrd_adc (f : LrdState → LrdState) (d : Dev) : (d.onLrd f).adc = d.adc := rfl
@[simp] theorem Dev.onLrd_acq (f : LrdState → LrdState) (d : Dev) : (d.onLrd f).acq = d.acq := rfl
@[simp] theorem Dev.onLrd_clk (f : LrdState → LrdState) (d : Dev) : (d.onLrd f).clk = d.clk := rfl
@[simp] theorem Dev.onLrd_twn (f : LrdState → LrdState) (d : Dev) : (d.onLrd f).twn = d.twn := rfl
@[simp] theorem Dev.onLrd_fen (f : LrdState → LrdState) (d : Dev) : (d.onLrd f).fen = d.fen := rfl
@[simp] theorem Dev.onLrd_host (f : LrdState → LrdState) (d : Dev) : (d.onLrd f).host = d.host := rfl
@[simp] theorem Dev.onLrd_sec (f : LrdState → LrdState) (d : Dev) : (d.onLrd f).sec = d.sec := rfl
@[simp] theorem Dev.onLrd_hk (f : LrdState → LrdState) (d : Dev) : (d.onLrd f).hk = d.hk := rfl
@[simp] theorem Dev.onLrd_aux (f : LrdState → LrdState) (d : Dev) : (d.onLrd f).aux = d.aux := rfl
@[simp] theorem Dev.onLrd_sys (f : LrdState → LrdState) (d : Dev) : (d.onLrd f).sys = d.sys := rfl
@[simp] theorem Dev.onLrd_free (f : LrdState → LrdState) (d : Dev) : (d.onLrd f).free = d.free := rfl

@[simp] theorem Dev.onSys_sys (f : SysState → SysState) (d : Dev) : (d.onSys f).sys = f d.sys := rfl
@[simp] theorem Dev.onSys_regs (f : SysState → SysState) (d : Dev) : (d.onSys f).regs = d.regs := rfl
@[simp] theorem Dev.onSys_ang (f : SysState → SysState) (d : Dev) : (d.onSys f).ang = d.ang := rfl
@[simp] theorem Dev.onSys_gfm (f : SysState → SysState) (d : Dev) : (d.onSys f).gfm = d.gfm := rfl
@[simp] theorem Dev.onSys_prof (f : SysState → SysState) (d : Dev) : (d.onSys f).prof = d.prof := rfl
@[simp] theorem Dev.onSys_loop (f : SysState → SysState) (d : Dev) : (d.onSys f).loop = d.loop := rfl
@[simp] theorem Dev.onSys_sup (f : SysState → SysState) (d : Dev) : (d.onSys f).sup = d.sup := rfl
@[simp] theorem Dev.onSys_mod (f : SysState → SysState) (d : Dev) : (d.onSys f).mod = d.mod := rfl
@[simp] theorem Dev.onSys_pwm (f : SysState → SysState) (d : Dev) : (d.onSys f).pwm = d.pwm := rfl
@[simp] theorem Dev.onSys_pen (f : SysState → SysState) (d : Dev) : (d.onSys f).pen = d.pen := rfl
@[simp] theorem Dev.onSys_pnt (f : SysState → SysState) (d : Dev) : (d.onSys f).pnt = d.pnt := rfl
@[simp] theorem Dev.onSys_adc (f : SysState → SysState) (d : Dev) : (d.onSys f).adc = d.adc := rfl
@[simp] theorem Dev.onSys_acq (f : SysState → SysState) (d : Dev) : (d.onSys f).acq = d.acq := rfl
@[simp] theorem Dev.onSys_clk (f : SysState → SysState) (d : Dev) : (d.onSys f).clk = d.clk := rfl
@[simp] theorem Dev.onSys_twn (f : SysState → SysState) (d : Dev) : (d.onSys f).twn = d.twn := rfl
@[simp] theorem Dev.onSys_fen (f : SysState → SysState) (d : Dev) : (d.onSys f).fen = d.fen := rfl
@[simp] theorem Dev.onSys_host (f : SysState → SysState) (d : Dev) : (d.onSys f).host = d.host := rfl
@[simp] theorem Dev.onSys_sec (f : SysState → SysState) (d : Dev) : (d.onSys f).sec = d.sec := rfl
@[simp] theorem Dev.onSys_hk (f : SysState → SysState) (d : Dev) : (d.onSys f).hk = d.hk := rfl
@[simp] theorem Dev.onSys_aux (f : SysState → SysState) (d : Dev) : (d.onSys f).aux = d.aux := rfl
@[simp] theorem Dev.onSys_lrd (f : SysState → SysState) (d : Dev) : (d.onSys f).lrd = d.lrd := rfl
@[simp] theorem Dev.onSys_free (f : SysState → SysState) (d : Dev) : (d.onSys f).free = d.free := rfl

/-! ### One row around its effect -/

theorem State.run_eq (f : Dev → Dev) (s : State) : s.run f = s.after (f s.fresh) := rfl

@[simp] theorem State.run_pending (f : Dev → Dev) (s : State) : (s.run f).pending = s.pending := rfl

@[simp] theorem State.run_out (f : Dev → Dev) (s : State) : (s.run f).dev.host.out = [] := rfl

theorem State.run_dev (f : Dev → Dev) (s : State) :
    (s.run f).dev = (f s.fresh).onHost fun h => { h with out := [] } := rfl

theorem State.run_mem (f : Dev → Dev) (s : State) : (s.run f).mem = writeAll s.mem (f s.fresh).host.out := rfl

/-- A row keeps the canonical form of host memory. -/
theorem State.run_wf (f : Dev → Dev) {s : State} (h : Memory.wf s.mem = true) : Memory.wf (s.run f).mem = true :=
  wf_writeAll h _

/-- A row changes host memory only where its posted writes store. -/
theorem State.run_readByte (f : Dev → Dev) (s : State) (a : Nat) (h : ¬ storedTo (f s.fresh).host.out a) :
    (s.run f).readByte a = s.readByte a := get_writeAll_outside _ _ _ h

@[simp] theorem State.run_regs (f : Dev → Dev) (s : State) : (s.run f).dev.regs = (f s.fresh).regs := rfl
@[simp] theorem State.fresh_regs (s : State) : s.fresh.regs = s.dev.regs := rfl
@[simp] theorem State.run_ang (f : Dev → Dev) (s : State) : (s.run f).dev.ang = (f s.fresh).ang := rfl
@[simp] theorem State.fresh_ang (s : State) : s.fresh.ang = s.dev.ang := rfl
@[simp] theorem State.run_gfm (f : Dev → Dev) (s : State) : (s.run f).dev.gfm = (f s.fresh).gfm := rfl
@[simp] theorem State.fresh_gfm (s : State) : s.fresh.gfm = s.dev.gfm := rfl
@[simp] theorem State.run_prof (f : Dev → Dev) (s : State) : (s.run f).dev.prof = (f s.fresh).prof := rfl
@[simp] theorem State.fresh_prof (s : State) : s.fresh.prof = s.dev.prof := rfl
@[simp] theorem State.run_loop (f : Dev → Dev) (s : State) : (s.run f).dev.loop = (f s.fresh).loop := rfl
@[simp] theorem State.fresh_loop (s : State) : s.fresh.loop = s.dev.loop := rfl
@[simp] theorem State.run_sup (f : Dev → Dev) (s : State) : (s.run f).dev.sup = (f s.fresh).sup := rfl
@[simp] theorem State.fresh_sup (s : State) : s.fresh.sup = s.dev.sup := rfl
@[simp] theorem State.run_mod (f : Dev → Dev) (s : State) : (s.run f).dev.mod = (f s.fresh).mod := rfl
@[simp] theorem State.fresh_mod (s : State) : s.fresh.mod = s.dev.mod := rfl
@[simp] theorem State.run_pwm (f : Dev → Dev) (s : State) : (s.run f).dev.pwm = (f s.fresh).pwm := rfl
@[simp] theorem State.fresh_pwm (s : State) : s.fresh.pwm = s.dev.pwm := rfl
@[simp] theorem State.run_pen (f : Dev → Dev) (s : State) : (s.run f).dev.pen = (f s.fresh).pen := rfl
@[simp] theorem State.fresh_pen (s : State) : s.fresh.pen = s.dev.pen := rfl
@[simp] theorem State.run_pnt (f : Dev → Dev) (s : State) : (s.run f).dev.pnt = (f s.fresh).pnt := rfl
@[simp] theorem State.fresh_pnt (s : State) : s.fresh.pnt = s.dev.pnt := rfl
@[simp] theorem State.run_adc (f : Dev → Dev) (s : State) : (s.run f).dev.adc = (f s.fresh).adc := rfl
@[simp] theorem State.fresh_adc (s : State) : s.fresh.adc = s.dev.adc := rfl
@[simp] theorem State.run_acq (f : Dev → Dev) (s : State) : (s.run f).dev.acq = (f s.fresh).acq := rfl
@[simp] theorem State.fresh_acq (s : State) : s.fresh.acq = s.dev.acq := rfl
@[simp] theorem State.run_clk (f : Dev → Dev) (s : State) : (s.run f).dev.clk = (f s.fresh).clk := rfl
@[simp] theorem State.fresh_clk (s : State) : s.fresh.clk = s.dev.clk := rfl
@[simp] theorem State.run_twn (f : Dev → Dev) (s : State) : (s.run f).dev.twn = (f s.fresh).twn := rfl
@[simp] theorem State.run_fen (f : Dev → Dev) (s : State) : (s.run f).dev.fen = (f s.fresh).fen := rfl
@[simp] theorem State.fresh_fen (s : State) : s.fresh.fen = s.dev.fen := rfl
@[simp] theorem State.fresh_host (s : State) : s.fresh.host = s.dev.host := rfl
@[simp] theorem State.run_sec (f : Dev → Dev) (s : State) : (s.run f).dev.sec = (f s.fresh).sec := rfl
@[simp] theorem State.fresh_sec (s : State) : s.fresh.sec = s.dev.sec := rfl
@[simp] theorem State.run_hk (f : Dev → Dev) (s : State) : (s.run f).dev.hk = (f s.fresh).hk := rfl
@[simp] theorem State.fresh_hk (s : State) : s.fresh.hk = s.dev.hk := rfl
@[simp] theorem State.run_aux (f : Dev → Dev) (s : State) : (s.run f).dev.aux = (f s.fresh).aux := rfl
@[simp] theorem State.fresh_aux (s : State) : s.fresh.aux = s.dev.aux := rfl
@[simp] theorem State.run_lrd (f : Dev → Dev) (s : State) : (s.run f).dev.lrd = (f s.fresh).lrd := rfl
@[simp] theorem State.fresh_lrd (s : State) : s.fresh.lrd = s.dev.lrd := rfl
@[simp] theorem State.run_sys (f : Dev → Dev) (s : State) : (s.run f).dev.sys = (f s.fresh).sys := rfl
@[simp] theorem State.fresh_sys (s : State) : s.fresh.sys = s.dev.sys := rfl
@[simp] theorem State.run_free (f : Dev → Dev) (s : State) : (s.run f).dev.free = (f s.fresh).free := rfl
@[simp] theorem State.fresh_free (s : State) : s.fresh.free = s.dev.free := rfl
@[simp] theorem State.after_regs (s : State) (d : Dev) : (s.after d).dev.regs = d.regs := rfl
@[simp] theorem State.after_ang (s : State) (d : Dev) : (s.after d).dev.ang = d.ang := rfl
@[simp] theorem State.after_gfm (s : State) (d : Dev) : (s.after d).dev.gfm = d.gfm := rfl
@[simp] theorem State.after_prof (s : State) (d : Dev) : (s.after d).dev.prof = d.prof := rfl
@[simp] theorem State.after_loop (s : State) (d : Dev) : (s.after d).dev.loop = d.loop := rfl
@[simp] theorem State.after_sup (s : State) (d : Dev) : (s.after d).dev.sup = d.sup := rfl
@[simp] theorem State.after_mod (s : State) (d : Dev) : (s.after d).dev.mod = d.mod := rfl
@[simp] theorem State.after_pwm (s : State) (d : Dev) : (s.after d).dev.pwm = d.pwm := rfl
@[simp] theorem State.after_pen (s : State) (d : Dev) : (s.after d).dev.pen = d.pen := rfl
@[simp] theorem State.after_pnt (s : State) (d : Dev) : (s.after d).dev.pnt = d.pnt := rfl
@[simp] theorem State.after_adc (s : State) (d : Dev) : (s.after d).dev.adc = d.adc := rfl
@[simp] theorem State.after_acq (s : State) (d : Dev) : (s.after d).dev.acq = d.acq := rfl
@[simp] theorem State.after_clk (s : State) (d : Dev) : (s.after d).dev.clk = d.clk := rfl
@[simp] theorem State.after_twn (s : State) (d : Dev) : (s.after d).dev.twn = d.twn := rfl
@[simp] theorem State.after_fen (s : State) (d : Dev) : (s.after d).dev.fen = d.fen := rfl
@[simp] theorem State.after_sec (s : State) (d : Dev) : (s.after d).dev.sec = d.sec := rfl
@[simp] theorem State.after_hk (s : State) (d : Dev) : (s.after d).dev.hk = d.hk := rfl
@[simp] theorem State.after_aux (s : State) (d : Dev) : (s.after d).dev.aux = d.aux := rfl
@[simp] theorem State.after_lrd (s : State) (d : Dev) : (s.after d).dev.lrd = d.lrd := rfl
@[simp] theorem State.after_sys (s : State) (d : Dev) : (s.after d).dev.sys = d.sys := rfl
@[simp] theorem State.after_free (s : State) (d : Dev) : (s.after d).dev.free = d.free := rfl
@[simp] theorem State.after_pending (s : State) (d : Dev) : (s.after d).pending = s.pending := rfl
@[simp] theorem State.after_out (s : State) (d : Dev) : (s.after d).dev.host.out = [] := rfl
theorem State.after_mem (s : State) (d : Dev) : (s.after d).mem = writeAll s.mem d.host.out := rfl
@[simp] theorem State.after_host_rings (s : State) (d : Dev) : (s.after d).dev.host.rings = d.host.rings := rfl
@[simp] theorem State.run_host_rings (f : Dev → Dev) (s : State) : (s.run f).dev.host.rings = (f s.fresh).host.rings := rfl
@[simp] theorem State.after_host_msix (s : State) (d : Dev) : (s.after d).dev.host.msix = d.host.msix := rfl
@[simp] theorem State.run_host_msix (f : Dev → Dev) (s : State) : (s.run f).dev.host.msix = (f s.fresh).host.msix := rfl
@[simp] theorem State.after_host_coal (s : State) (d : Dev) : (s.after d).dev.host.coal = d.host.coal := rfl
@[simp] theorem State.run_host_coal (f : Dev → Dev) (s : State) : (s.run f).dev.host.coal = (f s.fresh).host.coal := rfl
@[simp] theorem State.after_host_inflight (s : State) (d : Dev) : (s.after d).dev.host.inflight = d.host.inflight := rfl
@[simp] theorem State.run_host_inflight (f : Dev → Dev) (s : State) : (s.run f).dev.host.inflight = (f s.fresh).host.inflight := rfl
@[simp] theorem State.after_host_tel (s : State) (d : Dev) : (s.after d).dev.host.tel = d.host.tel := rfl
@[simp] theorem State.run_host_tel (f : Dev → Dev) (s : State) : (s.run f).dev.host.tel = (f s.fresh).host.tel := rfl
@[simp] theorem State.after_host_telDue (s : State) (d : Dev) : (s.after d).dev.host.telDue = d.host.telDue := rfl
@[simp] theorem State.run_host_telDue (f : Dev → Dev) (s : State) : (s.run f).dev.host.telDue = (f s.fresh).host.telDue := rfl
@[simp] theorem State.after_host_svcOut (s : State) (d : Dev) : (s.after d).dev.host.svcOut = d.host.svcOut := rfl
@[simp] theorem State.run_host_svcOut (f : Dev → Dev) (s : State) : (s.run f).dev.host.svcOut = (f s.fresh).host.svcOut := rfl
@[simp] theorem State.after_host_wdStart (s : State) (d : Dev) : (s.after d).dev.host.wdStart = d.host.wdStart := rfl
@[simp] theorem State.run_host_wdStart (f : Dev → Dev) (s : State) : (s.run f).dev.host.wdStart = (f s.fresh).host.wdStart := rfl
@[simp] theorem State.after_host_wdExpired (s : State) (d : Dev) : (s.after d).dev.host.wdExpired = d.host.wdExpired := rfl
@[simp] theorem State.run_host_wdExpired (f : Dev → Dev) (s : State) : (s.run f).dev.host.wdExpired = (f s.fresh).host.wdExpired := rfl
@[simp] theorem State.after_host_pcie (s : State) (d : Dev) : (s.after d).dev.host.pcie = d.host.pcie := rfl
@[simp] theorem State.run_host_pcie (f : Dev → Dev) (s : State) : (s.run f).dev.host.pcie = (f s.fresh).host.pcie := rfl
@[simp] theorem State.after_host_linkUp (s : State) (d : Dev) : (s.after d).dev.host.linkUp = d.host.linkUp := rfl
@[simp] theorem State.run_host_linkUp (f : Dev → Dev) (s : State) : (s.run f).dev.host.linkUp = (f s.fresh).host.linkUp := rfl
@[simp] theorem State.after_host_speed (s : State) (d : Dev) : (s.after d).dev.host.speed = d.host.speed := rfl
@[simp] theorem State.run_host_speed (f : Dev → Dev) (s : State) : (s.run f).dev.host.speed = (f s.fresh).host.speed := rfl
@[simp] theorem State.after_host_width (s : State) (d : Dev) : (s.after d).dev.host.width = d.host.width := rfl
@[simp] theorem State.run_host_width (f : Dev → Dev) (s : State) : (s.run f).dev.host.width = (f s.fresh).host.width := rfl
@[simp] theorem State.after_host_svcErr (s : State) (d : Dev) : (s.after d).dev.host.svcErr = d.host.svcErr := rfl
@[simp] theorem State.run_host_svcErr (f : Dev → Dev) (s : State) : (s.run f).dev.host.svcErr = (f s.fresh).host.svcErr := rfl
@[simp] theorem State.after_host_cmdCnt (s : State) (d : Dev) : (s.after d).dev.host.cmdCnt = d.host.cmdCnt := rfl
@[simp] theorem State.run_host_cmdCnt (f : Dev → Dev) (s : State) : (s.run f).dev.host.cmdCnt = (f s.fresh).host.cmdCnt := rfl
@[simp] theorem State.after_host_cmdErrCnt (s : State) (d : Dev) : (s.after d).dev.host.cmdErrCnt = d.host.cmdErrCnt := rfl
@[simp] theorem State.run_host_cmdErrCnt (f : Dev → Dev) (s : State) : (s.run f).dev.host.cmdErrCnt = (f s.fresh).host.cmdErrCnt := rfl
@[simp] theorem State.after_host_dbDiscCnt (s : State) (d : Dev) : (s.after d).dev.host.dbDiscCnt = d.host.dbDiscCnt := rfl
@[simp] theorem State.run_host_dbDiscCnt (f : Dev → Dev) (s : State) : (s.run f).dev.host.dbDiscCnt = (f s.fresh).host.dbDiscCnt := rfl
@[simp] theorem State.after_host_accErrCnt (s : State) (d : Dev) : (s.after d).dev.host.accErrCnt = d.host.accErrCnt := rfl
@[simp] theorem State.run_host_accErrCnt (f : Dev → Dev) (s : State) : (s.run f).dev.host.accErrCnt = (f s.fresh).host.accErrCnt := rfl
@[simp] theorem State.after_host_cplLostCnt (s : State) (d : Dev) : (s.after d).dev.host.cplLostCnt = d.host.cplLostCnt := rfl
@[simp] theorem State.run_host_cplLostCnt (f : Dev → Dev) (s : State) : (s.run f).dev.host.cplLostCnt = (f s.fresh).host.cplLostCnt := rfl
@[simp] theorem State.after_host_coalCnt (s : State) (d : Dev) : (s.after d).dev.host.coalCnt = d.host.coalCnt := rfl
@[simp] theorem State.run_host_coalCnt (f : Dev → Dev) (s : State) : (s.run f).dev.host.coalCnt = (f s.fresh).host.coalCnt := rfl
@[simp] theorem State.after_host_telSkipCnt (s : State) (d : Dev) : (s.after d).dev.host.telSkipCnt = d.host.telSkipCnt := rfl
@[simp] theorem State.run_host_telSkipCnt (f : Dev → Dev) (s : State) : (s.run f).dev.host.telSkipCnt = (f s.fresh).host.telSkipCnt := rfl
@[simp] theorem State.after_host_fenLostCnt (s : State) (d : Dev) : (s.after d).dev.host.fenLostCnt = d.host.fenLostCnt := rfl
@[simp] theorem State.run_host_fenLostCnt (f : Dev → Dev) (s : State) : (s.run f).dev.host.fenLostCnt = (f s.fresh).host.fenLostCnt := rfl
@[simp] theorem State.after_host_svcIgnCnt (s : State) (d : Dev) : (s.after d).dev.host.svcIgnCnt = d.host.svcIgnCnt := rfl
@[simp] theorem State.run_host_svcIgnCnt (f : Dev → Dev) (s : State) : (s.run f).dev.host.svcIgnCnt = (f s.fresh).host.svcIgnCnt := rfl

/-- A row whose operands agree answers the next state of its effect. -/
theorem State.runIf_true (f : Dev → Dev) (s : State) : s.runIf true f = .next (s.run f) := rfl

/-- A command whose operands agree answers the next state of its effect. -/
theorem State.runCmd_wf (op mask : Nat) {c : Cmd} (body : Dev → Dev) (s : State) (h : c.wf = true) :
    s.runCmd op mask c body = .next (s.run (Dev.command op mask c body)) := by
  simp [State.runCmd, State.runIf, h]

/-- A row that checks its operands answers the next state of its effect, or stops as malformed. -/
theorem State.runIf_next {ok : Bool} {f : Dev → Dev} {s t : State} (h : s.runIf ok f = .next t) : t = s.run f := by
  unfold State.runIf at h
  split at h
  · exact (Host.Outcome.next.inj h).symm
  · cases h

end Sys2Proof.Machine
end

