-- ==== Sys2Proof/Laws/Reports.lean ====
section
/-! SUPPORT. What reporting can change: events, interrupts, descriptors and completions touch the W1C bits and the rings,
vectors and posted writes of the host interface, and nothing else of the device. -/

namespace Sys2Proof.Machine

/-- The device without what a report touches: W1C bits, ring indices, vectors, coalescing counters, posted writes. -/
def Dev.apart (d : Dev) : Dev :=
  { d with
    regs := { d.regs with events := .empty },
    host := { d.host with rings := .empty, msix := .empty, coal := .empty, coalCnt := 0, out := [] } }

theorem Dev.apart_setW1c (off : Nat) (m : W32) (d : Dev) : (d.setW1c off m).apart = d.apart := rfl
theorem Dev.apart_setBit (off bit : Nat) (d : Dev) : (d.setBit off bit).apart = d.apart := rfl
theorem Dev.apart_post (a : Nat) (bs : List Byte) (d : Dev) : (d.post a bs).apart = d.apart := rfl
theorem Dev.apart_setRing (r : Nat) (v : Ring) (d : Dev) : (d.setRing r v).apart = d.apart := rfl
theorem Dev.apart_setVec (v : Nat) (x : MsixVec) (d : Dev) : (d.setVec v x).apart = d.apart := rfl
theorem Dev.apart_sendMsi (v : Nat) (d : Dev) : (d.sendMsi v).apart = d.apart := rfl

theorem Dev.apart_shadow (r v : Nat) (d : Dev) : (d.shadow r v).apart = d.apart := by
  unfold Dev.shadow; simp only []; split <;> rfl

theorem Dev.apart_irq (n : Nat) (d : Dev) : (d.irq n).apart = d.apart := by
  unfold Dev.irq
  simp only []
  by_cases h : n < 32 <;> simp only [h, if_true, if_false] <;> split <;> split <;> rfl

theorem Dev.apart_putDesc (r src : Nat) (bs : List Byte) (d : Dev) : (d.putDesc r src bs).apart = d.apart := by
  unfold Dev.putDesc
  simp only []
  rw [Dev.apart_irq, Dev.apart_shadow, Dev.apart_setRing, Dev.apart_post, Dev.apart_post]

theorem Dev.apart_report (blk bit d0 d1 d2 : Nat) (d : Dev) : (d.report blk bit d0 d1 d2).apart = d.apart := by
  unfold Dev.report
  simp only []
  split
  · rfl
  · rw [Dev.apart_putDesc]

theorem Dev.apart_event (blk bit d0 d1 d2 : Nat) (d : Dev) : (d.event blk bit d0 d1 d2).apart = d.apart := by
  unfold Dev.event
  rw [Dev.apart_report, Dev.apart_setBit]

theorem Dev.ang_of_apart {a b : Dev} (h : a.apart = b.apart) : a.ang = b.ang := by
  have h' := congrArg Dev.ang h; exact h'
theorem Dev.gfm_of_apart {a b : Dev} (h : a.apart = b.apart) : a.gfm = b.gfm := by
  have h' := congrArg Dev.gfm h; exact h'
theorem Dev.prof_of_apart {a b : Dev} (h : a.apart = b.apart) : a.prof = b.prof := by
  have h' := congrArg Dev.prof h; exact h'
theorem Dev.loop_of_apart {a b : Dev} (h : a.apart = b.apart) : a.loop = b.loop := by
  have h' := congrArg Dev.loop h; exact h'
theorem Dev.sup_of_apart {a b : Dev} (h : a.apart = b.apart) : a.sup = b.sup := by
  have h' := congrArg Dev.sup h; exact h'
theorem Dev.mod_of_apart {a b : Dev} (h : a.apart = b.apart) : a.mod = b.mod := by
  have h' := congrArg Dev.mod h; exact h'
theorem Dev.pwm_of_apart {a b : Dev} (h : a.apart = b.apart) : a.pwm = b.pwm := by
  have h' := congrArg Dev.pwm h; exact h'
theorem Dev.pen_of_apart {a b : Dev} (h : a.apart = b.apart) : a.pen = b.pen := by
  have h' := congrArg Dev.pen h; exact h'
theorem Dev.pnt_of_apart {a b : Dev} (h : a.apart = b.apart) : a.pnt = b.pnt := by
  have h' := congrArg Dev.pnt h; exact h'
theorem Dev.adc_of_apart {a b : Dev} (h : a.apart = b.apart) : a.adc = b.adc := by
  have h' := congrArg Dev.adc h; exact h'
theorem Dev.acq_of_apart {a b : Dev} (h : a.apart = b.apart) : a.acq = b.acq := by
  have h' := congrArg Dev.acq h; exact h'
theorem Dev.clk_of_apart {a b : Dev} (h : a.apart = b.apart) : a.clk = b.clk := by
  have h' := congrArg Dev.clk h; exact h'
theorem Dev.twn_of_apart {a b : Dev} (h : a.apart = b.apart) : a.twn = b.twn := by
  have h' := congrArg Dev.twn h; exact h'
theorem Dev.fen_of_apart {a b : Dev} (h : a.apart = b.apart) : a.fen = b.fen := by
  have h' := congrArg Dev.fen h; exact h'
theorem Dev.sec_of_apart {a b : Dev} (h : a.apart = b.apart) : a.sec = b.sec := by
  have h' := congrArg Dev.sec h; exact h'
theorem Dev.hk_of_apart {a b : Dev} (h : a.apart = b.apart) : a.hk = b.hk := by
  have h' := congrArg Dev.hk h; exact h'
theorem Dev.aux_of_apart {a b : Dev} (h : a.apart = b.apart) : a.aux = b.aux := by
  have h' := congrArg Dev.aux h; exact h'
theorem Dev.lrd_of_apart {a b : Dev} (h : a.apart = b.apart) : a.lrd = b.lrd := by
  have h' := congrArg Dev.lrd h; exact h'
theorem Dev.sys_of_apart {a b : Dev} (h : a.apart = b.apart) : a.sys = b.sys := by
  have h' := congrArg Dev.sys h; exact h'
theorem Dev.free_of_apart {a b : Dev} (h : a.apart = b.apart) : a.free = b.free := by
  have h' := congrArg Dev.free h; exact h'
theorem Dev.regs_staged_of_apart {a b : Dev} (h : a.apart = b.apart) : a.regs.staged = b.regs.staged := by
  have h' := congrArg (fun d => d.regs.staged) h; exact h'
theorem Dev.regs_active_of_apart {a b : Dev} (h : a.apart = b.apart) : a.regs.active = b.regs.active := by
  have h' := congrArg (fun d => d.regs.active) h; exact h'
theorem Dev.regs_inForce_of_apart {a b : Dev} (h : a.apart = b.apart) : a.regs.inForce = b.regs.inForce := by
  have h' := congrArg (fun d => d.regs.inForce) h; exact h'
theorem Dev.regs_snaps_of_apart {a b : Dev} (h : a.apart = b.apart) : a.regs.snaps = b.regs.snaps := by
  have h' := congrArg (fun d => d.regs.snaps) h; exact h'
theorem Dev.regs_due_of_apart {a b : Dev} (h : a.apart = b.apart) : a.regs.due = b.regs.due := by
  have h' := congrArg (fun d => d.regs.due) h; exact h'
theorem Dev.regs_loadedStaged_of_apart {a b : Dev} (h : a.apart = b.apart) : a.regs.loadedStaged = b.regs.loadedStaged := by
  have h' := congrArg (fun d => d.regs.loadedStaged) h; exact h'
theorem Dev.regs_loaded_of_apart {a b : Dev} (h : a.apart = b.apart) : a.regs.loaded = b.regs.loaded := by
  have h' := congrArg (fun d => d.regs.loaded) h; exact h'
theorem Dev.regs_commitTick_of_apart {a b : Dev} (h : a.apart = b.apart) : a.regs.commitTick = b.regs.commitTick := by
  have h' := congrArg (fun d => d.regs.commitTick) h; exact h'
theorem Dev.host_inflight_of_apart {a b : Dev} (h : a.apart = b.apart) : a.host.inflight = b.host.inflight := by
  have h' := congrArg (fun d => d.host.inflight) h; exact h'
theorem Dev.host_tel_of_apart {a b : Dev} (h : a.apart = b.apart) : a.host.tel = b.host.tel := by
  have h' := congrArg (fun d => d.host.tel) h; exact h'
theorem Dev.host_telDue_of_apart {a b : Dev} (h : a.apart = b.apart) : a.host.telDue = b.host.telDue := by
  have h' := congrArg (fun d => d.host.telDue) h; exact h'
theorem Dev.host_svcOut_of_apart {a b : Dev} (h : a.apart = b.apart) : a.host.svcOut = b.host.svcOut := by
  have h' := congrArg (fun d => d.host.svcOut) h; exact h'
theorem Dev.host_wdStart_of_apart {a b : Dev} (h : a.apart = b.apart) : a.host.wdStart = b.host.wdStart := by
  have h' := congrArg (fun d => d.host.wdStart) h; exact h'
theorem Dev.host_wdExpired_of_apart {a b : Dev} (h : a.apart = b.apart) : a.host.wdExpired = b.host.wdExpired := by
  have h' := congrArg (fun d => d.host.wdExpired) h; exact h'
theorem Dev.host_linkUp_of_apart {a b : Dev} (h : a.apart = b.apart) : a.host.linkUp = b.host.linkUp := by
  have h' := congrArg (fun d => d.host.linkUp) h; exact h'
theorem Dev.host_speed_of_apart {a b : Dev} (h : a.apart = b.apart) : a.host.speed = b.host.speed := by
  have h' := congrArg (fun d => d.host.speed) h; exact h'
theorem Dev.host_width_of_apart {a b : Dev} (h : a.apart = b.apart) : a.host.width = b.host.width := by
  have h' := congrArg (fun d => d.host.width) h; exact h'
theorem Dev.host_svcErr_of_apart {a b : Dev} (h : a.apart = b.apart) : a.host.svcErr = b.host.svcErr := by
  have h' := congrArg (fun d => d.host.svcErr) h; exact h'
theorem Dev.host_cmdCnt_of_apart {a b : Dev} (h : a.apart = b.apart) : a.host.cmdCnt = b.host.cmdCnt := by
  have h' := congrArg (fun d => d.host.cmdCnt) h; exact h'
theorem Dev.host_cmdErrCnt_of_apart {a b : Dev} (h : a.apart = b.apart) : a.host.cmdErrCnt = b.host.cmdErrCnt := by
  have h' := congrArg (fun d => d.host.cmdErrCnt) h; exact h'
theorem Dev.host_dbDiscCnt_of_apart {a b : Dev} (h : a.apart = b.apart) : a.host.dbDiscCnt = b.host.dbDiscCnt := by
  have h' := congrArg (fun d => d.host.dbDiscCnt) h; exact h'
theorem Dev.host_accErrCnt_of_apart {a b : Dev} (h : a.apart = b.apart) : a.host.accErrCnt = b.host.accErrCnt := by
  have h' := congrArg (fun d => d.host.accErrCnt) h; exact h'
theorem Dev.host_cplLostCnt_of_apart {a b : Dev} (h : a.apart = b.apart) : a.host.cplLostCnt = b.host.cplLostCnt := by
  have h' := congrArg (fun d => d.host.cplLostCnt) h; exact h'
theorem Dev.host_telSkipCnt_of_apart {a b : Dev} (h : a.apart = b.apart) : a.host.telSkipCnt = b.host.telSkipCnt := by
  have h' := congrArg (fun d => d.host.telSkipCnt) h; exact h'
theorem Dev.host_fenLostCnt_of_apart {a b : Dev} (h : a.apart = b.apart) : a.host.fenLostCnt = b.host.fenLostCnt := by
  have h' := congrArg (fun d => d.host.fenLostCnt) h; exact h'
theorem Dev.host_svcIgnCnt_of_apart {a b : Dev} (h : a.apart = b.apart) : a.host.svcIgnCnt = b.host.svcIgnCnt := by
  have h' := congrArg (fun d => d.host.svcIgnCnt) h; exact h'

@[simp] theorem Dev.setW1c_ang (off : Nat) (m : W32) (d : Dev) : (d.setW1c off m).ang = d.ang :=
  Dev.ang_of_apart (Dev.apart_setW1c off m d)
@[simp] theorem Dev.setW1c_gfm (off : Nat) (m : W32) (d : Dev) : (d.setW1c off m).gfm = d.gfm :=
  Dev.gfm_of_apart (Dev.apart_setW1c off m d)
@[simp] theorem Dev.setW1c_prof (off : Nat) (m : W32) (d : Dev) : (d.setW1c off m).prof = d.prof :=
  Dev.prof_of_apart (Dev.apart_setW1c off m d)
@[simp] theorem Dev.setW1c_loop (off : Nat) (m : W32) (d : Dev) : (d.setW1c off m).loop = d.loop :=
  Dev.loop_of_apart (Dev.apart_setW1c off m d)
@[simp] theorem Dev.setW1c_sup (off : Nat) (m : W32) (d : Dev) : (d.setW1c off m).sup = d.sup :=
  Dev.sup_of_apart (Dev.apart_setW1c off m d)
@[simp] theorem Dev.setW1c_mod (off : Nat) (m : W32) (d : Dev) : (d.setW1c off m).mod = d.mod :=
  Dev.mod_of_apart (Dev.apart_setW1c off m d)
@[simp] theorem Dev.setW1c_pwm (off : Nat) (m : W32) (d : Dev) : (d.setW1c off m).pwm = d.pwm :=
  Dev.pwm_of_apart (Dev.apart_setW1c off m d)
@[simp] theorem Dev.setW1c_pen (off : Nat) (m : W32) (d : Dev) : (d.setW1c off m).pen = d.pen :=
  Dev.pen_of_apart (Dev.apart_setW1c off m d)
@[simp] theorem Dev.setW1c_pnt (off : Nat) (m : W32) (d : Dev) : (d.setW1c off m).pnt = d.pnt :=
  Dev.pnt_of_apart (Dev.apart_setW1c off m d)
@[simp] theorem Dev.setW1c_adc (off : Nat) (m : W32) (d : Dev) : (d.setW1c off m).adc = d.adc :=
  Dev.adc_of_apart (Dev.apart_setW1c off m d)
@[simp] theorem Dev.setW1c_acq (off : Nat) (m : W32) (d : Dev) : (d.setW1c off m).acq = d.acq :=
  Dev.acq_of_apart (Dev.apart_setW1c off m d)
@[simp] theorem Dev.setW1c_clk (off : Nat) (m : W32) (d : Dev) : (d.setW1c off m).clk = d.clk :=
  Dev.clk_of_apart (Dev.apart_setW1c off m d)
@[simp] theorem Dev.setW1c_twn (off : Nat) (m : W32) (d : Dev) : (d.setW1c off m).twn = d.twn :=
  Dev.twn_of_apart (Dev.apart_setW1c off m d)
@[simp] theorem Dev.setW1c_fen (off : Nat) (m : W32) (d : Dev) : (d.setW1c off m).fen = d.fen :=
  Dev.fen_of_apart (Dev.apart_setW1c off m d)
@[simp] theorem Dev.setW1c_sec (off : Nat) (m : W32) (d : Dev) : (d.setW1c off m).sec = d.sec :=
  Dev.sec_of_apart (Dev.apart_setW1c off m d)
@[simp] theorem Dev.setW1c_hk (off : Nat) (m : W32) (d : Dev) : (d.setW1c off m).hk = d.hk :=
  Dev.hk_of_apart (Dev.apart_setW1c off m d)
@[simp] theorem Dev.setW1c_aux (off : Nat) (m : W32) (d : Dev) : (d.setW1c off m).aux = d.aux :=
  Dev.aux_of_apart (Dev.apart_setW1c off m d)
@[simp] theorem Dev.setW1c_lrd (off : Nat) (m : W32) (d : Dev) : (d.setW1c off m).lrd = d.lrd :=
  Dev.lrd_of_apart (Dev.apart_setW1c off m d)
@[simp] theorem Dev.setW1c_sys (off : Nat) (m : W32) (d : Dev) : (d.setW1c off m).sys = d.sys :=
  Dev.sys_of_apart (Dev.apart_setW1c off m d)
@[simp] theorem Dev.setW1c_free (off : Nat) (m : W32) (d : Dev) : (d.setW1c off m).free = d.free :=
  Dev.free_of_apart (Dev.apart_setW1c off m d)
@[simp] theorem Dev.setW1c_regs_staged (off : Nat) (m : W32) (d : Dev) : (d.setW1c off m).regs.staged = d.regs.staged :=
  Dev.regs_staged_of_apart (Dev.apart_setW1c off m d)
@[simp] theorem Dev.setW1c_regs_active (off : Nat) (m : W32) (d : Dev) : (d.setW1c off m).regs.active = d.regs.active :=
  Dev.regs_active_of_apart (Dev.apart_setW1c off m d)
@[simp] theorem Dev.setW1c_regs_inForce (off : Nat) (m : W32) (d : Dev) : (d.setW1c off m).regs.inForce = d.regs.inForce :=
  Dev.regs_inForce_of_apart (Dev.apart_setW1c off m d)
@[simp] theorem Dev.setW1c_regs_snaps (off : Nat) (m : W32) (d : Dev) : (d.setW1c off m).regs.snaps = d.regs.snaps :=
  Dev.regs_snaps_of_apart (Dev.apart_setW1c off m d)
@[simp] theorem Dev.setW1c_regs_due (off : Nat) (m : W32) (d : Dev) : (d.setW1c off m).regs.due = d.regs.due :=
  Dev.regs_due_of_apart (Dev.apart_setW1c off m d)
@[simp] theorem Dev.setW1c_regs_loadedStaged (off : Nat) (m : W32) (d : Dev) : (d.setW1c off m).regs.loadedStaged = d.regs.loadedStaged :=
  Dev.regs_loadedStaged_of_apart (Dev.apart_setW1c off m d)
@[simp] theorem Dev.setW1c_regs_loaded (off : Nat) (m : W32) (d : Dev) : (d.setW1c off m).regs.loaded = d.regs.loaded :=
  Dev.regs_loaded_of_apart (Dev.apart_setW1c off m d)
@[simp] theorem Dev.setW1c_regs_commitTick (off : Nat) (m : W32) (d : Dev) : (d.setW1c off m).regs.commitTick = d.regs.commitTick :=
  Dev.regs_commitTick_of_apart (Dev.apart_setW1c off m d)
@[simp] theorem Dev.setW1c_host_inflight (off : Nat) (m : W32) (d : Dev) : (d.setW1c off m).host.inflight = d.host.inflight :=
  Dev.host_inflight_of_apart (Dev.apart_setW1c off m d)
@[simp] theorem Dev.setW1c_host_tel (off : Nat) (m : W32) (d : Dev) : (d.setW1c off m).host.tel = d.host.tel :=
  Dev.host_tel_of_apart (Dev.apart_setW1c off m d)
@[simp] theorem Dev.setW1c_host_telDue (off : Nat) (m : W32) (d : Dev) : (d.setW1c off m).host.telDue = d.host.telDue :=
  Dev.host_telDue_of_apart (Dev.apart_setW1c off m d)
@[simp] theorem Dev.setW1c_host_svcOut (off : Nat) (m : W32) (d : Dev) : (d.setW1c off m).host.svcOut = d.host.svcOut :=
  Dev.host_svcOut_of_apart (Dev.apart_setW1c off m d)
@[simp] theorem Dev.setW1c_host_wdStart (off : Nat) (m : W32) (d : Dev) : (d.setW1c off m).host.wdStart = d.host.wdStart :=
  Dev.host_wdStart_of_apart (Dev.apart_setW1c off m d)
@[simp] theorem Dev.setW1c_host_wdExpired (off : Nat) (m : W32) (d : Dev) : (d.setW1c off m).host.wdExpired = d.host.wdExpired :=
  Dev.host_wdExpired_of_apart (Dev.apart_setW1c off m d)
@[simp] theorem Dev.setW1c_host_linkUp (off : Nat) (m : W32) (d : Dev) : (d.setW1c off m).host.linkUp = d.host.linkUp :=
  Dev.host_linkUp_of_apart (Dev.apart_setW1c off m d)
@[simp] theorem Dev.setW1c_host_speed (off : Nat) (m : W32) (d : Dev) : (d.setW1c off m).host.speed = d.host.speed :=
  Dev.host_speed_of_apart (Dev.apart_setW1c off m d)
@[simp] theorem Dev.setW1c_host_width (off : Nat) (m : W32) (d : Dev) : (d.setW1c off m).host.width = d.host.width :=
  Dev.host_width_of_apart (Dev.apart_setW1c off m d)
@[simp] theorem Dev.setW1c_host_svcErr (off : Nat) (m : W32) (d : Dev) : (d.setW1c off m).host.svcErr = d.host.svcErr :=
  Dev.host_svcErr_of_apart (Dev.apart_setW1c off m d)
@[simp] theorem Dev.setW1c_host_cmdCnt (off : Nat) (m : W32) (d : Dev) : (d.setW1c off m).host.cmdCnt = d.host.cmdCnt :=
  Dev.host_cmdCnt_of_apart (Dev.apart_setW1c off m d)
@[simp] theorem Dev.setW1c_host_cmdErrCnt (off : Nat) (m : W32) (d : Dev) : (d.setW1c off m).host.cmdErrCnt = d.host.cmdErrCnt :=
  Dev.host_cmdErrCnt_of_apart (Dev.apart_setW1c off m d)
@[simp] theorem Dev.setW1c_host_dbDiscCnt (off : Nat) (m : W32) (d : Dev) : (d.setW1c off m).host.dbDiscCnt = d.host.dbDiscCnt :=
  Dev.host_dbDiscCnt_of_apart (Dev.apart_setW1c off m d)
@[simp] theorem Dev.setW1c_host_accErrCnt (off : Nat) (m : W32) (d : Dev) : (d.setW1c off m).host.accErrCnt = d.host.accErrCnt :=
  Dev.host_accErrCnt_of_apart (Dev.apart_setW1c off m d)
@[simp] theorem Dev.setW1c_host_cplLostCnt (off : Nat) (m : W32) (d : Dev) : (d.setW1c off m).host.cplLostCnt = d.host.cplLostCnt :=
  Dev.host_cplLostCnt_of_apart (Dev.apart_setW1c off m d)
@[simp] theorem Dev.setW1c_host_telSkipCnt (off : Nat) (m : W32) (d : Dev) : (d.setW1c off m).host.telSkipCnt = d.host.telSkipCnt :=
  Dev.host_telSkipCnt_of_apart (Dev.apart_setW1c off m d)
@[simp] theorem Dev.setW1c_host_fenLostCnt (off : Nat) (m : W32) (d : Dev) : (d.setW1c off m).host.fenLostCnt = d.host.fenLostCnt :=
  Dev.host_fenLostCnt_of_apart (Dev.apart_setW1c off m d)
@[simp] theorem Dev.setW1c_host_svcIgnCnt (off : Nat) (m : W32) (d : Dev) : (d.setW1c off m).host.svcIgnCnt = d.host.svcIgnCnt :=
  Dev.host_svcIgnCnt_of_apart (Dev.apart_setW1c off m d)

@[simp] theorem Dev.setBit_ang (off bit : Nat) (d : Dev) : (d.setBit off bit).ang = d.ang :=
  Dev.ang_of_apart (Dev.apart_setBit off bit d)
@[simp] theorem Dev.setBit_gfm (off bit : Nat) (d : Dev) : (d.setBit off bit).gfm = d.gfm :=
  Dev.gfm_of_apart (Dev.apart_setBit off bit d)
@[simp] theorem Dev.setBit_prof (off bit : Nat) (d : Dev) : (d.setBit off bit).prof = d.prof :=
  Dev.prof_of_apart (Dev.apart_setBit off bit d)
@[simp] theorem Dev.setBit_loop (off bit : Nat) (d : Dev) : (d.setBit off bit).loop = d.loop :=
  Dev.loop_of_apart (Dev.apart_setBit off bit d)
@[simp] theorem Dev.setBit_sup (off bit : Nat) (d : Dev) : (d.setBit off bit).sup = d.sup :=
  Dev.sup_of_apart (Dev.apart_setBit off bit d)
@[simp] theorem Dev.setBit_mod (off bit : Nat) (d : Dev) : (d.setBit off bit).mod = d.mod :=
  Dev.mod_of_apart (Dev.apart_setBit off bit d)
@[simp] theorem Dev.setBit_pwm (off bit : Nat) (d : Dev) : (d.setBit off bit).pwm = d.pwm :=
  Dev.pwm_of_apart (Dev.apart_setBit off bit d)
@[simp] theorem Dev.setBit_pen (off bit : Nat) (d : Dev) : (d.setBit off bit).pen = d.pen :=
  Dev.pen_of_apart (Dev.apart_setBit off bit d)
@[simp] theorem Dev.setBit_pnt (off bit : Nat) (d : Dev) : (d.setBit off bit).pnt = d.pnt :=
  Dev.pnt_of_apart (Dev.apart_setBit off bit d)
@[simp] theorem Dev.setBit_adc (off bit : Nat) (d : Dev) : (d.setBit off bit).adc = d.adc :=
  Dev.adc_of_apart (Dev.apart_setBit off bit d)
@[simp] theorem Dev.setBit_acq (off bit : Nat) (d : Dev) : (d.setBit off bit).acq = d.acq :=
  Dev.acq_of_apart (Dev.apart_setBit off bit d)
@[simp] theorem Dev.setBit_clk (off bit : Nat) (d : Dev) : (d.setBit off bit).clk = d.clk :=
  Dev.clk_of_apart (Dev.apart_setBit off bit d)
@[simp] theorem Dev.setBit_twn (off bit : Nat) (d : Dev) : (d.setBit off bit).twn = d.twn :=
  Dev.twn_of_apart (Dev.apart_setBit off bit d)
@[simp] theorem Dev.setBit_fen (off bit : Nat) (d : Dev) : (d.setBit off bit).fen = d.fen :=
  Dev.fen_of_apart (Dev.apart_setBit off bit d)
@[simp] theorem Dev.setBit_sec (off bit : Nat) (d : Dev) : (d.setBit off bit).sec = d.sec :=
  Dev.sec_of_apart (Dev.apart_setBit off bit d)
@[simp] theorem Dev.setBit_hk (off bit : Nat) (d : Dev) : (d.setBit off bit).hk = d.hk :=
  Dev.hk_of_apart (Dev.apart_setBit off bit d)
@[simp] theorem Dev.setBit_aux (off bit : Nat) (d : Dev) : (d.setBit off bit).aux = d.aux :=
  Dev.aux_of_apart (Dev.apart_setBit off bit d)
@[simp] theorem Dev.setBit_lrd (off bit : Nat) (d : Dev) : (d.setBit off bit).lrd = d.lrd :=
  Dev.lrd_of_apart (Dev.apart_setBit off bit d)
@[simp] theorem Dev.setBit_sys (off bit : Nat) (d : Dev) : (d.setBit off bit).sys = d.sys :=
  Dev.sys_of_apart (Dev.apart_setBit off bit d)
@[simp] theorem Dev.setBit_free (off bit : Nat) (d : Dev) : (d.setBit off bit).free = d.free :=
  Dev.free_of_apart (Dev.apart_setBit off bit d)
@[simp] theorem Dev.setBit_regs_staged (off bit : Nat) (d : Dev) : (d.setBit off bit).regs.staged = d.regs.staged :=
  Dev.regs_staged_of_apart (Dev.apart_setBit off bit d)
@[simp] theorem Dev.setBit_regs_active (off bit : Nat) (d : Dev) : (d.setBit off bit).regs.active = d.regs.active :=
  Dev.regs_active_of_apart (Dev.apart_setBit off bit d)
@[simp] theorem Dev.setBit_regs_inForce (off bit : Nat) (d : Dev) : (d.setBit off bit).regs.inForce = d.regs.inForce :=
  Dev.regs_inForce_of_apart (Dev.apart_setBit off bit d)
@[simp] theorem Dev.setBit_regs_snaps (off bit : Nat) (d : Dev) : (d.setBit off bit).regs.snaps = d.regs.snaps :=
  Dev.regs_snaps_of_apart (Dev.apart_setBit off bit d)
@[simp] theorem Dev.setBit_regs_due (off bit : Nat) (d : Dev) : (d.setBit off bit).regs.due = d.regs.due :=
  Dev.regs_due_of_apart (Dev.apart_setBit off bit d)
@[simp] theorem Dev.setBit_regs_loadedStaged (off bit : Nat) (d : Dev) : (d.setBit off bit).regs.loadedStaged = d.regs.loadedStaged :=
  Dev.regs_loadedStaged_of_apart (Dev.apart_setBit off bit d)
@[simp] theorem Dev.setBit_regs_loaded (off bit : Nat) (d : Dev) : (d.setBit off bit).regs.loaded = d.regs.loaded :=
  Dev.regs_loaded_of_apart (Dev.apart_setBit off bit d)
@[simp] theorem Dev.setBit_regs_commitTick (off bit : Nat) (d : Dev) : (d.setBit off bit).regs.commitTick = d.regs.commitTick :=
  Dev.regs_commitTick_of_apart (Dev.apart_setBit off bit d)
@[simp] theorem Dev.setBit_host_inflight (off bit : Nat) (d : Dev) : (d.setBit off bit).host.inflight = d.host.inflight :=
  Dev.host_inflight_of_apart (Dev.apart_setBit off bit d)
@[simp] theorem Dev.setBit_host_tel (off bit : Nat) (d : Dev) : (d.setBit off bit).host.tel = d.host.tel :=
  Dev.host_tel_of_apart (Dev.apart_setBit off bit d)
@[simp] theorem Dev.setBit_host_telDue (off bit : Nat) (d : Dev) : (d.setBit off bit).host.telDue = d.host.telDue :=
  Dev.host_telDue_of_apart (Dev.apart_setBit off bit d)
@[simp] theorem Dev.setBit_host_svcOut (off bit : Nat) (d : Dev) : (d.setBit off bit).host.svcOut = d.host.svcOut :=
  Dev.host_svcOut_of_apart (Dev.apart_setBit off bit d)
@[simp] theorem Dev.setBit_host_wdStart (off bit : Nat) (d : Dev) : (d.setBit off bit).host.wdStart = d.host.wdStart :=
  Dev.host_wdStart_of_apart (Dev.apart_setBit off bit d)
@[simp] theorem Dev.setBit_host_wdExpired (off bit : Nat) (d : Dev) : (d.setBit off bit).host.wdExpired = d.host.wdExpired :=
  Dev.host_wdExpired_of_apart (Dev.apart_setBit off bit d)
@[simp] theorem Dev.setBit_host_linkUp (off bit : Nat) (d : Dev) : (d.setBit off bit).host.linkUp = d.host.linkUp :=
  Dev.host_linkUp_of_apart (Dev.apart_setBit off bit d)
@[simp] theorem Dev.setBit_host_speed (off bit : Nat) (d : Dev) : (d.setBit off bit).host.speed = d.host.speed :=
  Dev.host_speed_of_apart (Dev.apart_setBit off bit d)
@[simp] theorem Dev.setBit_host_width (off bit : Nat) (d : Dev) : (d.setBit off bit).host.width = d.host.width :=
  Dev.host_width_of_apart (Dev.apart_setBit off bit d)
@[simp] theorem Dev.setBit_host_svcErr (off bit : Nat) (d : Dev) : (d.setBit off bit).host.svcErr = d.host.svcErr :=
  Dev.host_svcErr_of_apart (Dev.apart_setBit off bit d)
@[simp] theorem Dev.setBit_host_cmdCnt (off bit : Nat) (d : Dev) : (d.setBit off bit).host.cmdCnt = d.host.cmdCnt :=
  Dev.host_cmdCnt_of_apart (Dev.apart_setBit off bit d)
@[simp] theorem Dev.setBit_host_cmdErrCnt (off bit : Nat) (d : Dev) : (d.setBit off bit).host.cmdErrCnt = d.host.cmdErrCnt :=
  Dev.host_cmdErrCnt_of_apart (Dev.apart_setBit off bit d)
@[simp] theorem Dev.setBit_host_dbDiscCnt (off bit : Nat) (d : Dev) : (d.setBit off bit).host.dbDiscCnt = d.host.dbDiscCnt :=
  Dev.host_dbDiscCnt_of_apart (Dev.apart_setBit off bit d)
@[simp] theorem Dev.setBit_host_accErrCnt (off bit : Nat) (d : Dev) : (d.setBit off bit).host.accErrCnt = d.host.accErrCnt :=
  Dev.host_accErrCnt_of_apart (Dev.apart_setBit off bit d)
@[simp] theorem Dev.setBit_host_cplLostCnt (off bit : Nat) (d : Dev) : (d.setBit off bit).host.cplLostCnt = d.host.cplLostCnt :=
  Dev.host_cplLostCnt_of_apart (Dev.apart_setBit off bit d)
@[simp] theorem Dev.setBit_host_telSkipCnt (off bit : Nat) (d : Dev) : (d.setBit off bit).host.telSkipCnt = d.host.telSkipCnt :=
  Dev.host_telSkipCnt_of_apart (Dev.apart_setBit off bit d)
@[simp] theorem Dev.setBit_host_fenLostCnt (off bit : Nat) (d : Dev) : (d.setBit off bit).host.fenLostCnt = d.host.fenLostCnt :=
  Dev.host_fenLostCnt_of_apart (Dev.apart_setBit off bit d)
@[simp] theorem Dev.setBit_host_svcIgnCnt (off bit : Nat) (d : Dev) : (d.setBit off bit).host.svcIgnCnt = d.host.svcIgnCnt :=
  Dev.host_svcIgnCnt_of_apart (Dev.apart_setBit off bit d)

@[simp] theorem Dev.post_ang (a : Nat) (bs : List Byte) (d : Dev) : (d.post a bs).ang = d.ang :=
  Dev.ang_of_apart (Dev.apart_post a bs d)
@[simp] theorem Dev.post_gfm (a : Nat) (bs : List Byte) (d : Dev) : (d.post a bs).gfm = d.gfm :=
  Dev.gfm_of_apart (Dev.apart_post a bs d)
@[simp] theorem Dev.post_prof (a : Nat) (bs : List Byte) (d : Dev) : (d.post a bs).prof = d.prof :=
  Dev.prof_of_apart (Dev.apart_post a bs d)
@[simp] theorem Dev.post_loop (a : Nat) (bs : List Byte) (d : Dev) : (d.post a bs).loop = d.loop :=
  Dev.loop_of_apart (Dev.apart_post a bs d)
@[simp] theorem Dev.post_sup (a : Nat) (bs : List Byte) (d : Dev) : (d.post a bs).sup = d.sup :=
  Dev.sup_of_apart (Dev.apart_post a bs d)
@[simp] theorem Dev.post_mod (a : Nat) (bs : List Byte) (d : Dev) : (d.post a bs).mod = d.mod :=
  Dev.mod_of_apart (Dev.apart_post a bs d)
@[simp] theorem Dev.post_pwm (a : Nat) (bs : List Byte) (d : Dev) : (d.post a bs).pwm = d.pwm :=
  Dev.pwm_of_apart (Dev.apart_post a bs d)
@[simp] theorem Dev.post_pen (a : Nat) (bs : List Byte) (d : Dev) : (d.post a bs).pen = d.pen :=
  Dev.pen_of_apart (Dev.apart_post a bs d)
@[simp] theorem Dev.post_pnt (a : Nat) (bs : List Byte) (d : Dev) : (d.post a bs).pnt = d.pnt :=
  Dev.pnt_of_apart (Dev.apart_post a bs d)
@[simp] theorem Dev.post_adc (a : Nat) (bs : List Byte) (d : Dev) : (d.post a bs).adc = d.adc :=
  Dev.adc_of_apart (Dev.apart_post a bs d)
@[simp] theorem Dev.post_acq (a : Nat) (bs : List Byte) (d : Dev) : (d.post a bs).acq = d.acq :=
  Dev.acq_of_apart (Dev.apart_post a bs d)
@[simp] theorem Dev.post_clk (a : Nat) (bs : List Byte) (d : Dev) : (d.post a bs).clk = d.clk :=
  Dev.clk_of_apart (Dev.apart_post a bs d)
@[simp] theorem Dev.post_twn (a : Nat) (bs : List Byte) (d : Dev) : (d.post a bs).twn = d.twn :=
  Dev.twn_of_apart (Dev.apart_post a bs d)
@[simp] theorem Dev.post_fen (a : Nat) (bs : List Byte) (d : Dev) : (d.post a bs).fen = d.fen :=
  Dev.fen_of_apart (Dev.apart_post a bs d)
@[simp] theorem Dev.post_sec (a : Nat) (bs : List Byte) (d : Dev) : (d.post a bs).sec = d.sec :=
  Dev.sec_of_apart (Dev.apart_post a bs d)
@[simp] theorem Dev.post_hk (a : Nat) (bs : List Byte) (d : Dev) : (d.post a bs).hk = d.hk :=
  Dev.hk_of_apart (Dev.apart_post a bs d)
@[simp] theorem Dev.post_aux (a : Nat) (bs : List Byte) (d : Dev) : (d.post a bs).aux = d.aux :=
  Dev.aux_of_apart (Dev.apart_post a bs d)
@[simp] theorem Dev.post_lrd (a : Nat) (bs : List Byte) (d : Dev) : (d.post a bs).lrd = d.lrd :=
  Dev.lrd_of_apart (Dev.apart_post a bs d)
@[simp] theorem Dev.post_sys (a : Nat) (bs : List Byte) (d : Dev) : (d.post a bs).sys = d.sys :=
  Dev.sys_of_apart (Dev.apart_post a bs d)
@[simp] theorem Dev.post_free (a : Nat) (bs : List Byte) (d : Dev) : (d.post a bs).free = d.free :=
  Dev.free_of_apart (Dev.apart_post a bs d)

@[simp] theorem Dev.setRing_ang (r : Nat) (v : Ring) (d : Dev) : (d.setRing r v).ang = d.ang :=
  Dev.ang_of_apart (Dev.apart_setRing r v d)
@[simp] theorem Dev.setRing_gfm (r : Nat) (v : Ring) (d : Dev) : (d.setRing r v).gfm = d.gfm :=
  Dev.gfm_of_apart (Dev.apart_setRing r v d)
@[simp] theorem Dev.setRing_prof (r : Nat) (v : Ring) (d : Dev) : (d.setRing r v).prof = d.prof :=
  Dev.prof_of_apart (Dev.apart_setRing r v d)
@[simp] theorem Dev.setRing_loop (r : Nat) (v : Ring) (d : Dev) : (d.setRing r v).loop = d.loop :=
  Dev.loop_of_apart (Dev.apart_setRing r v d)
@[simp] theorem Dev.setRing_sup (r : Nat) (v : Ring) (d : Dev) : (d.setRing r v).sup = d.sup :=
  Dev.sup_of_apart (Dev.apart_setRing r v d)
@[simp] theorem Dev.setRing_mod (r : Nat) (v : Ring) (d : Dev) : (d.setRing r v).mod = d.mod :=
  Dev.mod_of_apart (Dev.apart_setRing r v d)
@[simp] theorem Dev.setRing_pwm (r : Nat) (v : Ring) (d : Dev) : (d.setRing r v).pwm = d.pwm :=
  Dev.pwm_of_apart (Dev.apart_setRing r v d)
@[simp] theorem Dev.setRing_pen (r : Nat) (v : Ring) (d : Dev) : (d.setRing r v).pen = d.pen :=
  Dev.pen_of_apart (Dev.apart_setRing r v d)
@[simp] theorem Dev.setRing_pnt (r : Nat) (v : Ring) (d : Dev) : (d.setRing r v).pnt = d.pnt :=
  Dev.pnt_of_apart (Dev.apart_setRing r v d)
@[simp] theorem Dev.setRing_adc (r : Nat) (v : Ring) (d : Dev) : (d.setRing r v).adc = d.adc :=
  Dev.adc_of_apart (Dev.apart_setRing r v d)
@[simp] theorem Dev.setRing_acq (r : Nat) (v : Ring) (d : Dev) : (d.setRing r v).acq = d.acq :=
  Dev.acq_of_apart (Dev.apart_setRing r v d)
@[simp] theorem Dev.setRing_clk (r : Nat) (v : Ring) (d : Dev) : (d.setRing r v).clk = d.clk :=
  Dev.clk_of_apart (Dev.apart_setRing r v d)
@[simp] theorem Dev.setRing_twn (r : Nat) (v : Ring) (d : Dev) : (d.setRing r v).twn = d.twn :=
  Dev.twn_of_apart (Dev.apart_setRing r v d)
@[simp] theorem Dev.setRing_fen (r : Nat) (v : Ring) (d : Dev) : (d.setRing r v).fen = d.fen :=
  Dev.fen_of_apart (Dev.apart_setRing r v d)
@[simp] theorem Dev.setRing_sec (r : Nat) (v : Ring) (d : Dev) : (d.setRing r v).sec = d.sec :=
  Dev.sec_of_apart (Dev.apart_setRing r v d)
@[simp] theorem Dev.setRing_hk (r : Nat) (v : Ring) (d : Dev) : (d.setRing r v).hk = d.hk :=
  Dev.hk_of_apart (Dev.apart_setRing r v d)
@[simp] theorem Dev.setRing_aux (r : Nat) (v : Ring) (d : Dev) : (d.setRing r v).aux = d.aux :=
  Dev.aux_of_apart (Dev.apart_setRing r v d)
@[simp] theorem Dev.setRing_lrd (r : Nat) (v : Ring) (d : Dev) : (d.setRing r v).lrd = d.lrd :=
  Dev.lrd_of_apart (Dev.apart_setRing r v d)
@[simp] theorem Dev.setRing_sys (r : Nat) (v : Ring) (d : Dev) : (d.setRing r v).sys = d.sys :=
  Dev.sys_of_apart (Dev.apart_setRing r v d)
@[simp] theorem Dev.setRing_free (r : Nat) (v : Ring) (d : Dev) : (d.setRing r v).free = d.free :=
  Dev.free_of_apart (Dev.apart_setRing r v d)

@[simp] theorem Dev.setVec_ang (v : Nat) (x : MsixVec) (d : Dev) : (d.setVec v x).ang = d.ang :=
  Dev.ang_of_apart (Dev.apart_setVec v x d)
@[simp] theorem Dev.setVec_gfm (v : Nat) (x : MsixVec) (d : Dev) : (d.setVec v x).gfm = d.gfm :=
  Dev.gfm_of_apart (Dev.apart_setVec v x d)
@[simp] theorem Dev.setVec_prof (v : Nat) (x : MsixVec) (d : Dev) : (d.setVec v x).prof = d.prof :=
  Dev.prof_of_apart (Dev.apart_setVec v x d)
@[simp] theorem Dev.setVec_loop (v : Nat) (x : MsixVec) (d : Dev) : (d.setVec v x).loop = d.loop :=
  Dev.loop_of_apart (Dev.apart_setVec v x d)
@[simp] theorem Dev.setVec_sup (v : Nat) (x : MsixVec) (d : Dev) : (d.setVec v x).sup = d.sup :=
  Dev.sup_of_apart (Dev.apart_setVec v x d)
@[simp] theorem Dev.setVec_mod (v : Nat) (x : MsixVec) (d : Dev) : (d.setVec v x).mod = d.mod :=
  Dev.mod_of_apart (Dev.apart_setVec v x d)
@[simp] theorem Dev.setVec_pwm (v : Nat) (x : MsixVec) (d : Dev) : (d.setVec v x).pwm = d.pwm :=
  Dev.pwm_of_apart (Dev.apart_setVec v x d)
@[simp] theorem Dev.setVec_pen (v : Nat) (x : MsixVec) (d : Dev) : (d.setVec v x).pen = d.pen :=
  Dev.pen_of_apart (Dev.apart_setVec v x d)
@[simp] theorem Dev.setVec_pnt (v : Nat) (x : MsixVec) (d : Dev) : (d.setVec v x).pnt = d.pnt :=
  Dev.pnt_of_apart (Dev.apart_setVec v x d)
@[simp] theorem Dev.setVec_adc (v : Nat) (x : MsixVec) (d : Dev) : (d.setVec v x).adc = d.adc :=
  Dev.adc_of_apart (Dev.apart_setVec v x d)
@[simp] theorem Dev.setVec_acq (v : Nat) (x : MsixVec) (d : Dev) : (d.setVec v x).acq = d.acq :=
  Dev.acq_of_apart (Dev.apart_setVec v x d)
@[simp] theorem Dev.setVec_clk (v : Nat) (x : MsixVec) (d : Dev) : (d.setVec v x).clk = d.clk :=
  Dev.clk_of_apart (Dev.apart_setVec v x d)
@[simp] theorem Dev.setVec_twn (v : Nat) (x : MsixVec) (d : Dev) : (d.setVec v x).twn = d.twn :=
  Dev.twn_of_apart (Dev.apart_setVec v x d)
@[simp] theorem Dev.setVec_fen (v : Nat) (x : MsixVec) (d : Dev) : (d.setVec v x).fen = d.fen :=
  Dev.fen_of_apart (Dev.apart_setVec v x d)
@[simp] theorem Dev.setVec_sec (v : Nat) (x : MsixVec) (d : Dev) : (d.setVec v x).sec = d.sec :=
  Dev.sec_of_apart (Dev.apart_setVec v x d)
@[simp] theorem Dev.setVec_hk (v : Nat) (x : MsixVec) (d : Dev) : (d.setVec v x).hk = d.hk :=
  Dev.hk_of_apart (Dev.apart_setVec v x d)
@[simp] theorem Dev.setVec_aux (v : Nat) (x : MsixVec) (d : Dev) : (d.setVec v x).aux = d.aux :=
  Dev.aux_of_apart (Dev.apart_setVec v x d)
@[simp] theorem Dev.setVec_lrd (v : Nat) (x : MsixVec) (d : Dev) : (d.setVec v x).lrd = d.lrd :=
  Dev.lrd_of_apart (Dev.apart_setVec v x d)
@[simp] theorem Dev.setVec_sys (v : Nat) (x : MsixVec) (d : Dev) : (d.setVec v x).sys = d.sys :=
  Dev.sys_of_apart (Dev.apart_setVec v x d)
@[simp] theorem Dev.setVec_free (v : Nat) (x : MsixVec) (d : Dev) : (d.setVec v x).free = d.free :=
  Dev.free_of_apart (Dev.apart_setVec v x d)

@[simp] theorem Dev.sendMsi_ang (v : Nat) (d : Dev) : (d.sendMsi v).ang = d.ang :=
  Dev.ang_of_apart (Dev.apart_sendMsi v d)
@[simp] theorem Dev.sendMsi_gfm (v : Nat) (d : Dev) : (d.sendMsi v).gfm = d.gfm :=
  Dev.gfm_of_apart (Dev.apart_sendMsi v d)
@[simp] theorem Dev.sendMsi_prof (v : Nat) (d : Dev) : (d.sendMsi v).prof = d.prof :=
  Dev.prof_of_apart (Dev.apart_sendMsi v d)
@[simp] theorem Dev.sendMsi_loop (v : Nat) (d : Dev) : (d.sendMsi v).loop = d.loop :=
  Dev.loop_of_apart (Dev.apart_sendMsi v d)
@[simp] theorem Dev.sendMsi_sup (v : Nat) (d : Dev) : (d.sendMsi v).sup = d.sup :=
  Dev.sup_of_apart (Dev.apart_sendMsi v d)
@[simp] theorem Dev.sendMsi_mod (v : Nat) (d : Dev) : (d.sendMsi v).mod = d.mod :=
  Dev.mod_of_apart (Dev.apart_sendMsi v d)
@[simp] theorem Dev.sendMsi_pwm (v : Nat) (d : Dev) : (d.sendMsi v).pwm = d.pwm :=
  Dev.pwm_of_apart (Dev.apart_sendMsi v d)
@[simp] theorem Dev.sendMsi_pen (v : Nat) (d : Dev) : (d.sendMsi v).pen = d.pen :=
  Dev.pen_of_apart (Dev.apart_sendMsi v d)
@[simp] theorem Dev.sendMsi_pnt (v : Nat) (d : Dev) : (d.sendMsi v).pnt = d.pnt :=
  Dev.pnt_of_apart (Dev.apart_sendMsi v d)
@[simp] theorem Dev.sendMsi_adc (v : Nat) (d : Dev) : (d.sendMsi v).adc = d.adc :=
  Dev.adc_of_apart (Dev.apart_sendMsi v d)
@[simp] theorem Dev.sendMsi_acq (v : Nat) (d : Dev) : (d.sendMsi v).acq = d.acq :=
  Dev.acq_of_apart (Dev.apart_sendMsi v d)
@[simp] theorem Dev.sendMsi_clk (v : Nat) (d : Dev) : (d.sendMsi v).clk = d.clk :=
  Dev.clk_of_apart (Dev.apart_sendMsi v d)
@[simp] theorem Dev.sendMsi_twn (v : Nat) (d : Dev) : (d.sendMsi v).twn = d.twn :=
  Dev.twn_of_apart (Dev.apart_sendMsi v d)
@[simp] theorem Dev.sendMsi_fen (v : Nat) (d : Dev) : (d.sendMsi v).fen = d.fen :=
  Dev.fen_of_apart (Dev.apart_sendMsi v d)
@[simp] theorem Dev.sendMsi_sec (v : Nat) (d : Dev) : (d.sendMsi v).sec = d.sec :=
  Dev.sec_of_apart (Dev.apart_sendMsi v d)
@[simp] theorem Dev.sendMsi_hk (v : Nat) (d : Dev) : (d.sendMsi v).hk = d.hk :=
  Dev.hk_of_apart (Dev.apart_sendMsi v d)
@[simp] theorem Dev.sendMsi_aux (v : Nat) (d : Dev) : (d.sendMsi v).aux = d.aux :=
  Dev.aux_of_apart (Dev.apart_sendMsi v d)
@[simp] theorem Dev.sendMsi_lrd (v : Nat) (d : Dev) : (d.sendMsi v).lrd = d.lrd :=
  Dev.lrd_of_apart (Dev.apart_sendMsi v d)
@[simp] theorem Dev.sendMsi_sys (v : Nat) (d : Dev) : (d.sendMsi v).sys = d.sys :=
  Dev.sys_of_apart (Dev.apart_sendMsi v d)
@[simp] theorem Dev.sendMsi_free (v : Nat) (d : Dev) : (d.sendMsi v).free = d.free :=
  Dev.free_of_apart (Dev.apart_sendMsi v d)

@[simp] theorem Dev.shadow_ang (r v : Nat) (d : Dev) : (d.shadow r v).ang = d.ang :=
  Dev.ang_of_apart (Dev.apart_shadow r v d)
@[simp] theorem Dev.shadow_gfm (r v : Nat) (d : Dev) : (d.shadow r v).gfm = d.gfm :=
  Dev.gfm_of_apart (Dev.apart_shadow r v d)
@[simp] theorem Dev.shadow_prof (r v : Nat) (d : Dev) : (d.shadow r v).prof = d.prof :=
  Dev.prof_of_apart (Dev.apart_shadow r v d)
@[simp] theorem Dev.shadow_loop (r v : Nat) (d : Dev) : (d.shadow r v).loop = d.loop :=
  Dev.loop_of_apart (Dev.apart_shadow r v d)
@[simp] theorem Dev.shadow_sup (r v : Nat) (d : Dev) : (d.shadow r v).sup = d.sup :=
  Dev.sup_of_apart (Dev.apart_shadow r v d)
@[simp] theorem Dev.shadow_mod (r v : Nat) (d : Dev) : (d.shadow r v).mod = d.mod :=
  Dev.mod_of_apart (Dev.apart_shadow r v d)
@[simp] theorem Dev.shadow_pwm (r v : Nat) (d : Dev) : (d.shadow r v).pwm = d.pwm :=
  Dev.pwm_of_apart (Dev.apart_shadow r v d)
@[simp] theorem Dev.shadow_pen (r v : Nat) (d : Dev) : (d.shadow r v).pen = d.pen :=
  Dev.pen_of_apart (Dev.apart_shadow r v d)
@[simp] theorem Dev.shadow_pnt (r v : Nat) (d : Dev) : (d.shadow r v).pnt = d.pnt :=
  Dev.pnt_of_apart (Dev.apart_shadow r v d)
@[simp] theorem Dev.shadow_adc (r v : Nat) (d : Dev) : (d.shadow r v).adc = d.adc :=
  Dev.adc_of_apart (Dev.apart_shadow r v d)
@[simp] theorem Dev.shadow_acq (r v : Nat) (d : Dev) : (d.shadow r v).acq = d.acq :=
  Dev.acq_of_apart (Dev.apart_shadow r v d)
@[simp] theorem Dev.shadow_clk (r v : Nat) (d : Dev) : (d.shadow r v).clk = d.clk :=
  Dev.clk_of_apart (Dev.apart_shadow r v d)
@[simp] theorem Dev.shadow_twn (r v : Nat) (d : Dev) : (d.shadow r v).twn = d.twn :=
  Dev.twn_of_apart (Dev.apart_shadow r v d)
@[simp] theorem Dev.shadow_fen (r v : Nat) (d : Dev) : (d.shadow r v).fen = d.fen :=
  Dev.fen_of_apart (Dev.apart_shadow r v d)
@[simp] theorem Dev.shadow_sec (r v : Nat) (d : Dev) : (d.shadow r v).sec = d.sec :=
  Dev.sec_of_apart (Dev.apart_shadow r v d)
@[simp] theorem Dev.shadow_hk (r v : Nat) (d : Dev) : (d.shadow r v).hk = d.hk :=
  Dev.hk_of_apart (Dev.apart_shadow r v d)
@[simp] theorem Dev.shadow_aux (r v : Nat) (d : Dev) : (d.shadow r v).aux = d.aux :=
  Dev.aux_of_apart (Dev.apart_shadow r v d)
@[simp] theorem Dev.shadow_lrd (r v : Nat) (d : Dev) : (d.shadow r v).lrd = d.lrd :=
  Dev.lrd_of_apart (Dev.apart_shadow r v d)
@[simp] theorem Dev.shadow_sys (r v : Nat) (d : Dev) : (d.shadow r v).sys = d.sys :=
  Dev.sys_of_apart (Dev.apart_shadow r v d)
@[simp] theorem Dev.shadow_free (r v : Nat) (d : Dev) : (d.shadow r v).free = d.free :=
  Dev.free_of_apart (Dev.apart_shadow r v d)

@[simp] theorem Dev.irq_ang (n : Nat) (d : Dev) : (d.irq n).ang = d.ang :=
  Dev.ang_of_apart (Dev.apart_irq n d)
@[simp] theorem Dev.irq_gfm (n : Nat) (d : Dev) : (d.irq n).gfm = d.gfm :=
  Dev.gfm_of_apart (Dev.apart_irq n d)
@[simp] theorem Dev.irq_prof (n : Nat) (d : Dev) : (d.irq n).prof = d.prof :=
  Dev.prof_of_apart (Dev.apart_irq n d)
@[simp] theorem Dev.irq_loop (n : Nat) (d : Dev) : (d.irq n).loop = d.loop :=
  Dev.loop_of_apart (Dev.apart_irq n d)
@[simp] theorem Dev.irq_sup (n : Nat) (d : Dev) : (d.irq n).sup = d.sup :=
  Dev.sup_of_apart (Dev.apart_irq n d)
@[simp] theorem Dev.irq_mod (n : Nat) (d : Dev) : (d.irq n).mod = d.mod :=
  Dev.mod_of_apart (Dev.apart_irq n d)
@[simp] theorem Dev.irq_pwm (n : Nat) (d : Dev) : (d.irq n).pwm = d.pwm :=
  Dev.pwm_of_apart (Dev.apart_irq n d)
@[simp] theorem Dev.irq_pen (n : Nat) (d : Dev) : (d.irq n).pen = d.pen :=
  Dev.pen_of_apart (Dev.apart_irq n d)
@[simp] theorem Dev.irq_pnt (n : Nat) (d : Dev) : (d.irq n).pnt = d.pnt :=
  Dev.pnt_of_apart (Dev.apart_irq n d)
@[simp] theorem Dev.irq_adc (n : Nat) (d : Dev) : (d.irq n).adc = d.adc :=
  Dev.adc_of_apart (Dev.apart_irq n d)
@[simp] theorem Dev.irq_acq (n : Nat) (d : Dev) : (d.irq n).acq = d.acq :=
  Dev.acq_of_apart (Dev.apart_irq n d)
@[simp] theorem Dev.irq_clk (n : Nat) (d : Dev) : (d.irq n).clk = d.clk :=
  Dev.clk_of_apart (Dev.apart_irq n d)
@[simp] theorem Dev.irq_twn (n : Nat) (d : Dev) : (d.irq n).twn = d.twn :=
  Dev.twn_of_apart (Dev.apart_irq n d)
@[simp] theorem Dev.irq_fen (n : Nat) (d : Dev) : (d.irq n).fen = d.fen :=
  Dev.fen_of_apart (Dev.apart_irq n d)
@[simp] theorem Dev.irq_sec (n : Nat) (d : Dev) : (d.irq n).sec = d.sec :=
  Dev.sec_of_apart (Dev.apart_irq n d)
@[simp] theorem Dev.irq_hk (n : Nat) (d : Dev) : (d.irq n).hk = d.hk :=
  Dev.hk_of_apart (Dev.apart_irq n d)
@[simp] theorem Dev.irq_aux (n : Nat) (d : Dev) : (d.irq n).aux = d.aux :=
  Dev.aux_of_apart (Dev.apart_irq n d)
@[simp] theorem Dev.irq_lrd (n : Nat) (d : Dev) : (d.irq n).lrd = d.lrd :=
  Dev.lrd_of_apart (Dev.apart_irq n d)
@[simp] theorem Dev.irq_sys (n : Nat) (d : Dev) : (d.irq n).sys = d.sys :=
  Dev.sys_of_apart (Dev.apart_irq n d)
@[simp] theorem Dev.irq_free (n : Nat) (d : Dev) : (d.irq n).free = d.free :=
  Dev.free_of_apart (Dev.apart_irq n d)
@[simp] theorem Dev.irq_regs_staged (n : Nat) (d : Dev) : (d.irq n).regs.staged = d.regs.staged :=
  Dev.regs_staged_of_apart (Dev.apart_irq n d)
@[simp] theorem Dev.irq_regs_active (n : Nat) (d : Dev) : (d.irq n).regs.active = d.regs.active :=
  Dev.regs_active_of_apart (Dev.apart_irq n d)
@[simp] theorem Dev.irq_regs_inForce (n : Nat) (d : Dev) : (d.irq n).regs.inForce = d.regs.inForce :=
  Dev.regs_inForce_of_apart (Dev.apart_irq n d)
@[simp] theorem Dev.irq_regs_snaps (n : Nat) (d : Dev) : (d.irq n).regs.snaps = d.regs.snaps :=
  Dev.regs_snaps_of_apart (Dev.apart_irq n d)
@[simp] theorem Dev.irq_regs_due (n : Nat) (d : Dev) : (d.irq n).regs.due = d.regs.due :=
  Dev.regs_due_of_apart (Dev.apart_irq n d)
@[simp] theorem Dev.irq_regs_loadedStaged (n : Nat) (d : Dev) : (d.irq n).regs.loadedStaged = d.regs.loadedStaged :=
  Dev.regs_loadedStaged_of_apart (Dev.apart_irq n d)
@[simp] theorem Dev.irq_regs_loaded (n : Nat) (d : Dev) : (d.irq n).regs.loaded = d.regs.loaded :=
  Dev.regs_loaded_of_apart (Dev.apart_irq n d)
@[simp] theorem Dev.irq_regs_commitTick (n : Nat) (d : Dev) : (d.irq n).regs.commitTick = d.regs.commitTick :=
  Dev.regs_commitTick_of_apart (Dev.apart_irq n d)
@[simp] theorem Dev.irq_host_inflight (n : Nat) (d : Dev) : (d.irq n).host.inflight = d.host.inflight :=
  Dev.host_inflight_of_apart (Dev.apart_irq n d)
@[simp] theorem Dev.irq_host_tel (n : Nat) (d : Dev) : (d.irq n).host.tel = d.host.tel :=
  Dev.host_tel_of_apart (Dev.apart_irq n d)
@[simp] theorem Dev.irq_host_telDue (n : Nat) (d : Dev) : (d.irq n).host.telDue = d.host.telDue :=
  Dev.host_telDue_of_apart (Dev.apart_irq n d)
@[simp] theorem Dev.irq_host_svcOut (n : Nat) (d : Dev) : (d.irq n).host.svcOut = d.host.svcOut :=
  Dev.host_svcOut_of_apart (Dev.apart_irq n d)
@[simp] theorem Dev.irq_host_wdStart (n : Nat) (d : Dev) : (d.irq n).host.wdStart = d.host.wdStart :=
  Dev.host_wdStart_of_apart (Dev.apart_irq n d)
@[simp] theorem Dev.irq_host_wdExpired (n : Nat) (d : Dev) : (d.irq n).host.wdExpired = d.host.wdExpired :=
  Dev.host_wdExpired_of_apart (Dev.apart_irq n d)
@[simp] theorem Dev.irq_host_linkUp (n : Nat) (d : Dev) : (d.irq n).host.linkUp = d.host.linkUp :=
  Dev.host_linkUp_of_apart (Dev.apart_irq n d)
@[simp] theorem Dev.irq_host_speed (n : Nat) (d : Dev) : (d.irq n).host.speed = d.host.speed :=
  Dev.host_speed_of_apart (Dev.apart_irq n d)
@[simp] theorem Dev.irq_host_width (n : Nat) (d : Dev) : (d.irq n).host.width = d.host.width :=
  Dev.host_width_of_apart (Dev.apart_irq n d)
@[simp] theorem Dev.irq_host_svcErr (n : Nat) (d : Dev) : (d.irq n).host.svcErr = d.host.svcErr :=
  Dev.host_svcErr_of_apart (Dev.apart_irq n d)
@[simp] theorem Dev.irq_host_cmdCnt (n : Nat) (d : Dev) : (d.irq n).host.cmdCnt = d.host.cmdCnt :=
  Dev.host_cmdCnt_of_apart (Dev.apart_irq n d)
@[simp] theorem Dev.irq_host_cmdErrCnt (n : Nat) (d : Dev) : (d.irq n).host.cmdErrCnt = d.host.cmdErrCnt :=
  Dev.host_cmdErrCnt_of_apart (Dev.apart_irq n d)
@[simp] theorem Dev.irq_host_dbDiscCnt (n : Nat) (d : Dev) : (d.irq n).host.dbDiscCnt = d.host.dbDiscCnt :=
  Dev.host_dbDiscCnt_of_apart (Dev.apart_irq n d)
@[simp] theorem Dev.irq_host_accErrCnt (n : Nat) (d : Dev) : (d.irq n).host.accErrCnt = d.host.accErrCnt :=
  Dev.host_accErrCnt_of_apart (Dev.apart_irq n d)
@[simp] theorem Dev.irq_host_cplLostCnt (n : Nat) (d : Dev) : (d.irq n).host.cplLostCnt = d.host.cplLostCnt :=
  Dev.host_cplLostCnt_of_apart (Dev.apart_irq n d)
@[simp] theorem Dev.irq_host_telSkipCnt (n : Nat) (d : Dev) : (d.irq n).host.telSkipCnt = d.host.telSkipCnt :=
  Dev.host_telSkipCnt_of_apart (Dev.apart_irq n d)
@[simp] theorem Dev.irq_host_fenLostCnt (n : Nat) (d : Dev) : (d.irq n).host.fenLostCnt = d.host.fenLostCnt :=
  Dev.host_fenLostCnt_of_apart (Dev.apart_irq n d)
@[simp] theorem Dev.irq_host_svcIgnCnt (n : Nat) (d : Dev) : (d.irq n).host.svcIgnCnt = d.host.svcIgnCnt :=
  Dev.host_svcIgnCnt_of_apart (Dev.apart_irq n d)

@[simp] theorem Dev.putDesc_ang (r src : Nat) (bs : List Byte) (d : Dev) : (d.putDesc r src bs).ang = d.ang :=
  Dev.ang_of_apart (Dev.apart_putDesc r src bs d)
@[simp] theorem Dev.putDesc_gfm (r src : Nat) (bs : List Byte) (d : Dev) : (d.putDesc r src bs).gfm = d.gfm :=
  Dev.gfm_of_apart (Dev.apart_putDesc r src bs d)
@[simp] theorem Dev.putDesc_prof (r src : Nat) (bs : List Byte) (d : Dev) : (d.putDesc r src bs).prof = d.prof :=
  Dev.prof_of_apart (Dev.apart_putDesc r src bs d)
@[simp] theorem Dev.putDesc_loop (r src : Nat) (bs : List Byte) (d : Dev) : (d.putDesc r src bs).loop = d.loop :=
  Dev.loop_of_apart (Dev.apart_putDesc r src bs d)
@[simp] theorem Dev.putDesc_sup (r src : Nat) (bs : List Byte) (d : Dev) : (d.putDesc r src bs).sup = d.sup :=
  Dev.sup_of_apart (Dev.apart_putDesc r src bs d)
@[simp] theorem Dev.putDesc_mod (r src : Nat) (bs : List Byte) (d : Dev) : (d.putDesc r src bs).mod = d.mod :=
  Dev.mod_of_apart (Dev.apart_putDesc r src bs d)
@[simp] theorem Dev.putDesc_pwm (r src : Nat) (bs : List Byte) (d : Dev) : (d.putDesc r src bs).pwm = d.pwm :=
  Dev.pwm_of_apart (Dev.apart_putDesc r src bs d)
@[simp] theorem Dev.putDesc_pen (r src : Nat) (bs : List Byte) (d : Dev) : (d.putDesc r src bs).pen = d.pen :=
  Dev.pen_of_apart (Dev.apart_putDesc r src bs d)
@[simp] theorem Dev.putDesc_pnt (r src : Nat) (bs : List Byte) (d : Dev) : (d.putDesc r src bs).pnt = d.pnt :=
  Dev.pnt_of_apart (Dev.apart_putDesc r src bs d)
@[simp] theorem Dev.putDesc_adc (r src : Nat) (bs : List Byte) (d : Dev) : (d.putDesc r src bs).adc = d.adc :=
  Dev.adc_of_apart (Dev.apart_putDesc r src bs d)
@[simp] theorem Dev.putDesc_acq (r src : Nat) (bs : List Byte) (d : Dev) : (d.putDesc r src bs).acq = d.acq :=
  Dev.acq_of_apart (Dev.apart_putDesc r src bs d)
@[simp] theorem Dev.putDesc_clk (r src : Nat) (bs : List Byte) (d : Dev) : (d.putDesc r src bs).clk = d.clk :=
  Dev.clk_of_apart (Dev.apart_putDesc r src bs d)
@[simp] theorem Dev.putDesc_twn (r src : Nat) (bs : List Byte) (d : Dev) : (d.putDesc r src bs).twn = d.twn :=
  Dev.twn_of_apart (Dev.apart_putDesc r src bs d)
@[simp] theorem Dev.putDesc_fen (r src : Nat) (bs : List Byte) (d : Dev) : (d.putDesc r src bs).fen = d.fen :=
  Dev.fen_of_apart (Dev.apart_putDesc r src bs d)
@[simp] theorem Dev.putDesc_sec (r src : Nat) (bs : List Byte) (d : Dev) : (d.putDesc r src bs).sec = d.sec :=
  Dev.sec_of_apart (Dev.apart_putDesc r src bs d)
@[simp] theorem Dev.putDesc_hk (r src : Nat) (bs : List Byte) (d : Dev) : (d.putDesc r src bs).hk = d.hk :=
  Dev.hk_of_apart (Dev.apart_putDesc r src bs d)
@[simp] theorem Dev.putDesc_aux (r src : Nat) (bs : List Byte) (d : Dev) : (d.putDesc r src bs).aux = d.aux :=
  Dev.aux_of_apart (Dev.apart_putDesc r src bs d)
@[simp] theorem Dev.putDesc_lrd (r src : Nat) (bs : List Byte) (d : Dev) : (d.putDesc r src bs).lrd = d.lrd :=
  Dev.lrd_of_apart (Dev.apart_putDesc r src bs d)
@[simp] theorem Dev.putDesc_sys (r src : Nat) (bs : List Byte) (d : Dev) : (d.putDesc r src bs).sys = d.sys :=
  Dev.sys_of_apart (Dev.apart_putDesc r src bs d)
@[simp] theorem Dev.putDesc_free (r src : Nat) (bs : List Byte) (d : Dev) : (d.putDesc r src bs).free = d.free :=
  Dev.free_of_apart (Dev.apart_putDesc r src bs d)
@[simp] theorem Dev.putDesc_regs_staged (r src : Nat) (bs : List Byte) (d : Dev) : (d.putDesc r src bs).regs.staged = d.regs.staged :=
  Dev.regs_staged_of_apart (Dev.apart_putDesc r src bs d)
@[simp] theorem Dev.putDesc_regs_active (r src : Nat) (bs : List Byte) (d : Dev) : (d.putDesc r src bs).regs.active = d.regs.active :=
  Dev.regs_active_of_apart (Dev.apart_putDesc r src bs d)
@[simp] theorem Dev.putDesc_regs_inForce (r src : Nat) (bs : List Byte) (d : Dev) : (d.putDesc r src bs).regs.inForce = d.regs.inForce :=
  Dev.regs_inForce_of_apart (Dev.apart_putDesc r src bs d)
@[simp] theorem Dev.putDesc_regs_snaps (r src : Nat) (bs : List Byte) (d : Dev) : (d.putDesc r src bs).regs.snaps = d.regs.snaps :=
  Dev.regs_snaps_of_apart (Dev.apart_putDesc r src bs d)
@[simp] theorem Dev.putDesc_regs_due (r src : Nat) (bs : List Byte) (d : Dev) : (d.putDesc r src bs).regs.due = d.regs.due :=
  Dev.regs_due_of_apart (Dev.apart_putDesc r src bs d)
@[simp] theorem Dev.putDesc_regs_loadedStaged (r src : Nat) (bs : List Byte) (d : Dev) : (d.putDesc r src bs).regs.loadedStaged = d.regs.loadedStaged :=
  Dev.regs_loadedStaged_of_apart (Dev.apart_putDesc r src bs d)
@[simp] theorem Dev.putDesc_regs_loaded (r src : Nat) (bs : List Byte) (d : Dev) : (d.putDesc r src bs).regs.loaded = d.regs.loaded :=
  Dev.regs_loaded_of_apart (Dev.apart_putDesc r src bs d)
@[simp] theorem Dev.putDesc_regs_commitTick (r src : Nat) (bs : List Byte) (d : Dev) : (d.putDesc r src bs).regs.commitTick = d.regs.commitTick :=
  Dev.regs_commitTick_of_apart (Dev.apart_putDesc r src bs d)
@[simp] theorem Dev.putDesc_host_inflight (r src : Nat) (bs : List Byte) (d : Dev) : (d.putDesc r src bs).host.inflight = d.host.inflight :=
  Dev.host_inflight_of_apart (Dev.apart_putDesc r src bs d)
@[simp] theorem Dev.putDesc_host_tel (r src : Nat) (bs : List Byte) (d : Dev) : (d.putDesc r src bs).host.tel = d.host.tel :=
  Dev.host_tel_of_apart (Dev.apart_putDesc r src bs d)
@[simp] theorem Dev.putDesc_host_telDue (r src : Nat) (bs : List Byte) (d : Dev) : (d.putDesc r src bs).host.telDue = d.host.telDue :=
  Dev.host_telDue_of_apart (Dev.apart_putDesc r src bs d)
@[simp] theorem Dev.putDesc_host_svcOut (r src : Nat) (bs : List Byte) (d : Dev) : (d.putDesc r src bs).host.svcOut = d.host.svcOut :=
  Dev.host_svcOut_of_apart (Dev.apart_putDesc r src bs d)
@[simp] theorem Dev.putDesc_host_wdStart (r src : Nat) (bs : List Byte) (d : Dev) : (d.putDesc r src bs).host.wdStart = d.host.wdStart :=
  Dev.host_wdStart_of_apart (Dev.apart_putDesc r src bs d)
@[simp] theorem Dev.putDesc_host_wdExpired (r src : Nat) (bs : List Byte) (d : Dev) : (d.putDesc r src bs).host.wdExpired = d.host.wdExpired :=
  Dev.host_wdExpired_of_apart (Dev.apart_putDesc r src bs d)
@[simp] theorem Dev.putDesc_host_linkUp (r src : Nat) (bs : List Byte) (d : Dev) : (d.putDesc r src bs).host.linkUp = d.host.linkUp :=
  Dev.host_linkUp_of_apart (Dev.apart_putDesc r src bs d)
@[simp] theorem Dev.putDesc_host_speed (r src : Nat) (bs : List Byte) (d : Dev) : (d.putDesc r src bs).host.speed = d.host.speed :=
  Dev.host_speed_of_apart (Dev.apart_putDesc r src bs d)
@[simp] theorem Dev.putDesc_host_width (r src : Nat) (bs : List Byte) (d : Dev) : (d.putDesc r src bs).host.width = d.host.width :=
  Dev.host_width_of_apart (Dev.apart_putDesc r src bs d)
@[simp] theorem Dev.putDesc_host_svcErr (r src : Nat) (bs : List Byte) (d : Dev) : (d.putDesc r src bs).host.svcErr = d.host.svcErr :=
  Dev.host_svcErr_of_apart (Dev.apart_putDesc r src bs d)
@[simp] theorem Dev.putDesc_host_cmdCnt (r src : Nat) (bs : List Byte) (d : Dev) : (d.putDesc r src bs).host.cmdCnt = d.host.cmdCnt :=
  Dev.host_cmdCnt_of_apart (Dev.apart_putDesc r src bs d)
@[simp] theorem Dev.putDesc_host_cmdErrCnt (r src : Nat) (bs : List Byte) (d : Dev) : (d.putDesc r src bs).host.cmdErrCnt = d.host.cmdErrCnt :=
  Dev.host_cmdErrCnt_of_apart (Dev.apart_putDesc r src bs d)
@[simp] theorem Dev.putDesc_host_dbDiscCnt (r src : Nat) (bs : List Byte) (d : Dev) : (d.putDesc r src bs).host.dbDiscCnt = d.host.dbDiscCnt :=
  Dev.host_dbDiscCnt_of_apart (Dev.apart_putDesc r src bs d)
@[simp] theorem Dev.putDesc_host_accErrCnt (r src : Nat) (bs : List Byte) (d : Dev) : (d.putDesc r src bs).host.accErrCnt = d.host.accErrCnt :=
  Dev.host_accErrCnt_of_apart (Dev.apart_putDesc r src bs d)
@[simp] theorem Dev.putDesc_host_cplLostCnt (r src : Nat) (bs : List Byte) (d : Dev) : (d.putDesc r src bs).host.cplLostCnt = d.host.cplLostCnt :=
  Dev.host_cplLostCnt_of_apart (Dev.apart_putDesc r src bs d)
@[simp] theorem Dev.putDesc_host_telSkipCnt (r src : Nat) (bs : List Byte) (d : Dev) : (d.putDesc r src bs).host.telSkipCnt = d.host.telSkipCnt :=
  Dev.host_telSkipCnt_of_apart (Dev.apart_putDesc r src bs d)
@[simp] theorem Dev.putDesc_host_fenLostCnt (r src : Nat) (bs : List Byte) (d : Dev) : (d.putDesc r src bs).host.fenLostCnt = d.host.fenLostCnt :=
  Dev.host_fenLostCnt_of_apart (Dev.apart_putDesc r src bs d)
@[simp] theorem Dev.putDesc_host_svcIgnCnt (r src : Nat) (bs : List Byte) (d : Dev) : (d.putDesc r src bs).host.svcIgnCnt = d.host.svcIgnCnt :=
  Dev.host_svcIgnCnt_of_apart (Dev.apart_putDesc r src bs d)

@[simp] theorem Dev.report_ang (blk bit d0 d1 d2 : Nat) (d : Dev) : (d.report blk bit d0 d1 d2).ang = d.ang :=
  Dev.ang_of_apart (Dev.apart_report blk bit d0 d1 d2 d)
@[simp] theorem Dev.report_gfm (blk bit d0 d1 d2 : Nat) (d : Dev) : (d.report blk bit d0 d1 d2).gfm = d.gfm :=
  Dev.gfm_of_apart (Dev.apart_report blk bit d0 d1 d2 d)
@[simp] theorem Dev.report_prof (blk bit d0 d1 d2 : Nat) (d : Dev) : (d.report blk bit d0 d1 d2).prof = d.prof :=
  Dev.prof_of_apart (Dev.apart_report blk bit d0 d1 d2 d)
@[simp] theorem Dev.report_loop (blk bit d0 d1 d2 : Nat) (d : Dev) : (d.report blk bit d0 d1 d2).loop = d.loop :=
  Dev.loop_of_apart (Dev.apart_report blk bit d0 d1 d2 d)
@[simp] theorem Dev.report_sup (blk bit d0 d1 d2 : Nat) (d : Dev) : (d.report blk bit d0 d1 d2).sup = d.sup :=
  Dev.sup_of_apart (Dev.apart_report blk bit d0 d1 d2 d)
@[simp] theorem Dev.report_mod (blk bit d0 d1 d2 : Nat) (d : Dev) : (d.report blk bit d0 d1 d2).mod = d.mod :=
  Dev.mod_of_apart (Dev.apart_report blk bit d0 d1 d2 d)
@[simp] theorem Dev.report_pwm (blk bit d0 d1 d2 : Nat) (d : Dev) : (d.report blk bit d0 d1 d2).pwm = d.pwm :=
  Dev.pwm_of_apart (Dev.apart_report blk bit d0 d1 d2 d)
@[simp] theorem Dev.report_pen (blk bit d0 d1 d2 : Nat) (d : Dev) : (d.report blk bit d0 d1 d2).pen = d.pen :=
  Dev.pen_of_apart (Dev.apart_report blk bit d0 d1 d2 d)
@[simp] theorem Dev.report_pnt (blk bit d0 d1 d2 : Nat) (d : Dev) : (d.report blk bit d0 d1 d2).pnt = d.pnt :=
  Dev.pnt_of_apart (Dev.apart_report blk bit d0 d1 d2 d)
@[simp] theorem Dev.report_adc (blk bit d0 d1 d2 : Nat) (d : Dev) : (d.report blk bit d0 d1 d2).adc = d.adc :=
  Dev.adc_of_apart (Dev.apart_report blk bit d0 d1 d2 d)
@[simp] theorem Dev.report_acq (blk bit d0 d1 d2 : Nat) (d : Dev) : (d.report blk bit d0 d1 d2).acq = d.acq :=
  Dev.acq_of_apart (Dev.apart_report blk bit d0 d1 d2 d)
@[simp] theorem Dev.report_clk (blk bit d0 d1 d2 : Nat) (d : Dev) : (d.report blk bit d0 d1 d2).clk = d.clk :=
  Dev.clk_of_apart (Dev.apart_report blk bit d0 d1 d2 d)
@[simp] theorem Dev.report_twn (blk bit d0 d1 d2 : Nat) (d : Dev) : (d.report blk bit d0 d1 d2).twn = d.twn :=
  Dev.twn_of_apart (Dev.apart_report blk bit d0 d1 d2 d)
@[simp] theorem Dev.report_fen (blk bit d0 d1 d2 : Nat) (d : Dev) : (d.report blk bit d0 d1 d2).fen = d.fen :=
  Dev.fen_of_apart (Dev.apart_report blk bit d0 d1 d2 d)
@[simp] theorem Dev.report_sec (blk bit d0 d1 d2 : Nat) (d : Dev) : (d.report blk bit d0 d1 d2).sec = d.sec :=
  Dev.sec_of_apart (Dev.apart_report blk bit d0 d1 d2 d)
@[simp] theorem Dev.report_hk (blk bit d0 d1 d2 : Nat) (d : Dev) : (d.report blk bit d0 d1 d2).hk = d.hk :=
  Dev.hk_of_apart (Dev.apart_report blk bit d0 d1 d2 d)
@[simp] theorem Dev.report_aux (blk bit d0 d1 d2 : Nat) (d : Dev) : (d.report blk bit d0 d1 d2).aux = d.aux :=
  Dev.aux_of_apart (Dev.apart_report blk bit d0 d1 d2 d)
@[simp] theorem Dev.report_lrd (blk bit d0 d1 d2 : Nat) (d : Dev) : (d.report blk bit d0 d1 d2).lrd = d.lrd :=
  Dev.lrd_of_apart (Dev.apart_report blk bit d0 d1 d2 d)
@[simp] theorem Dev.report_sys (blk bit d0 d1 d2 : Nat) (d : Dev) : (d.report blk bit d0 d1 d2).sys = d.sys :=
  Dev.sys_of_apart (Dev.apart_report blk bit d0 d1 d2 d)
@[simp] theorem Dev.report_free (blk bit d0 d1 d2 : Nat) (d : Dev) : (d.report blk bit d0 d1 d2).free = d.free :=
  Dev.free_of_apart (Dev.apart_report blk bit d0 d1 d2 d)
@[simp] theorem Dev.report_regs_staged (blk bit d0 d1 d2 : Nat) (d : Dev) : (d.report blk bit d0 d1 d2).regs.staged = d.regs.staged :=
  Dev.regs_staged_of_apart (Dev.apart_report blk bit d0 d1 d2 d)
@[simp] theorem Dev.report_regs_active (blk bit d0 d1 d2 : Nat) (d : Dev) : (d.report blk bit d0 d1 d2).regs.active = d.regs.active :=
  Dev.regs_active_of_apart (Dev.apart_report blk bit d0 d1 d2 d)
@[simp] theorem Dev.report_regs_inForce (blk bit d0 d1 d2 : Nat) (d : Dev) : (d.report blk bit d0 d1 d2).regs.inForce = d.regs.inForce :=
  Dev.regs_inForce_of_apart (Dev.apart_report blk bit d0 d1 d2 d)
@[simp] theorem Dev.report_regs_snaps (blk bit d0 d1 d2 : Nat) (d : Dev) : (d.report blk bit d0 d1 d2).regs.snaps = d.regs.snaps :=
  Dev.regs_snaps_of_apart (Dev.apart_report blk bit d0 d1 d2 d)
@[simp] theorem Dev.report_regs_due (blk bit d0 d1 d2 : Nat) (d : Dev) : (d.report blk bit d0 d1 d2).regs.due = d.regs.due :=
  Dev.regs_due_of_apart (Dev.apart_report blk bit d0 d1 d2 d)
@[simp] theorem Dev.report_regs_loadedStaged (blk bit d0 d1 d2 : Nat) (d : Dev) : (d.report blk bit d0 d1 d2).regs.loadedStaged = d.regs.loadedStaged :=
  Dev.regs_loadedStaged_of_apart (Dev.apart_report blk bit d0 d1 d2 d)
@[simp] theorem Dev.report_regs_loaded (blk bit d0 d1 d2 : Nat) (d : Dev) : (d.report blk bit d0 d1 d2).regs.loaded = d.regs.loaded :=
  Dev.regs_loaded_of_apart (Dev.apart_report blk bit d0 d1 d2 d)
@[simp] theorem Dev.report_regs_commitTick (blk bit d0 d1 d2 : Nat) (d : Dev) : (d.report blk bit d0 d1 d2).regs.commitTick = d.regs.commitTick :=
  Dev.regs_commitTick_of_apart (Dev.apart_report blk bit d0 d1 d2 d)
@[simp] theorem Dev.report_host_inflight (blk bit d0 d1 d2 : Nat) (d : Dev) : (d.report blk bit d0 d1 d2).host.inflight = d.host.inflight :=
  Dev.host_inflight_of_apart (Dev.apart_report blk bit d0 d1 d2 d)
@[simp] theorem Dev.report_host_tel (blk bit d0 d1 d2 : Nat) (d : Dev) : (d.report blk bit d0 d1 d2).host.tel = d.host.tel :=
  Dev.host_tel_of_apart (Dev.apart_report blk bit d0 d1 d2 d)
@[simp] theorem Dev.report_host_telDue (blk bit d0 d1 d2 : Nat) (d : Dev) : (d.report blk bit d0 d1 d2).host.telDue = d.host.telDue :=
  Dev.host_telDue_of_apart (Dev.apart_report blk bit d0 d1 d2 d)
@[simp] theorem Dev.report_host_svcOut (blk bit d0 d1 d2 : Nat) (d : Dev) : (d.report blk bit d0 d1 d2).host.svcOut = d.host.svcOut :=
  Dev.host_svcOut_of_apart (Dev.apart_report blk bit d0 d1 d2 d)
@[simp] theorem Dev.report_host_wdStart (blk bit d0 d1 d2 : Nat) (d : Dev) : (d.report blk bit d0 d1 d2).host.wdStart = d.host.wdStart :=
  Dev.host_wdStart_of_apart (Dev.apart_report blk bit d0 d1 d2 d)
@[simp] theorem Dev.report_host_wdExpired (blk bit d0 d1 d2 : Nat) (d : Dev) : (d.report blk bit d0 d1 d2).host.wdExpired = d.host.wdExpired :=
  Dev.host_wdExpired_of_apart (Dev.apart_report blk bit d0 d1 d2 d)
@[simp] theorem Dev.report_host_linkUp (blk bit d0 d1 d2 : Nat) (d : Dev) : (d.report blk bit d0 d1 d2).host.linkUp = d.host.linkUp :=
  Dev.host_linkUp_of_apart (Dev.apart_report blk bit d0 d1 d2 d)
@[simp] theorem Dev.report_host_speed (blk bit d0 d1 d2 : Nat) (d : Dev) : (d.report blk bit d0 d1 d2).host.speed = d.host.speed :=
  Dev.host_speed_of_apart (Dev.apart_report blk bit d0 d1 d2 d)
@[simp] theorem Dev.report_host_width (blk bit d0 d1 d2 : Nat) (d : Dev) : (d.report blk bit d0 d1 d2).host.width = d.host.width :=
  Dev.host_width_of_apart (Dev.apart_report blk bit d0 d1 d2 d)
@[simp] theorem Dev.report_host_svcErr (blk bit d0 d1 d2 : Nat) (d : Dev) : (d.report blk bit d0 d1 d2).host.svcErr = d.host.svcErr :=
  Dev.host_svcErr_of_apart (Dev.apart_report blk bit d0 d1 d2 d)
@[simp] theorem Dev.report_host_cmdCnt (blk bit d0 d1 d2 : Nat) (d : Dev) : (d.report blk bit d0 d1 d2).host.cmdCnt = d.host.cmdCnt :=
  Dev.host_cmdCnt_of_apart (Dev.apart_report blk bit d0 d1 d2 d)
@[simp] theorem Dev.report_host_cmdErrCnt (blk bit d0 d1 d2 : Nat) (d : Dev) : (d.report blk bit d0 d1 d2).host.cmdErrCnt = d.host.cmdErrCnt :=
  Dev.host_cmdErrCnt_of_apart (Dev.apart_report blk bit d0 d1 d2 d)
@[simp] theorem Dev.report_host_dbDiscCnt (blk bit d0 d1 d2 : Nat) (d : Dev) : (d.report blk bit d0 d1 d2).host.dbDiscCnt = d.host.dbDiscCnt :=
  Dev.host_dbDiscCnt_of_apart (Dev.apart_report blk bit d0 d1 d2 d)
@[simp] theorem Dev.report_host_accErrCnt (blk bit d0 d1 d2 : Nat) (d : Dev) : (d.report blk bit d0 d1 d2).host.accErrCnt = d.host.accErrCnt :=
  Dev.host_accErrCnt_of_apart (Dev.apart_report blk bit d0 d1 d2 d)
@[simp] theorem Dev.report_host_cplLostCnt (blk bit d0 d1 d2 : Nat) (d : Dev) : (d.report blk bit d0 d1 d2).host.cplLostCnt = d.host.cplLostCnt :=
  Dev.host_cplLostCnt_of_apart (Dev.apart_report blk bit d0 d1 d2 d)
@[simp] theorem Dev.report_host_telSkipCnt (blk bit d0 d1 d2 : Nat) (d : Dev) : (d.report blk bit d0 d1 d2).host.telSkipCnt = d.host.telSkipCnt :=
  Dev.host_telSkipCnt_of_apart (Dev.apart_report blk bit d0 d1 d2 d)
@[simp] theorem Dev.report_host_fenLostCnt (blk bit d0 d1 d2 : Nat) (d : Dev) : (d.report blk bit d0 d1 d2).host.fenLostCnt = d.host.fenLostCnt :=
  Dev.host_fenLostCnt_of_apart (Dev.apart_report blk bit d0 d1 d2 d)
@[simp] theorem Dev.report_host_svcIgnCnt (blk bit d0 d1 d2 : Nat) (d : Dev) : (d.report blk bit d0 d1 d2).host.svcIgnCnt = d.host.svcIgnCnt :=
  Dev.host_svcIgnCnt_of_apart (Dev.apart_report blk bit d0 d1 d2 d)

@[simp] theorem Dev.event_ang (blk bit d0 d1 d2 : Nat) (d : Dev) : (d.event blk bit d0 d1 d2).ang = d.ang :=
  Dev.ang_of_apart (Dev.apart_event blk bit d0 d1 d2 d)
@[simp] theorem Dev.event_gfm (blk bit d0 d1 d2 : Nat) (d : Dev) : (d.event blk bit d0 d1 d2).gfm = d.gfm :=
  Dev.gfm_of_apart (Dev.apart_event blk bit d0 d1 d2 d)
@[simp] theorem Dev.event_prof (blk bit d0 d1 d2 : Nat) (d : Dev) : (d.event blk bit d0 d1 d2).prof = d.prof :=
  Dev.prof_of_apart (Dev.apart_event blk bit d0 d1 d2 d)
@[simp] theorem Dev.event_loop (blk bit d0 d1 d2 : Nat) (d : Dev) : (d.event blk bit d0 d1 d2).loop = d.loop :=
  Dev.loop_of_apart (Dev.apart_event blk bit d0 d1 d2 d)
@[simp] theorem Dev.event_sup (blk bit d0 d1 d2 : Nat) (d : Dev) : (d.event blk bit d0 d1 d2).sup = d.sup :=
  Dev.sup_of_apart (Dev.apart_event blk bit d0 d1 d2 d)
@[simp] theorem Dev.event_mod (blk bit d0 d1 d2 : Nat) (d : Dev) : (d.event blk bit d0 d1 d2).mod = d.mod :=
  Dev.mod_of_apart (Dev.apart_event blk bit d0 d1 d2 d)
@[simp] theorem Dev.event_pwm (blk bit d0 d1 d2 : Nat) (d : Dev) : (d.event blk bit d0 d1 d2).pwm = d.pwm :=
  Dev.pwm_of_apart (Dev.apart_event blk bit d0 d1 d2 d)
@[simp] theorem Dev.event_pen (blk bit d0 d1 d2 : Nat) (d : Dev) : (d.event blk bit d0 d1 d2).pen = d.pen :=
  Dev.pen_of_apart (Dev.apart_event blk bit d0 d1 d2 d)
@[simp] theorem Dev.event_pnt (blk bit d0 d1 d2 : Nat) (d : Dev) : (d.event blk bit d0 d1 d2).pnt = d.pnt :=
  Dev.pnt_of_apart (Dev.apart_event blk bit d0 d1 d2 d)
@[simp] theorem Dev.event_adc (blk bit d0 d1 d2 : Nat) (d : Dev) : (d.event blk bit d0 d1 d2).adc = d.adc :=
  Dev.adc_of_apart (Dev.apart_event blk bit d0 d1 d2 d)
@[simp] theorem Dev.event_acq (blk bit d0 d1 d2 : Nat) (d : Dev) : (d.event blk bit d0 d1 d2).acq = d.acq :=
  Dev.acq_of_apart (Dev.apart_event blk bit d0 d1 d2 d)
@[simp] theorem Dev.event_clk (blk bit d0 d1 d2 : Nat) (d : Dev) : (d.event blk bit d0 d1 d2).clk = d.clk :=
  Dev.clk_of_apart (Dev.apart_event blk bit d0 d1 d2 d)
@[simp] theorem Dev.event_twn (blk bit d0 d1 d2 : Nat) (d : Dev) : (d.event blk bit d0 d1 d2).twn = d.twn :=
  Dev.twn_of_apart (Dev.apart_event blk bit d0 d1 d2 d)
@[simp] theorem Dev.event_fen (blk bit d0 d1 d2 : Nat) (d : Dev) : (d.event blk bit d0 d1 d2).fen = d.fen :=
  Dev.fen_of_apart (Dev.apart_event blk bit d0 d1 d2 d)
@[simp] theorem Dev.event_sec (blk bit d0 d1 d2 : Nat) (d : Dev) : (d.event blk bit d0 d1 d2).sec = d.sec :=
  Dev.sec_of_apart (Dev.apart_event blk bit d0 d1 d2 d)
@[simp] theorem Dev.event_hk (blk bit d0 d1 d2 : Nat) (d : Dev) : (d.event blk bit d0 d1 d2).hk = d.hk :=
  Dev.hk_of_apart (Dev.apart_event blk bit d0 d1 d2 d)
@[simp] theorem Dev.event_aux (blk bit d0 d1 d2 : Nat) (d : Dev) : (d.event blk bit d0 d1 d2).aux = d.aux :=
  Dev.aux_of_apart (Dev.apart_event blk bit d0 d1 d2 d)
@[simp] theorem Dev.event_lrd (blk bit d0 d1 d2 : Nat) (d : Dev) : (d.event blk bit d0 d1 d2).lrd = d.lrd :=
  Dev.lrd_of_apart (Dev.apart_event blk bit d0 d1 d2 d)
@[simp] theorem Dev.event_sys (blk bit d0 d1 d2 : Nat) (d : Dev) : (d.event blk bit d0 d1 d2).sys = d.sys :=
  Dev.sys_of_apart (Dev.apart_event blk bit d0 d1 d2 d)
@[simp] theorem Dev.event_free (blk bit d0 d1 d2 : Nat) (d : Dev) : (d.event blk bit d0 d1 d2).free = d.free :=
  Dev.free_of_apart (Dev.apart_event blk bit d0 d1 d2 d)
@[simp] theorem Dev.event_regs_staged (blk bit d0 d1 d2 : Nat) (d : Dev) : (d.event blk bit d0 d1 d2).regs.staged = d.regs.staged :=
  Dev.regs_staged_of_apart (Dev.apart_event blk bit d0 d1 d2 d)
@[simp] theorem Dev.event_regs_active (blk bit d0 d1 d2 : Nat) (d : Dev) : (d.event blk bit d0 d1 d2).regs.active = d.regs.active :=
  Dev.regs_active_of_apart (Dev.apart_event blk bit d0 d1 d2 d)
@[simp] theorem Dev.event_regs_inForce (blk bit d0 d1 d2 : Nat) (d : Dev) : (d.event blk bit d0 d1 d2).regs.inForce = d.regs.inForce :=
  Dev.regs_inForce_of_apart (Dev.apart_event blk bit d0 d1 d2 d)
@[simp] theorem Dev.event_regs_snaps (blk bit d0 d1 d2 : Nat) (d : Dev) : (d.event blk bit d0 d1 d2).regs.snaps = d.regs.snaps :=
  Dev.regs_snaps_of_apart (Dev.apart_event blk bit d0 d1 d2 d)
@[simp] theorem Dev.event_regs_due (blk bit d0 d1 d2 : Nat) (d : Dev) : (d.event blk bit d0 d1 d2).regs.due = d.regs.due :=
  Dev.regs_due_of_apart (Dev.apart_event blk bit d0 d1 d2 d)
@[simp] theorem Dev.event_regs_loadedStaged (blk bit d0 d1 d2 : Nat) (d : Dev) : (d.event blk bit d0 d1 d2).regs.loadedStaged = d.regs.loadedStaged :=
  Dev.regs_loadedStaged_of_apart (Dev.apart_event blk bit d0 d1 d2 d)
@[simp] theorem Dev.event_regs_loaded (blk bit d0 d1 d2 : Nat) (d : Dev) : (d.event blk bit d0 d1 d2).regs.loaded = d.regs.loaded :=
  Dev.regs_loaded_of_apart (Dev.apart_event blk bit d0 d1 d2 d)
@[simp] theorem Dev.event_regs_commitTick (blk bit d0 d1 d2 : Nat) (d : Dev) : (d.event blk bit d0 d1 d2).regs.commitTick = d.regs.commitTick :=
  Dev.regs_commitTick_of_apart (Dev.apart_event blk bit d0 d1 d2 d)
@[simp] theorem Dev.event_host_inflight (blk bit d0 d1 d2 : Nat) (d : Dev) : (d.event blk bit d0 d1 d2).host.inflight = d.host.inflight :=
  Dev.host_inflight_of_apart (Dev.apart_event blk bit d0 d1 d2 d)
@[simp] theorem Dev.event_host_tel (blk bit d0 d1 d2 : Nat) (d : Dev) : (d.event blk bit d0 d1 d2).host.tel = d.host.tel :=
  Dev.host_tel_of_apart (Dev.apart_event blk bit d0 d1 d2 d)
@[simp] theorem Dev.event_host_telDue (blk bit d0 d1 d2 : Nat) (d : Dev) : (d.event blk bit d0 d1 d2).host.telDue = d.host.telDue :=
  Dev.host_telDue_of_apart (Dev.apart_event blk bit d0 d1 d2 d)
@[simp] theorem Dev.event_host_svcOut (blk bit d0 d1 d2 : Nat) (d : Dev) : (d.event blk bit d0 d1 d2).host.svcOut = d.host.svcOut :=
  Dev.host_svcOut_of_apart (Dev.apart_event blk bit d0 d1 d2 d)
@[simp] theorem Dev.event_host_wdStart (blk bit d0 d1 d2 : Nat) (d : Dev) : (d.event blk bit d0 d1 d2).host.wdStart = d.host.wdStart :=
  Dev.host_wdStart_of_apart (Dev.apart_event blk bit d0 d1 d2 d)
@[simp] theorem Dev.event_host_wdExpired (blk bit d0 d1 d2 : Nat) (d : Dev) : (d.event blk bit d0 d1 d2).host.wdExpired = d.host.wdExpired :=
  Dev.host_wdExpired_of_apart (Dev.apart_event blk bit d0 d1 d2 d)
@[simp] theorem Dev.event_host_linkUp (blk bit d0 d1 d2 : Nat) (d : Dev) : (d.event blk bit d0 d1 d2).host.linkUp = d.host.linkUp :=
  Dev.host_linkUp_of_apart (Dev.apart_event blk bit d0 d1 d2 d)
@[simp] theorem Dev.event_host_speed (blk bit d0 d1 d2 : Nat) (d : Dev) : (d.event blk bit d0 d1 d2).host.speed = d.host.speed :=
  Dev.host_speed_of_apart (Dev.apart_event blk bit d0 d1 d2 d)
@[simp] theorem Dev.event_host_width (blk bit d0 d1 d2 : Nat) (d : Dev) : (d.event blk bit d0 d1 d2).host.width = d.host.width :=
  Dev.host_width_of_apart (Dev.apart_event blk bit d0 d1 d2 d)
@[simp] theorem Dev.event_host_svcErr (blk bit d0 d1 d2 : Nat) (d : Dev) : (d.event blk bit d0 d1 d2).host.svcErr = d.host.svcErr :=
  Dev.host_svcErr_of_apart (Dev.apart_event blk bit d0 d1 d2 d)
@[simp] theorem Dev.event_host_cmdCnt (blk bit d0 d1 d2 : Nat) (d : Dev) : (d.event blk bit d0 d1 d2).host.cmdCnt = d.host.cmdCnt :=
  Dev.host_cmdCnt_of_apart (Dev.apart_event blk bit d0 d1 d2 d)
@[simp] theorem Dev.event_host_cmdErrCnt (blk bit d0 d1 d2 : Nat) (d : Dev) : (d.event blk bit d0 d1 d2).host.cmdErrCnt = d.host.cmdErrCnt :=
  Dev.host_cmdErrCnt_of_apart (Dev.apart_event blk bit d0 d1 d2 d)
@[simp] theorem Dev.event_host_dbDiscCnt (blk bit d0 d1 d2 : Nat) (d : Dev) : (d.event blk bit d0 d1 d2).host.dbDiscCnt = d.host.dbDiscCnt :=
  Dev.host_dbDiscCnt_of_apart (Dev.apart_event blk bit d0 d1 d2 d)
@[simp] theorem Dev.event_host_accErrCnt (blk bit d0 d1 d2 : Nat) (d : Dev) : (d.event blk bit d0 d1 d2).host.accErrCnt = d.host.accErrCnt :=
  Dev.host_accErrCnt_of_apart (Dev.apart_event blk bit d0 d1 d2 d)
@[simp] theorem Dev.event_host_cplLostCnt (blk bit d0 d1 d2 : Nat) (d : Dev) : (d.event blk bit d0 d1 d2).host.cplLostCnt = d.host.cplLostCnt :=
  Dev.host_cplLostCnt_of_apart (Dev.apart_event blk bit d0 d1 d2 d)
@[simp] theorem Dev.event_host_telSkipCnt (blk bit d0 d1 d2 : Nat) (d : Dev) : (d.event blk bit d0 d1 d2).host.telSkipCnt = d.host.telSkipCnt :=
  Dev.host_telSkipCnt_of_apart (Dev.apart_event blk bit d0 d1 d2 d)
@[simp] theorem Dev.event_host_fenLostCnt (blk bit d0 d1 d2 : Nat) (d : Dev) : (d.event blk bit d0 d1 d2).host.fenLostCnt = d.host.fenLostCnt :=
  Dev.host_fenLostCnt_of_apart (Dev.apart_event blk bit d0 d1 d2 d)
@[simp] theorem Dev.event_host_svcIgnCnt (blk bit d0 d1 d2 : Nat) (d : Dev) : (d.event blk bit d0 d1 d2).host.svcIgnCnt = d.host.svcIgnCnt :=
  Dev.host_svcIgnCnt_of_apart (Dev.apart_event blk bit d0 d1 d2 d)
@[simp] theorem Dev.setW1c_cfg (o : Nat) (m : W32) (off : Nat) (d : Dev) : (d.setW1c o m).cfg off = d.cfg off := by
  simp [Dev.cfg]
@[simp] theorem Dev.setW1c_activeReg (o : Nat) (m : W32) (off : Nat) (d : Dev) : (d.setW1c o m).activeReg off = d.activeReg off := by
  simp [Dev.activeReg]
@[simp] theorem Dev.setW1c_stagedReg (o : Nat) (m : W32) (off : Nat) (d : Dev) : (d.setW1c o m).stagedReg off = d.stagedReg off := by
  simp [Dev.stagedReg]
@[simp] theorem Dev.setW1c_fld (o : Nat) (m : W32) (off hi lo : Nat) (d : Dev) : (d.setW1c o m).fld off hi lo = d.fld off hi lo := by
  simp [Dev.fld]
@[simp] theorem Dev.setW1c_flag (o : Nat) (m : W32) (off n : Nat) (d : Dev) : (d.setW1c o m).flag off n = d.flag off n := by
  simp [Dev.flag]
@[simp] theorem Dev.setW1c_now (off : Nat) (m : W32) (d : Dev) : (d.setW1c off m).now = d.now := by
  simp [Dev.now]
@[simp] theorem Dev.setW1c_ringEn (off : Nat) (m : W32) (r' : Nat) (d : Dev) : (d.setW1c off m).ringEn r' = d.ringEn r' := by
  simp [Dev.ringEn]
@[simp] theorem Dev.setBit_cfg (o bit : Nat) (off : Nat) (d : Dev) : (d.setBit o bit).cfg off = d.cfg off := by
  simp [Dev.cfg]
@[simp] theorem Dev.setBit_activeReg (o bit : Nat) (off : Nat) (d : Dev) : (d.setBit o bit).activeReg off = d.activeReg off := by
  simp [Dev.activeReg]
@[simp] theorem Dev.setBit_stagedReg (o bit : Nat) (off : Nat) (d : Dev) : (d.setBit o bit).stagedReg off = d.stagedReg off := by
  simp [Dev.stagedReg]
@[simp] theorem Dev.setBit_fld (o bit : Nat) (off hi lo : Nat) (d : Dev) : (d.setBit o bit).fld off hi lo = d.fld off hi lo := by
  simp [Dev.fld]
@[simp] theorem Dev.setBit_flag (o bit : Nat) (off n : Nat) (d : Dev) : (d.setBit o bit).flag off n = d.flag off n := by
  simp [Dev.flag]
@[simp] theorem Dev.setBit_now (off bit : Nat) (d : Dev) : (d.setBit off bit).now = d.now := by
  simp [Dev.now]
@[simp] theorem Dev.setBit_ringEn (off bit : Nat) (r' : Nat) (d : Dev) : (d.setBit off bit).ringEn r' = d.ringEn r' := by
  simp [Dev.ringEn]
@[simp] theorem Dev.irq_cfg (n : Nat) (off : Nat) (d : Dev) : (d.irq n).cfg off = d.cfg off := by
  simp [Dev.cfg]
@[simp] theorem Dev.irq_activeReg (n : Nat) (off : Nat) (d : Dev) : (d.irq n).activeReg off = d.activeReg off := by
  simp [Dev.activeReg]
@[simp] theorem Dev.irq_stagedReg (n : Nat) (off : Nat) (d : Dev) : (d.irq n).stagedReg off = d.stagedReg off := by
  simp [Dev.stagedReg]
@[simp] theorem Dev.irq_fld (n : Nat) (off hi lo : Nat) (d : Dev) : (d.irq n).fld off hi lo = d.fld off hi lo := by
  simp [Dev.fld]
@[simp] theorem Dev.irq_flag (k : Nat) (off n : Nat) (d : Dev) : (d.irq k).flag off n = d.flag off n := by
  simp [Dev.flag]
@[simp] theorem Dev.irq_now (n : Nat) (d : Dev) : (d.irq n).now = d.now := by
  simp [Dev.now]
@[simp] theorem Dev.irq_ringEn (n : Nat) (r' : Nat) (d : Dev) : (d.irq n).ringEn r' = d.ringEn r' := by
  simp [Dev.ringEn]
@[simp] theorem Dev.putDesc_cfg (r src : Nat) (bs : List Byte) (off : Nat) (d : Dev) : (d.putDesc r src bs).cfg off = d.cfg off := by
  simp [Dev.cfg]
@[simp] theorem Dev.putDesc_activeReg (r src : Nat) (bs : List Byte) (off : Nat) (d : Dev) : (d.putDesc r src bs).activeReg off = d.activeReg off := by
  simp [Dev.activeReg]
@[simp] theorem Dev.putDesc_stagedReg (r src : Nat) (bs : List Byte) (off : Nat) (d : Dev) : (d.putDesc r src bs).stagedReg off = d.stagedReg off := by
  simp [Dev.stagedReg]
@[simp] theorem Dev.putDesc_fld (r src : Nat) (bs : List Byte) (off hi lo : Nat) (d : Dev) : (d.putDesc r src bs).fld off hi lo = d.fld off hi lo := by
  simp [Dev.fld]
@[simp] theorem Dev.putDesc_flag (r src : Nat) (bs : List Byte) (off n : Nat) (d : Dev) : (d.putDesc r src bs).flag off n = d.flag off n := by
  simp [Dev.flag]
@[simp] theorem Dev.putDesc_now (r src : Nat) (bs : List Byte) (d : Dev) : (d.putDesc r src bs).now = d.now := by
  simp [Dev.now]
@[simp] theorem Dev.putDesc_ringEn (r src : Nat) (bs : List Byte) (r' : Nat) (d : Dev) : (d.putDesc r src bs).ringEn r' = d.ringEn r' := by
  simp [Dev.ringEn]
@[simp] theorem Dev.report_cfg (blk bit d0 d1 d2 : Nat) (off : Nat) (d : Dev) : (d.report blk bit d0 d1 d2).cfg off = d.cfg off := by
  simp [Dev.cfg]
@[simp] theorem Dev.report_activeReg (blk bit d0 d1 d2 : Nat) (off : Nat) (d : Dev) : (d.report blk bit d0 d1 d2).activeReg off = d.activeReg off := by
  simp [Dev.activeReg]
@[simp] theorem Dev.report_stagedReg (blk bit d0 d1 d2 : Nat) (off : Nat) (d : Dev) : (d.report blk bit d0 d1 d2).stagedReg off = d.stagedReg off := by
  simp [Dev.stagedReg]
@[simp] theorem Dev.report_fld (blk bit d0 d1 d2 : Nat) (off hi lo : Nat) (d : Dev) : (d.report blk bit d0 d1 d2).fld off hi lo = d.fld off hi lo := by
  simp [Dev.fld]
@[simp] theorem Dev.report_flag (blk bit d0 d1 d2 : Nat) (off n : Nat) (d : Dev) : (d.report blk bit d0 d1 d2).flag off n = d.flag off n := by
  simp [Dev.flag]
@[simp] theorem Dev.report_now (blk bit d0 d1 d2 : Nat) (d : Dev) : (d.report blk bit d0 d1 d2).now = d.now := by
  simp [Dev.now]
@[simp] theorem Dev.report_ringEn (blk bit d0 d1 d2 : Nat) (r' : Nat) (d : Dev) : (d.report blk bit d0 d1 d2).ringEn r' = d.ringEn r' := by
  simp [Dev.ringEn]
@[simp] theorem Dev.event_cfg (blk bit d0 d1 d2 : Nat) (off : Nat) (d : Dev) : (d.event blk bit d0 d1 d2).cfg off = d.cfg off := by
  simp [Dev.cfg]
@[simp] theorem Dev.event_activeReg (blk bit d0 d1 d2 : Nat) (off : Nat) (d : Dev) : (d.event blk bit d0 d1 d2).activeReg off = d.activeReg off := by
  simp [Dev.activeReg]
@[simp] theorem Dev.event_stagedReg (blk bit d0 d1 d2 : Nat) (off : Nat) (d : Dev) : (d.event blk bit d0 d1 d2).stagedReg off = d.stagedReg off := by
  simp [Dev.stagedReg]
@[simp] theorem Dev.event_fld (blk bit d0 d1 d2 : Nat) (off hi lo : Nat) (d : Dev) : (d.event blk bit d0 d1 d2).fld off hi lo = d.fld off hi lo := by
  simp [Dev.fld]
@[simp] theorem Dev.event_flag (blk bit d0 d1 d2 : Nat) (off n : Nat) (d : Dev) : (d.event blk bit d0 d1 d2).flag off n = d.flag off n := by
  simp [Dev.flag]
@[simp] theorem Dev.event_now (blk bit d0 d1 d2 : Nat) (d : Dev) : (d.event blk bit d0 d1 d2).now = d.now := by
  simp [Dev.now]
@[simp] theorem Dev.event_ringEn (blk bit d0 d1 d2 : Nat) (r' : Nat) (d : Dev) : (d.event blk bit d0 d1 d2).ringEn r' = d.ringEn r' := by
  simp [Dev.ringEn]

/-! ### W1C bits -/

theorem Dev.w1c_setW1c (off : Nat) (m : W32) (off' : Nat) (d : Dev) :
    (d.setW1c off m).w1c off' = if off = off' then d.w1c off' ||| m else d.w1c off' := by
  unfold Dev.setW1c Dev.w1c
  rw [SMap.get_set]
  split
  · rename_i h; subst h; rfl
  · rfl

theorem Dev.stands_setW1c (off : Nat) (m : W32) (off' : Nat) (m' : W32) (d : Dev) (h : d.stands off' m') :
    (d.setW1c off m).stands off' m' := by
  unfold Dev.stands at *
  rw [Dev.w1c_setW1c]
  split
  · apply BitVec.eq_of_getLsbD_eq
    intro i hi
    have := congrArg (fun x => x.getLsbD i) h
    simp only [BitVec.getLsbD_and, BitVec.getLsbD_or] at this ⊢
    cases h1 : (d.w1c off').getLsbD i <;> cases h2 : m'.getLsbD i <;> simp_all
  · exact h

theorem Dev.setW1c_stands (off : Nat) (m : W32) (d : Dev) : (d.setW1c off m).stands off m := by
  unfold Dev.stands
  rw [Dev.w1c_setW1c, if_pos rfl]
  apply BitVec.eq_of_getLsbD_eq
  intro i hi
  simp only [BitVec.getLsbD_and, BitVec.getLsbD_or]
  cases (d.w1c off).getLsbD i <;> cases m.getLsbD i <;> rfl

/-- W1C bits that stand survive: the host alone clears them (R5). -/
def Dev.Grows (d d' : Dev) : Prop := ∀ off m, d.stands off m → d'.stands off m

theorem Dev.Grows.refl (d : Dev) : d.Grows d := fun _ _ h => h
theorem Dev.Grows.trans {a b c : Dev} (h : a.Grows b) (h' : b.Grows c) : a.Grows c := fun o m x => h' o m (h o m x)
theorem Dev.Grows.of_events {d d' : Dev} (h : d'.regs.events = d.regs.events) : d.Grows d' := by
  intro off m hs
  unfold Dev.stands Dev.w1c at *
  rw [h]; exact hs

theorem Dev.grows_setW1c (off : Nat) (m : W32) (d : Dev) : d.Grows (d.setW1c off m) :=
  fun off' m' h => d.stands_setW1c off m off' m' h

theorem Dev.grows_setBit (off bit : Nat) (d : Dev) : d.Grows (d.setBit off bit) := d.grows_setW1c off _

theorem Dev.irq_events (n : Nat) (d : Dev) : (d.irq n).regs.events =
    (if n < 32 then d.setBit Reg.HOST_IRQ_STAT_L n else d.setBit Reg.HOST_IRQ_STAT_H (n - 32)).regs.events := by
  unfold Dev.irq
  simp only []
  by_cases h : n < 32 <;> simp only [h, if_true, if_false] <;> split <;> split <;> rfl

theorem Dev.grows_irq (n : Nat) (d : Dev) : d.Grows (d.irq n) := by
  refine Dev.Grows.trans ?_ (Dev.Grows.of_events (d.irq_events n))
  split <;> exact d.grows_setBit _ _

theorem Dev.shadow_events (r v : Nat) (d : Dev) : (d.shadow r v).regs.events = d.regs.events := by
  unfold Dev.shadow; simp only []; split <;> rfl

theorem Dev.grows_putDesc (r src : Nat) (bs : List Byte) (d : Dev) : d.Grows (d.putDesc r src bs) := by
  unfold Dev.putDesc
  simp only []
  refine Dev.Grows.trans (Dev.Grows.of_events ?_) (Dev.grows_irq _ _)
  rw [Dev.shadow_events]
  rfl

theorem Dev.grows_report (blk bit d0 d1 d2 : Nat) (d : Dev) : d.Grows (d.report blk bit d0 d1 d2) := by
  unfold Dev.report
  simp only []
  split
  · exact Dev.Grows.of_events rfl
  · exact Dev.grows_putDesc _ _ _ _

theorem Dev.grows_event (blk bit d0 d1 d2 : Nat) (d : Dev) : d.Grows (d.event blk bit d0 d1 d2) :=
  (d.grows_setBit _ _).trans (Dev.grows_report _ _ _ _ _ _)

/-- An event leaves its bit set in its block's EVENT register (R537). -/
theorem Dev.event_stands (blk bit d0 d1 d2 : Nat) (d : Dev) :
    (d.event blk bit d0 d1 d2).stands (eventReg blk d0) (BitVec.ofNat 32 (2 ^ bit)) :=
  Dev.grows_report _ _ _ _ _ _ _ _ (d.setW1c_stands _ _)

/-- A firing leaves the source's bit set in HOST_IRQ_STAT (R444). -/
theorem Dev.irq_stands (n : Nat) (d : Dev) :
    (d.irq n).stands (if n < 32 then Reg.HOST_IRQ_STAT_L else Reg.HOST_IRQ_STAT_H)
      (BitVec.ofNat 32 (2 ^ (if n < 32 then n else n - 32))) := by
  refine Dev.Grows.of_events (d.irq_events n) _ _ ?_
  by_cases hn : n < 32
  · simp only [hn, if_true]; exact d.setW1c_stands _ _
  · simp only [hn, if_false]; exact d.setW1c_stands _ _

end Sys2Proof.Machine
end

