-- ==== Sys2Proof/Laws/Rows.lean ====
section
/-! SUPPORT. What a row can do: every row that answers a next state is one effect on the device with its posted writes;
a command that is admitted runs its own checks and effect. -/

namespace Sys2Proof.Machine

open Host

/-- A command that passes the common checks goes on to its own checks and effect. -/
theorem State.runCmd_admits {op mask : Nat} {c : Cmd} (body : Dev → Dev) {s : State} (h : s.dev.admits op mask c) :
    s.runCmd op mask c body = .next (s.after (body s.fresh)) := by
  obtain ⟨hw, hwait, hfl, hrs, hlen, hrd, hres⟩ := h
  rw [State.runCmd_wf op mask body s hw, State.run_eq]
  have h1 : s.fresh.waits c op = false := hwait
  have h2 : s.fresh.ready = true := hrd
  have e : Dev.command op mask c body s.fresh = body s.fresh := by
    unfold Dev.command
    rw [if_neg (by simp [h1]), if_neg, if_neg (by simp [h2]), if_neg (by simp [hres])]
    rintro (h | h | h)
    · exact h hfl
    · exact h hrs
    · omega
  rw [e]

theorem Answers.of_run {i : Instr} {s : State} {P : State → Prop} {f : Dev → Dev} (h : exec i s = .next (s.run f))
    (hp : P (s.run f)) : Answers i s P := ⟨_, h, hp⟩

end Sys2Proof.Machine
end

