-- ==== Sys2Proof/Laws/Frames.lean ====
section
/-! SUPPORT. Frames, composed: a function of the device keeps every part but some, and so does a chain, a choice or a loop
of such functions. The shared operations have their frames here. -/

namespace Sys2Proof.Machine

open Host

theorem Part.same_refl (p : Part) (a : Dev) : p.same a a := by cases p <;> first | rfl | exact ⟨rfl, rfl, rfl, rfl⟩ | exact ⟨rfl, rfl, rfl, rfl, rfl⟩

theorem Part.same_trans {p : Part} {a b c : Dev} (h : p.same a b) (h' : p.same b c) : p.same a c := by
  cases p <;> first
    | exact Eq.trans h h'
    | exact ⟨h.1.trans h'.1, h.2.1.trans h'.2.1, h.2.2.1.trans h'.2.2.1, h.2.2.2.trans h'.2.2.2⟩
    | exact ⟨h.1.trans h'.1, h.2.1.trans h'.2.1, h.2.2.1.trans h'.2.2.1, h.2.2.2.1.trans h'.2.2.2.1,
        h.2.2.2.2.trans h'.2.2.2.2⟩

theorem Dev.Keeps.refl (ps : List Part) (d : Dev) : Dev.Keeps ps d d := ⟨fun p _ => p.same_refl d⟩

/-- A chain of two functions. -/
theorem Dev.Keeps.andThen {ps qs : List Part} {a d e : Dev} (h : Dev.Keeps ps a d) (h' : Dev.Keeps qs d e)
    (hs : ∀ p, p ∈ qs → p ∈ ps) : Dev.Keeps ps a e :=
  ⟨fun p hp => Part.same_trans (h.same p hp) (h'.same p fun hq => hp (hs p hq))⟩

/-- Fewer parts are kept. -/
theorem Dev.Keeps.mono {ps qs : List Part} {a d : Dev} (h : Dev.Keeps qs a d) (hs : ∀ p, p ∈ qs → p ∈ ps) :
    Dev.Keeps ps a d := ⟨fun p hp => h.same p fun hq => hp (hs p hq)⟩

/-- A choice. -/
theorem Dev.Keeps.ite {ps : List Part} {a x y : Dev} {c : Prop} [Decidable c] (hx : Dev.Keeps ps a x)
    (hy : Dev.Keeps ps a y) : Dev.Keeps ps a (if c then x else y) := by split <;> assumption

/-- A loop. -/
theorem Dev.Keeps.foldl {α : Type} {ps : List Part} {a : Dev} {f : Dev → α → Dev}
    (hf : ∀ d x, Dev.Keeps ps d (f d x)) (l : List α) {d : Dev} (h : Dev.Keeps ps a d) : Dev.Keeps ps a (l.foldl f d) := by
  induction l generalizing d with
  | nil => exact h
  | cons x rest ih => exact ih (h.andThen (hf d x) fun _ hp => hp)

/-- What a report touches is no other part. -/
theorem Dev.Keeps.of_apart {a b : Dev} (h : a.apart = b.apart) : Dev.Keeps [.events, .reports] a b := by
  refine ⟨fun p hp => ?_⟩
  cases p
  case events => simp at hp
  case reports => simp at hp
  case values => have h' := congrArg (fun d : Dev => { d.regs with events := .empty, snaps := .empty }) h; exact h'
  case snaps => have h' := congrArg (fun d : Dev => d.regs.snaps) h; exact h'
  case commands =>
    exact ⟨Dev.host_inflight_of_apart h, Dev.host_cmdCnt_of_apart h, Dev.host_cmdErrCnt_of_apart h,
      Dev.host_cplLostCnt_of_apart h, by have h' := congrArg (fun d : Dev => d.host.pcie.aerCnt) h; exact h'⟩
  case host => have h' := congrArg (fun d : Dev => hostCore d.host) h; exact h'
  case twn => have h' := congrArg (fun d : Dev => { d.twn with sent := [] }) h; exact h'
  case ang => exact Dev.ang_of_apart h
  case gfm => exact Dev.gfm_of_apart h
  case prof => exact Dev.prof_of_apart h
  case loop => exact Dev.loop_of_apart h
  case sup => exact Dev.sup_of_apart h
  case mod => exact Dev.mod_of_apart h
  case pwm => exact Dev.pwm_of_apart h
  case pen => exact Dev.pen_of_apart h
  case pnt => exact Dev.pnt_of_apart h
  case adc => exact Dev.adc_of_apart h
  case acq => exact Dev.acq_of_apart h
  case clk => exact Dev.clk_of_apart h
  case fen => exact Dev.fen_of_apart h
  case sec => exact Dev.sec_of_apart h
  case hk => exact Dev.hk_of_apart h
  case aux => exact Dev.aux_of_apart h
  case lrd => exact Dev.lrd_of_apart h
  case sys => exact Dev.sys_of_apart h
  case free => exact Dev.free_of_apart h

theorem Dev.keeps_setW1c (off : Nat) (m : W32) (d : Dev) : Dev.Keeps [.events] d (d.setW1c off m) := by
  refine ⟨fun p hp => ?_⟩; cases p <;> first | rfl | exact ⟨rfl, rfl, rfl, rfl⟩ | exact ⟨rfl, rfl, rfl, rfl, rfl⟩ | simp at hp
theorem Dev.keeps_setBit (off bit : Nat) (d : Dev) : Dev.Keeps [.events] d (d.setBit off bit) := d.keeps_setW1c off _
theorem Dev.keeps_post (x : Nat) (bs : List Byte) (d : Dev) : Dev.Keeps [] d (d.post x bs) := by
  refine ⟨fun p hp => ?_⟩; cases p <;> first | rfl | exact ⟨rfl, rfl, rfl, rfl⟩ | exact ⟨rfl, rfl, rfl, rfl, rfl⟩
theorem Dev.keeps_shadow (r v : Nat) (d : Dev) : Dev.Keeps [] d (d.shadow r v) := by
  unfold Dev.shadow; dsimp only; split
  · exact .refl _ _
  · exact d.keeps_post _ _
theorem Dev.keeps_setRing (r : Nat) (v : Ring) (d : Dev) : Dev.Keeps [.reports] d (d.setRing r v) := by
  refine ⟨fun p hp => ?_⟩; cases p <;> first | rfl | exact ⟨rfl, rfl, rfl, rfl⟩ | exact ⟨rfl, rfl, rfl, rfl, rfl⟩ | simp at hp
theorem Dev.keeps_setVec (v : Nat) (x : MsixVec) (d : Dev) : Dev.Keeps [.reports] d (d.setVec v x) := by
  refine ⟨fun p hp => ?_⟩; cases p <;> first | rfl | exact ⟨rfl, rfl, rfl, rfl⟩ | exact ⟨rfl, rfl, rfl, rfl, rfl⟩ | simp at hp
theorem Dev.keeps_sendMsi (v : Nat) (d : Dev) : Dev.Keeps [.reports] d (d.sendMsi v) := by
  refine ⟨fun p hp => ?_⟩; cases p <;> first | rfl | exact ⟨rfl, rfl, rfl, rfl⟩ | exact ⟨rfl, rfl, rfl, rfl, rfl⟩ | simp at hp
theorem Dev.keeps_irq (n : Nat) (d : Dev) : Dev.Keeps [.events, .reports] d (d.irq n) :=
  Dev.Keeps.of_apart (d.apart_irq n).symm
theorem Dev.keeps_putDesc (r src : Nat) (bs : List Byte) (d : Dev) : Dev.Keeps [.events, .reports] d (d.putDesc r src bs) :=
  Dev.Keeps.of_apart (Dev.apart_putDesc r src bs d).symm
theorem Dev.keeps_report (blk bit d0 d1 d2 : Nat) (d : Dev) :
    Dev.Keeps [.events, .reports] d (d.report blk bit d0 d1 d2) := Dev.Keeps.of_apart (Dev.apart_report ..).symm
theorem Dev.keeps_event (blk bit d0 d1 d2 : Nat) (d : Dev) :
    Dev.Keeps [.events, .reports] d (d.event blk bit d0 d1 d2) := Dev.Keeps.of_apart (Dev.apart_event ..).symm
theorem Dev.keeps_accessErr (bar off : Nat) (d : Dev) : Dev.Keeps [.events, .reports, .host] d (d.accessErr bar off) := by
  unfold Dev.accessErr
  refine Dev.Keeps.andThen (Dev.Keeps.andThen ?_ (Dev.keeps_event ..) (by simp)) (Dev.keeps_irq ..) (by simp)
  refine ⟨fun p hp => ?_⟩; cases p <;> first | rfl | exact ⟨rfl, rfl, rfl, rfl⟩ | exact ⟨rfl, rfl, rfl, rfl, rfl⟩ | simp at hp
theorem Dev.keeps_snap (off v : Nat) (d : Dev) : Dev.Keeps [.snaps] d (d.snap off v) := by
  refine ⟨fun p hp => ?_⟩; cases p <;> first | rfl | exact ⟨rfl, rfl, rfl, rfl⟩ | exact ⟨rfl, rfl, rfl, rfl, rfl⟩ | simp at hp
theorem Dev.keeps_snapAll (vs : List (Nat × Nat)) (d : Dev) : Dev.Keeps [.snaps] d (d.snapAll vs) := by
  unfold Dev.snapAll
  exact Dev.Keeps.foldl (fun d x => d.keeps_snap x.1 x.2) vs (.refl _ d)
theorem Dev.keeps_setForce (off : Nat) (v : W32) (d : Dev) : Dev.Keeps [.values] d (d.setForce off v) := by
  refine ⟨fun p hp => ?_⟩; cases p <;> first | rfl | exact ⟨rfl, rfl, rfl, rfl⟩ | exact ⟨rfl, rfl, rfl, rfl, rfl⟩ | simp at hp

/-- A completion changes the commands in progress, their counters, event bits and reports. -/
theorem Dev.keeps_completeAs (ring slot tag op status bytes : Nat) (res : List Nat) (d : Dev) :
    Dev.Keeps [.commands, .events, .reports] d (d.completeAs ring slot tag op status bytes res) := by
  unfold Dev.completeAs
  dsimp only
  have hs : ∀ p : Part, p ∈ [Part.events, .reports] → p ∈ [Part.commands, .events, .reports] := by simp
  have tail : ∀ (b : Bool) (d e : Dev), Dev.Keeps [.commands, .events, .reports] d e →
      Dev.Keeps [.commands, .events, .reports] d (if b then e.irq 63 else e) := by
    intro b d e h
    split
    · exact h.andThen (e.keeps_irq 63) hs
    · exact h
  refine tail _ _ _ (Dev.Keeps.ite ?_ (Dev.Keeps.ite ?_ ?_))
  · exact ⟨fun p hp => by
      cases p <;> first | rfl | exact ⟨rfl, rfl, rfl, rfl⟩ | exact ⟨rfl, rfl, rfl, rfl, rfl⟩ | simp at hp⟩
  · refine Dev.Keeps.andThen ?_ (Dev.keeps_event _ _ _ _ _ _) hs
    exact ⟨fun p hp => by cases p <;> first | rfl | exact ⟨rfl, rfl, rfl, rfl⟩ | exact ⟨rfl, rfl, rfl, rfl, rfl⟩ | simp at hp⟩
  · refine Dev.Keeps.andThen ?_ (Dev.keeps_putDesc _ _ _ _) hs
    exact ⟨fun p hp => by cases p <;> first | rfl | exact ⟨rfl, rfl, rfl, rfl⟩ | exact ⟨rfl, rfl, rfl, rfl, rfl⟩ | simp at hp⟩

theorem Dev.keeps_complete (c : Cmd) (op status : Nat) (d : Dev) :
    Dev.Keeps [.commands, .events, .reports] d (d.complete c op status) := Dev.keeps_completeAs ..
theorem Dev.keeps_completeRes (c : Cmd) (op status bytes : Nat) (res : List Nat) (d : Dev) :
    Dev.Keeps [.commands, .events, .reports] d (d.completeRes c op status bytes res) := Dev.keeps_completeAs ..

theorem Dev.keeps_onAng (f : AngState → AngState) (d : Dev) : Dev.Keeps [.ang] d (d.onAng f) := by
  refine ⟨fun p hp => ?_⟩; cases p <;> first | rfl | exact ⟨rfl, rfl, rfl, rfl⟩ | exact ⟨rfl, rfl, rfl, rfl, rfl⟩ | simp at hp
theorem Dev.keeps_onGfm (f : GfmState → GfmState) (d : Dev) : Dev.Keeps [.gfm] d (d.onGfm f) := by
  refine ⟨fun p hp => ?_⟩; cases p <;> first | rfl | exact ⟨rfl, rfl, rfl, rfl⟩ | exact ⟨rfl, rfl, rfl, rfl, rfl⟩ | simp at hp
theorem Dev.keeps_onProf (f : ProfState → ProfState) (d : Dev) : Dev.Keeps [.prof] d (d.onProf f) := by
  refine ⟨fun p hp => ?_⟩; cases p <;> first | rfl | exact ⟨rfl, rfl, rfl, rfl⟩ | exact ⟨rfl, rfl, rfl, rfl, rfl⟩ | simp at hp
theorem Dev.keeps_onLoop (f : LoopState → LoopState) (d : Dev) : Dev.Keeps [.loop] d (d.onLoop f) := by
  refine ⟨fun p hp => ?_⟩; cases p <;> first | rfl | exact ⟨rfl, rfl, rfl, rfl⟩ | exact ⟨rfl, rfl, rfl, rfl, rfl⟩ | simp at hp
theorem Dev.keeps_onSup (f : SupState → SupState) (d : Dev) : Dev.Keeps [.sup] d (d.onSup f) := by
  refine ⟨fun p hp => ?_⟩; cases p <;> first | rfl | exact ⟨rfl, rfl, rfl, rfl⟩ | exact ⟨rfl, rfl, rfl, rfl, rfl⟩ | simp at hp
theorem Dev.keeps_onMod (f : ModState → ModState) (d : Dev) : Dev.Keeps [.mod] d (d.onMod f) := by
  refine ⟨fun p hp => ?_⟩; cases p <;> first | rfl | exact ⟨rfl, rfl, rfl, rfl⟩ | exact ⟨rfl, rfl, rfl, rfl, rfl⟩ | simp at hp
theorem Dev.keeps_onPwm (f : PwmState → PwmState) (d : Dev) : Dev.Keeps [.pwm] d (d.onPwm f) := by
  refine ⟨fun p hp => ?_⟩; cases p <;> first | rfl | exact ⟨rfl, rfl, rfl, rfl⟩ | exact ⟨rfl, rfl, rfl, rfl, rfl⟩ | simp at hp
theorem Dev.keeps_onPen (f : PenState → PenState) (d : Dev) : Dev.Keeps [.pen] d (d.onPen f) := by
  refine ⟨fun p hp => ?_⟩; cases p <;> first | rfl | exact ⟨rfl, rfl, rfl, rfl⟩ | exact ⟨rfl, rfl, rfl, rfl, rfl⟩ | simp at hp
theorem Dev.keeps_onPnt (f : PntState → PntState) (d : Dev) : Dev.Keeps [.pnt] d (d.onPnt f) := by
  refine ⟨fun p hp => ?_⟩; cases p <;> first | rfl | exact ⟨rfl, rfl, rfl, rfl⟩ | exact ⟨rfl, rfl, rfl, rfl, rfl⟩ | simp at hp
theorem Dev.keeps_onAdc (f : AdcState → AdcState) (d : Dev) : Dev.Keeps [.adc] d (d.onAdc f) := by
  refine ⟨fun p hp => ?_⟩; cases p <;> first | rfl | exact ⟨rfl, rfl, rfl, rfl⟩ | exact ⟨rfl, rfl, rfl, rfl, rfl⟩ | simp at hp
theorem Dev.keeps_onAcq (f : AcqState → AcqState) (d : Dev) : Dev.Keeps [.acq] d (d.onAcq f) := by
  refine ⟨fun p hp => ?_⟩; cases p <;> first | rfl | exact ⟨rfl, rfl, rfl, rfl⟩ | exact ⟨rfl, rfl, rfl, rfl, rfl⟩ | simp at hp
theorem Dev.keeps_onClk (f : ClkState → ClkState) (d : Dev) : Dev.Keeps [.clk] d (d.onClk f) := by
  refine ⟨fun p hp => ?_⟩; cases p <;> first | rfl | exact ⟨rfl, rfl, rfl, rfl⟩ | exact ⟨rfl, rfl, rfl, rfl, rfl⟩ | simp at hp
theorem Dev.keeps_onTwn (f : TwnState → TwnState) (d : Dev) : Dev.Keeps [.twn] d (d.onTwn f) := by
  refine ⟨fun p hp => ?_⟩; cases p <;> first | rfl | exact ⟨rfl, rfl, rfl, rfl⟩ | exact ⟨rfl, rfl, rfl, rfl, rfl⟩ | simp at hp
theorem Dev.keeps_onFen (f : FenState → FenState) (d : Dev) : Dev.Keeps [.fen] d (d.onFen f) := by
  refine ⟨fun p hp => ?_⟩; cases p <;> first | rfl | exact ⟨rfl, rfl, rfl, rfl⟩ | exact ⟨rfl, rfl, rfl, rfl, rfl⟩ | simp at hp
theorem Dev.keeps_onSec (f : SecState → SecState) (d : Dev) : Dev.Keeps [.sec] d (d.onSec f) := by
  refine ⟨fun p hp => ?_⟩; cases p <;> first | rfl | exact ⟨rfl, rfl, rfl, rfl⟩ | exact ⟨rfl, rfl, rfl, rfl, rfl⟩ | simp at hp
theorem Dev.keeps_onHk (f : HkState → HkState) (d : Dev) : Dev.Keeps [.hk] d (d.onHk f) := by
  refine ⟨fun p hp => ?_⟩; cases p <;> first | rfl | exact ⟨rfl, rfl, rfl, rfl⟩ | exact ⟨rfl, rfl, rfl, rfl, rfl⟩ | simp at hp
theorem Dev.keeps_onAux (f : AuxState → AuxState) (d : Dev) : Dev.Keeps [.aux] d (d.onAux f) := by
  refine ⟨fun p hp => ?_⟩; cases p <;> first | rfl | exact ⟨rfl, rfl, rfl, rfl⟩ | exact ⟨rfl, rfl, rfl, rfl, rfl⟩ | simp at hp
theorem Dev.keeps_onLrd (f : LrdState → LrdState) (d : Dev) : Dev.Keeps [.lrd] d (d.onLrd f) := by
  refine ⟨fun p hp => ?_⟩; cases p <;> first | rfl | exact ⟨rfl, rfl, rfl, rfl⟩ | exact ⟨rfl, rfl, rfl, rfl, rfl⟩ | simp at hp
theorem Dev.keeps_onSys (f : SysState → SysState) (d : Dev) : Dev.Keeps [.sys] d (d.onSys f) := by
  refine ⟨fun p hp => ?_⟩; cases p <;> first | rfl | exact ⟨rfl, rfl, rfl, rfl⟩ | exact ⟨rfl, rfl, rfl, rfl, rfl⟩ | simp at hp

/-- A row that runs one effect keeps what the effect keeps. -/
theorem ChangesOnly.of_after {ps : List Part} {s : State} {d : Dev} (h : Dev.Keeps ps s.fresh d) :
    ChangesOnly ps s (s.after d) := by
  refine ⟨⟨fun p hp => ?_⟩, rfl⟩
  have h' := h.same p hp
  cases p <;> exact h'

/-- A row that posts nothing leaves host memory as it is. -/
theorem Quiet.of_out {s : State} {d : Dev} (h : d.host.out = s.dev.host.out) : Quiet s (s.after d) := by
  intro h0 a; simp [State.readByte, State.after_mem, h, h0]

end Sys2Proof.Machine
end

