-- ==== Sys2Proof/Tests/Slice0.lean ====
section
/-! SUPPORT. The model's own tests: for each statement, states and operands that meet the hypotheses of its clauses
(theorems `witness_<statement>`, one clause after another; a clause without hypotheses, or whose hypotheses are among those
of another one, has none of its own); ill-formed commands for each check of `Instr.wf`; and a few steps with results worked
out from the spec's words. -/

namespace Sys2Proof.Tests

open Host Sys2Proof.Machine

set_option Elab.async false

/-! ### States and operands -/

/-- The machine after reset with its device changed. -/
def at_ (f : Dev → Dev) : State := { State.reset with dev := f Dev.reset }
/-- A register holds a value. -/
def put (off v : Nat) (d : Dev) : Dev := d.setForce off (BitVec.ofNat 32 v)
/-- The same, in READY with completion ring 4 enabled, the Fence in RUN and no demand. -/
def up (f : Dev → Dev) : State := at_ fun d => f (((put (Reg.HOST_RING_CFG 4) 0x80000006 d).onSec fun x => { x with phase := 6 }).onFen fun x =>
  { x with st := .run, outs := x.outs.set FenOut.reset 0 { FenOut.reset with demanded := false } })
/-- A tick of the clock. -/
def late (n : Nat) (d : Dev) : Dev := d.onAng fun a => { a with tick := n }
/-- A command with its inline bytes (byte 20 lowest) and its buffer. -/
def cmd (inl : Nat) (buf : List Byte) : Cmd :=
  { ring := 0, slot := 0, tag := 0, flags := 0, resv := 0, addr := 0, len := BitVec.ofNat 32 buf.length,
    inl := BitVec.ofNat 96 inl, buf := buf, bufErr := false }
/-- A command whose buffer the device writes. -/
def out (inl len : Nat) : Cmd := { cmd inl [] with len := BitVec.ofNat 32 len }
/-- Bytes of zero. -/
def zeros (n : Nat) : List Byte := List.replicate n 0
/-- A valid parameter set, and its 36 bytes. -/
def ramp : Ramp := ⟨0, 0, 1, 0, 0, 1, 1, 1, 1⟩
def rampBytes : List Byte := (rampList ramp).flatMap (leBytes 4)
/-- Every channel with that set. -/
def ramped (d : Dev) : Dev := (upto 16).foldl (fun d c => d.setPrf c { d.prf c with ramp := ramp }) d
/-- A stroke sampled at reset. -/
def job : Job where
  g := { Grid.reset with sn := 1 }
  mach := ⟨none, 0, 0⟩
  planned := false
  plan := none
  rebase := false
  tb := false
  mode := .off
  sampleTick := 0
  theta := 0
  conf := Dev.reset.conf
  pwm := none
  held := false
  dT := 0
  u1 := []
  prof := []
  profDone := 0
  rank := []
  avail := []
  armSum := []
  socMean := []
  auxAngle := []
  excl := []
  stale := []
  stage1 := false
  signs := []
  lateCap := []
  evaluated := false
  missed := false
  built := false
  refs := []
  furrows := []
  shown := none
def withJob (j : Job) (d : Dev) : Dev := d.onAng fun a => { a with jobs := [j] }
/-- String n with four submodules. -/
def stringed (n : Nat) (d : Dev) : Dev := put (Reg.MOD_STR n) 0x80040000 d
def strd (n : Nat) (f : PenString → PenString) (d : Dev) : Dev := (stringed n d).setStr n (f (d.str n))
/-- A drill frame without entries: string and direction, phase and length, epoch, stroke. -/
def frame (b0 b1 epoch sn : Nat) : List Byte :=
  frameBytes (leBytes 1 b0 ++ leBytes 1 b1 ++ zeros 4 ++ leBytes 2 epoch ++ leBytes 4 sn ++ zeros 24) (zeros 4) none 4 0
/-- Characters as they arrive on a lane. -/
def lined (cs : List LineChar) : LineIn := ⟨false, encodeLine false cs⟩
/-- A frame, and an ordered set, as they arrive. -/
def framed (bs : List Byte) : LineIn := lined (frameChars bs)
def setted (s : OrderedSet) : LineIn := lined (setChars s)
/-- The frame that those characters are. -/
def readOf (bs : List Byte) : Frame := (frameOf (framed bs)).getD (readFrame [] [])
/-- What an endpoint sees beside the frame. -/
def seen : EndpointInput := ⟨0, 0, 0, [], 0, false, 0, 0⟩
/-- An endpoint of string 0 that follows a drill. -/
def endp (k : Nat) (f : Endpoint → Endpoint) (d : Dev) : Dev := (stringed (k / 64) d).setEndp k (f (d.endp k))
/-- Device-to-host ring r of 64 slots, empty. -/
def ringed (r : Nat) (d : Dev) : Dev := put (Reg.HOST_RING_CFG r) 0x80000006 d
/-- An emptied record of no channel. -/
def record : AcqRecord := ⟨0, [], 0, 0, [], 0, [], 0, 0, 0, 0, 0, false, 0, false, true⟩
def statusPkt : StatusPkt := ⟨4, true, 0, [], 0⟩
def supMirror : SupMirror := ⟨false, none, none, none, none, none, 0, 0, none, .empty, .empty, 0, .empty, 0, 0, 0, 0⟩
/-- A record of the timebase as reset leaves it. -/
def mirror : MirrorRec :=
  ⟨1, 0, .off, .normal, Dev.reset.digest8, Grid.reset, none, 0, 0, 0, .empty, [], supMirror, .empty, [], [], [], none⟩
def drill : DrillPkt := ⟨11, 1, 0, 0, 0, zeros 4⟩
def train : TrainPkt := ⟨11, 1, [], [], none⟩
/-- A twin whose partner reports STANDBY. -/
def ready (d : Dev) : Dev := d.onTwn fun t => { t with linkUp := true, partner := some { statusPkt with st := 3 } }
def closed (o : FenOut) : FenOut := { o with demanded := false, hi := { o.hi with cmd := true }, lo := { o.lo with cmd := true } }
def fence (f : FenState → FenState) (d : Dev) : Dev := d.onFen f
def row (off : Nat) : RegRow := (regRow off).getD ⟨0, 0, 0, 0, 0, 0, false⟩
/-- Command ring r of 64 slots with one descriptor, and its completion ring. -/
def rung (r : Nat) (d : Dev) : Dev := ringed (4 + r) ((ringed r d).setRing r { d.ring r with prod := 1 })
def vec (f : MsixVec → MsixVec) (d : Dev) : Dev := d.setVec 63 (f (d.vec 63))
def stage (off v : Nat) (d : Dev) : Dev :=
  { d with regs := { d.regs with staged := d.regs.staged.set (regReset off) off (BitVec.ofNat 32 v) } }
/-- A staged set that admission accepts: 50 Hz, three pairs of the loop, and a parameter set for every channel. -/
def good (d : Dev) : Dev :=
  let fw (d : Dev) (r : Nat) : Dev := stage r 0xDF8A2D0E (stage (r + 4) 0x218 d)
  let d := [Reg.ANG_FW_L, Reg.ANG_FWMIN_L, Reg.ANG_FWMAX_L].foldl fw d
  let d := (upto 16).foldl (fun d c => [Reg.PROF_VMAX c, Reg.PROF_A2 c, Reg.PROF_D1 c, Reg.PROF_D2 c, Reg.PROF_DECMAX c].foldl
    (fun d r => stage r 1 d) d) d
  let d := (upto 3).foldl (fun d p => stage (Reg.PWM_PAIR p) 0x80000000 d) d
  stage (Reg.SUP_FE_CFG 0) 0x80000000 (stage (Reg.SUP_FE_LIM 0) 0x10001 (stage Reg.ADC_SAR_EN 1
    (stage (Reg.LOOP_MAP 3) 0x80000000 d)))
/-- The public key of private key 1, and a signature with it and nonce 1: r is the x of G, s is e + r. -/
def pubG : List Byte := 0x04 :: (beBytes 48 p384Gx ++ beBytes 48 p384Gy)
def sign (msg : List Byte) : List Byte :=
  beBytes 48 (p384Gx % p384N) ++ beBytes 48 ((beNat (sha384 msg) + p384Gx) % p384N)
/-- A seed image of one CONFIG section of one register, under key slot 0 (R455, R456). -/
def image : List Byte :=
  let body := leBytes 2 1 ++ zeros 2 ++ leBytes 4 8 ++ zeros 8 ++ leBytes 4 Reg.GFM_BS ++ leBytes 4 0x05020064
  let head := [0x53, 0x45, 0x45, 0x44] ++ leBytes 2 1 ++ zeros 2 ++ leBytes 4 7 ++ zeros 2 ++ leBytes 2 1 ++ leBytes 4 24 ++
    leBytes 4 0x9160 ++ leBytes 4 0x43 ++ zeros 36 ++ pubG ++ zeros 7 ++ sha384 body
  head ++ sign head ++ zeros 8 ++ body
def transfer (n : Nat) : Transfer := ⟨2, n, [], 0, 0, 0, 0, 320, 0, false⟩
/-- An image descriptor of n bytes at offset o. -/
def chunk (n o : Nat) : BitVec 256 := BitVec.ofNat 256 (0x0801 + n * 2 ^ 128 + o * 2 ^ 160)
/-- A Larder record. -/
def recordBytes (q : Nat) : List Byte := let bs := leBytes 4 q ++ zeros 56; bs ++ leBytes 4 (crc32 bs).toNat
def snapSlot : SnapSlot := ⟨1, 0, [], [], true⟩
/-- Drive k of a kind (1 BLDC, 3 stepper). -/
def drive (assign k : Nat) (f : AuxDrive → AuxDrive) (d : Dev) : Dev :=
  (put (Reg.AUX_DRV_CFG k) 0x80000000 (put Reg.AUX_CFG (assign * 65536 + 8000) d)).setDrv k (f (d.drv k))
def sec (f : SecState → SecState) (d : Dev) : Dev := d.onSec f
def lrd (f : LrdState → LrdState) (d : Dev) : Dev := d.onLrd f
def clk (f : ClkState → ClkState) (d : Dev) : Dev := d.onClk f
def paired (d : Dev) : Dev := put Reg.TWN_CFG 0x80000000 d
def twin (st : TwinSt) (d : Dev) : Dev := (paired d).onTwn fun t => { t with st := st }

/-! ### The hypotheses of every statement can be met -/


theorem witness_EmptyQueueIdles :
    (∃ (s : State), s.pending = []) :=
  ⟨State.reset, by decide +kernel⟩

theorem witness_WellFormedRowsAnswer :
    (∃ (i : Instr), i.wf = true) ∧
    (∃ (i : Instr), i.wf = false) :=
  ⟨⟨.refLost, by decide +kernel⟩,
   ⟨.nop { cmd 0 [0] with len := 2 }, by decide +kernel⟩⟩

theorem witness_StrokeStartAdvancesSn :
    (∃ (s : State), (s.dev.twinEn = false ∨ s.dev.twn.loadTb = false) ∧ (s.dev.ang.cur.angle = true ∧
      s.fresh.atBoundary = true ∨ s.dev.ang.cur.angle = false ∧ s.dev.ang.cur.start + s.dev.ang.cur.len ≤ s.dev.now ∧
      s.fresh.nextBoundary.g.angle = true)) ∧
    (∃ (s : State), (s.dev.twinEn = false ∨ s.dev.twn.loadTb = false) ∧ s.dev.ang.cur.angle = false ∧
      s.dev.ang.cur.start + s.dev.ang.cur.len ≤ s.dev.now ∧ s.fresh.nextBoundary.g.angle = false) ∧
    (∃ (s : State), s.dev.ang.cur.angle = true ∧ s.fresh.atBoundary = false) ∧
    (∃ (s : State), (s.dev.ang.cur.angle = true ∨ s.dev.now < s.dev.ang.cur.start + s.dev.ang.cur.len)) :=
  ⟨⟨at_ fun d => late 50000 ((d.onGfm fun g => { g with mode := .forming }).onAng fun a =>
     { a with cur := { a.cur with angle := true }, prevAcc := 0, acc := 0x1FFFFFFFFFFFFFFF }), by decide +kernel⟩,
   ⟨at_ fun d => d.onAng fun a => { a with tick := a.cur.len + 100000 }, by decide +kernel⟩,
   ⟨at_ fun d => d.onAng fun a => { a with cur := { a.cur with angle := true } }, by decide +kernel⟩,
   ⟨State.reset, by decide +kernel⟩⟩

theorem witness_SampleInstantTakesOneStroke :
    (∃ (s : State), s.dev.lastGrid.start + s.dev.lastGrid.len ≤ s.dev.now + s.dev.tbTsa) ∧
    (∃ (s : State), s.dev.now + s.dev.tbTsa < s.dev.lastGrid.start + s.dev.lastGrid.len) :=
  ⟨⟨at_ fun d => d.onAng fun a => { a with tick := 1000000 }, by decide +kernel⟩,
   ⟨State.reset, by decide +kernel⟩⟩

theorem witness_AngleStampFiresOncePerRevolution :
    (∃ (u : Fin 8) (s : State), s.dev.ang.cur.angle = true ∧ s.dev.clk.fallback = false ∧ s.dev.unitOn ↑u = true ∧
      s.dev.fld (Reg.ACQ_UNIT_CFG ↑u) 30 28 = 4 ∧ (s.dev.aunit ↑u).lastRev ≠ some s.dev.ang.rev ∧ crossed
      s.dev.ang.prevAcc s.dev.ang.acc (s.dev.cfg (Reg.ACQ_UNIT_LA ↑u)) = true) ∧
    (∃ (u : Fin 8) (s : State), ((s.dev.aunit ↑u).lastRev = some s.dev.ang.rev ∨ s.dev.clk.fallback = true)) :=
  ⟨⟨3, at_ fun d => put (Reg.ACQ_UNIT_CFG 3) 0xC0000000 (put (Reg.ACQ_UNIT_LA 3) 0x80000000 (((clk fun c =>
     { c with fallback := false }) d).onAng fun a =>
     { a with cur := { a.cur with angle := true }, prevAcc := 0x7000000000000000, acc := 0x9000000000000000 })),
     by decide +kernel⟩,
   ⟨3, at_ fun d => d.setAunit 3 { d.aunit 3 with lastRev := some 0 }, by decide +kernel⟩⟩

theorem witness_ModeRequestCompletes :
    (∃ (c : Cmd) (s : State) (m : Mode), Dev.admits 2 (inlMask [(20, 7), (21, 3)]) c s.dev ∧ modeOf (c.byte 20) = some
      m ∧ s.dev.twn.st ≠ TwinSt.standby ∧ (s.dev.clk.fallback = false ∧ s.dev.sec.debug ≠ 2 ∨ m = Mode.off) ∧
      s.dev.gfm.req = none ∧ m ≠ s.dev.gfm.mode ∧ s.fresh.modeAllowed s.dev.gfm.mode m (bitAt (c.byte 21) 1) = true) ∧
    (∃ (c : Cmd) (s : State), Dev.admits 2 (inlMask [(20, 7), (21, 3)]) c s.dev ∧ modeOf (c.byte 20) = none) ∧
    (∃ (c : Cmd) (s : State) (m : Mode), Dev.admits 2 (inlMask [(20, 7), (21, 3)]) c s.dev ∧ modeOf (c.byte 20) = some
      m ∧ s.dev.gfm.req = none ∧ m ≠ s.dev.gfm.mode ∧ s.fresh.modeAllowed s.dev.gfm.mode m (bitAt (c.byte 21) 1) =
      false) :=
  ⟨⟨cmd 0 [], up fun d => d.onGfm fun g => { g with mode := .standby }, .off, by decide +kernel⟩,
   ⟨cmd 7 [], up id, by decide +kernel⟩,
   ⟨cmd 3 [], up id, .forming, by decide +kernel⟩⟩

theorem witness_MachineEvaluationDelivers :
    (∃ (s : State) (i : McInput), s.dev.gfm.mcDue = some i) ∧
    (∃ (s : State), s.dev.gfm.mcDue = none) :=
  ⟨⟨at_ fun d => d.onGfm fun g => { g with mcDue := some (McInput.mk 0 0 .standby false none 0 0 0 0 0 0 0 0 0 []) },
     McInput.mk 0 0 .standby false none 0 0 0 0 0 0 0 0 0 [], by decide +kernel⟩,
   ⟨State.reset, by decide +kernel⟩⟩

theorem witness_BreakerRowsTakeEffect :
    (∃ (s : State) (e : ℕ), s.dev.gfm.pulseEnd = some e ∧ e ≤ s.dev.now) ∧
    (∃ (l : Bool) (s : State), l ≠ s.dev.gfm.bkrFb) ∧
    (∃ (s : State) (a : ℕ), s.dev.gfm.attempt = some a ∧ s.dev.gfm.mode = Mode.resync ∧ s.dev.gfm.bkrFb = false ∧ a +
      s.dev.fld Reg.GFM_BKR 7 0 * 10 * msTicks ≤ s.dev.now) ∧
    (∃ (s : State), s.dev.gfm.mode = Mode.resync ∧ s.dev.gfm.auto = none ∧ s.dev.gfm.entryTick + s.dev.fld
      Reg.GFM_RS_TIME 15 0 * 100 * msTicks < s.dev.now) :=
  ⟨⟨at_ fun d => d.onGfm fun g => { g with pulseEnd := some 0 }, 0, by decide +kernel⟩,
   ⟨true, State.reset, by decide +kernel⟩,
   ⟨at_ fun d => (d.onGfm fun g => { g with attempt := some 0, mode := .resync }).onAng fun a =>
     { a with tick := 10 ^ 9 }, 0, by decide +kernel⟩,
   ⟨at_ fun d => (d.onGfm fun g => { g with mode := .resync }).onAng fun a => { a with tick := 10 ^ 11 },
     by decide +kernel⟩⟩

theorem witness_ModeTimeoutsTripSoft :
    (∃ (s : State), s.dev.gfm.mode = Mode.blackstart ∧ s.dev.gfm.entryTick + s.dev.fld Reg.GFM_BS 15 0 * 10 * msTicks
      ≤ s.dev.now ∧ s.dev.tripping = false ∧ s.dev.autoDue 2 = false ∧ (∀ d ∈ s.dev.sup.delayed, d.cause ≠ 15)) ∧
    (∃ (s : State), s.dev.gfm.mode = Mode.stopping ∧ s.dev.gfm.entryTick + s.dev.fld Reg.GFM_STOP 31 16 * 10 * msTicks
      ≤ s.dev.now ∧ s.dev.tripping = false ∧ s.dev.autoDue 11 = false ∧ (∀ d ∈ s.dev.sup.delayed, d.cause ≠ 16)) :=
  ⟨⟨at_ fun d => (d.onGfm fun g => { g with mode := .blackstart }).onAng fun a => { a with tick := 10 ^ 12 },
     by decide +kernel⟩,
   ⟨at_ fun d => (d.onGfm fun g => { g with mode := .stopping }).onAng fun a => { a with tick := 10 ^ 12 },
     by decide +kernel⟩⟩

theorem witness_ProfileCommandsAreAccepted :
    (∃ (c : Cmd) (s : State), Dev.admits 4 (inlMask [(20, 255), (21, 1), (24, 4294967295)]) c s.dev ∧ c.byte 20 < 8 ∧
      s.dev.rankBusy = false ∧ s.dev.chanRefused (c.byte 20) = false ∧ c.byte 21 = 0 ∧ c.len = 0 ∧ rampValid
      (s.dev.rampPlanned (c.byte 20)) = true) ∧
    (∃ (c : Cmd) (s : State), Dev.admits 4 (inlMask [(20, 255), (21, 1), (24, 4294967295)]) c s.dev ∧ c.byte 20 < 8 ∧
      s.dev.rankBusy = false ∧ s.dev.chanRefused (c.byte 20) = false ∧ c.byte 21 = 1 ∧ c.len = 36 ∧ c.bufErr = false ∧
      rampValid (bufRamp c) = true) ∧
    (∃ (c : Cmd) (s : State), Dev.admits 5 (inlMask [(20, 255), (22, 1023), (24, 4294967295)]) c s.dev ∧ c.byte 20 <
      16 ∧ s.dev.chanRefused (c.byte 20) = false ∧ (bitAt (c.half 22) 9 = true → 8 ≤ c.byte 20 → s.dev.driveKind
      (c.byte 20 - 8) = 0 ∨ 12 ≤ c.byte 20) ∧ (bitAt (c.half 22) 9 = true → 8 ≤ c.byte 20 → -2 ^ 23 ≤ (BitVec.ofNat 32
      (c.word 24)).toInt ∧ (BitVec.ofNat 32 (c.word 24)).toInt < 2 ^ 23) ∧ c.half 22 % 512 = 0 ∧ c.len = 0 ∧ rampValid
      (s.dev.rampPlanned (c.byte 20)) = true) ∧
    (∃ (c : Cmd) (s : State), Dev.admits 5 (inlMask [(20, 255), (22, 1023), (24, 4294967295)]) c s.dev ∧ c.byte 20 <
      16 ∧ s.dev.chanRefused (c.byte 20) = false ∧ (bitAt (c.half 22) 9 = true → 8 ≤ c.byte 20 → s.dev.driveKind
      (c.byte 20 - 8) = 0 ∨ 12 ≤ c.byte 20) ∧ (bitAt (c.half 22) 9 = true → 8 ≤ c.byte 20 → -2 ^ 23 ≤ (BitVec.ofNat 32
      (c.word 24)).toInt ∧ (BitVec.ofNat 32 (c.word 24)).toInt < 2 ^ 23) ∧ c.half 22 % 512 ≠ 0 ∧ c.len = 36 ∧ c.bufErr
      = false ∧ rampValid (rampMerge (c.half 22 % 512) (bufRamp c) (s.dev.rampPlanned (c.byte 20))) = true) ∧
    (∃ (c : Cmd) (s : State), Dev.admits 6 (inlMask [(20, 255), (21, 1)]) c s.dev ∧ c.byte 20 < 16 ∧ c.len = 0 ∧
      s.dev.chanRefused (c.byte 20) = true) ∧
    (∃ (c : Cmd) (s : State), Dev.admits 6 (inlMask [(20, 255), (21, 1)]) c s.dev ∧ c.byte 20 < 16 ∧ c.len = 0 ∧
      s.dev.chanRefused (c.byte 20) = false ∧ (s.dev.prf (c.byte 20)).seg = Seg.idle ∧ s.dev.prof.ops = []) ∧
    (∃ (c : Cmd) (s : State), Dev.admits 6 (inlMask [(20, 255), (21, 1)]) c s.dev ∧ c.byte 20 < 16 ∧ c.len = 0 ∧
      s.dev.chanRefused (c.byte 20) = false ∧ ((s.dev.prf (c.byte 20)).seg ≠ Seg.idle ∨ s.dev.prof.ops ≠ [])) ∧
    (∃ (c : Cmd) (s : State), Dev.admits 3 (inlMask [(20, 255), (24, 4294967295)]) c s.dev ∧ c.byte 20 < 8 ∧ c.len = 0
      ∧ s.dev.chanRefused (c.byte 20) = true) ∧
    (∃ (c : Cmd) (s : State), Dev.admits 3 (inlMask [(20, 255), (24, 4294967295)]) c s.dev ∧ 8 ≤ c.byte 20) ∧
    (∃ (c : Cmd) (s : State), Dev.admits 4 (inlMask [(20, 255), (21, 1), (24, 4294967295)]) c s.dev ∧ c.byte 20 < 8 ∧
      (BitVec.toNat c.len = if c.byte 21 = 1 then 36 else 0) ∧ s.dev.chanRefused (c.byte 20) = true) ∧
    (∃ (c : Cmd) (s : State), Dev.admits 4 (inlMask [(20, 255), (21, 1), (24, 4294967295)]) c s.dev ∧ 8 ≤ c.byte 20) ∧
    (∃ (c : Cmd) (s : State), Dev.admits 5 (inlMask [(20, 255), (22, 1023), (24, 4294967295)]) c s.dev ∧ c.byte 20 <
      16 ∧ (BitVec.toNat c.len = if c.half 22 % 512 = 0 then 0 else 36) ∧ (bitAt (c.half 22) 9 = true → 8 ≤ c.byte 20
      → -2 ^ 23 ≤ (BitVec.ofNat 32 (c.word 24)).toInt ∧ (BitVec.ofNat 32 (c.word 24)).toInt < 2 ^ 23) ∧
      s.dev.chanRefused (c.byte 20) = true) ∧
    (∃ (c : Cmd) (s : State), Dev.admits 5 (inlMask [(20, 255), (22, 1023), (24, 4294967295)]) c s.dev ∧ 16 ≤ c.byte
      20) ∧
    (∃ (c : Cmd) (s : State), 16 ≤ c.byte 20 ∧ Dev.admits 6 (inlMask [(20, 255), (21, 1)]) c s.dev) :=
  ⟨⟨cmd 0 [], up ramped, by decide +kernel⟩,
   ⟨cmd 0x100 rampBytes, up id, by decide +kernel⟩,
   ⟨cmd 15 [], up ramped, by decide +kernel⟩,
   ⟨cmd 0x1FF000F rampBytes, up id, by decide +kernel⟩,
   ⟨cmd 7 [], up fun d => d.setPrf 7 { d.prf 7 with held := true }, by decide +kernel⟩,
   ⟨cmd 7 [], up id, by decide +kernel⟩,
   ⟨cmd 7 [], up fun d => d.setPrf 7 { d.prf 7 with seg := .cruise }, by decide +kernel⟩,
   ⟨cmd 7 [], up fun d => d.setPrf 7 { d.prf 7 with held := true }, by decide +kernel⟩,
   ⟨cmd 8 [], up id, by decide +kernel⟩,
   ⟨cmd 7 [], up fun d => d.setPrf 7 { d.prf 7 with held := true }, by decide +kernel⟩,
   ⟨cmd 8 [], up id, by decide +kernel⟩,
   ⟨cmd 7 [], up fun d => d.setPrf 7 { d.prf 7 with held := true }, by decide +kernel⟩,
   ⟨cmd 16 [], up id, by decide +kernel⟩,
   ⟨cmd 16 [], up id, by decide +kernel⟩⟩

theorem witness_SetpointWriteSetsPosition :
    (∃ (c : Cmd) (s : State), Dev.admits 3 (inlMask [(20, 255), (24, 4294967295)]) c s.dev ∧ c.byte 20 < 8 ∧ c.len = 0
      ∧ s.dev.rankBusy = false ∧ s.dev.chanRefused (c.byte 20) = false) ∧
    (∃ (k : ℕ) (v : W32) (s : State), k < 8 ∧ s.dev.now % 400 < s.dev.cycle ∧ (s.dev.prof.lastTick / 400 ≠ s.dev.now /
      400 ∨ s.dev.now = 0) ∧ s.dev.prof.ops = [ProfOp.write k v] ∧ s.dev.prof.tripHalt = false) :=
  ⟨⟨cmd 2 [], up id, by decide +kernel⟩,
   ⟨7, 5, at_ fun d => d.onProf fun p => { p with ops := [.write 7 5] }, by decide +kernel⟩⟩

theorem witness_ProfileTickMovesEachChannelOnce :
    (∃ (s : State), s.dev.now % 400 < s.dev.cycle ∧ (s.dev.prof.lastTick / 400 ≠ s.dev.now / 400 ∨ s.dev.now = 0)) ∧
    (∃ (s : State), (s.dev.cycle ≤ s.dev.now % 400 ∨ s.dev.prof.lastTick / 400 = s.dev.now / 400 ∧ s.dev.now ≠ 0)) :=
  ⟨⟨State.reset, by decide +kernel⟩,
   ⟨at_ fun d => d.onAng fun a => { a with tick := 399 }, by decide +kernel⟩⟩

theorem witness_MoveFollowsItsRamp :
    (∃ (c : ℕ) (p : ProfChan), p.fresh = false ∧ p.halting = false ∧ p.overshot = false ∧ p.stopping = false ∧ p.decel
      = false ∧ p.seg ≠ Seg.reversing ∧ p.seg ≠ Seg.decMax ∧ stopExceeds p (remaining c p + ↑p.vel) = false ∧
      stopExceeds p (remaining c p - ↑p.vel) = false ∧ ↑(accelerate p) < remaining c p) ∧
    (∃ (p : ProfChan), p.ramp.vBrk ≤ p.ramp.vMax ∧ p.vel < wide p.ramp.vBrk) ∧
    (∃ (p : ProfChan), p.ramp.vBrk ≤ p.ramp.vMax ∧ wide p.ramp.vBrk ≤ p.vel ∧ p.vel < wide p.ramp.vMax) ∧
    (∃ (p : ProfChan), p.ramp.vBrk ≤ p.ramp.vMax ∧ p.vel = wide p.ramp.vMax) ∧
    (∃ (p : ProfChan), p.ramp.vBrk ≤ p.ramp.vMax ∧ wide p.ramp.vMax < p.vel) ∧
    (∃ (c : ℕ) (p : ProfChan), (moveTick c p).2.done = none ∧ (moveTick c p).1.fresh = false) ∧
    (∃ (c : ℕ) (p : ProfChan), (moveTick c p).2.done = some ProfCause.target) :=
  ⟨⟨0, { ProfChan.reset with ramp := ramp, target := 0x100000, seg := .cruise }, by decide +kernel⟩,
   ⟨{ ProfChan.reset with ramp := { ramp with vBrk := 1, vMax := 2 } }, by decide +kernel⟩,
   ⟨{ ProfChan.reset with ramp := ramp }, by decide +kernel⟩,
   ⟨{ ProfChan.reset with ramp := ramp, vel := wide 1 }, by decide +kernel⟩,
   ⟨{ ProfChan.reset with ramp := ramp, vel := wide 2 }, by decide +kernel⟩,
   ⟨0, { ProfChan.reset with ramp := ramp, target := 0x100000, seg := .cruise }, by decide +kernel⟩,
   ⟨0, { ProfChan.reset with ramp := ramp, seg := .cruise }, by decide +kernel⟩⟩

theorem witness_LoopEvaluationCompletesOneStroke :
    (∃ (s : State) (j : Job) (c : Dev), (s.dev.twn.st = TwinSt.solo ∨ s.dev.twn.st = TwinSt.active) ∧ s.dev.twn.loadSn
      = none ∧ List.find? (fun j => !j.stage1) (s.dev.ang.lateJobs ++ s.dev.ang.jobs) = some j ∧ s.dev.inputsReady =
      true ∧ j.sampleTick + 200 ≤ s.dev.now ∧ j.missed = false ∧ c = Dev.setConf j.conf s.dev ∧ s.dev.loop.inject = 0
      ∧ s.dev.now + loopCost c.cfg + c.tEP ≤ j.sampleTick + c.tSA) ∧
    (∃ (s : State) (j : Job) (c : Dev), (s.dev.twn.st = TwinSt.solo ∨ s.dev.twn.st = TwinSt.active) ∧ s.dev.twn.loadSn
      = none ∧ List.find? (fun j => !j.stage1) (s.dev.ang.lateJobs ++ s.dev.ang.jobs) = some j ∧ s.dev.inputsReady =
      true ∧ j.sampleTick + 200 ≤ s.dev.now ∧ j.missed = false ∧ c = Dev.setConf j.conf s.dev ∧ s.dev.loop.inject = 0
      ∧ j.sampleTick + c.tSA < s.dev.now + loopCost c.cfg + c.tEP) ∧
    (∃ (s : State) (j : Job) (c : Dev), (s.dev.twn.st = TwinSt.solo ∨ s.dev.twn.st = TwinSt.active) ∧ s.dev.twn.loadSn
      = none ∧ List.find? (fun j => !j.stage1) (s.dev.ang.lateJobs ++ s.dev.ang.jobs) = some j ∧ s.dev.inputsReady =
      true ∧ j.sampleTick + 200 ≤ s.dev.now ∧ j.missed = false ∧ c = Dev.setConf j.conf s.dev ∧ 0 < s.dev.loop.inject) ∧
    (∃ (s : State), s.dev.inputsReady = false) :=
  ⟨⟨at_ fun d => withJob job (late 400 d), job, Dev.setConf job.conf (at_ fun d => withJob job (late 400 d)).dev,
     by decide +kernel⟩,
   ⟨at_ fun d => withJob job (late 100000 d), job, Dev.setConf job.conf (at_ fun d => withJob job (late 100000
     d)).dev, by decide +kernel⟩,
   ⟨at_ fun d => withJob job ((late 400 d).onLoop fun l => { l with inject := 1 }), job, Dev.setConf job.conf (at_ fun
     d => withJob job ((late 400 d).onLoop fun l => { l with inject := 1 })).dev, by decide +kernel⟩,
   ⟨at_ fun d => put Reg.ADC_SAR_EN 1 (d.setSar 0 { d.sar 0 with due := true }), by decide +kernel⟩⟩

theorem witness_MissedDeadlinesAreCounted :
    (∃ (s : State) (j : Job) (c : Dev), (s.dev.twn.st = TwinSt.solo ∨ s.dev.twn.st = TwinSt.active) ∧ List.find? (fun
      j => !j.evaluated && !j.missed) s.dev.ang.jobs = some j ∧ c = Dev.setConf j.conf s.dev ∧ j.sampleTick + c.tSA ≤
      s.dev.now + c.tEP) ∧
    (∃ (s : State) (j : Job) (c : Dev), List.find? (fun j => !j.evaluated && !j.missed) s.dev.ang.jobs = some j ∧ c =
      Dev.setConf j.conf s.dev ∧ s.dev.now + c.tEP < j.sampleTick + c.tSA) ∧
    (∃ (v : W32), BitVec.getLsbD v 0 = true) ∧
    (∃ (v : W32), BitVec.getLsbD v 0 = false) :=
  ⟨⟨at_ fun d => withJob job (late (10 ^ 6) d), job, Dev.setConf job.conf (at_ fun d => withJob job (late (10 ^ 6)
     d)).dev, by decide +kernel⟩,
   ⟨at_ fun d => withJob { job with sampleTick := 10 ^ 6 } d, { job with sampleTick := 10 ^ 6 }, Dev.setConf job.conf
     (at_ fun d => withJob { job with sampleTick := 10 ^ 6 } d).dev, by decide +kernel⟩,
   ⟨1, by decide +kernel⟩,
   ⟨0, by decide +kernel⟩⟩

theorem witness_TimedConditionsOfSupervision :
    (∃ (s : State), s.dev.sup.evalMode = Mode.forming ∧ isFrt s.dev.sup.sub = true ∧ heldFor s.dev.sup.clearStart
      s.dev.sup.evalTick s.dev.tFrtClr = true) ∧
    (∃ (s : State), s.dev.sup.evalMode = Mode.forming ∧ s.dev.sup.sub = Sub.limit ∧ heldFor s.dev.sup.exitStart
      s.dev.sup.evalTick s.dev.tLimExit = true) ∧
    (∃ (s : State), s.dev.sup.evalMode ≠ Mode.forming ∧ s.dev.sup.limitHold = true ∧ heldFor s.dev.sup.exitStart
      s.dev.sup.evalTick s.dev.tLimExit = true) ∧
    (∃ (s : State), tooLong s.dev.sup.frtStart s.dev.sup.evalTick (s.dev.fld Reg.SUP_TMAX 31 16) = true ∧
      s.dev.sup.frtFired = false) ∧
    (∃ (s : State), tooLong s.dev.sup.limStart s.dev.sup.evalTick (s.dev.fld Reg.SUP_TMAX 15 0) = true ∧
      s.dev.sup.limFired = false) ∧
    (∃ (c : Fin 56) (s : State), (s.dev.chan ↑c).subst = true ∧ (s.dev.chan ↑c).started = true ∧ (s.dev.chan
      ↑c).expired = false ∧ (s.dev.chan ↑c).substTick + (s.dev.chan ↑c).tSub ≤ s.dev.now) ∧
    (∃ (s : State), s.dev.sup.frtStart = none) ∧
    (∃ (s : State), s.dev.sup.limStart = none) :=
  ⟨⟨at_ fun d => late (10 ^ 12) (d.onSup fun x =>
     { x with evalMode := .forming, sub := .frtLow, clearStart := some 0, evalTick := 10 ^ 12 }), by decide +kernel⟩,
   ⟨at_ fun d => late (10 ^ 12) (d.onSup fun x =>
     { x with evalMode := .forming, sub := .limit, exitStart := some 0, evalTick := 10 ^ 12 }), by decide +kernel⟩,
   ⟨at_ fun d => late (10 ^ 12) (d.onSup fun x =>
     { x with limitHold := true, exitStart := some 0, evalTick := 10 ^ 12 }), by decide +kernel⟩,
   ⟨at_ fun d => late (10 ^ 12) (d.onSup fun x => { x with frtStart := some 0, evalTick := 10 ^ 12 }),
     by decide +kernel⟩,
   ⟨at_ fun d => put Reg.SUP_TMAX 0x00010001 <| late (10 ^ 12) (d.onSup fun x =>
     { x with limStart := some 0, evalTick := 10 ^ 12 }), by decide +kernel⟩,
   ⟨55, at_ fun d => d.setChan 55 { ChanSup.reset with subst := true, started := true }, by decide +kernel⟩,
   ⟨State.reset, by decide +kernel⟩,
   ⟨State.reset, by decide +kernel⟩⟩

theorem witness_FollowingErrorAndSoftRampEnd :
    (∃ (m : Fin 4) (s : State), bitAt s.dev.sup.feExc ↑m = true ∧ bitAt s.dev.sup.feFired ↑m = false ∧ s.dev.fld
      (Reg.SUP_FE_LIM ↑m) 31 16 * 40000 < s.dev.sup.evalTick - s.dev.sup.feStart.get 0 ↑m) ∧
    (∃ (m : Fin 4) (s : State), bitAt s.dev.sup.feExc ↑m = false) ∧
    (∃ (s : State) (r : SoftRamp) (t0 : ℕ), s.dev.sup.soft = some r ∧ r.start = some t0 ∧ s.dev.sup.softEnd = false ∧
      t0 + r.tSoft ≤ s.dev.now) ∧
    (∃ (s : State), s.dev.sup.soft = none) :=
  ⟨⟨3, at_ fun d => late (10 ^ 12) (d.onSup fun x => { x with feExc := 8, evalTick := 10 ^ 12 }), by decide +kernel⟩,
   ⟨3, State.reset, by decide +kernel⟩,
   ⟨at_ fun d => d.onSup fun x => { x with soft := some ⟨13, 0, 0, 0, some 0, 0⟩ }, ⟨13, 0, 0, 0, some 0, 0⟩, 0,
     by decide +kernel⟩,
   ⟨State.reset, by decide +kernel⟩⟩

theorem witness_LimiterStaysWithinLimit :
    (∃ (i : ℤ) (c : ℤ) (d : ℤ) (q : ℤ), 0 ≤ i ∧ i < 2 ^ 32 ∧ 0 ≤ c ∧ c ≤ i ∧ magnitude d q ≤ i ∧ -c ≤ d ∧ d ≤ c) ∧
    (∃ (i : ℤ) (c : ℤ) (d : ℤ) (q : ℤ), 0 ≤ i ∧ i < 2 ^ 32 ∧ 0 ≤ c ∧ c ≤ i ∧ i < magnitude d q) ∧
    (∃ (i : ℤ) (c : ℤ) (d : ℤ) (q : ℤ), 0 ≤ i ∧ i < 2 ^ 32 ∧ 0 ≤ c ∧ c ≤ i ∧ -2 ^ 31 ≤ d ∧ d < 2 ^ 31 ∧ -2 ^ 31 ≤ q ∧
      q < 2 ^ 31) :=
  ⟨⟨1, 1, 1, 0, by decide +kernel⟩,
   ⟨2, 1, -5, 7, by decide +kernel⟩,
   ⟨2, 1, -5, 7, by decide +kernel⟩⟩

theorem witness_CountRuleLosesNoPulse :
    (∃ (half : Bool) (nAvail : ℕ) (vmod : ℤ) (v : ℤ) (c : ℤ) (tf : ℕ) (tmp : ℕ), (countRule half nAvail vmod v c tf
      tmp).sat = true) ∧
    (∃ (half : Bool) (nAvail : ℕ) (vmod : ℤ) (v : ℤ) (c : ℤ) (tf : ℕ) (tmp : ℕ), 0 < nAvail ∧ 0 < vmod ∧ (countRule
      half nAvail vmod v c tf tmp).sat = false ∧ (countRule half nAvail vmod v c tf tmp).negClamp = false) ∧
    (∃ (half : Bool) (nAvail : ℕ) (vmod : ℤ) (v : ℤ) (c : ℤ) (tf : ℕ) (tmp : ℕ), (countRule half nAvail vmod v c tf
      tmp).frac ≠ 0) :=
  ⟨⟨false, 0, 1, 0, 0, 0, 0, by decide +kernel⟩,
   ⟨false, 3, 1000, 5, 0, 40000, 10, by decide +kernel⟩,
   ⟨false, 3, 1000, 1500, 0, 40000, 10, by decide +kernel⟩⟩

theorem witness_FurrowBuildCompletesOneStroke :
    (∃ (s : State), List.find? (fun j => (j.evaluated || j.missed) && !j.built) s.dev.ang.jobs = none) :=
  ⟨State.reset, by decide +kernel⟩

theorem witness_BypassAndFaultClear :
    (∃ (v : W32) (s : State), BitVec.getLsbD v 31 = true ∧ s.dev.configured (bits (BitVec.toNat v) 9 0) = true) ∧
    (∃ (v : W32) (s : State), (BitVec.getLsbD v 31 = false ∨ s.dev.configured (bits (BitVec.toNat v) 9 0) = false)) ∧
    (∃ (c : Cmd) (s : State), Dev.admits 64 (inlMask [(20, 255), (21, 3)]) c s.dev ∧ s.dev.configured (bits (c.half
      20) 9 0) = false) ∧
    (∃ (c : Cmd) (s : State), Dev.admits 64 (inlMask [(20, 255), (21, 3)]) c s.dev ∧ s.dev.configured (bits (c.half
      20) 9 0) = true ∧ s.dev.twn.st = TwinSt.standby) ∧
    (∃ (c : Cmd) (s : State), Dev.admits 64 (inlMask [(20, 255), (21, 3)]) c s.dev ∧ s.dev.configured (bits (c.half
      20) 9 0) = true ∧ s.dev.twn.st ≠ TwinSt.standby) ∧
    (∃ (k : Fin 768) (s : State), s.dev.bypassOps ↑k ≠ [] ∧ (∀ b ∈ s.dev.bypassOps ↑k, b.lastSent + msTicks ≤
      s.dev.now) ∧ (∀ m ∈ (s.dev.str (↑k / 64)).messages, m.opc ≠ 4 ∨ m.pos ≠ ↑k % 64)) ∧
    (∃ (k : Fin 768) (s : State) (b : BypassOp), List.filter (fun o => decide (o.start + 200 * msTicks ≤ s.dev.now))
      (s.dev.bypassOps ↑k) = [b]) ∧
    (∃ (k : Fin 768) (s : State), s.dev.bypassOps ↑k = []) :=
  ⟨⟨0x80000003, at_ (stringed 0), by decide +kernel⟩,
   ⟨0, State.reset, by decide +kernel⟩,
   ⟨cmd 0 [], up id, by decide +kernel⟩,
   ⟨cmd 3 [], up fun d => (stringed 0 d).onTwn fun t => { t with st := .standby }, by decide +kernel⟩,
   ⟨cmd 3 [], up (stringed 0), by decide +kernel⟩,
   ⟨3, at_ fun d => late 400000 (d.onPen fun p => { p with bypass := [⟨3, 0, 0, 0, 0, 0⟩] }), by decide +kernel⟩,
   ⟨3, at_ fun d => late 80000000 (d.onPen fun p => { p with bypass := [⟨3, 0, 0, 0, 0, 0⟩] }), ⟨3, 0, 0, 0, 0, 0⟩,
     by decide +kernel⟩,
   ⟨767, State.reset, by decide +kernel⟩⟩

theorem witness_FrameLaunchSendsOneFrame :
    (∃ (n : Fin 12) (e : Fin 2) (s : State) (g : Grid) (j : Option Job), s.dev.strEn ↑n = true ∧ ↑e ∈ s.dev.myEnds ∧
      s.dev.lanesOff = false ∧ (s.dev.lane (2 * ↑n + ↑e)).freeAt ≤ s.dev.now ∧ s.dev.nextFrame (2 * ↑n + ↑e) = some
      (g, j) ∧ s.dev.frameDue (↑n) g j = true) ∧
    (∃ (n : Fin 12) (e : Fin 2) (s : State), (s.dev.strEn ↑n = false ∨ ↑e ∉ s.dev.myEnds ∨ s.dev.lanesOff = true ∨
      s.dev.now < (s.dev.lane (2 * ↑n + ↑e)).freeAt ∨ s.dev.nextFrame (2 * ↑n + ↑e) = none)) :=
  ⟨⟨11, 1, up fun d => (stringed 11 (late 76000 d)).onClk fun c => { c with fallback := false }, (up id).dev.after (up
     id).dev.lastGrid, none, by decide +kernel⟩,
   ⟨11, 1, State.reset, by decide +kernel⟩⟩

theorem witness_ReceivedFramesAreTakenBySlot :
    (∃ (n : Fin 12) (e : Fin 2) (line : LineIn) (s : State) (f : Frame), s.dev.strEn ↑n = true ∧ ↑e ∈ s.dev.myEnds ∧
      frameOf line = some f ∧ f.crcOk = false) ∧
    (∃ (n : Fin 12) (e : Fin 2) (line : LineIn) (s : State) (f : Frame), s.dev.strEn ↑n = true ∧ ↑e ∈ s.dev.myEnds ∧
      frameOf line = some f ∧ f.crcOk = true ∧ (f.string ≠ ↑n ∨ f.len ≠ s.dev.strLen ↑n)) ∧
    (∃ (n : Fin 12) (e : Fin 2) (line : LineIn) (s : State) (f : Frame), s.dev.strEn ↑n = true ∧ ↑e ∈ s.dev.myEnds ∧
      frameOf line = some f ∧ f.crcOk = true ∧ f.string = ↑n ∧ f.len = s.dev.strLen ↑n) ∧
    (∃ (n : Fin 12) (e : Fin 2) (line : LineIn) (s : State), (s.dev.strEn ↑n = false ∨ ↑e ∉ s.dev.myEnds ∨ frameOf
      line = none)) :=
  ⟨⟨11, 1, framed (zeros 60), at_ (stringed 11), readOf (zeros 60), by decide +kernel⟩,
   ⟨11, 1, framed (frame 0xA0 0x03 0 0), at_ (stringed 11), readOf (frame 0xA0 0x03 0 0), by decide +kernel⟩,
   ⟨11, 1, framed (frame 0xB0 0x03 0 0), at_ (stringed 11), readOf (frame 0xB0 0x03 0 0), by decide +kernel⟩,
   ⟨11, 1, lined [], State.reset, by decide +kernel⟩⟩

theorem witness_StringConditionsTakeEffect :
    (∃ (n : Fin 12) (e : Fin 2) (line : LineIn) (p : ℕ) (code : ℕ) (s : State), ↑e ∈ s.dev.myEnds ∧ firstSet line
      isFaultSet = some (OrderedSet.fault p code) ∧ p < 64 ∧ s.dev.configured (64 * ↑n + p) = true) ∧
    (∃ (n : Fin 12) (e : Fin 2) (line : LineIn) (s : State), (↑e ∉ s.dev.myEnds ∨ firstSet line isFaultSet = none ∨ ∃
      p code, firstSet line isFaultSet = some (OrderedSet.fault p code) ∧ (64 ≤ p ∨ s.dev.configured (64 * ↑n + p) =
      false))) ∧
    (∃ (l : Fin 24) (s : State), (s.dev.lane ↑l).sync = true) ∧
    (∃ (l : Fin 24) (s : State), (s.dev.lane ↑l).sync = false) ∧
    (∃ (n : Fin 12) (s : State) (two : Bool) (pos : ℕ), badPair (s.dev.str ↑n) = true ∧ s.dev.strEn ↑n = true ∧ two =
      decide ((s.dev.str ↑n).reach0 + (s.dev.str ↑n).reach1 < s.dev.strLen ↑n) ∧ (pos = if two = true then 0 else
      (s.dev.str ↑n).reach0) ∧ ((s.dev.str ↑n).brk = false ∨ (s.dev.str ↑n).brk2 ≠ two ∨ (s.dev.str ↑n).breakPos ≠
      pos)) ∧
    (∃ (n : Fin 12) (s : State), (badPair (s.dev.str ↑n) = false ∨ s.dev.strEn ↑n = false)) ∧
    (∃ (n : Fin 12) (s : State), (s.dev.str ↑n).brk = true ∧ 16 ≤ (s.dev.str ↑n).goodRun) ∧
    (∃ (n : Fin 12) (s : State), ((s.dev.str ↑n).brk = false ∨ (s.dev.str ↑n).goodRun < 16)) ∧
    (∃ (n : Fin 12) (s : State) (m : Message), s.dev.message ↑n = some m ∧ 5 ≤ m.sent ∧ (s.dev.str ↑n).training =
      false) ∧
    (∃ (n : Fin 12) (s : State), (∀ (m : Message), s.dev.message ↑n = some m → m.sent < 5)) :=
  ⟨⟨11, 1, setted (.fault 3 1), 3, 1, at_ (stringed 11), by decide +kernel⟩,
   ⟨11, 1, lined [], at_ (stringed 11), Or.inr (Or.inl (by decide +kernel))⟩,
   ⟨23, at_ fun d => (stringed 11 d).setLane 23 { Lane.reset with sync := true }, by decide +kernel⟩,
   ⟨23, State.reset, by decide +kernel⟩,
   ⟨11, at_ (strd 11 fun x => { x with bads := [7, 8] }), true, 0, by decide +kernel⟩,
   ⟨11, State.reset, by decide +kernel⟩,
   ⟨11, at_ (strd 11 fun x => { x with brk := true, goodRun := 16 }), by decide +kernel⟩,
   ⟨11, State.reset, by decide +kernel⟩,
   ⟨11, at_ (strd 11 fun x => { x with phase := 4, messages := [⟨5, 0, 1, [], 5, none⟩] }), ⟨5, 0, 1, [], 5, none⟩,
     by decide +kernel⟩,
   ⟨11, State.reset, by decide +kernel⟩⟩

theorem witness_StringTrainingRuns :
    (∃ (c : Cmd) (s : State), Dev.admits 65 (inlMask [(20, 255), (21, 15)]) c s.dev ∧ (∀ n ∈ maskStrings (c.half 20),
      s.dev.strEn n = true) ∧ BitVec.toNat c.len = 1024 * (maskStrings (c.half 20)).length ∧ s.dev.gfm.mode ≠
      Mode.off) ∧
    (∃ (c : Cmd) (s : State), Dev.admits 65 (inlMask [(20, 255), (21, 15)]) c s.dev ∧ (∀ n ∈ maskStrings (c.half 20),
      s.dev.strEn n = true) ∧ BitVec.toNat c.len = 1024 * (maskStrings (c.half 20)).length ∧ s.dev.gfm.mode = Mode.off
      ∧ s.dev.twn.st = TwinSt.solo) ∧
    (∃ (n : Fin 12) (e : Fin 2) (line : LineIn) (p : ℕ) (tau : ℕ) (old : List ℤ) (s : State), firstSet line isEchoRsp
      = some (OrderedSet.echoRsp p tau) ∧ s.dev.echoing (↑n) (↑e) p = true ∧ s.dev.twn.st = TwinSt.solo ∧ old = (if ↑e
      = 0 then (s.dev.str ↑n).echo0 else (s.dev.str ↑n).echo1).get [] p) ∧
    (∃ (line : LineIn), firstSet line isEchoRsp = none) ∧
    (∃ (n : Fin 12) (e : Fin 2) (p : Fin 64) (s : State) (q : EchoReq), s.dev.echoing ↑n ↑e ↑p = true ∧ echoReqOf
      (s.dev.str ↑n) ↑e = some q ∧ q.tick + 10 * usTicks ≤ s.dev.now) ∧
    (∃ (n : Fin 12) (s : State), (s.dev.str ↑n).training = true ∧ (s.dev.str ↑n).phase = 2 ∧ (s.dev.str ↑n).phaseTick
      + 20 * msTicks ≤ s.dev.now) ∧
    (∃ (n : Fin 12) (s : State), (s.dev.str ↑n).training = true ∧ (s.dev.str ↑n).phase = 3 ∧ (s.dev.str ↑n).phaseTick
      + 10 * msTicks ≤ s.dev.now) ∧
    (∃ (s : State) (op : TrainOp), s.dev.pen.train = [op] ∧ (∀ n ∈ maskStrings op.mask, (s.dev.str n).training =
      false)) ∧
    (∃ (s : State), s.dev.pen.train = []) :=
  ⟨⟨out 0x800 1024, up fun d => (stringed 11 d).onGfm fun g => { g with mode := .standby }, by decide +kernel⟩,
   ⟨out 0x800 1024, up (stringed 11), by decide +kernel⟩,
   ⟨11, 1, setted (.echoRsp 0 0), 0, 0, [], at_ (strd 11 fun x =>
     { x with training := true, phase := 1, req1 := some ⟨0, 0⟩ }), by decide +kernel⟩,
   ⟨lined [], by decide +kernel⟩,
   ⟨11, 1, 3, at_ fun d => late 4000 (strd 11 (fun x => { x with training := true, phase := 1, req1 := some ⟨3, 0⟩ })
     d), ⟨3, 0⟩, by decide +kernel⟩,
   ⟨11, at_ fun d => late 8000000 (strd 11 (fun x => { x with training := true, phase := 2 }) d), by decide +kernel⟩,
   ⟨11, at_ fun d => late 8000000 (strd 11 (fun x => { x with training := true, phase := 3 }) d), by decide +kernel⟩,
   ⟨at_ fun d => (stringed 11 d).onPen fun p => { p with train := [⟨0x800, 0, 0, 0, 0, 0⟩] }, ⟨0x800, 0, 0, 0, 0, 0⟩,
     by decide +kernel⟩,
   ⟨State.reset, by decide +kernel⟩⟩

theorem witness_EndpointsObeyAndBlock :
    (∃ (k : Fin 768) (q : Fin 2) (line : LineIn) (s : State) (f : Frame), frameOf line = some f ∧ portDown (↑q)
      (s.dev.endp ↑k) = false) ∧
    (∃ (k : Fin 768) (q : Fin 2) (line : LineIn) (s : State), (frameOf line = none ∨ portDown (↑q) (s.dev.endp ↑k) =
      true)) ∧
    (∃ (k : Fin 768) (s : State), strokeOver s.dev.now (s.dev.endp ↑k) = true ∧ (s.dev.endp ↑k).holdSn ∉ (s.dev.endp
      ↑k).got) ∧
    (∃ (k : Fin 768) (s : State), (strokeOver s.dev.now (s.dev.endp ↑k) = false ∨ (s.dev.endp ↑k).holdSn ∈ (s.dev.endp
      ↑k).got)) ∧
    (∃ (k : Fin 768) (q : Fin 2) (line : LineIn) (epoch : ℕ) (s : State), portDown (↑q) (s.dev.endp ↑k) = false ∧
      firstSet line isBlockSet = some (OrderedSet.block epoch)) ∧
    (∃ (code : Byte), BitVec.toNat code < 8) ∧
    (∃ (k : Fin 768) (q : Fin 2) (delay : W32) (line : LineIn) (pos : ℕ) (port : ℕ) (s : State), portDown (↑q)
      (s.dev.endp ↑k) = false ∧ firstSet line isEchoReq = some (OrderedSet.echoReq pos port) ∧ (pos ≠ ↑k % 64 ∨
      BitVec.toNat delay ≤ 1024)) :=
  ⟨⟨3, 0, framed (frame 0x00 0xC3 7 2), at_ (endp 3 fun e => { e with epoch := some 7, lastSn := some 1 }), readOf
     (frame 0x00 0xC3 7 2), by decide +kernel⟩,
   ⟨3, 0, lined [], at_ (endp 3 fun e => { e with lDown := true }), by decide +kernel⟩,
   ⟨3, at_ fun d => late (10 ^ 9) (endp 3 (fun e => { e with lastSn := some 1 }) d), by decide +kernel⟩,
   ⟨3, State.reset, by decide +kernel⟩,
   ⟨3, 0, setted (.block 7), 7, at_ (endp 3 fun e => { e with epoch := some 7 }), by decide +kernel⟩,
   ⟨1, by decide +kernel⟩,
   ⟨3, 1, 1024, setted (.echoReq 3 1), 3, 1, at_ (stringed 0), by decide +kernel⟩⟩

theorem witness_PwmPeriodRuns :
    (∃ (p : Fin 12) (s : State), (s.dev.pairEn ↑p = false ∨ s.dev.nextPeriod ↑p = none ∨ ∃ start, s.dev.nextPeriod ↑p
      = some start ∧ s.dev.now < start)) ∧
    (∃ (p : Fin 12) (s : State), (s.dev.pair ↑p).safe = false ∧ (s.dev.pair ↑p).x = true ∧ (s.dev.pair ↑p).w <
      (s.dev.pair ↑p).len ∧ 64 * (s.dev.pair ↑p).start + (s.dev.pair ↑p).w < 64 * (s.dev.now + 1)) ∧
    (∃ (p : Fin 12) (s : State), (s.dev.pair ↑p).x = false) ∧
    (∃ (p : Fin 12) (s : State) (ft : ℕ) (a : Bool), (s.dev.pair ↑p).rise = some (ft, a) ∧ ft < 64 * (s.dev.now + 1)) ∧
    (∃ (p : Fin 12) (s : State), (s.dev.pair ↑p).rise = none) :=
  ⟨⟨11, State.reset, by decide +kernel⟩,
   ⟨11, at_ fun d => d.setPair 11 { d.pair 11 with safe := false, x := true, w := 0, len := 64 }, by decide +kernel⟩,
   ⟨11, State.reset, by decide +kernel⟩,
   ⟨11, at_ fun d => d.setPair 11 { d.pair 11 with rise := some (63, true) }, 63, true, by decide +kernel⟩,
   ⟨11, State.reset, by decide +kernel⟩⟩

theorem witness_PwmCommitsAndTripSources :
    (∃ (conds : BitVec 16) (n : Fin 8) (s : State), conds.getLsbD ↑n = true ∧ s.dev.pinCounts (↑n) true = true ∧
      s.dev.srcEn ↑n = true ∧ s.dev.srcBlanked ↑n = false ∧ bitAt s.dev.pwm.qual ↑n = false) ∧
    (∃ (conds : BitVec 16) (s : State), s.dev.pwm.cond = 0 ∧ conds.toNat &&& s.dev.activePins = 0) ∧
    (∃ (k : Fin 8) (s : State) (e : ℕ), s.dev.pwm.timers.get none ↑k = some e ∧ e ≤ s.dev.now ∧ s.dev.pwm.cond = 0) ∧
    (∃ (k : Fin 8) (n : Fin 16) (s : State) (e : ℕ), s.dev.pwm.timers.get none ↑k = some e ∧ e ≤ s.dev.now ∧ bitAt
      s.dev.pwm.cond ↑n = true ∧ s.dev.srcEn ↑n = true ∧ s.dev.fld (Reg.PWM_TSRC ↑n) 26 24 = ↑k ∧ bitAt s.dev.pwm.qual
      ↑n = false) ∧
    (∃ (k : Fin 8) (s : State), s.dev.pwm.timers.get none ↑k = none) ∧
    (∃ (n : Fin 8) (s : State), bitAt s.dev.pwm.cond ↑n = true ∧ s.dev.pinCounts (↑n) false = true) ∧
    (∃ (n : Fin 8) (s : State), (bitAt s.dev.pwm.cond ↑n = false ∨ s.dev.pinCounts (↑n) false = false)) :=
  ⟨⟨0x80, 7, at_ fun d => (put (Reg.PWM_TSRC 7) 0xC0000001 d).onPwm fun x =>
     { x with pins := x.pins.set PinLevel.reset 7 { PinLevel.reset with level := false } }, by decide +kernel⟩,
   ⟨0, State.reset, by decide +kernel⟩,
   ⟨7, at_ fun d => d.onPwm fun x => { x with timers := x.timers.set none 7 (some 0), cond := 0 }, 0,
     by decide +kernel⟩,
   ⟨7, 15, at_ fun d => (put (Reg.PWM_TSRC 15) 0x87000000 d).onPwm fun x =>
     { x with timers := x.timers.set none 7 (some 0), cond := 0x8000 }, 0, by decide +kernel⟩,
   ⟨7, State.reset, by decide +kernel⟩,
   ⟨7, at_ fun d => d.onPwm fun x => { x with cond := 0x80 }, by decide +kernel⟩,
   ⟨7, State.reset, by decide +kernel⟩⟩

theorem witness_PointRowsTakeEffect :
    (∃ (c : Cmd) (s : State), Dev.admits 48 (inlMask [(20, 3)]) c s.dev ∧ c.byte 20 = 0 ∧ c.len = 8 ∧ c.bufErr = false
      ∧ pointEntryOk false (leAt c.data 0 4, leAt c.data 4 4) = true ∧ s.dev.pointCls (leAt c.data 0 4 % 2 ^ 20) ≠ 0 ∧
      (∀ o ∈ (s.dev.turnOf (leAt c.data 0 4 % 2 ^ 20)).ops, opRank o.1 ≤ 2)) ∧
    (∃ (c : Cmd) (s : State), Dev.admits 49 (inlMask [(20, 255), (24, 4294967295), (28, 4294967295)]) c s.dev ∧ c.word
      28 ≠ 0 ∧ c.byte 20 = 0 ∧ c.word 28 ≤ 262144 ∧ c.word 24 + c.word 28 ≤ 1048576 ∧ BitVec.toNat c.len = 4 * c.word
      28) ∧
    (∃ (c : Cmd) (s : State), Dev.admits 49 (inlMask [(20, 255), (24, 4294967295), (28, 4294967295)]) c s.dev ∧ c.word
      28 ≠ 0 ∧ c.byte 20 = 1 ∧ c.word 28 ≤ 1048576 ∧ c.word 24 + c.word 28 ≤ 1048576 ∧ BitVec.toNat c.len = c.word 28) ∧
    (∃ (c : Cmd) (s : State), Dev.admits 49 (inlMask [(20, 255), (24, 4294967295), (28, 4294967295)]) c s.dev ∧ c.word
      28 ≠ 0 ∧ c.byte 20 = 2 ∧ c.word 28 ≤ 1024 ∧ c.word 24 + c.word 28 ≤ 1024 ∧ BitVec.toNat c.len = 64 * c.word 28) ∧
    (∃ (c : Cmd) (s : State), Dev.admits 49 (inlMask [(20, 255), (24, 4294967295), (28, 4294967295)]) c s.dev ∧ c.word
      28 ≠ 0 ∧ c.byte 20 = 3 ∧ c.word 24 ≠ 0 ∧ c.word 28 ≤ 255 ∧ c.word 24 + c.word 28 ≤ 256 ∧ BitVec.toNat c.len = 16
      * c.word 28) ∧
    (∃ (s : State), s.dev.pnt.records.wf 4351 = true ∧ (∀ (id : ℕ), ∀ o ∈ (s.dev.turnOf id).ops, opRank o.1 = 0)) ∧
    (∃ (r : Fin 4) (s : State), (bitAt s.dev.pnt.overflow ↑r = false ∨ s.dev.ringQuarter (20 + ↑r) = false)) :=
  ⟨⟨cmd 0 (leBytes 4 0x000C0000 ++ leBytes 4 0), up fun d => d.onPnt fun x => { x with map := x.map.set 0 0xC0000 1 },
     by decide +kernel⟩,
   ⟨out (0xFFFFF * 2 ^ 32 + 1 * 2 ^ 64) 4, up id, by decide +kernel⟩,
   ⟨out (1 + 0xFFFFF * 2 ^ 32 + 1 * 2 ^ 64) 1, up id, by decide +kernel⟩,
   ⟨out (2 + 1023 * 2 ^ 32 + 1 * 2 ^ 64) 64, up id, by decide +kernel⟩,
   ⟨out (3 + 255 * 2 ^ 32 + 1 * 2 ^ 64) 16, up id, by decide +kernel⟩,
   ⟨State.reset, by decide +kernel, fun id o h => absurd ((show (State.reset.dev.turnOf id).ops = [] from rfl) ▸ h)
     List.not_mem_nil⟩,
   ⟨3, State.reset, by decide +kernel⟩⟩

theorem witness_SensingRowsTakeEffect :
    (∃ (c : Fin 24) (s : State) (at_ : ℕ), s.dev.sarOn ↑c = true ∧ (s.dev.sar ↑c).failed = false ∧ (s.dev.sar
      ↑c).waits = some at_ ∧ s.dev.now ≤ at_ + 192 ∧ s.dev.flag Reg.ADC_WIN_EN ↑c = false) ∧
    (∃ (c : Fin 24) (raw : BitVec 16) (s : State) (at_ : ℕ), s.dev.sarOn ↑c = true ∧ (s.dev.sar ↑c).failed = false ∧
      (s.dev.sar ↑c).waits = some at_ ∧ s.dev.now ≤ at_ + 192 ∧ s.dev.flag Reg.ADC_WIN_EN ↑c = true ∧ s.dev.outside
      (Reg.ADC_WIN ↑c) (s.dev.comparator (↑c) (sat 24 (raw.toInt * 2 ^ 8))) ≠ (s.dev.sar ↑c).decision ∧ s.dev.fld
      Reg.ADC_WIN_CFG (2 * (↑c / 6) + 1) (2 * (↑c / 6)) ≤ (s.dev.sar ↑c).run) ∧
    (∃ (c : Fin 24) (s : State) (at_ : ℕ), s.dev.sarOn ↑c = true ∧ (s.dev.sar ↑c).failed = true ∧ (s.dev.sar ↑c).waits
      = some at_ ∧ s.dev.now ≤ at_ + 192) ∧
    (∃ (c : Fin 24) (s : State), (s.dev.sarOn ↑c = false ∨ (s.dev.sar ↑c).waits = none ∨ ∃ at_, (s.dev.sar ↑c).waits =
      some at_ ∧ at_ + 192 < s.dev.now)) ∧
    (∃ (c : Fin 32) (s : State), s.dev.sdOn ↑c = true ∧ (s.dev.sd ↑c).failed = false ∧ s.dev.fld (Reg.ADC_SD_CH ↑c) 11
      8 + 1 ≤ (s.dev.sd ↑c).run) ∧
    (∃ (c : Fin 32) (s : State), s.dev.sdOn ↑c = false) ∧
    (∃ (g : Fin 4) (s : State), s.dev.sdGroupOn ↑g = true ∧ (bitAt s.dev.adc.groups ↑g = false ∨ ∃ k, s.dev.sdOn (8 *
      ↑g + ↑k) = true ∧ (s.dev.sd (8 * ↑g + ↑k)).failed = false) ∧ (s.dev.clkPad ↑g).since + 640 ≤ s.dev.now) ∧
    (∃ (g : Fin 4) (s : State), (s.dev.sdGroupOn ↑g = false ∨ s.dev.now < (s.dev.clkPad ↑g).since + 640 ∨ bitAt
      s.dev.adc.groups ↑g = true ∧ ∀ (k : Fin 8), s.dev.sdOn (8 * ↑g + ↑k) = true → (s.dev.sd (8 * ↑g + ↑k)).failed =
      true)) ∧
    (∃ (c : Fin 32) (s : State), s.dev.sdOn ↑c = true ∧ (s.dev.sd ↑c).failed = false ∧ (s.dev.sd ↑c).lastChange + 640
      ≤ s.dev.now) ∧
    (∃ (b : Fin 4) (s : State), (bitAt s.dev.adc.banks ↑b = false ∨ ∃ k, s.dev.sarOn (6 * ↑b + ↑k) = true ∧ (s.dev.sar
      (6 * ↑b + ↑k)).failed = false)) ∧
    (∃ (b : Fin 4) (s : State), bitAt s.dev.adc.banks ↑b = true ∧ (∀ (k : Fin 6), s.dev.sarOn (6 * ↑b + ↑k) = true →
      (s.dev.sar (6 * ↑b + ↑k)).failed = true)) ∧
    (∃ (c : Fin 32) (s : State), (s.dev.sd ↑c).failed = true ∧ 64 ≤ (s.dev.sd ↑c).good) ∧
    (∃ (c : Fin 24) (s : State), (s.dev.sar ↑c).failed = true ∧ (∀ (k : Fin 6), s.dev.sarOn (6 * (↑c / 6) + ↑k) = true
      → 16 ≤ (s.dev.sar (6 * (↑c / 6) + ↑k)).good)) :=
  ⟨⟨23, at_ fun d => put Reg.ADC_SAR_EN 0x800000 (d.setSar 23 { d.sar 23 with waits := some 0 }), 0,
     by decide +kernel⟩,
   ⟨23, 0x7FFF, at_ fun d => put (Reg.ADC_WIN 23) 0x10000 (put Reg.ADC_WIN_EN 0x800000 (put Reg.ADC_SAR_EN 0x800000
     (d.setSar 23 { d.sar 23 with waits := some 0 }))), 0, by decide +kernel⟩,
   ⟨23, at_ fun d => put Reg.ADC_SAR_EN 0x800000 (d.setSar 23 { d.sar 23 with failed := true, waits := some 0 }), 0,
     by decide +kernel⟩,
   ⟨23, State.reset, Or.inl (by decide +kernel)⟩,
   ⟨31, at_ fun d => put (Reg.ADC_SD_CH 31) 0x80000000 (put (Reg.ADC_SD_GRP 3) 0x80000000 (d.setSd 31
     { d.sd 31 with run := 1 })), by decide +kernel⟩,
   ⟨31, State.reset, by decide +kernel⟩,
   ⟨3, at_ fun d => late 640 (put (Reg.ADC_SD_GRP 3) 0x80000000 d), by decide +kernel, Or.inl (by decide +kernel),
     by decide +kernel⟩,
   ⟨3, State.reset, by decide +kernel⟩,
   ⟨31, at_ fun d => late 640 (put (Reg.ADC_SD_CH 31) 0x80000000 (put (Reg.ADC_SD_GRP 3) 0x80000000 d)),
     by decide +kernel⟩,
   ⟨3, State.reset, Or.inl (by decide +kernel)⟩,
   ⟨3, at_ fun d => d.onAdc fun a => { a with banks := 8 }, by decide +kernel⟩,
   ⟨31, at_ fun d => d.setSd 31 { d.sd 31 with failed := true, good := 64 }, by decide +kernel⟩,
   ⟨23, at_ fun d => d.setSar 23 { d.sar 23 with failed := true, good := 16 }, by decide +kernel⟩⟩

theorem witness_CaptureRowsTakeEffect :
    (∃ (u : Fin 8) (s : State), (s.dev.aunit ↑u).pending = true ∧ s.dev.ang.cur.angle = true) ∧
    (∃ (u : Fin 8) (s : State), ((s.dev.aunit ↑u).pending = false ∨ s.dev.ang.cur.angle = false)) ∧
    (∃ (k : Fin 8) (s : State), s.dev.fld (Reg.ACQ_SET_DIV ↑k) 31 16 ≠ 0 ∧ ((s.dev.aset ↑k).phase = SetPhase.filling ∨
      (s.dev.aset ↑k).phase = SetPhase.ready) ∧ (s.dev.aset ↑k).fillStart + s.dev.fld (Reg.ACQ_SET_DIV ↑k) 31 16 *
      msTicks ≤ s.dev.now ∧ (∀ x ∈ (s.dev.aset ↑k).trig, x.1 ≠ 11)) ∧
    (∃ (k : Fin 8) (s : State), (s.dev.fld (Reg.ACQ_SET_DIV ↑k) 31 16 = 0 ∨ s.dev.now < (s.dev.aset ↑k).fillStart +
      s.dev.fld (Reg.ACQ_SET_DIV ↑k) 31 16 * msTicks)) ∧
    (∃ (k : Fin 8) (s : State) (r : AcqRecord) (rest : List AcqRecord) (ofs : ℕ), (s.dev.aset ↑k).closed = r :: rest ∧
      r.stepped = true ∧ Dev.recordOpen (↑k) r s.dev = false ∧ s.dev.ringRoom (8 + ↑k) ≠ 0 ∧ (ofs = if (s.dev.aset
      ↑k).areaNext + (Machine.recordBytes r (s.dev.aset ↑k).sieve).length ≤ s.dev.areaSize ↑k then (s.dev.aset
      ↑k).areaNext else 0) ∧ freeRun (s.dev.areaHeld ↑k) ofs (Machine.recordBytes r (s.dev.aset ↑k).sieve).length =
      true) ∧
    (∃ (k : Fin 8) (s : State), (∀ r ∈ (s.dev.aset ↑k).closed.head?, Dev.recordOpen (↑k) r s.dev = true)) ∧
    (∃ (c : Cmd) (s : State), Dev.admits 32 (inlMask [(20, 255), (21, 1)]) c s.dev ∧ s.dev.namedSets c = none) ∧
    (∃ (c : Cmd) (s : State) (ks : List ℕ), Dev.admits 32 (inlMask [(20, 255), (21, 1)]) c s.dev ∧ s.dev.namedSets c =
      some ks) ∧
    (∃ (c : Cmd) (s : State), Dev.admits 33 (inlMask [(20, 255)]) c s.dev ∧ s.dev.namedSets c = none) ∧
    (∃ (c : Cmd) (s : State) (ks : List ℕ), Dev.admits 33 (inlMask [(20, 255)]) c s.dev ∧ s.dev.namedSets c = some ks) ∧
    (∃ (c : Cmd) (s : State), Dev.admits 34 (inlMask [(20, 255)]) c s.dev ∧ s.dev.namedSets c = none) ∧
    (∃ (c : Cmd) (s : State) (ks : List ℕ), Dev.admits 34 (inlMask [(20, 255)]) c s.dev ∧ s.dev.namedSets c = some ks
      ∧ (∀ k ∈ ks, (s.dev.aset k).phase = SetPhase.disarmed)) ∧
    (∃ (c : Cmd) (s : State) (ks : List ℕ), Dev.admits 34 (inlMask [(20, 255)]) c s.dev ∧ s.dev.namedSets c = some ks
      ∧ (∃ k ∈ ks, (s.dev.aset k).phase ≠ SetPhase.disarmed)) ∧
    (∃ (l : Bool) (s : State), s.dev.extReady l = true) ∧
    (∃ (l : Bool) (s : State), s.dev.extReady l = false) :=
  ⟨⟨7, at_ fun d => (d.setAunit 7 { d.aunit 7 with pending := true }).onAng fun a =>
     { a with cur := { a.cur with angle := true } }, by decide +kernel⟩,
   ⟨7, State.reset, by decide +kernel⟩,
   ⟨7, at_ fun d => late (10 ^ 6) (put (Reg.ACQ_SET_DIV 7) 0x10000 (d.setAset 7 { d.aset 7 with phase := .ready })),
     by decide +kernel⟩,
   ⟨7, State.reset, by decide +kernel⟩,
   ⟨7, at_ fun d => late 1 (put (Reg.ACQ_SET_HSIZE 7) 16 (ringed 15 (d.setAset 7
     { d.aset 7 with closed := [{ record with stepped := true }] }))), { record with stepped := true }, [], 0,
     by decide +kernel⟩,
   ⟨7, State.reset, by decide +kernel⟩,
   ⟨cmd 0 [], up id, by decide +kernel⟩,
   ⟨cmd 0x180 [], up (put (Reg.ACQ_SET_CFG 7) 0x80000000), [7], by decide +kernel⟩,
   ⟨cmd 0 [], up id, by decide +kernel⟩,
   ⟨cmd 0x80 [], up (put (Reg.ACQ_SET_CFG 7) 0x80000000), [7], by decide +kernel⟩,
   ⟨cmd 0 [], up id, by decide +kernel⟩,
   ⟨cmd 0x80 [], up (put (Reg.ACQ_SET_CFG 7) 0x80000000), [7], by decide +kernel⟩,
   ⟨cmd 0x80 [], up fun d => put (Reg.ACQ_SET_CFG 7) 0x80000000 (d.setAset 7 { d.aset 7 with phase := .ready }), [7],
     by decide +kernel⟩,
   ⟨true, at_ fun d => late 31 (d.onAcq fun a => { a with ext := { a.ext with level := true }, extSeen := false }),
     by decide +kernel⟩,
   ⟨true, State.reset, by decide +kernel⟩⟩

theorem witness_ClockLockAndReference :
    (∃ (s : State), s.dev.clk.refOk = false) ∧
    (∃ (s : State), s.dev.clk.refOk = true ∧ (s.dev.clk.state = PllState.locked ∨ s.dev.clk.state = PllState.pulling)) ∧
    (∃ (s : State), (s.dev.clk.refOk = false ∨ s.dev.clk.state ≠ PllState.locked ∧ s.dev.clk.state ≠
      PllState.pulling)) ∧
    (∃ (s : State), (s.dev.clk.refOk = false ∨ s.dev.clk.state = PllState.holdover)) ∧
    (∃ (s : State), s.dev.clk.refOk = true ∧ s.dev.clk.state ≠ PllState.holdover) ∧
    (∃ (s : State), s.dev.clk.state = PllState.search ∧ s.dev.clk.refOk = true) ∧
    (∃ (s : State), (s.dev.clk.state ≠ PllState.search ∨ s.dev.clk.refOk = false)) ∧
    (∃ (d : Dev), d.clk.fallback = true ∧ d.clk.state = PllState.locked ∧ d.clk.lockTick + 256 ≤ d.now) ∧
    (∃ (d : Dev), d.clk.fallback = true ∧ d.clk.state = PllState.locked ∧ d.now < d.clk.lockTick + 256) ∧
    (∃ (s : State), s.dev.clk.state = PllState.search ∧ s.dev.clk.lockStart + 2 * msTicks ≤ s.dev.now) ∧
    (∃ (s : State), (s.dev.clk.state ≠ PllState.search ∨ s.dev.now < s.dev.clk.lockStart + 2 * msTicks)) ∧
    (∃ (s : State), s.dev.clk.state = PllState.noLock ∧ s.dev.clk.lockStart + 100 * msTicks ≤ s.dev.now ∧
      (s.dev.gfm.mode = Mode.off ∨ s.dev.gfm.mode = Mode.tripped ∧ s.dev.sup.acting = false)) ∧
    (∃ (s : State), (s.dev.clk.state ≠ PllState.noLock ∨ s.dev.now < s.dev.clk.lockStart + 100 * msTicks)) :=
  ⟨⟨at_ (clk fun c => { c with refOk := false }), by decide +kernel⟩,
   ⟨at_ (clk fun c => { c with refOk := true, state := .locked }), by decide +kernel⟩,
   ⟨at_ (clk fun c => { c with refOk := true, state := .search }), by decide +kernel⟩,
   ⟨at_ (clk fun c => { c with refOk := false, state := .holdover }), by decide +kernel⟩,
   ⟨at_ (clk fun c => { c with refOk := true, state := .search }), by decide +kernel⟩,
   ⟨at_ (clk fun c => { c with refOk := true, state := .search }), by decide +kernel⟩,
   ⟨at_ (clk fun c => { c with refOk := false }), by decide +kernel⟩,
   ⟨late 256 (Dev.reset.onClk fun c => { c with state := .locked, fallback := true }), by decide +kernel⟩,
   ⟨late 255 (Dev.reset.onClk fun c => { c with state := .locked, fallback := true }), by decide +kernel⟩,
   ⟨at_ fun d => late 800000 (d.onClk fun c => { c with state := .search }), by decide +kernel⟩,
   ⟨at_ (clk fun c => { c with state := .locked }), by decide +kernel⟩,
   ⟨at_ fun d => late 40000000 (d.onClk fun c => { c with state := .noLock }), by decide +kernel⟩,
   ⟨at_ (clk fun c => { c with state := .locked }), by decide +kernel⟩⟩

theorem witness_ClockTimeAndPps :
    (∃ (s : State), s.dev.clk.state = PllState.pulling ∧ s.dev.stepsComplete = true ∧ s.dev.clk.openCmds = []) ∧
    (∃ (s : State) (o : OpenTime) (rest : List OpenTime), s.dev.clk.state = PllState.pulling ∧ s.dev.stepsComplete =
      true ∧ s.dev.clk.openCmds = o :: rest ∧ (∀ x ∈ o :: rest, x.step = false)) ∧
    (∃ (s : State), (s.dev.clk.state ≠ PllState.pulling ∨ s.dev.stepsComplete = false)) ∧
    (∃ (d : Dev), (d.clk.openCmds.any fun x => x.step) = true ∧ d.stepping = false ∧ d.clk.state =
      PllState.jumpPending) ∧
    (∃ (s : State), s.dev.stepping = true ∧ s.dev.stepsComplete = true) ∧
    (∃ (s : State), (s.dev.stepping = false ∨ s.dev.stepsComplete = false)) ∧
    (∃ (c : Cmd) (s : State), Dev.admits 192 (inlMask [(20, 255), (24, 4294967295), (28, 4294967295)]) c s.dev ∧ 2 <
      c.byte 20) ∧
    (∃ (c : Cmd) (s : State), Dev.admits 192 (inlMask [(20, 255), (24, 4294967295), (28, 4294967295)]) c s.dev ∧
      c.byte 20 = 0) ∧
    (∃ (c : Cmd) (s : State), Dev.admits 192 (inlMask [(20, 255), (24, 4294967295), (28, 4294967295)]) c s.dev ∧
      (c.byte 20 = 1 ∨ c.byte 20 = 2) ∧ s.dev.clk.state ≠ PllState.jumpPending) ∧
    (∃ (c : Cmd) (s : State), Dev.admits 192 (inlMask [(20, 255), (24, 4294967295), (28, 4294967295)]) c s.dev ∧
      c.byte 20 = 1 ∧ s.dev.clk.state = PllState.jumpPending ∧ s.dev.stepping = false) ∧
    (∃ (c : Cmd) (s : State), Dev.admits 192 (inlMask [(20, 255), (24, 4294967295), (28, 4294967295)]) c s.dev ∧
      c.byte 20 = 2 ∧ s.dev.clk.state = PllState.jumpPending ∧ (s.dev.gfm.mode = Mode.off ∨ s.dev.gfm.mode =
      Mode.standby ∧ (physical s.dev.clk.jump s.dev.clk.phaseErr).natAbs ≤ 8192)) ∧
    (∃ (c : Cmd) (s : State), Dev.admits 192 (inlMask [(20, 255), (24, 4294967295), (28, 4294967295)]) c s.dev ∧
      c.byte 20 = 2 ∧ s.dev.clk.state = PllState.jumpPending ∧ (s.dev.gfm.mode ≠ Mode.off ∧ s.dev.gfm.mode ≠
      Mode.standby ∨ s.dev.gfm.mode = Mode.standby ∧ 8192 < (physical s.dev.clk.jump s.dev.clk.phaseErr).natAbs)) ∧
    (∃ (s : State), s.dev.clk.secTick + secTicks ≤ s.dev.now) ∧
    (∃ (s : State), s.dev.now < s.dev.clk.secTick + secTicks) ∧
    (∃ (frac : BitVec 6) (s : State) (fine : ℕ) (k : ℕ) (e : ℤ), s.dev.ppsUsed = true ∧ fine = 64 * s.dev.now +
      frac.toNat ∧ k = (fine + 32 * secTicks - 64 * s.dev.clk.secTick) / (64 * secTicks) ∧ e = ↑fine - 64 *
      ↑(s.dev.clk.secTick + secTicks * k)) ∧
    (∃ (s : State), s.dev.ppsUsed = false) ∧
    (∃ (s : State) (l : ℕ), s.dev.clk.lastPps = some l ∧ s.dev.ppsUsed = true ∧ s.dev.clk.ppsOk = true ∧ l + 440000000
      ≤ s.dev.now) ∧
    (∃ (s : State), (s.dev.clk.lastPps = none ∨ s.dev.ppsUsed = false)) ∧
    (∃ (s : State), s.dev.clk.fallback = false ∧ s.dev.twn.st ≠ TwinSt.active) ∧
    (∃ (s : State), s.dev.clk.fallback = true) :=
  ⟨⟨at_ (clk fun c => { c with state := .pulling }), by decide +kernel⟩,
   ⟨up (clk fun c => { c with state := .pulling, openCmds := [⟨0, 0, 0, false⟩] }), ⟨0, 0, 0, false⟩, [],
     by decide +kernel⟩,
   ⟨State.reset, by decide +kernel⟩,
   ⟨Dev.reset.onClk fun c => { c with openCmds := [⟨0, 0, 0, true⟩], state := .jumpPending }, by decide +kernel⟩,
   ⟨up fun d => late 100 (d.onClk fun c => { c with steps := some ⟨0, 1, 5, true⟩, openCmds := [⟨0, 0, 0, true⟩] }),
     by decide +kernel⟩,
   ⟨State.reset, by decide +kernel⟩,
   ⟨cmd 3 [], up id, by decide +kernel⟩,
   ⟨cmd 0 [], up id, by decide +kernel⟩,
   ⟨cmd 2 [], up id, by decide +kernel⟩,
   ⟨cmd 1 [], up (clk fun c => { c with state := .jumpPending }), by decide +kernel⟩,
   ⟨cmd 2 [], up (clk fun c => { c with state := .jumpPending }), by decide +kernel⟩,
   ⟨cmd 2 [], up fun d => (d.onGfm fun g => { g with mode := .standby }).onClk fun c =>
     { c with state := .jumpPending, phaseErr := 8193 }, by decide +kernel⟩,
   ⟨at_ (late secTicks), by decide +kernel⟩,
   ⟨at_ (late (secTicks - 1)), by decide +kernel⟩,
   ⟨51, at_ (put Reg.CLK_CFG 0x10), 51, 0, 51, by decide +kernel⟩,
   ⟨at_ (put Reg.CLK_CFG 0x13), by decide +kernel⟩,
   ⟨at_ fun d => late 440000000 (put Reg.CLK_CFG 0x10 (d.onClk fun c => { c with lastPps := some 0, ppsOk := true })),
     0, by decide +kernel⟩,
   ⟨State.reset, by decide +kernel⟩,
   ⟨at_ (clk fun c => { c with fallback := false }), by decide +kernel⟩,
   ⟨at_ (clk fun c => { c with fallback := true }), by decide +kernel⟩⟩

theorem witness_TripTakesEffectOnce :
    (∃ (d : Dev) (cls : TripClass), d.controls = true ∧ d.tripping = false ∧ cls ≠ TripClass.report ∧ d.ang.cur.angle
      = true ∧ cls = TripClass.hard) ∧
    (∃ (d : Dev) (cls : TripClass) (n : ℕ), d.controls = true ∧ d.tripping = false ∧ cls ≠ TripClass.report ∧
      d.ang.cur.angle = true ∧ cls = TripClass.hard ∧ n ∈ d.strings) ∧
    (∃ (d : Dev) (cls : TripClass), d.controls = true ∧ d.tripping = false ∧ cls ≠ TripClass.report ∧ d.ang.cur.angle
      = true ∧ cls = TripClass.soft) ∧
    (∃ (d : Dev) (cls : TripClass), d.controls = true ∧ d.tripping = true ∧ cls ≠ TripClass.report ∧ cls =
      TripClass.hard ∧ d.sup.soft.isSome = true ∧ d.sup.softEnd = false) :=
  ⟨⟨(stringed 11 Dev.reset).onAng fun a => { a with cur := { a.cur with angle := true } }, .hard, by decide +kernel⟩,
   ⟨(stringed 11 Dev.reset).onAng fun a => { a with cur := { a.cur with angle := true } }, .hard, 11,
     by decide +kernel⟩,
   ⟨Dev.reset.onAng fun a => { a with cur := { a.cur with angle := true } }, .soft, by decide +kernel⟩,
   ⟨Dev.reset.onSup fun x => { x with tripTick := some 0, soft := some ⟨13, 0, 0, 0, none, 0⟩ }, .hard,
     by decide +kernel⟩⟩

theorem witness_BadTwinPacketsAreCounted :
    (∃ (s : State) (p : StatusPkt) (r : MirrorRec) (q : DrillPkt) (u : TrainPkt) (b : Byte) (c : Byte) (l : W32) (h :
      W32) (o : TimePkt) (x : BitVec 6) (k : Fin 2) (f : Bool) (i : Instr), i ∈ [Instr.statusPacket p false,
      Instr.mirrorRecord r false, Instr.drillPacket q false, Instr.resignPacket b l false, Instr.tripPacket k c false,
      Instr.handoverPacket f h false, Instr.timePacket { pkt := o, frac := x } false, Instr.trainPacket u false] ∧
      s.dev.twinEn = true) ∧
    (∃ (s : State) (p : StatusPkt) (r : MirrorRec) (q : DrillPkt) (u : TrainPkt) (b : Byte) (c : Byte) (l : W32) (h :
      W32) (o : TimePkt) (x : BitVec 6) (k : Fin 2) (f : Bool) (i : Instr), i ∈ [Instr.statusPacket p false,
      Instr.mirrorRecord r false, Instr.drillPacket q false, Instr.resignPacket b l false, Instr.tripPacket k c false,
      Instr.handoverPacket f h false, Instr.timePacket { pkt := o, frac := x } false, Instr.trainPacket u false] ∧
      s.dev.twinEn = false) ∧
    (∃ (s : State) (p : StatusPkt) (r : MirrorRec) (q : DrillPkt) (u : TrainPkt) (b : Byte) (c : Byte) (l : W32) (h :
      W32) (o : TimePkt) (x : BitVec 6) (k : Fin 2) (f : Bool) (i : Instr), s.dev.twinEn = false ∧ i ∈
      [Instr.statusPacket p true, Instr.mirrorRecord r true, Instr.drillPacket q true, Instr.resignPacket b l true,
      Instr.tripPacket k c true, Instr.handoverPacket f h true, Instr.timePacket { pkt := o, frac := x } true,
      Instr.trainPacket u true]) :=
  ⟨⟨at_ (twin .active), statusPkt, mirror, drill, train, 0, 0, 0, 0, ⟨0, none⟩, 0, 0, false, .statusPacket statusPkt
     false, by decide +kernel⟩,
   ⟨State.reset, statusPkt, mirror, drill, train, 0, 0, 0, 0, ⟨0, none⟩, 0, 0, false, .trainPacket train false,
     by decide +kernel⟩,
   ⟨State.reset, statusPkt, mirror, drill, train, 0, 0, 0, 0, ⟨0, none⟩, 0, 0, false, .trainPacket train true,
     by decide +kernel⟩⟩

theorem witness_TwinPacketsTakeEffect :
    (∃ (p : StatusPkt) (s : State), s.dev.twinEn = true ∧ p.primary ≠ s.dev.twn.primary ∧ s.dev.shadows = false) ∧
    (∃ (r : MirrorRec) (s : State), s.dev.twinEn = true ∧ s.dev.twn.st = TwinSt.standby ∧ s.dev.sameTimebase r = true
      ∧ r.digest = s.dev.digest8 ∧ s.dev.twn.prevSn = some (r.evalSn - 1)) ∧
    (∃ (s : State), s.dev.twn.st ≠ TwinSt.standby ∧ s.dev.twn.st ≠ TwinSt.syncing ∧ s.dev.twinEn = true) ∧
    (∃ (q : DrillPkt) (s : State), s.dev.twinEn = true ∧ s.dev.shadows = true ∧ s.dev.twn.takeDue = false ∧ q.string <
      12) ∧
    (∃ (s : State), s.dev.twinEn = true ∧ s.dev.twn.st = TwinSt.standby ∧ s.dev.twn.takeDue = false) ∧
    (∃ (s : State), s.dev.twinEn = true ∧ s.dev.twn.st = TwinSt.standby ∧ s.dev.tripping = false) ∧
    (∃ (s : State), s.dev.twinEn = true ∧ s.dev.twn.st = TwinSt.standby ∧ s.dev.tripping = true) ∧
    (∃ (s : State), s.dev.twinEn = true ∧ s.dev.twn.st ≠ TwinSt.standby) ∧
    (∃ (s : State), s.dev.twinEn = true ∧ s.dev.twn.st = TwinSt.active ∧ s.dev.twn.primary = false ∧
      s.dev.converterCalm = true ∧ s.dev.twn.hoSn = none) ∧
    (∃ (s : State), s.dev.twinEn = true ∧ s.dev.twn.st = TwinSt.standby ∧ s.dev.twn.hoAsked = true) ∧
    (∃ (o : TimePkt) (s : State), s.dev.twinEn = true ∧ (∀ (e : ℕ × ℕ), o.echo = some e → e.1 ∉ s.dev.twn.timeTx)) ∧
    (∃ (o : TimePkt) (x : BitVec 6) (s : State) (tx : ℕ) (there : ℕ) (ofs : ℤ), s.dev.twinEn = true ∧ o.echo = some
      (tx, there) ∧ tx ∈ s.dev.twn.timeTx ∧ ofs = (↑tx - ↑there + (↑(64 * s.dev.tickCount + x.toNat) - ↑o.tx)) / 2) ∧
    (∃ (u : TrainPkt) (s : State), s.dev.twinEn = true ∧ u.string < 12 ∧ s.dev.strEn u.string = true ∧ s.dev.shadows =
      true ∧ s.dev.pen.train = [] ∧ (s.dev.str u.string).phase ≠ u.phase ∧ u.phase ≠ 0 ∧ u.replies = [] ∧ u.fail =
      none) ∧
    (∃ (u : TrainPkt) (r : TrainResult) (s : State), s.dev.twinEn = true ∧ u.string < 12 ∧ s.dev.strEn u.string = true
      ∧ s.dev.myEnds ≠ [] ∧ (s.dev.str u.string).training = true ∧ u.replies = [] ∧ u.fail = some r) :=
  ⟨⟨statusPkt, at_ (twin .active), by decide +kernel⟩,
   ⟨mirror, at_ fun d => (twin .standby d).onTwn fun t => { t with prevSn := some 0 }, by decide +kernel⟩,
   ⟨at_ (twin .active), by decide +kernel⟩,
   ⟨drill, at_ (twin .syncing), by decide +kernel⟩,
   ⟨at_ (twin .standby), by decide +kernel⟩,
   ⟨at_ (twin .standby), by decide +kernel⟩,
   ⟨at_ fun d => (twin .standby d).onSup fun x => { x with tripTick := some 0 }, by decide +kernel⟩,
   ⟨at_ (twin .active), by decide +kernel⟩,
   ⟨at_ fun d => (twin .active d).onTwn fun t => { t with primary := false }, by decide +kernel⟩,
   ⟨at_ fun d => (twin .standby d).onTwn fun t => { t with hoAsked := true }, by decide +kernel⟩,
   ⟨⟨4, none⟩, at_ (twin .active), by decide +kernel⟩,
   ⟨⟨4, some (100, 36)⟩, 0, at_ fun d => (twin .standby d).onTwn fun t => { t with timeTx := [100] }, 100, 36, 30,
     by decide +kernel⟩,
   ⟨{ train with phase := 1 }, at_ fun d => stringed 11 (twin .syncing d), by decide +kernel⟩,
   ⟨{ train with fail := some .syncFail }, .syncFail, at_ fun d => strd 11 (fun x =>
     { x with training := true, phase := 2 }) (twin .syncing d), by decide +kernel⟩⟩

theorem witness_TwinConditionsTakeEffect :
    (∃ (s : State), s.dev.twinEn = true ∧ s.dev.twn.linkUp = true ∧ (s.dev.twn.locks ≠ 3 ∨ 3 ≤ s.dev.twn.statusless)) ∧
    (∃ (s : State), (s.dev.twn.linkUp = false ∨ s.dev.twn.locks = 3 ∧ s.dev.twn.statusless < 3)) ∧
    (∃ (s : State), s.dev.twinEn = true ∧ s.dev.ang.cur.start + s.dev.ang.cur.len + 160 ≤ s.dev.now + s.dev.tEP ∧
      (s.dev.twn.lastClaim ≠ some (s.dev.ang.cur.sn + 1) ∨ s.dev.twn.claimLate = true) ∧ s.dev.twn.lastMissed ≠ some
      (s.dev.ang.cur.sn + 1) ∧ (s.dev.twn.st = TwinSt.standby ∨ s.dev.twn.st = TwinSt.blind) ∧ s.dev.twn.missed = 0) ∧
    (∃ (s : State), s.dev.twinEn = true ∧ s.dev.ang.cur.start + s.dev.ang.cur.len + 160 ≤ s.dev.now + s.dev.tEP ∧
      (s.dev.twn.lastClaim ≠ some (s.dev.ang.cur.sn + 1) ∨ s.dev.twn.claimLate = true) ∧ s.dev.twn.lastMissed ≠ some
      (s.dev.ang.cur.sn + 1) ∧ (s.dev.twn.st = TwinSt.standby ∨ s.dev.twn.st = TwinSt.blind) ∧ 1 ≤ s.dev.twn.missed ∧
      s.dev.twn.takeDue = false) ∧
    (∃ (s : State), s.dev.twn.st ≠ TwinSt.standby ∧ s.dev.twn.st ≠ TwinSt.blind) ∧
    (∃ (s : State), s.dev.twn.st = TwinSt.active ∧ 4 ≤ s.dev.twn.noLease) ∧
    (∃ (s : State), s.dev.twn.st ≠ TwinSt.active) ∧
    (∃ (s : State), s.dev.twn.st = TwinSt.active ∧ 16 ≤ s.dev.twn.claimRun) ∧
    (∃ (s : State), s.dev.twn.st = TwinSt.syncing ∧ s.dev.twn.primary = true ∧ 1000 ≤ s.dev.twn.alone) ∧
    (∃ (s : State), s.dev.twn.st ≠ TwinSt.syncing) ∧
    (∃ (s : State), s.dev.twn.st = TwinSt.resigned) ∧
    (∃ (s : State), s.dev.twn.st ≠ TwinSt.resigned) ∧
    (∃ (s : State), s.dev.twn.st = TwinSt.standby ∧ s.dev.twn.primary = true ∧ s.dev.flag Reg.TWN_CFG 30 = true ∧
      s.dev.twn.revertHold = false ∧ s.dev.fld Reg.TWN_CFG 24 0 ≤ s.dev.twn.sinceSync ∧ s.dev.converterCalm = true ∧
      s.dev.twn.hoSn = none) ∧
    (∃ (c : Cmd) (s : State), Dev.admits 80 (inlMask [(20, 255)]) c s.dev ∧ c.byte 20 = 0 ∧ s.dev.twn.st =
      TwinSt.active ∧ s.dev.partnerReady = true) ∧
    (∃ (c : Cmd) (s : State), Dev.admits 80 (inlMask [(20, 255)]) c s.dev ∧ c.byte 20 = 0 ∧ (s.dev.twn.st ≠
      TwinSt.active ∨ s.dev.partnerReady = false)) ∧
    (∃ (c : Cmd) (s : State), Dev.admits 80 (inlMask [(20, 255)]) c s.dev ∧ c.byte 20 = 1 ∧ s.dev.twn.st =
      TwinSt.syncing ∧ s.dev.twn.primary = false ∧ 2 ≤ s.dev.twn.quietRun ∧ s.dev.partnerIs 2 = false) ∧
    (∃ (c : Cmd) (s : State), Dev.admits 80 (inlMask [(20, 255)]) c s.dev ∧ c.byte 20 = 2 ∧ s.dev.twn.st =
      TwinSt.standby ∧ s.dev.twn.primary = true) ∧
    (∃ (c : Cmd) (s : State), Dev.admits 80 (inlMask [(20, 255)]) c s.dev ∧ c.byte 20 = 1 ∧ (s.dev.twn.st ≠
      TwinSt.syncing ∨ s.dev.twn.primary = true ∨ s.dev.twn.quietRun < 2 ∨ s.dev.partnerIs 2 = true)) ∧
    (∃ (c : Cmd) (s : State), Dev.admits 80 (inlMask [(20, 255)]) c s.dev ∧ c.byte 20 = 2 ∧ (s.dev.twn.st ≠
      TwinSt.standby ∨ s.dev.twn.primary = false)) ∧
    (∃ (c : Cmd) (s : State), Dev.admits 80 (inlMask [(20, 255)]) c s.dev ∧ c.byte 20 = 3 ∧ (s.dev.twn.st ≠
      TwinSt.faulted ∨ s.dev.twn.roleConflict = true)) ∧
    (∃ (c : Cmd) (s : State), Dev.admits 80 (inlMask [(20, 255)]) c s.dev ∧ c.byte 20 = 3 ∧ s.dev.twn.st =
      TwinSt.faulted ∧ s.dev.twn.roleConflict = false) ∧
    (∃ (c : Cmd) (s : State), Dev.admits 80 (inlMask [(20, 255)]) c s.dev ∧ 3 < c.byte 20) ∧
    (∃ (s : State), s.dev.twn.st = TwinSt.active ∧ s.dev.partnerReady = true) ∧
    (∃ (s : State), (s.dev.twn.st = TwinSt.solo ∨ s.dev.twn.st = TwinSt.active ∧ s.dev.partnerReady = false) ∧
      s.dev.tripping = false) ∧
    (∃ (s : State), s.dev.twinEn = true ∧ s.dev.twn.linkUp = false ∧ 16 ≤ s.dev.twn.statusRun ∧ s.dev.twn.locks = 3) ∧
    (∃ (s : State), (s.dev.twn.linkUp = true ∨ s.dev.twn.statusRun < 16 ∨ s.dev.twn.locks ≠ 3)) :=
  ⟨⟨at_ fun d => ready (twin .active d), by decide +kernel⟩,
   ⟨State.reset, by decide +kernel⟩,
   ⟨at_ fun d => late (10 ^ 6) (twin .standby d), by decide +kernel⟩,
   ⟨at_ fun d => late (10 ^ 6) ((twin .standby d).onTwn fun t => { t with missed := 1 }), by decide +kernel⟩,
   ⟨State.reset, by decide +kernel⟩,
   ⟨at_ fun d => (twin .active d).onTwn fun t => { t with noLease := 4 }, by decide +kernel⟩,
   ⟨State.reset, by decide +kernel⟩,
   ⟨at_ fun d => (twin .active d).onTwn fun t => { t with claimRun := 16 }, by decide +kernel⟩,
   ⟨at_ fun d => (twin .syncing d).onTwn fun t => { t with primary := true, alone := 1000 }, by decide +kernel⟩,
   ⟨State.reset, by decide +kernel⟩,
   ⟨at_ (twin .resigned), by decide +kernel⟩,
   ⟨State.reset, by decide +kernel⟩,
   ⟨at_ fun d => put Reg.TWN_CFG 0xC0000000 ((twin .standby d).onTwn fun t => { t with primary := true }),
     by decide +kernel⟩,
   ⟨cmd 0 [], up fun d => ready (twin .active d), by decide +kernel⟩,
   ⟨cmd 0 [], up id, by decide +kernel⟩,
   ⟨cmd 1 [], up fun d => (twin .syncing d).onTwn fun t => { t with quietRun := 2 }, by decide +kernel⟩,
   ⟨cmd 2 [], up fun d => (twin .standby d).onTwn fun t => { t with primary := true }, by decide +kernel⟩,
   ⟨cmd 1 [], up id, by decide +kernel⟩,
   ⟨cmd 2 [], up id, by decide +kernel⟩,
   ⟨cmd 3 [], up id, by decide +kernel⟩,
   ⟨cmd 3 [], up (twin .faulted), by decide +kernel⟩,
   ⟨cmd 4 [], up id, by decide +kernel⟩,
   ⟨at_ fun d => ready (twin .active d), by decide +kernel⟩,
   ⟨State.reset, by decide +kernel⟩,
   ⟨at_ fun d => (twin .blind d).onTwn fun t => { t with statusRun := 16, locks := 3, linkUp := false },
     by decide +kernel⟩,
   ⟨at_ ready, by decide +kernel⟩⟩

theorem witness_FenceSamplesAndDemands :
    (∃ (s : State), s.dev.fenRuns = true) ∧
    (∃ (a : Byte) (b : Byte) (rb : Byte) (l : Fin 4) (k : Fin 8) (p : Fin 4) (s : State) (i : Instr), s.dev.fenRuns =
      false ∧ i ∈ [Instr.fenceSample a b rb, Instr.testPulse l, Instr.discrepancy k, Instr.readBackFault p,
      Instr.sysclkDev]) ∧
    (∃ (l : Fin 4) (s : State), s.dev.fenRuns = true ∧ s.dev.fen.time % 2000 = 500 * ↑l ∧ s.dev.fen.pulses.get none ↑l
      ≠ some s.dev.fen.time) ∧
    (∃ (l : Fin 4) (s : State), s.dev.fen.time % 2000 ≠ 500 * ↑l) ∧
    (∃ (k : Fin 8) (s : State), s.dev.fenRuns = true ∧ s.dev.discDue ↑k = true) ∧
    (∃ (k : Fin 8) (s : State), s.dev.discDue ↑k = false) ∧
    (∃ (p : Fin 4) (s : State), s.dev.fenRuns = true ∧ 11 ≤ (s.dev.fenOut ↑p).hi.bad ∧ (s.dev.fenOut ↑p).hi.fault =
      false) ∧
    (∃ (p : Fin 4) (s : State), s.dev.fenRuns = true ∧ 11 ≤ (s.dev.fenOut ↑p).lo.bad ∧ (s.dev.fenOut ↑p).lo.fault =
      false) ∧
    (∃ (p : Fin 4) (s : State), (s.dev.fenOut ↑p).hi.bad < 11 ∧ (s.dev.fenOut ↑p).lo.bad < 11) ∧
    (∃ (c : Byte) (s : State), 1 ≤ BitVec.toNat c ∧ BitVec.toNat c ≤ 3 ∧ s.dev.fen.st ≠ FenPhase.fault) ∧
    (∃ (c : Byte), (BitVec.toNat c = 0 ∨ 4 ≤ BitVec.toNat c)) ∧
    (∃ (s : State), s.dev.fenRuns = true) ∧
    (∃ (s : State), s.dev.fenLocked = false) ∧
    (∃ (s : State), s.dev.fenLocked = true) :=
  ⟨⟨at_ (fence fun f => { f with st := .run }), by decide +kernel⟩,
   ⟨0, 0, 0, 3, 7, 3, State.reset, .readBackFault 3, by decide +kernel⟩,
   ⟨3, at_ (fence fun f => { f with st := .run, time := 1500 }), by decide +kernel⟩,
   ⟨3, State.reset, by decide +kernel⟩,
   ⟨7, at_ fun d => (d.onFen fun f => { f with st := .run, inCfg := f.inCfg.set 0 7 0x8021400A }).setFenIn 7
     { d.fenIn 7 with differ := 201 }, by decide +kernel⟩,
   ⟨7, State.reset, by decide +kernel⟩,
   ⟨3, at_ fun d => (d.onFen fun f => { f with st := .run }).setFenOut 3
     { d.fenOut 3 with hi := { FenSwitch.reset with bad := 11 } }, by decide +kernel⟩,
   ⟨3, at_ fun d => (d.onFen fun f => { f with st := .run }).setFenOut 3
     { d.fenOut 3 with lo := { FenSwitch.reset with bad := 11 } }, by decide +kernel⟩,
   ⟨3, State.reset, by decide +kernel⟩,
   ⟨1, State.reset, by decide +kernel⟩,
   ⟨4, by decide +kernel⟩,
   ⟨at_ (fence fun f => { f with st := .run }), by decide +kernel⟩,
   ⟨State.reset, by decide +kernel⟩,
   ⟨at_ (fence fun f => { f with lockEnd := some 1 }), by decide +kernel⟩⟩

theorem witness_FenceTestsAndStart :
    (∃ (p : Fin 4) (s : State), s.dev.testDue ↑p = true ∧ s.dev.testable ↑p = true ∧ s.dev.fenPairEn ↑p = true) ∧
    (∃ (p : Fin 4) (s : State), (s.dev.testDue ↑p = false ∨ s.dev.testable ↑p = false)) ∧
    (∃ (p : Fin 4) (rb : Byte) (s : State), (s.dev.fenOut ↑p).stage = FenStage.gap ∧ (s.dev.fenOut ↑p).since + 2000 ≤
      s.dev.fen.time ∧ rbLow rb ↑p = true) ∧
    (∃ (p : Fin 4) (rb : Byte) (s : State), (s.dev.fenOut ↑p).stage = FenStage.gap ∧ (s.dev.fenOut ↑p).since + 2000 ≤
      s.dev.fen.time ∧ rbLow rb ↑p = false ∧ s.dev.fen.openTest = none) ∧
    (∃ (p : Fin 4) (s : State), (s.dev.fenOut ↑p).stage ≠ FenStage.gap) ∧
    (∃ (s : State), s.dev.fen.held = true) ∧
    (∃ (s : State), s.dev.fen.held = false) ∧
    (∃ (s : State), 2 < s.dev.sec.phase ∧ s.dev.fen.held = false ∧ s.dev.fen.st = FenPhase.init) ∧
    (∃ (bs : List Byte) (s : State), s.dev.fen.queue = [bs] ∧ s.dev.ringRoom 30 ≠ 0) ∧
    (∃ (s : State), (s.dev.fen.queue = [] ∨ s.dev.ringRoom 30 = 0)) :=
  ⟨⟨3, at_ fun d => (d.onFen fun f => { f with st := .run, pairCfg := f.pairCfg.set 0 3 0x80000000 }).setFenOut 3
     { closed (d.fenOut 3) with waiting := true }, by decide +kernel⟩,
   ⟨3, State.reset, by decide +kernel⟩,
   ⟨3, 0xFF, at_ fun d => (d.onFen fun f => { f with time := 2000 }).setFenOut 3
     { closed (d.fenOut 3) with stage := .gap }, by decide +kernel⟩,
   ⟨3, 0, at_ fun d => (d.onFen fun f => { f with time := 2000 }).setFenOut 3
     { closed (d.fenOut 3) with stage := .gap }, by decide +kernel⟩,
   ⟨3, State.reset, by decide +kernel⟩,
   ⟨at_ (fence fun f => { f with held := true }), by decide +kernel⟩,
   ⟨at_ (fence fun f => { f with held := false }), by decide +kernel⟩,
   ⟨at_ fun d => (d.onFen fun f => { f with st := .init }).onSec fun x => { x with phase := 3 }, by decide +kernel⟩,
   ⟨zeros 28, at_ fun d => ringed 30 (d.onFen fun f => { f with queue := [zeros 28] }), by decide +kernel⟩,
   ⟨State.reset, by decide +kernel⟩⟩

theorem witness_FenceCommandsComplete :
    (∃ (c : Cmd) (s : State), Dev.admits 96 (inlMask [(20, 4294967295), (24, 65535), (28, 4294967295)]) c s.dev ∧
      s.dev.fenLocked = true) ∧
    (∃ (c : Cmd) (s : State), Dev.admits 96 (inlMask [(20, 4294967295), (24, 65535), (28, 4294967295)]) c s.dev ∧
      s.dev.fenLocked = false ∧ c.word 20 ≠ BitVec.toNat s.dev.fen.passcode) ∧
    (∃ (c : Cmd) (s : State), Dev.admits 96 (inlMask [(20, 4294967295), (24, 65535), (28, 4294967295)]) c s.dev ∧
      s.dev.fenLocked = false ∧ c.word 20 = BitVec.toNat s.dev.fen.passcode ∧ paramValid (c.half 24) (c.word 28) =
      false) ∧
    (∃ (c : Cmd) (s : State), Dev.admits 96 (inlMask [(20, 4294967295), (24, 65535), (28, 4294967295)]) c s.dev ∧
      s.dev.fenLocked = false ∧ c.word 20 = BitVec.toNat s.dev.fen.passcode ∧ paramValid (c.half 24) (c.word 28) =
      true ∧ (s.dev.offOrTripped = false ∨ s.dev.testRuns = true)) ∧
    (∃ (c : Cmd) (ok : Bool) (s : State), Dev.admits 96 (inlMask [(20, 4294967295), (24, 65535), (28, 4294967295)]) c
      s.dev ∧ s.dev.fenLocked = false ∧ c.word 20 = BitVec.toNat s.dev.fen.passcode ∧ paramValid (c.half 24) (c.word
      28) = true ∧ s.dev.offOrTripped = true ∧ s.dev.testRuns = false ∧ ok = false) ∧
    (∃ (c : Cmd) (ok : Bool) (s : State), Dev.admits 96 (inlMask [(20, 4294967295), (24, 65535), (28, 4294967295)]) c
      s.dev ∧ s.dev.fenLocked = false ∧ c.word 20 = BitVec.toNat s.dev.fen.passcode ∧ paramValid (c.half 24) (c.word
      28) = true ∧ s.dev.offOrTripped = true ∧ s.dev.testRuns = false ∧ ok = true) ∧
    (∃ (c : Cmd) (s : State), Dev.admits 97 (inlMask [(20, 15)]) c s.dev ∧ c.byte 20 = 0) ∧
    (∃ (c : Cmd) (s : State), Dev.admits 97 (inlMask [(20, 15)]) c s.dev ∧ c.byte 20 ≠ 0 ∧ s.dev.testRuns = true) ∧
    (∃ (c : Cmd) (s : State) (k : ℕ), Dev.admits 97 (inlMask [(20, 15)]) c s.dev ∧ k < 4 ∧ bitAt (c.byte 20) k = true
      ∧ s.dev.testRuns = false ∧ (k = 0 ∧ s.dev.offOrTripped = false ∨ pairClosed (s.dev.fenOut k) = false)) ∧
    (∃ (c : Cmd) (s : State) (k : ℕ), Dev.admits 97 (inlMask [(20, 15)]) c s.dev ∧ k < 4 ∧ c.byte 20 = 2 ^ k ∧
      s.dev.testRuns = false ∧ (k = 0 → s.dev.offOrTripped = true) ∧ s.dev.testable k = true) ∧
    (∃ (c : Cmd) (s : State), Dev.admits 98 0 c s.dev ∧ (s.dev.fen.held = true ∨ s.dev.fen.st = FenPhase.init)) ∧
    (∃ (c : Cmd) (s : State), Dev.admits 98 0 c s.dev ∧ s.dev.fen.held = false ∧ s.dev.fen.st ≠ FenPhase.init) ∧
    (∃ (c : Cmd) (s : State), Dev.admits 98 0 c s.dev ∧ s.dev.fen.held = false ∧ s.dev.fen.st = FenPhase.run ∧
      s.dev.fen.passcode ≠ 0 ∧ (∀ i < 8, (s.dev.fenIn i).a.demand = false ∧ (s.dev.fenIn i).b.demand = false ∧
      (s.dev.fenIn i).a.followed = true ∧ (s.dev.fenIn i).b.followed = true) ∧ (∀ k < 4, (s.dev.fenOut k).hi.fault =
      false ∧ (s.dev.fenOut k).lo.fault = false)) :=
  ⟨⟨cmd 0 [], up (fence fun f => { f with lockEnd := some 1 }), by decide +kernel⟩,
   ⟨cmd 1 [], up id, by decide +kernel⟩,
   ⟨cmd 0 [], up id, by decide +kernel⟩,
   ⟨cmd (2 ^ 64) [], up fun d => d.onGfm fun g => { g with mode := .forming }, by decide +kernel⟩,
   ⟨cmd (2 ^ 64) [], false, up id, by decide +kernel⟩,
   ⟨cmd (2 ^ 64) [], true, up id, by decide +kernel⟩,
   ⟨cmd 0 [], up id, by decide +kernel⟩,
   ⟨cmd 8 [], up (fence fun f => { f with openTest := some ⟨0, 0, 0, [], 1, true⟩ }), by decide +kernel⟩,
   ⟨cmd 1 [], up fun d => d.onGfm fun g => { g with mode := .forming }, 0, by decide +kernel⟩,
   ⟨cmd 8 [], up fun d => d.setFenOut 3 (closed (d.fenOut 3)), 3, by decide +kernel⟩,
   ⟨cmd 0 [], up (fence fun f => { f with st := .init }), by decide +kernel⟩,
   ⟨cmd 0 [], up id, by decide +kernel⟩,
   ⟨cmd 0 [], up (fence fun f =>
     { f with passcode := 1, ins := (upto 8).foldl (fun m i => m.set FenIn.reset i { FenIn.reset with a := ⟨false, 0, 0, false, true⟩, b := ⟨false, 0, 0, false, true⟩ }) f.ins }),
     by decide +kernel⟩⟩

theorem witness_RegisterAccessesTakeEffect :
    (∃ (off : BitVec 20) (be : BitVec 4), (be.toNat ≠ 15 ∨ off.toNat % 4 ≠ 0)) ∧
    (∃ (off : BitVec 20), off.toNat % 4 = 0 ∧ off.toNat / 65536 = 11) ∧
    (∃ (off : BitVec 20) (r : RegRow), off.toNat % 4 = 0 ∧ off.toNat / 65536 ≠ 11 ∧ (∀ x ∈ writeActions, x.1 ≠
      off.toNat) ∧ regRow off.toNat = some r ∧ r.w1c ≠ 0) ∧
    (∃ (off : BitVec 20) (r : RegRow), off.toNat % 4 = 0 ∧ off.toNat / 65536 ≠ 11 ∧ (∀ x ∈ writeActions, x.1 ≠
      off.toNat) ∧ regRow off.toNat = some r ∧ r.w1c = 0 ∧ r.rw ≠ 0 ∧ r.staged = true ∧ off.toNat / 65536 ≠ 2) ∧
    (∃ (off : BitVec 20), off.toNat % 4 = 0 ∧ off.toNat / 65536 ≠ 11 ∧ (∀ x ∈ writeActions, x.1 ≠ off.toNat) ∧ (regRow
      off.toNat = none ∨ ∃ r, regRow off.toNat = some r ∧ r.w1c = 0 ∧ r.rw = 0)) ∧
    (∃ (off : BitVec 24), svcReaches off.toNat = false) ∧
    (∃ (off : BitVec 24), svcReaches off.toNat = true ∧ (off.toNat / 65536 = 2 ∨ off.toNat / 65536 = 15 ∨ off.toNat =
      Reg.SYS_RESET)) ∧
    (∃ (off : BitVec 24), svcReaches off.toNat = true ∧ off.toNat / 65536 = 11) ∧
    (∃ (off : BitVec 24), svcReaches off.toNat = true ∧ off.toNat / 65536 ≠ 2 ∧ off.toNat / 65536 ≠ 11 ∧ off.toNat /
      65536 ≠ 15 ∧ off.toNat ≠ Reg.SYS_RESET) ∧
    (∃ (off : BitVec 13), (1024 ≤ off.toNat ∨ off.toNat % 4 ≠ 0)) ∧
    (∃ (off : BitVec 13) (k : ℕ), k < 64 ∧ off.toNat = 16 * k) ∧
    (∃ (off : BitVec 13) (k : ℕ), k < 64 ∧ off.toNat = 16 * k + 4) ∧
    (∃ (off : BitVec 13) (k : ℕ), k < 64 ∧ off.toNat = 16 * k + 8) ∧
    (∃ (off : BitVec 13) (v : W32) (s : State) (k : ℕ), k < 64 ∧ off.toNat = 16 * k + 12 ∧ ((s.dev.vec k).pending =
      false ∨ BitVec.getLsbD v 0 = true)) ∧
    (∃ (off : BitVec 13) (v : W32) (s : State) (k : ℕ), k < 64 ∧ off.toNat = 16 * k + 12 ∧ (s.dev.vec k).pending =
      true ∧ BitVec.getLsbD v 0 = false ∧ (s.dev.vec k).holdoff = none ∧ s.dev.msixOff = true) ∧
    (∃ (off : BitVec 13) (v : W32) (s : State) (k : ℕ), k < 64 ∧ off.toNat = 16 * k + 12 ∧ (s.dev.vec k).pending =
      true ∧ BitVec.getLsbD v 0 = false ∧ (s.dev.vec k).holdoff = none ∧ s.dev.msixOff = false) ∧
    (∃ (v : Fin 64) (s : State), (s.dev.vec ↑v).holdoff = none) ∧
    (∃ (v : Fin 64) (s : State) (e : ℕ), (s.dev.vec ↑v).holdoff = some e ∧ s.dev.now < e) ∧
    (∃ (v : Fin 64) (s : State) (e : ℕ), (s.dev.vec ↑v).holdoff = some e ∧ e ≤ s.dev.now ∧ ((s.dev.vec ↑v).pending =
      false ∨ (s.dev.vec ↑v).masked = true ∨ s.dev.msixOff = true)) ∧
    (∃ (v : Fin 64) (s : State) (e : ℕ), (s.dev.vec ↑v).holdoff = some e ∧ e ≤ s.dev.now ∧ (s.dev.vec ↑v).pending =
      true ∧ (s.dev.vec ↑v).masked = false ∧ s.dev.msixOff = false) ∧
    (∃ (sp : Fin 4) (l : LinkSetup), ↑sp ≠ 0 ∧ (↑l.width = 1 ∨ ↑l.width = 2 ∨ ↑l.width = 4)) :=
  ⟨⟨2, 15, by decide +kernel⟩,
   ⟨0xB0000, by decide +kernel⟩,
   ⟨BitVec.ofNat 20 Reg.GFM_EVENT, row Reg.GFM_EVENT, by decide +kernel⟩,
   ⟨BitVec.ofNat 20 Reg.GFM_BS, row Reg.GFM_BS, by decide +kernel⟩,
   ⟨0xFFFFC, by decide +kernel, by decide +kernel, by decide +kernel, Or.inl (by decide +kernel)⟩,
   ⟨0x100000, by decide +kernel⟩,
   ⟨BitVec.ofNat 24 Reg.SYS_RESET, by decide +kernel⟩,
   ⟨0xB0000, by decide +kernel⟩,
   ⟨0, by decide +kernel⟩,
   ⟨1024, by decide +kernel⟩,
   ⟨1008, 63, by decide +kernel⟩,
   ⟨1012, 63, by decide +kernel⟩,
   ⟨1016, 63, by decide +kernel⟩,
   ⟨1020, 0, State.reset, 63, by decide +kernel⟩,
   ⟨1020, 0, at_ (vec fun x => { x with pending := true }), 63, by decide +kernel⟩,
   ⟨1020, 0, at_ fun d => (vec (fun x => { x with pending := true }) d).onHost fun h =>
     { h with pcie := { h.pcie with msixEn := true, msixMask := false } }, 63, by decide +kernel⟩,
   ⟨63, State.reset, by decide +kernel⟩,
   ⟨63, at_ (vec fun x => { x with holdoff := some 1 }), 1, by decide +kernel⟩,
   ⟨63, at_ (vec fun x => { x with holdoff := some 0 }), 0, by decide +kernel⟩,
   ⟨63, at_ fun d => (vec (fun x => { x with holdoff := some 0, pending := true, masked := false }) d).onHost fun h =>
     { h with pcie := { h.pcie with msixEn := true, msixMask := false } }, 0, by decide +kernel⟩,
   ⟨3, ⟨4, 1, 2⟩, by decide +kernel⟩⟩

theorem witness_RingRowsTakeEffect :
    (∃ (v : W32), BitVec.getLsbD v 31 = true ∧ (bits (BitVec.toNat v) 4 0 < 6 ∨ 16 < bits (BitVec.toNat v) 4 0)) ∧
    (∃ (r : Fin 32) (v : W32) (s : State), BitVec.getLsbD v 31 = true ∧ 6 ≤ bits (BitVec.toNat v) 4 0 ∧ bits
      (BitVec.toNat v) 4 0 ≤ 16 ∧ s.dev.ringEn ↑r = false ∧ s.dev.lrd.reads = []) ∧
    (∃ (r : Fin 32) (v : W32) (s : State), BitVec.getLsbD v 31 = false ∧ 6 ≤ bits (BitVec.toNat v) 4 0 ∧ bits
      (BitVec.toNat v) 4 0 ≤ 16 ∧ (s.dev.ringEn ↑r = true → s.dev.ringSize ↑r = 2 ^ bits (BitVec.toNat v) 4 0)) ∧
    (∃ (off : BitVec 17) (be : BitVec 4), (be.toNat ≠ 15 ∨ off.toNat % 4096 ≠ 0)) ∧
    (∃ (off : BitVec 17) (be : BitVec 4) (v : W32) (s : State) (r : ℕ), r < 32 ∧ off.toNat = 4096 * r ∧ be.toNat = 15
      ∧ (s.dev.ringEn r = false ∨ s.dev.ringSize r ≤ BitVec.toNat v ∨ s.dev.backwards r (BitVec.toNat v) = true)) ∧
    (∃ (off : BitVec 17) (be : BitVec 4) (v : W32) (s : State) (r : ℕ), r < 32 ∧ off.toNat = 4096 * r ∧ be.toNat = 15
      ∧ s.dev.ringEn r = true ∧ BitVec.toNat v < s.dev.ringSize r ∧ s.dev.backwards r (BitVec.toNat v) = false ∧
      hostFills r = true) ∧
    (∃ (off : BitVec 17) (be : BitVec 4) (v : W32) (s : State) (r : ℕ), r < 32 ∧ off.toNat = 4096 * r ∧ be.toNat = 15
      ∧ s.dev.ringEn r = true ∧ BitVec.toNat v < s.dev.ringSize r ∧ s.dev.backwards r (BitVec.toNat v) = false ∧
      hostFills r = false ∧ s.dev.lrd.reads = []) ∧
    (∃ (r : Fin 4) (s : State), s.dev.fetchable ↑r = false) ∧
    (∃ (r : Fin 4) (s : State) (q : ℕ), q < ↑r ∧ s.dev.fetchable q = true) ∧
    (∃ (r : Fin 4) (desc : BitVec 256) (s : State), s.dev.fetchable ↑r = true ∧ (∀ q < ↑r, s.dev.fetchable q = false)
      ∧ knownOpcode (bits desc.toNat 15 0) = true) ∧
    (∃ (r : Fin 4) (desc : BitVec 256) (s : State), s.dev.fetchable ↑r = true ∧ (∀ q < ↑r, s.dev.fetchable q = false)
      ∧ knownOpcode (bits desc.toNat 15 0) = false ∧ bitAt desc.toNat 16 = true ∧ (∀ f ∈ s.dev.host.inflight,
      knownOpcode f.opcode = true) ∧ (∃ f ∈ s.dev.host.inflight, f.ring = ↑r)) ∧
    (∃ (r : Fin 4) (desc : BitVec 256) (s : State), s.dev.fetchable ↑r = true ∧ (∀ q < ↑r, s.dev.fetchable q = false)
      ∧ knownOpcode (bits desc.toNat 15 0) = false ∧ s.dev.host.inflight = []) ∧
    (∃ (r : Fin 4) (s : State), s.dev.ringQuarter (16 + ↑r) = false) ∧
    (∃ (r : Fin 4) (s : State) (key : ℕ) (k : Coal), s.dev.ringQuarter (16 + ↑r) = true ∧ List.filter (fun c => decide
      (s.dev.eventRing (c.1 / 32) = 16 + ↑r)) s.dev.host.coal.cells = [(key, k)]) ∧
    (∃ (r : Fin 4) (s : State), List.filter (fun c => decide (s.dev.eventRing (c.1 / 32) = 16 + ↑r))
      s.dev.host.coal.cells = []) ∧
    (∃ (s : State), (s.dev.flag Reg.HOST_WD 31 = false ∨ s.dev.host.wdExpired = true ∨ s.dev.now < s.dev.host.wdStart
      + s.dev.fld Reg.HOST_WD 15 0 * msTicks)) ∧
    (∃ (s : State), s.dev.flag Reg.HOST_WD 31 = true ∧ s.dev.host.wdExpired = false ∧ s.dev.host.wdStart + s.dev.fld
      Reg.HOST_WD 15 0 * msTicks ≤ s.dev.now) :=
  ⟨⟨0x80000005, by decide +kernel⟩,
   ⟨31, 0x80000010, State.reset, by decide +kernel⟩,
   ⟨31, 6, at_ (ringed 31), by decide +kernel⟩,
   ⟨0x1F000, 1, by decide +kernel⟩,
   ⟨0x1F000, 15, 0, State.reset, 31, by decide +kernel⟩,
   ⟨0x1F000, 15, 63, at_ (ringed 31), 31, by decide +kernel⟩,
   ⟨0x04000, 15, 0, at_ (ringed 4), 4, by decide +kernel⟩,
   ⟨3, State.reset, by decide +kernel⟩,
   ⟨3, at_ (rung 2), 2, by decide +kernel⟩,
   ⟨3, 1, at_ (rung 3), by decide +kernel⟩,
   ⟨3, 0x10000, at_ fun d => (rung 3 d).onHost fun h => { h with inflight := [⟨3, 1, 0, 1, false, false, false, 0⟩] },
     by decide +kernel⟩,
   ⟨3, 0, at_ (rung 3), by decide +kernel⟩,
   ⟨3, State.reset, by decide +kernel⟩,
   ⟨3, at_ fun d => put Reg.HOST_EVT_ROUTE_L 0xC0 (ringed 19 (d.onHost fun h =>
     { h with coal := h.coal.set ⟨0, 0, 0, 0, 0, 0⟩ 96 ⟨1, 0, 0, 0, 0, 0⟩ })), 96, ⟨1, 0, 0, 0, 0, 0⟩,
     by decide +kernel⟩,
   ⟨3, State.reset, by decide +kernel⟩,
   ⟨State.reset, by decide +kernel⟩,
   ⟨at_ fun d => late 400000 (put Reg.HOST_WD 0x80000001 d), by decide +kernel⟩⟩

theorem witness_CompletionsAndEventsAreReported :
    (∃ (ring : ℕ) (slot : ℕ) (tag : ℕ) (d : Dev), ring < 4 ∧ (∀ f ∈ d.host.inflight, inFlightOf ring slot tag f = true
      → f.lost = false ∧ f.dropped = false) ∧ d.ringRoom (4 + ring) ≠ 0) ∧
    (∃ (ring : ℕ) (slot : ℕ) (tag : ℕ) (d : Dev), ring < 4 ∧ Option.any (fun x => x.dropped) (List.find? (inFlightOf
      ring slot tag) d.host.inflight) = true) ∧
    (∃ (ring : ℕ) (slot : ℕ) (tag : ℕ) (d : Dev), ring < 4 ∧ Option.any (fun x => x.dropped) (List.find? (inFlightOf
      ring slot tag) d.host.inflight) = false ∧ (Option.any (fun x => x.lost) (List.find? (inFlightOf ring slot tag)
      d.host.inflight) = true ∨ d.ringRoom (4 + ring) = 0)) ∧
    (∃ (blk : ℕ) (bit : ℕ) (d : Dev), bit < 32 ∧ d.ringRoom (d.eventRing blk) ≠ 0 ∧ d.coalPending (d.eventRing blk) =
      false) ∧
    (∃ (blk : ℕ) (bit : ℕ) (d : Dev), bit < 32 ∧ (d.ringRoom (d.eventRing blk) = 0 ∨ d.coalPending (d.eventRing blk) =
      true)) :=
  ⟨⟨3, 0, 0, ringed 7 Dev.reset, by decide +kernel⟩,
   ⟨3, 0, 0, Dev.reset.onHost fun h => { h with inflight := [⟨3, 0, 0, 1, false, false, true, 0⟩] },
     by decide +kernel⟩,
   ⟨3, 0, 0, (ringed 7 Dev.reset).onHost fun h => { h with inflight := [⟨3, 0, 0, 1, false, true, false, 0⟩] },
     by decide +kernel⟩,
   ⟨2, 31, ringed (Dev.reset.eventRing 2) Dev.reset, by decide +kernel⟩,
   ⟨2, 31, Dev.reset, by decide +kernel⟩⟩

theorem witness_NopCompletes :
    (∃ (c : Cmd) (s : State), c.wf = true ∧ s.dev.waits c 1 = false ∧ c.flags &&& 254 = 0 ∧ c.resv = 0 ∧ BitVec.toNat
      c.len ≤ 2 ^ 24 ∧ c.inl = 0) :=
  ⟨cmd 0 [], up id, by decide +kernel⟩

theorem witness_SkippedTelemetryIsReported :
    (∃ (k : ℕ) (d : Dev), d.ringRoom (24 + (d.tel k).ring) = 0) ∧
    (∃ (k : ℕ) (d : Dev), d.ringRoom (24 + (d.tel k).ring) ≠ 0) :=
  ⟨⟨0, Dev.reset, by decide +kernel⟩,
   ⟨0, ringed 24 Dev.reset, by decide +kernel⟩⟩

theorem witness_DryRunAppliesNothing :
    (∃ (c : Cmd) (s : State), Dev.admits 18 (inlMask [(20, 1)]) c s.dev ∧ bitAt (c.byte 20) 0 = true ∧
      s.dev.stagingBusy = false) :=
  ⟨cmd 1 [], up id, by decide +kernel⟩

theorem witness_ConfigurationCommandsComplete :
    (∃ (c : Cmd) (s : State), Dev.admits 17 0 c s.dev ∧ (BitVec.toNat c.len = 0 ∨ BitVec.toNat c.len % 8 ≠ 0 ∨ 32768 <
      BitVec.toNat c.len)) ∧
    (∃ (c : Cmd) (s : State), Dev.admits 17 0 c s.dev ∧ BitVec.toNat c.len ≠ 0 ∧ BitVec.toNat c.len % 8 = 0 ∧
      BitVec.toNat c.len ≤ 32768 ∧ s.dev.stagingBusy = true) ∧
    (∃ (c : Cmd) (s : State), Dev.admits 17 0 c s.dev ∧ BitVec.toNat c.len ≠ 0 ∧ BitVec.toNat c.len % 8 = 0 ∧
      BitVec.toNat c.len ≤ 32768 ∧ s.dev.stagingBusy = false ∧ c.bufErr = true) ∧
    (∃ (c : Cmd) (s : State), Dev.admits 17 0 c s.dev ∧ BitVec.toNat c.len ≠ 0 ∧ BitVec.toNat c.len % 8 = 0 ∧
      BitVec.toNat c.len ≤ 32768 ∧ s.dev.stagingBusy = false ∧ c.bufErr = false ∧ stageOk (stageEntries (BitVec.toNat
      c.len / 8) c.data) = false) ∧
    (∃ (c : Cmd) (s : State), Dev.admits 17 0 c s.dev ∧ BitVec.toNat c.len ≠ 0 ∧ BitVec.toNat c.len % 8 = 0 ∧
      BitVec.toNat c.len ≤ 32768 ∧ s.dev.stagingBusy = false ∧ c.bufErr = false ∧ stageOk (stageEntries (BitVec.toNat
      c.len / 8) c.data) = true) ∧
    (∃ (off : ℕ) (r : RegRow), regRow off = some r ∧ r.staged = true) ∧
    (∃ (off : ℕ) (r : RegRow) (o : ℕ), regRow off = some r ∧ r.staged = true ∧ o ≠ off) ∧
    (∃ (c : Cmd) (s : State), Dev.admits 16 (2 ^ 96 - 1) c s.dev ∧ (s.dev.tableShape (c.word 20) (c.word 24)
      (BitVec.toNat c.len) = false ∨ c.word 28 ≠ 0)) ∧
    (∃ (c : Cmd) (s : State), Dev.admits 16 (2 ^ 96 - 1) c s.dev ∧ s.dev.tableShape (c.word 20) (c.word 24)
      (BitVec.toNat c.len) = true ∧ c.word 28 = 0 ∧ s.dev.stagingBusy = true) ∧
    (∃ (c : Cmd) (s : State), Dev.admits 16 (2 ^ 96 - 1) c s.dev ∧ s.dev.tableShape (c.word 20) (c.word 24)
      (BitVec.toNat c.len) = true ∧ c.word 28 = 0 ∧ s.dev.stagingBusy = false ∧ c.bufErr = false ∧ bits (c.word 20) 7
      0 = 1) ∧
    (∃ (c : Cmd) (s : State), Dev.admits 16 (2 ^ 96 - 1) c s.dev ∧ s.dev.tableShape (c.word 20) (c.word 24)
      (BitVec.toNat c.len) = true ∧ c.word 28 = 0 ∧ s.dev.stagingBusy = false ∧ c.bufErr = false ∧ bits (c.word 20) 7
      0 = 2) ∧
    (∃ (c : Cmd) (s : State), Dev.admits 18 (inlMask [(20, 1)]) c s.dev ∧ s.dev.stagingBusy = true) ∧
    (∃ (c : Cmd) (s : State), Dev.admits 18 (inlMask [(20, 1)]) c s.dev ∧ s.dev.stagingBusy = false ∧ bitAt (c.byte
      20) 0 = false ∧ s.dev.admission.1 ≠ 0) ∧
    (∃ (c : Cmd) (s : State), Dev.admits 19 (inlMask [(20, 255), (24, 4294967295)]) c s.dev ∧ (1 < c.byte 20 ∨ c.word
      24 % 4 ≠ 0 ∨ 1048576 ≤ c.word 24 ∨ BitVec.toNat c.len % 4 ≠ 0 ∨ 65536 < BitVec.toNat c.len ∨ BitVec.toNat c.len
      ≠ 0 ∧ c.word 24 / 65536 ≠ (c.word 24 + BitVec.toNat c.len - 4) / 65536)) ∧
    (∃ (c : Cmd) (s : State) (n : ℕ), Dev.admits 19 (inlMask [(20, 255), (24, 4294967295)]) c s.dev ∧ c.byte 20 ≤ 1 ∧
      c.word 24 % 4 = 0 ∧ BitVec.toNat c.len = 4 * n ∧ 4 * n ≤ 65536 ∧ c.word 24 < 1048576 ∧ (n ≠ 0 → c.word 24 /
      65536 = (c.word 24 + 4 * (n - 1)) / 65536)) ∧
    (∃ (c : Cmd) (s : State), Dev.admits 144 (inlMask [(20, 255), (21, 255), (22, 1)]) c s.dev ∧ (15 < c.byte 20 ∨ 3 <
      c.byte 21)) ∧
    (∃ (c : Cmd) (s : State), Dev.admits 144 (inlMask [(20, 255), (21, 255), (22, 1)]) c s.dev ∧ c.byte 20 ≤ 15 ∧
      c.byte 21 ≤ 3 ∧ bitAt (c.byte 22) 0 = false ∧ c.len = 0) ∧
    (∃ (c : Cmd) (s : State) (x : Telemetry), Dev.admits 144 (inlMask [(20, 255), (21, 255), (22, 1)]) c s.dev ∧
      c.byte 20 ≤ 15 ∧ c.byte 21 ≤ 3 ∧ bitAt (c.byte 22) 0 = true ∧ 18 ≤ BitVec.toNat c.len ∧ BitVec.toNat c.len ≤ 144
      ∧ c.bufErr = false ∧ telemetryOf (c.byte 21) c.data = some x) ∧
    (∃ (c : Cmd) (s : State), Dev.admits 18 (inlMask [(20, 1)]) c s.dev ∧ s.dev.stagingBusy = false ∧ bitAt (c.byte
      20) 0 = false ∧ s.dev.admission.1 = 0 ∧ s.dev.blockRefuses = true) ∧
    (∃ (c : Cmd) (s : State), Dev.admits 18 (inlMask [(20, 1)]) c s.dev ∧ s.dev.stagingBusy = false ∧ bitAt (c.byte
      20) 0 = false ∧ s.dev.admission.1 = 0 ∧ s.dev.blockRefuses = false) :=
  ⟨⟨cmd 0 [], up id, by decide +kernel⟩,
   ⟨cmd 0 (zeros 8), up fun d => d.onSec fun x => { x with staged := true }, by decide +kernel⟩,
   ⟨{ cmd 0 (zeros 8) with bufErr := true }, up id, by decide +kernel⟩,
   ⟨cmd 0 (zeros 8), up id, by decide +kernel⟩,
   ⟨cmd 0 (leBytes 4 Reg.GFM_BS ++ zeros 4), up id, by decide +kernel⟩,
   ⟨Reg.GFM_BS, row Reg.GFM_BS, by decide +kernel⟩,
   ⟨Reg.GFM_BS, row Reg.GFM_BS, 0, by decide +kernel⟩,
   ⟨cmd 0 [], up id, by decide +kernel⟩,
   ⟨cmd 2 (zeros 2048), up fun d => d.onSec fun x => { x with staged := true }, by decide +kernel⟩,
   ⟨cmd 1 (zeros 20), up id, by decide +kernel⟩,
   ⟨cmd 2 (zeros 2048), up id, by decide +kernel⟩,
   ⟨cmd 0 [], up fun d => d.onSec fun x => { x with staged := true }, by decide +kernel⟩,
   ⟨cmd 0 [], up id, by decide +kernel⟩,
   ⟨out 0 3, up id, by decide +kernel⟩,
   ⟨out 1 4, up id, 1, by decide +kernel⟩,
   ⟨cmd 16 [], up id, by decide +kernel⟩,
   ⟨cmd 0x30F [], up id, by decide +kernel⟩,
   ⟨cmd 0x1030F (leBytes 8 0 ++ leBytes 2 1 ++ leBytes 2 1 ++ leBytes 2 1 ++ leBytes 2 0 ++ leBytes 2 511), up id,
     (telemetryOf 3 (leBytes 8 0 ++ leBytes 2 1 ++ leBytes 2 1 ++ leBytes 2 1 ++ leBytes 2 0 ++ leBytes 2 511)).getD
     Telemetry.reset, by decide +kernel⟩,
   ⟨cmd 0 [], up fun d => (stage Reg.GFM_BKR 0x00640A0B (good d)).onGfm fun g => { g with mode := .resync },
     by decide +kernel⟩,
   ⟨cmd 0 [], up good, by decide +kernel⟩⟩

theorem witness_SnapshotsCapture :
    (∃ (v : W32) (i : Instr), BitVec.getLsbD v 0 = false ∧ i ∈ [Instr.angSnap v, Instr.gfmSnap v, Instr.profSnap v,
      Instr.loopSnap v, Instr.supSnap v, Instr.modSnap v, Instr.pwmSnap v, Instr.penSnap v, Instr.pntSnap v,
      Instr.adcSnap v, Instr.acqSnap v, Instr.clkSnap v, Instr.twnSnap v, Instr.hostSnap v, Instr.hkSnap v,
      Instr.auxSnap v, Instr.lrdSnap v, Instr.sysSnap v]) ∧
    (∃ (v : W32) (i : Instr), BitVec.getLsbD v 0 = true ∧ i ∈ [Instr.angSnap v, Instr.gfmSnap v, Instr.profSnap v,
      Instr.loopSnap v, Instr.supSnap v, Instr.modSnap v, Instr.pwmSnap v, Instr.penSnap v, Instr.pntSnap v,
      Instr.adcSnap v, Instr.acqSnap v, Instr.clkSnap v, Instr.twnSnap v, Instr.hostSnap v, Instr.hkSnap v,
      Instr.auxSnap v, Instr.lrdSnap v, Instr.sysSnap v]) ∧
    (∃ (v : W32) (c : ℕ), BitVec.getLsbD v 0 = true ∧ c < 16) ∧
    (∃ (v : W32) (k : ℕ), BitVec.getLsbD v 0 = true ∧ k < 8) :=
  ⟨⟨0, .sysSnap 0, by decide +kernel⟩,
   ⟨1, .sysSnap 1, by decide +kernel⟩,
   ⟨1, 15, by decide +kernel⟩,
   ⟨1, 7, by decide +kernel⟩⟩

theorem witness_BootRowsTakeEffect :
    (∃ (s : State), (2 < s.dev.sec.phase ∧ s.dev.fen.st ≠ FenPhase.init ∨ s.dev.fen.held = true)) ∧
    (∃ (s : State), s.dev.sec.phase ≤ 2 ∧ s.dev.fen.held = false) ∧
    (∃ (v : W32) (s : State), (BitVec.extractLsb' 16 16 v ≠ 42435 ∨ BitVec.getLsbD v 0 = false ∨ s.dev.resetAllowed =
      false)) ∧
    (∃ (v : W32) (s : State), BitVec.extractLsb' 16 16 v = 42435 ∧ BitVec.getLsbD v 0 = true ∧ s.dev.resetAllowed =
      true) ∧
    (∃ (s : State), (s.dev.sec.phase ≠ 4 ∨ s.dev.sec.xfer.isSome = true ∨ s.dev.sec.slot = 3 ∨ s.dev.sec.src = 1)) ∧
    (∃ (a : List Byte) (b : List Byte) (x : List Byte) (y : List Byte) (s : State), s.dev.sec.phase = 4 ∧
      s.dev.sec.xfer = none ∧ s.dev.sec.slot ≠ 3 ∧ x = (s.dev.sec.slots.get none 0).getD a ∧ y = (s.dev.sec.slots.get
      none 1).getD b ∧ s.dev.sec.src = 3) ∧
    (∃ (a : List Byte) (b : List Byte) (x : List Byte) (y : List Byte) (s : State), s.dev.sec.phase = 4 ∧
      s.dev.sec.xfer = none ∧ s.dev.sec.slot ≠ 3 ∧ x = (s.dev.sec.slots.get none 0).getD a ∧ y = (s.dev.sec.slots.get
      none 1).getD b ∧ s.dev.sec.src = 0 ∧ s.dev.sec.tried ≠ 0 ∧ Dev.slotOrder x y s.dev = []) ∧
    (∃ (a : List Byte) (b : List Byte) (x : List Byte) (y : List Byte) (s : State) (k : ℕ) (bs : List Byte),
      s.dev.sec.phase = 4 ∧ s.dev.sec.xfer = none ∧ s.dev.sec.slot ≠ 3 ∧ x = (s.dev.sec.slots.get none 0).getD a ∧ y =
      (s.dev.sec.slots.get none 1).getD b ∧ (s.dev.sec.src = 0 ∨ s.dev.sec.src = 2) ∧ s.dev.sec.tried = 0 ∧
      Dev.slotOrder x y s.dev = [(k, bs)] ∧ bodyError (flashImage bs) = 0 ∧ (Dev.walkImage (flashImage bs)
      (Dev.headerTry y (Dev.headerTry x s.fresh))).2.ok (flashImage bs) = true) ∧
    (∃ (s : State), (s.dev.sec.phase ≠ 5 ∨ s.dev.sec.staged = false ∨ s.dev.sec.verified = none)) ∧
    (∃ (v : Verified) (s : State), s.dev.sec.phase = 5 ∧ s.dev.sec.staged = true ∧ s.dev.sec.verified = some v ∧
      v.staged = true ∧ s.dev.admission.1 = 0 ∧ s.dev.blockRefuses = false) ∧
    (∃ (v : Verified) (s : State), s.dev.sec.phase = 5 ∧ s.dev.sec.staged = true ∧ s.dev.sec.verified = some v ∧
      v.staged = true ∧ s.dev.admission.1 ≠ 0) ∧
    (∃ (s : State), (s.dev.sec.phase = 5 ∧ s.dev.sec.staged = false ∨ s.dev.sec.phase = 4 ∧ s.dev.sec.slot = 3)) ∧
    (∃ (s : State), s.dev.sec.phase ≠ 4 ∧ s.dev.sec.phase ≠ 5) :=
  ⟨⟨at_ fun d => (d.onFen fun f => { f with st := .run }).onSec fun x => { x with phase := 3 }, by decide +kernel⟩,
   ⟨at_ (sec fun x => { x with phase := 2 }), by decide +kernel⟩,
   ⟨0, State.reset, by decide +kernel⟩,
   ⟨0xA5C30001, State.reset, by decide +kernel⟩,
   ⟨State.reset, by decide +kernel⟩,
   ⟨[], [], [], [], at_ (sec fun x => { x with phase := 4, src := 3, slot := 2 }), by decide +kernel⟩,
   ⟨[], [], [], [], at_ (sec fun x => { x with phase := 4, src := 0, tried := 3, slot := 2 }), by decide +kernel⟩,
   ⟨image, [], image, [], at_ (sec fun x => { x with phase := 4, src := 0, slot := 2 }), 0, image, by decide +kernel⟩,
   ⟨State.reset, by decide +kernel⟩,
   ⟨⟨[], true, false⟩, at_ fun d => (good d).onSec fun x =>
     { x with phase := 5, staged := true, verified := some ⟨[], true, false⟩ }, by decide +kernel⟩,
   ⟨⟨[], true, false⟩, at_ (sec fun x => { x with phase := 5, staged := true, verified := some ⟨[], true, false⟩ }),
     by decide +kernel⟩,
   ⟨at_ (sec fun x => { x with phase := 5 }), by decide +kernel⟩,
   ⟨at_ (sec fun x => { x with phase := 3 }), by decide +kernel⟩⟩

theorem witness_ImageTransfersRun :
    (∃ (c : Cmd) (s : State), Dev.admits 129 (inlMask [(20, 255), (24, 4294967295)]) c s.dev ∧ 4 < c.byte 20) ∧
    (∃ (c : Cmd) (s : State), Dev.admits 129 (inlMask [(20, 255), (24, 4294967295)]) c s.dev ∧ c.byte 20 < 4 ∧ (c.word
      24 < 320 ∨ 2 ^ 24 < c.word 24)) ∧
    (∃ (c : Cmd) (s : State), Dev.admits 129 (inlMask [(20, 255), (24, 4294967295)]) c s.dev ∧ c.byte 20 < 4 ∧ 320 ≤
      c.word 24 ∧ c.word 24 ≤ 2 ^ 24 ∧ s.dev.purposeOk (c.byte 20) = false) ∧
    (∃ (c : Cmd) (s : State), Dev.admits 129 (inlMask [(20, 255), (24, 4294967295)]) c s.dev ∧ c.byte 20 < 4 ∧ 320 ≤
      c.word 24 ∧ c.word 24 ≤ 2 ^ 24 ∧ s.dev.purposeOk (c.byte 20) = true ∧ s.dev.sec.xfer.isSome = true) ∧
    (∃ (c : Cmd) (s : State), Dev.admits 129 (inlMask [(20, 255), (24, 4294967295)]) c s.dev ∧ c.byte 20 < 4 ∧ 320 ≤
      c.word 24 ∧ c.word 24 ≤ 2 ^ 24 ∧ s.dev.purposeOk (c.byte 20) = true ∧ s.dev.sec.xfer = none) ∧
    (∃ (c : Cmd) (s : State), Dev.admits 129 (inlMask [(20, 255), (24, 4294967295)]) c s.dev ∧ c.byte 20 = 4 ∧
      s.dev.sec.xfer = none ∧ s.dev.sec.staged = false) ∧
    (∃ (desc : BitVec 256) (bs : List Byte) (s : State), (s.dev.sec.xfer = none ∨ s.dev.ringEn 31 = false) ∧ bs.length
      = bits desc.toNat 159 128) ∧
    (∃ (desc : BitVec 256) (bs : List Byte) (x : Transfer) (s : State), s.dev.sec.xfer = some x ∧ s.dev.ringEn 31 =
      true ∧ (s.dev.ring 31).prod ≠ (s.dev.ring 31).cons ∧ chunkDescOk desc = true ∧ bs.length = bits desc.toNat 159
      128 ∧ bits desc.toNat 191 160 = x.bytes.length ∧ x.bytes.length + bs.length ≤ x.total ∧ bitAt desc.toNat 16 =
      false) ∧
    (∃ (desc : BitVec 256) (bs : List Byte) (x : Transfer) (s : State), s.dev.sec.xfer = some x ∧ s.dev.ringEn 31 =
      true ∧ (s.dev.ring 31).prod ≠ (s.dev.ring 31).cons ∧ chunkDescOk desc = true ∧ bs.length = bits desc.toNat 159
      128 ∧ bits desc.toNat 191 160 ≠ x.bytes.length) ∧
    (∃ (s : State), s.dev.sec.xfer = none) ∧
    (∃ (x : Transfer) (s : State), s.dev.sec.xfer = some x ∧ s.dev.now < x.lastChunk + secTicks) ∧
    (∃ (x : Transfer) (s : State), s.dev.sec.xfer = some x ∧ x.lastChunk + secTicks ≤ s.dev.now) ∧
    (∃ (c : Cmd) (s : State), Dev.admits 130 (inlMask [(20, 1)]) c s.dev ∧ s.dev.sec.verified = none) ∧
    (∃ (c : Cmd) (s : State) (v : Verified), Dev.admits 130 (inlMask [(20, 1)]) c s.dev ∧ s.dev.sec.verified = some v
      ∧ bitAt (c.byte 20) 0 = false ∧ v.staged = false) ∧
    (∃ (c : Cmd) (s : State) (v : Verified), Dev.admits 130 (inlMask [(20, 1)]) c s.dev ∧ s.dev.sec.verified = some v
      ∧ bitAt (c.byte 20) 0 = false ∧ v.staged = true ∧ s.dev.admission.1 = 0 ∧ s.dev.blockRefuses = false) ∧
    (∃ (c : Cmd) (s : State) (v : Verified), Dev.admits 130 (inlMask [(20, 1)]) c s.dev ∧ s.dev.sec.verified = some v
      ∧ bitAt (c.byte 20) 0 = false ∧ v.staged = true ∧ s.dev.admission.1 ≠ 0) :=
  ⟨⟨cmd 5 [], up id, by decide +kernel⟩,
   ⟨cmd 1 [], up id, by decide +kernel⟩,
   ⟨cmd (320 * 2 ^ 32) [], up id, by decide +kernel⟩,
   ⟨cmd (3 + 320 * 2 ^ 32) [], up (sec fun x => { x with xfer := some (transfer 344) }), by decide +kernel⟩,
   ⟨cmd (3 + 2 ^ 24 * 2 ^ 32) [], up id, by decide +kernel⟩,
   ⟨cmd 4 [], up id, by decide +kernel⟩,
   ⟨chunk 4 0, zeros 4, State.reset, by decide +kernel⟩,
   ⟨chunk 4 0, zeros 4, transfer 344, at_ fun d => ((ringed 31 d).setRing 31 { d.ring 31 with prod := 1 }).onSec fun x
     => { x with xfer := some (transfer 344) }, by decide +kernel⟩,
   ⟨chunk 4 8, zeros 4, transfer 344, at_ fun d => ((ringed 31 d).setRing 31 { d.ring 31 with prod := 1 }).onSec fun x
     => { x with xfer := some (transfer 344) }, by decide +kernel⟩,
   ⟨State.reset, by decide +kernel⟩,
   ⟨transfer 344, at_ (sec fun x => { x with xfer := some (transfer 344) }), by decide +kernel⟩,
   ⟨transfer 344, at_ fun d => late secTicks (d.onSec fun x => { x with xfer := some (transfer 344) }),
     by decide +kernel⟩,
   ⟨cmd 0 [], up id, by decide +kernel⟩,
   ⟨cmd 0 [], up (sec fun x => { x with verified := some ⟨[], false, true⟩ }), ⟨[], false, true⟩, by decide +kernel⟩,
   ⟨cmd 0 [], up fun d => (good d).onSec fun x => { x with staged := true, verified := some ⟨[], true, true⟩ }, ⟨[],
     true, true⟩, by decide +kernel⟩,
   ⟨cmd 0 [], up (sec fun x => { x with staged := true, verified := some ⟨[], true, true⟩ }), ⟨[], true, true⟩,
     by decide +kernel⟩⟩

theorem witness_IdentityRowsTakeEffect :
    (∃ (c : Cmd) (s : State), Dev.admits 128 (inlMask [(20, 255)]) c s.dev ∧ c.byte 20 = 0 ∧ BitVec.toNat c.len ≠ 312) ∧
    (∃ (c : Cmd) (s : State), Dev.admits 128 (inlMask [(20, 255)]) c s.dev ∧ c.byte 20 = 0 ∧ BitVec.toNat c.len = 312
      ∧ c.bufErr = false) ∧
    (∃ (c : Cmd) (s : State), Dev.admits 128 (inlMask [(20, 255)]) c s.dev ∧ c.byte 20 = 1 ∧ Config.certLength.toNat ≤
      BitVec.toNat c.len) ∧
    (∃ (c : Cmd) (s : State), Dev.admits 128 (inlMask [(20, 255)]) c s.dev ∧ 1 < c.byte 20) ∧
    (∃ (key : List Byte) (sig : List Byte) (s : State), key.length = 97 ∧ sig.length = 96 ∧ s.dev.sec.challenge =
      none) ∧
    (∃ (l : Byte) (k : Byte) (key : List Byte) (sig : List Byte) (s : State) (x : ℕ), key.length = 97 ∧ sig.length =
      96 ∧ s.dev.sec.challenge = some x ∧ s.dev.respOk x (BitVec.toNat l) (BitVec.toNat k) key sig = false) ∧
    (∃ (l : Byte) (k : Byte) (key : List Byte) (sig : List Byte) (s : State) (x : ℕ), key.length = 97 ∧ sig.length =
      96 ∧ s.dev.sec.challenge = some x ∧ s.dev.respOk x (BitVec.toNat l) (BitVec.toNat k) key sig = true) :=
  ⟨⟨out 0 0, up id, by decide +kernel⟩,
   ⟨cmd 0 (zeros 312), up id, by decide +kernel⟩,
   ⟨out 1 65536, up id, by decide +kernel, by decide +kernel, by
     have h : BitVec.toNat (out 1 65536).len = 65536 := by decide +kernel
     have := Config.certLength.isLt
     omega⟩,
   ⟨out 2 0, up id, by decide +kernel⟩,
   ⟨zeros 97, zeros 96, State.reset, by decide +kernel⟩,
   ⟨1, 0, zeros 97, zeros 96, at_ (sec fun x => { x with challenge := some 5 }), 5, by decide +kernel⟩,
   ⟨1, 0, pubG, sign (State.reset.dev.challengeBytes 5 1), at_ (sec fun x =>
     { x with challenge := some 5, keys := x.keys.set 0 0 (keyHash pubG) }), 5, by decide +kernel⟩⟩

theorem witness_ThermalAndMemoryRowsTakeEffect :
    (∃ (s : State), s.dev.now < s.dev.hk.lastRound + s.dev.fld Reg.HK_CFG 7 0 * msTicks) ∧
    (∃ (s : State), s.dev.hk.lastRound + s.dev.fld Reg.HK_CFG 7 0 * msTicks ≤ s.dev.now) ∧
    (∃ (ch : Fin 64), (↑ch < 9 ∨ 11 < ↑ch)) ∧
    (∃ (ch : Fin 64) (s : State), 9 ≤ ↑ch ∧ ↑ch ≤ 11 ∧ (s.dev.twn.st ≠ TwinSt.active ∨ s.dev.partnerReady = false) ∧
      s.dev.controls = true ∧ s.dev.tripping = false) ∧
    (∃ (ch : Fin 64) (s : State), 9 ≤ ↑ch ∧ ↑ch ≤ 11 ∧ s.dev.twn.st = TwinSt.active ∧ s.dev.partnerReady = true) ∧
    (∃ (c : Cmd) (s : State), Dev.admits 176 0 c s.dev ∧ (s.dev.hk.halt = false ∨ s.dev.dieBroken ≠ 0 ∨ 1000 ≤
      s.dev.tDie)) ∧
    (∃ (c : Cmd) (s : State), Dev.admits 176 0 c s.dev ∧ s.dev.hk.halt = true ∧ s.dev.dieBroken = 0 ∧ s.dev.tDie <
      1000) ∧
    (∃ (s : State), (s.dev.lrd.openSnap = none ∨ s.dev.lrd.halt = true)) ∧
    (∃ (k : ℕ) (x : SnapSlot) (s : State), s.dev.lrd.openSnap = some (k, x) ∧ s.dev.lrd.halt = false) ∧
    (∃ (s : State), s.dev.lrd.pfw = true) ∧
    (∃ (s : State), s.dev.lrd.pfw = false) :=
  ⟨⟨at_ (late 0), by decide +kernel⟩,
   ⟨at_ (late (10 ^ 9)), by decide +kernel⟩,
   ⟨12, by decide +kernel⟩,
   ⟨11, State.reset, by decide +kernel⟩,
   ⟨9, at_ fun d => ready (twin .active d), by decide +kernel⟩,
   ⟨cmd 0 [], up id, by decide +kernel⟩,
   ⟨cmd 0 [], up fun d => d.onHk fun x => { x with halt := true }, by decide +kernel⟩,
   ⟨State.reset, by decide +kernel⟩,
   ⟨3, snapSlot, at_ (lrd fun x => { x with openSnap := some (3, snapSlot) }), by decide +kernel⟩,
   ⟨at_ (lrd fun x => { x with pfw := true }), by decide +kernel⟩,
   ⟨State.reset, by decide +kernel⟩⟩

theorem witness_LarderCommandsComplete :
    (∃ (c : Cmd) (s : State), Dev.admits 112 (inlMask [(20, 511), (24, 4294967295), (28, 4294967295)]) c s.dev ∧ (3 <
      c.byte 20 ∨ c.word 28 = 0)) ∧
    (∃ (c : Cmd) (s : State), Dev.admits 112 (inlMask [(20, 511), (24, 4294967295), (28, 4294967295)]) c s.dev ∧
      c.byte 20 < 3 ∧ BitVec.toNat c.len < c.word 28 * itemSize (c.byte 20)) ∧
    (∃ (c : Cmd) (s : State), Dev.admits 112 (inlMask [(20, 511), (24, 4294967295), (28, 4294967295)]) c s.dev ∧
      c.byte 20 = 3 ∧ c.word 24 % 4 = 0 ∧ c.word 28 % 4 = 0 ∧ c.word 28 ≠ 0 ∧ c.word 24 + c.word 28 ≤ 1572864 ∧ c.word
      28 ≤ BitVec.toNat c.len) ∧
    (∃ (c : Cmd) (s : State), Dev.admits 112 (inlMask [(20, 511), (24, 4294967295), (28, 4294967295)]) c s.dev ∧
      c.byte 20 = 0 ∧ c.word 28 = 1 ∧ 64 ≤ BitVec.toNat c.len ∧ s.dev.lrd.reads = [] ∧ s.dev.lrdRecord (c.word 24) =
      none) ∧
    (∃ (c : Cmd) (s : State) (bs : List Byte), Dev.admits 112 (inlMask [(20, 511), (24, 4294967295), (28,
      4294967295)]) c s.dev ∧ c.byte 20 = 0 ∧ c.word 28 = 1 ∧ 64 ≤ BitVec.toNat c.len ∧ s.dev.lrd.reads = [] ∧
      s.dev.lrdRecord (c.word 24) = some bs ∧ bs.length = 64 ∧ s.dev.ringRoom (28 + bits (c.byte 21) 0 0) ≠ 0) ∧
    (∃ (c : Cmd) (s : State), Dev.admits 113 (2 ^ 96 - 1) c s.dev ∧ (3 < c.byte 20 ∨ c.reservedSet (markMask (c.byte
      20)) = true)) ∧
    (∃ (c : Cmd) (s : State), Dev.admits 113 (2 ^ 96 - 1) c s.dev ∧ c.reservedSet (markMask (c.byte 20)) = false ∧
      c.byte 20 = 0) ∧
    (∃ (c : Cmd) (s : State), Dev.admits 113 (2 ^ 96 - 1) c s.dev ∧ c.reservedSet (markMask (c.byte 20)) = false ∧
      (c.byte 20 = 1 ∨ c.byte 20 = 2) ∧ 15 < c.byte 21) ∧
    (∃ (c : Cmd) (s : State), Dev.admits 113 (2 ^ 96 - 1) c s.dev ∧ c.reservedSet (markMask (c.byte 20)) = false ∧
      (c.byte 20 = 1 ∨ c.byte 20 = 2) ∧ c.byte 21 ≤ 15 ∧ s.dev.lrd.halt = true) ∧
    (∃ (c : Cmd) (s : State), Dev.admits 113 (2 ^ 96 - 1) c s.dev ∧ c.reservedSet (markMask (c.byte 20)) = false ∧
      c.byte 20 = 1 ∧ c.byte 21 ≤ 15 ∧ s.dev.lrd.halt = false ∧ 8 ≤ s.dev.pins) ∧
    (∃ (c : Cmd) (s : State), Dev.admits 113 (2 ^ 96 - 1) c s.dev ∧ c.reservedSet (markMask (c.byte 20)) = false ∧
      c.byte 20 = 1 ∧ c.byte 21 ≤ 15 ∧ s.dev.lrd.halt = false ∧ s.dev.pins < 8) ∧
    (∃ (c : Cmd) (s : State), Dev.admits 113 (2 ^ 96 - 1) c s.dev ∧ c.reservedSet (markMask (c.byte 20)) = false ∧
      c.byte 20 = 2 ∧ c.byte 21 ≤ 15 ∧ s.dev.lrd.halt = false) ∧
    (∃ (c : Cmd) (s : State), Dev.admits 113 (2 ^ 96 - 1) c s.dev ∧ c.reservedSet (markMask (c.byte 20)) = false ∧
      c.byte 20 = 3 ∧ c.word 24 % 4 = 0 ∧ BitVec.toNat c.len % 4 = 0 ∧ BitVec.toNat c.len ≤ 65536 ∧ c.word 24 +
      BitVec.toNat c.len ≤ 1572864 ∧ s.dev.lrd.halt = false ∧ c.bufErr = false) :=
  ⟨⟨cmd 0 [], up id, by decide +kernel⟩,
   ⟨cmd (2 + 2 ^ 64) [], up id, by decide +kernel⟩,
   ⟨out (3 + 1572860 * 2 ^ 32 + 4 * 2 ^ 64) 4, up id, by decide +kernel⟩,
   ⟨out (1 * 2 ^ 32 + 2 ^ 64) 64, up id, by decide +kernel⟩,
   ⟨out (0x100 + 1 * 2 ^ 32 + 2 ^ 64) 64, up fun d => ringed 29 (d.onLrd fun x =>
     { x with lines := x.lines.set [] 0 (recordBytes 1) }), recordBytes 1, by decide +kernel⟩,
   ⟨cmd 4 [], up id, by decide +kernel⟩,
   ⟨cmd 0 [], up id, by decide +kernel⟩,
   ⟨cmd 0x1002 [], up id, by decide +kernel⟩,
   ⟨cmd 0xF01 [], up (lrd fun x => { x with halt := true }), by decide +kernel⟩,
   ⟨cmd 0xF01 [], up (lrd fun x => { x with pinned := 255 }), by decide +kernel⟩,
   ⟨cmd 0xF01 [], up (lrd fun x => { x with pinned := 127 }), by decide +kernel⟩,
   ⟨cmd 0xF02 [], up id, by decide +kernel⟩,
   ⟨cmd (3 + 1572860 * 2 ^ 32) (zeros 4), up id, by decide +kernel⟩⟩

theorem witness_DriveRowsTakeEffect :
    (∃ (k : ℕ) (d : Dev) (h : ℕ), h ∈ d.driveHalves k) ∧
    (∃ (k : ℕ) (j : ℕ), j ≠ k) ∧
    (∃ (s : State), s.dev.cycle ≤ s.dev.now % max (s.dev.fld Reg.AUX_CFG 15 0) 1) ∧
    (∃ (k : Fin 4) (c : Fin 8) (s : State), (s.dev.driveKind ↑k ≠ 1 ∨ (s.dev.drv ↑k).hall = some ↑c)) ∧
    (∃ (h : Fin 12) (n : ℕ) (s : State), ((s.dev.wantNow ↑h).1 ≠ HalfWant.high ∨ s.dev.refreshing ↑h = true) ∧ (n = if
      (s.dev.half ↑h).lastLow + msTicks ≤ s.dev.now then 0 else (s.dev.half ↑h).refreshes)) ∧
    (∃ (h : Fin 12) (n : ℕ) (s : State), (s.dev.wantNow ↑h).1 = HalfWant.high ∧ s.dev.refreshing ↑h = false ∧ n = (if
      (s.dev.half ↑h).lastLow + msTicks ≤ s.dev.now then 0 else (s.dev.half ↑h).refreshes) + 1 ∧ n < 3) ∧
    (∃ (h : Fin 12) (n : ℕ) (s : State) (k : ℕ), (s.dev.wantNow ↑h).1 = HalfWant.high ∧ s.dev.refreshing ↑h = false ∧
      n = (if (s.dev.half ↑h).lastLow + msTicks ≤ s.dev.now then 0 else (s.dev.half ↑h).refreshes) + 1 ∧ 3 ≤ n ∧
      s.dev.groupDrive (↑h / 3) = some k) ∧
    (∃ (k : Fin 4) (s : State), ((s.dev.drv ↑k).st ≠ DriveState.precharge ∨ s.dev.now < (s.dev.drv ↑k).preEnd)) ∧
    (∃ (k : Fin 4) (s : State), (s.dev.drv ↑k).st = DriveState.precharge ∧ (s.dev.drv ↑k).preEnd ≤ s.dev.now ∧
      (s.dev.drv ↑k).next = none) ∧
    (∃ (k : Fin 4) (s : State) (op : ProfOp) (ph : HomePhase), (s.dev.drv ↑k).st = DriveState.precharge ∧ (s.dev.drv
      ↑k).preEnd ≤ s.dev.now ∧ (s.dev.drv ↑k).next = some (op, ph)) ∧
    (∃ (k : Fin 4) (s : State), s.dev.now % max (s.dev.fld Reg.AUX_CFG 15 0) 1 < s.dev.cycle ∧ s.dev.driveKind ↑k = 1
      ∧ (s.dev.drv ↑k).st = DriveState.ready ∧ (s.dev.drv ↑k).running = false ∧ hallDead (s.dev.drv ↑k).hall = false) ∧
    (∃ (k : Fin 4) (s : State), s.dev.now % max (s.dev.fld Reg.AUX_CFG 15 0) 1 < s.dev.cycle ∧ s.dev.driveKind ↑k = 1
      ∧ ((s.dev.drv ↑k).st = DriveState.ready ∨ (s.dev.drv ↑k).st = DriveState.moving) ∧ hallDead (s.dev.drv ↑k).hall
      = true) ∧
    (∃ (k : Fin 4) (s : State) (plus : ℕ) (minus : ℕ), s.dev.now % max (s.dev.fld Reg.AUX_CFG 15 0) 1 < s.dev.cycle ∧
      s.dev.driveKind ↑k = 1 ∧ (s.dev.drv ↑k).st = DriveState.moving ∧ (s.dev.drv ↑k).running = true ∧ s.dev.drvEn ↑k
      = true ∧ hallDead (s.dev.drv ↑k).hall = false ∧ (s.dev.hallError ↑k).natAbs ≤ s.dev.fld (Reg.AUX_DRV_HALL ↑k) 31
      24 ∧ (plus, minus) = sectorPair (if (decide (s.dev.dutyOf ↑k < 0) != s.dev.drvInv ↑k) = true then ((s.dev.drv
      ↑k).sector + 3) % 6 else (s.dev.drv ↑k).sector)) ∧
    (∃ (k : Fin 4) (s : State), s.dev.now % max (s.dev.fld Reg.AUX_CFG 15 0) 1 < s.dev.cycle ∧ s.dev.driveKind ↑k = 1
      ∧ (s.dev.drv ↑k).st = DriveState.moving ∧ (s.dev.drv ↑k).running = true ∧ s.dev.drvEn ↑k = true ∧ hallDead
      (s.dev.drv ↑k).hall = false ∧ s.dev.fld (Reg.AUX_DRV_HALL ↑k) 31 24 < (s.dev.hallError ↑k).natAbs) ∧
    (∃ (k : Fin 4) (s : State), s.dev.now % max (s.dev.fld Reg.AUX_CFG 15 0) 1 < s.dev.cycle ∧ s.dev.driveKind ↑k = 2
      ∧ (s.dev.drv ↑k).st = DriveState.moving ∧ s.dev.drvEn ↑k = true) ∧
    (∃ (k : Fin 4) (c : Fin 8) (s : State), s.dev.driveKind ↑k = 1 ∧ (s.dev.drv ↑k).hall ≠ some ↑c ∧ (↑c = 0 ∨ ↑c =
      7)) ∧
    (∃ (k : Fin 4) (c : Fin 8) (s : State), s.dev.driveKind ↑k = 1 ∧ (s.dev.drv ↑k).hall ≠ some ↑c ∧ 1 ≤ ↑c ∧ ↑c ≤ 6 ∧
      (s.dev.drv ↑k).hall = none) ∧
    (∃ (k : Fin 4) (c : Fin 8) (s : State) (step : ℤ), s.dev.driveKind ↑k = 1 ∧ (s.dev.drv ↑k).hall ≠ some ↑c ∧ 1 ≤ ↑c
      ∧ ↑c ≤ 6 ∧ (s.dev.drv ↑k).hall ≠ none ∧ (step = 2 ∧ (s.dev.fld (Reg.AUX_DRV_HALL ↑k) (3 * ↑c + 2) (3 * ↑c) + 6 -
      (s.dev.drv ↑k).sector % 6) % 6 = 2 ∨ step = -2 ∧ (s.dev.fld (Reg.AUX_DRV_HALL ↑k) (3 * ↑c + 2) (3 * ↑c) + 6 -
      (s.dev.drv ↑k).sector % 6) % 6 = 4)) ∧
    (∃ (k : Fin 4) (c : Fin 8) (s : State), s.dev.driveKind ↑k = 1 ∧ (s.dev.drv ↑k).hall ≠ some ↑c ∧ 1 ≤ ↑c ∧ ↑c ≤ 6 ∧
      (s.dev.drv ↑k).hall ≠ none ∧ (s.dev.fld (Reg.AUX_DRV_HALL ↑k) (3 * ↑c + 2) (3 * ↑c) + 6 - (s.dev.drv ↑k).sector
      % 6) % 6 = 3) ∧
    (∃ (k : Fin 4) (c : Fin 8) (s : State) (step : ℤ), s.dev.driveKind ↑k = 1 ∧ (s.dev.drv ↑k).hall ≠ some ↑c ∧ 1 ≤ ↑c
      ∧ ↑c ≤ 6 ∧ (s.dev.drv ↑k).hall ≠ none ∧ (step = 1 ∧ (s.dev.fld (Reg.AUX_DRV_HALL ↑k) (3 * ↑c + 2) (3 * ↑c) + 6 -
      (s.dev.drv ↑k).sector % 6) % 6 = 1 ∨ step = -1 ∧ (s.dev.fld (Reg.AUX_DRV_HALL ↑k) (3 * ↑c + 2) (3 * ↑c) + 6 -
      (s.dev.drv ↑k).sector % 6) % 6 = 5)) ∧
    (∃ (g : Fin 4) (k : ℕ) (d : Dev), d.groupDrive ↑g = some k ∧ d.driveKind k = 1) ∧
    (∃ (g : Fin 4) (k : ℕ) (d : Dev), d.groupDrive ↑g = some k ∧ d.driveKind k ≠ 1) ∧
    (∃ (g : Fin 4) (uv : ℤ) (s : State), s.dev.crossesHard (↑g) uv = false ∧ s.dev.crossesSet (↑g) uv = false) ∧
    (∃ (g : Fin 4) (uv : ℤ) (s : State), s.dev.crossesHard (↑g) uv = false ∧ s.dev.crossesSet (↑g) uv = true ∧
      s.dev.auxBlank ↑g = true) ∧
    (∃ (g : Fin 4) (uv : ℤ) (s : State) (k : ℕ), s.dev.groupDrive ↑g = some k ∧ (s.dev.drv k).st ≠ DriveState.fault ∧
      (s.dev.drv k).st ≠ DriveState.off ∧ (s.dev.crossesHard (↑g) uv = true ∨ s.dev.driveKind k = 1 ∧ s.dev.crossesSet
      (↑g) uv = true ∧ s.dev.auxBlank ↑g = false)) ∧
    (∃ (g : Fin 4) (uv : ℤ) (s : State) (k : ℕ), s.dev.groupDrive ↑g = some k ∧ (s.dev.drv k).st ≠ DriveState.fault ∧
      (s.dev.drv k).st ≠ DriveState.off ∧ s.dev.crossesHard (↑g) uv = false ∧ s.dev.crossesSet (↑g) uv = true ∧
      s.dev.driveKind k ≠ 1 ∧ s.dev.auxBlank ↑g = false ∧ ((s.dev.drv k).st = DriveState.precharge ∨ (s.dev.drv k).st
      = DriveState.standstill)) ∧
    (∃ (g : Fin 4) (uv : ℤ) (s : State) (k : ℕ), s.dev.groupDrive ↑g = some k ∧ (s.dev.drv k).st ≠ DriveState.fault ∧
      (s.dev.drv k).st ≠ DriveState.off ∧ s.dev.crossesHard (↑g) uv = false ∧ s.dev.crossesSet (↑g) uv = true ∧
      s.dev.driveKind k ≠ 1 ∧ s.dev.auxBlank ↑g = false ∧ ((s.dev.drv k).st = DriveState.ready ∨ (s.dev.drv k).st =
      DriveState.moving ∨ (s.dev.drv k).st = DriveState.homing)) ∧
    (∃ (g : Fin 4) (uv : ℤ) (s : State) (k : ℕ), s.dev.crossesHard (↑g) uv = true ∧ s.dev.groupDrive ↑g = some k ∧
      (s.dev.drv k).st = DriveState.fault ∧ (s.dev.drv k).fault = 3 ∧ (s.dev.drv k).faultTick = s.dev.now ∧ bitAt
      s.dev.aux.oc ↑g = false) ∧
    (∃ (g : Fin 4) (s : State), ((s.dev.grp ↑g).seen = false ∨ s.dev.auxBlank ↑g = true)) ∧
    (∃ (g : Fin 4) (uv : ℤ) (s : State), (s.dev.grp ↑g).seen = true ∧ s.dev.auxBlank ↑g = false ∧ s.dev.crossesSet
      (↑g) uv = false) ∧
    (∃ (g : Fin 4) (uv : ℤ) (k : ℕ) (s : State), (s.dev.grp ↑g).seen = true ∧ s.dev.auxBlank ↑g = false ∧
      s.dev.crossesSet (↑g) uv = true ∧ s.dev.groupDrive ↑g = some k ∧ s.dev.driveKind k = 1 ∧ (s.dev.drv k).st ≠
      DriveState.fault ∧ (s.dev.drv k).st ≠ DriveState.off) ∧
    (∃ (i : Fin 8) (lv : Bool) (s : State), bitAt s.dev.aux.limits ↑i = lv) ∧
    (∃ (i : Fin 8) (lv : Bool) (s : State), bitAt s.dev.aux.limits ↑i = !lv) ∧
    (∃ (k : Fin 4) (s : State), ((s.dev.drv ↑k).stillStart = none ∨ (s.dev.drv ↑k).st ≠ DriveState.ready)) ∧
    (∃ (k : Fin 4) (b : ℕ) (s : State), (s.dev.drv ↑k).stillStart = some b ∧ (s.dev.drv ↑k).st = DriveState.ready ∧ b
      + s.dev.fld (Reg.AUX_DRV_CUR ↑k) 7 0 * 10 * msTicks ≤ s.dev.now) :=
  ⟨⟨0, drive 1 0 id Dev.reset, 2, by decide +kernel⟩,
   ⟨0, 1, by decide +kernel⟩,
   ⟨at_ fun d => late 4 (put Reg.AUX_CFG 8000 d), by decide +kernel⟩,
   ⟨3, 7, State.reset, by decide +kernel⟩,
   ⟨11, 0, State.reset, by decide +kernel⟩,
   ⟨11, 1, at_ fun d => d.setHalf 11 { d.half 11 with want := .high }, by decide +kernel⟩,
   ⟨11, 3, at_ fun d => late 1 ((drive 1 3 id d).setHalf 11
     { d.half 11 with want := .high, refreshes := 2, lastLow := 1 }), 3, by decide +kernel⟩,
   ⟨3, State.reset, by decide +kernel⟩,
   ⟨3, at_ (drive 1 3 fun x => { x with st := .precharge }), by decide +kernel⟩,
   ⟨3, at_ (drive 1 3 fun x => { x with st := .precharge, next := some (.start 11 0 none true, .none) }), .start 11 0
     none true, .none, by decide +kernel⟩,
   ⟨3, at_ (drive 1 3 fun x => { x with st := .ready }), by decide +kernel⟩,
   ⟨3, at_ (drive 1 3 fun x => { x with st := .moving, hall := some 7 }), by decide +kernel⟩,
   ⟨3, at_ fun d => put (Reg.AUX_DRV_HALL 3) 0xFF000000 (drive 1 3 (fun x =>
     { x with st := .moving, running := true }) d), 0, 1, by decide +kernel⟩,
   ⟨3, at_ fun d => put (Reg.AUX_DRV_HALL 3) 0x01000000 (drive 1 3 (fun x =>
     { x with st := .moving, running := true, count := 5 }) d), by decide +kernel⟩,
   ⟨2, at_ (drive 3 2 fun x => { x with st := .moving }), by decide +kernel⟩,
   ⟨3, 7, at_ (drive 1 3 fun x => { x with st := .ready }), by decide +kernel⟩,
   ⟨3, 1, at_ (drive 1 3 id), by decide +kernel⟩,
   ⟨3, 1, at_ fun d => put (Reg.AUX_DRV_HALL 3) (2 * 2 ^ 3) (drive 1 3 (fun x => { x with hall := some 2 }) d), 2,
     by decide +kernel⟩,
   ⟨3, 1, at_ fun d => put (Reg.AUX_DRV_HALL 3) (3 * 2 ^ 3) (drive 1 3 (fun x => { x with hall := some 2 }) d),
     by decide +kernel⟩,
   ⟨3, 1, at_ fun d => put (Reg.AUX_DRV_HALL 3) (1 * 2 ^ 3) (drive 1 3 (fun x => { x with hall := some 2 }) d), 1,
     by decide +kernel⟩,
   ⟨3, 3, drive 1 3 id Dev.reset, by decide +kernel⟩,
   ⟨3, 2, drive 3 2 id Dev.reset, by decide +kernel⟩,
   ⟨3, 1, State.reset, by decide +kernel⟩,
   ⟨3, 3000, at_ fun d => late 200 <| put (Reg.AUX_GRP 3) 1 <| put (Reg.AUX_BLANK 3) 0x100FF ((drive 1 3 (fun x =>
     { x with st := .moving }) d).setHalf 9 { d.half 9 with want := .high }), by decide +kernel⟩,
   ⟨3, 1000000, at_ (drive 1 3 fun x => { x with st := .moving }), 3, by decide +kernel⟩,
   ⟨3, 3000, at_ fun d => put (Reg.AUX_DRV_CUR 2) 0x1000000 (drive 3 2 (fun x => { x with st := .precharge }) d), 2,
     by decide +kernel⟩,
   ⟨3, 3000, at_ fun d => put (Reg.AUX_DRV_CUR 2) 0x1000000 (drive 3 2 (fun x => { x with st := .moving }) d), 2,
     by decide +kernel⟩,
   ⟨3, 1000000, at_ fun d => late 100 (drive 1 3 (fun x => { x with st := .fault, fault := 3, faultTick := 100 }) d),
     3, by decide +kernel⟩,
   ⟨3, State.reset, by decide +kernel⟩,
   ⟨3, 1, at_ fun d => d.setGrp 3 { d.grp 3 with seen := true }, by decide +kernel⟩,
   ⟨3, 1000000, 3, at_ fun d => (drive 1 3 (fun x => { x with st := .moving }) d).setGrp 3
     { d.grp 3 with seen := true }, by decide +kernel⟩,
   ⟨7, false, State.reset, by decide +kernel⟩,
   ⟨7, true, State.reset, by decide +kernel⟩,
   ⟨3, State.reset, by decide +kernel⟩,
   ⟨3, 0, at_ fun d => late (10 ^ 9) (drive 1 3 (fun x => { x with st := .ready, stillStart := some 0 }) d),
     by decide +kernel⟩⟩

theorem witness_DriveCommandsComplete :
    (∃ (c : Cmd) (s : State), Dev.admits 161 (inlMask [(20, 15)]) c s.dev ∧ c.byte 20 = 0) ∧
    (∃ (c : Cmd) (s : State) (g : ℕ), Dev.admits 161 (inlMask [(20, 15)]) c s.dev ∧ g < 4 ∧ bitAt (c.byte 20) g = true
      ∧ s.dev.groupIdle g = false) ∧
    (∃ (c : Cmd) (s : State), Dev.admits 161 (inlMask [(20, 15)]) c s.dev ∧ c.byte 20 ≠ 0 ∧ (∀ g < 4, bitAt (c.byte
      20) g = true → s.dev.groupIdle g = true)) ∧
    (∃ (c : Cmd) (s : State), Dev.admits 160 (inlMask [(20, 65535), (22, 1), (24, 4294967295)]) c s.dev ∧ (4 ≤ c.byte
      20 ∨ s.dev.driveKind (c.byte 20) = 0 ∨ 6 < c.byte 21)) ∧
    (∃ (c : Cmd) (s : State), Dev.admits 160 (inlMask [(20, 65535), (22, 1), (24, 4294967295)]) c s.dev ∧ c.byte 20 <
      4 ∧ s.dev.driveKind (c.byte 20) ≠ 0 ∧ bitAt (c.byte 22) 0 = false ∧ c.len = 0 ∧ c.byte 21 = 0 ∧ (s.dev.drv
      (c.byte 20)).st = DriveState.fault) ∧
    (∃ (c : Cmd) (s : State), Dev.admits 160 (inlMask [(20, 65535), (22, 1), (24, 4294967295)]) c s.dev ∧ c.byte 20 <
      4 ∧ s.dev.driveKind (c.byte 20) ≠ 0 ∧ bitAt (c.byte 22) 0 = false ∧ c.len = 0 ∧ c.byte 21 = 0 ∧ (∃ g ∈
      s.dev.driveGroups (c.byte 20), bitAt s.dev.aux.testFail g = true)) ∧
    (∃ (c : Cmd) (s : State), Dev.admits 160 (inlMask [(20, 65535), (22, 1), (24, 4294967295)]) c s.dev ∧ c.byte 20 <
      4 ∧ s.dev.driveKind (c.byte 20) ≠ 0 ∧ bitAt (c.byte 22) 0 = false ∧ c.len = 0 ∧ c.byte 21 = 0 ∧ (s.dev.drv
      (c.byte 20)).st = DriveState.off ∧ s.dev.driveKind (c.byte 20) = 1 ∧ hallDead (s.dev.drv (c.byte 20)).hall =
      true ∧ (∀ g ∈ s.dev.driveGroups (c.byte 20), bitAt s.dev.aux.testFail g = false)) ∧
    (∃ (c : Cmd) (s : State), Dev.admits 160 (inlMask [(20, 65535), (22, 1), (24, 4294967295)]) c s.dev ∧ c.byte 20 <
      4 ∧ s.dev.driveKind (c.byte 20) ≠ 0 ∧ bitAt (c.byte 22) 0 = false ∧ c.len = 0 ∧ c.byte 21 = 0 ∧ (s.dev.drv
      (c.byte 20)).st = DriveState.off ∧ (s.dev.driveKind (c.byte 20) = 2 ∨ hallDead (s.dev.drv (c.byte 20)).hall =
      false) ∧ (∀ g ∈ s.dev.driveGroups (c.byte 20), bitAt s.dev.aux.testFail g = false)) ∧
    (∃ (c : Cmd) (s : State), Dev.admits 160 (inlMask [(20, 65535), (22, 1), (24, 4294967295)]) c s.dev ∧ c.byte 20 <
      4 ∧ s.dev.driveKind (c.byte 20) ≠ 0 ∧ bitAt (c.byte 22) 0 = false ∧ c.len = 0 ∧ c.byte 21 = 1 ∧ s.dev.driveKind
      (c.byte 20) = 1) ∧
    (∃ (c : Cmd) (s : State) (tgt : BitVec 32), Dev.admits 160 (inlMask [(20, 65535), (22, 1), (24, 4294967295)]) c
      s.dev ∧ c.byte 20 < 4 ∧ s.dev.driveKind (c.byte 20) ≠ 0 ∧ bitAt (c.byte 22) 0 = false ∧ c.len = 0 ∧ tgt =
      BitVec.ofNat 32 (c.word 24) ∧ c.byte 21 = 1 ∧ s.dev.driveKind (c.byte 20) = 2 ∧ -8388608 ≤ tgt.toInt ∧ tgt.toInt
      < 8388608 ∧ (s.dev.stepCount (c.byte 20) < tgt.toInt ∧ s.dev.limitActive (c.byte 20) true = true ∨ tgt.toInt <
      s.dev.stepCount (c.byte 20) ∧ s.dev.limitActive (c.byte 20) false = true)) ∧
    (∃ (c : Cmd) (s : State) (tgt : BitVec 32), Dev.admits 160 (inlMask [(20, 65535), (22, 1), (24, 4294967295)]) c
      s.dev ∧ c.byte 20 < 4 ∧ s.dev.driveKind (c.byte 20) ≠ 0 ∧ bitAt (c.byte 22) 0 = false ∧ c.len = 0 ∧ tgt =
      BitVec.ofNat 32 (c.word 24) ∧ c.byte 21 = 1 ∧ s.dev.driveKind (c.byte 20) = 2 ∧ -8388608 ≤ tgt.toInt ∧ tgt.toInt
      < 8388608 ∧ (s.dev.drv (c.byte 20)).st = DriveState.ready ∧ (s.dev.stepCount (c.byte 20) < tgt.toInt →
      s.dev.limitActive (c.byte 20) true = false) ∧ (tgt.toInt < s.dev.stepCount (c.byte 20) → s.dev.limitActive
      (c.byte 20) false = false) ∧ rampValid (s.dev.rampPlanned (8 + c.byte 20)) = true) ∧
    (∃ (c : Cmd) (s : State), Dev.admits 160 (inlMask [(20, 65535), (22, 1), (24, 4294967295)]) c s.dev ∧ c.byte 20 <
      4 ∧ s.dev.driveKind (c.byte 20) ≠ 0 ∧ bitAt (c.byte 22) 0 = false ∧ c.len = 0 ∧ c.byte 21 = 2 ∧ s.dev.driveKind
      (c.byte 20) = 1 ∧ s.dev.limitActive (c.byte 20) (decide (0 ≤ (BitVec.ofNat 32 (c.word 24)).toInt)) = true) ∧
    (∃ (c : Cmd) (s : State), Dev.admits 160 (inlMask [(20, 65535), (22, 1), (24, 4294967295)]) c s.dev ∧ c.byte 20 <
      4 ∧ s.dev.driveKind (c.byte 20) ≠ 0 ∧ bitAt (c.byte 22) 0 = false ∧ c.len = 0 ∧ c.byte 21 = 4 ∧ s.dev.driveKind
      (c.byte 20) = 1) ∧
    (∃ (c : Cmd) (s : State), Dev.admits 160 (inlMask [(20, 65535), (22, 1), (24, 4294967295)]) c s.dev ∧ c.byte 20 <
      4 ∧ s.dev.driveKind (c.byte 20) ≠ 0 ∧ bitAt (c.byte 22) 0 = false ∧ c.len = 0 ∧ c.byte 21 = 4 ∧ s.dev.driveKind
      (c.byte 20) = 2 ∧ (s.dev.drv (c.byte 20)).st ≠ DriveState.ready ∧ (s.dev.drv (c.byte 20)).st ≠
      DriveState.standstill) ∧
    (∃ (c : Cmd) (s : State), Dev.admits 160 (inlMask [(20, 65535), (22, 1), (24, 4294967295)]) c s.dev ∧ c.byte 20 <
      4 ∧ s.dev.driveKind (c.byte 20) ≠ 0 ∧ bitAt (c.byte 22) 0 = false ∧ c.len = 0 ∧ c.byte 21 = 4 ∧ s.dev.driveKind
      (c.byte 20) = 2 ∧ ((s.dev.drv (c.byte 20)).st = DriveState.ready ∨ (s.dev.drv (c.byte 20)).st =
      DriveState.standstill) ∧ rampValid (s.dev.rampPlanned (8 + c.byte 20)) = false) ∧
    (∃ (c : Cmd) (s : State), Dev.admits 160 (inlMask [(20, 65535), (22, 1), (24, 4294967295)]) c s.dev ∧ c.byte 20 <
      4 ∧ s.dev.driveKind (c.byte 20) ≠ 0 ∧ bitAt (c.byte 22) 0 = false ∧ c.len = 0 ∧ c.byte 21 = 4 ∧ s.dev.driveKind
      (c.byte 20) = 2 ∧ ((s.dev.drv (c.byte 20)).st = DriveState.ready ∨ (s.dev.drv (c.byte 20)).st =
      DriveState.standstill ∧ (s.dev.drv (c.byte 20)).charged = true) ∧ rampValid (s.dev.rampPlanned (8 + c.byte 20))
      = true) ∧
    (∃ (c : Cmd) (s : State), Dev.admits 160 (inlMask [(20, 65535), (22, 1), (24, 4294967295)]) c s.dev ∧ c.byte 20 <
      4 ∧ s.dev.driveKind (c.byte 20) ≠ 0 ∧ bitAt (c.byte 22) 0 = false ∧ c.len = 0 ∧ c.byte 21 = 4 ∧ s.dev.driveKind
      (c.byte 20) = 2 ∧ (s.dev.drv (c.byte 20)).st = DriveState.standstill ∧ (s.dev.drv (c.byte 20)).charged = false ∧
      rampValid (s.dev.rampPlanned (8 + c.byte 20)) = true) ∧
    (∃ (c : Cmd) (s : State), Dev.admits 160 (inlMask [(20, 65535), (22, 1), (24, 4294967295)]) c s.dev ∧ c.byte 20 <
      4 ∧ s.dev.driveKind (c.byte 20) ≠ 0 ∧ bitAt (c.byte 22) 0 = false ∧ c.len = 0 ∧ c.byte 21 = 2 ∧ s.dev.driveKind
      (c.byte 20) = 1 ∧ (s.dev.drv (c.byte 20)).st = DriveState.ready ∧ s.dev.limitActive (c.byte 20) (decide (0 ≤
      (BitVec.ofNat 32 (c.word 24)).toInt)) = false ∧ rampValid (s.dev.rampPlanned (8 + c.byte 20)) = true) ∧
    (∃ (c : Cmd) (s : State), Dev.admits 160 (inlMask [(20, 65535), (22, 1), (24, 4294967295)]) c s.dev ∧ c.byte 20 <
      4 ∧ s.dev.driveKind (c.byte 20) ≠ 0 ∧ bitAt (c.byte 22) 0 = false ∧ c.len = 0 ∧ c.byte 21 = 3 ∧ (s.dev.drv
      (c.byte 20)).st = DriveState.moving ∧ s.dev.chanIdle (8 + c.byte 20) = false) ∧
    (∃ (c : Cmd) (s : State), Dev.admits 160 (inlMask [(20, 65535), (22, 1), (24, 4294967295)]) c s.dev ∧ c.byte 20 <
      4 ∧ s.dev.driveKind (c.byte 20) ≠ 0 ∧ bitAt (c.byte 22) 0 = false ∧ c.len = 0 ∧ c.byte 21 = 5 ∧ (s.dev.drv
      (c.byte 20)).st = DriveState.moving) ∧
    (∃ (c : Cmd) (s : State), Dev.admits 160 (inlMask [(20, 65535), (22, 1), (24, 4294967295)]) c s.dev ∧ c.byte 20 <
      4 ∧ s.dev.driveKind (c.byte 20) ≠ 0 ∧ bitAt (c.byte 22) 0 = false ∧ c.len = 0 ∧ c.byte 21 = 6 ∧ ((s.dev.drv
      (c.byte 20)).st ≠ DriveState.fault ∨ s.dev.faultPersists (c.byte 20) = true)) ∧
    (∃ (c : Cmd) (s : State), Dev.admits 160 (inlMask [(20, 65535), (22, 1), (24, 4294967295)]) c s.dev ∧ c.byte 20 <
      4 ∧ s.dev.driveKind (c.byte 20) ≠ 0 ∧ bitAt (c.byte 22) 0 = false ∧ c.len = 0 ∧ c.byte 21 = 6 ∧ (s.dev.drv
      (c.byte 20)).st = DriveState.fault ∧ s.dev.faultPersists (c.byte 20) = false) ∧
    (∃ (c : Cmd) (s : State), Dev.admits 160 (inlMask [(20, 65535), (22, 1), (24, 4294967295)]) c s.dev ∧ c.byte 20 <
      4 ∧ s.dev.driveKind (c.byte 20) ≠ 0 ∧ bitAt (c.byte 22) 0 = true ∧ c.byte 21 ≠ 1 ∧ c.byte 21 ≠ 2) ∧
    (∃ (c : Cmd) (s : State), Dev.admits 160 (inlMask [(20, 65535), (22, 1), (24, 4294967295)]) c s.dev ∧ c.byte 20 <
      4 ∧ s.dev.driveKind (c.byte 20) ≠ 0 ∧ bitAt (c.byte 22) 0 = true ∧ BitVec.toNat c.len ≠ 36) ∧
    (∃ (c : Cmd) (s : State) (tgt : BitVec 32), Dev.admits 160 (inlMask [(20, 65535), (22, 1), (24, 4294967295)]) c
      s.dev ∧ c.byte 20 < 4 ∧ s.dev.driveKind (c.byte 20) ≠ 0 ∧ bitAt (c.byte 22) 0 = true ∧ tgt = BitVec.ofNat 32
      (c.word 24) ∧ BitVec.toNat c.len = 36 ∧ c.byte 21 = 1 ∧ s.dev.driveKind (c.byte 20) = 2 ∧ -8388608 ≤ tgt.toInt ∧
      tgt.toInt < 8388608 ∧ (s.dev.drv (c.byte 20)).st = DriveState.ready ∧ (s.dev.stepCount (c.byte 20) < tgt.toInt →
      s.dev.limitActive (c.byte 20) true = false) ∧ (tgt.toInt < s.dev.stepCount (c.byte 20) → s.dev.limitActive
      (c.byte 20) false = false) ∧ c.bufErr = true) ∧
    (∃ (c : Cmd) (s : State) (tgt : BitVec 32), Dev.admits 160 (inlMask [(20, 65535), (22, 1), (24, 4294967295)]) c
      s.dev ∧ c.byte 20 < 4 ∧ s.dev.driveKind (c.byte 20) ≠ 0 ∧ bitAt (c.byte 22) 0 = true ∧ tgt = BitVec.ofNat 32
      (c.word 24) ∧ BitVec.toNat c.len = 36 ∧ c.byte 21 = 1 ∧ s.dev.driveKind (c.byte 20) = 2 ∧ -8388608 ≤ tgt.toInt ∧
      tgt.toInt < 8388608 ∧ (s.dev.drv (c.byte 20)).st = DriveState.ready ∧ (s.dev.stepCount (c.byte 20) < tgt.toInt →
      s.dev.limitActive (c.byte 20) true = false) ∧ (tgt.toInt < s.dev.stepCount (c.byte 20) → s.dev.limitActive
      (c.byte 20) false = false) ∧ c.bufErr = false ∧ rampValid (bufRamp c) = false) ∧
    (∃ (c : Cmd) (s : State) (tgt : BitVec 32), Dev.admits 160 (inlMask [(20, 65535), (22, 1), (24, 4294967295)]) c
      s.dev ∧ c.byte 20 < 4 ∧ s.dev.driveKind (c.byte 20) ≠ 0 ∧ bitAt (c.byte 22) 0 = true ∧ tgt = BitVec.ofNat 32
      (c.word 24) ∧ BitVec.toNat c.len = 36 ∧ c.byte 21 = 1 ∧ s.dev.driveKind (c.byte 20) = 2 ∧ -8388608 ≤ tgt.toInt ∧
      tgt.toInt < 8388608 ∧ (s.dev.drv (c.byte 20)).st = DriveState.ready ∧ (s.dev.stepCount (c.byte 20) < tgt.toInt →
      s.dev.limitActive (c.byte 20) true = false) ∧ (tgt.toInt < s.dev.stepCount (c.byte 20) → s.dev.limitActive
      (c.byte 20) false = false) ∧ c.bufErr = false ∧ rampValid (bufRamp c) = true) ∧
    (∃ (c : Cmd) (s : State) (tgt : BitVec 32), Dev.admits 160 (inlMask [(20, 65535), (22, 1), (24, 4294967295)]) c
      s.dev ∧ c.byte 20 < 4 ∧ s.dev.driveKind (c.byte 20) ≠ 0 ∧ bitAt (c.byte 22) 0 = true ∧ tgt = BitVec.ofNat 32
      (c.word 24) ∧ BitVec.toNat c.len = 36 ∧ c.byte 21 = 2 ∧ s.dev.driveKind (c.byte 20) = 1 ∧ (s.dev.drv (c.byte
      20)).st = DriveState.ready ∧ s.dev.limitActive (c.byte 20) (decide (0 ≤ tgt.toInt)) = false ∧ c.bufErr = false ∧
      rampValid (bufRamp c) = true) :=
  ⟨⟨cmd 0 [], up id, by decide +kernel⟩,
   ⟨cmd 8 [], up (drive 1 3 fun x => { x with st := .moving }), 3, by decide +kernel⟩,
   ⟨cmd 15 [], up id, by decide +kernel⟩,
   ⟨cmd 4 [], up id, by decide +kernel⟩,
   ⟨cmd 3 [], up (drive 1 3 fun x => { x with st := .fault }), by decide +kernel⟩,
   ⟨cmd 3 [], up fun d => (drive 1 3 id d).onAux fun a => { a with testFail := 8 }, by decide +kernel⟩,
   ⟨cmd 3 [], up (drive 1 3 fun x => { x with hall := some 7 }), by decide +kernel⟩,
   ⟨cmd 3 [], up (drive 1 3 id), by decide +kernel⟩,
   ⟨cmd 0x103 [], up (drive 1 3 id), by decide +kernel⟩,
   ⟨cmd (0x102 + (2 ^ 23 - 1) * 2 ^ 32) [], up fun d => put (Reg.AUX_DRV_CFG 2) 0x80080000 ((drive 3 2 (fun x =>
     { x with st := .ready }) d).onAux fun a => { a with limits := 1 }), 0x7FFFFF, by decide +kernel⟩,
   ⟨cmd (0x102 + (2 ^ 32 - 2 ^ 23) * 2 ^ 32) [], up fun d => ramped (drive 3 2 (fun x => { x with st := .ready }) d),
     0xFF800000, by decide +kernel⟩,
   ⟨cmd 0x203 [], up fun d => put (Reg.AUX_DRV_CFG 3) 0x80080000 ((drive 1 3 (fun x => { x with st := .ready })
     d).onAux fun a => { a with limits := 1 }), by decide +kernel⟩,
   ⟨cmd 0x403 [], up (drive 1 3 id), by decide +kernel⟩,
   ⟨cmd 0x402 [], up (drive 3 2 id), by decide +kernel⟩,
   ⟨cmd 0x402 [], up (drive 3 2 fun x => { x with st := .ready }), by decide +kernel⟩,
   ⟨cmd 0x402 [], up fun d => ramped (drive 3 2 (fun x => { x with st := .ready }) d), by decide +kernel⟩,
   ⟨cmd 0x402 [], up fun d => ramped (drive 3 2 (fun x => { x with st := .standstill, charged := false }) d),
     by decide +kernel⟩,
   ⟨cmd 0x203 [], up fun d => ramped (drive 1 3 (fun x => { x with st := .ready }) d), by decide +kernel⟩,
   ⟨cmd 0x303 [], up fun d => (drive 1 3 (fun x => { x with st := .moving }) d).setPrf 11
     { d.prf 11 with seg := .cruise }, by decide +kernel⟩,
   ⟨cmd 0x503 [], up (drive 1 3 fun x => { x with st := .moving }), by decide +kernel⟩,
   ⟨cmd 0x603 [], up (drive 1 3 id), by decide +kernel⟩,
   ⟨cmd 0x603 [], up (drive 1 3 fun x => { x with st := .fault }), by decide +kernel⟩,
   ⟨cmd 0x10003 [], up (drive 1 3 id), by decide +kernel⟩,
   ⟨cmd 0x10103 [], up (drive 1 3 id), by decide +kernel⟩,
   ⟨{ cmd 0x10102 rampBytes with bufErr := true }, up (drive 3 2 fun x => { x with st := .ready }), 0,
     by decide +kernel⟩,
   ⟨cmd 0x10102 (zeros 36), up (drive 3 2 fun x => { x with st := .ready }), 0, by decide +kernel⟩,
   ⟨cmd 0x10102 rampBytes, up (drive 3 2 fun x => { x with st := .ready }), 0, by decide +kernel⟩,
   ⟨cmd 0x10203 rampBytes, up (drive 1 3 fun x => { x with st := .ready }), 0, by decide +kernel⟩⟩

theorem witness_ResetState :
    (∃ (r : ℕ), r < 32) ∧
    (∃ (k : ℕ), k < 4) :=
  ⟨⟨31, by decide +kernel⟩,
   ⟨3, by decide +kernel⟩⟩

/-- A TICK row from reset: the state is safe, and the step answers a next state. -/
theorem witness_StepKeepsSafe : ∃ s t : State, s.Safe ∧ s.pending = [.tick TickPins.low] ∧ step s = .next t :=
  ⟨{ State.reset with pending := [.tick TickPins.low] }, _, ⟨by decide +kernel, by decide +kernel⟩, rfl, rfl⟩

/-- A captured value of SnapshotsCapture: the last address of an uncorrectable error. -/
theorem witness_SnapshotsCapture_value : ∃ (v : W32) (s : State) (x : Instr × Nat × Nat), BitVec.getLsbD v 0 = true ∧
    x = (Instr.sysSnap v, Reg.SYS_ECC_LAST_SNAP, s.dev.sys.eccLast) :=
  ⟨1, State.reset, _, by decide +kernel, rfl⟩

/-- A buffer shorter than the certificate chain, for every length but 0 of the chain (a free value). -/
theorem witness_ShortCertificateBuffer (h : Config.certLength ≠ 0) :
    ∃ (c : Cmd) (s : State), Dev.admits 128 (inlMask [(20, 255)]) c s.dev ∧ c.byte 20 = 1 ∧
      BitVec.toNat c.len < Config.certLength.toNat := by
  refine ⟨out 1 0, up id, by decide +kernel, by decide +kernel, ?_⟩
  have h0 : BitVec.toNat (out 1 0).len = 0 := by decide +kernel
  have h1 : Config.certLength.toNat ≠ 0 := fun e => h (BitVec.eq_of_toNat_eq e)
  omega

/-! ### Ill-formed operands are refused by `Instr.wf` -/

theorem test_wf_command_buffer :
    (Instr.nop { cmd 0 (zeros 1) with len := 2 }).wf = false ∧ (Instr.nop (cmd 0 (zeros 1))).wf = true := by decide +kernel

theorem test_wf_link :
    (Instr.dataLinkUp 0 ⟨1, 0, 0⟩).wf = false ∧ (Instr.dataLinkUp 1 ⟨3, 0, 0⟩).wf = false ∧
      (Instr.dataLinkUp 1 ⟨4, 1, 2⟩).wf = true := by
  decide +kernel

theorem test_wf_response :
    (Instr.secResp 1 0 (zeros 96) (zeros 96)).wf = false ∧ (Instr.secResp 1 0 (zeros 97) (zeros 97)).wf = false ∧
      (Instr.secResp 1 0 (zeros 97) (zeros 96)).wf = true := by
  decide +kernel

theorem test_wf_chunk :
    (Instr.imageChunk (chunk 4 0) (zeros 3)).wf = false ∧ (Instr.imageChunk (chunk 4 0) (zeros 4)).wf = true := by
  decide +kernel

/-! ### Values worked out in the spec or in the standards that it names -/

/-- The check values of the two CRCs of R236: the nine bytes "123456789". -/
def digits : List Byte := (upto 9).map fun i => BitVec.ofNat 8 (0x31 + i)

theorem test_crc32 : crc32 digits = 0xCBF43926 := by decide +kernel

theorem test_crc16 : crc16 digits = 0x29B1 := by decide +kernel

/-- SHA-384 of "abc" (FIPS 180-4). -/
theorem test_sha384 : beNat (sha384 [0x61, 0x62, 0x63]) =
    0xCB00753F45A35E8BB5A03D699AC65007272C32AB0EDED1631A8B605A43FF5BED8086072BA1E7CC2358BAECA134C825A7 := by
  decide +kernel

/-- The tiller's insert edge of the worked example of Arm Modulation: 0x44_8005_2E19, sent as 19 2E 05 80 44. -/
theorem test_edge_word : leBytes 5 (entryWord ⟨17, 1, 339481⟩) = [0x19, 0x2E, 0x05, 0x80, 0x44] := by decide +kernel

/-- Stroke k of the same example: n = 47, d = 0, and a carry of −0.0227. -/
theorem test_count_full_insertion :
    let r := countRule false 96 310707 14596178 0 1422208 51200
    r.n = 47 ∧ r.frac = 0 ∧ r.sat = false ∧ -382520 ≤ r.carry ∧ r.carry ≤ -379164 := by decide +kernel

/-- Stroke k+1: n = 46, d = 0.5226, and no carry. -/
theorem test_count_tiller :
    let r := countRule false 96 310707 14461960 (-380842) 1422208 51200
    r.n = 46 ∧ 8766000 ≤ r.frac ∧ r.frac ≤ 8769400 ∧ r.carry = 0 := by decide +kernel

/-- The section of the worked example of the Loop Engine: y = 0.082262 and n1 = 0.052524, to half a unit of the sixth
place. -/
theorem test_section :
    let r := biquad ⟨0x0C1ACEEE, 0xF41ACEEE, 0, 0xF8000000, 0⟩ 335544 223338299 0
    (r.y * 1000000 - 82262 * 2 ^ 24).natAbs ≤ 2 ^ 23 ∧ (r.n1 * 1000000 - 52524 * 2 ^ 32).natAbs ≤ 2 ^ 31 ∧
      r.satd = false := by
  decide +kernel

/-- The example after R43: 3,800 strokes per revolution under a ceiling of 52.5 Hz give T_min = 2,004 ticks. -/
theorem test_shortest_stroke :
    tMin (fun off => if off = Reg.ANG_GRID then 3800 else if off = Reg.ANG_TFREE then 400000
      else if off = Reg.ANG_FWMAX_L then 0xB6E6B17A else if off = Reg.ANG_FWMAX_H then 0x233 else 0) = 2004 := by
  decide +kernel

/-- The code of IEEE 802.3 at both disparities: D.0.0, D.17.7 with its alternate form, K28.5 and K27.7 (R225). -/
theorem test_line_codes :
    encodeData false 0x00 = (0b1001110100, false) ∧ encodeData true 0x00 = (0b0110001011, true) ∧
      encodeData false 0xF1 = (0b1000110111, true) ∧ (encodeChar false (.ctrl 0xBC)).1 = 0b0011111010 ∧
      (encodeChar true (.ctrl 0xFB)).1 = 0b0010010111 := by
  decide +kernel

/-- Every data byte comes back from its code, at either disparity, with the disparity after it (R225). -/
theorem test_line_round_trip : ∀ rd : Bool, ∀ b ∈ upto 256,
    let x := encodeData rd (BitVec.ofNat 8 b)
    decodeChar rd x.1 = .data (BitVec.ofNat 8 b) ∧ disparityCode rd x.1 = x.2 := by
  decide +kernel

/-- R230: CHK of BLOCK with EPOCH 0x1234 is the complement of 0x34 xor 0x12; a wrong CHK makes no set. -/
theorem test_block_set :
    setChars (.block 0x1234) = [.ctrl 0x7C, .data 0x34, .data 0x12, .data 0xD9] ∧
      readSet [.ctrl 0x7C, .data 0x34, .data 0x12, .data 0xD8] = none := by
  decide +kernel

/-- R231: three copies of a set inside a frame leave the frame's bytes as they were. -/
theorem test_set_inside_frame :
    framePayload (setChars .sof ++ [.data 1] ++ threeCopies (.block 7) ++ [.data 2] ++ setChars .eof) =
      some [.data 1, .data 2] := by
  decide +kernel

/-! ### Steps -/

/-- The device of the state that a step answers. -/
def after (s : State) : Option Dev := match step s with
  | .next t => some t.dev
  | _ => none

/-- R29, R30: in an angle stroke one tick adds FW to the accumulator; the addition wraps. -/
theorem test_tick_wraps :
    (after { at_ (fun d => (clk (fun c => { c with fallback := false }) d).onAng fun a => { a with acc := 0xFFFFFFFFFFFFFFFF, cur := { a.cur with angle := true, fw := 3 } })
      with pending := [.tick TickPins.low] }).map (fun d => (d.ang.acc, d.ang.tick)) = some (2, 1) := by
  decide +kernel

/-- R424, R432: NOP writes its completion to slot 0 of ring 4 with status OK and phase 1. -/
theorem test_nop_completion :
    (match step { up id with pending := [.nop { cmd 0 [] with tag := 0x1234 }] } with
      | .next t => (upto 8).map fun i => t.readByte i
      | _ => []) = [0x01, 0x01, 0x00, 0x80, 0x34, 0x12, 0x01, 0x00] := by
  decide +kernel

end Sys2Proof.Tests
end

section
/-! PROOFS. Shared rules: sparse tables read with several defaults, a row around an effect that is known, updates of the
host interface. -/

namespace Sys2Proof.SMap

/-- Writing one key leaves every other key as it was, whatever default each of the two is read with. -/
theorem get_set_other {α : Type} [DecidableEq α] (m : SMap α) (d d' : α) {k k' : Nat} (v : α) (h : k ≠ k') :
    (m.set d k v).get d' k' = m.get d' k' := by
  unfold set get
  split
  · rw [lookup_eraseCell, if_neg h]
  · rw [lookup_insertCell, if_neg h]

/-- What is left of a list of cells when only the keys with a property are kept. -/
theorem lookup_filter {α : Type} (p : Nat → Bool) (l : List (Nat × α)) (k : Nat) :
    lookup (l.filter fun c => p c.1) k = if p k then lookup l k else none := by
  induction l with
  | nil => simp [lookup]
  | cons c rest ih =>
    obtain ⟨a, b⟩ := c
    by_cases ha : a = k
    · subst ha
      cases hp : p a <;> simp [lookup, hp, ih]
    · cases hp : p a <;> simp [lookup, hp, ih, ha]

end Sys2Proof.SMap

namespace Sys2Proof.Machine

open Host

/-! ### One row around an effect that is known -/

theorem exec_of_effect {i : Instr} {s : State} {f : Dev → Dev} {d : Dev} (hi : exec i s = .next (s.run f))
    (hf : f s.fresh = d) : exec i s = .next (s.after d) := by rw [hi, State.run_eq, hf]

/-- What a row keeps, and host memory, when its effect keeps the parts and posts nothing. -/
theorem Dev.Keeps.quietly {ps : List Part} {s : State} {d : Dev} (h : Dev.Keeps ps s.fresh d)
    (ho : d.host.out = s.dev.host.out) : ChangesOnly ps s (s.after d) ∧ Quiet s (s.after d) :=
  ⟨.of_after h, .of_out ho⟩

/-- Host memory after a row that posts one write. -/
theorem State.after_readByte_of_post {s : State} {d : Dev} {a : Nat} {bs : List Byte} (h : d.host.out = [(a, bs)])
    (x : Nat) : (s.after d).readByte x = if a ≤ x ∧ x < a + bs.length then bs.getD (x - a) 0 else s.readByte x := by
  rw [State.readByte, State.after_mem, h]
  exact get_writeBytes ..

/-- An update of the host interface that leaves reports and commands alone. -/
theorem Dev.keeps_onHost {f : HostState → HostState} {d : Dev} (hr : Part.reports.same d (d.onHost f))
    (hc : Part.commands.same d (d.onHost f)) : Dev.Keeps [.host] d (d.onHost f) := by
  refine ⟨fun p hp => ?_⟩
  cases p
  case host => simp at hp
  case reports => exact hr
  case commands => exact hc
  all_goals rfl

end Sys2Proof.Machine
end

section
/-! PROOFS. The state after reset (R35, R402, R412, R450). -/

namespace Sys2Proof.Machine

/-- At reset no ring is enabled (R414). -/
theorem reset_ringEn {r : Nat} (hr : r < 32) : Dev.reset.ringEn r = false := by
  revert r
  decide +kernel

theorem reset_ringRoom {r : Nat} (hr : r < 32) : Dev.reset.ringRoom r = 0 := by
  rw [Dev.ringRoom, reset_ringEn hr]
  rfl

/-- At reset every pair of the Fence is demanded, has a standing cause and is open (R402). -/
theorem reset_fence_pair {k : Nat} (hk : k < 4) :
    (Dev.reset.fenOut k).demanded = true ∧ Dev.reset.pairCause k = true ∧ pairClosed (Dev.reset.fenOut k) = false := by
  revert k
  decide +kernel

/-- At reset every register holds its reset value: in force, staged and accepted (R5). -/
theorem reset_registers (off : Nat) : Dev.reset.cfg off = (regReset off).toNat ∧
    Dev.reset.stagedReg off = (regReset off).toNat ∧ Dev.reset.activeReg off = (regReset off).toNat ∧
    Dev.reset.w1c off = 0 := ⟨rfl, rfl, rfl, rfl⟩

/-- Settles O60: the clauses about many registers, rings and pairs by the lemmas above, the others by evaluation. -/
theorem resetState : Obligations.ResetState := by
  refine ⟨?_, ?_, reset_registers, rfl, rfl, rfl, rfl, rfl, fun r hr => ⟨reset_ringEn hr, reset_ringRoom hr⟩, rfl, rfl,
    fun k hk => reset_fence_pair hk, rfl, rfl, rfl⟩
  · decide +kernel
  · decide +kernel

end Sys2Proof.Machine
end

section
/-! PROOFS. Captured values (R9): what a snapshot write stores, for each of the 18 snapshot registers, and that it
changes nothing else. -/

namespace Sys2Proof.Machine

open Host

/-! ### Captured values -/

/-- The value that a snapshot register shows. -/
def Dev.captured (off : Nat) (d : Dev) : W32 := d.regs.snaps.get (regReset off) off

theorem Dev.captured_snap_self (off v : Nat) (d : Dev) : (d.snap off v).captured off = BitVec.ofNat 32 v :=
  SMap.get_set_self ..

theorem Dev.captured_snap_of_ne {off off' : Nat} (v : Nat) (d : Dev) (h : off ≠ off') :
    (d.snap off v).captured off' = d.captured off' := SMap.get_set_other _ _ _ _ h

theorem Dev.snapAll_cons (x : Nat × Nat) (vs : List (Nat × Nat)) (d : Dev) :
    d.snapAll (x :: vs) = (d.snap x.1 x.2).snapAll vs := rfl

theorem Dev.snapAll_append (vs ws : List (Nat × Nat)) (d : Dev) :
    d.snapAll (vs ++ ws) = (d.snapAll vs).snapAll ws := List.foldl_append

theorem Dev.captured_snapAll_of_notMem {off : Nat} {vs : List (Nat × Nat)} (h : off ∉ vs.map Prod.fst) (d : Dev) :
    (d.snapAll vs).captured off = d.captured off := by
  induction vs generalizing d with
  | nil => rfl
  | cons x rest ih =>
    rw [List.map_cons, List.mem_cons, not_or] at h
    rw [Dev.snapAll_cons, ih h.2, Dev.captured_snap_of_ne _ _ fun e => h.1 e.symm]

/-- Of several captures in different registers, each register shows its own value. -/
theorem Dev.captured_snapAll {vs : List (Nat × Nat)} (hn : (vs.map Prod.fst).Nodup) {x : Nat × Nat} (hx : x ∈ vs)
    (d : Dev) : (d.snapAll vs).captured x.1 = BitVec.ofNat 32 x.2 := by
  induction vs generalizing d with
  | nil => exact absurd hx List.not_mem_nil
  | cons y rest ih =>
    rw [List.map_cons, List.nodup_cons] at hn
    rw [Dev.snapAll_cons]
    rcases List.mem_cons.mp hx with rfl | hr
    · rw [Dev.captured_snapAll_of_notMem hn.1, Dev.captured_snap_self]
    · exact ih hn.2 hr _

/-- A capture replaces the captured values and nothing else. -/
theorem Dev.snapAll_eq (vs : List (Nat × Nat)) (d : Dev) :
    ∃ m, d.snapAll vs = { d with regs := { d.regs with snaps := m } } := by
  induction vs generalizing d with
  | nil => exact ⟨d.regs.snaps, rfl⟩
  | cons x rest ih => exact ih (d.snap x.1 x.2)

theorem Dev.snapAll_host (vs : List (Nat × Nat)) (d : Dev) : (d.snapAll vs).host = d.host := by
  obtain ⟨m, h⟩ := d.snapAll_eq vs
  rw [h]

theorem Dev.snapAll_prf (vs : List (Nat × Nat)) (d : Dev) (c : Nat) : (d.snapAll vs).prf c = d.prf c := by
  obtain ⟨m, h⟩ := d.snapAll_eq vs
  rw [h]; rfl

theorem Dev.snapAll_subm (vs : List (Nat × Nat)) (d : Dev) (k : Nat) : (d.snapAll vs).subm k = d.subm k := by
  obtain ⟨m, h⟩ := d.snapAll_eq vs
  rw [h]; rfl

/-- A loop of captures whose values no capture changes is one capture. -/
theorem Dev.foldl_snapAll {vs : Dev → Nat → List (Nat × Nat)}
    (hvs : ∀ (ws : List (Nat × Nat)) (d : Dev), vs (d.snapAll ws) = vs d) (ks : List Nat) (d : Dev) :
    ks.foldl (fun d k => d.snapAll (vs d k)) d = d.snapAll (ks.flatMap (vs d)) := by
  induction ks generalizing d with
  | nil => rfl
  | cons k rest ih => rw [List.foldl_cons, ih, List.flatMap_cons, Dev.snapAll_append, hvs]

theorem Dev.snapAll_after {d e : Dev} {vs : List (Nat × Nat)} (h : e = d.snapAll vs) (ws : List (Nat × Nat)) :
    e.snapAll ws = d.snapAll (vs ++ ws) := by rw [h, Dev.snapAll_append]

theorem Dev.foldl_snapAll_after {d e : Dev} {vs : List (Nat × Nat)} {ws : Dev → Nat → List (Nat × Nat)}
    (h : e = d.snapAll vs) (hws : ∀ (us : List (Nat × Nat)) (d : Dev), ws (d.snapAll us) = ws d) (ks : List Nat) :
    ks.foldl (fun d k => d.snapAll (ws d k)) e = d.snapAll (vs ++ ks.flatMap (ws d)) := by
  rw [Dev.foldl_snapAll hws, h, hws, Dev.snapAll_append]

/-- One entry of each group of a list of groups. -/
theorem map_subset_flatMap {α β : Type} {f : α → β} {g : α → List β} (h : ∀ a, f a ∈ g a) {l : List α} :
    l.map f ⊆ l.flatMap g := fun _ hb =>
  have ⟨a, ha, hab⟩ := List.mem_map.mp hb
  List.mem_flatMap.mpr ⟨a, ha, hab ▸ h a⟩

/-! ### Different registers: a test that evaluates for offsets given, whatever the values are -/

/-- The offset occurs as a key of the list. -/
def keyIn (off : Nat) : List (Nat × Nat) → Bool
  | [] => false
  | x :: rest => off.beq x.1 || keyIn off rest

/-- The keys of the list differ from one another. -/
def distinctKeys : List (Nat × Nat) → Bool
  | [] => true
  | x :: rest => !keyIn x.1 rest && distinctKeys rest

theorem keyIn_iff {off : Nat} {vs : List (Nat × Nat)} : keyIn off vs = true ↔ off ∈ vs.map Prod.fst := by
  induction vs with
  | nil => simp [keyIn]
  | cons x rest ih => simp [keyIn, ih]

theorem nodup_of_distinctKeys {vs : List (Nat × Nat)} (h : distinctKeys vs = true) : (vs.map Prod.fst).Nodup := by
  induction vs with
  | nil => exact List.nodup_nil
  | cons x rest ih =>
    rw [distinctKeys, Bool.and_eq_true, Bool.not_eq_true', ← Bool.not_eq_true, keyIn_iff] at h
    exact List.nodup_cons.mpr ⟨h.1, ih h.2⟩

/-! ### Rows that capture -/

/-- The row captures values in different registers, `shown` among them, and does nothing else. -/
def Captures (i : Instr) (s : State) (shown : List (Nat × Nat)) : Prop :=
  ∃ vs, exec i s = .next (s.after (s.fresh.snapAll vs)) ∧ (vs.map Prod.fst).Nodup ∧ shown ⊆ vs

theorem Captures.of_effect {i : Instr} {s : State} {f : Dev → Dev} {vs shown : List (Nat × Nat)}
    (hi : exec i s = .next (s.run f)) (hf : f s.fresh = s.fresh.snapAll vs) (hk : distinctKeys vs = true)
    (hs : shown ⊆ vs) : Captures i s shown :=
  ⟨vs, exec_of_effect hi hf, nodup_of_distinctKeys hk, hs⟩

theorem Captures.changesOnly_snaps {i : Instr} {s : State} {shown : List (Nat × Nat)} (h : Captures i s shown) :
    Answers i s fun t => ChangesOnly [.snaps] s t ∧ Quiet s t := by
  obtain ⟨vs, hi, -, -⟩ := h
  exact ⟨_, hi, (Dev.keeps_snapAll vs _).quietly (by rw [Dev.snapAll_host, State.fresh_host])⟩

theorem Captures.shows {i : Instr} {s : State} {shown : List (Nat × Nat)} (h : Captures i s shown) :
    ∀ x ∈ shown, Answers i s fun t => t.dev.regs.snaps.get (regReset x.1) x.1 = BitVec.ofNat 32 x.2 := by
  obtain ⟨vs, hi, hn, hs⟩ := h
  exact fun x hx => ⟨_, hi, Dev.captured_snapAll hn (hs hx) _⟩

/-- The entries of a table of captures that a first row gives, and those of the other rows. -/
theorem Captures.table {i : Instr} {s : State} {shown : List (Nat × Nat)} {rest : List (Instr × Nat × Nat)}
    (h : Captures i s shown)
    (hr : ∀ x ∈ rest, Answers x.1 s fun t => t.dev.regs.snaps.get (regReset x.2.1) x.2.1 = BitVec.ofNat 32 x.2.2) :
    ∀ x ∈ shown.map (Prod.mk i) ++ rest,
      Answers x.1 s fun t => t.dev.regs.snaps.get (regReset x.2.1) x.2.1 = BitVec.ofNat 32 x.2.2 :=
  List.forall_mem_append.mpr ⟨List.forall_mem_map.mpr h.shows, hr⟩

/-! ### The rows with bit 0 set: each lists of its captures those that the statement names -/

section
variable {v : W32} (hv : v.getLsbD 0 = true) (s : State)
include hv

theorem angSnap_captures : Captures (.angSnap v) s [(Reg.ANG_SN_SNAP, s.dev.ang.cur.sn.toNat),
    (Reg.ANG_REV_SNAP, s.dev.ang.rev.toNat), (Reg.ANG_THETA_SNAP, s.dev.ang.acc.toNat / 2 ^ 32),
    (Reg.ANG_MCN_SNAP, s.dev.ang.mcn.toNat), (Reg.ANG_TICK_L_SNAP, s.dev.tickCount % 2 ^ 32),
    (Reg.ANG_CLAMP_CNT_SNAP, s.dev.ang.clampCnt)] :=
  .of_effect rfl (if_pos hv) rfl (by simp [Dev.tickCount])

theorem gfmSnap_captures : Captures (.gfmSnap v) s [(Reg.GFM_PE_SNAP, unsigned 32 s.dev.gfm.shown.pe),
    (Reg.GFM_QE_SNAP, unsigned 32 s.dev.gfm.shown.qe), (Reg.GFM_E_SNAP, unsigned 32 s.dev.gfm.e),
    (Reg.GFM_EPS_SNAP, unsigned 32 s.dev.gfm.shown.eps)] :=
  .of_effect rfl (if_pos hv) rfl (by simp)

theorem profSnap_captures : Captures (.profSnap v) s
    ((upto 16).map fun c => (Reg.PROF_POS_SNAP c, (s.dev.prf c).pos.toNat / 2 ^ 16)) :=
  .of_effect rfl ((if_pos hv).trans (Dev.foldl_snapAll (by simp [Dev.snapAll_prf]) _ _)) rfl
    (map_subset_flatMap fun _ => List.mem_cons_self)

theorem loopSnap_captures : Captures (.loopSnap v) s [(Reg.LOOP_MISS_CNT_SNAP, s.dev.loop.done.misses),
    (Reg.LOOP_SAT_SNAP_L, s.dev.loop.done.satMask % 2 ^ 32)] :=
  .of_effect rfl (if_pos hv) rfl (by simp)

theorem supSnap_captures : Captures (.supSnap v) s [(Reg.SUP_TRIP_CNT_SNAP, s.dev.sup.done.getD 0 0),
    (Reg.SUP_FRT_CNT_SNAP, s.dev.sup.done.getD 1 0)] :=
  .of_effect rfl (if_pos hv) rfl (by simp)

theorem modSnap_captures : Captures (.modSnap v) s [(Reg.MOD_LATE_CNT_SNAP, s.dev.mod.shown.lateCnt),
    (Reg.MOD_SWAP_CNT_SNAP, s.dev.mod.shown.swapCnt)] :=
  .of_effect rfl ((if_pos hv).trans (Dev.snapAll_after (Dev.foldl_snapAll_after
    (Dev.foldl_snapAll (fun _ _ => rfl) _ _) (fun _ _ => rfl) _) _)) rfl (by simp)

theorem pwmSnap_captures : Captures (.pwmSnap v) s [(Reg.PWM_TRIP_SNAP, s.dev.pwm.shown.trip),
    (Reg.PWM_BEYOND_CNT_SNAP, s.dev.pwm.shown.beyond)] :=
  .of_effect rfl (if_pos hv) rfl (by simp)

theorem penSnap_captures : Captures (.penSnap v) s [(Reg.PEN_TX_CNT_SNAP, s.dev.pen.txCnt),
    (Reg.PEN_URGENT_CNT_SNAP, s.dev.pen.urgentCnt)] :=
  .of_effect rfl ((if_pos hv).trans (Dev.foldl_snapAll_after (ws := fun d r => [(Reg.PEN_LATECAP_SNAP r,
    submBits r (((upto 32).map (32 * r + ·)).filter fun k => (d.subm k).lateCap))]) rfl (by simp [Dev.snapAll_subm]) _))
    rfl (by simp)

theorem pntSnap_captures : Captures (.pntSnap v) s [(Reg.PNT_ARRIVE_CNT_SNAP, s.dev.pnt.arriveCnt),
    (Reg.PNT_DIRTY_SNAP, s.dev.pnt.dirty.cells.length)] :=
  .of_effect rfl (if_pos hv) rfl (by simp)

theorem adcSnap_captures : Captures (.adcSnap v) s [(Reg.ADC_CLIP_CNT_SNAP, s.dev.adc.clipCnt),
    (Reg.ADC_FAIL_CNT_SNAP, s.dev.adc.failCnt)] :=
  .of_effect rfl ((if_pos hv).trans (Dev.snapAll_after rfl _)) rfl (by simp)

theorem acqSnap_captures : Captures (.acqSnap v) s
    ((upto 8).map fun k => (Reg.ACQ_REC_CNT_SNAP k, (s.dev.aset k).recCnt)) :=
  .of_effect rfl (if_pos hv) rfl
    (List.subset_cons_of_subset _ (map_subset_flatMap fun _ => by simp [Dev.aset]))

theorem clkSnap_captures : Captures (.clkSnap v) s [(Reg.CLK_TOD_L_SNAP, s.dev.clk.secs % 2 ^ 32),
    (Reg.CLK_SEC_TICK_SNAP, s.dev.secOfs), (Reg.CLK_LOCK_CNT_SNAP, s.dev.clk.lockCnt)] :=
  .of_effect rfl (if_pos hv) rfl (by simp [Dev.secOfs, Dev.now])

theorem twnSnap_captures : Captures (.twnSnap v) s [(Reg.TWN_CONSIST_SNAP, s.dev.twn.consistCnt),
    (Reg.TWN_PKT_ERR_CNT_SNAP, s.dev.twn.pktErrCnt), (Reg.TWN_LAST_L_SNAP, s.dev.twn.lastL.toNat)] :=
  .of_effect rfl (if_pos hv) rfl (by simp [State.fresh])

theorem hostSnap_captures : Captures (.hostSnap v) s [(Reg.HOST_CMD_CNT_SNAP, s.dev.host.cmdCnt),
    (Reg.HOST_ACC_ERR_CNT_SNAP, s.dev.host.accErrCnt), (Reg.HOST_SVC_IGN_CNT_SNAP, s.dev.host.svcIgnCnt)] :=
  .of_effect rfl (if_pos hv) rfl (by simp)

theorem hkSnap_captures : Captures (.hkSnap v) s [(Reg.HK_DT_SNAP, s.dev.hk.dT),
    (Reg.HK_SHUT_CNT_SNAP, s.dev.hk.shutCnt)] :=
  .of_effect rfl ((if_pos hv).trans (Dev.snapAll_after rfl _)) rfl (by simp)

theorem auxSnap_captures : Captures (.auxSnap v) s [(Reg.AUX_OC_SNAP, s.dev.aux.oc),
    (Reg.AUX_REFRESH_CNT_SNAP, s.dev.aux.refreshCnt)] :=
  .of_effect rfl (if_pos hv) rfl (by simp)

theorem lrdSnap_captures : Captures (.lrdSnap v) s [(Reg.LRD_TAIL_SNAP, s.dev.oldestSeq),
    (Reg.LRD_BAD_CNT_SNAP, s.dev.lrd.badCnt)] :=
  .of_effect rfl ((if_pos hv).trans (Dev.snapAll_after rfl _)) rfl
    (by simp [show s.fresh.oldestSeq = s.dev.oldestSeq from rfl])

theorem sysSnap_captures : Captures (.sysSnap v) s [(Reg.SYS_CE_CNT_SNAP, s.dev.sys.ceCnt),
    (Reg.SYS_UE_CNT_SNAP, s.dev.sys.ueCnt), (Reg.SYS_ECC_LAST_SNAP, s.dev.sys.eccLast)] :=
  .of_effect rfl (if_pos hv) rfl (by simp)

end

/-! ### The statement -/

/-- Settles O52: each snapshot row is one capture of different registers; with bit 0 clear it is idle. -/
theorem snapshotsCapture : Obligations.SnapshotsCapture := by
  intro v s
  refine ⟨fun hv => ?_, fun hv => ⟨?_, ?_, fun c hc => ?_, fun k hk => ?_⟩⟩
  · have hv' : v.getLsbD 0 ≠ true := Bool.eq_false_iff.mp hv
    simp only [List.forall_mem_cons, List.not_mem_nil, false_implies, implies_true, and_true]
    refine ⟨?_, ?_, ?_, ?_, ?_, ?_, ?_, ?_, ?_, ?_, ?_, ?_, ?_, ?_, ?_, ?_, ?_, ?_⟩ <;>
      exact exec_of_effect rfl (if_neg hv')
  · simp only [List.forall_mem_cons, List.not_mem_nil, false_implies, implies_true, and_true]
    exact ⟨(angSnap_captures hv s).changesOnly_snaps, (gfmSnap_captures hv s).changesOnly_snaps,
      (profSnap_captures hv s).changesOnly_snaps, (loopSnap_captures hv s).changesOnly_snaps,
      (supSnap_captures hv s).changesOnly_snaps, (modSnap_captures hv s).changesOnly_snaps,
      (pwmSnap_captures hv s).changesOnly_snaps, (penSnap_captures hv s).changesOnly_snaps,
      (pntSnap_captures hv s).changesOnly_snaps, (adcSnap_captures hv s).changesOnly_snaps,
      (acqSnap_captures hv s).changesOnly_snaps, (clkSnap_captures hv s).changesOnly_snaps,
      (twnSnap_captures hv s).changesOnly_snaps, (hostSnap_captures hv s).changesOnly_snaps,
      (hkSnap_captures hv s).changesOnly_snaps, (auxSnap_captures hv s).changesOnly_snaps,
      (lrdSnap_captures hv s).changesOnly_snaps, (sysSnap_captures hv s).changesOnly_snaps⟩
  · have table := (angSnap_captures hv s).table <| (gfmSnap_captures hv s).table <|
      (loopSnap_captures hv s).table <| (supSnap_captures hv s).table <| (modSnap_captures hv s).table <|
      (pwmSnap_captures hv s).table <| (penSnap_captures hv s).table <| (pntSnap_captures hv s).table <|
      (adcSnap_captures hv s).table <| (clkSnap_captures hv s).table <| (twnSnap_captures hv s).table <|
      (hostSnap_captures hv s).table <| (hkSnap_captures hv s).table <| (auxSnap_captures hv s).table <|
      (lrdSnap_captures hv s).table <| (sysSnap_captures hv s).table (List.forall_mem_nil _)
    exact table
  · exact (profSnap_captures hv s).shows _ (List.mem_map_of_mem (List.mem_range.mpr hc))
  · exact (acqSnap_captures hv s).shows _ (List.mem_map_of_mem (List.mem_range.mpr hk))

end Sys2Proof.Machine
end

section
/-! PROOFS. Register accesses from outside: BAR0 and service-port writes, the MSI-X table and the link (R5–R11, R412,
R444–R447). -/

namespace Sys2Proof.Machine

open Host

/-! ### Access errors (R10) -/

theorem Dev.accessErr_accErrCnt (bar off : Nat) (d : Dev) :
    (d.accessErr bar off).host.accErrCnt = satInc d.host.accErrCnt := by
  simp [Dev.accessErr]

theorem Dev.accessErr_stands_event (bar off : Nat) (d : Dev) : (d.accessErr bar off).stands Reg.HOST_EVENT 2 :=
  Dev.grows_irq 63 _ _ _ (Dev.event_stands 2 1 bar off 0 _)

theorem Dev.accessErr_stands_irq (bar off : Nat) (d : Dev) :
    (d.accessErr bar off).stands Reg.HOST_IRQ_STAT_H 0x80000000 := Dev.irq_stands 63 _

/-! ### Writes of BAR0 (R5–R8, R11) -/

theorem registerWrite_partial {off : BitVec 20} {be : BitVec 4} (v : W32) (s : State)
    (h : be.toNat ≠ 15 ∨ off.toNat % 4 ≠ 0) :
    exec (.registerWrite off v be) s = .next (s.after (s.fresh.accessErr 0 off.toNat)) :=
  exec_of_effect rfl (if_pos h)

theorem registerWrite_whole {off : BitVec 20} {v : W32} {s : State} {d : Dev} (h : off.toNat % 4 = 0)
    (hd : s.fresh.regWrite off.toNat v = d) : exec (.registerWrite off v 15) s = .next (s.after d) :=
  exec_of_effect rfl ((if_neg (by simp [h])).trans hd)

theorem Dev.regWrite_fence {off : Nat} (v : W32) (d : Dev) (h : off / 0x10000 = 11) :
    d.regWrite off v = d.onFen fun f => { f with ignCnt := satInc f.ignCnt } := if_pos h

section
variable {off : Nat} (ha : ∀ x ∈ writeActions, x.1 ≠ off)
include ha

theorem find_writeActions : writeActions.find? (fun x => decide (x.1 = off)) = none :=
  List.find?_eq_none.mpr fun x hx => by simpa using ha x hx

variable (hf : off / 0x10000 ≠ 11)
include hf

theorem Dev.regWrite_absent (v : W32) (d : Dev) (hr : regRow off = none) : d.regWrite off v = d := by
  rw [Dev.regWrite, if_neg hf, find_writeActions ha, hr]

theorem Dev.regWrite_present {r : RegRow} (v : W32) (d : Dev) (hr : regRow off = some r) :
    d.regWrite off v = if r.w1c ≠ 0 then d.clearBits off v else if r.rw = 0 then d
      else if off / 0x10000 = 2 then d.writeHost off v else d.storeReg off v := by
  rw [Dev.regWrite, if_neg hf, find_writeActions ha, hr]

theorem Dev.regWrite_readOnly (v : W32) (d : Dev)
    (hr : regRow off = none ∨ ∃ r, regRow off = some r ∧ r.w1c = 0 ∧ r.rw = 0) : d.regWrite off v = d := by
  rcases hr with hr | ⟨r, hr, hw, hrw⟩
  · exact Dev.regWrite_absent ha hf v d hr
  · rw [Dev.regWrite_present ha hf v d hr, if_neg (by simp [hw]), if_pos hrw]

theorem Dev.regWrite_w1c {r : RegRow} (v : W32) (d : Dev) (hr : regRow off = some r) (hw : r.w1c ≠ 0) :
    d.regWrite off v = d.clearBits off v := by
  rw [Dev.regWrite_present ha hf v d hr, if_pos hw]

theorem Dev.regWrite_stored {r : RegRow} (v : W32) (d : Dev) (hr : regRow off = some r) (hw : r.w1c = 0)
    (hrw : r.rw ≠ 0) (h2 : off / 0x10000 ≠ 2) : d.regWrite off v = d.storeReg off v := by
  rw [Dev.regWrite_present ha hf v d hr, if_neg (by simp [hw]), if_neg hrw, if_neg h2]

end

theorem Dev.w1c_clearBits_self (off : Nat) (v : W32) (d : Dev) :
    (d.clearBits off v).w1c off = d.w1c off &&& (~~~v ||| d.w1cRecent off) := SMap.get_set_self ..

theorem Dev.w1c_clearBits_of_ne {off o : Nat} (v : W32) (d : Dev) (h : o ≠ off) :
    (d.clearBits off v).w1c o = d.w1c o := SMap.get_set_of_ne _ _ _ h.symm

theorem Dev.keeps_clearBits (off : Nat) (v : W32) (d : Dev) : Dev.Keeps [.events] d (d.clearBits off v) := by
  refine ⟨fun p hp => ?_⟩
  cases p
  case events => simp at hp
  case reports => exact ⟨rfl, rfl, rfl, rfl⟩
  case commands => exact ⟨rfl, rfl, rfl, rfl, rfl⟩
  all_goals rfl

/-- The staged value of a register replaced (R49). -/
def Dev.stage (off : Nat) (w : W32) (d : Dev) : Dev :=
  { d with regs := { d.regs with staged := d.regs.staged.set (regReset off) off w } }

theorem Dev.storeReg_staged {off : Nat} {r : RegRow} (v : W32) (d : Dev) (hr : regRow off = some r)
    (hs : r.staged = true) : d.storeReg off v = d.stage off (v &&& BitVec.ofNat 32 r.rw) := by
  rw [Dev.storeReg, hr]
  exact if_pos hs

theorem Dev.stagedReg_stage_self (off : Nat) (w : W32) (d : Dev) : (d.stage off w).stagedReg off = w.toNat :=
  congrArg BitVec.toNat (SMap.get_set_self ..)

theorem Dev.stagedReg_stage_of_ne {off o : Nat} (w : W32) (d : Dev) (h : o ≠ off) :
    (d.stage off w).stagedReg o = d.stagedReg o := congrArg BitVec.toNat (SMap.get_set_other _ _ _ _ h.symm)

theorem Dev.keeps_stage (off : Nat) (w : W32) (d : Dev) : Dev.Keeps [.values] d (d.stage off w) := by
  refine ⟨fun p hp => ?_⟩
  cases p
  case values => simp at hp
  case reports => exact ⟨rfl, rfl, rfl, rfl⟩
  case commands => exact ⟨rfl, rfl, rfl, rfl, rfl⟩
  all_goals rfl

section
variable {off : BitVec 20} (v : W32) (s : State) (h4 : off.toNat % 4 = 0)
include h4

theorem registerWrite_fence (hf : off.toNat / 0x10000 = 11) : Answers (.registerWrite off v 15) s fun t =>
    t.dev.fen = { s.dev.fen with ignCnt := satInc s.dev.fen.ignCnt } ∧ ChangesOnly [.fen] s t ∧ Quiet s t :=
  ⟨_, registerWrite_whole h4 (Dev.regWrite_fence v _ hf), rfl, (Dev.keeps_onFen _ _).quietly rfl⟩

theorem registerWrite_w1c (hf : off.toNat / 0x10000 ≠ 11) (ha : ∀ x ∈ writeActions, x.1 ≠ off.toNat) {r : RegRow}
    (hr : regRow off.toNat = some r) (hw : r.w1c ≠ 0) : Answers (.registerWrite off v 15) s fun t =>
      t.dev.w1c off.toNat = s.dev.w1c off.toNat &&& (~~~v ||| s.dev.w1cRecent off.toNat) ∧
      (∀ o, o ≠ off.toNat → t.dev.w1c o = s.dev.w1c o) ∧ ChangesOnly [.events] s t ∧ Quiet s t :=
  ⟨_, registerWrite_whole h4 (Dev.regWrite_w1c ha hf v _ hr hw), Dev.w1c_clearBits_self .., fun _ ho =>
    Dev.w1c_clearBits_of_ne v _ ho, (Dev.keeps_clearBits ..).quietly rfl⟩

theorem registerWrite_staged (hf : off.toNat / 0x10000 ≠ 11) (ha : ∀ x ∈ writeActions, x.1 ≠ off.toNat) {r : RegRow}
    (hr : regRow off.toNat = some r) (hw : r.w1c = 0) (hrw : r.rw ≠ 0) (hs : r.staged = true)
    (h2 : off.toNat / 0x10000 ≠ 2) : Answers (.registerWrite off v 15) s fun t =>
      t.dev.stagedReg off.toNat = (v &&& BitVec.ofNat 32 r.rw).toNat ∧
      (∀ o, o ≠ off.toNat → t.dev.stagedReg o = s.dev.stagedReg o) ∧
      t.dev.regs.active = s.dev.regs.active ∧ t.dev.regs.inForce = s.dev.regs.inForce ∧
      ChangesOnly [.values] s t ∧ Quiet s t :=
  ⟨_, registerWrite_whole h4 ((Dev.regWrite_stored ha hf v _ hr hw hrw h2).trans (Dev.storeReg_staged v _ hr hs)),
    Dev.stagedReg_stage_self .., fun _ ho => Dev.stagedReg_stage_of_ne _ _ ho, rfl, rfl,
    (Dev.keeps_stage ..).quietly rfl⟩

end

/-! ### The service port (R446, R447) -/

/-- A read returns the turnaround byte and the dwords; the error bit stays set, or sets where the port does not reach. -/
theorem Dev.svcRead_eq (off n : Nat) (d : Dev) : d.svcRead off n = d.onHost fun h => { h with
    svcOut := 0 :: ((upto n).flatMap fun i => beBytes 4 (if svcReaches (off + 4 * i) then d.regRead (off + 4 * i) else 0))
    svcErr := h.svcErr || !(svcReaches off && svcReaches (off + 4 * (n - 1))) } := by
  unfold Dev.svcRead
  cases svcReaches off && svcReaches (off + 4 * (n - 1)) <;> simp [Dev.svcFail, Dev.onHost]

theorem svcRead_returns (off : BitVec 24) (n : BitVec 16) (s : State) : Answers (.svcRead off n) s fun t =>
    t.dev.host.svcOut = 0 :: ((upto n.toNat).flatMap fun i =>
      beBytes 4 (if svcReaches (off.toNat + 4 * i) then s.fresh.regRead (off.toNat + 4 * i) else 0)) ∧
    t.dev.host.svcErr = (s.dev.host.svcErr ||
      !(svcReaches off.toNat && svcReaches (off.toNat + 4 * (n.toNat - 1)))) ∧ ChangesOnly [.host] s t ∧ Quiet s t :=
  ⟨_, exec_of_effect rfl (Dev.svcRead_eq ..), rfl, rfl,
    (Dev.keeps_onHost ⟨rfl, rfl, rfl, rfl⟩ ⟨rfl, rfl, rfl, rfl, rfl⟩).quietly rfl⟩

theorem exec_svcWrite_one {off : BitVec 24} {v : W32} {s : State} {d : Dev} (hr : svcReaches off.toNat = true)
    (hd : s.fresh.svcWriteOne off.toNat v = d) : exec (.svcWrite off [v]) s = .next (s.after d) :=
  exec_of_effect rfl ((congrArg (Dev.svcWriteOne off.toNat v) (if_pos hr)).trans hd)

/-- The write is counted as ignored. -/
def Dev.svcIgnore (d : Dev) : Dev := d.onHost fun h => { h with svcIgnCnt := satInc h.svcIgnCnt }

theorem Dev.keeps_svcIgnore (d : Dev) : Dev.Keeps [.host] d d.svcIgnore :=
  Dev.keeps_onHost ⟨rfl, rfl, rfl, rfl⟩ ⟨rfl, rfl, rfl, rfl, rfl⟩

theorem Dev.svcWriteOne_ignored {off : Nat} (v : W32) (d : Dev) (hr : svcReaches off = true)
    (hw : off / 0x10000 = 2 ∨ off / 0x10000 = 15 ∨ off = Reg.SYS_RESET) : d.svcWriteOne off v = d.svcIgnore := by
  have hf : off / 0x10000 ≠ 11 := by
    rcases hw with h | h | rfl
    · omega
    · omega
    · decide
  exact (if_neg (by simp [hr])).trans ((if_pos (by tauto)).trans (if_neg hf))

theorem Dev.svcWriteOne_fence {off : Nat} (v : W32) (d : Dev) (hr : svcReaches off = true)
    (hf : off / 0x10000 = 11) :
    d.svcWriteOne off v = d.svcIgnore.onFen fun f => { f with ignCnt := satInc f.ignCnt } := by
  have hw : d.svcWriteOne off v = d.svcIgnore.regWrite off v :=
    (if_neg (by simp [hr])).trans ((if_pos (.inr (.inl hf))).trans (if_pos hf))
  rw [hw, Dev.regWrite_fence v _ hf]

theorem Dev.svcWriteOne_register {off : Nat} (v : W32) (d : Dev) (hr : svcReaches off = true)
    (h2 : off / 0x10000 ≠ 2) (h11 : off / 0x10000 ≠ 11) (h15 : off / 0x10000 ≠ 15) (hs : off ≠ Reg.SYS_RESET) :
    d.svcWriteOne off v = d.regWrite off v :=
  (if_neg (by simp [hr])).trans (if_neg (by tauto))

section
variable {off : BitVec 24} (v : W32) (s : State)

theorem svcWrite_unreached (hr : svcReaches off.toNat = false) : Answers (.svcWrite off [v]) s fun t =>
    t.dev.host = { s.dev.host with svcErr := true, out := [] } ∧ ChangesOnly [.host] s t := by
  have hd : (if svcReaches off.toNat then s.fresh else s.fresh.svcFail).svcWriteOne off.toNat v =
      s.fresh.onHost fun h => { h with svcErr := true } := by
    rw [if_neg (by simp [hr]), Dev.svcWriteOne, if_pos hr]
    rfl
  exact ⟨_, exec_of_effect rfl hd, rfl, .of_after (Dev.keeps_onHost ⟨rfl, rfl, rfl, rfl⟩ ⟨rfl, rfl, rfl, rfl, rfl⟩)⟩

theorem svcWrite_ignored (hr : svcReaches off.toNat = true)
    (hw : off.toNat / 0x10000 = 2 ∨ off.toNat / 0x10000 = 15 ∨ off.toNat = Reg.SYS_RESET) :
    Answers (.svcWrite off [v]) s fun t => t.dev.host.svcIgnCnt = satInc s.dev.host.svcIgnCnt ∧
      ChangesOnly [.host] s t ∧ Quiet s t :=
  ⟨_, exec_svcWrite_one hr (Dev.svcWriteOne_ignored v _ hr hw), rfl, (Dev.keeps_svcIgnore _).quietly rfl⟩

theorem svcWrite_fence (hr : svcReaches off.toNat = true) (hf : off.toNat / 0x10000 = 11) :
    Answers (.svcWrite off [v]) s fun t => t.dev.host.svcIgnCnt = satInc s.dev.host.svcIgnCnt ∧
      t.dev.fen = { s.dev.fen with ignCnt := satInc s.dev.fen.ignCnt } ∧ ChangesOnly [.fen, .host] s t ∧ Quiet s t :=
  ⟨_, exec_svcWrite_one hr (Dev.svcWriteOne_fence v _ hr hf), rfl, rfl,
    (((Dev.keeps_svcIgnore _).mono (by simp)).andThen (Dev.keeps_onFen _ _) (by simp)).quietly rfl⟩

/-- Outside the windows that it may not write, the service port writes as BAR0 does. -/
theorem svcWrite_eq_registerWrite (hr : svcReaches off.toNat = true) (h2 : off.toNat / 0x10000 ≠ 2)
    (h11 : off.toNat / 0x10000 ≠ 11) (h15 : off.toNat / 0x10000 ≠ 15) (hs : off.toNat ≠ Reg.SYS_RESET) :
    exec (.svcWrite off [v]) s = exec (.registerWrite (off.setWidth 20) v 15) s := by
  have ⟨h4, hlt⟩ : off.toNat % 4 = 0 ∧ off.toNat ≤ 0xFFFFC := of_decide_eq_true hr
  have hoff : (off.setWidth 20).toNat = off.toNat := by
    rw [BitVec.toNat_setWidth]; exact Nat.mod_eq_of_lt (by omega)
  rw [exec_svcWrite_one hr (Dev.svcWriteOne_register v _ hr h2 h11 h15 hs),
    registerWrite_whole (by rw [hoff, h4]) (congrArg (fun o => s.fresh.regWrite o v) hoff)]

end

theorem svcStatus_shows (s : State) : Answers .svcStatus s fun t =>
    t.dev.host.svcOut = [BitVec.ofNat 8 (2 * b2n s.dev.ready + b2n s.dev.host.svcErr)] ∧ t.dev.host.svcErr = false ∧
    ChangesOnly [.host] s t ∧ Quiet s t := by
  refine ⟨_, rfl, ?_, rfl, (Dev.keeps_onHost ⟨rfl, rfl, rfl, rfl⟩ ⟨rfl, rfl, rfl, rfl, rfl⟩).quietly rfl⟩
  have hp : pack [(b2n s.dev.ready, 1), (b2n s.dev.host.svcErr, 0)] =
      2 * b2n s.dev.ready + b2n s.dev.host.svcErr := by simp only [pack]; omega
  rw [← hp]
  rfl

/-! ### MSI-X vectors (R444, R445) -/

theorem Dev.vec_setVec_self (k : Nat) (x : MsixVec) (d : Dev) : (d.setVec k x).vec k = x := SMap.get_set_self ..

theorem Dev.vec_setVec_of_ne {k j : Nat} (x : MsixVec) (d : Dev) (h : k ≠ j) : (d.setVec k x).vec j = d.vec j :=
  SMap.get_set_of_ne _ _ _ h

theorem Dev.vec_sendMsi_of_ne {k j : Nat} (d : Dev) (h : k ≠ j) : (d.sendMsi k).vec j = d.vec j :=
  Dev.vec_setVec_of_ne _ d h

theorem Dev.vec_sendMsi_self (k : Nat) (d : Dev) : (d.sendMsi k).vec k = { d.vec k with
    pending := false
    holdoff := if d.fld (Reg.HOST_MSIX_MOD k) 15 0 = 0 then none
      else some (d.now + d.fld (Reg.HOST_MSIX_MOD k) 15 0 * usTicks) } := SMap.get_set_self ..

theorem Dev.pending_sendMsi (k : Nat) (d : Dev) : ((d.sendMsi k).vec k).pending = false := by
  rw [Dev.vec_sendMsi_self]

theorem Dev.masked_sendMsi (k : Nat) (d : Dev) : ((d.sendMsi k).vec k).masked = (d.vec k).masked := by
  rw [Dev.vec_sendMsi_self]

theorem Dev.out_sendMsi (k : Nat) (d : Dev) :
    (d.sendMsi k).host.out = d.host.out ++ [((d.vec k).addr.toNat, leBytes 4 (d.vec k).data.toNat)] := rfl

/-- Host memory after a row that posts the message of a vector and nothing else. -/
theorem readByte_after_message {s : State} {d : Dev} {x : MsixVec}
    (ho : d.host.out = s.dev.host.out ++ [(x.addr.toNat, leBytes 4 x.data.toNat)]) (h0 : s.dev.host.out = []) :
    (∀ j < 4, (s.after d).readByte (x.addr.toNat + j) = (leBytes 4 x.data.toNat).getD j 0) ∧
    ∀ a, a < x.addr.toNat ∨ x.addr.toNat + 4 ≤ a → (s.after d).readByte a = s.readByte a := by
  have hread := State.after_readByte_of_post (s := s) (show d.host.out = [_] by rw [ho, h0]; rfl)
  have hlen : (leBytes 4 x.data.toNat).length = 4 := rfl
  refine ⟨fun j hj => ?_, fun a ha => ?_⟩
  · rw [hread, hlen, if_pos (by omega), Nat.add_sub_cancel_left]
  · rw [hread, hlen, if_neg (by omega)]

@[simp] theorem State.after_vec (s : State) (d : Dev) (k : Nat) : (s.after d).dev.vec k = d.vec k := rfl

/-- A row that replaces a vector and sends nothing. -/
theorem Answers.of_setVec {i : Instr} {s : State} {k : Nat} {x : MsixVec} {P : MsixVec → Prop}
    (h : exec i s = .next (s.after (s.fresh.setVec k x))) (hp : P x) :
    Answers i s fun t => P (t.dev.vec k) ∧ ChangesOnly [.reports] s t ∧ Quiet s t :=
  ⟨_, h, (Dev.vec_setVec_self k x _).symm ▸ hp, (Dev.keeps_setVec ..).quietly rfl⟩

/-- A row that replaces a vector and sends its message. -/
theorem Answers.of_sendMsi {i : Instr} {s : State} {k : Nat} {x : MsixVec}
    (h : exec i s = .next (s.after ((s.fresh.setVec k x).sendMsi k))) :
    Answers i s fun t => (t.dev.vec k).pending = false ∧ (t.dev.vec k).masked = x.masked ∧
      ChangesOnly [.reports] s t ∧ (s.dev.host.out = [] →
        (∀ j < 4, t.readByte (x.addr.toNat + j) = (leBytes 4 x.data.toNat).getD j 0) ∧
        ∀ a, a < x.addr.toNat ∨ x.addr.toNat + 4 ≤ a → t.readByte a = s.readByte a) := by
  refine ⟨_, h, ?_, ?_, .of_after ((Dev.keeps_setVec k x _).andThen (Dev.keeps_sendMsi ..) (by simp)),
    readByte_after_message ?_⟩
  · rw [State.after_vec, Dev.pending_sendMsi]
  · rw [State.after_vec, Dev.masked_sendMsi, Dev.vec_setVec_self]
  · rw [Dev.out_sendMsi, Dev.vec_setVec_self]
    rfl

/-- The messages of several vectors, in order. -/
def Dev.sendAll (ks : List Nat) (d : Dev) : Dev := ks.foldl (fun d k => d.sendMsi k) d

theorem Dev.vec_sendAll_of_notMem {ks : List Nat} {k : Nat} (h : k ∉ ks) (d : Dev) :
    (d.sendAll ks).vec k = d.vec k := by
  induction ks generalizing d with
  | nil => rfl
  | cons j rest ih =>
    rw [List.mem_cons, not_or] at h
    exact (ih h.2 _).trans (Dev.vec_sendMsi_of_ne d (Ne.symm h.1))

theorem Dev.pending_sendAll {ks : List Nat} {k : Nat} (h : k ∈ ks) (d : Dev) :
    ((d.sendAll ks).vec k).pending = false := by
  induction ks generalizing d with
  | nil => exact absurd h List.not_mem_nil
  | cons j rest ih =>
    by_cases hk : k ∈ rest
    · exact ih hk _
    · obtain rfl : k = j := (List.mem_cons.mp h).resolve_right hk
      exact (congrArg MsixVec.pending (Dev.vec_sendAll_of_notMem hk _)).trans (d.pending_sendMsi k)

theorem Dev.pcie_sendAll (ks : List Nat) (d : Dev) : (d.sendAll ks).host.pcie = d.host.pcie := by
  induction ks generalizing d with
  | nil => rfl
  | cons j rest ih => exact ih (d.sendMsi j)

theorem Dev.keeps_sendAll (ks : List Nat) (d : Dev) : Dev.Keeps [.reports] d (d.sendAll ks) :=
  Dev.Keeps.foldl (fun d k => d.keeps_sendMsi k) ks (.refl _ d)

/-! ### The MSI-X table (R411, R444) -/

section
variable {k : Nat} (hk : k < 64) (v : W32) (d : Dev)
include hk

theorem Dev.msixWrite_addrLow : d.msixWrite (16 * k) v =
    d.setVec k { d.vec k with addr := (d.vec k).addr.extractLsb' 32 32 ++ v } := by
  rw [Dev.msixWrite, if_neg (by omega)]
  simp [show 16 * k / 16 = k by omega]

theorem Dev.msixWrite_addrHigh : d.msixWrite (16 * k + 4) v =
    d.setVec k { d.vec k with addr := v ++ (d.vec k).addr.extractLsb' 0 32 } := by
  rw [Dev.msixWrite, if_neg (by omega)]
  simp [show (16 * k + 4) / 16 = k by omega, show (16 * k + 4) % 16 = 4 by omega]

theorem Dev.msixWrite_data : d.msixWrite (16 * k + 8) v = d.setVec k { d.vec k with data := v } := by
  rw [Dev.msixWrite, if_neg (by omega)]
  simp [show (16 * k + 8) / 16 = k by omega, show (16 * k + 8) % 16 = 8 by omega]

theorem Dev.msixWrite_mask : d.msixWrite (16 * k + 12) v =
    if (d.vec k).pending && !v.getLsbD 0 && (d.vec k).holdoff.isNone && !d.msixOff then
      (d.setVec k { d.vec k with masked := v.getLsbD 0 }).sendMsi k
    else d.setVec k { d.vec k with masked := v.getLsbD 0 } := by
  rw [Dev.msixWrite, if_neg (by omega)]
  simp only [show (16 * k + 12) / 16 = k by omega, show (16 * k + 12) % 16 = 12 by omega]
  rfl

end

theorem toNat_low_replaced (a : BitVec 64) (v : W32) :
    (a.extractLsb' 32 32 ++ v).toNat = a.toNat / 2 ^ 32 * 2 ^ 32 + v.toNat := by
  rw [BitVec.toNat_append, ← Nat.shiftLeft_add_eq_or_of_lt v.isLt, BitVec.extractLsb'_toNat, Nat.shiftLeft_eq,
    Nat.shiftRight_eq_div_pow, Nat.mod_eq_of_lt (by omega)]

theorem toNat_high_replaced (a : BitVec 64) (v : W32) :
    (v ++ a.extractLsb' 0 32).toNat = a.toNat % 2 ^ 32 + v.toNat * 2 ^ 32 := by
  rw [BitVec.toNat_append, ← Nat.shiftLeft_add_eq_or_of_lt (BitVec.isLt _), BitVec.extractLsb'_toNat, Nat.shiftLeft_eq,
    Nat.shiftRight_zero, Nat.add_comm]

section
variable {off : BitVec 13} (v : W32) (s : State)

theorem exec_msixTableWrite {d : Dev} {o : Nat} (ho : off.toNat = o) (hd : s.fresh.msixWrite o v = d) :
    exec (.msixTableWrite (.bar4 off) v) s = .next (s.after d) :=
  exec_of_effect (f := Dev.msixWrite off.toNat v) rfl (by rw [ho, hd])

theorem msixTableWrite_outside (h : 0x400 ≤ off.toNat ∨ off.toNat % 4 ≠ 0) :
    exec (.msixTableWrite (.bar4 off) v) s = .next (s.after s.fresh) := exec_msixTableWrite v s rfl (if_pos h)

variable {k : Nat} (hk : k < 64)
include hk

theorem msixTableWrite_addrLow (ho : off.toNat = 16 * k) : Answers (.msixTableWrite (.bar4 off) v) s fun t =>
    (t.dev.vec k).addr.toNat = (s.dev.vec k).addr.toNat / 2 ^ 32 * 2 ^ 32 + v.toNat ∧
      ChangesOnly [.reports] s t ∧ Quiet s t :=
  Answers.of_setVec (P := fun x => x.addr.toNat = _) (exec_msixTableWrite v s ho (Dev.msixWrite_addrLow hk v _))
    (toNat_low_replaced ..)

theorem msixTableWrite_addrHigh (ho : off.toNat = 16 * k + 4) : Answers (.msixTableWrite (.bar4 off) v) s fun t =>
    (t.dev.vec k).addr.toNat = (s.dev.vec k).addr.toNat % 2 ^ 32 + v.toNat * 2 ^ 32 ∧
      ChangesOnly [.reports] s t ∧ Quiet s t :=
  Answers.of_setVec (P := fun x => x.addr.toNat = _) (exec_msixTableWrite v s ho (Dev.msixWrite_addrHigh hk v _))
    (toNat_high_replaced ..)

theorem msixTableWrite_data (ho : off.toNat = 16 * k + 8) : Answers (.msixTableWrite (.bar4 off) v) s fun t =>
    t.dev.vec k = { s.dev.vec k with data := v } ∧ ChangesOnly [.reports] s t ∧ Quiet s t :=
  Answers.of_setVec (P := (· = _)) (exec_msixTableWrite v s ho (Dev.msixWrite_data hk v _)) rfl

/-- A write of the mask that sends nothing: the vector is not pending, is masked, waits for its holdoff, or no vector may
send. -/
theorem msixTableWrite_mask_quiet (ho : off.toNat = 16 * k + 12)
    (hq : ((s.dev.vec k).pending && !v.getLsbD 0 && (s.dev.vec k).holdoff.isNone && !s.dev.msixOff) = false) :
    Answers (.msixTableWrite (.bar4 off) v) s fun t =>
      t.dev.vec k = { s.dev.vec k with masked := v.getLsbD 0 } ∧ ChangesOnly [.reports] s t ∧ Quiet s t :=
  Answers.of_setVec (P := (· = _))
    (exec_msixTableWrite v s ho ((Dev.msixWrite_mask hk v _).trans (if_neg (Bool.eq_false_iff.mp hq)))) rfl

/-- An unmasking that sends the message of a pending vector. -/
theorem msixTableWrite_unmask_sends (ho : off.toNat = 16 * k + 12) (hp : (s.dev.vec k).pending = true)
    (hv : v.getLsbD 0 = false) (hh : (s.dev.vec k).holdoff = none) (hoff : s.dev.msixOff = false) :
    Answers (.msixTableWrite (.bar4 off) v) s fun t => (t.dev.vec k).pending = false ∧ (t.dev.vec k).masked = false ∧
      ChangesOnly [.reports] s t ∧ (s.dev.host.out = [] → ∀ j < 4,
        t.readByte ((s.dev.vec k).addr.toNat + j) = (leBytes 4 (s.dev.vec k).data.toNat).getD j 0) := by
  have hsend : ((s.dev.vec k).pending && !v.getLsbD 0 && (s.dev.vec k).holdoff.isNone && !s.dev.msixOff) = true := by
    rw [hp, hv, hh, hoff]; rfl
  obtain ⟨t, ht, hpend, hmask, hkeep, hmem⟩ := Answers.of_sendMsi
    (exec_msixTableWrite v s ho ((Dev.msixWrite_mask hk v _).trans (if_pos hsend)))
  exact ⟨t, ht, hpend, hmask.trans hv, hkeep, fun h0 => (hmem h0).1⟩

end

/-! ### Message Control (R444) -/

/-- Enable and Function Mask as they are written. -/
def Dev.setMsixControl (enable mask : Bool) (d : Dev) : Dev :=
  d.onHost fun h => { h with pcie := { h.pcie with msixEn := enable, msixMask := mask } }

theorem Dev.keeps_setMsixControl (enable mask : Bool) (d : Dev) :
    Dev.Keeps [.host] d (d.setMsixControl enable mask) :=
  Dev.keeps_onHost ⟨rfl, rfl, rfl, rfl⟩ ⟨rfl, rfl, rfl, rfl, rfl⟩

/-- The vectors that are pending and held back by nothing of their own. -/
def Dev.sendable (d : Dev) : List Nat :=
  (upto 64).filter fun k => (d.vec k).pending && !(d.vec k).masked && (d.vec k).holdoff.isNone

theorem Dev.mem_sendable {k : Nat} {d : Dev} : k ∈ d.sendable ↔ k < 64 ∧ (d.vec k).pending = true ∧
    (d.vec k).masked = false ∧ (d.vec k).holdoff = none := by
  simp [Dev.sendable, upto, and_assoc]

theorem Dev.msixControl_off {enable mask : Bool} (d : Dev) (h : enable = false ∨ mask = true) :
    d.msixControl enable mask = d.setMsixControl enable mask :=
  if_pos (show (!enable || mask) = true by simpa using h)

theorem Dev.msixControl_on (d : Dev) : d.msixControl true false =
    (d.setMsixControl true false).sendAll d.sendable := rfl

theorem msixTableWrite_control (v : W32) (s : State) : Answers (.msixTableWrite .control v) s fun t =>
    t.dev.host.pcie = { s.dev.host.pcie with msixEn := v.getLsbD 31, msixMask := v.getLsbD 30 } ∧
    (v.getLsbD 31 = false ∨ v.getLsbD 30 = true → ChangesOnly [.host] s t ∧ Quiet s t) ∧
    (v.getLsbD 31 = true → v.getLsbD 30 = false → ChangesOnly [.reports, .host] s t ∧ ∀ k < 64,
      ((s.dev.vec k).pending = true → (s.dev.vec k).masked = false → (s.dev.vec k).holdoff = none →
        (t.dev.vec k).pending = false) ∧
      ((s.dev.vec k).pending = false ∨ (s.dev.vec k).masked = true ∨ (s.dev.vec k).holdoff ≠ none →
        t.dev.vec k = s.dev.vec k)) := by
  have hrow : exec (.msixTableWrite .control v) s =
      .next (s.run (Dev.msixControl (v.getLsbD 31) (v.getLsbD 30))) := rfl
  by_cases hc : v.getLsbD 31 = true ∧ v.getLsbD 30 = false
  · obtain ⟨he, hm⟩ := hc
    rw [he, hm] at hrow ⊢
    refine ⟨_, exec_of_effect hrow (Dev.msixControl_on _), ?_, by simp, fun _ _ => ⟨?_, fun k hk => ⟨?_, ?_⟩⟩⟩
    · exact Dev.pcie_sendAll ..
    · exact .of_after (((Dev.keeps_setMsixControl ..).mono (by simp)).andThen (Dev.keeps_sendAll ..) (by simp))
    · exact fun hp hu hh => Dev.pending_sendAll (Dev.mem_sendable.mpr ⟨hk, hp, hu, hh⟩) _
    · refine fun hn => Dev.vec_sendAll_of_notMem (fun hmem => ?_) _
      obtain ⟨-, hp, hu, hh⟩ := Dev.mem_sendable.mp hmem
      have hn' : (s.fresh.vec k).pending = false ∨ (s.fresh.vec k).masked = true ∨ (s.fresh.vec k).holdoff ≠ none := hn
      simp [hp, hu, hh] at hn'
  · have hoff : v.getLsbD 31 = false ∨ v.getLsbD 30 = true := by
      simpa [imp_iff_not_or] using hc
    exact ⟨_, exec_of_effect hrow (Dev.msixControl_off _ hoff), rfl,
      fun _ => (Dev.keeps_setMsixControl ..).quietly rfl, fun he hm => absurd ⟨he, hm⟩ hc⟩

/-! ### The end of a holdoff (R445) -/

section
variable {v : Fin 64} {s : State}

theorem exec_holdoffEnd {d : Dev} (hd : s.fresh.holdoffEnd v.val = d) :
    exec (.holdoffEnd v) s = .next (s.after d) := exec_of_effect rfl hd

theorem holdoffEnd_idle (h : (s.dev.vec v.val).holdoff = none) :
    exec (.holdoffEnd v) s = .next (s.after s.fresh) := by
  have h' : (s.fresh.vec v.val).holdoff = none := h
  exact exec_holdoffEnd (by rw [Dev.holdoffEnd, h'])

/-- A holdoff that has a time to end: before it nothing, then one message if the vector is pending and may send. -/
theorem Dev.holdoffEnd_some {k e : Nat} {d : Dev} (h : (d.vec k).holdoff = some e) :
    d.holdoffEnd k = if d.now < e then d
      else if (d.vec k).pending && !(d.vec k).masked && !d.msixOff then
        (d.setVec k { d.vec k with holdoff := none }).sendMsi k
      else d.setVec k { d.vec k with holdoff := none } := by
  rw [Dev.holdoffEnd, h]
  rfl

variable {e : Nat} (he : (s.dev.vec v.val).holdoff = some e)
include he

theorem holdoffEnd_early (hn : s.dev.now < e) : exec (.holdoffEnd v) s = .next (s.after s.fresh) :=
  exec_holdoffEnd ((Dev.holdoffEnd_some (d := s.fresh) he).trans (if_pos hn))

theorem holdoffEnd_quiet (hn : e ≤ s.dev.now)
    (hq : (s.dev.vec v.val).pending = false ∨ (s.dev.vec v.val).masked = true ∨ s.dev.msixOff = true) :
    Answers (.holdoffEnd v) s fun t => t.dev.vec v.val = { s.dev.vec v.val with holdoff := none } ∧
      ChangesOnly [.reports] s t ∧ Quiet s t := by
  have hidle : ¬ ((s.dev.vec v.val).pending && !(s.dev.vec v.val).masked && !s.dev.msixOff) = true := by
    rcases hq with h | h | h <;> simp [h]
  exact Answers.of_setVec (P := (· = _)) (exec_holdoffEnd
    ((Dev.holdoffEnd_some (d := s.fresh) he).trans ((if_neg (Nat.not_lt.mpr hn)).trans (if_neg hidle)))) rfl

theorem holdoffEnd_sends (hn : e ≤ s.dev.now) (hp : (s.dev.vec v.val).pending = true)
    (hm : (s.dev.vec v.val).masked = false) (hoff : s.dev.msixOff = false) :
    Answers (.holdoffEnd v) s fun t => (t.dev.vec v.val).pending = false ∧ ChangesOnly [.reports] s t ∧
      (s.dev.host.out = [] →
        (∀ j < 4, t.readByte ((s.dev.vec v.val).addr.toNat + j) = (leBytes 4 (s.dev.vec v.val).data.toNat).getD j 0) ∧
        ∀ a, a < (s.dev.vec v.val).addr.toNat ∨ (s.dev.vec v.val).addr.toNat + 4 ≤ a →
          t.readByte a = s.readByte a) := by
  have hsend : ((s.dev.vec v.val).pending && !(s.dev.vec v.val).masked && !s.dev.msixOff) = true := by
    simp [hp, hm, hoff]
  obtain ⟨t, ht, hpend, -, hkeep, hmem⟩ := Answers.of_sendMsi (exec_holdoffEnd
    ((Dev.holdoffEnd_some (d := s.fresh) he).trans ((if_neg (Nat.not_lt.mpr hn)).trans (if_pos hsend))))
  exact ⟨t, ht, hpend, hkeep, hmem⟩

end

/-! ### The link (R409, R412) -/

theorem get_outsideHost (m : SMap W32) (x : W32) (o : Nat) :
    (outsideHost m).get x o = if o / 0x10000 = 2 ∧ o ≠ Reg.HOST_WD then x else m.get x o := by
  have hl := SMap.lookup_filter (fun o => decide (o / 0x10000 ≠ 2 ∨ o = Reg.HOST_WD)) m.cells o
  rw [SMap.get, outsideHost, hl]
  by_cases ho : o / 0x10000 = 2 ∧ o ≠ Reg.HOST_WD
  · simp [ho]
  · have hp : o / 0x10000 ≠ 2 ∨ o = Reg.HOST_WD := by tauto
    rw [if_neg ho, if_pos (decide_eq_true hp)]
    rfl

theorem Dev.cfg_hostReset (lost : Bool) (d : Dev) (o : Nat) : (d.hostReset lost).cfg o =
    if o / 0x10000 = 2 ∧ o ≠ Reg.HOST_WD then (regReset o).toNat else d.cfg o :=
  (congrArg BitVec.toNat (get_outsideHost ..)).trans (apply_ite ..)

/-- The commands in progress stay, and each loses its completion. -/
theorem Dev.inflight_hostReset (lost : Bool) (d : Dev) :
    (d.hostReset lost).host.inflight = d.host.inflight.map fun f => { f with lost := true } := rfl

theorem Dev.keeps_hostReset (lost : Bool) (d : Dev) :
    Dev.Keeps [.values, .snaps, .events, .reports, .commands, .host] d (d.hostReset lost) := by
  refine ⟨fun p hp => ?_⟩
  cases p
  case values | snaps | events | reports | commands | host => simp at hp
  all_goals rfl

theorem hostReset_resets (lost : Bool) (s : State) : Answers (.hostReset lost) s fun t =>
    (∀ o, t.dev.cfg o = (if o / 0x10000 = 2 ∧ o ≠ Reg.HOST_WD then (regReset o).toNat else s.dev.cfg o)) ∧
    (∀ r < 32, t.dev.ring r = Ring.reset) ∧ (∀ v < 64, t.dev.vec v = MsixVec.reset) ∧
    (∀ f ∈ t.dev.host.inflight, f.lost = true) ∧ t.dev.host.inflight.length = s.dev.host.inflight.length ∧
    t.dev.host.wdStart = s.dev.host.wdStart ∧ t.dev.host.wdExpired = s.dev.host.wdExpired ∧
    t.dev.host.linkUp = (!lost && s.dev.host.linkUp) ∧
    t.dev.host.pcie = { ConfigSpace.reset with aerCnt := s.dev.host.pcie.aerCnt } ∧
    ChangesOnly [.values, .snaps, .events, .reports, .commands, .host] s t ∧ Quiet s t := by
  refine ⟨_, exec_of_effect rfl rfl, Dev.cfg_hostReset lost s.fresh, fun _ _ => rfl, fun _ _ => rfl, ?_, ?_, rfl, rfl,
    rfl, rfl, (Dev.keeps_hostReset ..).quietly rfl⟩
  · simp [Dev.inflight_hostReset]
  · simp [Dev.inflight_hostReset]

theorem dataLinkUp_records {sp : Fin 4} {l : LinkSetup} (s : State) (hs : sp.val ≠ 0)
    (hw : l.width.val = 1 ∨ l.width.val = 2 ∨ l.width.val = 4) : Answers (.dataLinkUp sp l) s fun t =>
      t.dev.host.linkUp = true ∧ t.dev.host.speed = sp.val ∧ t.dev.host.width = l.width.val ∧
      t.dev.host.pcie = { s.dev.host.pcie with payload := l.payload.val, readReq := l.readReq.val } ∧
      ChangesOnly [.host] s t ∧ Quiet s t :=
  ⟨_, if_pos (decide_eq_true ⟨hs, hw⟩), rfl, rfl, rfl, rfl,
    (Dev.keeps_onHost ⟨rfl, rfl, rfl, rfl⟩ ⟨rfl, rfl, rfl, rfl, rfl⟩).quietly rfl⟩

/-! ### The statement -/

/-- Settles O45: each clause is one of the rows above; a write of the mask that sends nothing serves two of them. -/
theorem registerAccessesTakeEffect : Obligations.RegisterAccessesTakeEffect := by
  refine ⟨fun bar off d => ⟨d.accessErr_accErrCnt bar off, d.accessErr_stands_event bar off,
      d.accessErr_stands_irq bar off, d.keeps_accessErr bar off⟩,
    fun off v be s h => registerWrite_partial v s h,
    fun off v s h4 => ⟨registerWrite_fence v s h4, fun hf ha => ⟨?_, ?_, ?_⟩⟩,
    svcRead_returns, fun off v s => ⟨svcWrite_unreached v s, svcWrite_ignored v s, svcWrite_fence v s,
      svcWrite_eq_registerWrite v s⟩, svcStatus_shows, fun off v s => ⟨msixTableWrite_outside v s, fun k hk => ?_⟩,
    msixTableWrite_control, fun v s => ⟨holdoffEnd_idle, fun e he => ⟨holdoffEnd_early he, holdoffEnd_quiet he,
      holdoffEnd_sends he⟩⟩, hostReset_resets, fun sp l s => dataLinkUp_records s⟩
  · exact fun r hr hw => registerWrite_w1c v s h4 hf ha hr hw
  · exact fun r hr hw hrw hs h2 => registerWrite_staged v s h4 hf ha hr hw hrw hs h2
  · exact fun hr => registerWrite_whole h4 (Dev.regWrite_readOnly ha hf v _ hr)
  · refine ⟨msixTableWrite_addrLow v s hk, msixTableWrite_addrHigh v s hk, msixTableWrite_data v s hk, fun ho hq => ?_,
      fun ho hp hv hh => ⟨fun hoff => ?_, msixTableWrite_unmask_sends v s hk ho hp hv hh⟩⟩
    · exact msixTableWrite_mask_quiet v s hk ho (by rcases hq with h | h <;> simp [h])
    · rw [← hv]
      exact msixTableWrite_mask_quiet v s hk ho (by simp [hoff])

end Sys2Proof.Machine
end

section
namespace Sys2Proof.Machine
open Host

theorem Dev.keeps_setAunit (u : Nat) (v : AcqUnit) (d : Dev) : Dev.Keeps [.acq] d (d.setAunit u v) := d.keeps_onAcq _

theorem Dev.aunit_setAunit_self (u : Nat) (v : AcqUnit) (d : Dev) : (d.setAunit u v).aunit u = v := SMap.get_set_self ..

/-- Settles O9: the row's condition decides between noting the firing and leaving the device as it is. -/
theorem angleStampFiresOncePerRevolution : Obligations.AngleStampFiresOncePerRevolution := by
  refine fun u s => ⟨fun ha hf hu ht hr hc => ?_, fun h => ?_⟩
  · have hd : s.fresh.angleStamp u.val =
        s.fresh.setAunit u.val { s.dev.aunit u.val with pending := true, lastRev := some s.dev.ang.rev } :=
      if_pos (by simp_all [State.fresh, Dev.unitOn, Dev.flag, Dev.cfg, Dev.fld, Dev.aunit])
    exact ⟨_, exec_of_effect rfl hd, Dev.aunit_setAunit_self .., (Dev.keeps_setAunit ..).quietly rfl⟩
  · have hidle : s.fresh.angleStamp u.val = s.fresh :=
      if_neg (by rcases h with h | h <;> simp_all [State.fresh, Dev.aunit])
    exact exec_of_effect rfl hidle

end Sys2Proof.Machine
end

section
/-! PROOFS. What the operations of the model touch: for each of them, the parts of the device that it may change. -/

namespace Sys2Proof.Machine

open Host

/-! ### The rule and how it composes -/

/-- Only the parts named are touched. Whatever they are, W1C bits that stand go on standing (R5), the stroke in progress and
the tick stay, and so does a mirrored timebase that waits to be loaded (R365). -/
structure Dev.Touches (ps : List Part) (a b : Dev) : Prop where
  keeps : Dev.Keeps ps a b
  grows : a.Grows b
  cur : a.ang.cur = b.ang.cur
  tick : a.ang.tick = b.ang.tick
  loadTb : a.twn.loadTb = b.twn.loadTb

namespace Dev.Touches

variable {ps qs : List Part} {a d e : Dev}

theorem refl : Dev.Touches [] d d := ⟨.refl _ _, .refl _, rfl, rfl, rfl⟩

theorem mono (h : Dev.Touches qs a d) (hs : ∀ p ∈ qs, p ∈ ps) : Dev.Touches ps a d :=
  ⟨h.keeps.mono hs, h.grows, h.cur, h.tick, h.loadTb⟩

/-- One operation after another touches what either touches. -/
theorem andThen (h : Dev.Touches ps a d) (h' : Dev.Touches qs d e) : Dev.Touches (ps ++ qs) a e :=
  ⟨(h.keeps.mono (List.subset_append_left ps qs)).andThen h'.keeps (List.subset_append_right ps qs),
    h.grows.trans h'.grows, h.cur.trans h'.cur, h.tick.trans h'.tick, h.loadTb.trans h'.loadTb⟩

theorem ite {c : Prop} [Decidable c] (hd : Dev.Touches ps a d) (he : Dev.Touches qs a e) :
    Dev.Touches (ps ++ qs) a (if c then d else e) := by
  split
  · exact hd.mono (List.subset_append_left ps qs)
  · exact he.mono (List.subset_append_right ps qs)

theorem foldl {α : Type} {f : Dev → α → Dev} (hf : ∀ d x, Dev.Touches ps d (f d x)) (l : List α) (d : Dev) :
    Dev.Touches ps d (l.foldl f d) := by
  induction l generalizing d with
  | nil => exact refl.mono (by simp)
  | cons x rest ih => exact ((hf d x).andThen (ih _)).mono (by simp)

/-- An operation that keeps the angle timebase and the twin, and W1C bits that stand. -/
theorem of_grows (h : Dev.Keeps ps a d) (hg : a.Grows d) (hp : .ang ∉ ps ∧ .twn ∉ ps) :
    Dev.Touches ps a d := by
  obtain ⟨hang, htwn⟩ := hp
  have ang : a.ang = d.ang := h.same .ang hang
  have twn : { a.twn with sent := [] } = { d.twn with sent := [] } := h.same .twn htwn
  exact ⟨h, hg, congrArg AngState.cur ang, congrArg AngState.tick ang, (congrArg TwnState.loadTb twn :)⟩

theorem of_keeps (h : Dev.Keeps ps a d) (hp : .events ∉ ps ∧ .ang ∉ ps ∧ .twn ∉ ps) :
    Dev.Touches ps a d := .of_grows h (.of_events (h.same .events hp.1).symm) hp.2

theorem same (h : Dev.Touches ps a d) (p : Part) (hp : p ∉ ps) : p.same a d := h.keeps.same p hp

end Dev.Touches

/-! ### Updates of one block -/

section
variable (d : Dev)

theorem Dev.touches_onGfm (f : GfmState → GfmState) : Dev.Touches [.gfm] d (d.onGfm f) :=
  .of_keeps (d.keeps_onGfm f) (by decide)
theorem Dev.touches_onProf (f : ProfState → ProfState) : Dev.Touches [.prof] d (d.onProf f) :=
  .of_keeps (d.keeps_onProf f) (by decide)
theorem Dev.touches_onLoop (f : LoopState → LoopState) : Dev.Touches [.loop] d (d.onLoop f) :=
  .of_keeps (d.keeps_onLoop f) (by decide)
theorem Dev.touches_onSup (f : SupState → SupState) : Dev.Touches [.sup] d (d.onSup f) :=
  .of_keeps (d.keeps_onSup f) (by decide)
theorem Dev.touches_onMod (f : ModState → ModState) : Dev.Touches [.mod] d (d.onMod f) :=
  .of_keeps (d.keeps_onMod f) (by decide)
theorem Dev.touches_onPwm (f : PwmState → PwmState) : Dev.Touches [.pwm] d (d.onPwm f) :=
  .of_keeps (d.keeps_onPwm f) (by decide)
theorem Dev.touches_onPen (f : PenState → PenState) : Dev.Touches [.pen] d (d.onPen f) :=
  .of_keeps (d.keeps_onPen f) (by decide)
theorem Dev.touches_onPnt (f : PntState → PntState) : Dev.Touches [.pnt] d (d.onPnt f) :=
  .of_keeps (d.keeps_onPnt f) (by decide)
theorem Dev.touches_onAdc (f : AdcState → AdcState) : Dev.Touches [.adc] d (d.onAdc f) :=
  .of_keeps (d.keeps_onAdc f) (by decide)
theorem Dev.touches_onAcq (f : AcqState → AcqState) : Dev.Touches [.acq] d (d.onAcq f) :=
  .of_keeps (d.keeps_onAcq f) (by decide)
theorem Dev.touches_onClk (f : ClkState → ClkState) : Dev.Touches [.clk] d (d.onClk f) :=
  .of_keeps (d.keeps_onClk f) (by decide)
theorem Dev.touches_onFen (f : FenState → FenState) : Dev.Touches [.fen] d (d.onFen f) :=
  .of_keeps (d.keeps_onFen f) (by decide)
theorem Dev.touches_onSec (f : SecState → SecState) : Dev.Touches [.sec] d (d.onSec f) :=
  .of_keeps (d.keeps_onSec f) (by decide)
theorem Dev.touches_onAux (f : AuxState → AuxState) : Dev.Touches [.aux] d (d.onAux f) :=
  .of_keeps (d.keeps_onAux f) (by decide)
theorem Dev.touches_onLrd (f : LrdState → LrdState) : Dev.Touches [.lrd] d (d.onLrd f) :=
  .of_keeps (d.keeps_onLrd f) (by decide)
theorem Dev.touches_onSys (f : SysState → SysState) : Dev.Touches [.sys] d (d.onSys f) :=
  .of_keeps (d.keeps_onSys f) (by decide)

theorem Dev.touches_onTwn {f : TwnState → TwnState} (h : d.twn.loadTb = (f d.twn).loadTb) :
    Dev.Touches [.twn] d (d.onTwn f) := ⟨d.keeps_onTwn f, .of_events rfl, rfl, rfl, h⟩

theorem Dev.touches_onAng {f : AngState → AngState} (hc : d.ang.cur = (f d.ang).cur)
    (ht : d.ang.tick = (f d.ang).tick) : Dev.Touches [.ang] d (d.onAng f) :=
  ⟨d.keeps_onAng f, .of_events rfl, hc, ht, rfl⟩

theorem Dev.touches_lrd (l : LrdState) : Dev.Touches [.lrd] d { d with lrd := l } := d.touches_onLrd fun _ => l

theorem Dev.touches_setForce (off : Nat) (v : W32) : Dev.Touches [.values] d (d.setForce off v) :=
  .of_keeps (d.keeps_setForce off v) (by decide)

/-! ### Reports and completions -/

theorem Dev.touches_event (blk bit d0 d1 d2 : Nat) : Dev.Touches [.events, .reports] d (d.event blk bit d0 d1 d2) :=
  .of_grows (Dev.keeps_event _ _ _ _ _ d) (Dev.grows_event _ _ _ _ _ d) (by decide)

theorem Dev.touches_irq (n : Nat) : Dev.Touches [.events, .reports] d (d.irq n) :=
  .of_grows (Dev.keeps_irq n d) (Dev.grows_irq n d) (by decide)

theorem Dev.touches_putDesc (r src : Nat) (bs : List Byte) : Dev.Touches [.events, .reports] d (d.putDesc r src bs) :=
  .of_grows (Dev.keeps_putDesc r src bs d) (Dev.grows_putDesc r src bs d) (by decide)

theorem Dev.touches_setBit (off bit : Nat) : Dev.Touches [.events] d (d.setBit off bit) :=
  .of_grows (Dev.keeps_setBit off bit d) (Dev.grows_setBit off bit d) (by decide)

end

end Sys2Proof.Machine
end

section
namespace Sys2Proof.Machine
open Host

/-! ### Disturbance capture -/

section
variable (d : Dev)

theorem Dev.touches_setAset (k : Nat) (v : AcqSet) : Dev.Touches [.acq] d (d.setAset k v) := d.touches_onAcq _

theorem Dev.touches_startFilling (k : Nat) : Dev.Touches [.acq] d (d.startFilling k) := d.touches_setAset ..

theorem Dev.touches_closeRecord (k : Nat) (r : AcqRecord) : Dev.Touches [.acq] d (d.closeRecord k r) := by
  unfold Dev.closeRecord
  extract_lets x d1
  have h1 : Dev.Touches [.acq] d d1 := Dev.touches_setAset ..
  exact .mono (.ite h1 (.ite (h1.andThen (Dev.touches_setAset ..))
    (.ite (h1.andThen (Dev.touches_startFilling ..)) (h1.andThen (Dev.touches_setAset ..))))) (by decide)

theorem Dev.touches_startRecord (k mask : Nat) (smp : AcqSample) :
    Dev.Touches [.acq, .events, .reports] d (d.startRecord k mask smp) := by
  unfold Dev.startRecord
  extract_lets x pre r d1
  have h1 : Dev.Touches _ d d1 := ((Dev.touches_setAset ..).andThen (Dev.touches_event ..)).andThen (Dev.touches_irq ..)
  exact .mono (.ite (h1.andThen (Dev.touches_closeRecord ..)) h1) (by decide)

theorem Dev.touches_missTriggers (k : Nat) (ts : List (Nat × Nat)) (smp : AcqSample) :
    Dev.Touches [.acq, .events, .reports] d (d.missTriggers k ts smp) := by
  unfold Dev.missTriggers
  dsimp only
  split
  · exact .mono .refl (by decide)
  · exact .mono (.ite .refl ((Dev.touches_setAset ..).andThen (Dev.touches_event ..))) (by decide)

theorem Dev.touches_postSample (k : Nat) (smp : AcqSample) : Dev.Touches [.acq] d (d.postSample k smp) := by
  unfold Dev.postSample
  split
  · exact .mono .refl (by decide)
  · exact .mono (.ite ((Dev.touches_setAset ..).andThen (Dev.touches_closeRecord ..)) (Dev.touches_setAset ..)) (by decide)

theorem Dev.touches_acqStore (k : Nat) (smp : AcqSample) :
    Dev.Touches [.acq, .events, .reports] d (d.acqStore k smp) := by
  unfold Dev.acqStore
  extract_lets x fallen mask d1 fill
  have hd1 : Dev.Touches [.acq, .events, .reports] d d1 := (Dev.touches_setAset ..).mono (by decide)
  have hfill (e : Dev) : Dev.Touches [.acq, .events, .reports] e (fill e) :=
    .mono (.ite (Dev.touches_startRecord ..) (Dev.touches_setAset ..)) (by decide)
  split
  · exact hd1
  · exact .mono (hd1.andThen (hfill _)) (by decide)
  · exact .mono (hd1.andThen (hfill _)) (by decide)
  · exact .mono ((hd1.andThen (Dev.touches_missTriggers ..)).andThen (Dev.touches_postSample ..)) (by decide)
  · exact .mono (.ite ((hd1.andThen (Dev.touches_startFilling ..)).andThen (hfill _))
      (.ite ((hd1.andThen (Dev.touches_setAset ..)).andThen (Dev.touches_event ..)) hd1)) (by decide)

theorem Dev.touches_acqAgain (k : Nat) (later : List AcqSample) :
    Dev.Touches [.acq, .events, .reports] d (d.acqAgain k later) := .foldl (fun d s => d.touches_acqStore k s) _ _

theorem Dev.touches_retake (k bit t : Nat) (rs : List AcqRecord) (live : List AcqSample) :
    Dev.Touches [.acq, .events, .reports] d (d.retake k bit t rs live) := by
  unfold Dev.retake
  split
  · exact .mono .refl (by decide)
  · exact .mono (.andThen (Dev.touches_setAset ..) (Dev.touches_acqAgain ..)) (by decide)

theorem Dev.touches_reopen (k bit t : Nat) (rs : List AcqRecord) :
    Dev.Touches [.acq, .events, .reports] d (d.reopen k bit t rs) := by
  unfold Dev.reopen
  dsimp only
  split
  · exact .mono .refl (by decide)
  · exact .mono (.ite (.andThen (.andThen (Dev.touches_setAset ..) (Dev.touches_retake ..)) (Dev.touches_setAset ..))
      (.andThen (Dev.touches_setAset ..) (Dev.touches_retake ..))) (by decide)

theorem Dev.touches_closedTrigger (k bit t : Nat) (rs : List AcqRecord) :
    Dev.Touches [.acq, .events, .reports] d (d.closedTrigger k bit t rs) := by
  unfold Dev.closedTrigger
  dsimp only
  split
  · exact .mono .refl (by decide)
  · refine .mono (.ite (Dev.touches_reopen ..) (.ite (ps := [.acq, .events, .reports])
      (qs := [.acq, .events, .reports]) ?_ ?_)) (by decide)
    · exact .mono (.andThen (.andThen (Dev.touches_setAset ..) (Dev.touches_event ..)) (Dev.touches_irq ..)) (by decide)
    · split
      · exact .mono .refl (by decide)
      · exact .mono (.andThen (Dev.touches_setAset ..) (Dev.touches_event ..)) (by decide)

theorem Dev.touches_acqTrigger (k bit t : Nat) : Dev.Touches [.acq, .events, .reports] d (d.acqTrigger k bit t) := by
  unfold Dev.acqTrigger
  dsimp only
  have again (v : AcqSet) (l : List AcqSample) : Dev.Touches [.acq, .events, .reports] d ((d.setAset k v).acqAgain k l) :=
    .mono (.andThen (Dev.touches_setAset ..) (Dev.touches_acqAgain ..)) (by decide)
  split
  · exact Dev.touches_closedTrigger ..
  · split
    · exact .mono .refl (by decide)
    · exact (Dev.touches_setAset ..).mono (by decide)
    · split
      · exact .mono .refl (by decide)
      · refine .mono (.ite (Dev.touches_retake ..) (.ite (ps := [.acq, .events, .reports])
          (qs := [.acq, .events, .reports]) ?_ ?_)) (by decide)
        · exact .mono (.andThen (.andThen (Dev.touches_setAset ..) (Dev.touches_event ..)) (Dev.touches_irq ..)) (by decide)
        · split
          · exact Dev.touches_missTriggers ..
          · exact (Dev.touches_setAset ..).mono (by decide)
    · exact again ..
    · exact again ..

theorem Dev.touches_fireUnit (u t : Nat) : Dev.Touches [.acq, .events, .reports] d (d.fireUnit u t) :=
  .foldl (fun _ _ => .ite (Dev.touches_acqTrigger ..) .refl) _ _

theorem Dev.touches_setAunit (u : Nat) (v : AcqUnit) : Dev.Touches [.acq] d (d.setAunit u v) := d.touches_onAcq _

theorem Dev.touches_evalUnit (u : Nat) (v : Int) (t : Nat) :
    Dev.Touches [.acq, .events, .reports] d (d.evalUnit u v t) := by
  unfold Dev.evalUnit
  dsimp only
  exact .mono (.ite (.andThen (Dev.touches_setAunit ..) (Dev.touches_fireUnit ..)) (Dev.touches_setAunit ..)) (by decide)

theorem Dev.touches_acqBase (k : Nat) (smp : Dev → AcqSample) :
    Dev.Touches [.acq, .events, .reports] d (d.acqBase k smp) := by
  unfold Dev.acqBase
  exact .mono (.ite .refl (.ite (.andThen (Dev.touches_setAset ..) (Dev.touches_acqStore ..)) (Dev.touches_setAset ..)))
    (by decide)

theorem Dev.touches_acqGrid : Dev.Touches [.acq, .events, .reports] d d.acqGrid := by
  unfold Dev.acqGrid
  exact .mono (.andThen (.foldl (fun _ _ => .ite (Dev.touches_evalUnit ..) .refl) _ _)
    (.foldl (fun _ _ => .ite (Dev.touches_acqBase ..) .refl) _ _)) (by decide)

end

end Sys2Proof.Machine
end

section
namespace Sys2Proof.Machine
open Host

/-! ### Completions -/

section
variable (d : Dev)

theorem Dev.touches_completeAs (ring slot tag op status bytes : Nat) (res : List Nat) :
    Dev.Touches [.commands, .events, .reports] d (d.completeAs ring slot tag op status bytes res) := by
  refine .of_grows (Dev.keeps_completeAs ..) ?_ (by decide)
  unfold Dev.completeAs
  extract_lets err own lost dropped _ d1 _ d2
  have h2 : d1.Grows d2 := by
    unfold d2
    split
    · exact .refl _
    · split
      · refine .trans ?_ (Dev.touches_event ..).grows
        exact .of_events rfl
      · exact (Dev.touches_putDesc ..).grows
  have h : d.Grows d2 := .trans (.of_events rfl) h2
  split
  · exact h.trans (Dev.touches_irq ..).grows
  · exact h

theorem Dev.touches_badOpcodes : Dev.Touches [.commands, .events, .reports] d d.badOpcodes :=
  .foldl (fun _ _ => .mono (.ite .refl (Dev.touches_completeAs ..)) (by decide)) _ _

/-! ### Records of the Larder -/

theorem Dev.touches_dueRecord (seq : Nat) (body : List Byte) : Dev.Touches [.lrd] d (d.dueRecord seq body) :=
  d.touches_lrd _

theorem Dev.touches_record (typ flags : Nat) (data : List Byte) : Dev.Touches [.lrd] d (d.record typ flags data) :=
  d.touches_dueRecord ..

theorem Dev.touches_putRecord (seq : Nat) (body : List Byte) :
    Dev.Touches [.lrd, .events, .reports] d (d.putRecord seq body) :=
  .andThen (d.touches_lrd _) (Dev.touches_event ..)

theorem Dev.touches_writeRecord (x : Nat × List Byte) :
    Dev.Touches [.lrd, .events, .reports] d (d.writeRecord x) := by
  unfold Dev.writeRecord
  extract_lets _ q d1
  have h1 : Dev.Touches _ d d1 := d.touches_lrd _
  exact .mono (.ite (d.touches_lrd _) (.ite (h1.andThen (Dev.touches_lrd ..)) (h1.andThen (Dev.touches_putRecord ..))))
    (by decide)

theorem Dev.touches_flushRecords : Dev.Touches [.lrd, .events, .reports] d d.flushRecords :=
  .mono (.andThen (d.touches_lrd _) (.foldl (fun d x => d.touches_writeRecord x) _ _)) (by decide)

theorem Dev.touches_writeWaiting : Dev.Touches [.lrd, .events, .reports] d d.writeWaiting :=
  .mono (.ite .refl (.andThen (d.touches_lrd _) (.foldl (fun d x => d.touches_writeRecord x) _ _))) (by decide)

/-! ### Sensing -/

theorem Dev.touches_setSar (c : Nat) (v : SarChan) : Dev.Touches [.adc] d (d.setSar c v) := d.touches_onAdc _

theorem Dev.touches_setSd (c : Nat) (v : SdChan) : Dev.Touches [.adc] d (d.setSd c v) := d.touches_onAdc _

theorem Dev.touches_clip (e : Nat) : Dev.Touches [.adc, .events, .reports] d (d.clip e) :=
  .andThen (d.touches_onAdc _) (Dev.touches_event ..)

theorem Dev.touches_evalSinc3 (c : Nat) : Dev.Touches [.adc, .events, .reports] d (d.evalSinc3 c) := by
  unfold Dev.evalSinc3
  extract_lets x raw k d1
  have h1 : Dev.Touches _ d d1 := Dev.touches_setSd ..
  exact .mono (.ite (h1.andThen (Dev.touches_clip ..)) h1) (by decide)

theorem Dev.touches_evalSinc2 (c : Nat) : Dev.Touches [.adc] d (d.evalSinc2 c) := by
  unfold Dev.evalSinc2
  extract_lets x d1 out
  have h1 : Dev.Touches _ d d1 := Dev.touches_setSd ..
  exact .mono (.ite h1 (h1.andThen (Dev.touches_setSd ..))) (by decide)

theorem Dev.touches_sdChannelTick (c : Nat) (level edge : Bool) :
    Dev.Touches [.adc, .events, .reports] d (d.sdChannelTick c level edge) := by
  unfold Dev.sdChannelTick
  extract_lets x y active z d1
  have h1 : Dev.Touches _ d d1 := (Dev.touches_setSd ..).andThen (Dev.touches_evalSinc2 ..)
  exact .mono (.ite (Dev.touches_setSd ..) (.ite (h1.andThen (Dev.touches_evalSinc3 ..)) h1)) (by decide)

theorem Dev.touches_clkTick (g : Nat) (level : Bool) : Dev.Touches [.adc] d (d.clkTick g level) :=
  .ite .refl (d.touches_onAdc _)

theorem Dev.touches_sdTick (levels : BitVec 32) (clk : BitVec 4) :
    Dev.Touches [.adc, .events, .reports] d (d.sdTick levels clk) := by
  unfold Dev.sdTick
  refine .mono (.andThen (.foldl (fun d g => d.touches_clkTick g _) _ _)
    (.foldl (fun _ _ => .ite (.foldl (fun _ _ => .ite (Dev.touches_sdChannelTick ..) .refl) _ _) .refl) _ _)) (by decide)

theorem Dev.touches_sarPoint : Dev.Touches [.adc] d d.sarPoint :=
  .foldl (fun _ _ => .ite (Dev.touches_setSar ..) .refl) _ _

/-! ### Clocks, pins, endpoints and the twin link -/

theorem Dev.touches_notePins (pins : TickPins) : Dev.Touches [.sys, .pwm, .acq] d (d.notePins pins) := by
  unfold Dev.notePins
  exact .andThen (.andThen (d.touches_onSys _) (Dev.touches_onPwm ..)) (Dev.touches_onAcq ..)

theorem Dev.touches_noteLocks (locks : BitVec 2) : Dev.Touches [.twn] d (d.noteLocks locks) := d.touches_onTwn rfl

theorem Dev.touches_clkOutTick : Dev.Touches [.clk] d d.clkOutTick := by
  unfold Dev.clkOutTick
  exact d.touches_onClk _

theorem Dev.touches_endpointsTick : Dev.Touches [.pen] d d.endpointsTick := d.touches_onPen _

theorem Dev.touches_clockLockEnd : Dev.Touches [.sec] d d.clockLockEnd := .ite (d.touches_onSec _) .refl

theorem Dev.touches_clkMove : Dev.Touches [.clk, .sec] d d.clkMove :=
  .ite (.andThen (d.touches_onClk _) (Dev.touches_clockLockEnd ..)) .refl

theorem Dev.touches_sendLen (p : TwinPacket) (len : Nat) : Dev.Touches [.twn] d (d.sendLen p len) :=
  .ite .refl (d.touches_onTwn rfl)

theorem Dev.touches_send (p : TwinPacket) : Dev.Touches [.twn] d (d.send p) := d.touches_sendLen ..

theorem Dev.touches_sendTime : Dev.Touches [.twn] d d.sendTime :=
  .mono (.ite .refl (.andThen (Dev.touches_send ..) (Dev.touches_onTwn _ rfl))) (by decide)

end

end Sys2Proof.Machine
end

section
/-! PROOFS. The records that are due at the end of a tick (R508, R509, R513). -/

namespace Sys2Proof.Machine

open Host

/-- A numbered record as its line holds it, with its CRC-32 (R509). -/
def recordLine (seq : Nat) (body : List Byte) : List Byte :=
  leBytes 4 seq ++ body ++ leBytes 4 (crc32 (leBytes 4 seq ++ body)).toNat

/-- The Larder after a due record has taken its number and its line, or waits, in a boot phase (R508, R515). -/
def larderWrite (phase : Nat) (l : LrdState) (x : Nat × List Byte) : LrdState :=
  let q := if x.1 = 0 then l.head + 1 else x.1
  if phase < 3 then { l with waiting := l.waiting ++ [x] }
  else if l.halt then { l with head := max l.head q, waiting := l.waiting ++ [(q, x.2)] }
  else { l with head := max l.head q, lines := l.lines.set [] ((q - 1) % recordLines) (recordLine q x.2) }

theorem larderWrite_due (phase : Nat) (l : LrdState) (x : Nat × List Byte) : (larderWrite phase l x).due = l.due := by
  unfold larderWrite
  dsimp only
  split
  · rfl
  · split <;> rfl

section
variable (d : Dev)

theorem Dev.writeRecord_lrd (x : Nat × List Byte) : (d.writeRecord x).lrd = larderWrite d.sec.phase d.lrd x := by
  unfold Dev.writeRecord larderWrite
  dsimp only
  split
  · rfl
  · split
    · rfl
    · exact Dev.event_lrd ..

theorem Dev.foldl_writeRecord_lrd (xs : List (Nat × List Byte)) :
    (xs.foldl (fun d x => d.writeRecord x) d).lrd = xs.foldl (larderWrite d.sec.phase) d.lrd := by
  induction xs generalizing d with
  | nil => rfl
  | cons x rest ih =>
    have hsec : d.sec = (d.writeRecord x).sec := (d.touches_writeRecord x).same .sec (by decide)
    rw [List.foldl_cons, List.foldl_cons, ih, Dev.writeRecord_lrd, ← hsec]

theorem Dev.flushRecords_lrd :
    d.flushRecords.lrd = d.lrd.due.foldl (larderWrite d.sec.phase) { d.lrd with due := [] } :=
  Dev.foldl_writeRecord_lrd ..

theorem foldl_larderWrite_due (phase : Nat) (l : LrdState) (xs : List (Nat × List Byte)) :
    (xs.foldl (larderWrite phase) l).due = l.due := by
  induction xs generalizing l with
  | nil => rfl
  | cons x rest ih => rw [List.foldl_cons, ih, larderWrite_due]

theorem Dev.flushRecords_due : d.flushRecords.lrd.due = [] := by
  rw [Dev.flushRecords_lrd, foldl_larderWrite_due]

variable {d}

theorem Dev.flushRecords_of_none (h : d.lrd.due = []) : d.flushRecords = d := by
  have hl : { d.lrd with due := [] } = d.lrd := by rw [← h]
  unfold Dev.flushRecords
  rw [h, hl]
  rfl

section
variable {body : List Byte} (hdue : d.lrd.due = [(0, body)]) (hhalt : d.lrd.halt = false) (hphase : 3 ≤ d.sec.phase)
include hdue hhalt hphase

/-- A single record that is due takes the number after the newest one. -/
theorem Dev.flushRecords_lrd_of_one : d.flushRecords.lrd = { d.lrd with
    due := [], head := d.lrd.head + 1
    lines := d.lrd.lines.set [] (d.lrd.head % recordLines) (recordLine (d.lrd.head + 1) body) } := by
  rw [Dev.flushRecords_lrd, hdue]
  simp [larderWrite, hhalt, Nat.not_lt.mpr hphase]

theorem Dev.flushRecords_stands_of_one : d.flushRecords.stands Reg.LRD_EVENT 1 := by
  unfold Dev.flushRecords
  rw [hdue]
  have hwrite (e : Dev) (hh : e.lrd.halt = false) (hp : 3 ≤ e.sec.phase) :
      (e.writeRecord (0, body)).stands Reg.LRD_EVENT 1 := by
    unfold Dev.writeRecord
    simp only [Nat.not_lt.mpr hp, hh, if_false]
    exact Dev.event_stands 18 0 _ _ _ _
  exact hwrite _ hhalt hphase

end
end

end Sys2Proof.Machine
end

section
/-! PROOFS. Ticks (R29, R37, R340, R343). -/

namespace Sys2Proof.Machine

open Host

/-- The angle timebase one tick later (R29). -/
def turnRotor (a : AngState) : AngState := { a with
  tick := a.tick + 1, prevAcc := a.acc, acc := if a.cur.angle then a.acc + BitVec.ofNat 64 a.cur.fw else a.acc }

/-- What the pins and the converters bring in a tick. -/
def Dev.tickInputs (pins : TickPins) (d : Dev) : Dev :=
  let d := ((d.notePins pins).noteLocks pins.lock).sdTick pins.sd pins.clk
  if decide (d.adc.gridTick < d.now ∧ (d.now - d.adc.gridTick) % 200 = 0 ∧ d.now ≤ d.adc.gridEnd) then
    d.sarPoint.acqGrid
  else d

/-- What the clock outputs, the twin link and the endpoints do in a tick. -/
def Dev.tickOutputs (d : Dev) : Dev := d.clkOutTick.sendTime.endpointsTick

section
variable (pins : TickPins) (d : Dev)

theorem Dev.oneTick_eq : d.oneTick pins =
    ((d.flushRecords.badOpcodes.onAng turnRotor).clkMove.tickInputs pins).tickOutputs := rfl

theorem Dev.touches_tickInputs :
    Dev.Touches [.sys, .pwm, .acq, .twn, .adc, .events, .reports] d (d.tickInputs pins) := by
  unfold Dev.tickInputs
  extract_lets d1
  have h1 : Dev.Touches _ d d1 :=
    .andThen (.andThen (d.touches_notePins pins) (Dev.touches_noteLocks ..)) (Dev.touches_sdTick ..)
  exact .mono (.ite ((h1.andThen (Dev.touches_sarPoint ..)).andThen (Dev.touches_acqGrid ..)) h1) (by decide)

theorem Dev.touches_tickOutputs : Dev.Touches [.clk, .twn, .pen] d d.tickOutputs :=
  .andThen (.andThen d.touches_clkOutTick (Dev.touches_sendTime ..)) (Dev.touches_endpointsTick ..)

/-- What follows the turn of the rotor touches nothing of ANG, and no record. -/
theorem Dev.touches_afterTurn : Dev.Touches
    [.clk, .sec, .sys, .pwm, .acq, .twn, .adc, .pen, .events, .reports] d (d.clkMove.tickInputs pins).tickOutputs :=
  .mono (.andThen (.andThen d.touches_clkMove (Dev.touches_tickInputs ..)) (Dev.touches_tickOutputs ..)) (by decide)

theorem Dev.touches_beforeTurn : Dev.Touches [.lrd, .commands, .events, .reports] d d.flushRecords.badOpcodes :=
  .mono (.andThen d.touches_flushRecords (Dev.touches_badOpcodes ..)) (by decide)

theorem Dev.oneTick_ang : (d.oneTick pins).ang = turnRotor d.ang := by
  have hend : d.ang = d.flushRecords.badOpcodes.ang := d.touches_beforeTurn.same .ang (by decide)
  rw [Dev.oneTick_eq, ← ((Dev.touches_afterTurn pins _).same .ang (by decide) :), hend]
  rfl

theorem Dev.oneTick_now : (d.oneTick pins).now = d.now + 1 := congrArg AngState.tick (d.oneTick_ang pins)

theorem Dev.oneTick_lrd : (d.oneTick pins).lrd = d.flushRecords.lrd := by
  have hcmd : d.flushRecords.lrd = d.flushRecords.badOpcodes.lrd := (Dev.touches_badOpcodes _).same .lrd (by decide)
  rw [hcmd]
  exact ((Dev.touches_afterTurn pins _).same .lrd (by decide)).symm

theorem Dev.oneTick_grows : d.flushRecords.Grows (d.oneTick pins) := by
  rw [Dev.oneTick_eq]
  have hturn (e : Dev) : e.Grows (e.onAng turnRotor) := .of_events rfl
  exact (Dev.touches_badOpcodes _).grows.trans ((hturn _).trans (Dev.touches_afterTurn pins _).grows)

theorem Dev.keeps_oneTick : Dev.Keeps
    [.ang, .clk, .sec, .sys, .pwm, .acq, .twn, .adc, .pen, .lrd, .commands, .events, .reports] d (d.oneTick pins) := by
  rw [Dev.oneTick_eq]
  exact .andThen (.andThen (d.touches_beforeTurn.keeps.mono (by decide)) (Dev.keeps_onAng turnRotor _) (by decide))
    (Dev.touches_afterTurn pins _).keeps (by decide)

/-- Of the clock, the outputs run on. -/
theorem Dev.tickOutputs_clk : ∃ outs : _, d.tickOutputs.clk = { d.clk with outs := outs } := by
  have hrest : Dev.Touches [.twn, .pen] d.clkOutTick d.tickOutputs :=
    .andThen (Dev.touches_sendTime _) (Dev.touches_endpointsTick ..)
  exact ⟨_, (hrest.same .clk (by decide)).symm.trans rfl⟩

/-- The clock a tick later: but for its outputs, what a completed lock has made of it (R340). -/
theorem Dev.oneTick_clk : ∃ (e : Dev) (outs : _), e.clk = d.clk ∧ e.now = d.now + 1 ∧
    (d.oneTick pins).clk = { e.clkMove.clk with outs := outs } := by
  obtain ⟨outs, hout⟩ := ((d.flushRecords.badOpcodes.onAng turnRotor).clkMove.tickInputs pins).tickOutputs_clk
  have hin : (d.flushRecords.badOpcodes.onAng turnRotor).clkMove.clk = _ := (Dev.touches_tickInputs pins _).same .clk (by decide)
  refine ⟨d.flushRecords.badOpcodes.onAng turnRotor, outs, (d.touches_beforeTurn.same .clk (by decide)).symm,
    congrArg (· + 1) d.touches_beforeTurn.tick.symm, ?_⟩
  rw [Dev.oneTick_eq, hout, hin]

variable {d}

theorem Dev.clkMove_of_pll (h : d.clk.fallback = false) : d.clkMove = d := if_neg (by simp [h])

theorem Dev.clkMove_fallback_of_locked (hs : d.clk.state = .locked) (ht : d.clk.lockTick + 256 ≤ d.now) :
    d.clkMove.clk.fallback = false := by
  unfold Dev.clkMove
  split
  · exact congrArg ClkState.fallback ((Dev.touches_clockLockEnd _).same .clk (by decide)).symm
  · rename_i h
    simpa [hs, ht] using h

theorem Dev.oneTick_sec_of_pll (h : d.clk.fallback = false) : (d.oneTick pins).sec = d.sec := by
  have hbefore : d.clk = (d.flushRecords.badOpcodes.onAng turnRotor).clk := d.touches_beforeTurn.same .clk (by decide)
  have hafter : Dev.Touches ([.sys, .pwm, .acq, .twn, .adc, .events, .reports] ++ [.clk, .twn, .pen])
      (d.flushRecords.badOpcodes.onAng turnRotor) (d.oneTick pins) := by
    rw [Dev.oneTick_eq, Dev.clkMove_of_pll (hbefore ▸ h)]
    exact .andThen (Dev.touches_tickInputs ..) (Dev.touches_tickOutputs _)
  exact (hafter.same .sec (by decide)).symm.trans (d.touches_beforeTurn.same .sec (by decide)).symm

theorem Dev.oneTick_fallback_of_locked (hs : d.clk.state = .locked) (ht : d.clk.lockTick + 256 ≤ d.now + 1) :
    (d.oneTick pins).clk.fallback = false := by
  obtain ⟨e, outs, hclk, hnow, h⟩ := d.oneTick_clk pins
  rw [h]
  exact Dev.clkMove_fallback_of_locked (hclk ▸ hs) (by rw [hclk, hnow]; exact ht)

/-- State and tick of a lock stay. -/
theorem Dev.clkMove_lock : d.clkMove.clk.state = d.clk.state ∧ d.clkMove.clk.lockTick = d.clk.lockTick := by
  unfold Dev.clkMove
  split
  · have hclk : { d.clk with fallback := false } = (Dev.clockLockEnd _).clk :=
      (Dev.touches_clockLockEnd (d.onClk fun c => { c with fallback := false })).same .clk (by decide)
    rw [← hclk]
    exact ⟨rfl, rfl⟩
  · exact ⟨rfl, rfl⟩

theorem Dev.oneTick_lock :
    (d.oneTick pins).clk.state = d.clk.state ∧ (d.oneTick pins).clk.lockTick = d.clk.lockTick := by
  obtain ⟨e, outs, hclk, -, h⟩ := d.oneTick_clk pins
  rw [h, ← hclk]
  exact Dev.clkMove_lock

end

/-! ### The row: one tick, or four on the fallback oscillator -/

section
variable (pins : TickPins) {d : Dev}

theorem Dev.tick_of_pll (h : d.clk.fallback = false) : d.tick pins = d.oneTick pins := by
  unfold Dev.tick Dev.cycle
  rw [h]
  rfl

theorem Dev.tick_of_fallback (h : d.clk.fallback = true) :
    d.tick pins = (((d.oneTick pins).oneTick pins).oneTick pins).oneTick pins := by
  unfold Dev.tick Dev.cycle
  rw [h]
  rfl

/-- On the fallback oscillator (R343), which ends 256 ticks after a lock was declared (R340). -/
theorem Dev.tick_ang_of_fallback (h : d.clk.fallback = true) :
    (d.tick pins).ang.tick = d.ang.tick + 4 ∧ (d.tick pins).ang.cur = d.ang.cur ∧ (d.tick pins).ang.jobs = d.ang.jobs ∧
      (d.clk.state = .locked → d.clk.lockTick + 256 ≤ d.now + 4 → (d.tick pins).clk.fallback = false) := by
  rw [Dev.tick_of_fallback pins h]
  have hang : ((((d.oneTick pins).oneTick pins).oneTick pins).oneTick pins).ang =
      turnRotor (turnRotor (turnRotor (turnRotor d.ang))) := by simp only [Dev.oneTick_ang]
  rw [hang]
  refine ⟨rfl, rfl, rfl, fun hs ht => Dev.oneTick_fallback_of_locked pins ?_ ?_⟩
  · simp only [Dev.oneTick_lock, hs]
  · simp only [Dev.oneTick_lock, Dev.oneTick_now]
    omega

theorem Dev.oneTick_due : (d.oneTick pins).lrd.due = [] := by rw [Dev.oneTick_lrd, Dev.flushRecords_due]

theorem Dev.oneTick_lrd_of_none (h : d.lrd.due = []) : (d.oneTick pins).lrd = d.lrd := by
  rw [Dev.oneTick_lrd, Dev.flushRecords_of_none h]

theorem Dev.oneTick_grows_of_none (h : d.lrd.due = []) : d.Grows (d.oneTick pins) := by
  have hg := d.oneTick_grows pins
  rwa [Dev.flushRecords_of_none h] at hg

/-- The records that are due are written once, whatever the clock. -/
theorem Dev.tick_flushes : (d.tick pins).lrd = d.flushRecords.lrd ∧ d.flushRecords.Grows (d.tick pins) := by
  cases h : d.clk.fallback with
  | false =>
    rw [Dev.tick_of_pll pins h]
    exact ⟨d.oneTick_lrd pins, d.oneTick_grows pins⟩
  | true =>
    rw [Dev.tick_of_fallback pins h]
    have hnone (e : Dev) : (e.oneTick pins).lrd.due = [] := Dev.oneTick_due pins
    refine ⟨?_, ?_⟩
    · rw [Dev.oneTick_lrd_of_none pins (hnone _), Dev.oneTick_lrd_of_none pins (hnone _),
        Dev.oneTick_lrd_of_none pins (hnone _), Dev.oneTick_lrd]
    · exact (((d.oneTick_grows pins).trans (Dev.oneTick_grows_of_none pins (hnone _))).trans
        (Dev.oneTick_grows_of_none pins (hnone _))).trans (Dev.oneTick_grows_of_none pins (hnone _))

theorem Dev.keeps_tick : Dev.Keeps
    [.ang, .clk, .sec, .sys, .pwm, .acq, .twn, .adc, .pen, .lrd, .commands, .events, .reports] d (d.tick pins) :=
  .foldl (fun d _ => d.keeps_oneTick pins) _ (.refl _ _)

end

/-- Settles O6: the clauses are read off one tick, which comes once on the system PLL and four times on the fallback oscillator. -/
theorem tickAdvancesRotor : Obligations.TickAdvancesRotor := by
  intro pins s
  obtain ⟨hkeeps, -⟩ : ChangesOnly _ s (s.after (s.fresh.tick pins)) := .of_after (Dev.keeps_tick pins)
  obtain ⟨hlrd, hgrows⟩ := Dev.tick_flushes pins (d := s.fresh)
  refine ⟨_, rfl, fun h => ?_, fun h => ?_, fun body hdue hhalt hphase => ?_, fun p hp => ?_, fun hdue => ?_,
    fun h => ?_, rfl⟩
  · have hang : (s.fresh.tick pins).ang = turnRotor s.fresh.ang := by
      rw [Dev.tick_of_pll pins (d := s.fresh) h, Dev.oneTick_ang]
    exact hang
  · exact Dev.tick_ang_of_fallback pins (d := s.fresh) h
  · have hlines : (s.fresh.tick pins).lrd = _ :=
      hlrd.trans (Dev.flushRecords_lrd_of_one (d := s.fresh) hdue hhalt hphase)
    have hstands : (s.fresh.tick pins).stands Reg.LRD_EVENT 1 :=
      hgrows _ _ (Dev.flushRecords_stands_of_one (d := s.fresh) hdue hhalt hphase)
    exact ⟨congrArg LrdState.head hlines, congrArg LrdState.due hlines, hstands,
      (congrArg (fun l => LrdState.lines l |>.get [] (s.dev.lrd.head % recordLines)) hlines).trans (SMap.get_set_self ..)⟩
  · exact hkeeps.same p (by revert p; decide)
  · have hsame : (s.fresh.tick pins).lrd = s.fresh.lrd := by
      rw [hlrd, Dev.flushRecords_of_none (d := s.fresh) hdue]
    exact hsame.symm
  · have hsame : (s.fresh.tick pins).sec = s.fresh.sec := by
      rw [Dev.tick_of_pll pins (d := s.fresh) h, Dev.oneTick_sec_of_pll pins (d := s.fresh) h]
    exact hsame.symm

end Sys2Proof.Machine
end

section
namespace Sys2Proof.Machine
open Host

/-! ### Pairs, strings and submodules -/

section
variable (d : Dev)

theorem Dev.touches_setPair (p : Nat) (v : PwmPair) : Dev.Touches [.pwm] d (d.setPair p v) := d.touches_onPwm _

theorem Dev.touches_startBlanks (p edges : Nat) : Dev.Touches [.pwm] d (d.startBlanks p edges) := d.touches_onPwm _

theorem Dev.touches_setOut (p a b : Nat) : Dev.Touches [.pwm] d (d.setOut p a b) :=
  .mono (.andThen (d.touches_setPair p _) (Dev.touches_startBlanks ..)) (by decide)

theorem Dev.touches_pairSafe (p : Nat) : Dev.Touches [.pwm] d (d.pairSafe p) :=
  .mono (.andThen (d.touches_setOut p _ _) (Dev.touches_setPair ..)) (by decide)

theorem Dev.touches_holdPairs : Dev.Touches [.pwm] d d.holdPairs :=
  .foldl (fun _ _ => .ite (Dev.touches_pairSafe ..) .refl) _ _

theorem Dev.touches_latchPairs (n : Nat) : Dev.Touches [.pwm] d (d.latchPairs n) := by
  have hlatch (e : Dev) (p : Nat) (v : PwmPair) : Dev.Touches [.pwm] e
      (if ((e.setPair p v).pair p).safe then e.setPair p v else (e.setPair p v).pairSafe p) :=
    .mono (.ite (e.touches_setPair p v) ((e.touches_setPair p v).andThen (Dev.touches_pairSafe ..))) (by decide)
  exact .foldl (fun _ _ => .mono (.ite (hlatch ..) .refl) (by decide)) _ _

theorem Dev.touches_clearLatches : Dev.Touches [.pwm] d d.clearLatches :=
  .foldl (fun _ _ => .ite (Dev.touches_setPair ..) .refl) _ _

theorem Dev.touches_pwmShow : Dev.Touches [.pwm] d d.pwmShow := d.touches_onPwm _

theorem Dev.touches_pwmApplied (old : Dev) : Dev.Touches [.pwm] d (Dev.pwmApplied old d) := by
  unfold Dev.pwmApplied
  exact .mono (.andThen (d.touches_onPwm _) (.foldl (fun _ _ => .ite (Dev.touches_setPair ..)
    (.ite (Dev.touches_setPair ..) .refl)) _ _)) (by decide)

theorem Dev.touches_setStr (n : Nat) (v : PenString) : Dev.Touches [.pen] d (d.setStr n v) := d.touches_onPen _

theorem Dev.touches_setLane (l : Nat) (v : Lane) : Dev.Touches [.pen] d (d.setLane l v) := d.touches_onPen _

theorem Dev.touches_setSubm (k : Nat) (v : Subm) : Dev.Touches [.mod] d (d.setSubm k v) := d.touches_onMod _

theorem Dev.touches_insertSets (l t : Nat) (cs : List LineChar) : Dev.Touches [.pen] d (d.insertSets l t cs) :=
  .ite .refl (Dev.touches_setLane ..)

theorem Dev.touches_insertCopies (s : OrderedSet) (l : Nat) : Dev.Touches [.pen] d (d.insertCopies s l) := by
  unfold Dev.insertCopies
  extract_lets busy d1
  have h1 : Dev.Touches _ d d1 := Dev.touches_insertSets ..
  exact .mono (.ite (h1.andThen (Dev.touches_setLane ..)) h1) (by decide)

theorem Dev.touches_blockString (n : Nat) : Dev.Touches [.pen] d (d.blockString n) := by
  unfold Dev.blockString
  exact .mono (.andThen (d.touches_setStr n _) (.foldl (fun d l => d.touches_insertCopies _ l) _ _)) (by decide)

theorem Dev.touches_blockStrings : Dev.Touches [.pen] d d.blockStrings :=
  .foldl (fun d n => d.touches_blockString n) _ _

theorem Dev.touches_blockAll : Dev.Touches [.sup, .pen, .pwm] d d.blockAll := by
  unfold Dev.blockAll
  exact .andThen (.andThen (d.touches_onSup _) (Dev.touches_blockStrings _)) (Dev.touches_holdPairs _)

end

/-! ### Trips -/

/-- What a trip that takes effect touches. -/
def tripParts : List Part := [.gfm, .prof, .sup, .pwm, .pen, .acq, .twn, .lrd, .events, .reports]

section
variable (d : Dev)

theorem Dev.touches_acqTrip : Dev.Touches [.acq, .events, .reports] d d.acqTrip :=
  .foldl (fun _ _ => .mono (.ite (Dev.touches_acqTrigger ..) .refl) (by decide)) _ _

theorem Dev.touches_openTrip (cls : TripClass) (cause : Nat) (details : List Nat) (active : Nat) :
    Dev.Touches [.lrd] d (d.openTrip cls cause details active) := d.touches_lrd _

theorem Dev.touches_addCause (cls : TripClass) (cause : Nat) : Dev.Touches [.lrd] d (d.addCause cls cause) := by
  unfold Dev.addCause
  dsimp only
  split
  · exact Dev.touches_record ..
  · exact .mono (.ite (d.touches_lrd _) (Dev.touches_record ..)) (by decide)

theorem Dev.touches_commitTrip (pfw : Bool) (endSn : Nat) : Dev.Touches [.lrd] d (d.commitTrip pfw endSn) := by
  unfold Dev.commitTrip
  split
  · exact .mono .refl (by decide)
  · exact .mono (.andThen (d.touches_lrd _) (Dev.touches_dueRecord ..)) (by decide)

theorem Dev.touches_hardAction : Dev.Touches [.sup, .pen, .pwm] d d.hardAction :=
  .mono (.andThen (d.touches_onSup _) (Dev.touches_blockAll _)) (by decide)

theorem Dev.touches_softAction (cause : Nat) : Dev.Touches [.sup] d (d.softAction cause) := by
  unfold Dev.softAction
  exact d.touches_onSup _

theorem Dev.touches_sendTrip (cls : TripClass) (cause : Nat) : Dev.Touches [.twn] d (d.sendTrip cls cause) :=
  .ite (Dev.touches_send ..) .refl

theorem Dev.touches_tripAlso (cls : TripClass) (cause : Nat) : Dev.Touches tripParts d (d.tripAlso cls cause) := by
  unfold Dev.tripAlso
  extract_lets d1 d2 d3
  have h3 : Dev.Touches _ d d3 := ((Dev.touches_sendTrip ..).andThen (Dev.touches_onSup ..)).andThen (Dev.touches_onProf ..)
  exact .mono ((((h3.andThen (Dev.touches_event ..)).andThen (Dev.touches_irq ..)).andThen (Dev.touches_acqTrip _)).andThen
    (Dev.touches_addCause ..)) (by decide)

theorem Dev.touches_tripNew (cls : TripClass) (cause : Nat) (details : List Nat) :
    Dev.Touches tripParts d (d.tripNew cls cause details) := by
  unfold Dev.tripNew
  extract_lets active d1 d2 d3 d4 d5 d6
  have h3 : Dev.Touches _ d d3 := ((Dev.touches_onSup ..).andThen (Dev.touches_onProf ..)).andThen (Dev.touches_onGfm ..)
  have h4 : Dev.Touches _ d3 d4 := (Dev.touches_event ..).andThen (Dev.touches_irq ..)
  have h6 : Dev.Touches _ d4 d6 := ((Dev.touches_acqTrip _).andThen (Dev.touches_openTrip ..)).andThen (Dev.touches_sendTrip ..)
  have hheld : Dev.Touches _ d6 (d6.onSup fun s => { s with ramp := none, hardHold := true }).holdPairs :=
    (Dev.touches_onSup ..).andThen (Dev.touches_holdPairs _)
  exact .mono (((h3.andThen h4).andThen h6).andThen (.ite (.andThen (.ite hheld .refl) (Dev.touches_commitTrip ..))
    (.ite (Dev.touches_hardAction _) (Dev.touches_softAction ..)))) (by decide)

theorem Dev.touches_tripFurther (cls : TripClass) (cause : Nat) : Dev.Touches tripParts d (d.tripFurther cls cause) :=
  .mono (.andThen (.ite (Dev.touches_hardAction _) .refl) (Dev.touches_tripAlso ..)) (by decide)

theorem Dev.touches_takeEffect (cls : TripClass) (cause : Nat) (details : List Nat) :
    Dev.Touches tripParts d (d.takeEffect cls cause details) :=
  .mono (.ite .refl (.ite (Dev.touches_event ..) (.ite (Dev.touches_tripFurther ..) (Dev.touches_tripNew ..)))) (by decide)

theorem Dev.touches_tripAfter (sn : W32) (cls : TripClass) (cause : Nat) (details : List Nat) :
    Dev.Touches [.sup] d (d.tripAfter sn cls cause details) := .ite .refl (d.touches_onSup _)

theorem Dev.touches_tripNextStroke (cls : TripClass) (cause : Nat) (details : List Nat) :
    Dev.Touches [.sup] d (d.tripNextStroke cls cause details) := Dev.touches_tripAfter ..

theorem Dev.touches_tripDue (sn : W32) : Dev.Touches tripParts d (d.tripDue sn) :=
  .mono (.andThen (d.touches_onSup _) (.foldl (fun _ _ => Dev.touches_takeEffect ..) _ _)) (by decide)

theorem Dev.touches_routed (cause inst : Nat) (details : List Nat) :
    Dev.Touches tripParts d (d.routed cause inst details) := by
  unfold Dev.routed
  split
  · exact .mono (Dev.touches_event ..) (by decide)
  · exact .mono (.ite (Dev.touches_tripNextStroke ..) (Dev.touches_takeEffect ..)) (by decide)

theorem Dev.touches_qualify (mask : Nat) : Dev.Touches tripParts d (d.qualify mask) := by
  unfold Dev.qualify
  extract_lets ns locals d1 d2 again d3 d4
  have h2 : Dev.Touches _ d d2 := (Dev.touches_onPwm ..).andThen (.foldl (fun d n => d.touches_latchPairs n) _ _)
  have h3 : Dev.Touches _ d2 d3 := Dev.touches_onPwm ..
  have h4 : Dev.Touches [.pwm, .events, .reports] d2 d4 := by
    clear_value d3 locals
    unfold d4
    cases locals
    · exact .mono .refl (by decide)
    · exact .mono (.ite h3 ((h3.andThen (Dev.touches_event ..)).andThen (Dev.touches_irq ..))) (by decide)
  exact .mono ((h2.andThen h4).andThen (.foldl (fun _ _ => Dev.touches_routed ..) _ _)) (by decide)

theorem Dev.touches_requalify : Dev.Touches tripParts d d.requalify := d.touches_qualify _

end

end Sys2Proof.Machine
end

section
namespace Sys2Proof.Machine
open Host

/-! ### Operating modes -/

section
variable (d : Dev)

theorem Dev.touches_setPrf (c : Nat) (v : ProfChan) : Dev.Touches [.prof] d (d.setPrf c v) := d.touches_onProf _

theorem Dev.touches_loadPos (c : Nat) (v : W32) : Dev.Touches [.prof] d (d.loadPos c v) := Dev.touches_setPrf ..

theorem Dev.touches_profDone (c : Nat) (cause : ProfCause) : Dev.Touches [.events, .reports] d (d.profDone c cause) :=
  .mono (.andThen (Dev.touches_event ..) (Dev.touches_irq ..)) (by decide)

theorem Dev.touches_queueOp (o : ProfOp) : Dev.Touches [.prof] d (d.queueOp o) := d.touches_onProf _

theorem Dev.touches_startClose : Dev.Touches [.gfm] d d.startClose := .ite .refl (d.touches_onGfm _)

theorem Dev.touches_gateClose : Dev.Touches [.gfm] d d.gateClose :=
  .mono (.ite (d.touches_onGfm _) (.ite (Dev.touches_startClose _) .refl)) (by decide)

theorem Dev.touches_dropResync : Dev.Touches [.gfm] d d.dropResync := d.touches_onGfm _

theorem Dev.touches_leaveResync (cause : Nat) : Dev.Touches [.gfm, .events, .reports] d (d.leaveResync cause) := by
  unfold Dev.leaveResync
  extract_lets d1
  have h1 : Dev.Touches _ d d1 := (Dev.touches_dropResync _).andThen (Dev.touches_onGfm ..)
  exact .mono (.ite h1 (h1.andThen (Dev.touches_event ..))) (by decide)

theorem Dev.touches_evalEnter (new : Mode) : Dev.Touches [.sup, .gfm] d (d.evalEnter new) :=
  .ite .refl (.andThen (d.touches_onSup _) (Dev.touches_onGfm ..))

theorem Dev.touches_subEvent (old new : Sub) : Dev.Touches [.events, .reports] d (d.subEvent old new) :=
  .mono (.andThen (Dev.touches_event ..) (Dev.touches_irq ..)) (by decide)

theorem Dev.touches_showSub : Dev.Touches [.sup, .gfm, .events, .reports] d d.showSub := by
  unfold Dev.showSub
  exact .mono (.andThen (.andThen (d.touches_onSup _) (Dev.touches_onGfm ..))
    (.foldl (fun _ _ => Dev.touches_subEvent ..) _ _)) (by decide)

theorem Dev.touches_startBlackstart : Dev.Touches [.prof, .events, .reports] d d.startBlackstart := by
  unfold Dev.startBlackstart
  exact .mono (.andThen (.andThen (d.touches_loadPos 2 0) (.ite (Dev.touches_profDone ..) .refl)) (Dev.touches_queueOp ..))
    (by decide)

/-- What the entry into a mode touches. -/
def modeParts : List Part := [.ang, .gfm, .prof, .sup, .pwm, .events, .reports]

theorem Dev.touches_enterMode (new : Mode) (cause : Nat) (finalOff : Bool) (sn : W32) :
    Dev.Touches modeParts d (d.enterMode new cause finalOff sn) := by
  unfold Dev.enterMode
  extract_lets old d1 d2 d3 d4 d5 d6 d7
  have h1 : Dev.Touches _ d d1 := .ite (Dev.touches_leaveResync ..) (.ite .refl (Dev.touches_dropResync _))
  have h2 : Dev.Touches _ d1 d2 := Dev.touches_onGfm ..
  have h3 : Dev.Touches _ d2 d3 := .andThen (d2.touches_onAng rfl rfl) (Dev.touches_onSup ..)
  have h4 : Dev.Touches _ d3 d4 := .ite .refl (Dev.touches_onGfm ..)
  have h5 : Dev.Touches [.gfm, .prof, .pwm, .events, .reports] d4 d5 := by
    clear_value d4
    unfold d5
    cases new
    case blackstart => exact .mono (Dev.touches_startBlackstart _) (by decide)
    case stopping =>
      exact .mono (.andThen (.andThen (Dev.touches_queueOp ..) (Dev.touches_queueOp ..)) (Dev.touches_onGfm ..)) (by decide)
    case off => exact .mono (Dev.touches_clearLatches _) (by decide)
    all_goals exact .mono .refl (by decide)
  have h6 : Dev.Touches _ d5 d6 := .ite (Dev.touches_event ..) .refl
  have h7 : Dev.Touches _ d6 d7 :=
    .andThen (.andThen (Dev.touches_onGfm ..) (Dev.touches_event ..)) (Dev.touches_irq ..)
  have hshow : Dev.Touches _ d7 (if d7.sup.evalMode = new then d7.showSub
      else ((d7.onSup fun s => { s with evalMode := old, sub := d7.gfm.sub }).evalEnter new).showSub) :=
    .ite (Dev.touches_showSub _)
      (.andThen (.andThen (Dev.touches_onSup ..) (Dev.touches_evalEnter ..)) (Dev.touches_showSub _))
  exact .mono (((((((h1.andThen h2).andThen h3).andThen h4).andThen h5).andThen h6).andThen h7).andThen hshow) (by decide)

theorem Dev.touches_runPlan (p : ModePlan) (sn : W32) : Dev.Touches modeParts d (d.runPlan p sn) :=
  .mono (.andThen (.ite (d.touches_onGfm _) .refl) (Dev.touches_enterMode ..)) (by decide)

theorem Dev.touches_keepMode : Dev.Touches [.gfm, .sup] d d.keepMode := by
  unfold Dev.keepMode
  extract_lets m d1
  have h1 : Dev.Touches _ d d1 := .ite .refl (Dev.touches_dropResync _)
  exact .mono (.ite h1 ((h1.andThen (Dev.touches_onSup ..)).andThen (Dev.touches_onGfm ..))) (by decide)

theorem Dev.touches_enterTripped (sn : W32) : Dev.Touches modeParts d (d.enterTripped sn) := by
  unfold Dev.enterTripped
  extract_lets cause d1
  have h1 : Dev.Touches _ d d1 := Dev.touches_onSup ..
  exact .mono (.ite h1 (h1.andThen (Dev.touches_enterMode ..))) (by decide)

theorem Dev.touches_lapse : Dev.Touches [.gfm, .events, .reports] d d.lapse :=
  .mono (.ite (.andThen (d.touches_onGfm _) (Dev.touches_event ..)) .refl) (by decide)

/-! ### Clock, converters and the stroke kind -/

theorem Dev.touches_endSteps : Dev.Touches [.clk] d d.endSteps := by
  unfold Dev.endSteps
  exact d.touches_onClk _

theorem Dev.touches_startSteps (per : Nat) (n : Int) : Dev.Touches [.clk] d (d.startSteps per n) :=
  .mono (.andThen (Dev.touches_endSteps _) (Dev.touches_onClk ..)) (by decide)

theorem Dev.touches_beginStep : Dev.Touches [.clk] d d.beginStep :=
  .mono (.ite .refl (.andThen (d.touches_onClk _) (Dev.touches_startSteps ..))) (by decide)

theorem Dev.touches_regrid (next : Nat) : Dev.Touches [.adc] d (d.regrid next) := d.touches_onAdc _

theorem Dev.touches_kindChange (old new : Bool) :
    Dev.Touches [.sup, .pen, .events, .reports] d (d.kindChange old new) := by
  unfold Dev.kindChange
  extract_lets d1 d2
  have h1 : Dev.Touches _ d d1 := Dev.touches_event ..
  have h2 : Dev.Touches _ d1 d2 := Dev.touches_onSup ..
  exact .mono (.ite .refl (.ite ((h1.andThen h2).andThen (.foldl (fun _ _ => Dev.touches_setStr ..) _ _)) h1)) (by decide)

theorem Dev.touches_offsetDone (old new : Grid) : Dev.Touches [.events, .reports] d (d.offsetDone old new) :=
  .ite (Dev.touches_event ..) .refl

theorem Dev.touches_stopBlock (sn : W32) : Dev.Touches [.sup, .pen, .pwm] d (d.stopBlock sn) :=
  .ite (Dev.touches_blockAll _) .refl

theorem Dev.touches_showCycle : Dev.Touches [.gfm] d d.showCycle := d.touches_onGfm _

theorem Dev.touches_boundaryMode (b : Boundary) : Dev.Touches (.lrd :: modeParts) d (d.boundaryMode b) := by
  unfold Dev.boundaryMode
  extract_lets due d1
  have hlapse (c : Bool) (e : Dev) : Dev.Touches [.gfm, .events, .reports] e (if c then e.lapse else e) :=
    .mono (.ite (Dev.touches_lapse _) .refl) (by decide)
  have h1 : Dev.Touches modeParts d d1 := by
    clear_value due
    refine .mono (.ite (.andThen (hlapse ..) (Dev.touches_enterTripped ..)) (ps := [.gfm, .events, .reports] ++ modeParts)
      (qs := modeParts) ?_) (by decide)
    split
    · exact .mono (.andThen (hlapse ..) (Dev.touches_runPlan ..)) (by decide)
    · exact .mono (.ite (.andThen (hlapse ..) (Dev.touches_keepMode _)) .refl) (by decide)
  exact .mono (.ite ((h1.andThen (Dev.touches_onSup ..)).andThen (Dev.touches_commitTrip ..)) h1) (by decide)

end

/-! ### Training and the ends of strokes -/

section
variable (d : Dev)

theorem Dev.touches_issue (n opc pos : Nat) (params : List Byte) : Dev.Touches [.pen] d (d.issue n opc pos params) := by
  unfold Dev.issue
  exact .mono (.andThen (d.touches_onPen _) (Dev.touches_setStr ..)) (by decide)

theorem Dev.touches_sendTrain (n : Nat) (replies : List Reply) (sums : List (Nat × Int)) (fail : Option TrainResult) :
    Dev.Touches [.twn] d (d.sendTrain n replies sums fail) := .ite .refl (Dev.touches_send ..)

theorem Dev.touches_trainEnd (n : Nat) (r : TrainResult) : Dev.Touches [.pen] d (d.trainEnd n r) := d.touches_setStr ..

theorem Dev.touches_trainFail (n : Nat) (r : TrainResult) : Dev.Touches [.pen, .twn] d (d.trainFail n r) :=
  .andThen (d.touches_trainEnd n r) (Dev.touches_sendTrain ..)

theorem Dev.touches_echoAsk (n e : Nat) : Dev.Touches [.pen] d (d.echoAsk n e) := by
  unfold Dev.echoAsk
  extract_lets x tick req d1
  have h1 : Dev.Touches _ d d1 := Dev.touches_setStr ..
  clear_value d1 req
  cases req
  case some => exact .mono (h1.andThen (Dev.touches_insertSets ..)) (by decide)
  case none => exact h1

theorem Dev.touches_phaseBegins (n phase : Nat) : Dev.Touches [.pen] d (d.phaseBegins n phase) := by
  unfold Dev.phaseBegins
  extract_lets x d1
  have h1 : Dev.Touches _ d d1 := Dev.touches_setStr ..
  exact .mono (.ite (h1.andThen (.foldl (fun _ _ => Dev.touches_echoAsk ..) _ _)) h1) (by decide)

theorem Dev.touches_trainPhase (n phase : Nat) : Dev.Touches [.pen, .twn] d (d.trainPhase n phase) :=
  .andThen (d.touches_phaseBegins n phase) (Dev.touches_sendTrain ..)

theorem Dev.touches_syncSet (n p : Nat) : Dev.Touches [.pen] d (d.syncSet n p) := Dev.touches_issue ..

theorem Dev.touches_enterRun (n : Nat) : Dev.Touches [.mod, .pen, .twn] d (d.enterRun n) := by
  unfold Dev.enterRun
  exact .mono (.andThen (.andThen (d.touches_trainPhase n 3) (.foldl (fun _ _ => Dev.touches_setSubm ..) _ _))
    (Dev.touches_setStr ..)) (by decide)

theorem Dev.touches_trainStep (n : Nat) : Dev.Touches [.mod, .pen, .twn] d (d.trainStep n) := by
  have hidle : Dev.Touches [.mod, .pen, .twn] d d := .mono .refl (by decide)
  have hphase (phase : Nat) : Dev.Touches [.mod, .pen, .twn] d (d.trainPhase n phase) :=
    .mono (Dev.touches_trainPhase ..) (by decide)
  have hfail (r : TrainResult) : Dev.Touches [.mod, .pen, .twn] d (d.trainFail n r) :=
    .mono (Dev.touches_trainFail ..) (by decide)
  unfold Dev.trainStep
  dsimp only
  split
  · exact hidle
  · split
    · split
      · exact hidle
      · exact hphase 1
      · exact hfail _
    · split
      · exact hidle
      · exact .mono ((hphase 2).andThen (.foldl (fun _ _ => Dev.touches_syncSet ..) _ _)) (by decide)
      · exact hfail _
    · exact .mono (.ite (Dev.touches_enterRun ..) .refl) (by decide)
    · exact hidle

theorem Dev.touches_keepRanges (n : Nat) (rx : List PenRx) : Dev.Touches [.pen] d (d.keepRanges n rx) := d.touches_setStr ..

theorem Dev.touches_lateStroke (k : Nat) : Dev.Touches [.mod] d (d.lateStroke k) := d.touches_setSubm ..

theorem Dev.touches_strokeEnded (sn : W32) (n : Nat) : Dev.Touches [.mod, .pen, .twn] d (d.strokeEnded sn n) := by
  unfold Dev.strokeEnded
  extract_lets x mine rest ends bad aligned fed y d1 d2
  have h1 : Dev.Touches _ d d1 := Dev.touches_setStr ..
  have h2 : Dev.Touches _ d1 d2 := .foldl (fun _ _ => Dev.touches_lateStroke ..) _ _
  exact .mono ((h1.andThen h2).andThen (.andThen (.ite (Dev.touches_keepRanges ..) .refl) (Dev.touches_trainStep ..)))
    (by decide)

end

/-! ### The twin -/

section
variable (d : Dev)

theorem Dev.touches_setTwin (st : TwinSt) : Dev.Touches [.twn, .events, .reports] d (d.setTwin st) :=
  .mono (.ite .refl (.andThen (.andThen (d.touches_onTwn rfl) (Dev.touches_event ..)) (Dev.touches_irq ..))) (by decide)

theorem Dev.touches_twnEvent (bit : Nat) : Dev.Touches [.events, .reports] d (d.twnEvent bit) := by
  unfold Dev.twnEvent
  extract_lets d1
  have h1 : Dev.Touches _ d d1 := Dev.touches_event ..
  exact .mono (.ite (h1.andThen (Dev.touches_irq ..)) h1) (by decide)

theorem Dev.touches_abandon : Dev.Touches [.twn] d d.abandon := d.touches_onTwn rfl

theorem Dev.touches_enterActive : Dev.Touches [.twn, .events, .reports] d d.enterActive :=
  .mono (.andThen (d.touches_onTwn rfl) (Dev.touches_setTwin ..)) (by decide)

theorem Dev.touches_changeEpochs : Dev.Touches [.mod, .pen, .twn] d d.changeEpochs := by
  unfold Dev.changeEpochs
  extract_lets d1
  have h1 : Dev.Touches [.mod, .pen] d d1 :=
    .foldl (fun _ _ => .andThen (.foldl (fun _ _ => Dev.touches_setSubm ..) _ _) (Dev.touches_setStr ..)) _ _
  exact h1.andThen (d1.touches_onTwn rfl)

theorem Dev.touches_twinCounts (refused : Bool) (sn : W32) : Dev.Touches [.twn] d (d.twinCounts refused sn) := by
  unfold Dev.twinCounts
  exact d.touches_onTwn rfl

theorem Dev.touches_handoverBoundary (sn : W32) :
    Dev.Touches [.mod, .pen, .twn, .events, .reports] d (d.handoverBoundary sn) := by
  unfold Dev.handoverBoundary
  split
  · exact .mono (.ite (Dev.touches_abandon _) .refl) (by decide)
  · extract_lets d1
    have h1 : Dev.Touches _ d d1 := .andThen (d.touches_onTwn rfl) (Dev.touches_twnEvent ..)
    clear_value d1
    refine .mono (.ite (Dev.touches_abandon _) (.ite .refl (qs := [.mod, .pen, .twn, .events, .reports]) ?_)) (by decide)
    split
    · exact .mono (h1.andThen (.andThen (.andThen (Dev.touches_changeEpochs _) (Dev.touches_onTwn _ rfl))
        (Dev.touches_enterActive _))) (by decide)
    · exact .mono (h1.andThen (.andThen (Dev.touches_onTwn _ rfl) (Dev.touches_setTwin ..))) (by decide)
    · exact .mono h1 (by decide)

end

end Sys2Proof.Machine
end

section
/-! PROOFS. Values that go into force: a group leaves every register of another group as it is (R49, R133). -/

namespace Sys2Proof.SMap

/-- A list of cells set in order, those of some keys, leaves the other keys as they were. -/
theorem get_foldl_set {α : Type} [DecidableEq α] (p : Nat → Prop) [DecidablePred p] (z : Nat → α) (l : List (Nat × α))
    (m : SMap α) (d : α) {k : Nat} (hk : ¬ p k) :
    (l.foldl (fun m c => if p c.1 then m.set (z c.1) c.1 c.2 else m) m).get d k = m.get d k := by
  induction l generalizing m with
  | nil => rfl
  | cons c rest ih =>
    rw [List.foldl_cons, ih]
    split
    · exact get_set_other _ _ _ _ fun h => hk (h ▸ ‹p _›)
    · rfl

/-- Leaving the cells of some keys out does not change what the other keys read. -/
theorem get_filter {α : Type} (p : Nat → Bool) (m : SMap α) (d : α) {k : Nat} (hk : p k = true) :
    (⟨m.cells.filter fun c => p c.1⟩ : SMap α).get d k = m.get d k := by
  unfold get
  rw [lookup_filter, if_pos hk]

end Sys2Proof.SMap

namespace Sys2Proof.Machine

open Host

section
variable {dom : Domain} {off : Nat} (h : domainOf off ≠ some dom) (d : Dev)
include h

theorem Dev.applyRegs_cfg : (d.applyRegs dom).cfg off = d.cfg off := by
  refine congrArg BitVec.toNat ?_
  exact (SMap.get_foldl_set (fun o => decide (domainOf o = some dom) = true) regReset _ _ _ (by simpa using h)).trans
    (SMap.get_filter (fun o => !decide (domainOf o = some dom)) _ _ (by simpa using h))

theorem Dev.applyDue_cfg : (d.applyDue dom).cfg off = d.cfg off := by
  unfold Dev.applyDue
  split
  · rw [Dev.applyRegs_cfg h]
    split <;> rfl
  · rfl

end

/-- An operation that touches no value leaves every register in force as it is. -/
theorem Dev.Touches.cfg {ps : List Part} {a d : Dev} (h : Dev.Touches ps a d) (off : Nat) (hp : .values ∉ ps) :
    d.cfg off = a.cfg off :=
  (congrArg (fun r : RegsState => (r.inForce.get (regReset off) off).toNat) (h.same .values hp).symm :)

/-- The registers of PWM as a stroke takes them into force (R222). -/
def pwmInForce (m old : SMap W32) : SMap W32 :=
  m.cells.foldl (fun m c => if domainOf c.1 = some .stroke then m.set (regReset c.1) c.1 c.2 else m)
    ⟨old.cells.filter fun c => !decide (domainOf c.1 = some .stroke)⟩

def Dev.withPwmRegs (m : SMap W32) (d : Dev) : Dev :=
  { d with regs := { d.regs with inForce := pwmInForce m d.regs.inForce } }

theorem Dev.pwmStroke_eq (m : SMap W32) (d : Dev) :
    d.pwmStroke m = (Dev.pwmApplied d (d.withPwmRegs m)).holdPairs.requalify := rfl

theorem Dev.touches_pwmStroke (m : SMap W32) (d : Dev) : Dev.Touches tripParts (d.withPwmRegs m) (d.pwmStroke m) := by
  rw [Dev.pwmStroke_eq]
  exact .mono (.andThen (.andThen (Dev.touches_pwmApplied ..) (Dev.touches_holdPairs _)) (Dev.touches_requalify _)) (by decide)

/-- Registers of PWM that come into force with a stroke leave those of every other group. -/
theorem Dev.withPwmRegs_cfg {off : Nat} (h : domainOf off ≠ some .stroke) (m : SMap W32) (d : Dev) :
    (d.withPwmRegs m).cfg off = d.cfg off := by
  refine congrArg BitVec.toNat ?_
  exact (SMap.get_foldl_set (fun o => domainOf o = some .stroke) regReset _ _ _ h).trans
    (SMap.get_filter (fun o => !decide (domainOf o = some .stroke)) _ _ (by simpa using h))

theorem Dev.pwmStroke_cfg {off : Nat} (h : domainOf off ≠ some .stroke) (m : SMap W32) (d : Dev) :
    (d.pwmStroke m).cfg off = d.cfg off :=
  ((d.touches_pwmStroke m).cfg off (by decide)).trans (d.withPwmRegs_cfg h m)

end Sys2Proof.Machine
end

section
/-! PROOFS. Stroke boundaries (R34–R41, R57). -/

namespace Sys2Proof.Machine

open Host

/-! ### The stroke that follows -/

section
variable (d : Dev)

theorem Dev.after_sn (g : Grid) : (d.after g).sn = g.sn + 1 := by
  unfold Dev.after
  split <;> rfl

theorem Dev.nextBoundary_sn : d.nextBoundary.g.sn = d.ang.cur.sn + 1 := by
  unfold Dev.nextBoundary
  extract_lets old job trip plan mode ended angle tb takesFw g thetaA
  have hjob (j : Job) (h : job = some j) : j.g.sn = old.sn + 1 := by simpa using List.find?_some h
  have hg : g.sn = old.sn + 1 := by
    clear_value takesFw angle tb job
    unfold g
    cases job
    case some j =>
      dsimp only
      split
      · exact hjob j rfl
      · split <;> rfl
    case none =>
      dsimp only
      split
      · exact d.after_sn old
      · split <;> rfl
  exact hg

end

/-! ### The boundary -/

/-- No mirrored timebase is loaded at a boundary (R365). -/
def Dev.ownTimebase (d : Dev) : Prop := d.twinEn = false ∨ d.twn.loadTb = false

theorem Dev.ownTimebase_of {a d : Dev} (hcfg : d.cfg Reg.TWN_CFG = a.cfg Reg.TWN_CFG) (hl : a.twn.loadTb = d.twn.loadTb)
    (h : a.ownTimebase) : d.ownTimebase := by
  unfold Dev.ownTimebase Dev.twinEn Dev.flag at *
  rwa [hcfg, ← hl]

theorem Dev.Touches.ownTimebase {ps : List Part} {a d : Dev} (h : Dev.Touches ps a d) (hp : .values ∉ ps)
    (ha : a.ownTimebase) : d.ownTimebase := Dev.ownTimebase_of (h.cfg _ hp) h.loadTb ha

theorem domainOf_twnCfg : domainOf Reg.TWN_CFG = some .sample := rfl

section
variable (b : Boundary) (d : Dev)

/-- The angle timebase of a stroke that begins, as it was planned. -/
def beginAng (b : Boundary) (a : AngState) : AngState :=
  let old := a.cur
  { a with
    cur := b.g, jobs := a.jobs.filter fun j => afterSn j.g.sn b.g.sn
    lateJobs := a.lateJobs ++ (a.jobs.filter fun j => !afterSn j.g.sn b.g.sn && !j.stage1)
    acc := if b.g.angle && !old.angle then b.g.acc0 else a.acc
    prevAcc := if b.g.angle && !old.angle then b.g.acc0 else a.prevAcc
    mcn := if b.g.mcFirst then a.mcn + 1 else a.mcn
    rev := if b.g.angle && decide (b.g.index = 0) then a.rev + 1 else a.rev
    mcBase := if b.trip || b.applies.isSome || b.job.any (·.tb) then b.g.sn else a.mcBase
    pendFw := if b.takesFw then none else a.pendFw
    refs := match b.job with
      | some j => if j.evaluated || j.missed then j.refs else a.refs
      | none => a.refs }

/-- Beyond the timebase as planned, the stroke that begins touches the strokes sampled and what is shown of it. -/
theorem Dev.touches_install : Dev.Touches [.ang, .gfm, .mod] (d.onAng (beginAng b)) (d.install b) := by
  unfold Dev.install
  extract_lets old rest asPlanned d1 waits d2 d3
  have h1 : d1 = d.onAng (beginAng b) := rfl
  rw [← h1]
  have h2 : Dev.Touches [.ang] d1 d2 := .mono (.ite .refl (d1.touches_onAng rfl rfl)) (by decide)
  have h3 : Dev.Touches [.gfm, .mod] d2 d3 := by
    clear_value d2
    unfold d3
    cases b.job
    case some => exact .andThen (d2.touches_onGfm _) (Dev.touches_onMod ..)
    case none => exact .mono .refl (by decide)
  exact .mono (.andThen (h2.andThen h3) (.ite (Dev.touches_showCycle _) .refl)) (by decide)

/-- What takes registers into force at a boundary keeps the stroke, the tick, and whether a mirrored timebase is loaded. -/
structure Dev.KeepsStroke (a d : Dev) : Prop where
  cur : d.ang.cur = a.ang.cur
  tick : d.ang.tick = a.ang.tick
  own : a.ownTimebase → d.ownTimebase

theorem Dev.KeepsStroke.trans {a d e : Dev} (h : a.KeepsStroke d) (h' : d.KeepsStroke e) : a.KeepsStroke e :=
  ⟨h'.cur.trans h.cur, h'.tick.trans h.tick, fun ha => h'.own (h.own ha)⟩

theorem Dev.Touches.keepsStroke {ps : List Part} {a d : Dev} (h : Dev.Touches ps a d) (hp : .values ∉ ps) :
    a.KeepsStroke d := ⟨h.cur.symm, h.tick.symm, h.ownTimebase hp⟩

theorem Dev.keepsStroke_applyDue {dom : Domain} (h : dom ≠ .sample) : d.KeepsStroke (d.applyDue dom) := by
  have hrest : (d.applyDue dom).ang = d.ang ∧ (d.applyDue dom).twn = d.twn := by
    unfold Dev.applyDue
    rw [if_neg h]
    split <;> exact ⟨rfl, rfl⟩
  obtain ⟨hang, htwn⟩ := hrest
  exact ⟨congrArg AngState.cur hang, congrArg AngState.tick hang,
    Dev.ownTimebase_of (Dev.applyDue_cfg (by rw [domainOf_twnCfg]; simpa using h.symm) d) (congrArg TwnState.loadTb htwn).symm⟩

theorem Dev.keepsStroke_pwmStroke (m : SMap W32) : d.KeepsStroke (d.pwmStroke m) := by
  have h : Dev.KeepsStroke d (d.withPwmRegs m) := ⟨rfl, rfl, Dev.ownTimebase_of (d.withPwmRegs_cfg (by decide) m) rfl⟩
  exact h.trans ((d.touches_pwmStroke m).keepsStroke (by decide))

theorem Dev.keepsStroke_boundaryRegs : d.KeepsStroke (d.boundaryRegs b) := by
  have hrefl (e : Dev) : e.KeepsStroke e := Dev.Touches.refl.keepsStroke (by decide)
  have hif (c : Bool) (dom : Domain) (h : dom ≠ .sample) (e : Dev) : e.KeepsStroke (if c then e.applyDue dom else e) := by
    cases c
    · exact hrefl e
    · exact e.keepsStroke_applyDue h
  unfold Dev.boundaryRegs
  extract_lets d1 early d2 d3
  have h1 : d.KeepsStroke d1 := by
    unfold d1
    cases b.job.bind (·.pwm)
    case some m => exact d.keepsStroke_pwmStroke m
    case none => exact hrefl d
  exact ((h1.trans (hif _ .machine (by decide) _)).trans (hif _ .timebase (by decide) _)).trans
    (by have := hif (!b.g.angle || decide (b.g.index = 0)) .index0 (by decide) d3; exact this)

theorem Dev.touches_twinBoundary (first refused : Bool) (sn : W32) (h : d.ownTimebase) :
    Dev.Touches [.mod, .pen, .twn, .events, .reports] d (d.twinBoundary first refused sn) := by
  unfold Dev.twinBoundary
  extract_lets d1 len d2 d3 d4 d5
  have h1 : Dev.Touches _ d d1 := Dev.touches_twinCounts ..
  have h2 : Dev.Touches _ d1 d2 := .ite (.andThen (Dev.touches_sendLen ..) (Dev.touches_onTwn _ rfl)) .refl
  have h3 : Dev.Touches _ d2 d3 :=
    .ite (.andThen (.andThen (.andThen (d2.touches_onTwn rfl) (Dev.touches_changeEpochs _)) (Dev.touches_onTwn _ rfl))
      (Dev.touches_setTwin ..)) .refl
  have h4 : Dev.Touches _ d d4 := ((h1.andThen h2).andThen h3).andThen (Dev.touches_handoverBoundary ..)
  obtain hen | hload := h
  · rw [hen]
    exact .mono .refl (by decide)
  · have h5 : d5 = d4 := by
      have hnone : d4.twn.loadTb = false := h4.loadTb.symm.trans hload
      clear_value d4
      unfold d5
      split
      · simp_all
      · rfl
    rw [h5]
    exact .mono (.ite .refl (h4.andThen (Dev.touches_send ..))) (by decide)

end

theorem Dev.beginStroke_sn {d : Dev} (h : d.ownTimebase) :
    d.beginStroke.ang.cur.sn = d.ang.cur.sn + 1 ∧ d.beginStroke.ang.tick = d.ang.tick := by
  unfold Dev.beginStroke
  extract_lets old refused d1 b d2 d3 d4 d5 d6 d7
  have h1 : Dev.Touches [.mod, .pen, .twn] d d1 := .foldl (fun _ _ => Dev.touches_strokeEnded ..) _ _
  have hinstall : (d1.onAng (beginAng b)).KeepsStroke (d1.install b) := (d1.touches_install b).keepsStroke (by decide)
  have h2 : (d1.onAng (beginAng b)).KeepsStroke d2 := hinstall.trans (Dev.keepsStroke_boundaryRegs ..)
  have h5 : Dev.Touches _ d2 d5 := .andThen (.andThen (.andThen (Dev.touches_kindChange ..) (Dev.touches_offsetDone ..))
    (Dev.touches_boundaryMode ..)) (Dev.touches_stopBlock ..)
  have h6 : Dev.Touches _ d5 d6.gateClose.holdPairs :=
    .andThen (.andThen (Dev.touches_tripDue ..) (Dev.touches_gateClose _)) (Dev.touches_holdPairs _)
  have hbefore : (d1.onAng (beginAng b)).KeepsStroke d6.gateClose.holdPairs :=
    h2.trans ((h5.andThen h6).keepsStroke (by decide))
  have hown : (d1.onAng (beginAng b)).ownTimebase := h1.ownTimebase (by decide) h
  have h7 : Dev.Touches _ d6.gateClose.holdPairs d7 :=
    .andThen (.andThen (Dev.touches_twinBoundary _ _ _ _ (hbefore.own hown)) (Dev.touches_beginStep _))
      (Dev.touches_pwmShow _)
  have hall : (d1.onAng (beginAng b)).KeepsStroke (d7.regrid (d7.lastGrid.start + d7.lastGrid.len - d7.tbTsa)) :=
    hbefore.trans ((h7.andThen (Dev.touches_regrid ..)).keepsStroke (by decide))
  have hsn : b.g.sn = d1.ang.cur.sn + 1 := d1.nextBoundary_sn
  rw [hall.cur, hall.tick, h1.cur, h1.tick]
  exact ⟨hsn, rfl⟩

/-- A boundary answers with the next stroke. -/
theorem Dev.answers_beginStroke {i : Instr} {s : State} {f : Dev → Dev} (hi : exec i s = .next (s.run f))
    (hf : f s.fresh = s.fresh.beginStroke) (h : s.fresh.ownTimebase) :
    Answers i s fun t => t.dev.ang.cur.sn = s.dev.ang.cur.sn + 1 ∧ t.dev.ang.tick = s.dev.ang.tick ∧
      t.pending = s.pending := by
  obtain ⟨hsn, htick⟩ := Dev.beginStroke_sn h
  exact ⟨_, exec_of_effect hi hf, hsn, htick, rfl⟩

/-! ### The rows -/

section
variable {d : Dev}

theorem Dev.strokeStart_of_angle (h : d.ang.cur.angle = true) :
    d.strokeStart = if d.atBoundary then d.beginStroke else d := if_pos h

theorem Dev.strokeStart_of_free (h : d.ang.cur.angle = false) (ht : d.ang.cur.start + d.ang.cur.len ≤ d.now)
    (hn : d.nextBoundary.g.angle = true) : d.strokeStart = d.beginStroke := by
  unfold Dev.strokeStart
  dsimp only
  rw [if_neg (by simp [h]), if_pos ⟨ht, hn⟩]

end

/-- Settles O7: the stroke that a boundary installs has the next SN, and what the boundary does beyond that keeps it, with
the tick. -/
theorem strokeStartAdvancesSn : Obligations.StrokeStartAdvancesSn := by
  refine ⟨fun s hown h => ?_, fun s hown ha ht hn => ?_, fun s ha hb => ?_, fun s h => ?_⟩
  · refine Dev.answers_beginStroke rfl ?_ hown
    obtain ⟨ha, hb⟩ | ⟨ha, ht, hn⟩ := h
    · rw [Dev.strokeStart_of_angle (d := s.fresh) ha, if_pos hb]
    · exact Dev.strokeStart_of_free (d := s.fresh) ha ht hn
  · exact Dev.answers_beginStroke (f := Dev.freeStrokeStart) rfl (if_pos ⟨ha, ht, hn⟩) hown
  · have hidle : s.fresh.strokeStart = s.fresh := by
      rw [Dev.strokeStart_of_angle (d := s.fresh) ha, if_neg (by simp [hb])]
    exact exec_of_effect rfl hidle
  · have hidle : s.fresh.freeStrokeStart = s.fresh := if_neg fun ⟨ha, ht, _⟩ => by
      rcases h with h | h
      · exact absurd (ha : s.dev.ang.cur.angle = false) (by simp [h])
      · exact Nat.not_le.mpr h ht
    exact exec_of_effect rfl hidle

end Sys2Proof.Machine
end

section
namespace Sys2Proof.Machine
open Host

/-! ### What follows when the registers of a sample instant have gone into force -/

section
variable (old d : Dev)

theorem Dev.touches_setCascStates (n : Nat) (ss : List Biquad) : Dev.Touches [.loop] d (d.setCascStates n ss) :=
  d.touches_onLoop _

theorem Dev.touches_clearCascades : Dev.Touches [.loop] d (Dev.clearCascades old d) :=
  .foldl (fun _ _ => .ite (Dev.touches_setCascStates ..) .refl) _ _

theorem Dev.touches_replaceSelector : Dev.Touches [.loop] d (Dev.replaceSelector old d) := .ite (d.touches_onLoop _) .refl

theorem Dev.touches_beginConds (mask : Nat) : Dev.Touches tripParts d (d.beginConds mask) :=
  .mono (.andThen (d.touches_onPwm _) (Dev.touches_requalify _)) (by decide)

theorem Dev.touches_endCond (n : Nat) : Dev.Touches [.pwm] d (d.endCond n) := .ite .refl (d.touches_onPwm _)

theorem Dev.touches_decided (e : Nat) (set : Bool) : Dev.Touches (.adc :: tripParts) d (d.decided e set) := by
  unfold Dev.decided
  extract_lets src d1
  have h1 : Dev.Touches _ d d1 := .andThen (d.touches_onAdc _) (Dev.touches_event ..)
  exact .mono (.ite (h1.andThen (Dev.touches_beginConds ..)) (.ite .refl (Dev.touches_endCond ..))) (by decide)

theorem Dev.touches_setChan (c : Nat) (v : ChanSup) : Dev.Touches [.sup] d (d.setChan c v) := d.touches_onSup _

theorem Dev.touches_notFailed (e : Nat) : Dev.Touches [.sup] d (d.notFailed e) := d.touches_setChan ..

theorem Dev.touches_restartSar (c : Nat) : Dev.Touches [.adc, .sup] d (Dev.restartSar old c d) :=
  .ite .refl (.andThen (d.touches_setSar c _) (Dev.touches_notFailed ..))

theorem Dev.touches_restartSd (c : Nat) : Dev.Touches [.adc, .sup] d (Dev.restartSd old c d) :=
  .mono (.ite .refl (.ite (d.touches_setSd c _) (.andThen (d.touches_setSd c _) (Dev.touches_notFailed ..)))) (by decide)

theorem Dev.touches_restartFilters : Dev.Touches (.adc :: tripParts) d (old.restartFilters d) := by
  unfold Dev.restartFilters
  extract_lets d1 d2 d3 d4
  have h1 : Dev.Touches _ d d1 := .foldl (fun _ _ => Dev.touches_restartSar ..) _ _
  have h2 : Dev.Touches _ d1 d2 := .foldl (fun _ _ => Dev.touches_restartSd ..) _ _
  have h3 : Dev.Touches _ d2 d3 := Dev.touches_onAdc ..
  have h4 : Dev.Touches _ d3 d4 :=
    .foldl (fun _ _ => .ite (.andThen (Dev.touches_setSar ..) (Dev.touches_decided ..)) .refl) _ _
  exact .mono ((((h1.andThen h2).andThen h3).andThen h4).andThen
    (.foldl (fun _ _ => .ite (.andThen (Dev.touches_setSd ..) (Dev.touches_decided ..)) .refl) _ _)) (by decide)

theorem Dev.touches_restartUnits : Dev.Touches [.acq] d (old.restartUnits d) :=
  .foldl (fun _ _ => .ite (Dev.touches_setAunit ..) .refl) _ _

theorem Dev.touches_resetString (n : Nat) : Dev.Touches [.pen] d (d.resetString n) :=
  .mono (.andThen (d.touches_trainEnd n _) (Dev.touches_setStr ..)) (by decide)

theorem Dev.touches_restartStrings : Dev.Touches [.pen, .mod] d (old.restartStrings d) := by
  have hbypass (e : Dev) (n : Nat) : Dev.Touches [.mod] e ((upto 64).foldl (fun d p => let k := 64 * n + p
      if (d.subm k).bypassed then d.setSubm k { d.subm k with bypassed := false } else d) e) :=
    .foldl (fun _ _ => .ite (Dev.touches_setSubm ..) .refl) _ _
  have hreset (c : Bool) (e : Dev) (n : Nat) : Dev.Touches [.pen] e (if c then e.resetString n else e) :=
    .ite (Dev.touches_resetString ..) .refl
  exact .foldl (fun e n => .mono (.ite ((hreset _ e n).andThen (hbypass ..)) (hreset _ e n)) (by decide)) _ _

theorem Dev.touches_restartTail : Dev.Touches [.lrd] d (old.restartTail d) := .ite (d.touches_lrd _) .refl

theorem Dev.touches_enterSyncing : Dev.Touches [.twn, .events, .reports] d d.enterSyncing := by
  unfold Dev.enterSyncing
  exact .mono (.andThen (.andThen d.touches_abandon (Dev.touches_setTwin ..)) (Dev.touches_onTwn _ rfl)) (by decide)

theorem Dev.touches_twnCommitted : Dev.Touches [.twn, .events, .reports] d (Dev.twnCommitted old d) :=
  .mono (.ite .refl (.ite d.touches_enterSyncing (.andThen (d.touches_onTwn rfl) (Dev.touches_setTwin ..)))) (by decide)

theorem Dev.touches_sampleApplied :
    Dev.Touches (.loop :: .adc :: .mod :: tripParts) d (Dev.sampleApplied old d) := by
  unfold Dev.sampleApplied
  exact .mono ((((((Dev.touches_clearCascades ..).andThen (Dev.touches_replaceSelector ..)).andThen
    (Dev.touches_restartFilters ..)).andThen (Dev.touches_restartUnits ..)).andThen (Dev.touches_restartStrings ..)).andThen
    (Dev.touches_restartTail ..) |>.andThen (Dev.touches_twnCommitted ..)) (by decide)

end

/-! ### The steps of a sample instant -/

section
variable (d : Dev)

theorem Dev.touches_acqArm : Dev.Touches [.acq] d d.acqArm := by
  have harm (e : Dev) (k : Nat) : Dev.Touches [.acq] e (match (e.aset k).armTick with
    | none => e
    | some t =>
      if t < e.now then
        let d := e.setAset k { e.aset k with armTick := none, base := 0, trig := [] }
        if d.slotFree k then d.startFilling k else d.setAset k { d.aset k with phase := .wait }
      else e) := by
    split
    · exact .mono .refl (by decide)
    · exact .mono (.ite (.andThen (e.touches_setAset k _) (.ite (Dev.touches_startFilling ..) (Dev.touches_setAset ..)))
        .refl) (by decide)
  exact .foldl harm _ _

theorem Dev.touches_markLate (n : Nat) : Dev.Touches [.mod, .pen] d (d.markLate n) := by
  unfold Dev.markLate
  extract_lets x
  clear_value x
  split
  · exact .mono .refl (by decide)
  · exact .mono (.ite .refl (.andThen (.foldl (fun _ _ => .ite (Dev.touches_setSubm ..) .refl) _ _) (Dev.touches_setStr ..)))
      (by decide)

theorem Dev.touches_countGaps : Dev.Touches [.mod] d d.countGaps :=
  .foldl (fun _ _ => .ite (.foldl (fun _ _ => .ite (Dev.touches_setSubm ..) .refl) _ _) .refl) _ _

theorem Dev.touches_testSubm (a k : Nat) : Dev.Touches [.mod, .events, .reports] d (d.testSubm a k) := by
  unfold Dev.testSubm
  extract_lets x now neutral d1 news d2
  have h1 : Dev.Touches _ d d1 := Dev.touches_setSubm ..
  have hnew (e : Dev) (b : Nat) : Dev.Touches [.events, .reports] e
      (let d := e.event 8 0 a k 0; if b = 0 then d.irq 40 else d) :=
    .mono (.andThen (Dev.touches_event ..) (.ite (Dev.touches_irq ..) .refl)) (by decide)
  have h2 : Dev.Touches _ d1 d2 := .foldl hnew _ _
  exact .mono ((h1.andThen h2).andThen (.ite (Dev.touches_event ..) .refl)) (by decide)

theorem Dev.touches_testSubms : Dev.Touches [.mod, .events, .reports] d d.testSubms :=
  .foldl (fun _ _ => .mono (.ite (.foldl (fun _ _ => Dev.touches_testSubm ..) _ _)
    (.foldl (fun _ _ => Dev.touches_setSubm ..) _ _)) (by decide)) _ _

theorem Dev.touches_startSoft : Dev.Touches [.sup] d d.startSoft := d.touches_onSup _

theorem Dev.touches_startSub (c : Nat) : Dev.Touches [.sup, .events, .reports] d (d.startSub c) :=
  .mono (.andThen (.andThen (.andThen (d.touches_setChan c _) (Dev.touches_onSup ..)) (Dev.touches_event ..))
    (Dev.touches_irq ..)) (by decide)

theorem Dev.touches_endSub (c : Nat) (ending : Bool) : Dev.Touches [.sup, .events, .reports] d (d.endSub c ending) :=
  .mono (.andThen (d.touches_setChan c _) (Dev.touches_event ..)) (by decide)

theorem Dev.touches_startSubs : Dev.Touches [.sup, .events, .reports] d d.startSubs :=
  .foldl (fun _ _ => .mono (.ite .refl (.ite (.ite (Dev.touches_endSub ..) .refl) (.ite (Dev.touches_startSub ..) .refl)))
    (by decide)) _ _

theorem Dev.touches_autoMode (target : Mode) (cause : Nat) (finalOff : Bool) :
    Dev.Touches [.gfm] d (d.autoMode target cause finalOff) := .ite .refl (d.touches_onGfm _)

theorem Dev.touches_testInstant : Dev.Touches [.gfm, .events, .reports] d d.testInstant := by
  unfold Dev.testInstant
  split
  · exact .mono (.ite .refl (.andThen (.andThen (d.touches_onGfm _) (Dev.touches_event ..)) (Dev.touches_autoMode ..)))
      (by decide)
  · exact .mono (.ite (.andThen (d.touches_onGfm _) (Dev.touches_autoMode ..)) .refl) (by decide)
  · exact .mono .refl (by decide)

theorem Dev.touches_auxSample : Dev.Touches [.aux] d d.auxSample := d.touches_onAux _

theorem Dev.touches_sampleConverters (sn : W32) (next : Nat) :
    Dev.Touches [.adc, .events, .reports] d (d.sampleConverters sn next) := by
  unfold Dev.sampleConverters
  extract_lets d1 d2
  have h1 : Dev.Touches _ d d1 :=
    .andThen (Dev.touches_sarPoint _) (.foldl (fun _ _ => .ite (Dev.touches_setSar ..) .refl) _ _)
  have h2 : Dev.Touches _ d1 d2 :=
    .foldl (fun _ _ => .ite (.ite (Dev.touches_evalSinc3 ..) (Dev.touches_setSd ..)) .refl) _ _
  exact .mono ((h1.andThen h2).andThen (Dev.touches_onAdc ..)) (by decide)

end

end Sys2Proof.Machine
end

section
/-! PROOFS. Sample instants (R42, R108). -/

namespace Sys2Proof.Machine

open Host

/-! ### What the place of a stroke depends on -/

/-- The angle timebase stays, with the registers it reads: the accepted ones, and those in force that do not come into force
at a sample instant (R50, R133). -/
structure Dev.KeepsTimebase (a d : Dev) : Prop where
  ang : d.ang = a.ang
  active : d.regs.active = a.regs.active
  cfg : ∀ off, domainOf off ≠ some .sample → d.cfg off = a.cfg off

namespace Dev.KeepsTimebase

variable {a d e : Dev}

theorem trans (h : a.KeepsTimebase d) (h' : d.KeepsTimebase e) : a.KeepsTimebase e :=
  ⟨h'.ang.trans h.ang, h'.active.trans h.active, fun off ho => (h'.cfg off ho).trans (h.cfg off ho)⟩

theorem of_touches {ps : List Part} (h : Dev.Touches ps a d) (hp : .ang ∉ ps ∧ .values ∉ ps) : a.KeepsTimebase d :=
  ⟨(h.same .ang hp.1).symm, (congrArg RegsState.active (h.same .values hp.2).symm :), fun off _ => h.cfg off hp.2⟩

theorem activeReg (h : a.KeepsTimebase d) (off : Nat) : d.activeReg off = a.activeReg off := by
  unfold Dev.activeReg
  rw [h.active]

theorem tbReg (h : a.KeepsTimebase d) (tb : Bool) {off : Nat} (ho : domainOf off ≠ some .sample) :
    d.tbReg tb off = a.tbReg tb off := by
  unfold Dev.tbReg
  rw [h.activeReg, h.cfg off ho]

theorem tbUsed (h : a.KeepsTimebase d) : d.tbUsed = a.tbUsed := by
  unfold Dev.tbUsed
  rw [h.ang]

theorem tbNs (h : a.KeepsTimebase d) (tb : Bool) : d.tbNs tb = a.tbNs tb :=
  congrArg (bits · 12 0) (h.tbReg tb (by decide))

theorem stepOffset (h : a.KeepsTimebase d) (off : W32) : d.stepOffset off = a.stepOffset off := by
  unfold Dev.stepOffset
  rw [h.activeReg, h.activeReg]

theorem angleFirst (h : a.KeepsTimebase d) (tb : Bool) (g : Grid) : d.angleFirst tb g = a.angleFirst tb g := by
  unfold Dev.angleFirst
  rw [h.tbNs, h.activeReg, h.tbReg tb (off := Reg.ANG_THETA_START) (by decide), h.tbReg tb (off := Reg.ANG_FW_L) (by decide),
    h.tbReg tb (off := Reg.ANG_FW_H) (by decide)]

theorem settle (h : a.KeepsTimebase d) (before g : Grid) : d.settle before g = a.settle before g := by
  unfold Dev.settle
  rw [h.tbUsed, h.angleFirst, h.tbNs, h.stepOffset]

theorem settleJobs (h : a.KeepsTimebase d) (g : Grid) (js : List Job) : d.settleJobs g js = a.settleJobs g js := by
  fun_induction Dev.settleJobs a g js with
  | case1 => rfl
  | case2 before j => rw [Dev.settleJobs, h.settle]
  | case3 before j k rest ih => rw [Dev.settleJobs, ih]

theorem settledJobs (h : a.KeepsTimebase d) : d.settledJobs = a.settledJobs := by
  unfold Dev.settledJobs
  rw [h.settleJobs, h.ang]

theorem lastGrid (h : a.KeepsTimebase d) : d.lastGrid = a.lastGrid := by
  unfold Dev.lastGrid
  rw [h.settledJobs, h.ang]

theorem tbTsa (h : a.KeepsTimebase d) : d.tbTsa = a.tbTsa := by
  unfold Dev.tbTsa
  rw [h.tbUsed, h.tbReg _ (by decide)]

theorem now (h : a.KeepsTimebase d) : d.now = a.now := congrArg AngState.tick h.ang

theorem of_fresh (s : State) : s.dev.KeepsTimebase s.fresh := ⟨rfl, rfl, fun _ _ => rfl⟩

end Dev.KeepsTimebase

/-! ### The steps of the row -/

section
variable (d : Dev)

theorem Dev.keepsTimebase_applySample : d.KeepsTimebase (d.applyDue .sample) := by
  have hrest : (d.applyDue .sample).ang = d.ang ∧ (d.applyDue .sample).regs.active = d.regs.active := by
    unfold Dev.applyDue
    split <;> exact ⟨rfl, rfl⟩
  exact ⟨hrest.1, hrest.2, fun _ ho => Dev.applyDue_cfg ho d⟩

theorem Dev.keepsTimebase_takeSample : d.KeepsTimebase d.takeSample := by
  unfold Dev.takeSample
  split
  · exact d.keepsTimebase_applySample.trans (.of_touches (Dev.touches_sampleApplied ..) (by decide))
  · exact ⟨rfl, rfl, fun _ _ => rfl⟩

theorem Dev.newJob_sampleTick (n : NextStroke) : (d.newJob n).sampleTick = d.now := rfl

/-- The stroke sampled joins those whose samples are taken; its planning may take up a timebase commit and the pending FW. -/
def joinJob (js : List Job) (j : Job) (due : Option Nat) (fw : Option Nat) (a : AngState) : AngState :=
  { a with jobs := js ++ [j], cfgDue := due, pendFw := fw }

theorem Dev.sampleInstant_ang {d : Dev} (h : d.lastGrid.start + d.lastGrid.len ≤ d.now + d.tbTsa) :
    ∃ j due fw, d.sampleInstant.ang = joinJob d.settledJobs j due fw d.ang ∧ j.sampleTick = d.now ∧
      j.evaluated = false ∧ j.missed = false ∧ j.built = false := by
  unfold Dev.sampleInstant
  rw [if_neg (Nat.not_lt.mpr h)]
  extract_lets d1 d2 d3 d4 n j fresh d5 regs d6 d7
  have h1 : d.KeepsTimebase d1 := d.keepsTimebase_takeSample.trans (.of_touches (Dev.touches_acqArm _) (by decide))
  have h2 : Dev.Touches _ d1 d2 :=
    .andThen (.andThen (.foldl (fun _ _ => Dev.touches_markLate ..) _ _) (Dev.touches_countGaps _)) (Dev.touches_testSubms _)
  have h3 : Dev.Touches _ d2 d3 :=
    .andThen (.andThen (Dev.touches_startSoft _) (Dev.touches_startSubs _)) (Dev.touches_testInstant _)
  have hkeep : d.KeepsTimebase d3 := h1.trans (.of_touches (h2.andThen h3) (by decide))
  have h4 : d4.ang = { d.ang with jobs := d.settledJobs } := by
    rw [← hkeep.settledJobs, ← hkeep.ang]
    rfl
  have h5 : Dev.Touches _ d4 d5 :=
    .andThen (.andThen (Dev.touches_auxSample _) (Dev.touches_sampleConverters ..)) (Dev.touches_acqGrid _)
  have h6 : d6.ang = d4.ang := by
    have hsame : d4.ang = d5.ang := h5.same .ang (by decide)
    rw [hsame]
    unfold d6
    split <;> rfl
  refine ⟨j, if n.tb then none else d6.ang.cfgDue, if fresh || (n.g.angle && n.mc) then none else d6.ang.pendFw, ?_, ?_,
    rfl, rfl, rfl⟩
  · have h7 : d7.ang = joinJob d6.ang.jobs j (if n.tb then none else d6.ang.cfgDue)
        (if fresh || (n.g.angle && n.mc) then none else d6.ang.pendFw) d6.ang := rfl
    refine h7.trans ?_
    rw [h6, h4]
    rfl
  · have htick : d4.now = d.now := by
      unfold Dev.now
      rw [h4]
    exact (d4.newJob_sampleTick n).trans htick

end

/-- Settles O8: what comes before the plan keeps the timebase, and the planned stroke is the only one that joins. -/
theorem sampleInstantTakesOneStroke : Obligations.SampleInstantTakesOneStroke := by
  refine ⟨fun s h => ?_, fun s h => ?_⟩ <;>
    rw [← (Dev.KeepsTimebase.of_fresh s).lastGrid, ← (Dev.KeepsTimebase.of_fresh s).now,
      ← (Dev.KeepsTimebase.of_fresh s).tbTsa] at h
  · obtain ⟨j, due, fw, hang, htick, he, hm, hb⟩ := Dev.sampleInstant_ang h
    rw [(Dev.KeepsTimebase.of_fresh s).settledJobs] at hang
    exact ⟨_, exec_of_effect (f := Dev.sampleInstant) rfl rfl, ⟨j, congrArg AngState.jobs hang, htick, he, hm, hb⟩,
      (congrArg AngState.cur hang :), (congrArg AngState.tick hang :), (congrArg AngState.acc hang :), (congrArg AngState.rev hang :),
      rfl⟩
  · exact exec_of_effect (f := Dev.sampleInstant) rfl (if_pos h)

end Sys2Proof.Machine
end

section
/-! PROOFS. The Fence's parameters and state through its demands and tests (R384, R392–R401), and the start of the main
partition (R450). -/

namespace Sys2Proof.Machine

open Host

/-! ### What the Fence's own work leaves as it is -/

/-- The Fence's state, its fault code and its parameters. -/
def fenSetting (f : FenState) : FenPhase × Nat × FenSet :=
  (f.st, f.code, { passcode := f.passcode, inCfg := f.inCfg, pairCfg := f.pairCfg })

/-- What a demand or a test of the Fence touches. -/
def fenceParts : List Part := .fen :: .commands :: .host :: tripParts

/-- State, fault code and parameters of the Fence stay, and beyond its demands and tests nothing is touched. -/
structure Dev.FenceWorks (a d : Dev) : Prop where
  touches : Dev.Touches fenceParts a d
  setting : fenSetting d.fen = fenSetting a.fen

namespace Dev.FenceWorks

variable {a d e : Dev}

theorem refl : d.FenceWorks d := ⟨Dev.Touches.refl.mono (by decide), rfl⟩

theorem trans (h : a.FenceWorks d) (h' : d.FenceWorks e) : a.FenceWorks e :=
  ⟨(h.touches.andThen h'.touches).mono (by decide), h'.setting.trans h.setting⟩

theorem of_touches {ps : List Part} (h : Dev.Touches ps a d) (hp : .fen ∉ ps ∧ ∀ p ∈ ps, p ∈ fenceParts) : a.FenceWorks d :=
  ⟨h.mono hp.2, congrArg fenSetting (h.same .fen hp.1 : a.fen = d.fen).symm⟩

theorem onFen {f : FenState → FenState} (h : fenSetting (f d.fen) = fenSetting d.fen) : d.FenceWorks (d.onFen f) :=
  ⟨(d.touches_onFen f).mono (by decide), h⟩

theorem ite {c : Prop} [Decidable c] (hd : a.FenceWorks d) (he : a.FenceWorks e) : a.FenceWorks (if c then d else e) := by
  split
  · exact hd
  · exact he

theorem foldl {α : Type} {f : Dev → α → Dev} (hf : ∀ (d : Dev) (x : α), d.FenceWorks (f d x)) (l : List α) (d : Dev) :
    d.FenceWorks (l.foldl f d) := by
  induction l generalizing d with
  | nil => exact refl
  | cons x rest ih => exact (hf d x).trans (ih _)

end Dev.FenceWorks

section
variable (d : Dev)

theorem Dev.fenceWorks_setFenOut (k : Nat) (v : FenOut) : d.FenceWorks (d.setFenOut k v) := .onFen rfl

theorem Dev.fenceWorks_irq (n : Nat) : d.FenceWorks (d.irq n) := .of_touches (d.touches_irq n) (by decide)

theorem Dev.fenceWorks_fenEvent (code item detail : Nat) : d.FenceWorks (d.fenEvent code item detail) := by
  unfold Dev.fenEvent
  dsimp only
  have hhost : d.FenceWorks (d.onHost fun h => { h with fenLostCnt := satInc h.fenLostCnt }) :=
    .of_touches (ps := [.host]) (.of_keeps (Dev.keeps_onHost ⟨rfl, rfl, rfl, rfl⟩ ⟨rfl, rfl, rfl, rfl, rfl⟩) (by decide))
      (by decide)
  exact .ite (.of_touches (Dev.touches_putDesc ..) (by decide))
    (.ite (.onFen rfl) (hhost.trans (.of_touches (Dev.touches_event ..) (by decide))))

theorem Dev.fenceWorks_testResult (k res : Nat) : d.FenceWorks (d.testResult k res) :=
  .trans (.trans (Dev.fenceWorks_setFenOut ..) (Dev.fenceWorks_fenEvent ..)) (Dev.fenceWorks_irq ..)

theorem Dev.fenceWorks_drivePair (k : Nat) : d.FenceWorks (d.drivePair k) := Dev.fenceWorks_setFenOut ..

theorem Dev.fenceWorks_updatePair (k : Nat) : d.FenceWorks (d.updatePair k) := by
  unfold Dev.updatePair
  extract_lets o dem d1 d2 d3
  have h1 : d.FenceWorks d1 := .trans (Dev.fenceWorks_setFenOut ..) (Dev.fenceWorks_drivePair ..)
  have h2 : d1.FenceWorks d2 :=
    .ite (.trans (Dev.fenceWorks_fenEvent ..) (Dev.fenceWorks_irq ..)) (.ite (Dev.fenceWorks_fenEvent ..) .refl)
  have h3 : d2.FenceWorks d3 :=
    .ite (.of_touches (.andThen (Dev.touches_takeEffect ..) (Dev.touches_holdPairs _)) (by decide)) .refl
  exact ((h1.trans h2).trans h3).trans (.ite (Dev.fenceWorks_testResult ..) .refl)

theorem Dev.fenceWorks_updatePairs : d.FenceWorks d.updatePairs :=
  .trans (.foldl (fun _ _ => Dev.fenceWorks_updatePair ..) _ _) (.of_touches (Dev.touches_gateClose _) (by decide))

theorem Dev.fenceWorks_testHigh (k : Nat) : d.FenceWorks (d.testHigh k) :=
  .trans (Dev.fenceWorks_setFenOut ..) (Dev.fenceWorks_drivePair ..)

theorem Dev.fenceWorks_testDefer (k : Nat) : d.FenceWorks (d.testDefer k) := Dev.fenceWorks_setFenOut ..

theorem Dev.fenceWorks_nextTest (n : Nat) : d.FenceWorks (d.nextTest n) := by
  induction n generalizing d with
  | zero => exact .refl
  | succ n ih =>
    unfold Dev.nextTest
    split
    · exact .refl
    · split
      · exact .trans (.onFen rfl) (.of_touches (Dev.touches_completeAs ..) (by decide))
      · exact .ite (.trans (.onFen rfl) (Dev.fenceWorks_testHigh ..))
          (.trans (.trans (.onFen rfl) (Dev.fenceWorks_testDefer ..)) (ih _))

theorem Dev.fenceWorks_followTest : d.FenceWorks d.followTest := by
  unfold Dev.followTest
  split
  · exact .refl
  · exact .ite .refl (.trans (.onFen rfl) (Dev.fenceWorks_nextTest ..))

end

/-! ### The Fence starts (R450, R522) -/

/-- The Fence's setting after an internal fault: the first one stands (R384). -/
def faultSetting (code : Nat) (x : FenPhase × Nat × FenSet) : FenPhase × Nat × FenSet :=
  if x.1 = .fault then x else (.fault, code, x.2.2)

section
variable (d : Dev)

theorem Dev.touches_fenceFault (code : Nat) : Dev.Touches fenceParts d (d.fenceFault code) := by
  unfold Dev.fenceFault
  extract_lets held d1
  have hall (e : Dev) : e.FenceWorks (((e.fenEvent 8 0xFF code).irq 60).updatePairs).followTest :=
    (((e.fenceWorks_fenEvent ..).trans (Dev.fenceWorks_irq ..)).trans (Dev.fenceWorks_updatePairs _)).trans
      (Dev.fenceWorks_followTest _)
  exact .mono (.ite .refl (.ite (d.touches_onFen _) ((d.touches_onFen _).andThen (hall d1).touches))) (by decide)

theorem Dev.fenceFault_setting {code : Nat} (hc : 1 ≤ code ∧ code ≤ 5) :
    fenSetting (d.fenceFault code).fen = faultSetting code (fenSetting d.fen) := by
  unfold Dev.fenceFault
  rw [if_neg (by omega)]
  extract_lets held d1
  have hall (e : Dev) : e.FenceWorks (((e.fenEvent 8 0xFF code).irq 60).updatePairs).followTest :=
    (((e.fenceWorks_fenEvent ..).trans (Dev.fenceWorks_irq ..)).trans (Dev.fenceWorks_updatePairs _)).trans
      (Dev.fenceWorks_followTest _)
  unfold faultSetting
  split
  · rename_i h
    rw [if_pos (show (fenSetting d.fen).1 = .fault from h)]
    rfl
  · rename_i h
    rw [if_neg (show (fenSetting d.fen).1 ≠ .fault from h), (hall d1).setting]
    rfl

/-- The setting with which the Fence starts: that of its last log entry, in RUN unless a FAULT was declared before. -/
def Dev.startSetting (d : Dev) : FenPhase × Nat × FenSet :=
  (if d.fen.st = .fault then .fault else .run, d.fen.code, d.lastSet)

/-- What the two checks of the start make of the setting (R402, R405). -/
def checkSetting (crcOk selfOk : Bool) (x : FenPhase × Nat × FenSet) : FenPhase × Nat × FenSet :=
  if crcOk = false then faultSetting 4 x else if selfOk = false then faultSetting 5 x else x

theorem Dev.fenceStart_spec (crcOk selfOk : Bool) : Dev.Touches fenceParts d (d.fenceStart crcOk selfOk) ∧
    fenSetting (d.fenceStart crcOk selfOk).fen = checkSetting crcOk selfOk d.startSetting := by
  unfold Dev.fenceStart
  extract_lets locked p _ d1 d2 d3
  have h1 : Dev.Touches [.fen] d d1 := d.touches_onFen _
  have h2 : d1.FenceWorks d2 := .foldl (fun _ _ => Dev.fenceWorks_setFenOut ..) _ _
  have h3 : Dev.Touches fenceParts d2 d3 :=
    .mono (.ite (Dev.touches_fenceFault ..) (.ite (Dev.touches_fenceFault ..) .refl)) (by decide)
  have hlast : d3.FenceWorks d3.updatePairs.followTest :=
    (Dev.fenceWorks_updatePairs _).trans (Dev.fenceWorks_followTest _)
  have hset2 : fenSetting d2.fen = d.startSetting := h2.setting
  refine ⟨.mono (((h1.andThen h2.touches).andThen h3).andThen hlast.touches) (by decide), hlast.setting.trans ?_⟩
  rw [← hset2]
  unfold d3 checkSetting
  split
  · exact d2.fenceFault_setting (by decide)
  · split
    · exact d2.fenceFault_setting (by decide)
    · rfl

/-! ### The main partition leaves reset (R450, R508, R524) -/

theorem Dev.touches_lrdScan : Dev.Touches [.lrd, .events, .reports] d d.lrdScan := by
  unfold Dev.lrdScan
  exact .mono (.andThen (.andThen (d.touches_onLrd _) (.ite .refl (Dev.touches_event ..))) (Dev.touches_writeWaiting _))
    (by decide)

theorem Dev.leaveReset_of_test {d : Dev} (h : bitAt d.sys.strapPins 3 = true) :
    d.leaveReset = d.onSec fun s => { s with phase := 2 } := if_pos h

theorem Dev.leaveReset_of_run {d : Dev} (h : bitAt d.sys.strapPins 3 = false) :
    d.leaveReset = (d.onSec fun s => { s with phase := 3 }).lrdScan.startLock := if_neg (by simp [h])

theorem Dev.startLock_clk : (d.startLock).clk.state = .search ∧ d.startLock.clk.fallback = true := ⟨rfl, rfl⟩

theorem Dev.touches_startLock : Dev.Touches [.clk] d d.startLock :=
  .mono (.andThen (Dev.touches_endSteps _) (Dev.touches_onClk ..)) (by decide)

/-- What the start of phase 3 touches beyond the phase. -/
theorem Dev.touches_scanLock : Dev.Touches [.lrd, .events, .reports, .clk] d d.lrdScan.startLock :=
  (Dev.touches_lrdScan _).andThen (Dev.touches_startLock _)

theorem Dev.touches_leaveReset : Dev.Touches [.sec, .lrd, .events, .reports, .clk] d d.leaveReset :=
  .mono (.ite (d.touches_onSec _) ((d.touches_onSec _).andThen (Dev.touches_scanLock _))) (by decide)

/-- Only the phase of the security block goes on. -/
theorem Dev.leaveReset_sec : d.leaveReset.sec =
    { d.sec with phase := if bitAt d.sys.strapPins 3 then 2 else 3 } := by
  cases h : bitAt d.sys.strapPins 3 with
  | true =>
    rw [Dev.leaveReset_of_test h]
    rfl
  | false =>
    rw [Dev.leaveReset_of_run h]
    exact ((Dev.touches_scanLock (d.onSec fun s => { s with phase := 3 })).same .sec (by decide)).symm

theorem Dev.leaveReset_clk {d : Dev} (h : bitAt d.sys.strapPins 3 = false) :
    d.leaveReset.clk.state = .search ∧ d.leaveReset.clk.fallback = true := by
  rw [Dev.leaveReset_of_run h]
  exact Dev.startLock_clk _

end

end Sys2Proof.Machine
end

section
/-! PROOFS. FENCE_INIT (R384, R450, R522). -/

namespace Sys2Proof.Machine

open Host

section
variable {crcOk selfOk : Bool} {d : Dev}

theorem checkSetting_run (code : Nat) (p : FenSet) : checkSetting crcOk selfOk (.run, code, p) =
    (if crcOk && selfOk then .run else .fault, if crcOk then (if selfOk then code else 5) else 4, p) := by
  cases crcOk <;> cases selfOk <;> rfl

theorem checkSetting_fault (code : Nat) (p : FenSet) :
    checkSetting crcOk selfOk (.fault, code, p) = (.fault, code, p) := by
  cases crcOk <;> cases selfOk <;> rfl

/-- The Fence starts with the row: it stands in INIT, or in a FAULT that a power-on reset has left (R384). -/
def Dev.fenceStarts (d : Dev) : Prop := d.fen.st = .init ∨ (d.fen.st = .fault ∧ d.sec.phase ≤ 2 ∧ ¬ d.sys.resetCause = 1)

/-- The Fence after the row. -/
def Dev.fenceStarted (crcOk selfOk : Bool) (d e : Dev) : Prop :=
  (d.fenceStarts ∧ e = d.fenceStart crcOk selfOk) ∨ (¬ d.fenceStarts ∧ e = d)

theorem Dev.fenceInit_eq (hh : d.fen.held = false) : ∃ e, Dev.fenceStarted crcOk selfOk d e ∧
    d.fenceInit crcOk selfOk = if 2 < d.sec.phase then e else e.leaveReset := by
  by_cases h : d.fenceStarts
  · refine ⟨_, .inl ⟨h, rfl⟩, ?_⟩
    unfold Dev.fenceInit
    unfold Dev.fenceStarts at h
    simp [hh, and_assoc, h]
  · refine ⟨_, .inr ⟨h, rfl⟩, ?_⟩
    unfold Dev.fenceInit
    unfold Dev.fenceStarts at h
    simp [hh, and_assoc, h]

theorem Dev.fenceInit_idle (h : (2 < d.sec.phase ∧ d.fen.st ≠ .init) ∨ d.fen.held = true) :
    d.fenceInit crcOk selfOk = d := by
  cases hh : d.fen.held with
  | true => exact if_pos hh
  | false =>
    obtain ⟨hp, hst⟩ : 2 < d.sec.phase ∧ d.fen.st ≠ .init := by simpa [hh] using h
    obtain ⟨e, he, heq⟩ := Dev.fenceInit_eq (crcOk := crcOk) (selfOk := selfOk) hh
    rw [heq, if_pos hp]
    obtain ⟨hs, -⟩ | ⟨-, rfl⟩ := he
    · obtain hi | ⟨-, hle, -⟩ := hs
      · exact absurd hi hst
      · omega
    · rfl

theorem Dev.fenceStarted_touches {e : Dev} (h : Dev.fenceStarted crcOk selfOk d e) : Dev.Touches fenceParts d e := by
  obtain ⟨-, rfl⟩ | ⟨-, rfl⟩ := h
  · exact (d.fenceStart_spec crcOk selfOk).1
  · exact .mono .refl (by decide)

theorem Dev.fenceStarted_setting {e : Dev} (h : Dev.fenceStarted crcOk selfOk d e) (hs : d.fenceStarts) :
    fenSetting e.fen = checkSetting crcOk selfOk d.startSetting := by
  obtain ⟨-, rfl⟩ | ⟨hn, -⟩ := h
  · exact (d.fenceStart_spec crcOk selfOk).2
  · exact absurd hs hn

end

/-- FENCE_INIT where nothing starts. -/
theorem fenceInit_idle (crcOk selfOk : Bool) (s : State)
    (h : (2 < s.dev.sec.phase ∧ s.dev.fen.st ≠ .init) ∨ s.dev.fen.held = true) :
    exec (.fenceInit crcOk selfOk) s = .next (s.after s.fresh) :=
  exec_of_effect rfl (Dev.fenceInit_idle (d := s.fresh) h)

/-- FENCE_INIT in phases 1 and 2. -/
theorem fenceInit_boot (a b : Bool) (s : State) (hp : s.dev.sec.phase ≤ 2) (hh : s.dev.fen.held = false) :
    Answers (.fenceInit a b) s fun t =>
    (s.dev.fen.st = .init →
      t.dev.fen.st = (if a && b then .run else .fault) ∧
      t.dev.fen.code = (if a then (if b then s.dev.fen.code else 5) else 4) ∧
      t.dev.fen.passcode = s.dev.lastSet.passcode ∧ t.dev.fen.inCfg = s.dev.lastSet.inCfg ∧
      t.dev.fen.pairCfg = s.dev.lastSet.pairCfg) ∧
    (s.dev.fen.st = .fault → s.dev.sys.resetCause ≠ 1 → t.dev.fen.st = .fault ∧ t.dev.fen.code = s.dev.fen.code) ∧
    (s.dev.fen.st = .run ∨ (s.dev.fen.st = .fault ∧ s.dev.sys.resetCause = 1) → t.dev.fen = s.dev.fen) ∧
    (bitAt s.dev.sys.strapPins 3 = false → t.dev.sec.phase = 3 ∧ t.dev.clk.state = .search ∧ t.dev.clk.fallback = true) ∧
    (bitAt s.dev.sys.strapPins 3 = true → t.dev.sec = { s.dev.sec with phase := 2 }) ∧ t.pending = s.pending := by
  obtain ⟨e, he, heq⟩ := Dev.fenceInit_eq (crcOk := a) (selfOk := b) (d := s.fresh) hh
  rw [if_neg (show ¬ 2 < s.fresh.sec.phase from Nat.not_lt.mpr hp)] at heq
  have htouch : Dev.Touches fenceParts s.fresh e := Dev.fenceStarted_touches he
  have hsys : s.dev.sys = e.sys := htouch.same .sys (by decide)
  have hsec : s.dev.sec = e.sec := htouch.same .sec (by decide)
  have hfen : e.fen = e.leaveReset.fen := (Dev.touches_leaveReset e).same .fen (by decide)
  have hphase := e.leaveReset_sec
  refine ⟨_, exec_of_effect rfl heq, fun hst => ?_, fun hst hr => ?_, fun hst => ?_, fun hb => ?_, fun hb => ?_, rfl⟩
  · have hset := Dev.fenceStarted_setting he (.inl hst)
    have hstart : s.fresh.startSetting = (.run, s.dev.fen.code, s.dev.lastSet) :=
      Prod.ext (if_neg (by simp [hst])) rfl
    rw [hstart, checkSetting_run, hfen] at hset
    exact ⟨congrArg (·.1) hset, congrArg (·.2.1) hset, congrArg (·.2.2.passcode) hset, congrArg (·.2.2.inCfg) hset,
      congrArg (·.2.2.pairCfg) hset⟩
  · have hset := Dev.fenceStarted_setting he (.inr ⟨hst, hp, hr⟩)
    have hstart : s.fresh.startSetting = (.fault, s.dev.fen.code, s.dev.lastSet) := Prod.ext (if_pos hst) rfl
    rw [hstart, checkSetting_fault, hfen] at hset
    exact ⟨congrArg (·.1) hset, congrArg (·.2.1) hset⟩
  · obtain ⟨hs, -⟩ | ⟨-, rfl⟩ := he
    · exfalso
      have hs' : s.dev.fen.st = .init ∨ (s.dev.fen.st = .fault ∧ s.dev.sec.phase ≤ 2 ∧ s.dev.sys.resetCause ≠ 1) := hs
      obtain hrun | ⟨hfault, hcause⟩ := hst
      · simp [hrun] at hs'
      · simp [hfault, hcause] at hs'
    · exact hfen.symm
  · rw [← hsys, hb, if_neg (by simp)] at hphase
    exact ⟨congrArg SecState.phase hphase, Dev.leaveReset_clk (hsys ▸ hb)⟩
  · rw [← hsys, hb, ← hsec] at hphase
    exact hphase

end Sys2Proof.Machine
end

section
/-! PROOFS. Resets (R35, R461, R521, R523). -/

namespace Sys2Proof.SMap

/-- Keys restored from an older table read either as they were or as in that table. -/
theorem get_foldl_restore (p : Nat → Bool) (old : SMap Nat) (l : List Nat) (m : SMap Nat) (k : Nat) :
    (l.foldl (fun m i => if p i then m else m.set 0 i (old.get 0 i)) m).get 0 k = m.get 0 k ∨
      (l.foldl (fun m i => if p i then m else m.set 0 i (old.get 0 i)) m).get 0 k = old.get 0 k := by
  induction l generalizing m with
  | nil => exact .inl rfl
  | cons i rest ih =>
    rw [List.foldl_cons]
    obtain h | h := ih (if p i then m else m.set 0 i (old.get 0 i))
    · rw [h]
      split
      · exact .inl rfl
      · by_cases hk : i = k
        · subst hk
          exact .inr (get_set_self ..)
        · exact .inl (get_set_other _ _ _ _ hk)
    · exact .inr h

end Sys2Proof.SMap

namespace Sys2Proof.Machine

open Host

/-! ### What power failing in an ADVANCE leaves (R461) -/

section
variable (d : Dev)

theorem Dev.keeps_free (n : Nat) : Dev.Keeps [.free] d { d with free := n } := by
  refine ⟨fun p hp => ?_⟩
  cases p
  case free => simp at hp
  case reports => exact ⟨rfl, rfl, rfl, rfl⟩
  case commands => exact ⟨rfl, rfl, rfl, rfl, rfl⟩
  all_goals rfl

theorem Dev.keeps_cutAdvance : Dev.Keeps [.sec, .free] d d.cutAdvance := by
  unfold Dev.cutAdvance
  split
  · exact .refl _ _
  · split
    · exact .refl _ _
    · exact .andThen ((d.keeps_free _).mono (by decide)) (Dev.keeps_onSec ..) (by decide)

theorem Dev.cutAdvance_slots : d.cutAdvance.sec.slots = d.sec.slots := by
  unfold Dev.cutAdvance
  split
  · rfl
  · split <;> rfl

variable {d}

theorem Dev.cutAdvance_of_done (h : ∀ r ∈ d.sec.advance, r.since + 5 * msTicks ≤ d.now) : d.cutAdvance = d := by
  unfold Dev.cutAdvance
  split
  · rfl
  · rename_i r hr
    exact if_pos (h r hr)

theorem Dev.cutAdvance_spec {r : AdvanceRun} (hr : d.sec.advance = some r) (h : d.now < r.since + 5 * msTicks) :
    d.cutAdvance.free = d.free + 1 ∧
    (r.arb ≤ d.sec.arb → r.arb ≤ d.cutAdvance.sec.arb ∧ d.cutAdvance.sec.arb ≤ d.sec.arb) ∧
    ∀ k, d.cutAdvance.sec.keys.get 0 k = d.sec.keys.get 0 k ∨ d.cutAdvance.sec.keys.get 0 k = r.keys.get 0 k := by
  unfold Dev.cutAdvance
  rw [hr]
  dsimp only
  rw [if_neg (Nat.not_le.mpr h)]
  refine ⟨rfl, fun harb => ?_, fun k => SMap.get_foldl_restore ..⟩
  have hmod : (Config.cutCounter d.free).toNat % (d.sec.arb + 1 - r.arb) < d.sec.arb + 1 - r.arb :=
    Nat.mod_lt _ (by omega)
  have hle : r.arb + (Config.cutCounter d.free).toNat % (d.sec.arb + 1 - r.arb) ≤ d.sec.arb := by omega
  exact ⟨Nat.le_add_right _ _, hle⟩

end

end Sys2Proof.Machine
end

section
/-! PROOFS. POWER_ON_RESET (R35, R461, R521). -/

namespace Sys2Proof.Machine

open Host

/-! ### What the due records leave -/

theorem larderWrite_user (phase : Nat) (l : LrdState) (x : Nat × List Byte) : (larderWrite phase l x).user = l.user := by
  unfold larderWrite
  dsimp only
  split
  · rfl
  · split <;> rfl

theorem foldl_larderWrite_user (phase : Nat) (l : LrdState) (xs : List (Nat × List Byte)) :
    (xs.foldl (larderWrite phase) l).user = l.user := by
  induction xs generalizing l with
  | nil => rfl
  | cons x rest ih => rw [List.foldl_cons, ih, larderWrite_user]

theorem Dev.flushRecords_user (d : Dev) : d.flushRecords.lrd.user = d.lrd.user := by
  rw [Dev.flushRecords_lrd, foldl_larderWrite_user]

theorem State.fresh_flushRecords_lrd (s : State) : s.fresh.flushRecords.lrd = s.dev.flushRecords.lrd := by
  rw [Dev.flushRecords_lrd, Dev.flushRecords_lrd]
  rfl

/-! ### Straps -/

theorem bitAt_toNat {w : Nat} (v : BitVec w) (n : Nat) : bitAt v.toNat n = v.getLsbD n := by
  rw [bitAt, BitVec.getLsbD, Nat.testBit_eq_decide_div_mod_eq]

theorem bits_low (v : Nat) : bits v 1 0 = v % 4 := by simp [bits]

/-! ### The row -/

/-- The device from which a power-on reset takes what is non-volatile. -/
def Dev.powerFailed (d : Dev) : Dev := d.flushRecords.cutAdvance

section
variable (d : Dev)

theorem Dev.keeps_powerFailed : Dev.Keeps [.lrd, .events, .reports, .sec, .free] d d.powerFailed :=
  .andThen (d.touches_flushRecords.keeps.mono (by decide)) (Dev.keeps_cutAdvance _) (by decide)

theorem Dev.powerFailed_fen : d.powerFailed.fen = d.fen := (d.keeps_powerFailed.same .fen (by decide)).symm

theorem Dev.powerFailed_lrd : d.powerFailed.lrd = d.flushRecords.lrd :=
  ((Dev.keeps_cutAdvance _).same .lrd (by decide)).symm

theorem Dev.flushRecords_sec : d.flushRecords.sec = d.sec := (d.touches_flushRecords.same .sec (by decide)).symm

theorem Dev.flushRecords_free : d.flushRecords.free = d.free := (d.touches_flushRecords.same .free (by decide)).symm

theorem Dev.flushRecords_now : d.flushRecords.now = d.now := d.touches_flushRecords.tick.symm

theorem Dev.powerFailed_slots : d.powerFailed.sec.slots = d.sec.slots := by
  unfold Dev.powerFailed
  rw [Dev.cutAdvance_slots, Dev.flushRecords_sec]

variable {d}

theorem Dev.powerFailed_of_done (h : ∀ r ∈ d.sec.advance, r.since + 5 * msTicks ≤ d.now) :
    d.powerFailed = d.flushRecords :=
  Dev.cutAdvance_of_done (by rwa [Dev.flushRecords_sec, Dev.flushRecords_now])

theorem Dev.powerFailed_spec {r : AdvanceRun} (hr : d.sec.advance = some r) (h : d.now < r.since + 5 * msTicks) :
    d.powerFailed.free = d.free + 1 ∧
    (r.arb ≤ d.sec.arb → r.arb ≤ d.powerFailed.sec.arb ∧ d.powerFailed.sec.arb ≤ d.sec.arb) ∧
    ∀ k, d.powerFailed.sec.keys.get 0 k = d.sec.keys.get 0 k ∨ d.powerFailed.sec.keys.get 0 k = r.keys.get 0 k := by
  have hspec := Dev.cutAdvance_spec (d := d.flushRecords) (by rwa [Dev.flushRecords_sec]) (by rwa [Dev.flushRecords_now])
  rwa [Dev.flushRecords_sec, Dev.flushRecords_free] at hspec

end

/-- POWER_ON_RESET (R35, R521): reset values everywhere but in the non-volatile state of the device whose power failed. -/
theorem powerOnReset (st : BitVec 4) (s : State) : Answers (.powerOnReset st) s fun t =>
    t.dev.regs = RegsState.reset ∧ t.dev.ang = AngState.reset ∧ t.dev.gfm = GfmState.reset ∧ t.dev.host = HostState.reset ∧
    t.dev.sec.phase = 2 ∧ t.dev.sys.straps = st.toNat ∧ t.dev.sys.strapPins = st.toNat ∧ t.dev.twn.primary = st.getLsbD 2 ∧
    t.dev.sec.src = st.toNat % 4 ∧ t.dev.fen.st = .init ∧ t.dev.fen.passcode = s.dev.fen.passcode ∧
    t.dev.fen.inCfg = s.dev.fen.inCfg ∧ t.dev.fen.pairCfg = s.dev.fen.pairCfg ∧ t.dev.fen.log = s.dev.fen.log ∧
    t.dev.fen.sets = s.dev.fen.sets ∧
    t.dev.fen.lockEnd = (if s.dev.fenLocked then some 12000000 else none) ∧
    t.dev.lrd.lines = s.dev.flushRecords.lrd.lines ∧ (s.dev.lrd.due = [] → t.dev.lrd.lines = s.dev.lrd.lines) ∧
    t.dev.lrd.user = s.dev.lrd.user ∧ t.dev.sec.slots = s.dev.sec.slots ∧
    ((∀ r ∈ s.dev.sec.advance, r.since + 5 * msTicks ≤ s.dev.now) → t.dev.sec.keys = s.dev.sec.keys ∧
      t.dev.sec.arb = s.dev.sec.arb ∧ t.dev.sec.revoked = s.dev.sec.revoked ∧ t.dev.free = s.dev.free) ∧
    (∀ r, s.dev.sec.advance = some r → s.dev.now < r.since + 5 * msTicks → t.dev.free = s.dev.free + 1 ∧
      (r.arb ≤ s.dev.sec.arb → r.arb ≤ t.dev.sec.arb ∧ t.dev.sec.arb ≤ s.dev.sec.arb) ∧
      ∀ k < 4, t.dev.sec.keys.get 0 k = s.dev.sec.keys.get 0 k ∨ t.dev.sec.keys.get 0 k = r.keys.get 0 k) ∧
    t.pending = s.pending ∧ t.mem = s.mem := by
  have hfen : s.fresh.powerFailed.fen = s.dev.fen := s.fresh.powerFailed_fen
  have hlines : s.fresh.powerFailed.lrd.lines = s.dev.flushRecords.lrd.lines := by
    rw [Dev.powerFailed_lrd, State.fresh_flushRecords_lrd]
  have huser : s.fresh.powerFailed.lrd.user = s.dev.lrd.user := by
    rw [Dev.powerFailed_lrd, Dev.flushRecords_user]
    rfl
  have hlock : s.fresh.powerFailed.fenLocked = s.dev.fenLocked := by
    unfold Dev.fenLocked
    rw [hfen]
  refine ⟨_, rfl, rfl, rfl, rfl, rfl, rfl, rfl, rfl, bitAt_toNat st 2, bits_low _, rfl, (congrArg FenState.passcode hfen :),
    (congrArg FenState.inCfg hfen :), (congrArg FenState.pairCfg hfen :), (congrArg FenState.log hfen :),
    (congrArg FenState.sets hfen :),
    congrArg (fun b : Bool => if b then some 12000000 else none) hlock, hlines, fun hdue => ?_, huser,
    s.fresh.powerFailed_slots, fun hdone => ?_, fun r hr hcut => ?_, rfl, rfl⟩
  · exact hlines.trans (by rw [Dev.flushRecords_of_none hdue])
  · have hsame : s.fresh.powerFailed = s.fresh.flushRecords := Dev.powerFailed_of_done (d := s.fresh) hdone
    have hsec : s.fresh.powerFailed.sec = s.dev.sec := by
      rw [hsame]
      exact s.fresh.flushRecords_sec
    have hfree : s.fresh.powerFailed.free = s.dev.free := by
      rw [hsame]
      exact s.fresh.flushRecords_free
    exact ⟨(congrArg SecState.keys hsec :), (congrArg SecState.arb hsec :), (congrArg SecState.revoked hsec :), hfree⟩
  · obtain ⟨hfree, harb, hkeys⟩ := Dev.powerFailed_spec (d := s.fresh) hr hcut
    exact ⟨hfree, harb, fun k _ => hkeys k⟩

end Sys2Proof.Machine
end

section
/-! PROOFS. SYS_RESET (R35, R523, R524). -/

namespace Sys2Proof.Machine

open Host

/-! ### The scan of a Larder in which nothing waits -/

section
variable {d : Dev}

theorem Dev.writeWaiting_of_none (h : d.lrd.waiting = []) : d.writeWaiting = d := by
  have hl : { d.lrd with waiting := [] } = d.lrd := by rw [← h]
  unfold Dev.writeWaiting
  split
  · rfl
  · rw [h, hl]
    rfl

theorem Dev.event_out_of_full {blk : Nat} (bit d0 d1 d2 : Nat) (h : d.ringRoom (d.eventRing blk) = 0) :
    (d.event blk bit d0 d1 d2).host.out = d.host.out := by
  have hroom : (d.setBit (eventReg blk d0) bit).ringRoom ((d.setBit (eventReg blk d0) bit).eventRing blk) = 0 := h
  unfold Dev.event Dev.report
  dsimp only
  rw [if_pos (.inl hroom)]
  rfl

/-- The scan keeps the lines, and posts nothing while the event ring of LRD has no room. -/
theorem Dev.lrdScan_of_none (hw : d.lrd.waiting = []) (hr : d.ringRoom (d.eventRing 18) = 0) :
    d.lrdScan.lrd.lines = d.lrd.lines ∧ d.lrdScan.host.out = d.host.out := by
  unfold Dev.lrdScan
  extract_lets good bad d1 d2
  have h2 : d2.lrd = d1.lrd ∧ d2.host.out = d1.host.out := by
    unfold d2
    split
    · exact ⟨rfl, rfl⟩
    · exact ⟨Dev.event_lrd .., Dev.event_out_of_full (d := d1) _ _ _ _ hr⟩
  obtain ⟨hlrd, hout⟩ := h2
  have hnone : d2.lrd.waiting = [] := by
    rw [hlrd]
    exact hw
  rw [Dev.writeWaiting_of_none hnone, hlrd, hout]
  exact ⟨rfl, rfl⟩

/-- So does the start of phase 3. -/
theorem Dev.leaveReset_of_none (hw : d.lrd.waiting = []) (hr : d.ringRoom (d.eventRing 18) = 0) :
    d.leaveReset.lrd.lines = d.lrd.lines ∧ d.leaveReset.host.out = d.host.out := by
  cases h : bitAt d.sys.strapPins 3 with
  | true =>
    rw [Dev.leaveReset_of_test h]
    exact ⟨rfl, rfl⟩
  | false =>
    rw [Dev.leaveReset_of_run h]
    exact Dev.lrdScan_of_none (d := d.onSec fun s => { s with phase := 3 }) hw hr

end

/-! ### The main partition in reset -/

/-- The straps as a main-partition reset samples them: TWIN_ROLE stays (R524). -/
def sampledStraps (pins old : Nat) : Nat := pack [(bits pins 3 3, 3), (bits old 2 2, 2), (bits pins 1 0, 0)]

theorem sampledStraps_source (pins old : Nat) : bits (sampledStraps pins old) 1 0 = pins % 4 := by
  simp [sampledStraps, pack, bits]
  omega

/-- The completion of a FENCE_TEST that is lost with the reset. -/
def lostTest (f : FenState) : List InFlight := match f.openTest with
  | some t => [{ ring := t.ring, slot := t.slot, tag := t.tag, opcode := 0x61, ordered := false, lost := true,
                 dropped := false, desc := 0 }]
  | none => []

/-- The device while its main partition stands in reset. -/
def Dev.inReset (old : Dev) : Dev :=
  let d := { Dev.keepEnds old (Dev.keepNv old Dev.reset) with fen := old.fen }
  let d := d.onHost fun h => { h with
    pcie := old.host.pcie, linkUp := old.host.linkUp, speed := old.host.speed, width := old.host.width
    inflight := lostTest old.fen }
  let d := (d.sampleStraps (sampledStraps old.sys.strapPins old.sys.straps)).onTwn fun t =>
    { t with primary := old.twn.primary }
  d.onSys fun s => { s with resetCause := 1, strapPins := old.sys.strapPins }

theorem Dev.mainReset_eq (d : Dev) : d.mainReset = d.flushRecords.inReset.leaveReset := rfl

section
variable (d : Dev)

theorem Dev.inReset_ringRoom : d.inReset.ringRoom (d.inReset.eventRing 18) = 0 := by
  have hring : d.inReset.eventRing 18 < 32 := by
    have hlt : bits (d.inReset.cfg Reg.HOST_EVT_ROUTE_H) 5 4 < 4 := Nat.mod_lt _ (by decide)
    exact Nat.add_lt_add_left (Nat.lt_trans hlt (by decide : 4 < 16)) 16
  exact if_neg (by rw [show d.inReset.ringEn _ = false from reset_ringEn hring]; decide)

theorem Dev.inReset_leaves : d.inReset.leaveReset.lrd.lines = d.lrd.lines ∧ d.inReset.leaveReset.host.out = [] :=
  Dev.leaveReset_of_none (d := d.inReset) rfl d.inReset_ringRoom

end

/-- Two devices with the same host interface and the same commands have the same configuration space. -/
theorem pcie_of_same {a d : Dev} (hh : Part.host.same a d) (hc : Part.commands.same a d) : d.host.pcie = a.host.pcie := by
  obtain ⟨-, -, -, -, haer⟩ := hc
  have hcore : { d.host.pcie with aerCnt := 0 } = { a.host.pcie with aerCnt := 0 } :=
    (congrArg HostState.pcie (hh : hostCore a.host = hostCore d.host).symm :)
  calc d.host.pcie = { ({ d.host.pcie with aerCnt := 0 } : ConfigSpace) with aerCnt := d.host.pcie.aerCnt } := rfl
    _ = { ({ a.host.pcie with aerCnt := 0 } : ConfigSpace) with aerCnt := a.host.pcie.aerCnt } := by rw [hcore, haer]

section
variable (d : Dev)

/-- The main partition has left reset, or stands in it with TEST_EN. -/
theorem Dev.mainReset_touches : Dev.Touches [.sec, .lrd, .events, .reports, .clk] d.flushRecords.inReset d.mainReset :=
  d.flushRecords.inReset.touches_leaveReset

theorem Dev.mainReset_fen : d.mainReset.fen = d.fen :=
  (d.mainReset_touches.same .fen (by decide) : d.flushRecords.fen = _).symm.trans
    (d.touches_flushRecords.same .fen (by decide)).symm

theorem Dev.mainReset_sys : d.mainReset.sys.resetCause = 1 ∧ d.mainReset.sys.strapPins = d.sys.strapPins := by
  have hafter : d.flushRecords.inReset.sys = d.mainReset.sys := d.mainReset_touches.same .sys (by decide)
  have hbefore : d.sys = d.flushRecords.sys := d.touches_flushRecords.same .sys (by decide)
  rw [← hafter, hbefore]
  exact ⟨rfl, rfl⟩

theorem Dev.mainReset_regs : d.mainReset.regs.inForce = .empty ∧ d.mainReset.regs.staged = .empty := by
  have hvalues := d.mainReset_touches.same .values (by decide)
  exact ⟨(congrArg RegsState.inForce hvalues.symm :), (congrArg RegsState.staged hvalues.symm :)⟩

theorem Dev.mainReset_sec : d.mainReset.sec.phase = (if bitAt d.sys.strapPins 3 then 2 else 3) ∧
    d.mainReset.sec.src = d.sys.strapPins % 4 ∧ d.mainReset.sec.slots = d.sec.slots ∧
    d.mainReset.sec.keys = d.sec.keys := by
  have hsec := d.flushRecords.inReset.leaveReset_sec
  have hsys : d.sys = d.flushRecords.sys := d.touches_flushRecords.same .sys (by decide)
  rw [Dev.mainReset_eq, hsec, hsys, ← d.flushRecords_sec]
  exact ⟨rfl, sampledStraps_source .., rfl, rfl⟩

theorem Dev.mainReset_clk (h : bitAt d.sys.strapPins 3 = false) : d.mainReset.clk.state = .search := by
  have hsys : d.sys = d.flushRecords.sys := d.touches_flushRecords.same .sys (by decide)
  have hpins : bitAt d.flushRecords.sys.strapPins 3 = false := by rw [← hsys, h]
  obtain ⟨hstate, -⟩ := Dev.leaveReset_clk (d := d.flushRecords.inReset) hpins
  exact hstate

theorem Dev.mainReset_host : d.mainReset.host.linkUp = d.host.linkUp ∧ d.mainReset.host.pcie = d.host.pcie ∧
    d.mainReset.host.out = [] := by
  have hcore : hostCore d.flushRecords.inReset.host = hostCore d.mainReset.host := d.mainReset_touches.same .host (by decide)
  have hflush : hostCore d.host = hostCore d.flushRecords.host := d.touches_flushRecords.same .host (by decide)
  have hafter : d.mainReset.host.pcie = d.flushRecords.inReset.host.pcie :=
    pcie_of_same (d.mainReset_touches.same .host (by decide)) (d.mainReset_touches.same .commands (by decide))
  have hbefore : d.flushRecords.host.pcie = d.host.pcie :=
    pcie_of_same (d.touches_flushRecords.same .host (by decide)) (d.touches_flushRecords.same .commands (by decide))
  obtain ⟨-, hout⟩ := d.flushRecords.inReset_leaves
  exact ⟨(congrArg HostState.linkUp hcore.symm :).trans (congrArg HostState.linkUp hflush.symm :), hafter.trans hbefore, hout⟩

theorem Dev.mainReset_primary : d.mainReset.twn.primary = d.twn.primary := by
  have hafter := d.mainReset_touches.same .twn (by decide)
  have hbefore := d.touches_flushRecords.same .twn (by decide)
  exact (congrArg TwnState.primary hafter.symm :).trans (congrArg TwnState.primary hbefore.symm :)

theorem Dev.mainReset_lines : d.mainReset.lrd.lines = d.flushRecords.lrd.lines := by
  obtain ⟨hlines, -⟩ := d.flushRecords.inReset_leaves
  exact hlines

end

/-! ### The row -/

/-- SYS_RESET without its key, its bit or leave to reset is an access error. -/
theorem sysReset_refused (v : W32) (s : State)
    (h : v.extractLsb' 16 16 ≠ 0xA5C3 ∨ v.getLsbD 0 = false ∨ s.dev.resetAllowed = false) :
    exec (.sysReset v) s = .next (s.after (s.fresh.accessErr 0 Reg.SYS_RESET)) := by
  refine exec_of_effect rfl (if_neg ?_)
  rintro ⟨hkey, hbit, hallowed⟩
  have hallowed' : s.dev.resetAllowed = true := hallowed
  obtain h | h | h := h
  · exact h hkey
  · exact Bool.eq_false_iff.mp h hbit
  · exact Bool.eq_false_iff.mp h hallowed'

/-- SYS_RESET with its key resets the main partition alone (R523, R524). -/
theorem sysReset_allowed (v : W32) (s : State) (hkey : v.extractLsb' 16 16 = 0xA5C3) (hbit : v.getLsbD 0 = true)
    (hallowed : s.dev.resetAllowed = true) : Answers (.sysReset v) s fun t =>
      t.dev.fen = s.dev.fen ∧ t.dev.sys.resetCause = 1 ∧ t.dev.regs.inForce = .empty ∧
      t.dev.regs.staged = .empty ∧ t.dev.ang = AngState.reset ∧ t.dev.gfm = GfmState.reset ∧
      (bitAt s.dev.sys.strapPins 3 = false → t.dev.sec.phase = 3 ∧ t.dev.clk.state = .search) ∧
      (bitAt s.dev.sys.strapPins 3 = true → t.dev.sec.phase = 2) ∧ t.dev.sys.strapPins = s.dev.sys.strapPins ∧
      t.dev.sec.src = s.dev.sys.strapPins % 4 ∧ t.dev.sec.slots = s.dev.sec.slots ∧
      t.dev.host.linkUp = s.dev.host.linkUp ∧ t.dev.host.pcie = s.dev.host.pcie ∧
      (s.dev.lrd.due = [] → t.dev.lrd.lines = s.dev.lrd.lines) ∧ t.dev.sec.keys = s.dev.sec.keys ∧
      t.dev.twn.primary = s.dev.twn.primary ∧ t.pending = s.pending ∧ Quiet s t := by
  have hrow : s.fresh.sysReset v = s.fresh.mainReset := if_pos ⟨hkey, hbit, hallowed⟩
  obtain ⟨hcause, hpins⟩ := s.fresh.mainReset_sys
  obtain ⟨hforce, hstaged⟩ := s.fresh.mainReset_regs
  obtain ⟨hphase, hsrc, hslots, hkeys⟩ := s.fresh.mainReset_sec
  obtain ⟨hlink, hpcie, hout⟩ := s.fresh.mainReset_host
  refine ⟨_, exec_of_effect rfl hrow, s.fresh.mainReset_fen, hcause, hforce, hstaged,
    (s.fresh.mainReset_touches.same .ang (by decide)).symm, (s.fresh.mainReset_touches.same .gfm (by decide)).symm,
    fun h => ⟨hphase.trans (if_neg ?_), s.fresh.mainReset_clk h⟩, fun h => hphase.trans (if_pos h), hpins, hsrc, hslots,
    hlink, hpcie, fun hdue => ?_, hkeys, s.fresh.mainReset_primary, rfl, fun hout0 => ?_⟩
  · exact Bool.eq_false_iff.mp h
  · exact s.fresh.mainReset_lines.trans (by rw [Dev.flushRecords_of_none (d := s.fresh) hdue]; rfl)
  · exact Quiet.of_out (hout.trans hout0.symm) hout0

end Sys2Proof.Machine
end

section
/-! PROOFS. Pairs that are held show their safe levels, and the start of phase 6 (R26, R210, R453, R510). -/

namespace Sys2Proof.Machine

open Host

/-! ### One pair takes its safe state -/

section
variable (d : Dev) (p k : Nat)

/-- A pair in its safe state (R210, R211). -/
def Dev.inSafe (d : Dev) (p : Nat) (x : PwmPair) : PwmPair :=
  { x with outA := d.safeA p, outB := d.safeB p, safe := true, x := false, rise := none, carry := 0 }

theorem Dev.pair_setPair_self (v : PwmPair) : (d.setPair p v).pair p = v := SMap.get_set_self ..

theorem Dev.pair_setPair_of_ne {p k : Nat} (h : p ≠ k) (v : PwmPair) : (d.setPair p v).pair k = d.pair k :=
  SMap.get_set_of_ne _ _ _ h

theorem Dev.pair_pairSafe_self : (d.pairSafe p).pair p = d.inSafe p (d.pair p) := by
  have hout : (d.setOut p (d.safeA p) (d.safeB p)).pair p = { d.pair p with outA := d.safeA p, outB := d.safeB p } :=
    d.pair_setPair_self p _
  unfold Dev.pairSafe
  dsimp only
  rw [Dev.pair_setPair_self, hout]
  rfl

theorem Dev.pair_pairSafe_of_ne {p k : Nat} (h : p ≠ k) : (d.pairSafe p).pair k = d.pair k :=
  (Dev.pair_setPair_of_ne _ h _).trans (d.pair_setPair_of_ne h _ : (d.setOut p (d.safeA p) (d.safeB p)).pair k = d.pair k)

/-- Whether a pair is held depends on PWM through its latch and its period alone. -/
theorem Dev.pairHeld_onPwm {d : Dev} {k : Nat} {f : PwmState → PwmState} (hl : ((d.onPwm f).pair k).latch = (d.pair k).latch)
    (hp : ((d.onPwm f).pair k).period = (d.pair k).period) : (d.onPwm f).pairHeld k = d.pairHeld k := by
  unfold Dev.pairHeld
  rw [hl, hp]
  rfl

theorem Dev.pairSafe_onPwm : ∃ w, d.pairSafe p = d.onPwm fun _ => w := ⟨_, rfl⟩

theorem Dev.pairHeld_pairSafe : (d.pairSafe p).pairHeld k = d.pairHeld k := by
  obtain ⟨w, hw⟩ := d.pairSafe_onPwm p
  have hpair : ((d.pairSafe p).pair k).latch = (d.pair k).latch ∧ ((d.pairSafe p).pair k).period = (d.pair k).period := by
    by_cases h : p = k
    · subst h
      rw [Dev.pair_pairSafe_self]
      exact ⟨rfl, rfl⟩
    · rw [d.pair_pairSafe_of_ne h]
      exact ⟨rfl, rfl⟩
  rw [hw] at hpair ⊢
  exact Dev.pairHeld_onPwm hpair.1 hpair.2

/-! ### All of them -/

/-- A pair shows its safe levels where it is held. -/
def Dev.showsSafe (d : Dev) (p : Nat) : Prop :=
  d.pairHeld p = true → (d.pair p).outA = d.safeA p ∧ (d.pair p).outB = d.safeB p

/-- One step of `holdPairs`. -/
def Dev.holdPair (d : Dev) (p : Nat) : Dev :=
  if d.pairHeld p && (!(d.pair p).safe || d.safeMoved p) then d.pairSafe p else d

theorem Dev.holdPairs_eq : d.holdPairs = (upto 12).foldl Dev.holdPair d := rfl

theorem Dev.showsSafe_pairSafe : (d.pairSafe p).showsSafe p := by
  intro _
  rw [Dev.pair_pairSafe_self]
  exact ⟨rfl, rfl⟩

theorem Dev.showsSafe_holdPair : (d.holdPair p).showsSafe p := by
  unfold Dev.holdPair
  split
  · exact d.showsSafe_pairSafe p
  · rename_i h
    intro hheld
    simp only [hheld, Dev.safeMoved, Bool.true_and, Bool.or_eq_true, Bool.not_eq_true', Bool.and_eq_true,
      decide_eq_true_eq] at h
    push Not at h
    exact h.2 (by simpa using h.1)

/-- A step on one pair leaves what the others show. -/
theorem Dev.holdPair_showsSafe (h : d.showsSafe k) : (d.holdPair p).showsSafe k := by
  by_cases hk : p = k
  · subst hk
    exact d.showsSafe_holdPair p
  · unfold Dev.holdPair
    split
    · intro hheld
      rw [Dev.pairHeld_pairSafe] at hheld
      rw [d.pair_pairSafe_of_ne hk]
      exact h hheld
    · exact h

theorem Dev.showsSafe_foldl {l : List Nat} (h : k ∈ l ∨ d.showsSafe k) : (l.foldl Dev.holdPair d).showsSafe k := by
  induction l generalizing d with
  | nil => simpa using h
  | cons x rest ih =>
    refine ih _ ?_
    obtain hmem | hshown := h
    · obtain rfl | hrest := List.mem_cons.mp hmem
      · exact .inr (d.showsSafe_holdPair k)
      · exact .inl hrest
    · exact .inr (d.holdPair_showsSafe x k hshown)

theorem Dev.showsSafe_holdPairs {p : Nat} (h : p < 12) : d.holdPairs.showsSafe p := by
  rw [Dev.holdPairs_eq]
  exact d.showsSafe_foldl p (.inl (List.mem_range.mpr h))

end

/-! ### The row -/

theorem Dev.recordType_recordHead (typ : Nat) (h : typ < 256) (flags : Nat) (data : List Byte) (d : Dev) :
    recordType (d.recordHead typ flags ++ data) = typ := by
  have hbyte : recordType (d.recordHead typ flags ++ data) = (BitVec.ofNat 8 typ).toNat := rfl
  rw [hbyte, BitVec.toNat_ofNat, Nat.mod_eq_of_lt h]

/-- Phase 6 begins, with every pair that is held in its safe state. -/
def Dev.enterReady (d : Dev) : Dev := (d.onSec fun x => { x with phase := 6 }).holdPairs

theorem Dev.touches_enterReady (d : Dev) : Dev.Touches [.sec, .pwm] d d.enterReady :=
  (d.touches_onSec _).andThen (Dev.touches_holdPairs _)

theorem Dev.enterReady_sec (d : Dev) : d.enterReady.sec = { d.sec with phase := 6 } :=
  ((Dev.touches_holdPairs (d.onSec fun x => { x with phase := 6 })).same .sec (by decide)).symm

/-- The record of the boot (R510). -/
def bootRecord (x : SecState) : List Byte :=
  leBytes 1 x.slot ++ leBytes 1 x.arb ++ leBytes 2 0 ++ slice x.imgDigest 0 8

theorem Dev.record_due (typ flags : Nat) (data : List Byte) (d : Dev) : (d.record typ flags data).lrd.due =
    insertDue (0, d.recordHead typ flags ++ slice data 0 36) d.lrd.due := rfl

theorem Dev.showsSafe.record {d : Dev} {p : Nat} (h : d.showsSafe p) (typ flags : Nat) (data : List Byte) :
    (d.record typ flags data).showsSafe p := h

theorem State.after_showsSafe (s : State) {d : Dev} {p : Nat} (h : d.showsSafe p) : (s.after d).dev.showsSafe p := h

theorem Dev.bootReady_of {d : Dev} (h : (d.sec.phase = 5 ∧ d.sec.staged = false) ∨ (d.sec.phase = 4 ∧ d.sec.slot = 3)) :
    d.bootReady = d.enterReady.record 7 0 (bootRecord d.sec) := by
  unfold Dev.bootReady
  rw [if_pos h]
  rfl

/-- BOOT_READY (R26, R453): phase 6, the boot's record, and the safe levels of the pairs that are held. -/
theorem bootReady_ready (s : State)
    (h : (s.dev.sec.phase = 5 ∧ s.dev.sec.staged = false) ∨ (s.dev.sec.phase = 4 ∧ s.dev.sec.slot = 3)) :
    Answers .bootReady s fun t => t.dev.sec = { s.dev.sec with phase := 6 } ∧
      (∃ x, t.dev.lrd.due = insertDue x s.dev.lrd.due ∧ recordType x.2 = 7 ∧ x.1 = 0) ∧
      (∀ p < 12, t.dev.pairHeld p = true → (t.dev.pair p).outA = t.dev.safeA p ∧ (t.dev.pair p).outB = t.dev.safeB p) ∧
      ChangesOnly [.sec, .pwm, .lrd, .events, .reports] s t := by
  have hrow : s.fresh.bootReady = s.fresh.enterReady.record 7 0 (bootRecord s.fresh.sec) := Dev.bootReady_of (d := s.fresh) h
  have hlrd : s.dev.lrd = s.fresh.enterReady.lrd := s.fresh.touches_enterReady.same .lrd (by decide)
  have hshown (p : Nat) (hp : p < 12) : s.fresh.enterReady.showsSafe p := Dev.showsSafe_holdPairs _ hp
  have hkeeps : Dev.Touches [.sec, .pwm, .lrd, .events, .reports] s.fresh
      (s.fresh.enterReady.record 7 0 (bootRecord s.fresh.sec)) :=
    .mono (s.fresh.touches_enterReady.andThen (Dev.touches_record ..)) (by decide)
  have hrecord : Dev.Touches [.lrd] s.fresh.enterReady (s.fresh.enterReady.record 7 0 (bootRecord s.fresh.sec)) :=
    Dev.touches_record ..
  have hsec : (s.fresh.enterReady.record 7 0 (bootRecord s.fresh.sec)).sec = { s.dev.sec with phase := 6 } :=
    (hrecord.same .sec (by decide)).symm.trans s.fresh.enterReady_sec
  refine ⟨_, exec_of_effect rfl hrow, ?_,
    ⟨(0, s.fresh.enterReady.recordHead 7 0 ++ slice (bootRecord s.fresh.sec) 0 36), ?_, ?_, rfl⟩, ?_, .of_after hkeeps.keeps⟩
  · rw [State.after_sec]
    exact hsec
  · rw [State.after_lrd, Dev.record_due, hlrd]
  · exact Dev.recordType_recordHead 7 (by decide) 0 _ s.fresh.enterReady
  · exact fun p hp => State.after_showsSafe _ ((hshown p hp).record 7 0 _)

theorem bootReady_idle (s : State) (h4 : s.dev.sec.phase ≠ 4) (h5 : s.dev.sec.phase ≠ 5) :
    exec .bootReady s = .next (s.after s.fresh) := by
  refine exec_of_effect (f := Dev.bootReady) rfl (if_neg ?_)
  rintro (⟨h, -⟩ | ⟨h, -⟩)
  · exact h5 h
  · exact h4 h

end Sys2Proof.Machine
end

section
/-! PROOFS. What point operations and the blocks that take an accepted configuration touch (R139). -/

namespace Sys2Proof.Machine
open Host

/-! ### Operations on points and their delivery -/

/-- What an operation on points touches. -/
def pointParts : List Part := .pnt :: tripParts

section
variable (d : Dev)

theorem Dev.touches_storeRec (id : Nat) (r : W32) : Dev.Touches pointParts d (d.storeRec id r) := by
  unfold Dev.storeRec
  extract_lets old bad d1 rise d2 d3
  have h1 : Dev.Touches _ d d1 := Dev.touches_onPnt ..
  have h2 : Dev.Touches _ d1 d2 := .ite (.andThen (Dev.touches_setBit ..) (Dev.touches_irq ..)) .refl
  have h3 : Dev.Touches _ d2 d3 := .ite (.andThen (Dev.touches_setBit ..) (Dev.touches_irq ..)) .refl
  exact .mono (((h1.andThen h2).andThen h3).andThen (.ite (Dev.touches_routed ..) .refl)) (by decide)

theorem Dev.touches_sayRec (id : Nat) (said : PointSaid) (old new : W32) :
    Dev.Touches pointParts d (d.sayRec id said old new) := by
  unfold Dev.sayRec
  extract_lets x d1 d2
  have h1 : Dev.Touches _ d d1 := .ite (.andThen (Dev.touches_setBit ..) (Dev.touches_irq ..)) .refl
  have h2 : Dev.Touches _ d1 d2 := .ite (.andThen (Dev.touches_setBit ..) (Dev.touches_irq ..)) .refl
  exact .mono ((h1.andThen h2).andThen (.ite (Dev.touches_routed ..) .refl)) (by decide)

theorem Dev.touches_setTurn (t : PointTurn) : Dev.Touches [.pnt] d (d.setTurn t) := d.touches_onPnt _

theorem Dev.touches_putPoint (r : Nat) (bitmap : Bool) (c : PointChange) (c2 : Option PointChange) :
    Dev.Touches [.pnt, .events, .reports] d (d.putPoint r bitmap c c2) :=
  .andThen (d.touches_onPnt _) (Dev.touches_putDesc ..)

theorem Dev.touches_ringOverflow (r : Nat) : Dev.Touches [.pnt, .events, .reports] d (d.ringOverflow r) :=
  .ite .refl (.andThen (d.touches_onPnt _) (Dev.touches_event ..))

theorem Dev.touches_markDirty (r : Nat) (c : PointChange) : Dev.Touches [.pnt, .events, .reports] d (d.markDirty r c) := by
  unfold Dev.markDirty
  exact .mono (.andThen (d.touches_ringOverflow r) (Dev.touches_onPnt ..)) (by decide)

theorem Dev.touches_deliver (fuel : Nat) (cs : List PointChange) :
    Dev.Touches [.pnt, .events, .reports] d (d.deliver fuel cs) := by
  induction fuel generalizing cs d with
  | zero => exact .mono .refl (by decide)
  | succ fuel ih =>
    cases cs with
    | nil => exact .mono .refl (by decide)
    | cons c rest =>
      unfold Dev.deliver
      refine .mono (.ite ((Dev.touches_markDirty ..).andThen (ih ..)) (qs := [.pnt, .events, .reports]) ?_) (by decide)
      cases rest with
      | nil => exact Dev.touches_putPoint ..
      | cons c2 more =>
        exact .mono (.ite ((Dev.touches_putPoint ..).andThen (ih ..)) ((Dev.touches_putPoint ..).andThen (ih ..))) (by decide)

theorem Dev.touches_deliverAll (x : Dev × List PointChange) :
    Dev.Touches [.pnt, .events, .reports] x.1 (Dev.deliverAll x) := Dev.touches_deliver ..

theorem Dev.touches_operateAs (was : PointClass) (op : PointOp) (id : Nat) (x : Dev × List PointChange) :
    Dev.Touches pointParts x.1 (Dev.operateAs was op id x).1 := by
  have hstore (r : W32) (e : Dev) : Dev.Touches pointParts e (Dev.storeChange id r (e, x.2)).1 := Dev.touches_storeRec ..
  have hinsert (base r : W32) (later : List (PointOp × PointClass)) (e : Dev) :
      Dev.Touches pointParts e (Dev.insertOp id base r later (e, x.2)).1 :=
    .mono (.andThen (.andThen (e.touches_onPnt _) (Dev.touches_sayRec ..)) (Dev.touches_sayRec ..)) (by decide)
  unfold Dev.operateAs
  extract_lets d t0 t before later c base
  split
  · exact .mono (.andThen (Dev.touches_onPnt ..) (Dev.touches_event ..)) (by decide)
  · split
    · exact .mono ((Dev.touches_setTurn ..).andThen (hstore ..)) (by decide)
    · exact .mono ((Dev.touches_setTurn ..).andThen (hinsert ..)) (by decide)

theorem Dev.touches_foldl_operateAs (was : Nat → PointClass) (op : PointOp) (ids : List Nat) (x : Dev × List PointChange) :
    Dev.Touches pointParts x.1 (ids.foldl (fun x id => Dev.operateAs (was id) op id x) x).1 := by
  induction ids generalizing x with
  | nil => exact .mono .refl (by decide)
  | cons id rest ih => exact .mono ((Dev.touches_operateAs ..).andThen (ih _)) (by decide)

theorem Dev.touches_reevaluate (old : Dev) : Dev.Touches pointParts d (Dev.reevaluate old d) := by
  unfold Dev.reevaluate
  extract_lets ids d1
  have h1 : Dev.Touches _ d d1 := .foldl (fun _ _ => .ite (Dev.touches_routed ..) .refl) _ _
  have h2 : Dev.Touches _ d1 _ :=
    Dev.touches_foldl_operateAs (fun id => old.cls (old.pointCls id)) .reevaluate ids (d1, [])
  exact .mono ((h1.andThen h2).andThen (Dev.touches_deliverAll _)) (by decide)

/-! ### Blocks that take an accepted configuration -/

theorem Dev.touches_applyPoints : Dev.Touches pointParts d d.applyPoints := by
  unfold Dev.applyPoints
  extract_lets changed new
  have h1 : Dev.Touches _ d new := Dev.touches_onPnt ..
  exact .mono (.ite (h1.andThen (Dev.touches_reevaluate ..)) h1) (by decide)

theorem Dev.touches_applyProfiles (moved : List Nat) : Dev.Touches [.prof] d (d.applyProfiles moved) :=
  .foldl (fun _ _ => .ite (Dev.touches_queueOp ..) .refl) _ _

theorem Dev.touches_free (n : Nat) : Dev.Touches [.free] d { d with free := n } := .of_keeps (d.keeps_free n) (by decide)

theorem Dev.touches_closeTime (status : Nat) : Dev.Touches [.clk, .commands, .events, .reports] d (d.closeTime status) :=
  .mono (.andThen (d.touches_onClk _) (.foldl (fun _ _ => Dev.touches_completeAs ..) _ _)) (by decide)

theorem Dev.touches_dropTime : Dev.Touches [.free, .clk, .commands, .events, .reports] d d.dropTime :=
  .mono (.ite .refl (.andThen (d.touches_free _) (Dev.touches_closeTime ..))) (by decide)

theorem Dev.touches_clkCommitted (old : Dev) :
    Dev.Touches [.free, .clk, .commands, .events, .reports] d (Dev.clkCommitted old d) :=
  .mono (.ite (.andThen (Dev.touches_dropTime _) (Dev.touches_startLock _)) .refl) (by decide)

theorem Dev.touches_commitPair (p : Nat) : Dev.Touches [.pwm, .events, .reports] d (d.commitPair p) :=
  .mono (.ite (Dev.touches_event ..) (.ite (Dev.touches_setPair ..) (.ite (Dev.touches_setPair ..) (Dev.touches_setPair ..))))
    (by decide)

end

end Sys2Proof.Machine
end

section
/-! PROOFS. IMAGE_LOAD and CONFIG_APPLY (R450, R452, R453, R459, R460). -/

namespace Sys2Proof.Machine

open Host

/-! ### A failure of an image (R459) -/

section
variable (d : Dev)

theorem Dev.touches_imageFails (code : Nat) : Dev.Touches [.sec, .events, .reports] d (d.imageFails code) :=
  .mono (.andThen (.andThen (d.touches_onSec _) (Dev.touches_event ..)) (Dev.touches_irq ..)) (by decide)

theorem Dev.imageFails_sec (code : Nat) : (d.imageFails code).sec = { d.sec with err := code } := by
  unfold Dev.imageFails
  rw [Dev.irq_sec, Dev.event_sec]
  rfl

theorem Dev.imageFails_stands (code : Nat) : (d.imageFails code).stands Reg.SEC_EVENT 2 :=
  (Dev.touches_irq _ 62).grows _ _ (Dev.event_stands 19 1 code 0 0 (d.onSec fun s => { s with err := code }))

theorem Dev.headerTry_tried (bs : List Byte) : (d.headerTry bs).sec.tried = d.sec.tried := by
  unfold Dev.headerTry
  dsimp only
  split
  · rfl
  · rw [Dev.imageFails_sec]

end

/-! ### IMAGE_LOAD -/

section
variable {d : Dev}

theorem Dev.imageLoad_idle (a b : List Byte)
    (h : d.sec.phase ≠ 4 ∨ d.sec.xfer.isSome = true ∨ d.sec.slot = 3 ∨ d.sec.src = 1) : d.imageLoad a b = d := by
  unfold Dev.imageLoad
  dsimp only
  split
  · rfl
  · rename_i hn
    have hsrc : d.sec.src = 1 := by tauto
    rw [hsrc]
    rfl

section
variable (hp : d.sec.phase = 4) (hx : d.sec.xfer = none) (hs : d.sec.slot ≠ 3)
include hp hx hs

theorem Dev.imageLoad_debug (a b : List Byte) (hsrc : d.sec.src = 3) :
    d.imageLoad a b = d.onSec fun s => { s with slot := 3 } := by
  unfold Dev.imageLoad
  dsimp only
  rw [if_neg (by simp [hp, hx, hs]), hsrc]
  rfl

/-- Slots are tried, after the headers at the first time. -/
theorem Dev.imageLoad_tries {a b x y : List Byte} (hsrc : d.sec.src = 0 ∨ d.sec.src = 2)
    (hxs : x = (d.sec.slots.get none 0).getD a) (hys : y = (d.sec.slots.get none 1).getD b) :
    d.imageLoad a b = (if d.sec.tried = 0 then (d.headerTry x).headerTry y else d).trySlots (d.slotOrder x y) := by
  subst hxs hys
  unfold Dev.imageLoad
  dsimp only
  rw [if_neg (by simp [hp, hx, hs])]
  obtain h | h := hsrc <;> rw [h] <;> simp only [decide_eq_true_eq]

end

/-- The first slot that verifies is taken; in the first try of a boot it is no fallback (R453). -/
theorem Dev.trySlots_of_ok {k : Nat} {bs : List Byte} {rest : List (Nat × List Byte)} {e : Dev} (ht : d.sec.tried = 0)
    (hl : d.loadSlot k bs = (e, 0)) : d.trySlots ((k, bs) :: rest) = e := by
  have hfirst : (if d.sec.tried ≠ 0 then d.event 19 2 k 0 0 else d) = d := if_neg (by simp [ht])
  unfold Dev.trySlots
  dsimp only
  rw [hfirst, hl]
  rfl

theorem Dev.loadSlot_ok {k : Nat} {bs : List Byte} (hb : bodyError (flashImage bs) = 0)
    (hw : ((d.walkImage (flashImage bs)).2.ok (flashImage bs)) = true) : ∃ e : Dev,
    d.loadSlot k bs = (e.event 19 0 k 0 0, 0) ∧ e.sec = { (d.walkImage (flashImage bs)).1.sec with
      slot := k, staged := true, received := (flashImage bs).length, phase := 5
      verified := some { image := flashImage bs, staged := true, kept := false } } := by
  refine ⟨(d.walkImage (flashImage bs)).1.onSec fun s => { s with
    slot := k, staged := true, received := (flashImage bs).length, phase := 5
    verified := some { image := flashImage bs, staged := true, kept := false } }, ?_, rfl⟩
  unfold Dev.loadSlot
  dsimp only
  rw [if_neg (by simp [hb]), if_pos hw]

end

theorem imageLoad_idle (a b : List Byte) (s : State)
    (h : s.dev.sec.phase ≠ 4 ∨ s.dev.sec.xfer.isSome = true ∨ s.dev.sec.slot = 3 ∨ s.dev.sec.src = 1) :
    exec (.imageLoad a b) s = .next (s.after s.fresh) := exec_of_effect rfl (Dev.imageLoad_idle (d := s.fresh) a b h)

section
variable {a b x y : List Byte} {s : State} (hp : s.dev.sec.phase = 4) (hx : s.dev.sec.xfer = none)
  (hs : s.dev.sec.slot ≠ 3)
include hp hx hs

theorem imageLoad_debug (hsrc : s.dev.sec.src = 3) : Answers (.imageLoad a b) s fun t =>
    t.dev.sec = { s.dev.sec with slot := 3 } ∧ ChangesOnly [.sec] s t ∧ Quiet s t :=
  ⟨_, exec_of_effect rfl (Dev.imageLoad_debug (d := s.fresh) hp hx hs a b hsrc), rfl,
    (s.fresh.keeps_onSec _).quietly rfl⟩

variable (hxs : x = (s.dev.sec.slots.get none 0).getD a) (hys : y = (s.dev.sec.slots.get none 1).getD b)
include hxs hys

/-- Boot source 0 with both slots tried reports that there is no image (R453). -/
theorem imageLoad_none (hsrc : s.dev.sec.src = 0) (ht : s.dev.sec.tried ≠ 0) (ho : s.dev.slotOrder x y = []) :
    Answers (.imageLoad a b) s fun t =>
      t.dev.sec = { s.dev.sec with slot := 3, imgDigest := [] } ∧ ChangesOnly [.sec] s t ∧ Quiet s t := by
  have hrow : s.fresh.imageLoad a b = s.fresh.onSec fun s => { s with slot := 3, imgDigest := [] } := by
    rw [Dev.imageLoad_tries (d := s.fresh) hp hx hs (.inl hsrc) hxs hys,
      if_neg (show ¬ s.fresh.sec.tried = 0 from ht), show s.fresh.slotOrder x y = [] from ho]
    exact if_pos hsrc
  exact ⟨_, exec_of_effect rfl hrow, rfl, (s.fresh.keeps_onSec _).quietly rfl⟩

/-- The first slot that verifies is staged in phase 5 (R450, R453). -/
theorem imageLoad_loads {k : Nat} {bs : List Byte} (hsrc : s.dev.sec.src = 0 ∨ s.dev.sec.src = 2)
    (ht : s.dev.sec.tried = 0) (ho : s.dev.slotOrder x y = [(k, bs)]) (hb : bodyError (flashImage bs) = 0)
    (hw : ((((s.fresh.headerTry x).headerTry y).walkImage (flashImage bs)).2.ok (flashImage bs)) = true) :
    Answers (.imageLoad a b) s fun t => t.dev.sec.phase = 5 ∧ t.dev.sec.slot = k ∧ t.dev.sec.staged = true ∧
        t.dev.sec.verified = some (Verified.mk (flashImage bs) true false) ∧
        t.dev.sec.received = (flashImage bs).length ∧ t.dev.stands Reg.SEC_EVENT 1 ∧ t.pending = s.pending := by
  obtain ⟨e, hload, hsec⟩ := Dev.loadSlot_ok (d := (s.fresh.headerTry x).headerTry y) (k := k) hb hw
  have htried : ((s.fresh.headerTry x).headerTry y).sec.tried = 0 := by
    rw [Dev.headerTry_tried, Dev.headerTry_tried]
    exact ht
  have hrow : s.fresh.imageLoad a b = e.event 19 0 k 0 0 := by
    rw [Dev.imageLoad_tries (d := s.fresh) hp hx hs hsrc hxs hys, if_pos (show s.fresh.sec.tried = 0 from ht),
      show s.fresh.slotOrder x y = [(k, bs)] from ho]
    exact Dev.trySlots_of_ok htried hload
  have hsec' : (e.event 19 0 k 0 0).sec = e.sec := Dev.event_sec ..
  rw [hsec] at hsec'
  refine ⟨_, exec_of_effect rfl hrow, (congrArg SecState.phase hsec' :), (congrArg SecState.slot hsec' :),
    (congrArg SecState.staged hsec' :), (congrArg SecState.verified hsec' :), (congrArg SecState.received hsec' :),
    Dev.event_stands 19 0 k 0 0 e, rfl⟩

end

/-! ### CONFIG_APPLY -/

/-- The security block and the accepted registers stay. -/
structure Dev.KeepsAccepted (a d : Dev) : Prop where
  sec : d.sec = a.sec
  active : d.regs.active = a.regs.active

namespace Dev.KeepsAccepted

variable {a d e : Dev}

theorem refl : d.KeepsAccepted d := ⟨rfl, rfl⟩

theorem trans (h : a.KeepsAccepted d) (h' : d.KeepsAccepted e) : a.KeepsAccepted e :=
  ⟨h'.sec.trans h.sec, h'.active.trans h.active⟩

theorem of_touches {ps : List Part} (h : Dev.Touches ps a d) (hp : .sec ∉ ps ∧ .values ∉ ps) : a.KeepsAccepted d :=
  ⟨(h.same .sec hp.1).symm, (congrArg RegsState.active (h.same .values hp.2).symm :)⟩

theorem foldl {α : Type} {f : Dev → α → Dev} (hf : ∀ (d : Dev) (x : α), d.KeepsAccepted (f d x)) (l : List α) (d : Dev) :
    d.KeepsAccepted (l.foldl f d) := by
  induction l generalizing d with
  | nil => exact refl
  | cons x rest ih => exact (hf d x).trans (ih _)

end Dev.KeepsAccepted

section
variable (d : Dev)

theorem Dev.keepsAccepted_applyClock : d.KeepsAccepted d.applyClock := by
  unfold Dev.applyClock
  extract_lets inClk kept regs new
  have hnew : d.KeepsAccepted new := ⟨rfl, rfl⟩
  exact hnew.trans (.of_touches (Dev.touches_clkCommitted ..) (by decide))

theorem Dev.accept_spec : d.accept.sec = { d.sec with digest := d.stagedDigest } ∧
    d.accept.regs.active = d.regs.staged := by
  unfold Dev.accept
  extract_lets moved doms digest d1 regs d2 d3 d4
  have h3 : d3.sec = d.sec ∧ d3.regs.active = d.regs.staged := by
    unfold d3
    split <;> exact ⟨rfl, rfl⟩
  obtain ⟨hsec, hactive⟩ := h3
  have h5 : d4.KeepsAccepted ((d4.applyProfiles moved).applyPoints).applyClock :=
    .trans (.of_touches (.andThen (Dev.touches_applyProfiles ..) (Dev.touches_applyPoints _)) (by decide))
      (Dev.keepsAccepted_applyClock _)
  rw [h5.sec, h5.active]
  exact ⟨(congrArg (fun x : SecState => { x with digest := d.stagedDigest }) hsec :), hactive⟩

theorem Dev.keepsAccepted_setForce (off : Nat) (v : W32) : d.KeepsAccepted (d.setForce off v) := ⟨rfl, rfl⟩

theorem Dev.keepsAccepted_loadPwm (commit : Bool) (recs : List (Nat × Nat × Nat)) :
    d.KeepsAccepted (d.loadPwm commit recs).1 := by
  unfold Dev.loadPwm
  extract_lets refused d1
  have h1 : d.KeepsAccepted d1 :=
    .foldl (fun _ _ => .trans (Dev.keepsAccepted_setForce ..) (Dev.keepsAccepted_setForce ..)) _ _
  have hcommit (ps : List Nat) : d1.KeepsAccepted (ps.foldl Dev.commitPair d1) :=
    .of_touches (.foldl (fun _ _ => Dev.touches_commitPair ..) _ _) (by decide)
  clear_value refused d1
  cases refused with
  | cons _ _ => exact .of_touches (Dev.touches_event ..) (by decide)
  | nil =>
    refine h1.trans ?_
    dsimp only
    split
    · exact hcommit _
    · exact .refl

theorem Dev.imageApplied_spec (v : Verified) : (d.imageApplied v).regs.active = d.regs.active ∧
    (d.imageApplied v).sec = { d.sec with
      pwmTables := [], staged := false, imgDigest := imgDigest v.image
      verified := some { v with staged := false, kept := true } } := by
  unfold Dev.imageApplied
  extract_lets d1
  have h1 : d.KeepsAccepted d1 := .foldl (fun _ _ => Dev.keepsAccepted_loadPwm ..) _ _
  exact ⟨h1.active, (congrArg (fun x : SecState => { x with
    pwmTables := [], staged := false, imgDigest := imgDigest v.image
    verified := some { v with staged := false, kept := true } }) h1.sec :)⟩

variable {d}

theorem Dev.commit_of_ok (ha : d.admission.1 = 0) (hb : d.blockRefuses = false) :
    d.commit = (d.runAdmission.accept, stOk) := by
  have hrefuses : d.runAdmission.blockRefuses = false := hb
  have hadm : ¬ d.runAdmission.loop.admCheck ≠ 0 := not_not.mpr ha
  unfold Dev.commit
  dsimp only
  rw [if_neg hadm, if_neg (by simp [hrefuses])]

theorem Dev.commit_of_refused (ha : d.admission.1 ≠ 0) : d.commit = (d.runAdmission, stAdmission) := by
  unfold Dev.commit
  exact if_pos ha

/-- The image in waiting fails with error 9, and the staged set is the active set again (R460). -/
def Dev.applyFails (d : Dev) : Dev :=
  (d.dropStaged.onSec fun s => { s with
    phase := 4, tried := if s.slot < 2 then s.tried ||| 2 ^ s.slot else s.tried }).imageFails 9

theorem Dev.applyFails_spec (d : Dev) : d.applyFails.sec.phase = 4 ∧ d.applyFails.sec.err = 9 ∧
    d.applyFails.sec.staged = false ∧ d.applyFails.regs.staged = d.regs.active ∧
    d.applyFails.regs.active = d.regs.active ∧ d.applyFails.stands Reg.SEC_EVENT 2 := by
  unfold Dev.applyFails
  generalize he : (d.dropStaged.onSec fun s => { s with
    phase := 4, tried := if s.slot < 2 then s.tried ||| 2 ^ s.slot else s.tried }) = e
  have hvalues := (e.touches_imageFails 9).same .values (by decide)
  have hregs : e.regs.staged = d.regs.active ∧ e.regs.active = d.regs.active := by
    subst he
    exact ⟨rfl, rfl⟩
  have hsec : e.sec.phase = 4 ∧ e.sec.staged = false := by
    subst he
    exact ⟨rfl, rfl⟩
  rw [Dev.imageFails_sec]
  exact ⟨hsec.1, rfl, hsec.2, (congrArg RegsState.staged hvalues.symm :).trans hregs.1,
    (congrArg RegsState.active hvalues.symm :).trans hregs.2, e.imageFails_stands 9⟩

section
variable {v : Verified} (hp : d.sec.phase = 5) (hs : d.sec.staged = true) (hv : d.sec.verified = some v)
  (hvs : v.staged = true)
include hp hs hv hvs

theorem Dev.configApply_eq : d.configApply =
    if d.commit.2 = stOk then d.commit.1.imageApplied v else d.commit.1.applyFails := by
  unfold Dev.configApply
  rw [hv]
  dsimp only
  rw [if_neg (by simp [hp, hs, hvs])]
  rfl

end

theorem Dev.configApply_idle (h : d.sec.phase ≠ 5 ∨ d.sec.staged = false ∨ d.sec.verified = none) : d.configApply = d := by
  unfold Dev.configApply
  split
  · rfl
  · rename_i v hv
    obtain hp | hs | hnone := h
    · exact if_pos (by simp [hp])
    · exact if_pos (by simp [hs])
    · simp [hnone] at hv

end

theorem configApply_idle (s : State) (h : s.dev.sec.phase ≠ 5 ∨ s.dev.sec.staged = false ∨ s.dev.sec.verified = none) :
    exec .configApply s = .next (s.after s.fresh) :=
  exec_of_effect (f := Dev.configApply) rfl (Dev.configApply_idle (d := s.fresh) h)

section
variable {v : Verified} {s : State} (hp : s.dev.sec.phase = 5) (hs : s.dev.sec.staged = true)
  (hv : s.dev.sec.verified = some v) (hvs : v.staged = true)
include hp hs hv hvs

/-- The staged image is committed where admission passes and no block refuses (R460). -/
theorem configApply_commits (ha : s.dev.admission.1 = 0) (hb : s.dev.blockRefuses = false) :
    Answers .configApply s fun t =>
      t.dev.sec.phase = 5 ∧ t.dev.sec.staged = false ∧ t.dev.sec.imgDigest = imgDigest v.image ∧
      t.dev.sec.verified = some { v with staged := false, kept := true } ∧ t.dev.sec.digest = s.dev.stagedDigest ∧
      t.dev.regs.active = s.dev.regs.staged ∧ t.pending = s.pending := by
  have hrow : s.fresh.configApply = s.fresh.runAdmission.accept.imageApplied v := by
    rw [Dev.configApply_eq (d := s.fresh) hp hs hv hvs, Dev.commit_of_ok (d := s.fresh) ha hb]
    exact if_pos rfl
  obtain ⟨hsec, hactive⟩ := s.fresh.runAdmission.accept_spec
  obtain ⟨hactive', hsec'⟩ := s.fresh.runAdmission.accept.imageApplied_spec v
  rw [hsec] at hsec'
  exact ⟨_, exec_of_effect (f := Dev.configApply) rfl hrow, (congrArg SecState.phase hsec' :).trans hp,
    (congrArg SecState.staged hsec' :), (congrArg SecState.imgDigest hsec' :), (congrArg SecState.verified hsec' :),
    (congrArg SecState.digest hsec' :), hactive'.trans hactive, rfl⟩

/-- An image that admission refuses fails with error 9 (R460). -/
theorem configApply_fails (ha : s.dev.admission.1 ≠ 0) : Answers .configApply s fun t =>
      t.dev.sec.phase = 4 ∧ t.dev.sec.err = 9 ∧ t.dev.sec.staged = false ∧ t.dev.regs.staged = s.dev.regs.active ∧
      t.dev.regs.active = s.dev.regs.active ∧ t.dev.stands Reg.SEC_EVENT 2 ∧ t.pending = s.pending := by
  have hrow : s.fresh.configApply = s.fresh.runAdmission.applyFails := by
    rw [Dev.configApply_eq (d := s.fresh) hp hs hv hvs, Dev.commit_of_refused (d := s.fresh) ha]
    exact if_neg (show ¬ stAdmission = stOk by decide)
  obtain ⟨hphase, herr, hstaged, hregs, hactive, hstands⟩ := s.fresh.runAdmission.applyFails_spec
  exact ⟨_, exec_of_effect (f := Dev.configApply) rfl hrow, hphase, herr, hstaged, hregs, hactive, hstands, rfl⟩

end

/-- Settles O53: each row by its theorem above. -/
theorem bootRowsTakeEffect : Obligations.BootRowsTakeEffect :=
  ⟨powerOnReset, fenceInit_idle, fenceInit_boot, fun v s => ⟨sysReset_refused v s, sysReset_allowed v s⟩, imageLoad_idle,
    fun _ _ _ _ _ hp hx hs hxs hys => ⟨imageLoad_debug hp hx hs, imageLoad_none hp hx hs hxs hys,
      fun _ _ hsrc ht ho hb hw => imageLoad_loads hp hx hs hxs hys hsrc ht ho hb hw⟩,
    configApply_idle, fun _ _ hp hs hv hvs => ⟨configApply_commits hp hs hv hvs, configApply_fails hp hs hv hvs⟩,
    bootReady_ready, bootReady_idle⟩

end Sys2Proof.Machine
end

section
/-! PROOFS. The grid-forming machine: automatic transitions, the breaker, MODE_REQUEST and the timeouts of the modes. -/

namespace Sys2Proof.Machine

open Host

/-! ### Automatic transitions -/

section
variable (target : Mode) (cause : Nat) (finalOff : Bool) (d : Dev)

/-- With no transition waiting, the new one waits, dated this tick (R59, R40). -/
theorem Dev.autoMode_of_none {d : Dev} (h : d.gfm.auto = none) : d.autoMode target cause finalOff =
    d.onGfm fun g => { g with auto := some (ModeReq.mk target finalOff false cause d.now) } :=
  if_neg (by simp [h])

theorem Dev.autoMode_gfm : ∃ a, (d.autoMode target cause finalOff).gfm = { d.gfm with auto := a } := by
  unfold Dev.autoMode
  split
  · exact ⟨_, rfl⟩
  · exact ⟨_, rfl⟩

theorem Dev.autoMode_due {d : Dev} (h : d.gfm.auto = none) :
    ∃ r, (d.autoMode target cause finalOff).gfm.auto = some r ∧ r.target = target ∧ r.cause = cause := by
  rw [Dev.autoMode_of_none target cause finalOff h]
  exact ⟨_, rfl, rfl, rfl⟩

end

/-! ### The breaker -/

/-- The end of the close pulse deasserts the close outputs (R78). -/
theorem bkrClosePulseEnd_deasserts (s : State) (e : Nat) (he : s.dev.gfm.pulseEnd = some e) (hn : e ≤ s.dev.now) :
    Answers .bkrClosePulseEnd s fun t =>
      t.dev.gfm = { s.dev.gfm with bkrClose := false, pulseEnd := none } ∧ ChangesOnly [.gfm] s t ∧ Quiet s t := by
  have hrow : s.fresh.pulseEndRow = s.fresh.onGfm fun g => { g with bkrClose := false, pulseEnd := none } := by
    simp only [Dev.pulseEndRow, State.fresh_gfm, he]
    exact if_pos hn
  exact ⟨_, exec_of_effect (f := Dev.pulseEndRow) rfl hrow, rfl, (Dev.keeps_onGfm ..).quietly rfl⟩

section
variable (d : Dev)

/-- A closed breaker in RESYNC: the attempt is over, and FORMING is due with cause 4 (R79). -/
def Dev.closedInResync (d : Dev) : Dev :=
  ((d.onGfm fun g => { g with attempt := none }).event 4 4 0 0 0).autoMode .forming 4 false

theorem Dev.touches_closedInResync : Dev.Touches [.gfm, .events, .reports] d d.closedInResync :=
  .mono (((d.touches_onGfm _).andThen (Dev.touches_event ..)).andThen (Dev.touches_autoMode ..)) (by decide)

theorem Dev.closedInResync_gfm : ∃ a, d.closedInResync.gfm = { d.gfm with attempt := none, auto := a } := by
  obtain ⟨a, ha⟩ := ((d.onGfm fun g => { g with attempt := none }).event 4 4 0 0 0).autoMode_gfm .forming 4 false
  exact ⟨a, ha.trans (by simp)⟩

theorem Dev.closedInResync_stands : d.closedInResync.stands Reg.GFM_EVENT 0x10 :=
  (Dev.touches_autoMode ..).grows _ _ (Dev.event_stands ..)

theorem Dev.closedInResync_due {d : Dev} (h : d.gfm.auto = none) :
    ∃ r, d.closedInResync.gfm.auto = some r ∧ r.target = .forming ∧ r.cause = 4 :=
  Dev.autoMode_due _ _ _ (by simpa using h)

/-- What a changed level of BKR_FB brings with it, by the mode (R79, R81): the level itself, and in RESYNC a closed
breaker, in FORMING an opened one. -/
theorem Dev.bkrFbChange_cases {l : Bool} {d : Dev} (h : l ≠ d.gfm.bkrFb) :
    let noted := d.onGfm fun g => { g with bkrFb := l }
    (d.gfm.mode = .resync ∧ l = true ∧ d.bkrFbChange l = noted.closedInResync) ∨
    (d.gfm.mode = .forming ∧ l = false ∧ d.bkrFbChange l = noted.event 4 6 0 0 0) ∨
    (¬(d.gfm.mode = .resync ∧ l = true) ∧ ¬(d.gfm.mode = .forming ∧ l = false) ∧ d.bkrFbChange l = noted) := by
  have hrow : d.bkrFbChange l = _ := if_neg h
  cases hm : d.gfm.mode <;> cases l <;> simp [hrow, hm, Dev.closedInResync]

end

/-- A changed level of BKR_FB is taken (R79, R81). -/
theorem bkrFbChange_taken (l : Bool) (s : State) (h : l ≠ s.dev.gfm.bkrFb) : Answers (.bkrFbChange l) s fun t =>
    t.dev.gfm.bkrFb = l ∧ t.dev.gfm.mode = s.dev.gfm.mode ∧
    (s.dev.gfm.mode = .resync → l = true → s.dev.gfm.auto = none →
      t.dev.stands Reg.GFM_EVENT 0x10 ∧ t.dev.gfm.attempt = none ∧
      ∃ r, t.dev.gfm.auto = some r ∧ r.target = .forming ∧ r.cause = 4) ∧
    (s.dev.gfm.mode = .forming → l = false → t.dev.stands Reg.GFM_EVENT 0x40) ∧
    ChangesOnly [.gfm, .events, .reports] s t := by
  refine .of_run rfl ?_
  have hnote := s.fresh.touches_onGfm fun g => { g with bkrFb := l }
  rw [State.run_eq]
  obtain ⟨hm, rfl, hrow⟩ | ⟨hm, rfl, hrow⟩ | ⟨hr, hf, hrow⟩ := Dev.bkrFbChange_cases (d := s.fresh) h
  all_goals rw [hrow]
  · obtain ⟨a, ha⟩ := Dev.closedInResync_gfm (s.fresh.onGfm fun g => { g with bkrFb := true })
    refine ⟨by simp [ha], by simp [ha], fun _ _ hn => ⟨Dev.closedInResync_stands _, by simp [ha],
      Dev.closedInResync_due hn⟩, fun hf => absurd (hm.symm.trans hf) (by decide), .of_after ?_⟩
    exact (Dev.Touches.mono (hnote.andThen (Dev.touches_closedInResync _)) (by decide)).keeps
  · refine ⟨by simp, by simp, by simp, fun _ _ => Dev.event_stands .., .of_after ?_⟩
    exact (Dev.Touches.mono (hnote.andThen (Dev.touches_event ..)) (by decide)).keeps
  · exact ⟨rfl, rfl, fun h1 h2 => absurd ⟨h1, h2⟩ hr, fun h1 h2 => absurd ⟨h1, h2⟩ hf,
      .of_after (hnote.mono (by decide)).keeps⟩

/-- A close attempt without feedback has failed: its outputs deassert and one failure is counted (R79). -/
def Dev.closeFailed (d : Dev) : Dev :=
  (d.onGfm fun g => { g with
    attempt := none, bkrClose := false, pulseEnd := none, ready := false, holdStart := none
    failures := g.failures + 1 }).event 4 5 0 0 0

theorem Dev.touches_closeFailed (d : Dev) : Dev.Touches [.gfm, .events, .reports] d d.closeFailed :=
  .mono ((d.touches_onGfm _).andThen (Dev.touches_event ..)) (by decide)

theorem Dev.closeFailed_gfm (d : Dev) : d.closeFailed.gfm = { d.gfm with
    attempt := none, bkrClose := false, pulseEnd := none, ready := false, holdStart := none
    failures := d.gfm.failures + 1 } := Dev.event_gfm ..

/-- The row of an attempt whose FB_TIMEOUT has run out: beyond RETRIES, FORMING is due with cause 8 (R79). -/
theorem Dev.bkrNoClose_eq {d : Dev} {a : Nat} (ha : d.gfm.attempt = some a) (hm : d.gfm.mode = .resync)
    (hf : d.gfm.bkrFb = false) (ht : a + d.fld Reg.GFM_BKR 7 0 * 10 * msTicks ≤ d.now) :
    d.bkrNoClose = if d.fld Reg.GFM_BKR 25 24 < d.gfm.failures + 1 then d.closeFailed.autoMode .forming 8 false
      else d.closeFailed := by
  have hretries : d.closeFailed.fld Reg.GFM_BKR 25 24 = d.fld Reg.GFM_BKR 25 24 := Dev.event_fld ..
  have hcount : d.closeFailed.gfm.failures = d.gfm.failures + 1 := by rw [Dev.closeFailed_gfm]
  rw [← hretries, ← hcount]
  simp only [Dev.bkrNoClose, ha]
  exact if_neg (by simpa [hm, hf] using ht)

/-- FB_TIMEOUT has run out without feedback (R79). -/
theorem bkrNoClose_fails (s : State) (a : Nat) (ha : s.dev.gfm.attempt = some a) (hm : s.dev.gfm.mode = .resync)
    (hf : s.dev.gfm.bkrFb = false) (ht : a + s.dev.fld Reg.GFM_BKR 7 0 * 10 * msTicks ≤ s.dev.now) :
    Answers .bkrNoClose s fun t =>
      t.dev.gfm.attempt = none ∧ t.dev.gfm.bkrClose = false ∧ t.dev.gfm.ready = false ∧
      t.dev.gfm.failures = s.dev.gfm.failures + 1 ∧ t.dev.stands Reg.GFM_EVENT 0x20 ∧
      (s.dev.fld Reg.GFM_BKR 25 24 < s.dev.gfm.failures + 1 → s.dev.gfm.auto = none →
        ∃ r, t.dev.gfm.auto = some r ∧ r.target = .forming ∧ r.cause = 8) ∧
      ChangesOnly [.gfm, .events, .reports] s t := by
  have hrow := Dev.bkrNoClose_eq (d := s.fresh) ha hm hf ht
  have hgfm := s.fresh.closeFailed_gfm
  have hstands : s.fresh.closeFailed.stands Reg.GFM_EVENT 0x20 := Dev.event_stands ..
  have hkeeps := s.fresh.touches_closeFailed
  by_cases hmore : s.dev.fld Reg.GFM_BKR 25 24 < s.dev.gfm.failures + 1
  · obtain ⟨r, hauto⟩ := s.fresh.closeFailed.autoMode_gfm .forming 8 false
    rw [hgfm] at hauto
    have htrans := s.fresh.closeFailed.touches_autoMode .forming 8 false
    refine ⟨_, exec_of_effect (f := Dev.bkrNoClose) rfl (hrow.trans (if_pos hmore)), by simp [hauto], by simp [hauto],
      by simp [hauto], by simp [hauto], htrans.grows _ _ hstands, fun _ hn => Dev.autoMode_due _ _ _ ?_,
      .of_after (Dev.Touches.mono (hkeeps.andThen htrans) (by decide)).keeps⟩
    rw [hgfm]
    exact hn
  · exact ⟨_, exec_of_effect (f := Dev.bkrNoClose) rfl (hrow.trans (if_neg hmore)), by simp [hgfm], by simp [hgfm],
      by simp [hgfm], by simp [hgfm], hstands, fun h => absurd h hmore, .of_after hkeeps.keeps⟩

/-- RESYNC has lasted longer than TIMEOUT (R79). -/
theorem resyncTimeout_returns (s : State) (hm : s.dev.gfm.mode = .resync) (hn : s.dev.gfm.auto = none)
    (ht : s.dev.gfm.entryTick + s.dev.fld Reg.GFM_RS_TIME 15 0 * 100 * msTicks < s.dev.now) :
    Answers .resyncTimeout s fun t => (∃ r, t.dev.gfm.auto = some r ∧ r.target = .forming ∧ r.cause = 5) ∧
      ChangesOnly [.gfm] s t ∧ Quiet s t := by
  have hrow : s.fresh.resyncTimeout = _ := (if_pos ⟨hm, ht⟩).trans (Dev.autoMode_of_none .forming 5 false hn)
  exact ⟨_, exec_of_effect (f := Dev.resyncTimeout) rfl hrow, ⟨_, rfl, rfl, rfl⟩, (Dev.keeps_onGfm ..).quietly rfl⟩

/-- Settles O12: each row by its theorem above. -/
theorem breakerRowsTakeEffect : Obligations.BreakerRowsTakeEffect :=
  ⟨bkrClosePulseEnd_deasserts, bkrFbChange_taken, bkrNoClose_fails, resyncTimeout_returns⟩

/-! ### MODE_REQUEST -/

section
variable {c : Cmd} {m : Mode} {d : Dev}

theorem Dev.modeRequest_reserved (h : modeOf (c.byte 20) = none) : d.modeRequest c = d.complete c 0x02 stBadParam := by
  simp [Dev.modeRequest, h]

theorem Dev.modeRequest_pending (h : modeOf (c.byte 20) = some m) (hs : d.twn.st ≠ .standby)
    (hf : (d.clk.fallback = false ∧ d.sec.debug ≠ 2) ∨ m = .off) (hq : d.gfm.req = none) (hm : m ≠ d.gfm.mode)
    (ha : d.modeAllowed d.gfm.mode m (bitAt (c.byte 21) 1) = true) :
    d.modeRequest c = (d.onGfm fun g => { g with
      req := some (ModeReq.mk m (bitAt (c.byte 21) 0) (bitAt (c.byte 21) 1) 1 d.now) }).complete c 0x02 stOk := by
  have hopen : ¬(d.twn.st = .standby ∨ ((d.clk.fallback = true ∨ d.sec.debug = 2) ∧ m ≠ .off)) := by
    obtain ⟨hclk, hdebug⟩ | hoff := hf
    · simp [hs, hclk, hdebug]
    · simp [hs, hoff]
  simp [Dev.modeRequest, h, hopen, hq, hm, ha]

/-- A transition that does not stand in the table, or whose condition does not hold, is rejected: by its mode, or before that
because the device takes no request. -/
theorem Dev.modeRequest_refused (h : modeOf (c.byte 20) = some m) (hq : d.gfm.req = none) (hm : m ≠ d.gfm.mode)
    (ha : d.modeAllowed d.gfm.mode m (bitAt (c.byte 21) 1) = false) :
    d.modeRequest c = d.complete c 0x02 stRejected := by
  simp [Dev.modeRequest, h, hq, hm, ha]

end

/-- An admitted MODE_REQUEST answers by its own checks and effect. -/
theorem exec_modeRequest {c : Cmd} {s : State} {d : Dev} (h : s.dev.admits 0x02 (inlMask [(20, 7), (21, 3)]) c)
    (hd : s.fresh.modeRequest c = d) : exec (.modeRequest c) s = .next (s.after d) :=
  hd ▸ State.runCmd_admits (Dev.modeRequest c) h

/-- Settles O10: a permitted request, a reserved mode and a refused request, each by the equation of its line. -/
theorem modeRequestCompletes : Obligations.ModeRequestCompletes :=
  fun _ _ h => ⟨fun _ hc hs hf hq hm ha => exec_modeRequest h (Dev.modeRequest_pending hc hs hf hq hm ha),
    fun hc => exec_modeRequest h (Dev.modeRequest_reserved hc),
    fun _ hc hq hm ha => exec_modeRequest h (Dev.modeRequest_refused hc hq hm ha)⟩

/-! ### The timeouts of BLACKSTART and STOPPING -/

section
variable {m : Mode} {done ticks cause : Nat}

/-- A TRIP_SOFT that no evaluation detected waits for the stroke after the last one sampled (R162). -/
theorem Dev.tripNextStroke_soft (cause : Nat) (details : List Nat) (d : Dev) : d.tripNextStroke .soft cause details =
    d.onSup fun s => { s with delayed := s.delayed ++
      [{ cause := cause, cls := .soft, details := details, sn := d.lastSn + 1 }] } := rfl

/-- A mode that has lasted its time, with nothing that stands in the way of the trip (R59, R74). -/
theorem Dev.modeTimeout_trips {d : Dev} (hm : d.gfm.mode = m) (ht : d.gfm.entryTick + ticks ≤ d.now)
    (htrip : d.tripping = false) (hdone : d.autoDue done = false) (hfirst : ∀ t ∈ d.sup.delayed, t.cause ≠ cause) :
    d.modeTimeout m done ticks cause = d.onSup fun s => { s with delayed := s.delayed ++
      [{ cause := cause, cls := .soft, details := [], sn := d.lastSn + 1 }] } := by
  have hrow : d.modeTimeout m done ticks cause = d.tripNextStroke .soft cause [] :=
    if_neg (by simpa [hm, htrip, hdone] using ⟨ht, hfirst⟩)
  exact hrow.trans (d.tripNextStroke_soft cause [])

theorem answers_modeTimeout {i : Instr} {s : State} {f : Dev → Dev} (hi : exec i s = .next (s.run f))
    (hf : f s.fresh = s.fresh.modeTimeout m done ticks cause) (hm : s.dev.gfm.mode = m)
    (ht : s.dev.gfm.entryTick + ticks ≤ s.dev.now) (htrip : s.dev.tripping = false) (hdone : s.dev.autoDue done = false)
    (hfirst : ∀ d ∈ s.dev.sup.delayed, d.cause ≠ cause) : Answers i s fun t =>
      t.dev.sup = { s.dev.sup with delayed := s.dev.sup.delayed ++
        [{ cause := cause, cls := .soft, details := [], sn := s.dev.lastSn + 1 }] } ∧ ChangesOnly [.sup] s t ∧ Quiet s t :=
  ⟨_, exec_of_effect hi (hf.trans (Dev.modeTimeout_trips (d := s.fresh) hm ht htrip hdone hfirst)), rfl,
    (Dev.keeps_onSup ..).quietly rfl⟩

end

/-- Settles O13: the two rows are one timeout, of their modes and with their causes. -/
theorem modeTimeoutsTripSoft : Obligations.ModeTimeoutsTripSoft :=
  ⟨fun _ => answers_modeTimeout rfl rfl, fun _ => answers_modeTimeout rfl rfl⟩

end Sys2Proof.Machine
end

section
/-! PROOFS. The machine level: what one evaluation delivers, and that resynchronisation leaves it alone. -/

namespace Sys2Proof.Machine

open Host

/-! ### What has been delivered stays -/

/-- The angle timebase with its pending frequency word stays, and so does what the machine level has ready for the next
cycle and what is still due. -/
structure Dev.KeepsDelivered (a d : Dev) : Prop where
  ang : d.ang = a.ang
  due : d.gfm.mcDue = a.gfm.mcDue
  next : d.gfm.next = a.gfm.next

namespace Dev.KeepsDelivered

variable {a d e : Dev}

theorem refl : d.KeepsDelivered d := ⟨rfl, rfl, rfl⟩

theorem trans (h : a.KeepsDelivered d) (h' : d.KeepsDelivered e) : a.KeepsDelivered e :=
  ⟨h'.ang.trans h.ang, h'.due.trans h.due, h'.next.trans h.next⟩

theorem ite {c : Prop} [Decidable c] (hd : a.KeepsDelivered d) (he : a.KeepsDelivered e) :
    a.KeepsDelivered (if c then d else e) := by split <;> assumption

theorem of_touches {ps : List Part} (h : Dev.Touches ps a d) (hp : .ang ∉ ps ∧ .gfm ∉ ps) : a.KeepsDelivered d :=
  have hgfm : a.gfm = d.gfm := h.same .gfm hp.2
  ⟨(h.same .ang hp.1).symm, congrArg _ hgfm.symm, congrArg _ hgfm.symm⟩

end Dev.KeepsDelivered

section
variable (d : Dev)

theorem Dev.keepsDelivered_autoMode (target : Mode) (cause : Nat) (finalOff : Bool) :
    d.KeepsDelivered (d.autoMode target cause finalOff) := .ite .refl ⟨rfl, rfl, rfl⟩

theorem Dev.keepsDelivered_queueOp (o : ProfOp) : d.KeepsDelivered (d.queueOp o) := ⟨rfl, rfl, rfl⟩

theorem Dev.keepsDelivered_startClose : d.KeepsDelivered d.startClose := .ite .refl ⟨rfl, rfl, rfl⟩

theorem Dev.keepsDelivered_gateClose : d.KeepsDelivered d.gateClose :=
  .ite ⟨rfl, rfl, rfl⟩ (.ite (Dev.keepsDelivered_startClose _) .refl)

theorem Dev.keepsDelivered_reported (blk bit n : Nat) : d.KeepsDelivered ((d.event blk bit 0 0 0).irq n) :=
  .of_touches ((Dev.touches_event ..).andThen (Dev.touches_irq ..)) (by decide)

theorem Dev.keepsDelivered_showCycle : d.KeepsDelivered d.showCycle := ⟨rfl, rfl, rfl⟩

/-- A cycle of RESYNC works on its own differences, the profile channels and the breaker (R75–R78). -/
theorem Dev.keepsDelivered_resync (i : McInput) : d.KeepsDelivered (d.resync i) := by
  unfold Dev.resync
  extract_lets w df dv pred dead d1 d2 d3 t0 rise d4 d5
  have h1 : d.KeepsDelivered d1 := .ite (d.keepsDelivered_autoMode ..) .refl
  have h2 : d1.KeepsDelivered d2 :=
    ((Dev.keepsDelivered_queueOp ..).trans (Dev.keepsDelivered_queueOp ..)).trans (Dev.keepsDelivered_queueOp ..)
  have h3 : d.KeepsDelivered d3 := (h1.trans h2).trans ⟨rfl, rfl, rfl⟩
  have h4 : d.KeepsDelivered d4 := h3.trans ⟨rfl, rfl, rfl⟩
  have h5 : d.KeepsDelivered d5 := h4.trans (Dev.keepsDelivered_reported ..)
  have hopen : d.KeepsDelivered (d3.onGfm fun g => { g with ready := false, holdStart := none }) :=
    h3.trans ⟨rfl, rfl, rfl⟩
  exact .ite (hopen.trans (Dev.keepsDelivered_gateClose _)) (.ite (.ite (h5.trans (Dev.keepsDelivered_startClose _)) h5)
    (h4.trans (Dev.keepsDelivered_gateClose _)))

end

/-! ### The swing update and the EMF -/

theorem clampI_mem {lo hi : Int} (h : lo ≤ hi) (x : Int) : lo ≤ clampI lo hi x ∧ clampI lo hi x ≤ hi := by
  unfold clampI
  split
  · omega
  · split <;> omega

/-- A frequency word held to its limits, as it is delivered (R31). -/
def Dev.heldFw (d : Dev) (x : Int) : Nat := (clampI d.fwMin d.fwMax x).toNat

theorem Dev.heldFw_mem {d : Dev} (h : d.fwMin ≤ d.fwMax) (x : Int) : d.fwMin ≤ d.heldFw x ∧ d.heldFw x ≤ d.fwMax := by
  have hmem := clampI_mem (Int.ofNat_le.mpr h) x
  unfold Dev.heldFw
  omega

/-- An EMF held to its limits (R70). -/
def Dev.heldE (d : Dev) (x : Int) : Int :=
  clampI (signed 32 (d.cfg Reg.GFM_E_MIN)) (signed 32 (d.cfg Reg.GFM_E_MAX)) x

section
variable (i : McInput) (d : Dev)

theorem Dev.deliverFw_ang (x : Int) :
    ∃ n, (d.deliverFw x).ang = { d.ang with pendFw := some (d.heldFw x), clampCnt := n } := by
  unfold Dev.deliverFw
  extract_lets v d1
  split
  · exact ⟨_, rfl⟩
  · exact ⟨_, Dev.event_ang ..⟩

theorem Dev.touches_deliverFw (x : Int) : Dev.Touches [.ang, .events, .reports] d (d.deliverFw x) := by
  unfold Dev.deliverFw
  extract_lets v d1
  have h1 : Dev.Touches _ d d1 := d.touches_onAng rfl rfl
  exact .mono (.ite h1 ((h1.andThen (Dev.touches_onAng _ rfl rfl)).andThen (Dev.touches_event ..))) (by decide)

/-- In a mode with angle strokes of its own, a cycle delivers one frequency word, pending and ready for the next cycle, and
with it an EMF, each within its limits (R67, R70, R72). -/
theorem Dev.swing_of_angle {i : McInput} (h : angleMode i.mode = true) : ∃ x raw n,
    (d.swing i).ang = { d.ang with pendFw := some (d.heldFw x), clampCnt := n } ∧
    (d.swing i).gfm.next = some (some (d.heldFw x), d.heldE raw, i.phi) ∧ (d.swing i).gfm.mcDue = d.gfm.mcDue := by
  unfold Dev.swing
  rw [if_neg (by simp [h])]
  extract_lets fw d1 eps raw e clamped d2
  obtain ⟨n, hang⟩ := d.deliverFw_ang (if i.held = true then ↑fw else d.swingFw i fw)
  have hfw : Dev.Touches _ d d1 := Dev.touches_deliverFw ..
  have h2 : d1.KeepsDelivered d2 := .ite (.of_touches (Dev.touches_event ..) (by decide)) .refl
  have hang2 := h2.ang.trans hang
  have he : e = d.heldE raw := by
    unfold Dev.heldE
    rw [← hfw.cfg Reg.GFM_E_MIN (by decide), ← hfw.cfg Reg.GFM_E_MAX (by decide)]
  have hgfm : d.gfm = d1.gfm := hfw.same .gfm (by decide)
  refine ⟨_, raw, n, hang2, ?_, h2.due.trans (congrArg _ hgfm.symm)⟩
  simp only [Dev.onGfm_gfm, hang2, he]

/-- In the other modes the nominal frequency and no EMF are ready, and no frequency word is delivered (R68). -/
theorem Dev.swing_of_still {i : McInput} (h : angleMode i.mode = false) :
    (d.swing i).ang = d.ang ∧ (d.swing i).gfm.next = some (none, 0, i.phi) ∧ (d.swing i).gfm.mcDue = d.gfm.mcDue := by
  have hrow : d.swing i = _ := if_pos (by simp [h])
  rw [hrow]
  exact ⟨rfl, rfl, rfl⟩

/-! ### One evaluation -/

/-- The device as the swing update finds it: the quantities are taken, the powers formed (R66). -/
def Dev.withPowers (i : McInput) (d : Dev) : Dev := (d.onGfm fun g => { g with mcDue := none }).powers i

theorem Dev.withPowers_due : (d.withPowers i).gfm.mcDue = none := rfl

/-- Beyond the swing update, an evaluation keeps what has been delivered. -/
theorem Dev.machineEval_keepsDelivered {i : McInput} {d : Dev} (h : d.gfm.mcDue = some i) :
    ((d.withPowers i).swing i).KeepsDelivered d.machineEval := by
  simp only [Dev.machineEval, h]
  have hresync (c : Prop) [Decidable c] (e : Dev) : e.KeepsDelivered (if c then e.resync i else e) :=
    .ite (e.keepsDelivered_resync i) .refl
  exact .ite (hresync ..) ((hresync ..).trans (Dev.keepsDelivered_showCycle _))

end

/-- A machine cycle in a mode with angle strokes of its own (R31, R67, R70, R72). -/
theorem Dev.machineEval_of_angle {i : McInput} {d : Dev} (hi : d.gfm.mcDue = some i) (h : angleMode i.mode = true) :
    ∃ x raw n, d.machineEval.ang = { d.ang with pendFw := some (d.heldFw x), clampCnt := n } ∧
      d.machineEval.gfm.next = some (some (d.heldFw x), d.heldE raw, i.phi) ∧ d.machineEval.gfm.mcDue = none := by
  have hrest := Dev.machineEval_keepsDelivered hi
  obtain ⟨x, raw, n, hang, hnext, hdue⟩ := (d.withPowers i).swing_of_angle h
  exact ⟨x, raw, n, hrest.ang.trans hang, hrest.next.trans hnext, hrest.due.trans hdue⟩

/-- A machine cycle in another mode (R68). -/
theorem Dev.machineEval_of_still {i : McInput} {d : Dev} (hi : d.gfm.mcDue = some i) (h : angleMode i.mode = false) :
    d.machineEval.ang = d.ang ∧ d.machineEval.gfm.next = some (none, 0, i.phi) ∧ d.machineEval.gfm.mcDue = none := by
  have hrest := Dev.machineEval_keepsDelivered hi
  obtain ⟨hang, hnext, hdue⟩ := (d.withPowers i).swing_of_still h
  exact ⟨hrest.ang.trans hang, hrest.next.trans hnext, hrest.due.trans hdue⟩

/-- Settles O11: by whether the mode of the cycle has angle strokes of its own. -/
theorem machineEvaluationDelivers : Obligations.MachineEvaluationDelivers := by
  refine ⟨fun s i hi => .of_run rfl ?_, fun s hn => exec_of_effect (f := Dev.machineEval) rfl ?_⟩
  · rw [State.run_eq]
    cases hmode : angleMode i.mode with
    | true =>
      obtain ⟨x, raw, n, hang, hnext, hdue⟩ := Dev.machineEval_of_angle (d := s.fresh) hi hmode
      refine ⟨hdue, fun _ hfw => ?_, by simp, by simp [hang], by simp [hang], by simp [hang], rfl⟩
      obtain ⟨hmin, hmax⟩ := Dev.heldFw_mem (d := s.fresh) hfw x
      exact ⟨_, _, by simp [hang], hmin, hmax, hnext, fun he => clampI_mem he raw⟩
    | false =>
      obtain ⟨hang, hnext, hdue⟩ := Dev.machineEval_of_still (d := s.fresh) hi hmode
      exact ⟨hdue, by simp, fun _ => hnext, by simp [hang], by simp [hang], by simp [hang], rfl⟩
  · simp [Dev.machineEval, hn]

end Sys2Proof.Machine
end

section
/-! PROOFS. The four profile commands (R94–R99): what each answers, by its own checks. -/

namespace Sys2Proof.Machine

open Host

section
variable {c : Cmd} {d : Dev}

/-- A command that reads its buffer without an error goes on to its effect (R431). -/
theorem Dev.withBuffer_read (op : Nat) (body : Dev → Dev) (h : c.bufErr = false) : d.withBuffer op c body = body d :=
  if_neg (by simp [h])

/-! ### SETPOINT_WRITE (R98) -/

theorem Dev.setpointWrite_badParam (h : 8 ≤ c.byte 20) : d.setpointWrite c = d.complete c 0x03 stBadParam :=
  if_pos (.inl h)

section
variable (hch : c.byte 20 < 8) (hlen : c.len = 0)
include hch hlen

theorem Dev.setpointWrite_refused (h : d.chanRefused (c.byte 20) = true) :
    d.setpointWrite c = d.complete c 0x03 stRejected := by
  simp [Dev.setpointWrite, Nat.not_le.mpr hch, hlen, h]

theorem Dev.setpointWrite_accepted (hrank : d.rankBusy = false) (h : d.chanRefused (c.byte 20) = false) :
    d.setpointWrite c = (d.queueOp (.write (c.byte 20) (BitVec.ofNat 32 (c.word 24)))).complete c 0x03 stOk := by
  simp [Dev.setpointWrite, Nat.not_le.mpr hch, hlen, hrank, h]

end

/-! ### PROFILE_START (R94–R96) -/

theorem Dev.profileStart_badParam (h : 8 ≤ c.byte 20) : d.profileStart c = d.complete c 0x04 stBadParam :=
  if_pos (.inl h)

section
variable (hch : c.byte 20 < 8)
include hch

theorem Dev.profileStart_refused (hlen : c.len.toNat = if c.byte 21 = 1 then 36 else 0)
    (h : d.chanRefused (c.byte 20) = true) : d.profileStart c = d.complete c 0x04 stRejected := by
  simp [Dev.profileStart, Nat.not_le.mpr hch, hlen, h]

variable (hrank : d.rankBusy = false) (h : d.chanRefused (c.byte 20) = false)
include hrank h

theorem Dev.profileStart_accepted (hp : c.byte 21 = 0) (hlen : c.len = 0)
    (hv : rampValid (d.rampPlanned (c.byte 20)) = true) : d.profileStart c =
      (d.queueOp (.start (c.byte 20) (BitVec.ofNat 32 (c.word 24)) none false)).complete c 0x04 stOk := by
  simp [Dev.profileStart, Nat.not_le.mpr hch, hrank, h, hp, hlen, hv]

theorem Dev.profileStart_accepted_params (hp : c.byte 21 = 1) (hlen : c.len = 36) (hbuf : c.bufErr = false)
    (hv : rampValid (bufRamp c) = true) : d.profileStart c =
      (d.queueOp (.start (c.byte 20) (BitVec.ofNat 32 (c.word 24)) (some (bufRamp c)) false)).completeRes
        c 0x04 stOk 36 [] := by
  simp [Dev.profileStart, Nat.not_le.mpr hch, hrank, h, hp, hlen, hv, Dev.withBuffer_read _ _ hbuf]

end

/-! ### PROFILE_MODIFY (R94, R96, R101, R102) -/

/-- The target that PROFILE_MODIFY carries: bit 9 of its mask says whether it does. -/
def newTarget (c : Cmd) : Option W32 := if bitAt (c.half 22) 9 then some (BitVec.ofNat 32 (c.word 24)) else none

/-- A target of an actuator lies within 24 bits. -/
def targetInRange (c : Cmd) : Prop := bitAt (c.half 22) 9 = true → 8 ≤ c.byte 20 →
  -(2 ^ 23 : Int) ≤ (BitVec.ofNat 32 (c.word 24)).toInt ∧ (BitVec.ofNat 32 (c.word 24)).toInt < 2 ^ 23

theorem Dev.profileModify_badParam (h : 16 ≤ c.byte 20) : d.profileModify c = d.complete c 0x05 stBadParam :=
  if_pos (.inl h)

section
variable (hch : c.byte 20 < 16) (hlen : c.len.toNat = if c.half 22 % 512 = 0 then 0 else 36) (ht : targetInRange c)
include hch hlen ht

/-- Its operands are in order. -/
theorem Dev.profileModify_operands : ¬ (16 ≤ c.byte 20 ∨ c.len.toNat ≠ (if c.half 22 % 512 = 0 then 0 else 36) ∨
    (bitAt (c.half 22) 9 = true ∧ 8 ≤ c.byte 20 ∧ ((BitVec.ofNat 32 (c.word 24)).toInt < -(2 ^ 23 : Nat) ∨
      (2 ^ 23 : Nat) ≤ (BitVec.ofNat 32 (c.word 24)).toInt))) := by
  rintro (h | h | ⟨hnew, hact, h⟩)
  · omega
  · exact h hlen
  · obtain ⟨hlo, hhi⟩ := ht hnew hact
    omega

theorem Dev.profileModify_refused (h : d.chanRefused (c.byte 20) = true) :
    d.profileModify c = d.complete c 0x05 stRejected :=
  (if_neg (Dev.profileModify_operands hch hlen ht)).trans (if_pos (.inl h))

variable (h : d.chanRefused (c.byte 20) = false)
  (hdrive : bitAt (c.half 22) 9 = true → 8 ≤ c.byte 20 → d.driveKind (c.byte 20 - 8) = 0 ∨ 12 ≤ c.byte 20)
include h hdrive

/-- A change of an actuator's target, too, goes to a channel that no cooling drive has. -/
theorem Dev.profileModify_admitted : d.profileModify c =
    if c.half 22 % 512 = 0 then
      if rampValid (d.rampPlanned (c.byte 20)) then
        (d.queueOp (.modify (c.byte 20) 0 Ramp.reset (newTarget c))).complete c 0x05 stOk
      else d.complete c 0x05 stBadParam
    else d.withBuffer 0x05 c fun d =>
      if rampValid (rampMerge (c.half 22 % 512) (bufRamp c) (d.rampPlanned (c.byte 20))) then
        (d.queueOp (.modify (c.byte 20) (c.half 22 % 512) (bufRamp c) (newTarget c))).completeRes c 0x05 stOk 36 []
      else d.completeRes c 0x05 stBadParam 36 [] := by
  refine (if_neg (Dev.profileModify_operands hch hlen ht)).trans (if_neg ?_)
  rintro (href | ⟨hnew, hact, hlt, hkind, -⟩)
  · simp [h] at href
  · rcases hdrive hnew hact with h0 | h12
    · exact hkind h0
    · omega

end

/-! ### PROFILE_STOP (R94, R97) -/

theorem Dev.profileStop_badParam (h : 16 ≤ c.byte 20) : d.profileStop c = d.complete c 0x06 stBadParam :=
  if_pos (.inl h)

section
variable (hch : c.byte 20 < 16) (hlen : c.len = 0)
include hch hlen

theorem Dev.profileStop_refused (h : d.chanRefused (c.byte 20) = true) :
    d.profileStop c = d.complete c 0x06 stRejected := by
  simp [Dev.profileStop, Nat.not_le.mpr hch, hlen, h]

variable (h : d.chanRefused (c.byte 20) = false)
include h

theorem Dev.profileStop_idle (hseg : (d.prf (c.byte 20)).seg = .idle) (hops : d.prof.ops = []) :
    d.profileStop c = d.complete c 0x06 stOk := by
  simp [Dev.profileStop, Nat.not_le.mpr hch, hlen, h, hseg, hops]

theorem Dev.profileStop_accepted (hbusy : (d.prf (c.byte 20)).seg ≠ .idle ∨ d.prof.ops ≠ []) : d.profileStop c =
    (d.queueOp (.stop (c.byte 20) (decide (c.byte 21 = 1)))).complete c 0x06 stOk := by
  simp only [Dev.profileStop, Nat.not_le.mpr hch, hlen, h]
  rw [if_neg (by simp), if_neg (by simp), if_neg (by tauto)]

end

end

/-! ### The rows -/

section
variable {c : Cmd} {s : State} {d : Dev}

theorem exec_setpointWrite (h : s.dev.admits 0x03 (inlMask [(20, 0xFF), (24, 0xFFFFFFFF)]) c)
    (hd : s.fresh.setpointWrite c = d) : exec (.setpointWrite c) s = .next (s.after d) :=
  hd ▸ State.runCmd_admits (Dev.setpointWrite c) h

theorem exec_profileStart (h : s.dev.admits 0x04 (inlMask [(20, 0xFF), (21, 1), (24, 0xFFFFFFFF)]) c)
    (hd : s.fresh.profileStart c = d) : exec (.profileStart c) s = .next (s.after d) :=
  hd ▸ State.runCmd_admits (Dev.profileStart c) h

theorem exec_profileModify (h : s.dev.admits 0x05 (inlMask [(20, 0xFF), (22, 0x3FF), (24, 0xFFFFFFFF)]) c)
    (hd : s.fresh.profileModify c = d) : exec (.profileModify c) s = .next (s.after d) :=
  hd ▸ State.runCmd_admits (Dev.profileModify c) h

theorem exec_profileStop (h : s.dev.admits 0x06 (inlMask [(20, 0xFF), (21, 1)]) c)
    (hd : s.fresh.profileStop c = d) : exec (.profileStop c) s = .next (s.after d) :=
  hd ▸ State.runCmd_admits (Dev.profileStop c) h

end

/-- Settles O14: each command by the equation of its line. -/
theorem profileCommandsAreAccepted : Obligations.ProfileCommandsAreAccepted := by
  refine ⟨fun c s h hch hrank href => ⟨fun hp hlen hv => ?_, fun hp hlen hbuf hv => ?_⟩,
    fun c s h hch href hdrive ht => ⟨fun hm hlen hv => ?_, fun hm hlen hbuf hv => ?_⟩,
    fun c s h hch hlen => ⟨fun href => ?_, fun href hseg hops => ?_, fun href hbusy => ?_⟩,
    fun c s h => ⟨fun hch hlen href => ?_, fun hch => ?_⟩,
    fun c s h => ⟨fun hch hlen href => ?_, fun hch => ?_⟩,
    fun c s h => ⟨fun hch hlen ht href => ?_, fun hch => ?_⟩, fun c s hch h => ?_⟩
  · exact exec_profileStart h (Dev.profileStart_accepted (d := s.fresh) hch hrank href hp hlen hv)
  · exact exec_profileStart h (Dev.profileStart_accepted_params (d := s.fresh) hch hrank href hp hlen hbuf hv)
  · have hd := Dev.profileModify_admitted (d := s.fresh) hch (by simp [hm, hlen]) ht href hdrive
    exact exec_profileModify h (hd.trans ((if_pos hm).trans (if_pos hv)))
  · have hd := Dev.profileModify_admitted (d := s.fresh) hch (by simp [hm, hlen]) ht href hdrive
    exact exec_profileModify h (hd.trans ((if_neg hm).trans ((Dev.withBuffer_read _ _ hbuf).trans (if_pos hv))))
  · exact exec_profileStop h (Dev.profileStop_refused (d := s.fresh) hch hlen href)
  · exact exec_profileStop h (Dev.profileStop_idle (d := s.fresh) hch hlen href hseg hops)
  · exact exec_profileStop h (Dev.profileStop_accepted (d := s.fresh) hch hlen href hbusy)
  · exact exec_setpointWrite h (Dev.setpointWrite_refused (d := s.fresh) hch hlen href)
  · exact exec_setpointWrite h (Dev.setpointWrite_badParam hch)
  · exact exec_profileStart h (Dev.profileStart_refused (d := s.fresh) hch hlen href)
  · exact exec_profileStart h (Dev.profileStart_badParam hch)
  · exact exec_profileModify h (Dev.profileModify_refused (d := s.fresh) hch hlen ht href)
  · exact exec_profileModify h (Dev.profileModify_badParam hch)
  · exact exec_profileStop h (Dev.profileStop_badParam hch)

end Sys2Proof.Machine
end

section
/-! PROOFS. One update of a moving channel (R85, R87, R90–R92, R97, R101–R103): its velocity, and the four ways in which it
can end. -/

namespace Sys2Proof.Machine

open Host

/-! ### The velocity of a channel that does not decelerate (R90) -/

theorem wide_mono {v w : Nat} (h : v ≤ w) : wide v ≤ wide w := Nat.mul_le_mul_right _ h

section
variable {p : ProfChan}

theorem accelerate_below_brk (hr : p.ramp.vBrk ≤ p.ramp.vMax) (h : p.vel < wide p.ramp.vBrk) :
    accelerate p = min (p.vel + p.ramp.a1) (wide p.ramp.vBrk) := by
  have hle := wide_mono hr
  exact (if_neg (by omega)).trans (if_pos h)

theorem accelerate_below_max (hb : wide p.ramp.vBrk ≤ p.vel) (h : p.vel < wide p.ramp.vMax) :
    accelerate p = min (p.vel + p.ramp.a2) (wide p.ramp.vMax) :=
  (if_neg (by omega)).trans ((if_neg (by omega)).trans (if_pos h))

theorem accelerate_at_max (hr : p.ramp.vBrk ≤ p.ramp.vMax) (h : p.vel = wide p.ramp.vMax) :
    accelerate p = wide p.ramp.vMax := by
  have hle := wide_mono hr
  exact (if_neg (by omega)).trans ((if_neg (by omega)).trans ((if_neg (by omega)).trans h))

theorem accelerate_above_max (h : wide p.ramp.vMax < p.vel) : accelerate p =
    max (p.vel - (if wide p.ramp.vBrk < p.vel then p.dReq.getD p.ramp.d2 else p.dReq.getD p.ramp.d1))
      (wide p.ramp.vMax) := if_pos h

end

/-! ### The position (R85, R87) -/

/-- Position and remainder after an advance are the sum, modulo 2^64. -/
theorem full_advance (p : ProfChan) (v : Nat) : (ProfState.full (advance p v) : Int) % 2 ^ 64 =
    ((ProfState.full p : Int) + (if p.neg then -(v : Int) else v)) % 2 ^ 64 := by
  generalize hx : (ProfState.full p : Int) + (if p.neg then -(v : Int) else v) = x
  have hf : ProfState.full (advance p v) = unsigned 64 x := by
    have hlt : unsigned 64 x < 2 ^ 64 := by unfold unsigned; omega
    simp only [ProfState.full, advance] at hx ⊢
    rw [hx, BitVec.toNat_ofNat, Nat.mod_eq_of_lt (by omega)]
    omega
  rw [hf]
  unfold unsigned
  omega

/-! ### How an update can end -/

/-- What one update of a moving channel can be: it goes on, with the position advanced by the new velocity; it has come to rest
and starts again, the jump to come; it arrives at its target; or a stop of another kind is complete. -/
inductive MoveOutcome (c : Nat) (p : ProfChan) : ProfChan × ProfReport → Prop where
  | advances {q : ProfChan} {bits : List Nat} (hpos : q.pos = (advance p q.vel).pos) (hrem : q.rem = (advance p q.vel).rem) :
      MoveOutcome c p (q, ⟨bits, none⟩)
  | turns {q : ProfChan} {bits : List Nat} (hfresh : q.fresh = true) : MoveOutcome c p (q, ⟨bits, none⟩)
  | arrives {q : ProfChan} {bits : List Nat} {cause : ProfCause} (ht : q.target = p.target) :
      MoveOutcome c p (arrived c q, ⟨bits, some cause⟩)
  | stops {q : ProfChan} {bits : List Nat} {cause : ProfCause} (hcause : cause ≠ .target) :
      MoveOutcome c p (q, ⟨bits, some cause⟩)

namespace MoveOutcome

variable {c : Nat} {p : ProfChan}

theorem ite {b : Prop} [Decidable b] {x y : ProfChan × ProfReport} (hx : MoveOutcome c p x) (hy : MoveOutcome c p y) :
    MoveOutcome c p (if b then x else y) := by split <;> assumption

theorem restart {q : ProfChan} {bits : List Nat} (ht : q.target = p.target) :
    MoveOutcome c p (Machine.restart c bits q) := .ite (.arrives ht) (.turns rfl)

theorem brake : MoveOutcome c p (Machine.brake c p) :=
  .ite (.advances rfl rfl) (.ite (.stops (by decide)) (.restart rfl))

theorem slowDown : MoveOutcome c p (Machine.slowDown c p) :=
  .ite (.arrives rfl) (.ite (.advances rfl rfl) (.ite (.stops (by decide)) (.restart rfl)))

theorem decelerate {bits : List Nat} : MoveOutcome c p (Machine.decelerate c bits p) :=
  .ite (.arrives rfl) (.advances rfl rfl)

/-- Position, remainder, direction and target are all that an outcome takes from the channel. -/
theorem congr {q : ProfChan} {x : ProfChan × ProfReport} (h : MoveOutcome c q x)
    (hadv : ∀ v, (advance q v).pos = (advance p v).pos ∧ (advance q v).rem = (advance p v).rem)
    (ht : q.target = p.target) : MoveOutcome c p x := by
  cases h with
  | advances hpos hrem => exact .advances (hpos.trans (hadv _).1) (hrem.trans (hadv _).2)
  | turns hfresh => exact .turns hfresh
  | arrives hq => exact .arrives (hq.trans ht)
  | stops hcause => exact .stops hcause

theorem moveTick : MoveOutcome c p (Machine.moveTick c p) := by
  refine .ite (.ite (.arrives rfl) (.advances rfl rfl)) (.ite .brake (.ite .slowDown (.ite ?_ (.ite .decelerate ?_))))
  · exact .ite (.congr .decelerate (fun _ => ⟨rfl, rfl⟩) rfl)
      (.ite (.congr .brake (fun _ => ⟨rfl, rfl⟩) rfl) (.congr .decelerate (fun _ => ⟨rfl, rfl⟩) rfl))
  · exact .ite (.arrives rfl) (.advances rfl rfl)

end MoveOutcome

section
variable {c : Nat} {p : ProfChan}

/-- An update that neither completes the move nor turns it round advances the position by the new velocity. -/
theorem full_moveTick (hd : (moveTick c p).2.done = none) (hf : (moveTick c p).1.fresh = false) :
    (ProfState.full (moveTick c p).1 : Int) % 2 ^ 64 =
      ((ProfState.full p : Int) + (if p.neg then -((moveTick c p).1.vel : Int) else (moveTick c p).1.vel)) % 2 ^ 64 := by
  have h : MoveOutcome c p (moveTick c p) := .moveTick
  generalize moveTick c p = x at h hd hf
  cases h with
  | @advances q _ hpos hrem =>
    have hq : ProfState.full q = ProfState.full (advance p q.vel) := by simp only [ProfState.full, hpos, hrem]
    rw [hq]
    exact full_advance p q.vel
  | turns hfresh => simp [hfresh] at hf
  | arrives => cases hd
  | stops => cases hd

/-- An update that reaches the target leaves the channel at rest there (R92). -/
theorem moveTick_of_target (hd : (moveTick c p).2.done = some .target) :
    ∃ q : ProfChan, q.target = p.target ∧ (moveTick c p).1 = arrived c q := by
  have h : MoveOutcome c p (moveTick c p) := .moveTick
  generalize moveTick c p = x at h hd
  cases h with
  | advances => cases hd
  | turns => cases hd
  | @arrives q _ _ ht => exact ⟨q, ht, rfl⟩
  | stops hcause => exact absurd (Option.some.inj hd) hcause

/-- A move that need not decelerate takes the velocity of R90. -/
theorem moveTick_accelerates (hfresh : p.fresh = false) (hhalt : p.halting = false) (hover : p.overshot = false)
    (hstop : p.stopping = false) (hdec : p.decel = false) (hrev : p.seg ≠ .reversing) (hhard : p.seg ≠ .decMax)
    (hplus : stopExceeds p (remaining c p + p.vel) = false) (hminus : stopExceeds p (remaining c p - p.vel) = false)
    (hfar : (accelerate p : Int) < remaining c p) :
    moveTick c p = ({ advance p (accelerate p) with seg := accSeg p.ramp (accelerate p) }, ⟨[], none⟩) := by
  simp [moveTick, hfresh, hhalt, hover, hstop, hdec, hrev, hhard, hplus, hminus, Int.not_le.mpr hfar]

end

/-- Settles O17: the velocity by its cases, and the position by the outcomes of an update. -/
theorem moveFollowsItsRamp : Obligations.MoveFollowsItsRamp := by
  refine ⟨fun c p hfresh hhalt hover hstop hdec hrev hhard hplus hminus hfar => ?_, fun p hr =>
    ⟨accelerate_below_brk hr, accelerate_below_max, accelerate_at_max hr, accelerate_above_max⟩,
    fun _ _ => full_moveTick, fun c p hd => ?_⟩
  · rw [moveTick_accelerates hfresh hhalt hover hstop hdec hrev hhard hplus hminus hfar]
    exact ⟨rfl, rfl⟩
  · obtain ⟨q, ht, hq⟩ := moveTick_of_target hd
    rw [hq]
    exact ⟨congrArg (targetPos c) ht, rfl, rfl, rfl⟩

end Sys2Proof.Machine
end

section
/-! PROOFS. The work of the profile engine and of the drives that follow it (R85, R88): what it changes, and which channels
it leaves alone. -/

namespace Sys2Proof.Machine

open Host

/-! ### The rule and how it composes -/

/-- What the profile engine and its drives may change. -/
def profileParts : List Part := [.prof, .values, .aux, .events, .reports]

/-- Work in a profile tick on the channels of `cs`: the others stay, and so do a trip's HALT that waits and the tick that was
noted. Where the drives take no part (`drives` is false), no change is left waiting, and the drives stay unless one keeps the
parameters of a homing aside (R496). -/
structure Dev.Works (drives : Prop) (cs : Nat → Prop) (a d : Dev) : Prop where
  touches : Dev.Touches profileParts a d
  others : ∀ c, ¬ cs c → d.prf c = a.prf c
  tripHalt : d.prof.tripHalt = a.prof.tripHalt
  lastTick : d.prof.lastTick = a.prof.lastTick
  ops : ¬ drives → d.prof.ops = a.prof.ops
  aux : ¬ drives → (∀ k, (a.drv k).saved = none) → d.aux = a.aux

namespace Dev.Works

variable {drives : Prop} {cs : Nat → Prop} {a d e : Dev}

theorem refl : Dev.Works drives cs d d :=
  ⟨Dev.Touches.refl.mono (by simp), fun _ _ => rfl, rfl, rfl, fun _ => rfl, fun _ _ => rfl⟩

theorem mono {drives' : Prop} {cs' : Nat → Prop} (h : Dev.Works drives cs a d) (hd : drives → drives')
    (hcs : ∀ c, cs c → cs' c) : Dev.Works drives' cs' a d :=
  ⟨h.touches, fun c hc => h.others c fun hk => hc (hcs c hk), h.tripHalt, h.lastTick, fun hn => h.ops fun hk => hn (hd hk),
    fun hn => h.aux fun hk => hn (hd hk)⟩

theorem andThen (h : Dev.Works drives cs a d) (h' : Dev.Works drives cs d e) : Dev.Works drives cs a e where
  touches := (h.touches.andThen h'.touches).mono (by simp)
  others c hc := (h'.others c hc).trans (h.others c hc)
  tripHalt := h'.tripHalt.trans h.tripHalt
  lastTick := h'.lastTick.trans h.lastTick
  ops hd := (h'.ops hd).trans (h.ops hd)
  aux hd hs := by
    have haux := h.aux hd hs
    have hs' : ∀ k, (d.drv k).saved = none := fun k => by
      rw [Dev.drv, haux]
      exact hs k
    exact (h'.aux hd hs').trans haux

theorem ite {b : Prop} [Decidable b] (hd : Dev.Works drives cs a d) (he : Dev.Works drives cs a e) :
    Dev.Works drives cs a (if b then d else e) := by split <;> assumption

theorem foldl {α : Type} {f : Dev → α → Dev} (hf : ∀ d x, Dev.Works drives cs d (f d x)) (l : List α) (d : Dev) :
    Dev.Works drives cs d (l.foldl f d) := by
  induction l generalizing d with
  | nil => exact refl
  | cons x rest ih => exact (hf d x).andThen (ih _)

/-- An operation outside the engine and the drives: a report, or a register value. -/
theorem of_touches {ps : List Part} (h : Dev.Touches ps a d)
    (hp : .prof ∉ ps ∧ .aux ∉ ps ∧ ∀ p ∈ ps, p ∈ profileParts) : Dev.Works drives cs a d := by
  obtain ⟨hprof, haux, hps⟩ := hp
  have prof : d.prof = a.prof := (h.same .prof hprof).symm
  exact ⟨h.mono hps, fun c _ => congrArg (fun p : ProfState => p.chans.get ProfChan.reset c) prof,
    congrArg ProfState.tripHalt prof, congrArg ProfState.lastTick prof, fun _ => congrArg ProfState.ops prof,
    fun _ _ => (h.same .aux haux).symm⟩

end Dev.Works

theorem Dev.prf_setPrf_self (c : Nat) (v : ProfChan) (d : Dev) : (d.setPrf c v).prf c = v := SMap.get_set_self ..

theorem Dev.prf_setPrf_of_ne {c k : Nat} (v : ProfChan) (d : Dev) (h : c ≠ k) : (d.setPrf c v).prf k = d.prf k :=
  SMap.get_set_of_ne _ _ _ h

@[simp] theorem State.after_prf (s : State) (d : Dev) (c : Nat) : (s.after d).dev.prf c = d.prf c := rfl

theorem State.after_stands (s : State) (d : Dev) (off : Nat) (m : W32) :
    (s.after d).dev.stands off m = d.stands off m := rfl

/-! ### The engine -/

section
variable {drives : Prop} {cs : Nat → Prop} {c : Nat} (d : Dev)

theorem Dev.works_event (blk bit d0 d1 d2 : Nat) : Dev.Works drives cs d (d.event blk bit d0 d1 d2) :=
  .of_touches (d.touches_event ..) (by decide)

theorem Dev.works_irq (n : Nat) : Dev.Works drives cs d (d.irq n) := .of_touches (d.touches_irq n) (by decide)

theorem Dev.works_profDone (k : Nat) (cause : ProfCause) : Dev.Works drives cs d (d.profDone k cause) :=
  .of_touches (d.touches_profDone k cause) (by decide)

theorem Dev.works_setForce (off : Nat) (v : W32) : Dev.Works drives cs d (d.setForce off v) :=
  .of_touches (d.touches_setForce off v) (by decide)

theorem Dev.keeps_writeThrough (off v : Nat) : Dev.Keeps [.values] d (d.writeThrough off v) := by
  refine ⟨fun p hp => ?_⟩
  cases p
  case values => simp at hp
  case commands => exact ⟨rfl, rfl, rfl, rfl, rfl⟩
  case reports => exact ⟨rfl, rfl, rfl, rfl⟩
  all_goals rfl

theorem Dev.works_writeThrough (off v : Nat) : Dev.Works drives cs d (d.writeThrough off v) :=
  .of_touches (.of_keeps (d.keeps_writeThrough off v) (by decide)) (by decide)

theorem Dev.works_profReport (k : Nat) (r : ProfReport) : Dev.Works drives cs d (d.profReport k r) := by
  have hbits : Dev.Works drives cs d (r.bits.foldl (fun d b => d.event 5 b k 0 0) d) :=
    .foldl (fun d b => d.works_event 5 b k 0 0) _ _
  unfold Dev.profReport
  split
  · exact hbits.andThen (Dev.works_profDone ..)
  · exact hbits

theorem Dev.works_setHostTarget (k : Nat) (t : W32) : Dev.Works drives cs d (d.setHostTarget k t) :=
  .ite ⟨(d.touches_onProf _).mono (by decide), fun _ _ => rfl, rfl, rfl, fun _ => rfl, fun _ _ => rfl⟩ .refl

theorem Dev.works_rampInUse (k : Nat) (r : Ramp) : Dev.Works drives cs d (d.rampInUse k r).1 := by
  unfold Dev.rampInUse
  dsimp only
  split
  case isTrue h =>
    change Dev.Works drives cs d (d.setDrv (k - 8) { d.drv (k - 8) with saved := some r })
    refine ⟨(d.touches_onAux _).mono (by decide), fun _ _ => rfl, rfl, rfl, fun _ => rfl, fun _ hs => ?_⟩
    have hsome : (d.drv (k - 8)).saved.isSome = true := h.2
    simp [hs] at hsome
  case isFalse => exact .refl

variable (hc : cs c)
include hc

theorem Dev.works_setPrf (v : ProfChan) : Dev.Works drives cs d (d.setPrf c v) where
  touches := (d.touches_setPrf c v).mono (by decide)
  others _ hk := d.prf_setPrf_of_ne v fun h => hk (h ▸ hc)
  tripHalt := rfl
  lastTick := rfl
  ops _ := rfl
  aux _ _ := rfl

theorem Dev.works_useRamp (r : Ramp) : Dev.Works drives cs d (d.useRamp c r) :=
  (d.works_rampInUse c r).andThen (Dev.works_setPrf _ hc _)

theorem Dev.works_setRamp (mask : Nat) (r : Ramp) : Dev.Works drives cs d (d.setRamp c mask r) :=
  (d.works_useRamp hc _).andThen (.foldl (fun d _ => .ite (d.works_writeThrough ..) .refl) _ _)

theorem Dev.works_retarget (t : W32) : Dev.Works drives cs d (d.retarget c t) :=
  have hset (v : ProfChan) : Dev.Works drives cs d (d.setPrf c v) := d.works_setPrf hc v
  .ite (.ite ((hset _).andThen (Dev.works_profDone ..)) (hset _)) (.ite (hset _) (hset _))

theorem Dev.works_haltChan : Dev.Works drives cs d (d.haltChan c) :=
  .ite .refl (.ite ((d.works_setPrf hc _).andThen (Dev.works_profReport ..)) (d.works_setPrf hc _))

theorem Dev.works_loadPos (v : W32) : Dev.Works drives cs d (d.loadPos c v) := d.works_setPrf hc _

theorem Dev.works_profChanTick : Dev.Works drives cs d (d.profChanTick c) :=
  .ite .refl (((d.works_setPrf hc _).andThen (.ite (Dev.works_setHostTarget ..) .refl)).andThen (Dev.works_profReport ..))

end

/-- Parameters of a commit go into force one after another (R107). -/
theorem Dev.works_forceRamp {drives : Prop} {cs : Nat → Prop} (off : Nat) (vs : List Nat) (n : Nat) (d : Dev) :
    Dev.Works drives cs d (vs.foldl (fun (x : Nat × Dev) v =>
      (x.1 + 1, x.2.setForce (off + 4 * x.1) (BitVec.ofNat 32 v))) (n, d)).2 := by
  induction vs generalizing n d with
  | nil => exact .refl
  | cons v rest ih => exact (d.works_setForce _ _).andThen (ih ..)

/-- The channel of a change. -/
def ProfOp.channel : ProfOp → Nat
  | .start c .. | .modify c .. | .stop c _ | .write c _ | .commit c _ => c

theorem Dev.works_profOp {drives : Prop} {cs : Nat → Prop} (o : ProfOp) (hc : cs (ProfOp.channel o)) (d : Dev) :
    Dev.Works drives cs d (d.profOp o) := by
  cases o with
  | start c t params device =>
    have htarget (e : Dev) : Dev.Works drives cs e ((if device then e else e.setHostTarget c t).retarget c t) :=
      .andThen (.ite .refl (e.works_setHostTarget c t)) (Dev.works_retarget _ hc t)
    cases params with
    | none => exact htarget d
    | some r => exact (d.works_setRamp hc 511 r).andThen (htarget _)
  | modify c mask params target =>
    have hramp : Dev.Works drives cs d (if mask = 0 then d else d.setRamp c mask params) :=
      .ite .refl (d.works_setRamp hc mask params)
    cases target with
    | none => exact hramp
    | some t => exact (hramp.andThen (Dev.works_setHostTarget ..)).andThen (Dev.works_retarget _ hc t)
  | stop c halt =>
    exact .ite .refl (.ite ((d.works_haltChan hc).andThen (Dev.works_setHostTarget ..)) (d.works_setPrf hc _))
  | write c v => exact ((d.works_loadPos hc v).andThen (Dev.works_setHostTarget ..)).andThen (Dev.works_profDone ..)
  | commit c r => exact (d.works_useRamp hc r).andThen (Dev.works_forceRamp ..)

/-! ### The drives -/

section
variable {cs : Nat → Prop} (d : Dev)

theorem Dev.works_onAux (f : AuxState → AuxState) : Dev.Works True cs d (d.onAux f) :=
  ⟨(d.touches_onAux f).mono (by decide), fun _ _ => rfl, rfl, rfl, fun h => absurd trivial h, fun h => absurd trivial h⟩

theorem Dev.works_setDrv (k : Nat) (v : AuxDrive) : Dev.Works True cs d (d.setDrv k v) := d.works_onAux _

theorem Dev.works_setHalf (h : Nat) (v : AuxHalf) : Dev.Works True cs d (d.setHalf h v) := d.works_onAux _

theorem Dev.works_onOps (f : List ProfOp → List ProfOp) :
    Dev.Works True cs d (d.onProf fun p => { p with ops := f p.ops }) :=
  ⟨(d.touches_onProf _).mono (by decide), fun _ _ => rfl, rfl, rfl, fun h => absurd trivial h, fun h => absurd trivial h⟩

theorem Dev.works_ask (h : Nat) (w : HalfWant) (offAt : Option Nat) : Dev.Works True cs d (d.ask h w offAt) :=
  d.works_setHalf _ _

theorem Dev.works_driveDark (k : Nat) : Dev.Works True cs d (d.driveDark k) :=
  .foldl (fun d h => (d.works_ask h .none none).andThen (Dev.works_setHalf ..)) _ _

theorem Dev.works_beginDriveMove (k : Nat) (op : ProfOp) (phase : HomePhase) :
    Dev.Works True cs d (d.beginDriveMove k op phase) := (d.works_onOps (· ++ [op])).andThen (Dev.works_setDrv ..)

variable {k : Nat} (hc : cs (8 + k))
include hc

theorem Dev.works_restoreRamp : Dev.Works True cs d (d.restoreRamp k) := by
  unfold Dev.restoreRamp
  split
  · exact (d.works_setPrf hc _).andThen (Dev.works_setDrv ..)
  · exact .refl

theorem Dev.works_haltDrive : Dev.Works True cs d (d.haltDrive k) :=
  .ite ((d.works_haltChan hc).andThen (Dev.works_onOps _ (· ++ [.stop (8 + k) true]))) (d.works_haltChan hc)

theorem Dev.works_auxFault (code : Nat) : Dev.Works True cs d (d.auxFault k code) := by
  have hdark : Dev.Works True cs d ((d.restoreRamp k).driveDark k) :=
    (d.works_restoreRamp hc).andThen (Dev.works_driveDark ..)
  exact (((hdark.andThen (Dev.works_haltDrive _ hc)).andThen (Dev.works_setDrv ..)).andThen (Dev.works_event ..)).andThen
    (Dev.works_irq ..)

theorem Dev.works_homed : Dev.Works True cs d (d.homed k) :=
  ((d.works_restoreRamp hc).andThen (Dev.works_setDrv ..)).andThen (Dev.works_event ..)

theorem Dev.works_startApproach : Dev.Works True cs d (d.startApproach k) :=
  ((d.works_setPrf hc _).andThen (Dev.works_setDrv ..)).andThen (Dev.works_beginDriveMove ..)

theorem Dev.works_keepAhead : Dev.Works True cs d (d.keepAhead k) := .ite .refl (d.works_retarget hc _)

theorem Dev.works_driveFollow : Dev.Works True cs d (d.driveFollow k) := by
  unfold Dev.driveFollow
  dsimp only
  split
  · exact .ite (.ite (d.works_setDrv ..) (d.works_keepAhead hc)) (.ite (d.works_setDrv ..) .refl)
  · refine .ite .refl ?_
    cases (d.drv k).homing with
    | none => exact .refl
    | stall => exact (d.works_loadPos hc _).andThen (Dev.works_homed _ hc)
    | seek => exact d.works_auxFault hc 5
    | seekEnd => exact d.works_beginDriveMove ..
    | backOff => exact d.works_startApproach hc
    | backEnd => exact d.works_startApproach hc
    | approach => exact d.works_auxFault hc 5
    | approachEnd => exact d.works_homed hc
  · exact .refl

end

/-- A drive that neither moves nor homes does not follow its channel. -/
theorem Dev.driveFollow_still {d : Dev} {k : Nat} (h : (d.drv k).st ≠ .moving ∧ (d.drv k).st ≠ .homing) :
    d.driveFollow k = d := by
  obtain ⟨hm, hh⟩ := h
  unfold Dev.driveFollow
  dsimp only
  split
  · exact absurd ‹_› hm
  · exact absurd ‹_› hh
  · rfl

end Sys2Proof.Machine
end

section
/-! PROOFS. PROFILE_TICK (R85, R88, R95, R98, R100). -/

namespace Sys2Proof.Machine

open Host

/-! ### Every moving channel updates once -/

/-- A channel after its part of a profile tick. -/
def movedChan (c : Nat) (p : ProfChan) : ProfChan := if p.seg = .idle then p else (moveTick c p).1

section
variable {c : Nat} {p : ProfChan}

theorem movedChan_idle (h : p.seg = .idle) : movedChan c p = p := if_pos h

theorem movedChan_moving (h : p.seg ≠ .idle) : movedChan c p = (moveTick c p).1 := if_neg h

theorem Dev.prf_profChanTick_self (c : Nat) (d : Dev) : (d.profChanTick c).prf c = movedChan c (d.prf c) := by
  unfold Dev.profChanTick movedChan
  dsimp only
  split
  · rfl
  · have hset : (d.setPrf c (moveTick c (d.prf c)).1).prf c = (moveTick c (d.prf c)).1 := d.prf_setPrf_self c _
    generalize d.setPrf c (moveTick c (d.prf c)).1 = e at hset ⊢
    rw [(Dev.works_profReport (drives := False) (cs := fun _ => False) _ c _).others c id]
    split
    · rw [(e.works_setHostTarget (drives := False) (cs := fun _ => False) c _).others c id, hset]
    · exact hset

/-- A channel updates once where it is listed once, and not at all where it is not. -/
theorem Dev.prf_foldl_profChanTick {l : List Nat} (hn : l.Nodup) (c : Nat) (d : Dev) :
    (l.foldl Dev.profChanTick d).prf c = if c ∈ l then movedChan c (d.prf c) else d.prf c := by
  induction l generalizing d with
  | nil => rfl
  | cons x rest ih =>
    obtain ⟨hx, hrest⟩ := List.nodup_cons.mp hn
    rw [List.foldl_cons, ih hrest]
    by_cases hxc : c = x
    · subst hxc
      simp [hx, d.prf_profChanTick_self]
    · have hstay : (d.profChanTick x).prf c = d.prf c :=
        (d.works_profChanTick (drives := False) (cs := (· = x)) rfl).others c hxc
      simp [hxc, hstay]

end

/-! ### The row -/

/-- The profile tick has come: what waits is taken, and the tick is noted. -/
def Dev.tickTaken (d : Dev) : Dev := d.onProf fun p => { p with ops := [], tripHalt := false, lastTick := d.now }

/-- The changes that waited apply, then a trip's HALT (R95, R100). -/
def Dev.changesApplied (d : Dev) : Dev :=
  let e := d.prof.ops.foldl (fun d o => d.profOp o) d.tickTaken
  if d.prof.tripHalt then (upto 8).foldl (fun d c => d.haltChan c) e else e

section
variable {d : Dev}

theorem Dev.profileTick_eq (h : d.profileDue = true) :
    d.profileTick = (upto 16).foldl Dev.profChanTick d.changesApplied := if_neg (by simp [h])

theorem Dev.profileDue_of (hc : d.now % 400 < d.cycle) (hl : d.prof.lastTick / 400 ≠ d.now / 400 ∨ d.now = 0) :
    d.profileDue = true := by simp [Dev.profileDue, hc, hl]

theorem Dev.changesApplied_of_none (ho : d.prof.ops = []) (ht : d.prof.tripHalt = false) :
    d.changesApplied = d.tickTaken := by simp [Dev.changesApplied, ho, ht]

theorem Dev.works_changesApplied : Dev.Works False (fun _ => True) d.tickTaken d.changesApplied :=
  have hops := Dev.Works.foldl (fun d (o : ProfOp) => d.works_profOp (drives := False) (cs := fun _ => True) o trivial)
    d.prof.ops d.tickTaken
  .ite (hops.andThen (.foldl (fun d c => d.works_haltChan (c := c) trivial) _ _)) hops

theorem Dev.works_profileTick (h : d.profileDue = true) : Dev.Works False (fun _ => True) d.tickTaken d.profileTick := by
  rw [Dev.profileTick_eq h]
  exact d.works_changesApplied.andThen (.foldl (fun d c => d.works_profChanTick (c := c) trivial) _ _)

theorem Dev.prf_profileTick (h : d.profileDue = true) (c : Nat) :
    d.profileTick.prf c = if c < 16 then movedChan c (d.changesApplied.prf c) else d.changesApplied.prf c := by
  rw [Dev.profileTick_eq h, upto, Dev.prf_foldl_profChanTick List.nodup_range]
  simp

/-- The drives work on the channels from 8 on alone (R88). -/
theorem Dev.works_driveFollows (d : Dev) : Dev.Works True (8 ≤ ·) d ((upto 4).foldl Dev.driveFollow d) :=
  .foldl (fun d k => d.works_driveFollow (Nat.le_add_right 8 k)) _ _

theorem Dev.driveFollows_still (h : ∀ k < 4, (d.drv k).st ≠ .moving ∧ (d.drv k).st ≠ .homing) :
    (upto 4).foldl Dev.driveFollow d = d :=
  List.foldlRecOn (motive := fun e => e = d) _ _ rfl fun e he k hk => by
    subst he
    exact Dev.driveFollow_still (h k (List.mem_range.mp hk))

end

/-- What the row leaves of the device. -/
def Dev.tickDone (d : Dev) : Dev := (upto 4).foldl Dev.driveFollow d.profileTick

section
variable {d : Dev} {s : State}

theorem exec_profileTick_due (h : s.dev.profileDue = true) : exec .profileTick s = .next (s.after s.fresh.tickDone) :=
  exec_of_effect rfl (if_pos h)

theorem exec_profileTick_idle (h : s.dev.profileDue = false) : exec .profileTick s = .next (s.after s.fresh) :=
  exec_of_effect rfl (if_neg (by rw [show s.fresh.profileDue = false from h]; decide))

theorem Dev.works_tickDone (h : d.profileDue = true) : Dev.Works True (fun _ => True) d.tickTaken d.tickDone :=
  ((Dev.works_profileTick h).mono False.elim fun _ => id).andThen ((Dev.works_driveFollows _).mono id fun _ _ => trivial)

theorem Dev.prf_tickDone (h : d.profileDue = true) {c : Nat} (hc : c < 8) :
    d.tickDone.prf c = movedChan c (d.changesApplied.prf c) := by
  rw [Dev.tickDone, (Dev.works_driveFollows _).others c (by omega), Dev.prf_profileTick h, if_pos (by omega)]

/-- While no drive moves or homes, none follows its channel. -/
theorem Dev.tickDone_still (h : d.profileDue = true) (hst : ∀ k < 4, (d.drv k).st ≠ .moving ∧ (d.drv k).st ≠ .homing)
    (hs : ∀ k, (d.drv k).saved = none) : d.tickDone = d.profileTick ∧ d.profileTick.aux = d.aux := by
  have haux : d.profileTick.aux = d.aux := (Dev.works_profileTick h).aux id hs
  refine ⟨Dev.driveFollows_still fun k hk => ?_, haux⟩
  rw [Dev.drv, haux]
  exact hst k hk

/-- What a due tick leaves, and what it changes (R85). -/
theorem profileTick_taken (h : s.dev.profileDue = true) : (s.after s.fresh.tickDone).dev.prof.tripHalt = false ∧
    (s.after s.fresh.tickDone).dev.prof.lastTick = s.dev.now ∧
    ChangesOnly [.prof, .values, .aux, .events, .reports] s (s.after s.fresh.tickDone) := by
  have hw := Dev.works_tickDone (d := s.fresh) h
  have htaken : Dev.Keeps [.prof, .values, .aux, .events, .reports] s.fresh s.fresh.tickTaken :=
    (Dev.keeps_onProf ..).mono (by decide)
  exact ⟨hw.tripHalt, hw.lastTick, .of_after (htaken.andThen hw.touches.keeps fun _ => id)⟩

end

/-- Settles O16: where nothing waits the channels are as they were when their own parts of the tick come, and a drive that
follows its channel works on the channels from 8 on. -/
theorem profileTickMovesEachChannelOnce : Obligations.ProfileTickMovesEachChannelOnce := by
  refine ⟨fun s hcyc hlast => ?_, fun s h => exec_profileTick_idle ?_⟩
  · have hdue : s.fresh.profileDue = true := Dev.profileDue_of (d := s.fresh) hcyc hlast
    obtain ⟨htrip, htick, honly⟩ := profileTick_taken hdue
    refine ⟨_, exec_profileTick_due hdue, htrip, htick, fun hops hhalt c hc => ?_, fun hst hs => ?_, honly⟩
    · have hp : (s.after s.fresh.tickDone).dev.prf c = movedChan c (s.dev.prf c) := by
        rw [State.after_prf, Dev.prf_tickDone hdue hc, Dev.changesApplied_of_none (d := s.fresh) hops hhalt]
        rfl
      exact ⟨fun hi => hp.trans (movedChan_idle hi), fun hm => hp.trans (movedChan_moving hm)⟩
    · obtain ⟨hdone, haux⟩ := Dev.tickDone_still (d := s.fresh) hdue hst hs
      rw [hdone]
      refine ⟨(Dev.works_profileTick hdue).ops id, haux, fun hops hhalt c hc => ?_⟩
      have hp : (s.after s.fresh.profileTick).dev.prf c =
          if c < 16 then movedChan c (s.dev.prf c) else s.dev.prf c := by
        rw [State.after_prf, Dev.prf_profileTick hdue, Dev.changesApplied_of_none (d := s.fresh) hops hhalt]
        rfl
      refine ⟨fun hrest => hp.trans ?_, fun hlt hm => hp.trans ((if_pos hlt).trans (movedChan_moving hm))⟩
      rcases hrest with hi | h16
      · simp [movedChan_idle hi]
      · exact if_neg (by omega)
  · rcases h with h | ⟨hl, hn⟩
    · simp [Dev.profileDue, h]
    · simp [Dev.profileDue, hl, hn]

/-! ### A position that is written (R98) -/

section
variable {k : Nat} {v : W32} {d : Dev}

theorem Dev.prf_profOp_write : (d.profOp (.write k v)).prf k = arrived k { d.prf k with target := v } := by
  have hw : Dev.Works False (fun _ => False) (d.loadPos k v) (d.profOp (.write k v)) :=
    (Dev.works_setHostTarget ..).andThen (Dev.works_profDone ..)
  exact (hw.others k id).trans (d.prf_setPrf_self k _)

theorem Dev.profDone_stands (c : Nat) (cause : ProfCause) (d : Dev) : (d.profDone c cause).stands (Reg.PROF_EVENT c) 1 :=
  Dev.grows_irq 35 _ _ _ (Dev.event_stands 5 0 c (profCauseCode cause) 0 d)

/-- A tick that applies one written position, and no more: the channel rests there, and the event stands. -/
theorem Dev.tickDone_of_write (h : d.profileDue = true) (hk : k < 8) (ho : d.prof.ops = [.write k v])
    (ht : d.prof.tripHalt = false) : d.tickDone.prf k = arrived k { d.prf k with target := v } ∧
      d.tickDone.stands (Reg.PROF_EVENT k) 1 := by
  have happlied : d.changesApplied = d.tickTaken.profOp (.write k v) := by simp [Dev.changesApplied, ho, ht]
  constructor
  · rw [Dev.prf_tickDone h hk, happlied, Dev.prf_profOp_write]
    exact movedChan_idle rfl
  · have hstands : d.changesApplied.stands (Reg.PROF_EVENT k) 1 := happlied ▸ Dev.profDone_stands ..
    have hticks : Dev.Works True (fun _ => True) d.changesApplied ((upto 16).foldl Dev.profChanTick d.changesApplied) :=
      .foldl (fun d c => d.works_profChanTick (c := c) trivial) _ _
    rw [← Dev.profileTick_eq h] at hticks
    have hw := hticks.andThen ((Dev.works_driveFollows _).mono id fun _ _ => trivial)
    exact hw.touches.grows _ _ hstands

end

/-- Settles O15: what the command leaves waiting, and the tick that applies it. -/
theorem setpointWriteSetsPosition : Obligations.SetpointWriteSetsPosition := by
  refine ⟨fun c s h hch hlen hrank href => ?_, fun k v s hk hcyc hlast hops htrip => ?_⟩
  · exact exec_setpointWrite h (Dev.setpointWrite_accepted (d := s.fresh) hch hlen hrank href)
  · have hdue : s.fresh.profileDue = true := Dev.profileDue_of (d := s.fresh) hcyc hlast
    obtain ⟨hp, hstands⟩ := Dev.tickDone_of_write (d := s.fresh) hdue hk hops htrip
    refine ⟨_, exec_profileTick_due hdue, ?_⟩
    simp only [State.after_prf, State.after_stands, hp]
    exact ⟨rfl, rfl, rfl, rfl, rfl, rfl, rfl, hstands⟩

end Sys2Proof.Machine
end

section
/-! PROOFS. Registers and rings of the host interface: a value put in force, a ring's indices, and what a report does to
them (R414–R417). -/

namespace Sys2Proof.Machine

open Host

/-! ### Values in force -/

section
variable {off o : Nat} (w : W32) (d : Dev)

theorem Dev.cfg_setForce_self : (d.setForce off w).cfg off = w.toNat := congrArg BitVec.toNat (SMap.get_set_self ..)

theorem Dev.cfg_setForce_of_ne (h : off ≠ o) : (d.setForce off w).cfg o = d.cfg o :=
  congrArg BitVec.toNat (SMap.get_set_other _ _ _ _ h)

theorem Dev.storeReg_unstaged {r : RegRow} (hr : regRow off = some r) (hs : r.staged = false) :
    d.storeReg off w = d.setForce off (w &&& BitVec.ofNat 32 r.rw) := by
  rw [Dev.storeReg, hr]
  exact if_neg (by simp [hs])

end

theorem regRow_ringCfg : ∀ r < 32, regRow (Reg.HOST_RING_CFG r) = some ⟨0x20108, 32, 0x10, 0x6, 0x8000001F, 0, false⟩ := by
  decide

/-- The size field survives the mask of HOST_RING_CFG's RW bits. -/
theorem bits_ringCfg (v : W32) : bits (v &&& 0x8000001F).toNat 4 0 = bits v.toNat 4 0 := by
  have h : (v.toNat &&& 0x8000001F) % 2 ^ 5 = v.toNat % 2 ^ 5 := by
    rw [Nat.and_mod_two_pow]
    exact (Nat.and_two_pow_sub_one_eq_mod _ 5).trans (Nat.mod_mod _ _)
  simpa [bits, BitVec.toNat_and] using h

/-- And so does EN. -/
theorem bitAt_ringCfg (v : W32) : bitAt (v &&& 0x8000001F).toNat 31 = v.getLsbD 31 := by
  rw [bitAt_toNat, BitVec.getLsbD_and]
  simp

/-! ### Rings -/

@[simp] theorem State.after_ring (s : State) (d : Dev) (r : Nat) : (s.after d).dev.ring r = d.ring r := rfl
@[simp] theorem State.after_ringEn (s : State) (d : Dev) (r : Nat) : (s.after d).dev.ringEn r = d.ringEn r := rfl
@[simp] theorem State.after_ringSize (s : State) (d : Dev) (r : Nat) : (s.after d).dev.ringSize r = d.ringSize r := rfl

section
variable {r q : Nat} (d : Dev)

theorem Dev.ring_setRing_self (v : Ring) : (d.setRing r v).ring r = v := SMap.get_set_self ..

theorem Dev.ring_setRing_of_ne (v : Ring) (h : r ≠ q) : (d.setRing r v).ring q = d.ring q := SMap.get_set_of_ne _ _ _ h

theorem Dev.shadow_eq (v : Nat) : d.shadow r v =
    if d.shadowBase = 0 then d else d.post (d.shadowBase + 4 * r) (leBytes 4 v) := rfl

theorem Dev.shadow_regs (v : Nat) : (d.shadow r v).regs = d.regs := by
  rw [Dev.shadow_eq]
  split <;> rfl

theorem Dev.shadow_ring (v : Nat) : (d.shadow r v).ring q = d.ring q := by
  rw [Dev.shadow_eq]
  split <;> rfl

theorem Dev.irq_ring (n : Nat) : (d.irq n).ring q = d.ring q := by
  have h : (d.irq n).host.rings = d.host.rings := by
    unfold Dev.irq
    dsimp only
    split <;> split <;> split <;> rfl
  rw [Dev.ring, h]
  rfl

end

/-- The device fills ring `r` and no other: what stays of `r` is the consumer index and the doorbell's value (R415). -/
structure Dev.Fills (r : Nat) (a d : Dev) : Prop where
  cons : ∀ q, (d.ring q).cons = (a.ring q).cons
  doorbell : ∀ q, (d.ring q).doorbell = (a.ring q).doorbell
  others : ∀ q, q ≠ r → d.ring q = a.ring q

section
variable {r : Nat} {a d : Dev}

theorem Dev.Fills.of_eq (h : ∀ q, d.ring q = a.ring q) : Dev.Fills r a d :=
  ⟨fun q => by rw [h], fun q => by rw [h], fun q _ => h q⟩

theorem Dev.Fills.andThen {e : Dev} (h : Dev.Fills r a d) (h' : Dev.Fills r d e) : Dev.Fills r a e :=
  ⟨fun q => (h'.cons q).trans (h.cons q), fun q => (h'.doorbell q).trans (h.doorbell q),
    fun q hq => (h'.others q hq).trans (h.others q hq)⟩

theorem Dev.fills_irq (n : Nat) (d : Dev) : Dev.Fills r d (d.irq n) := .of_eq fun _ => d.irq_ring n

theorem Dev.fills_putDesc (r src : Nat) (bs : List Byte) (d : Dev) : Dev.Fills r d (d.putDesc r src bs) := by
  have hring (q : Nat) : ∃ p f, (d.putDesc r src bs).ring q =
      if q = r then { d.ring r with prod := p, phase := f } else d.ring q := by
    unfold Dev.putDesc
    dsimp only
    rw [Dev.irq_ring, Dev.shadow_ring]
    by_cases hq : q = r
    · subst hq
      exact ⟨_, _, (Dev.ring_setRing_self ..).trans (if_pos rfl).symm⟩
    · exact ⟨0, true, (Dev.ring_setRing_of_ne _ _ (Ne.symm hq)).trans (if_neg hq).symm⟩
  refine ⟨fun q => ?_, fun q => ?_, fun q hq => ?_⟩ <;> obtain ⟨p, f, h⟩ := hring q <;> rw [h]
  · split
    · subst q; rfl
    · rfl
  · split
    · subst q; rfl
    · rfl
  · exact if_neg hq

theorem Dev.fills_event (blk bit d0 d1 d2 : Nat) (d : Dev) : Dev.Fills (d.eventRing blk) d (d.event blk bit d0 d1 d2) := by
  have hset : Dev.Fills (d.eventRing blk) d (d.setBit (eventReg blk d0) bit) := .of_eq fun _ => rfl
  refine hset.andThen ?_
  unfold Dev.event Dev.report
  dsimp only
  split
  · exact .of_eq fun _ => rfl
  · exact Dev.fills_putDesc ..

end

theorem Dev.sixteen_le_eventRing (d : Dev) (blk : Nat) : 16 ≤ d.eventRing blk := Nat.le_add_right ..

/-- No read of the Larder in progress goes on. -/
theorem Dev.readProgress_of_none {d : Dev} (h : d.lrd.reads = []) (n : Nat) : Dev.readProgress n d = d := by
  cases n with
  | zero => rfl
  | succ n => simp [Dev.readProgress, h]

end Sys2Proof.Machine
end

section
/-! PROOFS. RING_ENABLE and RING_DISABLE (R414). -/

namespace Sys2Proof.Machine

open Host

section
variable {r : Nat} {v : W32} {d : Dev}

theorem Dev.writeRingCfg_badSize (h : bits v.toNat 4 0 < 6 ∨ 16 < bits v.toNat 4 0) :
    d.writeRingCfg r v = d.accessErr 0 (Reg.HOST_RING_CFG r) := if_pos (or_assoc.mp (.inl h))

/-- The ring's configuration with a value that its RW bits take. -/
def Dev.ringSet (r : Nat) (v : W32) (d : Dev) : Dev := d.setForce (Reg.HOST_RING_CFG r) (v &&& 0x8000001F)

theorem Dev.ringSet_ringEn : (d.ringSet r v).ringEn r = v.getLsbD 31 := by
  rw [Dev.ringEn, Dev.flag, Dev.ringSet, Dev.cfg_setForce_self, bitAt_ringCfg]

theorem Dev.ringSet_ringSize : (d.ringSet r v).ringSize r = 2 ^ bits v.toNat 4 0 := by
  rw [Dev.ringSize, Dev.fld, Dev.ringSet, Dev.cfg_setForce_self, bits_ringCfg]

theorem Dev.ringSet_shadowBase : (d.ringSet r v).shadowBase = d.shadowBase := by
  have hne {o : Nat} (ho : o < 0x20108) : Reg.HOST_RING_CFG r ≠ o := Nat.ne_of_gt (Nat.lt_of_lt_of_le ho (Nat.le_add_right ..))
  rw [Dev.shadowBase, Dev.ringSet, Dev.cfg_setForce_of_ne _ _ (hne (by decide)), Dev.cfg_setForce_of_ne _ _ (hne (by decide))]
  rfl

/-- The device once an enabled ring stands at its start (R414). -/
def Dev.ringStarted (r : Nat) (v : W32) (d : Dev) : Dev :=
  ((d.ringSet r v).setRing r { d.ring r with prod := 0, cons := 0, phase := true }).shadow r 0

section
variable (hr : r < 32)
include hr

theorem Dev.storeReg_ringCfg : d.storeReg (Reg.HOST_RING_CFG r) v = d.ringSet r v :=
  d.storeReg_unstaged _ (regRow_ringCfg r hr) rfl

variable (h6 : 6 ≤ bits v.toNat 4 0) (h16 : bits v.toNat 4 0 ≤ 16)
include h6 h16

/-- A size in range that an enabled ring has already is written; enabling puts the ring at its start, and paused reads of the
Larder go on (R439). -/
theorem Dev.writeRingCfg_stores (hsize : d.ringEn r = true → bits v.toNat 4 0 = d.fld (Reg.HOST_RING_CFG r) 4 0) :
    d.writeRingCfg r v = if (!d.ringEn r && v.getLsbD 31) = true then
        Dev.readProgress (d.ringStarted r v).readFuel (d.ringStarted r v) else d.ringSet r v := by
  have hok : ¬ (bits v.toNat 4 0 < 6 ∨ 16 < bits v.toNat 4 0 ∨
      (d.ringEn r = true ∧ bits v.toNat 4 0 ≠ d.fld (Reg.HOST_RING_CFG r) 4 0)) := by
    rintro (h | h | ⟨hen, h⟩)
    · omega
    · omega
    · exact h (hsize hen)
  unfold Dev.writeRingCfg
  dsimp only
  rw [if_neg hok, Dev.storeReg_ringCfg hr, bitAt_toNat]
  rfl

theorem Dev.writeRingCfg_enables (hv : v.getLsbD 31 = true) (hen : d.ringEn r = false) (hreads : d.lrd.reads = []) :
    d.writeRingCfg r v = d.ringStarted r v := by
  have hnone : (d.ringStarted r v).lrd.reads = [] := by
    rw [Dev.ringStarted, Dev.shadow_lrd]
    exact hreads
  rw [Dev.writeRingCfg_stores hr h6 h16 (by simp [hen]), if_pos (by simp [hen, hv]), Dev.readProgress_of_none hnone]

theorem Dev.writeRingCfg_disables (hv : v.getLsbD 31 = false)
    (hsize : d.ringEn r = true → d.ringSize r = 2 ^ bits v.toNat 4 0) : d.writeRingCfg r v = d.ringSet r v := by
  rw [Dev.writeRingCfg_stores hr h6 h16 fun hen => (Nat.pow_right_injective (le_refl 2) (hsize hen)).symm,
    if_neg fun h => ne_true_of_eq_false hv (Bool.and_eq_true .. ▸ h).2]

end

theorem Dev.ringStarted_ringEn : (d.ringStarted r v).ringEn r = v.getLsbD 31 := by
  rw [← d.ringSet_ringEn, Dev.ringEn, Dev.flag, Dev.cfg, Dev.ringStarted, Dev.shadow_regs]
  rfl

theorem Dev.ringStarted_ringSize : (d.ringStarted r v).ringSize r = 2 ^ bits v.toNat 4 0 := by
  rw [← d.ringSet_ringSize, Dev.ringSize, Dev.fld, Dev.cfg, Dev.ringStarted, Dev.shadow_regs]
  rfl

theorem Dev.ringStarted_ring_self : (d.ringStarted r v).ring r = { d.ring r with prod := 0, cons := 0, phase := true } := by
  rw [Dev.ringStarted, Dev.shadow_ring, Dev.ring_setRing_self]

theorem Dev.ringStarted_ring_of_ne {q : Nat} (h : q ≠ r) : (d.ringStarted r v).ring q = d.ring q := by
  rw [Dev.ringStarted, Dev.shadow_ring, Dev.ring_setRing_of_ne _ _ h.symm]
  rfl

theorem Dev.keeps_ringStarted : Dev.Keeps [.values, .reports] d (d.ringStarted r v) :=
  ((Dev.Keeps.andThen ((d.keeps_setForce _ _).mono (by decide)) (Dev.keeps_setRing ..) (by decide)).andThen
    (Dev.keeps_shadow ..) (by decide))

theorem Dev.ringStarted_out : (d.ringStarted r v).host.out =
    if d.shadowBase = 0 then d.host.out else d.host.out ++ [(d.shadowBase + 4 * r, List.replicate 4 0)] := by
  have hbase : ((d.ringSet r v).setRing r { d.ring r with prod := 0, cons := 0, phase := true }).shadowBase = d.shadowBase :=
    Dev.ringSet_shadowBase
  rw [Dev.ringStarted, Dev.shadow_eq, hbase]
  split <;> rfl

end

/-! ### The rows -/

section
variable {r : Fin 32} {v : W32} {s : State} {d : Dev}

theorem exec_ringEnable (hv : v.getLsbD 31 = true) (hd : s.fresh.writeRingCfg r.val v = d) :
    exec (.ringEnable r v) s = .next (s.after d) := exec_of_effect rfl ((if_pos hv).trans hd)

theorem exec_ringDisable (hv : v.getLsbD 31 = false) (hd : s.fresh.writeRingCfg r.val v = d) :
    exec (.ringDisable r v) s = .next (s.after d) := exec_of_effect rfl ((if_neg (ne_true_of_eq_false hv)).trans hd)

theorem ringEnable_idle (hv : v.getLsbD 31 = false) : exec (.ringEnable r v) s = .next (s.after s.fresh) :=
  exec_of_effect rfl (if_neg (ne_true_of_eq_false hv))

theorem ringDisable_idle (hv : v.getLsbD 31 = true) : exec (.ringDisable r v) s = .next (s.after s.fresh) :=
  exec_of_effect rfl (if_pos hv)

/-- Four bytes of 0 are all that enabling a ring stores, where there is a shadow area (R421). -/
theorem readByte_after_ringStarted (hout : s.dev.host.out = []) (a : Nat) :
    (s.after (s.fresh.ringStarted r.val v)).readByte a =
      if s.dev.shadowBase ≠ 0 ∧ s.dev.shadowBase + 4 * r.val ≤ a ∧ a < s.dev.shadowBase + 4 * r.val + 4 then 0
      else s.readByte a := by
  have hpost := s.fresh.ringStarted_out (r := r.val) (v := v)
  rw [show s.fresh.host.out = [] from hout, show s.fresh.shadowBase = s.dev.shadowBase from rfl] at hpost
  by_cases hb : s.dev.shadowBase = 0
  · rw [if_pos hb] at hpost
    simpa [hb] using Quiet.of_out (s := s) (hpost.trans hout.symm) hout a
  · rw [if_neg hb] at hpost
    rw [State.after_readByte_of_post hpost a, List.length_replicate, List.getD_eq_getElem?_getD,
      List.getElem?_getD_replicate_default_eq]
    simp only [ne_eq, hb, not_false_eq_true, true_and]

theorem ringEnable_enables (hv : v.getLsbD 31 = true) (h6 : 6 ≤ bits v.toNat 4 0) (h16 : bits v.toNat 4 0 ≤ 16)
    (hen : s.dev.ringEn r.val = false) (hreads : s.dev.lrd.reads = []) : Answers (.ringEnable r v) s fun t =>
      t.dev.ringEn r.val = true ∧ t.dev.ringSize r.val = 2 ^ bits v.toNat 4 0 ∧
      t.dev.ring r.val = { s.dev.ring r.val with prod := 0, cons := 0, phase := true } ∧
      (∀ q, q ≠ r.val → t.dev.ring q = s.dev.ring q) ∧ ChangesOnly [.values, .reports] s t ∧
      (s.dev.host.out = [] →
        (s.dev.shadowBase ≠ 0 → ∀ j < 4, t.readByte (s.dev.shadowBase + 4 * r.val + j) = 0) ∧
        ∀ a, s.dev.shadowBase = 0 ∨ a < s.dev.shadowBase + 4 * r.val ∨ s.dev.shadowBase + 4 * r.val + 4 ≤ a →
          t.readByte a = s.readByte a) := by
  refine ⟨_, exec_ringEnable hv (Dev.writeRingCfg_enables (d := s.fresh) r.isLt h6 h16 hv hen hreads), ?_⟩
  simp only [State.after_ring, State.after_ringEn, State.after_ringSize]
  refine ⟨Dev.ringStarted_ringEn.trans hv, Dev.ringStarted_ringSize, Dev.ringStarted_ring_self,
    fun q hq => Dev.ringStarted_ring_of_ne hq, .of_after Dev.keeps_ringStarted, fun hout =>
      ⟨fun hb j hj => ?_, fun a ha => ?_⟩⟩
  · rw [readByte_after_ringStarted hout, if_pos (by omega)]
  · rw [readByte_after_ringStarted hout, if_neg (by omega)]

theorem ringDisable_disables (hv : v.getLsbD 31 = false) (h6 : 6 ≤ bits v.toNat 4 0) (h16 : bits v.toNat 4 0 ≤ 16)
    (hsize : s.dev.ringEn r.val = true → s.dev.ringSize r.val = 2 ^ bits v.toNat 4 0) :
    Answers (.ringDisable r v) s fun t => t.dev.ringEn r.val = false ∧ t.dev.host.rings = s.dev.host.rings ∧
      ChangesOnly [.values] s t ∧ Quiet s t :=
  ⟨_, exec_ringDisable hv (Dev.writeRingCfg_disables (d := s.fresh) r.isLt h6 h16 hv hsize),
    Dev.ringSet_ringEn.trans hv, rfl, (Dev.keeps_setForce ..).quietly rfl⟩

end

end Sys2Proof.Machine
end

section
/-! PROOFS. DOORBELL_WRITE (R416–R419, R439). -/

namespace Sys2Proof.Machine

open Host

/-- The doorbell of ring `r` with the value last written (R419). -/
def Dev.doorbellKept (r : Nat) (v : W32) (d : Dev) : Dev := d.setRing r { d.ring r with doorbell := v }

section
variable {r : Nat} {v : W32} {d : Dev}

theorem Dev.doorbellKept_ring_self : (d.doorbellKept r v).ring r = { d.ring r with doorbell := v } := d.ring_setRing_self _

theorem Dev.doorbellKept_ring_of_ne {q : Nat} (h : q ≠ r) : (d.doorbellKept r v).ring q = d.ring q :=
  d.ring_setRing_of_ne _ h.symm

/-- The value last written has no part in what is backwards (R418). -/
theorem Dev.doorbellKept_backwards (n : Nat) : (d.doorbellKept r v).backwards r n = d.backwards r n := by
  have hsize : (d.doorbellKept r v).ringSize r = d.ringSize r := rfl
  simp only [Dev.backwards, Dev.doorbellKept_ring_self, hsize]

/-- A whole write to the page of ring `r` (R416, R418). -/
theorem Dev.doorbell_page {be : Nat} (hbe : be = 15) : d.doorbell (0x1000 * r) be v =
    if d.ringEn r = false ∨ d.ringSize r ≤ v.toNat ∨ d.backwards r v.toNat = true then
      (d.doorbellKept r v).discardDoorbell r v.toNat
    else if hostFills r then (d.doorbellKept r v).setRing r { d.ring r with doorbell := v, prod := v.toNat }
    else
      let e := (d.doorbellKept r v).setRing r { d.ring r with doorbell := v, cons := v.toNat }
      Dev.readProgress e.readFuel e := by
  unfold Dev.doorbell
  rw [if_neg (by simp [hbe])]
  dsimp only
  rw [Nat.mul_div_cancel_left r (by decide), ← Dev.doorbellKept, Dev.doorbellKept_backwards, Dev.doorbellKept_ring_self]
  rfl

/-- A discarded value is counted (R418). -/
def Dev.discardCounted (d : Dev) : Dev := d.onHost fun h => { h with dbDiscCnt := satInc h.dbDiscCnt }

/-- It is reported besides, and no index moves but that of the event's own ring. -/
theorem Dev.discardDoorbell_fills (n : Nat) (d : Dev) : Dev.Fills (d.eventRing 2) d (d.discardDoorbell r n) :=
  have hcount : Dev.Fills (d.eventRing 2) d d.discardCounted := .of_eq fun _ => rfl
  have hevent : Dev.Fills (d.eventRing 2) d.discardCounted (d.discardCounted.event 2 0 r n 0) :=
    Dev.fills_event 2 0 r n 0 d.discardCounted
  (hcount.andThen hevent).andThen (Dev.fills_irq 63 _)

theorem Dev.discardDoorbell_dbDiscCnt (n : Nat) (d : Dev) :
    (d.discardDoorbell r n).host.dbDiscCnt = satInc d.host.dbDiscCnt := by
  simp [Dev.discardDoorbell]

theorem Dev.discardDoorbell_stands (n : Nat) (d : Dev) : (d.discardDoorbell r n).stands Reg.HOST_EVENT 1 :=
  Dev.grows_irq 63 _ _ _ (Dev.event_stands 2 0 r n 0 _)

theorem Dev.keeps_discardDoorbell (n : Nat) (d : Dev) :
    Dev.Keeps [.events, .reports, .host] d (d.discardDoorbell r n) :=
  .andThen (.andThen ((Dev.keeps_onHost ⟨rfl, rfl, rfl, rfl⟩ ⟨rfl, rfl, rfl, rfl, rfl⟩).mono (by simp))
    (Dev.keeps_event ..) (by simp)) (Dev.keeps_irq ..) (by simp)

end

/-! ### The row -/

section
variable {off : BitVec 17} {be : BitVec 4} {v : W32} {s : State}

theorem doorbellWrite_partial (h : be.toNat ≠ 15 ∨ off.toNat % 0x1000 ≠ 0) :
    exec (.doorbellWrite off be v) s = .next (s.after (s.fresh.accessErr 2 off.toNat)) := exec_of_effect rfl (if_pos h)

variable {r : Nat} (hoff : off.toNat = 0x1000 * r) (hbe : be.toNat = 15)
include hoff hbe

theorem exec_doorbellWrite {d : Dev} (hd : s.fresh.doorbell (0x1000 * r) 15 v = d) :
    exec (.doorbellWrite off be v) s = .next (s.after d) := exec_of_effect rfl (by rw [hoff, hbe, hd])

theorem doorbellWrite_discarded
    (h : s.dev.ringEn r = false ∨ s.dev.ringSize r ≤ v.toNat ∨ s.dev.backwards r v.toNat = true) :
    Answers (.doorbellWrite off be v) s fun t =>
      t.dev.host.dbDiscCnt = satInc s.dev.host.dbDiscCnt ∧ (t.dev.ring r).cons = (s.dev.ring r).cons ∧
      (t.dev.ring r).doorbell = v ∧ (r ≠ s.dev.eventRing 2 → t.dev.ring r = { s.dev.ring r with doorbell := v }) ∧
      (∀ q, q ≠ r → q ≠ s.dev.eventRing 2 → t.dev.ring q = s.dev.ring q) ∧
      (∀ q, (t.dev.ring q).cons = (s.dev.ring q).cons) ∧ t.dev.stands Reg.HOST_EVENT 1 ∧
      ChangesOnly [.events, .reports, .host] s t := by
  have hd : s.fresh.doorbell (0x1000 * r) 15 v = (s.fresh.doorbellKept r v).discardDoorbell r v.toNat :=
    (Dev.doorbell_page rfl).trans (if_pos h)
  have hfills := Dev.discardDoorbell_fills (r := r) v.toNat (s.fresh.doorbellKept r v)
  have hself : (s.fresh.doorbellKept r v).ring r = { s.dev.ring r with doorbell := v } := Dev.doorbellKept_ring_self
  have hother (q : Nat) (hq : q ≠ r) : (s.fresh.doorbellKept r v).ring q = s.dev.ring q := Dev.doorbellKept_ring_of_ne hq
  have hcons (q : Nat) : ((s.fresh.doorbellKept r v).ring q).cons = (s.dev.ring q).cons := by
    by_cases hq : q = r
    · rw [hq, hself]
    · rw [hother q hq]
  refine ⟨_, exec_doorbellWrite hoff hbe hd, ?_⟩
  simp only [State.after_ring, State.after_host_dbDiscCnt, State.after_stands]
  refine ⟨Dev.discardDoorbell_dbDiscCnt .., (hfills.cons r).trans (hcons r), ?_, fun hq => ?_, fun q hq hev => ?_,
    fun q => (hfills.cons q).trans (hcons q), Dev.discardDoorbell_stands .., .of_after ?_⟩
  · rw [hfills.doorbell r, hself]
  · rw [hfills.others r hq, hself]
  · rw [hfills.others q hev, hother q hq]
  · exact ((Dev.keeps_setRing ..).mono (by simp)).andThen (Dev.keeps_discardDoorbell ..) (by simp)

/-- A ring whose doorbell moves an index: the other rings stay, and nothing is posted. -/
theorem doorbellWrite_moves {x : Ring} (hd : s.fresh.doorbell (0x1000 * r) 15 v = (s.fresh.doorbellKept r v).setRing r x) :
    Answers (.doorbellWrite off be v) s fun t => t.dev.ring r = x ∧ (∀ q, q ≠ r → t.dev.ring q = s.dev.ring q) ∧
      ChangesOnly [.reports] s t ∧ Quiet s t := by
  refine ⟨_, exec_doorbellWrite hoff hbe hd, ?_⟩
  simp only [State.after_ring]
  exact ⟨Dev.ring_setRing_self .., fun q hq => (Dev.ring_setRing_of_ne _ _ hq.symm).trans (Dev.doorbellKept_ring_of_ne hq),
    ((Dev.keeps_setRing ..).andThen (Dev.keeps_setRing ..) (by simp)).quietly rfl⟩

variable (hen : s.dev.ringEn r = true) (hlt : v.toNat < s.dev.ringSize r) (hback : s.dev.backwards r v.toNat = false)
include hen hlt hback

omit hoff hbe in
theorem State.doorbell_accepted : s.fresh.doorbell (0x1000 * r) 15 v =
    if hostFills r then (s.fresh.doorbellKept r v).setRing r { s.dev.ring r with doorbell := v, prod := v.toNat }
    else
      let e := (s.fresh.doorbellKept r v).setRing r { s.dev.ring r with doorbell := v, cons := v.toNat }
      Dev.readProgress e.readFuel e := by
  refine (Dev.doorbell_page rfl).trans (if_neg ?_)
  rintro (h | h | h)
  · exact Bool.false_ne_true (h.symm.trans hen)
  · exact Nat.not_le.mpr hlt h
  · exact Bool.false_ne_true (hback.symm.trans h)

theorem doorbellWrite_produces (hfill : hostFills r = true) : Answers (.doorbellWrite off be v) s fun t =>
    t.dev.ring r = { s.dev.ring r with prod := v.toNat, doorbell := v } ∧
    (∀ q, q ≠ r → t.dev.ring q = s.dev.ring q) ∧ ChangesOnly [.reports] s t ∧ Quiet s t :=
  doorbellWrite_moves hoff hbe ((State.doorbell_accepted hen hlt hback).trans (if_pos hfill))

theorem doorbellWrite_consumes (hfill : hostFills r = false) (hreads : s.dev.lrd.reads = []) :
    Answers (.doorbellWrite off be v) s fun t =>
      t.dev.ring r = { s.dev.ring r with cons := v.toNat, doorbell := v } ∧
      (∀ q, q ≠ r → t.dev.ring q = s.dev.ring q) ∧ ChangesOnly [.reports] s t ∧ Quiet s t := by
  have hnone (x : Ring) (n : Nat) : Dev.readProgress n ((s.fresh.doorbellKept r v).setRing r x) =
      (s.fresh.doorbellKept r v).setRing r x := Dev.readProgress_of_none (by exact hreads) n
  exact doorbellWrite_moves hoff hbe ((State.doorbell_accepted hen hlt hback).trans
    ((if_neg (ne_true_of_eq_false hfill)).trans (hnone _ _)))

end

end Sys2Proof.Machine
end

section
/-! PROOFS. COMMAND_FETCH (R429–R431, R443). -/

namespace Sys2Proof.Machine

open Host

/-! ### The descriptor is taken -/

/-- The entry of a command that ring `r` has fetched from its slot (R429). -/
def fetched (r slot : Nat) (desc : BitVec 256) : InFlight :=
  InFlight.mk r slot (bits desc.toNat 47 32) (bits desc.toNat 15 0) (bitAt desc.toNat 16) false false
    (desc &&& ~~~(BitVec.ofNat 256 (0xFF * 2 ^ 24)))

/-- The consumer index of ring `r` moves on, in its shadow too (R421). -/
def Dev.consumed (r : Nat) (d : Dev) : Dev :=
  let c := ((d.ring r).cons + 1) % d.ringSize r
  (d.setRing r { d.ring r with cons := c }).shadow r c

/-- The device once a descriptor has been taken: the watchdog is serviced, and the command is listed. -/
def Dev.listed (r : Nat) (desc : BitVec 256) (d : Dev) : Dev :=
  (d.consumed r).serviceWd.onHost fun h => { h with inflight := h.inflight ++ [fetched r (d.ring r).cons desc] }

section
variable {r : Nat} {desc : BitVec 256} {d : Dev}

theorem Dev.fetch_idle (h : d.fetchable r = false ∨ ∃ q < r, d.fetchable q = true) : d.fetch r desc = d := by
  refine if_pos (h.imp_right fun ⟨q, hq, hf⟩ => ?_)
  exact List.any_eq_true.mpr ⟨q, List.mem_range.mpr hq, hf⟩

theorem Dev.fetch_lists (h : d.fetchable r = true) (hlow : ∀ q < r, d.fetchable q = false) : d.fetch r desc =
    if knownOpcode (bits desc.toNat 15 0) then d.listed r desc else (d.listed r desc).badOpcodes := by
  have hgo : ¬ (d.fetchable r = false ∨ (upto r).any (fun q => d.fetchable q) = true) := by
    simpa [h, upto] using hlow
  exact if_neg hgo

theorem Dev.consumed_host : ∃ out, (d.consumed r).host = { d.host with
    rings := d.host.rings.set Ring.reset r { d.ring r with cons := ((d.ring r).cons + 1) % d.ringSize r }, out := out } := by
  unfold Dev.consumed
  dsimp only
  rw [Dev.shadow_eq]
  split <;> exact ⟨_, rfl⟩

theorem Dev.keeps_serviceWd (d : Dev) : Dev.Keeps [.prof, .host] d d.serviceWd :=
  have hwd : Dev.Keeps [.host] d (d.onHost fun h => { h with wdStart := d.now, wdExpired := false }) :=
    Dev.keeps_onHost ⟨rfl, rfl, rfl, rfl⟩ ⟨rfl, rfl, rfl, rfl, rfl⟩
  .foldl (fun _ _ => (Dev.keeps_onProf ..).mono (by simp)) _ (hwd.mono (by simp))

theorem Dev.keeps_listed : Dev.Keeps [.prof, .reports, .commands, .host] d (d.listed r desc) := by
  have htaken : Dev.Keeps [.reports] d (d.consumed r) :=
    (Dev.keeps_setRing ..).andThen (Dev.keeps_shadow ..) (by simp)
  have hserved : Dev.Keeps [.prof, .reports, .commands, .host] d (d.consumed r).serviceWd :=
    (htaken.mono (by simp)).andThen (Dev.keeps_serviceWd _) (by simp)
  refine hserved.andThen (qs := [.commands]) ⟨fun p hp => ?_⟩ (by simp)
  cases p
  case commands => simp at hp
  case reports => exact ⟨rfl, rfl, rfl, rfl⟩
  all_goals rfl

/-- What a fetch leaves in the host interface. -/
theorem Dev.listed_host : (d.listed r desc).host.inflight = d.host.inflight ++ [fetched r (d.ring r).cons desc] ∧
    ((d.listed r desc).ring r).cons = ((d.ring r).cons + 1) % d.ringSize r ∧
    (d.listed r desc).host.wdStart = d.now ∧ (d.listed r desc).host.wdExpired = false ∧
    (d.listed r desc).host.cmdCnt = d.host.cmdCnt ∧ (d.listed r desc).host.cmdErrCnt = d.host.cmdErrCnt := by
  obtain ⟨out, hout⟩ := d.consumed_host (r := r)
  have hnow : (d.consumed r).now = d.now := congrArg AngState.tick (Dev.shadow_ang ..)
  have hhost : (d.listed r desc).host = { (d.consumed r).host with
      wdStart := d.now, wdExpired := false, inflight := (d.consumed r).host.inflight ++ [fetched r (d.ring r).cons desc] } := by
    rw [← hnow]
    rfl
  have hring : (d.listed r desc).ring r = { d.ring r with cons := ((d.ring r).cons + 1) % d.ringSize r } := by
    rw [Dev.ring, hhost, hout]
    exact SMap.get_set_self ..
  rw [hring, hhost, hout]
  exact ⟨rfl, rfl, rfl, rfl, rfl, rfl⟩

end

/-! ### Unknown opcodes (R430, R431) -/

section
variable {f : InFlight} {d : Dev}

/-- The commands that were fetched before an entry which differs from all of them. -/
theorem takeWhile_before {l : List InFlight} (h : ∀ g ∈ l, g ≠ f) :
    (l ++ [f]).takeWhile (fun g => decide (g ≠ f)) = l := by
  rw [List.takeWhile_append_of_pos (by simpa using h)]
  simp

/-- Nothing is waited for where no command was fetched before. -/
theorem Dev.behind_nil : d.behind [] f = false := by simp [Dev.behind]

/-- With ORDERED, an earlier command of the ring is waited for. -/
theorem Dev.behind_ordered {before : List InFlight} (ho : f.ordered = true) (h : ∃ g ∈ before, g.ring = f.ring) :
    d.behind before f = true := by
  obtain ⟨g, hg, hr⟩ := h
  have hne : (before.filter fun g => decide (g.ring = f.ring)).isEmpty = false :=
    List.isEmpty_eq_false_iff_exists_mem.mpr ⟨g, by simp [hg, hr]⟩
  simp only [Dev.behind, ho, hne, Bool.true_or, Bool.not_false, Bool.and_true]

/-- An unknown opcode behind known ones, and ordered after one of its ring, waits. -/
theorem Dev.badOpcodes_waits {l : List InFlight} (hl : d.host.inflight = l ++ [f]) (hf : knownOpcode f.opcode = false)
    (hknown : ∀ g ∈ l, knownOpcode g.opcode = true) (ho : f.ordered = true) (h : ∃ g ∈ l, g.ring = f.ring) :
    d.badOpcodes = d := by
  have hne : ∀ g ∈ l, g ≠ f := fun g hg hgf => by simp [hgf ▸ hknown g hg] at hf
  unfold Dev.badOpcodes
  refine List.foldlRecOn (motive := fun e => e = d) _ _ rfl fun e he g hg => ?_
  subst he
  refine if_pos ?_
  rw [hl] at hg ⊢
  rcases List.mem_append.mp hg with hg | hg
  · simp [hknown g hg]
  · rw [List.mem_singleton.mp hg, takeWhile_before hne, Dev.behind_ordered ho h, Bool.or_true]

/-- An unknown opcode that is alone completes at once. -/
theorem Dev.badOpcodes_alone (hl : d.host.inflight = [f]) (hf : knownOpcode f.opcode = false) :
    d.badOpcodes = d.completeAs f.ring f.slot f.tag f.opcode stBadOpcode 0 [] := by
  have hfirst : d.host.inflight.takeWhile (fun g => decide (g ≠ f)) = [] := by simp [hl]
  unfold Dev.badOpcodes
  simp only [hl, List.foldl_cons, List.foldl_nil] at hfirst ⊢
  rw [hfirst, Dev.behind_nil, hf]
  exact if_neg (by decide)

end

/-! ### A completion (R424) -/

/-- Reporting keeps the commands in progress with their counts, and the rings that the host gives commands in. -/
structure Dev.KeepsCommands (a d : Dev) : Prop where
  inflight : d.host.inflight = a.host.inflight
  cmdCnt : d.host.cmdCnt = a.host.cmdCnt
  cmdErrCnt : d.host.cmdErrCnt = a.host.cmdErrCnt
  ring : ∀ q < 4, d.ring q = a.ring q

namespace Dev.KeepsCommands

variable {a d e : Dev}

theorem refl : d.KeepsCommands d := ⟨rfl, rfl, rfl, fun _ _ => rfl⟩

theorem trans (h : a.KeepsCommands d) (h' : d.KeepsCommands e) : a.KeepsCommands e :=
  ⟨h'.inflight.trans h.inflight, h'.cmdCnt.trans h.cmdCnt, h'.cmdErrCnt.trans h.cmdErrCnt,
    fun q hq => (h'.ring q hq).trans (h.ring q hq)⟩

theorem ite {c : Prop} [Decidable c] (hd : a.KeepsCommands d) (he : a.KeepsCommands e) :
    a.KeepsCommands (if c then d else e) := by split <;> assumption

/-- A report that fills one ring of the device's own. -/
theorem of_fills {r : Nat} (hr : 4 ≤ r) (h : Dev.Fills r a d) (ht : Dev.Touches [.events, .reports] a d) :
    a.KeepsCommands d := by
  obtain ⟨hin, hcnt, herr, -, -⟩ : Part.commands.same a d := ht.same .commands (by decide)
  exact ⟨hin.symm, hcnt.symm, herr.symm, fun q hq => h.others q (by omega)⟩

end Dev.KeepsCommands

section
variable (d : Dev)

theorem Dev.keepsCommands_irq (n : Nat) : d.KeepsCommands (d.irq n) :=
  .of_fills (r := 4) (le_refl 4) (Dev.fills_irq n d) (d.touches_irq n)

theorem Dev.keepsCommands_event (blk bit d0 d1 d2 : Nat) : d.KeepsCommands (d.event blk bit d0 d1 d2) :=
  .of_fills (Nat.le_trans (by decide) (d.sixteen_le_eventRing blk)) (Dev.fills_event ..) (d.touches_event ..)

theorem Dev.keepsCommands_putDesc {r : Nat} (hr : 4 ≤ r) (src : Nat) (bs : List Byte) :
    d.KeepsCommands (d.putDesc r src bs) := .of_fills hr (Dev.fills_putDesc ..) (d.touches_putDesc ..)

/-- The command leaves the list, and is counted. -/
def Dev.commandEnded (ring slot tag status : Nat) (d : Dev) : Dev := d.onHost fun h => { h with
  inflight := h.inflight.eraseP (inFlightOf ring slot tag), cmdCnt := satInc h.cmdCnt
  cmdErrCnt := if decide (status = 1 ∨ status = 2 ∨ status = 5 ∨ status = 7) then satInc h.cmdErrCnt else h.cmdErrCnt }

/-- Beyond that a completion is a report, and perhaps one more completion that is lost. -/
theorem Dev.keepsCommands_completeAs (ring slot tag op status bytes : Nat) (res : List Nat) :
    (d.commandEnded ring slot tag status).KeepsCommands (d.completeAs ring slot tag op status bytes res) := by
  unfold Dev.completeAs
  extract_lets err own lost dropped _ d1 _ d2
  change d1.KeepsCommands _
  have hsaid : d1.KeepsCommands d2 := by
    clear_value d1
    unfold d2
    split
    · exact .refl
    · split
      · exact .trans (d := { d1 with host := { d1.host with cplLostCnt := satInc d1.host.cplLostCnt } })
          ⟨rfl, rfl, rfl, fun _ _ => rfl⟩ (Dev.keepsCommands_event ..)
      · exact d1.keepsCommands_putDesc (Nat.le_add_right 4 ring) _ _
  clear_value d2
  exact .ite (hsaid.trans (d2.keepsCommands_irq 63)) hsaid

end

/-! ### The row -/

section
variable {r : Fin 4} {desc : BitVec 256} {s : State}

theorem commandFetch_idle (h : s.dev.fetchable r.val = false ∨ ∃ q < r.val, s.dev.fetchable q = true) :
    exec (.commandFetch r desc) s = .next (s.after s.fresh) := exec_of_effect rfl (Dev.fetch_idle (d := s.fresh) h)

variable (h : s.dev.fetchable r.val = true) (hlow : ∀ q < r.val, s.dev.fetchable q = false)
include h hlow

/-- A command that may not complete yet is listed, and no more. -/
theorem exec_commandFetch_listed (hw : knownOpcode (bits desc.toNat 15 0) = true ∨
    (s.fresh.listed r.val desc).badOpcodes = s.fresh.listed r.val desc) :
    exec (.commandFetch r desc) s = .next (s.after (s.fresh.listed r.val desc)) := by
  refine exec_of_effect rfl ((Dev.fetch_lists (d := s.fresh) h hlow).trans ?_)
  split
  · rfl
  · exact hw.resolve_left ‹_›

theorem commandFetch_known (hk : knownOpcode (bits desc.toNat 15 0) = true) : Answers (.commandFetch r desc) s fun t =>
    (t.dev.ring r.val).cons = ((s.dev.ring r.val).cons + 1) % s.dev.ringSize r.val ∧
    t.dev.host.inflight = s.dev.host.inflight ++ [fetched r.val (s.dev.ring r.val).cons desc] ∧
    t.dev.host.wdStart = s.dev.now ∧ t.dev.host.wdExpired = false ∧
    ChangesOnly [.prof, .reports, .commands, .host] s t := by
  obtain ⟨hin, hcons, hstart, hexp, -, -⟩ := s.fresh.listed_host (r := r.val) (desc := desc)
  exact ⟨_, exec_commandFetch_listed h hlow (.inl hk), hcons, hin, hstart, hexp, .of_after Dev.keeps_listed⟩

theorem commandFetch_waits (hk : knownOpcode (bits desc.toNat 15 0) = false) (ho : bitAt desc.toNat 16 = true)
    (hknown : ∀ f ∈ s.dev.host.inflight, knownOpcode f.opcode = true)
    (hring : ∃ f ∈ s.dev.host.inflight, f.ring = r.val) : Answers (.commandFetch r desc) s fun t =>
      (t.dev.ring r.val).cons = ((s.dev.ring r.val).cons + 1) % s.dev.ringSize r.val ∧
      t.dev.host.inflight = s.dev.host.inflight ++ [fetched r.val (s.dev.ring r.val).cons desc] ∧
      t.dev.host.cmdCnt = s.dev.host.cmdCnt ∧ ChangesOnly [.prof, .reports, .commands, .host] s t := by
  obtain ⟨hin, hcons, -, -, hcnt, -⟩ := s.fresh.listed_host (r := r.val) (desc := desc)
  have hwait := Dev.badOpcodes_waits hin hk hknown ho hring
  exact ⟨_, exec_commandFetch_listed h hlow (.inr hwait), hcons, hin, hcnt, .of_after Dev.keeps_listed⟩

theorem commandFetch_completes (hk : knownOpcode (bits desc.toNat 15 0) = false) (hnone : s.dev.host.inflight = []) :
    Answers (.commandFetch r desc) s fun t =>
      t.dev.host.inflight = [] ∧ (t.dev.ring r.val).cons = ((s.dev.ring r.val).cons + 1) % s.dev.ringSize r.val ∧
      t.dev.host.cmdErrCnt = satInc s.dev.host.cmdErrCnt ∧ t.dev.host.cmdCnt = satInc s.dev.host.cmdCnt ∧
      ChangesOnly [.prof, .events, .reports, .commands, .host] s t := by
  obtain ⟨hin, hcons, -, -, hcnt, herr⟩ := s.fresh.listed_host (r := r.val) (desc := desc)
  have hone : (s.fresh.listed r.val desc).host.inflight = [fetched r.val (s.dev.ring r.val).cons desc] := by
    rw [hin, show s.fresh.host.inflight = [] from hnone]
    rfl
  have hbad := Dev.badOpcodes_alone hone hk
  have hd : s.fresh.fetch r.val desc = (s.fresh.listed r.val desc).badOpcodes :=
    (Dev.fetch_lists (d := s.fresh) h hlow).trans (if_neg (ne_true_of_eq_false hk))
  refine ⟨_, exec_of_effect rfl (hd.trans hbad), ?_⟩
  generalize fetched r.val (s.dev.ring r.val).cons desc = f at hone ⊢
  have hkept := (s.fresh.listed r.val desc).keepsCommands_completeAs f.ring f.slot f.tag f.opcode stBadOpcode 0 []
  simp only [State.after_ring, State.after_host_inflight, State.after_host_cmdErrCnt, State.after_host_cmdCnt]
  refine ⟨hkept.inflight.trans ?_, (congrArg Ring.cons (hkept.ring r.val r.isLt)).trans hcons,
    hkept.cmdErrCnt.trans (congrArg satInc herr), hkept.cmdCnt.trans (congrArg satInc hcnt), .of_after ?_⟩
  · change List.eraseP _ (s.fresh.listed r.val desc).host.inflight = []
    simp [hone, inFlightOf]
  · exact (Dev.keeps_listed.mono (by simp)).andThen (Dev.keeps_completeAs ..) (by simp)

end

end Sys2Proof.Machine
end

section
/-! PROOFS. EVENT_RING_DRAIN (R440). -/

namespace Sys2Proof.Machine

open Host

section
variable {r : Fin 4} {s : State}

theorem exec_eventRingDrain {d : Dev} (hd : s.fresh.eventDrain r.val = d) :
    exec (.eventRingDrain r) s = .next (s.after d) := exec_of_effect rfl hd

/-- A quarter of a ring is room for one descriptor. -/
theorem Dev.ringRoom_ne_zero_of_quarter {d : Dev} {q : Nat} (h : d.ringQuarter q = true) : d.ringRoom q ≠ 0 := by
  have hsize : 0 < d.ringSize q := Nat.two_pow_pos _
  obtain ⟨-, hle⟩ := of_decide_eq_true h
  omega

theorem eventRingDrain_full (h : s.dev.ringQuarter (16 + r.val) = false) :
    exec (.eventRingDrain r) s = .next (s.after s.fresh) := exec_eventRingDrain (if_neg (ne_true_of_eq_false h))

theorem eventRingDrain_none
    (h : (s.dev.host.coal.cells.filter fun c => decide (s.dev.eventRing (c.1 / 32) = 16 + r.val)) = []) :
    exec (.eventRingDrain r) s = .next (s.after s.fresh) := by
  refine exec_eventRingDrain ?_
  unfold Dev.eventDrain
  split
  · exact congrArg (fun l => s.fresh.drainCoal r.val l) h
  · rfl

theorem eventRingDrain_one {key : Nat} {k : Coal} (hq : s.dev.ringQuarter (16 + r.val) = true)
    (h : (s.dev.host.coal.cells.filter fun c => decide (s.dev.eventRing (c.1 / 32) = 16 + r.val)) = [(key, k)]) :
    exec (.eventRingDrain r) s = .next (s.after
      ((s.fresh.onHost fun h => { h with coal := h.coal.set Coal.reset key Coal.reset }).putDesc (16 + r.val)
        (12 + r.val) (eventDesc (key / 32) (key % 32) k true))) := by
  have hlist : s.fresh.eventDrain r.val = s.fresh.drainCoal r.val [(key, k)] :=
    (if_pos hq).trans (congrArg (fun l => s.fresh.drainCoal r.val l) h)
  exact exec_eventRingDrain (hlist.trans (if_neg (Dev.ringRoom_ne_zero_of_quarter (d := s.fresh) hq)))

end

end Sys2Proof.Machine
end

section
/-! PROOFS. HOST_WD_EXPIRE (R22, R100, R443). -/

namespace Sys2Proof.Machine

open Host

section
variable {d : Dev}

/-! ### The action -/

/-- Which channels the device drives is a matter of its mode and its drives. -/
theorem Dev.deviceDrives_congr {a : Dev} (hg : d.gfm = a.gfm) (ha : d.aux = a.aux) (c : Nat) :
    d.deviceDrives c = a.deviceDrives c := by simp only [Dev.deviceDrives, hg, ha]

/-- HOLD_P on one channel. -/
def Dev.holdChannel (d : Dev) (c : Nat) : Dev :=
  if d.deviceDrives c then d else (d.queueOp (.stop c true)).setPrf c { d.prf c with held := true }

theorem Dev.holdPower_eq : d.holdPower = (d.holdChannel 0).holdChannel 1 := rfl

theorem Dev.touches_holdChannel (c : Nat) : Dev.Touches [.prof] d (d.holdChannel c) :=
  .mono (.ite .refl ((d.touches_queueOp _).andThen (Dev.touches_setPrf ..))) (by decide)

theorem Dev.holdChannel_held {c : Nat} (h : d.deviceDrives c = false) : ((d.holdChannel c).prf c).held = true := by
  rw [Dev.holdChannel, if_neg (ne_true_of_eq_false h), Dev.prf_setPrf_self]

theorem Dev.holdChannel_prf_of_ne {c k : Nat} (h : c ≠ k) : (d.holdChannel c).prf k = d.prf k := by
  unfold Dev.holdChannel
  split
  · rfl
  · exact Dev.prf_setPrf_of_ne _ _ h

/-- Channels 0 and 1 are held, but for one that the device drives (R100). -/
theorem Dev.holdPower_held {c : Nat} (hc : c < 2) (h : d.deviceDrives c = false) : (d.holdPower.prf c).held = true := by
  rw [Dev.holdPower_eq]
  obtain rfl | rfl : c = 0 ∨ c = 1 := by omega
  · rw [Dev.holdChannel_prf_of_ne (by decide), Dev.holdChannel_held h]
  · have hkept := d.touches_holdChannel 0
    have hsame : (d.holdChannel 0).deviceDrives 1 = d.deviceDrives 1 :=
      Dev.deviceDrives_congr (hkept.same .gfm (by decide)).symm (hkept.same .aux (by decide)).symm 1
    exact Dev.holdChannel_held (hsame.trans h)

theorem Dev.touches_wdAction (action : Nat) : Dev.Touches [.prof, .gfm] d (d.wdAction action) := by
  have hstop : Dev.Touches [.prof, .gfm] d (if d.controls then d.autoMode .stopping 12 (d.flag Reg.HOST_WD 30) else d) :=
    .mono (.ite (Dev.touches_autoMode ..) .refl) (by decide)
  have hnone : Dev.Touches [.prof, .gfm] d d := .mono .refl (by decide)
  unfold Dev.wdAction
  split
  · rw [Dev.holdPower_eq]
    exact .mono ((Dev.touches_holdChannel 0).andThen (Dev.touches_holdChannel 1)) (by decide)
  · split
    · exact hstop
    · exact hstop
    · exact hstop
    · exact hnone
  · exact hnone

/-- The STOP action outranks every transition that waits (R22). -/
theorem Dev.wdAction_stops (hm : d.gfm.mode = .forming) (hc : d.controls = true) : (d.wdAction 2).gfm.auto =
    some (ModeReq.mk .stopping (d.flag Reg.HOST_WD 30) false 12 d.now) := by
  simp [Dev.wdAction, hm, hc, Dev.autoMode]

/-! ### The expiry -/

/-- The expiry is noted, so that it comes once. -/
def Dev.wdNoted (d : Dev) : Dev := d.onHost fun h => { h with wdExpired := true }

/-- It is reported, and its interrupt fires. -/
def Dev.wdReported (d : Dev) : Dev :=
  (d.wdNoted.event 2 2 (d.fld Reg.HOST_WD 29 28) (d.fld Reg.HOST_WD 15 0) 0).irq 54

theorem Dev.touches_wdReported : Dev.Touches [.events, .reports] d.wdNoted d.wdReported :=
  .mono ((Dev.touches_event ..).andThen (Dev.touches_irq ..)) (by decide)

theorem Dev.wdReported_flag (d : Dev) (off n : Nat) : d.wdReported.flag off n = d.flag off n :=
  (Dev.irq_flag ..).trans (Dev.event_flag ..)

theorem Dev.wdReported_now (d : Dev) : d.wdReported.now = d.now := (Dev.irq_now ..).trans (Dev.event_now ..)

theorem Dev.wdReported_controls (d : Dev) : d.wdReported.controls = d.controls := by
  have htwn : d.wdReported.twn = d.twn := (Dev.irq_twn ..).trans (Dev.event_twn ..)
  rw [Dev.controls, htwn, Dev.controls]

theorem Dev.wdExpire_idle (h : d.flag Reg.HOST_WD 31 = false ∨ d.host.wdExpired = true ∨
    d.now < d.host.wdStart + d.fld Reg.HOST_WD 15 0 * msTicks) : d.wdExpire = d :=
  if_pos (h.imp_left (by simp [·]))

theorem Dev.wdExpire_acts (hen : d.flag Reg.HOST_WD 31 = true) (hexp : d.host.wdExpired = false)
    (ht : d.host.wdStart + d.fld Reg.HOST_WD 15 0 * msTicks ≤ d.now) : d.wdExpire =
      if d.twn.st = .standby then d.wdNoted.irq 54 else d.wdReported.wdAction (d.fld Reg.HOST_WD 29 28) :=
  if_neg (by simp [hen, hexp, ht])

/-- What an expiry leaves of the device, whatever its action. -/
theorem Dev.wdExpire_leaves (hen : d.flag Reg.HOST_WD 31 = true) (hexp : d.host.wdExpired = false)
    (ht : d.host.wdStart + d.fld Reg.HOST_WD 15 0 * msTicks ≤ d.now) : d.wdExpire.host.wdExpired = true ∧
      d.wdExpire.stands Reg.HOST_IRQ_STAT_H 0x400000 ∧
      Dev.Keeps [.prof, .gfm, .events, .reports, .host] d d.wdExpire := by
  have hnoted : Dev.Keeps [.host] d d.wdNoted := Dev.keeps_onHost ⟨rfl, rfl, rfl, rfl⟩ ⟨rfl, rfl, rfl, rfl, rfl⟩
  have hirq (e : Dev) : (e.irq 54).stands Reg.HOST_IRQ_STAT_H 0x400000 := Dev.irq_stands 54 e
  have hwork : Dev.Touches [.prof, .gfm, .events, .reports] d.wdNoted d.wdExpire ∧
      d.wdExpire.stands Reg.HOST_IRQ_STAT_H 0x400000 := by
    rw [Dev.wdExpire_acts hen hexp ht]
    split
    · exact ⟨(Dev.touches_irq ..).mono (by simp), hirq _⟩
    · have hact := Dev.touches_wdAction (d := d.wdReported) (d.fld Reg.HOST_WD 29 28)
      exact ⟨(Dev.touches_wdReported.andThen hact).mono (by simp), hact.grows _ _ (hirq _)⟩
  obtain ⟨htouch, hstands⟩ := hwork
  have hhost : hostCore d.wdNoted.host = hostCore d.wdExpire.host := htouch.same .host (by decide)
  exact ⟨(congrArg HostState.wdExpired hhost).symm, hstands,
    (hnoted.mono (by simp)).andThen htouch.keeps (by simp)⟩

end

/-! ### The row -/

section
variable {s : State}

theorem hostWdExpire_idle (h : s.dev.flag Reg.HOST_WD 31 = false ∨ s.dev.host.wdExpired = true ∨
    s.dev.now < s.dev.host.wdStart + s.dev.fld Reg.HOST_WD 15 0 * msTicks) :
    exec .hostWdExpire s = .next (s.after s.fresh) := exec_of_effect rfl (Dev.wdExpire_idle (d := s.fresh) h)

theorem hostWdExpire_acts (hen : s.dev.flag Reg.HOST_WD 31 = true) (hexp : s.dev.host.wdExpired = false)
    (ht : s.dev.host.wdStart + s.dev.fld Reg.HOST_WD 15 0 * msTicks ≤ s.dev.now) : Answers .hostWdExpire s fun t =>
      t.dev.host.wdExpired = true ∧ t.dev.stands Reg.HOST_IRQ_STAT_H 0x400000 ∧
      (s.dev.twn.st ≠ .standby → t.dev.stands Reg.HOST_EVENT 4) ∧
      (s.dev.twn.st ≠ .standby → s.dev.fld Reg.HOST_WD 29 28 = 1 → ∀ c < 2, s.dev.deviceDrives c = false →
        (t.dev.prf c).held = true) ∧
      (s.dev.twn.st ≠ .standby → s.dev.fld Reg.HOST_WD 29 28 = 2 → s.dev.gfm.mode = .forming → s.dev.controls = true →
        t.dev.gfm.auto = some (ModeReq.mk .stopping (s.dev.flag Reg.HOST_WD 30) false 12 s.dev.now)) ∧
      ChangesOnly [.prof, .gfm, .events, .reports, .host] s t := by
  obtain ⟨hnoted, hirq, hkeeps⟩ := Dev.wdExpire_leaves (d := s.fresh) hen hexp ht
  have hrep : Dev.Touches [.events, .reports] s.fresh.wdNoted s.fresh.wdReported := Dev.touches_wdReported
  have hacts (hst : s.dev.twn.st ≠ .standby) :
      s.fresh.wdExpire = s.fresh.wdReported.wdAction (s.dev.fld Reg.HOST_WD 29 28) :=
    (Dev.wdExpire_acts (d := s.fresh) hen hexp ht).trans (if_neg hst)
  refine ⟨_, exec_of_effect rfl rfl, ?_⟩
  simp only [State.after_host_wdExpired, State.after_stands, State.after_prf, State.after_gfm]
  refine ⟨hnoted, hirq, fun hst => ?_, fun hst h1 c hc hdrives => ?_, fun hst h2 hmode hctl => ?_, .of_after hkeeps⟩
  · rw [hacts hst]
    exact (Dev.touches_wdAction _).grows _ _ (Dev.grows_irq 54 _ _ _ (Dev.event_stands 2 2 _ _ 0 _))
  · rw [hacts hst, h1]
    exact Dev.holdPower_held hc ((Dev.deviceDrives_congr (hrep.same .gfm (by decide)).symm
      (hrep.same .aux (by decide)).symm c).trans hdrives)
  · have hgfm : s.fresh.wdReported.gfm = s.dev.gfm := (hrep.same .gfm (by decide)).symm
    rw [hacts hst, h2, Dev.wdAction_stops (hgfm ▸ hmode) (s.fresh.wdReported_controls.trans hctl),
      Dev.wdReported_flag, Dev.wdReported_now]
    rfl

end

end Sys2Proof.Machine
end

section
/-! PROOFS. The rows of rings, doorbells, the fetch and the watchdog together. -/

namespace Sys2Proof.Machine

/-- Settles O46: each row by its theorems above. -/
theorem ringRowsTakeEffect : Obligations.RingRowsTakeEffect := by
  refine ⟨fun r v s => ⟨ringEnable_idle, ringDisable_idle, fun hv hsize => ?_, ringEnable_enables, ringDisable_disables⟩,
    fun off be v s => ⟨doorbellWrite_partial, fun r _ hoff hbe => ⟨doorbellWrite_discarded hoff hbe, fun hen hlt hback =>
      ⟨doorbellWrite_produces hoff hbe hen hlt hback, doorbellWrite_consumes hoff hbe hen hlt hback⟩⟩⟩,
    fun r desc s => ⟨fun h => commandFetch_idle (.inl h), fun q hq h => commandFetch_idle (.inr ⟨q, hq, h⟩),
      fun h hlow => ⟨commandFetch_known h hlow, fun hk ho hknown hring => ?_, commandFetch_completes h hlow⟩⟩,
    fun r s => ⟨eventRingDrain_full, fun _ _ => eventRingDrain_one, eventRingDrain_none⟩,
    fun s => hostWdExpire_idle, fun s => hostWdExpire_acts⟩
  · exact exec_ringEnable hv (Dev.writeRingCfg_badSize (d := s.fresh) hsize)
  · have hw := commandFetch_waits h hlow hk ho hknown hring
    rwa [fetched, ho] at hw

end Sys2Proof.Machine
end

section
/-! PROOFS. The configuration commands and TELEMETRY_SUBSCRIBE (R132–R139, R433–R436): what each answers, by its own
checks. -/

namespace Sys2Proof.Machine

open Host

section
variable {c : Cmd} {d : Dev}

/-- A command whose buffer cannot be read hands the error to AER (R409, R431). -/
theorem Dev.withBuffer_fails (op : Nat) (body : Dev → Dev) (h : c.bufErr = true) :
    d.withBuffer op c body = d.aerError.complete c op stBadParam := if_pos h

/-! ### CONFIG_STAGE (R433) -/

theorem Dev.configStage_badLength (h : c.len.toNat = 0 ∨ c.len.toNat % 8 ≠ 0 ∨ 32768 < c.len.toNat) :
    d.configStage c = d.complete c 0x11 stBadParam := if_pos h

section
variable (h0 : c.len.toNat ≠ 0) (h8 : c.len.toNat % 8 = 0) (hmax : c.len.toNat ≤ 32768)
include h0 h8 hmax

/-- A buffer of whole entries. -/
theorem Dev.configStage_whole : ¬ (c.len.toNat = 0 ∨ c.len.toNat % 8 ≠ 0 ∨ 32768 < c.len.toNat) := by omega

theorem Dev.configStage_busy (hb : d.stagingBusy = true) : d.configStage c = d.complete c 0x11 stBusy :=
  (if_neg (Dev.configStage_whole h0 h8 hmax)).trans (if_pos hb)

variable (hb : d.stagingBusy = false)
include hb

theorem Dev.configStage_unread (he : c.bufErr = true) : d.configStage c = d.aerError.complete c 0x11 stBadParam :=
  (if_neg (Dev.configStage_whole h0 h8 hmax)).trans ((if_neg (by simp [hb])).trans (Dev.withBuffer_fails _ _ he))

/-- The entries are staged together, or none of them is. -/
theorem Dev.configStage_read (he : c.bufErr = false) : d.configStage c =
    if stageOk (stageEntries (c.len.toNat / 8) c.data) then
      (d.stageAll (stageEntries (c.len.toNat / 8) c.data)).completeRes c 0x11 stOk c.len.toNat []
    else d.completeRes c 0x11 stBadParam c.len.toNat [] :=
  (if_neg (Dev.configStage_whole h0 h8 hmax)).trans ((if_neg (by simp [hb])).trans (Dev.withBuffer_read _ _ he))

end

/-- An entry of a staged register is staged as a write of it (R49, R433). -/
theorem Dev.stageAll_one {off v : Nat} {r : RegRow} (hr : regRow off = some r) (hs : r.staged = true) :
    d.stageAll [(off, v)] = d.stage off (BitVec.ofNat 32 v &&& BitVec.ofNat 32 r.rw) := Dev.storeReg_staged _ _ hr hs

/-! ### TABLE_LOAD (R138) -/

theorem Dev.tableStore_bank {a0 : Nat} (h : bits a0 7 0 = 1) (a1 : Nat) (bs : List Byte) : d.tableStore a0 a1 bs =
    (d.onLoop fun l => { l with
      bankStaged := l.bankStaged.set [] (16 * bits a0 15 8 + bits a0 23 16) (coefs (bs.length / 20) bs) }, stOk) := by
  simp only [Dev.tableStore, h]

theorem Dev.tableStore_compensation {a0 : Nat} (h : bits a0 7 0 = 2) (a1 : Nat) (bs : List Byte) :
    d.tableStore a0 a1 bs = (d.onLoop fun l => { l with
      tabStaged := l.tabStaged.set [] (bits a0 15 8) (halves 1024 bs) }, stOk) := by
  simp only [Dev.tableStore, h]

theorem Dev.tableLoad_badParam (h : d.tableShape (c.word 20) (c.word 24) c.len.toNat = false ∨ c.word 28 ≠ 0) :
    d.tableLoad c = d.complete c 0x10 stBadParam := if_pos (h.imp_left (by simp [·]))

section
variable (hs : d.tableShape (c.word 20) (c.word 24) c.len.toNat = true) (h28 : c.word 28 = 0)
include hs h28

theorem Dev.tableLoad_busy (hb : d.stagingBusy = true) : d.tableLoad c = d.complete c 0x10 stBusy :=
  (if_neg (by simp [hs, h28])).trans (if_pos hb)

variable (hb : d.stagingBusy = false) (he : c.bufErr = false)
include hb he

/-- What the store answers is the command's answer. -/
theorem Dev.tableLoad_stores {e : Dev} {status : Nat} (hst : d.tableStore (c.word 20) (c.word 24) c.data = (e, status)) :
    d.tableLoad c = e.completeRes c 0x10 status c.len.toNat [] := by
  refine ((if_neg (by simp [hs, h28])).trans ((if_neg (by simp [hb])).trans (Dev.withBuffer_read _ _ he))).trans ?_
  rw [hst]

end

/-! ### CONFIG_COMMIT (R132, R139, R435) -/

theorem Dev.commit_of_blocked (ha : d.admission.1 = 0) (hb : d.blockRefuses = true) :
    d.commit = (d.runAdmission, stRejected) := (if_neg (not_not.mpr ha)).trans (if_pos hb)

theorem Dev.configCommit_busy (hb : d.stagingBusy = true) : d.configCommit c = d.complete c 0x12 stBusy := if_pos hb

section
variable (hb : d.stagingBusy = false)
include hb

theorem Dev.configCommit_dryRun (hdry : bitAt (c.byte 20) 0 = true) : d.configCommit c =
    d.runAdmission.completeRes c 0x12 (if d.admission.1 = 0 then stOk else stAdmission) 0
      (d.runAdmission.commitResult d.stagedDigest) := (if_neg (by simp [hb])).trans (if_pos hdry)

theorem Dev.configCommit_commits {e : Dev} {status : Nat} (hdry : bitAt (c.byte 20) 0 = false)
    (he : d.commit = (e, status)) :
    d.configCommit c = e.completeRes c 0x12 status 0 (e.commitResult e.sec.digest) := by
  refine ((if_neg (by simp [hb])).trans (if_neg (by simp [hdry]))).trans ?_
  rw [he]

end

/-- Admission leaves its result and changes nothing else. -/
theorem Dev.keeps_runAdmission (d : Dev) : Dev.Keeps [.loop] d d.runAdmission := by
  unfold Dev.runAdmission
  exact Dev.keeps_onLoop ..

/-! ### CONFIG_READBACK (R434) -/

section
variable {n : Nat} (hwhat : c.byte 20 ≤ 1) (hoff : c.word 24 % 4 = 0) (hlen : c.len.toNat = 4 * n)
  (hmax : 4 * n ≤ 65536) (hend : c.word 24 < 0x100000)
  (hwin : n ≠ 0 → c.word 24 / 0x10000 = (c.word 24 + 4 * (n - 1)) / 0x10000)
include hwhat hoff hlen hmax hend hwin

/-- A range of whole words within one window. -/
theorem Dev.configReadback_range : ¬ (1 < c.byte 20 ∨ c.word 24 % 4 ≠ 0 ∨ 0x100000 ≤ c.word 24 ∨ c.len.toNat % 4 ≠ 0 ∨
    65536 < c.len.toNat ∨ (c.len.toNat ≠ 0 ∧ c.word 24 / 0x10000 ≠ (c.word 24 + c.len.toNat - 4) / 0x10000)) := by
  rw [hlen]
  omega

theorem Dev.configReadback_posts : d.configReadback c = (d.post c.addr.toNat ((upto n).flatMap fun i =>
    leBytes 4 (if c.byte 20 = 1 then d.regActive (c.word 24 + 4 * i) else d.regRead (c.word 24 + 4 * i)))).completeRes
      c 0x13 stOk (4 * n) [] := by
  refine (if_neg (Dev.configReadback_range hwhat hoff hlen hmax hend hwin)).trans ?_
  rw [hlen, Nat.mul_div_cancel_left n (by decide)]

end

theorem Dev.configReadback_badParam (h : 1 < c.byte 20 ∨ c.word 24 % 4 ≠ 0 ∨ 0x100000 ≤ c.word 24 ∨
    c.len.toNat % 4 ≠ 0 ∨ 65536 < c.len.toNat ∨
    (c.len.toNat ≠ 0 ∧ c.word 24 / 0x10000 ≠ (c.word 24 + c.len.toNat - 4) / 0x10000)) :
    d.configReadback c = d.complete c 0x13 stBadParam := if_pos h

/-! ### TELEMETRY_SUBSCRIBE (R436) -/

theorem Dev.telemetrySubscribe_badParam (h : 15 < c.byte 20 ∨ 3 < c.byte 21) :
    d.telemetrySubscribe c = d.complete c 0x90 stBadParam := if_pos h

section
variable (hk : c.byte 20 ≤ 15) (hr : c.byte 21 ≤ 3)
include hk hr

theorem Dev.telemetrySubscribe_ends (hon : bitAt (c.byte 22) 0 = false) (hlen : c.len = 0) :
    d.telemetrySubscribe c = (d.changeTel (c.byte 20) Telemetry.reset).complete c 0x90 stOk :=
  (if_neg (by omega)).trans ((if_pos (by simp [hon])).trans (if_pos hlen))

theorem Dev.telemetrySubscribe_replaces {x : Telemetry} (hon : bitAt (c.byte 22) 0 = true) (hmin : 18 ≤ c.len.toNat)
    (hmax : c.len.toNat ≤ 144) (he : c.bufErr = false) (hx : telemetryOf (c.byte 21) c.data = some x) :
    d.telemetrySubscribe c = (d.changeTel (c.byte 20) x).completeRes c 0x90 stOk c.len.toNat [] := by
  refine ((if_neg (by omega)).trans ((if_neg (by simp [hon])).trans ((if_neg (by omega)).trans
    (Dev.withBuffer_read _ _ he)))).trans ?_
  rw [hx]

end

/-- A change of a subscription is due with the next stroke; the others that are due stay (R436). -/
theorem Dev.changeTel_due (k : Nat) (v : Telemetry) (d : Dev) : (d.changeTel k v).host.tel = d.host.tel ∧
    (k, d.ang.cur.sn + 1, v) ∈ (d.changeTel k v).host.telDue ∧
    ∀ x ∈ (d.changeTel k v).host.telDue, x.1 ≠ k → x ∈ d.host.telDue := by
  refine ⟨rfl, by simp [Dev.changeTel, Dev.onHost], fun x hx hne => ?_⟩
  simp only [Dev.changeTel, Dev.onHost, List.mem_append, List.mem_filter, List.mem_singleton] at hx
  obtain ⟨hmem, -⟩ | rfl := hx
  · exact hmem
  · exact absurd rfl hne

end

end Sys2Proof.Machine
end

section
/-! PROOFS. An accepted configuration (R132) stays as it was accepted while the blocks take their parts of it. -/

namespace Sys2Proof.Machine

open Host

/-- The registers of a configuration: staged and accepted values, loaded tables, and what is due since when. -/
def configOf (r : RegsState) : RegsState := { r with inForce := .empty, events := .empty, snaps := .empty }

/-- The configuration stays, whatever of it goes into force, and the loop engine stays. -/
structure Dev.KeepsConfig (a d : Dev) : Prop where
  regs : configOf d.regs = configOf a.regs
  loop : d.loop = a.loop

theorem Dev.KeepsConfig.trans {a d e : Dev} (h : a.KeepsConfig d) (h' : d.KeepsConfig e) : a.KeepsConfig e :=
  ⟨h'.regs.trans h.regs, h'.loop.trans h.loop⟩

theorem Dev.KeepsConfig.of_touches {ps : List Part} {a d : Dev} (h : Dev.Touches ps a d)
    (hp : .values ∉ ps ∧ .loop ∉ ps) : a.KeepsConfig d :=
  have hvalues : { d.regs with events := .empty, snaps := .empty } = { a.regs with events := .empty, snaps := .empty } :=
    (h.same .values hp.1).symm
  ⟨(congrArg (fun r : RegsState => { r with inForce := .empty }) hvalues :), (h.same .loop hp.2).symm⟩

section
variable (d : Dev)

/-- The registers of CLK go into force, and a lock that follows changes no configuration (R342). -/
theorem Dev.keepsConfig_applyClock : d.KeepsConfig d.applyClock := by
  unfold Dev.applyClock
  extract_lets inClk kept regs new
  have hnew : d.KeepsConfig new := ⟨rfl, rfl⟩
  exact hnew.trans (.of_touches (Dev.touches_clkCommitted ..) (by decide))

/-- The registers that an accepted commit leaves, but for what is due and in force. -/
def Dev.acceptedRegs (d : Dev) (due : List Domain) : RegsState :=
  { configOf d.regs with active := d.regs.staged, loaded := d.regs.loadedStaged, due := due, commitTick := d.now }

/-- The staged set is the active set, and the sample registers are due (R132, R133). -/
theorem Dev.accept_config : d.accept.loop = { d.loop with
      bankActive := d.loop.bankStaged, tabActive := d.loop.tabStaged } ∧
    ∃ due, Domain.sample ∈ due ∧ configOf d.accept.regs = d.acceptedRegs due := by
  unfold Dev.accept
  extract_lets moved doms digest d1 regs d2 d3 d4
  have h4 : d2.KeepsConfig d4 := by
    unfold d4 d3
    split <;> exact ⟨rfl, rfl⟩
  have hblocks : d4.KeepsConfig ((d4.applyProfiles moved).applyPoints).applyClock :=
    .trans (.of_touches (.andThen (Dev.touches_applyProfiles ..) (Dev.touches_applyPoints _)) (by decide))
      (Dev.keepsConfig_applyClock _)
  have hconfig := h4.trans hblocks
  exact ⟨hconfig.loop, d2.regs.due, by simp [d2], hconfig.regs⟩

end

end Sys2Proof.Machine
end

section
/-! PROOFS. The configuration commands together, and a dry run (R139). -/

namespace Sys2Proof.Machine

open Host

section
variable {c : Cmd} {s : State} {d : Dev}

theorem exec_configStage (h : s.dev.admits 0x11 0 c) (hd : s.fresh.configStage c = d) :
    exec (.configStage c) s = .next (s.after d) := hd ▸ State.runCmd_admits (Dev.configStage c) h

theorem exec_tableLoad (h : s.dev.admits 0x10 (2 ^ 96 - 1) c) (hd : s.fresh.tableLoad c = d) :
    exec (.tableLoad c) s = .next (s.after d) := hd ▸ State.runCmd_admits (Dev.tableLoad c) h

theorem exec_configCommit (h : s.dev.admits 0x12 (inlMask [(20, 1)]) c) (hd : s.fresh.configCommit c = d) :
    exec (.configCommit c) s = .next (s.after d) := hd ▸ State.runCmd_admits (Dev.configCommit c) h

theorem exec_configReadback (h : s.dev.admits 0x13 (inlMask [(20, 0xFF), (24, 0xFFFFFFFF)]) c)
    (hd : s.fresh.configReadback c = d) : exec (.configReadback c) s = .next (s.after d) :=
  hd ▸ State.runCmd_admits (Dev.configReadback c) h

theorem exec_telemetrySubscribe (h : s.dev.admits 0x90 (inlMask [(20, 0xFF), (21, 0xFF), (22, 1)]) c)
    (hd : s.fresh.telemetrySubscribe c = d) : exec (.telemetrySubscribe c) s = .next (s.after d) :=
  hd ▸ State.runCmd_admits (Dev.telemetrySubscribe c) h

end

/-- What a row finds differs from the device by the packets of the row before. -/
theorem State.keeps_fresh (s : State) : Dev.Keeps [] s.dev s.fresh := by
  refine ⟨fun p _ => ?_⟩
  cases p
  case reports => exact ⟨rfl, rfl, rfl, rfl⟩
  case commands => exact ⟨rfl, rfl, rfl, rfl, rfl⟩
  all_goals rfl

theorem State.keeps_runAdmission (s : State) : Dev.Keeps [.loop] s.dev s.fresh.runAdmission :=
  (s.keeps_fresh.mono (by simp)).andThen (Dev.keeps_runAdmission _) (by simp)

/-- Settles O50: the dry run is admission and its result, of a staged set that no transfer holds. -/
theorem dryRunAppliesNothing : Obligations.DryRunAppliesNothing :=
  fun _ s h hdry hb => ⟨s.fresh.runAdmission, exec_configCommit h (Dev.configCommit_dryRun (d := s.fresh) hb hdry),
    rfl, rfl, rfl, s.keeps_runAdmission, rfl⟩

section
variable {c : Cmd} {s : State} (h : s.dev.admits 0x12 (inlMask [(20, 1)]) c) (hb : s.dev.stagingBusy = false)
  (hdry : bitAt (c.byte 20) 0 = false)
include h hb hdry

/-- A refused commit shows the admission's result and accepts nothing. -/
theorem configCommit_refused {status : Nat} (hc : s.fresh.commit = (s.fresh.runAdmission, status)) :
    ∃ (d : Dev) (res : List Nat), exec (.configCommit c) s = .next (s.after (d.completeRes c 0x12 status 0 res)) ∧
      d.regs = s.dev.regs ∧ Dev.Keeps [.loop] s.dev d :=
  ⟨_, _, exec_configCommit h (Dev.configCommit_commits (d := s.fresh) hb hdry hc), rfl, s.keeps_runAdmission⟩

/-- An accepted one makes the staged set the active set, with its digest (R132, R435, R469). -/
theorem configCommit_accepted (ha : s.dev.admission.1 = 0) (hr : s.dev.blockRefuses = false) :
    ∃ (d : Dev) (res : List Nat), exec (.configCommit c) s = .next (s.after (d.completeRes c 0x12 stOk 0 res)) ∧
      d.regs.active = s.dev.regs.staged ∧ d.regs.staged = s.dev.regs.staged ∧ d.regs.loaded = s.dev.regs.loadedStaged ∧
      d.loop.bankActive = s.dev.loop.bankStaged ∧ d.loop.tabActive = s.dev.loop.tabStaged ∧
      d.sec.digest = s.dev.stagedDigest ∧ Domain.sample ∈ d.regs.due ∧ d.regs.commitTick = s.dev.now ∧
      res = d.loopAdmResult :: [leAt s.dev.stagedDigest 0 4, leAt s.dev.stagedDigest 4 4] := by
  obtain ⟨hloop, due, hdue, hregs⟩ := s.fresh.runAdmission.accept_config
  have hdigest : s.fresh.runAdmission.accept.sec.digest = s.dev.stagedDigest :=
    congrArg SecState.digest s.fresh.runAdmission.accept_spec.1
  have hcommit := Dev.configCommit_commits (d := s.fresh) hb hdry (Dev.commit_of_ok (d := s.fresh) ha hr)
  refine ⟨_, _, exec_configCommit h hcommit, (congrArg RegsState.active hregs :), (congrArg RegsState.staged hregs :),
    (congrArg RegsState.loaded hregs :), (congrArg LoopState.bankActive hloop :), (congrArg LoopState.tabActive hloop :),
    hdigest, ?_, (congrArg RegsState.commitTick hregs :), ?_⟩
  · rw [show s.fresh.runAdmission.accept.regs.due = due from (congrArg RegsState.due hregs :)]
    exact hdue
  · rw [hdigest]
    rfl

end

/-- Settles O51: each command by the equations of its line. -/
theorem configurationCommandsComplete : Obligations.ConfigurationCommandsComplete := by
  refine ⟨fun c s h => ⟨fun hbad => ?_, fun h0 h8 hmax => ⟨fun hb => ?_, fun hb he => ?_, fun hb he =>
      ⟨fun hok => ?_, fun hok => ?_⟩⟩⟩,
    fun off v r d hr hs => ?_,
    fun c s h => ⟨fun hbad => ?_, fun hs h28 => ⟨fun hb => ?_, fun hb he => ⟨fun h1 => ?_, fun h2 => ?_⟩⟩⟩,
    fun c s h => ⟨fun hb => ?_, fun hb hdry => ⟨fun ha => ?_, fun ha hr => ?_, configCommit_accepted h hb hdry⟩⟩,
    fun c s h => ⟨fun hbad => ?_, fun n hwhat hoff hlen hmax hend hwin => ?_⟩,
    fun c s h => ⟨fun hbad => ?_, fun hk hr => ⟨fun hon hlen => ?_, fun x hon hmin hmax he hx => ?_⟩⟩⟩
  · exact exec_configStage h (Dev.configStage_badLength (d := s.fresh) hbad)
  · exact exec_configStage h (Dev.configStage_busy (d := s.fresh) h0 h8 hmax hb)
  · exact exec_configStage h (Dev.configStage_unread (d := s.fresh) h0 h8 hmax hb he)
  · exact exec_configStage h ((Dev.configStage_read (d := s.fresh) h0 h8 hmax hb he).trans (if_neg (by simp [hok])))
  · exact exec_configStage h ((Dev.configStage_read (d := s.fresh) h0 h8 hmax hb he).trans (if_pos hok))
  · rw [Dev.stageAll_one hr hs]
    exact ⟨Dev.stagedReg_stage_self .., fun _ ho => Dev.stagedReg_stage_of_ne _ _ ho, rfl, rfl, Dev.keeps_stage ..⟩
  · exact exec_tableLoad h (Dev.tableLoad_badParam (d := s.fresh) hbad)
  · exact exec_tableLoad h (Dev.tableLoad_busy (d := s.fresh) hs h28 hb)
  · exact exec_tableLoad h (Dev.tableLoad_stores (d := s.fresh) hs h28 hb he (Dev.tableStore_bank h1 _ _))
  · exact exec_tableLoad h (Dev.tableLoad_stores (d := s.fresh) hs h28 hb he (Dev.tableStore_compensation h2 _ _))
  · exact exec_configCommit h (Dev.configCommit_busy (d := s.fresh) hb)
  · exact configCommit_refused h hb hdry (Dev.commit_of_refused (d := s.fresh) ha)
  · exact configCommit_refused h hb hdry (Dev.commit_of_blocked (d := s.fresh) ha hr)
  · exact exec_configReadback h (Dev.configReadback_badParam (d := s.fresh) hbad)
  · exact exec_configReadback h (Dev.configReadback_posts (d := s.fresh) hwhat hoff hlen hmax hend hwin)
  · exact exec_telemetrySubscribe h (Dev.telemetrySubscribe_badParam (d := s.fresh) hbad)
  · exact ⟨_, exec_telemetrySubscribe h (Dev.telemetrySubscribe_ends (d := s.fresh) hk hr hon hlen), Dev.changeTel_due ..⟩
  · exact ⟨_, exec_telemetrySubscribe h (Dev.telemetrySubscribe_replaces (d := s.fresh) hk hr hon hmin hmax he hx),
      Dev.changeTel_due ..⟩

end Sys2Proof.Machine
end

section
/-! PROOFS. What the evaluation of a stroke touches (R108): the tests of stage 1, the limiter, and the end of stage 7. -/

namespace Sys2Proof.Machine

open Host

section
variable (d : Dev)

/-! ### The feedback of the currents (R154–R160) -/

/-- What supervision notes and reports. -/
def feedbackParts : List Part := [.sup, .events, .reports]

theorem Dev.touches_currentDeclared (sn : W32) (c : Nat) : Dev.Touches feedbackParts d (d.currentDeclared sn c) := by
  unfold Dev.currentDeclared
  extract_lets atOnce src d1
  have h1 : Dev.Touches _ d d1 := Dev.touches_setChan ..
  exact .mono (.ite .refl (.ite (.ite (h1.andThen ((Dev.touches_event ..).andThen (Dev.touches_tripAfter ..))) h1)
    (Dev.touches_tripAfter ..))) (by decide)

theorem Dev.touches_markChan (k : Declared) (c : Nat) : Dev.Touches feedbackParts d (d.markChan k c) :=
  .mono (.andThen (.andThen (Dev.touches_setChan ..) (Dev.touches_event ..)) (Dev.touches_irq ..)) (by decide)

theorem Dev.touches_reactChan (sn : W32) (c : Nat) : Dev.Touches feedbackParts d (d.reactChan sn c) := by
  unfold Dev.reactChan
  extract_lets d1
  have h1 : Dev.Touches _ d d1 := .ite (Dev.touches_currentDeclared ..) .refl
  exact .mono (.ite (h1.andThen (Dev.touches_tripAfter ..)) h1) (by decide)

theorem Dev.touches_declare (sn : W32) (ds : List (Declared × Nat)) : Dev.Touches feedbackParts d (d.declare sn ds) := by
  have hmark := Dev.Touches.foldl (fun d (x : Declared × Nat) => d.touches_markChan x.1 x.2) ds d
  have hreact := Dev.Touches.foldl (fun d c => d.touches_reactChan sn c) (ds.map (·.2)).eraseDups
  exact (hmark.andThen (hreact _)).mono (by decide)

theorem Dev.touches_modelStep (x : Nat) (meas u1 u2 : Int) : Dev.Touches [.sup] d (d.modelStep x meas u1 u2) := by
  unfold Dev.modelStep
  exact d.touches_onSup _

theorem Dev.touches_noteChan (c : Nat) (raw : Int) : Dev.Touches [.sup] d (d.noteChan c raw) := Dev.touches_setChan ..

theorem Dev.touches_settleChan (c : Nat) : Dev.Touches feedbackParts d (d.settleChan c) := by
  unfold Dev.settleChan
  extract_lets x d1
  have h1 : Dev.Touches _ d d1 := Dev.touches_setChan ..
  exact .mono (.ite (.ite (h1.andThen (Dev.touches_endSub ..)) h1) .refl) (by decide)

theorem Dev.touches_endSubLimits : Dev.Touches [.sup] d d.endSubLimits :=
  .foldl (fun _ _ => .mono (.ite (Dev.touches_setChan ..) .refl) (by decide)) _ _

theorem Dev.touches_plausibility (sn : W32) (raw : Nat → Int) (meas u1 u2 : Nat → Int) :
    Dev.Touches feedbackParts d (d.plausibility sn raw meas u1 u2) := by
  unfold Dev.plausibility
  extract_lets runs cs d1 d2 news d3
  have h1 : Dev.Touches _ d d1 := .foldl (fun d x => d.touches_modelStep x _ _ _) _ _
  have h2 : Dev.Touches _ d1 d2 := .foldl (fun d c => d.touches_noteChan c _) _ _
  have h3 : Dev.Touches _ d2 d3 := Dev.touches_declare ..
  exact .mono (((h1.andThen h2).andThen h3).andThen (.foldl (fun d c => d.touches_settleChan c) _ _)) (by decide)

/-! ### The machine (R60, R74, R82) and the signs of the arms (R181) -/

theorem Dev.touches_stopSequence (j : Job) (first last : Bool) :
    Dev.Touches [.gfm, .prof] d (d.stopSequence j first last) := by
  unfold Dev.stopSequence
  split
  · exact .mono (.ite (.ite (d.touches_onGfm _) ((Dev.touches_queueOp ..).andThen (Dev.touches_onGfm ..))) .refl)
      (by decide)
  · exact (d.touches_onGfm _).mono (by decide)
  · exact (d.touches_onGfm _).mono (by decide)
  · exact .mono .refl (by decide)

theorem Dev.touches_testCycle (j : Job) : Dev.Touches [.gfm, .prof] d (d.testCycle j) := by
  unfold Dev.testCycle
  refine .mono (.ite .refl (qs := [.gfm, .prof]) ?_) (by decide)
  extract_lets last h d1
  have h1 : Dev.Touches _ d d1 := d.touches_onGfm _
  split
  · exact .mono (.ite (h1.andThen (Dev.touches_autoMode ..)) h1) (by decide)
  · exact Dev.touches_stopSequence ..
  · exact .mono .refl (by decide)

theorem Dev.touches_setArm (a : Nat) (v : Arm) : Dev.Touches [.mod] d (d.setArm a v) := d.touches_onMod _

theorem Dev.touches_takeSigns (j : Job) : Dev.Touches [.mod] d (d.takeSigns j).1 := by
  unfold Dev.takeSigns
  split
  · exact .mono .refl (by decide)
  · exact .foldl (fun d a => d.touches_setArm a _) _ _

/-! ### The limiter (R143–R152) -/

/-- What the limiter notes, reports and asks of the machine. -/
def limiterParts : List Part := .gfm :: feedbackParts

theorem Dev.touches_setSub (new : Sub) : Dev.Touches limiterParts d (d.setSub new) := by
  unfold Dev.setSub
  extract_lets old d1
  have h1 : Dev.Touches _ d d1 := d.touches_onSup _
  exact .mono (.ite .refl (.ite ((h1.andThen (Dev.touches_onGfm ..)).andThen (Dev.touches_subEvent ..))
    (h1.andThen (Dev.touches_onSup ..)))) (by decide)

theorem Dev.touches_freeze : Dev.Touches [.sup] d d.freeze := by
  unfold Dev.freeze
  exact d.touches_onSup _

theorem Dev.touches_startRamp (i : Int) : Dev.Touches [.sup] d (d.startRamp i) := by
  unfold Dev.startRamp
  exact d.touches_onSup _

theorem Dev.touches_advanceRamp (i : Int) (len : Nat) : Dev.Touches [.sup] d (d.advanceRamp i len) := by
  unfold Dev.advanceRamp
  split
  · exact .mono .refl (by decide)
  · exact d.touches_onSup _

theorem Dev.touches_limExit : Dev.Touches limiterParts d d.limExit := by
  unfold Dev.limExit
  exact .mono (.andThen (.ite (Dev.touches_setSub ..) .refl) (Dev.touches_onSup ..)) (by decide)

theorem Dev.touches_resyncDip (v : Int) : Dev.Touches [.sup, .gfm] d (d.resyncDip v) := by
  unfold Dev.resyncDip
  extract_lets d1
  have h1 : Dev.Touches [.sup, .gfm] d d1 := by
    unfold d1
    split
    · exact .andThen (Dev.touches_freeze _) (Dev.touches_onGfm ..)
    · exact .mono .refl (by decide)
  exact .mono (.ite .refl (.ite (h1.andThen ((Dev.touches_autoMode ..).andThen (Dev.touches_gateClose _))) h1))
    (by decide)

theorem Dev.touches_timeRuns (tick : Nat) : Dev.Touches [.sup] d (d.timeRuns tick) := by
  unfold Dev.timeRuns
  exact d.touches_onSup _

/-! ### The end of an evaluation (R161, R321, R366, R437, R514) -/

theorem Dev.touches_followErrors (j : Job) : Dev.Touches feedbackParts d (d.followErrors j) := by
  unfold Dev.followErrors
  refine .foldl (fun d m => ?_) _ _
  extract_lets r err above was d1
  have h1 : Dev.Touches _ d d1 := d.touches_onSup _
  exact .mono (.ite (h1.andThen (Dev.touches_irq ..)) h1) (by decide)

theorem Dev.touches_claim (sn : W32) : Dev.Touches [.twn] d (d.claim sn) :=
  .mono (.ite (d.touches_onTwn rfl) .refl) (by decide)

theorem Dev.touches_sampleTail (sn : W32) : Dev.Touches [.lrd] d (d.sampleTail sn) := .ite .refl (d.touches_lrd _)

theorem Dev.touches_post (addr : Nat) (bs : List Byte) : Dev.Touches [] d (d.post addr bs) :=
  .of_keeps (d.keeps_post addr bs) (by decide)

theorem Dev.touches_onHost {f : HostState → HostState} (hr : Part.reports.same d (d.onHost f))
    (hc : Part.commands.same d (d.onHost f)) : Dev.Touches [.host] d (d.onHost f) :=
  .of_keeps (Dev.keeps_onHost hr hc) (by decide)

theorem Dev.touches_setTel (k : Nat) (v : Telemetry) : Dev.Touches [.host] d (d.setTel k v) :=
  d.touches_onHost ⟨rfl, rfl, rfl, rfl⟩ ⟨rfl, rfl, rfl, rfl, rfl⟩

theorem Dev.touches_telSnapshot (k : Nat) (sn : W32) : Dev.Touches [.host, .events, .reports] d (d.telSnapshot k sn) := by
  unfold Dev.telSnapshot
  extract_lets x seq addr y d1 r desc
  have h1 : Dev.Touches _ d d1 := d.touches_post ..
  have hskip (e : Dev) : Dev.Touches [.host] e (e.onHost fun h => { h with telSkipCnt := satInc h.telSkipCnt }) :=
    e.touches_onHost ⟨rfl, rfl, rfl, rfl⟩ ⟨rfl, rfl, rfl, rfl, rfl⟩
  exact .mono (h1.andThen (.ite (((Dev.touches_setTel ..).andThen (hskip _)).andThen (Dev.touches_event ..))
    ((Dev.touches_setTel ..).andThen (Dev.touches_putDesc ..)))) (by decide)

theorem Dev.touches_applyTel (sn : W32) : Dev.Touches [.host] d (d.applyTel sn) := by
  unfold Dev.applyTel
  extract_lets isDue due
  have hdue := Dev.Touches.foldl (fun d (x : Nat × W32 × Telemetry) => d.touches_setTel x.1 x.2.2) due d
  exact .mono (hdue.andThen (Dev.touches_onHost _ ⟨rfl, rfl, rfl, rfl⟩ ⟨rfl, rfl, rfl, rfl, rfl⟩)) (by decide)

theorem Dev.touches_telemetrySample (sn : W32) : Dev.Touches [.host, .events, .reports] d (d.telemetrySample sn) :=
  .mono (.andThen (Dev.touches_applyTel ..) (.foldl (fun _ _ => .ite .refl (.ite (Dev.touches_telSnapshot ..)
    (Dev.touches_setTel ..))) _ _)) (by decide)

theorem Dev.touches_acqStroke (tick : Nat) (sn theta : W32) :
    Dev.Touches [.acq, .events, .reports] d (d.acqStroke tick sn theta) :=
  .mono (.andThen (.foldl (fun _ _ => .ite (Dev.touches_evalUnit ..) .refl) _ _)
    (.foldl (fun _ _ => .ite (Dev.touches_acqBase ..) .refl) _ _)) (by decide)

/-- What the end of an evaluation touches. -/
def endParts : List Part := [.sup, .twn, .lrd, .host, .acq, .events, .reports]

theorem Dev.touches_endEvaluation (j : Job) : Dev.Touches endParts d (d.endEvaluation j) := by
  unfold Dev.endEvaluation
  extract_lets d1 d2 d3
  have h1 : Dev.Touches _ d d1 := Dev.touches_followErrors ..
  have h2 : Dev.Touches _ d1 d2 := .ite (Dev.touches_claim ..) .refl
  have h3 : Dev.Touches _ d2 d3 := Dev.touches_onSup ..
  exact .mono (((h1.andThen h2).andThen h3).andThen (((Dev.touches_sampleTail ..).andThen
    (Dev.touches_telemetrySample ..)).andThen (Dev.touches_acqStroke ..))) (by decide)

/-! ### A trip that an evaluation detected, and a resignation (R162, R369) -/

theorem Dev.touches_tripEval (cls : TripClass) (cause : Nat) (details : List Nat) :
    Dev.Touches [.sup] d (d.tripEval cls cause details) := Dev.touches_tripAfter ..

theorem Dev.touches_resign (code : Nat) : Dev.Touches [.twn, .events, .reports, .lrd] d (d.resign code) := by
  unfold Dev.resign
  extract_lets lastSn left d1 d2 d3
  have h1 : Dev.Touches _ d d1 := Dev.touches_send ..
  have h2 : Dev.Touches _ d1 d2 := d1.touches_onTwn rfl
  have h3 : Dev.Touches _ d2 d3 := (Dev.touches_event ..).andThen (Dev.touches_setTwin ..)
  exact .mono (((h1.andThen h2).andThen h3).andThen (Dev.touches_record ..)) (by decide)

end

end Sys2Proof.Machine
end

section
/-! PROOFS. The stages of a stroke (R108): they leave the strokes, the registers and the counters of evaluations alone. -/

namespace Sys2Proof.Machine

open Host

/-- The counters of the strokes evaluated and missed (R129–R131). -/
def strokeCounts (l : LoopState) : Nat × Nat × Bool × Nat × W32 := (l.consec, l.misses, l.lastMiss, l.inject, l.doneSn)

/-- The timebase with its strokes stays, and so do the registers in force and the counters of evaluations. -/
structure Dev.KeepsStrokes (a d : Dev) : Prop where
  ang : d.ang = a.ang
  cfg : d.cfg = a.cfg
  counts : strokeCounts d.loop = strokeCounts a.loop

namespace Dev.KeepsStrokes

variable {a d e : Dev}

theorem refl : d.KeepsStrokes d := ⟨rfl, rfl, rfl⟩

theorem trans (h : a.KeepsStrokes d) (h' : d.KeepsStrokes e) : a.KeepsStrokes e :=
  ⟨h'.ang.trans h.ang, h'.cfg.trans h.cfg, h'.counts.trans h.counts⟩

theorem ite {c : Prop} [Decidable c] (hd : a.KeepsStrokes d) (he : a.KeepsStrokes e) :
    a.KeepsStrokes (if c then d else e) := by split <;> assumption

theorem foldl {α : Type} {f : Dev → α → Dev} (hf : ∀ (d : Dev) x, d.KeepsStrokes (f d x)) (l : List α) (d : Dev) :
    d.KeepsStrokes (l.foldl f d) := by
  induction l generalizing d with
  | nil => exact refl
  | cons x rest ih => exact (hf d x).trans (ih _)

theorem of_touches {ps : List Part} (h : Dev.Touches ps a d) (hp : .ang ∉ ps ∧ .values ∉ ps ∧ .loop ∉ ps) :
    a.KeepsStrokes d :=
  ⟨(h.same .ang hp.1).symm, funext fun off => h.cfg off hp.2.1, congrArg strokeCounts (h.same .loop hp.2.2).symm⟩

/-- The configuration of the deadline (R128, R137). -/
theorem deadline (h : a.KeepsStrokes d) : d.now = a.now ∧ d.tSA = a.tSA ∧ d.tEP = a.tEP := by
  have hflag (off n : Nat) : d.flag off n = a.flag off n := congrArg (bitAt · n) (congrFun h.cfg off)
  have hfld (off hi lo : Nat) : d.fld off hi lo = a.fld off hi lo := congrArg (bits · hi lo) (congrFun h.cfg off)
  have hlen : d.maxLen = a.maxLen := by
    have hstrings : d.strings = a.strings := List.filter_congr fun n _ => hflag ..
    simp only [Dev.maxLen, hstrings, show d.strLen = a.strLen from funext fun n => hfld ..]
  have htopo : d.topo = a.topo := hfld ..
  refine ⟨congrArg AngState.tick h.ang, hfld .., ?_⟩
  rw [Dev.tEP, Dev.tEP, htopo, hlen]

end Dev.KeepsStrokes

section
variable (d : Dev)

theorem Dev.keepsStrokes_setSig (n : Nat) (v : W32) : d.KeepsStrokes (d.setSig n v) := ⟨rfl, rfl, rfl⟩

theorem Dev.keepsStrokes_setSigs (n : Nat) (vs : List W32) : d.KeepsStrokes (d.setSigs n vs) := by
  suffices h : ∀ x : Nat × Dev, x.2.KeepsStrokes (vs.foldl (fun x v => (x.1 + 1, x.2.setSig x.1 v)) x).2 from h (n, d)
  induction vs with
  | nil => exact fun _ => .refl
  | cons v rest ih => exact fun x => (x.2.keepsStrokes_setSig x.1 v).trans (ih (x.1 + 1, x.2.setSig x.1 v))

theorem Dev.keepsStrokes_event (blk bit d0 d1 d2 : Nat) : d.KeepsStrokes (d.event blk bit d0 d1 d2) :=
  .of_touches (Dev.touches_event ..) (by decide)

theorem Dev.keepsStrokes_onLoop {f : LoopState → LoopState} (h : strokeCounts (f d.loop) = strokeCounts d.loop) :
    d.KeepsStrokes (d.onLoop f) := ⟨rfl, rfl, h⟩

theorem Dev.keepsStrokes_onSup (f : SupState → SupState) : d.KeepsStrokes (d.onSup f) := ⟨rfl, rfl, rfl⟩

/-! ### Stage 1 -/

theorem Dev.keepsStrokes_updateFreqs (j : Job) : d.KeepsStrokes (d.updateFreqs j) := by
  unfold Dev.updateFreqs
  extract_lets wFw ticks angN angF n f d1
  have h1 : d.KeepsStrokes d1 := Dev.keepsStrokes_setSigs ..
  clear_value d1
  exact h1.trans (Dev.keepsStrokes_onLoop _ (by simp only [strokeCounts]))

theorem Dev.keepsStrokes_unfittedFreqs : d.KeepsStrokes d.unfittedFreqs := by
  unfold Dev.unfittedFreqs
  extract_lets n f d1
  have h1 : d.KeepsStrokes d1 := .ite .refl ((d.keepsStrokes_setSig ..).trans (Dev.keepsStrokes_onLoop _ rfl))
  clear_value d1
  exact .ite h1 (h1.trans ((Dev.keepsStrokes_setSig ..).trans (Dev.keepsStrokes_onLoop _ rfl)))

/-- The function itself is opened, not its value: the kernel would evaluate the transforms to tell the value from its
equation. -/
theorem Dev.keepsStrokes_stage1 (j : Job) : d.KeepsStrokes (d.stage1 j) := by
  generalize hstage : Dev.stage1 = stage
  delta Dev.stage1 at hstage
  subst hstage
  beta_reduce
  extract_lets rawOf d1 est rep phaseRep vals phases meas volts w d2 d3 theta near far
  have h1 : d.KeepsStrokes d1 := d.keepsStrokes_setSigs ..
  have h2 : d1.KeepsStrokes d2 := d1.keepsStrokes_setSigs ..
  have h3 : d2.KeepsStrokes d3 :=
    .of_touches ((Dev.touches_endSubLimits _).andThen (Dev.touches_plausibility ..)) (by decide)
  replace h3 := (h1.trans h2).trans h3
  clear_value d3
  split
  split
  split
  extract_lets d4 d5 dTheta p q
  have h5 : d.KeepsStrokes d5 := (h3.trans (Dev.keepsStrokes_setSigs ..)).trans
    ((Dev.KeepsStrokes.ite (Dev.keepsStrokes_updateFreqs ..) .refl).trans (Dev.keepsStrokes_unfittedFreqs _))
  clear_value d5
  split
  extract_lets d6
  have h6 : d.KeepsStrokes d6 := h5.trans (Dev.keepsStrokes_setSigs ..)
  exact .ite (h6.trans (Dev.keepsStrokes_setSigs ..)) h6

theorem Dev.keepsStrokes_afterStage1 (j : Job) : d.KeepsStrokes (d.afterStage1 j) := by
  unfold Dev.afterStage1
  extract_lets d1 d2 hist pos mc d3
  have h1 : d.KeepsStrokes d1 := .of_touches (Dev.touches_testCycle ..) (by decide)
  have h2 : d1.KeepsStrokes d2 := .ite (Dev.keepsStrokes_onSup ..) .refl
  have h3 : d2.KeepsStrokes d3 := .of_touches (Dev.touches_onGfm ..) (by decide)
  exact ((h1.trans h2).trans h3).trans (.of_touches (Dev.touches_onAdc ..) (by decide))

/-! ### Stages 2 to 8 -/

theorem Dev.keepsStrokes_stage2 (j : Job) : d.KeepsStrokes (d.stage2 j) :=
  .foldl (fun _ _ => .ite (Dev.keepsStrokes_setSig ..) .refl) _ _

theorem Dev.keepsStrokes_stage7 (j : Job) : d.KeepsStrokes (d.stage7 j) :=
  .foldl (fun _ _ => .ite (Dev.keepsStrokes_setSig ..) .refl) _ _

theorem Dev.keepsStrokes_setCascStates (n : Nat) (ss : List Biquad) : d.KeepsStrokes (d.setCascStates n ss) :=
  d.keepsStrokes_onLoop rfl

/-- The function itself is opened here, too. -/
theorem Dev.keepsStrokes_runCascade (n : Nat) : d.KeepsStrokes (d.runCascade n) := by
  generalize hrun : Dev.runCascade = run
  delta Dev.runCascade at hrun
  subst hrun
  beta_reduce
  extract_lets rIn rOut coefs old raw x ss0 changed
  split
  extract_lets ss e4
  split
  split
  split
  split
  extract_lets satd d1 d2 d3 d4
  have h2 : d.KeepsStrokes d2 := (d.keepsStrokes_setCascStates ..).trans (Dev.keepsStrokes_onLoop _ rfl)
  have h3 : d.KeepsStrokes d3 := h2.trans (Dev.keepsStrokes_setSig ..)
  have h4 : d.KeepsStrokes d4 := .ite (h3.trans (Dev.keepsStrokes_event ..)) h3
  exact .ite (h4.trans (Dev.keepsStrokes_event ..)) h4

theorem Dev.keepsStrokes_cascade (n : Nat) : d.KeepsStrokes (d.cascade n) := by
  unfold Dev.cascade
  exact .ite .refl (.ite (Dev.keepsStrokes_runCascade ..)
    ((Dev.keepsStrokes_setCascStates ..).trans (Dev.keepsStrokes_setSig ..)))

theorem Dev.keepsStrokes_limitStage (j : Job) (i : Int) : d.KeepsStrokes (d.limitStage j i) := by
  unfold Dev.limitStage
  extract_lets v tick d1 d2 forming old dipTo cleared d3 d4 o d5 d6 timed d7 holds d8
  have h2 : d.KeepsStrokes d2 := .of_touches (((Dev.touches_advanceRamp ..).andThen (Dev.touches_onSup ..)).andThen
    (Dev.touches_resyncDip ..)) (by decide)
  have h4 : d2.KeepsStrokes d4 := .of_touches ((Dev.Touches.ite (Dev.touches_freeze _) .refl).andThen
    (Dev.Touches.ite (Dev.touches_startRamp ..) .refl)) (by decide)
  have h6 : d4.KeepsStrokes d6 := (Dev.keepsStrokes_setSigs ..).trans (Dev.keepsStrokes_onSup ..)
  have h7 : d6.KeepsStrokes d7 := by
    have hsub (new : Sub) : d6.KeepsStrokes (d6.setSub new) := .of_touches (Dev.touches_setSub ..) (by decide)
    unfold d7
    clear h2 h4 h6 d8 holds d7
    clear_value dipTo
    cases dipTo with
    | some dip => exact hsub dip
    | none =>
      exact .ite (hsub _) (.ite (.ite (hsub _) (.ite (hsub _) .refl))
        (.ite (.of_touches (Dev.touches_limExit _) (by decide)) .refl))
  have h8 : d7.KeepsStrokes d8 := .ite (Dev.keepsStrokes_onSup ..) .refl
  exact ((((h2.trans h4).trans h6).trans h7).trans h8).trans (.of_touches (Dev.touches_timeRuns ..) (by decide))

theorem Dev.keepsStrokes_stage4 (j : Job) : d.KeepsStrokes (d.stage4 j) := by
  unfold Dev.stage4
  extract_lets i ramp
  clear_value ramp
  split
  · exact ((Dev.KeepsStrokes.of_touches (Dev.touches_advanceRamp ..) (by decide)).trans
      (Dev.keepsStrokes_setSigs ..)).trans (Dev.keepsStrokes_onSup ..)
  · exact (Dev.KeepsStrokes.of_touches (Dev.touches_evalEnter ..) (by decide)).trans (Dev.keepsStrokes_limitStage ..)

theorem Dev.keepsStrokes_stage6 (j : Job) : d.KeepsStrokes (d.stage6 j) := .ite .refl (Dev.keepsStrokes_setSigs ..)

theorem Dev.keepsStrokes_stage8 : d.KeepsStrokes d.stage8 := by
  unfold Dev.stage8
  extract_lets axis en col row region changed d1
  clear_value col row region changed
  have h1 : d.KeepsStrokes d1 := Dev.keepsStrokes_onLoop _ rfl
  exact .ite (h1.trans (Dev.keepsStrokes_event ..)) h1

theorem Dev.keepsStrokes_stages (j : Job) : d.KeepsStrokes (d.stages j) := by
  unfold Dev.stages
  extract_lets pos d1 d2 d3 d4
  have h1 : d.KeepsStrokes d1 := (d.keepsStrokes_onLoop rfl).trans (Dev.keepsStrokes_stage2 ..)
  have hcasc (ns : List Nat) (e : Dev) : e.KeepsStrokes (ns.foldl (fun d n => d.cascade n) e) :=
    .foldl (fun d n => d.keepsStrokes_cascade n) _ _
  have h4 : d1.KeepsStrokes d4 := ((hcasc _ _).trans (Dev.keepsStrokes_stage4 ..)).trans (hcasc _ _)
  exact (h1.trans h4).trans
    (((Dev.keepsStrokes_stage6 ..).trans (Dev.keepsStrokes_stage7 ..)).trans (Dev.keepsStrokes_stage8 _))

end

end Sys2Proof.Machine
end

section
/-! PROOFS. The evaluation of a stroke (R108, R129–R131, R133): what it leaves and what becomes of the stroke. -/

namespace Sys2Proof.Machine

open Host

section
variable {j : Job} {d e : Dev}

/-! ### The device under the configuration of a sample instant (R133) -/

theorem Dev.under_ang (c : Conf) (f : Dev → Dev) : (d.under c f).ang = (f (d.setConf c)).ang := rfl
theorem Dev.under_sup (c : Conf) (f : Dev → Dev) : (d.under c f).sup = (f (d.setConf c)).sup := rfl

theorem Dev.under_loop (c : Conf) (f : Dev → Dev) : (d.under c f).loop =
    { (f (d.setConf c)).loop with bank := d.loop.bank, tab := d.loop.tab } := rfl

theorem Dev.under_counts (c : Conf) (f : Dev → Dev) :
    strokeCounts (d.under c f).loop = strokeCounts (f (d.setConf c)).loop := rfl

theorem Dev.under_stands (c : Conf) (f : Dev → Dev) (off : Nat) (m : W32) :
    (d.under c f).stands off m = (f (d.setConf c)).stands off m := rfl

theorem Dev.under_congr {c : Conf} {f g : Dev → Dev} (h : f (d.setConf c) = g (d.setConf c)) :
    d.under c f = d.under c g := by
  unfold Dev.under
  rw [h]

/-- A device that keeps its configuration is as before: the registers of a configuration are put back. -/
theorem Dev.under_id (c : Conf) : d.under c (fun d => d) = d := rfl

/-! ### The strokes -/

/-- A stroke replaces the one of its SN. -/
def withJob (j : Job) (a : AngState) : AngState :=
  { a with jobs := a.jobs.map fun x => if x.g.sn = j.g.sn then j else x }

theorem Dev.setJob_ang : (d.setJob j).ang = withJob j d.ang := rfl

/-- A stroke whose stage 1 is run, with the signs of its arms (R181). -/
def begunJob (j : Job) (arms : List Bool) : Job := { j with stage1 := true, signs := arms }

theorem Dev.takeSigns_job : ∃ arms, (d.takeSigns j).2 = { j with signs := arms } := by
  unfold Dev.takeSigns
  split
  · exact ⟨j.signs, rfl⟩
  · exact ⟨_, rfl⟩

/-- A stroke completes: stages 2 to 8, the end of its evaluation, and the counters (R129). -/
def Dev.completeStroke (j : Job) (d : Dev) : Dev :=
  let d := (d.stages j).endEvaluation j
  let d := d.onLoop fun l => { l with
    consec := 0, lastMiss := false, doneSn := j.g.sn
    done := { misses := l.misses, clampMask := l.clampMask, satMask := l.satMask, sig := l.sig } }
  (d.onSup fun s => { s with done := d.supDone }).setJob { j with evaluated := true, refs := d.modRefs }

/-- An evaluation after stage 1 of stroke j. -/
def Dev.afterStageOne (j : Job) (d : Dev) : Dev :=
  if j.missed then d.setJob j
  else if 0 < d.loop.inject then (d.onLoop fun l => { l with inject := l.inject - 1 }).missStroke j
  else if j.sampleTick + d.tSA < d.now + loopCost d.cfg + d.tEP then d.setJob j
  else d.completeStroke j

theorem Dev.afterStageOne_injected (hm : j.missed = false) (h : 0 < d.loop.inject) :
    d.afterStageOne j = (d.onLoop fun l => { l with inject := l.inject - 1 }).missStroke j :=
  (if_neg (ne_true_of_eq_false hm)).trans (if_pos h)

section
variable (hm : j.missed = false) (h : d.loop.inject = 0)
include hm h

theorem Dev.afterStageOne_completes (hdl : d.now + loopCost d.cfg + d.tEP ≤ j.sampleTick + d.tSA) :
    d.afterStageOne j = d.completeStroke j :=
  (if_neg (ne_true_of_eq_false hm)).trans ((if_neg (by omega)).trans (if_neg (Nat.not_lt.mpr hdl)))

theorem Dev.afterStageOne_tooLate (hdl : j.sampleTick + d.tSA < d.now + loopCost d.cfg + d.tEP) :
    d.afterStageOne j = d.setJob j :=
  (if_neg (ne_true_of_eq_false hm)).trans ((if_neg (by omega)).trans (if_pos hdl))

end

/-- Stage 1 takes the signs of the arms and leaves the strokes and their counters alone. -/
theorem Dev.evaluateJob_eq (j : Job) (d : Dev) : ∃ e arms, d.KeepsStrokes e ∧
    d.evaluateJob j = e.afterStageOne (begunJob j arms) := by
  obtain ⟨arms, harms⟩ := Dev.takeSigns_job (d := d) (j := j)
  have hsigns : d.KeepsStrokes (d.takeSigns j).1 := .of_touches (Dev.touches_takeSigns ..) (by decide)
  unfold Dev.evaluateJob
  generalize d.takeSigns j = x at hsigns harms
  obtain ⟨d1, k⟩ := x
  subst harms
  exact ⟨_, arms, hsigns.trans (((Dev.keepsStrokes_onSup ..).trans (Dev.keepsStrokes_stage1 ..)).trans
    (Dev.keepsStrokes_afterStage1 ..)), rfl⟩

/-! ### The end of an evaluation -/

theorem Dev.keepsStrokes_endEvaluation (j : Job) : d.KeepsStrokes (d.endEvaluation j) :=
  .of_touches (Dev.touches_endEvaluation ..) (by decide)

theorem Dev.endEvaluation_evalTick : (d.endEvaluation j).sup.evalTick = j.sampleTick := by
  unfold Dev.endEvaluation
  extract_lets d1 d2 d3
  have hrest : Dev.Touches _ d3 _ := ((d3.touches_sampleTail j.g.sn).andThen (Dev.touches_telemetrySample _ j.g.sn)).andThen
    (Dev.touches_acqStroke _ j.sampleTick j.g.sn j.theta)
  exact congrArg SupState.evalTick (hrest.same .sup (by decide)).symm

theorem Dev.completeStroke_spec (j : Job) (d : Dev) :
    (∃ refs, (d.completeStroke j).ang = withJob { j with evaluated := true, refs := refs } d.ang) ∧
    strokeCounts (d.completeStroke j).loop = (0, d.loop.misses, false, d.loop.inject, j.g.sn) ∧
    (d.completeStroke j).sup.evalTick = j.sampleTick := by
  unfold Dev.completeStroke
  extract_lets d1 d2
  have h1 : d.KeepsStrokes d1 := (Dev.keepsStrokes_stages ..).trans (Dev.keepsStrokes_endEvaluation j)
  have htick : d1.sup.evalTick = j.sampleTick := Dev.endEvaluation_evalTick
  obtain ⟨hang, -, hcounts⟩ := h1
  simp only [strokeCounts, Prod.mk.injEq] at hcounts
  obtain ⟨-, hmisses, -, hinject, -⟩ := hcounts
  refine ⟨⟨d2.modRefs, ?_⟩, ?_, htick⟩
  · rw [Dev.setJob_ang, ← hang]
    rfl
  · rw [← hmisses, ← hinject]
    rfl

/-! ### A miss (R130, R131) -/

/-- A stroke is missed: its references are those of the stroke before, and it is counted. -/
def Dev.noteMiss (j : Job) (d : Dev) : Dev :=
  let d := (d.setJob { j with missed := true, refs := d.modRefs }).onSup fun s => { s with evalSn := j.g.sn }
  ((d.onLoop fun l => { l with
    consec := l.consec + 1, misses := satInc l.misses, lastMiss := true }).event 6 0 0 0 0).irq 30

/-- MISS_LIMIT misses in a row. -/
def Dev.atMissLimit (d : Dev) : Bool := decide (d.loop.consec = d.fld Reg.LOOP_CTRL 19 16)

/-- Too many misses in a row trip, or a device with a ready partner resigns; so does a miss in the ramp of a miss. -/
def Dev.reactMiss (limit : Bool) (d : Dev) : Dev :=
  let ramp := if d.rampRunning then d.sup.soft else none
  match ramp with
  | some r => if limit ∨ r.cause = 13 then d.tripEval .hard 14 [] else d
  | none => if limit then d.resignOr 2 (fun d => d.tripEval .soft 13 []) else d

def Dev.answerMiss (d : Dev) : Dev :=
  (if d.atMissLimit then d.event 6 1 0 0 0 else d).reactMiss d.atMissLimit

theorem Dev.missStroke_eq : d.missStroke j = ((d.noteMiss j).answerMiss).endEvaluation j := rfl

theorem Dev.noteMiss_ang : (d.noteMiss j).ang = withJob { j with missed := true, refs := d.modRefs } d.ang := by
  unfold Dev.noteMiss
  rw [Dev.irq_ang, Dev.event_ang]
  rfl

theorem Dev.noteMiss_loop : (d.noteMiss j).loop = { d.loop with
    consec := d.loop.consec + 1, misses := satInc d.loop.misses, lastMiss := true } := by
  unfold Dev.noteMiss
  rw [Dev.irq_loop, Dev.event_loop]
  rfl

theorem Dev.noteMiss_stands : (d.noteMiss j).stands Reg.LOOP_EVENT 1 :=
  Dev.grows_irq _ _ _ _ (Dev.event_stands 6 0 0 0 0 _)

theorem Dev.touches_reactMiss (limit : Bool) :
    Dev.Touches [.sup, .twn, .lrd, .events, .reports] d (d.reactMiss limit) := by
  unfold Dev.reactMiss
  extract_lets ramp
  clear_value ramp
  cases ramp with
  | some r => exact .mono (.ite (Dev.touches_tripEval ..) .refl) (by decide)
  | none => exact .mono (.ite (.ite (Dev.touches_resign ..) (Dev.touches_tripEval ..)) .refl) (by decide)

theorem Dev.touches_answerMiss : Dev.Touches [.sup, .twn, .lrd, .events, .reports] d d.answerMiss :=
  .mono (.andThen (.ite (Dev.touches_event ..) .refl) (Dev.touches_reactMiss _)) (by decide)

theorem Dev.touches_afterMiss : Dev.Touches endParts (d.noteMiss j) (d.missStroke j) :=
  (Dev.touches_answerMiss.andThen (Dev.touches_endEvaluation _ j)).mono (by decide)

theorem Dev.missStroke_ang : (d.missStroke j).ang = withJob { j with missed := true, refs := d.modRefs } d.ang :=
  (Dev.touches_afterMiss.same .ang (by decide)).symm.trans Dev.noteMiss_ang

theorem Dev.missStroke_loop : (d.missStroke j).loop = { d.loop with
    consec := d.loop.consec + 1, misses := satInc d.loop.misses, lastMiss := true } :=
  (Dev.touches_afterMiss.same .loop (by decide)).symm.trans Dev.noteMiss_loop

theorem Dev.missStroke_stands : (d.missStroke j).stands Reg.LOOP_EVENT 1 :=
  Dev.touches_afterMiss.grows _ _ Dev.noteMiss_stands

end

/-! ### The row -/

/-- A device that commands takes over no record (R371). -/
theorem Dev.twinLoad_of_none {d : Dev} (n : W32) (h : d.twn.st = .solo ∨ d.twn.st = .active) (hn : d.twn.loadSn = none) :
    d.twinLoad n = d := by
  unfold Dev.twinLoad
  rw [if_neg (by simp [hn]), if_neg (by rcases h with h | h <;> simp [h])]

/-- A stroke whose stage 1 begins has begun (R108). -/
def startLate (j : Job) (a : AngState) : AngState :=
  { a with lateJobs := a.lateJobs.filter fun x => decide (x.g.sn ≠ j.g.sn) }

section
variable {j : Job} {s : State}

theorem Dev.loopEvaluation_eq (hst : s.dev.twn.st = .solo ∨ s.dev.twn.st = .active) (hload : s.dev.twn.loadSn = none)
    (hj : (s.dev.ang.lateJobs ++ s.dev.ang.jobs).find? (fun j => !j.stage1) = some j) (hin : s.dev.inputsReady = true)
    (htick : j.sampleTick + 200 ≤ s.dev.now) :
    s.fresh.loopEvaluation = (s.fresh.onAng (startLate j)).under j.conf (Dev.evaluateJob j) := by
  unfold Dev.loopEvaluation
  rw [show (s.fresh.ang.lateJobs ++ s.fresh.ang.jobs).find? (fun j => !j.stage1) = some j from hj]
  have hwait : (!s.fresh.inputsReady || decide (s.fresh.now < j.sampleTick + 200)) = false :=
    Bool.or_eq_false_iff.mpr ⟨congrArg (!·) hin, decide_eq_false (Nat.not_lt.mpr htick)⟩
  exact (if_neg (ne_true_of_eq_false hwait)).trans
    (congrArg (Dev.under j.conf (Dev.evaluateJob j)) (Dev.twinLoad_of_none (d := s.fresh.onAng (startLate j)) _ hst hload))

theorem Dev.loopEvaluation_waits {d : Dev} (hin : d.inputsReady = false) : d.loopEvaluation = d := by
  unfold Dev.loopEvaluation
  split
  · rfl
  · exact if_pos (by rw [hin]; rfl)

/-- What two devices have in common that differ in the configuration of a sample instant. -/
structure Dev.SameStroke (a d : Dev) : Prop where
  ang : d.ang = a.ang
  counts : strokeCounts d.loop = strokeCounts a.loop
  sup : d.sup = a.sup
  stands : ∀ off m, d.stands off m = a.stands off m

/-- The row: stage 1 leaves the strokes and the counters as they were, and the configuration is that of the sample instant. -/
theorem loopEvaluation_row {c : Dev} (hst : s.dev.twn.st = .solo ∨ s.dev.twn.st = .active) (hload : s.dev.twn.loadSn = none)
    (hj : (s.dev.ang.lateJobs ++ s.dev.ang.jobs).find? (fun j => !j.stage1) = some j) (hin : s.dev.inputsReady = true)
    (htick : j.sampleTick + 200 ≤ s.dev.now) (hc : c = s.dev.setConf j.conf) :
    ∃ (e : Dev) (arms : List Bool) (d : Dev),
      (e.ang = startLate j s.dev.ang ∧ strokeCounts e.loop = strokeCounts s.dev.loop ∧ e.cfg = c.cfg ∧
        e.now = s.dev.now ∧ e.tSA = c.tSA ∧ e.tEP = c.tEP) ∧
      (e.afterStageOne (begunJob j arms)).SameStroke d ∧ exec .loopEvaluation s = .next (s.after d) := by
  subst hc
  obtain ⟨e, arms, hkeeps, heval⟩ := Dev.evaluateJob_eq j ((s.fresh.onAng (startLate j)).setConf j.conf)
  exact ⟨e, arms, _, ⟨hkeeps.ang, hkeeps.counts, hkeeps.cfg, hkeeps.deadline⟩,
    heval ▸ ⟨Dev.under_ang .., Dev.under_counts .., Dev.under_sup .., fun _ _ => Dev.under_stands ..⟩,
    exec_of_effect rfl (Dev.loopEvaluation_eq hst hload hj hin htick)⟩

end

/-- Settles O18: stage 1 leaves the strokes and the counters as they were, and the rest of the row is one of three. -/
theorem loopEvaluationCompletesOneStroke : Obligations.LoopEvaluationCompletesOneStroke := by
  refine ⟨fun s j c hst hload hj hin htick hmissed hc => ?_,
    fun s hin => exec_of_effect rfl (Dev.loopEvaluation_waits (d := s.fresh) hin)⟩
  obtain ⟨e, arms, d, ⟨hang, hcounts, hcfg, hnow, hSA, hEP⟩, hd, hrow⟩ := loopEvaluation_row hst hload hj hin htick hc
  have hinject : e.loop.inject = s.dev.loop.inject := congrArg (·.2.2.2.1) hcounts
  have hbegun : (begunJob j arms).missed = false := hmissed
  refine ⟨fun h0 hdl => ⟨_, hrow, ?_⟩, fun h0 hdl => ⟨_, hrow, ?_⟩, fun h0 => ⟨_, hrow, ?_⟩⟩
  · have hcomplete : e.afterStageOne (begunJob j arms) = e.completeStroke (begunJob j arms) :=
      Dev.afterStageOne_completes hbegun (hinject.trans h0) (by rw [hSA, hnow, hcfg, hEP]; exact hdl)
    obtain ⟨hd_ang, hd_counts, hd_sup, -⟩ := hcomplete ▸ hd
    obtain ⟨⟨refs, hjobs⟩, hdone, htick⟩ := Dev.completeStroke_spec (begunJob j arms) e
    rw [hjobs, hang] at hd_ang
    rw [hdone] at hd_counts
    exact ⟨⟨refs, arms, congrArg AngState.jobs hd_ang⟩, congrArg AngState.lateJobs hd_ang, congrArg (·.1) hd_counts,
      congrArg (·.2.2.1) hd_counts, congrArg (·.2.2.2.2) hd_counts, hd_sup ▸ htick, (congrArg AngState.cur hd_ang :),
      (congrArg AngState.tick hd_ang :), (congrArg AngState.acc hd_ang :), rfl⟩
  · have hstage1 : e.afterStageOne (begunJob j arms) = e.setJob (begunJob j arms) :=
      Dev.afterStageOne_tooLate hbegun (hinject.trans h0) (by rw [hSA, hnow, hcfg, hEP]; exact hdl)
    obtain ⟨hd_ang, hd_counts, -, -⟩ := hstage1 ▸ hd
    rw [Dev.setJob_ang, hang] at hd_ang
    replace hd_counts := hd_counts.trans hcounts
    exact ⟨⟨arms, congrArg AngState.jobs hd_ang⟩, congrArg (·.2.2.2.2) hd_counts, congrArg (·.1) hd_counts,
      (congrArg AngState.cur hd_ang :), (congrArg AngState.tick hd_ang :), rfl⟩
  · obtain ⟨hd_ang, hd_counts, -, hd_stands⟩ := Dev.afterStageOne_injected hbegun (hinject ▸ h0) ▸ hd
    rw [Dev.missStroke_ang, Dev.onLoop_ang, hang] at hd_ang
    rw [Dev.missStroke_loop] at hd_counts
    exact ⟨(congrArg (·.2.2.2.1) hd_counts).trans (congrArg (· - 1) hinject),
      (congrArg (·.1) hd_counts).trans (congrArg (·.1 + 1) hcounts),
      (congrArg (·.2.1) hd_counts).trans (congrArg (satInc ·.2.1) hcounts), congrArg (·.2.2.1) hd_counts,
      (hd_stands ..).mpr Dev.missStroke_stands, ⟨_, arms, congrArg AngState.jobs hd_ang⟩,
      (congrArg AngState.cur hd_ang :), (congrArg AngState.tick hd_ang :), rfl⟩

end Sys2Proof.Machine
end

section
/-! PROOFS. Missed deadlines (R129–R131, R368, R369): what the end of an evaluation leaves of a trip or a resignation. -/

namespace Sys2Proof.Machine

open Host

/-- The twin's state with its packets stays, and so do the trips that wait. -/
structure Dev.KeepsAnswer (a d : Dev) : Prop where
  twn : d.twn = a.twn
  delayed : d.sup.delayed = a.sup.delayed

namespace Dev.KeepsAnswer

variable {a d e : Dev}

theorem refl : d.KeepsAnswer d := ⟨rfl, rfl⟩

theorem trans (h : a.KeepsAnswer d) (h' : d.KeepsAnswer e) : a.KeepsAnswer e :=
  ⟨h'.twn.trans h.twn, h'.delayed.trans h.delayed⟩

theorem ite {c : Prop} [Decidable c] (hd : a.KeepsAnswer d) (he : a.KeepsAnswer e) :
    a.KeepsAnswer (if c then d else e) := by split <;> assumption

theorem foldl {α : Type} {f : Dev → α → Dev} (hf : ∀ (d : Dev) x, d.KeepsAnswer (f d x)) (l : List α) (d : Dev) :
    d.KeepsAnswer (l.foldl f d) := by
  induction l generalizing d with
  | nil => exact refl
  | cons x rest ih => exact (hf d x).trans (ih _)

end Dev.KeepsAnswer

section
variable (d : Dev)

theorem Dev.keepsAnswer_event (blk bit d0 d1 d2 : Nat) : d.KeepsAnswer (d.event blk bit d0 d1 d2) :=
  ⟨Dev.event_twn .., congrArg SupState.delayed (Dev.event_sup ..)⟩

theorem Dev.keepsAnswer_irq (n : Nat) : d.KeepsAnswer (d.irq n) :=
  ⟨Dev.irq_twn .., congrArg SupState.delayed (Dev.irq_sup ..)⟩

theorem Dev.keepsAnswer_putDesc (r src : Nat) (bs : List Byte) : d.KeepsAnswer (d.putDesc r src bs) :=
  ⟨Dev.putDesc_twn .., congrArg SupState.delayed (Dev.putDesc_sup ..)⟩

/-! ### Disturbance capture at a stroke (R321) -/

theorem Dev.keepsAnswer_setAset (k : Nat) (v : AcqSet) : d.KeepsAnswer (d.setAset k v) := ⟨rfl, rfl⟩

theorem Dev.keepsAnswer_startFilling (k : Nat) : d.KeepsAnswer (d.startFilling k) := d.keepsAnswer_setAset ..

theorem Dev.keepsAnswer_closeRecord (k : Nat) (r : AcqRecord) : d.KeepsAnswer (d.closeRecord k r) := by
  unfold Dev.closeRecord
  extract_lets x d1
  have h1 : d.KeepsAnswer d1 := Dev.keepsAnswer_setAset ..
  exact .ite h1 (h1.trans (.ite (Dev.keepsAnswer_setAset ..) (.ite (Dev.keepsAnswer_startFilling ..)
    (Dev.keepsAnswer_setAset ..))))

theorem Dev.keepsAnswer_setAset_event (k : Nat) (v : AcqSet) (blk bit d0 d1 d2 : Nat) :
    d.KeepsAnswer ((d.setAset k v).event blk bit d0 d1 d2) := (d.keepsAnswer_setAset k v).trans (Dev.keepsAnswer_event ..)

theorem Dev.keepsAnswer_triggered (k : Nat) (v : AcqSet) : d.KeepsAnswer (((d.setAset k v).event 13 0 k 0 0).irq 44) :=
  (d.keepsAnswer_setAset_event ..).trans (Dev.keepsAnswer_irq ..)

theorem Dev.keepsAnswer_startRecord (k mask : Nat) (smp : AcqSample) : d.KeepsAnswer (d.startRecord k mask smp) := by
  unfold Dev.startRecord
  extract_lets x pre r d1
  have h1 : d.KeepsAnswer d1 := d.keepsAnswer_triggered ..
  exact .ite (h1.trans (Dev.keepsAnswer_closeRecord ..)) h1

theorem Dev.keepsAnswer_missTriggers (k : Nat) (ts : List (Nat × Nat)) (smp : AcqSample) :
    d.KeepsAnswer (d.missTriggers k ts smp) := by
  unfold Dev.missTriggers
  dsimp only
  split
  · exact .refl
  · exact .ite .refl (d.keepsAnswer_setAset_event ..)

theorem Dev.keepsAnswer_postSample (k : Nat) (smp : AcqSample) : d.KeepsAnswer (d.postSample k smp) := by
  unfold Dev.postSample
  split
  · exact .refl
  · exact .trans (d.keepsAnswer_setAset ..) (.ite (Dev.keepsAnswer_closeRecord ..) .refl)

theorem Dev.keepsAnswer_acqStore (k : Nat) (smp : AcqSample) : d.KeepsAnswer (d.acqStore k smp) := by
  unfold Dev.acqStore
  extract_lets x fallen mask d1 fill
  have h1 : d.KeepsAnswer d1 := d.keepsAnswer_setAset ..
  have hfill (e : Dev) : e.KeepsAnswer (fill e) := .ite (Dev.keepsAnswer_startRecord ..) (Dev.keepsAnswer_setAset ..)
  split
  · exact h1
  · exact h1.trans (hfill _)
  · exact h1.trans (hfill _)
  · exact h1.trans ((Dev.keepsAnswer_missTriggers ..).trans (Dev.keepsAnswer_postSample ..))
  · exact h1.trans (.ite ((Dev.keepsAnswer_startFilling ..).trans (hfill _))
      (.ite (Dev.keepsAnswer_setAset_event ..) .refl))

theorem Dev.keepsAnswer_acqAgain (k : Nat) (later : List AcqSample) : d.KeepsAnswer (d.acqAgain k later) :=
  .foldl (fun d s => d.keepsAnswer_acqStore k s) _ _

theorem Dev.keepsAnswer_setAset_acqAgain (k : Nat) (v : AcqSet) (later : List AcqSample) :
    d.KeepsAnswer ((d.setAset k v).acqAgain k later) := (d.keepsAnswer_setAset k v).trans (Dev.keepsAnswer_acqAgain ..)

theorem Dev.keepsAnswer_retake (k bit t : Nat) (rs : List AcqRecord) (live : List AcqSample) :
    d.KeepsAnswer (d.retake k bit t rs live) := by
  unfold Dev.retake
  split
  · exact .refl
  · exact d.keepsAnswer_setAset_acqAgain ..

theorem Dev.keepsAnswer_reopen (k bit t : Nat) (rs : List AcqRecord) : d.KeepsAnswer (d.reopen k bit t rs) := by
  unfold Dev.reopen
  dsimp only
  split
  · exact .refl
  · exact .ite (((d.keepsAnswer_setAset ..).trans (Dev.keepsAnswer_retake ..)).trans (Dev.keepsAnswer_setAset ..))
      ((d.keepsAnswer_setAset ..).trans (Dev.keepsAnswer_retake ..))

theorem Dev.keepsAnswer_closedTrigger (k bit t : Nat) (rs : List AcqRecord) :
    d.KeepsAnswer (d.closedTrigger k bit t rs) := by
  unfold Dev.closedTrigger
  dsimp only
  split
  · exact .refl
  · refine .ite (Dev.keepsAnswer_reopen ..) (.ite (d.keepsAnswer_triggered ..) ?_)
    split
    · exact .refl
    · exact d.keepsAnswer_setAset_event ..

theorem Dev.keepsAnswer_acqTrigger (k bit t : Nat) : d.KeepsAnswer (d.acqTrigger k bit t) := by
  unfold Dev.acqTrigger
  dsimp only
  split
  · exact d.keepsAnswer_closedTrigger ..
  · split
    · exact .refl
    · exact d.keepsAnswer_setAset ..
    · split
      · exact .refl
      · refine .ite (Dev.keepsAnswer_retake ..) (.ite (d.keepsAnswer_triggered ..) ?_)
        split
        · exact d.keepsAnswer_missTriggers ..
        · exact d.keepsAnswer_setAset ..
    · exact d.keepsAnswer_setAset_acqAgain ..
    · exact d.keepsAnswer_setAset_acqAgain ..

theorem Dev.keepsAnswer_evalUnit (u : Nat) (v : Int) (t : Nat) : d.KeepsAnswer (d.evalUnit u v t) := by
  unfold Dev.evalUnit
  dsimp only
  have hunit (y : AcqUnit) : d.KeepsAnswer (d.setAunit u y) := ⟨rfl, rfl⟩
  have hfire (e : Dev) : e.KeepsAnswer (e.fireUnit u t) := .foldl (fun _ _ => .ite (Dev.keepsAnswer_acqTrigger ..) .refl) _ _
  exact .ite ((hunit _).trans (hfire _)) (hunit _)

theorem Dev.keepsAnswer_acqBase (k : Nat) (smp : Dev → AcqSample) : d.KeepsAnswer (d.acqBase k smp) :=
  .ite .refl (.ite ((d.keepsAnswer_setAset ..).trans (Dev.keepsAnswer_acqStore ..)) (d.keepsAnswer_setAset ..))

theorem Dev.keepsAnswer_acqStroke (tick : Nat) (sn theta : W32) : d.KeepsAnswer (d.acqStroke tick sn theta) :=
  .trans (.foldl (fun _ _ => .ite (Dev.keepsAnswer_evalUnit ..) .refl) _ _)
    (.foldl (fun _ _ => .ite (Dev.keepsAnswer_acqBase ..) .refl) _ _)

/-! ### The other ends of an evaluation -/

theorem Dev.keepsAnswer_followErrors (j : Job) : d.KeepsAnswer (d.followErrors j) := by
  unfold Dev.followErrors
  refine .foldl (fun d m => ?_) _ _
  extract_lets r err above was d1
  have h1 : d.KeepsAnswer d1 := ⟨rfl, rfl⟩
  exact .ite (h1.trans (Dev.keepsAnswer_irq ..)) h1

theorem Dev.keepsAnswer_setTel (k : Nat) (v : Telemetry) : d.KeepsAnswer (d.setTel k v) := ⟨rfl, rfl⟩

theorem Dev.keepsAnswer_telSnapshot (k : Nat) (sn : W32) : d.KeepsAnswer (d.telSnapshot k sn) := by
  unfold Dev.telSnapshot
  extract_lets x seq addr y d1 r desc
  have h1 (v : Telemetry) : d.KeepsAnswer (d1.setTel k v) := ⟨rfl, rfl⟩
  have hskip (e : Dev) : e.KeepsAnswer (e.onHost fun h => { h with telSkipCnt := satInc h.telSkipCnt }) := ⟨rfl, rfl⟩
  exact .ite (((h1 _).trans (hskip _)).trans (Dev.keepsAnswer_event ..)) ((h1 _).trans (Dev.keepsAnswer_putDesc ..))

theorem Dev.keepsAnswer_applyTel (sn : W32) : d.KeepsAnswer (d.applyTel sn) := by
  unfold Dev.applyTel
  extract_lets isDue due
  have hdue := Dev.KeepsAnswer.foldl (fun d (x : Nat × W32 × Telemetry) => d.keepsAnswer_setTel x.1 x.2.2) due d
  exact hdue.trans ⟨rfl, rfl⟩

theorem Dev.keepsAnswer_telemetrySample (sn : W32) : d.KeepsAnswer (d.telemetrySample sn) :=
  .trans (d.keepsAnswer_applyTel sn) (.foldl (fun _ _ => .ite .refl (.ite (Dev.keepsAnswer_telSnapshot ..)
    (Dev.keepsAnswer_setTel ..))) _ _)

theorem Dev.keepsAnswer_sampleTail (sn : W32) : d.KeepsAnswer (d.sampleTail sn) := .ite .refl ⟨rfl, rfl⟩

/-- A claim changes the claim alone (R366). -/
theorem Dev.claim_twn (sn : W32) : (d.claim sn).sup = d.sup ∧
    ∃ out last, (d.claim sn).twn = { d.twn with claimOut := out, lastLaunch := last } := by
  unfold Dev.claim
  split
  · exact ⟨rfl, _, _, rfl⟩
  · exact ⟨rfl, _, _, rfl⟩

/-- The end of an evaluation leaves the trips that wait, and of the twin it may change the claim. -/
theorem Dev.endEvaluation_answer (j : Job) : (d.endEvaluation j).sup.delayed = d.sup.delayed ∧
    ∃ out last, (d.endEvaluation j).twn = { d.twn with claimOut := out, lastLaunch := last } := by
  unfold Dev.endEvaluation
  extract_lets d1 d2 d3
  have h1 : d.KeepsAnswer d1 := Dev.keepsAnswer_followErrors ..
  have h2 : d2.sup = d1.sup ∧ ∃ out last, d2.twn = { d1.twn with claimOut := out, lastLaunch := last } := by
    unfold d2
    split
    · exact Dev.claim_twn ..
    · exact ⟨rfl, _, _, rfl⟩
  have h3 : d2.KeepsAnswer d3 := ⟨rfl, rfl⟩
  have h4 := h3.trans (((d3.keepsAnswer_sampleTail j.g.sn).trans (Dev.keepsAnswer_telemetrySample _ j.g.sn)).trans
    (Dev.keepsAnswer_acqStroke _ j.sampleTick j.g.sn j.theta))
  obtain ⟨hsup, out, last, htwn⟩ := h2
  rw [h1.twn] at htwn
  exact ⟨h4.delayed.trans ((congrArg SupState.delayed hsup).trans h1.delayed), out, last,
    h4.twn.trans htwn⟩

end

end Sys2Proof.Machine
end

section
/-! PROOFS. Missed deadlines (R129–R131, R368, R369): the trip of MISS_LIMIT, or the resignation. -/

namespace Sys2Proof.Machine

open Host

section
variable {j : Job} {d : Dev}

/-! ### A resignation (R369) -/

theorem Dev.setTwin_twn (st : TwinSt) (d : Dev) : (d.setTwin st).twn = { d.twn with st := st } := by
  unfold Dev.setTwin
  dsimp only
  split
  · next h => rw [← h]
  · rw [Dev.irq_twn, Dev.event_twn]
    rfl

theorem Dev.resign_twn (code : Nat) (d : Dev) : ∃ left, (d.resign code).twn =
    { (d.send (.resign code d.twn.lastLaunch)).twn with
      act := false, resignCause := code, repeatLeft := left, st := .resigned } := by
  unfold Dev.resign
  extract_lets lastSn left d1 d2 d3
  have h3 : d3.twn = { d2.twn with st := .resigned } := (Dev.setTwin_twn ..).trans (by rw [Dev.event_twn])
  exact ⟨left, h3⟩

theorem Dev.resign_stands (code : Nat) (d : Dev) : (d.resign code).stands Reg.TWN_EVENT 8 := by
  unfold Dev.resign
  extract_lets lastSn left d1 d2 d3
  have h3 : d3.stands Reg.TWN_EVENT 8 := (Dev.touches_setTwin _ .resigned).grows _ _ (Dev.event_stands 14 3 ..)
  exact (Dev.touches_record ..).grows _ _ h3

theorem Dev.send_sent {p : TwinPacket} (h : d.lanesOff = false) : ∃ x ∈ (d.send p).twn.sent, x.body = p := by
  unfold Dev.send Dev.sendLen
  rw [if_neg (ne_true_of_eq_false h)]
  exact ⟨_, List.mem_append_right _ (List.mem_singleton_self _), rfl⟩

/-! ### At the limit of misses -/

theorem Dev.reactMiss_soft (hr : d.rampRunning = false) (ht : ¬ (d.twn.st = .active ∧ d.partnerReady = true)) :
    d.reactMiss true = d.tripEval .soft 13 [] := by
  unfold Dev.reactMiss
  rw [hr]
  exact if_neg ht

theorem Dev.reactMiss_resigns (hr : d.rampRunning = false) (ht : d.twn.st = .active ∧ d.partnerReady = true) :
    d.reactMiss true = d.resign 2 := by
  unfold Dev.reactMiss
  rw [hr]
  exact if_pos ht

theorem Dev.reactMiss_hard (hr : d.rampRunning = true) : d.reactMiss true = d.tripEval .hard 14 [] := by
  obtain ⟨r, hsoft⟩ := Option.isSome_iff_exists.mp (Bool.and_eq_true_iff.mp hr).1
  unfold Dev.reactMiss
  rw [hr, hsoft]
  rfl

/-- The trip that an evaluation detects waits, after those that wait (R162). -/
theorem Dev.mem_delayed_tripEval {cls : TripClass} (h : cls ≠ .report) (cause : Nat) (details : List Nat) (d : Dev) :
    ∃ x ∈ (d.tripEval cls cause details).sup.delayed, x.cause = cause ∧ x.cls = cls := by
  unfold Dev.tripEval Dev.tripAfter
  rw [if_neg h]
  exact ⟨_, List.mem_append_right _ (List.mem_singleton_self _), rfl, rfl⟩

/-- A miss that reaches MISS_LIMIT, before it is answered. -/
def Dev.limitMiss (j : Job) (d : Dev) : Dev := (d.noteMiss j).event 6 1 0 0 0

theorem Dev.limitMiss_sup : (d.limitMiss j).sup = { d.sup with evalSn := j.g.sn } := by
  unfold Dev.limitMiss Dev.noteMiss
  rw [Dev.event_sup, Dev.irq_sup, Dev.event_sup]
  rfl

theorem Dev.limitMiss_twn : (d.limitMiss j).twn = d.twn := by
  unfold Dev.limitMiss Dev.noteMiss
  rw [Dev.event_twn, Dev.irq_twn, Dev.event_twn]
  rfl

theorem Dev.limitMiss_rampRunning : (d.limitMiss j).rampRunning = d.rampRunning := by
  unfold Dev.rampRunning
  rw [Dev.limitMiss_sup]

theorem Dev.limitMiss_partnerReady : (d.limitMiss j).partnerReady = d.partnerReady := by
  unfold Dev.partnerReady
  rw [Dev.limitMiss_twn]

theorem Dev.limitMiss_lanesOff : (d.limitMiss j).lanesOff = d.lanesOff := by
  unfold Dev.limitMiss Dev.noteMiss Dev.lanesOff Dev.ready
  rw [Dev.event_clk, Dev.irq_clk, Dev.event_clk, Dev.event_sec, Dev.irq_sec, Dev.event_sec]
  rfl

section
variable (hlim : d.loop.consec + 1 = d.fld Reg.LOOP_CTRL 19 16)
include hlim

theorem Dev.noteMiss_atMissLimit : (d.noteMiss j).atMissLimit = true := by
  have hfld : (d.noteMiss j).fld Reg.LOOP_CTRL 19 16 = d.fld Reg.LOOP_CTRL 19 16 :=
    congrArg (bits · 19 16) (((Dev.touches_event ..).andThen (Dev.touches_irq ..)).cfg _ (by decide))
  exact decide_eq_true (by rw [Dev.noteMiss_loop, hfld, ← hlim])

theorem Dev.missStroke_limit : d.missStroke j = ((d.limitMiss j).reactMiss true).endEvaluation j := by
  rw [Dev.missStroke_eq, Dev.answerMiss, Dev.noteMiss_atMissLimit hlim]
  rfl

theorem Dev.missStroke_limit_stands : (d.missStroke j).stands Reg.LOOP_EVENT 2 := by
  rw [Dev.missStroke_limit hlim]
  exact ((Dev.touches_reactMiss true).andThen (Dev.touches_endEvaluation _ j)).grows _ _ (Dev.event_stands 6 1 0 0 0 _)

/-- MISS_LIMIT trips a device that is SOLO or has no ready partner (R131). -/
theorem Dev.missStroke_trips (hr : d.rampRunning = false) (ht : ¬ (d.twn.st = .active ∧ d.partnerReady = true)) :
    (∃ x ∈ (d.missStroke j).sup.delayed, x.cause = 13 ∧ x.cls = .soft) ∧ (d.missStroke j).twn.st = d.twn.st := by
  have hreact : (d.limitMiss j).reactMiss true = (d.limitMiss j).tripEval .soft 13 [] :=
    Dev.reactMiss_soft (Dev.limitMiss_rampRunning.trans hr) (by rwa [Dev.limitMiss_twn, Dev.limitMiss_partnerReady])
  obtain ⟨hdelayed, out, last, htwn⟩ := Dev.endEvaluation_answer ((d.limitMiss j).reactMiss true) j
  rw [Dev.missStroke_limit hlim, hdelayed, htwn, hreact]
  exact ⟨Dev.mem_delayed_tripEval (by decide) .., (congrArg TwnState.st Dev.limitMiss_twn :)⟩

/-- With a soft ramp the trip is a hard one (R131). -/
theorem Dev.missStroke_trips_hard (hr : d.rampRunning = true) :
    ∃ x ∈ (d.missStroke j).sup.delayed, x.cause = 14 ∧ x.cls = .hard := by
  rw [Dev.missStroke_limit hlim, (Dev.endEvaluation_answer _ j).1,
    Dev.reactMiss_hard (Dev.limitMiss_rampRunning.trans hr)]
  exact Dev.mem_delayed_tripEval (by decide) ..

/-- An ACTIVE device with a ready partner resigns (R368). -/
theorem Dev.missStroke_resigns (hr : d.rampRunning = false) (ht : d.twn.st = .active ∧ d.partnerReady = true) :
    ((d.missStroke j).twn.st = .resigned ∧ (d.missStroke j).twn.act = false ∧ (d.missStroke j).twn.resignCause = 2) ∧
    (d.missStroke j).stands Reg.TWN_EVENT 8 ∧ (d.missStroke j).sup.delayed = d.sup.delayed ∧
    (d.lanesOff = false → ∃ x ∈ (d.missStroke j).twn.sent, x.body = .resign 2 d.twn.lastLaunch) := by
  have hreact : (d.limitMiss j).reactMiss true = (d.limitMiss j).resign 2 :=
    Dev.reactMiss_resigns (Dev.limitMiss_rampRunning.trans hr) (by rwa [Dev.limitMiss_twn, Dev.limitMiss_partnerReady])
  have hsup : ((d.limitMiss j).resign 2).sup = (d.limitMiss j).sup :=
    ((Dev.touches_resign _ 2).same .sup (by decide)).symm
  obtain ⟨left, hresign⟩ := Dev.resign_twn 2 (d.limitMiss j)
  obtain ⟨hdelayed, out, last, htwn⟩ := Dev.endEvaluation_answer ((d.limitMiss j).reactMiss true) j
  rw [Dev.missStroke_limit hlim, hdelayed, htwn, hreact, hresign, hsup, Dev.limitMiss_sup]
  exact ⟨⟨rfl, rfl, rfl⟩, (Dev.touches_endEvaluation _ j).grows _ _ (Dev.resign_stands ..), rfl,
    fun hoff => Dev.limitMiss_twn (d := d) (j := j) ▸ Dev.send_sent (Dev.limitMiss_lanesOff.trans hoff)⟩

end

/-! ### The rows -/

theorem Dev.deadlineMiss_eq (hj : d.ang.jobs.find? (fun j => !j.evaluated && !j.missed) = some j) : d.deadlineMiss =
    d.under j.conf fun d => if j.sampleTick + d.tSA ≤ d.now + d.tEP then d.missStroke j else d := by
  unfold Dev.deadlineMiss
  rw [hj]

/-- A missed stroke, under the configuration of its sample instant. -/
theorem Dev.deadlineMiss_missed (hj : d.ang.jobs.find? (fun j => !j.evaluated && !j.missed) = some j)
    (h : j.sampleTick + (d.setConf j.conf).tSA ≤ d.now + (d.setConf j.conf).tEP) :
    d.deadlineMiss = d.under j.conf (Dev.missStroke j) := by
  rw [Dev.deadlineMiss_eq hj]
  exact Dev.under_congr (if_pos h)

theorem Dev.deadlineMiss_early (hj : d.ang.jobs.find? (fun j => !j.evaluated && !j.missed) = some j)
    (h : d.now + (d.setConf j.conf).tEP < j.sampleTick + (d.setConf j.conf).tSA) : d.deadlineMiss = d := by
  rw [Dev.deadlineMiss_eq hj]
  exact (Dev.under_congr (if_neg (Nat.not_le.mpr h))).trans (Dev.under_id j.conf)

end

/-- Settles O19: the miss is noted, and MISS_LIMIT of them in a row is answered as the twin and the ramp stand. -/
theorem missedDeadlinesAreCounted : Obligations.MissedDeadlinesAreCounted := by
  refine ⟨fun s j c hst hj hc hdl => ?_, fun s j c hj hc hdl => ?_, fun v s hv => ?_, fun v s hv => ?_⟩
  · subst hc
    refine ⟨_, exec_of_effect rfl (Dev.deadlineMiss_missed (d := s.fresh) hj hdl), ?_⟩
    have hang : (s.fresh.under j.conf (Dev.missStroke j)).ang =
        withJob { j with missed := true, refs := s.dev.modRefs } s.dev.ang := Dev.missStroke_ang (d := s.fresh.setConf j.conf)
    have hloop : (s.fresh.under j.conf (Dev.missStroke j)).loop = { s.dev.loop with
        consec := s.dev.loop.consec + 1, misses := satInc s.dev.loop.misses, lastMiss := true } := by
      rw [Dev.under_loop, Dev.missStroke_loop]
      rfl
    refine ⟨congrArg AngState.jobs hang, hloop, (Dev.under_stands ..).mpr Dev.missStroke_stands, fun hlim => ?_,
      (congrArg AngState.cur hang :), (congrArg AngState.tick hang :), rfl⟩
    have hlim' : (s.fresh.setConf j.conf).loop.consec + 1 = (s.fresh.setConf j.conf).fld Reg.LOOP_CTRL 19 16 := hlim
    refine ⟨(Dev.under_stands ..).mpr (Dev.missStroke_limit_stands hlim'), fun hr ht => ?_, fun hr hact hready => ?_,
      fun hr => Dev.missStroke_trips_hard hlim' hr⟩
    · have hstays : ¬ (s.dev.twn.st = .active ∧ s.dev.partnerReady = true) := by
        rintro ⟨hact, hready⟩
        simp [hact, hready] at ht
      exact Dev.missStroke_trips hlim' hr hstays
    · obtain ⟨⟨hst', hact', hcause⟩, hevent, hdelayed, hsent⟩ :=
        Dev.missStroke_resigns (j := j) hlim' hr ⟨hact, hready⟩
      exact ⟨hst', hact', hcause, (Dev.under_stands ..).mpr hevent, hdelayed, hsent⟩
  · subst hc
    exact exec_of_effect rfl (Dev.deadlineMiss_early (d := s.fresh) hj hdl)
  · exact ⟨_, exec_of_effect rfl (if_pos hv), rfl, (Dev.keeps_onLoop ..).quietly rfl⟩
  · exact exec_of_effect rfl (if_neg (ne_true_of_eq_false hv))

end Sys2Proof.Machine
end

section
/-! PROOFS. The exact arithmetic of the limiter (R112, R144, R536): the square root, the magnitude, the rounded quotient and
the clamp, by the inequalities that they satisfy. -/

namespace Sys2Proof.Machine

open Host

/-! ### The square root and the magnitude -/

/-- Digit by digit, from a root that is too small by less than the next digits can add. -/
theorem isqrtFrom_eq_sqrt (n k r : Nat) (hlo : r * r ≤ n) (hhi : n < (r + 2 ^ (k + 1)) * (r + 2 ^ (k + 1))) :
    isqrtFrom n k r = n.sqrt := by
  induction k generalizing r with
  | zero =>
    unfold isqrtFrom
    split
    · next h => exact Nat.eq_sqrt.mpr ⟨h, hhi⟩
    · next h => exact Nat.eq_sqrt.mpr ⟨hlo, not_le.mp h⟩
  | succ k ih =>
    unfold isqrtFrom
    dsimp only
    split
    · next h => exact ih _ h (by rwa [add_assoc, ← two_mul, ← pow_succ'])
    · next h => exact ih r hlo (not_le.mp h)

theorem isqrt_eq_sqrt {n : Nat} (h : n < 2 ^ 146) : isqrt n = n.sqrt :=
  isqrtFrom_eq_sqrt n 72 0 (Nat.zero_le n) (by rwa [Nat.zero_add, ← pow_add])

/-- The root of a nonnegative integer, rounded down. -/
theorem isqrt_toNat_sq {n : Int} (h0 : 0 ≤ n) (h : n < 2 ^ 146) :
    (isqrt n.toNat : Int) ^ 2 ≤ n ∧ n < ((isqrt n.toNat : Int) + 1) ^ 2 := by
  obtain ⟨m, rfl⟩ := Int.eq_ofNat_of_zero_le h0
  rw [Int.toNat_natCast, isqrt_eq_sqrt (by exact_mod_cast h)]
  exact ⟨by exact_mod_cast m.sqrt_le', by exact_mod_cast m.lt_succ_sqrt'⟩

theorem magnitude_nonneg (x y : Int) : 0 ≤ magnitude x y := Int.natCast_nonneg _

theorem sq_add_sq_lt_magnitude {x y : Int} (h : x ^ 2 + y ^ 2 < 2 ^ 146) :
    x ^ 2 + y ^ 2 < (magnitude x y + 1) ^ 2 := by
  rw [sq x, sq y] at h ⊢
  exact (isqrt_toNat_sq (add_nonneg (mul_self_nonneg x) (mul_self_nonneg y)) h).2

theorem abs_left_le_magnitude {x y : Int} (h : x ^ 2 + y ^ 2 < 2 ^ 146) : |x| ≤ magnitude x y :=
  Int.lt_add_one_iff.mp (abs_lt_of_sq_lt_sq ((le_add_of_nonneg_right (sq_nonneg y)).trans_lt (sq_add_sq_lt_magnitude h))
    (by have := magnitude_nonneg x y; omega))

theorem abs_right_le_magnitude {x y : Int} (h : x ^ 2 + y ^ 2 < 2 ^ 146) : |y| ≤ magnitude x y :=
  Int.lt_add_one_iff.mp (abs_lt_of_sq_lt_sq ((le_add_of_nonneg_left (sq_nonneg x)).trans_lt (sq_add_sq_lt_magnitude h))
    (by have := magnitude_nonneg x y; omega))

theorem sq_add_sq_lt_of_32_bits {x y : Int} (hx : -(2 ^ 31) ≤ x ∧ x < 2 ^ 31) (hy : -(2 ^ 31) ≤ y ∧ y < 2 ^ 31) :
    x ^ 2 + y ^ 2 < 2 ^ 146 := by
  have hxx : x ^ 2 ≤ (2 ^ 31) ^ 2 := sq_le_sq' hx.1 hx.2.le
  have hyy : y ^ 2 ≤ (2 ^ 31) ^ 2 := sq_le_sq' hy.1 hy.2.le
  omega

/-! ### The rounded quotient -/

/-- A rounded quotient is within one half of the exact one (R112). -/
theorem abs_two_mul_rdiv_sub_le {m : Int} (hm : 0 < m) (n : Int) : |2 * (m * rdiv n m) - 2 * n| ≤ m := by
  have hlo := Int.mul_ediv_self_le (x := 2 * n + m) (k := 2 * m) (by omega)
  have hhi := Int.lt_mul_ediv_self_add (x := 2 * n + m) (k := 2 * m) (by omega)
  rw [rdiv, if_pos hm, abs_le]
  rw [mul_assoc] at hlo hhi
  omega

theorem two_mul_abs_rdiv_le {m : Int} (hm : 0 < m) (n : Int) : 2 * (m * |rdiv n m|) ≤ 2 * |n| + m := by
  have hround := abs_two_mul_rdiv_sub_le hm n
  have hsplit := abs_sub_abs_le_abs_sub (2 * (m * rdiv n m)) (2 * n)
  rw [abs_mul, abs_mul, abs_mul, abs_two, abs_of_pos hm] at hsplit
  omega

/-- Rounding does not carry a quotient past a whole number that bounds it. -/
theorem abs_rdiv_le {m n b : Int} (hm : 0 < m) (h : |n| ≤ b * m) : |rdiv n m| ≤ b := by
  have hround := two_mul_abs_rdiv_le hm n
  by_contra hgt
  have : m * (b + 1) ≤ m * |rdiv n m| := mul_le_mul_of_nonneg_left (by omega) hm.le
  rw [mul_add, mul_comm m b] at this
  omega

/-! ### The clamp -/

section
variable {b x : Int}

theorem abs_clampSym_le (hb : 0 ≤ b) : |clampSym b x| ≤ b := abs_le.mpr (clampI_mem (by omega) x)

theorem abs_clampSym_le_abs (hb : 0 ≤ b) : |clampSym b x| ≤ |x| := by
  unfold clampSym clampI
  split
  · rw [abs_neg, abs_of_nonneg hb]
    exact (by omega : b ≤ -x).trans (neg_le_abs x)
  · split
    · next h => exact (abs_of_nonneg hb).trans_le (h.le.trans (le_abs_self x))
    · exact le_rfl

theorem clampSym_eq_max_min (hb : 0 ≤ b) : clampSym b x = max (-b) (min b x) := by
  unfold clampSym clampI
  split
  · omega
  · split <;> omega

theorem clampSym_of_mem (h : -b ≤ x ∧ x ≤ b) : clampSym b x = x := by
  rw [clampSym, clampI, if_neg (by omega), if_neg (by omega)]

end

/-! ### The two coordinates within a circle -/

/-- What is left of the limit beside one coordinate keeps the vector within the circle. -/
theorem sq_add_sq_restOf_le {i x y : Int} (hi : i < 2 ^ 32) (hx : |x| ≤ i) (hy : |y| ≤ restOf i x) :
    x ^ 2 + y ^ 2 ≤ i ^ 2 := by
  have hi0 : 0 ≤ i := (abs_nonneg x).trans hx
  have hxx : x ^ 2 ≤ i ^ 2 := sq_le_sq.mpr (hx.trans (le_abs_self i))
  have hii : i ^ 2 ≤ (2 ^ 32) ^ 2 := pow_le_pow_left₀ hi0 hi.le 2
  have hroot : restOf i x ^ 2 ≤ i ^ 2 - x ^ 2 := by
    rw [restOf, sq i, sq x]
    rw [sq i, sq x] at hxx
    rw [sq i] at hii
    have := mul_self_nonneg x
    exact (isqrt_toNat_sq (by omega) (by omega)).1
  have hyy : y ^ 2 ≤ restOf i x ^ 2 := sq_le_sq.mpr (hy.trans (le_abs_self _))
  omega

/-- A vector scaled to the circle, each product rounded, exceeds its radius by less than 2 (R144). -/
theorem sq_add_sq_scaled_lt {i m d q x y : Int} (hi : 0 ≤ i) (him : i < m) (hd : |d| ≤ m) (hq : |q| ≤ m)
    (hdq : d ^ 2 + q ^ 2 < (m + 1) ^ 2) (hx : 2 * (m * |x|) ≤ 2 * |d * i| + m) (hy : 2 * (m * |y|) ≤ 2 * |q * i| + m) :
    x ^ 2 + y ^ 2 < (i + 2) ^ 2 := by
  have hm : 0 < m := by omega
  rw [abs_mul, abs_of_nonneg hi] at hx hy
  have hxx : (2 * (m * |x|)) ^ 2 ≤ (2 * (|d| * i) + m) ^ 2 := pow_le_pow_left₀ (by positivity) hx 2
  have hyy : (2 * (m * |y|)) ^ 2 ≤ (2 * (|q| * i) + m) ^ 2 := pow_le_pow_left₀ (by positivity) hy 2
  rw [← sq_abs d, ← sq_abs q] at hdq
  rw [← sq_abs x, ← sq_abs y]
  have hsum : 4 * m ^ 2 * (|x| ^ 2 + |y| ^ 2) < 4 * m ^ 2 * (i + 2) ^ 2 := by
    have h1 : i ^ 2 * (|d| ^ 2 + |q| ^ 2) ≤ i ^ 2 * (m ^ 2 + 2 * m) :=
      mul_le_mul_of_nonneg_left (by linarith) (sq_nonneg i)
    have h2 : (i * m) * (|d| + |q|) ≤ (i * m) * (2 * m) := mul_le_mul_of_nonneg_left (by linarith) (by positivity)
    have h3 : (i * m) * i ≤ (i * m) * m := mul_le_mul_of_nonneg_left him.le (by positivity)
    have h4 : 0 < m ^ 2 := by positivity
    linarith
  exact lt_of_mul_lt_mul_left hsum (by positivity)

end Sys2Proof.Machine
end

section
/-! PROOFS. The limiter in its three modes (R143, R144). -/

namespace Sys2Proof.Machine

open Host

section
variable {i c d q : Int}

theorem restOf_nonneg (i x : Int) : 0 ≤ restOf i x := Int.natCast_nonneg _

/-- D_PRIO: d within the cap, and q within what d leaves of the circle. -/
theorem limiter_dPrio (hi : i < 2 ^ 32) (hc : 0 ≤ c) (hci : c ≤ i) : |(limiter 1 i c d q).1| ≤ c ∧
    (limiter 1 i c d q).1 ^ 2 + (limiter 1 i c d q).2 ^ 2 ≤ i ^ 2 :=
  have hd : |(limiter 1 i c d q).1| ≤ c := abs_clampSym_le hc
  ⟨hd, sq_add_sq_restOf_le hi (hd.trans hci) (abs_clampSym_le (restOf_nonneg i _))⟩

theorem limiter_qPrio_fst : (limiter 2 i c d q).1 = clampSym (min c (restOf i (clampSym i q))) d := by
  have hmin (l : Int) : (if c < l then c else l) = min c l := by split <;> omega
  exact congrArg (clampSym · d) (hmin _)

/-- Q_PRIO: q within the limit, and d within the cap and what q leaves of the circle. -/
theorem limiter_qPrio (hi : i < 2 ^ 32) (hc : 0 ≤ c) (hci : c ≤ i) :
    |(limiter 2 i c d q).1| ≤ c ∧ |(limiter 2 i c d q).2| ≤ i ∧
    (limiter 2 i c d q).1 ^ 2 + (limiter 2 i c d q).2 ^ 2 ≤ i ^ 2 := by
  have hq : |(limiter 2 i c d q).2| ≤ i := abs_clampSym_le (hc.trans hci)
  have hd : |(limiter 2 i c d q).1| ≤ min c (restOf i (clampSym i q)) :=
    limiter_qPrio_fst (c := c) ▸ abs_clampSym_le (le_min hc (restOf_nonneg ..))
  refine ⟨hd.trans (min_le_left ..), hq, ?_⟩
  rw [add_comm]
  exact sq_add_sq_restOf_le hi hq (hd.trans (min_le_right ..))

/-- CIRCULAR, of a reference within the circle: only the cap holds d. -/
theorem limiter_circular_inside (h : magnitude d q ≤ i) : limiter 0 i c d q = (clampSym c d, q) := by
  simp only [limiter, if_neg (not_lt.mpr h)]

/-- CIRCULAR, of a reference beyond the circle: it is scaled to the circle before the cap holds d. -/
theorem limiter_circular_beyond (h : i < magnitude d q) : limiter 0 i c d q =
    (clampSym c (rdiv (d * i) (magnitude d q)), rdiv (q * i) (magnitude d q)) := by
  simp only [limiter, if_pos h]

theorem limiter_circular_fst (hc : 0 ≤ c) : |(limiter 0 i c d q).1| ≤ c := abs_clampSym_le hc

/-- CIRCULAR keeps signals of 32 bits within the circle, but for its roundings. -/
theorem limiter_circular (hi : 0 ≤ i) (hc : 0 ≤ c) (h : d ^ 2 + q ^ 2 < 2 ^ 146) :
    |(limiter 0 i c d q).2| ≤ i ∧ (limiter 0 i c d q).1 ^ 2 + (limiter 0 i c d q).2 ^ 2 < (i + 2) ^ 2 := by
  have hd := abs_left_le_magnitude h
  have hq := abs_right_le_magnitude h
  have hdq := sq_add_sq_lt_magnitude h
  rcases le_or_gt (magnitude d q) i with hin | hout
  · rw [limiter_circular_inside hin]
    refine ⟨hq.trans hin, ?_⟩
    calc clampSym c d ^ 2 + q ^ 2
      _ ≤ d ^ 2 + q ^ 2 := add_le_add_left (sq_le_sq.mpr (abs_clampSym_le_abs hc)) _
      _ < (magnitude d q + 1) ^ 2 := hdq
      _ ≤ (i + 2) ^ 2 := pow_le_pow_left₀ (by have := magnitude_nonneg d q; omega) (by omega) 2
  · have hm : 0 < magnitude d q := hi.trans_lt hout
    rw [limiter_circular_beyond hout]
    refine ⟨abs_rdiv_le hm ?_, sq_add_sq_scaled_lt hi hout hd hq hdq ?_ (two_mul_abs_rdiv_le hm _)⟩
    · rw [abs_mul, abs_of_nonneg hi, mul_comm]
      exact mul_le_mul_of_nonneg_left hq hi
    · have hcap := mul_le_mul_of_nonneg_left (abs_clampSym_le_abs (x := rdiv (d * i) (magnitude d q)) hc) hm.le
      have hround := two_mul_abs_rdiv_le hm (d * i)
      dsimp only
      omega

end

/-- Settles O22: each mode by the bounds of its clamps, and CIRCULAR beyond the circle by the error of its roundings. -/
theorem limiterStaysWithinLimit : Obligations.LimiterStaysWithinLimit := by
  intro i c d q hi0 hi hc hci
  obtain ⟨hd1, hcircle1⟩ := limiter_dPrio (d := d) (q := q) hi hc hci
  obtain ⟨hd2, hq2, hcircle2⟩ := limiter_qPrio (d := d) (q := q) hi hc hci
  refine ⟨⟨(abs_le.mp hd1).1, (abs_le.mp hd1).2, hcircle1⟩,
    ⟨(abs_le.mp hd2).1, (abs_le.mp hd2).2, (abs_le.mp hq2).1, (abs_le.mp hq2).2, hcircle2⟩,
    abs_le.mp (limiter_circular_fst hc), fun hin hlo hhi => ?_, fun hout => ?_, fun hd hd' hq hq' => ?_⟩
  · rw [limiter_circular_inside hin, clampSym_of_mem ⟨hlo, hhi⟩]
  · rw [limiter_circular_beyond hout, clampSym_eq_max_min hc]
  · obtain ⟨hq0, hcircle0⟩ := limiter_circular (i := i) hi0 hc (sq_add_sq_lt_of_32_bits ⟨hd, hd'⟩ ⟨hq, hq'⟩)
    exact ⟨(abs_le.mp hq0).1, (abs_le.mp hq0).2, hcircle0⟩

end Sys2Proof.Machine
end

section
/-! PROOFS. What supervision does when a time is up: the sub-state and the ramp (R146–R152), and a trip that is noted with
its event (R153, R159, R161). -/

namespace Sys2Proof.Machine

open Host

section
variable {d : Dev}

/-! ### The sub-state and the recovery ramp -/

theorem Dev.subEvent_sup (old new : Sub) (d : Dev) : (d.subEvent old new).sup = d.sup :=
  (Dev.irq_sup ..).trans (Dev.event_sup ..)

/-- A sub-state that is set stands in supervision; its entry may be counted, and shown later (R147–R149). -/
theorem Dev.setSub_sup (new : Sub) (d : Dev) : ∃ late cnt,
    (d.setSub new).sup = { d.sup with sub := new, late := late, frtCnt := cnt } := by
  unfold Dev.setSub
  extract_lets old d1
  split
  · next h => exact ⟨_, _, by rw [h]⟩
  · split
    · exact ⟨_, _, Dev.subEvent_sup ..⟩
    · exact ⟨_, _, rfl⟩

theorem Dev.setSub_sub (new : Sub) (d : Dev) : (d.setSub new).sup.sub = new := by
  obtain ⟨late, cnt, h⟩ := d.setSub_sup new
  rw [h]

theorem Dev.setSub_ramp (new : Sub) (d : Dev) : (d.setSub new).sup.ramp = d.sup.ramp := by
  obtain ⟨late, cnt, h⟩ := d.setSub_sup new
  rw [h]

theorem Dev.startRamp_ramp (i : Int) (d : Dev) : (d.startRamp i).sup.ramp =
    if ((d.sigI 111).natAbs : Int) < i then
      some { irec := (d.sigI 111).natAbs, rate := d.fld Reg.SUP_FRT_T 31 16 } else none := rfl

theorem Dev.frtClearedRow_of (hm : d.sup.evalMode = .forming) (hs : isFrt d.sup.sub = true)
    (ht : heldFor d.sup.clearStart d.sup.evalTick d.tFrtClr = true) :
    d.frtClearedRow = (d.startRamp (d.sigI 113)).setSub (if d.sup.limAct then .limit else .recover) :=
  if_pos ⟨hm, hs, ht⟩

theorem Dev.limitExitRow_of (h : d.sup.limitHold = true ∨ (d.sup.evalMode = .forming ∧ d.sup.sub = .limit))
    (ht : heldFor d.sup.exitStart d.sup.evalTick d.tLimExit = true) : d.limitExitRow = d.limExit :=
  if_pos ⟨ht, h⟩

/-- The exit from LIMIT (R147). -/
theorem Dev.limitExitRow_forming (hm : d.sup.evalMode = .forming) (hs : d.sup.sub = .limit)
    (ht : heldFor d.sup.exitStart d.sup.evalTick d.tLimExit = true) : d.limitExitRow =
    (d.setSub (if d.sup.ramp.isSome then .recover else .normal)).onSup fun s => { s with limitHold := false } := by
  rw [Dev.limitExitRow_of (.inr ⟨hm, hs⟩) ht, Dev.limExit, if_pos ⟨hm, hs⟩]

/-- The exit in a mode that has no sub-states (R146). -/
theorem Dev.limitExitRow_other (hm : d.sup.evalMode ≠ .forming) (hh : d.sup.limitHold = true)
    (ht : heldFor d.sup.exitStart d.sup.evalTick d.tLimExit = true) :
    d.limitExitRow = d.onSup fun s => { s with limitHold := false } := by
  rw [Dev.limitExitRow_of (.inl hh) ht, Dev.limExit, if_neg fun h => hm h.1]

/-! ### A trip that is noted with its event -/

/-- Supervision notes why it trips, reports it, and leaves a TRIP_SOFT for the stroke after stroke `sn` (R162). -/
def Dev.noteTrip (f : SupState → SupState) (bit inst cause : Nat) (sn : W32) (d : Dev) : Dev :=
  ((d.onSup f).event 9 bit inst 0 0).tripAfter sn .soft cause []

section
variable (f : SupState → SupState) (bit inst cause : Nat) (sn : W32) (d : Dev)

theorem Dev.noteTrip_sup : (d.noteTrip f bit inst cause sn).sup = { f d.sup with
    delayed := (f d.sup).delayed ++ [{ cause := cause, cls := .soft, details := [], sn := sn + 1 }] } :=
  congrArg (fun s : SupState => { s with delayed := s.delayed ++ [DelayedTrip.mk cause .soft [] (sn + 1)] })
    (Dev.event_sup ..)

theorem Dev.noteTrip_stands : (d.noteTrip f bit inst cause sn).stands Reg.SUP_EVENT (BitVec.ofNat 32 (2 ^ bit)) :=
  (Dev.touches_tripAfter ..).grows _ _ (Dev.event_stands 9 bit ..)

theorem Dev.touches_noteTrip : Dev.Touches [.sup, .events, .reports] d (d.noteTrip f bit inst cause sn) :=
  .mono (((d.touches_onSup f).andThen (Dev.touches_event ..)).andThen (Dev.touches_tripAfter ..)) (by decide)

/-- Of a cause that an evaluation detects, the stroke is the evaluated one. -/
theorem Dev.noteTrip_evalSn : d.noteTrip f bit inst cause (f d.sup).evalSn =
    ((d.onSup f).event 9 bit inst 0 0).tripEval .soft cause [] := by
  rw [Dev.tripEval, Dev.event_sup]
  rfl

/-- Of a cause that no evaluation detects, the stroke is the last one sampled. -/
theorem Dev.noteTrip_lastSn : d.noteTrip f bit inst cause d.lastSn =
    ((d.onSup f).event 9 bit inst 0 0).tripNextStroke .soft cause [] := by
  have hsn : ((d.onSup f).event 9 bit inst 0 0).lastSn = d.lastSn := by
    unfold Dev.lastSn
    rw [Dev.event_ang]
    rfl
  rw [Dev.tripNextStroke, hsn]
  rfl

end

/-- A row whose effect is to note a trip. -/
theorem answers_noteTrip {i : Instr} {s : State} {g : Dev → Dev} (hi : exec i s = .next (s.run g))
    {f : SupState → SupState} {bit inst cause : Nat} {sn : W32} (hg : g s.fresh = s.fresh.noteTrip f bit inst cause sn) :
    Answers i s fun t => t.dev.sup = { f s.dev.sup with
        delayed := (f s.dev.sup).delayed ++ [{ cause := cause, cls := .soft, details := [], sn := sn + 1 }] } ∧
      t.dev.stands Reg.SUP_EVENT (BitVec.ofNat 32 (2 ^ bit)) ∧ ChangesOnly [.sup, .events, .reports] s t :=
  ⟨_, exec_of_effect hi hg, Dev.noteTrip_sup f bit inst cause sn s.fresh, Dev.noteTrip_stands f bit inst cause sn s.fresh,
    .of_after (Dev.touches_noteTrip ..).keeps⟩

theorem Dev.frtTmaxRow_of (ht : tooLong d.sup.frtStart d.sup.evalTick (d.fld Reg.SUP_TMAX 31 16) = true)
    (hf : d.sup.frtFired = false) :
    d.frtTmaxRow = d.noteTrip (fun s => { s with frtFired := true }) 12 0 11 d.sup.evalSn :=
  (if_pos (by rw [ht, hf]; rfl)).trans (Dev.noteTrip_evalSn ..).symm

theorem Dev.frtTmaxRow_idle (h : d.sup.frtStart = none) : d.frtTmaxRow = d :=
  if_neg (by rw [h]; exact Bool.false_ne_true)

theorem Dev.limTmaxRow_of (ht : tooLong d.sup.limStart d.sup.evalTick (d.fld Reg.SUP_TMAX 15 0) = true)
    (hf : d.sup.limFired = false) :
    d.limTmaxRow = d.noteTrip (fun s => { s with limFired := true }) 13 0 12 d.sup.evalSn :=
  (if_pos (by rw [ht, hf]; rfl)).trans (Dev.noteTrip_evalSn ..).symm

theorem Dev.limTmaxRow_idle (h : d.sup.limStart = none) : d.limTmaxRow = d :=
  if_neg (by rw [h]; exact Bool.false_ne_true)

theorem Dev.subExpiredRow_of {c : Nat} (hs : (d.chan c).subst = true) (hst : (d.chan c).started = true)
    (he : (d.chan c).expired = false) (ht : (d.chan c).substTick + (d.chan c).tSub ≤ d.now) :
    d.subExpiredRow c = d.noteTrip (fun s => { s with
      chans := s.chans.set ChanSup.reset c { d.chan c with expired := true } }) 10 c 9 d.lastSn :=
  (if_pos (by simp [hs, hst, he, ht])).trans (Dev.noteTrip_lastSn ..).symm

theorem Dev.followTrip_of {m : Nat} (hexc : bitAt d.sup.feExc m = true) (hf : bitAt d.sup.feFired m = false)
    (ht : d.fld (Reg.SUP_FE_LIM m) 31 16 * 40000 < d.sup.evalTick - d.sup.feStart.get 0 m) :
    d.followTrip m = d.noteTrip (fun s => { s with feFired := s.feFired + 2 ^ m }) 11 m 10 d.sup.evalSn :=
  (if_pos (by simp [hexc, hf, ht])).trans (Dev.noteTrip_evalSn ..).symm

theorem Dev.followTrip_idle {m : Nat} (h : bitAt d.sup.feExc m = false) : d.followTrip m = d :=
  if_neg (by simp [h])

end

/-! ### The rows of the timed conditions -/

/-- Settles O20: each row by its effect, the exits through the sub-state that they set and the limits through the trip that
they note. -/
theorem timedConditionsOfSupervision : Obligations.TimedConditionsOfSupervision := by
  refine ⟨fun s hm hs ht => ?_, fun s hm hs ht => ?_, fun s hm hh ht => ?_,
    fun s ht hf => answers_noteTrip rfl (Dev.frtTmaxRow_of (d := s.fresh) ht hf),
    fun s ht hf => answers_noteTrip rfl (Dev.limTmaxRow_of (d := s.fresh) ht hf), fun c s hs hst he ht => ?_,
    fun s h => exec_of_effect rfl (Dev.frtTmaxRow_idle (d := s.fresh) h),
    fun s h => exec_of_effect rfl (Dev.limTmaxRow_idle (d := s.fresh) h)⟩
  · exact ⟨_, exec_of_effect rfl (Dev.frtClearedRow_of (d := s.fresh) hm hs ht), Dev.setSub_sub _ (s.fresh.startRamp _),
      (Dev.setSub_ramp ..).trans (Dev.startRamp_ramp (s.fresh.sigI 113) s.fresh),
      .of_after (((Dev.touches_startRamp ..).andThen (Dev.touches_setSub ..)).mono (by decide)).keeps⟩
  · exact ⟨_, exec_of_effect rfl (Dev.limitExitRow_forming (d := s.fresh) hm hs ht), Dev.setSub_sub _ s.fresh, rfl,
      .of_after (((Dev.touches_setSub ..).andThen (Dev.touches_onSup ..)).mono (by decide)).keeps⟩
  · exact ⟨_, exec_of_effect rfl (Dev.limitExitRow_other (d := s.fresh) hm hh ht), rfl,
      (Dev.keeps_onSup ..).quietly rfl⟩
  · obtain ⟨t, hexec, hsup, hevent, hkeeps⟩ := answers_noteTrip (i := .subExpired c) rfl
      (Dev.subExpiredRow_of (d := s.fresh) hs hst he ht)
    refine ⟨t, hexec, ?_, congrArg SupState.delayed hsup, hevent, hkeeps⟩
    rw [Dev.chan, hsup]
    exact SMap.get_set_self ..

end Sys2Proof.Machine
end

section
/-! PROOFS. The block signal on every string (R189, R257), the end of a soft ramp (R164) and a following error (R161). -/

namespace Sys2Proof.Machine

open Host

/-- What every step of a loop leaves, the loop leaves. -/
theorem Dev.foldl_same {α β : Type} {part : Dev → β} {f : Dev → α → Dev} (hf : ∀ d x, part (f d x) = part d)
    (l : List α) (d : Dev) : part (l.foldl f d) = part d := by
  induction l generalizing d with
  | nil => rfl
  | cons x rest ih => exact (ih _).trans (hf d x)

section
variable (d : Dev)

/-! ### Ordered sets and held pairs: what is none of theirs -/

theorem Dev.insertSets_strings (l t : Nat) (cs : List LineChar) : (d.insertSets l t cs).pen.strings = d.pen.strings := by
  unfold Dev.insertSets
  split <;> rfl

theorem Dev.insertSets_host (l t : Nat) (cs : List LineChar) : (d.insertSets l t cs).host = d.host := by
  unfold Dev.insertSets
  split <;> rfl

theorem Dev.insertCopies_strings (s : OrderedSet) (l : Nat) : (d.insertCopies s l).pen.strings = d.pen.strings := by
  unfold Dev.insertCopies
  extract_lets busy d1
  have h1 : d1.pen.strings = d.pen.strings := d.insertSets_strings ..
  split
  · exact h1
  · exact h1

theorem Dev.insertCopies_host (s : OrderedSet) (l : Nat) : (d.insertCopies s l).host = d.host := by
  unfold Dev.insertCopies
  extract_lets busy d1
  have h1 : d1.host = d.host := d.insertSets_host ..
  split
  · exact h1
  · exact h1

theorem Dev.holdPairs_host : d.holdPairs.host = d.host := by
  refine Dev.foldl_same (part := Dev.host) (fun d p => ?_) _ d
  split <;> rfl

/-! ### The block signal (R257) -/

theorem Dev.blockString_strings (n : Nat) : (d.blockString n).pen.strings =
    d.pen.strings.set PenString.reset n { d.str n with block := true } :=
  Dev.foldl_same (part := fun d => d.pen.strings) (fun d l => d.insertCopies_strings _ l) _ _

theorem Dev.blockString_host (n : Nat) : (d.blockString n).host = d.host :=
  Dev.foldl_same (part := Dev.host) (fun d l => d.insertCopies_host _ l) _ _

theorem Dev.blockString_block_self (n : Nat) : ((d.blockString n).str n).block = true := by
  rw [Dev.str, Dev.blockString_strings, SMap.get_set_self]

/-- The signal on one string takes back none that is on another. -/
theorem Dev.blockString_block {k : Nat} (n : Nat) (h : (d.str k).block = true) : ((d.blockString n).str k).block = true := by
  by_cases hk : n = k
  · exact hk ▸ d.blockString_block_self n
  · rw [Dev.str, Dev.blockString_strings, SMap.get_set_of_ne _ _ _ hk]
    exact h

theorem Dev.foldl_blockString_block {k : Nat} (l : List Nat) (h : k ∈ l ∨ (d.str k).block = true) :
    ((l.foldl Dev.blockString d).str k).block = true := by
  induction l generalizing d with
  | nil => simpa using h
  | cons n rest ih =>
    refine ih _ ?_
    obtain hmem | hblock := h
    · obtain rfl | hrest := List.mem_cons.mp hmem
      · exact .inr (d.blockString_block_self k)
      · exact .inl hrest
    · exact .inr (d.blockString_block n hblock)

/-! ### Every submodule is commanded to BLOCK (R189) -/

/-- Supervision as a command to BLOCK leaves it. -/
theorem Dev.blockAll_sup : ∃ tick, d.blockAll.sup = { d.sup with blocked := true, blockBy := tick } := by
  have h (e : Dev) : e.blockStrings.holdPairs.sup = e.sup :=
    (((Dev.touches_blockStrings e).andThen (Dev.touches_holdPairs _)).same .sup (by decide)).symm
  exact ⟨_, h _⟩

theorem Dev.blockAll_block {n : Nat} (h : n ∈ d.strings) : (d.blockAll.str n).block = true := by
  unfold Dev.blockAll
  extract_lets tick
  have hstr (e : Dev) : e.holdPairs.str n = e.str n :=
    congrArg (fun p : PenState => p.strings.get PenString.reset n) ((Dev.touches_holdPairs e).same .pen (by decide)).symm
  rw [hstr]
  exact Dev.foldl_blockString_block _ d.strings (.inl h)

theorem Dev.blockAll_host : d.blockAll.host = d.host :=
  (Dev.holdPairs_host _).trans (Dev.foldl_same (part := Dev.host) Dev.blockString_host _ _)

end

@[simp] theorem State.after_str (s : State) (d : Dev) (n : Nat) : (s.after d).dev.str n = d.str n := rfl

/-! ### The rows -/

/-- The end of the ramp, noted (R164). -/
def Dev.rampEnded (d : Dev) : Dev := d.onSup fun s => { s with softEnd := true }

theorem Dev.softRampEnd_of {d : Dev} {r : SoftRamp} {t0 : Nat} (hr : d.sup.soft = some r) (hs : r.start = some t0)
    (he : d.sup.softEnd = false) (ht : t0 + r.tSoft ≤ d.now) :
    d.softRampEnd = d.rampEnded.blockAll := by
  unfold Dev.softRampEnd
  rw [hr]
  dsimp only
  rw [hs]
  exact if_pos (by simp [he, ht])

theorem Dev.softRampEnd_idle {d : Dev} (h : d.sup.soft = none) : d.softRampEnd = d := by
  unfold Dev.softRampEnd
  rw [h]

/-- Settles O21: the following error notes its trip, and the end of the ramp commands BLOCK. -/
theorem followingErrorAndSoftRampEnd : Obligations.FollowingErrorAndSoftRampEnd := by
  refine ⟨fun m s hexc hf ht => answers_noteTrip rfl (Dev.followTrip_of (d := s.fresh) hexc hf ht),
    fun m s h => exec_of_effect rfl (Dev.followTrip_idle (d := s.fresh) h), fun s r t0 hr hs he ht => ?_,
    fun s h => exec_of_effect rfl (Dev.softRampEnd_idle (d := s.fresh) h)⟩
  obtain ⟨tick, hblock⟩ := s.fresh.rampEnded.blockAll_sup
  have hsup := (State.after_sup s _).trans hblock
  have hstr (n : Nat) (hn : n ∈ s.fresh.rampEnded.strings) := (congrArg PenString.block (State.after_str s _ n)).trans
    (s.fresh.rampEnded.blockAll_block hn)
  have htouch : Dev.Touches [.sup, .pen, .pwm] s.fresh s.fresh.rampEnded.blockAll :=
    ((s.fresh.touches_onSup _).andThen s.fresh.rampEnded.touches_blockAll).mono (by decide)
  exact ⟨_, exec_of_effect rfl (Dev.softRampEnd_of (d := s.fresh) hr hs he ht), congrArg SupState.softEnd hsup,
    congrArg SupState.blocked hsup, (congrArg SupState.soft hsup :), hstr,
    htouch.keeps.quietly (congrArg HostState.out s.fresh.rampEnded.blockAll_host)⟩

end Sys2Proof.Machine
end

section
/-! PROOFS. A trip that takes effect (R163–R167): the record of its causes, the order to the profile channels and the event
are written first, and its action leaves them. -/

namespace Sys2Proof.Machine

open Host

/-- The record of the trip in progress stays: causes, class, count of trips and date. -/
structure SameTrip (a b : SupState) : Prop where
  first : b.causeFirst = a.causeFirst
  last : b.causeLast = a.causeLast
  count : b.causeCount = a.causeCount
  cls : b.causeClass = a.causeClass
  trips : b.tripCount = a.tripCount
  date : b.tripTick = a.tripTick

theorem SameTrip.of_eq {a b : SupState} (h : b = a) : SameTrip a b := h ▸ ⟨rfl, rfl, rfl, rfl, rfl, rfl⟩

section
variable (cls : TripClass) (cause : Nat) (details : List Nat) (active : Nat) (d : Dev)

/-! ### The actions (R163, R164) -/

theorem Dev.hardAction_sup : ∃ tick, d.hardAction.sup = { d.sup with
    soft := none, softEnd := false, ramp := none, hardHold := true, blocked := true, blockBy := tick } :=
  Dev.blockAll_sup _

theorem Dev.hardAction_sameTrip : SameTrip d.sup d.hardAction.sup := by
  obtain ⟨tick, h⟩ := d.hardAction_sup
  rw [h]
  exact ⟨rfl, rfl, rfl, rfl, rfl, rfl⟩

theorem Dev.hardAction_blocked : d.hardAction.sup.soft = none ∧ d.hardAction.sup.blocked = true := by
  obtain ⟨tick, h⟩ := d.hardAction_sup
  rw [h]
  exact ⟨rfl, rfl⟩

theorem Dev.hardAction_block {n : Nat} (h : n ∈ d.strings) : (d.hardAction.str n).block = true := Dev.blockAll_block _ h

theorem Dev.softAction_soft : (d.softAction cause).sup.soft =
    some { cause := cause, effTick := d.now, d0 := d.sigI 111, q0 := d.sigI 112, start := none,
           tSoft := d.fld Reg.SUP_SUB 23 16 * 40000 } := rfl

/-- What a trip does once it is recorded: at once outside angle strokes, and by its action in one (R163–R165). -/
def Dev.tripStage (d : Dev) : Dev :=
  if !d.ang.cur.angle then
    (if cls = .hard then (d.onSup fun s => { s with ramp := none, hardHold := true }).holdPairs else d).commitTrip
      false d.ang.cur.sn.toNat
  else if cls = .hard then d.hardAction else d.softAction cause

theorem Dev.touches_tripStage : Dev.Touches [.sup, .pwm, .pen, .lrd] d (d.tripStage cls cause) := by
  have hheld : Dev.Touches _ d (d.onSup fun s => { s with ramp := none, hardHold := true }).holdPairs :=
    (Dev.touches_onSup ..).andThen (Dev.touches_holdPairs _)
  exact .mono (.ite (.andThen (.ite hheld .refl) (Dev.touches_commitTrip ..))
    (.ite (Dev.touches_hardAction _) (Dev.touches_softAction ..))) (by decide)

theorem Dev.tripStage_sameTrip : SameTrip d.sup (d.tripStage cls cause).sup := by
  have hcommit (e : Dev) (sn : Nat) : (e.commitTrip false sn).sup = e.sup :=
    ((e.touches_commitTrip false sn).same .sup (by decide)).symm
  have hhold (e : Dev) : e.holdPairs.sup = e.sup := ((Dev.touches_holdPairs e).same .sup (by decide)).symm
  unfold Dev.tripStage
  split
  · rw [hcommit]
    split
    · rw [hhold]
      exact ⟨rfl, rfl, rfl, rfl, rfl, rfl⟩
    · exact .of_eq rfl
  · split
    · exact d.hardAction_sameTrip
    · exact ⟨rfl, rfl, rfl, rfl, rfl, rfl⟩

theorem Dev.tripStage_hard (h : d.ang.cur.angle = true) : d.tripStage .hard cause = d.hardAction := by
  simp [Dev.tripStage, h]

theorem Dev.tripStage_soft (h : d.ang.cur.angle = true) : d.tripStage .soft cause = d.softAction cause := by
  simp [Dev.tripStage, h]

/-! ### The event of a trip -/

/-- A trip is shown: its event, its interrupt, and the capture sets that it triggers (R166, R324). -/
def Dev.tripShown (d : Dev) : Dev := ((d.event 9 14 cause (classCode cls) 0).irq 28).acqTrip

theorem Dev.touches_tripShown : Dev.Touches [.acq, .events, .reports] d (d.tripShown cls cause) :=
  .mono (((Dev.touches_event ..).andThen (Dev.touches_irq ..)).andThen (Dev.touches_acqTrip _)) (by decide)

theorem Dev.tripShown_stands : (d.tripShown cls cause).stands Reg.SUP_EVENT 0x4000 :=
  ((Dev.touches_irq ..).andThen (Dev.touches_acqTrip _)).grows _ _ (Dev.event_stands 9 14 ..)

/-! ### The first trip (R165, R166) -/

/-- The trip is recorded and ordered. -/
def Dev.tripRecorded (d : Dev) : Dev :=
  ((d.onSup fun s => { s with
    causeFirst := cause, causeLast := cause, causeCount := 1, causeClass := classCode cls, tripCount := satInc s.tripCount,
    tripTick := some d.now, tripCause := causeOfTrip cause, acting := d.ang.cur.angle }).onProf fun p =>
    { p with tripHalt := true }).onGfm fun g => { g with bkrClose := false, pulseEnd := none }

/-- It is shown, logged, and told to the partner. -/
def Dev.tripReported (d : Dev) : Dev :=
  ((d.tripShown cls cause).openTrip cls cause details active).sendTrip cls cause

theorem Dev.tripNew_eq : d.tripNew cls cause details =
    ((d.tripRecorded cls cause).tripReported cls cause details d.tripActive).tripStage cls cause := rfl

theorem Dev.touches_tripReported :
    Dev.Touches [.acq, .twn, .lrd, .events, .reports] d (d.tripReported cls cause details active) :=
  .mono (((Dev.touches_tripShown ..).andThen (Dev.touches_openTrip ..)).andThen (Dev.touches_sendTrip ..)) (by decide)

theorem Dev.tripReported_stands : (d.tripReported cls cause details active).stands Reg.SUP_EVENT 0x4000 :=
  ((Dev.touches_openTrip ..).andThen (Dev.touches_sendTrip ..)).grows _ _ (d.tripShown_stands cls cause)

/-- What is left of the record and the orders once the trip's action has begun. -/
theorem Dev.tripNew_records : SameTrip (d.tripRecorded cls cause).sup (d.tripNew cls cause details).sup ∧
    (d.tripNew cls cause details).prof = (d.tripRecorded cls cause).prof ∧
    (d.tripNew cls cause details).gfm = (d.tripRecorded cls cause).gfm := by
  rw [Dev.tripNew_eq]
  have hrep := (d.tripRecorded cls cause).touches_tripReported cls cause details d.tripActive
  have hall := hrep.andThen (Dev.touches_tripStage cls cause _)
  have hsup : (d.tripRecorded cls cause).sup = _ := hrep.same .sup (by decide)
  rw [hsup]
  exact ⟨Dev.tripStage_sameTrip .., (hall.same .prof (by decide)).symm, (hall.same .gfm (by decide)).symm⟩

theorem Dev.tripNew_stands : (d.tripNew cls cause details).stands Reg.SUP_EVENT 0x4000 :=
  (Dev.touches_tripStage ..).grows _ _ (Dev.tripReported_stands ..)

/-- The device at the start of a trip's action reads as it did before the trip. -/
theorem Dev.tripReported_reads {e : Dev} (he : e = (d.tripRecorded cls cause).tripReported cls cause details active) :
    e.ang = d.ang ∧ e.loop = d.loop ∧ ∀ off, e.cfg off = d.cfg off := by
  have h := (d.tripRecorded cls cause).touches_tripReported cls cause details active
  rw [← he] at h
  exact ⟨(h.same .ang (by decide)).symm, (h.same .loop (by decide)).symm, fun off => h.cfg off (by decide)⟩

theorem Dev.strings_of_cfg {a d : Dev} (h : ∀ off, d.cfg off = a.cfg off) : d.strings = a.strings := by
  have hen : d.strEn = a.strEn := funext fun n => congrArg (bitAt · 31) (h (Reg.MOD_STR n))
  rw [Dev.strings, hen, Dev.strings]

/-- In an angle stroke TRIP_HARD blocks (R163). -/
theorem Dev.tripNew_hard (h : d.ang.cur.angle = true) : (d.tripNew .hard cause details).sup.blocked = true ∧
    ∀ n ∈ d.strings, ((d.tripNew .hard cause details).str n).block = true := by
  obtain ⟨e, he⟩ := exists_eq (a' := (d.tripRecorded .hard cause).tripReported .hard cause details d.tripActive)
  obtain ⟨hang, -, hcfg⟩ := d.tripReported_reads .hard cause details d.tripActive he
  rw [Dev.tripNew_eq, ← he, Dev.tripStage_hard cause e (hang ▸ h), ← Dev.strings_of_cfg hcfg]
  exact ⟨e.hardAction_blocked.2, fun n hn => e.hardAction_block hn⟩

/-- In an angle stroke TRIP_SOFT begins its ramp at the references in force (R164). -/
theorem Dev.tripNew_soft (h : d.ang.cur.angle = true) : (d.tripNew .soft cause details).sup.soft =
    some { cause := cause, effTick := d.now, d0 := d.sigI 111, q0 := d.sigI 112, start := none,
           tSoft := d.fld Reg.SUP_SUB 23 16 * 40000 } := by
  obtain ⟨e, he⟩ := exists_eq (a' := (d.tripRecorded .soft cause).tripReported .soft cause details d.tripActive)
  obtain ⟨hang, hloop, hcfg⟩ := d.tripReported_reads .soft cause details d.tripActive he
  have hnow : e.now = d.now := congrArg AngState.tick hang
  have hsig (n : Nat) : e.sigI n = d.sigI n := congrArg (fun l : LoopState => (l.sig.get 0 n).toInt) hloop
  have hfld : e.fld Reg.SUP_SUB 23 16 = d.fld Reg.SUP_SUB 23 16 := congrArg (bits · 23 16) (hcfg _)
  rw [Dev.tripNew_eq, ← he, Dev.tripStage_soft cause e (hang ▸ h), Dev.softAction_soft, hnow, hsig, hsig, hfld]

/-! ### A further trip (R25, R167) -/

/-- TRIP_HARD cuts short the ramp of a TRIP_SOFT that runs (R25). -/
def Dev.rampCut (d : Dev) : Dev :=
  if cls = .hard ∧ d.sup.soft.isSome = true ∧ d.sup.softEnd = false then d.hardAction else d

theorem Dev.touches_rampCut : Dev.Touches [.sup, .pen, .pwm] d (d.rampCut cls) :=
  .mono (.ite (Dev.touches_hardAction _) .refl) (by decide)

theorem Dev.rampCut_hard (hsoft : d.sup.soft.isSome = true) (hend : d.sup.softEnd = false) :
    d.rampCut .hard = d.hardAction := if_pos ⟨rfl, hsoft, hend⟩

theorem Dev.rampCut_sameTrip : SameTrip d.sup (d.rampCut cls).sup := by
  unfold Dev.rampCut
  split
  · exact d.hardAction_sameTrip
  · exact .of_eq rfl

/-- The further cause joins the record of the first, and the profile channels are ordered to halt. -/
def Dev.causeJoined (d : Dev) : Dev :=
  ((d.sendTrip cls d.sup.causeFirst).onSup fun s => { s with
    causeLast := cause, tripCount := satInc s.tripCount,
    causeCount := if s.causeCount < 255 then s.causeCount + 1 else 255 }).onProf fun p => { p with tripHalt := true }

theorem Dev.causeJoined_sup : (d.causeJoined cls cause).sup = { d.sup with
    causeLast := cause, tripCount := satInc d.sup.tripCount,
    causeCount := if d.sup.causeCount < 255 then d.sup.causeCount + 1 else 255 } := by
  have hsend : (d.sendTrip cls d.sup.causeFirst).sup = d.sup := ((Dev.touches_sendTrip ..).same .sup (by decide)).symm
  rw [Dev.causeJoined, Dev.onProf_sup, Dev.onSup_sup, hsend]

theorem Dev.tripAlso_eq : d.tripAlso cls cause = ((d.causeJoined cls cause).tripShown cls cause).addCause cls cause := rfl

theorem Dev.tripAlso_stands : (d.tripAlso cls cause).stands Reg.SUP_EVENT 0x4000 :=
  (Dev.touches_addCause ..).grows _ _ (Dev.tripShown_stands cls cause (d.causeJoined cls cause))

/-- What a further trip leaves in supervision, and the orders and the mode after it. -/
theorem Dev.tripAlso_records : (d.tripAlso cls cause).sup = (d.causeJoined cls cause).sup ∧
    (d.tripAlso cls cause).prof.tripHalt = true ∧ (d.tripAlso cls cause).gfm = d.gfm := by
  rw [Dev.tripAlso_eq]
  have h := ((d.causeJoined cls cause).touches_tripShown cls cause).andThen (Dev.touches_addCause _ cls cause)
  have hjoined : Dev.Touches _ d (d.causeJoined cls cause) :=
    ((Dev.touches_sendTrip ..).andThen (Dev.touches_onSup ..)).andThen (Dev.touches_onProf ..)
  exact ⟨(h.same .sup (by decide)).symm, (congrArg ProfState.tripHalt (h.same .prof (by decide)).symm :),
    ((hjoined.andThen h).same .gfm (by decide)).symm⟩

theorem Dev.tripFurther_eq : d.tripFurther cls cause = (d.rampCut cls).tripAlso cls cause := rfl

theorem Dev.tripFurther_sup : (d.tripFurther cls cause).sup = { (d.rampCut cls).sup with
    causeLast := cause, tripCount := satInc d.sup.tripCount,
    causeCount := if d.sup.causeCount < 255 then d.sup.causeCount + 1 else 255 } := by
  have hsame := d.rampCut_sameTrip cls
  rw [Dev.tripFurther_eq, (Dev.tripAlso_records ..).1, Dev.causeJoined_sup, hsame.trips, hsame.count]

theorem Dev.tripFurther_orders :
    (d.tripFurther cls cause).prof.tripHalt = true ∧ (d.tripFurther cls cause).gfm = d.gfm := by
  obtain ⟨-, hhalt, hgfm⟩ := (d.rampCut cls).tripAlso_records cls cause
  exact ⟨hhalt, hgfm.trans ((d.touches_rampCut cls).same .gfm (by decide)).symm⟩

end

/-! ### Which of them a trip is -/

section
variable {d : Dev} {cls : TripClass} (hc : d.controls = true) (hcls : cls ≠ .report) (cause : Nat) (details : List Nat)
include hc hcls

theorem Dev.takeEffect_new (ht : d.tripping = false) : d.takeEffect cls cause details = d.tripNew cls cause details := by
  simp [Dev.takeEffect, hcls, hc, ht]

theorem Dev.takeEffect_further (ht : d.tripping = true) : d.takeEffect cls cause details = d.tripFurther cls cause := by
  simp [Dev.takeEffect, hcls, hc, ht]

end

/-- Settles O38: the first trip is recorded before its action begins, and a further one joins the record. -/
theorem tripTakesEffectOnce : Obligations.TripTakesEffectOnce := by
  refine ⟨fun d cls cause details hc ht hcls => ?_, fun d cls cause details hc ht hcls => ?_⟩
  · rw [Dev.takeEffect_new hc hcls cause details ht]
    obtain ⟨hrec, hprof, hgfm⟩ := d.tripNew_records cls cause details
    rw [hprof, hgfm]
    refine ⟨hrec.first, hrec.last, hrec.count, hrec.cls, hrec.trips, hrec.date, rfl, rfl, rfl, d.tripNew_stands .., ?_,
      ?_⟩
    · rintro hang rfl
      exact d.tripNew_hard cause details hang
    · rintro hang rfl
      exact d.tripNew_soft cause details hang
  · rw [Dev.takeEffect_further hc hcls cause details ht]
    have hsame := d.rampCut_sameTrip cls
    obtain ⟨hhalt, hgfm⟩ := d.tripFurther_orders cls cause
    rw [Dev.tripFurther_sup, hgfm]
    refine ⟨rfl, hsame.first, rfl, rfl, hsame.date, hhalt, rfl, Dev.tripAlso_stands .., ?_⟩
    rintro rfl hsoft hend
    rw [Dev.rampCut_hard d hsoft hend]
    simpa only using d.hardAction_blocked

end Sys2Proof.Machine
end

section
/-! PROOFS. The count rule (R173): what it counts, and what it carries. -/

namespace Sys2Proof.Machine

/-- What a count says of the number N of submodules to insert, in Q7.24 (R173). -/
structure Count.Accounts (k : Count) (nAvail : Nat) (N : Int) (tf tmp : Nat) : Prop where
  sat : k.sat = true → k.carry = 0 ∧ k.frac = 0
  n : k.n ≤ nAvail
  sum : k.sat = false → polSign k.neg * (k.n * one24 + k.frac) + k.carry = if k.negClamp then 0 else N
  pulse : k.frac ≠ 0 → (tmp : Int) ≤ rdiv (k.frac * tf) one24 ∧ (tmp : Int) ≤ tf - rdiv (k.frac * tf) one24

theorem polSign_mul_natAbs (x : Int) : polSign (decide (x < 0)) * x.natAbs = x := by
  by_cases h : x < 0
  · simp only [h, decide_true, polSign, if_true]
    omega
  · simp only [h, decide_false, polSign, Bool.false_eq_true, if_false]
    omega

/-- Below saturation the whole part of |N| is counted, and its fraction is a pulse or carried: the pulse that would be too
short, or the gap that would be too short after one submodule more. -/
theorem countRule_accounts (half : Bool) (nAvail : Nat) (vmod v c : Int) (tf tmp : Nat) :
    (countRule half nAvail vmod v c tf tmp).Accounts nAvail (sat 32 (sat 32 (rdiv (v * one24) vmod) + c)) tf tmp := by
  have hno : ¬ true = false := by decide
  unfold countRule
  split
  · exact ⟨fun _ => ⟨rfl, rfl⟩, Nat.zero_le _, fun h => absurd h hno, fun h => absurd rfl h⟩
  · extract_lets n0 clamp n1 neg a n f w
    have hsum : polSign neg * a = n1 := polSign_mul_natAbs n1
    have hparts : (n : Int) * one24 + f = a := by
      have hn : (n : Int) = a / one24 := Int.toNat_of_nonneg (Int.ediv_nonneg (Int.natCast_nonneg _) (by decide))
      rw [hn]
      exact Int.ediv_mul_add_emod a one24
    rw [← hparts] at hsum
    split
    · exact ⟨fun _ => ⟨rfl, rfl⟩, le_rfl, fun h => absurd h hno, fun h => absurd rfl h⟩
    · next hlt =>
      have hn : n < nAvail := by
        have hf : 0 ≤ f := Int.emod_nonneg a (by decide)
        have hmul : (n : Int) * one24 < nAvail * one24 := by omega
        exact_mod_cast lt_of_mul_lt_mul_right hmul (by decide)
      split
      · next h0 =>
        exact ⟨fun h => absurd h.symm hno, hn.le, fun _ => .trans (by rw [h0]; ring) hsum, fun h => absurd rfl h⟩
      · split
        · exact ⟨fun h => absurd h.symm hno, hn.le, fun _ => .trans (by ring) hsum, fun h => absurd rfl h⟩
        · next hpulse =>
          split
          · exact ⟨fun h => absurd h.symm hno, hn, fun _ => .trans (by push_cast; ring) hsum, fun h => absurd rfl h⟩
          · next hgap =>
            exact ⟨fun h => absurd h.symm hno, hn.le, fun _ => .trans (by ring) hsum,
              fun _ => ⟨not_lt.mp hpulse, not_lt.mp hgap⟩⟩

/-- Settles O23: the cases of R173 each account for the whole of N. -/
theorem countRuleLosesNoPulse : Obligations.CountRuleLosesNoPulse := by
  intro half nAvail vmod v c tf tmp
  obtain ⟨hsat, hn, hsum, hpulse⟩ := countRule_accounts half nAvail vmod v c tf tmp
  exact ⟨hsat, hn, fun _ _ hs hc => (hsum hs).trans (if_neg (ne_true_of_eq_false hc)), hpulse⟩

end Sys2Proof.Machine
end

section
/-! PROOFS. Submodules and strings read after one of them is replaced, and a message that is issued (R268). -/

namespace Sys2Proof.Machine
open Host

section
variable (d : Dev)

@[simp] theorem Dev.setSubm_subm_self (k : Nat) (v : Subm) : (d.setSubm k v).subm k = v := SMap.get_set_self ..

theorem Dev.setSubm_subm_of_ne {k m : Nat} (v : Subm) (h : k ≠ m) : (d.setSubm k v).subm m = d.subm m :=
  SMap.get_set_of_ne _ _ _ h

@[simp] theorem Dev.setStr_str_self (n : Nat) (v : PenString) : (d.setStr n v).str n = v := SMap.get_set_self ..

theorem Dev.setStr_str_of_ne {n m : Nat} (v : PenString) (h : n ≠ m) : (d.setStr n v).str m = d.str m :=
  SMap.get_set_of_ne _ _ _ h

end

/-- A message joins those of its string, under the next tag, after what leaves the strings and the tag alone. -/
theorem Dev.issue_messages {a d : Dev} (hs : d.pen.strings = a.pen.strings) (ht : d.pen.tag = a.pen.tag)
    (n opc pos : Nat) (params : List Byte) : ((d.issue n opc pos params).str n).messages =
    (a.str n).messages ++ [{ opc := opc, pos := pos, tag := (a.pen.tag + 1) % 2 ^ 16, params := params }] := by
  have hstr : a.str n = d.str n := congrArg (·.get PenString.reset n) hs.symm
  rw [hstr, ← ht]
  exact congrArg PenString.messages (Dev.setStr_str_self ..)

@[simp] theorem State.after_subm (s : State) (d : Dev) (k : Nat) : (s.after d).dev.subm k = d.subm k := rfl

/-- A row that ends with a message issued. -/
theorem after_issue {s : State} {d : Dev} {ps : List Part} (hs : d.pen.strings = s.dev.pen.strings)
    (ht : d.pen.tag = s.dev.pen.tag) (hd : Dev.Touches ps s.fresh d) (hps : .pen ∈ ps)
    (ho : d.host.out = s.dev.host.out) (n opc pos : Nat) (params : List Byte) :
    ((s.after (d.issue n opc pos params)).dev.str n).messages = (s.dev.str n).messages ++
        [{ opc := opc, pos := pos, tag := (s.dev.pen.tag + 1) % 2 ^ 16, params := params }] ∧
      ChangesOnly ps s (s.after (d.issue n opc pos params)) ∧ Quiet s (s.after (d.issue n opc pos params)) :=
  ⟨Dev.issue_messages hs ht n opc pos params,
    (hd.andThen (Dev.touches_issue ..)).mono (fun p hp => by
      obtain h | h := List.mem_append.mp hp
      · exact h
      · exact List.mem_singleton.mp h ▸ hps) |>.keeps.quietly ho⟩

end Sys2Proof.Machine
end

section
/-! PROOFS. MOD_FAULT_CLEAR and MODULE_BYPASS with its repeats and its timeout (R176, R268–R270). -/

namespace Sys2Proof.Machine
open Host

section
variable {d : Dev} {k : Nat}

/-! ### MOD_FAULT_CLEAR (R176, R270) -/

/-- A submodule whose fault exclusion is to end: at once where it has reported no fault since. -/
def faultCleared (x : Subm) : Subm :=
  if x.faulted = true ∧ x.clean = true then
    { x with faulted := false, urgent := false, clearReq := false, clean := false }
  else { x with clearReq := x.clearReq || x.faulted }

theorem faultCleared_eq (x : Subm) : faultCleared x =
    { x with
      clearReq := (x.clearReq || x.faulted) && !(x.faulted && x.clean), faulted := x.faulted && !(x.faulted && x.clean)
      urgent := x.urgent && !(x.faulted && x.clean), clean := x.clean && !(x.faulted && x.clean) } := by
  unfold faultCleared
  split
  · next h => simp [h]
  · next h =>
    rw [← Bool.and_eq_true, Bool.not_eq_true] at h
    simp [h]

theorem Dev.modFaultClear_eq {v : W32} (hv : v.getLsbD 31 = true) (hk : d.configured (bits v.toNat 9 0) = true) :
    d.modFaultClear v = (d.setSubm (bits v.toNat 9 0) (faultCleared (d.subm (bits v.toNat 9 0)))).issue
      (bits v.toNat 9 0 / 64) 5 (bits v.toNat 9 0 % 64) [] := by
  rw [faultCleared_eq]
  exact if_pos (Bool.and_eq_true_iff.mpr ⟨hv, hk⟩)

theorem Dev.modFaultClear_of_none {v : W32} (h : v.getLsbD 31 = false ∨ d.configured (bits v.toNat 9 0) = false) :
    d.modFaultClear v = d := if_neg (ne_true_of_eq_false (Bool.and_eq_false_iff.mpr h))

/-! ### MODULE_BYPASS (R269) -/

/-- The operation that an accepted MODULE_BYPASS begins. -/
def Dev.bypassBegun (c : Cmd) (d : Dev) : BypassOp :=
  ⟨bits (c.half 20) 9 0, c.ring.val, c.slot.toNat, c.tag.toNat, d.now, d.now⟩

/-- A bypass is noted: the submodule is excluded, and the operation is in progress. -/
def Dev.bypassNoted (c : Cmd) (d : Dev) : Dev :=
  (d.setSubm (bits (c.half 20) 9 0) { d.subm (bits (c.half 20) 9 0) with bypassed := true }).onPen fun p =>
    { p with bypass := p.bypass ++ [d.bypassBegun c] }

theorem Dev.touches_bypassNoted (c : Cmd) (d : Dev) : Dev.Touches [.mod, .pen] d (d.bypassNoted c) := by
  unfold Dev.bypassNoted
  exact (Dev.touches_setSubm ..).andThen (Dev.touches_onPen ..)

section
variable {c : Cmd}

theorem Dev.moduleBypass_bad (hk : d.configured (bits (c.half 20) 9 0) = false) :
    d.moduleBypass c = d.complete c 0x40 stBadParam := by
  simp [Dev.moduleBypass, hk]

theorem Dev.moduleBypass_standby (hk : d.configured (bits (c.half 20) 9 0) = true) (hst : d.twn.st = .standby) :
    d.moduleBypass c = d.complete c 0x40 stRejected := by
  simp [Dev.moduleBypass, hk, hst]

theorem Dev.moduleBypass_eq (hk : d.configured (bits (c.half 20) 9 0) = true) (hst : d.twn.st ≠ .standby) :
    d.moduleBypass c = (d.bypassNoted c).issue (bits (c.half 20) 9 0 / 64) 4 (bits (c.half 20) 9 0 % 64) [] :=
  (if_neg (by rw [hk]; decide)).trans (if_neg hst)

theorem exec_moduleBypass {s : State} {e : Dev} (h : s.dev.admits 0x40 (inlMask [(20, 0xFF), (21, 3)]) c)
    (he : s.fresh.moduleBypass c = e) : exec (.moduleBypass c) s = .next (s.after e) :=
  he ▸ State.runCmd_admits (Dev.moduleBypass c) h

end

/-! ### BYPASS_CLOSE is repeated (R269) -/

/-- The operations of a submodule have been sent anew. -/
def Dev.bypassSent (k : Nat) (d : Dev) : Dev := d.onPen fun p =>
  { p with bypass := p.bypass.map fun o => if o.sub = k then { o with lastSent := d.now } else o }

theorem Dev.bypassRepeat_eq (hops : d.bypassOps k ≠ []) (hdue : ∀ b ∈ d.bypassOps k, b.lastSent + msTicks ≤ d.now)
    (hnone : ∀ m ∈ (d.str (k / 64)).messages, m.opc ≠ 4 ∨ m.pos ≠ k % 64) :
    d.bypassRepeat k = (d.bypassSent k).issue (k / 64) 4 (k % 64) [] := by
  unfold Dev.bypassRepeat
  extract_lets ops e
  have hdue' : ¬ (ops = [] ∨ ops.any (fun b => decide (d.now < b.lastSent + msTicks)) = true) := by
    rintro (h | h)
    · exact hops h
    · obtain ⟨b, hb, hlt⟩ := List.any_eq_true.mp h
      exact absurd (of_decide_eq_true hlt) (Nat.not_lt.mpr (hdue b hb))
  have hnone' : ¬ ((e.str (k / 64)).messages.any fun m => decide (m.opc = 4 ∧ m.pos = k % 64)) = true := by
    intro h
    obtain ⟨m, hm, heq⟩ := List.any_eq_true.mp h
    obtain ⟨hopc, hpos⟩ := of_decide_eq_true heq
    exact (hnone m hm).elim (· hopc) (· hpos)
  rw [if_neg hdue', if_neg hnone']
  rfl

theorem Dev.bypassRepeat_of_none (h : d.bypassOps k = []) : d.bypassRepeat k = d := if_pos (.inl h)

/-! ### MODULE_BYPASS times out (R269) -/

theorem Dev.bypassTimeout_of_one {b : BypassOp}
    (h : (d.bypassOps k).filter (fun o => decide (o.start + 200 * msTicks ≤ d.now)) = [b]) :
    d.bypassTimeout k = d.endBypass b stTimeout := by
  unfold Dev.bypassTimeout
  rw [h]
  rfl

theorem Dev.bypassTimeout_of_none (h : d.bypassOps k = []) : d.bypassTimeout k = d := by
  unfold Dev.bypassTimeout
  rw [h]
  rfl

theorem Dev.dropBypass_bypass : (d.dropBypass k).pen.bypass = d.pen.bypass := rfl

theorem Dev.endBypass_bypass (b : BypassOp) (status : Nat) :
    (d.endBypass b status).pen.bypass = d.pen.bypass.erase b := by
  unfold Dev.endBypass
  extract_lets d1
  refine (congrArg PenState.bypass ((Dev.touches_completeAs ..).same .pen (by decide)).symm).trans ?_
  split
  · exact Dev.dropBypass_bypass
  · rfl

/-- An operation that is in progress once is over with its completion. -/
theorem Dev.not_mem_bypassOps_endBypass {b : BypassOp} {p : BypassOp → Bool} (h : (d.bypassOps k).filter p = [b])
    (status : Nat) : b ∉ (d.endBypass b status).bypassOps k := by
  have hb : b ∈ (d.bypassOps k).filter p := h ▸ List.mem_singleton_self b
  obtain ⟨hops, hp⟩ := List.mem_filter.mp hb
  obtain ⟨-, hsub⟩ := List.mem_filter.mp hops
  have hcount : d.pen.bypass.count b = 1 := by
    rw [← List.count_filter (p := fun b => decide (b.sub = k)) hsub, ← List.count_filter hp]
    exact (congrArg (List.count b) h).trans (by simp)
  intro hmem
  obtain ⟨herase, -⟩ := List.mem_filter.mp hmem
  rw [Dev.endBypass_bypass] at herase
  refine List.count_eq_zero.mp ?_ herase
  rw [List.count_erase_self, hcount]

end

/-- Settles O25: each row by the equation of what it does to the submodule, to the operations and to the messages. -/
theorem bypassAndFaultClear : Obligations.BypassAndFaultClear := by
  refine ⟨fun v s hv hk => ?_, fun v s h => exec_of_effect rfl (Dev.modFaultClear_of_none (d := s.fresh) h),
    fun c s hadm => ⟨fun hk => exec_moduleBypass hadm (Dev.moduleBypass_bad hk),
      fun hk hst => exec_moduleBypass hadm (Dev.moduleBypass_standby hk hst), fun hk hst => ?_⟩,
    fun k s hops hdue hnone => ?_,
    fun k s b h => ⟨exec_of_effect rfl (Dev.bypassTimeout_of_one (d := s.fresh) h),
      Dev.not_mem_bypassOps_endBypass (d := s.fresh) h stTimeout⟩,
    fun k s h => ⟨exec_of_effect rfl (Dev.bypassRepeat_of_none (d := s.fresh) h),
      exec_of_effect rfl (Dev.bypassTimeout_of_none (d := s.fresh) h)⟩⟩
  · exact ⟨_, exec_of_effect rfl (Dev.modFaultClear_eq (d := s.fresh) hv hk), Dev.setSubm_subm_self ..,
      after_issue (d := s.fresh.setSubm _ _) rfl rfl ((Dev.touches_setSubm ..).mono (by decide)) (by decide) rfl ..⟩
  · exact ⟨_, exec_moduleBypass hadm (Dev.moduleBypass_eq (d := s.fresh) hk hst), Dev.setSubm_subm_self .., rfl,
      after_issue (d := s.fresh.bypassNoted c) rfl rfl (Dev.touches_bypassNoted ..) (by decide) rfl ..⟩
  · exact ⟨_, exec_of_effect rfl (Dev.bypassRepeat_eq (d := s.fresh) hops hdue hnone), rfl,
      after_issue (d := s.fresh.bypassSent k) rfl rfl (Dev.touches_onPen ..) (by decide) rfl ..⟩

end Sys2Proof.Machine
end

section
/-! PROOFS. What the building of furrows touches (R182–R190), and the device under the configuration of a sample
instant. -/

namespace Sys2Proof.Machine
open Host

section
variable {d e : Dev}

/-! ### Under the configuration of a sample instant (R133, R196) -/

/-- Banks, tables, calibration and registers of the sample instant are no change: those in force now stand afterwards. -/
theorem Dev.keeps_under {c : Conf} {f : Dev → Dev} {ps : List Part} (h : Dev.Keeps ps (d.setConf c) (f (d.setConf c))) :
    Dev.Keeps ps d (d.under c f) := by
  refine ⟨fun p hp => ?_⟩
  have hsame := h.same p hp
  cases p
  case loop => exact congrArg (fun l : LoopState => { l with bank := d.loop.bank, tab := d.loop.tab }) hsame
  case adc => exact congrArg (fun a : AdcState => { a with cal := d.adc.cal }) hsame
  case values => exact congrArg (fun r : RegsState => { r with inForce := d.regs.inForce }) hsame
  all_goals exact hsame

theorem Dev.topo_congr (h : d.cfg = e.cfg) : d.topo = e.topo := congrArg (bits · 2 0) (congrFun h _)

theorem Dev.strings_congr (h : d.cfg = e.cfg) : d.strings = e.strings :=
  List.filter_congr fun _ _ => congrArg (bitAt · 31) (congrFun h _)

theorem Dev.strSubs_congr (h : d.cfg = e.cfg) (n : Nat) : d.strSubs n = e.strSubs n :=
  congrArg (fun l => (upto l).map (64 * n + ·)) (congrArg (bits · 22 16) (congrFun h _))

theorem Dev.switchingFor_congr {j : Job} (hg : d.gfm = e.gfm) (hs : d.sup = e.sup) (signs : List Bool) :
    d.switchingFor { j with signs := signs } = e.switchingFor j := by
  unfold Dev.switchingFor
  rw [hg, hs]

end

/-! ### One arm -/

/-- The edges of an arm are noted as made, the exclusion edges as sent, and the arm is as its furrow leaves it. -/
def Dev.makeArm (a start : Nat) (edges : List Edge) (sent : List Nat) (v : Arm) (d : Dev) : Dev :=
  (sent.foldl (fun d m => d.setSubm m { d.subm m with exclSent := true }) (edges.foldl (Dev.noteEdge start) d)).setArm a v

/-- An event of an arm's furrow, where it has one. -/
def Dev.armEvent (a bit : Nat) (on : Bool) (d : Dev) : Dev := if on then d.event 8 bit a 0xFFFFFFFF 0 else d

theorem Dev.buildArm_eq (j : Job) (x : Dev × List Edge) (a : Nat) :
    ∃ start edges sent v neg lock none_ full sat, (Dev.buildArm j x a).1 =
      (((((x.1.makeArm a start edges sent v).armEvent a 2 sat).armEvent a 3 full).armEvent a 4 none_).armEvent a 5
        lock).armEvent a 6 neg :=
  ⟨_, _, _, _, _, _, _, _, _, rfl⟩

section
variable (d : Dev)

theorem Dev.touches_makeArm (a start : Nat) (edges : List Edge) (sent : List Nat) (v : Arm) :
    Dev.Touches [.mod] d (d.makeArm a start edges sent v) := by
  have hedges : Dev.Touches [.mod] d (edges.foldl (Dev.noteEdge start) d) :=
    .foldl (fun d (x : Edge) => d.touches_setSubm x.sub _) _ _
  exact .mono ((hedges.andThen (.foldl (fun d m => d.touches_setSubm m _) _ _)).andThen (Dev.touches_setArm ..))
    (by decide)

theorem Dev.touches_armEvent (a bit : Nat) (on : Bool) : Dev.Touches [.events, .reports] d (d.armEvent a bit on) :=
  .ite (Dev.touches_event ..) .refl

theorem Dev.armEvent_mod (a bit : Nat) (on : Bool) : (d.armEvent a bit on).mod = d.mod :=
  ((d.touches_armEvent a bit on).same .mod (by decide)).symm

theorem Dev.makeArm_switching (a start : Nat) (edges : List Edge) (sent : List Nat) (v : Arm) :
    (d.makeArm a start edges sent v).mod.switching = d.mod.switching := by
  have hedges : (edges.foldl (Dev.noteEdge start) d).mod.switching = d.mod.switching :=
    Dev.foldl_same (part := fun d => d.mod.switching) (f := Dev.noteEdge start) (fun _ _ => rfl) edges d
  refine .trans (Dev.foldl_same (part := fun d => d.mod.switching) (fun d m => ?_) sent _) hedges
  rfl

/-- What the building of furrows touches. -/
def furrowParts : List Part := [.mod, .events, .reports]

theorem Dev.touches_buildArm (j : Job) (x : Dev × List Edge) (a : Nat) :
    Dev.Touches furrowParts x.1 (Dev.buildArm j x a).1 := by
  obtain ⟨start, edges, sent, v, neg, lock, none_, full, sat, h⟩ := Dev.buildArm_eq j x a
  rw [h]
  exact .mono ((((((Dev.touches_makeArm ..).andThen (Dev.touches_armEvent ..)).andThen (Dev.touches_armEvent ..)).andThen
    (Dev.touches_armEvent ..)).andThen (Dev.touches_armEvent ..)).andThen (Dev.touches_armEvent ..)) (by decide)

theorem Dev.buildArm_switching (j : Job) (x : Dev × List Edge) (a : Nat) :
    (Dev.buildArm j x a).1.mod.switching = x.1.mod.switching := by
  obtain ⟨start, edges, sent, v, neg, lock, none_, full, sat, h⟩ := Dev.buildArm_eq j x a
  rw [h]
  simp only [Dev.armEvent_mod, Dev.makeArm_switching]

/-! ### The arms of a stroke (R189, R190) -/

theorem Dev.touches_releaseArms : Dev.Touches [.mod] d d.releaseArms :=
  .mono (.andThen (.foldl (fun d k => d.touches_setSubm k _) _ d) (.foldl (fun d a => d.touches_setArm a _) _ _))
    (by decide)

theorem Dev.touches_emptyFurrow (j : Job) : Dev.Touches [.mod] d (d.emptyFurrow j) := by
  unfold Dev.emptyFurrow
  exact .mono ((Dev.Touches.foldl (fun d k => d.touches_setSubm k _) _ d).andThen
    (.andThen (.foldl (fun d a => d.touches_setArm a _) _ _) (Dev.touches_onMod ..))) (by decide)

/-- The arms of a stroke, one after another. -/
def Dev.buildArms (j : Job) (d : Dev) : Dev :=
  ((upto d.armCount).foldl (Dev.buildArm j) (d, [])).1

theorem Dev.touches_buildArms (j : Job) : Dev.Touches furrowParts d (d.buildArms j) :=
  List.foldlRecOn (motive := fun x : Dev × List Edge => Dev.Touches furrowParts d x.1) _ _
    (Dev.Touches.refl.mono (by decide)) fun x hx a _ => (hx.andThen (Dev.touches_buildArm j x a)).mono (by decide)

theorem Dev.buildArms_switching (j : Job) : (d.buildArms j).mod.switching = d.mod.switching :=
  List.foldlRecOn (motive := fun x : Dev × List Edge => x.1.mod.switching = d.mod.switching) _ _ rfl
    fun x hx a _ => (Dev.buildArm_switching j x a).trans hx

/-- Switching goes on, or begins with the release of the block signal (R190). -/
def Dev.switchOn (d : Dev) : Dev :=
  (if d.mod.switching then d else d.releaseArms).onMod fun m => { m with switching := true }

theorem Dev.touches_switchOn : Dev.Touches [.mod] d d.switchOn := by
  unfold Dev.switchOn
  exact .mono (.andThen (.ite .refl (Dev.touches_releaseArms _)) (Dev.touches_onMod ..)) (by decide)

theorem Dev.buildFurrow_of_blocked {j : Job} (h : d.switchingFor j = false) : d.buildFurrow j = (d.emptyFurrow j, []) :=
  if_pos (by rw [h]; rfl)

/-- The furrows of a stroke with switching, and what is counted of them. -/
theorem Dev.buildFurrow_of_switching {j : Job} (h : d.switchingFor j = true) :
    ∃ k swaps sat, (d.buildFurrow j).1 = (d.switchOn.buildArms k).onMod fun m =>
      { m with swapCnt := swaps, satCnt := sat } := by
  unfold Dev.buildFurrow Dev.switchOn
  rw [h]
  cases hs : d.mod.switching with
  | false => exact ⟨{ j with signs := [] }, _, _, rfl⟩
  | true => exact ⟨j, _, _, rfl⟩

theorem Dev.touches_buildFurrow (j : Job) : Dev.Touches furrowParts d (d.buildFurrow j).1 := by
  cases h : d.switchingFor j with
  | false =>
    rw [Dev.buildFurrow_of_blocked d h]
    exact (Dev.touches_emptyFurrow ..).mono (by decide)
  | true =>
    obtain ⟨k, swaps, sat, hbuild⟩ := Dev.buildFurrow_of_switching d h
    rw [hbuild]
    exact .mono (((Dev.touches_switchOn _).andThen (Dev.touches_buildArms ..)).andThen (Dev.touches_onMod ..)) (by decide)

theorem Dev.buildFurrow_switching (j : Job) : (d.buildFurrow j).1.mod.switching = d.switchingFor j := by
  cases h : d.switchingFor j with
  | false => rw [Dev.buildFurrow_of_blocked d h]; rfl
  | true =>
    obtain ⟨k, swaps, sat, hbuild⟩ := Dev.buildFurrow_of_switching d h
    rw [hbuild]
    exact d.switchOn.buildArms_switching k

/-! ### Every submodule in BLOCK (R189) -/

/-- A submodule is commanded to BLOCK. -/
def Dev.commandBlock (d : Dev) (k : Nat) : Dev := d.setSubm k { d.subm k with state := 7 }

theorem Dev.foldl_commandBlock_state {k : Nat} (l : List Nat) (h : k ∈ l ∨ (d.subm k).state = 7) :
    ((l.foldl Dev.commandBlock d).subm k).state = 7 := by
  induction l generalizing d with
  | nil => simpa using h
  | cons m rest ih =>
    refine ih _ ?_
    by_cases hm : m = k
    · exact .inr (hm ▸ congrArg Subm.state (Dev.setSubm_subm_self ..))
    · obtain hmem | hstate := h
      · exact .inl ((List.mem_cons.mp hmem).resolve_left (Ne.symm hm))
      · exact .inr ((congrArg Subm.state (Dev.setSubm_subm_of_ne _ _ hm)).trans hstate)

/-- The arms of a stroke without switching. -/
def Dev.emptyArms (j : Job) (d : Dev) : Dev :=
  (upto 6).foldl (fun d a => d.setArm a { Arm.reset with nAvail := (j.avail.getD a []).length }) d

theorem Dev.emptyFurrow_eq (j : Job) : d.emptyFurrow j =
    (((d.strings.flatMap d.strSubs).foldl Dev.commandBlock d).emptyArms j).onMod fun m =>
      { m with switching := false } := rfl

theorem Dev.emptyArms_subm (j : Job) (k : Nat) : (d.emptyArms j).subm k = d.subm k := by
  refine Dev.foldl_same (part := fun d => d.subm k) (fun d a => ?_) _ d
  rfl

theorem Dev.emptyFurrow_state (j : Job) {n k : Nat} (hn : n ∈ d.strings) (hk : k ∈ d.strSubs n) :
    ((d.emptyFurrow j).subm k).state = 7 := by
  have hoff (e : Dev) : (e.onMod fun m => { m with switching := false }).subm k = e.subm k := rfl
  rw [Dev.emptyFurrow_eq, hoff, Dev.emptyArms_subm]
  exact Dev.foldl_commandBlock_state d _ (.inl (List.mem_flatMap.mpr ⟨n, hn, hk⟩))

end

end Sys2Proof.Machine
end

section
/-! PROOFS. FURROW_BUILD (R181, R188, R189, R196). -/

namespace Sys2Proof.Machine
open Host

section
variable (d : Dev)

/-! ### The signs of the arm currents (R181) -/

theorem Dev.setArm_arm_self (a : Nat) (v : Arm) : (d.setArm a v).arm a = v := SMap.get_set_self ..

theorem Dev.setArm_arm_of_ne {a k : Nat} (v : Arm) (h : a ≠ k) : (d.setArm a v).arm k = d.arm k :=
  SMap.get_set_of_ne _ _ _ h

/-- Modulation is the same but for the signs of the arm currents. -/
structure Dev.SignsOnly (a d : Dev) : Prop where
  mod : d.mod = { a.mod with arms := d.mod.arms }
  arm : ∀ k, d.arm k = { a.arm k with iNeg := (d.arm k).iNeg }

theorem Dev.SignsOnly.setArm {a d : Dev} (h : a.SignsOnly d) (k : Nat) (neg : Bool) :
    a.SignsOnly (d.setArm k { d.arm k with iNeg := neg }) := by
  refine ⟨congrArg (fun m : ModState => { m with arms := (d.setArm k { d.arm k with iNeg := neg }).mod.arms }) h.mod,
    fun m => ?_⟩
  by_cases hm : k = m
  · subst hm
    rw [Dev.setArm_arm_self]
    exact congrArg (fun v : Arm => { v with iNeg := neg }) (h.arm k)
  · rw [Dev.setArm_arm_of_ne _ _ hm]
    exact h.arm m

theorem Dev.takeSigns_of_taken {j : Job} (h : j.signs ≠ []) : d.takeSigns j = (d, j) := if_pos h

theorem Dev.takeSigns_signsOnly (j : Job) : d.SignsOnly (d.takeSigns j).1 := by
  unfold Dev.takeSigns
  split
  · exact ⟨rfl, fun _ => rfl⟩
  · exact List.foldlRecOn (motive := d.SignsOnly) _ _ ⟨rfl, fun _ => rfl⟩ fun _ h a _ => h.setArm a _

/-- A stroke with the signs that are taken for it. -/
def withSigns (neg : List Bool) (j : Job) : Job := { j with signs := neg }

/-- A stroke's signs are taken once, those of the six arms. -/
theorem Dev.takeSigns_spec (j : Job) : ∃ neg, (d.takeSigns j).2 = withSigns neg j ∧
    (j.signs ≠ [] → neg = j.signs) ∧ neg.length = if j.signs = [] then 6 else j.signs.length := by
  unfold Dev.takeSigns
  split
  · exact ⟨j.signs, rfl, fun _ => rfl, rfl⟩
  · next h =>
    rw [not_not] at h
    refine ⟨_, rfl, fun hne => absurd h hne, ?_⟩
    rw [if_pos h]
    rfl

/-! ### The furrows of one stroke -/

/-- The furrows of a stroke whose signs are taken; none in a direct topology. -/
def Dev.furrowOf (j : Job) (d : Dev) : Dev × List (List Edge) := if d.topo = 0 then (d, []) else d.buildFurrow j

/-- What the capture sets hold of the stroke's furrows (R321). -/
def Dev.patchFurrow (j : Job) (d : Dev) : Dev :=
  (upto d.armCount).foldl (fun d a => d.acqPatch false (fun x => decide (x.sn = j.g.sn)) 2 a (armSummary (d.arm a))) d

/-- A stroke as it stands once its furrows are built. -/
def builtJob (j : Job) (fs : List (List Edge)) (sh : ModShown) (neg : List Bool) : Job :=
  { j with built := true, furrows := fs, shown := some sh, signs := neg }

theorem Dev.touches_furrowOf (j : Job) : Dev.Touches furrowParts d (d.furrowOf j).1 := by
  unfold Dev.furrowOf
  split
  · exact Dev.Touches.refl.mono (by decide)
  · exact Dev.touches_buildFurrow ..

theorem Dev.touches_acqPatch (conv : Bool) (pick : AcqSample → Bool) (kind idx : Nat) (v : W32) :
    Dev.Touches [.acq] d (d.acqPatch conv pick kind idx v) :=
  .foldl (fun _ _ => .mono (.ite .refl (.ite .refl (Dev.touches_setAset ..))) (by decide)) _ _

theorem Dev.touches_patchFurrow (j : Job) : Dev.Touches [.acq] d (d.patchFurrow j) :=
  .foldl (fun _ _ => Dev.touches_acqPatch ..) _ _

/-- The row's work on one stroke: its signs, its furrows, and the stroke as built. -/
theorem Dev.jobFurrow_eq (j : Job) : ∃ neg, (j.signs ≠ [] → neg = j.signs) ∧
    neg.length = (if j.signs = [] then 6 else j.signs.length) ∧ ∃ sh, d.jobFurrow j =
      (((d.takeSigns j).1.furrowOf (withSigns neg j)).1.patchFurrow (withSigns neg j)).setJob
        (builtJob j ((d.takeSigns j).1.furrowOf (withSigns neg j)).2 sh neg) := by
  obtain ⟨neg, hj, hkept, hlen⟩ := d.takeSigns_spec j
  refine ⟨neg, hkept, hlen,
    (((d.takeSigns j).1.furrowOf (withSigns neg j)).1.patchFurrow (withSigns neg j)).modShown (withSigns neg j), ?_⟩
  unfold Dev.jobFurrow
  rw [show d.takeSigns j = ((d.takeSigns j).1, withSigns neg j) from Prod.ext rfl hj]
  rfl

/-- The strokes apart, what the building of a stroke's furrows touches. -/
def buildParts : List Part := [.mod, .acq, .events, .reports]

theorem Dev.touches_patched (j k : Job) :
    Dev.Touches buildParts d (((d.takeSigns j).1.furrowOf k).1.patchFurrow k) :=
  .mono (((Dev.touches_takeSigns ..).andThen (Dev.touches_furrowOf ..)).andThen (Dev.touches_patchFurrow ..)) (by decide)

theorem Dev.patchFurrow_mod (j : Job) : (d.patchFurrow j).mod = d.mod :=
  ((Dev.touches_patchFurrow ..).same .mod (by decide)).symm

theorem Dev.keeps_jobFurrow (j : Job) : Dev.Keeps [.ang, .mod, .acq, .events, .reports] d (d.jobFurrow j) := by
  obtain ⟨neg, -, -, sh, h⟩ := d.jobFurrow_eq j
  rw [h]
  exact ((Dev.touches_patched ..).keeps.mono (by decide)).andThen (Dev.keeps_onAng ..) (by decide)

/-! ### What becomes of the stroke and of modulation -/

section
variable {d} {j : Job}

theorem Dev.furrowOf_direct (h : d.topo = 0) : d.furrowOf j = (d, []) := if_pos h

theorem Dev.furrowOf_strings (h : d.topo ≠ 0) : d.furrowOf j = d.buildFurrow j := if_neg h

theorem Dev.furrowOf_none (h : d.topo = 0 ∨ d.switchingFor j = false) : (d.furrowOf j).2 = [] := by
  by_cases h0 : d.topo = 0
  · rw [Dev.furrowOf_direct h0]
  · rw [Dev.furrowOf_strings h0, Dev.buildFurrow_of_blocked d (h.resolve_left h0)]

theorem Dev.furrowOf_state (h0 : d.topo ≠ 0) (h : d.switchingFor j = false) {n k : Nat} (hn : n ∈ d.strings)
    (hk : k ∈ d.strSubs n) : ((d.furrowOf j).1.subm k).state = 7 := by
  rw [Dev.furrowOf_strings h0, Dev.buildFurrow_of_blocked d h]
  exact d.emptyFurrow_state j hn hk

end

/-- What a stroke and modulation are once its furrows are built. -/
structure Dev.BuiltStroke (j : Job) (a d : Dev) : Prop where
  job : ∃ fs sh neg, d.ang = withJob (builtJob j fs sh neg) a.ang ∧ (j.signs ≠ [] → neg = j.signs) ∧
    neg.length = (if j.signs = [] then 6 else j.signs.length) ∧ (a.topo = 0 ∨ a.switchingFor j = false → fs = [])
  switching : a.topo ≠ 0 → d.mod.switching = a.switchingFor j
  blocked : a.topo ≠ 0 → a.switchingFor j = false → ∀ n ∈ a.strings, ∀ k ∈ a.strSubs n, (d.subm k).state = 7
  direct : a.topo = 0 → d.mod = (a.takeSigns j).1.mod

theorem Dev.jobFurrow_built (j : Job) : d.BuiltStroke j (d.jobFurrow j) := by
  obtain ⟨neg, hkept, hlen, sh, h⟩ := d.jobFurrow_eq j
  have hsigns := d.touches_takeSigns j
  have hcfg : (d.takeSigns j).1.cfg = d.cfg := funext fun off => hsigns.cfg off (by decide)
  have htopo : (d.takeSigns j).1.topo = d.topo := Dev.topo_congr hcfg
  have hperm : (d.takeSigns j).1.switchingFor (withSigns neg j) = d.switchingFor j :=
    Dev.switchingFor_congr (hsigns.same .gfm (by decide)).symm (hsigns.same .sup (by decide)).symm neg
  have hmod : (d.jobFurrow j).mod = ((d.takeSigns j).1.furrowOf (withSigns neg j)).1.mod := by
    rw [h]
    exact Dev.patchFurrow_mod ..
  refine ⟨⟨((d.takeSigns j).1.furrowOf (withSigns neg j)).2, sh, neg, ?_, hkept, hlen, fun hnone => ?_⟩, fun h0 => ?_,
    fun h0 hoff n hn k hk => ?_, fun h0 => ?_⟩
  · rw [h, Dev.setJob_ang]
    exact congrArg _ ((d.touches_patched j _).same .ang (by decide)).symm
  · exact Dev.furrowOf_none (by rwa [htopo, hperm])
  · rw [hmod, Dev.furrowOf_strings (htopo ▸ h0), Dev.buildFurrow_switching, hperm]
  · rw [Dev.subm, hmod]
    exact Dev.furrowOf_state (htopo ▸ h0) (hperm.trans hoff) (Dev.strings_congr hcfg ▸ hn)
      (Dev.strSubs_congr hcfg n ▸ hk)
  · rw [hmod, Dev.furrowOf_direct (htopo.trans h0)]

end

/-! ### The row -/

section
variable {d : Dev}

theorem Dev.furrowBuild_of_some {j : Job}
    (h : d.ang.jobs.find? (fun j => (j.evaluated || j.missed) && !j.built) = some j) :
    d.furrowBuild = d.under j.conf (Dev.jobFurrow j) := by
  unfold Dev.furrowBuild
  rw [h]

theorem Dev.furrowBuild_of_none (h : d.ang.jobs.find? (fun j => (j.evaluated || j.missed) && !j.built) = none) :
    d.furrowBuild = d := by
  unfold Dev.furrowBuild
  rw [h]

end

/-- Settles O24: the furrows are those that `Dev.jobFurrow` builds of the stroke, under its own configuration. -/
theorem furrowBuildCompletesOneStroke : Obligations.FurrowBuildCompletesOneStroke := by
  refine ⟨fun s j c hj hc => ?_, fun s h => exec_of_effect rfl (Dev.furrowBuild_of_none (d := s.fresh) h)⟩
  subst hc
  obtain ⟨⟨fs, sh, neg, hang, hkept, hlen, hnone⟩, hswitch, hblock, hdirect⟩ :=
    (s.fresh.setConf j.conf).jobFurrow_built j
  obtain ⟨hmod, harm⟩ := (s.fresh.setConf j.conf).takeSigns_signsOnly j
  refine ⟨_, exec_of_effect rfl (Dev.furrowBuild_of_some (d := s.fresh) hj), ⟨fs, sh, neg, hang, hkept, hlen, hnone⟩,
    fun h0 hoff => ⟨(hswitch h0).trans hoff, hblock h0 hoff⟩, fun h0 hon => (hswitch h0).trans hon, fun h0 => ?_,
    .of_after (Dev.keeps_under (Dev.keeps_jobFurrow _ j))⟩
  have harms (a : Nat) : ((s.fresh.setConf j.conf).jobFurrow j).arm a = ((s.fresh.setConf j.conf).takeSigns j).1.arm a :=
    congrArg (fun m : ModState => m.arms.get Arm.reset a) (hdirect h0)
  refine ⟨(hdirect h0).trans (hmod.trans ?_), fun a => (harms a).trans ((harm a).trans ?_), fun hsig a => ?_⟩
  · exact congrArg (fun m : ModState => { s.dev.mod with arms := m.arms }) (hdirect h0).symm
  · exact congrArg (fun v : Arm => { s.dev.arm a with iNeg := v.iNeg }) (harms a).symm
  · refine congrArg Arm.iNeg ((harms a).trans ?_)
    rw [Dev.takeSigns_of_taken _ hsig]
    rfl

end Sys2Proof.Machine
end

section
/-! PROOFS. What a received frame touches: its slots with their points, its place in the stroke, and its reply block (R240,
R259–R269, R280). -/

namespace Sys2Proof.Machine
open Host

section
variable (d : Dev)

/-! ### Points that arrive (R280–R286) -/

/-- Trip source 6 waits one stroke (R162): that it has fired is noted. -/
theorem Dev.touches_routed_points (id : Nat) (details : List Nat) :
    Dev.Touches [.sup, .events, .reports] d (d.routed 6 id details) := by
  unfold Dev.routed
  split
  · exact (Dev.touches_event ..).mono (by decide)
  · exact (Dev.touches_tripNextStroke ..).mono (by decide)

/-- What an arrival touches: of the trips (`pointParts`) only the note of source 6. -/
def arrivalParts : List Part := [.pnt, .sup, .events, .reports]

/-- A bit of PNT_EVENT with its interrupt, where something has risen. -/
theorem Dev.touches_raise (c : Prop) [Decidable c] (bit n : Nat) :
    Dev.Touches [.events, .reports] d (if c then (d.setBit Reg.PNT_EVENT bit).irq n else d) :=
  .mono (.ite (.andThen (Dev.touches_setBit ..) (Dev.touches_irq ..)) .refl) (by decide)

/-- The reports of a record (R285, R286): flags that rise, STALE, and trip source 6. -/
theorem Dev.touches_pointReports (c b a : Prop) [Decidable c] [Decidable b] [Decidable a] (id : Nat) :
    Dev.Touches [.sup, .events, .reports] d
      (let d := if c then (d.setBit Reg.PNT_EVENT 0).irq 42 else d
       let d := if b then (d.setBit Reg.PNT_EVENT 1).irq 43 else d
       if a then d.routed 6 id [id] else d) :=
  .mono (((Dev.touches_raise ..).andThen (Dev.touches_raise ..)).andThen (.ite (Dev.touches_routed_points ..) .refl))
    (by decide)

theorem Dev.arrival_storeRec (id : Nat) (r : W32) : Dev.Touches arrivalParts d (d.storeRec id r) :=
  .mono (.andThen (d.touches_onPnt _) (Dev.touches_pointReports ..)) (by decide)

theorem Dev.arrival_sayRec (id : Nat) (said : PointSaid) (old new : W32) :
    Dev.Touches [.sup, .events, .reports] d (d.sayRec id said old new) := Dev.touches_pointReports ..

theorem Dev.arrival_operateAs (was : PointClass) (op : PointOp) (id : Nat) (x : Dev × List PointChange) :
    Dev.Touches arrivalParts x.1 (Dev.operateAs was op id x).1 := by
  unfold Dev.operateAs
  extract_lets d t0 t before later c base
  split
  · exact .mono (.andThen (Dev.touches_onPnt ..) (Dev.touches_event ..)) (by decide)
  · split
    · exact .mono ((Dev.touches_setTurn ..).andThen (Dev.arrival_storeRec ..)) (by decide)
    · exact .mono ((Dev.touches_setTurn ..).andThen
        (((Dev.touches_onPnt ..).andThen (Dev.arrival_sayRec ..)).andThen (Dev.arrival_sayRec ..))) (by decide)

theorem Dev.touches_arrive (op : PointOp) (id raw : Nat) (x : Dev × List PointChange) :
    Dev.Touches arrivalParts x.1 (Dev.arrive op id raw x).1 := by
  unfold Dev.arrive
  extract_lets d lost d1
  split
  · exact .mono (.andThen (Dev.touches_onPnt ..) (Dev.touches_event ..)) (by decide)
  · have h1 : Dev.Touches _ d d1 := Dev.touches_onPnt ..
    have hop : Dev.Touches _ d1 (Dev.operate op id (d1, x.2)).1 := Dev.arrival_operateAs _ op id (d1, x.2)
    exact (h1.andThen hop).mono (by decide)

theorem Dev.touches_gleanPoints (sub : Nat) (entries : List Nat) :
    Dev.Touches arrivalParts d (d.gleanPoints sub entries) := by
  have h := List.foldlRecOn (motive := fun x : Dev × List PointChange => Dev.Touches arrivalParts d x.1) entries
    (fun x e => if bitAt e 21 then Dev.arrive (.glean (bits e 15 0)) (1024 * sub + bits e 31 22) (bits e 15 0) x else x)
    (b := (d, [])) (Dev.Touches.refl.mono (by decide)) fun x hx e _ => by
      split
      · exact (hx.andThen (Dev.touches_arrive ..)).mono (by decide)
      · exact hx
  exact (h.andThen (Dev.touches_deliverAll _)).mono (by decide)

/-! ### Slots (R176, R237, R238) -/

theorem Dev.touches_readStatus (k : Nat) (bs : List Byte) : Dev.Touches [.mod] d (d.readStatus k bs) := by
  unfold Dev.readStatus
  extract_lets x run st fault late clears d1
  have h1 : Dev.Touches _ d d1 := Dev.touches_setSubm ..
  exact .mono (.ite (h1.andThen (Dev.touches_onMod ..)) h1) (by decide)

/-- A submodule is seen in this stroke, with what its slot says of LEASE. -/
def Dev.markSeen (k : Nat) (lease : Bool) (d : Dev) : Dev :=
  d.setSubm k { d.subm k with seen := true, gap := 0, lease := lease }

/-- The events of a slot (R273): bits 11 and 10 of its status. -/
def Dev.slotEvents (n p st : Nat) (s : PenString) (d : Dev) : Dev :=
  let d := if bitAt st 11 then d.event 11 5 n p 0 else d
  if bitAt st 10 ∧ s.phase = 3 ∧ s.syncErr = false then
    ((d.setStr n { d.str n with syncErr := true }).event 11 3 n p 0).irq 41 else d

/-- What a slot says once per SEQ (R280). -/
def Dev.readSlot (n p st : Nat) (s : PenString) (bs : List Byte) (words : List Nat) (d : Dev) : Dev :=
  let d := d.onPnt fun q => { q with lastSeq := q.lastSeq.set none (64 * n + p) (some (leAt bs 5 1)) }
  ((d.readStatus (64 * n + p) bs).slotEvents n p st s).gleanPoints (64 * n + p) words

theorem Dev.goodSlot_eq (n p epoch : Nat) (bs : List Byte) : ∃ new lease st s words, d.goodSlot n p epoch bs =
    if !new then d.markSeen (64 * n + p) lease
    else (d.markSeen (64 * n + p) lease).readSlot n p st s bs words := ⟨_, _, _, _, _, rfl⟩

/-- What a slot touches. -/
def slotParts : List Part := [.mod, .pen, .pnt, .sup, .events, .reports]

theorem Dev.touches_markSeen (k : Nat) (lease : Bool) : Dev.Touches [.mod] d (d.markSeen k lease) := Dev.touches_setSubm ..

theorem Dev.touches_slotEvents (n p st : Nat) (s : PenString) :
    Dev.Touches [.pen, .events, .reports] d (d.slotEvents n p st s) := by
  unfold Dev.slotEvents
  extract_lets d1
  have h1 : Dev.Touches _ d d1 := .ite (Dev.touches_event ..) .refl
  exact .mono (h1.andThen
    (.ite (((Dev.touches_setStr ..).andThen (Dev.touches_event ..)).andThen (Dev.touches_irq ..)) .refl)) (by decide)

theorem Dev.touches_readSlot (n p st : Nat) (s : PenString) (bs : List Byte) (words : List Nat) :
    Dev.Touches slotParts d (d.readSlot n p st s bs words) :=
  .mono ((((d.touches_onPnt _).andThen (Dev.touches_readStatus ..)).andThen (Dev.touches_slotEvents ..)).andThen
    (Dev.touches_gleanPoints ..)) (by decide)

theorem Dev.touches_goodSlot (n p epoch : Nat) (bs : List Byte) : Dev.Touches slotParts d (d.goodSlot n p epoch bs) := by
  obtain ⟨new, lease, st, s, words, h⟩ := d.goodSlot_eq n p epoch bs
  rw [h]
  exact .mono (.ite (Dev.touches_markSeen ..) ((Dev.touches_markSeen ..).andThen (Dev.touches_readSlot ..))) (by decide)

theorem Dev.touches_takeSlots (n epoch : Nat) (x : Nat × List Byte) : Dev.Touches slotParts d (d.takeSlots n epoch x) :=
  .mono (.ite (Dev.touches_goodSlot ..) (Dev.touches_onPen ..)) (by decide)

theorem Dev.touches_updateLease (n : Nat) : Dev.Touches [.pen] d (d.updateLease n) :=
  .mono (.ite (Dev.touches_setStr ..) (Dev.touches_setStr ..)) (by decide)

/-! ### Reply blocks (R259, R268, R269) -/

theorem Dev.touches_trainReply (n e : Nat) (r : Reply) : Dev.Touches [.pen] d (d.trainReply n e r) := by
  unfold Dev.trainReply
  dsimp only
  split
  · exact .mono (.ite (Dev.touches_setStr ..) .refl) (by decide)
  · exact Dev.touches_setStr ..
  · exact .mono .refl (by decide)

theorem Dev.touches_endMessage (n : Nat) : Dev.Touches [.pen] d (d.endMessage n) := by
  unfold Dev.endMessage
  split
  · exact .mono .refl (by decide)
  · exact Dev.touches_setStr ..

theorem Dev.touches_dropBypass (k : Nat) : Dev.Touches [.pen] d (d.dropBypass k) := Dev.touches_setStr ..

theorem Dev.touches_endBypass (b : BypassOp) (status : Nat) :
    Dev.Touches [.pen, .commands, .events, .reports] d (d.endBypass b status) := by
  unfold Dev.endBypass
  exact .mono (((Dev.touches_onPen ..).andThen (.ite (Dev.touches_dropBypass ..) .refl)).andThen
    (Dev.touches_completeAs ..)) (by decide)

theorem Dev.touches_bypassReply (n : Nat) (r : Reply) :
    Dev.Touches [.pen, .commands, .events, .reports] d (d.bypassReply n r) := by
  unfold Dev.bypassReply
  exact .mono (.ite (.foldl (fun d b => d.touches_endBypass b _) _ _)
    (.ite (.foldl (fun d b => d.touches_endBypass b _) _ _) .refl)) (by decide)

end

end Sys2Proof.Machine
end

section
/-! PROOFS. Frames that have been noted for the end of their stroke stay noted, and a string that does not train does not
begin to (R240, R258–R269). -/

namespace Sys2Proof.Machine
open Host

/-- The header-error count and the frames noted on every string stay, and a string that does not train does not begin to. -/
structure Dev.KeepsNoted (a d : Dev) : Prop where
  hdr : d.pen.hdrErrCnt = a.pen.hdrErrCnt
  rx : ∀ m, (d.str m).rx = (a.str m).rx
  idle : ∀ m, (a.str m).training = false → (d.str m).training = false

namespace Dev.KeepsNoted

variable {a d e : Dev}

theorem refl : d.KeepsNoted d := ⟨rfl, fun _ => rfl, fun _ => id⟩

theorem trans (h : a.KeepsNoted d) (h' : d.KeepsNoted e) : a.KeepsNoted e :=
  ⟨h'.hdr.trans h.hdr, fun m => (h'.rx m).trans (h.rx m), fun m hm => h'.idle m (h.idle m hm)⟩

theorem ite {c : Prop} [Decidable c] (hd : a.KeepsNoted d) (he : a.KeepsNoted e) :
    a.KeepsNoted (if c then d else e) := by split <;> assumption

theorem foldl {α : Type} {f : Dev → α → Dev} (hf : ∀ d x, Dev.KeepsNoted d (f d x)) (l : List α) (d : Dev) :
    d.KeepsNoted (l.foldl f d) :=
  List.foldlRecOn (motive := d.KeepsNoted) _ _ refl fun e h x _ => h.trans (hf e x)

/-- What leaves the strings and the header-error count alone. -/
theorem of_pen (hs : d.pen.strings = a.pen.strings) (hh : d.pen.hdrErrCnt = a.pen.hdrErrCnt) : a.KeepsNoted d := by
  have hstr (m : Nat) : d.str m = a.str m := congrArg (·.get PenString.reset m) hs
  exact ⟨hh, fun m => congrArg PenString.rx (hstr m), fun m h => (congrArg PenString.training (hstr m)).trans h⟩

theorem of_touches {ps : List Part} (h : Dev.Touches ps a d) (hp : .pen ∉ ps) : a.KeepsNoted d :=
  have hpen := (h.same .pen hp).symm
  of_pen (congrArg PenState.strings hpen) (congrArg PenState.hdrErrCnt hpen)

theorem setStr {n : Nat} {v : PenString} (hrx : v.rx = (d.str n).rx)
    (ht : (d.str n).training = false → v.training = false) : d.KeepsNoted (d.setStr n v) := by
  refine ⟨rfl, fun m => ?_, fun m hm => ?_⟩ <;> by_cases h : n = m
  · subst h
    rw [Dev.setStr_str_self, hrx]
  · rw [Dev.setStr_str_of_ne _ _ h]
  · subst h
    rw [Dev.setStr_str_self]
    exact ht hm
  · rwa [Dev.setStr_str_of_ne _ _ h]

end Dev.KeepsNoted

section
variable (d : Dev)

/-! ### Training (R258–R262) -/

theorem Dev.keepsNoted_issue (n opc pos : Nat) (params : List Byte) : d.KeepsNoted (d.issue n opc pos params) := by
  unfold Dev.issue
  extract_lets tag d1 x
  have h1 : d.KeepsNoted d1 := .of_pen rfl rfl
  exact h1.trans (.setStr rfl id)

theorem Dev.keepsNoted_sendTrain (n : Nat) (replies : List Reply) (sums : List (Nat × Int)) (fail : Option TrainResult) :
    d.KeepsNoted (d.sendTrain n replies sums fail) := .of_touches (Dev.touches_sendTrain ..) (by decide)

theorem Dev.keepsNoted_trainFail (n : Nat) (r : TrainResult) : d.KeepsNoted (d.trainFail n r) := by
  have hend : d.KeepsNoted (d.trainEnd n r) := .setStr rfl fun _ => rfl
  exact hend.trans (Dev.keepsNoted_sendTrain ..)

theorem Dev.keepsNoted_insertSets (l t : Nat) (cs : List LineChar) : d.KeepsNoted (d.insertSets l t cs) :=
  .ite .refl (.of_pen rfl rfl)

theorem Dev.keepsNoted_echoAsk (n e : Nat) : d.KeepsNoted (d.echoAsk n e) := by
  unfold Dev.echoAsk
  extract_lets x tick req d1
  have h1 : d.KeepsNoted d1 := by
    cases e with
    | zero => exact .setStr rfl id
    | succ e => exact .setStr rfl id
  clear_value d1 req
  cases req with
  | some q => exact h1.trans (Dev.keepsNoted_insertSets ..)
  | none => exact h1

theorem Dev.keepsNoted_phaseBegins (n phase : Nat) : d.KeepsNoted (d.phaseBegins n phase) := by
  unfold Dev.phaseBegins
  extract_lets x d1
  have h1 : d.KeepsNoted d1 := .setStr rfl id
  exact .ite (h1.trans (.foldl (fun d e => d.keepsNoted_echoAsk n e) _ _)) h1

theorem Dev.keepsNoted_trainPhase (n phase : Nat) : d.KeepsNoted (d.trainPhase n phase) :=
  (d.keepsNoted_phaseBegins n phase).trans (Dev.keepsNoted_sendTrain ..)

theorem Dev.keepsNoted_enterRun (n : Nat) : d.KeepsNoted (d.enterRun n) := by
  unfold Dev.enterRun
  extract_lets e0 d1 x d2
  have h1 : d.KeepsNoted d1 := Dev.keepsNoted_trainPhase ..
  have h2 : Dev.Touches [.mod] d1 d2 := .foldl (fun d k => d.touches_setSubm k _) _ _
  have hx : x = d2.str n := congrArg (fun p : PenState => p.strings.get PenString.reset n) (h2.same .pen (by decide))
  have hrx : x.rx = (d2.str n).rx := congrArg PenString.rx hx
  have ht : (d2.str n).training = false → x.training = false := (congrArg PenString.training hx).trans
  exact (h1.trans (.of_touches h2 (by decide))).trans (.setStr hrx ht)

theorem Dev.keepsNoted_trainStep (n : Nat) : d.KeepsNoted (d.trainStep n) := by
  unfold Dev.trainStep
  dsimp only
  split
  · exact .refl
  · split
    · split
      · exact .refl
      · exact Dev.keepsNoted_trainPhase ..
      · exact Dev.keepsNoted_trainFail ..
    · split
      · exact .refl
      · exact (Dev.keepsNoted_trainPhase ..).trans (.foldl (fun d p => d.keepsNoted_issue n 3 p _) _ _)
      · exact Dev.keepsNoted_trainFail ..
    · exact .ite (Dev.keepsNoted_enterRun ..) .refl
    · exact .refl

/-! ### Slots and replies -/

theorem Dev.keepsNoted_slotEvents (n p st : Nat) (s : PenString) : d.KeepsNoted (d.slotEvents n p st s) := by
  unfold Dev.slotEvents
  extract_lets d1
  have h1 : d.KeepsNoted d1 := .ite (.of_touches (Dev.touches_event ..) (by decide)) .refl
  have hsync : d1.KeepsNoted (d1.setStr n { d1.str n with syncErr := true }) := .setStr rfl id
  exact h1.trans
    (.ite (hsync.trans (.of_touches ((Dev.touches_event ..).andThen (Dev.touches_irq ..)) (by decide))) .refl)

theorem Dev.keepsNoted_goodSlot (n p epoch : Nat) (bs : List Byte) : d.KeepsNoted (d.goodSlot n p epoch bs) := by
  obtain ⟨new, lease, st, s, words, h⟩ := d.goodSlot_eq n p epoch bs
  rw [h]
  have hseen : d.KeepsNoted (d.markSeen (64 * n + p) lease) := .of_touches (Dev.touches_markSeen ..) (by decide)
  have hread (e : Dev) : e.KeepsNoted (e.readSlot n p st s bs words) :=
    ((Dev.KeepsNoted.of_touches ((e.touches_onPnt _).andThen (Dev.touches_readStatus ..)) (by decide)).trans
      (Dev.keepsNoted_slotEvents ..)).trans (Dev.KeepsNoted.of_touches (Dev.touches_gleanPoints ..) (by decide))
  exact .ite hseen (hseen.trans (hread _))

theorem Dev.keepsNoted_takeSlots (n epoch : Nat) (x : Nat × List Byte) : d.KeepsNoted (d.takeSlots n epoch x) := by
  unfold Dev.takeSlots
  split
  · exact Dev.keepsNoted_goodSlot ..
  · exact .of_pen rfl rfl

theorem Dev.keepsNoted_updateLease (n : Nat) : d.KeepsNoted (d.updateLease n) :=
  .ite (.setStr rfl fun _ => rfl) (.setStr rfl id)

theorem Dev.keepsNoted_trainReply (n e : Nat) (r : Reply) : d.KeepsNoted (d.trainReply n e r) := by
  unfold Dev.trainReply
  dsimp only
  split
  · exact .ite (.setStr rfl id) .refl
  · cases e with
    | zero => exact .setStr rfl id
    | succ e => exact .setStr rfl id
  · exact .refl

theorem Dev.keepsNoted_endMessage (n : Nat) : d.KeepsNoted (d.endMessage n) := by
  unfold Dev.endMessage
  split
  · exact .refl
  · exact .setStr rfl id

theorem Dev.keepsNoted_dropBypass (k : Nat) : d.KeepsNoted (d.dropBypass k) := .setStr rfl id

theorem Dev.keepsNoted_endBypass (b : BypassOp) (status : Nat) : d.KeepsNoted (d.endBypass b status) := by
  unfold Dev.endBypass
  extract_lets d1
  have h1 : d.KeepsNoted d1 := .of_pen rfl rfl
  exact (h1.trans (.ite (Dev.keepsNoted_dropBypass ..) .refl)).trans (.of_touches (Dev.touches_completeAs ..) (by decide))

theorem Dev.keepsNoted_bypassReply (n : Nat) (r : Reply) : d.KeepsNoted (d.bypassReply n r) :=
  .ite (.foldl (fun d b => d.keepsNoted_endBypass b _) _ _)
    (.ite (.foldl (fun d b => d.keepsNoted_endBypass b _) _ _) .refl)

end

end Sys2Proof.Machine
end

section
/-! PROOFS. FRAME_RECEIVED (R176, R239, R240, R265, R268). -/

namespace Sys2Proof.Machine
open Host

section
variable (d : Dev)

/-! ### The reply block of a frame -/

/-- A reply taken (R268), up to what training makes of it. -/
def Dev.replyTaken (n dir : Nat) (r : Reply) (d : Dev) : Dev :=
  let d := d.trainReply n dir r
  let d := match d.message n with
    | none => d
    | some m => if d.answered n m r then d.endMessage n else d
  if r.opc = 4 then d.bypassReply n r else d

theorem Dev.takeReply_eq (n dir : Nat) (r : Reply) : d.takeReply n dir r = (d.replyTaken n dir r).trainStep n := rfl

theorem Dev.touches_replyTaken (n dir : Nat) (r : Reply) :
    Dev.Touches [.pen, .commands, .events, .reports] d (d.replyTaken n dir r) := by
  unfold Dev.replyTaken
  extract_lets d1 d2
  have h1 : Dev.Touches _ d d1 := Dev.touches_trainReply ..
  have h2 : Dev.Touches [.pen] d1 d2 := by
    unfold d2
    split
    · exact .mono .refl (by decide)
    · exact .mono (.ite (Dev.touches_endMessage ..) .refl) (by decide)
  exact .mono ((h1.andThen h2).andThen (.ite (Dev.touches_bypassReply ..) .refl)) (by decide)

theorem Dev.keepsNoted_replyTaken (n dir : Nat) (r : Reply) : d.KeepsNoted (d.replyTaken n dir r) := by
  unfold Dev.replyTaken
  extract_lets d1 d2
  have h1 : d.KeepsNoted d1 := Dev.keepsNoted_trainReply ..
  have h2 : d1.KeepsNoted d2 := by
    unfold d2
    split
    · exact .refl
    · exact .ite (Dev.keepsNoted_endMessage ..) .refl
  exact (h1.trans h2).trans (.ite (Dev.keepsNoted_bypassReply ..) .refl)

/-- What a reply block touches. -/
def replyParts : List Part := [.mod, .pen, .twn, .commands, .events, .reports]

theorem Dev.touches_frameReply (n : Nat) (f : Frame) : Dev.Touches replyParts d (d.frameReply n f) := by
  unfold Dev.frameReply
  extract_lets r
  have hsend := Dev.Touches.ite (c := (d.str n).training) (d.touches_sendTrain n [r] [] none) .refl
  exact .mono (.ite .refl (.ite ((hsend.andThen (Dev.touches_replyTaken ..)).andThen (Dev.touches_trainStep ..))
    (Dev.touches_onPen ..))) (by decide)

theorem Dev.keepsNoted_frameReply (n : Nat) (f : Frame) : d.KeepsNoted (d.frameReply n f) := by
  unfold Dev.frameReply
  extract_lets r
  have hpen : d.KeepsNoted (d.onPen fun p => { p with gleanErrCnt := satInc p.gleanErrCnt }) := .of_pen rfl rfl
  have hsend := Dev.KeepsNoted.ite (c := (d.str n).training) (d.keepsNoted_sendTrain n [r] [] none) .refl
  exact .ite .refl (.ite ((hsend.trans (Dev.keepsNoted_replyTaken ..)).trans (Dev.keepsNoted_trainStep ..)) hpen)

section
variable {d} {n : Nat}

theorem Dev.trainStep_idle (h : (d.str n).training = false) : d.trainStep n = d := if_pos (by rw [h]; rfl)

/-- Where no training goes on, a reply block leaves the submodules as they are. -/
theorem Dev.frameReply_mod (h : (d.str n).training = false) (f : Frame) : (d.frameReply n f).mod = d.mod := by
  have hreply (dir : Nat) (r : Reply) : (d.takeReply n dir r).mod = d.mod := by
    rw [Dev.takeReply_eq, Dev.trainStep_idle ((Dev.keepsNoted_replyTaken ..).idle n h)]
    exact ((Dev.touches_replyTaken ..).same .mod (by decide)).symm
  unfold Dev.frameReply
  split
  · rfl
  · split
    · rw [h]
      exact hreply ..
    · rfl

end

/-! ### Slots mark their submodules as seen (R176) -/

/-- A submodule has been seen with no gap. -/
def Dev.seenNow (k : Nat) (d : Dev) : Prop := (d.subm k).seen = true ∧ (d.subm k).gap = 0

section
variable {d} {e : Dev} {m : Nat}

theorem Dev.seenNow.of_mod (h : d.seenNow m) (he : e.mod = d.mod) : e.seenNow m := by
  have hsub : e.subm m = d.subm m := congrArg (fun x : ModState => x.subs.get Subm.reset m) he
  unfold Dev.seenNow
  rwa [hsub]

theorem Dev.seenNow.of_touches {ps : List Part} (h : d.seenNow m) (ht : Dev.Touches ps d e) (hp : .mod ∉ ps) :
    e.seenNow m := h.of_mod (ht.same .mod hp).symm

theorem Dev.seenNow.setSubm (h : d.seenNow m) {k : Nat} {v : Subm} (hs : v.seen = (d.subm k).seen)
    (hg : v.gap = (d.subm k).gap) : (d.setSubm k v).seenNow m := by
  unfold Dev.seenNow
  by_cases hk : k = m
  · subst hk
    rw [Dev.setSubm_subm_self, hs, hg]
    exact h
  · rw [Dev.setSubm_subm_of_ne _ _ hk]
    exact h

theorem Dev.seenNow.readStatus (h : d.seenNow m) (k : Nat) (bs : List Byte) : (d.readStatus k bs).seenNow m := by
  unfold Dev.readStatus
  extract_lets x run st fault late clears d1
  have h1 : d1.seenNow m := h.setSubm rfl rfl
  split
  · exact h1
  · exact h1

theorem Dev.markSeen_seenNow {k : Nat} (h : k = m ∨ d.seenNow m) (lease : Bool) : (d.markSeen k lease).seenNow m := by
  unfold Dev.seenNow Dev.markSeen
  by_cases hk : k = m
  · rw [← hk, Dev.setSubm_subm_self]
    exact ⟨rfl, rfl⟩
  · rw [Dev.setSubm_subm_of_ne _ _ hk]
    exact h.resolve_left hk

theorem Dev.seenNow.readSlot (h : d.seenNow m) (n p st : Nat) (s : PenString) (bs : List Byte) (words : List Nat) :
    (d.readSlot n p st s bs words).seenNow m := by
  unfold Dev.readSlot
  extract_lets d1
  have h1 : d1.seenNow m := h.of_mod rfl
  exact (h1.readStatus ..).of_touches ((Dev.touches_slotEvents ..).andThen (Dev.touches_gleanPoints ..)) (by decide)

/-- A correct slot marks its submodule and leaves the marks of the others. -/
theorem Dev.goodSlot_seenNow {n p : Nat} (h : 64 * n + p = m ∨ d.seenNow m) (epoch : Nat) (bs : List Byte) :
    (d.goodSlot n p epoch bs).seenNow m := by
  obtain ⟨new, lease, st, s, words, heq⟩ := d.goodSlot_eq n p epoch bs
  rw [heq]
  have hseen := Dev.markSeen_seenNow h lease
  split
  · exact hseen
  · exact hseen.readSlot ..

theorem Dev.foldl_takeSlots_seenNow {n : Nat} (epoch : Nat) (xs : List (Nat × List Byte))
    (h : (∃ x ∈ xs, crc16Ok x.2 = true ∧ 64 * n + x.1 = m) ∨ d.seenNow m) :
    (xs.foldl (Dev.takeSlots n epoch) d).seenNow m := by
  induction xs generalizing d with
  | nil => exact h.resolve_left (by simp)
  | cons y rest ih =>
    have hkeep (hd : d.seenNow m) : (d.takeSlots n epoch y).seenNow m := by
      unfold Dev.takeSlots
      split
      · exact Dev.goodSlot_seenNow (.inr hd) ..
      · exact hd
    refine ih ?_
    obtain ⟨x, hx, hcrc, hm⟩ | hd := h
    · obtain rfl | hrest := List.mem_cons.mp hx
      · unfold Dev.takeSlots
        rw [if_pos hcrc]
        exact .inr (Dev.goodSlot_seenNow (.inl hm) ..)
      · exact .inl ⟨x, hrest, hcrc, hm⟩
    · exact .inr (hkeep hd)

end

/-! ### A frame is taken (R240, R265) -/

/-- The slots of a frame, position by position. -/
def Dev.slotsTaken (n : Nat) (f : Frame) (d : Dev) : Dev := ((upto f.len).zip f.slots).foldl (Dev.takeSlots n f.epoch) d

/-- A frame is noted for the end of its stroke; one that came back on its own lane marks the stroke (R265). -/
def Dev.noteFrame (n : Nat) (sn : W32) (rx : PenRx) (d : Dev) : Dev :=
  let x : PenString := { d.str n with rx := (d.str n).rx ++ [rx] }
  d.setStr n (if rx.looped && fedIn x sn then badStroke sn x else x)

/-- The rest of a frame: ranges, LEASE_OK, and the reply block. -/
def Dev.endFrame (n : Nat) (f : Frame) (looped : Bool) (rs : List PenRx) (d : Dev) : Dev :=
  let d := if looped then d.keepRanges n rs else d
  let d := d.updateLease n
  if looped ∧ (d.str n).training ∧ (d.str n).phase = 0 then d.trainFail n .broken else d.frameReply n f

theorem Dev.takeFrame_eq (n e : Nat) (f : Frame) : ∃ rx rs, d.takeFrame n e f =
    ((d.slotsTaken n f).noteFrame n f.sn rx).endFrame n f rx.looped rs ∧ rx.sn = f.sn ∧ rx.e = e :=
  ⟨_, _, rfl, rfl, rfl⟩

theorem Dev.touches_slotsTaken (n : Nat) (f : Frame) : Dev.Touches slotParts d (d.slotsTaken n f) :=
  .foldl (fun d x => d.touches_takeSlots n f.epoch x) _ _

theorem Dev.keepsNoted_slotsTaken (n : Nat) (f : Frame) : d.KeepsNoted (d.slotsTaken n f) :=
  .foldl (fun d x => d.keepsNoted_takeSlots n f.epoch x) _ _

theorem Dev.touches_noteFrame (n : Nat) (sn : W32) (rx : PenRx) : Dev.Touches [.pen] d (d.noteFrame n sn rx) :=
  Dev.touches_setStr ..

theorem Dev.noteFrame_str (n : Nat) (sn : W32) (rx : PenRx) :
    ((d.noteFrame n sn rx).str n).rx = (d.str n).rx ++ [rx] ∧
      ((d.noteFrame n sn rx).str n).training = (d.str n).training := by
  unfold Dev.noteFrame
  rw [Dev.setStr_str_self]
  split <;> exact ⟨rfl, rfl⟩

theorem Dev.touches_endFrame (n : Nat) (f : Frame) (looped : Bool) (rs : List PenRx) :
    Dev.Touches replyParts d (d.endFrame n f looped rs) := by
  unfold Dev.endFrame
  extract_lets d1 d2
  have h1 : Dev.Touches _ d d1 := .ite (Dev.touches_keepRanges ..) .refl
  have h2 : Dev.Touches _ d1 d2 := Dev.touches_updateLease ..
  exact .mono ((h1.andThen h2).andThen (.ite (Dev.touches_trainFail ..) (Dev.touches_frameReply ..))) (by decide)

theorem Dev.keepsNoted_rangesKept (n : Nat) (looped : Bool) (rs : List PenRx) :
    d.KeepsNoted (if looped then d.keepRanges n rs else d) := .ite (.setStr rfl id) .refl

theorem Dev.keepsNoted_endFrame (n : Nat) (f : Frame) (looped : Bool) (rs : List PenRx) :
    d.KeepsNoted (d.endFrame n f looped rs) :=
  ((Dev.keepsNoted_rangesKept ..).trans (Dev.keepsNoted_updateLease ..)).trans
    (.ite (Dev.keepsNoted_trainFail ..) (Dev.keepsNoted_frameReply ..))

theorem Dev.endFrame_mod {n : Nat} (h : (d.str n).training = false) (f : Frame) (looped : Bool) (rs : List PenRx) :
    (d.endFrame n f looped rs).mod = d.mod := by
  unfold Dev.endFrame
  extract_lets d1 d2
  have h1 : Dev.Touches _ d d1 := .ite (Dev.touches_keepRanges ..) .refl
  have h2 : d2.mod = d.mod := ((h1.andThen (Dev.touches_updateLease ..)).same .mod (by decide)).symm
  have hidle : (d2.str n).training = false :=
    ((d.keepsNoted_rangesKept n looped rs).trans (Dev.keepsNoted_updateLease ..)).idle n h
  rw [if_neg (by simp [hidle]), Dev.frameReply_mod hidle, h2]

/-- What a frame that is taken touches. -/
def frameParts : List Part := [.mod, .pen, .pnt, .sup, .twn, .commands, .events, .reports]

/-- A frame that is taken leaves the rest of the device and the header-error count, and on a string that does not train it is
noted, and its correct slots are seen. -/
theorem Dev.takeFrame_spec (n e : Nat) (f : Frame) : Dev.Touches frameParts d (d.takeFrame n e f) ∧
    (d.takeFrame n e f).pen.hdrErrCnt = d.pen.hdrErrCnt ∧ ((d.str n).training = false →
      (∃ rx : PenRx, ((d.takeFrame n e f).str n).rx = (d.str n).rx ++ [rx] ∧ rx.sn = f.sn ∧ rx.e = e) ∧
      ∀ x ∈ (upto f.len).zip f.slots, crc16Ok x.2 = true → (d.takeFrame n e f).seenNow (64 * n + x.1)) := by
  obtain ⟨rx, rs, h, hsn, he⟩ := d.takeFrame_eq n e f
  rw [h]
  have hslots := d.keepsNoted_slotsTaken n f
  have hend := ((d.slotsTaken n f).noteFrame n f.sn rx).keepsNoted_endFrame n f rx.looped rs
  obtain ⟨hrx, htrain⟩ := (d.slotsTaken n f).noteFrame_str n f.sn rx
  refine ⟨.mono (((Dev.touches_slotsTaken ..).andThen (Dev.touches_noteFrame ..)).andThen (Dev.touches_endFrame ..))
    (by decide), hend.hdr.trans hslots.hdr, fun hidle => ⟨⟨rx, ?_, hsn, he⟩, fun x hx hcrc => ?_⟩⟩
  · rw [hend.rx, hrx, hslots.rx]
  · have hseen : (d.slotsTaken n f).seenNow (64 * n + x.1) :=
      Dev.foldl_takeSlots_seenNow f.epoch _ (.inl ⟨x, hx, hcrc, rfl⟩)
    exact (hseen.of_touches (Dev.touches_noteFrame ..) (by decide)).of_mod
      (Dev.endFrame_mod _ (htrain.trans (hslots.idle n hidle)) ..)

end

/-! ### The row -/

section
variable {d : Dev} {n e : Nat} {line : LineIn}

theorem Dev.frameReceived_idle (h : d.strEn n = false ∨ e ∉ d.myEnds ∨ frameOf line = none) :
    d.frameReceived n e line = d := by
  unfold Dev.frameReceived
  obtain h | h | h := h
  · exact if_pos (.inl (by rw [h]; rfl))
  · exact if_pos (.inr h)
  · rw [h]
    exact ite_self _

section
variable {f : Frame} (hen : d.strEn n = true) (he : e ∈ d.myEnds) (hf : frameOf line = some f)
include hen he hf

theorem Dev.frameReceived_some : d.frameReceived n e line =
    if !f.crcOk then d.onPen fun p => { p with hdrErrCnt := satInc p.hdrErrCnt }
    else if f.string = n ∧ f.len = d.strLen n then d.takeFrame n e f else d := by
  unfold Dev.frameReceived
  rw [hf, hen]
  exact if_neg (by simp [he])

theorem Dev.frameReceived_wrong (hc : f.crcOk = false) :
    d.frameReceived n e line = d.onPen fun p => { p with hdrErrCnt := satInc p.hdrErrCnt } :=
  (Dev.frameReceived_some hen he hf).trans (if_pos (by rw [hc]; rfl))

theorem Dev.frameReceived_other (hc : f.crcOk = true) (hother : f.string ≠ n ∨ f.len ≠ d.strLen n) :
    d.frameReceived n e line = d :=
  (Dev.frameReceived_some hen he hf).trans ((if_neg (by simp [hc])).trans (if_neg (not_and_or.mpr hother)))

theorem Dev.frameReceived_taken (hc : f.crcOk = true) (hown : f.string = n ∧ f.len = d.strLen n) :
    d.frameReceived n e line = d.takeFrame n e f :=
  (Dev.frameReceived_some hen he hf).trans ((if_neg (by simp [hc])).trans (if_pos hown))

end

end

/-- Settles O27: the three ways of a frame, and what a frame that is taken leaves and notes. -/
theorem receivedFramesAreTakenBySlot : Obligations.ReceivedFramesAreTakenBySlot := by
  refine ⟨fun n e line s f hen he hf => ⟨fun hc => ?_, fun hc hother => ?_, fun hc hstr hlen => ?_⟩,
    fun n e line s h => exec_of_effect rfl (Dev.frameReceived_idle (d := s.fresh) h)⟩
  · exact ⟨_, exec_of_effect rfl (Dev.frameReceived_wrong (d := s.fresh) hen he hf hc), rfl,
      (Dev.touches_onPen ..).keeps.quietly rfl⟩
  · exact exec_of_effect rfl (Dev.frameReceived_other (d := s.fresh) hen he hf hc hother)
  · obtain ⟨htouch, hhdr, hnoted⟩ := s.fresh.takeFrame_spec n.val e.val f
    obtain ⟨hkeeps, hpending⟩ := ChangesOnly.of_after htouch.keeps
    exact ⟨_, exec_of_effect rfl (Dev.frameReceived_taken (d := s.fresh) hen he hf hc ⟨hstr, hlen⟩),
      fun p hp => hkeeps.same p (by revert p; decide), hhdr, hpending, hnoted⟩

end Sys2Proof.Machine
end

section
/-! PROOFS. Bits of a word that flags are gathered in, and what the operations on one PWM pair leave of every pair (R203,
R210, R217). -/

namespace Sys2Proof.Machine

open Host

/-! ### Bits -/

theorem bitAt_eq_testBit (v n : Nat) : bitAt v n = v.testBit n := Nat.testBit_eq_decide_div_mod_eq.symm

@[simp] theorem bitAt_zero (n : Nat) : bitAt 0 n = false := by rw [bitAt_eq_testBit, Nat.zero_testBit]

@[simp] theorem bitAt_or (v w n : Nat) : bitAt (v ||| w) n = (bitAt v n || bitAt w n) := by
  simp only [bitAt_eq_testBit, Nat.testBit_or]

@[simp] theorem bitAt_and (v w n : Nat) : bitAt (v &&& w) n = (bitAt v n && bitAt w n) := by
  simp only [bitAt_eq_testBit, Nat.testBit_and]

@[simp] theorem bitAt_two_pow (k n : Nat) : bitAt (2 ^ k) n = decide (k = n) := by
  rw [bitAt_eq_testBit, Nat.testBit_two_pow]

theorem bitAt_sub_two_pow {v n : Nat} (h : bitAt v n = true) : bitAt (v - 2 ^ n) n = false := by
  have hdiv : (v - 2 ^ n) / 2 ^ n = v / 2 ^ n - 1 := by simpa using Nat.sub_mul_div v (2 ^ n) 1
  simp only [bitAt, decide_eq_true_eq, decide_eq_false_iff_not] at h ⊢
  omega

/-- A mask that gathers the numbers of a list. -/
theorem bitAt_foldl_or (l : List Nat) (m n : Nat) :
    bitAt (l.foldl (fun m k => m ||| 2 ^ k) m) n = (bitAt m n || decide (n ∈ l)) := by
  induction l generalizing m with
  | nil => simp
  | cons k rest ih => simp [ih, eq_comm, Bool.or_assoc]

theorem pack_append (l l' : List (Nat × Nat)) : pack (l ++ l') = pack l + pack l' := by
  induction l with
  | nil => simp [pack]
  | cons x rest ih => simp only [List.cons_append, pack, ih, Nat.add_assoc]

/-- A word of one flag at each place. -/
theorem pack_flags (f : Nat → Bool) (m : Nat) : pack ((upto m).map fun n => (b2n (f n), n)) < 2 ^ m ∧
    ∀ n, bitAt (pack ((upto m).map fun n => (b2n (f n), n))) n = (decide (n < m) && f n) := by
  induction m with
  | zero => exact ⟨by simp [upto, pack], fun n => by simp [upto, pack]⟩
  | succ m ih =>
    obtain ⟨hlt, hbit⟩ := ih
    have hsucc : pack ((upto (m + 1)).map fun n => (b2n (f n), n)) =
        2 ^ m * b2n (f m) + pack ((upto m).map fun n => (b2n (f n), n)) := by
      simp only [upto, List.range_succ, List.map_append, List.map_cons, List.map_nil, pack_append, pack]
      ring
    rw [hsucc]
    refine ⟨?_, fun n => ?_⟩
    · have hflag : b2n (f m) ≤ 1 := by unfold b2n; split <;> omega
      have := Nat.mul_le_mul_left (2 ^ m) hflag
      rw [Nat.pow_succ]
      omega
    · rw [bitAt_eq_testBit, Nat.testBit_two_pow_mul_add _ hlt, ← bitAt_eq_testBit, hbit n]
      obtain h | rfl | h := Nat.lt_trichotomy n m
      · simp [h, Nat.lt_succ_of_lt h]
      · cases f n <;> simp [b2n]
      · obtain ⟨k, rfl⟩ := Nat.exists_eq_add_of_lt h
        rw [show m + k + 1 - m = k + 1 by omega, decide_eq_false (by omega : ¬ m + k + 1 < m)]
        cases f m <;> simp [b2n, Nat.testBit_succ]

/-! ### One pair among the others -/

/-- A loop over a list that holds `x` reaches what the step at `x` sets up and every step keeps. -/
theorem Dev.foldl_reaches {α : Type} {f : Dev → α → Dev} {P : Dev → Prop} {x : α} (hkeep : ∀ d y, P d → P (f d y))
    (hset : ∀ d, P (f d x)) {l : List α} (hx : x ∈ l) (d : Dev) : P (l.foldl f d) := by
  have hrest (l : List α) (d : Dev) (h : P d) : P (l.foldl f d) := by
    induction l generalizing d with
    | nil => exact h
    | cons y rest ih => exact ih _ (hkeep d y h)
  obtain ⟨before, rest, rfl⟩ := List.append_of_mem hx
  rw [List.foldl_append]
  exact hrest rest _ (hset _)

section
variable (d : Dev) (p k : Nat)

theorem Dev.pair_of_pwm {d e : Dev} (h : e.pwm = d.pwm) : e.pair k = d.pair k :=
  congrArg (fun w : PwmState => w.pairs.get PwmPair.reset k) h

theorem Dev.pair_setOut_self (a b : Nat) : (d.setOut p a b).pair p = { d.pair p with outA := a, outB := b } :=
  d.pair_setPair_self p _

theorem Dev.pair_setOut_of_ne {p k : Nat} (h : p ≠ k) (a b : Nat) : (d.setOut p a b).pair k = d.pair k :=
  d.pair_setPair_of_ne h _

/-- When X falls, A falls with it, and B rises DT_FALL later (R203). -/
theorem Dev.pair_xOff_self (ft : Nat) : (d.xOff p ft).pair p = { d.pair p with
    x := false, outA := 0, outB := if d.dtFall p = 0 then 1 else 0
    rise := if d.dtFall p = 0 then none else some (ft + d.dtFall p, false) } := by
  unfold Dev.xOff
  dsimp only
  rw [Dev.pair_setOut_self, Dev.pair_setPair_self]

theorem Dev.pair_xOff_of_ne {p k : Nat} (h : p ≠ k) (ft : Nat) : (d.xOff p ft).pair k = d.pair k :=
  (Dev.pair_setOut_of_ne _ h ..).trans (d.pair_setPair_of_ne h _)

/-- When X rises, B falls with it, and A rises DT_RISE later (R203). -/
theorem Dev.pair_xOn_self (ft : Nat) : (d.xOn p ft).pair p = { d.pair p with
    x := true, outA := if d.dtRise p = 0 then 1 else 0, outB := 0
    rise := if d.dtRise p = 0 then none else some (ft + d.dtRise p, true) } := by
  unfold Dev.xOn
  dsimp only
  rw [Dev.pair_setOut_self, Dev.pair_setPair_self]

theorem Dev.pair_xOn_of_ne {p k : Nat} (h : p ≠ k) (ft : Nat) : (d.xOn p ft).pair k = d.pair k :=
  (Dev.pair_setOut_of_ne _ h ..).trans (d.pair_setPair_of_ne h _)

theorem Dev.touches_xOff (ft : Nat) : Dev.Touches [.pwm] d (d.xOff p ft) :=
  .mono ((d.touches_setPair p _).andThen (Dev.touches_setOut ..)) (by decide)

theorem Dev.touches_xOn (ft : Nat) : Dev.Touches [.pwm] d (d.xOn p ft) :=
  .mono ((d.touches_setPair p _).andThen (Dev.touches_setOut ..)) (by decide)

end

end Sys2Proof.Machine
end

section
/-! PROOFS. PWM_COMMIT (R206–R208, R213). -/

namespace Sys2Proof.Machine

open Host

/-! ### The commit of one pair -/

section
variable {d : Dev} {p k : Nat}

/-- A pair with its shadow values loaded. -/
def Dev.withShadows (d : Dev) (p : Nat) : PwmPair :=
  { d.pair p with period := d.cfg (Reg.PWM_PERIOD p), cmp := d.cfg (Reg.PWM_CMPA p), loads := [] }

/-- A pair with its shadow values as the last load that waits. -/
def Dev.withLoad (d : Dev) (p : Nat) : PwmPair :=
  { d.pair p with loads := (d.pair p).loads ++ [(d.now, d.cfg (Reg.PWM_PERIOD p), d.cfg (Reg.PWM_CMPA p))] }

theorem Dev.commitPair_refused (h : d.periodRefused p (d.cfg (Reg.PWM_PERIOD p)) = true) :
    d.commitPair p = d.event 10 3 p 0 0 := if_pos h

section
variable (h : d.periodRefused p (d.cfg (Reg.PWM_PERIOD p)) = false)
include h

theorem Dev.commitPair_starts (hfree : d.pairFree p = true) (hen : d.pairEn p = true) (hper : (d.pair p).period = 0) :
    d.commitPair p = d.setPair p { d.withShadows p with next := some d.now } :=
  (if_neg (ne_true_of_eq_false h)).trans (if_pos ⟨hfree, hen, hper⟩)

theorem Dev.commitPair_off (hen : d.pairEn p = false) : d.commitPair p = d.setPair p (d.withShadows p) :=
  (if_neg (ne_true_of_eq_false h)).trans ((if_neg (by simp [hen])).trans (if_pos (by simp [hen])))

theorem Dev.commitPair_waits (hen : d.pairEn p = true) (hrun : d.pairFree p = false ∨ (d.pair p).period ≠ 0) :
    d.commitPair p = d.setPair p (d.withLoad p) :=
  (if_neg (ne_true_of_eq_false h)).trans
    ((if_neg (by rintro ⟨hfree, -, hper⟩; simp_all)).trans (if_neg (by simp [hen])))

end

theorem Dev.commitPair_pair_of_ne (h : p ≠ k) : (d.commitPair p).pair k = d.pair k := by
  unfold Dev.commitPair
  dsimp only
  split
  · exact Dev.pair_of_pwm k (Dev.event_pwm ..)
  · split
    · exact d.pair_setPair_of_ne h _
    · split
      · exact d.pair_setPair_of_ne h _
      · exact d.pair_setPair_of_ne h _

/-! ### All that are named -/

theorem Dev.touches_foldl_commitPair (l : List Nat) (d : Dev) :
    Dev.Touches [.pwm, .events, .reports] d (l.foldl Dev.commitPair d) := .foldl (fun d p => d.touches_commitPair p) _ _

theorem Dev.foldl_commitPair_pair_of_notMem {l : List Nat} (h : k ∉ l) (d : Dev) :
    (l.foldl Dev.commitPair d).pair k = d.pair k := by
  induction l generalizing d with
  | nil => rfl
  | cons x rest ih =>
    obtain ⟨hx, hrest⟩ := not_or.mp (List.mem_cons.not.mp h)
    exact (ih hrest _).trans (Dev.commitPair_pair_of_ne (Ne.symm hx))

/-- A named pair is committed once: its commit finds the pair and every register as the row did, and nothing that follows
changes the pair. -/
theorem Dev.foldl_commitPair_pair_of_mem {l : List Nat} (hl : l.Nodup) (h : p ∈ l) (d : Dev) :
    ∃ e, Dev.Touches [.pwm, .events, .reports] d e ∧ e.pair p = d.pair p ∧
      (l.foldl Dev.commitPair d).pair p = (e.commitPair p).pair p ∧ (e.commitPair p).Grows (l.foldl Dev.commitPair d) := by
  obtain ⟨before, rest, rfl⟩ := List.append_of_mem h
  obtain ⟨-, hrest, hbefore⟩ := List.nodup_append.mp hl
  have hb : p ∉ before := fun hp => hbefore p hp p (List.mem_cons_self ..) rfl
  refine ⟨before.foldl Dev.commitPair d, Dev.touches_foldl_commitPair .., Dev.foldl_commitPair_pair_of_notMem hb d, ?_, ?_⟩
  · rw [List.foldl_append]
    exact Dev.foldl_commitPair_pair_of_notMem (List.nodup_cons.mp hrest).1 _
  · rw [List.foldl_append]
    exact (Dev.touches_foldl_commitPair rest _).grows

end

/-! ### What a commit does with one pair -/

/-- The commit of a pair, as its kind and its PERIOD decide: `d` before, `e` after. -/
structure PairCommitted (p : Nat) (d e : Dev) : Prop where
  refused : d.periodRefused p (d.cfg (Reg.PWM_PERIOD p)) = true → e.pair p = d.pair p ∧ e.stands Reg.PWM_EVENT 8
  off : d.periodRefused p (d.cfg (Reg.PWM_PERIOD p)) = false → d.pairEn p = false → e.pair p = d.withShadows p
  waits : d.periodRefused p (d.cfg (Reg.PWM_PERIOD p)) = false → d.pairEn p = true →
    (d.pairFree p = false ∨ (d.pair p).period ≠ 0) → e.pair p = d.withLoad p
  starts : d.periodRefused p (d.cfg (Reg.PWM_PERIOD p)) = false → d.pairEn p = true → d.pairFree p = true →
    (d.pair p).period = 0 → e.pair p = { d.withShadows p with next := some d.now }

theorem Dev.commitPair_committed (d : Dev) (p : Nat) : PairCommitted p d (d.commitPair p) where
  refused h := by
    rw [Dev.commitPair_refused h]
    exact ⟨Dev.pair_of_pwm p (Dev.event_pwm ..), Dev.event_stands 10 3 p 0 0 d⟩
  off h hen := by rw [Dev.commitPair_off h hen, Dev.pair_setPair_self]
  waits h hen hrun := by rw [Dev.commitPair_waits h hen hrun, Dev.pair_setPair_self]
  starts h hen hfree hper := by rw [Dev.commitPair_starts h hfree hen hper, Dev.pair_setPair_self]

/-- A commit depends on the registers, the tick and the pair alone, and what follows it may add to the events. -/
theorem PairCommitted.of_same {p : Nat} {a d e f : Dev} (h : PairCommitted p d e) (hcfg : d.cfg = a.cfg)
    (hnow : d.now = a.now) (hpair : d.pair p = a.pair p) (hf : f.pair p = e.pair p) (hgrow : e.Grows f) :
    PairCommitted p a f := by
  obtain ⟨refused, off, waits, starts⟩ := h
  simp only [Dev.periodRefused, Dev.shortest, Dev.dtRise, Dev.dtFall, Dev.minPulse, Dev.pairEn, Dev.pairFree, Dev.flag,
    Dev.fld, Dev.withShadows, Dev.withLoad, hcfg, hnow, hpair, ← hf] at refused off waits starts
  exact ⟨fun hr => (refused hr).imp_right (hgrow _ _), off, waits, starts⟩

/-! ### The row -/

theorem Dev.pwmCommit_of_named {v : W32} {p : Nat} (hp : p < 12) (hv : v.getLsbD p = true) (d : Dev) :
    PairCommitted p d (d.pwmCommit v) := by
  have hnodup : ((upto 12).filter fun p => v.getLsbD p).Nodup := List.nodup_range.filter _
  obtain ⟨e, he, hpair, hlast, hgrow⟩ :=
    Dev.foldl_commitPair_pair_of_mem hnodup (List.mem_filter.mpr ⟨List.mem_range.mpr hp, hv⟩) d
  exact (e.commitPair_committed p).of_same (funext fun off => he.cfg off (by decide)) he.tick.symm hpair hlast hgrow

theorem Dev.pwmCommit_of_unnamed {v : W32} {p : Nat} (hv : v.getLsbD p = false) (d : Dev) :
    (d.pwmCommit v).pair p = d.pair p :=
  Dev.foldl_commitPair_pair_of_notMem (by simp [hv]) d

theorem pwmCommit_commits (v : W32) (s : State) : Answers (.pwmCommit v) s fun t =>
    (∀ p : Fin 12, (v.getLsbD p.val = false → t.dev.pair p.val = s.dev.pair p.val) ∧
      (v.getLsbD p.val = true → PairCommitted p.val s.dev t.dev)) ∧
    ChangesOnly [.pwm, .events, .reports] s t :=
  ⟨_, exec_of_effect rfl rfl,
    fun p => ⟨fun hv => Dev.pwmCommit_of_unnamed hv s.fresh, fun hv =>
      (Dev.pwmCommit_of_named p.isLt hv s.fresh).of_same rfl rfl rfl rfl (.of_events rfl)⟩,
    .of_after (Dev.touches_foldl_commitPair ..).keeps⟩

end Sys2Proof.Machine
end

section
/-! PROOFS. What latching and trips leave of the trip sources and the pairs (R210, R216): a pair that is safe or latched stays
so, and no source or condition goes away. -/

namespace Sys2Proof.Machine

open Host

/-! ### The rule and how it composes -/

/-- Pairs that are safe stay safe, latches stay set, and the sources' conditions, qualifications and registers stay. -/
structure Dev.KeepsLatches (a d : Dev) : Prop where
  cond : d.pwm.cond = a.pwm.cond
  qual : d.pwm.qual = a.pwm.qual
  cfg : d.cfg = a.cfg
  safe : ∀ k, (a.pair k).safe = true → (d.pair k).safe = true
  latch : ∀ k n, bitAt (a.pair k).latch n = true → bitAt (d.pair k).latch n = true

namespace Dev.KeepsLatches

variable {a d e : Dev}

theorem refl : d.KeepsLatches d := ⟨rfl, rfl, rfl, fun _ h => h, fun _ _ h => h⟩

theorem trans (h : a.KeepsLatches d) (h' : d.KeepsLatches e) : a.KeepsLatches e :=
  ⟨h'.cond.trans h.cond, h'.qual.trans h.qual, h'.cfg.trans h.cfg, fun k hk => h'.safe k (h.safe k hk),
    fun k n hk => h'.latch k n (h.latch k n hk)⟩

theorem ite {c : Prop} [Decidable c] (hd : a.KeepsLatches d) (he : a.KeepsLatches e) :
    a.KeepsLatches (if c then d else e) := by split <;> assumption

theorem foldl {α : Type} {f : Dev → α → Dev} (hf : ∀ (d : Dev) x, d.KeepsLatches (f d x)) (l : List α) (d : Dev) :
    d.KeepsLatches (l.foldl f d) := by
  induction l generalizing d with
  | nil => exact refl
  | cons x rest ih => exact (hf d x).trans (ih _)

/-- An operation that touches neither PWM nor the registers in force. -/
theorem of_touches {ps : List Part} (h : Dev.Touches ps a d) (hp : .pwm ∉ ps ∧ .values ∉ ps) : a.KeepsLatches d := by
  have hpwm : d.pwm = a.pwm := (h.same .pwm hp.1).symm
  have hpair (k : Nat) : d.pair k = a.pair k := Dev.pair_of_pwm k hpwm
  exact ⟨congrArg PwmState.cond hpwm, congrArg PwmState.qual hpwm, funext fun off => h.cfg off hp.2,
    fun k hk => by rwa [hpair], fun k n hk => by rwa [hpair]⟩

/-- An operation on one pair, which stays safe and latched where it was. -/
theorem of_pair {p : Nat} (h : Dev.Touches [.pwm] a d) (hc : d.pwm.cond = a.pwm.cond) (hq : d.pwm.qual = a.pwm.qual)
    (hne : ∀ k, p ≠ k → d.pair k = a.pair k) (hs : (a.pair p).safe = true → (d.pair p).safe = true)
    (hl : ∀ n, bitAt (a.pair p).latch n = true → bitAt (d.pair p).latch n = true) : a.KeepsLatches d := by
  refine ⟨hc, hq, funext fun off => h.cfg off (by decide), fun k hk => ?_, fun k n hk => ?_⟩
  · by_cases h : p = k
    · exact h ▸ hs (h ▸ hk)
    · rwa [hne k h]
  · by_cases h : p = k
    · exact h ▸ hl n (h ▸ hk)
    · rwa [hne k h]

theorem setPair {p : Nat} {v : PwmPair} (hs : (d.pair p).safe = true → v.safe = true)
    (hl : ∀ n, bitAt (d.pair p).latch n = true → bitAt v.latch n = true) : d.KeepsLatches (d.setPair p v) := by
  have hv : (d.setPair p v).pair p = v := d.pair_setPair_self p v
  exact .of_pair (d.touches_setPair p v) rfl rfl (fun k hk => d.pair_setPair_of_ne hk v)
    (fun h => (congrArg PwmPair.safe hv).trans (hs h)) fun n h => (congrArg (bitAt ·.latch n) hv).trans (hl n h)

end Dev.KeepsLatches

section
variable (d : Dev)

theorem Dev.keepsLatches_pairSafe (p : Nat) : d.KeepsLatches (d.pairSafe p) := by
  have hv : (d.pairSafe p).pair p = d.inSafe p (d.pair p) := d.pair_pairSafe_self p
  exact .of_pair (d.touches_pairSafe p) rfl rfl (fun k hk => d.pair_pairSafe_of_ne hk)
    (fun _ => congrArg PwmPair.safe hv) fun n h => (congrArg (bitAt ·.latch n) hv).trans h

theorem Dev.keepsLatches_holdPairs : d.KeepsLatches d.holdPairs :=
  .foldl (fun d p => .ite (d.keepsLatches_pairSafe p) .refl) _ _

/-! ### Trips -/

theorem Dev.keepsLatches_blockAll : d.KeepsLatches d.blockAll := by
  unfold Dev.blockAll
  extract_lets by_
  have h : Dev.Touches _ d _ := (d.touches_onSup fun s => { s with blocked := true, blockBy := by_ }).andThen
    (Dev.touches_blockStrings _)
  exact (Dev.KeepsLatches.of_touches h (by decide)).trans (Dev.keepsLatches_holdPairs _)

theorem Dev.keepsLatches_hardAction : d.KeepsLatches d.hardAction :=
  (Dev.KeepsLatches.of_touches (d.touches_onSup _) (by decide)).trans (Dev.keepsLatches_blockAll _)

theorem Dev.keepsLatches_tripAlso (cls : TripClass) (cause : Nat) : d.KeepsLatches (d.tripAlso cls cause) := by
  unfold Dev.tripAlso
  extract_lets d1 d2 d3
  have h3 : Dev.Touches _ d d3 := ((Dev.touches_sendTrip ..).andThen (Dev.touches_onSup ..)).andThen (Dev.touches_onProf ..)
  exact .of_touches ((((h3.andThen (Dev.touches_event ..)).andThen (Dev.touches_irq ..)).andThen (Dev.touches_acqTrip _)).andThen
    (Dev.touches_addCause ..)) (by decide)

theorem Dev.keepsLatches_tripNew (cls : TripClass) (cause : Nat) (details : List Nat) :
    d.KeepsLatches (d.tripNew cls cause details) := by
  unfold Dev.tripNew
  extract_lets active d1 d2 d3 d4 d5 d6
  have h3 : Dev.Touches _ d d3 := ((Dev.touches_onSup ..).andThen (Dev.touches_onProf ..)).andThen (Dev.touches_onGfm ..)
  have h4 : Dev.Touches _ d3 d4 := (Dev.touches_event ..).andThen (Dev.touches_irq ..)
  have h6 : Dev.Touches _ d4 d6 := ((Dev.touches_acqTrip _).andThen (Dev.touches_openTrip ..)).andThen (Dev.touches_sendTrip ..)
  have hheld : d6.KeepsLatches (d6.onSup fun s => { s with ramp := none, hardHold := true }).holdPairs :=
    (Dev.KeepsLatches.of_touches (Dev.touches_onSup ..) (by decide)).trans (Dev.keepsLatches_holdPairs _)
  have hcommit (e : Dev) : e.KeepsLatches (e.commitTrip false d6.ang.cur.sn.toNat) :=
    .of_touches (Dev.touches_commitTrip ..) (by decide)
  have hsoft : d6.KeepsLatches (d6.softAction cause) := .of_touches (Dev.touches_softAction ..) (by decide)
  exact (Dev.KeepsLatches.of_touches ((h3.andThen h4).andThen h6) (by decide)).trans
    (.ite ((Dev.KeepsLatches.ite hheld .refl).trans (hcommit _)) (.ite (Dev.keepsLatches_hardAction _) hsoft))

theorem Dev.keepsLatches_takeEffect (cls : TripClass) (cause : Nat) (details : List Nat) :
    d.KeepsLatches (d.takeEffect cls cause details) := by
  have hfurther : d.KeepsLatches (d.tripFurther cls cause) :=
    (Dev.KeepsLatches.ite (Dev.keepsLatches_hardAction _) .refl).trans (Dev.keepsLatches_tripAlso ..)
  have hevent : d.KeepsLatches (d.event 9 15 cause (instanceOf cause details) 0) :=
    .of_touches (Dev.touches_event ..) (by decide)
  exact .ite .refl (.ite hevent (.ite hfurther (Dev.keepsLatches_tripNew ..)))

theorem Dev.keepsLatches_routed (cause inst : Nat) (details : List Nat) :
    d.KeepsLatches (d.routed cause inst details) := by
  unfold Dev.routed
  split
  · exact .of_touches (Dev.touches_event ..) (by decide)
  · exact .ite (.of_touches (Dev.touches_tripNextStroke ..) (by decide)) (Dev.keepsLatches_takeEffect ..)

/-! ### A source latches its pairs (R216) -/

/-- One step of `latchPairs`. -/
def Dev.latchPair (n : Nat) (d : Dev) (p : Nat) : Dev :=
  if bitAt (d.srcPairs n) p then
    let d := d.setPair p { d.pair p with latch := (d.pair p).latch ||| 2 ^ n }
    if (d.pair p).safe then d else d.pairSafe p
  else d

theorem Dev.latchPairs_eq (n : Nat) : d.latchPairs n = (upto 12).foldl (Dev.latchPair n) d := rfl

theorem Dev.keepsLatches_latchPair (n p : Nat) : d.KeepsLatches (d.latchPair n p) := by
  have hset : d.KeepsLatches (d.setPair p { d.pair p with latch := (d.pair p).latch ||| 2 ^ n }) :=
    .setPair id fun m hm => by simp [hm]
  exact .ite (.ite hset (hset.trans (Dev.keepsLatches_pairSafe ..))) .refl

theorem Dev.keepsLatches_latchPairs (n : Nat) : d.KeepsLatches (d.latchPairs n) :=
  d.latchPairs_eq n ▸ .foldl (fun d p => d.keepsLatches_latchPair n p) _ _

theorem Dev.latchPair_tripTick (n p : Nat) : (d.latchPair n p).pwm.tripTick = d.pwm.tripTick := by
  unfold Dev.latchPair
  split
  · extract_lets d1
    split <;> rfl
  · rfl

theorem Dev.latchPairs_tripTick (n : Nat) : (d.latchPairs n).pwm.tripTick = d.pwm.tripTick := by
  rw [Dev.latchPairs_eq]
  exact Dev.foldl_same (part := fun d => d.pwm.tripTick) (fun d p => d.latchPair_tripTick n p) _ d

/-- Source n holds pair p, if p is one of its pairs: the pair is safe and latched by n. -/
def Dev.holdsPair (n p : Nat) (d : Dev) : Prop :=
  bitAt (d.srcPairs n) p = true → (d.pair p).safe = true ∧ bitAt (d.pair p).latch n = true

variable {d} in
theorem Dev.KeepsLatches.holdsPair {a : Dev} (h : a.KeepsLatches d) {n p : Nat} (ha : a.holdsPair n p) :
    d.holdsPair n p := by
  intro hb
  simp only [Dev.srcPairs, Dev.fld, h.cfg] at hb
  exact ⟨h.safe p (ha hb).1, h.latch p n (ha hb).2⟩

theorem Dev.latchPair_holdsPair (n p : Nat) : (d.latchPair n p).holdsPair n p := by
  intro hb
  have hb : bitAt (d.srcPairs n) p = true := by simpa only [Dev.srcPairs, Dev.fld, (d.keepsLatches_latchPair n p).cfg] using hb
  unfold Dev.latchPair
  rw [if_pos hb]
  extract_lets x d1
  have h1 : bitAt (d1.pair p).latch n = true := by simp [d1, Dev.pair_setPair_self]
  split
  · next hs => exact ⟨hs, h1⟩
  · rw [Dev.pair_pairSafe_self]
    exact ⟨rfl, h1⟩

theorem Dev.latchPairs_holdsPair (n : Nat) {p : Nat} (hp : p < 12) : (d.latchPairs n).holdsPair n p :=
  Dev.foldl_reaches (P := Dev.holdsPair n p) (fun d q h => (d.keepsLatches_latchPair n q).holdsPair h)
    (fun d => d.latchPair_holdsPair n p) (List.mem_range.mpr hp) d

end

end Sys2Proof.Machine
end

section
/-! PROOFS. Trip sources qualify and latch their pairs (R214–R216), the end of a blanking timer (R217, R218), and the release
of a trip input (R168). -/

namespace Sys2Proof.Machine

open Host

section
variable (d : Dev) (mask : Nat)

/-! ### Sources that qualify (R215, R216) -/

/-- The sources of a mask that qualify. -/
def Dev.newSources (d : Dev) (mask : Nat) : List Nat :=
  (upto 16).filter fun n => bitAt mask n && d.srcEn n && !bitAt d.pwm.qual n

/-- Those of them that have pairs. -/
def Dev.localSources (d : Dev) (mask : Nat) : List Nat := (d.newSources mask).filter fun n => decide (d.srcPairs n ≠ 0)

/-- The local trips of some sources are recorded, with one event for those of one tick. -/
def Dev.noteLocal (locals : List Nat) (d : Dev) : Dev :=
  match locals with
  | [] => d
  | n :: _ =>
    let again : Bool := d.pwm.tripTick == some d.now
    let d := d.onPwm fun s => { s with
      tripSnap := locals.foldl (fun m k => m ||| 2 ^ k) (if again then s.tripSnap else 0), tripTick := some d.now }
    if again then d else (d.event 10 1 n 0 0).irq 53

/-- Some sources have qualified. -/
def Dev.addQual (ns : List Nat) (d : Dev) : Dev :=
  d.onPwm fun s => { s with qual := ns.foldl (fun m n => m ||| 2 ^ n) s.qual }

/-- Some sources latch their pairs. -/
def Dev.latchAll (locals : List Nat) (d : Dev) : Dev := locals.foldl (fun d n => d.latchPairs n) d

/-- Some sources are passed on to SUP. -/
def Dev.routeAll (ns : List Nat) (d : Dev) : Dev :=
  ns.foldl (fun d n => d.routed (sourceCause n).1 (sourceCause n).2 [(sourceCause n).2]) d

theorem Dev.qualify_eq : d.qualify mask = (((d.addQual (d.newSources mask)).latchAll (d.localSources mask)).noteLocal
    (d.localSources mask)).routeAll (d.newSources mask) := by
  unfold Dev.qualify
  rfl

theorem Dev.qualify_of_none (h : d.newSources mask = []) : d.qualify mask = d := by
  rw [Dev.qualify_eq, Dev.localSources, h]
  rfl

theorem Dev.keepsLatches_noteLocal (locals : List Nat) : d.KeepsLatches (d.noteLocal locals) := by
  cases locals with
  | nil => exact .refl
  | cons n rest =>
    unfold Dev.noteLocal
    extract_lets again d1
    have h1 : d.KeepsLatches d1 := ⟨rfl, rfl, rfl, fun _ h => h, fun _ _ h => h⟩
    have h2 : Dev.Touches _ d1 ((d1.event 10 1 n 0 0).irq 53) := (Dev.touches_event ..).andThen (Dev.touches_irq ..)
    exact .ite h1 (h1.trans (.of_touches h2 (by decide)))

theorem Dev.keepsLatches_latchAll (locals : List Nat) : d.KeepsLatches (d.latchAll locals) :=
  .foldl (fun d n => d.keepsLatches_latchPairs n) _ _

theorem Dev.keepsLatches_routeAll (ns : List Nat) : d.KeepsLatches (d.routeAll ns) :=
  .foldl (fun d _ => d.keepsLatches_routed ..) _ _

/-- The first local trip of a tick sets LOCAL_TRIP. -/
theorem Dev.noteLocal_stands {locals : List Nat} (hl : locals ≠ []) (h : d.pwm.tripTick ≠ some d.now) :
    (d.noteLocal locals).stands Reg.PWM_EVENT 2 := by
  obtain ⟨n, rest, rfl⟩ := List.exists_cons_of_ne_nil hl
  unfold Dev.noteLocal
  dsimp only
  rw [if_neg (by simpa using h)]
  exact (Dev.touches_irq ..).grows _ _ (Dev.event_stands 10 1 n 0 0 _)

section
variable {d mask} {n : Nat} (hn : n ∈ d.newSources mask)
include hn

/-- A source that qualifies is noted as qualified, and the conditions stay. -/
theorem Dev.qualify_sources : bitAt (d.qualify mask).pwm.qual n = true ∧ (d.qualify mask).pwm.cond = d.pwm.cond := by
  have hkeep : (d.addQual (d.newSources mask)).KeepsLatches (d.qualify mask) := by
    rw [Dev.qualify_eq]
    exact ((Dev.keepsLatches_latchAll ..).trans (Dev.keepsLatches_noteLocal ..)).trans (Dev.keepsLatches_routeAll ..)
  refine ⟨?_, hkeep.cond⟩
  rw [hkeep.qual]
  exact (bitAt_foldl_or ..).trans (by simp [hn])

/-- A source that qualifies latches each of its pairs, safe. -/
theorem Dev.qualify_latches {p : Nat} (hp : p < 12) (hb : bitAt (d.srcPairs n) p = true) :
    ((d.qualify mask).pair p).safe = true ∧ bitAt ((d.qualify mask).pair p).latch n = true := by
  have hpairs : d.srcPairs n ≠ 0 := fun h0 => by simp [h0] at hb
  have hlocal : n ∈ d.localSources mask := List.mem_filter.mpr ⟨hn, decide_eq_true hpairs⟩
  have hlatched : ((d.addQual (d.newSources mask)).latchAll (d.localSources mask)).holdsPair n p :=
    Dev.foldl_reaches (P := Dev.holdsPair n p) (fun d m h => (d.keepsLatches_latchPairs m).holdsPair h)
      (fun d => d.latchPairs_holdsPair n hp) hlocal _
  have hlast : (d.qualify mask).holdsPair n p := by
    rw [Dev.qualify_eq]
    exact ((Dev.keepsLatches_noteLocal ..).trans (Dev.keepsLatches_routeAll ..)).holdsPair hlatched
  refine hlast ?_
  rwa [Dev.srcPairs, Dev.fld, (Dev.touches_qualify d mask).cfg _ (by decide)]

/-- A source with pairs that qualifies sets LOCAL_TRIP, if no other has in the tick. -/
theorem Dev.qualify_stands (hpairs : d.srcPairs n ≠ 0) (htick : d.pwm.tripTick ≠ some d.now) :
    (d.qualify mask).stands Reg.PWM_EVENT 2 := by
  have hlocal : d.localSources mask ≠ [] := List.ne_nil_of_mem (List.mem_filter.mpr ⟨hn, decide_eq_true hpairs⟩)
  have htouch : Dev.Touches _ d ((d.addQual (d.newSources mask)).latchAll (d.localSources mask)) :=
    (Dev.touches_onPwm ..).andThen (.foldl (fun d n => d.touches_latchPairs n) _ _)
  have hsame : ((d.addQual (d.newSources mask)).latchAll (d.localSources mask)).pwm.tripTick = d.pwm.tripTick :=
    Dev.foldl_same (part := fun d => d.pwm.tripTick) (fun d n => d.latchPairs_tripTick n) _ _
  rw [Dev.qualify_eq]
  refine Dev.Touches.grows (.foldl (fun d n => d.touches_routed ..) _ _) _ _ (Dev.noteLocal_stands _ hlocal ?_)
  rwa [hsame, Dev.now, ← htouch.tick]

end

/-! ### Sources whose condition is present (R217) -/

/-- The sources whose condition is present and not blanked. -/
def Dev.presentMask (d : Dev) : Nat :=
  ((upto 16).filter fun n => bitAt d.pwm.cond n && !d.srcBlanked n).foldl (fun m n => m ||| 2 ^ n) 0

theorem Dev.requalify_eq : d.requalify = d.qualify d.presentMask := rfl

theorem Dev.mem_newSources_present {n : Nat} (hn : n < 16) (hc : bitAt d.pwm.cond n = true) (hen : d.srcEn n = true)
    (hb : d.srcBlanked n = false) (hq : bitAt d.pwm.qual n = false) : n ∈ d.newSources d.presentMask := by
  have hmask : bitAt d.presentMask n = true := by
    rw [Dev.presentMask, bitAt_foldl_or]
    simp [upto, hn, hc, hb]
  exact List.mem_filter.mpr ⟨List.mem_range.mpr hn, by simp [hmask, hen, hq]⟩

theorem Dev.requalify_of_noCond (h : d.pwm.cond = 0) : d.requalify = d :=
  d.qualify_of_none d.presentMask (by simp [Dev.newSources, Dev.presentMask, h])

end

/-! ### LOCAL_TRIP (R215, R216) -/

/-- The named conditions that count are present. -/
def Dev.withConds (conds : Nat) (d : Dev) : Dev :=
  d.onPwm fun s => { s with cond := s.cond ||| (conds &&& (d.activePins ||| s.cond)) }

theorem Dev.localTrip_eq (conds : Nat) (d : Dev) : d.localTrip conds = (d.withConds conds).requalify := rfl

theorem Dev.bitAt_activePins (d : Dev) {n : Nat} (hn : n < 8) : bitAt d.activePins n = d.pinCounts n true :=
  ((pack_flags (fun n => d.pinCounts n true) 8).2 n).trans (by simp [hn])

theorem Dev.bitAt_withConds {d : Dev} {conds n : Nat} (hn : n < 8) (hc : bitAt conds n = true)
    (hp : d.pinCounts n true = true) : bitAt (d.withConds conds).pwm.cond n = true := by
  simp [Dev.withConds, hc, d.bitAt_activePins hn, hp]

theorem Dev.localTrip_idle {d : Dev} {conds : Nat} (hc : d.pwm.cond = 0) (hp : conds &&& d.activePins = 0) :
    d.localTrip conds = d := by
  have hsame : d.withConds conds = d := by
    have hcond : d.pwm.cond ||| (conds &&& (d.activePins ||| d.pwm.cond)) = d.pwm.cond := by simp [hc, hp]
    unfold Dev.withConds Dev.onPwm
    dsimp only
    rw [hcond]
  rw [Dev.localTrip_eq, hsame, Dev.requalify_of_noCond d hc]

theorem localTrip_qualifies {conds : BitVec 16} {n : Nat} {s : State} (hn : n < 8) (hnamed : conds.getLsbD n = true)
    (hpin : s.dev.pinCounts n true = true) (hen : s.dev.srcEn n = true) (hb : s.dev.srcBlanked n = false)
    (hq : bitAt s.dev.pwm.qual n = false) : Answers (.localTrip conds) s fun t =>
      bitAt t.dev.pwm.qual n = true ∧ bitAt t.dev.pwm.cond n = true ∧
      (∀ p : Fin 12, bitAt (s.dev.srcPairs n) p.val = true →
        (t.dev.pair p.val).safe = true ∧ bitAt (t.dev.pair p.val).latch n = true) ∧
      (s.dev.srcPairs n ≠ 0 → s.dev.pwm.tripTick ≠ some s.dev.now → t.dev.stands Reg.PWM_EVENT 2) ∧
      t.pending = s.pending := by
  have hcond : bitAt (s.fresh.withConds conds.toNat).pwm.cond n = true :=
    Dev.bitAt_withConds (d := s.fresh) hn ((bitAt_toNat ..).trans hnamed) hpin
  have hnew := Dev.mem_newSources_present (s.fresh.withConds conds.toNat) (by omega) hcond hen hb hq
  obtain ⟨hqual, hkept⟩ := Dev.qualify_sources hnew
  have hrow := exec_of_effect (i := .localTrip conds) (s := s) rfl (Dev.localTrip_eq conds.toNat s.fresh)
  refine ⟨_, hrow, hqual, ?_, fun p hb => Dev.qualify_latches hnew p.isLt hb,
    fun hpairs htick => Dev.qualify_stands hnew hpairs htick, rfl⟩
  rw [State.after_pwm, Dev.requalify_eq, hkept]
  exact hcond

/-! ### BLANK_END (R217, R218) -/

/-- The conditions that were lost in the window of timer k. -/
def Dev.lostIn (d : Dev) (k : Nat) : List Nat := d.pwm.lost.filter fun n => decide (d.fld (Reg.PWM_TSRC n) 26 24 = k)

/-- Timer k has ended, and what was lost is counted. -/
def Dev.countLost (k : Nat) (d : Dev) : Dev := d.onPwm fun s => { s with
  timers := s.timers.set none k none
  lost := s.lost.filter fun n => !decide (d.fld (Reg.PWM_TSRC n) 26 24 = k)
  blankCnt := satAdd s.blankCnt (d.lostIn k).length }

/-- The same, with an event for each. -/
def Dev.endTimer (k : Nat) (d : Dev) : Dev := (d.lostIn k).foldl (fun d n => d.event 10 2 n 0 0) (d.countLost k)

section
variable {d : Dev} {k : Nat}

theorem Dev.blankEnd_ended {e : Nat} (h : d.pwm.timers.get none k = some e) (he : e ≤ d.now) :
    d.blankEnd k = (d.endTimer k).requalify := by
  unfold Dev.blankEnd
  rw [h]
  exact if_neg (by omega)

theorem Dev.blankEnd_idle (h : d.pwm.timers.get none k = none) : d.blankEnd k = d := by
  unfold Dev.blankEnd
  rw [h]

theorem Dev.touches_endTimer : Dev.Touches [.pwm, .events, .reports] d (d.endTimer k) :=
  (d.touches_onPwm _).andThen (.foldl (fun _ _ => Dev.touches_event ..) _ _)

theorem Dev.endTimer_pwm : (d.endTimer k).pwm = (d.countLost k).pwm :=
  Dev.foldl_same (part := Dev.pwm) (fun _ _ => Dev.event_pwm ..) _ _

theorem Dev.endTimer_stopped : (d.endTimer k).pwm.timers.get none k = none := by
  rw [Dev.endTimer_pwm]
  exact SMap.get_set_self ..

theorem Dev.endTimer_cfg : (d.endTimer k).cfg = d.cfg := funext fun off => Dev.touches_endTimer.cfg off (by decide)

/-- No source of a timer that has ended is blanked. -/
theorem Dev.endTimer_srcBlanked {n : Nat} (hn : d.fld (Reg.PWM_TSRC n) 26 24 = k) : (d.endTimer k).srcBlanked n = false := by
  have hfld : (d.endTimer k).fld (Reg.PWM_TSRC n) 26 24 = k := by rw [Dev.fld, Dev.endTimer_cfg]; exact hn
  have hruns : (d.endTimer k).blankRuns k = false := by rw [Dev.blankRuns, Dev.endTimer_stopped]
  rw [Dev.srcBlanked, hfld, hruns, Bool.and_false]

theorem Dev.mem_newSources_endTimer {n : Nat} (hn : n < 16) (hc : bitAt d.pwm.cond n = true) (hen : d.srcEn n = true)
    (hk : d.fld (Reg.PWM_TSRC n) 26 24 = k) (hq : bitAt d.pwm.qual n = false) :
    n ∈ (d.endTimer k).newSources (d.endTimer k).presentMask := by
  refine Dev.mem_newSources_present _ hn ?_ ?_ (Dev.endTimer_srcBlanked hk) ?_
  · rw [Dev.endTimer_pwm]
    exact hc
  · rw [Dev.srcEn, Dev.flag, Dev.endTimer_cfg]
    exact hen
  · rw [Dev.endTimer_pwm]
    exact hq

end

theorem blankEnd_counts {k : Nat} (hk : k < 8) {s : State} {e : Nat} (h : s.dev.pwm.timers.get none k = some e)
    (he : e ≤ s.dev.now) (hc : s.dev.pwm.cond = 0) : Answers (.blankEnd ⟨k, hk⟩) s fun t =>
      t.dev.pwm.timers.get none k = none ∧
      t.dev.pwm.blankCnt = satAdd s.dev.pwm.blankCnt (s.dev.lostIn k).length ∧
      ChangesOnly [.pwm, .events, .reports] s t := by
  have hnone : (s.fresh.endTimer k).pwm.cond = 0 := by
    rw [Dev.endTimer_pwm]
    exact hc
  have hrow : s.fresh.blankEnd k = s.fresh.endTimer k :=
    (Dev.blankEnd_ended (d := s.fresh) h he).trans (Dev.requalify_of_noCond _ hnone)
  exact ⟨_, exec_of_effect rfl hrow, Dev.endTimer_stopped, congrArg PwmState.blankCnt Dev.endTimer_pwm,
    .of_after Dev.touches_endTimer.keeps⟩

theorem blankEnd_qualifies {k n : Nat} (hk : k < 8) (hn : n < 16) {s : State} {e : Nat}
    (h : s.dev.pwm.timers.get none k = some e) (he : e ≤ s.dev.now) (hc : bitAt s.dev.pwm.cond n = true)
    (hen : s.dev.srcEn n = true) (hsrc : s.dev.fld (Reg.PWM_TSRC n) 26 24 = k) (hq : bitAt s.dev.pwm.qual n = false) :
    Answers (.blankEnd ⟨k, hk⟩) s fun t => bitAt t.dev.pwm.qual n = true ∧ t.pending = s.pending :=
  ⟨_, exec_of_effect rfl (Dev.blankEnd_ended (d := s.fresh) h he),
    (Dev.qualify_sources (Dev.mem_newSources_endTimer (d := s.fresh) hn hc hen hsrc hq)).1, rfl⟩

/-! ### TRIP_INPUT_RELEASE (R168) -/

theorem Dev.endCond_present {d : Dev} {n : Nat} (h : bitAt d.pwm.cond n = true) : ∃ lost, d.endCond n =
    d.onPwm fun s => { s with
      cond := s.cond - 2 ^ n, qual := if bitAt s.qual n then s.qual - 2 ^ n else s.qual, lost := lost } :=
  ⟨_, if_neg (by simp [h])⟩

theorem bitAt_cleared (q n : Nat) : bitAt (if bitAt q n then q - 2 ^ n else q) n = false := by
  split
  · next h => exact bitAt_sub_two_pow h
  · next h => exact Bool.eq_false_of_not_eq_true h

theorem tripInputRelease_ends {n : Fin 8} {s : State} (hc : bitAt s.dev.pwm.cond n.val = true)
    (hp : s.dev.pinCounts n.val false = true) : Answers (.tripInputRelease n) s fun t =>
      t.dev.pwm.cond = s.dev.pwm.cond - 2 ^ n.val ∧ bitAt t.dev.pwm.qual n.val = false ∧
      t.dev.pwm.pairs = s.dev.pwm.pairs ∧ ChangesOnly [.pwm] s t ∧ Quiet s t := by
  obtain ⟨lost, hend⟩ := Dev.endCond_present (d := s.fresh) hc
  have hrow : s.fresh.pinRelease n.val = _ := (if_pos hp).trans hend
  exact ⟨_, exec_of_effect rfl hrow, rfl, bitAt_cleared .., rfl, (Dev.keeps_onPwm ..).quietly rfl⟩

theorem Dev.pinRelease_idle {d : Dev} {n : Nat} (h : bitAt d.pwm.cond n = false ∨ d.pinCounts n false = false) :
    d.pinRelease n = d := by
  unfold Dev.pinRelease Dev.endCond
  obtain h | h := h
  · rw [h]
    exact ite_self _
  · exact if_neg (by simp [h])

/-! ### The statement -/

/-- Settles O32: PWM_COMMIT pair by pair, the sources that LOCAL_TRIP and BLANK_END let qualify, and the release of a pin. -/
theorem pwmCommitsAndTripSources : Obligations.PwmCommitsAndTripSources := by
  refine ⟨fun v s => ?_, fun conds n s hnamed hpin hen hb hq => localTrip_qualifies n.isLt hnamed hpin hen hb hq,
    fun conds s hc hp => exec_of_effect rfl (Dev.localTrip_idle (d := s.fresh) hc hp),
    fun k s e h he hc => blankEnd_counts k.isLt h he hc,
    fun k n s e h he hc hen hsrc hq => blankEnd_qualifies k.isLt n.isLt h he hc hen hsrc hq,
    fun k s h => exec_of_effect rfl (Dev.blankEnd_idle (d := s.fresh) h),
    fun n s hc hp => tripInputRelease_ends hc hp,
    fun n s h => exec_of_effect rfl (Dev.pinRelease_idle (d := s.fresh) h)⟩
  obtain ⟨t, ht, hpairs, hkeeps⟩ := pwmCommit_commits v s
  exact ⟨t, ht, fun p => ⟨(hpairs p).1, fun hv => ((hpairs p).2 hv).refused, fun hv => ((hpairs p).2 hv).off,
    fun hv => ((hpairs p).2 hv).waits, fun hv => ((hpairs p).2 hv).starts⟩, hkeeps⟩

end Sys2Proof.Machine
end

section
/-! PROOFS. The width of a PWM period (R199, R201, R204, R205): its bounds, and what the compare of a pair leaves. -/

namespace Sys2Proof.Machine

open Host

/-! ### The width and the carry of a duty (R204) -/

/-- No width is longer than its period, and no pulse and no gap shorter than its minimum. -/
theorem pulseWidth_bounds (x0 c : Int) (len tA tB : Nat) : (pulseWidth x0 c len tA tB).1 ≤ len ∧
    ((pulseWidth x0 c len tA tB).1 = 0 ∨ (pulseWidth x0 c len tA tB).1 = len ∨
      (tA ≤ (pulseWidth x0 c len tA tB).1 ∧ tB ≤ len - (pulseWidth x0 c len tA tB).1)) := by
  unfold pulseWidth
  extract_lets x w
  have hw : w ≤ len := by
    obtain ⟨hlo, hhi⟩ : 0 ≤ x ∧ x ≤ 2 ^ 24 := clampI_mem (by norm_num) (x0 + c)
    have hprod : |x * len| ≤ len * 2 ^ 24 := by
      rw [abs_of_nonneg (by positivity), mul_comm]
      exact mul_le_mul_of_nonneg_left hhi (by positivity)
    have hround : rdiv (x * len) (2 ^ 24) ≤ len := (le_abs_self _).trans (abs_rdiv_le (by norm_num) hprod)
    omega
  split
  · next h => exact ⟨hw, by tauto⟩
  · split
    · exact ⟨Nat.zero_le _, .inl rfl⟩
    · split
      · exact ⟨le_rfl, .inr (.inl rfl)⟩
      · exact ⟨hw, .inr (.inr ⟨by omega, by omega⟩)⟩

section
variable {d : Dev} {p k len : Nat}

/-! ### What decides a width -/

/-- The width or the duty that a pair's source gives (R199, R201, R205). -/
def Dev.pairDuty (d : Dev) (p len : Nat) : Duty :=
  if d.pairHost p then d.hostDuty p len else .duty (d.loopDuty p).1

/-- A pair takes its own compare: a HOST pair always, a LOOP pair on a device that is SOLO and takes nothing over. -/
def Dev.ownCompare (d : Dev) (p : Nat) : Prop := d.pairHost p = true ∨ (d.twn.st = .solo ∧ d.twn.nT = none)

/-- Width, carry and suppression of a duty on a pair with its dead times (R204). -/
def Dev.pulseOf (d : Dev) (p len : Nat) (v carry : Int) : Nat × Int × Bool :=
  pulseWidth v carry len (d.dtRise p + d.minPulse p) (d.dtFall p + d.minPulse p)

/-- A width and a carry are those of a period of `len` fine ticks that begins with a carry. -/
structure Dev.Width (d : Dev) (p len : Nat) (carry : Int) (w : Nat) (c : Int) : Prop where
  pulse : ∀ v, d.pairDuty p len = .duty v → d.ownCompare p → ∃ supp, d.pulseOf p len v carry = (w, c, supp)
  explicit : ∀ w' beyond, d.pairDuty p len = .width w' beyond → w = w' ∧ c = 0

/-- What decides a width are the registers, the references, the twin and the pair's compare. -/
theorem Dev.Width.of_same {e : Dev} {carry c : Int} {w : Nat} (h : e.Width p len carry w c) (hcfg : e.cfg = d.cfg)
    (hang : e.ang = d.ang) (hst : e.twn.st = d.twn.st) (hnT : e.twn.nT = d.twn.nT)
    (hcmp : (e.pair p).cmp = (d.pair p).cmp) : d.Width p len carry w c := by
  obtain ⟨pulse, explicit⟩ := h
  simp only [Dev.pairDuty, Dev.ownCompare, Dev.pulseOf, Dev.hostDuty, Dev.loopDuty, Dev.pairHost, Dev.dtRise, Dev.dtFall,
    Dev.minPulse, Dev.flag, Dev.fld, hcfg, hang, hst, hnT, hcmp] at pulse explicit
  exact ⟨pulse, explicit⟩

theorem Dev.takenCompare_none (hst : d.twn.st = .solo) (hn : d.twn.nT = none) : d.takenCompare p = none := by
  unfold Dev.takenCompare Dev.beforeTake
  rw [hst, hn]
  rfl

/-! ### The compare of a pair (R199, R201, R204, R219) -/

/-- A DC-link voltage that is too low for a LOOP pair is reported. -/
def Dev.lowVdc (p : Nat) (d : Dev) : Dev := if !d.pairHost p && (d.loopDuty p).2 then d.event 10 4 p 0 0 else d

/-- A width that is given explicitly, with its count and event if the compare lies beyond the period. -/
def Dev.explicitWidth (p w : Nat) (beyond : Bool) (d : Dev) : Dev :=
  let e := (d.lowVdc p).setPair p { d.pair p with w := w, carry := 0 }
  if beyond then (e.onPwm fun s => { s with beyondCnt := satInc s.beyondCnt }).event 10 0 p 0 0 else e

/-- A suppressed pulse is counted. -/
def Dev.countSupp (supp : Bool) (d : Dev) : Dev :=
  if supp then d.onPwm fun s => { s with suppCnt := satInc s.suppCnt } else d

/-- A width from a duty: the pair's own compare, or the one that it takes instead. -/
def Dev.dutyWidth (p len : Nat) (v : Int) (d : Dev) : Dev :=
  let r := (d.lowVdc p).pulseOf p len v (d.pair p).carry
  let e := (d.lowVdc p).countSupp r.2.2
  let taken := if d.pairHost p then (r.1, r.2.1) else (e.takenCompare p).getD (r.1, r.2.1)
  e.setPair p { d.pair p with w := taken.1, carry := taken.2 }

theorem Dev.computeWidth_eq (d : Dev) (p len : Nat) : d.computeWidth p len = match d.pairDuty p len with
    | .width w beyond => d.explicitWidth p w beyond
    | .duty v => d.dutyWidth p len v := by
  unfold Dev.computeWidth
  rfl

theorem Dev.lowVdc_pwm : (d.lowVdc p).pwm = d.pwm := by
  unfold Dev.lowVdc
  split
  · exact Dev.event_pwm ..
  · rfl

theorem Dev.lowVdc_twn : (d.lowVdc p).twn = d.twn := by
  unfold Dev.lowVdc
  split
  · exact Dev.event_twn ..
  · rfl

theorem Dev.touches_lowVdc : Dev.Touches [.events, .reports] d (d.lowVdc p) := .ite (Dev.touches_event ..) .refl

theorem Dev.lowVdc_pulseOf (v carry : Int) : (d.lowVdc p).pulseOf p len v carry = d.pulseOf p len v carry := by
  have hcfg : (d.lowVdc p).cfg = d.cfg := funext fun off => Dev.touches_lowVdc.cfg off (by decide)
  simp only [Dev.pulseOf, Dev.dtRise, Dev.dtFall, Dev.minPulse, Dev.fld, hcfg]

theorem Dev.countSupp_twn (supp : Bool) : (d.countSupp supp).twn = d.twn := by
  unfold Dev.countSupp
  split <;> rfl

theorem Dev.pair_countSupp (supp : Bool) : (d.countSupp supp).pair k = d.pair k := by
  unfold Dev.countSupp
  split <;> rfl

theorem Dev.touches_countSupp (supp : Bool) : Dev.Touches [.pwm] d (d.countSupp supp) := .ite (d.touches_onPwm _) .refl

theorem Dev.touches_explicitWidth (w : Nat) (beyond : Bool) :
    Dev.Touches [.pwm, .events, .reports] d (d.explicitWidth p w beyond) := by
  unfold Dev.explicitWidth
  extract_lets x e
  have he : Dev.Touches _ d e := Dev.touches_lowVdc.andThen (Dev.touches_setPair ..)
  exact .mono (.ite ((he.andThen (Dev.touches_onPwm ..)).andThen (Dev.touches_event ..)) he) (by decide)

theorem Dev.touches_dutyWidth (v : Int) : Dev.Touches [.pwm, .events, .reports] d (d.dutyWidth p len v) :=
  .mono ((Dev.touches_lowVdc.andThen (Dev.touches_countSupp _)).andThen (Dev.touches_setPair ..)) (by decide)

theorem Dev.touches_computeWidth : Dev.Touches [.pwm, .events, .reports] d (d.computeWidth p len) := by
  rw [Dev.computeWidth_eq]
  split
  · exact Dev.touches_explicitWidth ..
  · exact Dev.touches_dutyWidth ..

theorem Dev.pair_explicitWidth (w : Nat) (beyond : Bool) :
    (d.explicitWidth p w beyond).pair k = ((d.lowVdc p).setPair p { d.pair p with w := w, carry := 0 }).pair k := by
  unfold Dev.explicitWidth
  dsimp only
  split
  · exact (Dev.pair_of_pwm k (Dev.event_pwm ..)).trans rfl
  · rfl

theorem Dev.pair_computeWidth_of_ne (h : p ≠ k) : (d.computeWidth p len).pair k = d.pair k := by
  rw [Dev.computeWidth_eq]
  split
  · rw [Dev.pair_explicitWidth, Dev.pair_setPair_of_ne _ h, Dev.pair_of_pwm k Dev.lowVdc_pwm]
  · unfold Dev.dutyWidth
    rw [Dev.pair_setPair_of_ne _ h, Dev.pair_countSupp, Dev.pair_of_pwm k Dev.lowVdc_pwm]

/-- A duty gives a pair a width and a carry; they are those of R204 where the pair takes its own compare. -/
theorem Dev.pair_dutyWidth_self (v : Int) : ∃ w c, (d.dutyWidth p len v).pair p = { d.pair p with w := w, carry := c } ∧
    (d.ownCompare p → ∃ supp, d.pulseOf p len v (d.pair p).carry = (w, c, supp)) := by
  unfold Dev.dutyWidth
  extract_lets r e taken
  refine ⟨taken.1, taken.2, Dev.pair_setPair_self .., fun hown => ⟨r.2.2, ?_⟩⟩
  have htaken : taken = (r.1, r.2.1) := by
    obtain hhost | ⟨hst, hn⟩ := hown
    · exact if_pos hhost
    · have htwn : e.twn = d.twn := (Dev.countSupp_twn _).trans Dev.lowVdc_twn
      have hnone : e.takenCompare p = none := Dev.takenCompare_none (by rw [htwn, hst]) (by rw [htwn, hn])
      unfold taken
      rw [hnone, Option.getD_none, ite_self]
  rw [htaken, ← Dev.lowVdc_pulseOf]

/-- A computation gives a pair its width and its carry, and changes nothing else of it. -/
theorem Dev.pair_computeWidth_self : ∃ w c, (d.computeWidth p len).pair p = { d.pair p with w := w, carry := c } ∧
    d.Width p len (d.pair p).carry w c := by
  rw [Dev.computeWidth_eq]
  cases hduty : d.pairDuty p len with
  | width w beyond =>
    refine ⟨w, 0, (Dev.pair_explicitWidth ..).trans (Dev.pair_setPair_self ..), fun v hv => ?_, fun w' b hw => ?_⟩
    · cases hduty.symm.trans hv
    · cases hduty.symm.trans hw
      exact ⟨rfl, rfl⟩
  | duty v =>
    obtain ⟨w, c, hpair, hpulse⟩ := d.pair_dutyWidth_self (p := p) (len := len) v
    refine ⟨w, c, hpair, fun v' hv hown => ?_, fun w b hw => ?_⟩
    · cases hduty.symm.trans hv
      exact hpulse hown
    · cases hduty.symm.trans hw

end

end Sys2Proof.Machine
end

section
/-! PROOFS. PWM_PERIOD_START, COMPARE_MATCH and DEAD_TIME_EXPIRE (R198–R211, R216). -/

namespace Sys2Proof.Machine

open Host

section
variable {d : Dev} {p k start : Nat}

/-! ### What a period start takes first: its loads, and an AUTO latch (R206, R216) -/

/-- A load that a period start takes (R206). -/
def isReady (start : Nat) (l : Nat × Nat × Nat) : Bool := decide (l.1 + 16 ≤ start)

theorem Dev.takeLoads_of_none (h : ((d.pair p).loads.filter (isReady start)).getLast? = none) : d.takeLoads p start = d := by
  unfold Dev.takeLoads
  dsimp only
  split
  · rfl
  · next hsome => exact absurd (h.symm.trans hsome) (by simp)

theorem Dev.takeLoads_of_some {l : Nat × Nat × Nat} (h : ((d.pair p).loads.filter (isReady start)).getLast? = some l) :
    d.takeLoads p start = d.setPair p { d.pair p with
      period := l.2.1, cmp := l.2.2, loads := (d.pair p).loads.filter fun l => !isReady start l } := by
  unfold Dev.takeLoads
  dsimp only
  split
  · next hnone => exact absurd (h.symm.trans hnone) (by simp)
  · next hsome =>
    cases h.symm.trans hsome
    rfl

/-- The newest load that is ready takes effect with both its values, and those that are not ready go on waiting. -/
theorem Dev.pair_takeLoads_self : ∃ per c, (d.takeLoads p start).pair p = { d.pair p with
      period := per, cmp := c, loads := (d.pair p).loads.filter fun l => !isReady start l } ∧
    ((d.pair p).loads.filter (isReady start) = [] → per = (d.pair p).period ∧ c = (d.pair p).cmp) ∧
    ∀ l, ((d.pair p).loads.filter (isReady start)).getLast? = some l → per = l.2.1 ∧ c = l.2.2 := by
  cases h : ((d.pair p).loads.filter (isReady start)).getLast? with
  | none =>
    have hready := List.getLast?_eq_none_iff.mp h
    have hloads : ((d.pair p).loads.filter fun l => !isReady start l) = (d.pair p).loads :=
      List.filter_eq_self.mpr fun l hl => by simpa using List.filter_eq_nil_iff.mp hready l hl
    exact ⟨(d.pair p).period, (d.pair p).cmp, by rw [Dev.takeLoads_of_none h, hloads], fun _ => ⟨rfl, rfl⟩,
      fun l hl => nomatch hl⟩
  | some l =>
    refine ⟨l.2.1, l.2.2, by rw [Dev.takeLoads_of_some h, Dev.pair_setPair_self], fun hnil => ?_, fun l' hl => ?_⟩
    · simp [hnil] at h
    · cases hl
      exact ⟨rfl, rfl⟩

theorem Dev.pair_takeLoads_of_ne (h : p ≠ k) : (d.takeLoads p start).pair k = d.pair k := by
  cases hl : ((d.pair p).loads.filter (isReady start)).getLast? with
  | none => rw [Dev.takeLoads_of_none hl]
  | some l => rw [Dev.takeLoads_of_some hl, Dev.pair_setPair_of_ne _ h]

theorem Dev.takeLoads_onPwm : ∃ w, d.takeLoads p start = d.onPwm fun _ => w := by
  cases h : ((d.pair p).loads.filter (isReady start)).getLast? with
  | none => exact ⟨d.pwm, Dev.takeLoads_of_none h⟩
  | some l => exact ⟨_, Dev.takeLoads_of_some h⟩

/-- The latch of a pair whose sources all have AUTO and are all inactive clears. -/
def Dev.clearedLatch (d : Dev) (p : Nat) : Nat :=
  if (d.pair p).latch &&& d.pwm.qual = 0 ∧ d.allAuto (d.pair p).latch = true then 0 else (d.pair p).latch

theorem Dev.autoClear_clears (h : (d.pair p).latch ≠ 0 ∧ (d.pair p).latch &&& d.pwm.qual = 0 ∧
    d.allAuto (d.pair p).latch = true) : d.autoClear p = d.setPair p { d.pair p with latch := 0 } := if_pos h

theorem Dev.autoClear_idle (h : ¬((d.pair p).latch ≠ 0 ∧ (d.pair p).latch &&& d.pwm.qual = 0 ∧
    d.allAuto (d.pair p).latch = true)) : d.autoClear p = d := if_neg h

theorem Dev.pair_autoClear_self : (d.autoClear p).pair p = { d.pair p with latch := d.clearedLatch p } := by
  unfold Dev.clearedLatch
  by_cases h : (d.pair p).latch ≠ 0 ∧ (d.pair p).latch &&& d.pwm.qual = 0 ∧ d.allAuto (d.pair p).latch = true
  · rw [Dev.autoClear_clears h, Dev.pair_setPair_self, if_pos h.2]
  · have hlatch : (if (d.pair p).latch &&& d.pwm.qual = 0 ∧ d.allAuto (d.pair p).latch = true then 0
        else (d.pair p).latch) = (d.pair p).latch := by
      split
      · next hc => exact (not_not.mp fun hl => h ⟨hl, hc⟩).symm
      · rfl
    rw [Dev.autoClear_idle h, hlatch]

theorem Dev.pair_autoClear_of_ne (h : p ≠ k) : (d.autoClear p).pair k = d.pair k := by
  unfold Dev.autoClear
  dsimp only
  split
  · exact d.pair_setPair_of_ne h _
  · rfl

theorem Dev.autoClear_onPwm : ∃ w, d.autoClear p = d.onPwm fun _ => w := by
  unfold Dev.autoClear
  dsimp only
  split
  · exact ⟨_, rfl⟩
  · exact ⟨d.pwm, rfl⟩

/-- The device once pair p has taken its loads and its AUTO latch has cleared. -/
def Dev.readied (p start : Nat) (d : Dev) : Dev := (d.takeLoads p start).autoClear p

theorem Dev.readied_onPwm : ∃ w, d.readied p start = d.onPwm fun _ => w := by
  obtain ⟨w, hw⟩ := d.takeLoads_onPwm (p := p) (start := start)
  obtain ⟨w', hw'⟩ := (d.takeLoads p start).autoClear_onPwm (p := p)
  exact ⟨w', hw'.trans (by rw [hw]; rfl)⟩

theorem Dev.touches_readied : Dev.Touches [.pwm] d (d.readied p start) := by
  obtain ⟨w, hw⟩ := d.readied_onPwm (p := p) (start := start)
  exact hw ▸ d.touches_onPwm _

theorem Dev.takeLoads_qual : (d.takeLoads p start).pwm.qual = d.pwm.qual := by
  cases h : ((d.pair p).loads.filter (isReady start)).getLast? with
  | none => rw [Dev.takeLoads_of_none h]
  | some l =>
    rw [Dev.takeLoads_of_some h]
    rfl

theorem Dev.pair_readied_self : ∃ per c, (d.readied p start).pair p = { d.pair p with
      period := per, cmp := c, loads := (d.pair p).loads.filter fun l => !isReady start l, latch := d.clearedLatch p } ∧
    ((d.pair p).loads.filter (isReady start) = [] → per = (d.pair p).period ∧ c = (d.pair p).cmp) ∧
    ∀ l, ((d.pair p).loads.filter (isReady start)).getLast? = some l → per = l.2.1 ∧ c = l.2.2 := by
  obtain ⟨per, c, hpair, hnone, hsome⟩ := d.pair_takeLoads_self (p := p) (start := start)
  have hauto (mask : Nat) : (d.takeLoads p start).allAuto mask = d.allAuto mask := by
    obtain ⟨w, hw⟩ := d.takeLoads_onPwm (p := p) (start := start)
    rw [hw]
    rfl
  refine ⟨per, c, ?_, hnone, hsome⟩
  unfold Dev.readied
  rw [Dev.pair_autoClear_self, Dev.clearedLatch, hauto, Dev.takeLoads_qual, hpair]
  rfl

theorem Dev.pair_readied_of_ne (h : p ≠ k) : (d.readied p start).pair k = d.pair k :=
  (Dev.pair_autoClear_of_ne h).trans (Dev.pair_takeLoads_of_ne h)

/-- What a period start takes first has nothing to do with the packets of the row before. -/
theorem State.fresh_readied (s : State) (p start : Nat) :
    s.fresh.readied p start = ({ s with dev := s.dev.readied p start } : State).fresh := by
  have hloads : s.fresh.takeLoads p start = ({ s with dev := s.dev.takeLoads p start } : State).fresh := by
    cases h : ((s.dev.pair p).loads.filter (isReady start)).getLast? with
    | none => rw [Dev.takeLoads_of_none h, Dev.takeLoads_of_none (d := s.fresh) h]
    | some l =>
      rw [Dev.takeLoads_of_some h, Dev.takeLoads_of_some (d := s.fresh) h]
      rfl
  have hclear (t : State) : t.fresh.autoClear p = ({ t with dev := t.dev.autoClear p } : State).fresh := by
    by_cases h : (t.dev.pair p).latch ≠ 0 ∧ (t.dev.pair p).latch &&& t.dev.pwm.qual = 0 ∧
        t.dev.allAuto (t.dev.pair p).latch = true
    · rw [Dev.autoClear_clears h, Dev.autoClear_clears (d := t.fresh) h]
      rfl
    · rw [Dev.autoClear_idle h, Dev.autoClear_idle (d := t.fresh) h]
  unfold Dev.readied
  rw [hloads, hclear]

/-! ### The period begins (R198, R200, R210, R211) -/

/-- The length of a pair's period in ticks (R198, R200). -/
def Dev.periodTicks (d : Dev) (p : Nat) : Nat := if d.pairFree p then (d.pair p).period else d.ang.cur.len

/-- A pair whose period begins. -/
def Dev.opened (d : Dev) (p start : Nat) : PwmPair :=
  { d.pair p with
    start := start, len := 64 * d.periodTicks p, sn := some d.ang.cur.sn
    next := if d.pairFree p then some (start + d.periodTicks p) else none }

/-- A held pair shows its safe state. -/
def Dev.keepSafe (p : Nat) (d : Dev) : Dev := if (d.pair p).safe then d else d.pairSafe p

/-- A pair leaves its safe state, with carry 0 and X inactive (R211). -/
def Dev.leaveSafe (p : Nat) (d : Dev) : Dev :=
  if (d.pair p).safe then d.setPair p { d.pair p with safe := false, carry := 0, x := false } else d

/-- X follows the width that the pair has for its period; a pair that has left its safe state starts with X inactive. -/
def Dev.startX (p start : Nat) (leaving : Bool) (d : Dev) : Dev :=
  let e := if leaving then d.xOff p (64 * start) else d
  e.setX p (decide (0 < (e.pair p).w)) (64 * start)

/-- A pair that is not held runs its period. -/
def Dev.runPeriod (p start len : Nat) (d : Dev) : Dev :=
  ((d.leaveSafe p).computeWidth p len).startX p start (d.pair p).safe

/-- The widths of a stroke are entered in the samples of disturbance capture. -/
def Dev.patchWidth (p : Nat) (d : Dev) : Dev :=
  d.acqPatch false (fun s => decide (s.sn = d.ang.cur.sn)) 3 p (BitVec.ofNat 32 (d.pair p).w)

/-- A pair that begins its period, on a device that has readied it. -/
def Dev.beginPeriod (p start : Nat) (r : Dev) : Dev :=
  let o := r.setPair p (r.opened p start)
  if o.pairHeld p then (o.keepSafe p).pwmShow
  else ((o.runPeriod p start (64 * r.periodTicks p)).patchWidth p).pwmShow

theorem Dev.periodStart_begins (hen : d.pairEn p = true) (hnext : d.nextPeriod p = some start) (hle : start ≤ d.now) :
    d.periodStart p = (d.readied p start).beginPeriod p start := by
  unfold Dev.periodStart
  rw [hen, hnext, if_neg (by simp)]
  dsimp only
  rw [if_neg (by omega)]
  unfold Dev.beginPeriod Dev.runPeriod Dev.startX Dev.leaveSafe Dev.keepSafe Dev.opened Dev.periodTicks Dev.patchWidth
    Dev.readied
  dsimp only

theorem Dev.periodStart_idle (h : d.pairEn p = false ∨ d.nextPeriod p = none ∨
    ∃ start, d.nextPeriod p = some start ∧ d.now < start) : d.periodStart p = d := by
  unfold Dev.periodStart
  obtain h | h | ⟨start, hnext, hlt⟩ := h
  · rw [h]
    rfl
  · rw [h]
    exact ite_self _
  · rw [hnext]
    dsimp only
    rw [if_pos hlt, ite_self]

/-- A pair in the same period: what a period start sets stays. -/
structure SamePeriod (x y : PwmPair) : Prop where
  period : y.period = x.period
  cmp : y.cmp = x.cmp
  loads : y.loads = x.loads
  latch : y.latch = x.latch
  start : y.start = x.start
  sn : y.sn = x.sn
  len : y.len = x.len
  next : y.next = x.next

theorem Dev.keepSafe_pair : SamePeriod (d.pair p) ((d.keepSafe p).pair p) ∧ ((d.keepSafe p).pair p).safe = true := by
  unfold Dev.keepSafe
  split
  · next h => exact ⟨⟨rfl, rfl, rfl, rfl, rfl, rfl, rfl, rfl⟩, h⟩
  · rw [Dev.pair_pairSafe_self]
    exact ⟨⟨rfl, rfl, rfl, rfl, rfl, rfl, rfl, rfl⟩, rfl⟩

theorem Dev.pair_keepSafe_of_ne (h : p ≠ k) : (d.keepSafe p).pair k = d.pair k := by
  unfold Dev.keepSafe
  split
  · rfl
  · exact Dev.pair_pairSafe_of_ne _ h

theorem Dev.touches_keepSafe : Dev.Touches [.pwm] d (d.keepSafe p) :=
  .mono (.ite .refl (Dev.touches_pairSafe ..)) (by decide)

/-! ### A pair that is not held -/

theorem Dev.pair_leaveSafe_self : (d.leaveSafe p).pair p = { d.pair p with
    safe := false
    carry := if (d.pair p).safe then 0 else (d.pair p).carry
    x := if (d.pair p).safe then false else (d.pair p).x } := by
  unfold Dev.leaveSafe
  split
  · exact Dev.pair_setPair_self ..
  · next h => rw [← Bool.eq_false_of_not_eq_true h]

theorem Dev.pair_leaveSafe_of_ne (h : p ≠ k) : (d.leaveSafe p).pair k = d.pair k := by
  unfold Dev.leaveSafe
  split
  · exact d.pair_setPair_of_ne h _
  · rfl

theorem Dev.touches_leaveSafe : Dev.Touches [.pwm] d (d.leaveSafe p) := .mono (.ite (Dev.touches_setPair ..) .refl) (by decide)

/-- X takes a value, and only the outputs follow. -/
theorem Dev.pair_setX_self (v : Bool) (ft : Nat) : ∃ a b rise, (d.setX p v ft).pair p =
    { d.pair p with x := v, outA := a, outB := b, rise := rise } := by
  unfold Dev.setX
  split
  · next h => exact ⟨(d.pair p).outA, (d.pair p).outB, (d.pair p).rise, by rw [← h]⟩
  · cases v
    · exact ⟨_, _, _, Dev.pair_xOff_self ..⟩
    · exact ⟨_, _, _, Dev.pair_xOn_self ..⟩

theorem Dev.pair_setX_of_ne (h : p ≠ k) (v : Bool) (ft : Nat) : (d.setX p v ft).pair k = d.pair k := by
  unfold Dev.setX
  split
  · rfl
  · split
    · exact Dev.pair_xOn_of_ne _ h _
    · exact Dev.pair_xOff_of_ne _ h _

theorem Dev.touches_setX (v : Bool) (ft : Nat) : Dev.Touches [.pwm] d (d.setX p v ft) :=
  .mono (.ite .refl (.ite (Dev.touches_xOn ..) (Dev.touches_xOff ..))) (by decide)

theorem Dev.pair_startX_self (leaving : Bool) : ∃ a b rise, (d.startX p start leaving).pair p =
    { d.pair p with x := decide (0 < (d.pair p).w), outA := a, outB := b, rise := rise } := by
  unfold Dev.startX
  extract_lets e
  obtain ⟨a, b, rise, hx⟩ := e.pair_setX_self (p := p) (decide (0 < (e.pair p).w)) (64 * start)
  refine ⟨a, b, rise, hx.trans ?_⟩
  unfold e
  split
  · rw [Dev.pair_xOff_self]
  · rfl

theorem Dev.pair_startX_of_ne (h : p ≠ k) (leaving : Bool) : (d.startX p start leaving).pair k = d.pair k := by
  unfold Dev.startX
  extract_lets e
  rw [Dev.pair_setX_of_ne h]
  unfold e
  split
  · exact Dev.pair_xOff_of_ne _ h _
  · rfl

theorem Dev.touches_startX (leaving : Bool) : Dev.Touches [.pwm] d (d.startX p start leaving) := by
  have hfirst : Dev.Touches [.pwm] d (if leaving then d.xOff p (64 * start) else d) :=
    .mono (.ite (Dev.touches_xOff ..) .refl) (by decide)
  exact .mono (hfirst.andThen (Dev.touches_setX ..)) (by decide)

/-- A pair that runs its period has left its safe state, with the width and the carry of the period, and X is active exactly
if the width is not 0. -/
theorem Dev.runPeriod_pair (len : Nat) : SamePeriod (d.pair p) ((d.runPeriod p start len).pair p) ∧
    ((d.runPeriod p start len).pair p).safe = false ∧
    ((d.runPeriod p start len).pair p).x = decide (0 < ((d.runPeriod p start len).pair p).w) ∧
    d.Width p len (if (d.pair p).safe then 0 else (d.pair p).carry) ((d.runPeriod p start len).pair p).w
      ((d.runPeriod p start len).pair p).carry := by
  obtain ⟨w, c, hwidth, hspec⟩ := (d.leaveSafe p).pair_computeWidth_self (p := p) (len := len)
  obtain ⟨a, b, rise, hx⟩ :=
    ((d.leaveSafe p).computeWidth p len).pair_startX_self (p := p) (start := start) (d.pair p).safe
  have hleave := d.pair_leaveSafe_self (p := p)
  rw [hleave] at hwidth hspec
  unfold Dev.runPeriod
  rw [hx, hwidth]
  have htouch := d.touches_leaveSafe (p := p)
  have htwn : (d.leaveSafe p).twn = d.twn := by
    unfold Dev.leaveSafe
    split <;> rfl
  have hcmp : ((d.leaveSafe p).pair p).cmp = (d.pair p).cmp := by rw [hleave]
  exact ⟨⟨rfl, rfl, rfl, rfl, rfl, rfl, rfl, rfl⟩, rfl, rfl, hspec.of_same (funext fun off => htouch.cfg off (by decide))
    (htouch.same .ang (by decide)).symm (congrArg TwnState.st htwn) (congrArg TwnState.nT htwn) hcmp⟩

theorem Dev.pair_runPeriod_of_ne (h : p ≠ k) (len : Nat) : (d.runPeriod p start len).pair k = d.pair k := by
  unfold Dev.runPeriod
  rw [Dev.pair_startX_of_ne h, Dev.pair_computeWidth_of_ne h, Dev.pair_leaveSafe_of_ne h]

theorem Dev.touches_runPeriod (len : Nat) : Dev.Touches [.pwm, .events, .reports] d (d.runPeriod p start len) :=
  .mono ((Dev.touches_leaveSafe.andThen Dev.touches_computeWidth).andThen (Dev.touches_startX _)) (by decide)

theorem Dev.pair_patchWidth : (d.patchWidth p).pair k = d.pair k :=
  Dev.pair_of_pwm k ((Dev.touches_acqPatch ..).same .pwm (by decide)).symm

end

end Sys2Proof.Machine
end

section
/-! PROOFS. The rows of a PWM period (R198–R211, R216). -/

namespace Sys2Proof.Machine

open Host

theorem State.after_pair (s : State) (d : Dev) (k : Nat) : (s.after d).dev.pair k = d.pair k := rfl

theorem Dev.pair_pwmShow (d : Dev) (k : Nat) : d.pwmShow.pair k = d.pair k := rfl

/-! ### PWM_PERIOD_START -/

section
variable {d : Dev} {p k start : Nat}

/-- A pair's period has begun on a device that had readied the pair as in `r`: what the period sets, and the pair as its being
held decides. -/
structure PeriodBegun (p start : Nat) (r e : Dev) : Prop where
  same : SamePeriod (r.opened p start) (e.pair p)
  held : r.pairHeld p = true → (e.pair p).safe = true
  free : r.pairHeld p = false → (e.pair p).safe = false ∧ (e.pair p).x = decide (0 < (e.pair p).w) ∧
    r.Width p (e.pair p).len (if (r.pair p).safe then 0 else (r.pair p).carry) (e.pair p).w (e.pair p).carry
  others : ∀ q, q ≠ p → e.pair q = r.pair q

/-- How a period begins does not depend on the packets of the row before, and only the pairs matter afterwards. -/
theorem PeriodBegun.of_fresh {u : State} {e f : Dev} (h : PeriodBegun p start u.fresh e) (hpair : f.pair = e.pair) :
    PeriodBegun p start u.dev f := by
  obtain ⟨same, held, free, others⟩ := h
  rw [← hpair] at same held free others
  refine ⟨same, held, fun hf => ?_, others⟩
  obtain ⟨hsafe, hx, hwidth⟩ := free hf
  exact ⟨hsafe, hx, hwidth.of_same rfl rfl rfl rfl rfl⟩

theorem Dev.touches_beginPeriod (r : Dev) : Dev.Touches [.pwm, .acq, .events, .reports] r (r.beginPeriod p start) := by
  unfold Dev.beginPeriod
  extract_lets o
  have hopen : Dev.Touches [.pwm] r o := Dev.touches_setPair ..
  exact .mono (.ite ((hopen.andThen Dev.touches_keepSafe).andThen (Dev.touches_pwmShow _))
    (((hopen.andThen (Dev.touches_runPeriod _)).andThen (Dev.touches_acqPatch ..)).andThen (Dev.touches_pwmShow _)))
    (by decide)

/-- A readied pair begins its period, held or not. -/
theorem Dev.periodBegun (r : Dev) (p start : Nat) : PeriodBegun p start r (r.beginPeriod p start) := by
  unfold Dev.beginPeriod
  extract_lets o
  have ho : o.pair p = r.opened p start := r.pair_setPair_self p _
  have hlatch : (o.pair p).latch = (r.pair p).latch := by rw [ho]; rfl
  have hperiod : (o.pair p).period = (r.pair p).period := by rw [ho]; rfl
  have hcmp : (o.pair p).cmp = (r.pair p).cmp := by rw [ho]; rfl
  have hne (q : Nat) (hq : q ≠ p) : o.pair q = r.pair q := r.pair_setPair_of_ne (Ne.symm hq) _
  have hheld : o.pairHeld p = r.pairHeld p := Dev.pairHeld_onPwm hlatch hperiod
  rw [hheld]
  split
  · next h =>
    obtain ⟨hsame, hsafe⟩ := o.keepSafe_pair (p := p)
    have hfinal (q : Nat) : (o.keepSafe p).pwmShow.pair q = (o.keepSafe p).pair q := Dev.pair_pwmShow ..
    rw [ho] at hsame
    refine ⟨(hfinal p).symm ▸ hsame, fun _ => (hfinal p).symm ▸ hsafe, fun hf => absurd (h.symm.trans hf) (by decide),
      fun q hq => ?_⟩
    rw [hfinal, Dev.pair_keepSafe_of_ne (Ne.symm hq), hne q hq]
  · next h =>
    obtain ⟨hsame, hsafe, hx, hwidth⟩ := o.runPeriod_pair (p := p) (start := start) (64 * r.periodTicks p)
    have hfinal (q : Nat) : (((o.runPeriod p start (64 * r.periodTicks p)).patchWidth p).pwmShow).pair q =
        (o.runPeriod p start (64 * r.periodTicks p)).pair q := (Dev.pair_pwmShow ..).trans Dev.pair_patchWidth
    rw [ho] at hsame hwidth
    refine ⟨(hfinal p).symm ▸ hsame, fun hf => absurd hf h, fun _ => ?_, fun q hq => ?_⟩
    · rw [hfinal, hsame.len]
      exact ⟨hsafe, hx, hwidth.of_same rfl rfl rfl rfl hcmp⟩
    · rw [hfinal, Dev.pair_runPeriod_of_ne (Ne.symm hq), hne q hq]

end

/-- PWM_PERIOD_START of an enabled pair whose period begins (R198): the period of the pair that has taken its loads. -/
theorem pwmPeriodStart_begins {p : Fin 12} {s : State} {start : Nat} (hen : s.dev.pairEn p.val = true)
    (hnext : s.dev.nextPeriod p.val = some start) (hle : start ≤ s.dev.now) :
    Answers (.pwmPeriodStart p) s fun t => PeriodBegun p.val start (s.dev.readied p.val start) t.dev ∧
      ChangesOnly [.pwm, .acq, .events, .reports] s t := by
  have hrow : s.fresh.periodStart p.val = (s.fresh.readied p.val start).beginPeriod p.val start :=
    Dev.periodStart_begins (d := s.fresh) hen hnext hle
  have hkeeps := (s.fresh.touches_readied (p := p.val) (start := start)).andThen
    (Dev.touches_beginPeriod (p := p.val) (start := start) _)
  refine ⟨_, exec_of_effect rfl hrow, ?_, .of_after (hkeeps.keeps.mono (by decide))⟩
  have hbegun := (s.fresh.readied p.val start).periodBegun p.val start
  rw [s.fresh_readied] at hbegun
  exact hbegun.of_fresh (by rw [s.fresh_readied]; exact funext fun q => State.after_pair ..)

/-- The hypotheses of a period start can be met: an enabled pair of the first stroke after reset. -/
theorem pwmPeriodStart_met : ∃ (p : Fin 12) (s : State) (start : Nat), s.dev.pairEn p.val = true ∧
    s.dev.nextPeriod p.val = some start ∧ start ≤ s.dev.now :=
  ⟨11, Tests.at_ (Tests.put (Reg.PWM_PAIR 11) 0x80000000), 0, by decide +kernel⟩

/-- What a period start makes of its pair, in the words of the statement. -/
theorem PeriodBegun.pair_spec {d e : Dev} {p start : Nat} (h : PeriodBegun p start (d.readied p start) e) :
    ((d.pair p).loads.filter (isReady start) = [] →
      (e.pair p).period = (d.pair p).period ∧ (e.pair p).cmp = (d.pair p).cmp) ∧
    (∀ l, ((d.pair p).loads.filter (isReady start)).getLast? = some l →
      (e.pair p).period = l.2.1 ∧ (e.pair p).cmp = l.2.2) ∧
    (e.pair p).loads = ((d.pair p).loads.filter fun l => !isReady start l) ∧
    (e.pair p).latch = d.clearedLatch p ∧ (e.pair p).start = start ∧ (e.pair p).sn = some d.ang.cur.sn ∧
    (e.pair p).len = 64 * (if d.pairFree p then (e.pair p).period else d.ang.cur.len) ∧
    (e.pair p).next = (if d.pairFree p then some (start + (e.pair p).period) else none) := by
  obtain ⟨per, c, hpair, hnone, hsome⟩ := d.pair_readied_self (p := p) (start := start)
  have htouch := d.touches_readied (p := p) (start := start)
  have hcur : (d.readied p start).ang.cur = d.ang.cur := htouch.cur.symm
  have hfree : (d.readied p start).pairFree p = d.pairFree p := by
    rw [Dev.pairFree, Dev.flag, htouch.cfg _ (by decide)]
    rfl
  obtain ⟨period, cmp, loads, latch, hstart, sn, len, next⟩ := h.same
  simp only [Dev.opened, Dev.periodTicks, hpair, hcur, hfree] at period cmp loads latch hstart sn len next
  rw [period, cmp, loads, latch, hstart, sn, len, next]
  refine ⟨hnone, hsome, rfl, rfl, rfl, rfl, rfl, ?_⟩
  split <;> rfl

/-- The width of a pair that is not held, in the words of the statement. -/
theorem PeriodBegun.width_spec {d e : Dev} {p start : Nat} (h : PeriodBegun p start (d.readied p start) e)
    (hf : (d.readied p start).pairHeld p = false) : (e.pair p).safe = false ∧ (e.pair p).x = decide (0 < (e.pair p).w) ∧
    (∀ v : Int,
      (if d.pairHost p then (d.readied p start).hostDuty p (e.pair p).len else .duty (d.loopDuty p).1) = .duty v →
      d.ownCompare p → ∃ supp, d.pulseOf p (e.pair p).len v (if (d.pair p).safe then 0 else (d.pair p).carry) =
        ((e.pair p).w, (e.pair p).carry, supp)) ∧
    (∀ w b, d.pairHost p = true → (d.readied p start).hostDuty p (e.pair p).len = .width w b →
      (e.pair p).w = w ∧ (e.pair p).carry = 0) := by
  obtain ⟨hsafe, hx, pulse, explicit⟩ := h.free hf
  obtain ⟨per, c, hpair, -, -⟩ := d.pair_readied_self (p := p) (start := start)
  obtain ⟨w, hw⟩ := d.readied_onPwm (p := p) (start := start)
  simp only [hpair] at pulse
  rw [hw] at pulse explicit ⊢
  exact ⟨hsafe, hx, pulse, fun w b hh hd => explicit w b ((if_pos hh).trans hd)⟩

/-! ### COMPARE_MATCH and DEAD_TIME_EXPIRE (R198, R203) -/

theorem compareMatch_falls {p : Fin 12} {s : State} (hs : (s.dev.pair p.val).safe = false)
    (hx : (s.dev.pair p.val).x = true) (hw : (s.dev.pair p.val).w < (s.dev.pair p.val).len)
    (ht : 64 * (s.dev.pair p.val).start + (s.dev.pair p.val).w < 64 * (s.dev.now + 1)) :
    Answers (.compareMatch p) s fun t =>
      t.dev.pair p.val = { s.dev.pair p.val with
        x := false, outA := 0, outB := if s.dev.dtFall p.val = 0 then 1 else 0
        rise := if s.dev.dtFall p.val = 0 then none
          else some (64 * (s.dev.pair p.val).start + (s.dev.pair p.val).w + s.dev.dtFall p.val, false) } ∧
      (∀ q, q ≠ p.val → t.dev.pair q = s.dev.pair q) ∧ ChangesOnly [.pwm] s t ∧ Quiet s t := by
  have hrow : s.fresh.compareMatch p.val =
      s.fresh.xOff p.val (64 * (s.dev.pair p.val).start + (s.dev.pair p.val).w) :=
    if_pos (by
      have hpair : s.fresh.pair p.val = s.dev.pair p.val := rfl
      simp only [hpair, hs, hx, decide_eq_true_eq, Bool.and_eq_true, Bool.not_false, true_and]
      exact ⟨hw, ht⟩)
  refine ⟨_, exec_of_effect rfl hrow, ?_, fun q hq => ?_, (Dev.touches_xOff ..).keeps.quietly rfl⟩
  · rw [State.after_pair, Dev.pair_xOff_self]
    rfl
  · rw [State.after_pair, Dev.pair_xOff_of_ne _ (Ne.symm hq)]
    rfl

theorem Dev.compareMatch_idle {d : Dev} {p : Nat} (h : (d.pair p).x = false) : d.compareMatch p = d :=
  if_neg (by simp [h])

theorem deadTimeExpire_rises {p : Fin 12} {s : State} {ft : Nat} {a : Bool} (hr : (s.dev.pair p.val).rise = some (ft, a))
    (ht : ft < 64 * (s.dev.now + 1)) : Answers (.deadTimeExpire p) s fun t =>
      t.dev.pair p.val = { s.dev.pair p.val with
        rise := none, outA := if a then 1 else (s.dev.pair p.val).outA
        outB := if a then (s.dev.pair p.val).outB else 1 } ∧
      (∀ q, q ≠ p.val → t.dev.pair q = s.dev.pair q) ∧ ChangesOnly [.pwm] s t ∧ Quiet s t := by
  have hrow : s.fresh.deadTimeExpire p.val = (s.fresh.setPair p.val { s.dev.pair p.val with rise := none }).setOut p.val
      (if a then 1 else (s.dev.pair p.val).outA) (if a then (s.dev.pair p.val).outB else 1) := by
    have hr' : (s.fresh.pair p.val).rise = some (ft, a) := hr
    unfold Dev.deadTimeExpire
    dsimp only
    rw [hr']
    exact if_neg (Nat.not_le.mpr ht)
  have htouch (e : Dev) (v : PwmPair) (a b : Nat) : Dev.Touches [.pwm] e ((e.setPair p.val v).setOut p.val a b) :=
    .mono ((e.touches_setPair p.val v).andThen (Dev.touches_setOut ..)) (by decide)
  refine ⟨_, exec_of_effect rfl hrow, ?_, fun q hq => ?_, (htouch ..).keeps.quietly rfl⟩
  · rw [State.after_pair, Dev.pair_setOut_self, Dev.pair_setPair_self]
  · rw [State.after_pair, Dev.pair_setOut_of_ne _ (Ne.symm hq), Dev.pair_setPair_of_ne _ (Ne.symm hq)]
    rfl

theorem Dev.deadTimeExpire_idle {d : Dev} {p : Nat} (h : (d.pair p).rise = none) : d.deadTimeExpire p = d := by
  unfold Dev.deadTimeExpire
  dsimp only
  rw [h]

/-! ### The statement -/

/-- Settles O31: the period that begins on a readied pair, the bounds of a width, and the two edges that follow. -/
theorem pwmPeriodRuns : Obligations.PwmPeriodRuns := by
  refine ⟨?_, fun p s h => exec_of_effect rfl (Dev.periodStart_idle (d := s.fresh) h), pulseWidth_bounds,
    fun p s hs hx hw ht => compareMatch_falls hs hx hw ht,
    fun p s hx => exec_of_effect rfl (Dev.compareMatch_idle (d := s.fresh) hx),
    fun p s ft a hr ht => deadTimeExpire_rises hr ht,
    fun p s hr => exec_of_effect rfl (Dev.deadTimeExpire_idle (d := s.fresh) hr)⟩
  rintro p s start x ready d hen hnext hle rfl rfl rfl
  obtain ⟨t, ht, hbegun, hkeeps⟩ := pwmPeriodStart_begins hen hnext hle
  obtain ⟨hnone, hsome, hloads, hlatch, hstart, hsn, hlen, hnext'⟩ := hbegun.pair_spec
  refine ⟨t, ht, hnone, hsome, hloads, hlatch, hstart, hsn, hlen, hnext', hbegun.held,
    hbegun.width_spec, fun q hq => (hbegun.others q hq).trans (Dev.pair_readied_of_ne (Ne.symm hq)), hkeeps⟩

end Sys2Proof.Machine
end

section
/-! PROOFS. FRAME_LAUNCH (R226, R227, R233, R241, R268, R363). -/

namespace Sys2Proof.Machine
open Host

section
variable (d : Dev)

/-! ### The steps of a launch -/

/-- A lane on which a frame leaves: busy until its EOF has left (R241). -/
def laneSending (now : Nat) (sn : W32) (bs : List Byte) (x : Lane) : Lane :=
  { x with freeAt := now + lineTicks (bs.length + 8), lastSn := some sn, frame := bs
           rd := lineDisparity x.rd (frameChars bs) }

/-- A string whose frames of a stroke are expected back (R265). -/
def stringFeeding (sn : W32) (flags : Nat) (x : PenString) : PenString :=
  { x with fedFrom := some (x.fedFrom.getD sn), block := x.block && (bitAt flags 0 || bitAt flags 4) }

/-- A frame leaves on a lane and is counted. -/
def Dev.frameOnLane (l n : Nat) (sn : W32) (flags : Nat) (bs : List Byte) (d : Dev) : Dev :=
  let d := (d.setLane l (laneSending d.now sn bs (d.lane l))).onPen fun p => { p with txCnt := satInc p.txCnt }
  d.setStr n (stringFeeding sn flags (d.str n))

/-- The message of a frame is counted as sent (R268). -/
def Dev.messageSent (n : Nat) (sn : W32) (m : Option Message) (d : Dev) : Dev :=
  match m with
  | some v => d.countMsg n sn v
  | none => d

/-- The drill section goes to the partner of an ACTIVE device (R363), with the claim of its stroke (R366). -/
def Dev.drillShared (p : DrillPkt) (d : Dev) : Dev :=
  if d.twn.st = .active then (d.send (.drill p)).claim p.sn else d

theorem Dev.sendFrame_eq (n e : Nat) (g : Grid) (j : Option Job) : ∃ bs flags m p, d.sendFrame n e g j =
    ((d.frameOnLane (2 * n + e) n g.sn flags bs).messageSent n g.sn m).drillShared p :=
  ⟨_, _, _, _, rfl⟩

/-- Counting a message rewrites its string, and leaves what a string with the same first stroke leaves. -/
theorem Dev.messageSent_same {β : Type} {part : Dev → β} {n : Nat}
    (h : ∀ x : PenString, x.fedFrom = (d.str n).fedFrom → part (d.setStr n x) = part d) (sn : W32) (m : Option Message) :
    part (d.messageSent n sn m) = part d := by
  cases m with
  | none => rfl
  | some v =>
    unfold Dev.messageSent Dev.countMsg
    dsimp only
    split
    · rfl
    · exact h _ rfl

theorem Dev.messageSent_lanes (n : Nat) (sn : W32) (m : Option Message) :
    (d.messageSent n sn m).pen.lanes = d.pen.lanes :=
  d.messageSent_same (part := fun d => d.pen.lanes) (fun _ _ => rfl) sn m

theorem Dev.messageSent_txCnt (n : Nat) (sn : W32) (m : Option Message) :
    (d.messageSent n sn m).pen.txCnt = d.pen.txCnt :=
  d.messageSent_same (part := fun d => d.pen.txCnt) (fun _ _ => rfl) sn m

theorem Dev.messageSent_fedFrom (n : Nat) (sn : W32) (m : Option Message) :
    ((d.messageSent n sn m).str n).fedFrom = (d.str n).fedFrom :=
  d.messageSent_same (part := fun d => (d.str n).fedFrom) (fun x h => by rw [Dev.setStr_str_self, h]) sn m

theorem Dev.touches_messageSent (n : Nat) (sn : W32) (m : Option Message) :
    Dev.Touches [.pen] d (d.messageSent n sn m) := by
  cases m with
  | none => exact .mono .refl (by decide)
  | some v => exact .mono (.ite .refl (Dev.touches_setStr ..)) (by decide)

theorem Dev.claim_sent (sn : W32) : (d.claim sn).twn.sent = d.twn.sent := by
  unfold Dev.claim
  split <;> rfl

theorem Dev.touches_drillShared (p : DrillPkt) : Dev.Touches [.twn] d (d.drillShared p) :=
  .mono (.ite ((Dev.touches_send ..).andThen (Dev.touches_claim ..)) .refl) (by decide)

theorem Dev.drillShared_host (p : DrillPkt) : (d.drillShared p).host = d.host := by
  have hsend : (d.send (.drill p)).host = d.host := by
    unfold Dev.send Dev.sendLen
    split <;> rfl
  have hclaim (e : Dev) : (e.claim p.sn).host = e.host := by
    unfold Dev.claim
    split <;> rfl
  unfold Dev.drillShared
  split
  · exact (hclaim _).trans hsend
  · rfl

end

section
variable {d : Dev}

/-- With the lanes in use and nothing sent yet, a packet leaves for the partner of an ACTIVE device alone. -/
theorem Dev.drillShared_sent_ne_nil_iff (hoff : d.lanesOff = false) (hsent : d.twn.sent = []) (p : DrillPkt) :
    (d.drillShared p).twn.sent ≠ [] ↔ d.twn.st = .active := by
  unfold Dev.drillShared
  split
  · next h =>
    obtain ⟨x, hx, -⟩ := Dev.send_sent (p := .drill p) hoff
    rw [Dev.claim_sent]
    exact iff_of_true (List.ne_nil_of_mem hx) h
  · next h => exact iff_of_false (not_not_intro hsent) h

/-! ### The row -/

variable {n e : Nat}

theorem Dev.frameLaunch_eq {g : Grid} {j : Option Job} (hen : d.strEn n = true) (he : e ∈ d.myEnds)
    (hoff : d.lanesOff = false) (hfree : (d.lane (2 * n + e)).freeAt ≤ d.now)
    (hnext : d.nextFrame (2 * n + e) = some (g, j)) (hdue : d.frameDue n g j = true) :
    d.frameLaunch n e = d.sendFrame n e g j := by
  unfold Dev.frameLaunch
  dsimp only
  rw [if_neg (by simp [hen, he, hoff, hfree]), hnext]
  exact if_pos hdue

theorem Dev.frameLaunch_idle (h : d.strEn n = false ∨ e ∉ d.myEnds ∨ d.lanesOff = true ∨
    d.now < (d.lane (2 * n + e)).freeAt ∨ d.nextFrame (2 * n + e) = none) : d.frameLaunch n e = d := by
  unfold Dev.frameLaunch
  dsimp only
  split
  · rfl
  · next hopen =>
    have hnext : d.nextFrame (2 * n + e) = none := by
      simp only [not_or, Bool.not_eq_true, not_not, not_lt, Bool.not_eq_false'] at hopen
      obtain ⟨hen, he, hoff, hfree⟩ := hopen
      rcases h with h | h | h | h | h
      · exact absurd hen (by simp [h])
      · exact absurd he h
      · exact absurd h (by simp [hoff])
      · exact absurd h (Nat.not_lt.mpr hfree)
      · exact h
    rw [hnext]

end

section
variable {d : Dev} (l n : Nat) (sn : W32) (flags : Nat) (bs : List Byte) (m : Option Message) (p : DrillPkt)

/-! ### What a launch leaves -/

/-- A frame leaves, with its message, and its drill section goes to the partner. -/
def Dev.frameOut (d : Dev) : Dev := ((d.frameOnLane l n sn flags bs).messageSent n sn m).drillShared p

theorem Dev.touches_frameOut : Dev.Touches [.pen, .twn] d (d.frameOut l n sn flags bs m p) :=
  .mono ((((d.touches_setLane ..).andThen (Dev.touches_onPen ..)).andThen (Dev.touches_setStr ..)).andThen
    ((Dev.touches_messageSent ..).andThen (Dev.touches_drillShared ..))) (by decide)

theorem Dev.frameOut_pen :
    (d.frameOut l n sn flags bs m p).pen = ((d.frameOnLane l n sn flags bs).messageSent n sn m).pen :=
  ((Dev.touches_drillShared ..).same .pen (by decide)).symm

theorem Dev.frameOut_lane_self :
    (d.frameOut l n sn flags bs m p).lane l = laneSending d.now sn bs (d.lane l) := by
  rw [Dev.lane, Dev.frameOut_pen, Dev.messageSent_lanes]
  exact SMap.get_set_self ..

theorem Dev.frameOut_lane_of_ne {k : Nat} (h : k ≠ l) : (d.frameOut l n sn flags bs m p).lane k = d.lane k := by
  rw [Dev.lane, Dev.frameOut_pen, Dev.messageSent_lanes]
  exact SMap.get_set_of_ne _ _ _ h.symm

theorem Dev.frameOut_txCnt : (d.frameOut l n sn flags bs m p).pen.txCnt = satInc d.pen.txCnt := by
  rw [Dev.frameOut_pen, Dev.messageSent_txCnt]
  rfl

theorem Dev.frameOut_fedFrom :
    ((d.frameOut l n sn flags bs m p).str n).fedFrom = some ((d.str n).fedFrom.getD sn) := by
  rw [Dev.str, Dev.frameOut_pen]
  exact (Dev.messageSent_fedFrom ..).trans (congrArg PenString.fedFrom (Dev.setStr_str_self ..))

theorem Dev.frameOut_host : (d.frameOut l n sn flags bs m p).host = d.host :=
  (Dev.drillShared_host ..).trans (Dev.messageSent_same (part := Dev.host) _ (fun _ _ => rfl) sn m)

theorem Dev.frameOut_sent_ne_nil_iff (hoff : d.lanesOff = false) (hsent : d.twn.sent = []) :
    (d.frameOut l n sn flags bs m p).twn.sent ≠ [] ↔ d.twn.st = .active := by
  have htwn : ((d.frameOnLane l n sn flags bs).messageSent n sn m).twn = d.twn :=
    Dev.messageSent_same (part := Dev.twn) _ (fun _ _ => rfl) sn m
  have hlanes : ((d.frameOnLane l n sn flags bs).messageSent n sn m).lanesOff = false :=
    (Dev.messageSent_same (part := Dev.lanesOff) _ (fun _ _ => rfl) sn m).trans hoff
  exact (Dev.drillShared_sent_ne_nil_iff hlanes (htwn ▸ hsent) p).trans (by rw [htwn])

end

theorem State.fresh_nextFrame (s : State) (l : Nat) : s.fresh.nextFrame l = s.dev.nextFrame l := by
  unfold Dev.nextFrame
  rw [(Dev.KeepsTimebase.of_fresh s).lastGrid]
  rfl

/-- Settles O26: the frame that is due leaves by its steps, and without one the row is idle. -/
theorem frameLaunchSendsOneFrame : Obligations.FrameLaunchSendsOneFrame := by
  refine ⟨fun n e s g j hen he hoff hfree hnext hdue => ?_,
    fun n e s h => exec_of_effect rfl (Dev.frameLaunch_idle (d := s.fresh) (s.fresh_nextFrame _ ▸ h))⟩
  have hrow : exec (.frameLaunch n e) s = .next (s.after (s.fresh.sendFrame n.val e.val g j)) :=
    exec_of_effect rfl (Dev.frameLaunch_eq (d := s.fresh) hen he hoff hfree ((s.fresh_nextFrame _).trans hnext) hdue)
  obtain ⟨bs, flags, m, p, hout⟩ := s.fresh.sendFrame_eq n.val e.val g j
  obtain ⟨t, ht⟩ := exists_eq (a' := s.after (s.fresh.frameOut (2 * n.val + e.val) n.val g.sn flags bs m p))
  have hlane : t.dev.lane (2 * n.val + e.val) = laneSending s.dev.now g.sn bs (s.dev.lane (2 * n.val + e.val)) :=
    ht ▸ Dev.frameOut_lane_self (d := s.fresh) ..
  refine ⟨t, by rw [hrow, hout, ht]; rfl, by rw [hlane]; rfl, by rw [hlane]; rfl, ?_⟩
  subst ht
  exact ⟨fun l hl => Dev.frameOut_lane_of_ne (d := s.fresh) _ _ _ _ _ _ _ hl, Dev.frameOut_txCnt ..,
    Dev.frameOut_fedFrom .., Dev.frameOut_sent_ne_nil_iff (d := s.fresh) _ _ _ _ _ _ _ hoff rfl,
    (Dev.touches_frameOut ..).keeps.quietly (congrArg HostState.out (Dev.frameOut_host ..))⟩

end Sys2Proof.Machine
end

section
/-! PROOFS. BREAK_HEALED (R267) clears the marks of the 64 positions that a string has, and no other. -/

namespace Sys2Proof.Machine
open Host

/-- String 0 disabled with LEN 65 in force, which admission takes because it bounds the LEN of enabled strings only, its break
about to heal; position 0 of string 1 is late-capable. -/
def healingBeyond : State :=
  { State.reset with dev := ((Dev.reset.setForce (Reg.MOD_STR 0) 0x00410000).setStr 0
      { PenString.reset with brk := true, goodRun := 16 }).setSubm 64 { Subm.reset with lateCap := true } }

/-- Refutes O28: with LEN 65 the positions of string 0 reach to submodule 64, which is position 0 of string 1, and the healing
of string 0 leaves that mark. -/
theorem not_stringConditionsTakeEffect : ¬ Obligations.StringConditionsTakeEffect := by
  intro h
  obtain ⟨-, -, -, -, -, -, -, hheal, -⟩ := h
  have hbrk : (healingBeyond.dev.str 0).brk = true := by decide +kernel
  have hrun : 16 ≤ (healingBeyond.dev.str 0).goodRun := by decide +kernel
  have hpos : 64 ∈ healingBeyond.dev.strSubs 0 := by decide +kernel
  have hmark : ((healingBeyond.run (Dev.breakHealed 0)).dev.subm 64).lateCap = true := by decide +kernel
  obtain ⟨t, ht, -, -, -, hclear, -⟩ := hheal 0 healingBeyond hbrk hrun
  have hrow : exec (.breakHealed 0) healingBeyond = .next (healingBeyond.run (Dev.breakHealed 0)) := rfl
  obtain rfl := Outcome.next.inj (hrow.symm.trans ht)
  exact absurd (hclear 64 hpos) (ne_false_of_eq_true hmark)

end Sys2Proof.Machine
end

section
/-! PROOFS. Operations that rewrite strings and the message tag alone (R258, R268), and what of a string the training
operations leave. -/

namespace Sys2Proof.Machine
open Host

/-! ### Only some strings change -/

/-- The device with other strings and another message tag. -/
def Dev.withStrings (ss : SMap PenString) (tag : Nat) (d : Dev) : Dev :=
  d.onPen fun p => { p with strings := ss, tag := tag }

/-- Nothing changes but the strings named and the message tag. -/
structure Dev.StringsOnly (ns : List Nat) (a d : Dev) : Prop where
  rest : ∃ ss tag, d = a.withStrings ss tag
  others : ∀ m, m ∉ ns → d.str m = a.str m

namespace Dev.StringsOnly

variable {ns ms : List Nat} {a d e : Dev}

theorem refl : Dev.StringsOnly ns d d := ⟨⟨d.pen.strings, d.pen.tag, rfl⟩, fun _ _ => rfl⟩

theorem trans (h : Dev.StringsOnly ns a d) (h' : Dev.StringsOnly ms d e) (hs : ∀ n ∈ ms, n ∈ ns) :
    Dev.StringsOnly ns a e := by
  obtain ⟨ss, tag, rfl⟩ := h.rest
  obtain ⟨ss', tag', rfl⟩ := h'.rest
  exact ⟨⟨ss', tag', rfl⟩, fun m hm => (h'.others m fun hms => hm (hs m hms)).trans (h.others m hm)⟩

theorem mono (h : Dev.StringsOnly ms a d) (hs : ∀ n ∈ ms, n ∈ ns) : Dev.StringsOnly ns a d :=
  ⟨h.rest, fun m hm => h.others m fun hms => hm (hs m hms)⟩

theorem ite {c : Prop} [Decidable c] (hd : Dev.StringsOnly ns a d) (he : Dev.StringsOnly ns a e) :
    Dev.StringsOnly ns a (if c then d else e) := by split <;> assumption

theorem foldl {α : Type} {f : Dev → α → Dev} (hf : ∀ d x, Dev.StringsOnly ns d (f d x)) (l : List α) (d : Dev) :
    Dev.StringsOnly ns d (l.foldl f d) :=
  List.foldlRecOn (motive := Dev.StringsOnly ns d) _ _ refl fun e h x _ => h.trans (hf e x) fun _ h => h

theorem setStr (n : Nat) (v : PenString) (d : Dev) : Dev.StringsOnly [n] d (d.setStr n v) :=
  ⟨⟨_, _, rfl⟩, fun _ hm => Dev.setStr_str_of_ne _ _ (List.ne_of_not_mem_cons hm).symm⟩

theorem issue (n opc pos : Nat) (params : List Byte) (d : Dev) : Dev.StringsOnly [n] d (d.issue n opc pos params) :=
  ⟨⟨_, _, rfl⟩, fun _ hm => Dev.setStr_str_of_ne _ _ (List.ne_of_not_mem_cons hm).symm⟩

theorem touches (h : Dev.StringsOnly ns a d) : Dev.Touches [.pen] a d := by
  obtain ⟨ss, tag, rfl⟩ := h.rest
  exact Dev.touches_onPen ..

theorem twn (h : Dev.StringsOnly ns a d) : d.twn = a.twn := by
  obtain ⟨ss, tag, rfl⟩ := h.rest
  rfl

theorem host (h : Dev.StringsOnly ns a d) : d.host = a.host := by
  obtain ⟨ss, tag, rfl⟩ := h.rest
  rfl

theorem lane (h : Dev.StringsOnly ns a d) (l : Nat) : d.lane l = a.lane l := by
  obtain ⟨ss, tag, rfl⟩ := h.rest
  rfl

theorem train (h : Dev.StringsOnly ns a d) : d.pen.train = a.pen.train := by
  obtain ⟨ss, tag, rfl⟩ := h.rest
  rfl

theorem now (h : Dev.StringsOnly ns a d) : d.now = a.now := by
  obtain ⟨ss, tag, rfl⟩ := h.rest
  rfl

end Dev.StringsOnly

/-! ### What of a string the operations of training leave -/

section
variable (d : Dev) {β : Type} {f : PenString → β}

/-- A message that is issued leaves all of its string but the messages. -/
theorem Dev.issue_str (hf : ∀ x ms, f { x with messages := ms } = f x) (n opc pos : Nat) (params : List Byte) :
    f ((d.issue n opc pos params).str n) = f (d.str n) := by
  unfold Dev.issue
  dsimp only
  rw [Dev.setStr_str_self, hf]
  rfl

/-- An echo exchange that begins leaves all of its string but the exchanges under way (R260). -/
theorem Dev.echoAsk_str (hf : ∀ x q0 q1, f { x with req0 := q0, req1 := q1 } = f x) (n e : Nat) :
    f ((d.echoAsk n e).str n) = f (d.str n) := by
  unfold Dev.echoAsk
  extract_lets x tick req d1
  have h1 : f (d1.str n) = f x := by
    unfold d1
    rw [Dev.setStr_str_self]
    split
    · exact hf x req x.req1
    · exact hf x x.req0 req
  clear_value d1 req
  cases req with
  | none => exact h1
  | some q => exact (congrArg (fun ss => f (ss.get PenString.reset n)) (d1.insertSets_strings ..)).trans h1

theorem Dev.echoAsk_host (n e : Nat) : (d.echoAsk n e).host = d.host := by
  unfold Dev.echoAsk
  extract_lets x tick req d1
  cases req with
  | none => rfl
  | some q => exact d1.insertSets_host ..

theorem Dev.sendTrain_str (n m : Nat) (replies : List Reply) (sums : List (Nat × Int)) (fail : Option TrainResult) :
    (d.sendTrain n replies sums fail).str m = d.str m :=
  congrArg (·.strings.get PenString.reset m) ((Dev.touches_sendTrain ..).same .pen (by decide)).symm

/-- A string whose training has ended with a result. -/
def trainingEnded (r : TrainResult) (x : PenString) : PenString :=
  { x with training := false, result := r, messages := otherMessages x.messages, req0 := none, req1 := none }

theorem Dev.trainEnd_str (n : Nat) (r : TrainResult) : (d.trainEnd n r).str n = trainingEnded r (d.str n) :=
  Dev.setStr_str_self ..

theorem Dev.trainFail_str (n : Nat) (r : TrainResult) : (d.trainFail n r).str n = trainingEnded r (d.str n) :=
  (Dev.sendTrain_str ..).trans (d.trainEnd_str n r)

/-- A phase other than MEASURE begins without an echo exchange. -/
theorem Dev.phaseBegins_of_ne_one {phase : Nat} (h : phase ≠ 1) (n : Nat) : d.phaseBegins n phase = d.setStr n { d.str n with
    phase := phase, phaseTick := d.now, req0 := none, req1 := none, syncRun := 0, syncErr := false } := if_neg h

end

section
variable {d : Dev} {n : Nat} (h : d.twn.st = .solo)
include h

/-! ### A SOLO device tells no partner (R377) -/

theorem Dev.sendTrain_solo (replies : List Reply) (sums : List (Nat × Int)) (fail : Option TrainResult) :
    d.sendTrain n replies sums fail = d := if_pos h

theorem Dev.trainFail_solo (r : TrainResult) : d.trainFail n r = d.trainEnd n r :=
  Dev.sendTrain_solo (d := d.trainEnd n r) h ..

theorem Dev.myEnds_solo : d.myEnds = [0, 1] := by
  unfold Dev.myEnds
  rw [h]

theorem Dev.shadows_solo : d.shadows = false := by
  unfold Dev.shadows
  rw [h]
  rfl

end

end Sys2Proof.Machine
end

section
/-! PROOFS. STRING_TRAIN (R258, R259): every named string begins DISCOVER, and one with a lane out of sync fails at once. -/

namespace Sys2Proof.Machine
open Host

section
variable (d : Dev) (n : Nat)

/-! ### One string begins -/

/-- A string whose earlier training is forgotten. -/
def forgotten (x : PenString) : PenString :=
  { x with
    training := true, result := .notTrained, leaseOk := false, id0 := .empty, id1 := .empty, count := none
    echo0 := .empty, echo1 := .empty, sum0 := .empty, sum1 := .empty, messages := otherMessages x.messages
    nextEpoch := none, takeover := false }

/-- A string that has begun DISCOVER. -/
def discovering (now : Nat) (x : PenString) : PenString :=
  { forgotten x with phase := 0, phaseTick := now, req0 := none, req1 := none, syncRun := 0, syncErr := false }

/-- DISCOVER begins. -/
def Dev.discoverBegun (n : Nat) (d : Dev) : Dev := (d.setStr n (forgotten (d.str n))).phaseBegins n 0

/-- COUNT and every IDENTIFY are issued (R259). -/
def Dev.discoverAsked (n : Nat) (d : Dev) : Dev :=
  (upto (d.strLen n)).foldl (fun d p => d.issue n 2 p []) (d.issue n 1 0xFF [])

/-- Both lanes of a string are in character sync. -/
def Dev.bothInSync (n : Nat) (d : Dev) : Bool := (d.lane (2 * n)).sync && (d.lane (2 * n + 1)).sync

/-- A string as its training begins: in DISCOVER from now on, unless a lane is out of sync. -/
structure Dev.Begun (n : Nat) (x : PenString) (d : Dev) : Prop where
  phase : x.phase = 0
  phaseTick : x.phaseTick = d.now
  training : x.training = d.bothInSync n
  result : x.training = false → x.result = .noSignal

theorem Dev.StringsOnly.begun {d e : Dev} {ns : List Nat} (h : Dev.StringsOnly ns d e) {n : Nat} {x : PenString}
    (hx : e.Begun n x) : d.Begun n x := by
  obtain ⟨hphase, htick, htrain, hresult⟩ := hx
  exact ⟨hphase, htick.trans h.now, htrain.trans (by rw [Dev.bothInSync, h.lane, h.lane, Dev.bothInSync]), hresult⟩

theorem Dev.discoverBegun_str : (d.discoverBegun n).str n = discovering d.now (d.str n) := by
  unfold Dev.discoverBegun
  rw [Dev.phaseBegins_of_ne_one _ (by decide), Dev.setStr_str_self, Dev.setStr_str_self]
  rfl

theorem Dev.stringsOnly_discoverBegun : Dev.StringsOnly [n] d (d.discoverBegun n) := by
  unfold Dev.discoverBegun
  rw [Dev.phaseBegins_of_ne_one _ (by decide)]
  exact (Dev.StringsOnly.setStr ..).trans (.setStr ..) fun _ h => h

theorem Dev.stringsOnly_discoverAsked : Dev.StringsOnly [n] d (d.discoverAsked n) :=
  (Dev.StringsOnly.issue ..).trans (.foldl (fun d p => .issue n 2 p [] d) _ _) fun _ h => h

theorem Dev.discoverAsked_str {β : Type} {f : PenString → β} (hf : ∀ x ms, f { x with messages := ms } = f x) :
    f ((d.discoverAsked n).str n) = f (d.str n) :=
  (Dev.foldl_same (part := fun d => f (d.str n)) (fun d p => d.issue_str hf n 2 p []) _ _).trans (d.issue_str hf n 1 0xFF [])

end

section
variable {d : Dev} {n : Nat} (h : d.twn.st = .solo)
include h

theorem Dev.startTraining_solo : d.startTraining n =
    if d.bothInSync n then (d.discoverBegun n).discoverAsked n
    else ((d.discoverBegun n).discoverAsked n).trainEnd n .noSignal := by
  have hbegun := d.stringsOnly_discoverBegun n
  have hall := hbegun.trans ((d.discoverBegun n).stringsOnly_discoverAsked n) fun _ h => h
  have hsolo : (d.discoverBegun n).twn.st = .solo := by rw [hbegun.twn, h]
  have hsolo' : ((d.discoverBegun n).discoverAsked n).twn.st = .solo := by rw [hall.twn, h]
  unfold Dev.startTraining
  extract_lets x y d1 d2 d3
  have h1 : d1 = d.discoverBegun n := Dev.sendTrain_solo hsolo ..
  have h2 : d2 = (d.discoverBegun n).issue n 1 0xFF [] := by
    unfold d2
    rw [h1]
    exact if_pos (by rw [Dev.myEnds_solo hsolo]; decide)
  have h3 : d3 = (d.discoverBegun n).discoverAsked n := by
    unfold d3
    rw [h2]
    rfl
  have hsync : (d3.myEnds.isEmpty || d3.myEnds.any fun e => !(d3.lane (2 * n + e)).sync) = !d.bothInSync n := by
    rw [h3, Dev.myEnds_solo hsolo']
    simp [Dev.bothInSync, hall.lane]
  rw [hsync, h3, Dev.trainFail_solo hsolo']
  cases d.bothInSync n <;> rfl

theorem Dev.startTraining_begins : Dev.StringsOnly [n] d (d.startTraining n) ∧
    d.Begun n ((d.startTraining n).str n) := by
  have hall := (d.stringsOnly_discoverBegun n).trans ((d.discoverBegun n).stringsOnly_discoverAsked n) fun _ h => h
  have hstr {β : Type} (f : PenString → β) (hf : ∀ x ms, f { x with messages := ms } = f x) :=
    (Dev.discoverAsked_str (d.discoverBegun n) n hf).trans (congrArg f (d.discoverBegun_str n))
  have hphase := hstr PenString.phase fun _ _ => rfl
  have htick := hstr PenString.phaseTick fun _ _ => rfl
  have htrain := hstr PenString.training fun _ _ => rfl
  rw [Dev.startTraining_solo h]
  split
  · next hsync => exact ⟨hall, hphase, htick, htrain.trans hsync.symm, fun hidle => nomatch (htrain.symm.trans hidle : true = false)⟩
  · next hsync =>
    refine ⟨hall.trans (.setStr ..) fun _ h => h, ?_⟩
    rw [Dev.trainEnd_str]
    exact ⟨hphase, htick, (Bool.not_eq_true _ ▸ hsync).symm, fun _ => rfl⟩

/-! ### Every named string begins -/

theorem Dev.foldl_startTraining_begins {ns : List Nat} (hn : ns.Nodup) :
    Dev.StringsOnly ns d (ns.foldl (fun d n => d.startTraining n) d) ∧
      ∀ n ∈ ns, d.Begun n ((ns.foldl (fun d n => d.startTraining n) d).str n) := by
  induction ns generalizing d with
  | nil => exact ⟨.refl, by simp⟩
  | cons m rest ih =>
    obtain ⟨hm, hrest⟩ := List.nodup_cons.mp hn
    obtain ⟨hone, hbegun⟩ := Dev.startTraining_begins (n := m) h
    obtain ⟨hothers, hall⟩ := ih (hone.twn ▸ h) hrest
    refine ⟨(hone.mono (by simp)).trans hothers fun _ => List.mem_cons_of_mem _, fun n hmem => ?_⟩
    obtain rfl | hmem := List.mem_cons.mp hmem
    · exact hothers.others n hm ▸ hbegun
    · exact hone.begun (hall n hmem)

end

/-! ### The command -/

theorem Dev.stringTrain_rejected {c : Cmd} {d : Dev} (hen : ∀ n ∈ maskStrings (c.half 20), d.strEn n = true)
    (hlen : c.len.toNat = 1024 * (maskStrings (c.half 20)).length) (hmode : d.gfm.mode ≠ .off) :
    d.stringTrain c = d.complete c 0x41 stRejected := by
  unfold Dev.stringTrain
  extract_lets ns
  rw [if_neg (by simpa [ns, hlen] using hen), if_pos (.inl hmode)]

/-- The operation that an accepted STRING_TRAIN begins. -/
def Dev.trainBegun (c : Cmd) (d : Dev) : TrainOp :=
  ⟨c.half 20, c.ring.val, c.slot.toNat, c.tag.toNat, c.addr.toNat, d.now⟩

/-- An operation joins those in progress. -/
def Dev.trainNoted (c : Cmd) (d : Dev) : Dev := d.onPen fun p => { p with train := p.train ++ [d.trainBegun c] }

theorem Dev.stringTrain_solo {c : Cmd} {d : Dev} (hen : ∀ n ∈ maskStrings (c.half 20), d.strEn n = true)
    (hlen : c.len.toNat = 1024 * (maskStrings (c.half 20)).length) (hmode : d.gfm.mode = .off) (hst : d.twn.st = .solo) :
    d.stringTrain c = (maskStrings (c.half 20)).foldl (fun d n => d.startTraining n) (d.trainNoted c) := by
  unfold Dev.stringTrain
  extract_lets ns op
  rw [if_neg (by simpa [ns, hlen] using hen), if_neg (by simp [hmode, hst])]
  rfl

theorem nodup_maskStrings (mask : Nat) : (maskStrings mask).Nodup := List.nodup_range.filter _

end Sys2Proof.Machine
end

section
/-! PROOFS. Echo responses (R260): each is noted, and the sixteenth gives the position's sum or fails the string. -/

namespace Sys2Proof.Machine
open Host

/-- The echo values of a position so far, at an end (R260). -/
def echoesOf (e p : Nat) (x : PenString) : List Int := (if e = 0 then x.echo0 else x.echo1).get [] p

/-- The echo values of a position replaced. -/
def echoNoted (e p : Nat) (vs : List Int) (x : PenString) : PenString :=
  if e = 0 then { x with echo0 := x.echo0.set [] p vs } else { x with echo1 := x.echo1.set [] p vs }

/-- The delay sum of a position noted. -/
def sumNoted (e p : Nat) (v : Int) (x : PenString) : PenString :=
  if e = 0 then { x with sum0 := x.sum0.set none p (some v) } else { x with sum1 := x.sum1.set none p (some v) }

section
variable (e p : Nat) (x : PenString)

theorem echoesOf_echoNoted (vs : List Int) : echoesOf e p (echoNoted e p vs x) = vs := by
  unfold echoesOf echoNoted
  split
  · exact SMap.get_set_self ..
  · exact SMap.get_set_self ..

theorem sumOf_sumNoted (v : Int) : sumOf (sumNoted e p v x) e p = some v := by
  unfold sumOf sumNoted
  split
  · exact SMap.get_set_self ..
  · exact SMap.get_set_self ..

theorem echoNoted_phase (vs : List Int) :
    (echoNoted e p vs x).phase = x.phase ∧ (echoNoted e p vs x).phaseTick = x.phaseTick := by
  unfold echoNoted
  split <;> exact ⟨rfl, rfl⟩

theorem sumNoted_phase (v : Int) : (sumNoted e p v x).phase = x.phase := by
  unfold sumNoted
  split <;> rfl

end

section
variable {d : Dev} {n e p rt tau : Nat} (hecho : d.echoing n e p = true)
include hecho

theorem Dev.echoing_phase : (d.str n).phase = 1 := by
  unfold Dev.echoing at hecho
  simp only [Bool.and_eq_true, decide_eq_true_eq] at hecho
  obtain ⟨⟨-, hphase, -⟩, -⟩ := hecho
  exact hphase

variable {vs : List Int} (hvs : vs = ((rt : Int) - tau) :: echoesOf e p (d.str n))
include hvs

/-- The next exchange begins. -/
theorem Dev.echoTaken_before (hlen : vs.length < 16) :
    d.echoTaken n e p rt tau = (d.setStr n (echoNoted e p vs (d.str n))).echoAsk n e := by
  subst hvs
  unfold Dev.echoTaken
  rw [hecho]
  exact if_pos hlen

/-- The exchanges of the position are complete. -/
theorem Dev.echoTaken_full (hlen : 16 ≤ vs.length) : d.echoTaken n e p rt tau = match echoSum vs with
    | none => (d.setStr n (echoNoted e p vs (d.str n))).trainFail n .delayFail
    | some v => (((d.setStr n (sumNoted e p v (echoNoted e p vs (d.str n)))).echoAsk n e).sendTrain n [] [(p, v)]
        none).trainStep n := by
  subst hvs
  unfold Dev.echoTaken
  rw [hecho]
  exact if_neg (Nat.not_lt.mpr hlen)

theorem Dev.echoTaken_fails (hlen : 16 ≤ vs.length) (hsum : echoSum vs = none) :
    d.echoTaken n e p rt tau = (d.setStr n (echoNoted e p vs (d.str n))).trainFail n .delayFail := by
  rw [Dev.echoTaken_full hecho hvs hlen, hsum]

theorem Dev.echoTaken_sums {v : Int} (hlen : 16 ≤ vs.length) (hsum : echoSum vs = some v) : d.echoTaken n e p rt tau =
    (((d.setStr n (sumNoted e p v (echoNoted e p vs (d.str n)))).echoAsk n e).sendTrain n [] [(p, v)] none).trainStep n := by
  rw [Dev.echoTaken_full hecho hvs hlen, hsum]

end

/-! ### MEASURE goes on, ends or fails with the sums that it has -/

theorem Dev.trainStep_of_measure {d : Dev} {n : Nat} (h : (d.str n).phase = 1) : d.trainStep n =
    if !(d.str n).training || d.shadows then d
    else match d.measureResult n with
      | none => d
      | some .ok => (upto (d.strLen n)).foldl (Dev.syncSet n) (d.trainPhase n 2)
      | some r => d.trainFail n r := by
  unfold Dev.trainStep
  dsimp only
  rw [h]
  rfl

/-- A string in MEASURE keeps its sums when training goes on. -/
theorem Dev.trainStep_sumOf {d : Dev} {n : Nat} (h : (d.str n).phase = 1) (e p : Nat) :
    sumOf ((d.trainStep n).str n) e p = sumOf (d.str n) e p := by
  have hbegins : sumOf ((d.trainPhase n 2).str n) e p = sumOf (d.str n) e p := by
    unfold Dev.trainPhase
    rw [Dev.sendTrain_str, Dev.phaseBegins_of_ne_one _ (by decide), Dev.setStr_str_self]
    rfl
  have hsync (l : List Nat) (a : Dev) : sumOf ((l.foldl (Dev.syncSet n) a).str n) e p = sumOf (a.str n) e p :=
    Dev.foldl_same (part := fun d => sumOf (d.str n) e p)
      (fun d q => d.issue_str (f := (sumOf · e p)) (fun _ _ => rfl) n 3 q _) l a
  rw [Dev.trainStep_of_measure h]
  split
  · rfl
  · split
    · rfl
    · exact (hsync ..).trans hbegins
    · rw [Dev.trainFail_str]
      rfl

/-! ### The row -/

section
variable (d : Dev) (n e p : Nat) (vs : List Int)

/-- The exchange after one that is noted begins. -/
theorem Dev.echoAsk_noted_str : echoesOf e p (((d.setStr n (echoNoted e p vs (d.str n))).echoAsk n e).str n) = vs ∧
    (((d.setStr n (echoNoted e p vs (d.str n))).echoAsk n e).str n).phaseTick = (d.str n).phaseTick := by
  constructor
  · rw [Dev.echoAsk_str _ (f := echoesOf e p) fun _ _ _ => rfl, Dev.setStr_str_self, echoesOf_echoNoted]
  · rw [Dev.echoAsk_str _ (f := PenString.phaseTick) fun _ _ _ => rfl, Dev.setStr_str_self]
    exact (echoNoted_phase ..).2

/-- Training goes on with a sum that is noted, of a string in MEASURE. -/
theorem Dev.trainStep_sumNoted {d : Dev} {x : PenString} (h : x.phase = 1) (n e p : Nat) (v : Int) (replies : List Reply)
    (sums : List (Nat × Int)) (fail : Option TrainResult) :
    sumOf (((((d.setStr n (sumNoted e p v x)).echoAsk n e).sendTrain n replies sums fail).trainStep n).str n) e p =
      some v := by
  have hstr {β : Type} (f : PenString → β) (hf : ∀ x q0 q1, f { x with req0 := q0, req1 := q1 } = f x) :
      f ((((d.setStr n (sumNoted e p v x)).echoAsk n e).sendTrain n replies sums fail).str n) = f (sumNoted e p v x) := by
    rw [Dev.sendTrain_str, Dev.echoAsk_str _ hf, Dev.setStr_str_self]
  rw [Dev.trainStep_sumOf ((hstr PenString.phase fun _ _ _ => rfl).trans ((sumNoted_phase ..).trans h)),
    hstr (sumOf · e p) fun _ _ _ => rfl, sumOf_sumNoted]

end

/-- An echo response is taken: before the sixteenth the next exchange begins, and with it the position is judged. -/
theorem echoResponse_taken {n : Fin 12} {e : Fin 2} {rt : W32} {line : LineIn} {p tau : Nat} {s : State} {vs : List Int}
    (hrsp : firstSet line isEchoRsp = some (.echoRsp p tau)) (hecho : s.dev.echoing n.val e.val p = true)
    (hvs : vs = ((rt.toNat : Int) - tau) :: echoesOf e.val p (s.dev.str n.val)) :
    Answers (.echoResponse n e rt line.rd line.codes) s fun t =>
      (vs.length < 16 → echoesOf e.val p (t.dev.str n.val) = vs ∧
        (s.dev.str n.val).phaseTick = (t.dev.str n.val).phaseTick ∧ ChangesOnly [.pen] s t ∧ Quiet s t) ∧
      (16 ≤ vs.length → (echoSum vs = none →
          (t.dev.str n.val).training = false ∧ (t.dev.str n.val).result = .delayFail) ∧
        ∀ v, echoSum vs = some v → sumOf (t.dev.str n.val) e.val p = some v) := by
  have hrow : exec (.echoResponse n e rt line.rd line.codes) s =
      .next (s.after (s.fresh.echoTaken n.val e.val p rt.toNat tau)) := by
    refine exec_of_effect rfl ?_
    unfold Dev.echoResponse
    rw [hrsp]
  refine ⟨_, hrow, fun hlen => ?_, fun hlen => ⟨fun hsum => ?_, fun v hsum => ?_⟩⟩
  · obtain ⟨hnoted, htick⟩ := s.fresh.echoAsk_noted_str n.val e.val p vs
    rw [Dev.echoTaken_before (d := s.fresh) hecho hvs hlen]
    exact ⟨hnoted, htick.symm, Dev.Keeps.quietly
      (((Dev.touches_setStr ..).andThen (Dev.touches_echoAsk ..)).mono (by decide)).keeps
      (congrArg HostState.out (Dev.echoAsk_host ..))⟩
  · rw [Dev.echoTaken_fails (d := s.fresh) hecho hvs hlen hsum, State.after_str, Dev.trainFail_str]
    exact ⟨rfl, rfl⟩
  · have hphase := (echoNoted_phase e.val p (s.dev.str n.val) vs).1.trans (Dev.echoing_phase hecho)
    rw [Dev.echoTaken_sums (d := s.fresh) hecho hvs hlen hsum, State.after_str]
    exact Dev.trainStep_sumNoted hphase ..

theorem Dev.echoResponse_idle {d : Dev} {n e rt : Nat} {line : LineIn} (h : firstSet line isEchoRsp = none) :
    d.echoResponse n e rt line = d := by
  unfold Dev.echoResponse
  rw [h]

end Sys2Proof.Machine
end

section
/-! PROOFS. The time limits of training (R260, R262), its end (R258), and the rows of string bring-up together. -/

namespace Sys2Proof.Machine
open Host

section
variable {d : Dev}

/-! ### Time limits -/

theorem Dev.echoTimeout_fails {n e p : Nat} {q : EchoReq} (hecho : d.echoing n e p = true)
    (hq : echoReqOf (d.str n) e = some q) (ht : q.tick + 10 * usTicks ≤ d.now) :
    d.echoTimeout n e p = d.trainFail n .delayFail := by
  unfold Dev.echoTimeout
  rw [hq]
  exact if_pos ⟨hecho, decide_eq_true ht⟩

theorem Dev.syncFail_fails {n : Nat} (h : (d.str n).training = true) (hp : (d.str n).phase = 2)
    (ht : (d.str n).phaseTick + 20 * msTicks ≤ d.now) : d.syncFail n = d.trainFail n .syncFail := if_pos ⟨h, hp, ht⟩

theorem Dev.leaseFail_fails {n : Nat} (h : (d.str n).training = true) (hp : (d.str n).phase = 3)
    (ht : (d.str n).phaseTick + 10 * msTicks ≤ d.now) : d.leaseFail n = d.trainFail n .leaseFail := if_pos ⟨h, hp, ht⟩

/-! ### TRAIN_DONE (R258) -/

/-- The operations of STRING_TRAIN are over, and one event names each string. -/
def Dev.trainReported (ns : List Nat) (d : Dev) : Dev :=
  ns.foldl (fun d n => d.event 11 0 n 0xFFFFFFFF 0) (d.onPen fun p => { p with train := [] })

theorem Dev.trainReported_trainBlock (ns : List Nat) (n : Nat) : (d.trainReported ns).trainBlock n = d.trainBlock n :=
  Dev.foldl_same (part := fun d => d.trainBlock n)
    (fun d m => by simp only [Dev.trainBlock, Dev.strLen, Dev.str, Dev.event_fld, Dev.event_pen]) _ _

theorem Dev.trainDone_idle (h : d.pen.train = []) : d.trainDone = d := by
  unfold Dev.trainDone
  rw [h]
  rfl

theorem Dev.trainDone_one {op : TrainOp} (h : d.pen.train = [op])
    (hidle : ∀ n ∈ maskStrings op.mask, (d.str n).training = false) : d.trainDone =
    ((d.trainReported (maskStrings op.mask)).post op.addr ((maskStrings op.mask).flatMap d.trainBlock)).completeAs
      op.ring op.slot op.tag 0x41
      (if (maskStrings op.mask).all (fun n => decide ((d.str n).result = .ok)) then stOk else stPartial)
      (1024 * (maskStrings op.mask).length) [] := by
  have hover : d.trainOver op = true := Bool.or_eq_true_iff.mpr (.inl (List.all_eq_true.mpr fun n hn => by
    rw [hidle n hn]
    rfl))
  have hnone : (maskStrings op.mask).foldl (fun d n => if (d.str n).training then d.trainFail n (d.overdue n) else d) d = d := by
    refine List.foldlRecOn (motive := (· = d)) _ _ rfl fun e he n hn => ?_
    rw [he, if_neg (by simp [hidle n hn])]
  have htrain : (fun p : PenState => { p with train := p.train.erase op }) d.pen = { d.pen with train := [] } := by
    simp [h]
  unfold Dev.trainDone
  rw [h, List.filter_cons_of_pos hover, List.filter_nil, List.foldl_cons, List.foldl_nil]
  unfold Dev.trainFinish
  extract_lets ns d1 ok d2
  have h1 : d1 = d := hnone
  have h2 : d2 = d.trainReported ns := by
    unfold d2 Dev.trainReported Dev.onPen
    rw [h1, htrain]
  have hblock : d2.trainBlock = d.trainBlock := funext fun n => by rw [h2, Dev.trainReported_trainBlock]
  have hok : ok = ns.all fun n => decide ((d.str n).result = .ok) := by
    unfold ok
    rw [h1]
  rw [hblock, h2, hok]

end

theorem exec_stringTrain {c : Cmd} {s : State} {e : Dev} (h : s.dev.admits 0x41 (inlMask [(20, 0xFF), (21, 0x0F)]) c)
    (he : s.fresh.stringTrain c = e) : exec (.stringTrain c) s = .next (s.after e) :=
  he ▸ State.runCmd_admits (Dev.stringTrain c) h

/-- Settles O29: the command string by string, an echo response by how many came before it, and the ends of training. -/
theorem stringTrainingRuns : Obligations.StringTrainingRuns := by
  refine ⟨fun c s hadm hen hlen => ⟨fun hmode => exec_stringTrain hadm (Dev.stringTrain_rejected (d := s.fresh) hen hlen hmode),
      fun hmode hst => ?_⟩, ?_, fun n e rt line s h => exec_of_effect rfl (Dev.echoResponse_idle h),
    fun n e p s q hecho hq ht => exec_of_effect rfl (Dev.echoTimeout_fails (d := s.fresh) hecho hq ht),
    fun n s htrain => ⟨fun hp ht => exec_of_effect rfl (Dev.syncFail_fails (d := s.fresh) htrain hp ht),
      fun hp ht => exec_of_effect rfl (Dev.leaseFail_fails (d := s.fresh) htrain hp ht)⟩, fun n r d => ?_,
    fun s op h hidle => exec_of_effect rfl (Dev.trainDone_one (d := s.fresh) h hidle),
    fun s h => exec_of_effect rfl (Dev.trainDone_idle (d := s.fresh) h)⟩
  · obtain ⟨honly, hbegun⟩ := Dev.foldl_startTraining_begins (d := s.fresh.trainNoted c) hst (nodup_maskStrings (c.half 20))
    refine ⟨_, exec_stringTrain hadm (Dev.stringTrain_solo (d := s.fresh) hen hlen hmode hst), honly.train,
      fun n hn => ?_, honly.others,
      (((Dev.touches_onPen ..).andThen honly.touches).mono (by decide)).keeps.quietly (congrArg HostState.out honly.host)⟩
    obtain ⟨hphase, htick, htrain, hresult⟩ := hbegun n hn
    exact ⟨hphase, htick, htrain, hresult⟩
  · rintro n e rt line p tau old s hrsp hecho - rfl
    obtain ⟨t, ht, hbefore, hfull⟩ := echoResponse_taken (rt := rt) hrsp hecho rfl
    exact ⟨t, ht, fun hlen => hbefore (Nat.succ_lt_succ hlen), fun hlen => hfull (Nat.succ_le_succ hlen)⟩
  · rw [Dev.trainFail_str]
    exact ⟨rfl, rfl, rfl, (Dev.touches_trainFail ..).keeps⟩

end Sys2Proof.Machine
end

section
/-! PROOFS. What an endpoint does to the characters that pass through it: the bytes it writes anew stand at the places of the
old ones, behind SOF, and BLOCK and FAULT sets pass as they are (R228, R231). -/

namespace Sys2Proof.Machine

section
variable (new : Nat → Option Byte)

theorem rewriteChars_length (i n : Nat) (cs : List LineChar) : (rewriteChars new i n cs).length = cs.length := by
  induction cs generalizing i n with
  | nil => cases n <;> rfl
  | cons c rest ih =>
    cases n with
    | succ n => exact congrArg Nat.succ (ih ..)
    | zero =>
      unfold rewriteChars
      split <;> exact congrArg Nat.succ (ih ..)

/-- The first characters of BLOCK and FAULT sets stand where they stood. -/
theorem rewriteChars_getElem?_set {b : Byte} (hb : b = 0x7C ∨ b = 0x3C) {cs : List LineChar} {m : Nat}
    (h : cs[m]? = some (.ctrl b)) (i n : Nat) : (rewriteChars new i n cs)[m]? = some (.ctrl b) := by
  induction cs generalizing m i n with
  | nil => simp at h
  | cons c rest ih =>
    cases n with
    | succ n =>
      cases m with
      | zero => exact h
      | succ m => exact ih h ..
    | zero =>
      unfold rewriteChars
      split
      · cases m with
        | zero => exact h
        | succ m => exact ih h ..
      · next hc =>
        cases m with
        | zero =>
          obtain rfl : c = .ctrl b := Option.some.inj h
          exact absurd (hb.imp (congrArg LineChar.ctrl) (congrArg LineChar.ctrl)) hc
        | succ m => exact ih h ..

/-- Where the first four bytes are not written anew, they are what a receiver reads, BLOCK and FAULT removed. -/
theorem withoutSets_rewriteChars_take (hnew : ∀ k, k < 4 → new k = none) (i n : Nat) (cs : List LineChar) :
    (withoutSets n (rewriteChars new i n cs)).take (4 - i) = (withoutSets n cs).take (4 - i) := by
  induction cs generalizing i n with
  | nil => cases n <;> rfl
  | cons c rest ih =>
    cases n with
    | succ n => exact ih ..
    | zero =>
      by_cases hc : c = .ctrl 0x7C ∨ c = .ctrl 0x3C
      · have hrw : rewriteChars new i 0 (c :: rest) = c :: rewriteChars new i 3 rest := if_pos hc
        have hpass (cs : List LineChar) : withoutSets 0 (c :: cs) = withoutSets 3 cs := if_pos hc
        rw [hrw, hpass, hpass]
        exact ih ..
      · by_cases hi : i < 4
        · have hrw : rewriteChars new i 0 (c :: rest) = c :: rewriteChars new (i + 1) 0 rest :=
            (if_neg hc).trans (by rw [hnew i hi])
          have hpass (cs : List LineChar) : withoutSets 0 (c :: cs) = c :: withoutSets 0 cs := if_neg hc
          obtain ⟨k, hk, hk'⟩ : ∃ k, 4 - i = k + 1 ∧ k = 4 - (i + 1) := ⟨4 - (i + 1), by omega, rfl⟩
          rw [hrw, hpass, hpass, hk, List.take_succ_cons, List.take_succ_cons, hk', ih]
        · rw [Nat.sub_eq_zero_of_le (Nat.le_of_not_lt hi), List.take_zero, List.take_zero]

end

end Sys2Proof.Machine
end

section
/-! PROOFS. What the operations of an endpoint leave of it, as functions of the endpoint that do not see what they change. -/

namespace Sys2Proof.Machine

section
variable {β : Type} {f : Endpoint → β}

/-! ### Ports (R228, R255, R264) -/

theorem emit_same (hf : ∀ e l r, f { e with outL := l, outR := r } = f e) (port : Nat) (cs : List LineChar) (e : Endpoint) :
    f (emit port cs e) = f e := by
  unfold emit
  extract_lets out
  split
  · rfl
  · split
    · exact hf e cs e.outR
    · exact hf e e.outL cs

theorem forward_same (hf : ∀ e l r, f { e with outL := l, outR := r } = f e) (port : Nat) (cs : List LineChar)
    (e : Endpoint) : f (forward port cs e) = f e := emit_same hf ..

/-- What leaves a port that is open. -/
theorem emit_open {port : Nat} {e : Endpoint} (h : portDown port e = false) (cs : List LineChar) :
    emit port cs e = if port = 0 then { e with outL := cs } else { e with outR := cs } := by
  unfold emit
  extract_lets out
  have hout : out = port := by
    unfold out
    rw [h]
    rfl
  rw [hout, h]
  rfl

/-! ### Faults (R255, R270) -/

/-- A fault that is latched changes the fault codes, what has left the ports, and what BLOCK changes. -/
theorem latchFault_same
    (hf : ∀ e fs l r b st as, f { e with faults := fs, outL := l, outR := r, blocked := b, state := st, armed := as } = f e)
    (p c : Nat) (e : Endpoint) : f (latchFault p c e) = f e := by
  unfold latchFault
  split
  · rfl
  · extract_lets cs e1
    have hout (x : Endpoint) (l r : List LineChar) : f { x with outL := l, outR := r } = f x :=
      hf x x.faults l r x.blocked x.state x.armed
    have h1 : f e1 = f e := by
      unfold e1
      rw [emit_same hout, emit_same hout]
      exact hf e _ e.outL e.outR e.blocked e.state e.armed
    split
    · exact (hf e1 e1.faults e1.outL e1.outR true 7 []).trans h1
    · exact h1

/-! ### Slots (R237, R250) -/

theorem contentOf_same
    (hf : ∀ e sq cs l m, f { e with seq := sq, contents := cs, late := l, mismatch := m } = f e) (fr : Frame) (e : Endpoint) :
    f (contentOf fr e).1 = f e := by
  unfold contentOf
  split
  · rfl
  · exact hf ..

/-- A slot that is written changes its bytes, the contents prepared, and what a new content reports and clears. -/
theorem writeSlot_same
    (hf : ∀ e b sq cs l m sl, f { e with
      bypClosed := b, seq := sq, contents := cs, late := l, mismatch := m, slot := sl } = f e)
    (i : EndpointInput) (fr : Frame) (e : Endpoint) : f (writeSlot i fr e) = f e := by
  have hcontent (x : Endpoint) : f (contentOf fr x).1 = f x :=
    contentOf_same (fun e sq cs l m => hf e e.bypClosed sq cs l m e.slot) fr x
  unfold writeSlot
  extract_lets x e1 n sensed st body
  exact (hf e1 e1.bypClosed e1.seq _ e1.late e1.mismatch _).trans
    ((hcontent _).trans (hf e i.contact e.seq e.contents e.late e.mismatch e.slot))

/-- A content that is due is prepared. -/
theorem prepareDue_same
    (hf : ∀ e sq cs l m c, f { e with seq := sq, contents := cs, late := l, mismatch := m, clock := c } = f e)
    (now : Nat) (run : Bool) (e : Endpoint) : f (prepareDue now run e) = f e := by
  unfold prepareDue
  split
  · rfl
  · next c _ =>
    split
    · rfl
    · exact hf e ..

end

/-! ### What is read of an endpoint -/

/-- The ports, the epoch and the last drill section: what tells whether a drill section is valid, but for the alignment. -/
def epochView (e : Endpoint) : Bool × Bool × Option Nat × Option W32 × Option W32 :=
  (e.lDown, e.rDown, e.epoch, e.hoSn, e.lastSn)

/-- The ports and what a valid drill section sets of the strokes (R244, R247). -/
def strokeView (e : Endpoint) : Bool × Bool × Option W32 × Nat × List W32 × Nat × Nat :=
  (e.lDown, e.rDown, e.lastSn, e.hold, e.got, e.tHold, e.strokeLen)

/-- What BLOCK sets (R248). -/
def blockView (e : Endpoint) : Bool × Nat × List Armed := (e.blocked, e.state, e.armed)

/-- The ports. -/
def portView (e : Endpoint) : Bool × Bool := (e.lDown, e.rDown)

theorem portDown_of_portView {a e : Endpoint} (h : portView e = portView a) (port : Nat) : portDown port e = portDown port a := by
  obtain ⟨hl, hr⟩ := Prod.mk.inj h
  unfold portDown
  rw [hl, hr]

end Sys2Proof.Machine
end

section
/-! PROOFS. ENDPOINT_DRILL_RECEIVED (R228, R244, R245, R250): a frame passes an endpoint in three steps, its alignment and
epoch, its drill section, and the slot and reply that are written into it. -/

namespace Sys2Proof.Machine

/-! ### The steps -/

/-- The alignment of a frame, and the faults that end (R261, R270). -/
def frameAligned (port p : Nat) (i : EndpointInput) (f : Frame) (e : Endpoint) : Endpoint :=
  clearFaults i.conds.toNat (if f.crcOk then frameTiming port p i.sof.toNat f e else e)

/-- The epoch and the drill section of a frame (R244–R252). -/
def frameObeyed (t p : Nat) (half : Bool) (f : Frame) (e : Endpoint) : Endpoint :=
  if f.crcOk then noteClock t f (frameDrill t p half f (frameEpoch p f e)) else e

/-- The slot and the reply of a frame (R237, R268). -/
def frameAnswered (port p : Nat) (i : EndpointInput) (f : Frame) (e : Endpoint) : Endpoint :=
  if f.crcOk then endpointMessage port p i f (writeSlot i f e) else { writeSlot i f e with reply := none }

/-- An endpoint that a frame has passed, before the frame leaves it. -/
def framePassed (now port p : Nat) (half : Bool) (i : EndpointInput) (f : Frame) (e : Endpoint) : Endpoint :=
  frameAnswered port p i f
    (frameObeyed (localTick now (frameAligned port p i f e)) p half f (frameAligned port p i f e))

theorem endpointFrame_eq (now port p : Nat) (half : Bool) (i : EndpointInput) (cs : List LineChar) (f : Frame) (e : Endpoint) :
    ∃ new, (∀ k, k < 4 → new k = none) ∧ endpointFrame now port p half i cs f e =
      forward port (rewriteChars new 0 0 cs) (framePassed now port p half i f e) :=
  ⟨_, fun _ hk => if_pos hk, rfl⟩

/-! ### Alignment and epoch -/

section
variable (port p : Nat) (i : EndpointInput) (f : Frame) (e : Endpoint)

theorem frameTiming_epochView (sof : Nat) : epochView (frameTiming port p sof f e) = epochView e := by
  unfold frameTiming
  split
  · rfl
  · extract_lets e1 at_ x step e2
    have h1 : epochView e1 = epochView e := by
      unfold e1
      split <;> rfl
    have h2 : epochView e2 = epochView e := h1
    split
    · exact h1
    · split
      · exact (latchFault_same (fun _ _ _ _ _ _ _ => rfl) ..).trans h2
      · exact h2

theorem frameAligned_epochView : epochView (frameAligned port p i f e) = epochView e := by
  have hclear (x : Endpoint) : epochView (clearFaults i.conds.toNat x) = epochView x := rfl
  unfold frameAligned
  rw [hclear]
  split
  · exact frameTiming_epochView ..
  · rfl

theorem frameAligned_far (h : f.crcOk = true) :
    (frameAligned port p i f e).far = (frameTiming port p i.sof.toNat f e).far := by
  unfold frameAligned
  rw [h]
  rfl

theorem frameEpoch_portView : portView (frameEpoch p f e) = portView e := by
  unfold frameEpoch
  extract_lets drill e1
  split
  · split
    · split
      · exact (latchFault_same (fun _ _ _ _ _ _ _ => rfl) ..).trans rfl
      · rfl
    · rfl
  · extract_lets done
    split
    · rfl
    · split
      · rfl
      · split <;> rfl

/-- A frame of the epoch held, without TAKEOVER and HANDOVER and with no handover recorded, leaves the epoch (R252). -/
theorem frameEpoch_held (hepoch : e.epoch = some f.epoch) (hho : e.hoSn = none) (htake : bitAt f.flags 2 = false)
    (hover : bitAt f.flags 3 = false) : frameEpoch p f e = e := by
  unfold frameEpoch
  rw [hepoch, hho]
  simp [htake, hover]

end

/-! ### The drill section -/

section
variable (now p : Nat) (half : Bool) (f : Frame) (e : Endpoint)

theorem foldl_armEntry_same {β : Type} {g : Endpoint → β} (hg : ∀ e as l, g { e with armed := as, late := l } = g e)
    (start allow : Nat) (ws : List Nat) (a : Endpoint) : g (ws.foldl (armEntry now start allow half) a) = g a :=
  List.foldlRecOn (motive := fun x => g x = g a) _ _ rfl fun x hx _ _ => (hg x _ _).trans hx

/-- A drill section that is acted on sets its stroke; the rest of it changes BLOCK and the entries armed. -/
theorem takeDrill_same {β : Type} {g : Endpoint → β}
    (hg : ∀ e b st as l, g { e with blocked := b, state := st, armed := as, late := l } = g e) :
    g (takeDrill now p half f e) = g (noteStroke now (fullTick now f.start) f e) := by
  unfold takeDrill
  extract_lets start e1 e2
  have harmed (x : Endpoint) (b : Bool) (as : List Armed) (l : Bool) :
      g { x with blocked := b, armed := as, late := l } = g x :=
    hg x b x.state as l
  split
  · exact hg e1 true 7 [] e1.late
  · split
    · exact harmed e1 e1.blocked [] e1.late
    · have h2 : g e2 = g e1 := by
        unfold e2
        split
        · exact harmed e1 false _ e1.late
        · rfl
      exact (foldl_armEntry_same now half (fun x as l => harmed x x.blocked as l) ..).trans h2

theorem takeDrill_blockAll (h : bitAt f.flags 0 = true) : blockView (takeDrill now p half f e) = (true, 7, []) := by
  unfold takeDrill
  dsimp only
  rw [if_pos h]
  rfl

theorem noteStroke_portView (start : Nat) : portView (noteStroke now start f e) = portView e := rfl

theorem frameDrill_portView : portView (frameDrill now p half f e) = portView e := by
  unfold frameDrill
  split
  · exact (takeDrill_same now p half f e fun _ _ _ _ _ => rfl).trans (noteStroke_portView ..)
  · split <;> rfl

theorem noteClock_same {β : Type} {g : Endpoint → β} (hg : ∀ e c, g { e with clock := c } = g e) :
    g (noteClock now f e) = g e := hg e _

theorem frameObeyed_portView : portView (frameObeyed now p half f e) = portView e := by
  unfold frameObeyed
  split
  · exact (noteClock_same _ f _ fun _ _ => rfl).trans ((frameDrill_portView ..).trans (frameEpoch_portView ..))
  · rfl

end

/-! ### The slot and the reply -/

section
variable (port p : Nat) (i : EndpointInput) (f : Frame) (e : Endpoint)

theorem writeSlot_strokeView : strokeView (writeSlot i f e) = strokeView e :=
  writeSlot_same (fun _ _ _ _ _ _ _ => rfl) ..

theorem endpointMessage_strokeView : strokeView (endpointMessage port p i f e) = strokeView e := by
  unfold endpointMessage
  split
  · rfl
  · next m hm =>
    extract_lets caps failed e1 e2
    split
    · unfold countReply
      split <;> rfl
    · split
      · rfl
      · split
        · rfl
        · rfl
        · have h2 : strokeView e2 = strokeView e := by
            unfold e2
            split
            · exact latchFault_same (fun _ _ _ _ _ _ _ => rfl) ..
            · rfl
          exact h2
        · rfl
        · rfl

theorem frameAnswered_strokeView : strokeView (frameAnswered port p i f e) = strokeView e := by
  unfold frameAnswered
  split
  · exact (endpointMessage_strokeView ..).trans (writeSlot_strokeView ..)
  · exact writeSlot_strokeView ..

/-- Without a message there is no reply, and BLOCK stays as it is. -/
theorem frameAnswered_of_none (h : f.msg = none) : (frameAnswered port p i f e).reply = none ∧
    blockView (frameAnswered port p i f e) = blockView e := by
  have hmsg : endpointMessage port p i f (writeSlot i f e) = { writeSlot i f e with reply := none } := by
    unfold endpointMessage
    rw [h]
  have hall : frameAnswered port p i f e = { writeSlot i f e with reply := none } := by
    unfold frameAnswered
    rw [hmsg]
    exact ite_self _
  rw [hall]
  exact ⟨rfl, writeSlot_same (f := blockView) (fun _ _ _ _ _ _ _ => rfl) ..⟩

end

/-! ### A frame passes -/

/-- A valid drill section's stroke stands in the endpoint (R244, R247). -/
structure TookStroke (f : Frame) (e : Endpoint) : Prop where
  lastSn : e.lastSn = some f.sn
  hold : e.hold = 0
  got : f.sn ∈ e.got
  tHold : e.tHold = f.tHold
  strokeLen : e.strokeLen = f.strokeLen

theorem TookStroke.of_strokeView {f : Frame} {a e : Endpoint} (h : TookStroke f a) (hv : strokeView e = strokeView a) :
    TookStroke f e := by
  simp only [strokeView, Prod.mk.injEq] at hv
  obtain ⟨-, -, hlast, hhold, hgot, htHold, hlen⟩ := hv
  exact ⟨hlast.trans h.lastSn, hhold.trans h.hold, hgot ▸ h.got, htHold.trans h.tHold, hlen.trans h.strokeLen⟩

theorem noteStroke_took (now start : Nat) (f : Frame) (e : Endpoint) : TookStroke f (noteStroke now start f e) :=
  ⟨rfl, rfl, List.mem_cons_self, rfl, rfl⟩

theorem takeDrill_took (now p : Nat) (half : Bool) (f : Frame) (e : Endpoint) : TookStroke f (takeDrill now p half f e) :=
  (noteStroke_took now _ f e).of_strokeView (takeDrill_same now p half f e fun _ _ _ _ _ => rfl)

section
variable {now port p : Nat} {half : Bool} {i : EndpointInput} {f : Frame} {e : Endpoint}

theorem framePassed_portView : portView (framePassed now port p half i f e) = portView e := by
  have hports {x y : Endpoint} (h : strokeView x = strokeView y) : portView x = portView y := by
    obtain ⟨hl, hrest⟩ := Prod.mk.inj h
    exact Prod.ext hl (Prod.mk.inj hrest).1
  have hepochs {x y : Endpoint} (h : epochView x = epochView y) : portView x = portView y := by
    obtain ⟨hl, hrest⟩ := Prod.mk.inj h
    exact Prod.ext hl (Prod.mk.inj hrest).1
  exact (hports (frameAnswered_strokeView ..)).trans
    ((frameObeyed_portView ..).trans (hepochs (frameAligned_epochView ..)))

/-- A frame leaves the port opposite to the one it came in on (R228). -/
theorem endpointFrame_out {q : Fin 2} (hopen : portDown (1 - q.val) e = false) (cs : List LineChar) :
    ∃ new, (∀ k, k < 4 → new k = none) ∧ rewriteChars new 0 0 cs =
      if q.val = 0 then (endpointFrame now q.val p half i cs f e).outR else (endpointFrame now q.val p half i cs f e).outL := by
  obtain ⟨new, hnew, heq⟩ := endpointFrame_eq now q.val p half i cs f e
  refine ⟨new, hnew, ?_⟩
  rw [heq, forward, emit_open ((portDown_of_portView framePassed_portView _).trans hopen)]
  match q with
  | 0 => rfl
  | 1 => rfl

theorem endpointFrame_same {β : Type} {g : Endpoint → β} (hg : ∀ e l r, g { e with outL := l, outR := r } = g e)
    (cs : List LineChar) : g (endpointFrame now port p half i cs f e) = g (framePassed now port p half i f e) := by
  obtain ⟨new, -, heq⟩ := endpointFrame_eq now port p half i cs f e
  rw [heq]
  exact forward_same hg ..

theorem endpointFrame_reply (hmsg : f.msg = none) (cs : List LineChar) :
    (endpointFrame now port p half i cs f e).reply = none :=
  (endpointFrame_same (g := Endpoint.reply) (fun _ _ _ => rfl) cs).trans (frameAnswered_of_none port p i f _ hmsg).1

section
variable (hcrc : f.crcOk = true) (hphase : f.phase = 3) (htake : bitAt f.flags 2 = false) (hover : bitAt f.flags 3 = false)
  (hdrill : bitAt f.flags 4 = false) (hepoch : e.epoch = some f.epoch) (hho : e.hoSn = none)
  (hfar : (frameTiming port p i.sof.toNat f e).far = false) (hnew : ∀ l, e.lastSn = some l → afterSn f.sn l = true)
include hcrc hphase htake hover hdrill hepoch hho hfar hnew

/-- A frame with a valid drill section is acted on. -/
theorem frameObeyed_valid (t : Nat) : frameObeyed t p half f (frameAligned port p i f e) =
    noteClock t f (takeDrill t p half f (frameAligned port p i f e)) := by
  have hview := frameAligned_epochView port p i f e
  simp only [epochView, Prod.mk.injEq] at hview
  obtain ⟨-, -, hepoch', hho', hlast'⟩ := hview
  have hvalid : drillValid f (frameAligned port p i f e) = true := by
    unfold drillValid
    rw [hcrc, hdrill, hepoch', hepoch, frameAligned_far port p i f e hcrc, hfar, hlast']
    cases hl : e.lastSn with
    | none => simp [hphase]
    | some l => simp [hphase, hnew l hl]
  unfold frameObeyed
  rw [if_pos hcrc, frameEpoch_held p f _ (hepoch'.trans hepoch) (hho'.trans hho) htake hover]
  unfold frameDrill
  rw [if_pos hvalid]

theorem endpointFrame_took (cs : List LineChar) : TookStroke f (endpointFrame now port p half i cs f e) := by
  have hview : strokeView (framePassed now port p half i f e) = _ := frameAnswered_strokeView ..
  rw [frameObeyed_valid hcrc hphase htake hover hdrill hepoch hho hfar hnew,
    noteClock_same (g := strokeView) _ f _ fun _ _ => rfl] at hview
  exact (takeDrill_took ..).of_strokeView ((endpointFrame_same (fun _ _ _ => rfl) cs).trans hview)

theorem endpointFrame_blockAll (hmsg : f.msg = none) (hall : bitAt f.flags 0 = true) (cs : List LineChar) :
    blockView (endpointFrame now port p half i cs f e) = (true, 7, []) := by
  rw [endpointFrame_same (g := blockView) (fun _ _ _ => rfl), framePassed, (frameAnswered_of_none port p i f _ hmsg).2,
    frameObeyed_valid hcrc hphase htake hover hdrill hepoch hho hfar hnew, noteClock_same (g := blockView) _ f _ fun _ _ => rfl]
  exact takeDrill_blockAll _ p half f _ hall

end

end

end Sys2Proof.Machine
end

section
/-! PROOFS. What holds an endpoint: strokes without a drill section (R247, R250), BLOCK sets (R248), and faults (R255). -/

namespace Sys2Proof.Machine

/-! ### Faults -/

section
variable {p c : Nat} {e : Endpoint}

theorem latchFault_of_mem (h : c ∈ e.faults) : latchFault p c e = e :=
  if_pos (List.contains_iff_mem.2 h)

/-- A fault is noted, and FAULT leaves both ports. -/
def faultSent (p c : Nat) (e : Endpoint) : Endpoint :=
  emit 1 (threeCopies (.fault p c)) (emit 0 (threeCopies (.fault p c)) { e with faults := e.faults ++ [c] })

theorem latchFault_of_not_mem (h : c ∉ e.faults) : latchFault p c e =
    if c ≤ 4 then { faultSent p c e with blocked := true, state := 7, armed := [] } else faultSent p c e :=
  if_neg (mt List.contains_iff_mem.1 h)

/-- A fault code that blocks changes nothing else of what a fault sends. -/
theorem latchFault_same_faultSent {β : Type} {g : Endpoint → β}
    (hg : ∀ e b st as, g { e with blocked := b, state := st, armed := as } = g e) (h : c ∉ e.faults) :
    g (latchFault p c e) = g (faultSent p c e) := by
  rw [latchFault_of_not_mem h]
  split
  · exact hg ..
  · rfl

theorem latchFault_faults (h : c ∉ e.faults) : (latchFault p c e).faults = e.faults ++ [c] :=
  (latchFault_same_faultSent (fun _ _ _ _ => rfl) h).trans
    ((emit_same (f := Endpoint.faults) (fun _ _ _ => rfl) ..).trans (emit_same (f := Endpoint.faults) (fun _ _ _ => rfl) ..))

theorem mem_latchFault : c ∈ (latchFault p c e).faults := by
  by_cases h : c ∈ e.faults
  · rwa [latchFault_of_mem h]
  · rw [latchFault_faults h]
    exact List.mem_append_right _ (List.mem_singleton_self c)

theorem latchFault_blocks (h : c ∉ e.faults) (hc : c ≤ 4) : blockView (latchFault p c e) = (true, 7, []) := by
  rw [latchFault_of_not_mem h, if_pos hc]
  rfl

theorem emit_both (hl : e.lDown = false) (hr : e.rDown = false) (cs : List LineChar) :
    emit 1 cs (emit 0 cs e) = { e with outL := cs, outR := cs } := by
  have hsecond : portDown 1 { e with outL := cs } = false := hr
  rw [emit_open (port := 0) hl, if_pos rfl]
  exact emit_open hsecond cs

/-- With both ports open, a fault leaves both as three copies of FAULT. -/
theorem latchFault_out (h : c ∉ e.faults) (hl : e.lDown = false) (hr : e.rDown = false) :
    (latchFault p c e).outL = threeCopies (.fault p c) ∧ (latchFault p c e).outR = threeCopies (.fault p c) := by
  have hsent : faultSent p c e = _ := emit_both (e := { e with faults := e.faults ++ [c] }) hl hr _
  rw [latchFault_same_faultSent (g := Endpoint.outL) (fun _ _ _ _ => rfl) h,
    latchFault_same_faultSent (g := Endpoint.outR) (fun _ _ _ _ => rfl) h, hsent]
  exact ⟨rfl, rfl⟩

end

/-! ### Strokes without a drill section -/

/-- The prediction of the strokes (R247). -/
def holdView (e : Endpoint) : Nat × Bool × W32 × Nat := (e.hold, e.holding, e.holdSn, e.holdAt)

/-- A stroke has ended without a drill section, and the prediction goes on to the next one. -/
def strokeMissed (e : Endpoint) : Endpoint := nextHold { e with hold := min 255 (e.hold + 1), holding := true }

section
variable {now p : Nat} {run : Bool} {e : Endpoint}

theorem endpointHold_over (hover : strokeOver now e = true) (hgot : e.holdSn ∉ e.got) : endpointHold now p run e =
    prepareDue now run (if min 255 (e.hold + 1) = e.tHold then latchFault p 4 (strokeMissed e) else strokeMissed e) :=
  if_neg (by simp [hover, hgot])

theorem endpointHold_idle (h : strokeOver now e = false ∨ e.holdSn ∈ e.got) : endpointHold now p run e = e :=
  if_pos (by simpa using h)

theorem endpointHold_view (hover : strokeOver now e = true) (hgot : e.holdSn ∉ e.got) :
    holdView (endpointHold now p run e) = (min 255 (e.hold + 1), true, e.holdSn + 1, e.holdAt + e.strokeLen) := by
  rw [endpointHold_over hover hgot]
  refine (prepareDue_same (fun _ _ _ _ _ _ => rfl) ..).trans ?_
  split
  · exact (latchFault_same (f := holdView) (fun _ _ _ _ _ _ _ => rfl) ..).trans rfl
  · rfl

/-- The hold limit latches fault 4. -/
theorem endpointHold_limit (hover : strokeOver now e = true) (hgot : e.holdSn ∉ e.got)
    (hlimit : min 255 (e.hold + 1) = e.tHold) : 4 ∈ (endpointHold now p run e).faults := by
  rw [endpointHold_over hover hgot, if_pos hlimit,
    prepareDue_same (f := Endpoint.faults) fun _ _ _ _ _ _ => rfl]
  exact mem_latchFault

end

/-! ### Ports, BLOCK sets, echo requests and frames -/

theorem setPort_self (q : Fin 2) (down : Bool) (e : Endpoint) : portDown q.val (setPort q.val down e) = down := by
  match q with
  | 0 => rfl
  | 1 => rfl

theorem setPort_other (q : Fin 2) (down : Bool) (e : Endpoint) :
    portDown (1 - q.val) (setPort q.val down e) = portDown (1 - q.val) e := by
  match q with
  | 0 => rfl
  | 1 => rfl

section
variable {port : Nat} {line : LineIn} {e : Endpoint} (hopen : portDown port e = false)
include hopen

theorem endpointBlockSet_open {epoch : Nat} (hset : firstSet line isBlockSet = some (.block epoch)) :
    endpointBlockSet port line e = endpointBlock epoch (forward port (decodeLine line.rd line.codes) e) := by
  unfold endpointBlockSet
  rw [hopen, hset]
  rfl

/-- A BLOCK set of the epoch held blocks. -/
theorem endpointBlockSet_held {epoch : Nat} (hset : firstSet line isBlockSet = some (.block epoch))
    (hepoch : e.epoch = some epoch) : blockView (endpointBlockSet port line e) = (true, 7, []) := by
  have hkept := forward_same (f := Endpoint.epoch) (fun _ _ _ => rfl) port (decodeLine line.rd line.codes) e
  rw [endpointBlockSet_open hopen hset, endpointBlock, if_pos (hkept.trans hepoch)]
  rfl

/-- A BLOCK set of another epoch passes on and is not obeyed. -/
theorem endpointBlockSet_other {epoch : Nat} (hset : firstSet line isBlockSet = some (.block epoch))
    (hepoch : e.epoch ≠ some epoch) :
    endpointBlockSet port line e = forward port (decodeLine line.rd line.codes) e := by
  have hkept := forward_same (f := Endpoint.epoch) (fun _ _ _ => rfl) port (decodeLine line.rd line.codes) e
  rw [endpointBlockSet_open hopen hset, endpointBlock, if_neg (hkept ▸ hepoch)]

theorem endpointEcho_open {p delay pos q : Nat} (hset : firstSet line isEchoReq = some (.echoReq pos q))
    (hdelay : pos ≠ p ∨ delay ≤ 1024) : endpointEcho port p delay line e =
      if pos = p then emit port (setChars (.echoRsp pos delay)) e else forward port (decodeLine line.rd line.codes) e := by
  unfold endpointEcho
  rw [hopen, hset]
  by_cases hpos : pos = p
  · subst hpos
    simp [hdelay.resolve_left fun h => h rfl]
  · simp [hpos]

theorem endpointLine_frame {now p : Nat} {half : Bool} {i : EndpointInput} {f : Frame} (hf : frameOf line = some f) :
    endpointLine now port p half i line e = endpointFrame now port p half i (decodeLine line.rd line.codes) f e := by
  unfold endpointLine
  rw [hopen, hf]
  rfl

end

theorem endpointLine_noFrame {now port p : Nat} {half : Bool} {i : EndpointInput} {line : LineIn} {e : Endpoint}
    (h : frameOf line = none ∨ portDown port e = true) : endpointLine now port p half i line e =
      if portDown port e then e else forward port (decodeLine line.rd line.codes) e := by
  unfold endpointLine
  split
  · rfl
  · next hopen => rw [h.resolve_right hopen]

end Sys2Proof.Machine
end

section
/-! PROOFS. The rows of an endpoint (R228, R244–R248, R255, R260, R264). -/

namespace Sys2Proof.Machine
open Host

/-- A row of an endpoint changes that endpoint only. -/
theorem answers_onEndp {i : Instr} {s : State} {k : Nat} {g : Endpoint → Endpoint}
    (hi : exec i s = .next (s.after (s.fresh.onEndp k g))) : Answers i s fun t =>
      t.dev.endp k = g (s.dev.endp k) ∧ (∀ m, m ≠ k → t.dev.endp m = s.dev.endp m) ∧ ChangesOnly [.pen] s t ∧ Quiet s t :=
  ⟨_, hi, SMap.get_set_self .., fun _ hm => SMap.get_set_of_ne _ _ _ hm.symm, (Dev.touches_onPen ..).keeps.quietly rfl⟩

/-- ENDPOINT_DRILL_RECEIVED with a frame (R228, R244). -/
theorem endpointDrillReceived_frame {k : Fin 768} {q : Fin 2} {i : EndpointInput} {line : LineIn} {s : State} {f : Frame}
    (hf : frameOf line = some f) (hopen : portDown q.val (s.dev.endp k.val) = false) :
    Answers (.endpointDrillReceived k q i line) s fun t =>
      t.dev.endp k.val = endpointFrame s.dev.now q.val (k.val % 64) (decide (s.dev.topo = 1)) i
        (decodeLine line.rd line.codes) f (s.dev.endp k.val) ∧
      (∀ m, m ≠ k.val → t.dev.endp m = s.dev.endp m) ∧ ChangesOnly [.pen] s t ∧ Quiet s t := by
  obtain ⟨t, hrow, hself, hrest⟩ := answers_onEndp (i := .endpointDrillReceived k q i line) (s := s) rfl
  exact ⟨t, hrow, hself.trans (endpointLine_frame hopen hf), hrest⟩

/-- Settles O30: each row acts on its endpoint by the step it names, and that step does what the endpoint has to. -/
theorem endpointsObeyAndBlock : Obligations.EndpointsObeyAndBlock := by
  refine ⟨fun k q i line s f hf hopen => ?frame, fun k q i line s h => ?passes, fun k s hover hgot => ?holds,
    fun k s h => ?idle, fun k q line epoch s hopen hset => ?block, fun k code s hcode => ?fault,
    fun k q s => ⟨?down, ?up⟩, fun k q delay line pos port s hopen hset hdelay => ?echo⟩
  case frame =>
    obtain ⟨t, hrow, hself, hrest⟩ := endpointDrillReceived_frame (i := i) hf hopen
    refine ⟨t, hrow, fun hother => ?_, fun hcrc hphase htake hover hdrill hepoch hho hfar hnew => ?_, hrest⟩ <;> rw [hself]
    · obtain ⟨new, hnew, hout⟩ := endpointFrame_out hother (decodeLine line.rd line.codes)
      exact ⟨_, hout, rewriteChars_length .., withoutSets_rewriteChars_take new hnew 0 0 _,
        fun m b hb hm => rewriteChars_getElem?_set new hb hm 0 0⟩
    · obtain ⟨hlast, hhold, hgot, htHold, hlen⟩ := endpointFrame_took (cs := decodeLine line.rd line.codes)
        (now := s.dev.now) (half := decide (s.dev.topo = 1)) hcrc hphase htake hover hdrill hepoch hho hfar hnew
      refine ⟨hlast, hhold, hgot, htHold, hlen, fun hmsg => ⟨endpointFrame_reply hmsg _, fun hall => ?_⟩⟩
      have hblock := endpointFrame_blockAll (cs := decodeLine line.rd line.codes) (now := s.dev.now)
        (half := decide (s.dev.topo = 1)) hcrc hphase htake hover hdrill hepoch hho hfar hnew hmsg hall
      simpa only [blockView, Prod.mk.injEq] using hblock
  case passes =>
    obtain ⟨t, hrow, hself, hrest⟩ := answers_onEndp (i := .endpointDrillReceived k q i line) (s := s) rfl
    exact ⟨t, hrow, hself.trans (endpointLine_noFrame h), hrest⟩
  case holds =>
    obtain ⟨t, hrow, hself, hrest⟩ := answers_onEndp (i := .endpointHold k) (s := s) rfl
    have hview := (congrArg holdView hself).trans (endpointHold_view hover hgot)
    simp only [holdView, Prod.mk.injEq] at hview
    obtain ⟨hhold, hholding, hsn, hat⟩ := hview
    exact ⟨t, hrow, hhold, hholding, hsn, hat, fun hlimit => hself ▸ endpointHold_limit hover hgot hlimit, hrest⟩
  case idle =>
    obtain ⟨t, hrow, hself, hothers, hrest⟩ := answers_onEndp (i := .endpointHold k) (s := s) rfl
    refine ⟨t, hrow, fun m => ?_, hrest⟩
    obtain rfl | hm := eq_or_ne m k.val
    · exact hself.trans (endpointHold_idle h)
    · exact hothers m hm
  case block =>
    obtain ⟨t, hrow, hself, hrest⟩ := answers_onEndp (i := .endpointBlockReceived k ⟨q, line⟩) (s := s) rfl
    refine ⟨t, hrow, fun hepoch => ?_, fun hepoch => hself.trans (endpointBlockSet_other hopen hset hepoch), hrest⟩
    have hview := (congrArg blockView hself).trans (endpointBlockSet_held hopen hset hepoch)
    simpa only [blockView, Prod.mk.injEq] using hview
  case fault =>
    obtain ⟨t, hrow, hself, hrest⟩ := answers_onEndp (i := .endpointFaultDetect k code) (s := s)
      (exec_of_effect rfl (if_pos hcode))
    refine ⟨t, hrow, fun hfresh => ⟨?_, fun hcode => ?_, fun hl hr => ?_⟩, fun hmem => ?_, hrest⟩ <;> rw [hself]
    · exact latchFault_faults hfresh
    · have hview := latchFault_blocks (p := k.val % 64) hfresh hcode
      simp only [blockView, Prod.mk.injEq] at hview
      obtain ⟨hblocked, hstate, -⟩ := hview
      exact ⟨hblocked, hstate⟩
    · exact latchFault_out hfresh hl hr
    · exact latchFault_of_mem hmem
  case down =>
    obtain ⟨t, hrow, hself, hrest⟩ := answers_onEndp (i := .endpointPortDown k q) (s := s) rfl
    exact ⟨t, hrow, hself, hrest⟩
  case up =>
    obtain ⟨t, hrow, hself, hrest⟩ := answers_onEndp (i := .endpointPortUp k q) (s := s) rfl
    refine ⟨t, hrow, ?_, ?_, hrest⟩ <;> rw [hself]
    · exact setPort_self ..
    · exact setPort_other ..
  case echo =>
    obtain ⟨t, hrow, hself, hrest⟩ := answers_onEndp (i := .endpointEchoReq k delay ⟨q, line⟩) (s := s) rfl
    exact ⟨t, hrow, hself.trans (endpointEcho_open hopen hset hdelay), hrest⟩

end Sys2Proof.Machine
end

section
/-! PROOFS. What a sparse table in canonical form lists: one cell for each key that is not at the default. -/

namespace Sys2Proof.SMap

variable {α : Type}

theorem mem_of_lookup {l : List (Nat × α)} {k : Nat} {v : α} (h : lookup l k = some v) : (k, v) ∈ l := by
  induction l with
  | nil => simp [lookup] at h
  | cons c rest ih =>
    obtain ⟨a, b⟩ := c
    by_cases ha : a = k
    · simp_all [lookup]
    · simp only [lookup, if_neg ha] at h
      exact List.mem_cons_of_mem _ (ih h)

theorem lookup_of_mem {l : List (Nat × α)} (hr : rising l = true) {k : Nat} {v : α} (h : (k, v) ∈ l) :
    lookup l k = some v := by
  induction l with
  | nil => simp at h
  | cons c rest ih =>
    obtain ⟨a, b⟩ := c
    obtain ⟨hrest, hlt⟩ := rising_cons.mp hr
    rcases List.mem_cons.mp h with heq | hmem
    · obtain ⟨rfl, rfl⟩ := Prod.mk.inj heq
      exact if_pos rfl
    · have hne : a ≠ k := Nat.ne_of_lt (hlt _ hmem)
      exact (if_neg hne).trans (ih hrest hmem)

/-- A key whose value is not the default has its cell. -/
theorem mem_cells_of_get {m : SMap α} {d : α} {k : Nat} (h : m.get d k ≠ d) : (k, m.get d k) ∈ m.cells := by
  unfold get at h ⊢
  cases hl : lookup m.cells k with
  | none => simp [hl] at h
  | some v => exact mem_of_lookup hl

theorem pairwise_keys {l : List (Nat × α)} (h : rising l = true) : l.Pairwise fun x y => x.1 < y.1 := by
  induction l with
  | nil => exact .nil
  | cons c rest ih =>
    obtain ⟨hrest, hlt⟩ := rising_cons.mp h
    exact .cons hlt (ih hrest)

variable [DecidableEq α]

theorem rising_of_wf {m : SMap α} {d : α} (h : m.wf d = true) : rising m.cells = true := (Bool.and_eq_true .. ▸ h).1

theorem get_of_mem_cells {m : SMap α} {d : α} (h : m.wf d = true) {k : Nat} {v : α} (hc : (k, v) ∈ m.cells) :
    m.get d k = v := by
  rw [get, lookup_of_mem (rising_of_wf h) hc, Option.getD_some]

end Sys2Proof.SMap
end

section
/-! PROOFS. Records of points: their fields, and what an arrival and a visit make of one (R275, R279–R282, R287). -/

namespace Sys2Proof.Machine

open Host

/-! ### The fields of a record (R275) -/

theorem bits_lt (v hi lo : Nat) : bits v hi lo < 2 ^ (hi + 1 - lo) := Nat.mod_lt _ (Nat.two_pow_pos _)

theorem recValue_lt (r : W32) : recValue r < 2 ^ 16 := bits_lt r.toNat 31 16
theorem recQual_lt (r : W32) : recQual r < 2 ^ 4 := bits_lt r.toNat 15 12
theorem recFlags_lt (r : W32) : recFlags r < 2 ^ 4 := bits_lt r.toNat 11 8
theorem recAge_lt (r : W32) : recAge r < 2 ^ 8 := bits_lt r.toNat 7 0

/-- Fields that fit are read back from the record that they make. -/
theorem mkRec_fields {v q f a : Nat} (hv : v < 2 ^ 16) (hq : q < 2 ^ 4) (hf : f < 2 ^ 4) (ha : a < 2 ^ 8) :
    recValue (mkRec v q f a) = v ∧ recQual (mkRec v q f a) = q ∧ recFlags (mkRec v q f a) = f ∧
      recAge (mkRec v q f a) = a := by
  have hsum : (mkRec v q f a).toNat = v * 2 ^ 16 + (q * 2 ^ 12 + (f * 2 ^ 8 + a)) := by
    simp only [mkRec, pack, BitVec.toNat_ofNat]
    omega
  simp only [recValue, recQual, recFlags, recAge, bits, hsum]
  omega

theorem limitFlags_lt (c : PointClass) (v old : Nat) : limitFlags c v old < 2 ^ 4 := by
  have hbit (b : Bool) : b2n b ≤ 1 := by cases b <;> decide
  unfold limitFlags
  extract_lets up down
  have hlo := hbit (flagRule (decide (v < clsLo c)) (decide (up (clsLo c) ≤ v)) (bitAt old 0))
  have hhi := hbit (flagRule (decide (clsHi c < v)) (decide (v ≤ down (clsHi c))) (bitAt old 1))
  have hlolo := hbit (flagRule (decide (v < clsLolo c)) (decide (up (clsLolo c) ≤ v)) (bitAt old 2))
  have hhihi := hbit (flagRule (decide (clsHihi c < v)) (decide (v ≤ down (clsHihi c))) (bitAt old 3))
  omega

theorem normalise_lt (c : PointClass) (raw : Nat) : normalise c raw < 2 ^ 16 := by
  unfold normalise clampI
  split
  · decide
  · split
    · decide
    · omega

/-! ### Arrivals and visits -/

/-- What a POINT_WRITE entry leaves (R279, R282): its quality, or INVALID for the code 0xFFFF, and age 0; the old value where
it is INVALID, and one within the deadband of the normalised code where it is not. -/
theorem arriveRec_fields (c : PointClass) (raw : Nat) {qual : Nat} (hq : qual < 2 ^ 4) (old : W32) :
    recAge (arriveRec c raw qual false old) = 0 ∧
    recQual (arriveRec c raw qual false old) = (if raw = 0xFFFF then qInvalid else qual) ∧
    (raw = 0xFFFF ∨ qual = qInvalid → recValue (arriveRec c raw qual false old) = recValue old) ∧
    (raw ≠ 0xFFFF → qual ≠ qInvalid →
      recValue (arriveRec c raw qual false old) ≤ normalise c raw + clsDb c ∧
      normalise c raw ≤ recValue (arriveRec c raw qual false old) + clsDb c) := by
  have hold := recValue_lt old
  by_cases hinv : raw = 0xFFFF ∨ qual = qInvalid
  · have hrec : arriveRec c raw qual false old = mkRec (recValue old) qInvalid 0 0 := by simp [arriveRec, hinv]
    obtain ⟨hval, hqual, -, hage⟩ := mkRec_fields hold (q := qInvalid) (f := 0) (a := 0) (by decide) (by decide) (by decide)
    rw [hrec]
    refine ⟨hage, hqual.trans ?_, fun _ => hval, fun hraw hqual => absurd hinv (by simp [hraw, hqual])⟩
    split
    · rfl
    · exact (hinv.resolve_left ‹_›).symm
  · obtain ⟨hraw, hqual⟩ := not_or.mp hinv
    obtain ⟨v, hrec, hlt, hnear⟩ : ∃ v, arriveRec c raw qual false old =
        mkRec v qual (limitFlags c (normalise c raw) (recFlags old)) 0 ∧ v < 2 ^ 16 ∧
        v ≤ normalise c raw + clsDb c ∧ normalise c raw ≤ v + clsDb c := by
      simp only [arriveRec, hinv, decide_false, Bool.false_eq_true, if_false, Bool.not_false, Bool.true_and, Bool.false_or,
        decide_eq_true_eq]
      split
      · exact ⟨_, rfl, normalise_lt c raw, by omega, by omega⟩
      · exact ⟨_, rfl, hold, by omega, by omega⟩
    obtain ⟨hval, hq', -, hage⟩ := mkRec_fields hlt hq (limitFlags_lt c (normalise c raw) (recFlags old)) (a := 0) (by decide)
    rw [hrec, hval, if_neg hraw]
    exact ⟨hage, hq', fun h => absurd h hinv, fun _ _ => hnear⟩

/-- A visit leaves VALUE and FLAGS and adds the rounds to AGE, up to 255 (R287). -/
theorem visitRec_fields (c : PointClass) (rounds : Nat) (old : W32) :
    recValue (visitRec c rounds old) = recValue old ∧ recFlags (visitRec c rounds old) = recFlags old ∧
      recAge (visitRec c rounds old) = min 255 (recAge old + rounds) := by
  unfold visitRec
  extract_lets age stale
  have hqual : (if stale then qStale else recQual old) < 2 ^ 4 := by
    split
    · decide
    · exact recQual_lt old
  obtain ⟨hval, -, hflags, hage⟩ := mkRec_fields (recValue_lt old) hqual (recFlags_lt old)
    (a := age) (Nat.lt_of_le_of_lt (Nat.min_le_left ..) (by decide))
  exact ⟨hval, hflags, hage⟩

end Sys2Proof.Machine
end

section
/-! PROOFS. An operation on a record that comes last in its tick (R284): it stores its record, notes itself in the turn of
the record, and leaves every other record and turn. -/

namespace Sys2Proof.Machine

open Host

variable {d : Dev}

/-! ### The turn of a record -/

/-- The operations of the tick in progress on a record, as the list of turns gives them. -/
theorem Dev.turnOf_ops (d : Dev) (id : Nat) : (d.turnOf id).ops =
    if d.pnt.turnTick = d.now then ((d.pnt.turns.find? fun t => decide (t.id = id)).map (·.ops)).getD [] else [] := by
  unfold Dev.turnOf
  extract_lets none_
  split
  · cases d.pnt.turns.find? fun t => decide (t.id = id) <;> rfl
  · rfl

theorem Dev.turnOf_ops_congr {a : Dev} (htick : d.pnt.turnTick = a.pnt.turnTick) (hturns : d.pnt.turns = a.pnt.turns)
    (hnow : d.now = a.now) (id : Nat) : (d.turnOf id).ops = (a.turnOf id).ops := by
  rw [Dev.turnOf_ops, Dev.turnOf_ops, htick, hturns, hnow]

theorem Dev.turnOf_id (d : Dev) (id : Nat) : (d.turnOf id).id = id := by
  unfold Dev.turnOf
  extract_lets none_
  split
  · cases h : d.pnt.turns.find? fun t => decide (t.id = id) with
    | none => rfl
    | some t => exact of_decide_eq_true (List.find?_some (p := fun t : PointTurn => decide (t.id = id)) h)
  · rfl

/-- A turn that is noted is that of its record, and other records keep theirs. -/
theorem Dev.turnOf_setTurn_ops (t : PointTurn) (id : Nat) (d : Dev) :
    ((d.setTurn t).turnOf id).ops = if t.id = id then t.ops else (d.turnOf id).ops := by
  have hnow : (d.setTurn t).pnt.turnTick = (d.setTurn t).now := rfl
  rw [Dev.turnOf_ops, Dev.turnOf_ops, if_pos hnow]
  show ((List.find? _ (t :: if d.pnt.turnTick = d.now then _ else [])).map _).getD [] = _
  by_cases hid : t.id = id
  · simp [hid]
  · have hfind (l : List PointTurn) : (l.filter fun y => decide (y.id ≠ t.id)).find? (fun y => decide (y.id = id)) =
        l.find? fun y => decide (y.id = id) := by
      rw [List.find?_filter]
      congr 1
      funext y
      by_cases hy : y.id = id
      · simp [hy, Ne.symm hid]
      · simp [hy]
    rw [List.find?_cons_of_neg (by simpa using hid), if_neg hid]
    split
    · rw [hfind]
    · rfl

/-! ### The record -/

/-- Of the point store, storing a record changes that record only. -/
theorem Dev.storeRec_pnt (id : Nat) (r : W32) (d : Dev) :
    (d.storeRec id r).pnt = { d.pnt with records := d.pnt.records.set 0x10FF id r } :=
  ((Dev.touches_pointReports (d.onPnt fun p => { p with records := p.records.set 0x10FF id r }) _ _ _ id).same
    .pnt (by decide)).symm

/-- The turn of a record as an operation under the class in force finds it: one without operations has that class. -/
def Dev.turnFound (id : Nat) (d : Dev) : PointTurn :=
  let t := d.turnOf id
  if t.ops = [] then { t with cls := d.cls (d.pointCls id) } else t

theorem Dev.turnFound_ops (id : Nat) (d : Dev) : (d.turnFound id).ops = (d.turnOf id).ops := by
  unfold Dev.turnFound
  dsimp only
  split <;> rfl

theorem Dev.turnFound_id (id : Nat) (d : Dev) : (d.turnFound id).id = id := by
  unfold Dev.turnFound
  dsimp only
  split <;> exact Dev.turnOf_id ..

/-- The turn of a record with one more operation at its end, under the class in force. -/
def Dev.turnWith (op : PointOp) (id : Nat) (d : Dev) : PointTurn :=
  { d.turnFound id with ops := (d.turnOf id).ops ++ [(op, d.cls (d.pointCls id))] }

section
variable {op : PointOp} {id : Nat} {x : Dev × List PointChange} {r : W32}
  (hlast : ∀ o ∈ (x.1.turnOf id).ops, opRank o.1 ≤ opRank op)
  (hr : recStep (x.1.cls (x.1.pointCls id)) op (x.1.point id) = some r)
include hlast hr

/-- An operation that none of its tick comes after stores its record, and notes itself. -/
theorem Dev.operate_last :
    Dev.operate op id x = Dev.storeChange id r (x.1.setTurn (x.1.turnWith op id), x.2) := by
  unfold Dev.operate Dev.operateAs
  extract_lets d t0 t before later c base d1
  have hops : t.ops = (x.1.turnOf id).ops := Dev.turnFound_ops id x.1
  have hbefore : before = (x.1.turnOf id).ops := by
    rw [← hops]
    exact List.filter_eq_self.mpr fun o ho => decide_eq_true (hlast o (hops ▸ ho))
  have hlater : later = [] := List.filter_eq_nil_iff.mpr fun o ho => by simpa using hlast o (hops ▸ ho)
  have hc : c = x.1.cls (x.1.pointCls id) := if_neg (by simp [hlater])
  have hbase : base = x.1.point id := if_pos hlater
  have hd1 : d1 = x.1.setTurn (x.1.turnWith op id) :=
    congrArg (fun l => x.1.setTurn { x.1.turnFound id with ops := l }) (by rw [hbefore, hlater, hc])
  rw [hc, hbase, hr]
  exact (if_pos hlater).trans (by rw [hd1])

theorem Dev.operate_last_point (id' : Nat) :
    (Dev.operate op id x).1.point id' = if id = id' then r else x.1.point id' := by
  rw [Dev.operate_last hlast hr, Dev.point]
  exact congrArg (fun p : PntState => p.records.get 0x10FF id') (Dev.storeRec_pnt ..) |>.trans (SMap.get_set ..)

theorem Dev.operate_last_ops (id' : Nat) : ((Dev.operate op id x).1.turnOf id').ops =
    if id = id' then (x.1.turnOf id).ops ++ [(op, x.1.cls (x.1.pointCls id))] else (x.1.turnOf id').ops := by
  have hpnt := Dev.storeRec_pnt id r (x.1.setTurn (x.1.turnWith op id))
  have hturn := Dev.turnOf_setTurn_ops (x.1.turnWith op id) id' x.1
  rw [show (x.1.turnWith op id).id = id from Dev.turnFound_id ..] at hturn
  rw [Dev.operate_last hlast hr]
  exact (Dev.turnOf_ops_congr (congrArg PntState.turnTick hpnt :) (congrArg PntState.turns hpnt :)
    (Dev.touches_storeRec ..).tick.symm id').trans hturn

end

end Sys2Proof.Machine
end

section
/-! PROOFS. What delivery and the drain leave of the point store (R293–R296), and the dirty bits that a drain takes. -/

namespace Sys2Proof.Machine

open Host

/-! ### Nothing is stored -/

/-- Changes are reported and dirty bits are moved, but no record, class or map entry changes. -/
structure Dev.Delivers (a d : Dev) : Prop where
  touches : Dev.Touches [.pnt, .events, .reports] a d
  records : d.pnt.records = a.pnt.records
  map : d.pnt.map = a.pnt.map
  classes : d.pnt.classes = a.pnt.classes

namespace Dev.Delivers

variable {a d e : Dev}

theorem refl : Dev.Delivers d d := ⟨Dev.Touches.refl.mono (by decide), rfl, rfl, rfl⟩

theorem trans (h : Dev.Delivers a d) (h' : Dev.Delivers d e) : Dev.Delivers a e :=
  ⟨(h.touches.andThen h'.touches).mono (by decide), h'.records.trans h.records, h'.map.trans h.map,
    h'.classes.trans h.classes⟩

theorem ite {c : Prop} [Decidable c] (hd : Dev.Delivers a d) (he : Dev.Delivers a e) :
    Dev.Delivers a (if c then d else e) := by split <;> assumption

theorem onPnt {f : PntState → PntState} (hr : (f d.pnt).records = d.pnt.records) (hm : (f d.pnt).map = d.pnt.map)
    (hc : (f d.pnt).classes = d.pnt.classes) : Dev.Delivers d (d.onPnt f) :=
  ⟨(d.touches_onPnt f).mono (by decide), hr, hm, hc⟩

/-- An operation that touches only reports. -/
theorem of_reports (h : Dev.Touches [.events, .reports] a d) : Dev.Delivers a d := by
  have hpnt : a.pnt = d.pnt := h.same .pnt (by decide)
  exact ⟨h.mono (by decide), hpnt ▸ rfl, hpnt ▸ rfl, hpnt ▸ rfl⟩

theorem point (h : Dev.Delivers a d) (id : Nat) : d.point id = a.point id := by rw [Dev.point, h.records, Dev.point]

theorem pointRing (h : Dev.Delivers a d) (id : Nat) : d.pointRing id = a.pointRing id := by
  simp only [Dev.pointRing, Dev.cls, Dev.pointCls, h.map, h.classes]

end Dev.Delivers

section
variable (d : Dev)

theorem Dev.delivers_event (blk bit d0 d1 d2 : Nat) : Dev.Delivers d (d.event blk bit d0 d1 d2) :=
  .of_reports (d.touches_event ..)

theorem Dev.delivers_putPoint (r : Nat) (bitmap : Bool) (c : PointChange) (c2 : Option PointChange) :
    Dev.Delivers d (d.putPoint r bitmap c c2) :=
  .trans (.onPnt rfl rfl rfl) (.of_reports (Dev.touches_putDesc ..))

theorem Dev.delivers_ringOverflow (r : Nat) : Dev.Delivers d (d.ringOverflow r) :=
  .ite .refl (.trans (.onPnt rfl rfl rfl) (Dev.delivers_event ..))

theorem Dev.delivers_markDirty (r : Nat) (c : PointChange) : Dev.Delivers d (d.markDirty r c) :=
  (d.delivers_ringOverflow r).trans (.onPnt rfl rfl rfl)

theorem Dev.delivers_deliver (fuel : Nat) (cs : List PointChange) : Dev.Delivers d (d.deliver fuel cs) := by
  fun_induction Dev.deliver fuel cs d with
  | case1 => exact .refl
  | case2 => exact .refl
  | case3 _ _ _ _ _ _ ih => exact (Dev.delivers_markDirty ..).trans ih
  | case4 _ _ _ _ _ _ _ _ ih => exact (Dev.delivers_putPoint ..).trans ih
  | case5 _ _ _ _ _ _ _ _ ih => exact (Dev.delivers_putPoint ..).trans ih
  | case6 => exact Dev.delivers_putPoint ..

theorem Dev.delivers_deliverAll (x : Dev × List PointChange) : Dev.Delivers x.1 (Dev.deliverAll x) :=
  Dev.delivers_deliver ..

theorem Dev.delivers_cleanBit (r id : Nat) : Dev.Delivers d (d.cleanBit r id) := .onPnt rfl rfl rfl

theorem Dev.delivers_drainMoved (c : PointChange) : Dev.Delivers d (d.drainMoved c) :=
  .ite (.trans (Dev.delivers_putPoint ..) (.onPnt rfl rfl rfl))
    (.trans (Dev.delivers_ringOverflow ..) (.onPnt rfl rfl rfl))

theorem Dev.delivers_drainWalk (r : Nat) (l : List (Nat × DirtyBit)) (held : Option PointChange) :
    Dev.Delivers d (Dev.drainWalk r l held d) := by
  fun_induction Dev.drainWalk r l held d with
  | case1 => exact .refl
  | case2 => exact (Dev.delivers_putPoint ..).trans (Dev.delivers_cleanBit ..)
  | case3 => exact .refl
  | case4 _ _ _ _ _ _ _ ih => exact (Dev.delivers_cleanBit ..).trans ih
  | case5 _ _ _ _ _ _ _ _ _ ih => exact (Dev.delivers_drainMoved ..).trans ih
  | case6 _ _ _ _ _ _ _ _ ih => exact ih
  | case7 _ _ _ _ _ _ _ _ _ ih =>
    exact (((Dev.delivers_putPoint ..).trans (Dev.delivers_cleanBit ..)).trans (Dev.delivers_cleanBit ..)).trans ih

end

/-! ### The dirty points of a ring -/

/-- A drain takes the dirty points marked for its ring or classed to it (R295, R296). -/
theorem Dev.mem_dirtyOf {d : Dev} {r id : Nat} {b : DirtyBit} :
    (id, b) ∈ d.dirtyOf r ↔ (id, some b) ∈ d.pnt.dirty.cells ∧ (b.ring = r ∨ d.pointRing id = r) := by
  unfold Dev.dirtyOf
  extract_lets mine w
  have hmine : (id, b) ∈ mine ↔ (id, some b) ∈ d.pnt.dirty.cells ∧ (b.ring = r ∨ d.pointRing id = r) := by
    simp only [mine, List.mem_filterMap]
    constructor
    · rintro ⟨⟨k, v⟩, hmem, h⟩
      cases v with
      | none => simp at h
      | some b' =>
        simp only [Option.ite_none_right_eq_some, Option.some.injEq, Prod.mk.injEq] at h
        obtain ⟨hring, rfl, rfl⟩ := h
        exact ⟨hmem, hring⟩
    · rintro ⟨hmem, hring⟩
      exact ⟨_, hmem, if_pos hring⟩
  simp only [List.mem_append, List.mem_filter, hmine, decide_eq_true_eq, ← and_or_left]
  exact and_iff_left (le_or_gt ..)

/-- Where a dirty bit is changed to one that the ring does not take, the ring takes no point that it did not take before. -/
theorem Dev.mem_dirtyOf_of_set {a d : Dev} {r id : Nat} {v : Option DirtyBit} (h : Dev.Delivers a d)
    (hwf : a.pnt.dirty.wf none = true) (hdirty : d.pnt.dirty = a.pnt.dirty.set none id v)
    (hv : ∀ b, v = some b → b.ring ≠ r ∧ a.pointRing id ≠ r) {id' : Nat} {b : DirtyBit} (hm : (id', b) ∈ d.dirtyOf r) :
    (id', b) ∈ a.dirtyOf r ∧ id' ≠ id := by
  obtain ⟨hmem, hring⟩ := Dev.mem_dirtyOf.mp hm
  rw [hdirty] at hmem
  rw [h.pointRing] at hring
  have hget := SMap.get_of_mem_cells (SMap.wf_set hwf id v) hmem
  obtain rfl | hne := eq_or_ne id id'
  · rw [SMap.get_set_self] at hget
    obtain ⟨hb, hcls⟩ := hv b hget
    exact absurd hring (by simp [hb, hcls])
  · rw [SMap.get_set_of_ne _ _ _ hne] at hget
    exact ⟨Dev.mem_dirtyOf.mpr ⟨hget ▸ SMap.mem_cells_of_get (by simp [hget]), hring⟩, hne.symm⟩

/-! ### The drain of a ring -/

theorem Dev.putPoint_dirty (r : Nat) (bitmap : Bool) (c : PointChange) (c2 : Option PointChange) (d : Dev) :
    (d.putPoint r bitmap c c2).pnt.dirty = d.pnt.dirty :=
  (congrArg PntState.dirty ((Dev.touches_putDesc ..).same .pnt (by decide)) :).symm

theorem Dev.ringOverflow_dirty (r : Nat) (d : Dev) : (d.ringOverflow r).pnt.dirty = d.pnt.dirty := by
  unfold Dev.ringOverflow
  split
  · rfl
  · exact (congrArg PntState.dirty ((Dev.touches_event ..).same .pnt (by decide)) :).symm

section
variable {d : Dev} {r : Nat}

/-- A dirty point of another ring's class loses its bit, or the bit becomes that ring's (R296). -/
theorem Dev.drainMoved_dirty {c : PointChange} (h : d.pointRing c.id ≠ r) :
    ∃ v, (d.drainMoved c).pnt.dirty = d.pnt.dirty.set none c.id v ∧
      ∀ b, v = some b → b.ring ≠ r ∧ d.pointRing c.id ≠ r := by
  unfold Dev.drainMoved
  extract_lets q d1
  split
  · exact ⟨none, congrArg (SMap.set · none c.id none) (Dev.putPoint_dirty ..), by simp⟩
  · refine ⟨_, congrArg (fun m => SMap.set m none c.id ((SMap.get m none c.id).map _)) (d.ringOverflow_dirty q), ?_⟩
    intro b hb
    obtain ⟨b', -, rfl⟩ := Option.map_eq_some_iff.mp hb
    exact ⟨h, h⟩

/-- A walk over one dirty point, the ring having room, leaves it a bit of another ring at most. -/
theorem Dev.drainWalk_one (hroom : d.ringRoom (20 + r) ≠ 0) (id : Nat) (b : DirtyBit) :
    ∃ v, (Dev.drainWalk r [(id, b)] none d).pnt.dirty = d.pnt.dirty.set none id v ∧
      ∀ b, v = some b → b.ring ≠ r ∧ d.pointRing id ≠ r := by
  rw [Dev.drainWalk, if_neg hroom]
  split
  · exact ⟨none, rfl, by simp⟩
  · dsimp only
    split
    · exact Dev.drainMoved_dirty (c := { id := id, .. }) ‹_›
    · exact ⟨none, congrArg (SMap.set · none id none) (Dev.putPoint_dirty ..), by simp⟩

/-- A last dirty point leaves none behind. -/
theorem Dev.drainWalk_last (hwf : d.pnt.dirty.wf none = true) (hroom : d.ringRoom (20 + r) ≠ 0)
    (hlast : (d.dirtyOf r).length ≤ 1) : (Dev.drainWalk r (d.dirtyOf r) none d).dirtyOf r = [] := by
  cases hl : d.dirtyOf r with
  | nil => exact hl
  | cons x rest =>
    obtain rfl : rest = [] := by
      rw [hl] at hlast
      exact List.eq_nil_of_length_eq_zero (by simpa using hlast)
    obtain ⟨id, b⟩ := x
    obtain ⟨v, hdirty, hv⟩ := Dev.drainWalk_one hroom id b
    refine List.eq_nil_iff_forall_not_mem.mpr fun ⟨id', b'⟩ hm => ?_
    obtain ⟨hmem, hne⟩ := Dev.mem_dirtyOf_of_set (Dev.delivers_drainWalk ..) hwf hdirty hv hm
    rw [hl, List.mem_singleton] at hmem
    exact hne (Prod.mk.inj hmem).1

end

/-- A drain has begun (R295). -/
def Dev.drainBegun (r : Nat) (d : Dev) : Dev := d.onPnt fun p => { p with drain := p.drain ||| 2 ^ r }

/-- A drain has walked over the dirty points of its ring. -/
def Dev.drainWalked (r : Nat) (d : Dev) : Dev := Dev.drainWalk r ((d.drainBegun r).dirtyOf r) none (d.drainBegun r)

/-- A drain that has left no dirty point is over, and direct delivery resumes. -/
def Dev.drainEnded (r : Nat) (d : Dev) : Dev :=
  (d.onPnt fun p => { p with
    drain := p.drain &&& (15 - 2 ^ r), overflow := p.overflow &&& (15 - 2 ^ r), walk := p.walk.set 0 r 0 }).event 12 3 r 0 0

section
variable {d : Dev} {r : Nat}

theorem Dev.pointDrain_idle (h : bitAt d.pnt.overflow r = false ∨ d.ringQuarter (20 + r) = false) : d.pointDrain r = d :=
  if_pos (by simpa using h)

theorem Dev.pointDrain_eq (ho : bitAt d.pnt.overflow r = true) (hq : d.ringQuarter (20 + r) = true) :
    d.pointDrain r = if (d.drainWalked r).dirtyOf r = [] then (d.drainWalked r).drainEnded r else d.drainWalked r :=
  if_neg (by simp [ho, hq])

theorem Dev.delivers_drainWalked : Dev.Delivers d (d.drainWalked r) :=
  .trans (.onPnt rfl rfl rfl) (Dev.delivers_drainWalk ..)

theorem Dev.delivers_drainEnded : Dev.Delivers d (d.drainEnded r) :=
  .trans (.onPnt rfl rfl rfl) (Dev.delivers_event ..)

theorem Dev.delivers_pointDrain : Dev.Delivers d (d.pointDrain r) :=
  .ite .refl (.ite (Dev.delivers_drainWalked.trans Dev.delivers_drainEnded) Dev.delivers_drainWalked)

theorem Dev.drainEnded_pnt : (d.drainEnded r).pnt = { d.pnt with
    drain := d.pnt.drain &&& (15 - 2 ^ r), overflow := d.pnt.overflow &&& (15 - 2 ^ r), walk := d.pnt.walk.set 0 r 0 } :=
  ((Dev.touches_event ..).same .pnt (by decide)).symm

theorem Dev.drainEnded_stands : (d.drainEnded r).stands Reg.PNT_EVENT 8 := Dev.event_stands 12 3 r 0 0 _

theorem Dev.drainEnded_direct (hr : r < 4) : bitAt (d.drainEnded r).pnt.overflow r = false := by
  have hmask : ∀ k : Fin 4, bitAt (15 - 2 ^ k.val) k.val = false := by decide
  rw [Dev.drainEnded_pnt, bitAt_and, hmask ⟨r, hr⟩, Bool.and_false]

theorem Dev.drainEnded_dirtyOf (h : d.dirtyOf r = []) : (d.drainEnded r).dirtyOf r = [] := by
  refine List.eq_nil_iff_forall_not_mem.mpr fun ⟨id, b⟩ hm => ?_
  have hmem : (id, b) ∈ d.dirtyOf r := by
    rw [Dev.mem_dirtyOf, Dev.delivers_drainEnded.pointRing, Dev.drainEnded_pnt] at hm
    exact Dev.mem_dirtyOf.mpr hm
  exact List.not_mem_nil (h ▸ hmem)

/-- A ring of which a quarter is free has room. -/
theorem Dev.ringRoom_of_quarter {k : Nat} (h : d.ringQuarter k = true) : d.ringRoom k ≠ 0 := by
  obtain ⟨-, hquarter⟩ := of_decide_eq_true h
  have hsize : 0 < d.ringSize k := Nat.two_pow_pos _
  omega

/-- A drain that finds one dirty point at most ends (R295). -/
theorem Dev.pointDrain_last (hwf : d.pnt.dirty.wf none = true) (ho : bitAt d.pnt.overflow r = true)
    (hq : d.ringQuarter (20 + r) = true) (hlast : (d.dirtyOf r).length ≤ 1) :
    (d.drainWalked r).dirtyOf r = [] ∧ d.pointDrain r = (d.drainWalked r).drainEnded r := by
  have hempty : (d.drainWalked r).dirtyOf r = [] :=
    Dev.drainWalk_last (d := d.drainBegun r) hwf (Dev.ringRoom_of_quarter hq) hlast
  exact ⟨hempty, (Dev.pointDrain_eq ho hq).trans (if_pos hempty)⟩

end

/-- POINT_RING_DRAIN with something to do (R295). -/
theorem pointRingDrain_delivers (r : Fin 4) (s : State) : Answers (.pointRingDrain r) s fun t =>
    t.dev.pnt.records = s.dev.pnt.records ∧ ChangesOnly [.pnt, .events, .reports] s t ∧
    (s.dev.pnt.dirty.wf none = true → bitAt s.dev.pnt.overflow r.val = true → s.dev.ringQuarter (20 + r.val) = true →
      (s.dev.dirtyOf r.val).length ≤ 1 → t.dev.dirtyOf r.val = [] ∧ bitAt t.dev.pnt.overflow r.val = false ∧
        t.dev.stands Reg.PNT_EVENT 8) := by
  have hdelivers := Dev.delivers_pointDrain (d := s.fresh) (r := r.val)
  refine .of_run (f := Dev.pointDrain r.val) rfl ⟨hdelivers.records, .of_after hdelivers.touches.keeps,
    fun hwf ho hq hlast => ?_⟩
  obtain ⟨hempty, hend⟩ := Dev.pointDrain_last (d := s.fresh) hwf ho hq hlast
  rw [State.run_eq, hend]
  exact ⟨Dev.drainEnded_dirtyOf hempty, Dev.drainEnded_direct r.isLt, Dev.drainEnded_stands⟩

theorem pointRingDrain_idle {r : Fin 4} {s : State}
    (h : bitAt s.dev.pnt.overflow r.val = false ∨ s.dev.ringQuarter (20 + r.val) = false) :
    exec (.pointRingDrain r) s = .next (s.after s.fresh) :=
  exec_of_effect rfl (Dev.pointDrain_idle (d := s.fresh) h)

end Sys2Proof.Machine
end

section
/-! PROOFS. The stale scan (R287), POINT_WRITE (R290) and POINT_READ_BLOCK (R292). -/

namespace Sys2Proof.Machine

open Host

/-! ### The stale scan -/

/-- Every operation of the tick in progress is a stale-scan visit. -/
def Dev.OnlyVisits (d : Dev) : Prop := ∀ id, ∀ o ∈ (d.turnOf id).ops, opRank o.1 = 0

section
variable {rounds : Nat} {x : Dev × List PointChange}

theorem Dev.visit_point (h : x.1.OnlyVisits) (id id' : Nat) : (Dev.operate (.visit rounds) id x).1.point id' =
    if id = id' then visitRec (x.1.cls (x.1.pointCls id)) rounds (x.1.point id) else x.1.point id' :=
  Dev.operate_last_point (op := .visit rounds) (fun o ho => (h id o ho).le) rfl id'

theorem Dev.OnlyVisits.visit (h : x.1.OnlyVisits) (id : Nat) : (Dev.operate (.visit rounds) id x).1.OnlyVisits := by
  intro id' o ho
  rw [Dev.operate_last_ops (op := .visit rounds) (fun o ho => (h id o ho).le) rfl] at ho
  split at ho
  · rcases List.mem_append.mp ho with hold | hnew
    · exact h id o hold
    · rw [List.mem_singleton.mp hnew]
      rfl
  · exact h id' o ho

/-- Visits to different points: each point visited has its record visited once, and the others stay. -/
theorem Dev.foldl_visit_point {ids : List Nat} (hn : ids.Nodup) (h : x.1.OnlyVisits) (id : Nat) :
    ∃ c, (ids.foldl (fun x id => Dev.operate (.visit rounds) id x) x).1.point id =
      if id ∈ ids then visitRec c rounds (x.1.point id) else x.1.point id := by
  induction ids generalizing x with
  | nil => exact ⟨x.1.cls 0, rfl⟩
  | cons k rest ih =>
    obtain ⟨hk, hrest⟩ := List.nodup_cons.mp hn
    obtain ⟨c, hc⟩ := ih hrest (h.visit k)
    rw [Dev.visit_point h] at hc
    rw [List.foldl_cons]
    by_cases hid : k = id
    · subst hid
      exact ⟨_, by simpa [hk] using hc⟩
    · exact ⟨c, by simpa [hid, Ne.symm hid] using hc⟩

theorem Dev.touches_foldl_visit (ids : List Nat) :
    Dev.Touches pointParts x.1 (ids.foldl (fun x id => Dev.operate (.visit rounds) id x) x).1 := by
  induction ids generalizing x with
  | nil => exact Dev.Touches.refl.mono (by decide)
  | cons k rest ih => exact ((Dev.touches_operateAs _ (.visit rounds) k x).andThen ih).mono (by decide)

end

section
variable {d : Dev}

theorem Dev.mem_groupPoints {g id : Nat} : id ∈ d.groupPoints g ↔ id / 1024 = g ∧ ∃ r, (id, r) ∈ d.pnt.records.cells := by
  simp only [Dev.groupPoints, List.mem_filterMap, Option.ite_none_right_eq_some, Option.some.injEq]
  constructor
  · rintro ⟨c, hc, hg, rfl⟩
    exact ⟨hg, c.2, hc⟩
  · rintro ⟨hg, r, hc⟩
    exact ⟨(id, r), hc, hg, rfl⟩

theorem Dev.nodup_groupPoints (h : d.pnt.records.wf 0x10FF = true) (g : Nat) : (d.groupPoints g).Nodup := by
  have hkeys := SMap.pairwise_keys (SMap.rising_of_wf h)
  refine List.Pairwise.filterMap _ (fun x y hxy a ha b hb => ?_) hkeys
  obtain ⟨-, hxa⟩ := Option.ite_none_right_eq_some.mp ha
  obtain ⟨-, hyb⟩ := Option.ite_none_right_eq_some.mp hb
  exact Option.some.inj hxa ▸ Option.some.inj hyb ▸ hxy.ne

/-- A point of the group that the scan does not list has the record of reset (R275). -/
theorem Dev.point_of_not_mem_groupPoints {id : Nat} (h : id ∉ d.groupPoints (id / 1024)) : d.point id = 0x10FF := by
  by_contra hne
  exact h (Dev.mem_groupPoints.mpr ⟨rfl, _, SMap.mem_cells_of_get hne⟩)

/-- The harvest rounds since the last visit of the group whose turn it is (R287). -/
def Dev.roundsSince (d : Dev) : Nat := d.hk.rounds - d.pnt.visits.get 0 d.pnt.scanGroup

/-- The visits to the points of the group whose turn it is, before their changes are delivered. -/
def Dev.groupVisited (d : Dev) : Dev × List PointChange :=
  (d.groupPoints d.pnt.scanGroup).foldl (fun x id => Dev.operate (.visit d.roundsSince) id x) (d, [])

/-- The scan stores what the visits to its group store, and moves on. -/
theorem Dev.staleVisit_reads : d.staleVisit.pnt.records = d.groupVisited.1.pnt.records ∧
    d.staleVisit.hk = d.hk ∧ d.staleVisit.pnt.scanGroup = (d.pnt.scanGroup + 1) % 1024 ∧
    d.staleVisit.pnt.visits.get 0 d.pnt.scanGroup = d.hk.rounds := by
  have hdelivers := Dev.delivers_deliverAll d.groupVisited
  have hvisits : Dev.Touches pointParts d d.groupVisited.1 := Dev.touches_foldl_visit (x := (d, [])) _
  have hhk : (Dev.deliverAll d.groupVisited).hk = d.hk :=
    ((hvisits.same .hk (by decide)).trans (hdelivers.touches.same .hk (by decide))).symm
  exact ⟨hdelivers.records, hhk, rfl, (SMap.get_set_self ..).trans (congrArg HkState.rounds hhk)⟩

theorem Dev.staleVisit_point_of_other {id : Nat} (hwf : d.pnt.records.wf 0x10FF = true) (h : d.OnlyVisits)
    (hg : id / 1024 ≠ d.pnt.scanGroup) : d.staleVisit.point id = d.point id := by
  obtain ⟨c, hc⟩ := Dev.foldl_visit_point (rounds := d.roundsSince) (x := (d, []))
    (Dev.nodup_groupPoints hwf d.pnt.scanGroup) h id
  rw [if_neg fun hm => hg (Dev.mem_groupPoints.mp hm).1] at hc
  rw [Dev.point, Dev.staleVisit_reads.1]
  exact hc

/-- A point of the group visited keeps VALUE and FLAGS, and its AGE grows by the rounds (R287); one without a record of its
own has age 255 already. -/
theorem Dev.staleVisit_point_of_group {id : Nat} (hwf : d.pnt.records.wf 0x10FF = true) (h : d.OnlyVisits)
    (hg : id / 1024 = d.pnt.scanGroup) : recValue (d.staleVisit.point id) = recValue (d.point id) ∧
      recFlags (d.staleVisit.point id) = recFlags (d.point id) ∧
      recAge (d.staleVisit.point id) = min 255 (recAge (d.point id) + d.roundsSince) := by
  obtain ⟨c, hc⟩ := Dev.foldl_visit_point (rounds := d.roundsSince) (x := (d, []))
    (Dev.nodup_groupPoints hwf d.pnt.scanGroup) h id
  have hpoint : d.staleVisit.point id = d.groupVisited.1.point id := by
    rw [Dev.point, Dev.staleVisit_reads.1, Dev.point]
  rw [hpoint, show d.groupVisited.1.point id = _ from hc]
  split
  · exact visitRec_fields ..
  · rw [Dev.point_of_not_mem_groupPoints (d := d) (hg ▸ ‹_›)]
    have hage : recAge 0x10FF = 255 := by decide
    exact ⟨rfl, rfl, by omega⟩

end

/-- STALE_SCAN_VISIT (R287). -/
theorem staleScanVisit_ages {s : State} (hwf : s.dev.pnt.records.wf 0x10FF = true) (h : s.dev.OnlyVisits) :
    Answers .staleScanVisit s fun t =>
      t.dev.pnt.scanGroup = (s.dev.pnt.scanGroup + 1) % 1024 ∧
      t.dev.pnt.visits.get 0 s.dev.pnt.scanGroup = s.dev.hk.rounds ∧
      (∀ id, id / 1024 ≠ s.dev.pnt.scanGroup → t.dev.point id = s.dev.point id) ∧
      (∀ id, id / 1024 = s.dev.pnt.scanGroup → recValue (t.dev.point id) = recValue (s.dev.point id) ∧
        recFlags (t.dev.point id) = recFlags (s.dev.point id) ∧
        recAge (t.dev.point id) = min 255 (recAge (s.dev.point id) + s.dev.roundsSince)) ∧
      t.dev.hk = s.dev.hk ∧ t.pending = s.pending := by
  obtain ⟨-, hhk, hgroup, hvisits⟩ := Dev.staleVisit_reads (d := s.fresh)
  exact .of_run (f := Dev.staleVisit) rfl ⟨hgroup, hvisits,
    fun _ hg => Dev.staleVisit_point_of_other (d := s.fresh) hwf h hg,
    fun _ hg => Dev.staleVisit_point_of_group (d := s.fresh) hwf h hg, hhk, rfl⟩

/-! ### POINT_WRITE -/

section
variable {c : Cmd} {d : Dev}

/-- An arrival for a used point, which no operation of its tick comes after, stores its record and no other. -/
theorem Dev.arrive_last_point {op : PointOp} {id raw : Nat} {x : Dev × List PointChange} {r : W32}
    (hused : x.1.pointCls id ≠ 0) (hlast : ∀ o ∈ (x.1.turnOf id).ops, opRank o.1 ≤ opRank op)
    (hr : recStep (x.1.cls (x.1.pointCls id)) op (x.1.point id) = some r) (id' : Nat) :
    (Dev.arrive op id raw x).1.point id' = if id = id' then r else x.1.point id' := by
  unfold Dev.arrive
  extract_lets d lost d1
  rw [if_neg hused]
  exact Dev.operate_last_point (x := (d1, x.2)) hlast hr id'

/-- The arrival that one entry of POINT_WRITE without FORCE and UNFORCE is (R290). -/
def Dev.pointWritten (id qual raw : Nat) (d : Dev) : Dev :=
  Dev.deliverAll (Dev.arrive (.write qual raw) id (if qual = qInvalid then 0xFFFF else raw) (d, []))

theorem Dev.pointWrite_one (hflags : c.byte 20 = 0) (hlen : c.len = 8) (he : c.bufErr = false)
    (hok : pointEntryOk false (leAt c.data 0 4, leAt c.data 4 4) = true) : d.pointWrite c =
      (d.pointWritten (leAt c.data 0 4 % 2 ^ 20) (bits (leAt c.data 0 4) 27 24) (leAt c.data 4 4 % 2 ^ 16)).completeRes
        c 0x30 stOk 8 [] := by
  have hn : c.len.toNat = 8 := hlen ▸ rfl
  simp [Dev.pointWrite, hflags, hn, Dev.withBuffer_read _ _ he, pointEntries, hok, Dev.pointWritten, bits]
  -- what remains differs only in how the quality is tested for INVALID
  congr

theorem exec_pointWrite {s : State} (h : s.dev.admits 0x30 (inlMask [(20, 3)]) c) (hd : s.fresh.pointWrite c = d) :
    exec (.pointWrite c) s = .next (s.after d) := hd ▸ State.runCmd_admits (Dev.pointWrite c) h

theorem Dev.pointWritten_point {id qual raw : Nat} (hused : d.pointCls id ≠ 0)
    (hlast : ∀ o ∈ (d.turnOf id).ops, opRank o.1 ≤ 2) (id' : Nat) : (d.pointWritten id qual raw).point id' =
      if id = id' then arriveRec (d.cls (d.pointCls id)) raw qual false (d.point id) else d.point id' :=
  ((Dev.delivers_deliverAll _).point id').trans (Dev.arrive_last_point (op := .write qual raw) (x := (d, [])) hused hlast rfl id')

/-! ### POINT_READ_BLOCK -/

/-- The bytes of one unit of a block (R292). -/
def Dev.pointUnit (d : Dev) (what n : Nat) : List Byte :=
  match what with
  | 0 => leBytes 4 (d.point n).toNat
  | 1 => leBytes 1 (d.pointCls n)
  | 2 => d.aggBytes n
  | _ => d.clsBytes n

end

section
variable {c : Cmd} {what : Nat} (hwhat : c.byte 20 = what) (h3 : what ≤ 3) (hn : c.word 28 ≠ 0)
  (hlim : c.word 28 ≤ [262144, 1048576, 1024, 255].getD what 0)
  (hspace : c.word 24 + c.word 28 ≤ [1048576, 1048576, 1024, 256].getD what 0)
  (hfirst : what = 3 → c.word 24 ≠ 0) (hlen : c.len.toNat = [4, 1, 64, 16].getD what 0 * c.word 28)
include hwhat h3 hn hlim hspace hfirst hlen

/-- A block within its limits goes to the buffer, unit by unit. -/
theorem Dev.pointRead_posts (d : Dev) : d.pointRead c =
    (d.post c.addr.toNat ((upto (c.word 28)).flatMap fun k => d.pointUnit what (c.word 24 + k))).completeRes
      c 0x31 stOk ([4, 1, 64, 16].getD what 0 * c.word 28) [] := by
  have hok : ¬(3 < what ∨ c.word 28 = 0 ∨ [262144, 1048576, 1024, 255].getD what 0 < c.word 28 ∨
      [1048576, 1048576, 1024, 256].getD what 0 < c.word 24 + c.word 28 ∨ (what = 3 ∧ c.word 24 = 0) ∨
      c.len.toNat ≠ [4, 1, 64, 16].getD what 0 * c.word 28) := by
    simp only [not_or, not_and, not_lt, not_not]
    exact ⟨h3, hn, hlim, hspace, hfirst, hlen⟩
  unfold Dev.pointRead
  simp only [hwhat, if_neg hok]
  congr 3
  funext k
  rcases what with _ | _ | _ | _ <;> rfl

/-- POINT_READ_BLOCK of a block within its limits: `f` gives the bytes of each of its units. -/
theorem exec_pointReadBlock {s : State} {f : Nat → List Byte}
    (h : s.dev.admits 0x31 (inlMask [(20, 0xFF), (24, 0xFFFFFFFF), (28, 0xFFFFFFFF)]) c)
    (hf : s.fresh.pointUnit what = f) : exec (.pointReadBlock c) s =
      .next (s.after ((s.fresh.post c.addr.toNat ((upto (c.word 28)).flatMap fun k => f (c.word 24 + k))).completeRes
        c 0x31 stOk ([4, 1, 64, 16].getD what 0 * c.word 28) [])) :=
  hf ▸ Dev.pointRead_posts hwhat h3 hn hlim hspace hfirst hlen s.fresh ▸ State.runCmd_admits (Dev.pointRead c) h

end

/-- Settles O33: an entry by the arrival that it is, a block by its units, a visit by the records it ages, and the drain by
the walk over a last dirty point. -/
theorem pointRowsTakeEffect : Obligations.PointRowsTakeEffect := by
  refine ⟨fun c s h hflags hlen he hok hused hlast => ?_,
    fun c s h hn => ⟨fun hw hlim hspace hl => ?_, fun hw hlim hspace hl => ?_, fun hw hlim hspace hl => ?_,
      fun hw hfirst hlim hspace hl => ?_⟩,
    fun s hwf hvisits => staleScanVisit_ages hwf hvisits, pointRingDrain_delivers, fun _ _ => pointRingDrain_idle⟩
  · have hpoint := Dev.pointWritten_point (d := s.fresh) (qual := bits (leAt c.data 0 4) 27 24)
      (raw := leAt c.data 4 4 % 2 ^ 16) hused hlast
    refine ⟨_, exec_pointWrite h (Dev.pointWrite_one hflags hlen he hok),
      fun id hid => (hpoint id).trans (if_neg hid.symm), ?_⟩
    rw [(hpoint _).trans (if_pos rfl)]
    exact arriveRec_fields _ _ (bits_lt ..) _
  · exact exec_pointReadBlock (what := 0) (f := fun n => leBytes 4 (s.dev.point n).toNat) hw (by decide) hn hlim hspace
      nofun hl h rfl
  · exact exec_pointReadBlock (what := 1) (f := fun n => leBytes 1 (s.dev.pointCls n)) hw (by decide) hn hlim hspace
      nofun (hl.trans (Nat.one_mul _).symm) h rfl
  · exact exec_pointReadBlock (what := 2) (f := s.dev.aggBytes) hw (by decide) hn hlim hspace nofun hl h rfl
  · exact exec_pointReadBlock (what := 3) (f := s.dev.clsBytes) hw (by decide) hn hlim hspace (fun _ => hfirst) hl h rfl

end Sys2Proof.Machine
end

section
/-! PROOFS. Entries of sensing: which are enabled and which are failed (R306, R312, R313), what becomes of one that fails or
recovers, and how SUP learns of it (R155, R314). -/

namespace Sys2Proof.Machine

open Host

/-! ### Channels and entries -/

section
variable (d : Dev)

theorem Dev.sar_setSar (c k : Nat) (v : SarChan) : (d.setSar c v).sar k = if c = k then v else d.sar k := SMap.get_set ..

theorem Dev.sd_setSd (c k : Nat) (v : SdChan) : (d.setSd c v).sd k = if c = k then v else d.sd k := SMap.get_set ..

theorem Dev.sar_setSar_self (c : Nat) (v : SarChan) : (d.setSar c v).sar c = v := SMap.get_set_self ..

theorem Dev.sd_setSd_self (c : Nat) (v : SdChan) : (d.setSd c v).sd c = v := SMap.get_set_self ..

theorem Dev.entryOn_sar {c : Nat} (h : c < 24) : d.entryOn c = d.sarOn c := if_pos h

theorem Dev.entryOn_sd (c : Nat) : d.entryOn (24 + c) = d.sdOn c := by simp [Dev.entryOn]

theorem Dev.entryFailed_sar {c : Nat} (h : c < 24) : d.entryFailed c = (d.sar c).failed := if_pos h

theorem Dev.entryFailed_sd (c : Nat) : d.entryFailed (24 + c) = (d.sd c).failed := by simp [Dev.entryFailed]

end

section
variable {ps : List Part} {a d : Dev}

theorem Dev.sar_of_adc (h : d.adc = a.adc) (c : Nat) : d.sar c = a.sar c :=
  congrArg (fun x : AdcState => x.sar.get SarChan.reset c) h

theorem Dev.sd_of_adc (h : d.adc = a.adc) (c : Nat) : d.sd c = a.sd c :=
  congrArg (fun x : AdcState => x.sd.get SdChan.reset c) h

theorem Dev.entryFailed_of_adc (h : d.adc = a.adc) (e : Nat) : d.entryFailed e = a.entryFailed e := by
  rw [Dev.entryFailed, Dev.sar_of_adc h, Dev.sd_of_adc h, Dev.entryFailed]

/-- Enabled entries are those of the registers in force. -/
theorem Dev.Touches.entryOn (h : Dev.Touches ps a d) (hp : .values ∉ ps) (e : Nat) : d.entryOn e = a.entryOn e := by
  simp only [Dev.entryOn, Dev.sarOn, Dev.sdOn, Dev.sdGroupOn, Dev.flag, h.cfg _ hp]

/-- The signal of an entry is one of sensing and its registers in force. -/
theorem Dev.Touches.entrySignal (h : Dev.Touches ps a d) (hp : .values ∉ ps ∧ .adc ∉ ps)
    (e : Nat) : d.entrySignal e = a.entrySignal e := by
  have hadc : d.adc = a.adc := (h.same .adc hp.2).symm
  have hheld : d.entryHeld e = a.entryHeld e := by
    rw [Dev.entryHeld, Dev.sar_of_adc hadc, Dev.sd_of_adc hadc, Dev.entryHeld]
  have hraw : d.rawCode e = a.rawCode e := by
    rw [Dev.rawCode, Dev.sar_of_adc hadc, Dev.sd_of_adc hadc, Dev.rawCode]
  have halign (x : Int) : d.alignX e x = a.alignX e x := by
    unfold Dev.alignX Dev.osr3 Dev.fld
    rw [h.cfg _ hp.1]
  have hcal (x : Int) : d.calibrate e x = a.calibrate e x := by rw [Dev.calibrate, Dev.calib, hadc]; rfl
  rw [Dev.entrySignal, h.entryOn hp.1, Dev.entryFailed_of_adc hadc, hheld, hraw, halign, hcal, Dev.entrySignal]

end

/-! ### One entry replaced -/

/-- Entry e replaced, by `v` where it is a SAR channel and by `w` where it is a sigma-delta channel. -/
def Dev.setEntry (e : Nat) (v : SarChan) (w : SdChan) (d : Dev) : Dev :=
  if e < 24 then d.setSar e v else d.setSd (e - 24) w

section
variable (d : Dev) {e : Nat} {v : SarChan} {w : SdChan}

theorem Dev.touches_setEntry : Dev.Touches [.adc] d (d.setEntry e v w) :=
  .mono (.ite (Dev.touches_setSar ..) (Dev.touches_setSd ..)) (by decide)

theorem Dev.setEntry_sd (c : Nat) : d.setEntry (24 + c) v w = d.setSd c w := by simp [Dev.setEntry]

theorem Dev.entryFailed_setEntry {failed : Bool} (hv : v.failed = failed) (hw : w.failed = failed) (k : Nat) :
    (d.setEntry e v w).entryFailed k = if e = k then failed else d.entryFailed k := by
  unfold Dev.setEntry Dev.entryFailed
  by_cases he : e < 24
  · rw [if_pos he, Dev.sar_setSar]
    by_cases hk : k < 24
    · rw [if_pos hk, if_pos hk, apply_ite SarChan.failed, hv]
    · rw [if_neg hk, if_neg hk, if_neg (by omega)]
      rfl
  · rw [if_neg he, Dev.sd_setSd]
    by_cases hk : k < 24
    · rw [if_pos hk, if_pos hk, if_neg (by omega)]
      rfl
    · rw [if_neg hk, if_neg hk, apply_ite SdChan.failed, hw]
      exact if_congr (by omega) rfl rfl

end

/-! ### An entry fails, or recovers -/

section
variable (d : Dev) {e : Nat}

theorem Dev.failEntry_eq : d.failEntry e = (d.setEntry e
    { d.sar e with failed := true, held := d.entrySignal e, due := false, missing := false, run := 0, good := 0 }
    { d.sd (e - 24) with failed := true, held := d.entrySignal e, due := false, run := 0, good := 0 }).onAdc fun a =>
      { a with failCnt := satInc a.failCnt } := rfl

theorem Dev.recoverEntry_eq : d.recoverEntry e = (d.setEntry e
    { d.sar e with failed := false, good := 0 } { d.sd (e - 24) with failed := false, good := 0 }).setChan e
      { d.chan e with failed := false } := by
  unfold Dev.recoverEntry Dev.setEntry
  split <;> rfl

theorem Dev.touches_failEntry (e : Nat) : Dev.Touches [.adc] d (d.failEntry e) := by
  rw [Dev.failEntry_eq]
  exact .mono (.andThen d.touches_setEntry (Dev.touches_onAdc ..)) (by decide)

theorem Dev.touches_recoverEntry (e : Nat) : Dev.Touches [.adc, .sup] d (d.recoverEntry e) := by
  rw [Dev.recoverEntry_eq]
  exact d.touches_setEntry.andThen (Dev.touches_setChan ..)

theorem Dev.entryFailed_failEntry (k : Nat) : (d.failEntry e).entryFailed k = if e = k then true else d.entryFailed k :=
  d.entryFailed_setEntry rfl rfl k

theorem Dev.entryFailed_recoverEntry (k : Nat) :
    (d.recoverEntry e).entryFailed k = if e = k then false else d.entryFailed k := by
  rw [Dev.recoverEntry_eq]
  exact d.entryFailed_setEntry rfl rfl k

theorem Dev.entryFailed_foldl_failEntry (l : List Nat) (k : Nat) :
    (l.foldl Dev.failEntry d).entryFailed k = (decide (k ∈ l) || d.entryFailed k) := by
  induction l generalizing d with
  | nil => simp
  | cons e rest ih =>
    rw [List.foldl_cons, ih, Dev.entryFailed_failEntry]
    by_cases h : e = k
    · simp [h]
    · simp [h, Ne.symm h]

/-- A bank and a group stay failed or not while their entries fail one by one. -/
theorem Dev.foldl_failEntry_wholes (l : List Nat) :
    ((l.foldl Dev.failEntry d).adc.banks, (l.foldl Dev.failEntry d).adc.groups) = (d.adc.banks, d.adc.groups) := by
  refine Dev.foldl_same (part := fun d => (d.adc.banks, d.adc.groups)) (fun d e => ?_) l d
  rw [Dev.failEntry_eq]
  unfold Dev.setEntry
  split <;> rfl

end

/-! ### SUP learns of failed channels (R155) -/

section
variable (d : Dev) (sn : W32) (c k : Nat)

theorem Dev.chan_setChan (v : ChanSup) : (d.setChan c v).chan k = if c = k then v else d.chan k := SMap.get_set ..

theorem Dev.chan_of_sup {a d : Dev} (h : d.sup = a.sup) (k : Nat) : d.chan k = a.chan k :=
  congrArg (fun s : SupState => s.chans.get ChanSup.reset k) h

theorem Dev.tripAfter_chan (cls : TripClass) (cause : Nat) (details : List Nat) :
    (d.tripAfter sn cls cause details).chan k = d.chan k := by
  unfold Dev.tripAfter
  split <;> rfl

theorem Dev.setChan_failed {v : ChanSup} (h : v.failed = (d.chan c).failed) :
    ((d.setChan c v).chan k).failed = (d.chan k).failed := by
  rw [Dev.chan_setChan]
  split
  · next hk => rw [h, hk]
  · rfl

theorem Dev.currentDeclared_failed : ((d.currentDeclared sn c).chan k).failed = (d.chan k).failed := by
  unfold Dev.currentDeclared
  extract_lets atOnce v d1
  have h1 : (d1.chan k).failed = (d.chan k).failed := d.setChan_failed c k rfl
  split
  · rfl
  · split
    · split
      · rw [Dev.tripAfter_chan, Dev.chan_of_sup (Dev.event_sup ..), h1]
      · exact h1
    · rw [Dev.tripAfter_chan]

theorem Dev.reactChan_failed : ((d.reactChan sn c).chan k).failed = (d.chan k).failed := by
  unfold Dev.reactChan
  extract_lets d1
  have h1 : (d1.chan k).failed = (d.chan k).failed := by
    unfold d1
    split
    · exact d.currentDeclared_failed ..
    · rfl
  split
  · rw [Dev.tripAfter_chan, h1]
  · exact h1

theorem Dev.markChan_chan (m : Declared) : ((d.markChan m c).chan k).failed =
    if c = k ∧ m = .failed then true else (d.chan k).failed := by
  unfold Dev.markChan
  rw [Dev.chan_of_sup ((Dev.irq_sup ..).trans (Dev.event_sup ..)), Dev.chan_setChan]
  by_cases h : c = k
  · subst h
    cases m <;> simp
  · simp [h]

/-- A channel that is declared failed is failed for SUP. -/
theorem Dev.declare_failed {ds : List (Declared × Nat)} (h : (Declared.failed, k) ∈ ds) :
    ((d.declare sn ds).chan k).failed = true := by
  refine (Dev.foldl_same (part := fun d => (d.chan k).failed) (fun d c => d.reactChan_failed sn c k) _ _).trans ?_
  refine Dev.foldl_reaches (P := fun d => (d.chan k).failed = true) (fun d x hd => ?_) (fun d => ?_) h d
  · rw [Dev.markChan_chan, hd, ite_self]
  · rw [Dev.markChan_chan, if_pos ⟨rfl, rfl⟩]

end

/-! ### Entries fail together (R314) -/

/-- The entries of a list that are enabled and not failed yet. -/
def Dev.newEntries (d : Dev) (es : List Nat) : List Nat := es.filter fun e => d.entryOn e && !d.entryFailed e

section
variable (d : Dev) (es : List Nat)

theorem Dev.failEntries_eq : d.failEntries es =
    ((d.newEntries es).foldl Dev.failEntry d).declare d.lastSn ((d.newEntries es).map fun e => (Declared.failed, e)) := rfl

theorem Dev.touches_failEntries : Dev.Touches [.adc, .sup, .events, .reports] d (d.failEntries es) :=
  .mono (.andThen (.foldl (fun d e => d.touches_failEntry e) _ _) (Dev.touches_declare ..)) (by decide)

theorem Dev.failEntries_adc : (d.failEntries es).adc = ((d.newEntries es).foldl Dev.failEntry d).adc :=
  ((Dev.touches_declare ..).same .adc (by decide)).symm

/-- Every enabled entry of the list is failed afterwards. -/
theorem Dev.entryFailed_failEntries {e : Nat} (he : e ∈ es) (hon : d.entryOn e = true) :
    (d.failEntries es).entryFailed e = true := by
  rw [Dev.entryFailed_of_adc (d.failEntries_adc es), Dev.entryFailed_foldl_failEntry]
  cases hf : d.entryFailed e <;> simp [Dev.newEntries, he, hon, hf]

/-- A new entry of a list that has no other is failed for SUP too. -/
theorem Dev.failEntries_one {e : Nat} (hon : d.entryOn e = true) (hf : d.entryFailed e = false) :
    (d.failEntries [e]).adc = (d.failEntry e).adc ∧ ((d.failEntries [e]).chan e).failed = true := by
  have hnew : d.newEntries [e] = [e] := by simp [Dev.newEntries, hon, hf]
  refine ⟨?_, ?_⟩
  · rw [Dev.failEntries_adc, hnew]
    rfl
  · rw [Dev.failEntries_eq, hnew]
    exact Dev.declare_failed _ _ _ (List.mem_singleton_self _)

theorem Dev.anyNew_map (m : Nat) (f : Nat → Nat) : d.anyNew ((upto m).map f) = true ↔
    ∃ k : Fin m, d.entryOn (f k) = true ∧ d.entryFailed (f k) = false := by
  simp only [Dev.anyNew, upto, List.any_map, List.any_eq_true, List.mem_range, Function.comp_apply, Bool.and_eq_true,
    Bool.not_eq_true', Fin.exists_iff, exists_prop]

end

end Sys2Proof.Machine
end

section
/-! PROOFS. Failed groups, channels and banks, and CHANNEL_RECOVER (R312–R314). -/

namespace Sys2Proof.Machine

open Host

/-! ### A bank or a group fails (R312, R313) -/

/-- A bank or a group of channels fails: the bit that shows it, its event, and its entries. -/
def Dev.failWhole (f : AdcState → AdcState) (bit n : Nat) (es : List Nat) (d : Dev) : Dev :=
  ((d.onAdc f).event 7 bit n 0 0).failEntries es

section
variable (f : AdcState → AdcState) (bit n : Nat) (es : List Nat) (d : Dev)

theorem Dev.touches_failWhole : Dev.Touches [.adc, .sup, .events, .reports] d (d.failWhole f bit n es) :=
  .mono (.andThen (.andThen (Dev.touches_onAdc ..) (Dev.touches_event ..)) (Dev.touches_failEntries ..)) (by decide)

theorem Dev.failWhole_stands : (d.failWhole f bit n es).stands Reg.ADC_EVENT (BitVec.ofNat 32 (2 ^ bit)) :=
  (Dev.touches_failEntries ..).grows _ _ (Dev.event_stands 7 bit ..)

theorem Dev.failWhole_wholes : (d.failWhole f bit n es).adc.banks = (f d.adc).banks ∧
    (d.failWhole f bit n es).adc.groups = (f d.adc).groups := by
  have hevent : ((d.onAdc f).event 7 bit n 0 0).adc = f d.adc := Dev.event_adc ..
  rw [Dev.failWhole, Dev.failEntries_adc, ← hevent]
  exact Prod.mk.inj (Dev.foldl_failEntry_wholes ..)

theorem Dev.failWhole_fails {e : Nat} (he : e ∈ es) (hon : d.entryOn e = true) :
    (d.failWhole f bit n es).entryFailed e = true := by
  have h : Dev.Touches _ d ((d.onAdc f).event 7 bit n 0 0) := (Dev.touches_onAdc ..).andThen (Dev.touches_event ..)
  exact Dev.entryFailed_failEntries _ _ he ((h.entryOn (by decide) e).trans hon)

end

/-! ### SD_CLOCK_LOST (R312) -/

/-- The entries of group g. -/
def groupEntries (g : Nat) : List Nat := (upto 8).map (24 + 8 * g + ·)

section
variable {d : Dev} {g : Nat}

theorem Dev.anyNew_group : d.anyNew (groupEntries g) = true ↔
    ∃ k : Fin 8, d.sdOn (8 * g + k.val) = true ∧ (d.sd (8 * g + k.val)).failed = false := by
  simp only [groupEntries, Dev.anyNew_map, Nat.add_assoc, Dev.entryOn_sd, Dev.entryFailed_sd]

theorem Dev.sdClockLost_fails (hon : d.sdGroupOn g = true)
    (hnew : bitAt d.adc.groups g = false ∨ d.anyNew (groupEntries g) = true) (hstill : (d.clkPad g).since + 640 ≤ d.now) :
    d.sdClockLost g = d.failWhole (fun a => { a with groups := a.groups ||| 2 ^ g }) 3 g (groupEntries g) := by
  refine if_neg ?_
  rw [← groupEntries, hon, Dev.lively, decide_eq_false (by omega)]
  obtain h | h := hnew <;> simp [h]

theorem Dev.sdClockLost_idle (h : d.sdGroupOn g = false ∨ d.now < (d.clkPad g).since + 640 ∨
    (bitAt d.adc.groups g = true ∧ d.anyNew (groupEntries g) = false)) : d.sdClockLost g = d := by
  refine if_pos ?_
  rw [← groupEntries]
  obtain h | h | ⟨hb, hn⟩ := h
  · simp [h]
  · simp [Dev.lively, h]
  · simp [hb, hn]

end

theorem sdClockLost_declares {g : Fin 4} {s : State} (hon : s.dev.sdGroupOn g.val = true)
    (hnew : bitAt s.dev.adc.groups g.val = false ∨ (∃ k : Fin 8, s.dev.sdOn (8 * g.val + k.val) = true ∧
      (s.dev.sd (8 * g.val + k.val)).failed = false))
    (hstill : (s.dev.clkPad g.val).since + 640 ≤ s.dev.now) : Answers (.sdClockLost g) s fun t =>
      bitAt t.dev.adc.groups g.val = true ∧ t.dev.stands Reg.ADC_EVENT 8 ∧
      (∀ k : Fin 8, s.dev.sdOn (8 * g.val + k.val) = true → (t.dev.sd (8 * g.val + k.val)).failed = true) ∧
      ChangesOnly [.adc, .sup, .events, .reports] s t := by
  have hrow := Dev.sdClockLost_fails (d := s.fresh) hon (hnew.imp_right Dev.anyNew_group.mpr) hstill
  refine ⟨_, exec_of_effect rfl hrow, ?_, Dev.failWhole_stands _ 3 .., fun k hk => ?_,
    .of_after (Dev.touches_failWhole ..).keeps⟩
  · rw [State.after_adc, (Dev.failWhole_wholes ..).2]
    simp
  · have he : 24 + (8 * g.val + k.val) ∈ groupEntries g.val :=
      List.mem_map.mpr ⟨k.val, List.mem_range.mpr k.isLt, Nat.add_assoc ..⟩
    exact (Dev.entryFailed_sd ..).symm.trans (Dev.failWhole_fails _ _ _ _ s.fresh he ((Dev.entryOn_sd ..).trans hk))

theorem sdClockLost_idle {g : Fin 4} {s : State} (h : s.dev.sdGroupOn g.val = false ∨
    s.dev.now < (s.dev.clkPad g.val).since + 640 ∨ (bitAt s.dev.adc.groups g.val = true ∧
      ∀ k : Fin 8, s.dev.sdOn (8 * g.val + k.val) = true → (s.dev.sd (8 * g.val + k.val)).failed = true)) :
    exec (.sdClockLost g) s = .next (s.after s.fresh) := by
  have hnone (hall : ∀ k : Fin 8, s.dev.sdOn (8 * g.val + k.val) = true → (s.dev.sd (8 * g.val + k.val)).failed = true) :
      s.fresh.anyNew (groupEntries g.val) = false := by
    rw [Bool.eq_false_iff, ne_eq, Dev.anyNew_group]
    rintro ⟨k, hon, hf⟩
    exact Bool.eq_false_iff.mp hf (hall k hon)
  exact exec_of_effect rfl (Dev.sdClockLost_idle (d := s.fresh) (h.imp_right (.imp_right (.imp_right hnone))))

/-! ### SD_DATA_LOST (R312) -/

theorem Dev.failEntry_sd (d : Dev) (c : Nat) : d.failEntry (24 + c) = (d.setSd c { d.sd c with
      failed := true, held := d.entrySignal (24 + c), due := false, run := 0, good := 0 }).onAdc fun a =>
    { a with failCnt := satInc a.failCnt } := by
  rw [Dev.failEntry_eq, Dev.setEntry_sd, Nat.add_sub_cancel_left]

theorem sdDataLost_declares {c : Fin 32} {s : State} (hon : s.dev.sdOn c.val = true)
    (hf : (s.dev.sd c.val).failed = false) (hstill : (s.dev.sd c.val).lastChange + 640 ≤ s.dev.now) :
    Answers (.sdDataLost c) s fun t =>
      t.dev.sd c.val = { s.dev.sd c.val with
        failed := true, held := s.dev.entrySignal (24 + c.val), due := false, run := 0, good := 0 } ∧
      t.dev.adc.failCnt = satInc s.dev.adc.failCnt ∧ (t.dev.chan (24 + c.val)).failed = true ∧
      t.dev.stands Reg.ADC_EVENT 8 ∧ ChangesOnly [.adc, .sup, .events, .reports] s t := by
  have hrow : s.fresh.sdDataLost c.val = (s.fresh.event 7 3 c.val 0 0).failEntries [24 + c.val] := by
    have hlively : s.fresh.lively (s.fresh.sd c.val).lastChange = false := decide_eq_false (Nat.not_lt.mpr hstill)
    refine if_pos ?_
    rw [show s.fresh.sdOn c.val = true from hon, show (s.fresh.sd c.val).failed = false from hf, hlively]
    rfl
  have hevent : Dev.Touches _ s.fresh (s.fresh.event 7 3 c.val 0 0) := Dev.touches_event ..
  have hadc : (s.fresh.event 7 3 c.val 0 0).adc = s.dev.adc := Dev.event_adc ..
  obtain ⟨hfails, hchan⟩ := Dev.failEntries_one (s.fresh.event 7 3 c.val 0 0) (e := 24 + c.val)
    ((hevent.entryOn (by decide) _).trans ((Dev.entryOn_sd ..).trans hon))
    ((Dev.entryFailed_of_adc hadc _).trans ((Dev.entryFailed_sd ..).trans hf))
  rw [Dev.failEntry_sd, Dev.sd_of_adc hadc, hevent.entrySignal (by decide)] at hfails
  refine ⟨_, exec_of_effect rfl hrow, ?_, ?_, hchan, (Dev.touches_failEntries ..).grows _ _ (Dev.event_stands 7 3 ..),
    .of_after (hevent.andThen (Dev.touches_failEntries ..) |>.mono (by decide)).keeps⟩
  · exact (Dev.sd_of_adc hfails _).trans (Dev.sd_setSd_self ..)
  · rw [State.after_adc, hfails]
    change satInc (s.fresh.event 7 3 c.val 0 0).adc.failCnt = _
    rw [hadc]

/-! ### SAR_BANK_FAIL (R313) -/

/-- The entries of bank b. -/
def bankEntries (b : Nat) : List Nat := (upto 6).map (6 * b + ·)

theorem mem_bankEntries (b : Nat) (k : Fin 6) : 6 * b + k.val ∈ bankEntries b :=
  List.mem_map_of_mem (List.mem_range.mpr k.isLt)

section
variable {d : Dev} {b : Nat}

theorem Dev.anyNew_bank (hb : b < 4) : d.anyNew (bankEntries b) = true ↔
    ∃ k : Fin 6, d.sarOn (6 * b + k.val) = true ∧ (d.sar (6 * b + k.val)).failed = false := by
  rw [bankEntries, Dev.anyNew_map]
  refine exists_congr fun k => ?_
  rw [Dev.entryOn_sar _ (by omega), Dev.entryFailed_sar _ (by omega)]

theorem Dev.sarBankFail_fails (hnew : bitAt d.adc.banks b = false ∨ d.anyNew (bankEntries b) = true) :
    d.sarBankFail b true = d.failWhole (fun a => { a with banks := a.banks ||| 2 ^ b }) 2 b (bankEntries b) := by
  refine if_neg ?_
  rw [← bankEntries]
  obtain h | h := hnew <;> simp [h]

theorem Dev.sarBankFail_idle {f : Bool} (hb : bitAt d.adc.banks b = true) (hn : d.anyNew (bankEntries b) = false) :
    d.sarBankFail b f = d := by
  refine if_pos ?_
  rw [← bankEntries, hb, hn]
  rfl

end

theorem sarBankFail_declares {b : Fin 4} {s : State} (hnew : bitAt s.dev.adc.banks b.val = false ∨ (∃ k : Fin 6,
      s.dev.sarOn (6 * b.val + k.val) = true ∧ (s.dev.sar (6 * b.val + k.val)).failed = false)) :
    Answers (.sarBankFail b true) s fun t =>
      bitAt t.dev.adc.banks b.val = true ∧ t.dev.stands Reg.ADC_EVENT 4 ∧
      (∀ k : Fin 6, s.dev.sarOn (6 * b.val + k.val) = true → (t.dev.sar (6 * b.val + k.val)).failed = true) ∧
      ChangesOnly [.adc, .sup, .events, .reports] s t := by
  have hrow := Dev.sarBankFail_fails (d := s.fresh) (hnew.imp_right (Dev.anyNew_bank b.isLt).mpr)
  refine ⟨_, exec_of_effect rfl hrow, ?_, Dev.failWhole_stands _ 2 .., fun k hk => ?_,
    .of_after (Dev.touches_failWhole ..).keeps⟩
  · rw [State.after_adc, (Dev.failWhole_wholes ..).1]
    simp
  · have hlt : 6 * b.val + k.val < 24 := by omega
    exact (Dev.entryFailed_sar _ hlt).symm.trans
      (Dev.failWhole_fails _ _ _ _ s.fresh (mem_bankEntries _ k) ((Dev.entryOn_sar _ hlt).trans hk))

theorem sarBankFail_idle {b : Fin 4} {f : Bool} {s : State} (hb : bitAt s.dev.adc.banks b.val = true)
    (hall : ∀ k : Fin 6, s.dev.sarOn (6 * b.val + k.val) = true → (s.dev.sar (6 * b.val + k.val)).failed = true) :
    exec (.sarBankFail b f) s = .next (s.after s.fresh) := by
  have hnone : s.fresh.anyNew (bankEntries b.val) = false := by
    rw [Bool.eq_false_iff, ne_eq, Dev.anyNew_bank b.isLt]
    rintro ⟨k, hon, hf⟩
    exact Bool.eq_false_iff.mp hf (hall k hon)
  exact exec_of_effect rfl (Dev.sarBankFail_idle (d := s.fresh) hb hnone)

/-! ### CHANNEL_RECOVER (R314) -/

theorem Dev.recoverEntry_sd (d : Dev) (c : Nat) : d.recoverEntry (24 + c) =
    (d.setSd c { d.sd c with failed := false, good := 0 }).setChan (24 + c) { d.chan (24 + c) with failed := false } := by
  rw [Dev.recoverEntry_eq, Dev.setEntry_sd, Nat.add_sub_cancel_left]

theorem channelRecover_sd {c : Fin 32} {s : State} (hf : (s.dev.sd c.val).failed = true)
    (hgood : 64 ≤ (s.dev.sd c.val).good) : Answers (.channelRecover ⟨24 + c.val, by omega⟩) s fun t =>
      t.dev.sd c.val = { s.dev.sd c.val with failed := false, good := 0 } ∧ (t.dev.chan (24 + c.val)).failed = false ∧
      t.dev.stands Reg.ADC_EVENT 0x20 ∧ ChangesOnly [.adc, .sup, .events, .reports] s t := by
  have hrow : s.fresh.channelRecover (24 + c.val) = (s.fresh.recoverEntry (24 + c.val)).event 7 5 (24 + c.val) 0 0 := by
    unfold Dev.channelRecover
    rw [Dev.entryFailed_sd, show (s.fresh.sd c.val).failed = true from hf, Nat.add_sub_cancel_left]
    exact (if_neg (by decide)).trans ((if_neg (by omega)).trans (if_pos hgood))
  refine ⟨_, exec_of_effect rfl hrow, ?_, ?_, Dev.event_stands 7 5 ..,
    .of_after ((Dev.touches_recoverEntry ..).andThen (Dev.touches_event ..) |>.mono (by decide)).keeps⟩
  · rw [Dev.recoverEntry_sd]
    exact (Dev.sd_of_adc (Dev.event_adc ..) _).trans (Dev.sd_setSd_self ..)
  · rw [Dev.recoverEntry_sd]
    exact congrArg ChanSup.failed ((Dev.chan_of_sup (Dev.event_sup ..) _).trans ((Dev.chan_setChan ..).trans (if_pos rfl)))

/-- The enabled channels of bank b recover, and so does the bank. -/
def Dev.recoverBank (b : Nat) (d : Dev) : Dev :=
  ((bankEntries b).filter fun c => d.sarOn c).foldl (fun d c => d.recoverEntry c)
    (d.onAdc fun a => { a with banks := a.banks &&& (15 - 2 ^ b) })

theorem Dev.touches_recoverBank (b : Nat) (d : Dev) : Dev.Touches [.adc, .sup] d (d.recoverBank b) :=
  .mono (.andThen (Dev.touches_onAdc ..) (.foldl (fun d c => d.touches_recoverEntry c) _ _)) (by decide)

theorem Dev.recoverBank_recovers {d : Dev} {b c : Nat} (hc : c ∈ bankEntries b) (hon : d.sarOn c = true) :
    (d.recoverBank b).entryFailed c = false := by
  refine Dev.foldl_reaches (P := fun d => d.entryFailed c = false) (fun d e h => ?_) (fun d => ?_)
    (List.mem_filter.mpr ⟨hc, hon⟩) _
  · rw [Dev.entryFailed_recoverEntry, h, ite_self]
  · rw [Dev.entryFailed_recoverEntry, if_pos rfl]

theorem Dev.channelRecover_bank {d : Dev} {c : Nat} (hc : c < 24) (hf : (d.sar c).failed = true)
    (hgood : ∀ k : Fin 6, d.sarOn (6 * (c / 6) + k.val) = true → 16 ≤ (d.sar (6 * (c / 6) + k.val)).good) :
    d.channelRecover c = (d.recoverBank (c / 6)).event 7 5 c 0 0 := by
  have hall : ((bankEntries (c / 6)).filter fun e => d.sarOn e).all (fun e => decide (16 ≤ (d.sar e).good)) = true := by
    refine List.all_eq_true.mpr fun e he => decide_eq_true ?_
    obtain ⟨hmem, hon⟩ := List.mem_filter.mp he
    obtain ⟨k, hk, rfl⟩ := List.mem_map.mp hmem
    exact hgood ⟨k, List.mem_range.mp hk⟩ hon
  unfold Dev.channelRecover
  rw [d.entryFailed_sar hc, hf]
  exact (if_neg (by decide)).trans ((if_pos hc).trans (if_pos hall))

theorem channelRecover_sar {c : Fin 24} {s : State} (hf : (s.dev.sar c.val).failed = true)
    (hgood : ∀ k : Fin 6, s.dev.sarOn (6 * (c.val / 6) + k.val) = true →
      16 ≤ (s.dev.sar (6 * (c.val / 6) + k.val)).good) : Answers (.channelRecover ⟨c.val, by omega⟩) s fun t =>
      (∀ k : Fin 6, s.dev.sarOn (6 * (c.val / 6) + k.val) = true → (t.dev.sar (6 * (c.val / 6) + k.val)).failed = false) ∧
      t.dev.stands Reg.ADC_EVENT 0x20 ∧ ChangesOnly [.adc, .sup, .events, .reports] s t := by
  refine ⟨_, exec_of_effect rfl (Dev.channelRecover_bank (d := s.fresh) c.isLt hf hgood), fun k hk => ?_,
    Dev.event_stands 7 5 .., .of_after ((Dev.touches_recoverBank ..).andThen (Dev.touches_event ..) |>.mono (by decide)).keeps⟩
  have hlt : 6 * (c.val / 6) + k.val < 24 := by omega
  exact (Dev.entryFailed_sar _ hlt).symm.trans ((Dev.entryFailed_of_adc (Dev.event_adc ..) _).trans
    (Dev.recoverBank_recovers (d := s.fresh) (mem_bankEntries _ k) hk))

end Sys2Proof.Machine
end

section
/-! PROOFS. Decisions of the comparators and results of conversions (R302, R309–R311), and the rows of sensing together. -/

namespace Sys2Proof.Machine

open Host

/-! ### A decision that has changed (R311) -/

section
variable (d : Dev) (e : Nat)

/-- Of sensing, a decision changes the channel of the next snapshot at most. -/
theorem Dev.decided_adc (set : Bool) :
    (d.decided e set).adc = if set then { d.adc with tripCh := e } else d.adc := by
  unfold Dev.decided
  extract_lets src d1
  have h1 : d1.adc = { d.adc with tripCh := e } := Dev.event_adc ..
  cases set
  · simp only [Bool.false_eq_true, if_false]
    exact ((Dev.Touches.ite .refl (d.touches_endCond src)).same .adc (by decide)).symm
  · exact ((Dev.touches_beginConds ..).same .adc (by decide)).symm.trans h1

theorem Dev.decided_sar (set : Bool) (c : Nat) : (d.decided e set).sar c = d.sar c := by
  rw [Dev.sar, Dev.decided_adc]
  split <;> rfl

theorem Dev.decided_sd (set : Bool) (c : Nat) : (d.decided e set).sd c = d.sd c := by
  rw [Dev.sd, Dev.decided_adc]
  split <;> rfl

/-- A decision that sets is an event of its kind. -/
theorem Dev.decided_stands : (d.decided e true).stands Reg.ADC_EVENT (BitVec.ofNat 32 (2 ^ (if e < 24 then 0 else 1))) :=
  (Dev.touches_beginConds ..).grows _ _ (Dev.event_stands 7 ..)

end

/-! ### SINC2_DECISION (R310) -/

theorem sinc2Decision_flips {c : Fin 32} {s : State} (hon : s.dev.sdOn c.val = true) (hf : (s.dev.sd c.val).failed = false)
    (hrun : s.dev.fld (Reg.ADC_SD_CH c.val) 11 8 + 1 ≤ (s.dev.sd c.val).run) : Answers (.sinc2Decision c) s fun t =>
      t.dev.sd c.val = { s.dev.sd c.val with run := 0, decision := !(s.dev.sd c.val).decision } ∧
      ((s.dev.sd c.val).decision = false → t.dev.adc.tripCh = 24 + c.val ∧ t.dev.stands Reg.ADC_EVENT 2) ∧
      t.pending = s.pending := by
  have hrow : s.fresh.sinc2Decision c.val = (s.fresh.setSd c.val { s.dev.sd c.val with
      run := 0, decision := !(s.dev.sd c.val).decision }).decided (24 + c.val) (!(s.dev.sd c.val).decision) := by
    refine if_pos ?_
    rw [show s.fresh.sdOn c.val = true from hon, show (s.fresh.sd c.val).failed = false from hf]
    exact decide_eq_true hrun
  refine ⟨_, exec_of_effect rfl hrow, (Dev.decided_sd ..).trans (Dev.sd_setSd_self ..), fun hd => ?_, rfl⟩
  rw [hd]
  refine ⟨congrArg AdcState.tripCh (Dev.decided_adc _ _ true), ?_⟩
  have hevent := (s.fresh.setSd c.val { s.dev.sd c.val with run := 0, decision := true }).decided_stands (24 + c.val)
  rwa [if_neg (by omega)] at hevent

theorem sinc2Decision_idle {c : Fin 32} {s : State} (hon : s.dev.sdOn c.val = false) :
    exec (.sinc2Decision c) s = .next (s.after s.fresh) := by
  refine exec_of_effect rfl (if_neg ?_)
  rw [show s.fresh.sdOn c.val = false from hon]
  exact Bool.false_ne_true

/-! ### SAR_CONVERSION_RESULT (R302) -/

/-- A channel that is not failed takes a result of its sample at tick `t` (R302): it counts the result where its bank has
failed (R314), and the result of the sample instant is its code. -/
def Dev.sarWith (d : Dev) (c : Nat) (raw : Int) (t : Nat) : SarChan :=
  { d.sar c with
    waits := none
    raw := if (d.sar c).due = true ∧ t = d.adc.gridTick then raw else (d.sar c).raw
    due := (d.sar c).due && decide (t ≠ d.adc.gridTick)
    good := if bitAt d.adc.banks (c / 6) then (d.sar c).good + 1 else 0 }

/-- The result is taken, and one at the end of its range is an event (R315). -/
def Dev.takeResult (c : Nat) (raw : Int) (t : Nat) (d : Dev) : Dev :=
  if raw = 32767 ∨ raw = -32768 then (d.setSar c (d.sarWith c raw t)).clip c else d.setSar c (d.sarWith c raw t)

section
variable {d : Dev} {c t : Nat} {raw : Int}

theorem Dev.touches_takeResult : Dev.Touches [.adc, .events, .reports] d (d.takeResult c raw t) :=
  .mono (.ite (.andThen (Dev.touches_setSar ..) (Dev.touches_clip ..)) (Dev.touches_setSar ..)) (by decide)

theorem Dev.takeResult_sar : (d.takeResult c raw t).sar c = d.sarWith c raw t := by
  have hset : (d.setSar c (d.sarWith c raw t)).sar c = d.sarWith c raw t := Dev.sar_setSar_self ..
  unfold Dev.takeResult
  split
  · exact (congrArg (fun a : AdcState => a.sar.get SarChan.reset c) (Dev.event_adc ..)).trans hset
  · exact hset

/-- A conversion leaves the calibration and the registers alone, and with them what is outside a window. -/
theorem Dev.takeResult_outside (e off : Nat) (x : Int) :
    (d.takeResult c raw t).outside off ((d.takeResult c raw t).comparator e x) = d.outside off (d.comparator e x) := by
  have hcal : (d.takeResult c raw t).adc.cal = d.adc.cal := by
    unfold Dev.takeResult
    split
    · rw [Dev.clip, Dev.event_adc]
      rfl
    · rfl
  unfold Dev.comparator Dev.calib Dev.outside Dev.fld
  rw [hcal, Dev.touches_takeResult.cfg off (by decide)]

theorem Dev.touches_acqConversion (d : Dev) : Dev.Touches [.acq, .events, .reports] d (d.acqConversion c raw t) :=
  .mono (.andThen (Dev.touches_acqPatch ..) (.foldl (fun _ _ => .ite (Dev.touches_evalUnit ..) .refl) _ _)) (by decide)

theorem Dev.acqConversion_sar (d : Dev) (k : Nat) : (d.acqConversion c raw t).sar k = d.sar k :=
  Dev.sar_of_adc (d.touches_acqConversion.same .adc (by decide)).symm k

theorem Dev.sarResult_takes (hon : d.sarOn c = true) (hf : (d.sar c).failed = false) (hw : (d.sar c).waits = some t)
    (ht : d.now ≤ t + 192) :
    d.sarResult c raw = ((d.takeResult c raw t).windowStep c raw).acqConversion c raw t := by
  have hwith : { d.sar c with
      waits := none
      good := if bitAt d.adc.banks (c / 6) then (d.sar c).good + 1 else 0
      raw := if (d.sar c).due && decide (t = d.adc.gridTick) then raw else (d.sar c).raw
      due := (d.sar c).due && !((d.sar c).due && decide (t = d.adc.gridTick)) } = d.sarWith c raw t := by
    unfold Dev.sarWith
    cases (d.sar c).due <;> simp
  unfold Dev.sarResult Dev.takeResult
  simp only [hw]
  rw [if_neg (by simpa [hon] using ht), if_neg (by simp [hf]), ← hwith]

theorem Dev.sarResult_counts (hon : d.sarOn c = true) (hf : (d.sar c).failed = true) (hw : (d.sar c).waits = some t)
    (ht : d.now ≤ t + 192) :
    d.sarResult c raw = d.setSar c { d.sar c with waits := none, good := (d.sar c).good + 1 } := by
  unfold Dev.sarResult
  simp only [hw, hon]
  exact (if_neg (by simpa using ht)).trans (if_pos hf)

theorem Dev.sarResult_idle (h : d.sarOn c = false ∨ (d.sar c).waits = none ∨
    ∃ t, (d.sar c).waits = some t ∧ t + 192 < d.now) : d.sarResult c raw = d := by
  unfold Dev.sarResult
  dsimp only
  split
  · rfl
  · next t hw =>
    refine if_pos ?_
    obtain h | h | ⟨t', hw', ht'⟩ := h
    · simp [h]
    · exact absurd (hw.symm.trans h) (by simp)
    · obtain rfl : t = t' := Option.some.inj (hw.symm.trans hw')
      simp [ht']

/-- A channel without window comparator. -/
theorem Dev.windowStep_off (h : d.flag Reg.ADC_WIN_EN c = false) : d.windowStep c raw = d := if_pos (by simp [h])

/-- A code on the other side of the window, at the end of a run of such codes (R309). -/
theorem Dev.windowStep_flips (h : d.flag Reg.ADC_WIN_EN c = true)
    (hout : d.outside (Reg.ADC_WIN c) (d.comparator c (sat 24 (raw * 2 ^ 8))) = !(d.sar c).decision)
    (hrun : d.fld Reg.ADC_WIN_CFG (2 * (c / 6) + 1) (2 * (c / 6)) ≤ (d.sar c).run) : d.windowStep c raw =
      (d.setSar c { d.sar c with run := 0, decision := !(d.sar c).decision }).decided c (!(d.sar c).decision) := by
  unfold Dev.windowStep
  simp only [h, hout]
  exact (if_neg (by decide)).trans ((if_neg (by simp)).trans (if_pos (by omega)))

end

section
variable {c : Fin 24} {raw : BitVec 16} {s : State} {at_ : Nat} (hon : s.dev.sarOn c.val = true)
  (hw : (s.dev.sar c.val).waits = some at_) (ht : s.dev.now ≤ at_ + 192)
include hon hw ht

theorem sarConversionResult_takes (hf : (s.dev.sar c.val).failed = false)
    (hwin : s.dev.flag Reg.ADC_WIN_EN c.val = false) : Answers (.sarConversionResult c raw) s fun t =>
      t.dev.sar c.val = s.dev.sarWith c.val raw.toInt at_ ∧ ChangesOnly [.adc, .acq, .events, .reports] s t := by
  have htake : Dev.Touches _ s.fresh (s.fresh.takeResult c.val raw.toInt at_) := Dev.touches_takeResult
  have hrow := Dev.sarResult_takes (d := s.fresh) (raw := raw.toInt) hon hf hw ht
  rw [Dev.windowStep_off ((congrArg (bitAt · c.val) (htake.cfg _ (by decide))).trans hwin)] at hrow
  exact ⟨_, exec_of_effect rfl hrow,
    (Dev.acqConversion_sar ..).trans Dev.takeResult_sar,
    .of_after ((htake.andThen (Dev.touches_acqConversion _)).mono (by decide)).keeps⟩

theorem sarConversionResult_decides (hf : (s.dev.sar c.val).failed = false)
    (hwin : s.dev.flag Reg.ADC_WIN_EN c.val = true)
    (hout : s.dev.outside (Reg.ADC_WIN c.val) (s.dev.comparator c.val (sat 24 (raw.toInt * 2 ^ 8))) ≠
      (s.dev.sar c.val).decision)
    (hrun : s.dev.fld Reg.ADC_WIN_CFG (2 * (c.val / 6) + 1) (2 * (c.val / 6)) ≤ (s.dev.sar c.val).run) :
    Answers (.sarConversionResult c raw) s fun t => (t.dev.sar c.val).decision = !(s.dev.sar c.val).decision ∧
      (t.dev.sar c.val).run = 0 ∧ (t.dev.sar c.val).waits = none ∧ t.pending = s.pending := by
  have hcfg (off : Nat) : (s.fresh.takeResult c.val raw.toInt at_).cfg off = s.dev.cfg off :=
    Dev.touches_takeResult.cfg off (by decide)
  have hsar : (s.fresh.takeResult c.val raw.toInt at_).sar c.val = s.dev.sarWith c.val raw.toInt at_ := Dev.takeResult_sar
  have hflip := Dev.windowStep_flips (d := s.fresh.takeResult c.val raw.toInt at_) (c := c.val) (raw := raw.toInt)
    ((congrArg (bitAt · c.val) (hcfg _)).trans hwin)
    (by rw [Dev.takeResult_outside, hsar]; exact Bool.eq_not.mpr hout)
    (by rw [Dev.fld, hcfg, hsar]; exact hrun)
  have hlast : (s.fresh.sarResult c.val raw.toInt).sar c.val = { s.dev.sarWith c.val raw.toInt at_ with
      run := 0, decision := !(s.dev.sar c.val).decision } := by
    rw [Dev.sarResult_takes (d := s.fresh) hon hf hw ht, hflip, Dev.acqConversion_sar, Dev.decided_sar, Dev.sar_setSar_self,
      hsar]
    rfl
  exact ⟨_, rfl, congrArg SarChan.decision hlast, congrArg SarChan.run hlast, congrArg SarChan.waits hlast, rfl⟩

theorem sarConversionResult_counts (hf : (s.dev.sar c.val).failed = true) :
    Answers (.sarConversionResult c raw) s fun t =>
      t.dev.sar c.val = { s.dev.sar c.val with waits := none, good := (s.dev.sar c.val).good + 1 } ∧
      ChangesOnly [.adc] s t ∧ Quiet s t :=
  ⟨_, exec_of_effect rfl (Dev.sarResult_counts (d := s.fresh) hon hf hw ht), Dev.sar_setSar_self ..,
    (Dev.touches_setSar ..).keeps.quietly rfl⟩

end

/-- Settles O34: a result by what its channel is doing, decisions by the flip at the end of their runs, failures by the
entries they declare, and the end of a failure entry by entry. -/
theorem sensingRowsTakeEffect : Obligations.SensingRowsTakeEffect :=
  ⟨fun _ _ _ _ hon hf hw ht => ⟨sarConversionResult_takes hon hw ht hf, sarConversionResult_decides hon hw ht hf⟩,
    fun _ _ _ _ hon hf hw ht => sarConversionResult_counts hon hw ht hf,
    fun _ _ s h => exec_of_effect rfl (Dev.sarResult_idle (d := s.fresh) h),
    fun _ _ => sinc2Decision_flips,
    fun _ _ => sinc2Decision_idle,
    fun _ _ => sdClockLost_declares,
    fun _ _ => sdClockLost_idle,
    fun _ _ => sdDataLost_declares,
    fun _ _ => sarBankFail_declares,
    fun _ _ _ => sarBankFail_idle,
    fun _ _ => channelRecover_sd,
    fun _ _ => channelRecover_sar⟩

end Sys2Proof.Machine
end

section
/-! PROOFS. Every row is one effect on the device, or stops as malformed where its operands contradict one another; the
queue, the invariant of every step (R438) and the state after reset. -/

namespace Sys2Proof.Machine

open Host

/-! ### What a row can do -/

/-- Every row checks that its operands agree, and is one effect on the device where they do. -/
theorem exec_eq_runIf (i : Instr) (s : State) : ∃ f : Dev → Dev, exec i s = s.runIf i.wf f := by
  cases i <;> exact ⟨_, rfl⟩

/-- Settles O5: the check of a row is `Instr.wf`, and nothing else stops it. -/
theorem wellFormedRowsAnswer : Obligations.WellFormedRowsAnswer := by
  intro i s
  obtain ⟨f, hf⟩ := exec_eq_runIf i s
  exact ⟨fun h => ⟨s.run f, by rw [hf, h]; rfl⟩, fun h => by rw [hf, h]; rfl⟩

/-! ### The invariant of every step -/

/-- One effect keeps the canonical form of host memory and leaves no posted write over. -/
theorem State.Safe.run {s : State} (h : s.Safe) (f : Dev → Dev) : (s.run f).Safe :=
  ⟨State.run_wf f h.1, State.run_out f s⟩

theorem State.Safe.exec {i : Instr} {s t : State} (h : s.Safe) (he : exec i s = .next t) :
    t.Safe ∧ t.pending = s.pending := by
  obtain ⟨f, hf⟩ := exec_eq_runIf i s
  obtain rfl := State.runIf_next (hf.symm.trans he)
  exact ⟨h.run f, rfl⟩

/-- Settles O1: the queue holds the command at its front. -/
theorem stepRunsFrontCommand : Obligations.StepRunsFrontCommand := fun _ _ _ => rfl

theorem step_of_pending_nil {s : State} (h : s.pending = []) : step s = .next s := by rw [step, h]

theorem step_of_pending_cons {s : State} {c : Instr} {rest : List Instr} (h : s.pending = c :: rest) :
    step s = Machine.exec c { s with pending := rest } := by rw [step, h]

/-- Settles O2: by the equation of the empty queue. -/
theorem emptyQueueIdles : Obligations.EmptyQueueIdles := fun _ => step_of_pending_nil

/-- Settles O3: an empty queue idles, and a command is one effect on the state with the queue's rest, which the invariant
does not see. -/
theorem stepKeepsSafe : Obligations.StepKeepsSafe := by
  intro s t hs ht
  cases hp : s.pending with
  | nil =>
    rw [step_of_pending_nil hp] at ht
    cases ht
    exact ⟨hs, hp⟩
  | cons c rest =>
    rw [step_of_pending_cons hp] at ht
    exact State.Safe.exec (s := { s with pending := rest }) hs ht

/-- Settles O4: nothing has been written to host memory, and nothing waits. -/
theorem resetIsSafe : Obligations.ResetIsSafe := ⟨⟨wf_reset, rfl⟩, rfl⟩

/-! ### NOP (R432) -/

/-- NOP names no inline parameters, so a set bit of theirs would be reserved. -/
theorem reservedSet_of_inl_zero {c : Cmd} (h : c.inl = 0) (mask : Nat) : c.reservedSet mask = false := by
  simp [Cmd.reservedSet, h]

/-- Settles O48: no step of R431 stops it, before READY either. -/
theorem nopCompletes : Obligations.NopCompletes := by
  intro c s hw hwait hfl hrs hlen hinl
  have hwait' : s.fresh.waits c 0x01 = false := hwait
  refine (State.runCmd_wf 0x01 0 _ s hw).trans (congrArg Outcome.next (congrArg s.after ?_))
  unfold Dev.command
  have hfields := not_or.mpr ⟨not_not.mpr hfl, not_or.mpr ⟨not_not.mpr hrs, not_lt.mpr hlen⟩⟩
  rw [if_neg (by simp [hwait']), if_neg hfields, if_neg (by simp),
    if_neg (by simp [reservedSet_of_inl_zero hinl])]

end Sys2Proof.Machine
end

section
/-! PROOFS. Descriptors, completions and events on their rings (R417–R425, R440, R537), and skipped telemetry (R441). -/

namespace Sys2Proof.Machine

open Host

/-! ### What a descriptor posts -/

/-- A posted write of four bytes that follows a descriptor of ring `r`: its shadow dword, or the message of a vector (R421,
R445). -/
def Dev.Follows (d : Dev) (r : Nat) (w : Nat × List Byte) : Prop :=
  w.2.length = 4 ∧ (w.1 = d.shadowBase + 4 * r ∨ ∃ v, w.1 = (d.vec v).addr.toNat)

section
variable (d : Dev)

theorem length_leBytes (n v : Nat) : (leBytes n v).length = n := by
  induction n generalizing v with
  | zero => rfl
  | succ n ih => simp [leBytes, ih]

theorem Dev.irq_out (n : Nat) : (d.irq n).host.out = d.host.out ∨
    (d.irq n).host.out = d.host.out ++ [((d.vec n).addr.toNat, leBytes 4 (d.vec n).data.toNat)] := by
  unfold Dev.irq
  extract_lets e x held
  have hout : e.host = d.host := by unfold e; split <;> rfl
  have hvec : x = d.vec n := congrArg (fun h : HostState => h.msix.get MsixVec.reset n) hout
  have hset : (e.setVec n { x with pending := true }).host.out = d.host.out := (congrArg HostState.out hout :)
  have hsend : (e.sendMsi n).host.out = d.host.out ++ [((d.vec n).addr.toNat, leBytes 4 (d.vec n).data.toNat)] := by
    rw [Dev.out_sendMsi, show e.vec n = d.vec n from hvec, hout]
  split
  · exact .inl hset
  · exact .inr hsend

theorem Dev.shadow_vec (r v k : Nat) : (d.shadow r v).vec k = d.vec k := by
  rw [Dev.shadow_eq]
  split <;> rfl

theorem Dev.shadow_out (r v : Nat) : (d.shadow r v).host.out = d.host.out ∨
    (d.shadow r v).host.out = d.host.out ++ [(d.shadowBase + 4 * r, leBytes 4 v)] := by
  rw [Dev.shadow_eq]
  split
  · exact .inl rfl
  · exact .inr rfl

/-- A descriptor is two writes, bytes 4–31 and then bytes 0–3 with the phase bit, and what follows it (R417, R420). -/
theorem Dev.putDesc_out (r src : Nat) (bs : List Byte) : ∃ later, (d.putDesc r src bs).host.out = d.host.out ++
      (d.ringBase r + 32 * (d.ring r).prod + 4, slice bs 4 28) ::
      (d.ringBase r + 32 * (d.ring r).prod,
        slice bs 0 3 ++ (slice bs 3 1).map fun b => b ||| (if (d.ring r).phase then 0x80 else 0)) :: later ∧
    ∀ w ∈ later, d.Follows r w := by
  unfold Dev.putDesc
  extract_lets g a b3 p g'
  generalize hx : ((d.post (a + 4) (slice bs 4 28)).post a (slice bs 0 3 ++ b3)).setRing r g' = x
  have hout : x.host.out = d.host.out ++ [(a + 4, slice bs 4 28), (a, slice bs 0 3 ++ b3)] := by
    rw [← hx]
    exact List.append_assoc ..
  have hbase : x.shadowBase = d.shadowBase := by rw [← hx]; rfl
  have hvec (v : Nat) : x.vec v = d.vec v := by rw [← hx]; rfl
  have hshadow : d.Follows r (x.shadowBase + 4 * r, leBytes 4 p) := ⟨length_leBytes .., .inl (by rw [hbase])⟩
  have hmsg : d.Follows r (((x.shadow r p).vec src).addr.toNat, leBytes 4 ((x.shadow r p).vec src).data.toNat) :=
    ⟨length_leBytes .., .inr ⟨src, by rw [Dev.shadow_vec, hvec]⟩⟩
  rcases x.shadow_out r p with hs | hs <;> rcases (x.shadow r p).irq_out src with hi | hi <;> rw [hi, hs, hout]
  · exact ⟨[], rfl, by simp⟩
  · exact ⟨_, List.append_assoc .., by simpa using hmsg⟩
  · exact ⟨_, List.append_assoc .., by simpa using hshadow⟩
  · exact ⟨_, by simp only [List.append_assoc]; rfl, by simpa using ⟨hshadow, hmsg⟩⟩

/-- The producer advances, and at the wrap the phase is inverted (R417). -/
theorem Dev.putDesc_ring (r src : Nat) (bs : List Byte) : (d.putDesc r src bs).ring r = { d.ring r with
    prod := ((d.ring r).prod + 1) % d.ringSize r
    phase := if ((d.ring r).prod + 1) % d.ringSize r = 0 then !(d.ring r).phase else (d.ring r).phase } := by
  unfold Dev.putDesc
  dsimp only
  rw [Dev.irq_ring, Dev.shadow_ring, Dev.ring_setRing_self]

end

/-- A source below 32 leaves its bit in HOST_IRQ_STAT_L (R444). -/
theorem Dev.irq_stands_low {n : Nat} (hn : n < 32) (d : Dev) :
    (d.irq n).stands Reg.HOST_IRQ_STAT_L (BitVec.ofNat 32 (2 ^ n)) := by
  simpa only [hn, if_true] using Dev.irq_stands n d

/-! ### Completions (R424) -/

section
variable {ring slot tag op st bytes : Nat} {res : List Nat} {d : Dev}

/-- Source 63 fires after some statuses (R444). -/
def Dev.errorFired (st : Nat) (d : Dev) : Dev :=
  if decide (st = 1 ∨ st = 2 ∨ st = 5 ∨ st = 7) then d.irq 63 else d

theorem Dev.errorFired_ring (q : Nat) (e : Dev) : (e.errorFired st).ring q = e.ring q := by
  unfold Dev.errorFired
  split
  · exact e.irq_ring 63
  · rfl

theorem Dev.errorFired_rings (e : Dev) : (e.errorFired st).host.rings = e.host.rings := by
  unfold Dev.errorFired Dev.irq
  dsimp only
  split
  · split <;> split <;> split <;> rfl
  · rfl

theorem Dev.errorFired_out (e : Dev) : ∃ later, (e.errorFired st).host.out = e.host.out ++ later := by
  unfold Dev.errorFired
  split
  · rcases e.irq_out 63 with h | h
    · exact ⟨[], by rw [h, List.append_nil]⟩
    · exact ⟨_, h⟩
  · exact ⟨[], (List.append_nil _).symm⟩

theorem Dev.touches_errorFired (e : Dev) : Dev.Touches [.events, .reports] e (e.errorFired st) :=
  .mono (.ite (e.touches_irq 63) .refl) (by decide)

theorem Dev.errorFired_cplLostCnt (e : Dev) : (e.errorFired st).host.cplLostCnt = e.host.cplLostCnt := by
  obtain ⟨-, -, -, h, -⟩ : Part.commands.same e (e.errorFired st) := e.touches_errorFired.same .commands (by decide)
  exact h.symm

theorem Dev.completeAs_eq : d.completeAs ring slot tag op st bytes res = Dev.errorFired st
    (if (d.host.inflight.find? (inFlightOf ring slot tag)).any (·.dropped) then d.commandEnded ring slot tag st
    else if (d.host.inflight.find? (inFlightOf ring slot tag)).any (·.lost) = true ∨ d.ringRoom (4 + ring) = 0 then
      ((d.commandEnded ring slot tag st).onHost fun h => { h with cplLostCnt := satInc h.cplLostCnt }).event 2 4 ring tag 0
    else (d.commandEnded ring slot tag st).putDesc (4 + ring) ring
      (completionDesc st tag op slot bytes d.ang.cur.sn res)) := rfl

/-- A completion that a memory error has discarded is only counted (R531). -/
theorem Dev.completeAs_dropped (h : (d.host.inflight.find? (inFlightOf ring slot tag)).any (·.dropped) = true) :
    d.completeAs ring slot tag op st bytes res = (d.commandEnded ring slot tag st).errorFired st := by
  rw [Dev.completeAs_eq, if_pos h]

/-- One that is lost, or finds no room, is discarded and reported (R412, R414). -/
theorem Dev.completeAs_lost (hd : (d.host.inflight.find? (inFlightOf ring slot tag)).any (·.dropped) = false)
    (h : (d.host.inflight.find? (inFlightOf ring slot tag)).any (·.lost) = true ∨ d.ringRoom (4 + ring) = 0) :
    d.completeAs ring slot tag op st bytes res = (((d.commandEnded ring slot tag st).onHost fun h =>
      { h with cplLostCnt := satInc h.cplLostCnt }).event 2 4 ring tag 0).errorFired st := by
  rw [Dev.completeAs_eq, if_neg (ne_true_of_eq_false hd), if_pos h]

/-- Any other is written to its ring (R424). -/
theorem Dev.completeAs_written (hd : (d.host.inflight.find? (inFlightOf ring slot tag)).any (·.dropped) = false)
    (hl : (d.host.inflight.find? (inFlightOf ring slot tag)).any (·.lost) = false) (hroom : d.ringRoom (4 + ring) ≠ 0) :
    d.completeAs ring slot tag op st bytes res = ((d.commandEnded ring slot tag st).putDesc (4 + ring) ring
      (completionDesc st tag op slot bytes d.ang.cur.sn res)).errorFired st := by
  rw [Dev.completeAs_eq, if_neg (ne_true_of_eq_false hd), if_neg (not_or.mpr ⟨ne_true_of_eq_false hl, hroom⟩)]

/-- No entry of the list for the command is marked. -/
theorem find_any_false {p : InFlight → Bool} (h : ∀ f ∈ d.host.inflight, inFlightOf ring slot tag f = true → p f = false) :
    (d.host.inflight.find? (inFlightOf ring slot tag)).any p = false := by
  cases hf : d.host.inflight.find? (inFlightOf ring slot tag) with
  | none => rfl
  | some f => exact h f (List.mem_of_find?_eq_some hf) (List.find?_some hf)

end

/-- Bytes 0–3 of a completion descriptor with the phase bit. -/
theorem completionDesc_head (st tag op slot bytes : Nat) (sn : W32) (res : List Nat) (p : Bool) :
    slice (completionDesc st tag op slot bytes sn res) 0 3 ++
      ((slice (completionDesc st tag op slot bytes sn res) 3 1).map fun b => b ||| (if p then 0x80 else 0)) =
    leBytes 2 0x0101 ++ leBytes 1 st ++ [if p then 0x80 else 0] := by
  cases p <;> rfl

/-- Bytes 0–3 of an event descriptor with the phase bit. -/
theorem eventDesc_head (blk bit : Nat) (k : Coal) (p : Bool) :
    slice (eventDesc blk bit k false) 0 3 ++
      ((slice (eventDesc blk bit k false) 3 1).map fun b => b ||| (if p then 0x80 else 0)) =
    leBytes 2 0x0401 ++ [0, if p then 0x80 else 0] := by
  cases p <;> rfl

section
variable (ring slot tag op st bytes : Nat) (res : List Nat) (d : Dev)

/-- A completion that is written (R417, R420, R424, R444). -/
theorem Dev.completeAs_posts (hring : ring < 4)
    (h : ∀ f ∈ d.host.inflight, inFlightOf ring slot tag f = true → f.lost = false ∧ f.dropped = false)
    (hroom : d.ringRoom (4 + ring) ≠ 0) :
    (d.completeAs ring slot tag op st bytes res).stands Reg.HOST_IRQ_STAT_L (BitVec.ofNat 32 (2 ^ ring)) ∧
    (d.completeAs ring slot tag op st bytes res).ring (4 + ring) = Sys2Proof.Ring.mk
      (((d.ring (4 + ring)).prod + 1) % d.ringSize (4 + ring)) (d.ring (4 + ring)).cons
      (if ((d.ring (4 + ring)).prod + 1) % d.ringSize (4 + ring) = 0 then !(d.ring (4 + ring)).phase
        else (d.ring (4 + ring)).phase) (d.ring (4 + ring)).doorbell ∧
    ∃ later, (d.completeAs ring slot tag op st bytes res).host.out = d.host.out ++
      (d.ringBase (4 + ring) + 32 * (d.ring (4 + ring)).prod + 4,
        slice (completionDesc st tag op slot bytes d.ang.cur.sn res) 4 28) ::
      (d.ringBase (4 + ring) + 32 * (d.ring (4 + ring)).prod,
        leBytes 2 0x0101 ++ leBytes 1 st ++ [if (d.ring (4 + ring)).phase then 0x80 else 0]) :: later := by
  rw [Dev.completeAs_written (find_any_false fun f hf hp => (h f hf hp).2) (find_any_false fun f hf hp => (h f hf hp).1)
    hroom]
  generalize hx : d.commandEnded ring slot tag st = x
  have hr : x.ring (4 + ring) = d.ring (4 + ring) := by rw [← hx]; rfl
  refine ⟨?_, ?_, ?_⟩
  · refine (Dev.touches_errorFired _).grows _ _ ?_
    exact Dev.irq_stands_low (by omega) _
  · rw [Dev.errorFired_ring, Dev.putDesc_ring, hr, ← hx]
    rfl
  · obtain ⟨l₁, h₁, -⟩ := x.putDesc_out (4 + ring) ring (completionDesc st tag op slot bytes d.ang.cur.sn res)
    obtain ⟨l₂, h₂⟩ := Dev.errorFired_out (st := st)
      (x.putDesc (4 + ring) ring (completionDesc st tag op slot bytes d.ang.cur.sn res))
    refine ⟨l₁ ++ l₂, ?_⟩
    rw [h₂, h₁, completionDesc_head, hr, ← hx, List.append_assoc]
    rfl

theorem Dev.completeAs_drops (h : (d.host.inflight.find? (inFlightOf ring slot tag)).any (·.dropped) = true) :
    (d.completeAs ring slot tag op st bytes res).host.cplLostCnt = d.host.cplLostCnt ∧
    (d.completeAs ring slot tag op st bytes res).host.rings = d.host.rings := by
  rw [Dev.completeAs_dropped h, Dev.errorFired_cplLostCnt, Dev.errorFired_rings]
  exact ⟨rfl, rfl⟩

theorem Dev.completeAs_loses (hring : ring < 4)
    (hd : (d.host.inflight.find? (inFlightOf ring slot tag)).any (·.dropped) = false)
    (h : (d.host.inflight.find? (inFlightOf ring slot tag)).any (·.lost) = true ∨ d.ringRoom (4 + ring) = 0) :
    (d.completeAs ring slot tag op st bytes res).host.cplLostCnt = satInc d.host.cplLostCnt ∧
    (d.completeAs ring slot tag op st bytes res).stands Reg.HOST_EVENT 16 ∧
    (d.completeAs ring slot tag op st bytes res).ring (4 + ring) = d.ring (4 + ring) := by
  rw [Dev.completeAs_lost hd h, Dev.errorFired_cplLostCnt, Dev.errorFired_ring, Dev.event_host_cplLostCnt]
  refine ⟨rfl, (Dev.touches_errorFired _).grows _ _ (Dev.event_stands 2 4 ring tag 0 _), ?_⟩
  have hblk := Dev.sixteen_le_eventRing ((d.commandEnded ring slot tag st).onHost fun h =>
    { h with cplLostCnt := satInc h.cplLostCnt }) 2
  exact (Dev.fills_event ..).others _ (by omega)

end

/-! ### Events (R425, R440, R537) -/

section
variable (blk bit d0 d1 d2 : Nat) (d : Dev)

theorem Dev.event_posts (hroom : d.ringRoom (d.eventRing blk) ≠ 0) (hcoal : d.coalPending (d.eventRing blk) = false) :
    ((d.event blk bit d0 d1 d2).ring (d.eventRing blk)).prod =
      ((d.ring (d.eventRing blk)).prod + 1) % d.ringSize (d.eventRing blk) ∧
    ∃ later, (d.event blk bit d0 d1 d2).host.out = d.host.out ++
      (d.ringBase (d.eventRing blk) + 32 * (d.ring (d.eventRing blk)).prod + 4,
        slice (eventDesc blk bit (Coal.mk 1 d.ang.cur.sn d.secOfs d0 d1 d2) false) 4 28) ::
      (d.ringBase (d.eventRing blk) + 32 * (d.ring (d.eventRing blk)).prod,
        leBytes 2 0x0401 ++ [0, if (d.ring (d.eventRing blk)).phase then 0x80 else 0]) :: later := by
  have heq : d.event blk bit d0 d1 d2 = (d.setBit (eventReg blk d0) bit).putDesc (d.eventRing blk)
      (12 + (d.eventRing blk - 16)) (eventDesc blk bit (Coal.mk 1 d.ang.cur.sn d.secOfs d0 d1 d2) false) :=
    if_neg (not_or.mpr ⟨hroom, ne_true_of_eq_false hcoal⟩)
  rw [heq, Dev.putDesc_ring]
  refine ⟨rfl, ?_⟩
  obtain ⟨later, h, -⟩ := (d.setBit (eventReg blk d0) bit).putDesc_out (d.eventRing blk) (12 + (d.eventRing blk - 16))
    (eventDesc blk bit (Coal.mk 1 d.ang.cur.sn d.secOfs d0 d1 d2) false)
  exact ⟨later, by rw [h, eventDesc_head]; rfl⟩

theorem Dev.event_coalesces (h : d.ringRoom (d.eventRing blk) = 0 ∨ d.coalPending (d.eventRing blk) = true) :
    (d.event blk bit d0 d1 d2).host.coal.get Coal.reset (32 * blk + bit) = Coal.mk
      ((d.host.coal.get Coal.reset (32 * blk + bit)).count + 1) d.ang.cur.sn d.secOfs d0 d1 d2 ∧
    (d.event blk bit d0 d1 d2).host.out = d.host.out ∧
    (d.event blk bit d0 d1 d2).host.coalCnt =
      if (d.host.coal.get Coal.reset (32 * blk + bit)).count = 0 then d.host.coalCnt else satInc d.host.coalCnt := by
  have heq : d.event blk bit d0 d1 d2 = (d.setBit (eventReg blk d0) bit).onHost fun h => { h with
      coal := h.coal.set Coal.reset (32 * blk + bit) (Coal.mk ((d.host.coal.get Coal.reset (32 * blk + bit)).count + 1)
        d.ang.cur.sn d.secOfs d0 d1 d2)
      coalCnt := if (d.host.coal.get Coal.reset (32 * blk + bit)).count = 0 then h.coalCnt else satInc h.coalCnt } :=
    if_pos h
  rw [heq]
  exact ⟨SMap.get_set_self .., rfl, rfl⟩

end

/-- Settles O47: a completion is written, lost or dropped, and an event is posted or coalesced. -/
theorem completionsAndEventsAreReported : Obligations.CompletionsAndEventsAreReported := by
  refine ⟨fun ring slot tag op st bytes res d hring => ?_, fun blk bit d0 d1 d2 d _ => ?_⟩
  · have hkept := d.keepsCommands_completeAs ring slot tag op st bytes res
    refine ⟨hkept.cmdCnt, ?_, hkept.inflight, (Dev.keeps_completeAs ..).mono (by simp),
      Dev.completeAs_posts ring slot tag op st bytes res d hring, Dev.completeAs_drops ring slot tag op st bytes res d,
      Dev.completeAs_loses ring slot tag op st bytes res d hring⟩
    rw [hkept.cmdErrCnt]
    simp only [Dev.commandEnded, Dev.onHost, decide_eq_true_eq]
  · exact ⟨Dev.event_stands .., Dev.keeps_event .., Dev.event_posts blk bit d0 d1 d2 d,
      Dev.event_coalesces blk bit d0 d1 d2 d⟩

/-! ### Telemetry (R441) -/

section
variable (k : Nat) (sn : W32) (d : Dev)

theorem Dev.tel_event (blk bit d0 d1 d2 : Nat) : (d.event blk bit d0 d1 d2).tel k = d.tel k := by
  rw [Dev.tel, Dev.event_host_tel, Dev.tel]

theorem Dev.tel_putDesc (r src : Nat) (bs : List Byte) : (d.putDesc r src bs).tel k = d.tel k := by
  rw [Dev.tel, Dev.putDesc_host_tel, Dev.tel]

theorem Dev.tel_setTel (v : Telemetry) : (d.setTel k v).tel k = v := SMap.get_set_self ..

theorem Dev.telSnapshot_skips (h : d.ringRoom (24 + (d.tel k).ring) = 0) :
    (d.telSnapshot k sn).host.telSkipCnt = satInc d.host.telSkipCnt ∧
    ((d.telSnapshot k sn).tel k).skip = (d.tel k).skip + 1 := by
  unfold Dev.telSnapshot
  extract_lets x seq addr y e r
  rw [if_pos (show e.ringRoom r = 0 from h), Dev.event_host_telSkipCnt, Dev.tel_event]
  exact ⟨rfl, congrArg Telemetry.skip (Dev.tel_setTel k e { y with skip := x.skip + 1 })⟩

theorem Dev.telSnapshot_reports (h : d.ringRoom (24 + (d.tel k).ring) ≠ 0) : ∃ (e : Dev) (desc : List Byte),
    d.telSnapshot k sn = e.putDesc (24 + (d.tel k).ring) (20 + (d.tel k).ring) desc ∧
    slice desc 28 4 = leBytes 4 (d.tel k).skip ∧ ((d.telSnapshot k sn).tel k).skip = 0 := by
  unfold Dev.telSnapshot
  extract_lets x seq addr y e r desc
  rw [if_neg (show e.ringRoom r ≠ 0 from h), Dev.tel_putDesc]
  exact ⟨_, desc, rfl, rfl, congrArg Telemetry.skip (Dev.tel_setTel k e { y with skip := 0 })⟩

end

/-- Settles O49: by whether the subscription's ring has room. -/
theorem skippedTelemetryIsReported : Obligations.SkippedTelemetryIsReported :=
  fun k sn d => ⟨d.telSnapshot_skips k sn, d.telSnapshot_reports k sn⟩

end Sys2Proof.Machine
end

section
/-! PROOFS. CLK: what the shared operations of clock synthesis leave of its state, and which events they set (R345–R350,
R355). -/

namespace Sys2Proof.Machine

open Host

/-! ### Shared operations -/

section
variable (d : Dev)

theorem Dev.touches_clkEvent (bit : Nat) (e : Option Int) : Dev.Touches [.events, .reports] d (d.clkEvent bit e) :=
  d.touches_event ..

@[simp] theorem Dev.clkEvent_clk (bit : Nat) (e : Option Int) : (d.clkEvent bit e).clk = d.clk := Dev.event_clk ..

theorem Dev.clkEvent_cmdCnt (bit : Nat) (e : Option Int) : (d.clkEvent bit e).host.cmdCnt = d.host.cmdCnt :=
  (Dev.keepsCommands_event d ..).cmdCnt

theorem Dev.clkEvent_stands (bit : Nat) (e : Option Int) :
    (d.clkEvent bit e).stands Reg.CLK_EVENT (BitVec.ofNat 32 (2 ^ bit)) := Dev.event_stands 1 ..

@[simp] theorem Dev.completeAs_clk (ring slot tag op st bytes : Nat) (res : List Nat) :
    (d.completeAs ring slot tag op st bytes res).clk = d.clk :=
  ((d.touches_completeAs ring slot tag op st bytes res).same .clk (by decide)).symm

/-- Completions in a row leave the clock as it is. -/
theorem Dev.foldl_completeAs_clk (st : Nat) (l : List OpenTime) :
    (l.foldl (fun d o => d.completeAs o.ring o.slot o.tag 0xC0 st 0 []) d).clk = d.clk := by
  induction l generalizing d with
  | nil => rfl
  | cons o rest ih => exact (ih _).trans (d.completeAs_clk ..)

/-- No TIME_SET stays open (R347). -/
@[simp] theorem Dev.closeTime_clk (st : Nat) : (d.closeTime st).clk = { d.clk with openCmds := [] } :=
  Dev.foldl_completeAs_clk _ st d.clk.openCmds

/-- The one TIME_SET that is open completes (R347). -/
theorem Dev.closeTime_one (st : Nat) {o : OpenTime} (h : d.clk.openCmds = [o]) :
    (d.closeTime st).host.cmdCnt = satInc d.host.cmdCnt := by
  rw [Dev.closeTime, h]
  exact (Dev.keepsCommands_completeAs _ _ _ _ _ _ _ _).cmdCnt

@[simp] theorem Dev.dropTime_clk : d.dropTime.clk = { d.clk with openCmds := [] } := by
  unfold Dev.dropTime
  split
  · rename_i h
    rw [← h]
  · exact Dev.closeTime_clk ..

theorem Dev.dropTime_of_none (h : d.clk.openCmds = []) : d.dropTime = d := if_pos h

@[simp] theorem Dev.endSteps_clk : d.endSteps.clk = { d.clk with stepCnt := d.phaseSteps, steps := none } := rfl

@[simp] theorem Dev.startSteps_clk (per : Nat) (n : Int) : (d.startSteps per n).clk = { d.clk with
    stepCnt := d.phaseSteps, steps := some (PhaseRun.mk d.now per n (decide (per = perStep))) } := rfl

/-! ### Holdover (R345) -/

/-- What holdover leaves of the clock. -/
def Dev.heldOver (d : Dev) : ClkState := { d.clk with
  state := .holdover, holdCnt := satInc d.clk.holdCnt, openCmds := [], stepCnt := d.phaseSteps, steps := none }

/-- A PLL that is locked or pulls, or has a jump pending, goes into holdover. -/
def Dev.holds (d : Dev) : Prop := d.clk.state = .locked ∨ d.clk.state = .pulling ∨ d.clk.state = .jumpPending

/-- Holdover before the open commands are cut short. -/
def Dev.holdoverNoted (d : Dev) : Dev :=
  ((d.endSteps.onClk fun c => { c with state := .holdover, holdCnt := satInc c.holdCnt }).clkEvent 1 none).irq 46

theorem Dev.holdover_of_holds (h : d.holds) : d.holdover = d.holdoverNoted.dropTime := by
  unfold Dev.holdover
  rcases h with h | h | h <;> rw [h] <;> rfl

theorem Dev.holdover_of_not (h : ¬ d.holds) : d.holdover = d := by
  unfold Dev.holdover
  split
  · exact absurd (.inl ‹_›) h
  · exact absurd (.inr (.inl ‹_›)) h
  · exact absurd (.inr (.inr ‹_›)) h
  · rfl

theorem Dev.touches_holdoverNoted : Dev.Touches [.clk, .events, .reports] d d.holdoverNoted :=
  .mono (((d.touches_endSteps.andThen (Dev.touches_onClk ..)).andThen (Dev.touches_clkEvent ..)).andThen
    (Dev.touches_irq ..)) (by decide)

theorem Dev.holdoverNoted_clk : d.holdoverNoted.clk = { d.clk with
    state := .holdover, holdCnt := satInc d.clk.holdCnt, stepCnt := d.phaseSteps, steps := none } := by
  simp [Dev.holdoverNoted]

variable {d}

theorem Dev.holdover_clk (h : d.holds) : d.holdover.clk = d.heldOver := by
  rw [Dev.holdover_of_holds _ h, Dev.dropTime_clk, Dev.holdoverNoted_clk]
  rfl

theorem Dev.touches_holdover (h : d.holds) :
    Dev.Touches [.clk, .events, .reports, .commands, .free] d d.holdover := by
  rw [Dev.holdover_of_holds _ h]
  exact .mono (d.touches_holdoverNoted.andThen (Dev.touches_dropTime _)) (by decide)

/-- Without open commands nothing completes. -/
theorem Dev.touches_holdover_of_none (h : d.holds) (ho : d.clk.openCmds = []) :
    Dev.Touches [.clk, .events, .reports] d d.holdover := by
  rw [Dev.holdover_of_holds _ h, Dev.dropTime_of_none _ (by rw [Dev.holdoverNoted_clk]; exact ho)]
  exact d.touches_holdoverNoted

theorem Dev.holdover_stands (h : d.holds) : d.holdover.stands Reg.CLK_EVENT 2 := by
  rw [Dev.holdover_of_holds _ h]
  exact (Dev.touches_dropTime _).grows _ _ ((Dev.touches_irq ..).grows _ _ (Dev.clkEvent_stands _ 1 none))

theorem Dev.grows_holdover : d.Grows d.holdover := by
  by_cases h : d.holds
  · exact (Dev.touches_holdover h).grows
  · rw [Dev.holdover_of_not _ h]
    exact .refl _

theorem Dev.holdover_refOk : d.holdover.clk.refOk = d.clk.refOk := by
  by_cases h : d.holds
  · rw [Dev.holdover_clk h]
    rfl
  · rw [Dev.holdover_of_not _ h]

end

end Sys2Proof.Machine
end

section
/-! PROOFS. The rows of lock and reference (R339–R346). -/

namespace Sys2Proof.Machine

open Host

theorem Answers.of_effect {i : Instr} {s : State} {f : Dev → Dev} {P : State → Prop}
    (hi : exec i s = .next (s.run f)) (h : P (s.after (f s.fresh))) : Answers i s P :=
  ⟨_, exec_of_effect hi rfl, h⟩

section
variable {d : Dev}

/-! ### The reference is lost, or a window is outside -/

/-- REF_LOST before holdover. -/
def Dev.refGone (d : Dev) : Dev := (d.onClk fun c => { c with refOk := false }).clkEvent 2 none

theorem Dev.refLost_of_good (h : d.clk.refOk = true) : d.refLost = d.refGone.holdover := if_neg (by simp [h])

theorem Dev.refLost_of_lost (h : d.clk.refOk = false) : d.refLost = d := if_pos (by simp [h])

theorem Dev.touches_refGone : Dev.Touches [.clk, .events, .reports] d d.refGone :=
  (d.touches_onClk _).andThen (Dev.touches_clkEvent ..)

theorem Dev.refGone_clk : d.refGone.clk = { d.clk with refOk := false } := Dev.clkEvent_clk ..

theorem Dev.refGone_holds : d.refGone.holds ↔ d.holds := by rw [Dev.holds, Dev.refGone_clk]; rfl

theorem Dev.refGone_phaseSteps : d.refGone.phaseSteps = d.phaseSteps := by
  rw [Dev.phaseSteps, Dev.removed, Dev.refGone_clk, Dev.now, ← Dev.touches_refGone.tick]
  rfl

theorem Dev.refLost_clk_of_holds (h : d.clk.refOk = true) (hh : d.holds) :
    d.refLost.clk = { d.heldOver with refOk := false } := by
  rw [Dev.refLost_of_good h, Dev.holdover_clk (Dev.refGone_holds.2 hh), Dev.heldOver, Dev.refGone_phaseSteps,
    Dev.refGone_clk]
  rfl

theorem Dev.refLost_of_not_holds (h : d.clk.refOk = true) (hh : ¬ d.holds) : d.refLost = d.refGone := by
  rw [Dev.refLost_of_good h, Dev.holdover_of_not _ (mt Dev.refGone_holds.1 hh)]

theorem Dev.refLost_stands (h : d.clk.refOk = true) : d.refLost.stands Reg.CLK_EVENT 4 := by
  rw [Dev.refLost_of_good h]
  exact Dev.grows_holdover _ _ (Dev.clkEvent_stands _ 2 none)

theorem Dev.windowOutside_of_inside (h : d.clk.refOk = false ∨ (d.clk.state ≠ .locked ∧ d.clk.state ≠ .pulling)) :
    d.windowOutside = d :=
  if_neg (by rintro ⟨hr, hs⟩; simp_all)

/-! ### A measured error, and the reference that returns -/

theorem Dev.measured_near (e : Int) (j : JumpSource) (h : e.natAbs ≤ units2ns) : (d.measured e j).clk = { d.clk with
    phaseErr := e, jump := j, state := .pulling, stepCnt := d.phaseSteps
    steps := some (PhaseRun.mk d.now 3200 e false) } := by
  rw [Dev.measured, if_pos h, Dev.startSteps_clk]
  rfl

theorem Dev.measured_far (e : Int) (j : JumpSource) (h : units2ns < e.natAbs) : (d.measured e j).clk = { d.clk with
    phaseErr := e, jump := j, state := .jumpPending, stepCnt := d.phaseSteps, steps := none } ∧
    (d.measured e j).stands Reg.CLK_EVENT 16 := by
  rw [Dev.measured, if_neg (Nat.not_le.2 h), Dev.irq_clk, Dev.clkEvent_clk]
  exact ⟨rfl, (Dev.touches_irq ..).grows _ _ (Dev.clkEvent_stands _ 4 _)⟩

variable (d) in
theorem Dev.touches_measured (e : Int) (j : JumpSource) : Dev.Touches [.clk, .events, .reports] d (d.measured e j) :=
  .mono ((d.touches_onClk _).andThen (.ite ((Dev.touches_onClk _ _).andThen (Dev.touches_startSteps ..))
    ((((Dev.touches_endSteps _).andThen (Dev.touches_onClk ..)).andThen (Dev.touches_clkEvent ..)).andThen
      (Dev.touches_irq ..)))) (by decide)

/-- REF_BACK before the error is measured. -/
def Dev.refGood (e : Int) (d : Dev) : Dev := (d.onClk fun c => { c with refOk := true }).clkEvent 3 (some e)

theorem Dev.touches_refGood (e : Int) : Dev.Touches [.clk, .events, .reports] d (d.refGood e) :=
  (d.touches_onClk _).andThen (Dev.touches_clkEvent ..)

theorem Dev.refGood_clk (e : Int) : (d.refGood e).clk = { d.clk with refOk := true } := Dev.clkEvent_clk ..

theorem Dev.refGood_phaseSteps (e : Int) : (d.refGood e).phaseSteps = d.phaseSteps := by
  rw [Dev.phaseSteps, Dev.removed, Dev.refGood_clk, Dev.now, ← (Dev.touches_refGood e).tick]
  rfl

theorem Dev.refBack_of_good (e : Int) (h : d.clk.refOk = true) (hs : d.clk.state ≠ .holdover) : d.refBack e = d :=
  if_pos ⟨h, hs⟩

theorem Dev.refBack_eq (e : Int) (h : d.clk.refOk = false ∨ d.clk.state = .holdover) :
    d.refBack e = if d.clk.state = .holdover then (d.refGood e).measured e .ref else d.refGood e := by
  rw [Dev.refBack, if_neg (by rcases h with h | h <;> simp [h])]
  change (if (d.refGood e).clk.state = .holdover then (d.refGood e).measured e .ref else d.refGood e) = _
  rw [Dev.refGood_clk]

/-! ### Lock, its failure and its retry -/

theorem Dev.pllLock_of_not (b : Nat) (h : d.clk.state ≠ .search ∨ d.clk.refOk = false) : d.pllLock b = d :=
  if_pos (by simpa using h)

/-- Lock is declared on a band. -/
def Dev.lockedOn (b : Nat) (d : Dev) : Dev := d.onClk fun c => { c with
  state := .locked, band := b, lockCnt := satInc c.lockCnt, trim := 0
  seed := d.fld Reg.CLK_CFG 12 8, lockTick := d.now }

theorem Dev.pllLock_of_search (b : Nat) (hs : d.clk.state = .search) (h : d.clk.refOk = true) :
    d.pllLock b = (d.lockedOn b).clkEvent 0 none := if_neg (by simp [hs, h])

theorem Dev.lockFail_of_not (h : d.clk.state ≠ .search ∨ d.now < d.clk.lockStart + 2 * msTicks) : d.lockFail = d :=
  if_pos h

theorem Dev.clkMove_of_locked (hf : d.clk.fallback = true) (hs : d.clk.state = .locked)
    (ht : d.clk.lockTick + 256 ≤ d.now) : d.clkMove = (d.onClk fun c => { c with fallback := false }).clockLockEnd :=
  if_pos ⟨hf, by simp [hs], by simp [hs], ht⟩

theorem Dev.clkMove_early (h : d.now < d.clk.lockTick + 256) : d.clkMove = d := if_neg (by omega)

end

/-! ### The rows -/

theorem refLost_gives {s : State} (h : s.dev.clk.refOk = true) : Answers .refLost s fun t =>
    t.dev.clk.refOk = false ∧ t.dev.stands Reg.CLK_EVENT 4 ∧
    (s.dev.holds → t.dev.clk = { s.dev.heldOver with refOk := false } ∧ t.dev.stands Reg.CLK_EVENT 2) ∧
    (¬ s.dev.holds → t.dev.clk = { s.dev.clk with refOk := false } ∧ ChangesOnly [.clk, .events, .reports] s t) ∧
    (s.dev.clk.openCmds = [] → ChangesOnly [.clk, .events, .reports] s t) ∧
    ChangesOnly [.clk, .events, .reports, .commands, .free] s t := by
  have hg : s.fresh.clk.refOk = true := h
  have hgone : Dev.Touches [.clk, .events, .reports] s.fresh s.fresh.refGone := Dev.touches_refGone
  refine .of_effect rfl ?_
  by_cases hh : s.dev.holds
  · have hr : s.fresh.refGone.holds := Dev.refGone_holds.2 hh
    have hclk := Dev.refLost_clk_of_holds hg hh
    refine ⟨congrArg ClkState.refOk hclk, Dev.refLost_stands hg, fun _ => ⟨hclk, ?_⟩, (absurd hh ·),
      fun ho => .of_after ?_, .of_after ?_⟩ <;> rw [Dev.refLost_of_good hg]
    · exact Dev.holdover_stands hr
    · have ho' : s.fresh.refGone.clk.openCmds = [] := by rw [Dev.refGone_clk]; exact ho
      exact (hgone.andThen (Dev.touches_holdover_of_none hr ho')).keeps.mono (by decide)
    · exact (hgone.andThen (Dev.touches_holdover hr)).keeps.mono (by decide)
  · have heq := Dev.refLost_of_not_holds hg (d := s.fresh) hh
    have hclk : s.fresh.refLost.clk = { s.dev.clk with refOk := false } := heq ▸ Dev.refGone_clk
    have hkeep : ChangesOnly [.clk, .events, .reports] s (s.after s.fresh.refLost) := .of_after (heq ▸ hgone.keeps)
    exact ⟨congrArg ClkState.refOk hclk, Dev.refLost_stands hg, (absurd · hh), fun _ => ⟨hclk, hkeep⟩, fun _ => hkeep,
      hkeep.1.mono (by decide), hkeep.2⟩

theorem windowOutside_gives {s : State} (h : s.dev.clk.refOk = true)
    (hs : s.dev.clk.state = .locked ∨ s.dev.clk.state = .pulling) : Answers .lockWindowOutside s fun t =>
    t.dev.clk = s.dev.heldOver ∧ t.dev.stands Reg.CLK_EVENT 2 ∧
    (s.dev.clk.openCmds = [] → ChangesOnly [.clk, .events, .reports] s t) ∧
    ChangesOnly [.clk, .events, .reports, .commands, .free] s t := by
  have hh : s.fresh.holds := hs.imp_right .inl
  have heq : s.fresh.windowOutside = s.fresh.holdover := if_pos ⟨h, hs⟩
  exact ⟨_, exec_of_effect rfl heq, Dev.holdover_clk hh, Dev.holdover_stands hh,
    fun ho => .of_after (Dev.touches_holdover_of_none hh ho).keeps, .of_after (Dev.touches_holdover hh).keeps⟩

theorem refBack_gives (e : W32) {s : State} (h : s.dev.clk.refOk = false ∨ s.dev.clk.state = .holdover) :
    Answers (.refBack e) s fun t =>
    (s.dev.clk.state = .holdover → e.toInt.natAbs ≤ 409 → t.dev.clk = { s.dev.clk with
      refOk := true, phaseErr := e.toInt, jump := .ref, state := .pulling, stepCnt := s.dev.phaseSteps
      steps := some (PhaseRun.mk s.dev.now 3200 e.toInt false) }) ∧
    (s.dev.clk.state = .holdover → 409 < e.toInt.natAbs → t.dev.clk = { s.dev.clk with
      refOk := true, phaseErr := e.toInt, jump := .ref, state := .jumpPending, stepCnt := s.dev.phaseSteps
      steps := none } ∧ t.dev.stands Reg.CLK_EVENT 16) ∧
    (s.dev.clk.state ≠ .holdover → t.dev.clk = { s.dev.clk with refOk := true }) ∧
    t.dev.stands Reg.CLK_EVENT 8 ∧ ChangesOnly [.clk, .events, .reports] s t := by
  have hgood : Dev.Touches [.clk, .events, .reports] s.fresh (s.fresh.refGood e.toInt) := Dev.touches_refGood _
  have h8 : (s.fresh.refGood e.toInt).stands Reg.CLK_EVENT 8 := Dev.clkEvent_stands _ 3 _
  have hclk : (s.fresh.refGood e.toInt).clk = { s.dev.clk with refOk := true } := Dev.refGood_clk _
  have hsteps : (s.fresh.refGood e.toInt).phaseSteps = s.dev.phaseSteps := Dev.refGood_phaseSteps _
  have hnow : (s.fresh.refGood e.toInt).now = s.dev.now := hgood.tick.symm
  have heq := Dev.refBack_eq e.toInt (d := s.fresh) h
  by_cases hs : s.dev.clk.state = .holdover
  · replace heq := heq.trans (if_pos hs)
    have hm := Dev.touches_measured (s.fresh.refGood e.toInt) e.toInt .ref
    refine ⟨_, exec_of_effect rfl heq, fun _ hle => ?_, fun _ hlt => ?_, (absurd hs ·), hm.grows _ _ h8,
      .of_after ((hgood.andThen hm).keeps.mono (by decide))⟩
    · exact (Dev.measured_near _ _ hle).trans (by rw [hclk, hsteps, hnow])
    · obtain ⟨hfar, h16⟩ := Dev.measured_far (d := s.fresh.refGood e.toInt) _ .ref hlt
      exact ⟨hfar.trans (by rw [hclk, hsteps]), h16⟩
  · replace heq := heq.trans (if_neg hs)
    exact ⟨_, exec_of_effect rfl heq, (absurd · hs), (absurd · hs), fun _ => hclk, h8, .of_after hgood.keeps⟩

theorem pllLock_gives (b : Fin 16) {s : State} (hs : s.dev.clk.state = .search) (h : s.dev.clk.refOk = true) :
    Answers (.pllLock b) s fun t =>
    t.dev.clk = { s.dev.clk with
      state := .locked, band := b.val, lockCnt := satInc s.dev.clk.lockCnt, trim := 0
      seed := s.dev.fld Reg.CLK_CFG 12 8, lockTick := s.dev.now } ∧
    t.dev.stands Reg.CLK_EVENT 1 ∧ ChangesOnly [.clk, .events, .reports] s t := by
  have heq := Dev.pllLock_of_search b.val (d := s.fresh) hs h
  have hclk : (s.fresh.pllLock b.val).clk = (s.fresh.lockedOn b.val).clk := heq ▸ Dev.clkEvent_clk ..
  have hst : (s.fresh.pllLock b.val).stands Reg.CLK_EVENT 1 := heq ▸ Dev.clkEvent_stands _ 0 _
  have hkeep : Dev.Touches [.clk, .events, .reports] s.fresh (s.fresh.pllLock b.val) :=
    heq ▸ (s.fresh.touches_onClk _).andThen (Dev.touches_clkEvent ..)
  exact .of_effect rfl ⟨hclk, hst, .of_after hkeep.keeps⟩

theorem lockFail_gives {s : State} (hs : s.dev.clk.state = .search)
    (ht : s.dev.clk.lockStart + 2 * msTicks ≤ s.dev.now) : Answers .lockFail s fun t =>
    t.dev.clk = { s.dev.clk with state := .noLock, lockStart := s.dev.now } ∧ t.dev.stands Reg.CLK_EVENT 512 ∧
    ChangesOnly [.clk, .sec, .events, .reports] s t := by
  have heq : s.fresh.lockFail = ((s.fresh.onClk fun c => { c with
      state := .noLock, lockStart := s.dev.now }).clkEvent 9 none).clockLockEnd :=
    if_neg (by rintro (h | h); exacts [h hs, absurd ht (Nat.not_le.2 h)])
  have hend (d : Dev) : d.clockLockEnd.clk = d.clk := (d.touches_clockLockEnd.same .clk (by decide)).symm
  exact ⟨_, exec_of_effect rfl heq, (hend _).trans (Dev.clkEvent_clk ..),
    (Dev.touches_clockLockEnd _).grows _ _ (Dev.clkEvent_stands _ 9 _),
    .of_after ((((s.fresh.touches_onClk _).andThen (Dev.touches_clkEvent ..)).andThen
      (Dev.touches_clockLockEnd _)).keeps.mono (by decide))⟩

theorem lockRetry_gives {s : State} (hs : s.dev.clk.state = .noLock)
    (ht : s.dev.clk.lockStart + 100 * msTicks ≤ s.dev.now)
    (hidle : s.dev.gfm.mode = .off ∨ (s.dev.gfm.mode = .tripped ∧ s.dev.sup.acting = false)) :
    Answers .lockRetry s fun t =>
    t.dev.clk = { s.dev.clk with state := .search, fallback := true, lockStart := s.dev.now
                                 stepCnt := s.dev.phaseSteps, steps := none } ∧ ChangesOnly [.clk] s t ∧ Quiet s t := by
  have heq : s.fresh.lockRetry = s.fresh.startLock := if_neg (by
    rintro (h | h | h)
    exacts [h hs, absurd ht (Nat.not_le.2 h), by simp_all [State.fresh]])
  exact ⟨_, exec_of_effect rfl heq, rfl, s.fresh.touches_startLock.keeps.quietly rfl⟩

/-- Settles O36, row by row. -/
theorem clockLockAndReference : Obligations.ClockLockAndReference := by
  refine ⟨fun s h => ?_, fun s h => exec_of_effect rfl (Dev.refLost_of_lost h),
    fun s h hs => windowOutside_gives h hs, fun s h => exec_of_effect rfl (Dev.windowOutside_of_inside h),
    fun e s h => refBack_gives e h, fun e s h hs => exec_of_effect rfl (Dev.refBack_of_good _ h hs),
    fun b s hs h => pllLock_gives b hs h, fun b s h => exec_of_effect rfl (Dev.pllLock_of_not _ h),
    fun d hf hs => ⟨fun ht => ?_, Dev.clkMove_early⟩, fun s hs ht => lockFail_gives hs ht,
    fun s h => exec_of_effect rfl (Dev.lockFail_of_not h), fun s hs ht hi => lockRetry_gives hs ht hi, fun s h => ?_⟩
  · obtain ⟨t, ht, hok, h4, hholds, hnot, hrest⟩ := refLost_gives h
    exact ⟨t, ht, hok, h4, hholds, fun h1 h2 h3 => hnot (by rintro (h | h | h) <;> contradiction), hrest⟩
  · rw [Dev.clkMove_of_locked hf hs ht]
    exact ⟨((Dev.touches_clockLockEnd _).same .clk (by decide)).symm,
      ((d.touches_onClk _).andThen (Dev.touches_clockLockEnd _)).keeps⟩
  · exact exec_of_effect rfl (if_pos (h.imp_right .inl))

end Sys2Proof.Machine
end

section
/-! PROOFS. The rows of time: PULL and STEP, TIME_SET, the seconds, PPS and the clock failure (R346–R354). -/

namespace Sys2Proof.Machine

open Host

section
variable {d : Dev}

/-! ### The end of PULL and of STEP, and its begin -/

/-- The loop is closed, and the phase steps made are counted. -/
def Dev.loopClosed (d : Dev) : Dev := d.endSteps.onClk fun c => { c with state := .locked }

theorem Dev.touches_loopClosed : Dev.Touches [.clk] d d.loopClosed :=
  .mono (d.touches_endSteps.andThen (Dev.touches_onClk ..)) (by decide)

theorem Dev.pullDone_of_none (hs : d.clk.state = .pulling) (hc : d.stepsComplete = true) (ho : d.clk.openCmds = []) :
    d.pullDone = d.loopClosed.irq 46 := by
  rw [Dev.pullDone, if_neg (by simp [hs, hc, ho])]
  exact congrArg (Dev.irq 46) (if_pos (by rw [List.isEmpty_iff]; exact ho))

theorem Dev.pullDone_of_open (hs : d.clk.state = .pulling) (hc : d.stepsComplete = true) (ho : d.clk.openCmds ≠ [])
    (hp : ∀ x ∈ d.clk.openCmds, x.step = false) :
    d.pullDone = ((d.loopClosed.clkEvent 6 (some d.clk.phaseErr)).closeTime stOk).irq 46 := by
  have hstep : d.clk.openCmds.any (·.step) = false := by simpa using hp
  rw [Dev.pullDone, if_neg (by simp [hs, hc, hstep])]
  exact congrArg (Dev.irq 46) (if_neg (by rw [List.isEmpty_iff]; exact ho))

theorem Dev.pullDone_of_not (h : d.clk.state ≠ .pulling ∨ d.stepsComplete = false) : d.pullDone = d :=
  if_pos (h.imp_right .inl)

theorem Dev.stepDone_of_complete (hs : d.stepping = true) (hc : d.stepsComplete = true) :
    d.stepDone = ((d.loopClosed.clkEvent 7 (some d.clk.phaseErr)).irq 46).closeTime stOk :=
  if_neg (by simp [hs, hc])

theorem Dev.stepDone_of_not (h : d.stepping = false ∨ d.stepsComplete = false) : d.stepDone = d :=
  if_pos (by rcases h with h | h <;> simp [h])

theorem Dev.beginStep_clk (ha : d.clk.openCmds.any (·.step) = true) (hs : d.stepping = false)
    (hj : d.clk.state = .jumpPending) : d.beginStep.clk = { d.clk with
      stepCnt := d.phaseSteps, steps := some (PhaseRun.mk d.now 1 (physical d.clk.jump d.clk.phaseErr) true)
      secTick := ((d.clk.secTick : Int) + (d.clk.phaseErr - physical d.clk.jump d.clk.phaseErr) / 512).toNat } := by
  have hrest : d.clk.phaseErr - (if d.clk.state = .pulling then d.removed else 0) = d.clk.phaseErr := by simp [hj]
  rw [Dev.beginStep, if_neg (by simp [ha, hs]), hrest]
  rfl

/-! ### The seconds (R352) -/

theorem Dev.secondsTo_zero (t : Nat) : d.secondsTo t 0 = d := rfl

theorem Dev.secondsTo_of_none (t : Nat) {k : Nat} (hk : k ≠ 0) (h : d.clk.pendTod = none) :
    d.secondsTo t k = d.onClk fun c => { c with secs := (c.secs + k) % 2 ^ 64, secTick := t } := by
  rw [Dev.secondsTo, if_neg hk, h]

theorem Dev.secondsTo_of_some (t : Nat) {k v : Nat} (hk : k ≠ 0) (h : d.clk.pendTod = some v) :
    d.secondsTo t k = (d.onClk fun c => { c with
      secs := (v + (k - 1)) % 2 ^ 64, secTick := t, pendTod := none }).clkEvent 8 none := by
  rw [Dev.secondsTo, if_neg hk, h]

variable (d) in
theorem Dev.touches_secondsTo (t k : Nat) : Dev.Touches [.clk, .events, .reports] d (d.secondsTo t k) := by
  by_cases hk : k = 0
  · subst hk
    exact .mono .refl (by simp)
  · cases h : d.clk.pendTod with
    | none =>
      rw [Dev.secondsTo_of_none t hk h]
      exact (d.touches_onClk _).mono (by decide)
    | some v =>
      rw [Dev.secondsTo_of_some t hk h]
      exact (d.touches_onClk _).andThen (Dev.touches_clkEvent ..)

end

/-! ### The rows -/

theorem pullDone_gives_of_none {s : State} (hs : s.dev.clk.state = .pulling) (hc : s.dev.stepsComplete = true)
    (ho : s.dev.clk.openCmds = []) : Answers .pullDone s fun t => t.dev.clk = { s.dev.clk with
        state := .locked, stepCnt := s.dev.phaseSteps, steps := none } ∧
      ChangesOnly [.clk, .events, .reports] s t := by
  have heq := Dev.pullDone_of_none (d := s.fresh) hs hc ho
  exact ⟨_, exec_of_effect rfl heq, Dev.irq_clk .., .of_after
    ((Dev.touches_loopClosed.andThen (Dev.touches_irq ..)).keeps.mono (by decide))⟩

theorem pullDone_gives_of_open {s : State} {o : OpenTime} {rest : List OpenTime} (hs : s.dev.clk.state = .pulling)
    (hc : s.dev.stepsComplete = true) (ho : s.dev.clk.openCmds = o :: rest) (hp : ∀ x ∈ o :: rest, x.step = false) :
    Answers .pullDone s fun t =>
      t.dev.clk = { s.dev.clk with state := .locked, stepCnt := s.dev.phaseSteps, steps := none, openCmds := [] } ∧
      (rest = [] → t.dev.host.cmdCnt = satInc s.dev.host.cmdCnt) ∧ t.dev.stands Reg.CLK_EVENT 64 ∧
      ChangesOnly [.clk, .events, .reports, .commands] s t := by
  have heq := Dev.pullDone_of_open (d := s.fresh) hs hc (by simp [ho]) (by simpa [ho] using hp)
  have h64 := Dev.clkEvent_stands s.fresh.loopClosed 6 (some s.fresh.clk.phaseErr)
  refine ⟨_, exec_of_effect rfl heq, ?_, fun hr => ?_,
    (Dev.touches_irq ..).grows _ _ ((Dev.touches_closeTime ..).grows _ _ h64),
    .of_after ((((Dev.touches_loopClosed.andThen (Dev.touches_clkEvent ..)).andThen
      (Dev.touches_closeTime ..)).andThen (Dev.touches_irq ..)).keeps.mono (by decide))⟩
  · rw [State.after_clk, Dev.irq_clk, Dev.closeTime_clk, Dev.clkEvent_clk]
    rfl
  · have hone : (s.fresh.loopClosed.clkEvent 6 (some s.fresh.clk.phaseErr)).clk.openCmds = [o] := by
      rw [Dev.clkEvent_clk]
      exact ho.trans (hr ▸ rfl)
    rw [State.after_host_cmdCnt, (Dev.keepsCommands_irq _ 46).cmdCnt, Dev.closeTime_one _ _ hone,
      Dev.clkEvent_cmdCnt]
    rfl

theorem stepDone_gives {s : State} (hs : s.dev.stepping = true) (hc : s.dev.stepsComplete = true) :
    Answers .stepDone s fun t =>
    t.dev.clk = { s.dev.clk with state := .locked, openCmds := [], stepCnt := s.dev.phaseSteps, steps := none } ∧
    (∀ o, s.dev.clk.openCmds = [o] → t.dev.host.cmdCnt = satInc s.dev.host.cmdCnt) ∧ t.dev.stands Reg.CLK_EVENT 128 ∧
    ChangesOnly [.clk, .events, .reports, .commands] s t := by
  have heq := Dev.stepDone_of_complete (d := s.fresh) hs hc
  have hirq := Dev.touches_irq (s.fresh.loopClosed.clkEvent 7 (some s.fresh.clk.phaseErr)) 46
  refine ⟨_, exec_of_effect rfl heq, ?_, fun o ho => ?_,
    (Dev.touches_closeTime ..).grows _ _ (hirq.grows _ _ (Dev.clkEvent_stands _ 7 _)),
    .of_after ((((Dev.touches_loopClosed.andThen (Dev.touches_clkEvent ..)).andThen hirq).andThen
      (Dev.touches_closeTime ..)).keeps.mono (by decide))⟩
  · rw [State.after_clk, Dev.closeTime_clk, Dev.irq_clk, Dev.clkEvent_clk]
    rfl
  · have hone : ((s.fresh.loopClosed.clkEvent 7 (some s.fresh.clk.phaseErr)).irq 46).clk.openCmds = [o] := by
      rw [Dev.irq_clk, Dev.clkEvent_clk]
      exact ho
    rw [State.after_host_cmdCnt, Dev.closeTime_one _ _ hone, (Dev.keepsCommands_irq _ 46).cmdCnt,
      Dev.clkEvent_cmdCnt]
    rfl

/-! ### TIME_SET (R347) -/

/-- A PULL or STEP is open. -/
def Dev.timeOpened (c : Cmd) (step : Bool) (d : Dev) : Dev := d.onClk fun k => { k with
  openCmds := k.openCmds ++ [OpenTime.mk c.ring.val c.slot.toNat c.tag.toNat step] }

section
variable {d : Dev} {c : Cmd}

theorem Dev.timeSet_unknown (h : 2 < c.byte 20) : d.timeSet c = d.complete c 0xC0 stBadParam := if_pos h

theorem Dev.timeSet_tod (h : c.byte 20 = 0) : d.timeSet c =
    (d.onClk fun k => { k with pendTod := some (c.word 24 + 2 ^ 32 * c.word 28) }).complete c 0xC0 stOk := by
  rw [Dev.timeSet, if_neg (by omega), if_pos h]

theorem Dev.timeSet_no_jump (h : c.byte 20 = 1 ∨ c.byte 20 = 2) (hj : d.clk.state ≠ .jumpPending) :
    d.timeSet c = d.complete c 0xC0 stRejected := by
  rw [Dev.timeSet, if_neg (by omega), if_neg (by omega), if_pos hj]

theorem Dev.timeSet_pull (h : c.byte 20 = 1) (hj : d.clk.state = .jumpPending) (hs : d.stepping = false) :
    d.timeSet c = ((d.onClk fun k => { k with state := .pulling }).startSteps
      (8 * ceilDiv 1953125 (1000 * max 1 (d.fld Reg.CLK_PULL 6 0))) d.clk.phaseErr).timeOpened c false := by
  rw [Dev.timeSet, if_neg (by omega), if_neg (by omega), if_neg (by simp [hj]), if_pos h, if_neg (by simp [hs])]
  rfl

/-- Mode or size forbid a STEP (R349). -/
def Dev.stepForbidden (d : Dev) : Prop := (d.gfm.mode ≠ .off ∧ d.gfm.mode ≠ .standby) ∨
  (d.gfm.mode = .standby ∧ units40ns < (physical d.clk.jump d.clk.phaseErr).natAbs)

theorem Dev.timeSet_step (h : c.byte 20 = 2) (hj : d.clk.state = .jumpPending) (hf : ¬ d.stepForbidden) :
    d.timeSet c = d.timeOpened c true := by
  rw [Dev.timeSet, if_neg (by omega), if_neg (by omega), if_neg (by simp [hj]), if_neg (by omega)]
  exact if_neg hf

theorem Dev.timeSet_step_forbidden (h : c.byte 20 = 2) (hj : d.clk.state = .jumpPending) (hf : d.stepForbidden) :
    d.timeSet c = d.complete c 0xC0 stRejected := by
  rw [Dev.timeSet, if_neg (by omega), if_neg (by omega), if_neg (by simp [hj]), if_neg (by omega)]
  exact if_pos hf

end

theorem exec_timeSet {c : Cmd} {s : State} {d : Dev}
    (h : s.dev.admits 0xC0 (inlMask [(20, 0xFF), (24, 0xFFFFFFFF), (28, 0xFFFFFFFF)]) c)
    (hd : s.fresh.timeSet c = d) : exec (.timeSet c) s = .next (s.after d) :=
  hd ▸ State.runCmd_admits (Dev.timeSet c) h

theorem timeSet_pulls {c : Cmd} {s : State}
    (ha : s.dev.admits 0xC0 (inlMask [(20, 0xFF), (24, 0xFFFFFFFF), (28, 0xFFFFFFFF)]) c) (h : c.byte 20 = 1)
    (hj : s.dev.clk.state = .jumpPending) (hs : s.dev.stepping = false) : Answers (.timeSet c) s fun t =>
      t.dev.clk = { s.dev.clk with
        state := .pulling, stepCnt := s.dev.phaseSteps
        steps := some (PhaseRun.mk s.dev.now (8 * ceilDiv 1953125 (1000 * max 1 (s.dev.fld Reg.CLK_PULL 6 0)))
          s.dev.clk.phaseErr false)
        openCmds := s.dev.clk.openCmds ++ [OpenTime.mk c.ring.val c.slot.toNat c.tag.toNat false] } ∧
      ChangesOnly [.clk] s t ∧ Quiet s t := by
  have hslow (n : Nat) : decide (8 * n = perStep) = false := by
    unfold perStep
    simp only [decide_eq_false_iff_not]
    omega
  have hkeep (per : Nat) (n : Int) : Dev.Keeps [.clk] s.fresh
      (((s.fresh.onClk fun k => { k with state := .pulling }).startSteps per n).timeOpened c false) :=
    (((s.fresh.touches_onClk _).andThen (Dev.touches_startSteps ..)).andThen (Dev.touches_onClk ..)).keeps.mono (by decide)
  refine ⟨_, exec_timeSet ha (Dev.timeSet_pull h hj hs), ?_, (hkeep ..).quietly rfl⟩
  rw [State.after_clk, Dev.timeOpened, Dev.onClk, Dev.startSteps_clk, hslow]
  rfl

theorem timeSet_steps {c : Cmd} {s : State}
    (ha : s.dev.admits 0xC0 (inlMask [(20, 0xFF), (24, 0xFFFFFFFF), (28, 0xFFFFFFFF)]) c) (h : c.byte 20 = 2)
    (hj : s.dev.clk.state = .jumpPending) (hf : ¬ s.dev.stepForbidden) : Answers (.timeSet c) s fun t =>
      t.dev.clk = { s.dev.clk with
        openCmds := s.dev.clk.openCmds ++ [OpenTime.mk c.ring.val c.slot.toNat c.tag.toNat true] } ∧
      ChangesOnly [.clk] s t ∧ Quiet s t :=
  ⟨_, exec_timeSet ha (Dev.timeSet_step h hj hf), rfl, (s.fresh.keeps_onClk _).quietly rfl⟩

/-! ### The seconds and PPS (R351, R352) -/

theorem secondBoundary_gives {s : State} (h : s.dev.clk.secTick + secTicks ≤ s.dev.now) :
    Answers .secondBoundary s fun t =>
      (s.dev.clk.pendTod = none → t.dev.clk = { s.dev.clk with
        secs := (s.dev.clk.secs + 1) % 2 ^ 64, secTick := s.dev.clk.secTick + secTicks }) ∧
      (∀ v, s.dev.clk.pendTod = some v → t.dev.clk = { s.dev.clk with
        secs := v % 2 ^ 64, secTick := s.dev.clk.secTick + secTicks, pendTod := none } ∧
        t.dev.stands Reg.CLK_EVENT 256) ∧
      ChangesOnly [.clk, .events, .reports] s t := by
  have heq : s.fresh.secondBoundary = s.fresh.secondsTo (s.dev.clk.secTick + secTicks) 1 := if_neg (Nat.not_lt.2 h)
  refine ⟨_, exec_of_effect rfl heq, fun hn => ?_, fun v hv => ?_, .of_after (Dev.touches_secondsTo ..).keeps⟩
  · rw [Dev.secondsTo_of_none (d := s.fresh) _ Nat.one_ne_zero hn]
    rfl
  · rw [Dev.secondsTo_of_some (d := s.fresh) _ Nat.one_ne_zero hv]
    rw [State.after_clk, State.after_stands, Dev.clkEvent_clk, Nat.sub_self, Nat.add_zero]
    exact ⟨rfl, Dev.clkEvent_stands _ 8 _⟩

/-- What an edge, once its second is marked, leaves as it is: the time of day and the marks of PPS. -/
def clkSameTime (a b : ClkState) : Prop :=
  a.secTick = b.secTick ∧ a.secs = b.secs ∧ a.pendTod = b.pendTod ∧ a.ppsOk = b.ppsOk ∧ a.lastPps = b.lastPps

section
variable {d : Dev}

theorem Dev.measured_sameTime (e : Int) (j : JumpSource) : clkSameTime (d.measured e j).clk d.clk := by
  rcases Nat.lt_or_ge units2ns e.natAbs with h | h
  · rw [(Dev.measured_far e j h).1]
    exact ⟨rfl, rfl, rfl, rfl, rfl⟩
  · rw [Dev.measured_near e j h]
    exact ⟨rfl, rfl, rfl, rfl, rfl⟩

/-- The edge is noted, and where it is near its second is marked. -/
def Dev.edgeNoted (d : Dev) : Dev := d.onClk fun c => { c with ppsOk := true, lastPps := some d.now }

def Dev.edgeMarked (fine : Nat) (d : Dev) : Dev :=
  if 8 * (d.ppsError fine).natAbs ≤ units2ns then
    d.edgeNoted.secondsTo (d.clk.secTick + secTicks * d.ppsSeconds fine) (d.ppsSeconds fine)
  else d.edgeNoted

/-- What an edge does to the loop (R346, R351): `first` after an outage, `near` within 2 ns. -/
def Dev.edgeTracked (e : Int) (first near : Bool) (d : Dev) : Dev :=
  if d.clk.state ≠ .locked then d
  else if first || !near then d.measured (8 * e) .pps
  else (d.onClk fun c => { c with
    phaseErr := 8 * e, trim := c.trim + clampI (-20480) 20480 (-e) }).startSteps perPullIn (8 * e)

theorem Dev.edgeTracked_sameTime (e : Int) (first near : Bool) : clkSameTime (d.edgeTracked e first near).clk d.clk := by
  unfold Dev.edgeTracked
  split
  · exact ⟨rfl, rfl, rfl, rfl, rfl⟩
  split
  · exact Dev.measured_sameTime ..
  · exact ⟨rfl, rfl, rfl, rfl, rfl⟩

variable (d) in
theorem Dev.touches_edgeTracked (e : Int) (first near : Bool) :
    Dev.Touches [.clk, .events, .reports] d (d.edgeTracked e first near) :=
  .mono (.ite .refl (.ite (d.touches_measured ..) ((d.touches_onClk _).andThen (Dev.touches_startSteps ..)))) (by decide)

variable (d) in
theorem Dev.touches_edgeMarked (fine : Nat) : Dev.Touches [.clk, .events, .reports] d (d.edgeMarked fine) :=
  .mono (.ite ((d.touches_onClk _).andThen (Dev.touches_secondsTo ..)) (d.touches_onClk _)) (by decide)

/-- Marking a second moves the time of day alone. -/
theorem Dev.secondsTo_clk (t k : Nat) : (d.secondsTo t k).clk = { d.clk with
    secs := (d.secondsTo t k).clk.secs, secTick := (d.secondsTo t k).clk.secTick
    pendTod := (d.secondsTo t k).clk.pendTod } := by
  by_cases hk : k = 0
  · subst hk
    rfl
  · cases h : d.clk.pendTod with
    | none => rw [Dev.secondsTo_of_none t hk h]; rfl
    | some v => rw [Dev.secondsTo_of_some t hk h, Dev.clkEvent_clk]; rfl

/-- An edge within 2 ns marks its second, with the time that waited for it. -/
theorem Dev.edgeMarked_near {fine : Nat} (h : 8 * (d.ppsError fine).natAbs ≤ units2ns) :
    (d.edgeMarked fine).clk.secTick = d.clk.secTick + secTicks * d.ppsSeconds fine ∧
    (d.ppsSeconds fine ≠ 0 → (d.edgeMarked fine).clk.pendTod = none ∧
      (d.clk.pendTod = none → (d.edgeMarked fine).clk.secs = (d.clk.secs + d.ppsSeconds fine) % 2 ^ 64) ∧
      ∀ v, d.clk.pendTod = some v → (d.edgeMarked fine).clk.secs = (v + (d.ppsSeconds fine - 1)) % 2 ^ 64) := by
  rw [Dev.edgeMarked, if_pos h]
  by_cases hk : d.ppsSeconds fine = 0
  · rw [hk]
    exact ⟨rfl, (absurd rfl ·)⟩
  · cases hp : d.clk.pendTod with
    | none =>
      rw [Dev.secondsTo_of_none (d := d.edgeNoted) _ hk hp]
      exact ⟨rfl, fun _ => ⟨hp, fun _ => rfl, nofun⟩⟩
    | some v =>
      rw [Dev.secondsTo_of_some (d := d.edgeNoted) _ hk hp, Dev.clkEvent_clk]
      exact ⟨rfl, fun _ => ⟨rfl, nofun, fun w hw => Option.some.inj hw ▸ rfl⟩⟩

theorem Dev.edgeMarked_far {fine : Nat} (h : units2ns < 8 * (d.ppsError fine).natAbs) :
    d.edgeMarked fine = d.edgeNoted := if_neg (Nat.not_le.2 h)

/-- Marking leaves the loop, and the edge is noted. -/
theorem Dev.edgeMarked_clk (fine : Nat) : (d.edgeMarked fine).clk = { d.edgeNoted.clk with
    secs := (d.edgeMarked fine).clk.secs, secTick := (d.edgeMarked fine).clk.secTick
    pendTod := (d.edgeMarked fine).clk.pendTod } := by
  unfold Dev.edgeMarked
  split
  · exact Dev.secondsTo_clk ..
  · rfl

theorem Dev.edgeTracked_near {e : Int} (hs : d.clk.state = .locked) : (d.edgeTracked e false true).clk.state = .locked ∧
    (d.edgeTracked e false true).clk.trim = d.clk.trim + clampI (-20480) 20480 (-e) := by
  rw [Dev.edgeTracked, if_neg (by simp [hs]), if_neg (by simp)]
  exact ⟨hs, rfl⟩

theorem Dev.edgeTracked_far {e : Int} (first : Bool) (hs : d.clk.state = .locked) (h : units2ns < 8 * e.natAbs) :
    (d.edgeTracked e first false).clk.state = .jumpPending ∧ (d.edgeTracked e first false).clk.phaseErr = 8 * e := by
  have hfar : units2ns < (8 * e).natAbs := by omega
  rw [Dev.edgeTracked, if_neg (by simp [hs]), if_pos (by simp), (Dev.measured_far _ _ hfar).1]
  exact ⟨rfl, rfl⟩

/-- An accepted edge, its second marked and the loop told of its error. -/
def Dev.edgeDone (fine : Nat) (d : Dev) : Dev :=
  (d.edgeMarked fine).edgeTracked (d.ppsError fine) (!d.clk.ppsOk) (decide (8 * (d.ppsError fine).natAbs ≤ units2ns))

theorem Dev.ppsEdge_of_unused (frac : Nat) (h : d.ppsUsed = false) : d.ppsEdge frac = d := if_pos (by simp [h])

theorem Dev.ppsEdge_of_used (frac : Nat) (h : d.ppsUsed = true) : d.ppsEdge frac =
    d.edgeDone (64 * d.now + frac) := by
  rw [Dev.ppsEdge, if_neg (by simp [h]), Dev.edgeDone, Dev.edgeMarked]
  simp only [decide_eq_true_eq]
  rfl

variable (d) in
theorem Dev.touches_edgeDone (fine : Nat) : Dev.Touches [.clk, .events, .reports] d (d.edgeDone fine) :=
  ((d.touches_edgeMarked fine).andThen (Dev.touches_edgeTracked ..)).mono (by decide)

theorem Dev.edgeMarked_state (fine : Nat) : (d.edgeMarked fine).clk.state = d.clk.state :=
  (congrArg ClkState.state (Dev.edgeMarked_clk (d := d) fine) :)

variable (d) in
theorem Dev.edgeDone_sameTime (fine : Nat) : clkSameTime (d.edgeDone fine).clk (d.edgeMarked fine).clk :=
  Dev.edgeTracked_sameTime ..

theorem Dev.edgeDone_noted (fine : Nat) :
    (d.edgeDone fine).clk.ppsOk = true ∧ (d.edgeDone fine).clk.lastPps = some d.now := by
  obtain ⟨-, -, -, hok, hlast⟩ := d.edgeDone_sameTime fine
  exact ⟨hok.trans (congrArg ClkState.ppsOk (Dev.edgeMarked_clk (d := d) fine) :),
    hlast.trans (congrArg ClkState.lastPps (Dev.edgeMarked_clk (d := d) fine) :)⟩

theorem Dev.edgeDone_near {fine : Nat} (h : 8 * (d.ppsError fine).natAbs ≤ units2ns) :
    (d.edgeDone fine).clk.secTick = d.clk.secTick + secTicks * d.ppsSeconds fine ∧
    (d.ppsSeconds fine ≠ 0 → (d.edgeDone fine).clk.pendTod = none ∧
      (d.clk.pendTod = none → (d.edgeDone fine).clk.secs = (d.clk.secs + d.ppsSeconds fine) % 2 ^ 64) ∧
      ∀ v, d.clk.pendTod = some v → (d.edgeDone fine).clk.secs = (v + (d.ppsSeconds fine - 1)) % 2 ^ 64) ∧
    (d.clk.state = .locked → d.clk.ppsOk = true → (d.edgeDone fine).clk.state = .locked ∧
      (d.edgeDone fine).clk.trim = d.clk.trim + clampI (-20480) 20480 (-d.ppsError fine)) := by
  obtain ⟨htick, hsecs, hpend, -, -⟩ := d.edgeDone_sameTime fine
  rw [htick, hsecs, hpend]
  obtain ⟨hmt, hms⟩ := Dev.edgeMarked_near h
  refine ⟨hmt, hms, fun hs ho => ?_⟩
  rw [Dev.edgeDone, ho, decide_eq_true h]
  exact (Dev.edgeTracked_near ((Dev.edgeMarked_state fine).trans hs)).imp_right
    (·.trans (congrArg (ClkState.trim · + _) (Dev.edgeMarked_clk (d := d) fine) :))

theorem Dev.edgeDone_far {fine : Nat} (h : units2ns < 8 * (d.ppsError fine).natAbs) :
    (d.edgeDone fine).clk.secTick = d.clk.secTick ∧ (d.edgeDone fine).clk.secs = d.clk.secs ∧
    (d.clk.state = .locked → (d.edgeDone fine).clk.state = .jumpPending ∧
      (d.edgeDone fine).clk.phaseErr = 8 * d.ppsError fine) := by
  obtain ⟨htick, hsecs, -, -, -⟩ := d.edgeDone_sameTime fine
  rw [htick, hsecs, Dev.edgeMarked_far h]
  refine ⟨rfl, rfl, fun hs => ?_⟩
  rw [Dev.edgeDone, decide_eq_false (Nat.not_le.2 h)]
  exact Dev.edgeTracked_far _ ((Dev.edgeMarked_state fine).trans hs) h

theorem Dev.ppsLost_of_none (h : d.clk.lastPps = none ∨ d.ppsUsed = false) : d.ppsLost = d := by
  unfold Dev.ppsLost
  split
  · rfl
  · rename_i hl
    exact if_pos (.inl (by simpa [hl] using h))

theorem Dev.ppsLost_of_late {l : Nat} (hl : d.clk.lastPps = some l) (hu : d.ppsUsed = true)
    (hok : d.clk.ppsOk = true) (ht : l + 11 * secTicks / 10 ≤ d.now) :
    d.ppsLost = ((d.onClk fun c => { c with ppsOk := false }).clkEvent 5 none).irq 46 := by
  unfold Dev.ppsLost
  rw [hl]
  exact if_neg (by simp [hu, hok, ht])

theorem Dev.clockFailure_of_solo (hf : d.clk.fallback = false) (hs : d.twn.st ≠ .active) :
    d.clockFailure = ((d.onClk fun c => { c with fail := true }).clkEvent 9 none).irq 46 := by
  have htwn : (((d.onClk fun c => { c with fail := true }).clkEvent 9 none).irq 46).twn.st = d.twn.st := by
    rw [Dev.irq_twn]
    exact congrArg TwnState.st (Dev.event_twn ..)
  rw [Dev.clockFailure, if_neg (by simp [hf])]
  exact if_neg (by rw [htwn]; exact hs)

end

theorem ppsEdge_gives (frac : BitVec 6) {s : State} {fine k : Nat} {e : Int} (hu : s.dev.ppsUsed = true)
    (hfine : fine = 64 * s.dev.now + frac.toNat) (hk : k = s.dev.ppsSeconds fine) (he : e = s.dev.ppsError fine) :
    Answers (.ppsEdge frac) s fun t =>
      t.dev.clk.ppsOk = true ∧ t.dev.clk.lastPps = some s.dev.now ∧
      (8 * e.natAbs ≤ 409 → t.dev.clk.secTick = s.dev.clk.secTick + secTicks * k ∧
        (k ≠ 0 → t.dev.clk.pendTod = none ∧
          (s.dev.clk.pendTod = none → t.dev.clk.secs = (s.dev.clk.secs + k) % 2 ^ 64) ∧
          (∀ v, s.dev.clk.pendTod = some v → t.dev.clk.secs = (v + (k - 1)) % 2 ^ 64)) ∧
        (s.dev.clk.state = .locked → s.dev.clk.ppsOk = true → t.dev.clk.state = .locked ∧
          t.dev.clk.trim = s.dev.clk.trim + clampI (-20480) 20480 (-e))) ∧
      (409 < 8 * e.natAbs → t.dev.clk.secTick = s.dev.clk.secTick ∧ t.dev.clk.secs = s.dev.clk.secs ∧
        (s.dev.clk.state = .locked → t.dev.clk.state = .jumpPending ∧ t.dev.clk.phaseErr = 8 * e)) ∧
      ChangesOnly [.clk, .events, .reports] s t := by
  have heq := Dev.ppsEdge_of_used (d := s.fresh) frac.toNat hu
  have hnow : s.fresh.now = s.dev.now := rfl
  rw [hnow, ← hfine] at heq
  have hk' : s.fresh.ppsSeconds fine = k := by rw [hk, Dev.ppsSeconds, Dev.ppsSeconds, State.fresh_clk]
  have he' : s.fresh.ppsError fine = e := by
    simp only [he, Dev.ppsError, Dev.ppsSeconds, State.fresh_clk]
  have hnoted := Dev.edgeDone_noted (d := s.fresh) fine
  have hnear := Dev.edgeDone_near (d := s.fresh) (fine := fine)
  have hfar := Dev.edgeDone_far (d := s.fresh) (fine := fine)
  simp only [hk', he', State.fresh_clk] at hnear hfar
  refine ⟨_, exec_of_effect rfl heq, ?_⟩
  beta_reduce
  rw [State.after_clk]
  exact ⟨hnoted.1, hnoted.2, hnear, hfar, .of_after (Dev.touches_edgeDone ..).keeps⟩

theorem ppsLost_gives {s : State} {l : Nat} (hl : s.dev.clk.lastPps = some l) (hu : s.dev.ppsUsed = true)
    (hok : s.dev.clk.ppsOk = true) (ht : l + 440000000 ≤ s.dev.now) : Answers .ppsLost s fun t =>
      t.dev.clk = { s.dev.clk with ppsOk := false } ∧ t.dev.stands Reg.CLK_EVENT 32 ∧
      ChangesOnly [.clk, .events, .reports] s t := by
  have heq := Dev.ppsLost_of_late (d := s.fresh) hl hu hok ht
  refine ⟨_, exec_of_effect rfl heq, ?_, ?_, .of_after ((((s.fresh.touches_onClk _).andThen
    (Dev.touches_clkEvent ..)).andThen (Dev.touches_irq ..)).keeps.mono (by decide))⟩
  · rw [State.after_clk, Dev.irq_clk, Dev.clkEvent_clk]
    rfl
  · rw [State.after_stands]
    exact (Dev.touches_irq ..).grows _ _ (Dev.clkEvent_stands _ 5 _)

theorem clockFailure_gives {s : State} (hf : s.dev.clk.fallback = false) (hs : s.dev.twn.st ≠ .active) :
    Answers .clockFailure s fun t => t.dev.clk = { s.dev.clk with fail := true } ∧ t.dev.stands Reg.CLK_EVENT 512 ∧
      ChangesOnly [.clk, .events, .reports] s t := by
  have heq := Dev.clockFailure_of_solo (d := s.fresh) hf hs
  refine ⟨_, exec_of_effect rfl heq, ?_, ?_, .of_after ((((s.fresh.touches_onClk _).andThen
    (Dev.touches_clkEvent ..)).andThen (Dev.touches_irq ..)).keeps.mono (by decide))⟩
  · rw [State.after_clk, Dev.irq_clk, Dev.clkEvent_clk]
    rfl
  · rw [State.after_stands]
    exact (Dev.touches_irq ..).grows _ _ (Dev.clkEvent_stands _ 9 _)

/-- Settles O37, row by row. -/
theorem clockTimeAndPps : Obligations.ClockTimeAndPps := by
  refine ⟨fun s hs hc ho => pullDone_gives_of_none hs hc ho, fun s o rest hs hc ho hp =>
      pullDone_gives_of_open hs hc ho hp, fun s h => exec_of_effect rfl (Dev.pullDone_of_not h),
    fun d ha hs hj => ⟨Dev.beginStep_clk ha hs hj, d.touches_beginStep.keeps⟩, fun s hs hc => stepDone_gives hs hc,
    fun s h => exec_of_effect rfl (Dev.stepDone_of_not h), fun c s ha => ?_, fun s h => secondBoundary_gives h,
    fun s h => exec_of_effect rfl (if_pos h), fun frac s fine k e hu hfine hk he => ?_,
    fun frac s h => exec_of_effect rfl (Dev.ppsEdge_of_unused _ h),
    fun s l hl hu hok ht => ppsLost_gives hl hu hok ht,
    fun s h => exec_of_effect rfl (Dev.ppsLost_of_none h), fun s hf hs => clockFailure_gives hf hs,
    fun s h => exec_of_effect rfl (if_pos h)⟩
  · refine ⟨fun h => exec_timeSet ha (Dev.timeSet_unknown h), fun h => ⟨_, exec_timeSet ha (Dev.timeSet_tod h), rfl, ?_⟩,
      fun h hj => exec_timeSet ha (Dev.timeSet_no_jump h hj), fun h hj hs => timeSet_pulls ha h hj hs,
      fun h hj hm => timeSet_steps ha h hj ?_, fun h hj hf => exec_timeSet ha (Dev.timeSet_step_forbidden h hj hf)⟩
    · exact (s.keeps_fresh.mono (by simp)).andThen (Dev.keeps_onClk _ _) (by simp)
    · rintro (⟨hoff, hstby⟩ | ⟨hstby, hbig⟩)
      · exact hm.elim hoff fun h => hstby h.1
      · rcases hm with hoff | ⟨-, hsmall⟩
        · rw [hoff] at hstby
          cases hstby
        · exact absurd hsmall (Nat.not_le.2 hbig)
  · exact ppsEdge_gives frac hu hfine hk (by rw [he, hk, Dev.ppsError, Dev.ppsSeconds])

end Sys2Proof.Machine
end

section
/-! PROOFS. Packets of the twin link that are not taken (R357, R359). -/

namespace Sys2Proof.Machine

open Host

section
variable {d : Dev} {f : Dev → Dev}

/-- A packet that fails its CRC is discarded and counted. -/
def Dev.packetDiscarded (d : Dev) : Dev := d.onTwn fun t => { t with pktErrCnt := satInc t.pktErrCnt }

theorem Dev.packet_taken (h : d.twinEn = true) : d.packet true f = f d := by
  rw [Dev.packet, if_neg (by simp [h]), if_pos rfl]

theorem Dev.packet_bad (h : d.twinEn = true) : d.packet false f = d.packetDiscarded := by
  rw [Dev.packet, if_neg (by simp [h])]
  rfl

theorem Dev.packet_off (ok : Bool) (h : d.twinEn = false) : d.packet ok f = d := if_pos (by simp [h])

end

section
variable {i : Instr} {s : State} {f : Dev → Dev}

theorem packet_row_off {ok : Bool} (hi : exec i s = .next (s.run (Dev.packet ok f))) (h : s.dev.twinEn = false) :
    exec i s = .next (s.after s.fresh) := exec_of_effect hi (Dev.packet_off ok h)

theorem packet_row_bad (hi : exec i s = .next (s.run (Dev.packet false f))) :
    (s.dev.twinEn = true → Answers i s fun t =>
      t.dev.twn = { s.dev.twn with pktErrCnt := satInc s.dev.twn.pktErrCnt, sent := [] } ∧
      ChangesOnly [.twn] s t ∧ Quiet s t) ∧
    (s.dev.twinEn = false → exec i s = .next (s.after s.fresh)) :=
  ⟨fun h => ⟨_, exec_of_effect hi (Dev.packet_bad h), rfl, (s.fresh.keeps_onTwn _).quietly rfl⟩, packet_row_off hi⟩

end

/-- Settles O39: each of the eight rows is one packet, whatever it would do if it were taken. -/
theorem badTwinPacketsAreCounted : Obligations.BadTwinPacketsAreCounted := by
  intro s p r q u b c l h o x k f
  refine ⟨?_, fun hen => ?_⟩
  · iterate 7 refine List.forall_mem_cons.2 ⟨packet_row_bad rfl, ?_⟩
    exact List.forall_mem_singleton.2 (packet_row_bad rfl)
  · iterate 7 refine List.forall_mem_cons.2 ⟨packet_row_off rfl hen, ?_⟩
    exact List.forall_mem_singleton.2 (packet_row_off rfl hen)

end Sys2Proof.Machine
end

section
/-! PROOFS. The commands of the Larder (R427, R516, R517). -/

namespace Sys2Proof.Machine

open Host

/-! ### LARDER_READ (R516) -/

theorem exec_larderRead {c : Cmd} {s : State} {d : Dev}
    (h : s.dev.admits 0x70 (inlMask [(20, 0x1FF), (24, 0xFFFFFFFF), (28, 0xFFFFFFFF)]) c)
    (hd : s.fresh.larderRead c = d) : exec (.larderRead c) s = .next (s.after d) :=
  hd ▸ State.runCmd_admits (Dev.larderRead c) h

/-- What LARDER_READ asks for is not there to be read. -/
def readBad (c : Cmd) : Bool :=
  decide (3 < c.byte 20 ∨ c.word 28 = 0) ||
    (if c.byte 20 = 3 then decide (c.word 24 % 4 ≠ 0 ∨ c.word 28 % 4 ≠ 0 ∨ 1572864 < c.word 24 + c.word 28 ∨
        c.len.toNat < c.word 28)
     else decide (itemLimit (c.byte 20) < c.word 28 ∨ c.len.toNat < c.word 28 * itemSize (c.byte 20)) ||
        (c.byte 20 = 1 && decide (15 < c.word 24)))

/-- The read that LARDER_READ opens. -/
def Dev.openRead (c : Cmd) (d : Dev) : OpenRead :=
  let runs := d.readRuns (c.byte 20) (c.word 24) (c.word 28) c.tag.toNat c.addr.toNat
  let bytes := (runs.map fun r => r.2.1.length).foldl (· + ·) 0
  { ring := c.ring.val, slot := c.slot.toNat, tag := c.tag.toNat, target := bits (c.byte 21) 0 0,
    runs := runs, bytes := bytes, status := if bytes = c.word 28 * itemSize (c.byte 20) then stOk else stPartial }

/-- The list of reads replaced. -/
def Dev.withReads (rs : List OpenRead) (d : Dev) : Dev := d.onLrd fun l => { l with reads := rs }

section
variable {c : Cmd} {d : Dev}

theorem Dev.larderRead_bad (h : readBad c = true) : d.larderRead c = d.complete c 0x70 stBadParam := if_pos h

theorem Dev.larderRead_user (h : readBad c = false) (hk : c.byte 20 = 3) : d.larderRead c =
    (d.post c.addr.toNat ((upto (c.word 28)).map fun i => d.lrd.user.get 0 (c.word 24 + i))).completeRes c 0x70 stOk
      (c.word 28) [] := (if_neg (ne_true_of_eq_false h)).trans (if_pos hk)

theorem Dev.larderRead_items (h : readBad c = false) (hk : c.byte 20 ≠ 3) : d.larderRead c =
    Dev.readProgress (d.withReads (d.lrd.reads ++ [d.openRead c])).readFuel
      (d.withReads (d.lrd.reads ++ [d.openRead c])) := (if_neg (ne_true_of_eq_false h)).trans (if_neg hk)

/-- With one read in progress and nothing of it left to deliver, it completes. -/
theorem Dev.readProgress_completes {r : OpenRead} (n : Nat) (h : r.runs = []) (hd : d.lrd.reads = [r]) :
    Dev.readProgress (n + 1) d =
      Dev.readProgress n ((d.withReads []).completeAs r.ring r.slot r.tag 0x70 r.status r.bytes []) := by
  rw [Dev.readProgress, hd]
  simp only [List.find?_cons, h, true_or, decide_true, List.filter_cons, and_self, Bool.not_true]
  rfl

/-- With one read in progress and one run of it left, and room on its ring, the run and its descriptor are posted. -/
theorem Dev.readProgress_delivers {r : OpenRead} (n : Nat) {a : Nat} {data desc : List Byte}
    (h : r.runs = [(a, data, desc)]) (hroom : d.ringRoom (28 + r.target) ≠ 0) (hd : d.lrd.reads = [r]) :
    Dev.readProgress (n + 1) d = Dev.readProgress n
      (((d.withReads [{ r with runs := [] }]).post a data).putDesc (28 + r.target) (24 + r.target) desc) := by
  rw [Dev.readProgress, hd]
  simp only [List.find?_cons, h, hroom, ne_eq, not_false_eq_true, or_true, decide_true, List.filter_cons, and_self,
    Bool.not_true]
  rfl

/-- The run of one record. -/
theorem Dev.readRuns_record (first tag addr : Nat) : d.readRuns 0 first 1 tag addr = match d.lrdRecord first with
    | none => []
    | some bs => [(addr, bs, readDesc true tag addr bs.length first 1 0)] := by
  unfold Dev.readRuns
  simp only [itemRuns, Dev.lrdItem]
  cases d.lrdRecord first with
  | none => rfl
  | some bs => simp [List.zipIdx]

/-- What opens for one record: its runs, their bytes, and the status. -/
def recordRead (c : Cmd) (runs : List (Nat × List Byte × List Byte)) (bytes status : Nat) : OpenRead :=
  { ring := c.ring.val, slot := c.slot.toNat, tag := c.tag.toNat, target := bits (c.byte 21) 0 0
    runs := runs, bytes := bytes, status := status }

theorem Dev.openRead_none (hk : c.byte 20 = 0) (hc : c.word 28 = 1) (h : d.lrdRecord (c.word 24) = none) :
    d.openRead c = recordRead c [] 0 stPartial := by
  rw [Dev.openRead, hk, hc, Dev.readRuns_record, h]
  rfl

theorem Dev.openRead_some (hk : c.byte 20 = 0) (hc : c.word 28 = 1) {bs : List Byte}
    (h : d.lrdRecord (c.word 24) = some bs) (hl : bs.length = 64) : d.openRead c =
      recordRead c [(c.addr.toNat, bs, readDesc true c.tag.toNat c.addr.toNat 64 (c.word 24) 1 0)] 64 stOk := by
  rw [Dev.openRead, hk, hc, Dev.readRuns_record, h]
  simp [recordRead, hl, itemSize]

theorem readBad_record (hk : c.byte 20 = 0) (hc : c.word 28 = 1) (hl : 64 ≤ c.len.toNat) : readBad c = false := by
  simp [readBad, hk, hc, itemLimit, itemSize, hl]

theorem Dev.withReads_withReads (rs rs' : List OpenRead) : (d.withReads rs).withReads rs' = d.withReads rs' := rfl

theorem Dev.withReads_reads (rs : List OpenRead) : (d.withReads rs).lrd.reads = rs := rfl

theorem Dev.readProgress_zero : Dev.readProgress 0 d = d := rfl

theorem Dev.readFuel_one (r : OpenRead) : (d.withReads [r]).readFuel = r.runs.length + 1 := by
  simp [Dev.readFuel, Dev.withReads, Dev.onLrd]

/-- One record that is not retained (R516): nothing is delivered. -/
theorem Dev.larderRead_none (hk : c.byte 20 = 0) (hc : c.word 28 = 1) (hl : 64 ≤ c.len.toNat) (hr : d.lrd.reads = [])
    (h : d.lrdRecord (c.word 24) = none) :
    d.larderRead c = (d.withReads []).completeRes c 0x70 stPartial 0 [] := by
  have hend := Dev.readProgress_completes (d := d.withReads [recordRead c [] 0 stPartial]) 0
    (r := recordRead c [] 0 stPartial) (by rfl) (by rfl)
  rw [Dev.readProgress_zero, Dev.withReads_withReads] at hend
  rw [Dev.larderRead_items (readBad_record hk hc hl) (by omega), hr, Dev.openRead_none hk hc h, List.nil_append,
    Dev.readFuel_one]
  exact hend

/-- The record and its descriptor are posted. -/
def Dev.recordDelivered (c : Cmd) (bs : List Byte) (d : Dev) : Dev :=
  ((d.withReads [recordRead c [] 64 stOk]).post c.addr.toNat bs).putDesc (28 + bits (c.byte 21) 0 0)
    (24 + bits (c.byte 21) 0 0) (readDesc true c.tag.toNat c.addr.toNat 64 (c.word 24) 1 0)

theorem Dev.recordDelivered_lrd (bs : List Byte) :
    (d.recordDelivered c bs).lrd = { d.lrd with reads := [recordRead c [] 64 stOk] } := Dev.putDesc_lrd ..

variable (c d) in
theorem Dev.recordDelivered_out (bs : List Byte) : ∃ later, (d.recordDelivered c bs).host.out =
    d.host.out ++ (c.addr.toNat, bs) ::
      (d.ringBase (28 + bits (c.byte 21) 0 0) + 32 * (d.ring (28 + bits (c.byte 21) 0 0)).prod + 4,
        slice (readDesc true c.tag.toNat c.addr.toNat 64 (c.word 24) 1 0) 4 28) :: later := by
  obtain ⟨later, hout, -⟩ := ((d.withReads [recordRead c [] 64 stOk]).post c.addr.toNat bs).putDesc_out
    (28 + bits (c.byte 21) 0 0) (24 + bits (c.byte 21) 0 0) (readDesc true c.tag.toNat c.addr.toNat 64 (c.word 24) 1 0)
  have hpost (e : Dev) (a : Nat) : (e.post a bs).host.out = e.host.out ++ [(a, bs)] := rfl
  have hbase (r : Nat) : ((d.withReads [recordRead c [] 64 stOk]).post c.addr.toNat bs).ringBase r = d.ringBase r := rfl
  have hring (r : Nat) : ((d.withReads [recordRead c [] 64 stOk]).post c.addr.toNat bs).ring r = d.ring r := rfl
  rw [hbase, hring, hpost, List.append_assoc] at hout
  exact ⟨_, hout⟩

/-- One record that is retained (R427, R516): it stands in the buffer before its descriptor is written. -/
theorem Dev.larderRead_some (hk : c.byte 20 = 0) (hc : c.word 28 = 1) (hl : 64 ≤ c.len.toNat) (hr : d.lrd.reads = [])
    {bs : List Byte} (h : d.lrdRecord (c.word 24) = some bs) (h64 : bs.length = 64)
    (hroom : d.ringRoom (28 + bits (c.byte 21) 0 0) ≠ 0) :
    d.larderRead c = ((d.recordDelivered c bs).withReads []).completeRes c 0x70 stOk 64 [] := by
  set desc := readDesc true c.tag.toNat c.addr.toNat 64 (c.word 24) 1 0
  have hgoes := Dev.readProgress_delivers (d := d.withReads [recordRead c [(c.addr.toNat, bs, desc)] 64 stOk]) 1
    (r := recordRead c [(c.addr.toNat, bs, desc)] 64 stOk) (by rfl) hroom (by rfl)
  have hend := Dev.readProgress_completes (d := d.recordDelivered c bs) 0 (r := recordRead c [] 64 stOk) (by rfl)
    (congrArg LrdState.reads (Dev.recordDelivered_lrd bs))
  rw [Dev.larderRead_items (readBad_record hk hc hl) (by omega), hr, Dev.openRead_some hk hc h h64, List.nil_append,
    Dev.readFuel_one]
  exact hgoes.trans hend

end

/-- LARDER_READ of one record. -/
theorem larderRead_record {c : Cmd} {s : State}
    (ha : s.dev.admits 0x70 (inlMask [(20, 0x1FF), (24, 0xFFFFFFFF), (28, 0xFFFFFFFF)]) c) (hk : c.byte 20 = 0)
    (hc : c.word 28 = 1) (hl : 64 ≤ c.len.toNat) (hr : s.dev.lrd.reads = []) :
    (s.dev.lrdRecord (c.word 24) = none → ∃ d : Dev, exec (.larderRead c) s =
      .next (s.after (d.completeRes c 0x70 stPartial 0 [])) ∧ d.lrd = s.dev.lrd ∧ d.host = s.dev.host) ∧
    (∀ bs, s.dev.lrdRecord (c.word 24) = some bs → bs.length = 64 →
      s.dev.ringRoom (28 + bits (c.byte 21) 0 0) ≠ 0 → ∃ (d : Dev) (later : List (Nat × List Byte)),
        exec (.larderRead c) s = .next (s.after (d.completeRes c 0x70 stOk 64 [])) ∧ d.lrd = s.dev.lrd ∧
        d.host.out = s.dev.host.out ++ (c.addr.toNat, bs) ::
          (s.dev.ringBase (28 + bits (c.byte 21) 0 0) + 32 * (s.dev.ring (28 + bits (c.byte 21) 0 0)).prod + 4,
            slice (readDesc true c.tag.toNat c.addr.toNat 64 (c.word 24) 1 0) 4 28) :: later) := by
  have hback : s.dev.lrd = { s.dev.lrd with reads := [] } := by rw [← hr]
  refine ⟨fun h => ?_, fun bs h h64 hroom => ?_⟩
  · have heq := Dev.larderRead_none (d := s.fresh) hk hc hl hr h
    exact ⟨_, exec_larderRead ha heq, hback.symm, rfl⟩
  · obtain ⟨later, hout⟩ := s.fresh.recordDelivered_out c bs
    have heq := Dev.larderRead_some (d := s.fresh) hk hc hl hr h h64 hroom
    have hlrd := Dev.recordDelivered_lrd (d := s.fresh) (c := c) bs
    exact ⟨_, later, exec_larderRead ha heq,
      (congrArg (fun l : LrdState => { l with reads := [] }) hlrd).trans hback.symm, hout⟩

/-! ### LARDER_MARK (R517) -/

theorem exec_larderMark {c : Cmd} {s : State} {d : Dev} (h : s.dev.admits 0x71 (2 ^ 96 - 1) c)
    (hd : s.fresh.larderMark c = d) : exec (.larderMark c) s = .next (s.after d) :=
  hd ▸ State.runCmd_admits (Dev.larderMark c) h

section
variable {c : Cmd} {d : Dev}

theorem Dev.larderMark_bad (h : 3 < c.byte 20 ∨ c.reservedSet (markMask (c.byte 20)) = true) :
    d.larderMark c = d.complete c 0x71 stBadParam := if_pos h

variable (hres : c.reservedSet (markMask (c.byte 20)) = false)
include hres

theorem Dev.larderMark_mark (h : c.byte 20 = 0) : d.larderMark c =
    (d.record 8 0 (leBytes 4 (c.word 24) ++ leBytes 4 (c.word 28))).complete c 0x71 stOk := by
  rw [Dev.larderMark, if_neg (by simp [hres]; omega), if_pos h]

theorem Dev.larderMark_no_slot (h : c.byte 20 = 1 ∨ c.byte 20 = 2) (hk : 15 < c.byte 21) :
    d.larderMark c = d.complete c 0x71 stBadParam := by
  rw [Dev.larderMark, if_neg (by simp [hres]; omega), if_neg (by omega), if_pos (by omega)]

theorem Dev.larderMark_slot (h : c.byte 20 = 1 ∨ c.byte 20 = 2) (hk : c.byte 21 ≤ 15) : d.larderMark c =
    if d.lrd.halt then d
    else if c.byte 20 = 1 then
      if 8 ≤ d.pins then d.complete c 0x71 stRejected
      else (d.onLrd fun l => { l with pinned := l.pinned ||| 2 ^ c.byte 21 }).complete c 0x71 stOk
    else (d.onLrd fun l => { l with
      pinned := if bitAt l.pinned (c.byte 21) then l.pinned - 2 ^ c.byte 21 else l.pinned }).complete c 0x71 stOk := by
  rw [Dev.larderMark, if_neg (by simp [hres]; omega), if_neg (by omega), if_neg (by omega), if_neg (by omega)]
  congr 1
  rcases h with h | h
  · simp [h]
  · simp [h]

theorem Dev.larderMark_user (h : c.byte 20 = 3) (hofs : c.word 24 % 4 = 0) (hlen : c.len.toNat % 4 = 0)
    (hmax : c.len.toNat ≤ 65536) (htot : c.word 24 + c.len.toNat ≤ 1572864) (hh : d.lrd.halt = false)
    (hb : c.bufErr = false) : d.larderMark c = (d.onLrd fun l => { l with
      user := writeBytes l.user (c.word 24) c.data }).completeRes c 0x71 stOk c.len.toNat [] := by
  rw [Dev.larderMark, if_neg (by simp [hres]; omega), if_neg (by omega), if_neg (by omega), if_neg (by omega),
    if_neg (by simp [hh]), if_neg (by omega), if_neg (by omega), Dev.withBuffer_read _ _ hb]

end

theorem State.keeps_onLrd (s : State) (f : LrdState → LrdState) : Dev.Keeps [.lrd] s.dev (s.fresh.onLrd f) :=
  (s.keeps_fresh.mono (by simp)).andThen (Dev.keeps_onLrd _ _) (by simp)

/-- Settles O57: LARDER_READ by kind, then LARDER_MARK by action. -/
theorem larderCommandsComplete : Obligations.LarderCommandsComplete := by
  refine ⟨fun c s ha => ⟨fun h => ?_, fun hk hl => ?_, fun hk hf hc hc0 htot hl => ?_, fun hk hc hl hr =>
    larderRead_record ha hk hc hl hr⟩, fun c s ha => ⟨fun h => exec_larderMark ha (Dev.larderMark_bad h), fun hres =>
    ⟨fun h => exec_larderMark ha (Dev.larderMark_mark hres h),
     fun h hk => exec_larderMark ha (Dev.larderMark_no_slot hres h hk), fun h hk hh => ?_, fun h hk hh => ?_,
     fun h hk hh => ?_, fun h hofs hlen hmax htot hh hb => ?_⟩⟩⟩
  · exact exec_larderRead ha (Dev.larderRead_bad (by simp [readBad, h]))
  · have hk3 : c.byte 20 ≠ 3 := by omega
    exact exec_larderRead ha (Dev.larderRead_bad (by simp [readBad, hk3, hl]))
  · have hgood : readBad c = false := by
      simp only [readBad, hk, if_true, Bool.or_eq_false_iff, decide_eq_false_iff_not]
      omega
    exact exec_larderRead ha (Dev.larderRead_user hgood hk)
  · exact exec_larderMark ha ((Dev.larderMark_slot hres h hk).trans (if_pos hh))
  · have heq := (Dev.larderMark_slot (d := s.fresh) hres (.inl h) hk).trans (if_neg (ne_true_of_eq_false hh))
    replace heq := heq.trans (if_pos h)
    exact ⟨fun hp => exec_larderMark ha (heq.trans (if_pos hp)), fun hp =>
      ⟨_, exec_larderMark ha (heq.trans (if_neg (Nat.not_le.2 hp))), rfl, s.keeps_onLrd _⟩⟩
  · have heq := (Dev.larderMark_slot (d := s.fresh) hres (.inr h) hk).trans (if_neg (ne_true_of_eq_false hh))
    exact ⟨_, exec_larderMark ha (heq.trans (if_neg (by omega))), bitAt_cleared .., s.keeps_onLrd _⟩
  · exact ⟨_, exec_larderMark ha (Dev.larderMark_user hres h hofs hlen hmax htot hh hb), rfl, s.keeps_onLrd _⟩

end Sys2Proof.Machine
end

section
/-! PROOFS. Attestation and the debug challenge (R467–R470). -/

namespace Sys2Proof.Machine

open Host

/-! ### Slices -/

@[simp] theorem length_slice (bs : List Byte) (i n : Nat) : (slice bs i n).length = n := by
  simp [slice]

/-- A slice that names a part of a list is that part. -/
theorem slice_append_middle (pre mid post : List Byte) :
    slice (pre ++ (mid ++ post)) pre.length mid.length = mid := by
  simp [slice]

/-! ### ATTEST (R468) -/

theorem exec_attest {c : Cmd} {s : State} {d : Dev} (h : s.dev.admits 0x80 (inlMask [(20, 0xFF)]) c)
    (hd : s.fresh.attest c = d) : exec (.attest c) s = .next (s.after d) :=
  hd ▸ State.runCmd_admits (Dev.attest c) h

section
variable {c : Cmd} {d : Dev}

theorem Dev.attest_bad_buffer (h : c.byte 20 = 0) (hl : c.len.toNat ≠ 312) :
    d.attest c = d.complete c 0x80 stBadParam := by
  rw [Dev.attest, h]
  exact if_pos hl

theorem Dev.attest_report (h : c.byte 20 = 0) (hl : c.len.toNat = 312) (hb : c.bufErr = false) :
    d.attest c = (({ d with free := d.free + 1 } : Dev).post c.addr.toNat (d.reportBody c.data ++
      beBytes 96 (Config.attestSignature d.free).toNat)).completeRes c 0x80 stOk 312 [] := by
  rw [Dev.attest, h]
  exact (if_neg (not_not.2 hl)).trans (Dev.withBuffer_read _ _ hb)

theorem Dev.attest_long_chain (h : c.byte 20 = 1) (hl : c.len.toNat < Config.certLength.toNat) :
    d.attest c = d.complete c 0x80 stBadParam := by
  rw [Dev.attest, h]
  exact if_pos hl

theorem Dev.attest_chain (h : c.byte 20 = 1) (hl : Config.certLength.toNat ≤ c.len.toNat) :
    d.attest c = (d.post c.addr.toNat certChain).completeRes c 0x80 stOk Config.certLength.toNat [] := by
  rw [Dev.attest, h]
  exact if_neg (Nat.not_lt.2 hl)

theorem Dev.attest_unknown (h : 1 < c.byte 20) : d.attest c = d.complete c 0x80 stBadParam := by
  unfold Dev.attest
  split
  · omega
  · omega
  · rfl

end

/-- A report before its nonce. -/
def Dev.reportStart (d : Dev) : List Byte :=
  [0x41, 0x54, 0x53, 0x54] ++ leBytes 2 1 ++ leBytes 1 (b2n d.twn.primary) ++ leBytes 1 (twinCode d.twn.st) ++
    leBytes 4 0x9160 ++ leBytes 4 0x43

/-- A report after the digest of the configuration. -/
def Dev.reportEnd (d : Dev) : List Byte :=
  slice d.fenDigest 0 48 ++ leBytes 4 d.fen.logSeq ++ leBytes 1 d.sec.arb ++ leBytes 1 d.sec.slot ++
    leBytes 1 d.sec.debug ++ leBytes 1 0 ++ leBytes 8 d.clk.secs ++ leBytes 4 d.ang.cur.sn.toNat ++ leBytes 4 0

theorem Dev.reportBody_eq (d : Dev) (nonce : List Byte) : d.reportBody nonce =
    d.reportStart ++ slice nonce 0 32 ++ d.reportDigest ++ slice d.sec.digest 0 48 ++ d.reportEnd := by
  simp only [Dev.reportBody, Dev.reportStart, Dev.reportEnd, List.append_assoc]

theorem Dev.length_reportStart (d : Dev) : d.reportStart.length = 16 := by simp [Dev.reportStart, length_leBytes]

theorem Dev.length_reportDigest (d : Dev) : d.reportDigest.length = 48 := length_slice ..

theorem Dev.length_reportEnd (d : Dev) : d.reportEnd.length = 72 := by simp [Dev.reportEnd, length_leBytes]

theorem Dev.length_reportBody (d : Dev) (nonce : List Byte) : (d.reportBody nonce).length = 216 := by
  simp [Dev.reportBody_eq, Dev.length_reportStart, Dev.length_reportDigest, Dev.length_reportEnd]

theorem Dev.reportBody_nonce (d : Dev) (nonce : List Byte) : slice (d.reportBody nonce) 16 32 = slice nonce 0 32 := by
  have h := slice_append_middle d.reportStart (slice nonce 0 32) (d.reportDigest ++ slice d.sec.digest 0 48 ++ d.reportEnd)
  rw [d.length_reportStart, length_slice] at h
  rw [Dev.reportBody_eq]
  simpa only [List.append_assoc] using h

theorem Dev.reportBody_config (d : Dev) (nonce : List Byte) :
    slice (d.reportBody nonce) 96 48 = slice d.sec.digest 0 48 := by
  have h := slice_append_middle (d.reportStart ++ slice nonce 0 32 ++ d.reportDigest) (slice d.sec.digest 0 48) d.reportEnd
  rw [List.length_append, List.length_append, d.length_reportStart, length_slice, d.length_reportDigest, length_slice] at h
  rw [Dev.reportBody_eq]
  simpa only [List.append_assoc] using h

/-! ### SEC_CHAL and SEC_RESP (R470) -/

theorem secChal_gives (s : State) : Answers .secChal s fun t => t.dev.sec = { s.dev.sec with
      challenge := some (Config.challenge s.dev.free).toNat } ∧ t.dev.free = s.dev.free + 1 ∧
    ChangesOnly [.sec, .free] s t ∧ Quiet s t := by
  have hkeep : Dev.Keeps [.sec, .free] s.fresh
      { s.fresh.onSec fun x => { x with challenge := some (Config.challenge s.fresh.free).toNat } with
        free := s.fresh.free + 1 } :=
    ((s.fresh.keeps_onSec _).mono (by decide)).andThen (Dev.keeps_free _ _) (by decide)
  exact .of_effect rfl ⟨rfl, rfl, hkeep.quietly rfl⟩

section
variable {l k : Byte} {key sig : List Byte} {s : State} {d : Dev}

theorem exec_secResp (hkey : key.length = 97) (hsig : sig.length = 96)
    (hd : s.fresh.secResp l.toNat k.toNat key sig = d) : exec (.secResp l k key sig) s = .next (s.after d) := by
  have hlen : decide (key.length = 97 ∧ sig.length = 96) = true := decide_eq_true ⟨hkey, hsig⟩
  exact exec_of_effect (congrArg (fun ok => s.runIf ok (Dev.secResp l.toNat k.toNat key sig)) hlen) hd

/-- The challenge is used up. -/
def Dev.challengeUsed (d : Dev) : Dev := d.onSec fun s => { s with challenge := none }

/-- A response that verifies opens its level. -/
def Dev.levelOpened (level slot : Nat) (d : Dev) : Dev :=
  ((d.challengeUsed.onSec fun s => { s with debug := level }).event 19 5 slot 0 0).irq 62

theorem Dev.secResp_none {level slot : Nat} (h : d.sec.challenge = none) :
    d.secResp level slot key sig = d.challengeUsed.event 19 6 slot 0 0 := by
  unfold Dev.secResp
  rw [h]
  rfl

theorem Dev.secResp_bad {level slot x : Nat} (h : d.sec.challenge = some x) (hr : d.respOk x level slot key sig = false) :
    d.secResp level slot key sig = d.challengeUsed.event 19 6 slot 0 0 := by
  unfold Dev.secResp
  rw [h]
  exact if_neg (ne_true_of_eq_false hr)

theorem Dev.secResp_good {level slot x : Nat} (h : d.sec.challenge = some x) (hr : d.respOk x level slot key sig = true) :
    d.secResp level slot key sig =
      (d.levelOpened level slot).record 5 0 (leBytes 1 level ++ leBytes 1 slot) := by
  unfold Dev.secResp
  rw [h]
  exact if_pos hr

/-- Without a challenge there is none to use up. -/
theorem Dev.challengeUsed_of_none (h : d.sec.challenge = none) : d.challengeUsed = d := by
  rw [Dev.challengeUsed, Dev.onSec, ← h]

theorem Dev.levelOpened_sec (level slot : Nat) :
    (d.levelOpened level slot).sec = { d.sec with challenge := none, debug := level } := by
  rw [Dev.levelOpened, Dev.irq_sec, Dev.event_sec]
  rfl

theorem Dev.touches_levelOpened (level slot : Nat) :
    Dev.Touches [.sec, .events, .reports] d (d.levelOpened level slot) :=
  .mono ((((d.touches_onSec _).andThen (Dev.touches_onSec ..)).andThen (Dev.touches_event ..)).andThen
    (Dev.touches_irq ..)) (by decide)

theorem Dev.levelOpened_stands (level slot : Nat) : (d.levelOpened level slot).stands Reg.SEC_EVENT 32 :=
  (Dev.touches_irq ..).grows _ _ (Dev.event_stands 19 5 ..)

theorem secResp_refused (hkey : key.length = 97) (hsig : sig.length = 96)
    (h : s.fresh.secResp l.toNat k.toNat key sig = s.fresh.challengeUsed.event 19 6 k.toNat 0 0) :
    Answers (.secResp l k key sig) s fun t => t.dev.sec = { s.dev.sec with challenge := none } ∧
      t.dev.stands Reg.SEC_EVENT 64 ∧ ChangesOnly [.sec, .events, .reports] s t := by
  have hsec : (s.fresh.challengeUsed.event 19 6 k.toNat 0 0).sec = { s.dev.sec with challenge := none } := Dev.event_sec ..
  have h64 : (s.fresh.challengeUsed.event 19 6 k.toNat 0 0).stands Reg.SEC_EVENT 64 := Dev.event_stands 19 6 ..
  exact ⟨_, exec_secResp hkey hsig h, hsec, h64,
    .of_after ((s.fresh.touches_onSec _).andThen (Dev.touches_event ..)).keeps⟩

theorem secResp_unchallenged (hkey : key.length = 97) (hsig : sig.length = 96) (h : s.dev.sec.challenge = none) :
    Answers (.secResp l k key sig) s fun t => t.dev.sec = s.dev.sec ∧ t.dev.stands Reg.SEC_EVENT 64 ∧
      ChangesOnly [.events, .reports] s t := by
  have heq := Dev.secResp_none (d := s.fresh) (key := key) (sig := sig) (level := l.toNat) (slot := k.toNat) h
  rw [Dev.challengeUsed_of_none (d := s.fresh) h] at heq
  have h64 : (s.fresh.event 19 6 k.toNat 0 0).stands Reg.SEC_EVENT 64 := Dev.event_stands 19 6 ..
  exact ⟨_, exec_secResp hkey hsig heq, Dev.event_sec .., h64, .of_after (Dev.touches_event ..).keeps⟩

/-- A new record waits among those that are due, without a number yet. -/
theorem Dev.record_noted (e : Dev) (typ flags : Nat) (data : List Byte) :
    ∃ y, (e.record typ flags data).lrd.due = insertDue y e.lrd.due ∧ y.1 = 0 := ⟨_, Dev.record_due .., rfl⟩

theorem secResp_opens (hkey : key.length = 97) (hsig : sig.length = 96) {x : Nat} (h : s.dev.sec.challenge = some x)
    (hr : s.dev.respOk x l.toNat k.toNat key sig = true) : Answers (.secResp l k key sig) s fun t =>
      t.dev.sec = { s.dev.sec with challenge := none, debug := l.toNat } ∧ t.dev.stands Reg.SEC_EVENT 32 ∧
      (∃ y, t.dev.lrd.due = insertDue y s.dev.lrd.due ∧ y.1 = 0) ∧
      ChangesOnly [.sec, .lrd, .events, .reports] s t := by
  have heq := Dev.secResp_good (d := s.fresh) h hr
  have hopen := Dev.touches_levelOpened (d := s.fresh) l.toNat k.toNat
  have hrec := Dev.touches_record (s.fresh.levelOpened l.toNat k.toNat) 5 0 (leBytes 1 l.toNat ++ leBytes 1 k.toNat)
  have hdue := Dev.record_noted (s.fresh.levelOpened l.toNat k.toNat) 5 0 (leBytes 1 l.toNat ++ leBytes 1 k.toNat)
  have hlrd : s.dev.lrd = (s.fresh.levelOpened l.toNat k.toNat).lrd := hopen.same .lrd (by decide)
  have hsec := (hrec.same .sec (by decide)).symm.trans (Dev.levelOpened_sec (d := s.fresh) l.toNat k.toNat)
  have h32 := hrec.grows _ _ (Dev.levelOpened_stands (d := s.fresh) l.toNat k.toNat)
  rw [← hlrd] at hdue
  generalize (s.fresh.levelOpened l.toNat k.toNat).record 5 0 _ = d at *
  exact ⟨_, exec_secResp hkey hsig heq, hsec, h32, hdue, .of_after ((hopen.andThen hrec).keeps.mono (by decide))⟩

end

/-- Settles O55: ATTEST by what it asks for, the bytes of a report, the challenge, and the response by its outcome. -/
theorem identityRowsTakeEffect : Obligations.IdentityRowsTakeEffect := by
  refine ⟨fun c s ha => ⟨fun h hl => exec_attest ha (Dev.attest_bad_buffer h hl),
      fun h hl hb => exec_attest ha (Dev.attest_report h hl hb), fun h hl => exec_attest ha (Dev.attest_long_chain h hl),
      fun h hl => exec_attest ha (Dev.attest_chain h hl), fun h => exec_attest ha (Dev.attest_unknown h)⟩,
    fun d nonce => ⟨d.length_reportBody nonce, d.reportBody_nonce nonce, d.reportBody_config nonce⟩, secChal_gives,
    fun l k key sig s hkey hsig => ⟨secResp_unchallenged hkey hsig, fun x h hr => secResp_refused hkey hsig
      (Dev.secResp_bad (d := s.fresh) h hr), fun x h hr => secResp_opens hkey hsig h hr⟩⟩

end Sys2Proof.Machine
end

section
/-! PROOFS. Capture sets: an operation on one set leaves the others, and a command or trigger reaches each set it names once. -/

namespace Sys2Proof.Machine

open Host

/-- No capture set changes but the one named, and no trigger unit. -/
structure Dev.OnSet (k : Nat) (a d : Dev) : Prop where
  others : ∀ j, j ≠ k → d.aset j = a.aset j
  units : d.acq.units = a.acq.units

namespace Dev.OnSet

variable {k : Nat} {a d e : Dev}

theorem refl : Dev.OnSet k d d := ⟨fun _ _ => rfl, rfl⟩

theorem trans (h : Dev.OnSet k a d) (h' : Dev.OnSet k d e) : Dev.OnSet k a e :=
  ⟨fun j hj => (h'.others j hj).trans (h.others j hj), h'.units.trans h.units⟩

theorem ite {c : Prop} [Decidable c] (hd : Dev.OnSet k a d) (he : Dev.OnSet k a e) :
    Dev.OnSet k a (if c then d else e) := by split <;> assumption

theorem foldl {α : Type} {f : Dev → α → Dev} (hf : ∀ (d : Dev) x, Dev.OnSet k d (f d x)) (l : List α) (d : Dev) :
    Dev.OnSet k d (l.foldl f d) := by
  induction l generalizing d with
  | nil => exact refl
  | cons x rest ih => exact (hf d x).trans (ih _)

/-- An operation that leaves disturbance capture as it is. -/
theorem of_acq (h : d.acq = a.acq) : Dev.OnSet k a d := ⟨fun j _ => congrArg (·.sets.get AcqSet.reset j) h, congrArg _ h⟩

end Dev.OnSet

section
variable (d : Dev) (k : Nat)

@[simp] theorem Dev.aset_setAset_self (v : AcqSet) : (d.setAset k v).aset k = v := SMap.get_set_self ..

theorem Dev.onSet_setAset (v : AcqSet) : Dev.OnSet k d (d.setAset k v) :=
  ⟨fun _ hj => SMap.get_set_of_ne _ _ _ hj.symm, rfl⟩

theorem Dev.onSet_event (blk bit d0 d1 d2 : Nat) : Dev.OnSet k d (d.event blk bit d0 d1 d2) := .of_acq (Dev.event_acq ..)

theorem Dev.onSet_irq (n : Nat) : Dev.OnSet k d (d.irq n) := .of_acq (Dev.irq_acq ..)

theorem Dev.onSet_startFilling : Dev.OnSet k d (d.startFilling k) := d.onSet_setAset ..

theorem Dev.onSet_closeRecord (r : AcqRecord) : Dev.OnSet k d (d.closeRecord k r) :=
  (d.onSet_setAset ..).trans (.ite .refl (.ite (Dev.onSet_setAset ..) (.ite (Dev.onSet_startFilling ..)
    (Dev.onSet_setAset ..))))

theorem Dev.onSet_setAset_event (v : AcqSet) (blk bit d0 d1 d2 : Nat) :
    Dev.OnSet k d ((d.setAset k v).event blk bit d0 d1 d2) := (d.onSet_setAset k v).trans (Dev.onSet_event ..)

theorem Dev.onSet_noted (v : AcqSet) : Dev.OnSet k d (((d.setAset k v).event 13 0 k 0 0).irq 44) :=
  (d.onSet_setAset_event ..).trans (Dev.onSet_irq ..)

theorem Dev.onSet_startRecord (mask : Nat) (smp : AcqSample) : Dev.OnSet k d (d.startRecord k mask smp) :=
  (d.onSet_noted ..).trans (.ite (Dev.onSet_closeRecord ..) .refl)

theorem Dev.onSet_missTriggers (ts : List (Nat × Nat)) (smp : AcqSample) : Dev.OnSet k d (d.missTriggers k ts smp) := by
  unfold Dev.missTriggers
  dsimp only
  split
  · exact .refl
  · exact .ite .refl (d.onSet_setAset_event ..)

theorem Dev.onSet_postSample (smp : AcqSample) : Dev.OnSet k d (d.postSample k smp) := by
  unfold Dev.postSample
  split
  · exact .refl
  · exact (d.onSet_setAset ..).trans (.ite (Dev.onSet_closeRecord ..) .refl)

theorem Dev.onSet_acqStore (smp : AcqSample) : Dev.OnSet k d (d.acqStore k smp) := by
  unfold Dev.acqStore
  extract_lets x fallen mask d1 fill
  have h1 : Dev.OnSet k d d1 := d.onSet_setAset ..
  have hfill (e : Dev) : Dev.OnSet k e (fill e) := .ite (Dev.onSet_startRecord ..) (Dev.onSet_setAset ..)
  split
  · exact h1
  · exact h1.trans (hfill _)
  · exact h1.trans (hfill _)
  · exact h1.trans ((Dev.onSet_missTriggers ..).trans (Dev.onSet_postSample ..))
  · exact h1.trans (.ite ((Dev.onSet_startFilling ..).trans (hfill _)) (.ite (Dev.onSet_setAset_event ..) .refl))

theorem Dev.onSet_setAset_acqAgain (v : AcqSet) (later : List AcqSample) :
    Dev.OnSet k d ((d.setAset k v).acqAgain k later) :=
  (d.onSet_setAset k v).trans (.foldl (fun d s => d.onSet_acqStore k s) _ _)

theorem Dev.onSet_retake (bit t : Nat) (rs : List AcqRecord) (live : List AcqSample) :
    Dev.OnSet k d (d.retake k bit t rs live) := by
  unfold Dev.retake
  split
  · exact .refl
  · exact d.onSet_setAset_acqAgain ..

theorem Dev.onSet_reopen (bit t : Nat) (rs : List AcqRecord) : Dev.OnSet k d (d.reopen k bit t rs) := by
  unfold Dev.reopen
  dsimp only
  split
  · exact .refl
  · exact .ite (((d.onSet_setAset ..).trans (Dev.onSet_retake ..)).trans (Dev.onSet_setAset ..))
      ((d.onSet_setAset ..).trans (Dev.onSet_retake ..))

theorem Dev.onSet_closedTrigger (bit t : Nat) (rs : List AcqRecord) : Dev.OnSet k d (d.closedTrigger k bit t rs) := by
  unfold Dev.closedTrigger
  dsimp only
  split
  · exact .refl
  · refine .ite (Dev.onSet_reopen ..) (.ite (d.onSet_noted ..) ?_)
    split
    · exact .refl
    · exact d.onSet_setAset_event ..

theorem Dev.onSet_acqTrigger (bit t : Nat) : Dev.OnSet k d (d.acqTrigger k bit t) := by
  unfold Dev.acqTrigger
  dsimp only
  split
  · exact d.onSet_closedTrigger ..
  · split
    · exact .refl
    · exact d.onSet_setAset ..
    · split
      · exact .refl
      · refine .ite (Dev.onSet_retake ..) (.ite (d.onSet_noted ..) ?_)
        split
        · exact d.onSet_missTriggers ..
        · exact d.onSet_setAset ..
    · exact d.onSet_setAset_acqAgain ..
    · exact d.onSet_setAset_acqAgain ..

end

/-! ### Each set once -/

section
variable {f : Dev → Nat → Dev} (hf : ∀ d k, Dev.OnSet k d (f d k))
  (ht : ∀ d k, Dev.Touches [.acq, .events, .reports] d (f d k))
include hf

/-- A set that is not named stays. -/
theorem Dev.foldl_sets_others (ks : List Nat) (d : Dev) {j : Nat} (hj : j ∉ ks) : (ks.foldl f d).aset j = d.aset j := by
  induction ks generalizing d with
  | nil => rfl
  | cons k rest ih =>
    rw [List.mem_cons, not_or] at hj
    exact (ih _ hj.2).trans ((hf d k).others j hj.1)

theorem Dev.foldl_sets_units (ks : List Nat) (d : Dev) : (ks.foldl f d).acq.units = d.acq.units := by
  induction ks generalizing d with
  | nil => rfl
  | cons k rest ih => exact (ih _).trans (hf d k).units

include ht

/-- A set that is named once is what the operation makes of it, on a device in which it is as before. -/
theorem Dev.foldl_sets_named {ks : List Nat} (hn : ks.Nodup) (d : Dev) {k : Nat} (hk : k ∈ ks) :
    ∃ a, Dev.Touches [.acq, .events, .reports] d a ∧ a.aset k = d.aset k ∧ (ks.foldl f d).aset k = (f a k).aset k := by
  induction ks generalizing d with
  | nil => cases hk
  | cons j rest ih =>
    obtain ⟨hj, hrest⟩ := List.nodup_cons.1 hn
    rcases List.mem_cons.1 hk with rfl | hk
    · exact ⟨d, .mono .refl (by decide), rfl, Dev.foldl_sets_others hf rest _ hj⟩
    · obtain ⟨a, hta, hset, heq⟩ := ih hrest (f d j) hk
      have hne : k ≠ j := fun h => hj (h ▸ hk)
      exact ⟨a, ((ht d j).andThen hta).mono (by decide), hset.trans ((hf d j).others k hne), heq⟩

end

end Sys2Proof.Machine
end

section
/-! PROOFS. Triggers reach their sets (R323–R330). -/

namespace Sys2Proof.Machine

open Host

section
variable {d : Dev} {k bit : Nat}

theorem takeWhile_of_none {α : Type} {p : α → Bool} {l : List α} (h : ∀ x ∈ l, p x = false) : l.takeWhile p = [] := by
  cases l with
  | nil => rfl
  | cons x rest => simp [h x]

/-- What a trigger does to a set none of whose closed records it can fall on. -/
theorem Dev.acqTrigger_of_closed (t : Nat) (h : ∀ r ∈ (d.aset k).closed, recLast r < t) :
    d.acqTrigger k bit t = match (d.aset k).phase with
      | .disarmed => d
      | .wait => d.setAset k { d.aset k with trig := (d.aset k).trig ++ [(bit, t)] }
      | .post => match (d.aset k).cur with
        | none => d
        | some r =>
          if recStarts r t then d.retake k bit t [r] []
          else if t ≤ r.trigTick then
            ((d.setAset k { d.aset k with cur := some (recJoin r bit) }).event 13 0 k 0 0).irq 44
          else
            match recFalls r t with
            | some s => d.missTriggers k [(bit, t)] s
            | none => d.setAset k { d.aset k with trig := (d.aset k).trig ++ [(bit, t)] }
      | .filling | .ready =>
        let later := (d.aset k).pre.takeWhile fun s => decide (t ≤ s.tick)
        (d.setAset k { d.aset k with
          pre := (d.aset k).pre.drop later.length, trig := (d.aset k).trig ++ [(bit, t)] }).acqAgain k later := by
  have hdrop : ((d.aset k).closed.dropWhile fun r => decide (recLast r < t)) = [] := by
    rw [List.dropWhile_eq_nil_iff]
    intro r hr
    exact decide_eq_true (h r hr)
  unfold Dev.acqTrigger
  simp only [hdrop] <;> rfl

/-- The trigger waits for the next sample. -/
def waiting (bit t : Nat) (x : AcqSet) : AcqSet := { x with trig := x.trig ++ [(bit, t)] }

theorem Dev.acqTrigger_older (h : (d.aset k).phase ≠ .disarmed) (hcur : (d.aset k).phase = .post → (d.aset k).cur ≠ none)
    (hold : setOlder (d.aset k) d.now) : (d.acqTrigger k bit d.now).aset k = waiting bit d.now (d.aset k) := by
  obtain ⟨hclosed, hpre, hrec⟩ := hold
  have hlate : ((d.aset k).pre.takeWhile fun s => decide (d.now ≤ s.tick)) = [] :=
    takeWhile_of_none fun s hs => decide_eq_false (Nat.not_le.2 (hpre s hs))
  rw [Dev.acqTrigger_of_closed _ hclosed]
  split
  · rename_i hp
    exact absurd hp h
  · exact Dev.aset_setAset_self ..
  · rename_i hp
    cases hc : (d.aset k).cur with
    | none => exact absurd hc (hcur hp)
    | some r =>
      obtain ⟨htrig, hkept⟩ := hrec r hc
      have hstarts : recStarts r d.now = false := by
        rw [recStarts, List.any_eq_false]
        intro s hs
        have hs' := hkept s hs
        simp only [decide_eq_true_eq]
        omega
      have hfalls : recFalls r d.now = none := by
        have hnone : (r.samples.takeWhile fun s => decide (d.now ≤ s.tick)) = [] :=
          takeWhile_of_none fun s hs => decide_eq_false (Nat.not_le.2 (hkept s (List.mem_append_left _ hs)))
        rw [recFalls, hnone]
        rfl
      simp only [hstarts, Nat.not_le.2 htrig, if_false, hfalls, Bool.false_eq_true]
      exact Dev.aset_setAset_self ..
  · simp only [hlate]
    exact Dev.aset_setAset_self ..
  · simp only [hlate]
    exact Dev.aset_setAset_self ..

/-- The record that a sample triggers (R325, R327). -/
def Dev.newRecord (k mask : Nat) (smp : AcqSample) (d : Dev) : AcqRecord :=
  let x := d.aset k
  let pre := x.pre.take (d.asetP k)
  { mask := mask, samples := smp :: pre, pre := pre.length, trigTick := smp.tick
    before := (x.pre.drop (d.asetP k)).take lateSamples, missed := 0, missedAt := []
    missSn := 0, missTheta := 0
    dropped := x.dropSince, seq := x.seq, chans := (d.asetChans k).length
    conv := d.flag (Reg.ACQ_SET_CFG k) 28, div := d.fld (Reg.ACQ_SET_DIV k) 15 0, single := x.single, stepped := false }

theorem Dev.startRecord_aset (mask : Nat) (smp : AcqSample) (h : d.asetP k + 1 ≠ d.asetN k) :
    (d.startRecord k mask smp).aset k = { d.aset k with
      phase := .post, cur := some (d.newRecord k mask smp), pre := [], seq := (d.aset k).seq + 1, dropSince := 0 } := by
  have hnoted (v : AcqSet) : (((d.setAset k v).event 13 0 k 0 0).irq 44).aset k = v := by
    rw [Dev.aset, Dev.irq_acq, Dev.event_acq]
    exact Dev.aset_setAset_self ..
  have hcfg (v : AcqSet) : Dev.Touches [.acq, .events, .reports] d (((d.setAset k v).event 13 0 k 0 0).irq 44) :=
    .mono (((Dev.touches_setAset ..).andThen (Dev.touches_event ..)).andThen (Dev.touches_irq ..)) (by decide)
  unfold Dev.startRecord
  extract_lets x pre r d1
  have hP : d1.asetP k = d.asetP k := by
    simp only [Dev.asetP, Dev.asetN, Dev.fld, (hcfg _).cfg _ (by decide), d1]
  have hN : d1.asetN k = d.asetN k := by
    simp only [Dev.asetN, Dev.fld, (hcfg _).cfg _ (by decide), d1]
  rw [if_neg (by rw [hP, hN]; exact h)]
  exact hnoted _

theorem Dev.acqStore_starts {t : Nat} {smp : AcqSample} (hp : (d.aset k).phase = .ready)
    (htrig : (d.aset k).trig = [(bit, t)]) (ht : t ≤ smp.tick) :
    d.acqStore k smp = (d.setAset k { d.aset k with trig := [] }).startRecord k (2 ^ bit) smp := by
  unfold Dev.acqStore
  simp only [hp, htrig, List.filter_cons, ht, decide_true, if_true, List.filter_nil, List.foldl_cons, List.foldl_nil,
    Bool.not_true, Bool.false_eq_true, if_false, Nat.zero_or, ne_eq]
  exact if_pos (Nat.two_pow_pos bit).ne'

/-- A trigger of a READY set whose newest sample is of this tick begins its record with it (R325). -/
theorem Dev.acqTrigger_now {p : AcqSample} {rest : List AcqSample} (hp : (d.aset k).phase = .ready)
    (hpre : (d.aset k).pre = p :: rest) (hnow : p.tick = d.now) (hrest : ∀ q ∈ rest, q.tick < d.now)
    (htrig : (d.aset k).trig = []) (hclosed : ∀ r ∈ (d.aset k).closed, recLast r < d.now) :
    ∃ e : Dev, e.aset k = { d.aset k with pre := rest, trig := [] } ∧ e.asetP k = d.asetP k ∧ e.asetN k = d.asetN k ∧
      d.acqTrigger k bit d.now = e.startRecord k (2 ^ bit) p := by
  have hlate : ((d.aset k).pre.takeWhile fun s => decide (d.now ≤ s.tick)) = [p] := by
    rw [hpre, List.takeWhile_cons, hnow,
      takeWhile_of_none fun s hs => decide_eq_false (Nat.not_le.2 (hrest s hs))]
    simp
  let e : Dev := d.setAset k { d.aset k with pre := rest, trig := [(bit, d.now)] }
  have he : e.aset k = { d.aset k with pre := rest, trig := [(bit, d.now)] } := Dev.aset_setAset_self ..
  have hstore : e.acqStore k p = (e.setAset k { e.aset k with trig := [] }).startRecord k (2 ^ bit) p :=
    Dev.acqStore_starts (he ▸ hp) (he ▸ rfl) hnow.ge
  refine ⟨e.setAset k { e.aset k with trig := [] }, ?_, rfl, rfl, ?_⟩
  · rw [Dev.aset_setAset_self, he]
  · rw [← hstore, Dev.acqTrigger_of_closed _ hclosed, hp]
    dsimp only
    rw [hlate, hpre, htrig]
    rfl

theorem Dev.acqTrigger_triggered : d.Triggered k bit ((d.acqTrigger k bit d.now).aset k) := by
  refine ⟨fun hp hclosed => ?_, Dev.acqTrigger_older, fun p rest hp hpre hnow hrest htrig hclosed hlen => ?_⟩
  · rw [Dev.acqTrigger_of_closed _ hclosed, hp]
  · obtain ⟨e, hset, hP, hN, heq⟩ := Dev.acqTrigger_now (bit := bit) hp hpre hnow hrest htrig hclosed
    rw [heq, Dev.startRecord_aset _ _ (by rw [hP, hN]; exact hlen), Dev.newRecord, hset, hP]
    exact ⟨rfl, rfl, rfl, _, rfl, rfl, hnow, rfl, List.length_take, rfl⟩

/-- What a trigger does to a set depends on the set and on the registers alone. -/
theorem Dev.Triggered.of_touches {a : Dev} {y : AcqSet} (h : a.Triggered k bit y)
    (ht : Dev.Touches [.acq, .events, .reports] d a) (hs : a.aset k = d.aset k) : d.Triggered k bit y := by
  have hnow : a.now = d.now := ht.tick.symm
  have hN : a.asetN k = d.asetN k := by simp only [Dev.asetN, Dev.fld, ht.cfg _ (by decide)]
  have hP : a.asetP k = d.asetP k := by simp only [Dev.asetP, hN, Dev.fld, ht.cfg _ (by decide)]
  unfold Dev.Triggered at h ⊢
  rwa [hnow, hs, hN, hP] at h

end

/-! ### One trigger to many sets -/

section
variable {f : Dev → Nat → Dev} (hf : ∀ d k, Dev.OnSet k d (f d k))
  (ht : ∀ d k, Dev.Touches [.acq, .events, .reports] d (f d k)) {ks : List Nat} (hn : ks.Nodup) {d : Dev} {k : Nat}
include hf ht hn

theorem Dev.foldl_triggered {bit : Nat} (hk : k ∈ ks) (h : ∀ a, Dev.Touches [.acq, .events, .reports] d a →
    f a k = a.acqTrigger k bit a.now) : d.Triggered k bit ((ks.foldl f d).aset k) := by
  obtain ⟨a, hta, hset, heq⟩ := Dev.foldl_sets_named hf ht hn d hk
  rw [heq, h a hta]
  exact Dev.acqTrigger_triggered.of_touches hta hset

theorem Dev.foldl_unnamed (h : ∀ a, Dev.Touches [.acq, .events, .reports] d a → f a k = a) :
    (ks.foldl f d).aset k = d.aset k := by
  by_cases hk : k ∈ ks
  · obtain ⟨a, hta, hset, heq⟩ := Dev.foldl_sets_named hf ht hn d hk
    rw [heq, h a hta, hset]
  · exact Dev.foldl_sets_others hf ks d hk

end

/-- A trigger at one set, where `p` says so of its registers. -/
def Dev.triggerWhere (p : Dev → Nat → Bool) (bit : Nat) (t : Dev → Nat) (d : Dev) (k : Nat) : Dev :=
  if p d k then d.acqTrigger k bit (t d) else d

section
variable (p : Dev → Nat → Bool) (bit : Nat) (t : Dev → Nat) (d : Dev) (k : Nat)

theorem Dev.onSet_triggerWhere : Dev.OnSet k d (d.triggerWhere p bit t k) := .ite (d.onSet_acqTrigger ..) .refl

theorem Dev.touches_triggerWhere : Dev.Touches [.acq, .events, .reports] d (d.triggerWhere p bit t k) :=
  .mono (.ite (d.touches_acqTrigger ..) .refl) (by decide)

/-- The sets that the registers name for a trigger, all of them. -/
def Dev.triggerSets (p : Dev → Nat → Bool) (bit : Nat) (t : Dev → Nat) (d : Dev) : Dev :=
  (upto 8).foldl (Dev.triggerWhere p bit t) d

theorem Dev.touches_triggerSets : Dev.Touches [.acq, .events, .reports] d (d.triggerSets p bit t) :=
  .foldl (fun d k => d.touches_triggerWhere p bit t k) _ _

theorem Dev.triggerSets_units : (d.triggerSets p bit t).acq.units = d.acq.units :=
  Dev.foldl_sets_units (fun d k => d.onSet_triggerWhere p bit t k) ..

variable {p bit t d}

/-- A trigger at this tick reaches each set that the registers name, and no other. -/
theorem Dev.triggerSets_reach (hp : ∀ a, Dev.Touches [.acq, .events, .reports] d a → ∀ k, p a k = p d k)
    (htime : ∀ a, Dev.Touches [.acq, .events, .reports] d a → t a = d.now) :
    (∀ k : Fin 8, p d k.val = true → d.Triggered k.val bit ((d.triggerSets p bit t).aset k.val)) ∧
    ∀ k : Fin 8, p d k.val = false → (d.triggerSets p bit t).aset k.val = d.aset k.val := by
  have hon := fun d k => Dev.onSet_triggerWhere p bit t d k
  have hto := fun d k => Dev.touches_triggerWhere p bit t d k
  refine ⟨fun k hk => Dev.foldl_triggered hon hto List.nodup_range (List.mem_range.2 k.isLt) fun a hta => ?_,
    fun k hk => Dev.foldl_unnamed hon hto List.nodup_range fun a hta => ?_⟩
  · have hnow : d.now = a.now := hta.tick
    rw [Dev.triggerWhere, if_pos ((hp a hta _).trans hk), htime a hta, hnow]
  · exact if_neg (by rw [hp a hta, hk]; decide)

end

/-! ### The rows of triggers -/

theorem State.fresh_triggered {s : State} {k bit : Nat} {y : AcqSet} (h : s.fresh.Triggered k bit y) :
    s.dev.Triggered k bit y := h

/-- A unit that has fired is no longer pending. -/
def Dev.unitDone (u : Nat) (d : Dev) : Dev := d.setAunit u { d.aunit u with pending := false }

theorem triggerUnitFire_gives (u : Fin 8) {s : State} (hp : (s.dev.aunit u.val).pending = true)
    (ha : s.dev.ang.cur.angle = true) : Answers (.triggerUnitFire u) s fun t =>
    (t.dev.aunit u.val).pending = false ∧
    (∀ k : Fin 8, bitAt (s.dev.fld (Reg.ACQ_SET_CFG k.val) 15 8) u.val = true →
      s.dev.Triggered k.val u.val (t.dev.aset k.val)) ∧
    (∀ k : Fin 8, bitAt (s.dev.fld (Reg.ACQ_SET_CFG k.val) 15 8) u.val = false → t.dev.aset k.val = s.dev.aset k.val) ∧
    ChangesOnly [.acq, .events, .reports] s t := by
  have heq : s.fresh.triggerUnitFire u.val = (s.fresh.unitDone u.val).triggerSets
      (fun d k => bitAt (d.fld (Reg.ACQ_SET_CFG k) 15 8) u.val) u.val fun _ => s.dev.now :=
    if_pos (by rw [Bool.and_eq_true]; exact ⟨hp, ha⟩)
  have hdone : Dev.Touches [.acq, .events, .reports] s.fresh (s.fresh.unitDone u.val) :=
    (Dev.touches_setAunit ..).mono (by decide)
  obtain ⟨hreach, hleave⟩ := Dev.triggerSets_reach (d := s.fresh.unitDone u.val) (bit := u.val)
    (p := fun d k => bitAt (d.fld (Reg.ACQ_SET_CFG k) 15 8) u.val) (t := fun _ => s.dev.now)
    (fun a hta k => by simp only [Dev.fld, hta.cfg _ (by decide)]) (fun _ _ => rfl)
  have hset : (s.fresh.unitDone u.val).aunit u.val = { s.fresh.aunit u.val with pending := false } := SMap.get_set_self ..
  have hunits := Dev.triggerSets_units (fun d k => bitAt (d.fld (Reg.ACQ_SET_CFG k) 15 8) u.val) u.val
    (fun _ => s.dev.now) (s.fresh.unitDone u.val)
  have hpend : ∀ d : Dev, d.acq.units = (s.fresh.unitDone u.val).acq.units → (d.aunit u.val).pending = false := by
    intro d h
    rw [Dev.aunit, h]
    exact congrArg AcqUnit.pending hset
  have hkeep := (hdone.andThen (Dev.touches_triggerSets (fun d k => bitAt (d.fld (Reg.ACQ_SET_CFG k) 15 8) u.val) u.val
    (fun _ => s.dev.now) (s.fresh.unitDone u.val))).keeps
  exact ⟨_, exec_of_effect rfl heq, hpend _ hunits, fun k hk => State.fresh_triggered ((hreach k hk).of_touches hdone rfl), hleave,
    .of_after (hkeep.mono (by decide))⟩

theorem extTrigIn_gives (l : Bool) {s : State} (h : s.dev.extReady l = true) : Answers (.extTrigIn l) s fun t =>
    (∀ k : Fin 8, s.dev.flag (Reg.ACQ_SET_CFG k.val) 29 = true → s.dev.Triggered k.val 8 (t.dev.aset k.val)) ∧
    (∀ k : Fin 8, s.dev.flag (Reg.ACQ_SET_CFG k.val) 29 = false → t.dev.aset k.val = s.dev.aset k.val) ∧
    ChangesOnly [.acq, .events, .reports] s t := by
  have heq : s.fresh.extTrig l = (s.fresh.onAcq fun a => { a with extSeen := true }).triggerSets
      (fun d k => d.flag (Reg.ACQ_SET_CFG k) 29) 8 Dev.now := if_neg (by rw [Bool.not_eq_true', Bool.not_eq_false]; exact h)
  have hseen : Dev.Touches [.acq, .events, .reports] s.fresh (s.fresh.onAcq fun a => { a with extSeen := true }) :=
    (Dev.touches_onAcq ..).mono (by decide)
  obtain ⟨hreach, hleave⟩ := Dev.triggerSets_reach (d := s.fresh.onAcq fun a => { a with extSeen := true }) (bit := 8)
    (p := fun d k => d.flag (Reg.ACQ_SET_CFG k) 29) (t := Dev.now)
    (fun a hta k => by simp only [Dev.flag, hta.cfg _ (by decide)]) (fun a hta => hta.tick.symm)
  have hkeep := (hseen.andThen (Dev.touches_triggerSets (fun d k => d.flag (Reg.ACQ_SET_CFG k) 29) 8 Dev.now _)).keeps
  exact ⟨_, exec_of_effect rfl heq, fun k hk => State.fresh_triggered ((hreach k hk).of_touches hseen rfl), hleave,
    .of_after (hkeep.mono (by decide))⟩

theorem autoTimeout_gives (k : Fin 8) {s : State} (hms : s.dev.fld (Reg.ACQ_SET_DIV k.val) 31 16 ≠ 0)
    (hp : (s.dev.aset k.val).phase = .filling ∨ (s.dev.aset k.val).phase = .ready)
    (ht : (s.dev.aset k.val).fillStart + s.dev.fld (Reg.ACQ_SET_DIV k.val) 31 16 * msTicks ≤ s.dev.now)
    (hnone : ∀ x ∈ (s.dev.aset k.val).trig, x.1 ≠ 11) : Answers (.autoTimeout k) s fun t =>
      s.dev.Triggered k.val 11 (t.dev.aset k.val) ∧ (∀ j : Fin 8, j ≠ k → t.dev.aset j.val = s.dev.aset j.val) ∧
      ChangesOnly [.acq, .events, .reports] s t := by
  have hall : (s.dev.aset k.val).trig.all (fun t => t.1 ≠ 11) = true := by simpa using hnone
  have heq : s.fresh.autoTimeout k.val = s.fresh.acqTrigger k.val 11 s.fresh.now := if_pos ⟨hms, hp, ht, hall⟩
  have htrig : s.fresh.Triggered k.val 11 ((s.fresh.acqTrigger k.val 11 s.fresh.now).aset k.val) :=
    Dev.acqTrigger_triggered
  have hon := s.fresh.onSet_acqTrigger k.val 11 s.fresh.now
  have hkeep := (s.fresh.touches_acqTrigger k.val 11 s.fresh.now).keeps
  exact ⟨_, exec_of_effect rfl heq, htrig, fun j hj => hon.others j.val fun h => hj (Fin.ext h), .of_after hkeep⟩

/-! ### RECORD_DELIVERY (R331–R334) -/

/-- The descriptor of a record (R334) whose bytes stand at `ofs` of the area. -/
def Dev.recordDesc (k : Nat) (r : AcqRecord) (ofs : Nat) (d : Dev) : List Byte :=
  let bs := recordBytes r (d.aset k).sieve
  let trg := r.samples.reverse.getD r.pre AcqSample.reset
  leBytes 2 0x0301 ++ [0, 0] ++ leBytes 4 0 ++ leBytes 8 (d.areaBase k + ofs) ++ leBytes 4 bs.length ++
    leBytes 4 r.seq ++ leBytes 4 trg.sn.toNat ++ leBytes 1 (d.aset k).sieve ++ [0, 0, 0]

/-- The oldest closed record leaves the set for `ofs` of the area (R331), and the last one of a set that is being disarmed
disarms it (R335). -/
def Dev.recordMoved (k : Nat) (r : AcqRecord) (rest : List AcqRecord) (ofs : Nat) (d : Dev) : Dev :=
  let x := d.aset k
  let n := (recordBytes r x.sieve).length
  let d := d.setAset k { x with
    closed := rest, area := d.areaHeld k ++ [((d.ring (8 + k)).prod, ofs, n)], areaNext := ofs + n
    recCnt := satInc x.recCnt }
  if x.ending && rest.isEmpty && x.cur.isNone then d.disarmSet k else d

section
variable {d : Dev} {k : Nat} {r : AcqRecord} {rest : List AcqRecord}

theorem Dev.sieveStep_of_stepped (hc : (d.aset k).closed = r :: rest) (h : r.stepped = true) : d.sieveStep k = d := by
  unfold Dev.sieveStep
  simp only [hc, h, if_true]

theorem Dev.touches_recordMoved (ofs : Nat) : Dev.Touches [.acq] d (d.recordMoved k r rest ofs) :=
  .mono (.ite ((d.touches_setAset ..).andThen (Dev.touches_setAset ..)) (d.touches_setAset ..)) (by decide)

variable (d) in
theorem Dev.recordMoved_areaBase (ofs : Nat) : (d.recordMoved k r rest ofs).areaBase k = d.areaBase k := by
  simp only [Dev.areaBase, Dev.touches_recordMoved ofs |>.cfg _ (by decide)]

theorem Dev.recordDelivery_moves (hc : (d.aset k).closed = r :: rest) (hs : r.stepped = true)
    (ho : d.recordOpen k r = false) (hroom : d.ringRoom (8 + k) ≠ 0) {ofs : Nat}
    (hofs : ofs = if (d.aset k).areaNext + (recordBytes r (d.aset k).sieve).length ≤ d.areaSize k
      then (d.aset k).areaNext else 0)
    (hfree : freeRun (d.areaHeld k) ofs (recordBytes r (d.aset k).sieve).length = true) :
    d.recordDelivery k = ((d.recordMoved k r rest ofs).post (d.areaBase k + ofs)
      (recordBytes r (d.aset k).sieve)).putDesc (8 + k) (4 + k) (d.recordDesc k r ofs) := by
  rw [← d.recordMoved_areaBase (r := r) (rest := rest) ofs]
  unfold Dev.recordDelivery
  simp only [Dev.sieveStep_of_stepped hc hs, ite_self, hc, ho, ← hofs, hroom, hfree, Bool.false_eq_true, if_false,
    Bool.true_eq_false, or_self]
  rfl

theorem Dev.recordDelivery_waits (h : ∀ r ∈ (d.aset k).closed.head?, d.recordOpen k r = true) :
    d.recordDelivery k = d := by
  unfold Dev.recordDelivery Dev.oldestOpen Dev.sieveStep
  cases hc : (d.aset k).closed with
  | nil => simp [hc]
  | cons r rest =>
    have ho := h r (by rw [hc]; rfl)
    simp [hc, ho]

theorem Dev.recordMoved_aset (ofs : Nat) :
    ((d.recordMoved k r rest ofs).aset k).closed = rest ∧
    ((d.recordMoved k r rest ofs).aset k).recCnt = satInc (d.aset k).recCnt ∧
    ((d.recordMoved k r rest ofs).aset k).areaNext = ofs + (recordBytes r (d.aset k).sieve).length ∧
    ((d.aset k).ending = true → rest = [] → (d.aset k).cur = none →
      ((d.recordMoved k r rest ofs).aset k).phase = .disarmed) := by
  unfold Dev.recordMoved Dev.disarmSet
  dsimp only
  split
  · simp
  · rename_i h
    simp only [Dev.aset_setAset_self, true_and]
    intro he hr hcur
    simp [he, hr, hcur] at h

end

/-- A descriptor stores at its place alone (R420, R421, R445). -/
theorem Dev.putDesc_stores (r src : Nat) (bs : List Byte) (d : Dev) : ∃ ws,
    (d.putDesc r src bs).host.out = d.host.out ++ ws ∧ ∀ a, storedTo ws a → d.descPlace r a := by
  obtain ⟨later, hout, hlater⟩ := d.putDesc_out r src bs
  refine ⟨_, hout, ?_⟩
  rintro a ⟨w, hw, hlo, hhi⟩
  rcases List.mem_cons.1 hw with rfl | hw
  · rw [length_slice] at hhi
    exact .inl ⟨by omega, by omega⟩
  rcases List.mem_cons.1 hw with rfl | hw
  · simp only [List.length_append, List.length_map, length_slice] at hhi
    exact .inl ⟨by omega, by omega⟩
  · obtain ⟨hlen, haddr | ⟨v, haddr⟩⟩ := hlater w hw
    · rw [haddr] at hlo hhi
      exact .inr (.inl ⟨hlo, hhi.trans_eq (by rw [hlen]; rfl)⟩)
    · rw [haddr] at hlo hhi
      exact .inr (.inr ⟨v, hlo, hhi.trans_eq (by rw [hlen])⟩)

/-- Disturbance capture alone changes where a record leaves its set. -/
theorem Dev.recordMoved_acq (d : Dev) (k : Nat) (r : AcqRecord) (rest : List AcqRecord) (ofs : Nat) :
    ∃ a, d.recordMoved k r rest ofs = { d with acq := a } := by
  unfold Dev.recordMoved
  dsimp only
  split
  · exact ⟨_, rfl⟩
  · exact ⟨_, rfl⟩

/-- Host memory after a row that posts one write and then a descriptor, away from the descriptor. -/
theorem State.after_readByte_of_desc {s : State} {d : Dev} {r src a0 : Nat} {bs desc : List Byte} (h0 : d.host.out = [])
    {a : Nat} (ha : ¬ d.descPlace r a) : (s.after ((d.post a0 bs).putDesc r src desc)).readByte a =
      if a0 ≤ a ∧ a < a0 + bs.length then bs.getD (a - a0) 0 else s.readByte a := by
  obtain ⟨ws, hout, hws⟩ := (d.post a0 bs).putDesc_stores r src desc
  have hpost : (d.post a0 bs).host.out = [(a0, bs)] := congrArg (· ++ [(a0, bs)]) h0
  rw [hpost] at hout
  rw [State.readByte, State.after_mem, hout, writeAll_append, get_writeAll_outside _ _ _ fun h => ha (hws a h)]
  exact get_writeBytes ..

theorem recordDelivery_delivers {k : Fin 8} {s : State} {r : AcqRecord} {rest : List AcqRecord} {ofs : Nat}
    (hc : (s.dev.aset k.val).closed = r :: rest) (hs : r.stepped = true) (ho : s.dev.recordOpen k.val r = false)
    (hroom : s.dev.ringRoom (8 + k.val) ≠ 0)
    (hofs : ofs = (if (s.dev.aset k.val).areaNext + (recordBytes r (s.dev.aset k.val).sieve).length ≤
      s.dev.areaSize k.val then (s.dev.aset k.val).areaNext else 0))
    (hfree : freeRun (s.dev.areaHeld k.val) ofs (recordBytes r (s.dev.aset k.val).sieve).length = true) :
    Answers (.recordDelivery k) s fun t =>
      (t.dev.aset k.val).closed = rest ∧ (t.dev.aset k.val).recCnt = satInc (s.dev.aset k.val).recCnt ∧
      (t.dev.aset k.val).areaNext = ofs + (recordBytes r (s.dev.aset k.val).sieve).length ∧
      (s.dev.host.out = [] → ∀ a, ¬ s.dev.descPlace (8 + k.val) a →
        t.readByte a = if s.dev.areaBase k.val + ofs ≤ a ∧
            a < s.dev.areaBase k.val + ofs + (recordBytes r (s.dev.aset k.val).sieve).length
          then (recordBytes r (s.dev.aset k.val).sieve).getD (a - (s.dev.areaBase k.val + ofs)) 0
          else s.readByte a) ∧
      ((s.dev.aset k.val).ending = true → rest = [] → (s.dev.aset k.val).cur = none →
        (t.dev.aset k.val).phase = .disarmed) ∧
      ChangesOnly [.acq, .events, .reports] s t := by
  have heq := Dev.recordDelivery_moves (d := s.fresh) hc hs ho hroom hofs hfree
  obtain ⟨hclosed, hcnt, hnext, hend⟩ := Dev.recordMoved_aset (d := s.fresh) (k := k.val) (r := r) (rest := rest) ofs
  have hmoved : Dev.Touches [.acq] s.fresh (s.fresh.recordMoved k.val r rest ofs) := Dev.touches_recordMoved ofs
  obtain ⟨f, hf⟩ := s.fresh.recordMoved_acq k.val r rest ofs
  have hhost : (s.fresh.recordMoved k.val r rest ofs).host = s.dev.host := hf ▸ rfl
  have hplace (a : Nat) (h : (s.fresh.recordMoved k.val r rest ofs).descPlace (8 + k.val) a) :
      s.dev.descPlace (8 + k.val) a := by
    rw [hf] at h
    exact h
  clear hf
  generalize s.fresh.recordMoved k.val r rest ofs = m at *
  have hset (e : Dev) (h : e.acq = m.acq) : e.aset k.val = m.aset k.val := congrArg (·.sets.get AcqSet.reset k.val) h
  have hputs : ((m.post (s.fresh.areaBase k.val + ofs) (recordBytes r (s.fresh.aset k.val).sieve)).putDesc (8 + k.val)
      (4 + k.val) (s.fresh.recordDesc k.val r ofs)).acq = m.acq := by rw [Dev.putDesc_acq, Dev.post_acq]
  have hkeep : Dev.Keeps [.acq, .events, .reports] s.fresh ((m.post (s.fresh.areaBase k.val + ofs)
      (recordBytes r (s.fresh.aset k.val).sieve)).putDesc (8 + k.val) (4 + k.val) (s.fresh.recordDesc k.val r ofs)) :=
    ((hmoved.andThen (Dev.touches_post ..)).andThen (Dev.touches_putDesc ..)).keeps.mono (by decide)
  refine ⟨_, exec_of_effect rfl heq, ?_⟩
  beta_reduce
  have haset := hset (s.after ((m.post (s.fresh.areaBase k.val + ofs) (recordBytes r (s.fresh.aset k.val).sieve)).putDesc
    (8 + k.val) (4 + k.val) (s.fresh.recordDesc k.val r ofs))).dev hputs
  rw [haset]
  exact ⟨hclosed, hcnt, hnext, fun h0 a ha => State.after_readByte_of_desc (hhost ▸ h0) fun h => ha (hplace a h),
    hend, .of_after hkeep⟩

/-! ### The commands (R335) -/

/-- A command that is admitted, by what its own checks and effect make of the device. -/
theorem State.runCmd_gives {op mask : Nat} {c : Cmd} {body : Dev → Dev} {s : State} {d : Dev}
    (h : s.dev.admits op mask c) (hd : body s.fresh = d) : s.runCmd op mask c body = .next (s.after d) :=
  hd ▸ State.runCmd_admits body h

section
variable {op : Nat} {c : Cmd} {d : Dev} {ks : List Nat}

theorem Dev.captureCmd_none (f : List Nat → Dev → Dev) (h : d.namedSets c = none) :
    d.captureCmd op c f = d.complete c op stBadParam := by rw [Dev.captureCmd, h]

theorem Dev.captureCmd_some (f : List Nat → Dev → Dev) (h : d.namedSets c = some ks) :
    d.captureCmd op c f = f ks d := by rw [Dev.captureCmd, h]

theorem Dev.nodup_namedSets (h : d.namedSets c = some ks) : ks.Nodup := by
  unfold Dev.namedSets at h
  dsimp only at h
  split at h
  · cases h
  · rw [← Option.some.inj h]
    exact List.nodup_range.filter _

end

/-- CAPTURE_ARM at one set. -/
def Dev.armSet (single : Bool) (d : Dev) (k : Nat) : Dev :=
  if (d.aset k).phase = .disarmed ∧ (d.aset k).armTick = none then
    d.setAset k { d.aset k with armTick := some d.now, single := single } else d

/-- CAPTURE_DISARM at one set. -/
def Dev.endSet (d : Dev) (k : Nat) : Dev :=
  if (d.aset k).phase = .post then d.setAset k { d.aset k with ending := true } else d.disarmSet k

section
variable (single : Bool) (d : Dev) (k : Nat)

theorem Dev.onSet_armSet : Dev.OnSet k d (d.armSet single k) := .ite (d.onSet_setAset ..) .refl

theorem Dev.touches_armSet : Dev.Touches [.acq] d (d.armSet single k) :=
  .mono (.ite (d.touches_setAset ..) .refl) (by decide)

theorem Dev.onSet_endSet : Dev.OnSet k d (d.endSet k) := .ite (d.onSet_setAset ..) (d.onSet_setAset ..)

theorem Dev.touches_endSet : Dev.Touches [.acq] d (d.endSet k) :=
  .mono (.ite (d.touches_setAset ..) (d.touches_setAset ..)) (by decide)

end

section
variable {c : Cmd} {s : State} {ks : List Nat}

theorem State.keeps_of_fresh {ps : List Part} {d : Dev} (h : Dev.Keeps ps s.fresh d) : Dev.Keeps ps s.dev d :=
  (s.keeps_fresh.mono (by simp)).andThen h fun _ hp => hp

theorem captureArm_arms (ha : s.dev.admits 0x20 (inlMask [(20, 0xFF), (21, 1)]) c) (h : s.dev.namedSets c = some ks) :
    Completes (.captureArm c) c 0x20 stOk s fun d =>
      (∀ k ∈ ks, (s.dev.aset k).phase = .disarmed → (s.dev.aset k).armTick = none → d.aset k = { s.dev.aset k with
        armTick := some s.dev.now, single := bitAt (c.byte 21) 0 }) ∧
      (∀ k, k ∉ ks ∨ (s.dev.aset k).phase ≠ .disarmed → d.aset k = s.dev.aset k) ∧ Dev.Keeps [.acq] s.dev d := by
  have hon := fun d k => Dev.onSet_armSet (bitAt (c.byte 21) 0) d k
  have hto (d : Dev) (k : Nat) : Dev.Touches [.acq, .events, .reports] d (d.armSet (bitAt (c.byte 21) 0) k) :=
    (d.touches_armSet _ k).mono (by decide)
  have hn : ks.Nodup := Dev.nodup_namedSets h
  refine ⟨ks.foldl (Dev.armSet (bitAt (c.byte 21) 0)) s.fresh, State.runCmd_gives ha
    (Dev.captureCmd_some (d := s.fresh) _ h), fun k hk hp ht => ?_,
    fun k hk => ?_, State.keeps_of_fresh (Dev.Touches.foldl (fun d k => d.touches_armSet _ k) _ _).keeps⟩
  · obtain ⟨a, hta, hset, heq⟩ := Dev.foldl_sets_named hon hto hn s.fresh hk
    have hset' : a.aset k = s.dev.aset k := hset
    have hnow : a.now = s.dev.now := hta.tick.symm
    rw [heq, Dev.armSet, if_pos (by rw [hset']; exact ⟨hp, ht⟩), Dev.aset_setAset_self, hset', hnow]
  · by_cases hmem : k ∈ ks
    · obtain ⟨a, -, hset, heq⟩ := Dev.foldl_sets_named hon hto hn s.fresh hmem
      have hset' : a.aset k = s.dev.aset k := hset
      have hp : (s.dev.aset k).phase ≠ .disarmed := hk.resolve_left (not_not.2 hmem)
      rw [heq, Dev.armSet, if_neg (by rw [hset']; exact fun h => hp h.1), hset']
    · exact Dev.foldl_sets_others hon ks s.fresh hmem

theorem captureDisarm_disarms (ha : s.dev.admits 0x21 (inlMask [(20, 0xFF)]) c) (h : s.dev.namedSets c = some ks) :
    Completes (.captureDisarm c) c 0x21 stOk s fun d =>
      (∀ k ∈ ks, d.aset k = if (s.dev.aset k).phase = .post then { s.dev.aset k with ending := true }
        else { s.dev.aset k with phase := .disarmed, single := false, ending := false, armTick := none, pre := [], trig := [] }) ∧
      (∀ k, k ∉ ks → d.aset k = s.dev.aset k) ∧ Dev.Keeps [.acq] s.dev d := by
  have hto (d : Dev) (k : Nat) : Dev.Touches [.acq, .events, .reports] d (d.endSet k) :=
    (d.touches_endSet k).mono (by decide)
  refine ⟨ks.foldl Dev.endSet s.fresh, State.runCmd_gives ha
    (Dev.captureCmd_some (d := s.fresh) _ h), fun k hk => ?_,
    fun k hk => Dev.foldl_sets_others Dev.onSet_endSet ks s.fresh hk,
    State.keeps_of_fresh (Dev.Touches.foldl Dev.touches_endSet _ _).keeps⟩
  obtain ⟨a, -, hset, heq⟩ := Dev.foldl_sets_named Dev.onSet_endSet hto (Dev.nodup_namedSets h) s.fresh hk
  have hset' : a.aset k = s.dev.aset k := hset
  rw [heq, Dev.endSet, Dev.disarmSet, hset']
  split
  · exact Dev.aset_setAset_self ..
  · exact Dev.aset_setAset_self ..

/-- The sets that a forced trigger reaches: those that are armed. -/
def Dev.armedOf (ks : List Nat) (d : Dev) : List Nat := ks.filter fun k => decide ((d.aset k).phase ≠ .disarmed)

theorem captureForce_idle (ha : s.dev.admits 0x22 (inlMask [(20, 0xFF)]) c) (h : s.dev.namedSets c = some ks)
    (hnone : ∀ k ∈ ks, (s.dev.aset k).phase = .disarmed) :
    exec (.captureForce c) s = .next (s.after (s.fresh.complete c 0x22 stRejected)) := by
  have harmed : s.fresh.armedOf ks = [] := List.filter_eq_nil_iff.2 fun k hk => by
    rw [decide_eq_true_eq]
    exact not_not.2 (hnone k hk)
  exact State.runCmd_gives ha ((Dev.captureCmd_some (d := s.fresh) _ h).trans (if_pos harmed))

theorem captureForce_forces (ha : s.dev.admits 0x22 (inlMask [(20, 0xFF)]) c) (h : s.dev.namedSets c = some ks)
    (hsome : ∃ k ∈ ks, (s.dev.aset k).phase ≠ .disarmed) : Completes (.captureForce c) c 0x22 stOk s fun d =>
        (∀ k ∈ ks, (s.dev.aset k).phase ≠ .disarmed → s.dev.Triggered k 9 (d.aset k)) ∧
        (∀ k, k ∉ ks ∨ (s.dev.aset k).phase = .disarmed → d.aset k = s.dev.aset k) ∧
        Dev.Keeps [.acq, .events, .reports] s.dev d := by
  have hmem {k : Nat} : k ∈ s.fresh.armedOf ks ↔ k ∈ ks ∧ (s.dev.aset k).phase ≠ .disarmed :=
    List.mem_filter.trans (and_congr_right fun _ => decide_eq_true_iff)
  have hon (d : Dev) (k : Nat) := d.onSet_acqTrigger k 9 d.now
  have hto (d : Dev) (k : Nat) := d.touches_acqTrigger k 9 d.now
  have harmed : s.fresh.armedOf ks ≠ [] := by
    obtain ⟨k, hk, hp⟩ := hsome
    exact List.ne_nil_of_mem (hmem.2 ⟨hk, hp⟩)
  have hn : (s.fresh.armedOf ks).Nodup := (Dev.nodup_namedSets h).filter _
  refine ⟨(s.fresh.armedOf ks).foldl (fun d k => d.acqTrigger k 9 d.now) s.fresh, State.runCmd_gives ha
    ((Dev.captureCmd_some (d := s.fresh) _ h).trans (if_neg harmed)),
    fun k hk hp => ?_, fun k hk => ?_, State.keeps_of_fresh (Dev.Touches.foldl hto _ _).keeps⟩
  · exact State.fresh_triggered (Dev.foldl_triggered hon hto hn (hmem.2 ⟨hk, hp⟩) fun _ _ => rfl)
  · exact Dev.foldl_sets_others hon _ s.fresh fun hm => by
      obtain ⟨hks, hp⟩ := hmem.1 hm
      exact hk.elim (absurd hks) fun h => absurd h hp

end

theorem Dev.autoTimeout_idle {d : Dev} {k : Nat} (h : d.fld (Reg.ACQ_SET_DIV k) 31 16 = 0 ∨
    d.now < (d.aset k).fillStart + d.fld (Reg.ACQ_SET_DIV k) 31 16 * msTicks) : d.autoTimeout k = d :=
  if_neg fun ⟨hms, _, ht, _⟩ => h.elim hms fun h => absurd ht (Nat.not_le.2 h)

/-- Settles O35: the triggers by what they name, the delivery of the oldest closed record, then the commands. -/
theorem captureRowsTakeEffect : Obligations.CaptureRowsTakeEffect := by
  refine ⟨fun u s hp ha => triggerUnitFire_gives u hp ha, fun u s h => exec_of_effect rfl (if_neg ?_),
    fun l s h => extTrigIn_gives l h, fun l s h => exec_of_effect rfl (if_pos ?_),
    fun k s hms hp ht hnone => autoTimeout_gives k hms hp ht hnone,
    fun k s h => exec_of_effect rfl (Dev.autoTimeout_idle h),
    fun k s r rest ofs hc hs ho hroom hofs hfree => recordDelivery_delivers hc hs ho hroom hofs hfree,
    fun k s h => exec_of_effect rfl (Dev.recordDelivery_waits h), fun c s ha => ⟨fun h => ?_, fun ks h =>
      captureArm_arms ha h⟩, fun c s ha => ⟨fun h => ?_, fun ks h => captureDisarm_disarms ha h⟩,
    fun c s ha => ⟨fun h => ?_, fun ks h => ⟨captureForce_idle ha h, captureForce_forces ha h⟩⟩⟩
  · rw [Bool.and_eq_true]
    exact fun ⟨hp, ha⟩ => h.elim (ne_true_of_eq_false · hp) (ne_true_of_eq_false · ha)
  · rw [Bool.not_eq_true']
    exact h
  all_goals
    exact State.runCmd_gives ha (Dev.captureCmd_none (d := s.fresh) _ h)

end Sys2Proof.Machine
end

section
/-! PROOFS. The Fence's pairs (R392–R401): what its events, tests and demands leave of its state, and what a pair is once it
follows its causes. -/

namespace Sys2Proof.Machine

open Host

/-! ### Work on the pairs -/

/-- The Fence's state without its pairs, the events that wait, and the FENCE_TEST in progress. -/
def fenRest (f : FenState) : FenState := { f with outs := .empty, queue := [], openTest := none }

/-- The Fence works on its pairs alone, and `v` of every pair stays. -/
structure Dev.PairWork {α : Type} (v : FenOut → α) (a d : Dev) : Prop where
  rest : fenRest d.fen = fenRest a.fen
  view : ∀ k, v (d.fenOut k) = v (a.fenOut k)

namespace Dev.PairWork

variable {α β : Type} {v : FenOut → α} {a d e : Dev}

theorem refl : Dev.PairWork v d d := ⟨rfl, fun _ => rfl⟩

theorem trans (h : Dev.PairWork v a d) (h' : Dev.PairWork v d e) : Dev.PairWork v a e :=
  ⟨h'.rest.trans h.rest, fun k => (h'.view k).trans (h.view k)⟩

theorem ite {c : Prop} [Decidable c] (hd : Dev.PairWork v a d) (he : Dev.PairWork v a e) :
    Dev.PairWork v a (if c then d else e) := by split <;> assumption

theorem foldl {ι : Type} {f : Dev → ι → Dev} (hf : ∀ (d : Dev) x, Dev.PairWork v d (f d x)) (l : List ι) (d : Dev) :
    Dev.PairWork v d (l.foldl f d) := by
  induction l generalizing d with
  | nil => exact refl
  | cons x rest ih => exact (hf d x).trans (ih _)

/-- What stays of a pair stays of every part of that. -/
theorem map (w : α → β) (h : Dev.PairWork v a d) : Dev.PairWork (fun o => w (v o)) a d :=
  ⟨h.rest, fun k => congrArg w (h.view k)⟩

theorem of_fen (h : d.fen = a.fen) : Dev.PairWork v a d := ⟨congrArg fenRest h, fun k => congrArg (fun f => v (f.outs.get FenOut.reset k)) h⟩

theorem of_touches {ps : List Part} (h : Dev.Touches ps a d) (hp : .fen ∉ ps) : Dev.PairWork v a d :=
  .of_fen (h.same .fen hp : a.fen = d.fen).symm

end Dev.PairWork

/-- A pair without its contactor test. -/
def pairBody (o : FenOut) : Bool × Bool × FenSwitch × FenSwitch := (o.demanded, o.latched, o.hi, o.lo)

/-- Of a switch, its read-back and its fault. -/
def switchRead (x : FenSwitch) : Bool × Bool := (x.rb, x.fault)

/-- Of a pair, its demand, its latch, and what is read of its switches. -/
def pairKept (o : FenOut) : Bool × Bool × (Bool × Bool) × Bool × Bool :=
  (o.demanded, o.latched, switchRead o.hi, switchRead o.lo)

/-- What is read of a pair's switches. -/
def pairRead (o : FenOut) : (Bool × Bool) × Bool × Bool := (switchRead o.hi, switchRead o.lo)

theorem Dev.PairWork.kept {a d : Dev} (h : Dev.PairWork pairBody a d) : Dev.PairWork pairKept a d :=
  h.map fun x => (x.1, x.2.1, switchRead x.2.2.1, switchRead x.2.2.2)

theorem Dev.PairWork.read {a d : Dev} (h : Dev.PairWork pairKept a d) : Dev.PairWork pairRead a d := h.map fun x => x.2.2

@[simp] theorem driveSwitch_cmd (v : Bool) (x : FenSwitch) : (driveSwitch v x).cmd = v := by
  unfold driveSwitch
  split
  · assumption
  · rfl

@[simp] theorem driveSwitch_read (v : Bool) (x : FenSwitch) : switchRead (driveSwitch v x) = switchRead x := by
  unfold driveSwitch
  split <;> rfl

section
variable {α : Type} (v : FenOut → α) (d : Dev) (k : Nat)

@[simp] theorem Dev.fenOut_setFenOut_self (o : FenOut) : (d.setFenOut k o).fenOut k = o := SMap.get_set_self ..

theorem Dev.fenOut_setFenOut_of_ne (o : FenOut) {j : Nat} (hj : j ≠ k) : (d.setFenOut k o).fenOut j = d.fenOut j :=
  SMap.get_set_of_ne _ _ _ hj.symm

variable {v} in
theorem Dev.pairWork_setFenOut {o : FenOut} (h : v o = v (d.fenOut k)) : Dev.PairWork v d (d.setFenOut k o) := by
  refine ⟨rfl, fun j => ?_⟩
  by_cases hj : j = k
  · rw [hj, Dev.fenOut_setFenOut_self, h]
  · rw [Dev.fenOut_setFenOut_of_ne _ _ _ hj]

/-- An event waits at most. -/
theorem Dev.fenEvent_fen (code item detail : Nat) :
    ∃ q, (d.fenEvent code item detail).fen = { d.fen with queue := q } := by
  unfold Dev.fenEvent
  dsimp only
  split
  · exact ⟨d.fen.queue, Dev.putDesc_fen ..⟩
  · split
    · exact ⟨_, rfl⟩
    · exact ⟨d.fen.queue, Dev.event_fen ..⟩

theorem Dev.pairWork_fenEvent (code item detail : Nat) : Dev.PairWork v d (d.fenEvent code item detail) := by
  obtain ⟨q, h⟩ := d.fenEvent_fen code item detail
  exact ⟨(congrArg fenRest h :), fun j => (congrArg (fun f : FenState => v (f.outs.get FenOut.reset j)) h :)⟩

theorem Dev.pairWork_irq (n : Nat) : Dev.PairWork v d (d.irq n) := .of_touches (d.touches_irq n) (by decide)

theorem Dev.pairWork_openTest (t : Option OpenFenceTest) :
    Dev.PairWork v d (d.onFen fun f => { f with openTest := t }) := ⟨rfl, fun _ => rfl⟩

theorem Dev.pairWork_testResult (res : Nat) : Dev.PairWork pairBody d (d.testResult k res) := by
  refine ((Dev.pairWork_setFenOut d k ?_).trans (Dev.pairWork_fenEvent ..)).trans (Dev.pairWork_irq ..)
  rfl

theorem Dev.pairWork_drivePair : Dev.PairWork pairKept d (d.drivePair k) :=
  d.pairWork_setFenOut k (by simp [pairKept])

theorem Dev.pairWork_testHigh : Dev.PairWork pairKept d (d.testHigh k) := by
  refine (Dev.pairWork_setFenOut d k ?_).trans (Dev.pairWork_drivePair ..)
  rfl

theorem Dev.pairWork_testDefer : Dev.PairWork pairBody d (d.testDefer k) := d.pairWork_setFenOut k rfl

theorem Dev.pairWork_nextTest (n : Nat) : Dev.PairWork pairKept d (d.nextTest n) := by
  induction n generalizing d with
  | zero => exact .refl
  | succ n ih =>
    unfold Dev.nextTest
    split
    · exact .refl
    split
    · exact (d.pairWork_openTest _ none).trans (.of_touches (Dev.touches_completeAs ..) (by decide))
    · exact .ite ((d.pairWork_openTest ..).trans (Dev.pairWork_testHigh ..))
        (((d.pairWork_openTest ..).trans (Dev.pairWork_testDefer ..).kept).trans (ih _))

theorem Dev.pairWork_followTest : Dev.PairWork pairKept d d.followTest := by
  unfold Dev.followTest
  split
  · exact .refl
  · exact .ite .refl ((d.pairWork_openTest ..).trans (Dev.pairWork_nextTest ..))

end

/-! ### A pair that is demanded keeps its switches through the tests of the others -/

section
variable {d : Dev} {k : Nat}

theorem Dev.testable_of_demanded (h : (d.fenOut k).demanded = true) : d.testable k = false := by
  simp [Dev.testable, h]

/-- A switch is moved for a test on a pair that can be tested only. -/
theorem Dev.testHigh_of_ne {j : Nat} (hj : j ≠ k) : (d.testHigh k).fenOut j = d.fenOut j :=
  (Dev.fenOut_setFenOut_of_ne _ _ _ hj).trans (Dev.fenOut_setFenOut_of_ne _ _ _ hj)

theorem Dev.nextTest_of_demanded (n : Nat) (h : (d.fenOut k).demanded = true) :
    pairBody ((d.nextTest n).fenOut k) = pairBody (d.fenOut k) := by
  induction n generalizing d with
  | zero => rfl
  | succ n ih =>
    unfold Dev.nextTest
    split
    · rfl
    split
    · exact (Dev.PairWork.of_touches (v := pairBody) (Dev.touches_completeAs ..) (by decide)).view k
    · rename_i t _ _ j rest _
      split
      · rename_i htest
        have hne : k ≠ j := by
          rintro rfl
          rw [Dev.testable_of_demanded h] at htest
          cases htest
        exact congrArg pairBody (Dev.testHigh_of_ne hne)
      · have hdefer := (Dev.pairWork_testDefer (d.onFen fun f => { f with openTest := some { t with left := rest, pass := false } }) j).view k
        exact (ih ((congrArg (·.1) hdefer).trans h)).trans hdefer

theorem Dev.followTest_of_demanded (h : (d.fenOut k).demanded = true) :
    pairBody (d.followTest.fenOut k) = pairBody (d.fenOut k) := by
  unfold Dev.followTest
  split
  · rfl
  · dsimp only
    split
    · rfl
    · exact Dev.nextTest_of_demanded (d := d.onFen _) 5 h

end

/-! ### A pair follows its causes (R392, R393) -/

/-- The causes of demand depend on the Fence's state beyond its pairs, and on the pair's read-back faults. -/
theorem Dev.pairCause_congr {a d : Dev} {k : Nat} (hr : fenRest d.fen = fenRest a.fen)
    (hv : pairRead (d.fenOut k) = pairRead (a.fenOut k)) : d.pairCause k = a.pairCause k := by
  have hst : d.fen.st = a.fen.st := (congrArg FenState.st hr :)
  have hheld : d.fen.held = a.fen.held := (congrArg FenState.held hr :)
  have hpass : d.fen.passcode = a.fen.passcode := (congrArg FenState.passcode hr :)
  have hins : d.fen.ins = a.fen.ins := (congrArg FenState.ins hr :)
  have hcfg : d.fen.inCfg = a.fen.inCfg := (congrArg FenState.inCfg hr :)
  have hhi : (d.fenOut k).hi.fault = (a.fenOut k).hi.fault := (congrArg (·.1.2) hv :)
  have hlo : (d.fenOut k).lo.fault = (a.fenOut k).lo.fault := (congrArg (·.2.2) hv :)
  simp only [Dev.pairCause, Dev.fenInEn, Dev.inCfg, Dev.inDemand, Dev.fenIn, hst, hheld, hpass, hins, hcfg, hhi, hlo]

theorem Dev.PairWork.pairCause {a d : Dev} (h : Dev.PairWork pairRead a d) (k : Nat) : d.pairCause k = a.pairCause k :=
  Dev.pairCause_congr h.rest (h.view k)

theorem Dev.fenPairEn_congr {a d : Dev} (hr : fenRest d.fen = fenRest a.fen) (k : Nat) :
    d.fenPairEn k = a.fenPairEn k ∧ d.fenManual k = a.fenManual k := by
  have hcfg : d.fen.pairCfg = a.fen.pairCfg := (congrArg FenState.pairCfg hr :)
  simp only [Dev.fenPairEn, Dev.fenManual, Dev.pairCfg, hcfg, and_self]

/-- A pair as it follows its causes: latched, demanded, and its switches commanded by that. -/
def Dev.pairDriven (d : Dev) (k : Nat) : FenOut :=
  let o := d.pairNow k
  let on := d.fenPairEn k && !o.demanded
  { o with hi := driveSwitch (on && decide (o.stage ≠ .high)) o.hi, lo := driveSwitch (on && decide (o.stage ≠ .low)) o.lo }

theorem Dev.pairDriven_congr {a d : Dev} {k : Nat} (hr : fenRest d.fen = fenRest a.fen) (ho : d.fenOut k = a.fenOut k) :
    d.pairDriven k = a.pairDriven k := by
  obtain ⟨hen, hman⟩ := Dev.fenPairEn_congr hr k
  have hcause := Dev.pairCause_congr hr (congrArg pairRead ho)
  have hnow : d.pairNow k = a.pairNow k := by
    unfold Dev.pairNow
    rw [hcause, hman, ho]
  rw [Dev.pairDriven, hnow, hen]
  rfl

theorem Dev.pairDriven_read (d : Dev) (k : Nat) : pairRead (d.pairDriven k) = pairRead (d.fenOut k) := by
  simp [Dev.pairDriven, pairRead, Dev.pairNow]

section
variable (d : Dev) (k : Nat)

/-- The pair is latched, demanded and driven before anything is reported. -/
def Dev.pairSet (d : Dev) (k : Nat) : Dev := (d.setFenOut k (d.pairNow k)).drivePair k

theorem Dev.pairSet_self : (d.pairSet k).fenOut k = d.pairDriven k := by
  have hcfg : (d.setFenOut k (d.pairNow k)).fenPairEn k = d.fenPairEn k := rfl
  rw [Dev.pairSet, Dev.drivePair, Dev.fenOut_setFenOut_self, Dev.fenOut_setFenOut_self, hcfg]
  rfl

theorem Dev.pairSet_of_ne {j : Nat} (hj : j ≠ k) : (d.pairSet k).fenOut j = d.fenOut j :=
  (Dev.fenOut_setFenOut_of_ne _ _ _ hj).trans (Dev.fenOut_setFenOut_of_ne _ _ _ hj)

/-- What follows is a report, a trip, and the end of a test. -/
theorem Dev.pairWork_updatePair : Dev.PairWork pairBody (d.pairSet k) (d.updatePair k) := by
  unfold Dev.updatePair
  extract_lets o dem d1 d2 d3
  have h2 : Dev.PairWork pairBody d1 d2 :=
    .ite ((d1.pairWork_fenEvent ..).trans (Dev.pairWork_irq ..)) (.ite (Dev.pairWork_fenEvent ..) .refl)
  have h3 : Dev.PairWork pairBody d2 d3 :=
    .ite (.of_touches ((Dev.touches_takeEffect ..).andThen (Dev.touches_holdPairs _)) (by decide)) .refl
  exact (h2.trans h3).trans (.ite (Dev.pairWork_testResult ..) .refl)

theorem Dev.updatePair_self : pairBody ((d.updatePair k).fenOut k) = pairBody (d.pairDriven k) := by
  rw [(d.pairWork_updatePair k).view k, Dev.pairSet_self]

theorem Dev.updatePair_of_ne {j : Nat} (hj : j ≠ k) : pairBody ((d.updatePair k).fenOut j) = pairBody (d.fenOut j) := by
  rw [(d.pairWork_updatePair k).view j, Dev.pairSet_of_ne _ _ hj]

theorem Dev.pairWork_read_updatePair : Dev.PairWork pairRead d (d.updatePair k) := by
  refine ⟨(d.pairWork_updatePair k).rest, fun j => ?_⟩
  by_cases hj : j = k
  · subst hj
    have hself := congrArg (fun x => (switchRead x.2.2.1, switchRead x.2.2.2)) (d.updatePair_self j)
    exact hself.trans (d.pairDriven_read j)
  · exact congrArg (fun x => (switchRead x.2.2.1, switchRead x.2.2.2)) (d.updatePair_of_ne k hj)

end

/-- The pair k follows the causes that it has in `d`: latched and demanded by them, and open where it is demanded. -/
structure Dev.PairFollows (d : Dev) (k : Nat) (o : FenOut) : Prop where
  latched : o.latched = ((d.fenOut k).latched || (d.pairCause k && d.fenManual k))
  demanded : o.demanded = (d.pairCause k || o.latched)
  opened : o.demanded = true → o.hi.cmd = false ∧ o.lo.cmd = false

section
variable {d : Dev} {k : Nat} {o : FenOut}

theorem Dev.PairFollows.of_body {o' : FenOut} (h : d.PairFollows k o) (hb : pairBody o' = pairBody o) : d.PairFollows k o' := by
  have hdem : o'.demanded = o.demanded := (congrArg (·.1) hb :)
  have hlat : o'.latched = o.latched := (congrArg (·.2.1) hb :)
  have hhi : o'.hi = o.hi := (congrArg (·.2.2.1) hb :)
  have hlo : o'.lo = o.lo := (congrArg (·.2.2.2) hb :)
  refine ⟨hlat.trans h.latched, ?_, fun hd => ?_⟩
  · rw [hdem, hlat]
    exact h.demanded
  · rw [hhi, hlo]
    exact h.opened (hdem ▸ hd)

/-- The causes of a pair are the same in two devices in which what is read of it, and its latch, are. -/
theorem Dev.PairFollows.congr {a : Dev} (h : d.PairFollows k o) (hw : fenRest d.fen = fenRest a.fen)
    (hr : pairRead (d.fenOut k) = pairRead (a.fenOut k)) (hl : (d.fenOut k).latched = (a.fenOut k).latched) :
    a.PairFollows k o := by
  have hcause := Dev.pairCause_congr hw hr
  have hman := (Dev.fenPairEn_congr hw k).2
  obtain ⟨hlat, hdem, hop⟩ := h
  rw [hl, hcause, hman] at hlat
  rw [hcause] at hdem
  exact ⟨hlat, hdem, hop⟩

theorem Dev.pairDriven_follows : d.PairFollows k (d.pairDriven k) := by
  refine ⟨rfl, rfl, fun h => ?_⟩
  have hoff : (d.fenPairEn k && !(d.pairNow k).demanded) = false := by
    rw [show (d.pairNow k).demanded = true from h, Bool.not_true, Bool.and_false]
  simp only [Dev.pairDriven, hoff, Bool.false_and, driveSwitch_cmd, and_self]

theorem Dev.updatePair_follows : d.PairFollows k ((d.updatePair k).fenOut k) :=
  Dev.pairDriven_follows.of_body (d.updatePair_self k)

theorem Dev.foldl_updatePair_of_ne (ks : List Nat) (d : Dev) (hk : k ∉ ks) :
    pairBody ((ks.foldl Dev.updatePair d).fenOut k) = pairBody (d.fenOut k) := by
  induction ks generalizing d with
  | nil => rfl
  | cons j rest ih =>
    rw [List.mem_cons, not_or] at hk
    exact (ih _ hk.2).trans (d.updatePair_of_ne j hk.1)

theorem Dev.foldl_updatePair_follows {ks : List Nat} (hn : ks.Nodup) (d : Dev) (hk : k ∈ ks) :
    d.PairFollows k ((ks.foldl Dev.updatePair d).fenOut k) := by
  induction ks generalizing d with
  | nil => cases hk
  | cons j rest ih =>
    obtain ⟨hj, hrest⟩ := List.nodup_cons.1 hn
    rcases List.mem_cons.1 hk with rfl | hk
    · exact Dev.updatePair_follows.of_body (Dev.foldl_updatePair_of_ne rest _ hj)
    · have hne : k ≠ j := fun h => hj (h ▸ hk)
      have hread := d.pairWork_read_updatePair j
      exact (ih hrest (d.updatePair j) hk).congr hread.rest (hread.view k)
        (congrArg (·.2.1) (d.updatePair_of_ne j hne) :)

variable (d) in
theorem Dev.pairWork_updatePairs : Dev.PairWork pairRead d d.updatePairs :=
  (Dev.PairWork.foldl (fun d k => d.pairWork_read_updatePair k) _ _).trans (.of_touches (Dev.touches_gateClose _) (by decide))

theorem Dev.updatePairs_fenOut (k : Nat) : d.updatePairs.fenOut k = ((upto 4).foldl Dev.updatePair d).fenOut k :=
  (Dev.PairWork.of_touches (v := id) (Dev.touches_gateClose _) (by decide)).view k

theorem Dev.updatePairs_follows (hk : k < 4) : d.PairFollows k (d.updatePairs.fenOut k) := by
  rw [Dev.updatePairs_fenOut]
  exact Dev.foldl_updatePair_follows List.nodup_range d (List.mem_range.2 hk)

/-! ### Every pair follows its causes, and the command in progress follows its test -/

/-- The end of every condition of the Fence. -/
def Dev.allFollow (d : Dev) : Dev := d.updatePairs.followTest

variable (d) in
theorem Dev.pairWork_allFollow : Dev.PairWork pairRead d d.allFollow :=
  d.pairWork_updatePairs.trans (Dev.pairWork_followTest _).read

theorem Dev.PairFollows.followTest {a : Dev} (h : a.PairFollows k (d.fenOut k)) : a.PairFollows k (d.followTest.fenOut k) := by
  cases hd : (d.fenOut k).demanded with
  | true => exact h.of_body (Dev.followTest_of_demanded hd)
  | false =>
    have hkept := d.pairWork_followTest.view k
    have hdem : (d.followTest.fenOut k).demanded = (d.fenOut k).demanded := (congrArg (·.1) hkept :)
    have hlat : (d.followTest.fenOut k).latched = (d.fenOut k).latched := (congrArg (·.2.1) hkept :)
    exact ⟨hlat.trans h.latched, by rw [hdem, hlat]; exact h.demanded, fun ht => absurd ht (by rw [hdem, hd]; decide)⟩

theorem Dev.allFollow_follows (hk : k < 4) : d.PairFollows k (d.allFollow.fenOut k) :=
  (Dev.updatePairs_follows hk).followTest

/-- A pair with a cause is demanded and open. -/
theorem Dev.PairFollows.of_cause (h : d.PairFollows k o) (hc : d.pairCause k = true) :
    o.demanded = true ∧ o.hi.cmd = false ∧ o.lo.cmd = false := by
  have hd : o.demanded = true := by rw [h.demanded, hc, Bool.true_or]
  exact ⟨hd, h.opened hd⟩

end

end Sys2Proof.Machine
end

section
/-! PROOFS. The samples and the conditions of the Fence (R384–R395). -/

namespace Sys2Proof.Machine

open Host

/-! ### What is read of a pair -/

/-- The read-backs of a pair. -/
def pairRb (o : FenOut) : Bool × Bool := (o.hi.rb, o.lo.rb)

theorem Dev.PairWork.rb {a d : Dev} (h : Dev.PairWork pairRead a d) : Dev.PairWork pairRb a d :=
  h.map fun x => (x.1.1, x.2.1)

section
variable (d : Dev) (k : Nat)

theorem Dev.pairWork_latchReadBack (low : Bool) : Dev.PairWork pairRb d (d.latchReadBack k low) := by
  refine ((Dev.pairWork_setFenOut d k ?_).trans (Dev.pairWork_fenEvent ..)).trans (Dev.pairWork_irq ..)
  cases low <;> rfl

theorem Dev.pairWork_rb_testResult (res : Nat) : Dev.PairWork pairRb d (d.testResult k res) :=
  (d.pairWork_testResult k res).kept.read.rb

/-- A test ends in FAIL, the pair follows its causes, and the command goes on. -/
theorem Dev.pairWork_rb_updatePair : Dev.PairWork pairRb d (d.updatePair k).followTest :=
  (d.pairWork_read_updatePair k).rb.trans (Dev.pairWork_followTest _).read.rb

theorem Dev.pairWork_readBackDue : Dev.PairWork pairRb d (d.readBackDue k) := by
  unfold Dev.readBackDue
  extract_lets o d1 d2 d3
  have h1 : Dev.PairWork pairRb d d1 := .ite (Dev.pairWork_latchReadBack ..) .refl
  have h2 : Dev.PairWork pairRb d1 d2 := .ite (Dev.pairWork_latchReadBack ..) .refl
  have h3 : Dev.PairWork pairRb d2 d3 := .ite (Dev.pairWork_rb_testResult ..) .refl
  exact .ite .refl (((h1.trans h2).trans h3).trans (Dev.pairWork_rb_updatePair ..))

theorem Dev.pairWork_testCheck (rb : Byte) : Dev.PairWork pairRb d (d.testCheck k rb) := by
  have hfail (low : Bool) : Dev.PairWork pairRb d (((d.latchReadBack k low).testResult k 2).updatePair k).followTest :=
    ((d.pairWork_latchReadBack k low).trans (Dev.pairWork_rb_testResult ..)).trans (Dev.pairWork_rb_updatePair ..)
  unfold Dev.testCheck
  dsimp only
  split
  · refine .ite ?_ (.ite (hfail false) .refl)
    refine (Dev.pairWork_setFenOut d k ?_).trans (Dev.pairWork_drivePair ..).read.rb
    rfl
  · exact .ite (((d.pairWork_rb_testResult k 1).trans (Dev.pairWork_drivePair ..).read.rb).trans
      (Dev.pairWork_followTest _).read.rb) (.ite (hfail true) .refl)
  · exact .refl

theorem Dev.pairWork_deferTest : Dev.PairWork pairBody d (d.deferTest k) :=
  .ite (Dev.pairWork_testDefer ..) .refl

end

/-! ### The read-backs are sampled (R395) -/

section
variable {d : Dev} {rb : Byte} {k : Nat}

theorem Dev.sampleReadBack_of_ne {j : Nat} (hj : j ≠ k) : (d.sampleReadBack rb k).fenOut j = d.fenOut j :=
  Dev.fenOut_setFenOut_of_ne _ _ _ hj

theorem Dev.sampleReadBack_self : pairRb ((d.sampleReadBack rb k).fenOut k) = (rbHigh rb k, rbLow rb k) :=
  congrArg pairRb (Dev.fenOut_setFenOut_self ..)

theorem Dev.sampleReadBack_rest : fenRest (d.sampleReadBack rb k).fen = fenRest d.fen := rfl

theorem Dev.foldl_sampleReadBack (ks : List Nat) (d : Dev) :
    fenRest (ks.foldl (Dev.sampleReadBack rb) d).fen = fenRest d.fen ∧
    (pairRb (d.fenOut k) = (rbHigh rb k, rbLow rb k) ∨ k ∈ ks →
      pairRb ((ks.foldl (Dev.sampleReadBack rb) d).fenOut k) = (rbHigh rb k, rbLow rb k)) := by
  induction ks generalizing d with
  | nil => exact ⟨rfl, fun h => h.elim id (by simp)⟩
  | cons j rest ih =>
    obtain ⟨hrest, hread⟩ := ih (d.sampleReadBack rb j)
    refine ⟨hrest.trans Dev.sampleReadBack_rest, fun h => hread ?_⟩
    by_cases hk : k = j
    · exact .inl (hk ▸ Dev.sampleReadBack_self)
    · rw [Dev.sampleReadBack_of_ne hk]
      exact h.imp_right fun hm => (List.mem_cons.1 hm).resolve_left hk

end

/-! ### The channels are sampled (R386–R388) -/

/-- The Fence's state without its inputs, its pairs, the events that wait, and the FENCE_TEST in progress. -/
def fenCore (f : FenState) : FenState := { fenRest f with ins := .empty }

/-- The Fence works, and the channels of its inputs stay. -/
structure Dev.ChanWork (a d : Dev) : Prop where
  core : fenCore d.fen = fenCore a.fen
  chans : ∀ i, (d.fenIn i).a = (a.fenIn i).a ∧ (d.fenIn i).b = (a.fenIn i).b

namespace Dev.ChanWork

variable {a d e : Dev}

theorem refl : Dev.ChanWork d d := ⟨rfl, fun _ => ⟨rfl, rfl⟩⟩

theorem trans (h : Dev.ChanWork a d) (h' : Dev.ChanWork d e) : Dev.ChanWork a e :=
  ⟨h'.core.trans h.core, fun i => ⟨(h'.chans i).1.trans (h.chans i).1, (h'.chans i).2.trans (h.chans i).2⟩⟩

theorem foldl {ι : Type} {f : Dev → ι → Dev} (hf : ∀ (d : Dev) x, Dev.ChanWork d (f d x)) (l : List ι) (d : Dev) :
    Dev.ChanWork d (l.foldl f d) := by
  induction l generalizing d with
  | nil => exact refl
  | cons x rest ih => exact (hf d x).trans (ih _)

end Dev.ChanWork

/-- What the Fence's state without its pairs shows. -/
theorem fenRest_proj {α : Type} {f g : FenState} (p : FenState → α) (hp : ∀ f, p (fenRest f) = p f)
    (h : fenRest f = fenRest g) : p f = p g := by rw [← hp f, h, hp]

theorem fenCore_proj {α : Type} {f g : FenState} (p : FenState → α) (hp : ∀ f, p (fenCore f) = p f)
    (h : fenCore f = fenCore g) : p f = p g := by rw [← hp f, h, hp]

theorem fenIn_of_rest {a d : Dev} (h : fenRest d.fen = fenRest a.fen) (i : Nat) : d.fenIn i = a.fenIn i :=
  (congrArg (fun f : FenState => f.ins.get FenIn.reset i) h :)

theorem Dev.PairWork.chan {α : Type} {v : FenOut → α} {a d : Dev} (h : Dev.PairWork v a d) : Dev.ChanWork a d :=
  ⟨congrArg (fun f : FenState => { f with ins := SMap.empty }) h.rest, fun i => by
    rw [fenIn_of_rest h.rest i]
    exact ⟨rfl, rfl⟩⟩

section
variable (d : Dev) (i : Nat)

@[simp] theorem Dev.fenIn_setFenIn_self (x : FenIn) : (d.setFenIn i x).fenIn i = x := SMap.get_set_self ..

theorem Dev.fenIn_setFenIn_of_ne (x : FenIn) {j : Nat} (hj : j ≠ i) : (d.setFenIn i x).fenIn j = d.fenIn j :=
  SMap.get_set_of_ne _ _ _ hj.symm

theorem Dev.chanWork_setFenIn {x : FenIn} (ha : x.a = (d.fenIn i).a) (hb : x.b = (d.fenIn i).b) :
    Dev.ChanWork d (d.setFenIn i x) := by
  refine ⟨rfl, fun j => ?_⟩
  by_cases hj : j = i
  · rw [hj, Dev.fenIn_setFenIn_self]
    exact ⟨ha, hb⟩
  · rw [Dev.fenIn_setFenIn_of_ne _ _ _ hj]
    exact ⟨rfl, rfl⟩

theorem Dev.chanWork_latchDisc : Dev.ChanWork d (d.latchDisc i) := by
  unfold Dev.latchDisc
  split
  · refine (Dev.chanWork_setFenIn d i ?_ ?_).trans
      ((Dev.pairWork_fenEvent id ..).trans (Dev.pairWork_irq ..)).chan
    · rfl
    · rfl
  · exact .refl

end

/-- The two channels of an input. -/
def inChans (x : FenIn) : FenChan × FenChan := (x.a, x.b)

/-- The channels of an input after a sample (R386, R388). -/
def Dev.newChans (a b : Byte) (d : Dev) (i : Nat) : FenChan × FenChan :=
  (sampleChan (bits (d.inCfg i) 19 13) (d.pulseAge (bits (d.inCfg i) 30 28)) (a.getLsbD i) (d.fenIn i).a,
   sampleChan (bits (d.inCfg i) 19 13) (d.pulseAge (bits (d.inCfg i) 27 25)) (b.getLsbD i) (d.fenIn i).b)

theorem inChans_ext {x y : FenIn} (ha : x.a = y.a) (hb : x.b = y.b) : inChans x = inChans y := Prod.ext ha hb

theorem Dev.newChans_congr {a b : Byte} {d e : Dev} {i : Nat} (hc : fenCore e.fen = fenCore d.fen)
    (hi : inChans (e.fenIn i) = inChans (d.fenIn i)) : e.newChans a b i = d.newChans a b i := by
  have hcfg : e.fen.inCfg = d.fen.inCfg := (congrArg FenState.inCfg hc :)
  have htime : e.fen.time = d.fen.time := (congrArg FenState.time hc :)
  have hpulse : e.fen.pulses = d.fen.pulses := (congrArg FenState.pulses hc :)
  have ha : (e.fenIn i).a = (d.fenIn i).a := congrArg (·.1) hi
  have hb : (e.fenIn i).b = (d.fenIn i).b := congrArg (·.2) hi
  have hage (l : Nat) : e.pulseAge l = d.pulseAge l := by
    unfold Dev.pulseAge
    rw [hpulse, htime]
  simp only [Dev.newChans, Dev.inCfg, hcfg, hage, ha, hb]

theorem disagree_chans (m : Bool) (x : FenIn) : inChans (disagree m x) = inChans x := by
  unfold disagree
  dsimp only
  split
  · rfl
  split
  · rfl
  split
  · rfl
  · rfl

section
variable {a b : Byte} {d : Dev} {i : Nat}

/-- A sample of one input. -/
theorem Dev.sampleInput_chans (a b : Byte) (d : Dev) (i : Nat) : fenCore (d.sampleInput a b i).fen = fenCore d.fen ∧
    inChans ((d.sampleInput a b i).fenIn i) = d.newChans a b i ∧
    ∀ j, j ≠ i → (d.sampleInput a b i).fenIn j = d.fenIn j := by
  unfold Dev.sampleInput
  extract_lets c x ageA ageB filt ca cb z lost near newTpf d1 d2
  have hevent (e : Dev) (code : Nat) : Dev.PairWork id e ((e.fenEvent code i 0).irq 60) :=
    (e.pairWork_fenEvent id ..).trans (Dev.pairWork_irq ..)
  have h2 : Dev.PairWork id d1 d2 := .ite (Dev.pairWork_fenEvent ..) .refl
  have h3 : Dev.PairWork id d1 (if newTpf = true then (d2.fenEvent 6 i 0).irq 60 else d2) :=
    .ite (h2.trans (hevent d2 6)) h2
  refine ⟨h3.chan.core, ?_, fun j hj => ?_⟩
  · rw [fenIn_of_rest h3.rest]
    exact (congrArg inChans (Dev.fenIn_setFenIn_self ..)).trans (disagree_chans _ { x with a := ca, b := cb })
  · rw [fenIn_of_rest h3.rest]
    exact Dev.fenIn_setFenIn_of_ne _ _ _ hj

theorem Dev.foldl_sampleInput_others (is : List Nat) (d : Dev) (hi : i ∉ is) :
    (is.foldl (Dev.sampleInput a b) d).fenIn i = d.fenIn i := by
  induction is generalizing d with
  | nil => rfl
  | cons j rest ih =>
    rw [List.mem_cons, not_or] at hi
    exact (ih _ hi.2).trans ((Dev.sampleInput_chans a b d j).2.2 i hi.1)

theorem Dev.foldl_sampleInput_core (is : List Nat) (d : Dev) :
    fenCore (is.foldl (Dev.sampleInput a b) d).fen = fenCore d.fen := by
  induction is generalizing d with
  | nil => rfl
  | cons j rest ih => exact (ih _).trans (Dev.sampleInput_chans a b d j).1

theorem Dev.foldl_sampleInput_chans {is : List Nat} (hn : is.Nodup) (d : Dev) (hi : i ∈ is) :
    inChans ((is.foldl (Dev.sampleInput a b) d).fenIn i) = d.newChans a b i := by
  induction is generalizing d with
  | nil => cases hi
  | cons j rest ih =>
    obtain ⟨hj, hrest⟩ := List.nodup_cons.1 hn
    obtain ⟨hcore, hself, hothers⟩ := Dev.sampleInput_chans a b d j
    rcases List.mem_cons.1 hi with rfl | hi
    · exact (congrArg inChans (Dev.foldl_sampleInput_others rest _ hj)).trans hself
    · have hne : i ≠ j := fun h => hj (h ▸ hi)
      exact (ih hrest _ hi).trans (Dev.newChans_congr hcore (congrArg inChans (hothers i hne)))

end

/-! ### FENCE_SAMPLE (R386) -/

section
variable (a b rb : Byte) (d : Dev)

/-- What was due since the last sample is latched. -/
def Dev.dueLatched (d : Dev) : Dev := (upto 4).foldl (fun d k => d.readBackDue k) ((upto 8).foldl Dev.latchDisc d)

/-- The channels are sampled, after what was due. -/
def Dev.inputsSampled (d : Dev) : Dev := (upto 8).foldl (Dev.sampleInput a b) d.dueLatched

/-- The read-backs are sampled, and the tests look at them. -/
def Dev.pairsSampled (d : Dev) : Dev :=
  (upto 4).foldl (fun d k => d.testCheck k rb) ((upto 4).foldl (Dev.sampleReadBack rb) d)

/-- Every pair follows its causes, and the tests that cannot run are deferred. -/
def Dev.pairsDone (d : Dev) : Dev := (upto 4).foldl Dev.deferTest d.allFollow

/-- The sample is over, with a new register image at every second one. -/
def Dev.sampleOver (d : Dev) : Dev :=
  let e := d.onFen fun f => { f with time := f.time + 1 }
  if e.fen.time % 2 = 0 then e.fenRefresh else e

theorem Dev.fenceSample_eq (h : d.fenRuns = true) :
    d.fenceSample a b rb = (((d.inputsSampled a b).pairsSampled rb).pairsDone).sampleOver := by
  unfold Dev.fenceSample Dev.sampleOver Dev.pairsDone Dev.allFollow Dev.pairsSampled Dev.inputsSampled Dev.dueLatched
  rw [if_neg (by simp [h])]

theorem Dev.chanWork_dueLatched : Dev.ChanWork d d.dueLatched := by
  have hdisc : Dev.ChanWork d ((upto 8).foldl Dev.latchDisc d) := .foldl (fun d i => d.chanWork_latchDisc i) _ _
  have hread : Dev.PairWork pairRb ((upto 8).foldl Dev.latchDisc d) d.dueLatched :=
    .foldl (fun d k => d.pairWork_readBackDue k) _ _
  exact hdisc.trans hread.chan

theorem Dev.inputsSampled_spec : fenCore (d.inputsSampled a b).fen = fenCore d.fen ∧
    ∀ i < 8, inChans ((d.inputsSampled a b).fenIn i) = d.newChans a b i := by
  have hdue := d.chanWork_dueLatched
  have hcore : fenCore (d.inputsSampled a b).fen = fenCore d.dueLatched.fen :=
    Dev.foldl_sampleInput_core (upto 8) d.dueLatched
  refine ⟨hcore.trans hdue.core, fun i hi => ?_⟩
  obtain ⟨ha, hb⟩ := hdue.chans i
  have hsame : inChans (d.dueLatched.fenIn i) = inChans (d.fenIn i) := inChans_ext ha hb
  have hsampled : inChans ((d.inputsSampled a b).fenIn i) = d.dueLatched.newChans a b i :=
    Dev.foldl_sampleInput_chans (is := upto 8) List.nodup_range d.dueLatched (List.mem_range.2 hi)
  exact hsampled.trans (Dev.newChans_congr hdue.core hsame)

theorem Dev.pairsSampled_spec : fenRest (d.pairsSampled rb).fen = fenRest d.fen ∧
    ∀ k < 4, pairRb ((d.pairsSampled rb).fenOut k) = (rbHigh rb k, rbLow rb k) := by
  have hcheck : Dev.PairWork pairRb ((upto 4).foldl (Dev.sampleReadBack rb) d) (d.pairsSampled rb) :=
    .foldl (fun d k => d.pairWork_testCheck k rb) _ _
  refine ⟨hcheck.rest.trans (Dev.foldl_sampleReadBack (k := 0) (upto 4) d).1, fun k hk => ?_⟩
  have hread := (Dev.foldl_sampleReadBack (rb := rb) (k := k) (upto 4) d).2 (.inr (List.mem_range.2 hk))
  exact (hcheck.view k).trans hread

theorem Dev.pairWork_pairsDone : Dev.PairWork pairRead d d.pairsDone :=
  d.pairWork_allFollow.trans (Dev.PairWork.foldl (fun d k => d.pairWork_deferTest k) _ _).kept.read

theorem Dev.pairsDone_demanded {k : Nat} (hk : k < 4) :
    (d.pairsDone.fenOut k).demanded = (d.pairsDone.pairCause k || (d.pairsDone.fenOut k).latched) := by
  have hbody : Dev.PairWork pairBody d.allFollow d.pairsDone := .foldl (fun d k => d.pairWork_deferTest k) _ _
  rw [d.pairWork_pairsDone.pairCause k]
  exact ((Dev.allFollow_follows hk).of_body (hbody.view k)).demanded

end

/-- The end of a sample moves time and the image alone. -/
theorem Dev.sampleOver_spec (e : Dev) : e.sampleOver.fen.time = e.fen.time + 1 ∧ e.sampleOver.fen.outs = e.fen.outs ∧
    e.sampleOver.fen.ins = e.fen.ins ∧ (∀ k, e.sampleOver.pairCause k = e.pairCause k) ∧ e.sampleOver.fen.imageSeq =
      if (e.fen.time + 1) % 2 = 0 then (e.fen.imageSeq + 1) % 2 ^ 32 else e.fen.imageSeq := by
  by_cases h : (e.fen.time + 1) % 2 = 0
  · have heq : e.sampleOver = (e.onFen fun f => { f with time := f.time + 1 }).fenRefresh := if_pos h
    rw [heq, if_pos h]
    exact ⟨rfl, rfl, rfl, fun _ => rfl, rfl⟩
  · have heq : e.sampleOver = e.onFen fun f => { f with time := f.time + 1 } := if_neg h
    rw [heq, if_neg h]
    exact ⟨rfl, rfl, rfl, fun _ => rfl, rfl⟩

/-- What a sample of the Fence does. -/
theorem Dev.fenceSample_spec (a b rb : Byte) {d : Dev} (h : d.fenRuns = true) {e : Dev} (he : e = d.fenceSample a b rb) :
    e.fen.time = d.fen.time + 1 ∧ (∀ i < 8, inChans (e.fenIn i) = d.newChans a b i) ∧
    (∀ k < 4, pairRb (e.fenOut k) = (rbHigh rb k, rbLow rb k) ∧
      (e.fenOut k).demanded = (e.pairCause k || (e.fenOut k).latched)) ∧
    e.fen.imageSeq = if (d.fen.time + 1) % 2 = 0 then (d.fen.imageSeq + 1) % 2 ^ 32 else d.fen.imageSeq := by
  rw [d.fenceSample_eq a b rb h] at he
  obtain ⟨hcore, hchans⟩ := d.inputsSampled_spec a b
  obtain ⟨hrest, hrb⟩ := (d.inputsSampled a b).pairsSampled_spec rb
  have hdone := ((d.inputsSampled a b).pairsSampled rb).pairWork_pairsDone
  have hdem := fun k => ((d.inputsSampled a b).pairsSampled rb).pairsDone_demanded (k := k)
  have hall := hdone.rest.trans hrest
  have htime := (fenRest_proj FenState.time (fun _ => rfl) hall).trans (fenCore_proj FenState.time (fun _ => rfl) hcore)
  have hseq := (fenRest_proj FenState.imageSeq (fun _ => rfl) hall).trans
    (fenCore_proj FenState.imageSeq (fun _ => rfl) hcore)
  have hins (i : Nat) (hi : i < 8) := (congrArg inChans (fenIn_of_rest hall i)).trans (hchans i hi)
  have hreads (k : Nat) (hk : k < 4) := (hdone.rb.view k).trans (hrb k hk)
  generalize ((d.inputsSampled a b).pairsSampled rb).pairsDone = g at *
  obtain ⟨hover, houts, hinputs, hcauses, himage⟩ := g.sampleOver_spec
  rw [← he] at hover houts hinputs hcauses himage
  have hout (k : Nat) : e.fenOut k = g.fenOut k := (congrArg (fun m => m.get FenOut.reset k) houts :)
  have hin (i : Nat) : e.fenIn i = g.fenIn i := (congrArg (fun m => m.get FenIn.reset i) hinputs :)
  refine ⟨hover.trans (congrArg (· + 1) htime), fun i hi => (congrArg inChans (hin i)).trans (hins i hi), fun k hk => ?_, ?_⟩
  · rw [hout k, hcauses k]
    exact ⟨hreads k hk, hdem k hk⟩
  · rw [himage, htime, hseq]

section
variable (s : State) (d : Dev) (k : Nat)

@[simp] theorem State.after_fenOut : (s.after d).dev.fenOut k = d.fenOut k := rfl
@[simp] theorem State.after_fenIn : (s.after d).dev.fenIn k = d.fenIn k := rfl
@[simp] theorem State.after_pairCause : (s.after d).dev.pairCause k = d.pairCause k := rfl

end

theorem fenceSample_gives (a b rb : Byte) {s : State} (h : s.dev.fenRuns = true) : Answers (.fenceSample a b rb) s fun t =>
    t.dev.fen.time = s.dev.fen.time + 1 ∧
    (∀ i < 8, (t.dev.fenIn i).a = sampleChan (bits (s.dev.inCfg i) 19 13)
        (s.dev.pulseAge (bits (s.dev.inCfg i) 30 28)) (a.getLsbD i) (s.dev.fenIn i).a ∧
      (t.dev.fenIn i).b = sampleChan (bits (s.dev.inCfg i) 19 13)
        (s.dev.pulseAge (bits (s.dev.inCfg i) 27 25)) (b.getLsbD i) (s.dev.fenIn i).b) ∧
    (∀ k < 4, (t.dev.fenOut k).hi.rb = rbHigh rb k ∧ (t.dev.fenOut k).lo.rb = rbLow rb k ∧
      (t.dev.fenOut k).demanded = (t.dev.pairCause k || (t.dev.fenOut k).latched)) ∧
    t.dev.fen.imageSeq = (if (s.dev.fen.time + 1) % 2 = 0 then (s.dev.fen.imageSeq + 1) % 2 ^ 32
      else s.dev.fen.imageSeq) ∧ t.pending = s.pending := by
  obtain ⟨e, he⟩ : ∃ e, e = s.fresh.fenceSample a b rb := ⟨_, rfl⟩
  obtain ⟨htime, hins, houts, hseq⟩ := Dev.fenceSample_spec a b rb (d := s.fresh) h he
  refine ⟨_, exec_of_effect rfl he.symm, htime, fun i hi => ?_, fun k hk => ?_, hseq, rfl⟩
  · rw [State.after_fenIn]
    exact ⟨congrArg (·.1) (hins i hi), congrArg (·.2) (hins i hi)⟩
  · obtain ⟨hread, hdem⟩ := houts k hk
    rw [State.after_fenOut, State.after_pairCause]
    exact ⟨congrArg (·.1) hread, congrArg (·.2) hread, hdem⟩

end Sys2Proof.Machine
end

section
/-! PROOFS. The conditions of the Fence between its samples (R384–R395), and O42. -/

namespace Sys2Proof.Machine

open Host

/-! ### Rows whose condition does not hold -/

/-- A row of the Fence that runs, and does nothing where it is not due. -/
theorem exec_idle {i : Instr} {s : State} {f : Dev → Dev} (hi : exec i s = .next (s.run f)) (hf : f s.fresh = s.fresh) :
    exec i s = .next (s.after s.fresh) := hi.trans (by rw [State.run, hf])

theorem fence_idle {a b rb : Byte} {l p : Fin 4} {k : Fin 8} {s : State} (h : s.dev.fenRuns = false) :
    ∀ i ∈ [Instr.fenceSample a b rb, .testPulse l, .discrepancy k, .readBackFault p, .sysclkDev],
      exec i s = .next (s.after s.fresh) := by
  have hoff : s.fresh.fenRuns = false := h
  have hon : ¬ s.fresh.fenRuns = true := by simp [hoff]
  intro i hi
  simp only [List.mem_cons, List.not_mem_nil, or_false] at hi
  rcases hi with rfl | rfl | rfl | rfl | rfl
  · exact exec_idle rfl (if_pos (by simp [hoff]))
  · exact exec_idle rfl (if_pos (by simp [hoff]))
  · exact exec_idle rfl (if_neg (by simp [hoff]))
  · exact exec_idle rfl (if_neg hon)
  · exact exec_idle rfl (if_neg hon)

/-! ### The pulse of a test line (R387) -/

/-- What a pulse leaves: the Fence's state but for its inputs. -/
theorem Dev.foldl_setFenIn {f : Dev → Nat → FenIn} (is : List Nat) (d : Dev) :
    ∃ m, is.foldl (fun d i => d.setFenIn i (f d i)) d = d.onFen fun x => { x with ins := m } := by
  induction is generalizing d with
  | nil => exact ⟨d.fen.ins, rfl⟩
  | cons i rest ih => exact ih (d.setFenIn i (f d i))

/-- A pulse begins: its line is off from now, and the channels that it feeds are watched. -/
theorem Dev.testPulse_eq {d : Dev} {l : Nat} (hr : d.fenRuns = true) (ht : d.fen.time % 2000 = 500 * l)
    (hp : d.fen.pulses.get none l ≠ some d.fen.time) : ∃ m, d.testPulse l =
      d.onFen fun f => { f with pulses := f.pulses.set none l (some f.time), ins := m } := by
  have hno : ¬ (!d.fenRuns || decide (d.fen.time % 2000 ≠ 500 * l) ||
      decide (d.fen.pulses.get none l = some d.fen.time)) = true := by
    simp [hr, ht, hp]
  obtain ⟨m, hm⟩ := Dev.foldl_setFenIn (upto 8) (d.onFen fun f => { f with pulses := f.pulses.set none l (some f.time) })
  unfold Dev.testPulse
  rw [if_neg hno]
  exact ⟨m, hm⟩

theorem testPulse_gives {l : Fin 4} {s : State} (hr : s.dev.fenRuns = true) (ht : s.dev.fen.time % 2000 = 500 * l.val)
    (hp : s.dev.fen.pulses.get none l.val ≠ some s.dev.fen.time) : Answers (.testPulse l) s fun t =>
      t.dev.fen.pulses.get none l.val = some s.dev.fen.time ∧ t.dev.fen.outs = s.dev.fen.outs ∧
      ChangesOnly [.fen] s t ∧ Quiet s t := by
  obtain ⟨m, heq⟩ := Dev.testPulse_eq (d := s.fresh) hr ht hp
  exact ⟨_, exec_of_effect rfl heq, SMap.get_set_self .., rfl, (s.fresh.keeps_onFen _).quietly rfl⟩

/-! ### A discrepancy (R390) -/

/-- A pair that an enabled input selects has a cause of demand while the input demands. -/
theorem Dev.pairCause_of_input {d : Dev} {i k : Nat} (hi : i < 8) (hen : d.fenInEn i = true)
    (hsel : bitAt (d.inCfg i) (20 + k) = true) (hdem : d.inDemand i = true) : d.pairCause k = true := by
  have hany : ((upto 8).any fun i => d.fenInEn i && bitAt (d.inCfg i) (20 + k) && d.inDemand i) = true :=
    List.any_eq_true.2 ⟨i, List.mem_range.2 hi, by simp [hen, hsel, hdem]⟩
  simp only [Dev.pairCause, hany, Bool.or_true]

theorem Dev.latchDisc_disc {d : Dev} {i : Nat} (h : d.discDue i = true) : ((d.latchDisc i).fenIn i).disc = true := by
  have hrun : d.latchDisc i = ((d.setFenIn i { d.fenIn i with disc := true }).fenEvent 4 i 0).irq 60 := if_pos h
  have hreport (e : Dev) : Dev.PairWork id e ((e.fenEvent 4 i 0).irq 60) :=
    (e.pairWork_fenEvent id ..).trans (Dev.pairWork_irq ..)
  rw [hrun, fenIn_of_rest (hreport _).rest, Dev.fenIn_setFenIn_self]

theorem Dev.latchDisc_followed {d : Dev} {i : Nat} (hi : i < 8) (h : d.discDue i = true) {e : Dev}
    (he : e = (d.latchDisc i).allFollow) : (e.fenIn i).disc = true ∧ e.fen.time = d.fen.time ∧
      ∀ k < 4, d.fenInEn i = true → bitAt (d.inCfg i) (20 + k) = true → (e.fenOut k).demanded = true := by
  have hdisc := Dev.latchDisc_disc h
  have hcore := (d.chanWork_latchDisc i).core
  generalize d.latchDisc i = g at *
  have hrest : fenRest e.fen = fenRest g.fen := he ▸ g.pairWork_allFollow.rest
  have hcfg : g.inCfg i = d.inCfg i := (congrArg (fun f : FenState => (f.inCfg.get factoryIn i).toNat) hcore :)
  refine ⟨?_, ?_, fun k hk hen hsel => ?_⟩
  · rw [fenIn_of_rest hrest]
    exact hdisc
  · exact (fenRest_proj FenState.time (fun _ => rfl) hrest).trans (fenCore_proj FenState.time (fun _ => rfl) hcore)
  · have hcause : g.pairCause k = true := by
      rw [Dev.fenInEn, ← hcfg] at hen
      rw [← hcfg] at hsel
      exact Dev.pairCause_of_input hi hen hsel (by simp [Dev.inDemand, hdisc])
    rw [he]
    exact ((Dev.allFollow_follows hk).of_cause hcause).1

theorem discrepancy_gives {k : Fin 8} {s : State} (hr : s.dev.fenRuns = true) (hd : s.dev.discDue k.val = true) :
    Answers (.discrepancy k) s fun t => (t.dev.fenIn k.val).disc = true ∧ t.dev.fen.time = s.dev.fen.time ∧
      (∀ p < 4, s.dev.fenInEn k.val = true → bitAt (s.dev.inCfg k.val) (20 + p) = true →
        (t.dev.fenOut p).demanded = true) ∧ t.pending = s.pending := by
  obtain ⟨e, he⟩ : ∃ e, e = (s.fresh.latchDisc k.val).allFollow := ⟨_, rfl⟩
  have hon : (s.fresh.fenRuns && s.fresh.discDue k.val) = true := (Bool.and_eq_true ..).mpr ⟨hr, hd⟩
  have hrun : (if s.fresh.fenRuns && s.fresh.discDue k.val then (s.fresh.latchDisc k.val).updatePairs.followTest
    else s.fresh) = e := (if_pos hon).trans he.symm
  obtain ⟨hdisc, htime, hpairs⟩ := Dev.latchDisc_followed (d := s.fresh) k.isLt hd he
  exact ⟨_, exec_of_effect rfl hrun, hdisc, htime, hpairs, rfl⟩

/-! ### A read-back fault (R395) -/

/-- What has differed for 0.5 ms is latched, and a test of the pair ends as FAIL. -/
def Dev.lateLatched (k : Nat) (d : Dev) : Dev :=
  let o := d.fenOut k
  let d := if switchLate o.hi then d.latchReadBack k false else d
  let d := if switchLate o.lo then d.latchReadBack k true else d
  if o.stage ≠ .none then d.testResult k 2 else d

section
variable {d : Dev} {k : Nat}

theorem Dev.readBackDue_eq (h : (switchLate (d.fenOut k).hi || switchLate (d.fenOut k).lo) = true) :
    d.readBackDue k = ((d.lateLatched k).updatePair k).followTest := by
  refine if_neg ?_
  rw [← Bool.not_or, h]
  decide

theorem Dev.latchReadBack_faults (d : Dev) (k : Nat) (low : Bool) :
    ((d.latchReadBack k low).fenOut k).hi.fault = ((d.fenOut k).hi.fault || !low) ∧
    ((d.latchReadBack k low).fenOut k).lo.fault = ((d.fenOut k).lo.fault || low) := by
  have hreport (e : Dev) : Dev.PairWork id e ((e.fenEvent 7 k 0).irq 60) :=
    (e.pairWork_fenEvent id ..).trans (Dev.pairWork_irq ..)
  have hout := ((hreport (d.setFenOut k (if low then { d.fenOut k with lo := { (d.fenOut k).lo with fault := true } }
    else { d.fenOut k with hi := { (d.fenOut k).hi with fault := true } }))).view k).trans
    (Dev.fenOut_setFenOut_self ..)
  have hlatched : (d.latchReadBack k low).fenOut k = _ := hout
  rw [hlatched]
  cases low
  · exact ⟨(Bool.or_true _).symm, (Bool.or_false _).symm⟩
  · exact ⟨(Bool.or_false _).symm, (Bool.or_true _).symm⟩

theorem Dev.lateLatched_faults (d : Dev) (k : Nat) :
    ((d.lateLatched k).fenOut k).hi.fault = ((d.fenOut k).hi.fault || switchLate (d.fenOut k).hi) ∧
    ((d.lateLatched k).fenOut k).lo.fault = ((d.fenOut k).lo.fault || switchLate (d.fenOut k).lo) := by
  unfold Dev.lateLatched
  extract_lets o d1 d2
  have h1 : (d1.fenOut k).hi.fault = (o.hi.fault || switchLate o.hi) ∧ (d1.fenOut k).lo.fault = o.lo.fault := by
    by_cases h : switchLate o.hi = true
    · obtain ⟨hhi, hlo⟩ := d.latchReadBack_faults k false
      have heq : d1 = d.latchReadBack k false := if_pos h
      rw [heq, hhi, hlo, h]
      exact ⟨rfl, Bool.or_false _⟩
    · have heq : d1 = d := if_neg h
      rw [heq, Bool.eq_false_iff.2 h]
      exact ⟨(Bool.or_false _).symm, rfl⟩
  have h2 : (d2.fenOut k).hi.fault = (d1.fenOut k).hi.fault ∧
      (d2.fenOut k).lo.fault = ((d1.fenOut k).lo.fault || switchLate o.lo) := by
    by_cases h : switchLate o.lo = true
    · obtain ⟨hhi, hlo⟩ := d1.latchReadBack_faults k true
      have heq : d2 = d1.latchReadBack k true := if_pos h
      rw [heq, hhi, hlo, h]
      exact ⟨Bool.or_false _, rfl⟩
    · have heq : d2 = d1 := if_neg h
      rw [heq, Bool.eq_false_iff.2 h]
      exact ⟨rfl, (Bool.or_false _).symm⟩
  have h3 : Dev.PairWork pairRead d2 (if o.stage ≠ .none then d2.testResult k 2 else d2) :=
    .ite (Dev.pairWork_testResult ..).kept.read .refl
  have hhi := (congrArg (·.1.2) (h3.view k) :)
  have hlo := (congrArg (·.2.2) (h3.view k) :)
  exact ⟨hhi.trans (h2.1.trans h1.1), hlo.trans (h2.2.trans (by rw [h1.2]))⟩

/-- A pair with a late switch shows the fault, is demanded and open. -/
theorem Dev.readBackDue_late (h : (switchLate (d.fenOut k).hi || switchLate (d.fenOut k).lo) = true) {e : Dev}
    (he : e = d.readBackDue k) : (switchLate (d.fenOut k).hi = true → (e.fenOut k).hi.fault = true) ∧
      (switchLate (d.fenOut k).lo = true → (e.fenOut k).lo.fault = true) ∧
      (e.fenOut k).demanded = true ∧ (e.fenOut k).hi.cmd = false ∧ (e.fenOut k).lo.cmd = false := by
  rw [Dev.readBackDue_eq h] at he
  obtain ⟨hhi, hlo⟩ := d.lateLatched_faults k
  generalize d.lateLatched k = g at *
  have hread : pairRead (e.fenOut k) = pairRead (g.fenOut k) := by
    rw [he]
    exact ((g.pairWork_read_updatePair k).trans (Dev.pairWork_followTest _).read).view k
  have hcause : g.pairCause k = true := by
    rcases (Bool.or_eq_true ..).mp h with h | h <;> simp [Dev.pairCause, hhi, hlo, h]
  have hfollow : g.PairFollows k (e.fenOut k) := by
    rw [he]
    exact Dev.updatePair_follows.followTest
  have hhi' : (e.fenOut k).hi.fault = (g.fenOut k).hi.fault := (congrArg (·.1.2) hread :)
  have hlo' : (e.fenOut k).lo.fault = (g.fenOut k).lo.fault := (congrArg (·.2.2) hread :)
  exact ⟨fun hl => hhi'.trans (by rw [hhi, hl, Bool.or_true]), fun hl => hlo'.trans (by rw [hlo, hl, Bool.or_true]),
    hfollow.of_cause hcause⟩

end

theorem readBackFault_gives {p : Fin 4} {s : State} (hr : s.dev.fenRuns = true)
    (h : (switchLate (s.dev.fenOut p.val).hi || switchLate (s.dev.fenOut p.val).lo) = true) :
    Answers (.readBackFault p) s fun t =>
      (switchLate (s.dev.fenOut p.val).hi = true → (t.dev.fenOut p.val).hi.fault = true) ∧
      (switchLate (s.dev.fenOut p.val).lo = true → (t.dev.fenOut p.val).lo.fault = true) ∧
      ((t.dev.fenOut p.val).demanded = true ∧ (t.dev.fenOut p.val).hi.cmd = false ∧ (t.dev.fenOut p.val).lo.cmd = false) ∧
      t.pending = s.pending := by
  obtain ⟨e, he⟩ : ∃ e, e = s.fresh.readBackDue p.val := ⟨_, rfl⟩
  have hrun : (if s.fresh.fenRuns then s.fresh.readBackDue p.val else s.fresh) = e := (if_pos hr).trans he.symm
  obtain ⟨hhi, hlo, hopen⟩ := Dev.readBackDue_late (d := s.fresh) h he
  exact ⟨_, exec_of_effect rfl hrun, hhi, hlo, hopen, rfl⟩

theorem switchLate_of_bad {x : FenSwitch} (h : 11 ≤ x.bad) (hf : x.fault = false) : switchLate x = true := by
  simp [switchLate, h, hf]

theorem readBackFault_idle {p : Fin 4} {s : State} (hh : (s.dev.fenOut p.val).hi.bad < 11)
    (hl : (s.dev.fenOut p.val).lo.bad < 11) : exec (.readBackFault p) s = .next (s.after s.fresh) := by
  have hlate {x : FenSwitch} (h : x.bad < 11) : switchLate x = false := by simp [switchLate, h]
  have hnone : s.fresh.readBackDue p.val = s.fresh := by
    refine if_pos ?_
    rw [hlate (x := (s.fresh.fenOut p.val).hi) hh, hlate (x := (s.fresh.fenOut p.val).lo) hl]
    decide
  exact exec_idle rfl ((congrArg (fun x => if s.fresh.fenRuns then x else s.fresh) hnone).trans (ite_self _))

/-! ### Internal faults and a deviation of the system clock (R384, R385) -/

/-- An internal fault is declared, before the pairs follow it. -/
def Dev.faultDeclared (c : Nat) (d : Dev) : Dev :=
  ((d.onFen fun f => { f with st := .fault, code := c, held := d.fen.held || decide (c = 3) }).fenEvent 8 0xFF c).irq 60

theorem Dev.fenceFault_eq {d : Dev} {c : Nat} (hc : 1 ≤ c) (hc' : c ≤ 5) (hst : d.fen.st ≠ .fault) :
    d.fenceFault c = (d.faultDeclared c).allFollow := (if_neg (by omega)).trans (if_neg hst)

theorem Dev.faultDeclared_spec (d : Dev) (c : Nat) : fenRest (d.faultDeclared c).fen = fenRest
      { d.fen with st := .fault, code := c, held := d.fen.held || decide (c = 3) } ∧
    ∀ k, (d.faultDeclared c).fenOut k = d.fenOut k := by
  have hreport (e : Dev) : Dev.PairWork id e ((e.fenEvent 8 0xFF c).irq 60) :=
    (e.pairWork_fenEvent id ..).trans (Dev.pairWork_irq ..)
  have hset := hreport (d.onFen fun f => { f with st := .fault, code := c, held := d.fen.held || decide (c = 3) })
  exact ⟨hset.rest, hset.view⟩

/-- An internal fault demands and opens every pair. -/
theorem Dev.fenceFault_spec {d : Dev} {c : Nat} (hc : 1 ≤ c) (hc' : c ≤ 5) (hst : d.fen.st ≠ .fault) {e : Dev}
    (he : e = d.fenceFault c) : fenRest e.fen = fenRest
      { d.fen with st := .fault, code := c, held := d.fen.held || decide (c = 3) } ∧
    ∀ k < 4, (e.fenOut k).demanded = true ∧ (e.fenOut k).hi.cmd = false ∧ (e.fenOut k).lo.cmd = false := by
  rw [Dev.fenceFault_eq hc hc' hst] at he
  have hrest := (d.faultDeclared_spec c).1
  generalize d.faultDeclared c = g at *
  have hphase : g.fen.st = .fault := fenRest_proj FenState.st (fun _ => rfl) hrest
  rw [he]
  refine ⟨g.pairWork_allFollow.rest.trans hrest, fun k hk => (Dev.allFollow_follows hk).of_cause ?_⟩
  simp [Dev.pairCause, hphase]

theorem fenceInternalFault_gives {c : Byte} {s : State} (hc : 1 ≤ c.toNat) (hc' : c.toNat ≤ 3)
    (hst : s.dev.fen.st ≠ .fault) : Answers (.fenceInternalFault c) s fun t =>
      t.dev.fen.st = .fault ∧ t.dev.fen.code = c.toNat ∧ t.dev.fen.held = (s.dev.fen.held || decide (c.toNat = 3)) ∧
      (∀ k < 4, (t.dev.fenOut k).demanded = true ∧ (t.dev.fenOut k).hi.cmd = false ∧
        (t.dev.fenOut k).lo.cmd = false) ∧ t.pending = s.pending := by
  obtain ⟨e, he⟩ : ∃ e, e = s.fresh.fenceFault c.toNat := ⟨_, rfl⟩
  have hlt : c.toNat < 4 := by omega
  have hrun : (if c.toNat < 4 then s.fresh.fenceFault c.toNat else s.fresh) = e := (if_pos hlt).trans he.symm
  obtain ⟨hrest, hpairs⟩ := Dev.fenceFault_spec (d := s.fresh) hc (by omega) hst he
  exact ⟨_, exec_of_effect rfl hrun, fenRest_proj FenState.st (fun _ => rfl) hrest,
    fenRest_proj FenState.code (fun _ => rfl) hrest, fenRest_proj FenState.held (fun _ => rfl) hrest, hpairs, rfl⟩

theorem fenceInternalFault_idle {c : Byte} {s : State} (hc : c.toNat = 0 ∨ 4 ≤ c.toNat) :
    exec (.fenceInternalFault c) s = .next (s.after s.fresh) := by
  refine exec_idle rfl ?_
  rcases hc with hc | hc
  · have hnone : s.fresh.fenceFault c.toNat = s.fresh := if_pos (.inl hc)
    exact (congrArg (fun x => if c.toNat < 4 then x else s.fresh) hnone).trans (ite_self _)
  · exact if_neg (Nat.not_lt.2 hc)

/-- An event of the Fence waits, is written, or is counted. -/
theorem Dev.touches_fenEvent_parts (code item detail : Nat) (d : Dev) :
    Dev.Touches [.fen, .events, .reports, .host] d (d.fenEvent code item detail) := by
  unfold Dev.fenEvent
  dsimp only
  split
  · exact (d.touches_putDesc ..).mono (by decide)
  · split
    · exact (d.touches_onFen _).mono (by decide)
    · have hlost : Dev.Touches [.host] d (d.onHost fun h => { h with fenLostCnt := satInc h.fenLostCnt }) :=
        d.touches_onHost ⟨rfl, rfl, rfl, rfl⟩ ⟨rfl, rfl, rfl, rfl, rfl⟩
      exact (hlost.andThen (Dev.touches_event ..)).mono (by decide)

/-- A deviation of the system clock is flagged and reported. -/
def Dev.clockDeviates (d : Dev) : Dev := (d.onFen fun f => { f with sysclkDev := true }).fenEvent 13 0xFF 0

theorem Dev.clockDeviates_spec (d : Dev) : (d.clockDeviates).fen.sysclkDev = true ∧
    d.clockDeviates.fen.outs = d.fen.outs ∧ Dev.Keeps [.fen, .events, .reports, .host] d d.clockDeviates := by
  obtain ⟨q, hfen⟩ := (d.onFen fun f => { f with sysclkDev := true }).fenEvent_fen 13 0xFF 0
  have hset : Dev.Touches [.fen] d (d.onFen fun f => { f with sysclkDev := true }) := d.touches_onFen _
  exact ⟨(congrArg FenState.sysclkDev hfen :), (congrArg FenState.outs hfen :),
    ((hset.andThen (Dev.touches_fenEvent_parts 13 0xFF 0 _)).mono (by decide)).keeps⟩

theorem sysclkDev_gives {s : State} (hr : s.dev.fenRuns = true) : Answers .sysclkDev s fun t =>
    t.dev.fen.sysclkDev = true ∧ t.dev.fen.outs = s.dev.fen.outs ∧
    ChangesOnly [.fen, .events, .reports, .host] s t := by
  have hrun : (if s.fresh.fenRuns then (s.fresh.onFen fun f => { f with sysclkDev := true }).fenEvent 13 0xFF 0
    else s.fresh) = s.fresh.clockDeviates := if_pos hr
  obtain ⟨hflag, houts, hkeep⟩ := s.fresh.clockDeviates_spec
  exact ⟨_, exec_of_effect rfl hrun, hflag, houts, .of_after hkeep⟩

/-! ### Timers (R385, R404) -/

theorem driveTimerExpire_gives (p : Fin 4) (low : Bool) (s : State) : Answers (.driveTimerExpire p low) s fun t =>
    (t.dev.fenOut p.val).lo = (if low then driveSwitch false (s.dev.fenOut p.val).lo else (s.dev.fenOut p.val).lo) ∧
    (t.dev.fenOut p.val).hi = (if low then (s.dev.fenOut p.val).hi else driveSwitch false (s.dev.fenOut p.val).hi) ∧
    (∀ k, k ≠ p.val → t.dev.fenOut k = s.dev.fenOut k) ∧ ChangesOnly [.fen] s t ∧ Quiet s t := by
  refine ⟨_, exec_of_effect rfl rfl, ?_, ?_, fun k hk => Dev.fenOut_setFenOut_of_ne _ _ _ hk,
    (s.fresh.keeps_onFen _).quietly rfl⟩
  · rw [State.after_fenOut, Dev.fenOut_setFenOut_self]
    cases low <;> rfl
  · rw [State.after_fenOut, Dev.fenOut_setFenOut_self]
    cases low <;> rfl

theorem lockoutEnd_gives {s : State} (h : s.dev.fenLocked = false) : Answers .lockoutEnd s fun t =>
    t.dev.fen = { s.dev.fen with lockEnd := none } ∧ ChangesOnly [.fen] s t ∧ Quiet s t := by
  have hno : ¬ s.fresh.fenLocked = true := Bool.eq_false_iff.1 h
  have heq : (if s.fresh.fenLocked then s.fresh else s.fresh.onFen fun f => { f with lockEnd := none }) =
    s.fresh.onFen fun f => { f with lockEnd := none } := if_neg hno
  exact ⟨_, exec_of_effect rfl heq, rfl, (s.fresh.keeps_onFen _).quietly rfl⟩

/-- Settles O42: a sample follows the rules of the channels, the read-backs and the pairs one by one; a condition latches
its cause, and every pair with a cause is demanded and open. -/
theorem fenceSamplesAndDemands : Obligations.FenceSamplesAndDemands := by
  refine ⟨fun a b rb _ h => fenceSample_gives a b rb h, fun _ _ _ _ _ _ _ h => fence_idle h,
    fun _ _ hr ht hp => testPulse_gives hr ht hp, fun _ _ ht => exec_idle rfl (if_pos ?_),
    fun _ _ hr hd => discrepancy_gives hr hd, fun k s hd => exec_idle rfl (if_neg ?_),
    fun p s hr hb hf => ?_, fun p s hr hb hf => ?_, fun _ _ => readBackFault_idle,
    fun _ _ hc hc' hst => fenceInternalFault_gives hc hc' hst, fun _ _ hc => fenceInternalFault_idle hc,
    fun _ => sysclkDev_gives, driveTimerExpire_gives, fun _ => lockoutEnd_gives,
    fun _ h => exec_idle rfl (if_pos h)⟩
  · simp [ht]
  · rw [show s.fresh.discDue k.val = false from hd, Bool.and_false]
    decide
  · have hlate := switchLate_of_bad hb hf
    obtain ⟨t, ht, hhi, -, ⟨hdem, hopen⟩, hpend⟩ := readBackFault_gives (s := s) hr (by rw [hlate, Bool.true_or])
    exact ⟨t, ht, hhi hlate, hdem, hopen.1, hopen.2, hpend⟩
  · have hlate := switchLate_of_bad hb hf
    obtain ⟨t, ht, -, hlo, ⟨hdem, hopen⟩, hpend⟩ := readBackFault_gives (s := s) hr (by rw [hlate, Bool.or_true])
    exact ⟨t, ht, hlo hlate, hdem, hopen.1, hopen.2, hpend⟩

end Sys2Proof.Machine
end

section
/-! PROOFS. Contactor tests, the start of the Fence and its event queue (R393–R405, R442, R522), and O43. -/

namespace Sys2Proof.Machine

open Host

/-! ### Work that is done key by key -/

section
variable {α β : Type} {rest : Dev → β} {get : Dev → Nat → α} {f : Dev → Nat → Dev} {g : β → Nat → α → α}

/-- Steps that each change one key of a table change each of their keys once, as the state beyond the table says. -/
theorem foldl_pointwise (hrest : ∀ d k, rest (f d k) = rest d) (hself : ∀ d k, get (f d k) k = g (rest d) k (get d k))
    (hother : ∀ d k j, j ≠ k → get (f d k) j = get d j) {ks : List Nat} (hn : ks.Nodup) (d : Dev) :
    rest (ks.foldl f d) = rest d ∧
    ∀ j, get (ks.foldl f d) j = if j ∈ ks then g (rest d) j (get d j) else get d j := by
  induction ks generalizing d with
  | nil => exact ⟨rfl, fun j => (if_neg (by simp)).symm⟩
  | cons k ks ih =>
    obtain ⟨hk, hks⟩ := List.nodup_cons.1 hn
    obtain ⟨ihrest, ihget⟩ := ih hks (f d k)
    refine ⟨ihrest.trans (hrest d k), fun j => (ihget j).trans ?_⟩
    rw [hrest]
    by_cases hj : j = k
    · subst hj
      rw [if_neg hk, if_pos (by simp), hself]
    · rw [hother d k j hj]
      simp only [List.mem_cons, hj, false_or]

end

/-! ### A contactor test (R397) -/

theorem testable_parts {d : Dev} {k : Nat} (h : d.testable k = true) :
    (d.fenOut k).demanded = false ∧ (d.fenOut k).hi.cmd = true ∧ (d.fenOut k).lo.cmd = true := by
  simp only [Dev.testable, pairClosed, Bool.and_eq_true, Bool.not_eq_true'] at h
  exact ⟨h.1.1.2, h.1.2⟩

section
variable {d : Dev} {k : Nat}

/-- Driving a pair moves its switches alone. -/
theorem Dev.drivePair_self : (d.drivePair k).fenOut k = { d.fenOut k with
    hi := driveSwitch (d.fenPairEn k && !(d.fenOut k).demanded && decide ((d.fenOut k).stage ≠ .high)) (d.fenOut k).hi,
    lo := driveSwitch (d.fenPairEn k && !(d.fenOut k).demanded && decide ((d.fenOut k).stage ≠ .low)) (d.fenOut k).lo } :=
  Dev.fenOut_setFenOut_self ..

/-- A pair set anew, then driven. -/
theorem Dev.drivePair_setFenOut (o : FenOut) : ((d.setFenOut k o).drivePair k).fenOut k = { o with
    hi := driveSwitch (d.fenPairEn k && !o.demanded && decide (o.stage ≠ .high)) o.hi,
    lo := driveSwitch (d.fenPairEn k && !o.demanded && decide (o.stage ≠ .low)) o.lo } := by
  have hcfg : (d.setFenOut k o).fenPairEn k = d.fenPairEn k := rfl
  rw [Dev.drivePair_self, Dev.fenOut_setFenOut_self, hcfg]

theorem Dev.drivePair_of_ne {o : FenOut} {j : Nat} (hj : j ≠ k) : ((d.setFenOut k o).drivePair k).fenOut j = d.fenOut j :=
  (Dev.fenOut_setFenOut_of_ne _ _ _ hj).trans (Dev.fenOut_setFenOut_of_ne _ _ _ hj)

theorem Dev.keeps_setFenOut (o : FenOut) : Dev.Keeps [.fen] d (d.setFenOut k o) := d.keeps_onFen _

theorem Dev.keeps_drivePair (o : FenOut) : Dev.Keeps [.fen] d ((d.setFenOut k o).drivePair k) := by
  unfold Dev.drivePair
  exact (Dev.keeps_setFenOut o).andThen (Dev.keeps_setFenOut _) (by decide)

/-- The first check of a test: the high side reads open at once, or the test waits for the samples to come. -/
theorem Dev.testCheck_high {rb : Byte} (hs : (d.fenOut k).stage = .high) (ht : (d.fenOut k).since = d.fen.time) :
    d.testCheck k rb = if rbHigh rb k then d
      else (d.setFenOut k { d.fenOut k with stage := .gap, since := d.fen.time }).drivePair k := by
  unfold Dev.testCheck
  dsimp only
  rw [hs, ht]
  cases rbHigh rb k <;> simp

/-- The check of the low side: it reads open at once, or the test waits for the samples to come. -/
theorem Dev.testCheck_low {rb : Byte} (hs : (d.fenOut k).stage = .low) (ht : (d.fenOut k).since = d.fen.time) :
    d.testCheck k rb = if rbLow rb k then d else ((d.testResult k 1).drivePair k).followTest := by
  unfold Dev.testCheck
  dsimp only
  rw [hs, ht]
  cases rbLow rb k <;> simp

end

/-- The pair as a test of it begins. -/
def testBegun (o : FenOut) (time : Nat) : FenOut :=
  { o with stage := .high, since := time, waiting := false, hi := driveSwitch false o.hi, lo := driveSwitch true o.lo }

theorem Dev.testHigh_self {d : Dev} {k : Nat} (hen : d.fenPairEn k = true) (hd : (d.fenOut k).demanded = false) :
    (d.testHigh k).fenOut k = testBegun (d.fenOut k) d.fen.time := by
  refine (Dev.drivePair_setFenOut _).trans ?_
  simp [testBegun, hen, hd]

/-- The pair once the high side has been read open: it closes again, and the gap begins. -/
def highOpened (o : FenOut) (time : Nat) : FenOut :=
  { o with stage := .gap, since := time, hi := driveSwitch true o.hi, lo := driveSwitch true o.lo }

/-- The first check of a test that has begun. -/
theorem Dev.testCheck_begun {d : Dev} {k : Nat} {rb : Byte} {o : FenOut} (hen : d.fenPairEn k = true)
    (hd : o.demanded = false) (ho : d.fenOut k = testBegun o d.fen.time) {e : Dev} (he : e = d.testCheck k rb) :
    e.fenOut k = (if rbHigh rb k then testBegun o d.fen.time else highOpened (testBegun o d.fen.time) d.fen.time) ∧
    (∀ j, j ≠ k → e.fenOut j = d.fenOut j) ∧ Dev.Keeps [.fen] d e ∧ e.host.out = d.host.out := by
  rw [Dev.testCheck_high (by rw [ho]; rfl) (by rw [ho]; rfl)] at he
  cases hrb : rbHigh rb k with
  | true =>
    rw [hrb, if_pos rfl] at he
    rw [he]
    exact ⟨ho, fun _ _ => rfl, .refl .., rfl⟩
  | false =>
    rw [hrb, if_neg (by decide), ho] at he
    rw [he]
    refine ⟨?_, fun j hj => Dev.drivePair_of_ne hj, Dev.keeps_drivePair _, rfl⟩
    rw [Dev.drivePair_setFenOut]
    simp [highOpened, testBegun, hen, hd]

theorem contactorTestStart_gives {p : Fin 4} {rb : Byte} {s : State} (hdue : s.dev.testDue p.val = true)
    (htest : s.dev.testable p.val = true) (hen : s.dev.fenPairEn p.val = true) :
    Answers (.contactorTestStart p rb) s fun t =>
      (t.dev.fenOut p.val).stage = (if rbHigh rb p.val then .high else .gap) ∧
      (t.dev.fenOut p.val).hi.cmd = (!rbHigh rb p.val) ∧ (t.dev.fenOut p.val).lo.cmd = true ∧
      (t.dev.fenOut p.val).since = s.dev.fen.time ∧ (t.dev.fenOut p.val).waiting = false ∧
      (∀ k, k ≠ p.val → t.dev.fenOut k = s.dev.fenOut k) ∧ ChangesOnly [.fen] s t ∧ Quiet s t := by
  obtain ⟨e, he⟩ : ∃ e, e = (s.fresh.testHigh p.val).testCheck p.val rb := ⟨_, rfl⟩
  have hon : (s.fresh.testDue p.val && s.fresh.testable p.val) = true := (Bool.and_eq_true ..).mpr ⟨hdue, htest⟩
  have hrun : (if s.fresh.testDue p.val && s.fresh.testable p.val then (s.fresh.testHigh p.val).testCheck p.val rb
    else s.fresh) = e := (if_pos hon).trans he.symm
  have hd : (s.dev.fenOut p.val).demanded = false := (testable_parts htest).1
  obtain ⟨hself, hothers, hkeep, hout⟩ := Dev.testCheck_begun (d := s.fresh.testHigh p.val) (o := s.dev.fenOut p.val)
    hen hd (Dev.testHigh_self (d := s.fresh) hen hd) he
  have hbegin : Dev.Keeps [.fen] s.fresh (s.fresh.testHigh p.val) := Dev.keeps_drivePair _
  have htime : (s.fresh.testHigh p.val).fen.time = s.dev.fen.time := rfl
  refine ⟨_, exec_of_effect rfl hrun, ?_⟩
  beta_reduce
  have hpair : (s.after e).dev.fenOut p.val = _ := hself
  rw [hpair, htime]
  have hrest (k : Nat) (hk : k ≠ p.val) : (s.after e).dev.fenOut k = s.dev.fenOut k :=
    (hothers k hk).trans (Dev.testHigh_of_ne hk)
  refine ⟨?_, ?_, ?_, ?_, ?_, hrest, (hbegin.andThen hkeep (by decide)).quietly hout⟩
  all_goals cases rbHigh rb p.val <;> simp [testBegun, highOpened]

theorem contactorTestStart_idle {p : Fin 4} {rb : Byte} {s : State}
    (h : s.dev.testDue p.val = false ∨ s.dev.testable p.val = false) :
    exec (.contactorTestStart p rb) s = .next (s.after s.fresh) := by
  have hoff : ¬ (s.fresh.testDue p.val && s.fresh.testable p.val) = true := by
    rw [Bool.and_eq_true, not_and_or]
    exact h.imp Bool.eq_false_iff.1 Bool.eq_false_iff.1
  exact exec_idle rfl (if_neg hoff)

/-! ### The second half of the test -/

/-- The low side of pair k opens. -/
def Dev.lowOpened (k : Nat) (d : Dev) : Dev :=
  (d.setFenOut k { d.fenOut k with stage := .low, since := d.fen.time }).drivePair k

section
variable {d : Dev} {k : Nat} {rb : Byte}

theorem Dev.lowOpened_self : ((d.lowOpened k).fenOut k).stage = .low ∧ ((d.lowOpened k).fenOut k).since = d.fen.time ∧
    ((d.lowOpened k).fenOut k).lo.cmd = false := by
  unfold Dev.lowOpened
  rw [Dev.drivePair_setFenOut]
  simp

theorem Dev.keeps_lowOpened : Dev.Keeps [.fen] d (d.lowOpened k) := Dev.keeps_drivePair _

/-- A test that has passed: its result, and the restart of its period. -/
theorem Dev.testResult_passed : ((d.testResult k 1).fenOut k).stage = .none ∧ ((d.testResult k 1).fenOut k).result = 1 ∧
    ((d.testResult k 1).fenOut k).lastTest = d.fen.time ∧ ((d.testResult k 1).fenOut k).tested = true := by
  unfold Dev.testResult
  extract_lets o t done
  have hreport (e : Dev) : Dev.PairWork id e ((e.fenEvent 9 k 1).irq 61) :=
    (e.pairWork_fenEvent id ..).trans (Dev.pairWork_irq ..)
  have hpair := ((hreport (d.setFenOut k { o with stage := .none, result := 1, lastTest := if done then t else o.lastTest, tested := o.tested || done, waiting := decide (1 = 3 ∧ k ≠ 0) })).view k).trans (Dev.fenOut_setFenOut_self ..)
  simp only [id] at hpair
  rw [hpair]
  exact ⟨rfl, rfl, rfl, Bool.or_true _⟩

end

section
variable {p : Fin 4} {rb : Byte} {s : State}

/-- The row of a pair whose gap is over. -/
theorem exec_lowSide (hs : (s.dev.fenOut p.val).stage = .gap) (ht : (s.dev.fenOut p.val).since + 2000 ≤ s.dev.fen.time) :
    exec (.contactorTestLowSide p rb) s = .next (s.after ((s.fresh.lowOpened p.val).testCheck p.val rb)) :=
  exec_of_effect rfl (if_pos ⟨hs, ht⟩)

theorem lowSide_waits (hs : (s.dev.fenOut p.val).stage = .gap)
    (ht : (s.dev.fenOut p.val).since + 2000 ≤ s.dev.fen.time) (hrb : rbLow rb p.val = true) :
    Answers (.contactorTestLowSide p rb) s fun t => (t.dev.fenOut p.val).stage = .low ∧
      (t.dev.fenOut p.val).lo.cmd = false ∧ ChangesOnly [.fen] s t ∧ Quiet s t := by
  obtain ⟨hstage, hsince, hcmd⟩ := Dev.lowOpened_self (d := s.fresh) (k := p.val)
  have hkeep := Dev.keeps_lowOpened (d := s.fresh) (k := p.val)
  have hcheck := Dev.testCheck_low (rb := rb) hstage hsince
  rw [hrb, if_pos rfl] at hcheck
  exact ⟨_, (exec_lowSide hs ht).trans (congrArg (fun d => Outcome.next (s.after d)) hcheck), hstage, hcmd,
    hkeep.quietly rfl⟩

end

section
variable {d : Dev} {k : Nat}

theorem Dev.testResult_openTest (d : Dev) (k res : Nat) : (d.testResult k res).fen.openTest = d.fen.openTest := by
  have hreport (e : Dev) : ((e.fenEvent 9 k res).irq 61).fen.openTest = e.fen.openTest := by
    obtain ⟨q, hfen⟩ := e.fenEvent_fen 9 k res
    exact (Dev.irq_fen ..  ▸ congrArg FenState.openTest hfen :)
  exact hreport (d.setFenOut k _)

theorem Dev.keeps_testResult (d : Dev) (k res : Nat) : Dev.Keeps [.fen, .events, .reports, .host] d (d.testResult k res) := by
  have hset (o : FenOut) : Dev.Touches [.fen] d (d.setFenOut k o) := d.touches_onFen _
  unfold Dev.testResult
  exact ((((hset _).andThen (Dev.touches_fenEvent_parts ..)).andThen (Dev.touches_irq ..)).mono (by decide)).keeps

/-- The command in progress goes on after a test; without one nothing does. -/
theorem Dev.followTest_none (h : d.fen.openTest = none) : d.followTest = d := by
  unfold Dev.followTest
  rw [h]

/-- A test passes on its low side while no command waits for it. -/
theorem Dev.lowSide_passed (hno : d.fen.openTest = none) {e : Dev}
    (he : e = ((d.testResult k 1).drivePair k).followTest) :
    (e.fenOut k).stage = .none ∧ (e.fenOut k).result = 1 ∧ (e.fenOut k).lastTest = d.fen.time ∧
    (e.fenOut k).tested = true ∧ Dev.Keeps [.fen, .events, .reports, .host] d e := by
  have hopen := (d.testResult_openTest k 1).trans hno
  have hkeep := d.keeps_testResult k 1
  obtain ⟨hstage, hres, hlast, htested⟩ := Dev.testResult_passed (d := d) (k := k)
  generalize d.testResult k 1 = g at *
  have hdrive : (g.drivePair k).fen.openTest = none := hopen
  rw [Dev.followTest_none hdrive] at he
  rw [he, Dev.drivePair_self]
  have hlast' : Dev.Keeps [.fen] g (g.drivePair k) := Dev.keeps_setFenOut _
  exact ⟨hstage, hres, hlast, htested, hkeep.andThen hlast' (by decide)⟩

end

theorem lowSide_passes {p : Fin 4} {rb : Byte} {s : State} (hs : (s.dev.fenOut p.val).stage = .gap)
    (ht : (s.dev.fenOut p.val).since + 2000 ≤ s.dev.fen.time) (hrb : rbLow rb p.val = false)
    (hno : s.dev.fen.openTest = none) : Answers (.contactorTestLowSide p rb) s fun t =>
      (t.dev.fenOut p.val).stage = .none ∧ (t.dev.fenOut p.val).result = 1 ∧
      (t.dev.fenOut p.val).lastTest = s.dev.fen.time ∧ (t.dev.fenOut p.val).tested = true ∧
      ChangesOnly [.fen, .events, .reports, .host] s t := by
  obtain ⟨hstage, hsince, -⟩ := Dev.lowOpened_self (d := s.fresh) (k := p.val)
  have hkeep := Dev.keeps_lowOpened (d := s.fresh) (k := p.val)
  have hcheck := Dev.testCheck_low (rb := rb) hstage hsince
  rw [hrb, if_neg (by decide)] at hcheck
  have htime : (s.fresh.lowOpened p.val).fen.time = s.dev.fen.time := rfl
  obtain ⟨e, he⟩ : ∃ e, e = (((s.fresh.lowOpened p.val).testResult p.val 1).drivePair p.val).followTest := ⟨_, rfl⟩
  obtain ⟨hnone, hres, hlast, htested, hkeep'⟩ := Dev.lowSide_passed (d := s.fresh.lowOpened p.val) hno he
  exact ⟨_, (exec_lowSide hs ht).trans (congrArg (fun d => Outcome.next (s.after d)) (hcheck.trans he.symm)), hnone, hres,
    hlast.trans htime, htested, .of_after ((hkeep.mono (by decide)).andThen hkeep' (by decide))⟩

/-! ### FENCE_INIT after the release of its supply (R405, R522) -/

section
variable (crcOk selfOk : Bool) (d : Dev)

/-- The state that FENCE_INIT starts from. -/
def Dev.startFen (d : Dev) : FenState :=
  { FenState.reset with
    st := if d.fen.st = .fault then .fault else .run, code := d.fen.code,
    passcode := d.lastSet.passcode, inCfg := d.lastSet.inCfg, pairCfg := d.lastSet.pairCfg, logSeq := d.fen.logSeq,
    log := d.fen.log, sets := d.fen.sets, queue := d.fen.queue,
    lockEnd := if d.fenLocked then some 12000000 else none, openTest := d.fen.openTest }

/-- The latch of pair k as FENCE_INIT sets it. -/
def Dev.startLatch (d : Dev) (k : Nat) : Dev :=
  d.setFenOut k { d.fenOut k with latched := d.fenPairEn k && d.fenManual k }

/-- The Fence before its checks count. -/
def Dev.fenceReady (d : Dev) : Dev := (upto 4).foldl Dev.startLatch (d.onFen fun _ => d.startFen)

/-- The Fence after its checks. -/
def Dev.fenceChecked (d : Dev) : Dev :=
  if crcOk = false then d.fenceReady.fenceFault 4 else if selfOk = false then d.fenceReady.fenceFault 5 else d.fenceReady

theorem Dev.fenceStart_eq : d.fenceStart crcOk selfOk = (d.fenceChecked crcOk selfOk).allFollow := rfl

theorem Dev.fenceReady_spec : fenRest d.fenceReady.fen = fenRest d.startFen ∧
    ∀ k < 4, (d.fenceReady.fenOut k).latched = (d.fenceReady.fenPairEn k && d.fenceReady.fenManual k) := by
  obtain ⟨hrest, hget⟩ := foldl_pointwise (rest := fun d => fenRest d.fen) (get := Dev.fenOut) (f := Dev.startLatch)
    (g := fun r k o => { o with latched := bitAt (r.pairCfg.get 0 k).toNat 31 && !bitAt (r.pairCfg.get 0 k).toNat 30 })
    (fun _ _ => rfl) (fun _ _ => Dev.fenOut_setFenOut_self ..) (fun _ _ _ hj => Dev.fenOut_setFenOut_of_ne _ _ _ hj)
    List.nodup_range (d.onFen fun _ => d.startFen) (ks := upto 4)
  refine ⟨hrest, fun k hk => ?_⟩
  have hcfg : (d.fenceReady).fen.pairCfg = d.startFen.pairCfg := fenRest_proj FenState.pairCfg (fun _ => rfl) hrest
  have hout := (hget k).trans (if_pos (List.mem_range.2 hk))
  have hlat := congrArg FenOut.latched hout
  unfold Dev.fenPairEn Dev.fenManual Dev.pairCfg
  rw [hcfg]
  exact hlat

/-- A latch stays while the pairs follow their causes, and demands its pair. -/
theorem Dev.allFollow_latched {d : Dev} {k : Nat} (hk : k < 4) (h : (d.fenOut k).latched = true) :
    (d.allFollow.fenOut k).latched = true ∧ (d.allFollow.fenOut k).demanded = true := by
  have hfollow := Dev.allFollow_follows (d := d) hk
  have hlat : (d.allFollow.fenOut k).latched = true := by rw [hfollow.latched, h, Bool.true_or]
  exact ⟨hlat, by rw [hfollow.demanded, hlat, Bool.or_true]⟩

/-- A latch stays through an internal fault. -/
theorem Dev.fenceFault_latched {d : Dev} {c k : Nat} (hc : 1 ≤ c) (hc' : c ≤ 5) (hst : d.fen.st ≠ .fault) (hk : k < 4)
    (h : (d.fenOut k).latched = true) : ((d.fenceFault c).fenOut k).latched = true := by
  rw [Dev.fenceFault_eq hc hc' hst]
  refine (Dev.allFollow_latched hk ?_).1
  rw [(d.faultDeclared_spec c).2 k]
  exact h

/-- What the checks leave: the setting of the start, or a fault that demands every pair. -/
theorem Dev.fenceChecked_spec {d : Dev} (hi : d.fen.st = .init) {g : Dev} (hg : g = d.fenceChecked crcOk selfOk) :
    fenRest g.fen = fenRest { d.startFen with
      st := if crcOk && selfOk then .run else .fault
      code := if crcOk = false then 4 else if selfOk = false then 5 else d.fen.code } ∧
    ∀ k < 4, g.fenPairEn k = true → g.fenManual k = true → (g.fenOut k).latched = true := by
  obtain ⟨hrest, hlat⟩ := d.fenceReady_spec
  have hst : d.startFen.st = .run := if_neg (by rw [hi]; decide)
  have hready : d.fenceReady.fen.st ≠ .fault := by
    rw [fenRest_proj FenState.st (fun _ => rfl) hrest, hst]
    decide
  have hfault (c : Nat) (hc : 1 ≤ c) (hc' : c ≤ 5) (hne : c ≠ 3) (hgc : g = d.fenceReady.fenceFault c) :
      fenRest g.fen = fenRest { d.startFen with st := .fault, code := c } ∧
      ∀ k < 4, g.fenPairEn k = true → g.fenManual k = true → (g.fenOut k).latched = true := by
    obtain ⟨hafter, -⟩ := Dev.fenceFault_spec hc hc' hready hgc
    have hheld : (d.fenceReady.fen.held || decide (c = 3)) = false := by
      rw [fenRest_proj FenState.held (fun _ => rfl) hrest]
      simp [Dev.startFen, FenState.reset, hne]
    rw [hheld] at hafter
    have hcfg : g.fen.pairCfg = d.fenceReady.fen.pairCfg := (fenRest_proj FenState.pairCfg (fun _ => rfl) hafter :)
    have hset : fenRest g.fen = fenRest { d.startFen with st := .fault, code := c } :=
      hafter.trans (congrArg (fun f : FenState => { f with st := .fault, code := c, held := false }) hrest)
    refine ⟨hset, fun k hk hen hman => ?_⟩
    have hlatched : (d.fenceReady.fenOut k).latched = true := by
      unfold Dev.fenPairEn Dev.pairCfg at hen
      unfold Dev.fenManual Dev.pairCfg at hman
      rw [hcfg] at hen hman
      rw [hlat k hk]
      exact (Bool.and_eq_true ..).mpr ⟨hen, hman⟩
    rw [hgc]
    exact Dev.fenceFault_latched hc hc' hready hk hlatched
  cases crcOk with
  | false => exact hfault 4 (by decide) (by decide) (by decide) hg
  | true =>
    cases selfOk with
    | false => exact hfault 5 (by decide) (by decide) (by decide) hg
    | true =>
      have hg' : g = d.fenceReady := hg
      subst hg'
      refine ⟨hrest.trans ?_, fun k hk hen hman => ?_⟩
      · exact congrArg (fun st => fenRest { d.startFen with st := st }) hst
      · rw [hlat k hk]
        exact (Bool.and_eq_true ..).mpr ⟨hen, hman⟩

/-- FENCE_INIT of a Fence that stands in INIT. -/
theorem Dev.fenceStart_of_init {d : Dev} (hi : d.fen.st = .init) {e : Dev} (he : e = d.fenceStart crcOk selfOk) :
    fenRest e.fen = fenRest { d.startFen with
      st := if crcOk && selfOk then .run else .fault
      code := if crcOk = false then 4 else if selfOk = false then 5 else d.fen.code } ∧
    (∀ k < 4, e.fenPairEn k = true → e.fenManual k = true →
      (e.fenOut k).latched = true ∧ (e.fenOut k).demanded = true) ∧
    ((crcOk && selfOk) = false → ∀ k < 4, (e.fenOut k).demanded = true) := by
  rw [Dev.fenceStart_eq] at he
  obtain ⟨g, hg⟩ : ∃ g, g = d.fenceChecked crcOk selfOk := ⟨_, rfl⟩
  obtain ⟨hset, hlat⟩ := Dev.fenceChecked_spec crcOk selfOk hi hg
  rw [← hg] at he
  have hrest : fenRest e.fen = fenRest g.fen := he ▸ g.pairWork_allFollow.rest
  have hcfg (k : Nat) := Dev.fenPairEn_congr (a := g) (d := e) hrest k
  refine ⟨hrest.trans hset, fun k hk hen hman => ?_, fun hbad k hk => ?_⟩
  · rw [(hcfg k).1] at hen
    rw [(hcfg k).2] at hman
    rw [he]
    exact Dev.allFollow_latched hk (hlat k hk hen hman)
  · have hst : g.fen.st = .fault := by
      rw [fenRest_proj FenState.st (fun _ => rfl) hset, hbad]
      rfl
    rw [he]
    exact ((Dev.allFollow_follows hk).of_cause (by simp [Dev.pairCause, hst])).1

end

theorem fenceInit_restarts {crcOk selfOk : Bool} {s : State} (hp : 2 < s.dev.sec.phase) (hh : s.dev.fen.held = false)
    (hi : s.dev.fen.st = .init) : Answers (.fenceInit crcOk selfOk) s fun t =>
      t.dev.fen.st = (if crcOk && selfOk then .run else .fault) ∧
      t.dev.fen.code = (if crcOk = false then 4 else if selfOk = false then 5 else s.dev.fen.code) ∧
      t.dev.fen.held = false ∧ t.dev.fen.time = 0 ∧ t.dev.fen.passcode = s.dev.lastSet.passcode ∧
      t.dev.fen.inCfg = s.dev.lastSet.inCfg ∧ t.dev.fen.pairCfg = s.dev.lastSet.pairCfg ∧ t.dev.fen.log = s.dev.fen.log ∧
      t.dev.fen.logSeq = s.dev.fen.logSeq ∧ t.dev.fen.sets = s.dev.fen.sets ∧
      t.dev.fen.lockEnd = (if s.dev.fenLocked then some 12000000 else none) ∧
      (∀ k < 4, t.dev.fenPairEn k = true → t.dev.fenManual k = true →
        (t.dev.fenOut k).latched = true ∧ (t.dev.fenOut k).demanded = true) ∧
      (crcOk && selfOk = false → ∀ k < 4, (t.dev.fenOut k).demanded = true) ∧ t.pending = s.pending := by
  obtain ⟨e, hstart, hrun⟩ := Dev.fenceInit_eq (crcOk := crcOk) (selfOk := selfOk) (d := s.fresh) hh
  have hdev := hrun.trans (if_pos hp)
  obtain ⟨-, he⟩ | ⟨hno, -⟩ := hstart
  · obtain ⟨hset, hlat, hdem⟩ := Dev.fenceStart_of_init crcOk selfOk (d := s.fresh) hi he
    exact ⟨_, exec_of_effect rfl hdev, (fenRest_proj FenState.st (fun _ => rfl) hset :),
      (fenRest_proj FenState.code (fun _ => rfl) hset :), (fenRest_proj FenState.held (fun _ => rfl) hset :),
      (fenRest_proj FenState.time (fun _ => rfl) hset :), (fenRest_proj FenState.passcode (fun _ => rfl) hset :),
      (fenRest_proj FenState.inCfg (fun _ => rfl) hset :), (fenRest_proj FenState.pairCfg (fun _ => rfl) hset :),
      (fenRest_proj FenState.log (fun _ => rfl) hset :), (fenRest_proj FenState.logSeq (fun _ => rfl) hset :),
      (fenRest_proj FenState.sets (fun _ => rfl) hset :), (fenRest_proj FenState.lockEnd (fun _ => rfl) hset :), hlat,
      fun hbad => hdem (by simp_all), rfl⟩
  · exact absurd (.inl hi) hno

/-! ### The supply's release and the event queue (R442, R522) -/

theorem fenceSupplyRelease_gives {s : State} (h : s.dev.fen.held = true) : Answers .fenceSupplyRelease s fun t =>
    t.dev.fen = { s.dev.fen with st := .init, code := 0, held := false } ∧ (∀ k, t.dev.pairCause k = true) ∧
    ChangesOnly [.fen] s t ∧ Quiet s t := by
  have heq : s.fresh.supplyRelease = s.fresh.onFen fun f => { f with st := .init, code := 0, held := false } := if_pos h
  exact ⟨_, exec_of_effect rfl heq, rfl, fun k => by simp [Dev.pairCause], (s.fresh.keeps_onFen _).quietly rfl⟩

theorem Dev.fenDrain_nil {n : Nat} {d : Dev} (h : d.fen.queue = []) : d.fenDrain n = d := by
  cases n with
  | zero => rfl
  | succ n => rw [Dev.fenDrain, h]

theorem Dev.fenDrain_full {n : Nat} {d : Dev} (h : d.ringRoom 30 = 0) : d.fenDrain n = d := by
  cases n with
  | zero => rfl
  | succ n =>
    unfold Dev.fenDrain
    split
    · rfl
    · exact if_pos h

theorem Dev.fenDrain_one {n : Nat} {d : Dev} {bs : List Byte} (hq : d.fen.queue = [bs]) (hr : d.ringRoom 30 ≠ 0) :
    d.fenDrain (n + 1) = (d.onFen fun f => { f with queue := [] }).putDesc 30 26 bs := by
  rw [Dev.fenDrain, hq]
  exact (if_neg hr).trans (Dev.fenDrain_nil (by rw [Dev.putDesc_fen]; rfl))

/-- Settles O43: a test goes through its stages as the read-back says; the start of the Fence latches its MANUAL pairs,
and no latch is lost while the pairs follow their causes. -/
theorem fenceTestsAndStart : Obligations.FenceTestsAndStart :=
  ⟨fun _ _ _ => contactorTestStart_gives, fun _ _ _ => contactorTestStart_idle,
    fun _ _ _ hs ht => ⟨lowSide_passes hs ht, lowSide_waits hs ht⟩,
    fun _ _ _ hs => exec_idle rfl (if_neg fun h => hs h.1), fun _ => fenceSupplyRelease_gives,
    fun _ h => exec_idle rfl (if_neg (Bool.eq_false_iff.1 h)), fun _ _ _ => fenceInit_restarts,
    fun _ _ hq hr => exec_of_effect rfl (Dev.fenDrain_one hq hr),
    fun s h => exec_idle rfl (h.elim (fun hq => Dev.fenDrain_nil (d := s.fresh) hq) fun hr => Dev.fenDrain_full (d := s.fresh) hr)⟩

end Sys2Proof.Machine
end

section
/-! PROOFS. The three commands of the Fence (R391–R407), and O44. -/

namespace Sys2Proof.Machine

open Host

theorem Cmd.word_lt (c : Cmd) (k : Nat) : c.word k < 2 ^ 32 := by
  have hlt : c.word k < 2 ^ (8 * (k - 20) + 31 + 1 - 8 * (k - 20)) := Nat.mod_lt _ (Nat.two_pow_pos _)
  rwa [show 8 * (k - 20) + 31 + 1 - 8 * (k - 20) = 32 by omega] at hlt

/-! ### FENCE_PARAM (R404–R406) -/

/-- The mask of FENCE_PARAM. -/
def fenceParamMask : Nat := inlMask [(20, 0xFFFFFFFF), (24, 0xFFFF), (28, 0xFFFFFFFF)]

section
variable {d : Dev}

/-- A wrong passcode is counted, and the third in a row locks the path. -/
theorem Dev.wrongPasscode_fen (d : Dev) : ∃ q, d.wrongPasscode.fen = { d.fen with
    wrong := if d.fen.wrong + 1 < 3 then d.fen.wrong + 1 else 0
    lockEnd := if d.fen.wrong + 1 < 3 then d.fen.lockEnd else some (d.fen.time + 12000000)
    authFail := satInc d.fen.authFail, queue := q } := by
  unfold Dev.wrongPasscode
  extract_lets d1 d2
  obtain ⟨q, hq⟩ := d1.fenEvent_fen 11 0xFF 0
  have h2 : d2.fen = { d.fen with wrong := d.fen.wrong + 1, authFail := satInc d.fen.authFail, queue := q } :=
    (Dev.irq_fen ..).trans hq
  have hw : d2.fen.wrong = d.fen.wrong + 1 := congrArg FenState.wrong h2
  by_cases h : d.fen.wrong + 1 < 3
  · rw [if_pos (hw ▸ h), h2, if_pos h, if_pos h]
    exact ⟨q, rfl⟩
  · obtain ⟨q', hq'⟩ := (d2.onFen fun f => { f with wrong := 0, lockEnd := some (f.time + 12000000) }).fenEvent_fen 12 0xFF 0
    rw [if_neg (hw ▸ h), if_neg h, if_neg h, hq']
    refine ⟨q', ?_⟩
    have hon : (d2.onFen fun f => { f with wrong := 0, lockEnd := some (f.time + 12000000) }).fen =
      { d2.fen with wrong := 0, lockEnd := some (d2.fen.time + 12000000) } := rfl
    rw [hon, h2]

/-- What an accepted change sets. -/
def Dev.withParam (id v : Nat) (d : Dev) : Dev :=
  let w := BitVec.ofNat 32 v
  if id = 0 then d.onFen fun f => { f with passcode := w }
  else if id < 0x20 then
    let x := d.fenIn (id - 0x10)
    (d.onFen fun f => { f with inCfg := f.inCfg.set factoryIn (id - 0x10) w }).setFenIn (id - 0x10)
      { x with a := FenChan.reset, b := FenChan.reset, differ := 0 }
  else d.onFen fun f => { f with pairCfg := f.pairCfg.set 0 (id - 0x20) w }

/-- The parameters of the Fence. -/
def fenParams (f : FenState) : W32 × SMap W32 × SMap W32 := (f.passcode, f.inCfg, f.pairCfg)

theorem Dev.withParam_spec (id v : Nat) (d : Dev) : (d.withParam id v).fen.wrong = d.fen.wrong ∧
    (d.withParam id v).fen.logSeq = d.fen.logSeq ∧ (d.withParam id v).fen.log = d.fen.log ∧
    fenParams (d.withParam id v).fen = if id = 0 then (BitVec.ofNat 32 v, d.fen.inCfg, d.fen.pairCfg)
      else if id < 0x20 then (d.fen.passcode, d.fen.inCfg.set factoryIn (id - 0x10) (BitVec.ofNat 32 v), d.fen.pairCfg)
      else (d.fen.passcode, d.fen.inCfg, d.fen.pairCfg.set 0 (id - 0x20) (BitVec.ofNat 32 v)) := by
  unfold Dev.withParam
  extract_lets w x
  split
  · exact ⟨rfl, rfl, rfl, rfl⟩
  · split
    · exact ⟨rfl, rfl, rfl, rfl⟩
    · exact ⟨rfl, rfl, rfl, rfl⟩

/-- An accepted change is logged and numbered, and applies. -/
theorem Dev.applyParam_spec (id v : Nat) (d : Dev) : (d.applyParam id v).fen.wrong = d.fen.wrong ∧
    (d.applyParam id v).fen.logSeq = d.fen.logSeq + 1 ∧ (d.applyParam id v).fen.log.tail = d.fen.log.take 1023 ∧
    fenParams (d.applyParam id v).fen = fenParams (d.withParam id v).fen := by
  unfold Dev.applyParam
  extract_lets seq entry d1 w x d2 d3
  have hset : d2 = d1.withParam id v := rfl
  obtain ⟨hwrong, hseq, hlog, hparams⟩ := d1.withParam_spec id v
  have hend : Dev.PairWork pairRead d3 ((d3.fenEvent 10 (paramItem id) (id % 256)).updatePairs).followTest :=
    (d3.pairWork_fenEvent pairRead ..).trans (Dev.pairWork_allFollow _)
  have hrest := hend.rest
  rw [(d.withParam_spec id v).2.2.2]
  generalize ((d3.fenEvent 10 (paramItem id) (id % 256)).updatePairs).followTest = e at *
  rw [← hset] at hwrong hseq hlog hparams
  refine ⟨(fenRest_proj FenState.wrong (fun _ => rfl) hrest).trans hwrong,
    (fenRest_proj FenState.logSeq (fun _ => rfl) hrest).trans hseq, ?_,
    (fenRest_proj fenParams (fun _ => rfl) hrest).trans hparams⟩
  have hhead := (fenRest_proj FenState.log (fun _ => rfl) hrest).trans hlog
  rw [hhead]
  rfl

end

section
variable {c : Cmd} {ok : Bool} {s : State}

theorem exec_fenceParam (ha : s.dev.admits 0x60 fenceParamMask c) {d : Dev} (hd : s.fresh.fenceParam c ok = d) :
    exec (.fenceParam c ok) s = .next (s.after d) := State.runCmd_gives ha hd

theorem fenceParam_locked (ha : s.dev.admits 0x60 fenceParamMask c) (hl : s.dev.fenLocked = true) :
    exec (.fenceParam c ok) s = .next (s.after (s.fresh.complete c 0x60 stLocked)) := exec_fenceParam ha (if_pos hl)

theorem fenceParam_wrong (ha : s.dev.admits 0x60 fenceParamMask c) (hl : s.dev.fenLocked = false)
    (hp : c.word 20 ≠ s.dev.fen.passcode.toNat) : Completes (.fenceParam c ok) c 0x60 stAuth s fun d =>
      d.fen.wrong = (if s.dev.fen.wrong + 1 < 3 then s.dev.fen.wrong + 1 else 0) ∧
      d.fen.lockEnd = (if s.dev.fen.wrong + 1 < 3 then s.dev.fen.lockEnd else some (s.dev.fen.time + 12000000)) ∧
      d.fen.authFail = satInc s.dev.fen.authFail ∧ d.fen.passcode = s.dev.fen.passcode ∧
      d.fen.inCfg = s.dev.fen.inCfg ∧ d.fen.pairCfg = s.dev.fen.pairCfg := by
  have hno : ¬ s.fresh.fenLocked = true := Bool.eq_false_iff.1 hl
  obtain ⟨q, hfen⟩ := s.fresh.wrongPasscode_fen
  refine ⟨s.fresh.wrongPasscode, exec_fenceParam ha ((if_neg hno).trans (if_pos hp)), ?_⟩
  beta_reduce
  rw [hfen]
  exact ⟨rfl, rfl, rfl, rfl, rfl, rfl⟩

/-- The row past its passcode. -/
theorem fenceParam_known {d : Dev} (hl : d.fenLocked = false) (hp : c.word 20 = d.fen.passcode.toNat) :
    d.fenceParam c ok =
      let e := d.onFen fun f => { f with wrong := 0 }
      if !paramValid (c.half 24) (c.word 28) then e.complete c 0x60 stBadParam
      else if !d.offOrTripped || d.testRuns then e.complete c 0x60 stRejected
      else if !ok then d.complete c 0x60 stTimeout
      else (e.applyParam (c.half 24) (c.word 28)).complete c 0x60 stOk := by
  unfold Dev.fenceParam
  rw [if_neg (by rw [hl]; decide), if_neg (not_not.mpr hp)]

theorem fenceParam_checked (ha : s.dev.admits 0x60 fenceParamMask c) (hl : s.dev.fenLocked = false)
    (hp : c.word 20 = s.dev.fen.passcode.toNat) :
    (paramValid (c.half 24) (c.word 28) = false → Completes (.fenceParam c ok) c 0x60 stBadParam s fun d =>
      d.fen = { s.dev.fen with wrong := 0 }) ∧
    (paramValid (c.half 24) (c.word 28) = true → s.dev.offOrTripped = false ∨ s.dev.testRuns = true →
      Completes (.fenceParam c ok) c 0x60 stRejected s fun d => d.fen = { s.dev.fen with wrong := 0 }) := by
  have hrun := fenceParam_known (ok := ok) (d := s.fresh) hl hp
  refine ⟨fun hv => ⟨_, exec_fenceParam ha (hrun.trans (if_pos ?_)), rfl⟩,
    fun hv hr => ⟨_, exec_fenceParam ha (hrun.trans ((if_neg ?_).trans (if_pos ?_))), rfl⟩⟩
  · rw [hv]
    rfl
  · rw [hv]
    decide
  · have hblocked : (!s.dev.offOrTripped || s.dev.testRuns) = true := by
      rcases hr with hr | hr <;> simp [hr]
    exact hblocked

/-- What an accepted change leaves of the parameters. -/
theorem fenceParam_applied {id v : Nat} (hv : v < 2 ^ 32) {d e : Dev}
    (h : fenParams e.fen = fenParams (d.withParam id v).fen) :
    (id = 0 → e.fen.passcode.toNat = v ∧ e.fen.inCfg = d.fen.inCfg ∧ e.fen.pairCfg = d.fen.pairCfg) ∧
    (∀ i < 8, id = 0x10 + i → e.inCfg i = v ∧ e.fen.passcode = d.fen.passcode ∧
      (∀ j, j ≠ i → e.inCfg j = d.inCfg j) ∧ e.fen.pairCfg = d.fen.pairCfg) ∧
    (∀ k < 4, id = 0x20 + k → e.pairCfg k = v ∧ e.fen.passcode = d.fen.passcode ∧
      (∀ j, j ≠ k → e.pairCfg j = d.pairCfg j) ∧ e.fen.inCfg = d.fen.inCfg) := by
  have hword : (BitVec.ofNat 32 v).toNat = v := BitVec.toNat_ofNat .. |>.trans (Nat.mod_eq_of_lt hv)
  have hparams := h.trans (d.withParam_spec id v).2.2.2
  refine ⟨fun hid => ?_, fun i hi hid => ?_, fun k hk hid => ?_⟩
  · rw [if_pos hid] at hparams
    have hpass : e.fen.passcode = BitVec.ofNat 32 v := congrArg (·.1) hparams
    exact ⟨by rw [hpass, hword], congrArg (·.2.1) hparams, congrArg (·.2.2) hparams⟩
  · rw [if_neg (by omega), if_pos (by omega), show id - 0x10 = i by omega] at hparams
    have hcfg : e.fen.inCfg = d.fen.inCfg.set factoryIn i (BitVec.ofNat 32 v) := congrArg (·.2.1) hparams
    refine ⟨?_, congrArg (·.1) hparams, fun j hj => ?_, congrArg (·.2.2) hparams⟩
    · rw [Dev.inCfg, hcfg, SMap.get_set_self, hword]
    · rw [Dev.inCfg, hcfg, SMap.get_set_of_ne _ _ _ hj.symm]
      rfl
  · rw [if_neg (by omega), if_neg (by omega), show id - 0x20 = k by omega] at hparams
    have hcfg : e.fen.pairCfg = d.fen.pairCfg.set 0 k (BitVec.ofNat 32 v) := congrArg (·.2.2) hparams
    refine ⟨?_, congrArg (·.1) hparams, fun j hj => ?_, congrArg (·.2.1) hparams⟩
    · rw [Dev.pairCfg, hcfg, SMap.get_set_self, hword]
    · rw [Dev.pairCfg, hcfg, SMap.get_set_of_ne _ _ _ hj.symm]
      rfl

theorem fenceParam_open (ha : s.dev.admits 0x60 fenceParamMask c) (hl : s.dev.fenLocked = false)
    (hp : c.word 20 = s.dev.fen.passcode.toNat) (hv : paramValid (c.half 24) (c.word 28) = true)
    (hoff : s.dev.offOrTripped = true) (ht : s.dev.testRuns = false) :
    (ok = false → exec (.fenceParam c ok) s = .next (s.after (s.fresh.complete c 0x60 stTimeout))) ∧
    (ok = true → Completes (.fenceParam c ok) c 0x60 stOk s fun d =>
      d.fen.wrong = 0 ∧ d.fen.logSeq = s.dev.fen.logSeq + 1 ∧ d.fen.log.tail = s.dev.fen.log.take 1023 ∧
      (c.half 24 = 0 → d.fen.passcode.toNat = c.word 28 ∧ d.fen.inCfg = s.dev.fen.inCfg ∧
        d.fen.pairCfg = s.dev.fen.pairCfg) ∧
      (∀ i < 8, c.half 24 = 0x10 + i → d.inCfg i = c.word 28 ∧ d.fen.passcode = s.dev.fen.passcode ∧
        (∀ j, j ≠ i → d.inCfg j = s.dev.inCfg j) ∧ d.fen.pairCfg = s.dev.fen.pairCfg) ∧
      (∀ k < 4, c.half 24 = 0x20 + k → d.pairCfg k = c.word 28 ∧ d.fen.passcode = s.dev.fen.passcode ∧
        (∀ j, j ≠ k → d.pairCfg j = s.dev.pairCfg j) ∧ d.fen.inCfg = s.dev.fen.inCfg)) := by
  have hrun := fenceParam_known (ok := ok) (d := s.fresh) hl hp
  have hpass : ¬ (!paramValid (c.half 24) (c.word 28)) = true := by simp [hv]
  have hfree : ¬ (!s.fresh.offOrTripped || s.fresh.testRuns) = true := by
    rw [show s.fresh.offOrTripped = true from hoff, show s.fresh.testRuns = false from ht]
    decide
  have hrun' := hrun.trans ((if_neg hpass).trans (if_neg hfree))
  refine ⟨fun hok => exec_fenceParam ha (hrun'.trans (if_pos (by rw [hok]; rfl))), fun hok => ?_⟩
  have hdev := hrun'.trans (if_neg (by rw [hok]; decide))
  obtain ⟨hwrong, hseq, hlog, hparams⟩ := (s.fresh.onFen fun f => { f with wrong := 0 }).applyParam_spec (c.half 24) (c.word 28)
  generalize (s.fresh.onFen fun f => { f with wrong := 0 }).applyParam (c.half 24) (c.word 28) = e at *
  obtain ⟨hpasscode, hin, hpair⟩ := fenceParam_applied (Cmd.word_lt c 28) hparams
  exact ⟨e, exec_fenceParam ha hdev, hwrong, hseq, hlog, hpasscode, hin, hpair⟩

end

/-! ### FENCE_TEST (R401) -/

section
variable {c : Cmd} {s : State}

theorem exec_fenceTest (ha : s.dev.admits 0x61 (inlMask [(20, 0xF)]) c) {d : Dev} (hd : s.fresh.fenceTest c = d) :
    exec (.fenceTest c) s = .next (s.after d) := State.runCmd_gives ha hd

/-- The pairs that the command names. -/
def testPairs (c : Cmd) : List Nat := (upto 4).filter fun k => bitAt (c.byte 20) k

/-- A pair that the command names is not ready for it. -/
def Dev.testBlocked (c : Cmd) (d : Dev) : Bool :=
  (bitAt (c.byte 20) 0 && !d.offOrTripped) || (testPairs c).any fun k => !(pairClosed (d.fenOut k))

/-- The command in progress. -/
def fenceTestOf (c : Cmd) (left : List Nat) (cur : Nat) : OpenFenceTest :=
  ⟨c.ring.val, c.slot.toNat, c.tag.toNat, left, cur, true⟩

def Dev.testOpened (c : Cmd) (left : List Nat) (cur : Nat) (d : Dev) : Dev :=
  d.onFen fun f => { f with openTest := some (fenceTestOf c left cur) }

theorem Dev.fenceTest_idle {d : Dev} (hm : c.byte 20 ≠ 0) (ht : d.testRuns = false) : d.fenceTest c =
    if d.testBlocked c then d.complete c 0x61 stRejected
    else Dev.nextTest 5 (d.testOpened c (testPairs c) 0) := by
  unfold Dev.fenceTest
  exact (if_neg hm).trans (if_neg (by rw [ht]; decide))

theorem byte_ne_zero_of_bit {k : Nat} (h : bitAt (c.byte 20) k = true) : c.byte 20 ≠ 0 := by
  intro h0
  rw [h0] at h
  simp [bitAt] at h

theorem fenceTest_rejected (ha : s.dev.admits 0x61 (inlMask [(20, 0xF)]) c) {k : Nat} (hk : k < 4)
    (hb : bitAt (c.byte 20) k = true) (ht : s.dev.testRuns = false)
    (h : (k = 0 ∧ s.dev.offOrTripped = false) ∨ pairClosed (s.dev.fenOut k) = false) :
    exec (.fenceTest c) s = .next (s.after (s.fresh.complete c 0x61 stRejected)) := by
  have hblocked : s.dev.testBlocked c = true := by
    rcases h with ⟨rfl, hoff⟩ | hopen
    · simp [Dev.testBlocked, hb, hoff]
    · have hany : ((testPairs c).any fun k => !(pairClosed (s.dev.fenOut k))) = true :=
        List.any_eq_true.2 ⟨k, List.mem_filter.2 ⟨List.mem_range.2 hk, hb⟩, by simp [hopen]⟩
      simp [Dev.testBlocked, hany]
  exact exec_fenceTest ha ((Dev.fenceTest_idle (d := s.fresh) (byte_ne_zero_of_bit hb) ht).trans (if_pos hblocked))

/-- A byte with one bit names one pair. -/
theorem testPairs_of_one {k : Nat} (hk : k < 4) (hm : c.byte 20 = 2 ^ k) : testPairs c = [k] := by
  unfold testPairs
  rw [hm]
  have hall : ∀ k < 4, ((upto 4).filter fun j => bitAt (2 ^ k) j) = [k] := by decide
  exact hall k hk

/-- A command with one testable pair left begins its test. -/
theorem Dev.nextTest_begins {n k : Nat} {d : Dev} (htest : d.testable k = true) :
    (d.testOpened c [k] 0).nextTest (n + 1) = (d.testOpened c [] k).testHigh k := by
  rw [Dev.nextTest]
  exact if_pos htest

/-- The test of the last pair left has begun. -/
theorem Dev.testOpened_begun (c : Cmd) (k : Nat) (d : Dev) {e : Dev} (he : (d.testOpened c [] k).testHigh k = e) :
    ((e.fenOut k).stage = .high ∧ (e.fenOut k).hi.cmd = false ∧ (e.fenOut k).since = d.fen.time) ∧
    e.fen.openTest = some (OpenFenceTest.mk c.ring.val c.slot.toNat c.tag.toNat [] k true) ∧
    (∀ j, j ≠ k → e.fenOut j = d.fenOut j) ∧ Dev.Keeps [.fen] d e ∧ e.host.out = d.host.out := by
  have hopen : Dev.Keeps [.fen] d (d.testOpened c [] k) := d.keeps_onFen _
  subst he
  have hself : ((d.testOpened c [] k).testHigh k).fenOut k = _ := Dev.drivePair_setFenOut _
  refine ⟨?_, rfl, fun j hj => Dev.testHigh_of_ne hj, hopen.andThen (Dev.keeps_drivePair _) (by decide), rfl⟩
  rw [hself]
  exact ⟨rfl, by simp, rfl⟩

theorem fenceTest_begins (ha : s.dev.admits 0x61 (inlMask [(20, 0xF)]) c) {k : Nat} (hk : k < 4)
    (hm : c.byte 20 = 2 ^ k) (ht : s.dev.testRuns = false) (h0 : k = 0 → s.dev.offOrTripped = true)
    (htest : s.dev.testable k = true) : Answers (.fenceTest c) s fun t =>
      (t.dev.fenOut k).stage = .high ∧ (t.dev.fenOut k).hi.cmd = false ∧ (t.dev.fenOut k).since = s.dev.fen.time ∧
      t.dev.fen.openTest = some (OpenFenceTest.mk c.ring.val c.slot.toNat c.tag.toNat [] k true) ∧
      (∀ j, j ≠ k → t.dev.fenOut j = s.dev.fenOut j) ∧ ChangesOnly [.fen] s t ∧ Quiet s t := by
  have hpairs := testPairs_of_one hk hm
  obtain ⟨-, hhi, hlo⟩ := testable_parts htest
  have hfree : ¬ s.fresh.testBlocked c = true := by
    have hzero : (bitAt (c.byte 20) 0 && !s.dev.offOrTripped) = false := by
      rw [hm]
      by_cases hk0 : k = 0
      · simp [h0 hk0]
      · have hbit : bitAt (2 ^ k) 0 = false := by simp [hk0]
        simp [hbit]
    have hany : ((testPairs c).any fun j => !(pairClosed (s.dev.fenOut j))) = false := by
      simp [hpairs, pairClosed, hhi, hlo]
    exact Bool.eq_false_iff.1 (Bool.or_eq_false_iff.2 ⟨hzero, hany⟩)
  have hne : c.byte 20 ≠ 0 := by
    rw [hm]
    exact (Nat.two_pow_pos k).ne'
  have hrun := (Dev.fenceTest_idle (d := s.fresh) hne ht).trans (if_neg hfree)
  rw [hpairs, Dev.nextTest_begins (d := s.fresh) htest] at hrun
  obtain ⟨hself, htest', hothers, hkeep, hout⟩ := s.fresh.testOpened_begun c k rfl
  generalize (s.fresh.testOpened c [] k).testHigh k = e at *
  obtain ⟨hstage, hcmd, hsince⟩ := hself
  exact ⟨_, exec_fenceTest ha hrun, hstage, hcmd, hsince, htest', hothers, hkeep.quietly hout⟩

end

/-! ### FENCE_RESET (R407) -/

/-- An input once its latches that may clear have cleared. -/
def clearedInput (x : FenIn) : FenIn :=
  let normal := !x.a.demand && !x.b.demand
  { x with disc := x.disc && !normal, tpf := x.tpf && !(normal && x.a.followed && x.b.followed) }

theorem clearSwitch_fault (x : FenSwitch) : (clearSwitch x).fault = false := by
  unfold clearSwitch
  split
  · rfl
  · exact Bool.eq_false_iff.2 ‹_›

theorem clearSwitch_bad {x : FenSwitch} (h : x.fault = true) : (clearSwitch x).bad = 0 := congrArg FenSwitch.bad (if_pos h)

section
variable (d : Dev)

/-- The latches of the inputs have cleared. -/
def Dev.inputsCleared (d : Dev) : Dev := (upto 8).foldl Dev.clearInput d

/-- Every latch that may clear has. -/
def Dev.latchesCleared (d : Dev) : Dev := (upto 4).foldl Dev.clearReadBack ((upto 4).foldl Dev.clearLatch d.inputsCleared)

/-- The pairs have followed what the reset has cleared. -/
def Dev.resetDone (d : Dev) : Dev := (d.latchesCleared.fenEvent 3 0xFF 0).updatePairs

theorem Dev.inputsCleared_spec : { d.inputsCleared.fen with ins := .empty } = { d.fen with ins := .empty } ∧
    ∀ i < 8, d.inputsCleared.fenIn i = clearedInput (d.fenIn i) := by
  obtain ⟨hrest, hget⟩ := foldl_pointwise (rest := fun d => { d.fen with ins := SMap.empty }) (get := Dev.fenIn)
    (f := Dev.clearInput) (g := fun _ _ x => clearedInput x) (fun _ _ => rfl)
    (fun _ _ => Dev.fenIn_setFenIn_self ..) (fun _ _ _ hj => Dev.fenIn_setFenIn_of_ne _ _ _ hj)
    List.nodup_range d (ks := upto 8)
  exact ⟨hrest, fun i hi => (hget i).trans (if_pos (List.mem_range.2 hi))⟩

theorem Dev.clearLatch_of_ne {k j : Nat} (hj : j ≠ k) : (d.clearLatch k).fenOut j = d.fenOut j := by
  unfold Dev.clearLatch
  split
  · rfl
  · exact Dev.fenOut_setFenOut_of_ne _ _ _ hj

theorem Dev.clearLatch_self (k : Nat) : (d.clearLatch k).fenOut k =
    if d.pairCause k then d.fenOut k else { d.fenOut k with latched := false } := by
  unfold Dev.clearLatch
  split
  · rfl
  · exact Dev.fenOut_setFenOut_self ..

theorem Dev.pairWork_clearLatch (k : Nat) : Dev.PairWork pairRead d (d.clearLatch k) :=
  .ite .refl (Dev.pairWork_setFenOut d k rfl)

/-- The latches of the pairs without a cause clear. -/
theorem Dev.foldl_clearLatch {ks : List Nat} (hn : ks.Nodup) : fenRest (ks.foldl Dev.clearLatch d).fen = fenRest d.fen ∧
    ∀ k, (ks.foldl Dev.clearLatch d).fenOut k = if k ∈ ks then
      (if d.pairCause k then d.fenOut k else { d.fenOut k with latched := false }) else d.fenOut k := by
  obtain ⟨hrest, hget⟩ := foldl_pointwise (rest := fun d => (fenRest d.fen, d.pairCause)) (get := Dev.fenOut)
    (f := Dev.clearLatch) (g := fun r k o => if r.2 k then o else { o with latched := false })
    (fun d k => Prod.ext (d.pairWork_clearLatch k).rest (funext fun j => (d.pairWork_clearLatch k).pairCause j))
    (fun d k => d.clearLatch_self k) (fun d _ _ hj => d.clearLatch_of_ne hj) hn d
  exact ⟨congrArg (·.1) hrest, hget⟩

theorem Dev.foldl_clearReadBack {ks : List Nat} (hn : ks.Nodup) :
    fenRest (ks.foldl Dev.clearReadBack d).fen = fenRest d.fen ∧
    ∀ k, (ks.foldl Dev.clearReadBack d).fenOut k = if k ∈ ks then
      { d.fenOut k with hi := clearSwitch (d.fenOut k).hi, lo := clearSwitch (d.fenOut k).lo } else d.fenOut k :=
  foldl_pointwise (rest := fun d => fenRest d.fen) (get := Dev.fenOut) (f := Dev.clearReadBack)
    (g := fun _ _ o => { o with hi := clearSwitch o.hi, lo := clearSwitch o.lo }) (fun _ _ => rfl)
    (fun _ _ => Dev.fenOut_setFenOut_self ..) (fun _ _ _ hj => Dev.fenOut_setFenOut_of_ne _ _ _ hj) hn d

/-- What a reset clears. -/
theorem Dev.latchesCleared_spec : fenRest d.latchesCleared.fen = fenRest d.inputsCleared.fen ∧
    ∀ k < 4, (d.latchesCleared.fenOut k).hi = clearSwitch (d.fenOut k).hi ∧
      (d.latchesCleared.fenOut k).lo = clearSwitch (d.fenOut k).lo ∧
      (d.inputsCleared.pairCause k = false → (d.latchesCleared.fenOut k).latched = false) := by
  obtain ⟨hrest, hget⟩ := d.inputsCleared.foldl_clearLatch (ks := upto 4) List.nodup_range
  obtain ⟨hrest', hget'⟩ := ((upto 4).foldl Dev.clearLatch d.inputsCleared).foldl_clearReadBack (ks := upto 4) List.nodup_range
  have hin (k : Nat) : d.inputsCleared.fenOut k = d.fenOut k :=
    (congrArg (fun f : FenState => f.outs.get FenOut.reset k) d.inputsCleared_spec.1 :)
  refine ⟨hrest'.trans hrest, fun k hk => ?_⟩
  have hmem := List.mem_range.2 hk
  have hlatch := (hget k).trans (if_pos hmem)
  have hself : d.latchesCleared.fenOut k = _ := (hget' k).trans (if_pos hmem)
  rw [hlatch, hin] at hself
  rw [hself]
  cases d.inputsCleared.pairCause k with
  | true => exact ⟨rfl, rfl, fun h => by cases h⟩
  | false => exact ⟨rfl, rfl, fun _ => rfl⟩

end

/-! ### The pairs after the reset -/

theorem driveSwitch_bad {v : Bool} {x : FenSwitch} (h : x.bad = 0) : (driveSwitch v x).bad = 0 := by
  unfold driveSwitch
  split
  · exact h
  · rfl

/-- A comparison that starts afresh stays so while the pairs follow their causes. -/
theorem Dev.updatePairs_bad (d : Dev) (k : Nat) : ((d.fenOut k).hi.bad = 0 → (d.updatePairs.fenOut k).hi.bad = 0) ∧
    ((d.fenOut k).lo.bad = 0 → (d.updatePairs.fenOut k).lo.bad = 0) := by
  have hone (d : Dev) (j : Nat) : ((d.fenOut k).hi.bad = 0 → ((d.updatePair j).fenOut k).hi.bad = 0) ∧
      ((d.fenOut k).lo.bad = 0 → ((d.updatePair j).fenOut k).lo.bad = 0) := by
    by_cases hk : k = j
    · subst hk
      have hhi := (congrArg (·.2.2.1.bad) (d.updatePair_self k) :)
      have hlo := (congrArg (·.2.2.2.bad) (d.updatePair_self k) :)
      exact ⟨fun h => hhi.trans (driveSwitch_bad h), fun h => hlo.trans (driveSwitch_bad h)⟩
    · have hhi := (congrArg (·.2.2.1.bad) (d.updatePair_of_ne j hk) :)
      have hlo := (congrArg (·.2.2.2.bad) (d.updatePair_of_ne j hk) :)
      exact ⟨hhi.trans, hlo.trans⟩
  rw [Dev.updatePairs_fenOut]
  generalize upto 4 = js
  induction js generalizing d with
  | nil => exact ⟨id, id⟩
  | cons j rest ih =>
    obtain ⟨hhi, hlo⟩ := ih (d.updatePair j)
    exact ⟨fun h => hhi ((hone d j).1 h), fun h => hlo ((hone d j).2 h)⟩

/-- A pair has no cause of demand. -/
theorem Dev.pairCause_of_quiet {d : Dev} {k : Nat} (hst : d.fen.st = .run) (hh : d.fen.held = false)
    (hp : d.fen.passcode ≠ 0) (hhi : (d.fenOut k).hi.fault = false) (hlo : (d.fenOut k).lo.fault = false)
    (hin : ∀ i < 8, d.inDemand i = false) : d.pairCause k = false := by
  have hnone : ((upto 8).any fun i => d.fenInEn i && bitAt (d.inCfg i) (20 + k) && d.inDemand i) = false := by
    rw [List.any_eq_false]
    intro i hi
    rw [hin i (List.mem_range.1 hi), Bool.and_false]
    decide
  simp only [Dev.pairCause, hnone, hst, hh, hhi, hlo, hp]
  rfl

section
variable (d : Dev)

/-- After a reset the pairs follow their causes. -/
theorem Dev.resetDone_follows : Dev.PairWork pairRead d.latchesCleared d.resetDone ∧
    ∀ k, ((d.latchesCleared.fenOut k).hi.bad = 0 → (d.resetDone.fenOut k).hi.bad = 0) ∧
      ((d.latchesCleared.fenOut k).lo.bad = 0 → (d.resetDone.fenOut k).lo.bad = 0) ∧
      (k < 4 → d.latchesCleared.PairFollows k (d.resetDone.fenOut k)) := by
  unfold Dev.resetDone
  generalize d.latchesCleared = c
  have hevent := c.pairWork_fenEvent id 3 0xFF 0
  generalize c.fenEvent 3 0xFF 0 = g at *
  have hout (k : Nat) : g.fenOut k = c.fenOut k := hevent.view k
  refine ⟨(hevent.map pairRead).trans g.pairWork_updatePairs, fun k => ?_⟩
  obtain ⟨hhi, hlo⟩ := g.updatePairs_bad k
  rw [hout k] at hhi hlo
  exact ⟨hhi, hlo, fun hk => (Dev.updatePairs_follows hk).congr hevent.rest (congrArg pairRead (hout k))
    (congrArg FenOut.latched (hout k))⟩

/-- What stands after a reset. -/
theorem Dev.resetDone_spec : fenRest d.resetDone.fen = fenRest d.inputsCleared.fen ∧
    ∀ k < 4, ((d.resetDone.fenOut k).hi.fault = false ∧ ((d.fenOut k).hi.fault = true → (d.resetDone.fenOut k).hi.bad = 0)) ∧
      ((d.resetDone.fenOut k).lo.fault = false ∧ ((d.fenOut k).lo.fault = true → (d.resetDone.fenOut k).lo.bad = 0)) := by
  obtain ⟨hrest, hpairs⟩ := d.latchesCleared_spec
  obtain ⟨hwork, hbad⟩ := d.resetDone_follows
  generalize d.latchesCleared = c at *
  generalize d.resetDone = e at *
  refine ⟨hwork.rest.trans hrest, fun k hk => ?_⟩
  obtain ⟨hhi, hlo, -⟩ := hpairs k hk
  obtain ⟨hhib, hlob, -⟩ := hbad k
  have hhif : (e.fenOut k).hi.fault = (c.fenOut k).hi.fault := (congrArg (·.1.2) (hwork.view k) :)
  have hlof : (e.fenOut k).lo.fault = (c.fenOut k).lo.fault := (congrArg (·.2.2) (hwork.view k) :)
  rw [hhif, hlof, hhi, hlo, clearSwitch_fault, clearSwitch_fault]
  rw [hhi] at hhib
  rw [hlo] at hlob
  exact ⟨⟨rfl, fun h => hhib (clearSwitch_bad h)⟩, rfl, fun h => hlob (clearSwitch_bad h)⟩

theorem Dev.inputsCleared_core : fenCore d.inputsCleared.fen = fenCore d.fen :=
  (congrArg fenRest d.inputsCleared_spec.1 :)

/-- The causes of demand are gone. -/
def Dev.causesGone (d : Dev) : Prop := d.fen.st = .run ∧ d.fen.held = false ∧ d.fen.passcode ≠ 0 ∧
  (∀ i < 8, (d.fenIn i).a.demand = false ∧ (d.fenIn i).b.demand = false ∧
    (d.fenIn i).a.followed = true ∧ (d.fenIn i).b.followed = true) ∧
  ∀ k < 4, (d.fenOut k).hi.fault = false ∧ (d.fenOut k).lo.fault = false

variable {d}

theorem Dev.inputs_quiet (h : d.causesGone) {i : Nat} (hi : i < 8) : (d.inputsCleared.fenIn i).disc = false ∧
    (d.inputsCleared.fenIn i).tpf = false ∧ d.inputsCleared.inDemand i = false := by
  obtain ⟨-, -, -, hin, -⟩ := h
  obtain ⟨ha, hb, hfa, hfb⟩ := hin i hi
  have hself := d.inputsCleared_spec.2 i hi
  unfold Dev.inDemand
  rw [hself]
  simp [clearedInput, ha, hb, hfa, hfb]

/-- A pair without read-back faults has no cause once the inputs have cleared. -/
theorem Dev.pairCause_cleared (h : d.causesGone) {e : Dev} (he : fenRest e.fen = fenRest d.inputsCleared.fen) {k : Nat}
    (hhi : (e.fenOut k).hi.fault = false) (hlo : (e.fenOut k).lo.fault = false) : e.pairCause k = false := by
  have hquiet := fun i hi => (Dev.inputs_quiet h (i := i) hi).2.2
  have hcore := d.inputsCleared_core
  obtain ⟨hst, hheld, hpass, -, -⟩ := h
  generalize d.inputsCleared = c at *
  have hst' := (fenRest_proj FenState.st (fun _ => rfl) he).trans (fenCore_proj FenState.st (fun _ => rfl) hcore)
  have hheld' := (fenRest_proj FenState.held (fun _ => rfl) he).trans (fenCore_proj FenState.held (fun _ => rfl) hcore)
  have hpass' := (fenRest_proj FenState.passcode (fun _ => rfl) he).trans
    (fenCore_proj FenState.passcode (fun _ => rfl) hcore)
  refine Dev.pairCause_of_quiet (hst'.trans hst) (hheld'.trans hheld) (hpass' ▸ hpass) hhi hlo fun i hi => ?_
  rw [Dev.inDemand, fenIn_of_rest he i]
  exact hquiet i hi

/-- With every cause gone no latch and no demand stays. -/
theorem Dev.resetDone_quiet (h : d.causesGone) : d.resetDone.anyLatch = false ∧
    ∀ k < 4, (d.resetDone.fenOut k).latched = false ∧ (d.resetDone.fenOut k).demanded = false := by
  obtain ⟨hrest, hpairs⟩ := d.latchesCleared_spec
  obtain ⟨hrest', hfaults⟩ := d.resetDone_spec
  obtain ⟨-, hfollow⟩ := d.resetDone_follows
  have hstarted (k : Nat) : d.inputsCleared.fenOut k = d.fenOut k :=
    (congrArg (fun f : FenState => f.outs.get FenOut.reset k) d.inputsCleared_spec.1 :)
  have hgone := fun (e : Dev) (he : fenRest e.fen = fenRest d.inputsCleared.fen) (k : Nat) => Dev.pairCause_cleared h he (k := k)
  have hquiet := fun i hi => Dev.inputs_quiet h (i := i) hi
  obtain ⟨-, -, -, -, hnofault⟩ := h
  generalize d.resetDone = e at *
  generalize d.latchesCleared = g at *
  generalize d.inputsCleared = x at *
  have hnone (k : Nat) (hk : k < 4) : (e.fenOut k).latched = false ∧
      (e.fenOut k).demanded = false := by
    obtain ⟨hhi, hlo, hlat⟩ := hpairs k hk
    have hcause : x.pairCause k = false := by
      refine hgone x rfl k ?_ ?_
      · rw [hstarted k]
        exact (hnofault k hk).1
      · rw [hstarted k]
        exact (hnofault k hk).2
    have hcause' : g.pairCause k = false := by
      refine hgone g hrest k ?_ ?_
      · rw [hhi, clearSwitch_fault]
      · rw [hlo, clearSwitch_fault]
    have hpair := (hfollow k).2.2 hk
    have hlatched : (e.fenOut k).latched = false := by
      rw [hpair.latched, hlat hcause, hcause', Bool.false_and, Bool.or_false]
    exact ⟨hlatched, by rw [hpair.demanded, hlatched, hcause', Bool.or_false]⟩
  refine ⟨Bool.or_eq_false_iff.2 ⟨?_, ?_⟩, hnone⟩
  · rw [List.any_eq_false]
    intro i hi
    obtain ⟨hdisc, htpf, -⟩ := hquiet i (List.mem_range.1 hi)
    rw [fenIn_of_rest hrest' i, hdisc, htpf]
    decide
  · rw [List.any_eq_false]
    intro k hk
    obtain ⟨⟨hhif, -⟩, hlof, -⟩ := hfaults k (List.mem_range.1 hk)
    rw [(hnone k (List.mem_range.1 hk)).1, hhif, hlof]
    decide

end

section
variable {c : Cmd} {s : State}

theorem exec_fenceReset (ha : s.dev.admits 0x62 0 c) {d : Dev} (hd : s.fresh.fenceReset c = d) :
    exec (.fenceReset c) s = .next (s.after d) := State.runCmd_gives ha hd

theorem fenceReset_held (ha : s.dev.admits 0x62 0 c) (h : s.dev.fen.held = true ∨ s.dev.fen.st = .init) :
    exec (.fenceReset c) s =
      .next (s.after (s.fresh.complete c 0x62 (if s.dev.anyLatch then stPartial else stOk))) := by
  have hoff : (s.fresh.fen.held || decide (s.fresh.fen.st = .init)) = true := by
    rw [Bool.or_eq_true, decide_eq_true_iff]
    exact h
  refine exec_fenceReset ha ?_
  unfold Dev.fenceReset
  rw [if_pos hoff]
  rfl

theorem exec_fenceReset_running (ha : s.dev.admits 0x62 0 c) (hh : s.dev.fen.held = false) (hst : s.dev.fen.st ≠ .init) :
    exec (.fenceReset c) s = .next (s.after (s.fresh.resetDone.complete c 0x62
      (if s.fresh.resetDone.anyLatch then stPartial else stOk))) := by
  have hoff : ¬ (s.fresh.fen.held || decide (s.fresh.fen.st = .init)) = true := by simp [hh, hst]
  refine exec_fenceReset ha ?_
  unfold Dev.fenceReset
  rw [if_neg hoff]
  rfl

theorem fenceReset_clears (ha : s.dev.admits 0x62 0 c) (hh : s.dev.fen.held = false) (hst : s.dev.fen.st ≠ .init) :
    ∃ d : Dev, exec (.fenceReset c) s = .next (s.after (d.complete c 0x62 (if d.anyLatch then stPartial else stOk))) ∧
      (∀ k < 4,
        (d.fenOut k).hi.fault = false ∧ ((s.dev.fenOut k).hi.fault = true → (d.fenOut k).hi.bad = 0) ∧
        (d.fenOut k).lo.fault = false ∧ ((s.dev.fenOut k).lo.fault = true → (d.fenOut k).lo.bad = 0)) ∧
      (∀ i < 8, (d.fenIn i).disc =
        ((s.dev.fenIn i).disc && ((s.dev.fenIn i).a.demand || (s.dev.fenIn i).b.demand))) := by
  obtain ⟨hrest, hpairs⟩ := s.fresh.resetDone_spec
  have hin := s.fresh.inputsCleared_spec.2
  refine ⟨_, exec_fenceReset_running ha hh hst, fun k hk => ?_, fun i hi => ?_⟩
  · obtain ⟨⟨hhi, hhib⟩, hlo, hlob⟩ := hpairs k hk
    exact ⟨hhi, hhib, hlo, hlob⟩
  · rw [fenIn_of_rest hrest i, hin i hi]
    simp [clearedInput, Bool.not_and]
    rfl

theorem fenceReset_quiet (ha : s.dev.admits 0x62 0 c) (h : s.dev.causesGone) :
    Completes (.fenceReset c) c 0x62 stOk s fun d =>
      d.anyLatch = false ∧ ∀ k < 4, (d.fenOut k).latched = false ∧ (d.fenOut k).demanded = false := by
  have hquiet := Dev.resetDone_quiet (d := s.fresh) h
  obtain ⟨hst, hh, -⟩ := h
  have hrun := exec_fenceReset_running (c := c) ha hh (by rw [hst]; decide)
  rw [hquiet.1] at hrun
  exact ⟨_, hrun, hquiet⟩

end

/-- Settles O44: FENCE_PARAM by its lines in order, FENCE_TEST up to the start of its first test, and FENCE_RESET by what
each of its three rules clears. -/
theorem fenceCommandsComplete : Obligations.FenceCommandsComplete := by
  refine ⟨fun c ok s ha => ⟨fenceParam_locked ha, fenceParam_wrong ha, fun hl hp => ?_⟩, fun c s ha => ?_, fun c s ha => ?_⟩
  · obtain ⟨hbad, hrej⟩ := fenceParam_checked ha hl hp
    exact ⟨hbad, hrej, fenceParam_open ha hl hp⟩
  · exact ⟨fun hm => exec_fenceTest ha (if_pos hm),
      fun hm ht => exec_fenceTest ha ((if_neg hm).trans (if_pos ht)),
      fun k hk hb ht h => fenceTest_rejected ha hk hb ht h, fun k hk hm ht h0 htest => fenceTest_begins ha hk hm ht h0 htest⟩
  · exact ⟨fenceReset_held ha, fenceReset_clears ha,
      fun hh hst hp hin hf => fenceReset_quiet ha ⟨hst, hh, hp, hin, hf⟩⟩

end Sys2Proof.Machine
end

section
/-! PROOFS. Image transfers and activation (R428, R454–R466), and O54. -/

namespace Sys2Proof.Machine

open Host

/-! ### IMAGE_BEGIN (R462, R463) -/

/-- The transfer that the command opens. -/
def newTransfer (c : Cmd) (now : Nat) : Transfer :=
  Transfer.mk (c.byte 20) (c.word 24) [] now c.ring.val c.slot.toNat c.tag.toNat 320 0 false

/-- A transfer opens. -/
def Dev.transferOpened (c : Cmd) (d : Dev) : Dev :=
  (if c.byte 20 = 0 then d.replaceBoot else d).onSec fun x => { x with
    xfer := some (newTransfer c d.now), received := 0
    slots := if c.byte 20 = 2 ∨ c.byte 20 = 3 then x.slots.set none d.storeSlot (some []) else x.slots }

section
variable {c : Cmd} {d : Dev}

theorem Dev.imageBegin_bad (h : 4 < c.byte 20 ∨ (c.byte 20 ≠ 4 ∧ (c.word 24 < 320 ∨ 2 ^ 24 < c.word 24))) :
    d.imageBegin c = d.complete c 0x81 stBadParam := if_pos h

theorem Dev.imageBegin_abort (h : c.byte 20 = 4) : d.imageBegin c = d.abortImage.complete c 0x81 stOk :=
  (if_neg (by omega)).trans (if_pos h)

theorem Dev.imageBegin_sized (hp : c.byte 20 < 4) (hl : 320 ≤ c.word 24) (hh : c.word 24 ≤ 2 ^ 24) :
    d.imageBegin c = if d.purposeOk (c.byte 20) = false then d.complete c 0x81 stRejected
      else if d.sec.xfer.isSome then d.complete c 0x81 stBusy else d.transferOpened c := by
  have hgood : ¬ (4 < c.byte 20 ∨ (c.byte 20 ≠ 4 ∧ (c.word 24 < headerLen ∨ maxImage < c.word 24))) := by
    unfold headerLen maxImage
    omega
  exact (if_neg hgood).trans (if_neg (by omega))

theorem Dev.abortImage_idle (hx : d.sec.xfer = none) (hs : d.sec.staged = false) : d.abortImage = d := by
  unfold Dev.abortImage
  rw [hx]
  exact if_neg (by rw [hs]; decide)

theorem exec_imageBegin {s : State} (ha : s.dev.admits 0x81 (inlMask [(20, 0xFF), (24, 0xFFFFFFFF)]) c)
    (hd : s.fresh.imageBegin c = d) : exec (.imageBegin c) s = .next (s.after d) := State.runCmd_gives ha hd

/-- BOOT is permitted before READY alone, when no command is admitted. -/
theorem purpose_ne_zero (hr : d.ready = true) (hp : d.purposeOk (c.byte 20) = true) : c.byte 20 ≠ 0 := by
  intro h0
  simp [Dev.purposeOk, h0, hr] at hp

theorem Dev.transferOpened_later (h : c.byte 20 ≠ 0) : d.transferOpened c = d.onSec fun x => { x with
    xfer := some (newTransfer c d.now), received := 0
    slots := if c.byte 20 = 2 ∨ c.byte 20 = 3 then x.slots.set none d.storeSlot (some []) else x.slots } := by
  unfold Dev.transferOpened
  rw [if_neg h]

end

theorem imageBegin_opens {c : Cmd} {s : State} (ha : s.dev.admits 0x81 (inlMask [(20, 0xFF), (24, 0xFFFFFFFF)]) c)
    (hp : c.byte 20 < 4) (hl : 320 ≤ c.word 24) (hh : c.word 24 ≤ 2 ^ 24) (hok : s.dev.purposeOk (c.byte 20) = true)
    (hx : s.dev.sec.xfer = none) : Answers (.imageBegin c) s fun t =>
      t.dev.sec.xfer = some (Transfer.mk (c.byte 20) (c.word 24) [] s.dev.now c.ring.val c.slot.toNat c.tag.toNat 320 0
        false) ∧ t.dev.sec.received = 0 ∧
      (c.byte 20 ≠ 2 → c.byte 20 ≠ 3 → t.dev.sec.slots = s.dev.sec.slots) ∧
      (c.byte 20 = 2 ∨ c.byte 20 = 3 → t.dev.sec.slots = s.dev.sec.slots.set none s.dev.storeSlot (some [])) ∧
      (c.byte 20 = 0 → s.dev.sec.staged = true → t.dev.sec.staged = false ∧ t.dev.sec.phase = min s.dev.sec.phase 4 ∧
        t.dev.regs.staged = s.dev.regs.active) ∧
      (c.byte 20 ≠ 0 ∨ s.dev.sec.staged = false → ChangesOnly [.sec] s t) ∧ t.pending = s.pending ∧ Quiet s t := by
  obtain ⟨-, -, -, -, -, hready, -⟩ := id ha
  have hne := purpose_ne_zero hready hok
  have hopen := (Dev.imageBegin_sized (d := s.fresh) hp hl hh).trans
    ((if_neg (by rw [show s.fresh.purposeOk (c.byte 20) = true from hok]; decide)).trans (if_neg (by simp [hx])))
  rw [Dev.transferOpened_later hne] at hopen
  obtain ⟨honly, hquiet⟩ := (s.fresh.keeps_onSec _).quietly (s := s) rfl
  exact ⟨_, exec_imageBegin ha hopen, rfl, rfl, fun h2 h3 => if_neg (not_or.mpr ⟨h2, h3⟩), fun h => if_pos h,
    fun h0 => absurd h0 hne, fun _ => honly, rfl, hquiet⟩

/-! ### A transfer fails (R460, R463) -/

section
variable {t : Transfer} {code : Nat} {d : Dev}

/-- A failure's report, before the transfer ends. -/
def Dev.transferFailing (t : Transfer) (code : Nat) (d : Dev) : Dev :=
  (if t.purpose = 2 then d else d.dropStaged).imageFails code

theorem Dev.transferFails_eq : d.transferFails t code =
    (d.transferFailing t code).endTransfer t code (statusOfError code) := rfl

theorem Dev.transferFailing_spec : (d.transferFailing t code).sec.err = code ∧
    (d.transferFailing t code).stands Reg.SEC_EVENT 2 ∧
    (d.transferFailing t code).host.cmdCnt = d.host.cmdCnt ∧ (d.transferFailing t code).host.cmdErrCnt = d.host.cmdErrCnt ∧
    (t.purpose ≠ 2 → (d.transferFailing t code).regs.staged = d.regs.active) := by
  unfold Dev.transferFailing
  have hdrop : (t.purpose ≠ 2 → (if t.purpose = 2 then d else d.dropStaged).regs.staged = d.regs.active) ∧
      (if t.purpose = 2 then d else d.dropStaged).host = d.host := by
    split
    · exact ⟨fun h => absurd ‹_› h, rfl⟩
    · exact ⟨fun _ => rfl, rfl⟩
  obtain ⟨hregs, hhost⟩ := hdrop
  generalize (if t.purpose = 2 then d else d.dropStaged) = e at *
  have hvalues := (e.touches_imageFails code).same .values (by decide)
  have hcnt : (e.imageFails code).host.cmdCnt = e.host.cmdCnt ∧ (e.imageFails code).host.cmdErrCnt = e.host.cmdErrCnt := by
    unfold Dev.imageFails
    rw [Dev.irq_host_cmdCnt, Dev.event_host_cmdCnt, Dev.irq_host_cmdErrCnt, Dev.event_host_cmdErrCnt]
    exact ⟨rfl, rfl⟩
  refine ⟨?_, e.imageFails_stands code, hcnt.1.trans (congrArg HostState.cmdCnt hhost),
    hcnt.2.trans (congrArg HostState.cmdErrCnt hhost), fun h => (congrArg RegsState.staged hvalues.symm :).trans (hregs h)⟩
  rw [Dev.imageFails_sec]

theorem Dev.endTransfer_spec (t : Transfer) (code status : Nat) (d : Dev) :
    (d.endTransfer t code status).sec = { d.sec with xfer := none } ∧
    (d.endTransfer t code status).regs.staged = d.regs.staged ∧
    (d.endTransfer t code status).host.cmdCnt = satInc d.host.cmdCnt ∧
    (d.endTransfer t code status).host.cmdErrCnt = (if decide (status = 1 ∨ status = 2 ∨ status = 5 ∨ status = 7) then
      satInc d.host.cmdErrCnt else d.host.cmdErrCnt) ∧ d.Grows (d.endTransfer t code status) := by
  unfold Dev.endTransfer
  extract_lets dg
  have hkept := (d.onSec fun s => { s with xfer := none }).keepsCommands_completeAs t.ring t.slot t.tag 0x81 status 0
    [code, leAt dg 0 4, leAt dg 4 4]
  have htouch := (d.onSec fun s => { s with xfer := none }).touches_completeAs t.ring t.slot t.tag 0x81 status 0
    [code, leAt dg 0 4, leAt dg 4 4]
  generalize (d.onSec fun s => { s with xfer := none }).completeAs t.ring t.slot t.tag 0x81 status 0
    [code, leAt dg 0 4, leAt dg 4 4] = e at *
  have hsec := htouch.same .sec (by decide)
  have hvalues := htouch.same .values (by decide)
  exact ⟨hsec.symm, (congrArg RegsState.staged hvalues.symm :), hkept.cmdCnt, hkept.cmdErrCnt, htouch.grows⟩

/-- A transfer that fails with code 8 or 10 ends, with its code and its event. -/
theorem Dev.transferFails_spec {e : Dev} (he : e = d.transferFails t code) : e.sec.xfer = none ∧ e.sec.err = code ∧
    e.stands Reg.SEC_EVENT 2 ∧ e.host.cmdCnt = satInc d.host.cmdCnt ∧
    e.host.cmdErrCnt = (if decide (statusOfError code = 1 ∨ statusOfError code = 2 ∨ statusOfError code = 5 ∨
      statusOfError code = 7) then satInc d.host.cmdErrCnt else d.host.cmdErrCnt) ∧
    (t.purpose ≠ 2 → e.regs.staged = d.regs.active) := by
  obtain ⟨herr, hstands, hcnt, hecnt, hregs⟩ := d.transferFailing_spec (t := t) (code := code)
  obtain ⟨hsec', hregs', hcnt', hecnt', hgrows⟩ := Dev.endTransfer_spec t code (statusOfError code) (d.transferFailing t code)
  rw [Dev.transferFails_eq] at he
  rw [← he] at hsec' hregs' hcnt' hecnt' hgrows
  generalize d.transferFailing t code = g at *
  rw [hcnt] at hcnt'
  rw [hecnt] at hecnt'
  exact ⟨(congrArg SecState.xfer hsec' :), (congrArg SecState.err hsec' :).trans herr, hgrows _ _ hstands, hcnt', hecnt',
    fun h => hregs'.trans (hregs h)⟩

end

theorem imageTransferTimeout_early {x : Transfer} {s : State} (hx : s.dev.sec.xfer = some x)
    (h : s.dev.now < x.lastChunk + secTicks) : exec .imageTransferTimeout s = .next (s.after s.fresh) := by
  refine exec_idle rfl ?_
  have hx' : s.fresh.sec.xfer = some x := hx
  rw [hx']
  exact if_pos h

theorem imageTransferTimeout_none {s : State} (hx : s.dev.sec.xfer = none) :
    exec .imageTransferTimeout s = .next (s.after s.fresh) := by
  refine exec_idle rfl ?_
  have hx' : s.fresh.sec.xfer = none := hx
  rw [hx']

theorem imageTransferTimeout_fails {x : Transfer} {s : State} (hx : s.dev.sec.xfer = some x)
    (h : x.lastChunk + secTicks ≤ s.dev.now) : Answers .imageTransferTimeout s fun t =>
      t.dev.sec.xfer = none ∧ t.dev.sec.err = 10 ∧ t.dev.stands Reg.SEC_EVENT 2 ∧
      t.dev.host.cmdCnt = satInc s.dev.host.cmdCnt ∧ t.pending = s.pending ∧
      (x.purpose ≠ 2 → t.dev.regs.staged = s.dev.regs.active) := by
  obtain ⟨e, he⟩ : ∃ e, e = s.fresh.transferFails x 10 := ⟨_, rfl⟩
  obtain ⟨hxfer, herr, hstands, hcnt, -, hregs⟩ := Dev.transferFails_spec he
  refine ⟨s.after e, exec_of_effect rfl ?_, hxfer, herr, hstands, hcnt, rfl, hregs⟩
  have hx' : s.fresh.sec.xfer = some x := hx
  rw [hx']
  exact (if_neg (Nat.not_lt.2 h)).trans he.symm

/-! ### Chunks (R428, R460, R462) -/

/-- The host interface stays, and the security block but for the tables of class 0x03 that wait. -/
structure Dev.KeepsTransfer (a d : Dev) : Prop where
  host : d.host = a.host
  sec : { d.sec with pwmTables := [] } = { a.sec with pwmTables := [] }

namespace Dev.KeepsTransfer

variable {a d e : Dev}

theorem refl : d.KeepsTransfer d := ⟨rfl, rfl⟩

theorem trans (h : a.KeepsTransfer d) (h' : d.KeepsTransfer e) : a.KeepsTransfer e :=
  ⟨h'.host.trans h.host, h'.sec.trans h.sec⟩

theorem foldl {α : Type} {f : Dev → α → Dev} (hf : ∀ (d : Dev) (x : α), d.KeepsTransfer (f d x)) (l : List α) (d : Dev) :
    d.KeepsTransfer (l.foldl f d) := by
  induction l generalizing d with
  | nil => exact refl
  | cons x rest ih => exact (hf d x).trans (ih _)

end Dev.KeepsTransfer

section
variable {d : Dev}

theorem Dev.keepsTransfer_storeReg (off : Nat) (v : W32) (d : Dev) : d.KeepsTransfer (d.storeReg off v) := by
  unfold Dev.storeReg
  split
  · exact .refl
  · dsimp only
    split
    · exact ⟨rfl, rfl⟩
    · exact ⟨rfl, rfl⟩

theorem Dev.keepsTransfer_onPnt (f : PntState → PntState) (d : Dev) : d.KeepsTransfer (d.onPnt f) := ⟨rfl, rfl⟩

theorem Dev.keepsTransfer_markLoaded (cls first n : Nat) (d : Dev) : d.KeepsTransfer (d.markLoaded cls first n) := ⟨rfl, rfl⟩

/-- A table of another class than 0x03 goes to the staged tables. -/
theorem Dev.keepsTransfer_tableStore {a0 : Nat} (a1 : Nat) (bs : List Byte) (d : Dev) (h : bits a0 7 0 ≠ 3) :
    d.KeepsTransfer (d.tableStore a0 a1 bs).1 := by
  unfold Dev.tableStore
  dsimp only
  split
  · exact ⟨rfl, rfl⟩
  · exact ⟨rfl, rfl⟩
  · exact absurd ‹_› h
  · exact (d.keepsTransfer_onPnt _).trans (Dev.keepsTransfer_markLoaded ..)
  · exact (d.keepsTransfer_onPnt _).trans (Dev.keepsTransfer_markLoaded ..)
  · exact .trans (d := d.onAdc _) ⟨rfl, rfl⟩ (Dev.keepsTransfer_markLoaded ..)

theorem Dev.keepsTransfer_takeSection (typ a0 a1 : Nat) (data : List Byte) (d : Dev) :
    d.KeepsTransfer (d.takeSection typ a0 a1 data).1 := by
  unfold Dev.takeSection
  extract_lets n es r
  split
  · split
    · exact .refl
    · exact .foldl (fun d (e : Nat × Nat) => d.keepsTransfer_storeReg e.1 _) _ _
  · split
    · split
      · split
        · split
          · exact ⟨rfl, rfl⟩
          · exact .refl
        · exact Dev.keepsTransfer_tableStore a1 data d ‹_›
      · exact .refl
    · exact .refl

theorem Dev.keepsTransfer_takeSections (n total : Nat) (bs : List Byte) (w : SectionWalk) (d : Dev) :
    d.KeepsTransfer (d.takeSections n total bs w).1 := by
  induction n generalizing bs w d with
  | zero => exact .refl
  | succ n ih =>
    unfold Dev.takeSections
    extract_lets len r
    split
    · exact .refl
    split
    · exact .refl
    split
    · exact .refl
    split
    · exact .refl
    split
    · exact .refl
    · exact (Dev.keepsTransfer_takeSection ..).trans (ih ..)

/-- A chunk that is taken is appended, and noted at this tick. -/
theorem Dev.takeChunk_spec (t : Transfer) (bs : List Byte) (d : Dev) {r : Dev × Transfer} (hr : r = d.takeChunk t bs) :
    r.2.bytes = t.bytes ++ bs ∧ r.2.lastChunk = d.now ∧ r.2.total = t.total ∧ r.2.purpose = t.purpose ∧
    r.1.sec.received = (t.bytes ++ bs).length ∧ r.1.host = d.host := by
  unfold Dev.takeChunk at hr
  extract_lets all t' d' w at hr
  have hkeep : d'.KeepsTransfer w.1 := Dev.keepsTransfer_takeSections ..
  clear_value w
  split at hr
  · rw [hr]
    exact ⟨rfl, rfl, rfl, rfl, rfl, rfl⟩
  · rw [hr]
    exact ⟨rfl, rfl, rfl, rfl, (congrArg SecState.received hkeep.sec :), hkeep.host⟩

/-- A descriptor of ring 31 is consumed; the security block and the counters stay. -/
theorem Dev.imageRingAdvance_spec {e : Dev} (he : e = d.imageRingAdvance) : e.sec = d.sec ∧ e.now = d.now ∧
    (e.ring 31).cons = ((d.ring 31).cons + 1) % d.ringSize 31 ∧ e.host.cmdCnt = d.host.cmdCnt ∧
    e.host.cmdErrCnt = d.host.cmdErrCnt := by
  have hring : e.ring 31 = { d.ring 31 with cons := ((d.ring 31).cons + 1) % d.ringSize 31 } := by
    rw [he]
    unfold Dev.imageRingAdvance
    dsimp only
    rw [Dev.irq_ring, Dev.shadow_ring]
    exact SMap.get_set_self ..
  have hkeep : Dev.Keeps [.reports, .events] d e := by
    rw [he]
    exact ((Dev.keeps_setRing ..).andThen (Dev.keeps_shadow ..) (by simp)).mono (by decide) |>.andThen
      (Dev.keeps_irq ..) (by decide)
  rw [hring]
  have hang : d.ang = e.ang := hkeep.same .ang (by decide)
  obtain ⟨-, hcnt, hecnt, -⟩ := hkeep.same .commands (by decide)
  exact ⟨(hkeep.same .sec (by decide)).symm, (congrArg AngState.tick hang :).symm, rfl, hcnt.symm, hecnt.symm⟩

theorem Dev.chunk_in_order {t : Transfer} {desc : BitVec 256} {bs : List Byte} (hok : chunkDescOk desc = true)
    (hlen : bs.length = bits desc.toNat 159 128) (hofs : bits desc.toNat 191 160 = t.bytes.length)
    (hfit : t.bytes.length + bs.length ≤ t.total) (hlast : bitAt desc.toNat 16 = false) :
    d.chunk t desc bs = (d.takeChunk t bs).1.onSec fun s => { s with xfer := some (d.takeChunk t bs).2 } := by
  unfold Dev.chunk
  dsimp only
  rw [if_neg (by rw [hok]; decide), if_neg (not_not.mpr hofs), if_neg (by omega), if_neg (by rw [hlast]; decide)]

theorem Dev.chunk_at_wrong_offset {t : Transfer} {desc : BitVec 256} {bs : List Byte} (hok : chunkDescOk desc = true)
    (hofs : bits desc.toNat 191 160 ≠ t.bytes.length) : d.chunk t desc bs = d.transferFails t 8 := by
  unfold Dev.chunk
  dsimp only
  rw [if_neg (by rw [hok]; decide), if_pos hofs]

end

section
variable {desc : BitVec 256} {bs : List Byte} {s : State}

/-- A descriptor brings as many bytes as it says. -/
theorem exec_imageChunk (hlen : bs.length = bits desc.toNat 159 128) {d : Dev} (hd : s.fresh.imageChunk desc bs = d) :
    exec (.imageChunk desc bs) s = .next (s.after d) := by
  have hagree : (!chunkDescOk desc || decide (bs.length = bits desc.toNat 159 128)) = true := by
    rw [hlen, decide_eq_true rfl, Bool.or_true]
  rw [← hd]
  exact if_pos hagree

theorem imageChunk_idle (h : s.dev.sec.xfer = none ∨ s.dev.ringEn 31 = false)
    (hlen : bs.length = bits desc.toNat 159 128) : exec (.imageChunk desc bs) s = .next (s.after s.fresh) := by
  refine exec_imageChunk hlen ?_
  unfold Dev.imageChunk
  split
  · rfl
  · rename_i t ht
    refine if_pos (.inl (h.resolve_left fun hnone => ?_))
    rw [show s.dev.sec.xfer = some t from ht] at hnone
    cases hnone

variable {x : Transfer} (hx : s.dev.sec.xfer = some x) (hen : s.dev.ringEn 31 = true)
  (hring : (s.dev.ring 31).prod ≠ (s.dev.ring 31).cons) (hok : chunkDescOk desc = true)
  (hlen : bs.length = bits desc.toNat 159 128)
include hx hen hring hok hlen

omit hok in
theorem exec_chunk {d : Dev} (hd : s.fresh.imageRingAdvance.chunk x desc bs = d) :
    exec (.imageChunk desc bs) s = .next (s.after d) := by
  refine exec_imageChunk hlen (.trans ?_ hd)
  have hx' : s.fresh.sec.xfer = some x := hx
  have hgo : ¬ (s.fresh.ringEn 31 = false ∨ (s.fresh.ring 31).prod = (s.fresh.ring 31).cons) :=
    not_or.mpr ⟨by rw [show s.fresh.ringEn 31 = true from hen]; decide, hring⟩
  unfold Dev.imageChunk
  rw [hx']
  exact if_neg hgo

theorem imageChunk_takes (hofs : bits desc.toNat 191 160 = x.bytes.length) (hfit : x.bytes.length + bs.length ≤ x.total)
    (hlast : bitAt desc.toNat 16 = false) : Answers (.imageChunk desc bs) s fun t =>
      (∃ y, t.dev.sec.xfer = some y ∧ y.bytes = x.bytes ++ bs ∧ y.lastChunk = s.dev.now ∧ y.total = x.total ∧
        y.purpose = x.purpose) ∧
      t.dev.sec.received = x.bytes.length + bs.length ∧
      (t.dev.ring 31).cons = ((s.dev.ring 31).cons + 1) % s.dev.ringSize 31 ∧ t.pending = s.pending := by
  obtain ⟨e, he⟩ : ∃ e, e = s.fresh.imageRingAdvance := ⟨_, rfl⟩
  obtain ⟨-, hnow, hcons, -⟩ := Dev.imageRingAdvance_spec he
  obtain ⟨r, hr⟩ : ∃ r, r = e.takeChunk x bs := ⟨_, rfl⟩
  obtain ⟨hbytes, hchunk, htotal, hpurpose, hreceived, hhost⟩ := Dev.takeChunk_spec x bs e hr
  have hrun := Dev.chunk_in_order (d := e) hok hlen hofs hfit hlast
  rw [← hr, he] at hrun
  have hsize : s.fresh.ringSize 31 = s.dev.ringSize 31 := rfl
  refine ⟨_, exec_chunk hx hen hring hlen hrun, ⟨r.2, rfl, hbytes, hchunk.trans hnow, htotal, hpurpose⟩,
    hreceived.trans List.length_append, ?_, rfl⟩
  exact (congrArg (fun h : HostState => (h.rings.get Ring.reset 31).cons) hhost).trans hcons

theorem imageChunk_fails (hofs : bits desc.toNat 191 160 ≠ x.bytes.length) : Answers (.imageChunk desc bs) s fun t =>
      t.dev.sec.xfer = none ∧ t.dev.sec.err = 8 ∧ t.dev.stands Reg.SEC_EVENT 2 ∧
      t.dev.host.cmdCnt = satInc s.dev.host.cmdCnt ∧ t.dev.host.cmdErrCnt = satInc s.dev.host.cmdErrCnt ∧
      t.pending = s.pending := by
  obtain ⟨e, he⟩ : ∃ e, e = s.fresh.imageRingAdvance := ⟨_, rfl⟩
  obtain ⟨-, -, -, hcnt, hecnt⟩ := Dev.imageRingAdvance_spec he
  obtain ⟨g, hg⟩ : ∃ g, g = e.transferFails x 8 := ⟨_, rfl⟩
  obtain ⟨hxfer, herr, hstands, hcnt', hecnt', -⟩ := Dev.transferFails_spec hg
  have hrun := (Dev.chunk_at_wrong_offset (d := e) (bs := bs) hok hofs).trans hg.symm
  rw [he] at hrun
  exact ⟨s.after g, exec_chunk hx hen hring hlen hrun, hxfer, herr, hstands, hcnt'.trans (congrArg satInc hcnt),
    hecnt'.trans (congrArg satInc hecnt), rfl⟩

end

/-! ### IMAGE_ACTIVATE (R466) -/

section
variable {c : Cmd} {s : State} (ha : s.dev.admits 0x82 (inlMask [(20, 1)]) c)
include ha

theorem exec_imageActivate {d : Dev} (hd : s.fresh.imageActivate c = d) :
    exec (.imageActivate c) s = .next (s.after d) := State.runCmd_gives ha hd

theorem imageActivate_none (hv : s.dev.sec.verified = none) :
    exec (.imageActivate c) s = .next (s.after (s.fresh.complete c 0x82 stRejected)) := by
  refine exec_imageActivate ha ?_
  have hv' : s.fresh.sec.verified = none := hv
  unfold Dev.imageActivate
  rw [hv']

variable {v : Verified} (hv : s.dev.sec.verified = some v) (hadv : bitAt (c.byte 20) 0 = false)
include hv hadv

theorem imageActivate_kept (hs : v.staged = false) :
    exec (.imageActivate c) s = .next (s.after (s.fresh.complete c 0x82 stOk)) := by
  refine exec_imageActivate ha ?_
  have hv' : s.fresh.sec.verified = some v := hv
  unfold Dev.imageActivate
  rw [hv']
  dsimp only
  rw [if_neg (by rw [hs]; decide), if_neg (by rw [hadv]; decide)]

/-- The commit of a staged image answers the command. -/
theorem exec_imageActivate_staged (hs : v.staged = true) {e : Dev} {st : Nat} (he : s.fresh.commit = (e, st)) {g : Dev}
    (hg : g = if st = stOk then e.imageApplied v else if st = stAdmission then e.imageFails 9 else e) :
    exec (.imageActivate c) s = .next (s.after (g.completeRes c 0x82 st 0 (g.commitResult g.sec.digest))) := by
  refine exec_imageActivate ha ?_
  have hv' : s.fresh.sec.verified = some v := hv
  unfold Dev.imageActivate
  rw [hv']
  dsimp only
  rw [if_pos hs, he, hg, hadv]
  rfl

theorem imageActivate_commits (hs : v.staged = true) (hadm : s.dev.admission.1 = 0) (hr : s.dev.blockRefuses = false) :
    ∃ (d : Dev) (res : List Nat), exec (.imageActivate c) s = .next (s.after (d.completeRes c 0x82 stOk 0 res)) ∧
      d.regs.active = s.dev.regs.staged ∧ d.sec.staged = false ∧ d.sec.imgDigest = imgDigest v.image ∧
      d.sec.verified = some { v with staged := false, kept := true } := by
  have hcommit := Dev.commit_of_ok (d := s.fresh) hadm hr
  have hactive := s.fresh.runAdmission.accept_spec.2
  obtain ⟨hactive', hsec⟩ := s.fresh.runAdmission.accept.imageApplied_spec v
  exact ⟨_, _, exec_imageActivate_staged ha hv hadv hs hcommit (if_pos rfl).symm, hactive'.trans hactive,
    (congrArg SecState.staged hsec :), (congrArg SecState.imgDigest hsec :), (congrArg SecState.verified hsec :)⟩

theorem imageActivate_refused (hs : v.staged = true) (hadm : s.dev.admission.1 ≠ 0) :
    ∃ (d : Dev) (res : List Nat), exec (.imageActivate c) s = .next (s.after (d.completeRes c 0x82 stAdmission 0 res)) ∧
      d.sec = { s.dev.sec with err := 9 } ∧ d.stands Reg.SEC_EVENT 2 ∧ d.regs.staged = s.dev.regs.staged ∧
      d.regs.active = s.dev.regs.active ∧ d.regs.inForce = s.dev.regs.inForce := by
  have hcommit := Dev.commit_of_refused (d := s.fresh) hadm
  have hkeep := s.keeps_runAdmission
  have hrun := exec_imageActivate_staged ha hv hadv hs hcommit
    (.symm ((if_neg (by decide)).trans (if_pos rfl)))
  generalize s.fresh.runAdmission = e at *
  have hsec : s.dev.sec = e.sec := hkeep.same .sec (by decide)
  have hregs := (hkeep.same .values (by decide)).trans ((e.touches_imageFails 9).same .values (by decide))
  refine ⟨_, _, hrun, ?_, e.imageFails_stands 9, (congrArg RegsState.staged hregs :).symm,
    (congrArg RegsState.active hregs :).symm, (congrArg RegsState.inForce hregs :).symm⟩
  rw [Dev.imageFails_sec, ← hsec]

end

/-- Settles O54: IMAGE_BEGIN by its lines in order; a chunk's sections touch the staged set alone, so that the transfer and
the ring are as the chunk leaves them; and an activation is a commit. -/
theorem imageTransfersRun : Obligations.ImageTransfersRun := by
  refine ⟨fun c s ha => ⟨fun h => ?_, fun hp h => ?_, fun hp hl hh => ⟨fun hno => ?_, fun hok hx => ?_,
    imageBegin_opens ha hp hl hh⟩, fun hp hx hs => ?_⟩, fun _ _ _ h hlen => imageChunk_idle h hlen,
    fun _ _ _ _ hx hen hring hok hlen => ⟨imageChunk_takes hx hen hring hok hlen, imageChunk_fails hx hen hring hok hlen⟩,
    fun _ => imageTransferTimeout_none, fun _ _ hx => ⟨imageTransferTimeout_early hx, imageTransferTimeout_fails hx⟩,
    fun c s ha => ⟨imageActivate_none ha, fun v hv hadv => ⟨imageActivate_kept ha hv hadv, imageActivate_commits ha hv hadv,
      imageActivate_refused ha hv hadv⟩⟩⟩
  · exact exec_imageBegin ha (Dev.imageBegin_bad (.inl h))
  · exact exec_imageBegin ha (Dev.imageBegin_bad (.inr ⟨by omega, h⟩))
  · exact exec_imageBegin ha ((Dev.imageBegin_sized hp hl hh).trans (if_pos hno))
  · refine exec_imageBegin ha ((Dev.imageBegin_sized hp hl hh).trans ((if_neg ?_).trans (if_pos hx)))
    rw [show s.fresh.purposeOk (c.byte 20) = true from hok]
    decide
  · refine exec_imageBegin ha ((Dev.imageBegin_abort hp).trans ?_)
    rw [Dev.abortImage_idle (d := s.fresh) hx hs]

end Sys2Proof.Machine
end

section
/-! PROOFS. The harvest round, supply failures and THERMAL_RESUME (R472–R482). -/

namespace Sys2Proof.Machine

open Host

section
variable (d : Dev)

theorem Dev.touches_onHk (f : HkState → HkState) : Dev.Touches [.hk] d (d.onHk f) := .of_keeps (d.keeps_onHk f) (by decide)

/-! ### A channel's reading (R473) -/

/-- What a reading leaves of the harvest state but the channels. -/
def hkRest (h : HkState) : HkState := { h with chans := .empty }

@[simp] theorem Dev.hkChan_setHkChan_self (n : Nat) (v : HkChan) : (d.setHkChan n v).hkChan n = v := SMap.get_set_self ..

theorem Dev.hkChan_setHkChan_of_ne {n j : Nat} (v : HkChan) (h : j ≠ n) : (d.setHkChan n v).hkChan j = d.hkChan j :=
  SMap.get_set_of_ne _ _ _ h.symm

@[simp] theorem Dev.hkChan_event (blk bit d0 d1 d2 n : Nat) : (d.event blk bit d0 d1 d2).hkChan n = d.hkChan n := by
  rw [Dev.hkChan, Dev.event_hk, Dev.hkChan]

/-- What channel n is after a reading of it. -/
def Dev.hkTaken (codes : List (Option (BitVec 16))) (d : Dev) (n : Nat) : HkChan :=
  let x := d.hkChan n
  let r := d.hkRead n (codes.getD n none)
  if r.2 then { value := r.1, broken := true, valid := 0 }
  else if !x.broken then { x with value := r.1 }
  else if x.valid + 1 < 3 then { x with value := r.1, valid := x.valid + 1 }
  else { value := r.1, broken := false, valid := 0 }

/-- A reading stores the channel, and reports a break or a recovery. -/
theorem Dev.hkTake_eq (codes : List (Option (BitVec 16))) (n : Nat) :
    ∃ e : Dev, e = ({ d with free := d.free + 1 } : Dev).setHkChan n (d.hkTaken codes n) ∧
      (d.hkTake codes n = e ∨ ∃ bit, d.hkTake codes n = e.event 16 bit n 0 0) := by
  refine ⟨_, rfl, ?_⟩
  unfold Dev.hkTake Dev.hkTaken
  dsimp only
  split
  · split
    · exact .inl rfl
    · exact .inr ⟨2, rfl⟩
  · split
    · exact .inl rfl
    · split
      · exact .inl rfl
      · exact .inr ⟨3, rfl⟩

theorem Dev.hkTake_spec (codes : List (Option (BitVec 16))) (n : Nat) :
    (d.hkTake codes n).hkChan n = d.hkTaken codes n ∧ (∀ j, j ≠ n → (d.hkTake codes n).hkChan j = d.hkChan j) ∧
    hkRest (d.hkTake codes n).hk = hkRest d.hk ∧ (d.hkTake codes n).free = d.free + 1 ∧
    Dev.Touches [.hk, .free, .events, .reports] d (d.hkTake codes n) := by
  obtain ⟨e, he, h⟩ := d.hkTake_eq codes n
  have hself : e.hkChan n = d.hkTaken codes n := he ▸ Dev.hkChan_setHkChan_self ..
  have hother (j : Nat) (hj : j ≠ n) : e.hkChan j = d.hkChan j := he ▸ Dev.hkChan_setHkChan_of_ne _ _ hj
  have hrest : hkRest e.hk = hkRest d.hk ∧ e.free = d.free + 1 := by
    rw [he]
    exact ⟨rfl, rfl⟩
  have hkeep : Dev.Keeps [.hk, .free] d e := by
    rw [he]
    exact (Dev.Keeps.mono (qs := [.free]) ⟨fun p hp => by
      cases p
      case free => exact absurd (List.mem_singleton_self _) hp
      case reports => exact ⟨rfl, rfl, rfl, rfl⟩
      case commands => exact ⟨rfl, rfl, rfl, rfl, rfl⟩
      all_goals rfl⟩ (by decide)).andThen (Dev.keeps_onHk _ _) (by decide)
  have htouch : Dev.Touches [.hk, .free] d e := .of_keeps hkeep (by decide)
  obtain ⟨hr, hf⟩ := hrest
  rcases h with h | ⟨bit, h⟩
  · rw [h]
    exact ⟨hself, hother, hr, hf, htouch.mono (by decide)⟩
  · rw [h, Dev.event_hk, Dev.hkChan_event]
    have hevent := e.touches_event 16 bit n 0 0
    exact ⟨hself, fun j hj => (Dev.hkChan_event ..).trans (hother j hj), hr,
      (hevent.same .free (by decide)).symm.trans hf, (htouch.andThen hevent).mono (by decide)⟩

/-- What is told of a reading: a conversion that is no break is taken, a missing one is a break. -/
def readingTaken (codes : List (Option (BitVec 16))) (n : Nat) (x y : HkChan) : Prop :=
  (∀ c, (n < 19 ∨ 35 ≤ n) → codes.getD n none = some c → (8 ≤ n ∨ (-550 ≤ hkInt c ∧ hkInt c ≤ 1500)) →
    x.broken = false → y = { x with value := c }) ∧
  (codes.getD n none = none → y.broken = true ∧ y.valid = 0)

theorem Dev.hkTaken_spec (codes : List (Option (BitVec 16))) (n : Nat) :
    readingTaken codes n (d.hkChan n) (d.hkTaken codes n) := by
  refine ⟨fun c hn hc hrange hb => ?_, fun hc => ?_⟩
  · have hread : d.hkRead n (some c) = (c, false) := by
      unfold Dev.hkRead
      dsimp only
      split
      · have hin : ¬ (hkInt c < -550 ∨ 1500 < hkInt c) := by omega
        rw [decide_eq_false hin]
      · rw [if_neg (by omega)]
    unfold Dev.hkTaken
    dsimp only
    rw [hc, hread, hb]
    rfl
  · unfold Dev.hkTaken
    rw [hc]
    exact ⟨rfl, rfl⟩

/-- The readings of a round. -/
theorem Dev.foldl_hkTake (codes : List (Option (BitVec 16))) {ns : List Nat} (hn : ns.Nodup) (d : Dev) :
    (∀ j, (j ∈ ns → readingTaken codes j (d.hkChan j) ((ns.foldl (Dev.hkTake codes) d).hkChan j)) ∧
      (j ∉ ns → (ns.foldl (Dev.hkTake codes) d).hkChan j = d.hkChan j)) ∧
    hkRest (ns.foldl (Dev.hkTake codes) d).hk = hkRest d.hk ∧
    (ns.foldl (Dev.hkTake codes) d).free = d.free + ns.length ∧
    Dev.Touches [.hk, .free, .events, .reports] d (ns.foldl (Dev.hkTake codes) d) := by
  induction ns generalizing d with
  | nil => exact ⟨fun j => ⟨fun h => (nomatch h), fun _ => rfl⟩, rfl, rfl, .mono .refl (by decide)⟩
  | cons n rest ih =>
    obtain ⟨hnot, hrest⟩ := List.nodup_cons.1 hn
    obtain ⟨hself, hother, hkeep, hfree, htouch⟩ := d.hkTake_spec codes n
    obtain ⟨ihchan, ihrest, ihfree, ihtouch⟩ := ih hrest (d.hkTake codes n)
    refine ⟨fun j => ⟨fun hj => ?_, fun hj => ?_⟩, ihrest.trans hkeep, ?_, (htouch.andThen ihtouch).mono (by decide)⟩
    · by_cases hjn : j = n
      · subst hjn
        have hlater := ((ihchan j).2 hnot).trans hself
        rw [List.foldl_cons, hlater]
        exact d.hkTaken_spec codes j
      · have htaken := (ihchan j).1 ((List.mem_cons.1 hj).resolve_left hjn)
        rw [hother j hjn] at htaken
        exact htaken
    · rw [List.mem_cons, not_or] at hj
      exact ((ihchan j).2 hj.2).trans (hother j hj.1)
    · rw [List.foldl_cons, ihfree, hfree, List.length_cons]
      omega

/-! ### The throttle and the shutdown (R475, R477) -/

theorem Dev.throttle_spec : d.throttle.hk = { d.hk with step := d.nextStep } ∧
    Dev.Touches [.hk, .events, .reports] d d.throttle := by
  unfold Dev.throttle
  dsimp only
  split
  · rename_i h
    refine ⟨?_, .mono .refl (by decide)⟩
    rw [h]
  · rw [Dev.irq_hk, Dev.event_hk]
    exact ⟨rfl, .mono (((d.touches_onHk _).andThen (Dev.touches_event ..)).andThen (Dev.touches_irq ..)) (by decide)⟩

/-- A shutdown for a reason. -/
def Dev.shutDown (reason chan : Nat) (d : Dev) : Dev :=
  let e := (d.onHk fun h => { h with halt := true, shutCnt := satInc h.shutCnt }).event 16 1 chan 0 0
  (e.irq 49).takeEffect .soft 17 [reason, unsigned 32 e.tDie, e.dieBroken]

theorem Dev.shutDown_spec (reason chan : Nat) :
    (d.shutDown reason chan).hk = { d.hk with halt := true, shutCnt := satInc d.hk.shutCnt } ∧
    (d.shutDown reason chan).stands Reg.HK_EVENT 2 ∧
    Dev.Touches (.hk :: tripParts) d (d.shutDown reason chan) := by
  unfold Dev.shutDown
  extract_lets e
  have hset := d.touches_onHk fun h => { h with halt := true, shutCnt := satInc h.shutCnt }
  have hevent : Dev.Touches [.events, .reports] (d.onHk fun h => { h with halt := true, shutCnt := satInc h.shutCnt }) e :=
    Dev.touches_event ..
  have htrip := (e.touches_irq 49).andThen (Dev.touches_takeEffect (e.irq 49) .soft 17 [reason, unsigned 32 e.tDie, e.dieBroken])
  have hhk : e.hk = { d.hk with halt := true, shutCnt := satInc d.hk.shutCnt } := Dev.event_hk ..
  exact ⟨(htrip.same .hk (by decide)).symm.trans hhk, htrip.grows _ _ (Dev.event_stands 16 1 ..),
    ((hset.andThen hevent).andThen htrip).mono (by decide)⟩

theorem Dev.thermalShutdown_eq : d.thermalShutdown = if d.hk.halt then d else match d.hotSensor with
    | some n => d.shutDown 1 n
    | none => if decide (2 ≤ ((upto 8).filter fun n => (d.hkChan n).broken).length) then d.shutDown 2 0xFFFFFFFF else d :=
  rfl

/-- What a shutdown leaves of the harvest state. -/
def hkKept (h : HkState) : HkState := { h with halt := false, shutCnt := 0, warn := 0, dT := 0 }

theorem Dev.thermalShutdown_spec : hkKept d.thermalShutdown.hk = hkKept d.hk ∧
    Dev.Touches (.hk :: tripParts) d d.thermalShutdown ∧
    (d.hk.halt = false → d.hotSensor.isSome = true → d.thermalShutdown.hk.halt = true ∧
      d.thermalShutdown.hk.shutCnt = satInc d.hk.shutCnt ∧ d.thermalShutdown.stands Reg.HK_EVENT 2) := by
  have hgo (reason chan : Nat) : hkKept (d.shutDown reason chan).hk = hkKept d.hk := by
    rw [(d.shutDown_spec reason chan).1]
    rfl
  rw [Dev.thermalShutdown_eq]
  split
  · rename_i h
    exact ⟨rfl, .mono .refl (by decide), fun hf => absurd (h.symm.trans hf) (by decide)⟩
  · split
    · rename_i n _
      obtain ⟨hhk, hstands, htouch⟩ := d.shutDown_spec 1 n
      refine ⟨hgo 1 n, htouch, fun _ _ => ⟨?_, ?_, hstands⟩⟩
      · rw [hhk]
      · rw [hhk]
    · rename_i h
      refine ⟨?_, .ite (d.shutDown_spec 2 0xFFFFFFFF).2.2 (.mono .refl (by decide)), fun _ hs => ?_⟩
      · split
        · exact hgo 2 0xFFFFFFFF
        · rfl
      · rw [h] at hs
        cases hs

/-! ### Warnings and derating (R479, R482) -/

/-- What warnings and derating leave of the harvest state. -/
def hkQuiet (h : HkState) : HkState := { h with warn := 0, dT := 0 }

theorem Dev.supplyWarn_spec (codes : List (Option (BitVec 16))) (n : Nat) :
    hkQuiet (d.supplyWarn codes n).hk = hkQuiet d.hk ∧ Dev.Touches [.hk, .events, .reports] d (d.supplyWarn codes n) := by
  unfold Dev.supplyWarn
  extract_lets was out d1
  have hset : Dev.Touches [.hk] d d1 := d.touches_onHk _
  have hquiet : hkQuiet d1.hk = hkQuiet d.hk := rfl
  clear_value d1
  split
  · rw [Dev.irq_hk, Dev.event_hk]
    exact ⟨hquiet, ((hset.andThen (Dev.touches_event ..)).andThen (Dev.touches_irq ..)).mono (by decide)⟩
  · exact ⟨hquiet, hset.mono (by decide)⟩

theorem Dev.foldl_supplyWarn (codes : List (Option (BitVec 16))) (ns : List Nat) (d : Dev) :
    hkQuiet (ns.foldl (Dev.supplyWarn codes) d).hk = hkQuiet d.hk ∧
    Dev.Touches [.hk, .events, .reports] d (ns.foldl (Dev.supplyWarn codes) d) := by
  induction ns generalizing d with
  | nil => exact ⟨rfl, .mono .refl (by decide)⟩
  | cons n rest ih =>
    obtain ⟨hq, ht⟩ := d.supplyWarn_spec codes n
    obtain ⟨ihq, iht⟩ := ih (d.supplyWarn codes n)
    exact ⟨ihq.trans hq, (ht.andThen iht).mono (by decide)⟩

theorem Dev.touches_derateEvent (chan : Nat) : Dev.Touches [.events, .reports] d (d.derateEvent chan) :=
  ((d.touches_event ..).andThen (Dev.touches_irq ..)).mono (by decide)

theorem Dev.derate_spec (broke : List Nat) : hkQuiet (d.derate broke).hk = hkQuiet d.hk ∧
    Dev.Touches [.hk, .events, .reports] d (d.derate broke) := by
  unfold Dev.derate
  extract_lets new new' old d1
  have hset : Dev.Touches [.hk] d d1 := d.touches_onHk _
  have hquiet : hkQuiet d1.hk = hkQuiet d.hk := rfl
  clear_value d1
  have hreport : Dev.Touches [.events, .reports] d1 (if broke ≠ [] then broke.foldl (fun d n => d.derateEvent n) d1
      else if (old = 1000 ∧ new' < 1000) ∨ (old < 1000 ∧ new' = 1000) then d1.derateEvent 0xFFFFFFFF else d1) :=
    .mono (.ite (.foldl (fun d n => d.touches_derateEvent n) _ _) (.ite (d1.touches_derateEvent _) .refl)) (by decide)
  exact ⟨(congrArg hkQuiet (hreport.same .hk (by decide)).symm).trans hquiet, (hset.andThen hreport).mono (by decide)⟩

end

/-! ### The round (R472) -/

section
variable (codes : List (Option (BitVec 16))) (start : Nat) (d : Dev)

/-- A round starts: its registers apply, and it is counted. -/
def Dev.roundStarted (d : Dev) : Dev :=
  (d.applyDue .round).onHk fun h => { h with lastRound := start, rounds := h.rounds + 1 }

/-- Every channel has been read, and the throttle follows the hottest. -/
def Dev.roundThrottled (d : Dev) : Dev := ((upto 64).foldl (Dev.hkTake codes) (d.roundStarted start)).throttle

/-- What follows the throttle in a round: the shutdown, the warnings, and the derating. -/
def Dev.roundEnded (broke : List Nat) (d : Dev) : Dev :=
  (((upto 11).map (8 + ·)).foldl (Dev.supplyWarn codes) d.thermalShutdown).derate broke

theorem Dev.harvestRound_due (h : d.hk.lastRound + d.fld Reg.HK_CFG 7 0 * msTicks ≤ d.now) :
    ∃ broke, d.harvestRound codes =
      (d.roundThrottled codes (d.hk.lastRound + d.fld Reg.HK_CFG 7 0 * msTicks)).roundEnded codes broke :=
  ⟨_, if_neg (Nat.not_lt.2 h)⟩

theorem Dev.applyDue_round : (d.applyDue .round).hk = d.hk ∧ (d.applyDue .round).free = d.free := by
  unfold Dev.applyDue
  split <;> exact ⟨rfl, rfl⟩

/-- What stands at the end of a round of what stands after its throttle. -/
theorem Dev.roundEnded_spec (broke : List Nat) {e : Dev} (he : e = d.roundEnded codes broke) :
    hkKept e.hk = hkKept d.hk ∧ Dev.Touches (.hk :: tripParts) d e ∧
    (d.hk.halt = false → d.hotSensor.isSome = true → e.hk.halt = true ∧ e.hk.shutCnt = satInc d.hk.shutCnt ∧
      e.stands Reg.HK_EVENT 2) := by
  obtain ⟨hkept, htouch, hshut⟩ := d.thermalShutdown_spec
  unfold Dev.roundEnded at he
  generalize d.thermalShutdown = a at *
  obtain ⟨hquiet, htouch'⟩ := Dev.foldl_supplyWarn codes ((upto 11).map (8 + ·)) a
  generalize ((upto 11).map (8 + ·)).foldl (Dev.supplyWarn codes) a = b at *
  obtain ⟨hquiet', htouch''⟩ := b.derate_spec broke
  rw [← he] at hquiet' htouch''
  have hlate := hquiet'.trans hquiet
  have hend := htouch'.andThen htouch''
  refine ⟨(congrArg hkKept hlate :).trans hkept, (htouch.andThen hend).mono (by decide), fun hh hs => ?_⟩
  obtain ⟨hhalt, hcnt, hstands⟩ := hshut hh hs
  exact ⟨(congrArg HkState.halt hlate :).trans hhalt, (congrArg HkState.shutCnt hlate :).trans hcnt,
    hend.grows _ _ hstands⟩

/-- What stands after the throttle of what stood before the round. -/
theorem Dev.roundThrottled_spec {e : Dev} (he : e = d.roundThrottled codes start) : ∃ a : Dev,
    e.hk = { a.hk with step := a.nextStep } ∧ Dev.Touches [.hk, .events, .reports] a e ∧
    hkRest a.hk = { hkRest d.hk with lastRound := start, rounds := d.hk.rounds + 1 } ∧ a.free = d.free + 64 ∧
    ∀ n < 64, readingTaken codes n (d.hkChan n) (a.hkChan n) := by
  obtain ⟨hhk, hfree⟩ := d.applyDue_round
  have hstart : (d.roundStarted start).hk = { d.hk with lastRound := start, rounds := d.hk.rounds + 1 } :=
    congrArg (fun h : HkState => { h with lastRound := start, rounds := h.rounds + 1 }) hhk
  have hfree' : (d.roundStarted start).free = d.free := hfree
  unfold Dev.roundThrottled at he
  generalize d.roundStarted start = b at *
  obtain ⟨hchan, hrest, hfrees, -⟩ := Dev.foldl_hkTake codes (ns := upto 64) List.nodup_range b
  generalize (upto 64).foldl (Dev.hkTake codes) b = a at *
  obtain ⟨hstep, htouch⟩ := a.throttle_spec
  rw [← he] at hstep htouch
  refine ⟨a, hstep, htouch, hrest.trans (congrArg hkRest hstart), ?_, fun n hn => ?_⟩
  · have hlen : (upto 64).length = 64 := List.length_range
    rw [hfrees, hfree', hlen]
  · have htaken := (hchan n).1 (List.mem_range.2 hn)
    rw [show b.hkChan n = d.hkChan n from (congrArg (fun h : HkState => h.chans.get HkChan.reset n) hstart :)] at htaken
    exact htaken

variable {d} in
/-- The temperatures and thresholds are the same where channels and registers are. -/
theorem Dev.temperatures_congr {a : Dev} (hc : ∀ n, d.hkChan n = a.hkChan n) (hcfg : ∀ off, d.cfg off = a.cfg off) :
    d.tDie = a.tDie ∧ (∀ n, d.stepAt n = a.stepAt n) ∧ d.hotSensor = a.hotSensor := by
  have hfld (r hi lo : Nat) : d.fld r hi lo = a.fld r hi lo := congrArg (bits · hi lo) (hcfg r)
  refine ⟨?_, fun n => ?_, ?_⟩
  · simp only [Dev.tDie, hc, hfld]
  · simp only [Dev.stepAt, hfld]
  · simp only [Dev.hotSensor, hc]

/-- A round from its start to its end. -/
theorem Dev.harvestRound_spec {codes : List (Option (BitVec 16))} {d e : Dev}
    (h : d.hk.lastRound + d.fld Reg.HK_CFG 7 0 * msTicks ≤ d.now) (he : e = d.harvestRound codes) :
    e.hk.rounds = d.hk.rounds + 1 ∧ e.hk.lastRound = d.hk.lastRound + d.fld Reg.HK_CFG 7 0 * msTicks ∧
    e.free = d.free + 64 ∧ (∀ n < 64, readingTaken codes n (d.hkChan n) (e.hkChan n)) ∧
    e.hk.step = (if d.hk.step < maxList 0 ([1, 2, 3, 4].filter fun n => decide (e.stepAt n ≤ e.tDie)) then
        maxList 0 ([1, 2, 3, 4].filter fun n => decide (e.stepAt n ≤ e.tDie))
      else if d.hk.step ≠ 0 ∧ e.tDie < e.stepAt d.hk.step - 20 then d.hk.step - 1 else d.hk.step) ∧
    (d.hk.halt = false → e.hotSensor.isSome = true → e.hk.halt = true ∧ e.hk.shutCnt = satInc d.hk.shutCnt ∧
      e.stands Reg.HK_EVENT 2) := by
  obtain ⟨broke, heq⟩ := d.harvestRound_due codes h
  rw [heq] at he
  obtain ⟨g, hg⟩ : ∃ g, g = d.roundThrottled codes (d.hk.lastRound + d.fld Reg.HK_CFG 7 0 * msTicks) := ⟨_, rfl⟩
  obtain ⟨a, hstep, htouch, hrest, hfree, htaken⟩ := d.roundThrottled_spec codes _ hg
  rw [← hg] at he
  obtain ⟨hkept, htouch', hshut⟩ := g.roundEnded_spec codes broke he
  generalize hstart : d.hk.lastRound + d.fld Reg.HK_CFG 7 0 * msTicks = start at *
  have hchan (n : Nat) : e.hkChan n = a.hkChan n :=
    (congrArg (fun h : HkState => h.chans.get HkChan.reset n) hkept :).trans
      (congrArg (fun h : HkState => h.chans.get HkChan.reset n) hstep :)
  have hchan' (n : Nat) : e.hkChan n = g.hkChan n := (congrArg (fun h : HkState => h.chans.get HkChan.reset n) hkept :)
  have hcfg' (off : Nat) : e.cfg off = g.cfg off := htouch'.cfg off (by decide)
  have hcfg (off : Nat) : e.cfg off = a.cfg off := (hcfg' off).trans (htouch.cfg off (by decide))
  obtain ⟨hdie, hat, -⟩ := Dev.temperatures_congr hchan hcfg
  obtain ⟨-, -, hhot⟩ := Dev.temperatures_congr hchan' hcfg'
  have hwas : a.hk.step = d.hk.step := (congrArg HkState.step hrest :)
  have hhalt : g.hk.halt = d.hk.halt := (congrArg HkState.halt hstep).trans (congrArg HkState.halt hrest :)
  have hcnt : g.hk.shutCnt = d.hk.shutCnt := (congrArg HkState.shutCnt hstep).trans (congrArg HkState.shutCnt hrest :)
  have hrounds : g.hk.rounds = d.hk.rounds + 1 := (congrArg HkState.rounds hstep).trans (congrArg HkState.rounds hrest :)
  have hlast : g.hk.lastRound = start := (congrArg HkState.lastRound hstep).trans (congrArg HkState.lastRound hrest :)
  have hnow : g.hk.step = a.nextStep := congrArg HkState.step hstep
  refine ⟨(congrArg HkState.rounds hkept :).trans hrounds, (congrArg HkState.lastRound hkept :).trans hlast, ?_,
    fun n hn => (hchan n) ▸ htaken n hn, ?_, fun hh hs => ?_⟩
  · exact ((htouch.same .free (by decide)).trans (htouch'.same .free (by decide))).symm.trans hfree
  · have hend : e.hk.step = a.nextStep := (congrArg HkState.step hkept :).trans hnow
    rw [hend, Dev.nextStep, hwas]
    simp only [hdie, hat]
  · rw [hhot] at hs
    rw [← hcnt]
    exact hshut (hhalt.trans hh) hs

end

theorem harvestRound_gives {cs : List (Option (BitVec 16))} {s : State}
    (h : s.dev.hk.lastRound + s.dev.fld Reg.HK_CFG 7 0 * msTicks ≤ s.dev.now) : Answers (.harvestRound cs) s fun t =>
      t.dev.hk.rounds = s.dev.hk.rounds + 1 ∧
      t.dev.hk.lastRound = s.dev.hk.lastRound + s.dev.fld Reg.HK_CFG 7 0 * msTicks ∧ t.dev.free = s.dev.free + 64 ∧
      (∀ n c, n < 64 → (n < 19 ∨ 35 ≤ n) → cs.getD n none = some c → (8 ≤ n ∨ (-550 ≤ hkInt c ∧ hkInt c ≤ 1500)) →
        (s.dev.hkChan n).broken = false → t.dev.hkChan n = { s.dev.hkChan n with value := c }) ∧
      (∀ n < 64, cs.getD n none = none → (t.dev.hkChan n).broken = true ∧ (t.dev.hkChan n).valid = 0) ∧
      (∀ top, top = maxList 0 ([1, 2, 3, 4].filter fun n => decide (t.dev.stepAt n ≤ t.dev.tDie)) →
        t.dev.hk.step = (if s.dev.hk.step < top then top
          else if s.dev.hk.step ≠ 0 ∧ t.dev.tDie < t.dev.stepAt s.dev.hk.step - 20 then s.dev.hk.step - 1
          else s.dev.hk.step)) ∧
      (s.dev.hk.halt = false → t.dev.hotSensor.isSome = true → t.dev.hk.halt = true ∧
        t.dev.hk.shutCnt = satInc s.dev.hk.shutCnt ∧ t.dev.stands Reg.HK_EVENT 2) ∧ t.pending = s.pending := by
  obtain ⟨e, he⟩ : ∃ e, e = s.fresh.harvestRound cs := ⟨_, rfl⟩
  obtain ⟨hrounds, hlast, hfree, htaken, hstep, hshut⟩ := Dev.harvestRound_spec (d := s.fresh) h he
  refine ⟨s.after e, exec_of_effect rfl he.symm, hrounds, hlast, hfree, fun n c hn hk hc hr hb => (htaken n hn).1 c hk hc hr hb,
    fun n hn hc => (htaken n hn).2 hc, fun top htop => ?_, hshut, rfl⟩
  rw [htop]
  exact hstep

theorem harvestRound_early {cs : List (Option (BitVec 16))} {s : State}
    (h : s.dev.now < s.dev.hk.lastRound + s.dev.fld Reg.HK_CFG 7 0 * msTicks) :
    exec (.harvestRound cs) s = .next (s.after s.fresh) := exec_idle rfl (if_pos h)

/-! ### A resignation, or a trip in its place (R368) -/

section
variable {d : Dev} {code : Nat} {f : Dev → Dev}

theorem Dev.resignOr_ready (h : d.twn.st = .active ∧ d.partnerReady = true) : d.resignOr code f = d.resign code := if_pos h

theorem Dev.resignOr_alone (h : ¬ (d.twn.st = .active ∧ d.partnerReady = true)) : d.resignOr code f = f d := if_neg h

theorem Dev.partnerReady_congr {a : Dev} (h : d.twn = a.twn) : d.partnerReady = a.partnerReady := by
  simp only [Dev.partnerReady, h]

theorem Dev.controls_congr {a : Dev} (h : d.twn = a.twn) : d.controls = a.controls := by simp only [Dev.controls, h]

theorem Dev.tripping_congr {a : Dev} (hs : d.sup = a.sup) (hg : d.gfm = a.gfm) : d.tripping = a.tripping := by
  simp only [Dev.tripping, hs, hg]

/-- The first trip of a device that controls the converter. -/
theorem Dev.takeEffect_first {cls : TripClass} {cause : Nat} {details : List Nat} (hc : d.controls = true)
    (ht : d.tripping = false) (hcls : cls ≠ .report) : (d.takeEffect cls cause details).sup.causeFirst = cause ∧
      (d.takeEffect cls cause details).sup.causeClass = classCode cls ∧
      (d.takeEffect cls cause details).sup.tripTick = some d.now := by
  rw [Dev.takeEffect_new hc hcls cause details ht]
  obtain ⟨hrec, -, -⟩ := d.tripNew_records cls cause details
  exact ⟨hrec.first, hrec.cls, hrec.date⟩

/-- A resignation's state and cause. -/
theorem Dev.resign_state (code : Nat) (d : Dev) :
    (d.resign code).twn.st = .resigned ∧ (d.resign code).twn.resignCause = code := by
  obtain ⟨left, h⟩ := Dev.resign_twn code d
  rw [h]
  exact ⟨rfl, rfl⟩

end

/-! ### SUPPLY_FAILURE (R480) -/

section
variable {ch : Fin 64} {s : State}

theorem supplyFailure_idle (h : ch.val < 9 ∨ 11 < ch.val) : exec (.supplyFailure ch) s = .next (s.after s.fresh) :=
  exec_idle rfl (if_neg (by omega))

variable (hl : 9 ≤ ch.val) (hh : ch.val ≤ 11)
include hl hh

theorem exec_supplyFailure {d : Dev}
    (hd : (s.fresh.event 16 6 ch.val 0 0).resignOr 3 (Dev.takeEffect .hard 18 []) = d) :
    exec (.supplyFailure ch) s = .next (s.after d) := exec_of_effect rfl ((if_pos ⟨hl, hh⟩).trans hd)

theorem supplyFailure_trips (ha : s.dev.twn.st ≠ .active ∨ s.dev.partnerReady = false) (hc : s.dev.controls = true)
    (ht : s.dev.tripping = false) : Answers (.supplyFailure ch) s fun t => t.dev.sup.causeFirst = 18 ∧
      t.dev.sup.causeClass = 2 ∧ t.dev.sup.tripTick = some s.dev.now ∧ t.dev.stands Reg.HK_EVENT 64 ∧
      t.pending = s.pending := by
  have hstands := Dev.event_stands 16 6 ch.val 0 0 s.fresh
  have hevent := s.fresh.touches_event 16 6 ch.val 0 0
  obtain ⟨e, he⟩ : ∃ e, e = s.fresh.event 16 6 ch.val 0 0 := ⟨_, rfl⟩
  have htwn : e.twn = s.fresh.twn := he ▸ Dev.event_twn ..
  have hnow : e.now = s.fresh.now := he ▸ Dev.event_now ..
  rw [← he] at hstands hevent
  have hctl : e.controls = true := (Dev.controls_congr htwn).trans hc
  have htrip : e.tripping = false :=
    (Dev.tripping_congr (hevent.same .sup (by decide)).symm (hevent.same .gfm (by decide)).symm).trans ht
  have halone : ¬ (e.twn.st = .active ∧ e.partnerReady = true) := by
    rw [Dev.partnerReady_congr htwn, htwn]
    rintro ⟨hst, hready⟩
    rcases ha with ha | ha
    · exact ha hst
    · exact absurd (ha.symm.trans hready) (by decide)
  have hrun := Dev.resignOr_alone (code := 3) (f := Dev.takeEffect .hard 18 []) halone
  obtain ⟨hfirst, hclass, htick⟩ := Dev.takeEffect_first (cls := .hard) (cause := 18) (details := []) hctl htrip (by decide)
  have hstands' := (e.touches_takeEffect .hard 18 []).grows _ _ hstands
  rw [he] at hrun
  exact ⟨_, exec_supplyFailure hl hh (hrun.trans (by rw [← he])), hfirst, hclass, htick.trans (congrArg some hnow), hstands', rfl⟩

theorem supplyFailure_resigns (ha : s.dev.twn.st = .active) (hp : s.dev.partnerReady = true) :
    Answers (.supplyFailure ch) s fun t => t.dev.twn.st = .resigned ∧ t.dev.twn.resignCause = 3 ∧
      t.dev.sup = s.dev.sup ∧ t.dev.stands Reg.HK_EVENT 64 ∧ t.pending = s.pending := by
  have hstands := Dev.event_stands 16 6 ch.val 0 0 s.fresh
  have hsup : (s.fresh.event 16 6 ch.val 0 0).sup = s.dev.sup := Dev.event_sup ..
  have htwn : (s.fresh.event 16 6 ch.val 0 0).twn = s.fresh.twn := Dev.event_twn ..
  generalize he : s.fresh.event 16 6 ch.val 0 0 = e at *
  have hready : e.twn.st = .active ∧ e.partnerReady = true := by
    rw [Dev.partnerReady_congr htwn, htwn]
    exact ⟨ha, hp⟩
  obtain ⟨hst, hcause⟩ := Dev.resign_state 3 e
  have htouch := e.touches_resign 3
  refine ⟨s.after (e.resign 3), exec_supplyFailure hl hh ?_, hst, hcause, (htouch.same .sup (by decide)).symm.trans hsup,
    htouch.grows _ _ hstands, rfl⟩
  rw [he]
  exact Dev.resignOr_ready hready

end

/-! ### THERMAL_RESUME (R478) -/

section
variable {c : Cmd} {s : State} (ha : s.dev.admits 0xB0 0 c)
include ha

theorem thermalResume_refused (h : s.dev.hk.halt = false ∨ s.dev.dieBroken ≠ 0 ∨ 1000 ≤ s.dev.tDie) :
    exec (.thermalResume c) s = .next (s.after (s.fresh.complete c 0xB0 stRejected)) := by
  have hhot : (!s.dev.hk.halt || decide (s.dev.dieBroken ≠ 0) || decide (1000 ≤ s.dev.tDie)) = true := by
    rcases h with h | h | h <;> simp [h]
  exact State.runCmd_gives ha (if_pos hhot)

theorem thermalResume_ends (hh : s.dev.hk.halt = true) (hb : s.dev.dieBroken = 0) (ht : s.dev.tDie < 1000) :
    Completes (.thermalResume c) c 0xB0 stOk s fun d =>
      d.hk = { s.dev.hk with halt := false } ∧ Dev.Keeps [.hk] s.dev d := by
  have hcool : ¬ (!s.dev.hk.halt || decide (s.dev.dieBroken ≠ 0) || decide (1000 ≤ s.dev.tDie)) = true := by
    simp [hh, hb, ht]
  exact ⟨_, State.runCmd_gives ha (if_neg hcool), rfl,
    (s.keeps_fresh.mono (by simp)).andThen (Dev.keeps_onHk _ _) (by simp)⟩

end

end Sys2Proof.Machine
end

section
/-! PROOFS. Snapshots, power failure and the resumption of Larder writes (R508–R515). -/

namespace Sys2Proof.Machine

open Host

/-! ### Records that are written one after another -/

/-- What writing records leaves of the Larder. -/
def larderKept (l : LrdState) : LrdState := { l with head := 0, lines := .empty, waiting := [] }

section
variable {phase : Nat} {l : LrdState}

theorem larderWrite_kept (x : Nat × List Byte) : larderKept (larderWrite phase l x) = larderKept l := by
  unfold larderWrite
  dsimp only
  split
  · rfl
  · split <;> rfl

theorem foldl_larderWrite_kept (xs : List (Nat × List Byte)) :
    larderKept (xs.foldl (larderWrite phase) l) = larderKept l := by
  induction xs generalizing l with
  | nil => rfl
  | cons x rest ih => exact (ih (l := larderWrite phase l x)).trans (larderWrite_kept x)

theorem larderWrite_head (hp : 3 ≤ phase) (x : Nat × List Byte) :
    (larderWrite phase l x).head = max l.head (if x.1 = 0 then l.head + 1 else x.1) := by
  unfold larderWrite
  dsimp only
  rw [if_neg (by omega)]
  split <;> rfl

/-- Each record without a number takes the next one; records numbered before take none. -/
theorem foldl_larderWrite_head (hp : 3 ≤ phase) (xs : List (Nat × List Byte)) (h : ∀ x ∈ xs, x.1 ≤ l.head) :
    (xs.foldl (larderWrite phase) l).head = l.head + (xs.filter fun x => decide (x.1 = 0)).length := by
  induction xs generalizing l with
  | nil => rfl
  | cons x rest ih =>
    have hx := h x (List.mem_cons_self ..)
    have hhead := larderWrite_head (l := l) hp x
    have hle : l.head ≤ (larderWrite phase l x).head := hhead ▸ Nat.le_max_left ..
    rw [List.foldl_cons, ih fun y hy => (h y (List.mem_cons_of_mem _ hy)).trans hle, hhead]
    by_cases h0 : x.1 = 0
    · rw [List.filter_cons_of_pos (by simpa using h0), if_pos h0, List.length_cons]
      omega
    · rw [List.filter_cons_of_neg (by simpa using h0), if_neg h0, Nat.max_eq_left hx]

theorem foldl_larderWrite_waiting (hp : 3 ≤ phase) (hh : l.halt = false) (xs : List (Nat × List Byte)) :
    (xs.foldl (larderWrite phase) l).waiting = l.waiting := by
  induction xs generalizing l with
  | nil => rfl
  | cons x rest ih =>
    have hkept := larderWrite_kept (phase := phase) (l := l) x
    have hnext : (larderWrite phase l x).waiting = l.waiting := by
      unfold larderWrite
      dsimp only
      rw [if_neg (by omega), hh]
      rfl
    have hhalt : (larderWrite phase l x).halt = l.halt := (congrArg LrdState.halt hkept :)
    exact (ih (hhalt.trans hh)).trans hnext

end

theorem insertDue_perm (x : Nat × List Byte) (l : List (Nat × List Byte)) : (insertDue x l).Perm (x :: l) := by
  induction l with
  | nil => exact .refl _
  | cons y ys ih =>
    unfold insertDue
    split
    · exact .refl _
    · exact (List.Perm.cons y ih).trans (List.Perm.swap ..)

/-! ### SNAPSHOT_COMPLETE (R514) -/

section
variable (d : Dev)

theorem Dev.finishSnapshot_none (h : d.lrd.openSnap = none) : d.finishSnapshot = d := by
  unfold Dev.finishSnapshot
  rw [h]

theorem Dev.finishSnapshot_some {k : Nat} {x : SnapSlot} (h : d.lrd.openSnap = some (k, x)) : d.finishSnapshot =
    (d.onLrd fun l => { l with openSnap := none, slots := l.slots.set SnapSlot.reset k x }).event 18 1 k x.seq 0 := by
  unfold Dev.finishSnapshot
  rw [h]
  rfl

theorem Dev.touches_finishSnapshot : Dev.Touches [.lrd, .events, .reports] d d.finishSnapshot := by
  unfold Dev.finishSnapshot
  split
  · exact .mono .refl (by decide)
  · exact .mono ((d.touches_lrd _).andThen (Dev.touches_event ..)) (by decide)

theorem Dev.finishSnapshot_lrd : ∃ m, d.finishSnapshot.lrd = { d.lrd with openSnap := none, slots := m } := by
  cases h : d.lrd.openSnap with
  | none =>
    rw [d.finishSnapshot_none h]
    exact ⟨d.lrd.slots, by rw [← h]⟩
  | some x =>
    rw [d.finishSnapshot_some (k := x.1) (x := x.2) h, Dev.event_lrd]
    exact ⟨_, rfl⟩

end

theorem snapshotComplete_idle {s : State} (h : s.dev.lrd.openSnap = none ∨ s.dev.lrd.halt = true) :
    exec .snapshotComplete s = .next (s.after s.fresh) := by
  refine exec_idle rfl ?_
  rcases h with h | h
  · have hnone : s.fresh.finishSnapshot = s.fresh := Dev.finishSnapshot_none s.fresh h
    exact (congrArg (fun x => if s.fresh.lrd.halt then s.fresh else x) hnone).trans (ite_self _)
  · exact if_pos h

theorem snapshotComplete_finishes {k : Nat} {x : SnapSlot} {s : State} (ho : s.dev.lrd.openSnap = some (k, x))
    (hh : s.dev.lrd.halt = false) : Answers .snapshotComplete s fun t =>
      t.dev.lrd.openSnap = none ∧ t.dev.lrd.slots.get SnapSlot.reset k = x ∧ t.dev.lrd.lines = s.dev.lrd.lines ∧
      t.dev.stands Reg.LRD_EVENT 2 ∧ ChangesOnly [.lrd, .events, .reports] s t := by
  obtain ⟨e, he⟩ : ∃ e, e = s.fresh.finishSnapshot := ⟨_, rfl⟩
  have hgo : ¬ s.fresh.lrd.halt = true := Bool.eq_false_iff.1 hh
  have hrun : (if s.fresh.lrd.halt then s.fresh else s.fresh.finishSnapshot) = e := (if_neg hgo).trans he.symm
  have hdone := he.trans (s.fresh.finishSnapshot_some ho)
  have hkeep := s.fresh.touches_finishSnapshot.keeps
  rw [← he] at hkeep
  have hlrd : e.lrd = { s.dev.lrd with openSnap := none, slots := s.dev.lrd.slots.set SnapSlot.reset k x } := by
    rw [hdone, Dev.event_lrd]
    rfl
  have hstands : e.stands Reg.LRD_EVENT 2 := hdone ▸ Dev.event_stands 18 1 ..
  refine ⟨s.after e, exec_of_effect rfl hrun, (congrArg LrdState.openSnap hlrd :), ?_, (congrArg LrdState.lines hlrd :),
    hstands, .of_after hkeep⟩
  rw [State.after_lrd, hlrd]
  exact SMap.get_set_self ..

/-! ### POWER_FAIL_WARNING (R515) -/

section
variable (d : Dev)

/-- The warning is noted, and the snapshot being written is finished. -/
def Dev.powerNoted (d : Dev) : Dev :=
  (((d.onLrd fun l => { l with pfw := true }).event 18 2 0 0 0).irq 58).finishSnapshot

/-- The open TRIP record's number, or 0. -/
def Dev.tripSeq (d : Dev) : Nat := match d.lrd.openTrip with
  | some r => r.seq
  | none => 0

/-- The records of the power failure are due. -/
def Dev.powerRecords (d : Dev) : Dev := (d.commitTrip true 0).record 6 0 (leBytes 4 d.tripSeq)

theorem Dev.powerFail_eq (h : d.lrd.pfw = false) :
    d.powerFail = (d.powerNoted.powerRecords.flushUpTo 6).onLrd fun l => { l with halt := true } :=
  if_neg (Bool.eq_false_iff.1 h)

theorem Dev.powerNoted_lrd : ∃ m, d.powerNoted.lrd = { d.lrd with pfw := true, openSnap := none, slots := m } := by
  obtain ⟨m, h⟩ := Dev.finishSnapshot_lrd (((d.onLrd fun l => { l with pfw := true }).event 18 2 0 0 0).irq 58)
  rw [Dev.irq_lrd, Dev.event_lrd] at h
  exact ⟨m, h⟩

theorem Dev.touches_powerNoted : Dev.Touches [.lrd, .events, .reports] d d.powerNoted :=
  .mono ((((d.touches_onLrd _).andThen (Dev.touches_event ..)).andThen (Dev.touches_irq ..)).andThen
    (Dev.touches_finishSnapshot _)) (by decide)

theorem Dev.powerNoted_stands : d.powerNoted.stands Reg.LRD_EVENT 4 :=
  ((Dev.touches_irq _ 58).andThen (Dev.touches_finishSnapshot _)).grows _ _ (Dev.event_stands 18 2 ..)

theorem Dev.touches_flushUpTo (typ : Nat) : Dev.Touches [.lrd, .events, .reports] d (d.flushUpTo typ) := by
  unfold Dev.flushUpTo
  exact .mono (((d.touches_onLrd _).andThen (Dev.touches_flushRecords _)).andThen (Dev.touches_onLrd ..)) (by decide)

theorem Dev.flushUpTo_lrd (typ : Nat) : (d.flushUpTo typ).lrd =
    { (d.lrd.due.filter fun x => decide (recordType x.2 ≤ typ)).foldl (larderWrite d.sec.phase) { d.lrd with due := [] } with
      due := d.lrd.due.filter fun x => decide (typ < recordType x.2) } := by
  unfold Dev.flushUpTo
  dsimp only
  rw [Dev.onLrd_lrd, Dev.flushRecords_lrd]
  rfl

theorem Dev.touches_powerRecords : Dev.Touches [.lrd] d d.powerRecords :=
  .mono ((Dev.touches_commitTrip ..).andThen (Dev.touches_record ..)) (by decide)

/-- What is due of a power failure: its own record, and that of the trip in progress. -/
theorem Dev.powerRecords_lrd : ∃ (body : List Byte) (late : List (Nat × List Byte)) (frozen : Bool), recordType body = 6 ∧
    d.powerRecords.lrd = { d.lrd with openTrip := none, frozen := frozen, due := insertDue (0, body) late } ∧
    (d.lrd.openTrip = none → late = d.lrd.due) ∧
    (∀ r, d.lrd.openTrip = some r → ∃ b, late = insertDue (r.seq, b) d.lrd.due) := by
  have hrec (e : Dev) (data : List Byte) : ∃ body, recordType body = 6 ∧
      (e.record 6 0 data).lrd = { e.lrd with due := insertDue (0, body) e.lrd.due } :=
    ⟨_, Dev.recordType_recordHead 6 (by decide) 0 _ e, rfl⟩
  obtain ⟨body, htype, hlrd⟩ := hrec (d.commitTrip true 0) (leBytes 4 d.tripSeq)
  have hrun : d.powerRecords.lrd = _ := hlrd
  rw [hrun]
  unfold Dev.commitTrip
  split
  · rename_i h
    exact ⟨body, d.lrd.due, d.lrd.frozen, htype, by rw [← h], fun _ => rfl, fun r hr => absurd (h.symm.trans hr) (by simp)⟩
  · rename_i r h
    refine ⟨body, _, false, htype, rfl, fun hn => absurd (h.symm.trans hn) (by simp), fun r' hr => ?_⟩
    cases h.symm.trans hr
    exact ⟨_, rfl⟩

end

/-- Of the records due at a power failure only its own has no number yet. -/
theorem powerDue_unnumbered {body : List Byte} {late : List (Nat × List Byte)} (hb : recordType body = 6)
    (hl : ∀ x ∈ late, x.1 ≠ 0) : (((insertDue (0, body) late).filter fun x => decide (recordType x.2 ≤ 6)).filter
      fun x => decide (x.1 = 0)).length = 1 := by
  have hnone : ((late.filter fun x => decide (recordType x.2 ≤ 6)).filter fun x => decide (x.1 = 0)) = [] :=
    List.filter_eq_nil_iff.2 fun x hx => by simpa using hl x (List.mem_of_mem_filter hx)
  rw [(((insertDue_perm (0, body) late).filter _).filter _).length_eq, List.filter_cons_of_pos (by simp [hb]),
    List.filter_cons_of_pos (by simp), hnone]
  rfl

section
variable {d e : Dev}

/-- A power failure from its warning to the halt of the writes. -/
theorem Dev.powerFail_spec (h : d.lrd.pfw = false) (he : e = d.powerFail) :
    e.lrd.pfw = true ∧ e.lrd.halt = true ∧ e.lrd.openSnap = none ∧ e.lrd.openTrip = none ∧
    (d.lrd.halt = false → 3 ≤ d.sec.phase → d.lrd.due = [] →
      (∀ r, d.lrd.openTrip = some r → r.seq ≠ 0 ∧ r.seq ≤ d.lrd.head) → e.lrd.head = d.lrd.head + 1) ∧
    e.stands Reg.LRD_EVENT 4 ∧ Dev.Touches [.lrd, .events, .reports] d e := by
  obtain ⟨slots, hnoted⟩ := d.powerNoted_lrd
  have htouch := d.touches_powerNoted
  have hstands := d.powerNoted_stands
  rw [d.powerFail_eq h] at he
  generalize d.powerNoted = a at *
  obtain ⟨body, late, frozen, hbody, hrec, hnone, hsome⟩ := a.powerRecords_lrd
  have htouch' := htouch.andThen a.touches_powerRecords
  have hstands' := a.touches_powerRecords.grows _ _ hstands
  have hphase : a.powerRecords.sec = d.sec := (htouch'.same .sec (by decide)).symm
  generalize a.powerRecords = b at *
  have hflush := b.flushUpTo_lrd 6
  have hend := (b.touches_flushUpTo 6).andThen ((b.flushUpTo 6).touches_onLrd fun l => { l with halt := true })
  rw [← he] at hend
  have hkept : larderKept (b.flushUpTo 6).lrd = larderKept { d.lrd with
      pfw := true, openSnap := none, slots := slots, openTrip := none, frozen := frozen,
      due := (b.lrd.due.filter fun x => decide (6 < recordType x.2)) } := by
    have hfold := foldl_larderWrite_kept (phase := b.sec.phase) (l := { b.lrd with due := [] })
      (b.lrd.due.filter fun x => decide (recordType x.2 ≤ 6))
    rw [hflush]
    generalize b.lrd.due.filter (fun x => decide (6 < recordType x.2)) = after
    refine (congrArg (fun l : LrdState => { l with due := after }) hfold :).trans ?_
    rw [hrec, hnoted]
    rfl
  have hlrd : e.lrd = { (b.flushUpTo 6).lrd with halt := true } := he ▸ Dev.onLrd_lrd ..
  refine ⟨?_, ?_, ?_, ?_, fun hh hp hd hr => ?_, hend.grows _ _ hstands', (htouch'.andThen hend).mono (by decide)⟩
  · exact (congrArg LrdState.pfw hlrd :).trans (congrArg LrdState.pfw hkept :)
  · exact (congrArg LrdState.halt hlrd :)
  · exact (congrArg LrdState.openSnap hlrd :).trans (congrArg LrdState.openSnap hkept :)
  · exact (congrArg LrdState.openTrip hlrd :).trans (congrArg LrdState.openTrip hkept :)
  · have hbefore : b.lrd.head = d.lrd.head := by rw [hrec, hnoted]
    have htrip : a.lrd.openTrip = d.lrd.openTrip := by rw [hnoted]
    have hdue : a.lrd.due = [] := by rw [hnoted, hd]
    have hlate : ∀ x ∈ late, x.1 ≠ 0 ∧ x.1 ≤ d.lrd.head := by
      cases ho : d.lrd.openTrip with
      | none =>
        rw [hnone (htrip.trans ho), hdue]
        exact fun x hx => absurd hx List.not_mem_nil
      | some r =>
        obtain ⟨b', hb'⟩ := hsome r (htrip.trans ho)
        rw [hb', hdue]
        intro x hx
        rw [List.mem_singleton.1 hx]
        exact hr r ho
    have hduenow : b.lrd.due = insertDue (0, body) late := by rw [hrec]
    have hle : ∀ x ∈ b.lrd.due.filter (fun x => decide (recordType x.2 ≤ 6)), x.1 ≤ b.lrd.head := by
      intro x hx
      have hx := List.mem_of_mem_filter hx
      rw [hduenow] at hx
      rw [hbefore]
      rcases List.mem_cons.1 ((insertDue_perm _ _).mem_iff.1 hx) with rfl | hx
      · exact Nat.zero_le _
      · exact (hlate x hx).2
    have hhead := foldl_larderWrite_head (l := { b.lrd with due := [] }) (hphase.symm ▸ hp : 3 ≤ b.sec.phase) _ hle
    have hone := powerDue_unnumbered hbody fun x hx => (hlate x hx).1
    calc e.lrd.head = (b.flushUpTo 6).lrd.head := (congrArg LrdState.head hlrd :)
      _ = b.lrd.head + _ := (congrArg LrdState.head hflush :).trans hhead
      _ = d.lrd.head + 1 := by rw [hduenow, hone, hbefore]

end

theorem powerFailWarning_idle {s : State} (h : s.dev.lrd.pfw = true) :
    exec .powerFailWarning s = .next (s.after s.fresh) := exec_idle rfl (if_pos h)

theorem powerFailWarning_halts {s : State} (h : s.dev.lrd.pfw = false) : Answers .powerFailWarning s fun t =>
    t.dev.lrd.pfw = true ∧ t.dev.lrd.halt = true ∧ t.dev.lrd.openSnap = none ∧ t.dev.lrd.openTrip = none ∧
    (s.dev.lrd.halt = false → 3 ≤ s.dev.sec.phase → s.dev.lrd.due = [] →
      (∀ r, s.dev.lrd.openTrip = some r → r.seq ≠ 0 ∧ r.seq ≤ s.dev.lrd.head) →
      t.dev.lrd.head = s.dev.lrd.head + 1) ∧ t.dev.stands Reg.LRD_EVENT 4 ∧
    ChangesOnly [.lrd, .events, .reports] s t := by
  obtain ⟨e, he⟩ : ∃ e, e = s.fresh.powerFail := ⟨_, rfl⟩
  obtain ⟨hpfw, hhalt, hsnap, htrip, hhead, hstands, htouch⟩ := Dev.powerFail_spec (d := s.fresh) h he
  exact ⟨s.after e, exec_of_effect rfl he.symm, hpfw, hhalt, hsnap, htrip, hhead, hstands, .of_after htouch.keeps⟩

/-! ### LARDER_RESUME (R515) -/

section
variable (d : Dev)

theorem Dev.writeWaiting_lrd (hp : 3 ≤ d.sec.phase) (hh : d.lrd.halt = false) : d.writeWaiting.lrd =
    d.lrd.waiting.foldl (larderWrite d.sec.phase) { d.lrd with waiting := [] } := by
  unfold Dev.writeWaiting
  rw [if_neg (by simp [hh, hp])]
  exact Dev.foldl_writeRecord_lrd ..

theorem Dev.writeWaiting_booting (hp : d.sec.phase < 3) : d.writeWaiting = d := if_pos (.inr hp)

/-- The writes go on: the snapshot that waited for them starts with its slot's header erased. -/
def Dev.resumed (d : Dev) : Dev := (d.onLrd fun l => { l with pfw := false, halt := false }).resumeSnapshot

theorem Dev.resumed_lrd : ∃ slots, d.resumed.lrd = { d.lrd with pfw := false, halt := false, slots := slots } ∧
    ∀ k x, d.lrd.openSnap = some (k, x) → slots.get SnapSlot.reset k = SnapSlot.reset := by
  cases h : d.lrd.openSnap with
  | none =>
    have hrun : d.resumed = d.onLrd fun l => { l with pfw := false, halt := false } := by
      unfold Dev.resumed Dev.resumeSnapshot
      rw [Dev.onLrd_lrd, h]
    exact ⟨d.lrd.slots, hrun ▸ Dev.onLrd_lrd .., fun k x hx => absurd hx (by simp)⟩
  | some y =>
    obtain ⟨j, x⟩ := y
    have hrun : d.resumed = (d.onLrd fun l => { l with pfw := false, halt := false }).onLrd fun l =>
        { l with slots := l.slots.set SnapSlot.reset j SnapSlot.reset } := by
      unfold Dev.resumed Dev.resumeSnapshot
      rw [Dev.onLrd_lrd, h]
    refine ⟨_, hrun ▸ Dev.onLrd_lrd .., fun k x hx => ?_⟩
    cases hx
    exact SMap.get_set_self ..

theorem Dev.touches_resumed : Dev.Touches [.lrd] d d.resumed := by
  unfold Dev.resumed Dev.resumeSnapshot
  split
  · exact .mono ((d.touches_onLrd _).andThen (Dev.touches_onLrd ..)) (by decide)
  · exact d.touches_onLrd _

variable {d} in
/-- The resumption: what waited is written in order. -/
theorem Dev.lrdResume_spec {e : Dev} (h : d.lrd.pfw = true) (he : e = d.lrdResume) :
    e.lrd.pfw = false ∧ e.lrd.halt = false ∧
    (3 ≤ d.sec.phase → e.lrd.waiting = [] ∧ ((∀ x ∈ d.lrd.waiting, x.1 ≤ d.lrd.head) →
      e.lrd.head = d.lrd.head + (d.lrd.waiting.filter fun x => decide (x.1 = 0)).length)) ∧
    (d.sec.phase < 3 → e.lrd.waiting = d.lrd.waiting ∧ e.lrd.head = d.lrd.head) ∧
    e.lrd.openSnap = d.lrd.openSnap ∧ (∀ k x, d.lrd.openSnap = some (k, x) →
      e.lrd.slots.get SnapSlot.reset k = SnapSlot.reset) ∧ Dev.Touches [.lrd, .events, .reports] d e := by
  have hrun : d.lrdResume = d.resumed.writeWaiting := if_pos h
  rw [hrun] at he
  obtain ⟨slots, hlrd, hslots⟩ := d.resumed_lrd
  have htouch := d.touches_resumed
  have hsec : d.resumed.sec = d.sec := (htouch.same .sec (by decide)).symm
  generalize d.resumed = a at *
  have hall := htouch.andThen a.touches_writeWaiting
  rw [← he] at hall
  by_cases hp : 3 ≤ d.sec.phase
  · have hwrite := a.writeWaiting_lrd (hsec.symm ▸ hp) (by rw [hlrd])
    rw [← he] at hwrite
    have hkept : larderKept e.lrd = larderKept { d.lrd with pfw := false, halt := false, slots := slots } := by
      rw [hwrite, foldl_larderWrite_kept, hlrd]
      rfl
    refine ⟨(congrArg LrdState.pfw hkept :), (congrArg LrdState.halt hkept :), fun _ => ⟨?_, fun hw => ?_⟩,
      fun hlt => absurd hp (by omega), (congrArg LrdState.openSnap hkept :), fun k x hx => ?_, hall.mono (by decide)⟩
    · rw [hwrite, foldl_larderWrite_waiting (hsec.symm ▸ hp) (by rw [hlrd])]
    · rw [hwrite, foldl_larderWrite_head (hsec.symm ▸ hp) _ (by rw [hlrd]; exact hw), hlrd]
    · exact (congrArg (fun l : LrdState => l.slots.get SnapSlot.reset k) hkept :).trans (hslots k x hx)
  · have hboot : e = a := he.trans (a.writeWaiting_booting (by rw [hsec]; omega))
    rw [hboot, hlrd]
    exact ⟨rfl, rfl, fun h3 => absurd h3 hp, fun _ => ⟨rfl, rfl⟩, rfl, hslots, htouch.mono (by decide)⟩

end

theorem larderResume_idle {s : State} (h : s.dev.lrd.pfw = false) :
    exec .larderResume s = .next (s.after s.fresh) := exec_idle rfl (if_neg (Bool.eq_false_iff.1 h))

theorem larderResume_writes {s : State} (h : s.dev.lrd.pfw = true) : Answers .larderResume s fun t =>
    t.dev.lrd.pfw = false ∧ t.dev.lrd.halt = false ∧
    (3 ≤ s.dev.sec.phase → t.dev.lrd.waiting = [] ∧ ((∀ x ∈ s.dev.lrd.waiting, x.1 ≤ s.dev.lrd.head) →
      t.dev.lrd.head = s.dev.lrd.head + (s.dev.lrd.waiting.filter fun x => decide (x.1 = 0)).length)) ∧
    (s.dev.sec.phase < 3 → t.dev.lrd.waiting = s.dev.lrd.waiting ∧ t.dev.lrd.head = s.dev.lrd.head) ∧
    t.dev.lrd.openSnap = s.dev.lrd.openSnap ∧ (∀ k x, s.dev.lrd.openSnap = some (k, x) →
      t.dev.lrd.slots.get SnapSlot.reset k = SnapSlot.reset) ∧
    ChangesOnly [.lrd, .events, .reports] s t := by
  obtain ⟨e, he⟩ : ∃ e, e = s.fresh.lrdResume := ⟨_, rfl⟩
  obtain ⟨hpfw, hhalt, hwrite, hboot, hsnap, hslots, htouch⟩ := Dev.lrdResume_spec (d := s.fresh) h he
  exact ⟨s.after e, exec_of_effect rfl he.symm, hpfw, hhalt, hwrite, hboot, hsnap, hslots, .of_after htouch.keeps⟩

end Sys2Proof.Machine
end

section
/-! PROOFS. Errors of the memories, corrected and uncorrectable (R529–R531). -/

namespace Sys2Proof.Machine

open Host

/-! ### CE_THRESHOLD (R530) -/

section
variable {d e : Dev} {n region addr : Nat}

theorem Dev.corrected_spec (he : e = d.corrected n region addr) :
    e.sys.ceCnt = satAdd d.sys.ceCnt n ∧
    (d.sys.window = d.now / (d.fld Reg.SYS_ECC_CFG 15 0 * secTicks) →
      e.sys.windowCnt = d.sys.windowCnt + n ∧
      (d.sys.windowSet = false → d.fld Reg.SYS_ECC_CFG 31 16 ≤ d.sys.windowCnt + n →
        e.sys.windowSet = true ∧ e.stands Reg.SYS_EVENT 1) ∧
      (d.sys.windowSet = true → e.sys.windowSet = true ∧ e.regs = d.regs)) ∧
    Dev.Touches [.sys, .events, .reports] d e := by
  unfold Dev.corrected at he
  extract_lets w fresh cnt done hit a at he
  have htouch : Dev.Touches [.sys] d a := d.touches_onSys _
  have hsys : e.sys = a.sys := by
    rw [he]
    split
    · rw [Dev.irq_sys, Dev.event_sys]
    · rfl
  refine ⟨hsys ▸ rfl, fun hw => ?_, he ▸ ?_⟩
  · have hcnt : cnt = d.sys.windowCnt + n := by simp [cnt, fresh, w, hw]
    have hdone : done = d.sys.windowSet := by simp [done, fresh, w, hw]
    refine ⟨hsys ▸ hcnt, fun hset hle => ?_, fun hset => ?_⟩
    · have hhit : hit = true := by simp [hit, hdone, hset, hcnt, hle]
      have hend : a.sys.windowSet = true := (congrArg (done || ·) hhit).trans (Bool.or_true _)
      rw [if_pos hhit] at he
      exact ⟨hsys ▸ hend, he ▸ (Dev.touches_irq _ 55).grows _ _ (Dev.event_stands 0 0 ..)⟩
    · have hhit : hit = false := by simp [hit, hdone, hset]
      have hend : a.sys.windowSet = true := (congrArg (· || hit) (hdone.trans hset)).trans (Bool.true_or _)
      rw [if_neg (Bool.eq_false_iff.1 hhit)] at he
      exact ⟨hsys ▸ hend, he ▸ rfl⟩
  · exact .mono (.ite (htouch.andThen ((Dev.touches_event ..).andThen (Dev.touches_irq ..))) htouch) (by decide)

end

theorem ceThreshold_counts (n : BitVec 16) (r : Fin 7) (a : BitVec 24) (s : State) :
    Answers (.ceThreshold n r a) s fun t => t.dev.sys.ceCnt = satAdd s.dev.sys.ceCnt n.toNat ∧
      (s.dev.sys.window = s.dev.now / (s.dev.fld Reg.SYS_ECC_CFG 15 0 * secTicks) →
        t.dev.sys.windowCnt = s.dev.sys.windowCnt + n.toNat ∧
        (s.dev.sys.windowSet = false → s.dev.fld Reg.SYS_ECC_CFG 31 16 ≤ s.dev.sys.windowCnt + n.toNat →
          t.dev.sys.windowSet = true ∧ t.dev.stands Reg.SYS_EVENT 1) ∧
        (s.dev.sys.windowSet = true → t.dev.sys.windowSet = true ∧ t.dev.regs = s.dev.regs)) ∧
      ChangesOnly [.sys, .events, .reports] s t := by
  obtain ⟨e, he⟩ : ∃ e, e = s.fresh.corrected n.toNat r.val a.toNat := ⟨_, rfl⟩
  obtain ⟨hcnt, hwindow, htouch⟩ := Dev.corrected_spec he
  exact ⟨s.after e, exec_of_effect rfl he.symm, hcnt, hwindow, .of_after htouch.keeps⟩

/-! ### The outcomes of an uncorrectable error by its region (R531) -/

/-- What an uncorrectable error may touch beside its own counters. -/
def lossParts : List Part := tripParts ++ [.pnt, .fen, .host, .commands]

section
variable (d : Dev)

theorem Dev.touches_controlPathError : Dev.Touches tripParts d d.controlPathError := by
  unfold Dev.controlPathError
  split
  · exact .mono (.ite (d.touches_resign 1) (d.touches_takeEffect .hard 19 [])) (by decide)
  · exact d.touches_takeEffect .hard 19 []
  · exact .mono .refl (by decide)

/-- One point of a word that is lost, with the changes that await delivery. -/
def losePoint (x : Dev × List PointChange) (id : Nat) : Dev × List PointChange :=
  let old := x.1.point id
  if recQual old = qInvalid ∧ recFlags old = 0 then x
  else
    let d := x.1.storeRec id (mkRec (recValue old) qInvalid 0 (recAge old))
    (d, x.2 ++ d.changeOf id old)

theorem Dev.losePoints_eq (ids : List Nat) : d.losePoints ids = Dev.deliverAll (ids.foldl losePoint (d, [])) := rfl

theorem touches_losePoint (x : Dev × List PointChange) (id : Nat) :
    Dev.Touches pointParts x.1 (losePoint x id).1 := by
  unfold losePoint
  dsimp only
  split
  · exact .mono .refl (by decide)
  · exact Dev.touches_storeRec ..

theorem Dev.touches_losePoints (ids : List Nat) : Dev.Touches pointParts d (d.losePoints ids) := by
  have hfold (x : Dev × List PointChange) : Dev.Touches pointParts x.1 (ids.foldl losePoint x).1 := by
    induction ids generalizing x with
    | nil => exact .mono .refl (by decide)
    | cons id rest ih => exact .mono ((touches_losePoint x id).andThen (ih _)) (by decide)
  rw [d.losePoints_eq]
  exact .mono ((hfold (d, [])).andThen (Dev.touches_deliverAll _)) (by decide)

/-- A point of a word that is lost keeps its value, and no other point changes. -/
theorem losePoint_point (x : Dev × List PointChange) (id : Nat) :
    recQual ((losePoint x id).1.point id) = qInvalid ∧ recFlags ((losePoint x id).1.point id) = 0 ∧
      recValue ((losePoint x id).1.point id) = recValue (x.1.point id) ∧
      ∀ j, j ≠ id → (losePoint x id).1.point j = x.1.point j := by
  unfold losePoint
  dsimp only
  split
  · rename_i h
    exact ⟨h.1, h.2, rfl, fun _ _ => rfl⟩
  · obtain ⟨hval, hqual, hflags, -⟩ := mkRec_fields (recValue_lt (x.1.point id)) (q := qInvalid) (f := 0) (by decide)
      (by decide) (recAge_lt (x.1.point id))
    have hself : (x.1.storeRec id (mkRec (recValue (x.1.point id)) qInvalid 0 (recAge (x.1.point id)))).point id =
        mkRec (recValue (x.1.point id)) qInvalid 0 (recAge (x.1.point id)) := by
      rw [Dev.point, Dev.storeRec_pnt]
      exact SMap.get_set_self ..
    refine ⟨(congrArg recQual hself).trans hqual, (congrArg recFlags hself).trans hflags,
      (congrArg recValue hself).trans hval, fun j hj => ?_⟩
    rw [Dev.point, Dev.storeRec_pnt]
    exact SMap.get_set_of_ne _ _ _ hj.symm

theorem Dev.losePoints_one (id : Nat) : recQual ((d.losePoints [id]).point id) = qInvalid ∧
    recFlags ((d.losePoints [id]).point id) = 0 ∧
    recValue ((d.losePoints [id]).point id) = recValue (d.point id) ∧
    ∀ j, j ≠ id → (d.losePoints [id]).point j = d.point j := by
  have hdeliver := Dev.delivers_deliverAll (losePoint (d, []) id)
  have hpoint (j : Nat) : (d.losePoints [id]).point j = (losePoint (d, []) id).1.point j := hdeliver.point j
  simp only [hpoint]
  exact losePoint_point (d, []) id

theorem Dev.touches_loseRecord (k i : Nat) : Dev.Touches [.acq, .events, .reports] d (d.loseRecord k i) := by
  unfold Dev.loseRecord
  extract_lets x drop
  have hdrop (v : AcqSet) (e : Dev) : Dev.Touches [.acq, .events, .reports] e (drop v e) :=
    (e.touches_setAset ..).andThen (Dev.touches_event ..)
  exact .mono (.ite (hdrop ..) (.ite ((hdrop ..).andThen (Dev.touches_startFilling ..)) .refl)) (by decide)

/-- An update of the host interface that leaves reports alone. -/
theorem Dev.touches_onHost_commands {f : HostState → HostState} (hr : Part.reports.same d (d.onHost f)) :
    Dev.Touches [.host, .commands] d (d.onHost f) := by
  refine .of_keeps ⟨fun p hp => ?_⟩ (by decide)
  cases p
  case host => simp at hp
  case commands => simp at hp
  case reports => exact hr
  all_goals rfl

theorem Dev.touches_loseCompletion (ring slot : Nat) :
    Dev.Touches [.host, .commands, .events, .reports] d (d.loseCompletion ring slot) := by
  unfold Dev.loseCompletion
  extract_lets hit
  split
  · exact .mono .refl (by decide)
  · exact .mono ((d.touches_onHost_commands ⟨rfl, rfl, rfl, rfl⟩).andThen (Dev.touches_event ..)) (by decide)

variable {d} in
/-- The only command in progress loses its completion. -/
theorem Dev.loseCompletion_one {f : InFlight} (hin : d.host.inflight = [f]) (hf : f.dropped = false) :
    (d.loseCompletion f.ring f.slot).host.inflight = [{ f with dropped := true }] ∧
    (d.loseCompletion f.ring f.slot).host.cplLostCnt = satInc d.host.cplLostCnt ∧
    (d.loseCompletion f.ring f.slot).stands Reg.HOST_EVENT 16 := by
  have hrun : ∃ d0 d1 d2, d.loseCompletion f.ring f.slot = (d.onHost fun h => { h with
      inflight := h.inflight.map fun g => if g = f then { g with dropped := true } else g
      cplLostCnt := satInc h.cplLostCnt }).event 2 4 d0 d1 d2 := by
    refine ⟨f.ring, f.tag, 0, ?_⟩
    simp [Dev.loseCompletion, hin, hf]
  obtain ⟨d0, d1, d2, hrun⟩ := hrun
  rw [hrun, Dev.event_host_inflight, Dev.event_host_cplLostCnt]
  refine ⟨?_, rfl, Dev.event_stands 2 4 ..⟩
  simp [Dev.onHost, hin]

/-! ### The regions -/

variable {region : Nat} {hit : UeHit}

theorem Dev.regionOutcome_control (h : region ≤ 1) : d.regionOutcome region hit = d.controlPathError := by
  obtain rfl | rfl : region = 0 ∨ region = 1 := by omega
  all_goals rfl

theorem Dev.touches_regionOutcome : Dev.Touches lossParts d (d.regionOutcome region hit) := by
  unfold Dev.regionOutcome
  split
  · exact d.touches_controlPathError.mono (by decide)
  · exact d.touches_controlPathError.mono (by decide)
  · exact (d.touches_losePoints _).mono (by decide)
  · exact (d.touches_loseRecord ..).mono (by decide)
  · exact (d.touches_onFen _).mono (by decide)
  · exact (d.touches_loseCompletion ..).mono (by decide)
  · exact (d.touches_onLrd _).mono (by decide)
  · exact (d.touches_onTwn rfl).mono (by decide)
  · exact .mono .refl (by decide)

theorem Dev.controlPathError_active (hst : d.twn.st = .active) (hp : d.partnerReady = true) :
    d.controlPathError.twn.st = .resigned ∧ d.controlPathError.twn.resignCause = 1 := by
  have hrun : d.controlPathError = d.resign 1 := by
    unfold Dev.controlPathError
    rw [hst]
    exact Dev.resignOr_ready ⟨hst, hp⟩
  rw [hrun]
  exact d.resign_state 1

theorem Dev.controlPathError_solo (hst : d.twn.st = .solo) (ht : d.tripping = false) :
    d.controlPathError.sup.causeFirst = 19 ∧ d.controlPathError.sup.causeClass = 2 := by
  have hctl : d.controls = true := by simp [Dev.controls, hst]
  have hrun : d.controlPathError = d.takeEffect .hard 19 [] := by
    unfold Dev.controlPathError
    rw [hst]
  obtain ⟨hfirst, hclass, -⟩ := Dev.takeEffect_first (cls := .hard) (cause := 19) (details := []) hctl ht (by decide)
  rw [hrun]
  exact ⟨hfirst, hclass⟩

theorem Dev.controlPathError_standby (hst : d.twn.st = .standby) : d.controlPathError = d := by
  unfold Dev.controlPathError
  rw [hst]

/-! ### UNCORRECTABLE_ERROR (R531) -/

/-- The error is counted and reported. -/
def Dev.errorNoted (region addr : Nat) (d : Dev) : Dev :=
  ((d.onSys fun s => { s with ueCnt := satInc s.ueCnt, eccLast := eccWord region addr true }).event 0 1 region addr
    0).irq 56

variable (region) (addr : Nat)

theorem Dev.uncorrectable_eq : d.uncorrectable region addr hit = (d.errorNoted region addr).regionOutcome region hit :=
  rfl

theorem Dev.errorNoted_sys : (d.errorNoted region addr).sys =
    { d.sys with ueCnt := satInc d.sys.ueCnt, eccLast := eccWord region addr true } := by
  rw [Dev.errorNoted, Dev.irq_sys, Dev.event_sys]
  rfl

theorem Dev.touches_errorNoted : Dev.Touches [.sys, .events, .reports] d (d.errorNoted region addr) :=
  .mono (((d.touches_onSys _).andThen (Dev.touches_event ..)).andThen (Dev.touches_irq ..)) (by decide)

theorem Dev.errorNoted_twn : (d.errorNoted region addr).twn = d.twn := by
  rw [Dev.errorNoted, Dev.irq_twn, Dev.event_twn]
  rfl

theorem Dev.errorNoted_stands : (d.errorNoted region addr).stands Reg.SYS_EVENT 2 :=
  (Dev.touches_irq _ 56).grows _ _ (Dev.event_stands 0 1 ..)

end

theorem uncorrectableError_takesEffect (r : Fin 7) (a : BitVec 24) (h : UeHit) (s : State) :
    Answers (.uncorrectableError r a h) s fun t =>
      t.dev.sys.ueCnt = satInc s.dev.sys.ueCnt ∧ t.dev.sys.eccLast = eccWord r.val a.toNat true ∧
      t.dev.stands Reg.SYS_EVENT 2 ∧ t.pending = s.pending ∧
      (r.val ≤ 1 → s.dev.twn.st = .solo → s.dev.tripping = false →
        t.dev.sup.causeFirst = 19 ∧ t.dev.sup.causeClass = 2) ∧
      (r.val ≤ 1 → s.dev.twn.st = .active → s.dev.partnerReady = true →
        t.dev.twn.st = .resigned ∧ t.dev.twn.resignCause = 1) ∧
      (r.val ≤ 1 → s.dev.twn.st = .standby → ChangesOnly [.sys, .events, .reports] s t) ∧
      (∀ id : BitVec 20, r.val = 2 → h = .points [id] → recQual (t.dev.point id.toNat) = qInvalid ∧
        recFlags (t.dev.point id.toNat) = 0 ∧ recValue (t.dev.point id.toNat) = recValue (s.dev.point id.toNat) ∧
        ∀ j, j ≠ id.toNat → t.dev.point j = s.dev.point j) ∧
      (∀ (q : Fin 4) (slot : BitVec 16) (f : InFlight), r.val = 4 → h = .completion q slot →
        s.dev.host.inflight = [f] → f.ring = q.val → f.slot = slot.toNat → f.dropped = false →
        t.dev.host.inflight = [{ f with dropped := true }] ∧ t.dev.host.cplLostCnt = satInc s.dev.host.cplLostCnt ∧
        t.dev.stands Reg.HOST_EVENT 16) ∧
      (r.val = 5 → t.dev.lrd = { s.dev.lrd with tail := [] } ∧ ChangesOnly [.sys, .lrd, .events, .reports] s t) ∧
      (r.val = 6 → t.dev.twn = { s.dev.twn with pktErrCnt := satInc s.dev.twn.pktErrCnt, sent := [] } ∧
        ChangesOnly [.sys, .twn, .events, .reports] s t) := by
  have hsys := s.fresh.errorNoted_sys r.val a.toNat
  have htouch := s.fresh.touches_errorNoted r.val a.toNat
  have htwn : (s.fresh.errorNoted r.val a.toNat).twn = s.fresh.twn := s.fresh.errorNoted_twn ..
  have hstands := s.fresh.errorNoted_stands r.val a.toNat
  have hrun : s.fresh.uncorrectable r.val a.toNat h = _ := s.fresh.uncorrectable_eq ..
  generalize s.fresh.errorNoted r.val a.toNat = e at *
  obtain ⟨b, hb⟩ : ∃ b, b = e.regionOutcome r.val h := ⟨_, rfl⟩
  have hlost : Dev.Touches lossParts e b := hb ▸ e.touches_regionOutcome
  have hsame : b.sys = e.sys := (hlost.same .sys (by decide)).symm
  have htrip : e.tripping = s.dev.tripping :=
    Dev.tripping_congr (htouch.same .sup (by decide)).symm (htouch.same .gfm (by decide)).symm
  have hready : e.partnerReady = s.fresh.partnerReady := Dev.partnerReady_congr htwn
  have hpoint (j : Nat) : e.point j = s.dev.point j :=
    congrArg (fun p : PntState => p.records.get 0x10FF j) (htouch.same .pnt (by decide)).symm
  have hcommands : Part.commands.same s.fresh e := htouch.same .commands (by decide)
  have hcontrol (hr : r.val ≤ 1) : b = e.controlPathError := hb.trans (e.regionOutcome_control hr)
  refine ⟨s.after b, exec_of_effect rfl (hrun.trans hb.symm), ?_, ?_, hlost.grows _ _ hstands, rfl, fun hr hst ht => ?_,
    fun hr hst hp => ?_, fun hr hst => ?_, fun id hr hh => ?_, fun q slot f hr hh hin hring hslot hdrop => ?_,
    fun hr => ?_, fun hr => ?_⟩
  · exact (congrArg SysState.ueCnt (hsame.trans hsys) :)
  · exact (congrArg SysState.eccLast (hsame.trans hsys) :)
  · have hst' := (congrArg TwnState.st htwn :).trans hst
    have hend := e.controlPathError_solo hst' (htrip.trans ht)
    rw [← hcontrol hr] at hend
    exact hend
  · have hst' := (congrArg TwnState.st htwn :).trans hst
    have hend := e.controlPathError_active hst' (hready.trans hp)
    rw [← hcontrol hr] at hend
    exact hend
  · have hst' := (congrArg TwnState.st htwn :).trans hst
    have hnone : b = e := (hcontrol hr).trans (e.controlPathError_standby hst')
    exact hnone ▸ .of_after htouch.keeps
  · have hend := e.losePoints_one id.toNat
    have hpoints : b = e.losePoints [id.toNat] := by rw [hb, hr, hh]; rfl
    simp only [hpoint, ← hpoints] at hend
    exact hend
  · obtain ⟨hinflight, -, -, hcnt, -⟩ := hcommands
    obtain ⟨hgone, hcount, hbit⟩ := Dev.loseCompletion_one (d := e) (hinflight.symm.trans hin) hdrop
    have hcompl : b = e.loseCompletion f.ring f.slot := by rw [hb, hr, hh, hring, hslot]; rfl
    rw [← hcompl] at hgone hcount hbit
    exact ⟨hgone, hcount.trans (congrArg satInc hcnt.symm), hbit⟩
  · have htail : b = e.onLrd fun l => { l with tail := [] } := by rw [hb, hr]; rfl
    have hlrd : s.fresh.lrd = e.lrd := htouch.same .lrd (by decide)
    refine ⟨htail ▸ (congrArg (fun l : LrdState => { l with tail := [] }) hlrd.symm :), .of_after ?_⟩
    exact htail ▸ ((htouch.andThen (e.touches_onLrd _)).mono (by decide)).keeps
  · have hcnt : b = e.onTwn fun t => { t with pktErrCnt := satInc t.pktErrCnt } := by rw [hb, hr]; rfl
    refine ⟨hcnt ▸ (congrArg (fun t : TwnState => { t with pktErrCnt := satInc t.pktErrCnt }) htwn :), .of_after ?_⟩
    exact hcnt ▸ ((htouch.andThen (e.touches_onTwn rfl)).mono (by decide)).keeps

/-- Settles O56: a round reads every channel and moves the throttle, a failed supply trips or resigns, snapshots and
records are written where writes go on, and memory errors act by their region. -/
theorem thermalAndMemoryRowsTakeEffect : Obligations.ThermalAndMemoryRowsTakeEffect := by
  unfold Obligations.ThermalAndMemoryRowsTakeEffect
  refine ⟨fun cs s => ⟨harvestRound_early, harvestRound_gives⟩, fun ch s h => supplyFailure_idle h,
    fun ch s hl hh => ⟨supplyFailure_trips hl hh, supplyFailure_resigns hl hh⟩,
    fun c s ha => ⟨thermalResume_refused ha, thermalResume_ends ha⟩, fun s h => snapshotComplete_idle h,
    fun k x s => snapshotComplete_finishes, fun s => powerFailWarning_idle, fun s => powerFailWarning_halts,
    fun s => larderResume_idle, fun s => larderResume_writes, ceThreshold_counts, uncorrectableError_takesEffect⟩

end Sys2Proof.Machine
end

section
/-! PROOFS. What the operations of twin operation make of the twin's state (R358–R374). -/

namespace Sys2Proof.Machine

open Host

section
variable (d : Dev)

/-! ### States -/

theorem Dev.setTwin_stands {st : TwinSt} (h : d.twn.st ≠ st) : (d.setTwin st).stands Reg.TWN_EVENT 1 := by
  unfold Dev.setTwin
  dsimp only
  rw [if_neg h]
  exact (Dev.touches_irq _ 37).grows _ _ (Dev.event_stands 14 0 ..)

@[simp] theorem Dev.twnEvent_twn (bit : Nat) : (d.twnEvent bit).twn = d.twn := by
  unfold Dev.twnEvent
  dsimp only
  split
  · rw [Dev.irq_twn, Dev.event_twn]
  · rw [Dev.event_twn]

theorem Dev.twnEvent_stands (bit : Nat) :
    (d.twnEvent bit).stands Reg.TWN_EVENT (BitVec.ofNat 32 (2 ^ bit)) := by
  unfold Dev.twnEvent
  dsimp only
  split
  · exact (Dev.touches_irq _ 38).grows _ _ (Dev.event_stands 14 bit ..)
  · exact Dev.event_stands 14 bit ..

theorem Dev.enterSyncing_twn : d.enterSyncing.twn = { d.abandon.twn with
    st := .syncing, alone := 0, consistCnt := 0, sinceSync := 0, prevSn := none, nT := none, act := false
    takeDue := false } := by
  unfold Dev.enterSyncing
  dsimp only
  rw [Dev.onTwn_twn, Dev.setTwin_twn]

theorem Dev.enterSyncing_stands (h : d.twn.st ≠ .syncing) : d.enterSyncing.stands Reg.TWN_EVENT 1 :=
  (Dev.touches_onTwn _ rfl).grows _ _ (d.abandon.setTwin_stands h)

theorem Dev.holdPairs_twn : d.holdPairs.twn = d.twn := by
  refine Dev.foldl_same (part := Dev.twn) (fun d p => ?_) _ d
  split <;> rfl

theorem Dev.enterFaulted_twn : d.enterFaulted.twn = { d.abandon.twn with
    act := false, takeDue := false, st := .faulted } := by
  unfold Dev.enterFaulted
  dsimp only
  rw [Dev.holdPairs_twn, Dev.setTwin_twn]
  rfl

theorem Dev.touches_enterFaulted : Dev.Touches [.twn, .pwm, .events, .reports] d d.enterFaulted :=
  .mono (((d.touches_abandon.andThen (Dev.touches_onTwn _ rfl)).andThen (Dev.touches_setTwin ..)).andThen
    (Dev.touches_holdPairs _)) (by decide)

theorem Dev.enterFaulted_stands (h : d.twn.st ≠ .faulted) : d.enterFaulted.stands Reg.TWN_EVENT 1 :=
  (Dev.touches_holdPairs _).grows _ _ (Dev.setTwin_stands _ h)

theorem Dev.enterActive_twn : d.enterActive.twn =
    { d.twn with act := true, lastLaunch := d.ang.cur.sn, st := .active } := Dev.setTwin_twn ..

/-! ### A packet that leaves (R359) -/

theorem Dev.send_twn (p : TwinPacket) : { (d.send p).twn with sent := [], sentEnd := 0 } =
    { d.twn with sent := [], sentEnd := 0 } := by
  unfold Dev.send Dev.sendLen
  split <;> rfl

theorem Dev.send_bodies (p : TwinPacket) : (d.send p).twn.sent.map (·.body) =
    d.twn.sent.map (·.body) ++ if d.lanesOff then [] else [p] := by
  unfold Dev.send Dev.sendLen
  split
  · exact (List.append_nil _).symm
  · exact List.map_append

theorem Dev.send_host (p : TwinPacket) : (d.send p).host = d.host := by
  unfold Dev.send Dev.sendLen
  split <;> rfl

/-! ### A takeover trigger (R367, R371) -/

variable {d} in
theorem Dev.takeTrigger_spec {e : Dev} {l : W32} {why : Nat} (hst : d.twn.st = .standby ∨ d.twn.st = .blind)
    (hd : d.twn.takeDue = false) (he : e = d.takeTrigger l why) :
    e.twn.act = true ∧ e.twn.takeDue = true ∧ e.twn.lastL = l ∧ e.twn.nT = some (l + 3) ∧
    e.twn.takeoverCnt = satInc d.twn.takeoverCnt ∧ e.stands Reg.TWN_EVENT 2 ∧
    Dev.Touches [.twn, .lrd, .events, .reports] d e := by
  have hgo : ¬ ((d.twn.st ≠ .standby ∧ d.twn.st ≠ .blind) ∨ d.twn.takeDue = true) := by
    rintro (⟨h, h'⟩ | h)
    · exact hst.elim h h'
    · exact absurd (hd.symm.trans h) (by decide)
  unfold Dev.takeTrigger at he
  rw [if_neg hgo] at he
  extract_lets a epochs b at he
  have htwn : e.twn = b.twn := by 
    rw [he]
    exact b.twnEvent_twn 1
  have htouch : Dev.Touches [.twn] d b := .mono (d.touches_abandon.andThen (Dev.touches_onTwn _ rfl)) (by decide)
  refine ⟨htwn ▸ rfl, htwn ▸ rfl, htwn ▸ rfl, htwn ▸ rfl, htwn ▸ rfl, ?_, ?_⟩
  · exact he ▸ (Dev.touches_record ..).grows _ _ (b.twnEvent_stands 1)
  · exact he ▸ .mono ((htouch.andThen (b.touches_twnEvent 1)).andThen (Dev.touches_record ..)) (by decide)

end

/-! ### The link (R360, R375) -/

section
variable {s : State}

theorem twinLinkDown_idle (h : s.dev.twn.linkUp = false ∨ (s.dev.twn.locks = 3 ∧ s.dev.twn.statusless < 3)) :
    exec .twinLinkDown s = .next (s.after s.fresh) := by
  refine exec_idle rfl (if_pos ?_)
  rcases h with h | ⟨hl, hs⟩
  · exact .inr (.inl ((congrArg Bool.not h).trans Bool.not_false))
  · exact .inr (.inr ⟨decide_eq_true hl, hs⟩)

theorem twinLinkUp_idle (h : s.dev.twn.linkUp = true ∨ s.dev.twn.statusRun < 16 ∨ s.dev.twn.locks ≠ 3) :
    exec .twinLinkUp s = .next (s.after s.fresh) := by
  refine exec_idle rfl (if_pos ?_)
  rcases h with h | h | h
  · exact .inr (.inl h)
  · exact .inr (.inr (.inl h))
  · exact .inr (.inr (.inr ((congrArg Bool.not (decide_eq_false h)).trans Bool.not_false)))

/-- The link is down: its counts start anew, and no handover is agreed or asked for. -/
def Dev.linkDropped (d : Dev) : Dev :=
  ((d.onTwn fun t => { t with linkUp := false, statusRun := 0, roleConflict := false }).twnEvent 4).abandon

theorem Dev.linkDropped_spec (d : Dev) : d.linkDropped.twn = { d.twn with
      linkUp := false, statusRun := 0, roleConflict := false, abandoned := d.twn.abandoned || d.twn.hoSn.isSome
      hoSn := none, hoAsked := false } ∧
    d.linkDropped.stands Reg.TWN_EVENT 16 ∧ Dev.Touches [.twn, .events, .reports] d d.linkDropped := by
  unfold Dev.linkDropped
  refine ⟨?_, (Dev.touches_abandon _).grows _ _ (Dev.twnEvent_stands _ 4), ?_⟩
  · unfold Dev.abandon
    rw [Dev.onTwn_twn, Dev.twnEvent_twn]
    rfl
  · exact .mono (((d.touches_onTwn rfl).andThen (Dev.touches_twnEvent ..)).andThen (Dev.touches_abandon _)) (by decide)

theorem twinLinkDown_drops (hen : s.dev.twinEn = true) (hup : s.dev.twn.linkUp = true)
    (h : s.dev.twn.locks ≠ 3 ∨ 3 ≤ s.dev.twn.statusless) : Answers .twinLinkDown s fun t =>
      t.dev.twn.linkUp = false ∧ t.dev.twn.statusRun = 0 ∧ t.dev.twn.hoSn = none ∧ t.dev.twn.hoAsked = false ∧
      t.dev.twn.st = (if s.dev.twn.st = .standby then .blind else s.dev.twn.st) ∧ t.dev.stands Reg.TWN_EVENT 16 ∧
      ChangesOnly [.twn, .events, .reports] s t := by
  have hgo : ¬ (!s.fresh.twinEn ∨ !s.fresh.twn.linkUp ∨ (s.fresh.linkLocked = true ∧ s.fresh.twn.statusless < 3)) := by
    rintro (hn | hn | ⟨hl, hs⟩)
    · exact absurd ((congrArg Bool.not hen).symm.trans hn) (by decide)
    · exact absurd ((congrArg Bool.not hup).symm.trans hn) (by decide)
    · exact h.elim (fun h => h (of_decide_eq_true hl)) (fun h => absurd hs (Nat.not_lt.2 h))
  obtain ⟨htwn, hstands, htouch⟩ := s.fresh.linkDropped_spec
  have hrun : s.fresh.linkLost = if s.fresh.linkDropped.twn.st = .standby then
      (s.fresh.linkDropped.onTwn fun t => { t with mirror := none, drills := .empty }).setTwin .blind
    else s.fresh.linkDropped := if_neg hgo
  generalize s.fresh.linkDropped = a at *
  have hst : a.twn.st = s.dev.twn.st := (congrArg TwnState.st htwn :)
  by_cases hsb : s.dev.twn.st = .standby
  · rw [if_pos (hst.trans hsb)] at hrun
    obtain ⟨e, he⟩ : ∃ e, e = (a.onTwn fun t => { t with mirror := none, drills := .empty }).setTwin .blind := ⟨_, rfl⟩
    have hend : e.twn = { a.twn with mirror := none, drills := .empty, st := .blind } := he ▸ Dev.setTwin_twn ..
    have htouch' : Dev.Touches [.twn, .events, .reports] a e :=
      he ▸ .mono ((a.touches_onTwn rfl).andThen (Dev.touches_setTwin ..)) (by decide)
    rw [htwn] at hend
    refine ⟨s.after e, exec_of_effect rfl (hrun.trans he.symm), (congrArg TwnState.linkUp hend :),
      (congrArg TwnState.statusRun hend :), (congrArg TwnState.hoSn hend :), (congrArg TwnState.hoAsked hend :), ?_,
      htouch'.grows _ _ hstands, .of_after ((htouch.andThen htouch').mono (by decide)).keeps⟩
    rw [if_pos hsb]
    exact (congrArg TwnState.st hend :)
  · rw [if_neg (hst ▸ hsb)] at hrun
    refine ⟨s.after a, exec_of_effect rfl hrun, (congrArg TwnState.linkUp htwn :),
      (congrArg TwnState.statusRun htwn :), (congrArg TwnState.hoSn htwn :), (congrArg TwnState.hoAsked htwn :), ?_,
      hstands, .of_after htouch.keeps⟩
    rw [if_neg hsb]
    exact hst

theorem twinLinkUp_returns (hen : s.dev.twinEn = true) (hdown : s.dev.twn.linkUp = false)
    (hrun : 16 ≤ s.dev.twn.statusRun) (hl : s.dev.twn.locks = 3) : Answers .twinLinkUp s fun t =>
      t.dev.twn.linkUp = true ∧
      t.dev.twn.st = (if s.dev.twn.st = .blind ∧ s.dev.twn.takeDue = false then .syncing else s.dev.twn.st) ∧
      t.dev.stands Reg.TWN_EVENT 32 ∧ ChangesOnly [.twn, .pen, .events, .reports] s t := by
  have hgo : ¬ (!s.fresh.twinEn ∨ s.fresh.twn.linkUp ∨ s.fresh.twn.statusRun < 16 ∨ !s.fresh.linkLocked) := by
    rintro (hn | hn | hn | hn)
    · exact absurd ((congrArg Bool.not hen).symm.trans hn) (by decide)
    · exact absurd (hdown.symm.trans hn) (by decide)
    · exact absurd hn (Nat.not_lt.2 hrun)
    · exact absurd ((congrArg Bool.not (decide_eq_true hl)).symm.trans hn) (by decide)
  obtain ⟨a, ha⟩ : ∃ a, a = (s.fresh.onTwn fun t => { t with linkUp := true, statusless := 0 }).twnEvent 5 := ⟨_, rfl⟩
  have htwn : a.twn = { s.fresh.twn with linkUp := true, statusless := 0 } := ha ▸ Dev.twnEvent_twn ..
  have htouch : Dev.Touches [.twn, .events, .reports] s.fresh a :=
    ha ▸ .mono ((s.fresh.touches_onTwn rfl).andThen (Dev.touches_twnEvent ..)) (by decide)
  have hstands : a.stands Reg.TWN_EVENT 32 := ha ▸ Dev.twnEvent_stands _ 5
  have hback : s.fresh.linkBack = if a.twn.st = .blind ∧ a.twn.takeDue = false then a.enterSyncing else a :=
    (if_neg hgo).trans (by rw [ha])
  have hcond : (a.twn.st = .blind ∧ a.twn.takeDue = false) = (s.dev.twn.st = .blind ∧ s.dev.twn.takeDue = false) := by
    rw [htwn]
    rfl
  simp only [hcond] at hback
  split at hback
  · next hblind =>
    have hend := a.enterSyncing_twn
    have htouch' := a.touches_enterSyncing
    refine ⟨s.after a.enterSyncing, exec_of_effect rfl hback, ?_, ?_, htouch'.grows _ _ hstands,
      .of_after ((htouch.andThen htouch').mono (by decide)).keeps⟩
    · exact (congrArg TwnState.linkUp hend).trans (congrArg TwnState.linkUp htwn :)
    · rw [if_pos hblind]
      exact (congrArg TwnState.st hend :)
  · next hblind =>
    refine ⟨s.after a, exec_of_effect rfl hback, (congrArg TwnState.linkUp htwn :), ?_, hstands,
      .of_after (htouch.mono (by decide)).keeps⟩
    rw [if_neg hblind]
    exact (congrArg TwnState.st htwn :)

end

end Sys2Proof.Machine
end

section
/-! PROOFS. The conditions of twin operation: claims, leases, states and handover (R358–R374). -/

namespace Sys2Proof.Machine

open Host

section
variable {s : State}

/-! ### Claims (R361, R366, R367, R371) -/

theorem claimToggleSeen_noted (hen : s.dev.twinEn = true) : Answers .claimToggleSeen s fun t =>
    t.dev.twn = { s.dev.twn with
      lastClaim := some (s.dev.ang.cur.sn + 1)
      claimLate := decide (s.dev.ang.cur.start + s.dev.ang.cur.len + 160 < s.dev.now + s.dev.tEP)
      missed := if s.dev.now + s.dev.tEP ≤ s.dev.ang.cur.start + s.dev.ang.cur.len + 160 then 0 else s.dev.twn.missed
      sent := [] } ∧
    ChangesOnly [.twn] s t ∧ Quiet s t := by
  have hgo : ¬ (!s.fresh.twinEn) = true := by
    rw [show s.fresh.twinEn = true from hen]
    decide
  refine ⟨_, exec_of_effect rfl (if_neg hgo), ?_, (s.fresh.keeps_onTwn _).quietly rfl⟩
  have hmissed : (if s.dev.claimPast = true then s.dev.twn.missed else 0) =
      if s.dev.now + s.dev.tEP ≤ s.dev.ang.cur.start + s.dev.ang.cur.len + 160 then 0 else s.dev.twn.missed := by
    simp only [Dev.claimPast, decide_eq_true_eq, ← Nat.not_le]
    split <;> simp_all
  rw [← hmissed]
  rfl

theorem missedClaim_idle (hs : s.dev.twn.st ≠ .standby) (hb : s.dev.twn.st ≠ .blind) :
    exec .missedClaim s = .next (s.after s.fresh) :=
  exec_idle rfl (if_pos (.inr (.inr (.inr (.inr ⟨hs, hb⟩)))))

section
variable (hen : s.dev.twinEn = true)
  (hlate : s.dev.ang.cur.start + s.dev.ang.cur.len + 160 ≤ s.dev.now + s.dev.tEP)
  (hclaim : s.dev.twn.lastClaim ≠ some (s.dev.ang.cur.sn + 1) ∨ s.dev.twn.claimLate = true)
  (hnew : s.dev.twn.lastMissed ≠ some (s.dev.ang.cur.sn + 1)) (hst : s.dev.twn.st = .standby ∨ s.dev.twn.st = .blind)

/-- One more claim has been missed. -/
def Dev.claimMissed (d : Dev) : Dev :=
  d.onTwn fun t => { t with missed := t.missed + 1, lastMissed := some (d.ang.cur.sn + 1) }

include hen hlate hclaim hnew hst

theorem missedClaim_eq : s.fresh.missedClaim = if s.dev.twn.missed + 1 < 2 then s.fresh.claimMissed
    else s.fresh.claimMissed.takeTrigger (s.dev.twn.lastClaim.getD (s.dev.ang.cur.sn + 1 - 2)) 2 := by
  refine if_neg ?_
  rintro (hn | hn | ⟨hc, hl⟩ | hn | ⟨hs, hb⟩)
  · exact absurd ((congrArg Bool.not hen).symm.trans hn) (by decide)
  · exact absurd hlate (Nat.not_le.2 hn)
  · rcases hclaim with h | h
    · exact h hc
    · exact absurd (h.symm.trans hl) (by decide)
  · exact hnew hn
  · exact hst.elim hs hb

theorem missedClaim_first (hm : s.dev.twn.missed = 0) : Answers .missedClaim s fun t =>
    t.dev.twn = { s.dev.twn with missed := 1, lastMissed := some (s.dev.ang.cur.sn + 1), sent := [] } ∧
    ChangesOnly [.twn] s t ∧ Quiet s t := by
  have hrun := missedClaim_eq hen hlate hclaim hnew hst
  rw [if_pos (by omega)] at hrun
  refine ⟨_, exec_of_effect rfl hrun, ?_, (s.fresh.keeps_onTwn _).quietly rfl⟩
  have hone : s.dev.twn.missed + 1 = 1 := by rw [hm]
  rw [← hone]
  rfl

theorem missedClaim_takesOver (hm : 1 ≤ s.dev.twn.missed) (hd : s.dev.twn.takeDue = false) :
    Answers .missedClaim s fun t => t.dev.twn.takeDue = true ∧ t.dev.twn.act = true ∧
      t.dev.twn.nT = some (s.dev.twn.lastClaim.getD (s.dev.ang.cur.sn + 1 - 2) + 3) ∧ t.dev.stands Reg.TWN_EVENT 2 ∧
      ChangesOnly [.twn, .lrd, .events, .reports] s t := by
  have hrun := missedClaim_eq hen hlate hclaim hnew hst
  rw [if_neg (by omega)] at hrun
  have hnoted : Dev.Touches [.twn] s.fresh s.fresh.claimMissed := s.fresh.touches_onTwn rfl
  obtain ⟨e, he⟩ : ∃ e, e = s.fresh.claimMissed.takeTrigger (s.dev.twn.lastClaim.getD (s.dev.ang.cur.sn + 1 - 2)) 2 :=
    ⟨_, rfl⟩
  obtain ⟨hact, hdue, -, hnt, -, hstands, htouch⟩ := Dev.takeTrigger_spec (d := s.fresh.claimMissed) hst hd he
  exact ⟨s.after e, exec_of_effect rfl (hrun.trans he.symm), hdue, hact, hnt, hstands,
    .of_after ((hnoted.andThen htouch).mono (by decide)).keeps⟩

end

theorem leaseRefused_idle (h : s.dev.twn.st ≠ .active) : exec .leaseRefused s = .next (s.after s.fresh) :=
  exec_idle rfl (if_pos (.inl h))

theorem dualClaim_idle (h : s.dev.twn.st ≠ .active) : exec .dualClaim s = .next (s.after s.fresh) :=
  exec_idle rfl (if_pos (.inl h))

theorem leaseRefused_faults (hst : s.dev.twn.st = .active) (h : 4 ≤ s.dev.twn.noLease) : Answers .leaseRefused s fun t =>
    t.dev.twn.st = .faulted ∧ t.dev.twn.act = false ∧ t.dev.stands Reg.TWN_EVENT 512 ∧
    ChangesOnly [.twn, .pen, .pwm, .events, .reports] s t := by
  obtain ⟨a, ha⟩ : ∃ a, a = (if 4 ≤ (s.fresh.twnEvent 9).twn.noLeaseClaim then (s.fresh.twnEvent 9).twnEvent 8
    else s.fresh.twnEvent 9) := ⟨_, rfl⟩
  have hrun : s.fresh.leaseRefused = a.enterFaulted := by
    rw [ha]
    exact if_neg (not_or.2 ⟨not_not.2 hst, Nat.not_lt.2 h⟩)
  have hfirst := s.fresh.touches_twnEvent 9
  have hsecond : Dev.Touches [.events, .reports] (s.fresh.twnEvent 9) a :=
    ha ▸ .mono (.ite (Dev.touches_twnEvent _ 8) .refl) (by decide)
  have hend := a.enterFaulted_twn
  have htouch := a.touches_enterFaulted
  generalize a.enterFaulted = e at *
  exact ⟨s.after e, exec_of_effect rfl hrun, (congrArg TwnState.st hend :), (congrArg TwnState.act hend :),
    (hsecond.andThen htouch).grows _ _ (s.fresh.twnEvent_stands 9),
    .of_after ((hfirst.andThen (hsecond.andThen htouch)).mono (by decide)).keeps⟩

theorem dualClaim_faults (hst : s.dev.twn.st = .active) (h : 16 ≤ s.dev.twn.claimRun) : Answers .dualClaim s fun t =>
    t.dev.twn.st = .faulted ∧ t.dev.twn.act = false ∧ t.dev.stands Reg.TWN_EVENT 256 ∧ t.pending = s.pending := by
  have hrun : s.fresh.dualClaim = ((s.fresh.twnEvent 8).takeEffect .hard 19 []).enterFaulted :=
    if_neg (not_or.2 ⟨not_not.2 hst, Nat.not_lt.2 h⟩)
  have htrip := (s.fresh.twnEvent 8).touches_takeEffect .hard 19 []
  generalize (s.fresh.twnEvent 8).takeEffect .hard 19 [] = a at *
  have hend := a.enterFaulted_twn
  have htouch := a.touches_enterFaulted
  generalize a.enterFaulted = e at *
  exact ⟨s.after e, exec_of_effect rfl hrun, (congrArg TwnState.st hend :), (congrArg TwnState.act hend :),
    (htrip.andThen htouch).grows _ _ (s.fresh.twnEvent_stands 8), rfl⟩

/-! ### ACTIVE and the self-test (R358) -/

theorem syncingToActive_idle (h : s.dev.twn.st ≠ .syncing) : exec .syncingToActive s = .next (s.after s.fresh) :=
  exec_idle rfl (if_neg fun hc => h hc.1)

theorem syncingToActive_activates (hst : s.dev.twn.st = .syncing) (hp : s.dev.twn.primary = true)
    (h : 1000 ≤ s.dev.twn.alone) : Answers .syncingToActive s fun t => t.dev.twn.st = .active ∧ t.dev.twn.act = true ∧
      t.dev.twn.lastLaunch = s.dev.ang.cur.sn ∧ t.dev.stands Reg.TWN_EVENT 1 ∧
      ChangesOnly [.twn, .events, .reports] s t := by
  have hrun : s.fresh.aloneActive = s.fresh.enterActive := if_pos ⟨hst, hp, h⟩
  have hend := s.fresh.enterActive_twn
  have hstands : s.fresh.enterActive.stands Reg.TWN_EVENT 1 := Dev.setTwin_stands _ fun hc : s.dev.twn.st = _ => by
    rw [hst] at hc
    cases hc
  exact ⟨s.after s.fresh.enterActive, exec_of_effect rfl hrun, (congrArg TwnState.st hend :),
    (congrArg TwnState.act hend :), (congrArg TwnState.lastLaunch hend :), hstands,
    .of_after s.fresh.touches_enterActive.keeps⟩

theorem selfTestDone_idle (ok : Bool) (h : s.dev.twn.st ≠ .resigned) :
    exec (.selfTestDone ok) s = .next (s.after s.fresh) := exec_idle rfl (if_pos h)

theorem selfTestDone_leaves (ok : Bool) (h : s.dev.twn.st = .resigned) : Answers (.selfTestDone ok) s fun t =>
    t.dev.twn.st = (if ok then .syncing else .faulted) ∧ t.dev.twn.act = false ∧ t.dev.stands Reg.TWN_EVENT 1 ∧
    ChangesOnly [.twn, .pen, .pwm, .events, .reports] s t := by
  have hgo : ¬ s.fresh.twn.st ≠ .resigned := not_not.2 h
  have hne {st : TwinSt} (hst : TwinSt.resigned ≠ st) : s.fresh.twn.st ≠ st := fun hc => hst (h.symm.trans hc)
  cases ok with
  | true =>
    have hend := s.fresh.enterSyncing_twn
    exact ⟨s.after s.fresh.enterSyncing, exec_of_effect rfl (if_neg hgo), (congrArg TwnState.st hend :),
      (congrArg TwnState.act hend :), s.fresh.enterSyncing_stands (hne (by decide)),
      .of_after (s.fresh.touches_enterSyncing.mono (by decide)).keeps⟩
  | false =>
    have hend := s.fresh.enterFaulted_twn
    have hstands := s.fresh.enterFaulted_stands (hne (by decide))
    have htouch := s.fresh.touches_enterFaulted
    obtain ⟨e, he⟩ : ∃ e, e = s.fresh.enterFaulted := ⟨_, rfl⟩
    rw [← he] at hend hstands htouch
    exact ⟨s.after e, exec_of_effect rfl ((if_neg hgo).trans he.symm), (congrArg TwnState.st hend :),
      (congrArg TwnState.act hend :), hstands, .of_after (htouch.mono (by decide)).keeps⟩

/-! ### The request of a handover (R373) -/

/-- A handover is asked for, by the host or by the device itself. -/
theorem Dev.askHandover_spec (d : Dev) : { d.askHandover.twn with sent := [], sentEnd := 0 } =
      { d.twn with hoAsked := true, sent := [], sentEnd := 0 } ∧
    d.askHandover.twn.sent.map (·.body) =
      d.twn.sent.map (·.body) ++ (if d.lanesOff then [] else [.handover false 0]) ∧
    Dev.Keeps [.twn] d d.askHandover ∧ d.askHandover.host = d.host :=
  ⟨Dev.send_twn .., Dev.send_bodies .., ((d.keeps_onTwn _).andThen (Dev.touches_send ..).keeps (by decide)).mono (by decide),
    Dev.send_host ..⟩

theorem handoverRequest_asks (hst : s.dev.twn.st = .standby) (hp : s.dev.twn.primary = true)
    (hen : s.dev.flag Reg.TWN_CFG 30 = true) (hhold : s.dev.twn.revertHold = false)
    (hdelay : s.dev.fld Reg.TWN_CFG 24 0 ≤ s.dev.twn.sinceSync) (hcalm : s.dev.converterCalm = true)
    (hnone : s.dev.twn.hoSn = none) : Answers .handoverRequest s fun t =>
      { t.dev.twn with sent := [], sentEnd := 0 } =
        { s.dev.twn with hoAsked := true, hoByHost := false, sent := [], sentEnd := 0 } ∧
      t.dev.twn.sent.map (·.body) = (if s.dev.lanesOff then [] else [.handover false 0]) ∧ ChangesOnly [.twn] s t ∧
      Quiet s t := by
  have hrevert : s.fresh.revertOk = true := by
    have h : s.dev.revertOk = true := by simp [Dev.revertOk, hen, hhold, hdelay]
    exact h
  have hrun : s.fresh.handoverRequest = (s.fresh.onTwn fun t => { t with hoByHost := false }).askHandover :=
    if_pos ⟨hst, hp, hrevert, hcalm, Option.isNone_iff_eq_none.2 hnone⟩
  obtain ⟨htwn, hbodies, hkeeps, hhost⟩ := (s.fresh.onTwn fun t => { t with hoByHost := false }).askHandover_spec
  exact ⟨_, exec_of_effect rfl hrun, htwn, hbodies,
    (((s.fresh.keeps_onTwn _).andThen hkeeps (by decide)).mono (by decide)).quietly (congrArg HostState.out hhost :)⟩

end

end Sys2Proof.Machine
end

section
/-! PROOFS. TWIN_CONTROL, and a mismatch of the control datapath (R368, R369, R378). -/

namespace Sys2Proof.Machine

open Host

/-! ### A resignation (R369) -/

/-- What a resignation leaves of the twin. -/
theorem Dev.resign_spec {d e : Dev} {code : Nat} (he : e = d.resign code) :
    e.twn.st = .resigned ∧ e.twn.act = false ∧ e.twn.resignCause = code ∧ e.twn.revertHold = d.twn.revertHold ∧
    e.twn.repeatLeft = (if afterSn (d.twn.lastLaunch + 3) d.ang.cur.sn
      then (d.twn.lastLaunch + 3 - d.ang.cur.sn).toNat else 0) := by
  unfold Dev.resign at he
  extract_lets lastSn left d1 d2 d3 at he
  have h3 : d3.twn = { d2.twn with st := .resigned } := (Dev.setTwin_twn ..).trans (by rw [Dev.event_twn])
  have htwn : e.twn = d3.twn := he ▸ rfl
  have hsend : d1.twn.revertHold = d.twn.revertHold :=
    (congrArg TwnState.revertHold (d.send_twn (.resign code lastSn)) :)
  rw [htwn, h3]
  exact ⟨rfl, rfl, rfl, hsend, rfl⟩

/-- The stroke after a launch, or that of the launch itself, comes before the third stroke from it. -/
theorem afterSn_third {l sn : W32} (h : sn = l ∨ sn + 1 = l) : afterSn (l + 3) sn = true := by
  have hsn := sn.isLt
  have hone : (1 : W32).toNat = 1 := rfl
  have hthree : (3 : W32).toNat = 3 := rfl
  obtain rfl | rfl := h
  all_goals
    simp only [afterSn, afterMod, BitVec.toNat_add, decide_eq_true_eq, hone, hthree]
    omega

section
variable {s : State}

theorem controlDatapathMismatch_resigns (hst : s.dev.twn.st = .active) (hp : s.dev.partnerReady = true) :
    Answers .controlDatapathMismatch s fun t =>
      t.dev.twn.st = .resigned ∧ t.dev.twn.act = false ∧ t.dev.twn.resignCause = 5 ∧
      (s.dev.ang.cur.sn = s.dev.twn.lastLaunch ∨ s.dev.ang.cur.sn + 1 = s.dev.twn.lastLaunch →
        t.dev.twn.repeatLeft = (s.dev.twn.lastLaunch + 3 - s.dev.ang.cur.sn).toNat) ∧
      t.dev.stands Reg.TWN_EVENT 8 ∧ ChangesOnly [.twn, .pen, .lrd, .events, .reports] s t := by
  have hrun : s.fresh.datapathMismatch = s.fresh.resign 5 := Dev.resignOr_ready ⟨hst, hp⟩
  have hstands := s.fresh.resign_stands 5
  have htouch := s.fresh.touches_resign 5
  obtain ⟨e, he⟩ : ∃ e, e = s.fresh.resign 5 := ⟨_, rfl⟩
  obtain ⟨hst', hact, hcause, -, hleft⟩ := Dev.resign_spec he
  rw [← he] at hrun hstands htouch
  exact ⟨s.after e, exec_of_effect rfl hrun, hst', hact, hcause,
    fun h => hleft.trans (if_pos (afterSn_third h)), hstands, .of_after (htouch.mono (by decide)).keeps⟩

theorem controlDatapathMismatch_trips
    (hst : s.dev.twn.st = .solo ∨ (s.dev.twn.st = .active ∧ s.dev.partnerReady = false)) (ht : s.dev.tripping = false) :
    Answers .controlDatapathMismatch s fun t => t.dev.sup.causeFirst = 19 ∧ t.dev.sup.causeClass = 2 ∧
      t.dev.sup.tripTick = some s.dev.now ∧ t.pending = s.pending := by
  have halone : ¬ (s.fresh.twn.st = .active ∧ s.fresh.partnerReady = true) := by
    rintro ⟨ha, hp⟩
    rcases hst with h | ⟨-, h⟩
    · exact absurd (h.symm.trans ha) (by decide)
    · exact absurd (h.symm.trans hp) (by decide)
  have hctl : s.fresh.controls = true := decide_eq_true (hst.imp_right And.left)
  have hrun : s.fresh.datapathMismatch = s.fresh.takeEffect .hard 19 [] := Dev.resignOr_alone halone
  obtain ⟨hfirst, hclass, htick⟩ := Dev.takeEffect_first (cls := .hard) (cause := 19) (details := []) hctl ht (by decide)
  generalize s.fresh.takeEffect .hard 19 [] = e at *
  exact ⟨s.after e, exec_of_effect rfl hrun, hfirst, hclass, htick, rfl⟩

end

/-! ### TWIN_CONTROL (R361, R378) -/

section
variable {c : Cmd} {s : State} (ha : s.dev.admits 0x50 (inlMask [(20, 0xFF)]) c)
include ha

/-- What the command does, by its action. -/
theorem twinControl_gives {d : Dev} (h : s.fresh.twinControl c = d) : exec (.twinControl c) s = .next (s.after d) :=
  State.runCmd_gives ha h

theorem twinControl_resigns (hb : c.byte 20 = 0) (hst : s.dev.twn.st = .active) (hp : s.dev.partnerReady = true) :
    Completes (.twinControl c) c 0x50 stOk s fun d => d.twn.st = .resigned ∧ d.twn.act = false ∧
      d.twn.resignCause = 6 ∧ (s.dev.twn.primary = true → d.twn.revertHold = true) := by
  obtain ⟨a, hpa⟩ : ∃ a, a = (if s.fresh.twn.primary then s.fresh.onTwn fun t => { t with revertHold := true }
    else s.fresh) := ⟨_, rfl⟩
  obtain ⟨e, he⟩ : ∃ e, e = a.resign 6 := ⟨_, rfl⟩
  have hrun : s.fresh.twinControl c = e.complete c 0x50 stOk := by
    unfold Dev.twinControl
    rw [hb, he, hpa]
    exact if_pos ⟨hst, hp⟩
  obtain ⟨hst', hact, hcause, hhold, -⟩ := Dev.resign_spec he
  refine ⟨e, twinControl_gives ha hrun, hst', hact, hcause, fun hprim => hhold.trans ?_⟩
  have hset : a = s.fresh.onTwn fun t => { t with revertHold := true } := hpa.trans (if_pos hprim)
  rw [hset]
  rfl

theorem twinControl_claims (hb : c.byte 20 = 1) (hst : s.dev.twn.st = .syncing) (hp : s.dev.twn.primary = false)
    (hq : 2 ≤ s.dev.twn.quietRun) (hi : s.dev.partnerIs 2 = false) :
    Completes (.twinControl c) c 0x50 stOk s fun d => d.twn.st = .active ∧ d.twn.act = true := by
  have hrun : s.fresh.twinControl c = s.fresh.enterActive.complete c 0x50 stOk := by
    unfold Dev.twinControl
    rw [hb]
    exact if_pos ⟨hst, hp, hq, hi⟩
  have hend := s.fresh.enterActive_twn
  exact ⟨s.fresh.enterActive, twinControl_gives ha hrun, (congrArg TwnState.st hend :), (congrArg TwnState.act hend :)⟩

theorem twinControl_asks (hb : c.byte 20 = 2) (hst : s.dev.twn.st = .standby) (hp : s.dev.twn.primary = true) :
    Completes (.twinControl c) c 0x50 stOk s fun d => { d.twn with sent := [], sentEnd := 0 } =
        { s.dev.twn with revertHold := false, hoByHost := true, hoAsked := true, sent := [], sentEnd := 0 } ∧
      d.twn.sent.map (·.body) = (if s.dev.lanesOff then [] else [.handover false 0]) := by
  obtain ⟨a, hpa⟩ : ∃ a, a = s.fresh.onTwn fun t => { t with revertHold := false, hoByHost := true } := ⟨_, rfl⟩
  have hrun : s.fresh.twinControl c = a.askHandover.complete c 0x50 stOk := by
    unfold Dev.twinControl
    rw [hb, hpa]
    exact if_pos ⟨hst, hp⟩
  obtain ⟨htwn, hbodies, -, -⟩ := a.askHandover_spec
  rw [hpa] at htwn hbodies
  exact ⟨a.askHandover, twinControl_gives ha hrun, hpa ▸ htwn, hpa ▸ hbodies⟩

theorem twinControl_repairs (hb : c.byte 20 = 3) (hst : s.dev.twn.st = .faulted) (hr : s.dev.twn.roleConflict = false) :
    Completes (.twinControl c) c 0x50 stOk s fun d => d.twn = { s.dev.twn with st := .resigned, sent := [] } := by
  have hrun : s.fresh.twinControl c = (s.fresh.setTwin .resigned).complete c 0x50 stOk := by
    unfold Dev.twinControl
    rw [hb]
    exact if_pos ⟨hst, hr⟩
  exact ⟨_, twinControl_gives ha hrun, Dev.setTwin_twn ..⟩

/-- An action whose conditions do not hold is rejected. -/
theorem twinControl_rejected
    (h : (c.byte 20 = 0 ∧ (s.dev.twn.st ≠ .active ∨ s.dev.partnerReady = false)) ∨
      (c.byte 20 = 1 ∧ (s.dev.twn.st ≠ .syncing ∨ s.dev.twn.primary = true ∨ s.dev.twn.quietRun < 2 ∨
        s.dev.partnerIs 2 = true)) ∨
      (c.byte 20 = 2 ∧ (s.dev.twn.st ≠ .standby ∨ s.dev.twn.primary = false)) ∨
      (c.byte 20 = 3 ∧ (s.dev.twn.st ≠ .faulted ∨ s.dev.twn.roleConflict = true))) :
    exec (.twinControl c) s = .next (s.after (s.fresh.complete c 0x50 stRejected)) := by
  refine twinControl_gives ha ?_
  unfold Dev.twinControl
  rcases h with ⟨hb, h⟩ | ⟨hb, h⟩ | ⟨hb, h⟩ | ⟨hb, h⟩
  · rw [hb]
    refine if_neg ?_
    rintro ⟨hst, hp⟩
    exact h.elim (· hst) fun h => absurd (h.symm.trans hp) (by decide)
  · rw [hb]
    refine if_neg ?_
    rintro ⟨hst, hp, hq, hi⟩
    rcases h with h | h | h | h
    · exact h hst
    · exact absurd (h.symm.trans hp) (by decide)
    · exact absurd hq (Nat.not_le.2 h)
    · exact absurd (h.symm.trans hi) (by decide)
  · rw [hb]
    refine if_neg ?_
    rintro ⟨hst, hp⟩
    exact h.elim (· hst) fun h => absurd (h.symm.trans hp) (by decide)
  · rw [hb]
    refine if_neg ?_
    rintro ⟨hst, hr⟩
    exact h.elim (· hst) fun h => absurd (h.symm.trans hr) (by decide)

theorem twinControl_unknown (hb : 3 < c.byte 20) :
    exec (.twinControl c) s = .next (s.after (s.fresh.complete c 0x50 stBadParam)) := by
  refine twinControl_gives ha ?_
  obtain ⟨n, hn⟩ : ∃ n, c.byte 20 = n + 4 := ⟨c.byte 20 - 4, by omega⟩
  unfold Dev.twinControl
  rw [hn]
  rfl

end

/-- Settles O41: what each condition of twin operation makes of the twin's state, its claim and its counts. -/
theorem twinConditionsTakeEffect : Obligations.TwinConditionsTakeEffect := by
  unfold Obligations.TwinConditionsTakeEffect
  refine ⟨fun s => twinLinkDown_drops, fun s => twinLinkDown_idle, fun s => twinLinkUp_returns, fun s => twinLinkUp_idle,
    fun s => claimToggleSeen_noted,
    fun s hen hlate hclaim hnew hst => ⟨missedClaim_first hen hlate hclaim hnew hst,
      missedClaim_takesOver hen hlate hclaim hnew hst⟩,
    fun s => missedClaim_idle, fun s => leaseRefused_faults, fun s h => ⟨leaseRefused_idle h, dualClaim_idle h⟩,
    fun s => dualClaim_faults, fun s => syncingToActive_activates, fun s => syncingToActive_idle,
    fun ok s => selfTestDone_leaves ok, fun ok s => selfTestDone_idle ok, fun s => handoverRequest_asks,
    fun c s ha => ⟨twinControl_resigns ha, fun hb h => twinControl_rejected ha (.inl ⟨hb, h⟩), twinControl_claims ha,
      twinControl_asks ha, fun hb h => twinControl_rejected ha (.inr (.inl ⟨hb, h⟩)),
      fun hb h => twinControl_rejected ha (.inr (.inr (.inl ⟨hb, h⟩))),
      fun hb h => twinControl_rejected ha (.inr (.inr (.inr ⟨hb, h⟩))), twinControl_repairs ha, twinControl_unknown ha⟩,
    fun s => controlDatapathMismatch_resigns, fun s => controlDatapathMismatch_trips⟩

end Sys2Proof.Machine
end

section
/-! PROOFS. A mirror record that a device takes after it has become ACTIVE (R371, R373). -/

namespace Sys2Proof.Machine

open Host

/-- A device that has just become ACTIVE still takes the record that it is to load. -/
theorem Dev.mirrorRecord_loading {d : Dev} {r : MirrorRec} {len : Nat} (hst : d.twn.st = .active)
    (hload : d.twn.loadSn.isSome = true) :
    d.mirrorRecord r len = d.onTwn fun t => { t with mirror := some r, mirrorLen := len } := if_pos ⟨hst, hload⟩

theorem mirrorRecord_loaded {r : MirrorRec} {s : State} (hen : s.dev.twinEn = true) (hst : s.dev.twn.st = .active)
    (hload : s.dev.twn.loadSn.isSome = true) :
    Answers (.mirrorRecord r true) s fun t => t.dev.twn.mirror = some r := by
  have htaken := Dev.packet_taken (d := s.fresh) (f := fun d => d.mirrorRecord r (d.mirrorBytes r.mach.isSome)) hen
  have hloading := Dev.mirrorRecord_loading (d := s.fresh) (r := r) (len := s.fresh.mirrorBytes r.mach.isSome) hst hload
  exact ⟨_, exec_of_effect rfl (htaken.trans hloading), rfl⟩

/-- A pair whose device has become ACTIVE at the handover of stroke 3, and has not yet loaded the record of that stroke. -/
def loadingState : State := { State.reset with
  dev := (Dev.reset.setForce Reg.TWN_CFG 0x80000000).onTwn fun t => { t with st := .active, loadSn := some 3 } }

theorem loadingState_takes : loadingState.dev.twinEn = true ∧ loadingState.dev.twn.st = .active ∧
    loadingState.dev.twn.loadSn.isSome = true ∧ loadingState.dev.twn.mirror = none := by decide +kernel

/-- Refutes O40: its third clause lets a mirror record change nothing on a device that is neither STANDBY nor SYNCING, but
one that is ACTIVE and is still to load the record of its first stroke keeps it. -/
theorem not_twinPacketsTakeEffect : ¬ Obligations.TwinPacketsTakeEffect := by
  intro h
  unfold Obligations.TwinPacketsTakeEffect at h
  obtain ⟨-, -, hidle, -⟩ := h
  obtain ⟨hen, hst, hload, hnone⟩ := loadingState_takes
  have hne {st : TwinSt} (hc : TwinSt.active ≠ st) : loadingState.dev.twn.st ≠ st := fun h => hc (hst.symm.trans h)
  have hkept := hidle (loadingState.dev.mirrorOf true) loadingState (hne (by decide)) (hne (by decide)) hen
  obtain ⟨t, ht, hmirror⟩ := mirrorRecord_loaded (r := loadingState.dev.mirrorOf true) hen hst hload
  have hsame : t = loadingState.after loadingState.fresh := Outcome.next.inj (ht.symm.trans hkept)
  have hold : t.dev.twn.mirror = none := hsame ▸ hnone
  exact absurd (hmirror.symm.trans hold) (by simp)

end Sys2Proof.Machine
end

section
/-! PROOFS. What the operations on drives, half-bridges and groups of the cooling plant make of them (R484–R503). -/

namespace Sys2Proof.Machine

open Host

section
variable (d : Dev)

/-! ### The tables -/

theorem Dev.drv_setDrv_self (k : Nat) (v : AuxDrive) : (d.setDrv k v).drv k = v := SMap.get_set_self ..

theorem Dev.drv_setDrv_of_ne {k j : Nat} (v : AuxDrive) (h : j ≠ k) : (d.setDrv k v).drv j = d.drv j :=
  SMap.get_set_of_ne _ _ _ h.symm

theorem Dev.half_setHalf_self (h : Nat) (v : AuxHalf) : (d.setHalf h v).half h = v := SMap.get_set_self ..

theorem Dev.half_setHalf_of_ne {h j : Nat} (v : AuxHalf) (hj : j ≠ h) : (d.setHalf h v).half j = d.half j :=
  SMap.get_set_of_ne _ _ _ hj.symm

theorem Dev.grp_setGrp_self (g : Nat) (v : AuxGroup) : (d.setGrp g v).grp g = v := SMap.get_set_self ..

theorem Dev.grp_setGrp_of_ne {g j : Nat} (v : AuxGroup) (h : j ≠ g) : (d.setGrp g v).grp j = d.grp j :=
  SMap.get_set_of_ne _ _ _ h.symm

theorem Dev.touches_setDrv (k : Nat) (v : AuxDrive) : Dev.Touches [.aux] d (d.setDrv k v) := d.touches_onAux _

theorem Dev.touches_setHalf (h : Nat) (v : AuxHalf) : Dev.Touches [.aux] d (d.setHalf h v) := d.touches_onAux _

theorem Dev.touches_setGrp (g : Nat) (v : AuxGroup) : Dev.Touches [.aux] d (d.setGrp g v) := d.touches_onAux _

/-- What is neither a drive nor a half-bridge. -/
def auxRest (a : AuxState) : AuxState := { a with drives := .empty, halves := .empty }

end

/-! ### Half-bridges -/

/-- Nothing changes but half-bridges. -/
def Dev.OnHalves (a d : Dev) : Prop := ∃ m, d = a.onAux fun x => { x with halves := m }

namespace Dev.OnHalves

variable {a d e : Dev}

theorem refl : Dev.OnHalves d d := ⟨_, rfl⟩

theorem trans (h : Dev.OnHalves a d) (h' : Dev.OnHalves d e) : Dev.OnHalves a e := by
  obtain ⟨m, rfl⟩ := h
  obtain ⟨m', rfl⟩ := h'
  exact ⟨m', rfl⟩

theorem foldl {f : Dev → Nat → Dev} (hf : ∀ d h, Dev.OnHalves d (f d h)) (hs : List Nat) (d : Dev) :
    Dev.OnHalves d (hs.foldl f d) := by
  induction hs generalizing d with
  | nil => exact refl
  | cons h hs ih => exact (hf d h).trans (ih _)

theorem touches (h : Dev.OnHalves a d) : Dev.Touches [.aux] a d := by
  obtain ⟨m, rfl⟩ := h
  exact a.touches_onAux _

theorem drv (h : Dev.OnHalves a d) (k : Nat) : d.drv k = a.drv k := by
  obtain ⟨m, rfl⟩ := h
  rfl

theorem grp (h : Dev.OnHalves a d) (g : Nat) : d.grp g = a.grp g := by
  obtain ⟨m, rfl⟩ := h
  rfl

theorem rest (h : Dev.OnHalves a d) : auxRest d.aux = auxRest a.aux := by
  obtain ⟨m, rfl⟩ := h
  rfl

theorem prof (h : Dev.OnHalves a d) : d.prof = a.prof := by
  obtain ⟨m, rfl⟩ := h
  rfl

theorem host (h : Dev.OnHalves a d) : d.host = a.host := by
  obtain ⟨m, rfl⟩ := h
  rfl

theorem driveHalves (h : Dev.OnHalves a d) (k : Nat) : d.driveHalves k = a.driveHalves k := by
  obtain ⟨m, rfl⟩ := h
  rfl

theorem now (h : Dev.OnHalves a d) : d.now = a.now := by
  obtain ⟨m, rfl⟩ := h
  rfl

end Dev.OnHalves

section
variable (d : Dev)

theorem Dev.onHalves_setHalf (h : Nat) (v : AuxHalf) : Dev.OnHalves d (d.setHalf h v) := ⟨_, rfl⟩

theorem Dev.onHalves_askAt (t h : Nat) (w : HalfWant) (off : Option Nat) : Dev.OnHalves d (d.askAt t h w off) := ⟨_, rfl⟩

theorem Dev.onHalves_ask (h : Nat) (w : HalfWant) (off : Option Nat) : Dev.OnHalves d (d.ask h w off) := ⟨_, rfl⟩

theorem Dev.onHalves_halfDark (h : Nat) : Dev.OnHalves d (d.halfDark h) :=
  (d.onHalves_ask h .none none).trans (Dev.onHalves_setHalf ..)

theorem Dev.half_askAt_self (t h : Nat) (w : HalfWant) (off : Option Nat) :
    ((d.askAt t h w off).half h).want = w := by
  unfold Dev.askAt
  dsimp only
  rw [Dev.half_setHalf_self]

theorem Dev.half_askAt_of_ne {t h j : Nat} {w : HalfWant} {off : Option Nat} (hj : j ≠ h) :
    (d.askAt t h w off).half j = d.half j := Dev.half_setHalf_of_ne _ _ hj

theorem Dev.half_ask_self (h : Nat) (w : HalfWant) (off : Option Nat) : ((d.ask h w off).half h).want = w :=
  d.half_askAt_self ..

theorem Dev.half_ask_of_ne {h j : Nat} {w : HalfWant} {off : Option Nat} (hj : j ≠ h) :
    (d.ask h w off).half j = d.half j := d.half_askAt_of_ne hj

/-- A half-bridge whose outputs are both low. -/
def halfIsDark (x : AuxHalf) : Prop := x.want = .none ∧ x.refresh = none

theorem Dev.half_halfDark_self (h : Nat) : halfIsDark ((d.halfDark h).half h) := by
  unfold Dev.halfDark
  dsimp only
  rw [Dev.half_setHalf_self]
  exact ⟨d.half_ask_self h .none none, rfl⟩

theorem Dev.half_halfDark_of_ne {h j : Nat} (hj : j ≠ h) : (d.halfDark h).half j = d.half j :=
  (Dev.half_setHalf_of_ne _ _ hj).trans (d.half_ask_of_ne hj)

variable {d} in
/-- Half-bridges that one operation each brings into one condition, and the others. -/
theorem Dev.foldl_halves {f : Dev → Nat → Dev} {P : AuxHalf → Prop} (hp : ∀ d h, P ((f d h).half h))
    (hne : ∀ d h j, j ≠ h → (f d h).half j = d.half j) (hs : List Nat) :
    (∀ h ∈ hs, P ((hs.foldl f d).half h)) ∧ ∀ h, h ∉ hs → (hs.foldl f d).half h = d.half h := by
  have hkeep (hs : List Nat) (d : Dev) : ∀ h, h ∉ hs → (hs.foldl f d).half h = d.half h := by
    induction hs generalizing d with
    | nil => exact fun _ _ => rfl
    | cons x hs ih =>
      intro h hh
      obtain ⟨hx, hrest⟩ := not_or.1 (List.mem_cons.not.1 hh)
      exact (ih _ h hrest).trans (hne d x h hx)
  refine ⟨?_, hkeep hs d⟩
  induction hs generalizing d with
  | nil => exact fun _ h => absurd h List.not_mem_nil
  | cons x hs ih =>
    intro h hh
    by_cases hin : h ∈ hs
    · exact ih h hin
    · obtain rfl : h = x := (List.mem_cons.1 hh).resolve_right hin
      exact (hkeep hs (f d h) h hin) ▸ hp d h

variable (k : Nat)

theorem Dev.onHalves_driveOff : Dev.OnHalves d (d.driveOff k) := .foldl (fun d _ => d.onHalves_ask ..) _ _

theorem Dev.driveOff_halves : ∀ h ∈ d.driveHalves k, ((d.driveOff k).half h).want = .none :=
  (Dev.foldl_halves (P := fun x => x.want = .none) (fun d _ => d.half_ask_self ..) (fun d _ _ => d.half_ask_of_ne) _).1

theorem Dev.onHalves_driveDark : Dev.OnHalves d (d.driveDark k) := .foldl (fun d h => d.onHalves_halfDark h) _ _

theorem Dev.driveDark_halves : (∀ h ∈ d.driveHalves k, halfIsDark ((d.driveDark k).half h)) ∧
    ∀ h, h ∉ d.driveHalves k → (d.driveDark k).half h = d.half h :=
  Dev.foldl_halves (fun d h => d.half_halfDark_self h) (fun d _ _ => d.half_halfDark_of_ne) _

theorem Dev.onHalves_driveLow : Dev.OnHalves d (d.driveLow k) := .foldl (fun d _ => d.onHalves_ask ..) _ _

theorem Dev.driveLow_halves : ∀ h ∈ d.driveHalves k, ((d.driveLow k).half h).want = .low :=
  (Dev.foldl_halves (P := fun x => x.want = .low) (fun d _ => d.half_ask_self ..) (fun d _ _ => d.half_ask_of_ne) _).1

/-! ### The channel of a drive -/

/-- The channel's parameters from before the re-approach, and none kept aside. -/
theorem Dev.restoreRamp_spec : auxRest (d.restoreRamp k).aux = auxRest d.aux ∧
    (d.restoreRamp k).drv k = { d.drv k with saved := none } ∧ (∀ j, j ≠ k → (d.restoreRamp k).drv j = d.drv j) ∧
    (∀ h, (d.restoreRamp k).half h = d.half h) ∧ (d.restoreRamp k).prof.ops = d.prof.ops ∧
    (∀ c, c ≠ 8 + k → (d.restoreRamp k).prf c = d.prf c) ∧ Dev.Touches [.prof, .aux] d (d.restoreRamp k) := by
  unfold Dev.restoreRamp
  split
  · refine ⟨rfl, Dev.drv_setDrv_self .., fun j hj => Dev.drv_setDrv_of_ne _ _ hj, fun _ => rfl, rfl,
      fun c hc => Dev.prf_setPrf_of_ne _ _ hc.symm, (d.touches_setPrf ..).andThen (Dev.touches_onAux ..)⟩
  · rename_i h
    exact ⟨rfl, by rw [← h], fun _ _ => rfl, fun _ => rfl, rfl, fun _ _ => rfl, .mono .refl (by decide)⟩

theorem Dev.haltChan_drive : d.haltChan (8 + k) = if (d.prf (8 + k)).seg = .idle then d
    else d.setPrf (8 + k) { d.prf (8 + k) with halting := true, stopping := false, fresh := false } := by
  unfold Dev.haltChan
  dsimp only
  rw [if_neg (show ¬ 8 + k < 8 by omega)]

theorem Dev.haltDrive_spec : (d.haltDrive k).aux = d.aux ∧
    (∀ c, c ≠ 8 + k → (d.haltDrive k).prf c = d.prf c) ∧
    ((d.prf (8 + k)).seg ≠ .idle → ((d.haltDrive k).prf (8 + k)).halting = true) ∧
    Dev.Touches [.prof] d (d.haltDrive k) := by
  have hchan : (d.haltChan (8 + k)).aux = d.aux ∧ (∀ c, c ≠ 8 + k → (d.haltChan (8 + k)).prf c = d.prf c) ∧
      ((d.prf (8 + k)).seg ≠ .idle → ((d.haltChan (8 + k)).prf (8 + k)).halting = true) ∧
      Dev.Touches [.prof] d (d.haltChan (8 + k)) := by
    rw [Dev.haltChan_drive]
    split
    · exact ⟨rfl, fun _ _ => rfl, fun h => absurd ‹_› h, .mono .refl (by decide)⟩
    · exact ⟨rfl, fun c hc => Dev.prf_setPrf_of_ne _ _ hc.symm, fun _ => by rw [Dev.prf_setPrf_self],
        d.touches_setPrf ..⟩
  obtain ⟨haux, hprf, hhalt, htouch⟩ := hchan
  unfold Dev.haltDrive
  dsimp only
  split
  · exact ⟨haux, hprf, hhalt, .mono (htouch.andThen (Dev.touches_onProf ..)) (by decide)⟩
  · exact ⟨haux, hprf, hhalt, htouch⟩

/-! ### Faults (R503) -/

/-- A drive's outputs go low and its channel halts. -/
def Dev.driveHalted (k : Nat) (d : Dev) : Dev := ((d.restoreRamp k).driveDark k).haltDrive k

theorem Dev.driveHalted_spec {e : Dev} (he : e = d.driveHalted k) :
    e.drv k = { d.drv k with saved := none } ∧ (∀ j, j ≠ k → e.drv j = d.drv j) ∧
    (∀ h ∈ d.driveHalves k, halfIsDark (e.half h)) ∧ (∀ h, h ∉ d.driveHalves k → e.half h = d.half h) ∧
    auxRest e.aux = auxRest d.aux ∧ Dev.Touches [.prof, .aux] d e := by
  obtain ⟨hrest, hself, hother, hhalf, -, -, htouch⟩ := d.restoreRamp_spec k
  have hhalves : (d.restoreRamp k).driveHalves k = d.driveHalves k := by
    unfold Dev.restoreRamp
    split <;> rfl
  unfold Dev.driveHalted at he
  generalize d.restoreRamp k = r at *
  have hon := r.onHalves_driveDark k
  obtain ⟨hdark, hlit⟩ := r.driveDark_halves k
  generalize r.driveDark k = b at *
  obtain ⟨haux, -, -, hstop⟩ := b.haltDrive_spec k
  rw [← he] at haux hstop
  have hdrv (j : Nat) : e.drv j = r.drv j :=
    (congrArg (fun a : AuxState => a.drives.get AuxDrive.reset j) haux).trans (hon.drv j)
  have hhalf' (h : Nat) : e.half h = b.half h := congrArg (fun a : AuxState => a.halves.get AuxHalf.reset h) haux
  refine ⟨(hdrv k).trans hself, fun j hj => (hdrv j).trans (hother j hj), fun h hh => ?_, fun h hh => ?_,
    (congrArg auxRest haux).trans (hon.rest.trans hrest), ((htouch.andThen hon.touches).andThen hstop).mono (by decide)⟩
  · exact hhalf' h ▸ hdark h (hhalves ▸ hh)
  · exact (hhalf' h).trans ((hlit h (hhalves ▸ hh)).trans (hhalf h))

/-- A drive in FAULT. -/
def driveFaulted (now code : Nat) (x : AuxDrive) : AuxDrive := { x with
  st := .fault, fault := code, faultTick := now, charged := false, running := false, homing := .none, next := none
  stillStart := none, saved := none }

variable {d k} in
theorem Dev.faultOf_spec {e : Dev} {what code : Nat} (he : e = d.faultOf what k code) :
    e.drv k = driveFaulted d.now code (d.drv k) ∧ (∀ j, j ≠ k → e.drv j = d.drv j) ∧
    (∀ h ∈ d.driveHalves k, halfIsDark (e.half h)) ∧ (∀ h, h ∉ d.driveHalves k → e.half h = d.half h) ∧
    auxRest e.aux = auxRest d.aux ∧ e.stands Reg.AUX_EVENT 1 ∧
    Dev.Touches [.prof, .aux, .events, .reports] d e := by
  obtain ⟨b, hb⟩ : ∃ b, b = d.driveHalted k := ⟨_, rfl⟩
  obtain ⟨hself, hother, hdark, hlit, hrest, htouch⟩ := d.driveHalted_spec k hb
  obtain ⟨c, hc⟩ : ∃ c, c = b.setDrv k { b.drv k with
    st := .fault, fault := code, faultTick := b.now, charged := false, running := false, homing := .none, next := none,
    stillStart := none } := ⟨_, rfl⟩
  have hend : e = (c.event 17 0 what 0 0).irq 51 := by
    rw [he, hc, hb]
    rfl
  have haux : e.aux = c.aux := by rw [hend, Dev.irq_aux, Dev.event_aux]
  have hdrv (j : Nat) : e.drv j = c.drv j := congrArg (fun a : AuxState => a.drives.get AuxDrive.reset j) haux
  have hhalf (h : Nat) : e.half h = b.half h :=
    (congrArg (fun a : AuxState => a.halves.get AuxHalf.reset h) haux).trans (hc ▸ rfl)
  have hnow : b.now = d.now := htouch.tick.symm
  have hset : Dev.Touches [.aux] b c := hc ▸ b.touches_onAux _
  have hreport : Dev.Touches [.events, .reports] c e := by
    rw [hend]
    exact .mono ((Dev.touches_event ..).andThen (Dev.touches_irq ..)) (by decide)
  refine ⟨?_, fun j hj => ?_, fun h hh => hhalf h ▸ hdark h hh, fun h hh => (hhalf h).trans (hlit h hh), ?_, ?_,
    ((htouch.andThen hset).andThen hreport).mono (by decide)⟩
  · rw [hdrv, hc, Dev.drv_setDrv_self, hnow, hself]
    rfl
  · exact (hdrv j).trans ((hc ▸ Dev.drv_setDrv_of_ne _ _ hj).trans (hother j hj))
  · exact (congrArg auxRest haux).trans (hc ▸ hrest)
  · rw [hend]
    exact (Dev.touches_irq _ 51).grows _ _ (Dev.event_stands 17 0 ..)

end

end Sys2Proof.Machine
end

section
/-! PROOFS. Period starts and Hall codes of the cooling plant drives (R485–R494). -/

namespace Sys2Proof.Machine

open Host

/-! ### Faults (R503) -/

theorem Dev.auxFault_faults (k code : Nat) (d : Dev) :
    ((d.auxFault k code).drv k).st = .fault ∧ ((d.auxFault k code).drv k).fault = code ∧
    (∀ h ∈ d.driveHalves k, ((d.auxFault k code).half h).want = .none ∧ ((d.auxFault k code).half h).refresh = none) ∧
    (∀ j, j ≠ k → (d.auxFault k code).drv j = d.drv j) ∧ (d.auxFault k code).stands Reg.AUX_EVENT 1 ∧
    Dev.Keeps [.prof, .aux, .events, .reports] d (d.auxFault k code) := by
  obtain ⟨hself, hother, hdark, -, -, hstands, htouch⟩ := Dev.faultOf_spec (d := d) (what := k) (k := k) (code := code) rfl
  exact ⟨congrArg AuxDrive.st hself, congrArg AuxDrive.fault hself, hdark, hother, hstands, htouch.keeps⟩

/-- What a row leaves whose effect changes half-bridges only. -/
theorem Dev.OnHalves.quietly {s : State} {d : Dev} (h : Dev.OnHalves s.fresh d) :
    ChangesOnly [.aux] s (s.after d) ∧ Quiet s (s.after d) :=
  h.touches.keeps.quietly (congrArg HostState.out h.host :)

/-! ### Period starts (R485, R489, R490, R494) -/

theorem Dev.bldcPeriod_dead {d : Dev} {k : Nat} (hh : hallDead (d.drv k).hall = true) :
    d.bldcPeriod k = d.auxFault k 1 := by
  unfold Dev.bldcPeriod
  extract_lets x
  exact if_pos hh

theorem Dev.bldcPeriod_resting {d : Dev} {k : Nat} (hr : (d.drv k).running = false)
    (hh : hallDead (d.drv k).hall = false) : d.bldcPeriod k = d.driveOff k := by
  unfold Dev.bldcPeriod
  extract_lets x
  have hrest : (!x.running) = true ∨ (!d.drvEn k) = true := .inl ((congrArg Bool.not hr).trans Bool.not_false)
  rw [if_neg (Bool.eq_false_iff.1 hh : ¬ hallDead x.hall = true), if_pos hrest]

section
variable {d : Dev} {k : Nat} (hp : d.now % max (d.fld Reg.AUX_CFG 15 0) 1 < d.cycle)
include hp

theorem Dev.auxPeriod_bldc (hk : d.driveKind k = 1) (hst : (d.drv k).st = .ready ∨ (d.drv k).st = .moving) :
    d.auxPeriod k = d.bldcPeriod k := by
  unfold Dev.auxPeriod
  rw [if_neg (Nat.not_le.2 hp), hk]
  rcases hst with h | h <;> rw [h] <;> rfl

theorem Dev.auxPeriod_stepper (hk : d.driveKind k = 2) (hst : (d.drv k).st = .moving) :
    d.auxPeriod k = d.stepperPeriod k := by
  unfold Dev.auxPeriod
  simp only [if_neg (Nat.not_le.2 hp), hk, hst]

end

section
variable {k : Fin 4} {s : State}

theorem auxPeriodStart_idle (h : s.dev.cycle ≤ s.dev.now % max (s.dev.fld Reg.AUX_CFG 15 0) 1) :
    exec (.auxPeriodStart k) s = .next (s.after s.fresh) := exec_idle rfl (if_pos h)

variable (hp : s.dev.now % max (s.dev.fld Reg.AUX_CFG 15 0) 1 < s.dev.cycle)
include hp

theorem exec_auxPeriodStart_bldc {d : Dev} (hk : s.dev.driveKind k.val = 1)
    (hst : (s.dev.drv k.val).st = .ready ∨ (s.dev.drv k.val).st = .moving) (h : s.fresh.bldcPeriod k.val = d) :
    exec (.auxPeriodStart k) s = .next (s.after d) :=
  exec_of_effect rfl ((Dev.auxPeriod_bldc (d := s.fresh) hp hk hst).trans h)

theorem auxPeriodStart_rests (hk : s.dev.driveKind k.val = 1) (hst : (s.dev.drv k.val).st = .ready)
    (hr : (s.dev.drv k.val).running = false) (hh : hallDead (s.dev.drv k.val).hall = false) :
    Answers (.auxPeriodStart k) s fun t => (∀ j < 3, (t.dev.half (3 * k.val + j)).want = .none) ∧
      ChangesOnly [.aux] s t ∧ Quiet s t := by
  have hoff := Dev.bldcPeriod_resting (d := s.fresh) hr hh
  have hrun := exec_auxPeriodStart_bldc hp hk (.inl hst) hoff
  have hhalves : s.fresh.driveHalves k.val = [3 * k.val, 3 * k.val + 1, 3 * k.val + 2] := if_pos hk
  have hwant := s.fresh.driveOff_halves k.val
  rw [hhalves] at hwant
  refine ⟨_, hrun, fun j hj => hwant _ ?_, (s.fresh.onHalves_driveOff k.val).quietly⟩
  simp only [List.mem_cons, List.not_mem_nil, or_false]
  omega

theorem auxPeriodStart_hallDead (hk : s.dev.driveKind k.val = 1)
    (hst : (s.dev.drv k.val).st = .ready ∨ (s.dev.drv k.val).st = .moving)
    (hh : hallDead (s.dev.drv k.val).hall = true) :
    exec (.auxPeriodStart k) s = .next (s.after (s.fresh.auxFault k.val 1)) :=
  exec_auxPeriodStart_bldc hp hk hst (Dev.bldcPeriod_dead (d := s.fresh) hh)

end

/-! #### The half-bridges of a running BLDC drive (R489) -/

theorem sectorPair_spec (n : Nat) : (sectorPair n).1 < 3 ∧ (sectorPair n).2 < 3 ∧ (sectorPair n).1 ≠ (sectorPair n).2 := by
  unfold sectorPair
  split <;> decide

/-- A half-bridge of a running BLDC drive by its part in the sector: + is on for `on` ticks, − is low, the third is off. -/
def Dev.sectorAsk (k plus minus on : Nat) (d : Dev) (j : Nat) : Dev :=
  let h := 3 * k + j
  if j = plus then
    (if on = 0 then d.ask h .low none
     else d.ask h .high (if d.fld Reg.AUX_CFG 15 0 ≤ on then none else some (d.now + on)))
  else if j = minus then d.ask h .low none
  else d.ask h .none none

section
variable {d : Dev} {k plus minus on : Nat}

theorem Dev.onHalves_sectorAsk (j : Nat) : Dev.OnHalves d (d.sectorAsk k plus minus on j) := by
  unfold Dev.sectorAsk
  dsimp only
  split
  · split <;> exact d.onHalves_ask ..
  · split <;> exact d.onHalves_ask ..

theorem Dev.half_sectorAsk_of_ne {i j : Nat} (hj : j ≠ i) :
    (d.sectorAsk k plus minus on i).half (3 * k + j) = d.half (3 * k + j) := by
  have hne : 3 * k + j ≠ 3 * k + i := fun h => hj (Nat.add_left_cancel h)
  unfold Dev.sectorAsk
  dsimp only
  split
  · split <;> exact d.half_ask_of_ne hne
  · split <;> exact d.half_ask_of_ne hne

/-- What a half-bridge is asked for by its part in the sector. -/
theorem Dev.half_sectorAsk_self (hpm : plus ≠ minus) (j : Nat) :
    (j = plus → ((d.sectorAsk k plus minus on j).half (3 * k + j)).want ≠ .none) ∧
    (j = minus → ((d.sectorAsk k plus minus on j).half (3 * k + j)).want = .low) ∧
    (j ≠ plus → j ≠ minus → ((d.sectorAsk k plus minus on j).half (3 * k + j)).want = .none) := by
  unfold Dev.sectorAsk
  dsimp only
  refine ⟨fun h => ?_, fun h => ?_, fun hp hm => ?_⟩
  · rw [if_pos h]
    split <;> rw [Dev.half_ask_self] <;> decide
  · rw [if_neg (h ▸ hpm.symm), if_pos h, Dev.half_ask_self]
  · rw [if_neg hp, if_neg hm, Dev.half_ask_self]

theorem Dev.foldl_sectorAsk (hpm : plus ≠ minus) (js : List Nat) (hjs : js.Nodup) (j : Nat) (hj : j ∈ js) (d : Dev) :
    (j = plus → ((js.foldl (Dev.sectorAsk k plus minus on) d).half (3 * k + j)).want ≠ .none) ∧
    (j = minus → ((js.foldl (Dev.sectorAsk k plus minus on) d).half (3 * k + j)).want = .low) ∧
    (j ≠ plus → j ≠ minus → ((js.foldl (Dev.sectorAsk k plus minus on) d).half (3 * k + j)).want = .none) := by
  have hkeep (is : List Nat) (hi : j ∉ is) (d : Dev) :
      (is.foldl (Dev.sectorAsk k plus minus on) d).half (3 * k + j) = d.half (3 * k + j) := by
    induction is generalizing d with
    | nil => rfl
    | cons i is ih =>
      obtain ⟨hne, hrest⟩ := not_or.1 (List.mem_cons.not.1 hi)
      exact (ih hrest _).trans (Dev.half_sectorAsk_of_ne hne)
  induction js generalizing d with
  | nil => exact absurd hj List.not_mem_nil
  | cons i is ih =>
    obtain ⟨hi, his⟩ := List.nodup_cons.1 hjs
    by_cases hji : j = i
    · subst hji
      rw [List.foldl_cons, hkeep is hi]
      exact Dev.half_sectorAsk_self hpm j
    · exact ih his ((List.mem_cons.1 hj).resolve_left hji) _

end

section
variable {d : Dev} {k : Nat} (hr : (d.drv k).running = true) (hen : d.drvEn k = true)
  (hh : hallDead (d.drv k).hall = false)
include hr hen hh

theorem Dev.bldcPeriod_stalled (he : d.fld (Reg.AUX_DRV_HALL k) 31 24 < (d.hallError k).natAbs) :
    d.bldcPeriod k = d.auxFault k 4 := by
  unfold Dev.bldcPeriod
  extract_lets x u neg on
  have hgo : ¬ ((!x.running) = true ∨ (!d.drvEn k) = true) := by simp [x, hr, hen]
  rw [if_neg (Bool.eq_false_iff.1 hh : ¬ hallDead x.hall = true), if_neg hgo, if_pos (Int.ofNat_lt.2 he)]

theorem Dev.bldcPeriod_runs (he : (d.hallError k).natAbs ≤ d.fld (Reg.AUX_DRV_HALL k) 31 24) {plus minus : Nat}
    (hpair : (plus, minus) = sectorPair (if decide (d.dutyOf k < 0) != d.drvInv k then ((d.drv k).sector + 3) % 6
      else (d.drv k).sector)) :
    ∃ on, d.bldcPeriod k = (upto 3).foldl (Dev.sectorAsk k plus minus on) d := by
  unfold Dev.bldcPeriod
  extract_lets x u neg on
  have hgo : ¬ ((!x.running) = true ∨ (!d.drvEn k) = true) := by simp [x, hr, hen]
  have hsides : (plus, minus) = sectorPair (if neg = true then (x.sector + 3) % 6 else x.sector) := hpair
  rw [if_neg (Bool.eq_false_iff.1 hh : ¬ hallDead x.hall = true), if_neg hgo, if_neg (Int.not_lt.2 (Int.ofNat_le.2 he)),
    ← hsides]
  exact ⟨on, rfl⟩

end

section
variable {k : Fin 4} {s : State} (hp : s.dev.now % max (s.dev.fld Reg.AUX_CFG 15 0) 1 < s.dev.cycle)
  (hk : s.dev.driveKind k.val = 1) (hst : (s.dev.drv k.val).st = .moving) (hr : (s.dev.drv k.val).running = true)
  (hen : s.dev.drvEn k.val = true) (hh : hallDead (s.dev.drv k.val).hall = false)
include hp hk hst hr hen hh

theorem auxPeriodStart_stall (he : s.dev.fld (Reg.AUX_DRV_HALL k.val) 31 24 < (s.dev.hallError k.val).natAbs) :
    exec (.auxPeriodStart k) s = .next (s.after (s.fresh.auxFault k.val 4)) := by
  exact exec_auxPeriodStart_bldc hp hk (.inr hst) (Dev.bldcPeriod_stalled (d := s.fresh) hr hen hh he)

theorem auxPeriodStart_drives (he : (s.dev.hallError k.val).natAbs ≤ s.dev.fld (Reg.AUX_DRV_HALL k.val) 31 24)
    (plus minus : Nat) (hpair : (plus, minus) = sectorPair (if decide (s.dev.dutyOf k.val < 0) != s.dev.drvInv k.val then
      ((s.dev.drv k.val).sector + 3) % 6 else (s.dev.drv k.val).sector)) :
    Answers (.auxPeriodStart k) s fun t => (t.dev.half (3 * k.val + minus)).want = .low ∧
      (t.dev.half (3 * k.val + plus)).want ≠ .none ∧
      (∀ j < 3, j ≠ plus → j ≠ minus → (t.dev.half (3 * k.val + j)).want = .none) ∧
      ChangesOnly [.aux] s t ∧ Quiet s t := by
  obtain ⟨hplus, hminus, hne⟩ := sectorPair_spec (if decide (s.dev.dutyOf k.val < 0) != s.dev.drvInv k.val then
      ((s.dev.drv k.val).sector + 3) % 6 else (s.dev.drv k.val).sector)
  rw [← hpair] at hplus hminus hne
  obtain ⟨on, hon⟩ := Dev.bldcPeriod_runs (d := s.fresh) hr hen hh he hpair
  have hask (j : Nat) (hj : j < 3) := Dev.foldl_sectorAsk (k := k.val) (on := on) hne (upto 3) List.nodup_range j
    (List.mem_range.2 hj) s.fresh
  have halves : Dev.OnHalves s.fresh ((upto 3).foldl (Dev.sectorAsk k.val plus minus on) s.fresh) :=
    .foldl (fun _ j => Dev.onHalves_sectorAsk j) _ _
  have hrun := exec_auxPeriodStart_bldc hp hk (.inr hst) hon
  exact ⟨_, hrun, (hask minus hminus).2.1 rfl, (hask plus hplus).1 rfl,
    fun j hj => (hask j hj).2.2, halves.quietly⟩

end

/-! #### Steppers (R494) -/

section
variable {d : Dev}

/-- The coil on a group is driven in the sign of its demand: its half-bridges and its group, and what stays. -/
theorem Dev.driveCoil_spec {e : Dev} {g : Nat} {i : Int} (he : e = d.driveCoil g i) :
    (e.half (3 * g)).want = (if 0 < i then .high else .low) ∧
    (e.half (3 * g + 1)).want = (if i < 0 then .high else .low) ∧ (e.grp g).chop = false ∧
    (∀ h, h ≠ 3 * g → h ≠ 3 * g + 1 → e.half h = d.half h) ∧ (∀ j, j ≠ g → e.grp j = d.grp j) ∧ e.host = d.host ∧
    Dev.Touches [.aux] d e := by
  obtain ⟨a, ha⟩ : ∃ a, a = d.setGrp g { d.grp g with chop := false } := ⟨_, rfl⟩
  obtain ⟨b, hb⟩ : ∃ b, b = a.ask (3 * g) (if 0 < i then .high else .low) none := ⟨_, rfl⟩
  have hend : e = b.ask (3 * g + 1) (if i < 0 then .high else .low) none := by
    rw [he, hb, ha]
    rfl
  have hon : Dev.OnHalves a e := (hb ▸ a.onHalves_ask ..).trans (hend ▸ b.onHalves_ask ..)
  have hset : Dev.Touches [.aux] d a := ha ▸ d.touches_onAux _
  refine ⟨?_, hend ▸ b.half_ask_self .., ?_, fun h h0 h1 => ?_, fun j hj => ?_, hon.host.trans (ha ▸ rfl),
    (hset.andThen hon.touches).mono (by decide)⟩
  · rw [hend, b.half_ask_of_ne (by omega), hb, a.half_ask_self]
  · rw [hon.grp, ha, Dev.grp_setGrp_self]
  · rw [hend, b.half_ask_of_ne h1, hb, a.half_ask_of_ne h0, ha]
    rfl
  · rw [hon.grp, ha, Dev.grp_setGrp_of_ne _ _ hj]

/-- The period of an enabled stepper. The definition is opened as a function, for the kernel would otherwise evaluate the
coils' demands. -/
theorem Dev.stepperPeriod_driven {k : Nat} (hen : d.drvEn k = true) :
    d.stepperPeriod k = (d.driveCoil k (d.coilDemands k).1).driveCoil (k + 1) (d.coilDemands k).2 := by
  obtain ⟨f, hf⟩ : ∃ f, f = @Dev.stepperPeriod := ⟨_, rfl⟩
  obtain ⟨demands, hdemands⟩ : ∃ demands, demands = @Dev.coilDemands := ⟨_, rfl⟩
  rw [← hf, ← hdemands]
  delta Dev.stepperPeriod at hf
  rw [hf, ← hdemands]
  beta_reduce
  generalize demands d k = i
  exact if_pos hen

end

/-- The demands of a stepper's coils hang on its step and its current. This definition too is opened as
a function. -/
theorem Dev.coilDemands_congr {d a : Dev} {k : Nat} (hm : d.microsteps k = a.microsteps k)
    (hc : d.coilCurrent k = a.coilCurrent k) (hi : d.microIndex k = a.microIndex k) :
    d.coilDemands k = a.coilDemands k := by
  obtain ⟨f, hf⟩ : ∃ f, f = @Dev.coilDemands := ⟨_, rfl⟩
  rw [← hf]
  delta Dev.coilDemands at hf
  rw [hf]
  beta_reduce
  rw [hm, hc, hi]

theorem State.fresh_coilDemands (s : State) (k : Nat) : s.fresh.coilDemands k = s.dev.coilDemands k :=
  Dev.coilDemands_congr rfl rfl rfl

theorem auxPeriodStart_steps {k : Fin 4} {s : State} (hp : s.dev.now % max (s.dev.fld Reg.AUX_CFG 15 0) 1 < s.dev.cycle)
    (hk : s.dev.driveKind k.val = 2) (hst : (s.dev.drv k.val).st = .moving) (hen : s.dev.drvEn k.val = true) :
    Answers (.auxPeriodStart k) s fun t =>
      (t.dev.half (3 * k.val)).want = (if 0 < (s.dev.coilDemands k.val).1 then .high else .low) ∧
      (t.dev.half (3 * k.val + 1)).want = (if (s.dev.coilDemands k.val).1 < 0 then .high else .low) ∧
      (t.dev.half (3 * (k.val + 1))).want = (if 0 < (s.dev.coilDemands k.val).2 then .high else .low) ∧
      (t.dev.grp k.val).chop = false ∧ (t.dev.grp (k.val + 1)).chop = false ∧ ChangesOnly [.aux] s t ∧ Quiet s t := by
  have hrun := (Dev.auxPeriod_stepper (d := s.fresh) hp hk hst).trans (Dev.stepperPeriod_driven (d := s.fresh) hen)
  rw [s.fresh_coilDemands] at hrun
  generalize s.dev.coilDemands k.val = i at *
  obtain ⟨a, ha⟩ : ∃ a, a = s.fresh.driveCoil k.val i.1 := ⟨_, rfl⟩
  obtain ⟨e, he⟩ : ∃ e, e = a.driveCoil (k.val + 1) i.2 := ⟨_, rfl⟩
  obtain ⟨hhi, hlo, hchop, -, -, hhost, htouch⟩ := Dev.driveCoil_spec ha
  obtain ⟨hhi', -, hchop', hhalf', hgrp', hhost', htouch'⟩ := Dev.driveCoil_spec he
  rw [← ha, ← he] at hrun
  refine ⟨s.after e, exec_of_effect rfl hrun, ?_, ?_, hhi', ?_, hchop',
    ((htouch.andThen htouch').mono (by decide)).keeps.quietly (congrArg HostState.out (hhost'.trans hhost) :)⟩
  · exact (congrArg AuxHalf.want (hhalf' _ (by omega) (by omega))).trans hhi
  · exact (congrArg AuxHalf.want (hhalf' _ (by omega) (by omega))).trans hlo
  · exact (congrArg AuxGroup.chop (hgrp' _ (by omega))).trans hchop

end Sys2Proof.Machine
end

section
/-! PROOFS. Hall codes, bootstraps and the end of precharge (R486–R488). -/

namespace Sys2Proof.Machine

open Host

/-! ### A Hall code (R488) -/

/-- The code is noted. -/
def Dev.hallNoted (k code : Nat) (d : Dev) : Dev := d.setDrv k { d.drv k with hall := some code }

theorem Dev.touches_hallNoted (k code : Nat) (d : Dev) : Dev.Touches [.aux] d (d.hallNoted k code) := d.touches_setDrv ..

theorem Dev.drv_hallNoted (k code : Nat) (d : Dev) : (d.hallNoted k code).drv k = { d.drv k with hall := some code } :=
  Dev.drv_setDrv_self ..

/-- The sector of a code. -/
def Dev.hallSector (d : Dev) (k code : Nat) : Nat := d.fld (Reg.AUX_DRV_HALL k) (3 * code + 2) (3 * code)

/-- The sectors from that of the last code to that of this one. -/
def Dev.hallJump (d : Dev) (k code : Nat) : Nat := (d.hallSector k code + 6 - (d.drv k).sector % 6) % 6

/-- A drive that has moved some steps. -/
def Dev.hallMoved (d : Dev) (k code : Nat) (steps : Int) : AuxDrive := { d.drv k with
  hall := some code, sector := d.hallSector k code
  count := ((d.drv k).count + (if d.drvInv k then -steps else steps)) % (2 ^ 24 : Nat)
  lastChange := d.now, prevT := d.now - (d.drv k).lastChange, reverse := decide (steps < 0) }

section
variable {d : Dev} {k code : Nat}

theorem Dev.hallChange_idle (h : d.driveKind k ≠ 1 ∨ (d.drv k).hall = some code) : d.hallChange k code = d := if_pos h

variable (hk : d.driveKind k = 1) (hnew : (d.drv k).hall ≠ some code)
include hk hnew

theorem Dev.hallChange_dead (hc : code = 0 ∨ code = 7) : d.hallChange k code = (d.hallNoted k code).auxFault k 1 :=
  (if_neg (not_or.2 ⟨not_not.2 hk, hnew⟩)).trans (if_pos hc)

variable (hc : ¬ (code = 0 ∨ code = 7))
include hc

theorem Dev.hallChange_first (hn : (d.drv k).hall = none) :
    (d.hallChange k code).drv k =
      { d.drv k with hall := some code, sector := d.hallSector k code, lastChange := d.now } ∧
    Dev.Touches [.aux] d (d.hallChange k code) ∧ (d.hallChange k code).host = d.host := by
  obtain ⟨a, ha⟩ : ∃ a, a = d.hallNoted k code := ⟨_, rfl⟩
  have hrun : d.hallChange k code = a.setDrv k { a.drv k with sector := d.hallSector k code, lastChange := d.now } :=
    ha ▸ (if_neg (not_or.2 ⟨not_not.2 hk, hnew⟩)).trans ((if_neg hc).trans (if_pos (Option.isNone_iff_eq_none.2 hn)))
  have htouch : Dev.Touches [.aux] d a := ha ▸ d.touches_hallNoted ..
  refine ⟨?_, hrun ▸ .mono (htouch.andThen (Dev.touches_setDrv ..)) (by decide), by rw [hrun, ha]; rfl⟩
  rw [hrun, Dev.drv_setDrv_self, ha, Dev.drv_hallNoted]

variable (hn : (d.drv k).hall ≠ none)
include hn

theorem Dev.hallChange_opposite (hj : d.hallJump k code = 3) : d.hallChange k code =
    ((d.hallNoted k code).setDrv k { (d.hallNoted k code).drv k with sector := d.hallSector k code }).auxFault k 1 := by
  have hsome : ¬ (d.drv k).hall.isNone = true := fun h => hn (Option.isNone_iff_eq_none.1 h)
  have hzero : ¬ d.hallJump k code = 0 := by omega
  exact (if_neg (not_or.2 ⟨not_not.2 hk, hnew⟩)).trans
    ((if_neg hc).trans ((if_neg hsome).trans ((if_neg hzero).trans (if_pos hj))))

theorem Dev.hallChange_moves {steps : Int} (hzero : d.hallJump k code ≠ 0) (hthree : d.hallJump k code ≠ 3)
    (hs : steps = if d.hallJump k code < 3 then (d.hallJump k code : Int) else (d.hallJump k code : Int) - 6) :
    ∃ a, a.drv k = d.hallMoved k code steps ∧ Dev.Touches [.aux] d a ∧ a.host = d.host ∧
      d.hallChange k code = if steps.natAbs = 2 then a.event 17 2 k 0 0 else a := by
  have hsome : ¬ (d.drv k).hall.isNone = true := fun h => hn (Option.isNone_iff_eq_none.1 h)
  refine ⟨(d.hallNoted k code).setDrv k { (d.hallNoted k code).drv k with
      sector := d.hallSector k code
      count := ((d.drv k).count + (if d.drvInv k then -steps else steps)) % (2 ^ 24 : Nat)
      lastChange := d.now, prevT := d.now - (d.drv k).lastChange, reverse := decide (steps < 0) }, ?_, ?_, rfl, ?_⟩
  · rw [Dev.drv_setDrv_self, Dev.drv_hallNoted]
    rfl
  · exact .mono ((d.touches_hallNoted ..).andThen (Dev.touches_setDrv ..)) (by decide)
  · rw [hs]
    exact (if_neg (not_or.2 ⟨not_not.2 hk, hnew⟩)).trans
      ((if_neg hc).trans ((if_neg hsome).trans ((if_neg hzero).trans (if_neg hthree))))

end

section
variable {k : Fin 4} {c : Fin 8} {s : State}

theorem hallChange_idle (h : s.dev.driveKind k.val ≠ 1 ∨ (s.dev.drv k.val).hall = some c.val) :
    exec (.hallChange k c) s = .next (s.after s.fresh) := exec_idle rfl (Dev.hallChange_idle h)

variable (hk : s.dev.driveKind k.val = 1) (hnew : (s.dev.drv k.val).hall ≠ some c.val)
include hk hnew

theorem hallChange_dead (hc : c.val = 0 ∨ c.val = 7) : Answers (.hallChange k c) s fun t =>
    (t.dev.drv k.val).st = .fault ∧ (t.dev.drv k.val).fault = 1 ∧ (t.dev.drv k.val).hall = some c.val ∧
    ChangesOnly [.prof, .aux, .events, .reports] s t := by
  have hrun := Dev.hallChange_dead (d := s.fresh) hk hnew hc
  obtain ⟨e, he⟩ : ∃ e, e = (s.fresh.hallNoted k.val c.val).auxFault k.val 1 := ⟨_, rfl⟩
  obtain ⟨hself, -, -, -, -, -, htouch⟩ := Dev.faultOf_spec he
  have hnoted := s.fresh.touches_hallNoted k.val c.val
  rw [Dev.drv_hallNoted] at hself
  exact ⟨s.after e, exec_of_effect rfl (hrun.trans he.symm), congrArg AuxDrive.st hself, congrArg AuxDrive.fault hself,
    congrArg AuxDrive.hall hself, .of_after ((hnoted.andThen htouch).mono (by decide)).keeps⟩

variable (hlow : 1 ≤ c.val) (hhigh : c.val ≤ 6)
include hlow hhigh

theorem hallChange_first (hn : (s.dev.drv k.val).hall = none) : Answers (.hallChange k c) s fun t =>
    t.dev.drv k.val = { s.dev.drv k.val with
      hall := some c.val, sector := s.dev.fld (Reg.AUX_DRV_HALL k.val) (3 * c.val + 2) (3 * c.val)
      lastChange := s.dev.now } ∧ ChangesOnly [.aux] s t ∧ Quiet s t := by
  obtain ⟨hdrv, htouch, hhost⟩ := Dev.hallChange_first (d := s.fresh) hk hnew (by omega) hn
  generalize he : s.fresh.hallChange k.val c.val = e at *
  exact ⟨s.after e, exec_of_effect rfl he, hdrv, htouch.keeps.quietly (congrArg HostState.out hhost :)⟩

variable (hn : (s.dev.drv k.val).hall ≠ none)
include hn

theorem hallChange_opposite (hj : (s.dev.fld (Reg.AUX_DRV_HALL k.val) (3 * c.val + 2) (3 * c.val) + 6 -
    (s.dev.drv k.val).sector % 6) % 6 = 3) : Answers (.hallChange k c) s fun t =>
      (t.dev.drv k.val).st = .fault ∧ (t.dev.drv k.val).fault = 1 ∧
      (t.dev.drv k.val).count = (s.dev.drv k.val).count ∧ ChangesOnly [.prof, .aux, .events, .reports] s t := by
  have hrun := Dev.hallChange_opposite (d := s.fresh) hk hnew (by omega) hn hj
  obtain ⟨a, ha⟩ : ∃ a, a = (s.fresh.hallNoted k.val c.val).setDrv k.val
    { (s.fresh.hallNoted k.val c.val).drv k.val with sector := s.fresh.hallSector k.val c.val } := ⟨_, rfl⟩
  have hcount : (a.drv k.val).count = (s.dev.drv k.val).count := by
    rw [ha, Dev.drv_setDrv_self, Dev.drv_hallNoted]
    rfl
  have hset : Dev.Touches [.aux] s.fresh a :=
    ha ▸ .mono ((s.fresh.touches_hallNoted ..).andThen (Dev.touches_setDrv ..)) (by decide)
  rw [← ha] at hrun
  obtain ⟨e, he⟩ : ∃ e, e = a.auxFault k.val 1 := ⟨_, rfl⟩
  obtain ⟨hself, -, -, -, -, -, htouch⟩ := Dev.faultOf_spec he
  exact ⟨s.after e, exec_of_effect rfl (hrun.trans he.symm), congrArg AuxDrive.st hself, congrArg AuxDrive.fault hself,
    (congrArg AuxDrive.count hself).trans hcount, .of_after ((hset.andThen htouch).mono (by decide)).keeps⟩

theorem hallChange_skips (step : Int)
    (hj : (step = 2 ∧ (s.dev.fld (Reg.AUX_DRV_HALL k.val) (3 * c.val + 2) (3 * c.val) + 6 -
          (s.dev.drv k.val).sector % 6) % 6 = 2) ∨
        (step = -2 ∧ (s.dev.fld (Reg.AUX_DRV_HALL k.val) (3 * c.val + 2) (3 * c.val) + 6 -
          (s.dev.drv k.val).sector % 6) % 6 = 4)) : Answers (.hallChange k c) s fun t =>
      (t.dev.drv k.val).count = ((s.dev.drv k.val).count + (if s.dev.drvInv k.val then -step else step)) % 16777216 ∧
      (t.dev.drv k.val).sector = s.dev.fld (Reg.AUX_DRV_HALL k.val) (3 * c.val + 2) (3 * c.val) ∧
      (t.dev.drv k.val).hall = some c.val ∧ (t.dev.drv k.val).st = (s.dev.drv k.val).st ∧
      t.dev.stands Reg.AUX_EVENT 4 ∧ ChangesOnly [.aux, .events, .reports] s t := by
  have hj' : (step = 2 ∧ s.fresh.hallJump k.val c.val = 2) ∨ (step = -2 ∧ s.fresh.hallJump k.val c.val = 4) := hj
  obtain ⟨a, hself, htouch, -, hrun⟩ := Dev.hallChange_moves (d := s.fresh) (steps := step) hk hnew (by omega) hn
    (by omega) (by omega) (by omega)
  rw [if_pos (by omega)] at hrun
  obtain ⟨e, he⟩ : ∃ e, e = a.event 17 2 k.val 0 0 := ⟨_, rfl⟩
  have hdrv : e.drv k.val = s.fresh.hallMoved k.val c.val step := by
    rw [he, Dev.drv, Dev.event_aux]
    exact hself
  have hevent : Dev.Touches [.events, .reports] a e := he ▸ a.touches_event ..
  exact ⟨s.after e, exec_of_effect rfl (hrun.trans he.symm), congrArg AuxDrive.count hdrv,
    congrArg AuxDrive.sector hdrv, congrArg AuxDrive.hall hdrv, (congrArg AuxDrive.st hdrv :),
    he ▸ Dev.event_stands 17 2 .., .of_after ((htouch.andThen hevent).mono (by decide)).keeps⟩

theorem hallChange_steps (step : Int)
    (hj : (step = 1 ∧ (s.dev.fld (Reg.AUX_DRV_HALL k.val) (3 * c.val + 2) (3 * c.val) + 6 -
          (s.dev.drv k.val).sector % 6) % 6 = 1) ∨
        (step = -1 ∧ (s.dev.fld (Reg.AUX_DRV_HALL k.val) (3 * c.val + 2) (3 * c.val) + 6 -
          (s.dev.drv k.val).sector % 6) % 6 = 5)) : Answers (.hallChange k c) s fun t =>
      (t.dev.drv k.val).count = ((s.dev.drv k.val).count + (if s.dev.drvInv k.val then -step else step)) % 16777216 ∧
      (t.dev.drv k.val).sector = s.dev.fld (Reg.AUX_DRV_HALL k.val) (3 * c.val + 2) (3 * c.val) ∧
      (t.dev.drv k.val).hall = some c.val ∧ (t.dev.drv k.val).lastChange = s.dev.now ∧
      (t.dev.drv k.val).st = (s.dev.drv k.val).st ∧ ChangesOnly [.aux] s t ∧ Quiet s t := by
  have hj' : (step = 1 ∧ s.fresh.hallJump k.val c.val = 1) ∨ (step = -1 ∧ s.fresh.hallJump k.val c.val = 5) := hj
  obtain ⟨a, hself, htouch, hhost, hrun⟩ := Dev.hallChange_moves (d := s.fresh) (steps := step) hk hnew (by omega) hn
    (by omega) (by omega) (by omega)
  rw [if_neg (by omega)] at hrun
  exact ⟨s.after a, exec_of_effect rfl hrun, congrArg AuxDrive.count hself, congrArg AuxDrive.sector hself,
    congrArg AuxDrive.hall hself, congrArg AuxDrive.lastChange hself, (congrArg AuxDrive.st hself :),
    htouch.keeps.quietly (congrArg HostState.out hhost)⟩

end

end Sys2Proof.Machine
end

section
/-! PROOFS. Bootstraps, precharge and standstill of the cooling plant drives (R486, R487, R495). -/

namespace Sys2Proof.Machine

open Host

/-! ### Bootstraps (R487) -/

/-- The refreshes of a bootstrap that counts as low again. -/
def Dev.refreshesNow (d : Dev) (h : Nat) : Nat :=
  if (d.half h).lastLow + msTicks ≤ d.now then 0 else (d.half h).refreshes

/-- A refresh begins and is counted. -/
def Dev.refreshBegun (h : Nat) (d : Dev) : Dev :=
  (d.setHalf h { d.half h with
    refresh := some d.now, refreshes := d.refreshesNow h + 1, lastLow := refreshOff (d.auxDt h) d.now }).onAux fun a =>
      { a with refreshCnt := satInc a.refreshCnt }

section
variable {d : Dev} {h : Nat}

theorem Dev.bootstrapLow_off (hw : (d.wantNow h).1 ≠ .high ∨ d.refreshing h = true) : d.bootstrapLow h =
    d.setHalf h { d.half h with refreshes := d.refreshesNow h, lastLow := max (d.half h).lastLow d.now } := if_pos hw

theorem Dev.half_refreshBegun : (d.refreshBegun h).half h = { d.half h with
    refresh := some d.now, refreshes := d.refreshesNow h + 1, lastLow := d.now + d.auxDt h + 800 } :=
  d.half_setHalf_self ..

theorem Dev.touches_refreshBegun : Dev.Touches [.aux] d (d.refreshBegun h) :=
  .mono ((d.touches_setHalf ..).andThen (Dev.touches_onAux ..)) (by decide)

variable (hw : (d.wantNow h).1 = .high) (hr : d.refreshing h = false)
include hw hr

theorem Dev.bootstrapLow_refreshes (hn : d.refreshesNow h + 1 < 3) : d.bootstrapLow h = d.refreshBegun h := by
  have hgo : ¬ ((d.wantNow h).1 ≠ .high ∨ d.refreshing h = true) := by simp [hw, hr]
  refine (if_neg hgo).trans ?_
  split
  · exact if_neg (Nat.not_le.2 hn)
  · rfl

theorem Dev.bootstrapLow_faults {k : Nat} (hn : 3 ≤ d.refreshesNow h + 1) (hg : d.groupDrive (h / 3) = some k) :
    d.bootstrapLow h =
      ((d.refreshBegun h).setHalf h { (d.refreshBegun h).half h with refreshes := 0 }).auxFault k 2 := by
  have hgo : ¬ ((d.wantNow h).1 ≠ .high ∨ d.refreshing h = true) := by simp [hw, hr]
  have hg' : (d.refreshBegun h).groupDrive (h / 3) = some k := hg
  refine (if_neg hgo).trans ?_
  split
  · rename_i j hj
    have hj' : some j = some k := hj.symm.trans hg'
    rw [Option.some.inj hj']
    exact if_pos hn
  · rename_i hj
    have hj' : none = some k := hj.symm.trans hg'
    cases hj'

end

section
variable {h : Fin 12} {n : Nat} {s : State}

theorem bootstrapLow_off (hw : (s.dev.wantNow h.val).1 ≠ .high ∨ s.dev.refreshing h.val = true)
    (hn : n = (if (s.dev.half h.val).lastLow + msTicks ≤ s.dev.now then 0 else (s.dev.half h.val).refreshes)) :
    Answers (.bootstrapLow h) s fun t =>
      t.dev.half h.val = { s.dev.half h.val with refreshes := n, lastLow := max (s.dev.half h.val).lastLow s.dev.now } ∧
      t.dev.aux.refreshCnt = s.dev.aux.refreshCnt ∧ ChangesOnly [.aux] s t ∧ Quiet s t := by
  refine ⟨_, exec_of_effect rfl (Dev.bootstrapLow_off (d := s.fresh) hw), ?_, rfl,
    (s.fresh.touches_setHalf ..).keeps.quietly rfl⟩
  rw [hn]
  exact s.fresh.half_setHalf_self ..

variable (hw : (s.dev.wantNow h.val).1 = .high) (hr : s.dev.refreshing h.val = false)
  (hn : n = (if (s.dev.half h.val).lastLow + msTicks ≤ s.dev.now then 0 else (s.dev.half h.val).refreshes) + 1)
include hw hr hn

theorem bootstrapLow_refreshes (hlt : n < 3) : Answers (.bootstrapLow h) s fun t =>
    t.dev.half h.val = { s.dev.half h.val with
      refresh := some s.dev.now, refreshes := n, lastLow := s.dev.now + s.dev.auxDt h.val + 800 } ∧
    t.dev.aux.refreshCnt = satInc s.dev.aux.refreshCnt ∧ ChangesOnly [.aux] s t ∧ Quiet s t := by
  have hn' : n = s.fresh.refreshesNow h.val + 1 := hn
  refine ⟨_, exec_of_effect rfl (Dev.bootstrapLow_refreshes (d := s.fresh) hw hr (hn' ▸ hlt)), ?_, rfl,
    Dev.touches_refreshBegun.keeps.quietly rfl⟩
  have hnow : s.fresh.now = s.dev.now := rfl
  have hdt : s.fresh.auxDt h.val = s.dev.auxDt h.val := rfl
  have hhalf : s.fresh.half h.val = s.dev.half h.val := rfl
  have hend := Dev.half_refreshBegun (d := s.fresh) (h := h.val)
  rw [hnow, hdt, hhalf, ← hn'] at hend
  exact hend

theorem bootstrapLow_faults (k : Nat) (hge : 3 ≤ n) (hg : s.dev.groupDrive (h.val / 3) = some k) :
    Answers (.bootstrapLow h) s fun t => (t.dev.drv k).st = .fault ∧ (t.dev.drv k).fault = 2 ∧
      ChangesOnly [.prof, .aux, .events, .reports] s t := by
  have hn' : n = s.fresh.refreshesNow h.val + 1 := hn
  have hrun := Dev.bootstrapLow_faults (d := s.fresh) hw hr (hn' ▸ hge) hg
  obtain ⟨a, ha⟩ : ∃ a, a = (s.fresh.refreshBegun h.val).setHalf h.val
    { (s.fresh.refreshBegun h.val).half h.val with refreshes := 0 } := ⟨_, rfl⟩
  have hset : Dev.Touches [.aux] s.fresh a :=
    ha ▸ .mono (Dev.touches_refreshBegun.andThen (Dev.touches_setHalf ..)) (by decide)
  rw [← ha] at hrun
  obtain ⟨e, he⟩ : ∃ e, e = a.auxFault k 2 := ⟨_, rfl⟩
  obtain ⟨hself, -, -, -, -, -, htouch⟩ := Dev.faultOf_spec he
  exact ⟨s.after e, exec_of_effect rfl (hrun.trans he.symm), congrArg AuxDrive.st hself, congrArg AuxDrive.fault hself,
    .of_after ((hset.andThen htouch).mono (by decide)).keeps⟩

end

/-! ### Precharge and standstill (R486, R495) -/

section
variable {k : Fin 4} {s : State}

theorem prechargeEnd_idle (h : (s.dev.drv k.val).st ≠ .precharge ∨ s.dev.now < (s.dev.drv k.val).preEnd) :
    exec (.prechargeEnd k) s = .next (s.after s.fresh) := exec_idle rfl (if_pos h)

/-- Precharge has ended: no side of the drive is asked for. -/
def Dev.precharged (k : Nat) (d : Dev) : Dev := (d.driveOff k).setDrv k { d.drv k with charged := true }

theorem Dev.precharged_spec {d e : Dev} {k : Nat} (he : e = d.precharged k) :
    e.drv k = { d.drv k with charged := true } ∧ (∀ h ∈ d.driveHalves k, (e.half h).want = .none) ∧
    e.prof = d.prof ∧ e.host = d.host ∧ Dev.Touches [.aux] d e := by
  have hon := d.onHalves_driveOff k
  have hoff := d.driveOff_halves k
  unfold Dev.precharged at he
  generalize d.driveOff k = a at *
  refine ⟨he ▸ a.drv_setDrv_self .., fun h hh => he ▸ hoff h hh, he ▸ hon.prof, he ▸ hon.host, ?_⟩
  exact he ▸ .mono (hon.touches.andThen (Dev.touches_setDrv ..)) (by decide)

theorem Dev.drv_beginDriveMove (j : Nat) (op : ProfOp) (ph : HomePhase) (d : Dev) :
    (d.beginDriveMove j op ph).drv j = { d.drv j with
      st := if ph = .none then .moving else .homing, homing := ph, phaseStart := d.now, stillStart := none
      next := none } := Dev.drv_setDrv_self ..

theorem Dev.touches_beginDriveMove (j : Nat) (op : ProfOp) (ph : HomePhase) (d : Dev) :
    Dev.Touches [.prof, .aux] d (d.beginDriveMove j op ph) := (d.touches_queueOp op).andThen (Dev.touches_setDrv ..)

/-- A precharge that ends: READY, or the move that waited for it. -/
theorem Dev.prechargeEnd_ended {d : Dev} {k : Nat} (hst : (d.drv k).st = .precharge) (hend : (d.drv k).preEnd ≤ d.now) :
    ((d.drv k).next = none →
      d.prechargeEnd k = (d.precharged k).setDrv k { (d.precharged k).drv k with st := .ready }) ∧
    ∀ op ph, (d.drv k).next = some (op, ph) → d.prechargeEnd k = (d.precharged k).beginDriveMove k op ph := by
  have hgo : ¬ ((d.drv k).st ≠ .precharge ∨ d.now < (d.drv k).preEnd) :=
    not_or.2 ⟨not_not.2 hst, Nat.not_lt.2 hend⟩
  refine ⟨fun hn => (if_neg hgo).trans ?_, fun op ph hn => (if_neg hgo).trans ?_⟩
  · split
    · rename_i h
      cases h.symm.trans hn
    · rfl
  · split
    · rename_i h
      cases h.symm.trans hn
      rfl
    · rename_i h
      cases h.symm.trans hn

section
variable (hst : (s.dev.drv k.val).st = .precharge) (hend : (s.dev.drv k.val).preEnd ≤ s.dev.now)
include hst hend

theorem prechargeEnd_ready (hn : (s.dev.drv k.val).next = none) : Answers (.prechargeEnd k) s fun t =>
    (t.dev.drv k.val).st = .ready ∧ (t.dev.drv k.val).charged = true ∧
    (∀ h ∈ s.dev.driveHalves k.val, (t.dev.half h).want = .none) ∧ ChangesOnly [.aux] s t ∧ Quiet s t := by
  have hrun := (Dev.prechargeEnd_ended (d := s.fresh) hst hend).1 hn
  obtain ⟨a, ha⟩ : ∃ a, a = s.fresh.precharged k.val := ⟨_, rfl⟩
  rw [← ha] at hrun
  obtain ⟨hself, hoff, -, hhost, htouch⟩ := Dev.precharged_spec ha
  have hdrv := a.drv_setDrv_self k.val { a.drv k.val with st := .ready }
  refine ⟨_, exec_of_effect rfl hrun, congrArg AuxDrive.st hdrv, ?_, hoff,
    ((htouch.andThen (a.touches_setDrv ..)).mono (by decide)).keeps.quietly (congrArg HostState.out hhost :)⟩
  exact (congrArg AuxDrive.charged hdrv).trans (congrArg AuxDrive.charged hself)

theorem prechargeEnd_moves (op : ProfOp) (ph : HomePhase) (hn : (s.dev.drv k.val).next = some (op, ph)) :
    Answers (.prechargeEnd k) s fun t => (t.dev.drv k.val).st = (if ph = .none then .moving else .homing) ∧
      t.dev.prof.ops = s.dev.prof.ops ++ [op] ∧ ChangesOnly [.prof, .aux] s t ∧ Quiet s t := by
  have hrun := (Dev.prechargeEnd_ended (d := s.fresh) hst hend).2 op ph hn
  obtain ⟨a, ha⟩ : ∃ a, a = s.fresh.precharged k.val := ⟨_, rfl⟩
  rw [← ha] at hrun
  obtain ⟨-, -, hprof, hhost, htouch⟩ := Dev.precharged_spec ha
  refine ⟨_, exec_of_effect rfl hrun, congrArg AuxDrive.st (Dev.drv_beginDriveMove ..), ?_,
    ((htouch.andThen (Dev.touches_beginDriveMove ..)).mono (by decide)).keeps.quietly (congrArg HostState.out hhost :)⟩
  exact (congrArg (fun p : ProfState => p.ops ++ [op]) hprof :)

end

theorem stillDelayExpire_idle (h : (s.dev.drv k.val).stillStart = none ∨ (s.dev.drv k.val).st ≠ .ready) :
    exec (.stillDelayExpire k) s = .next (s.after s.fresh) := by
  refine exec_idle rfl ?_
  unfold Dev.stillExpire
  dsimp only
  split
  · rename_i t ht
    rcases h with h | h
    · exact absurd (ht.symm.trans h) (by simp)
    · exact if_neg fun hc => h hc.1
  · rfl

/-- A drive at a standstill: its state, and what its half-bridges are asked for. -/
theorem Dev.standstill_spec {d e : Dev} {k : Nat} (he : e = d.standstill k) : (e.drv k).st = .standstill ∧
    (∀ h ∈ d.driveHalves k, (e.half h).want = (if d.drvShort k then .low else .none)) ∧ e.host = d.host ∧
    e.prof = d.prof ∧ Dev.Touches [.aux] d e := by
  obtain ⟨a, ha⟩ : ∃ a, a = (if d.drvShort k then d.driveLow k else d.driveDark k) := ⟨_, rfl⟩
  have hhalves : Dev.OnHalves d a ∧ ∀ h ∈ d.driveHalves k, (a.half h).want = (if d.drvShort k then .low else .none) := by
    rw [ha]
    split
    · exact ⟨d.onHalves_driveLow k, d.driveLow_halves k⟩
    · exact ⟨d.onHalves_driveDark k, fun h hh => ((d.driveDark_halves k).1 h hh).1⟩
  obtain ⟨hon, hwant⟩ := hhalves
  obtain ⟨v, hv, hend⟩ : ∃ v : AuxDrive, v.st = .standstill ∧ e = a.setDrv k v := by
    rw [he, ha]
    exact ⟨_, rfl, rfl⟩
  refine ⟨?_, fun h hh => hend ▸ hwant h hh, hend ▸ hon.host, hend ▸ hon.prof, ?_⟩
  · rw [hend, Dev.drv_setDrv_self, hv]
  · exact hend ▸ .mono (hon.touches.andThen (Dev.touches_setDrv ..)) (by decide)

theorem stillDelayExpire_rests (b : Nat) (hb : (s.dev.drv k.val).stillStart = some b) (hst : (s.dev.drv k.val).st = .ready)
    (hend : b + s.dev.fld (Reg.AUX_DRV_CUR k.val) 7 0 * 10 * msTicks ≤ s.dev.now) :
    Answers (.stillDelayExpire k) s fun t => (t.dev.drv k.val).st = .standstill ∧ (∀ h ∈ s.dev.driveHalves k.val,
        (t.dev.half h).want = (if s.dev.drvShort k.val then .low else .none)) ∧ ChangesOnly [.aux] s t ∧ Quiet s t := by
  obtain ⟨e, he⟩ : ∃ e, e = s.fresh.standstill k.val := ⟨_, rfl⟩
  have hrun : s.fresh.stillExpire k.val = e := by
    unfold Dev.stillExpire
    dsimp only
    rw [show (s.fresh.drv k.val).stillStart = some b from hb, he]
    exact if_pos ⟨hst, hend⟩
  obtain ⟨hdrv, hwant, hhost, -, htouch⟩ := Dev.standstill_spec he
  exact ⟨s.after e, exec_of_effect rfl hrun, hdrv, hwant, htouch.keeps.quietly (congrArg HostState.out hhost :)⟩

end

end Sys2Proof.Machine
end

section
/-! PROOFS. The shunt comparators of the cooling plant drives (R494, R498–R500). -/

namespace Sys2Proof.Machine

open Host

/-! ### The comparators' levels (R494, R498) -/

section
variable {d : Dev} {g k : Nat}

/-- The levels of a drive's group. The definition is opened as a function, for the kernel would otherwise evaluate the coils'
demands. -/
theorem Dev.shuntLevels_of_drive (hg : d.groupDrive g = some k) : d.shuntLevels g =
    some (if d.driveKind k = 1 then
      (((25600 * d.fld (Reg.AUX_GRP g) 6 0 : Nat) : Int), 2 * ((25600 * d.fld (Reg.AUX_GRP g) 6 0 : Nat) : Int))
    else (((if g = k then (d.coilDemands k).1 else (d.coilDemands k).2).natAbs : Int),
      ((51200 * d.fld (Reg.AUX_DRV_CUR k) 31 24 : Nat) : Int))) := by
  obtain ⟨f, hf⟩ : ∃ f, f = @Dev.shuntLevels := ⟨_, rfl⟩
  obtain ⟨demands, hdemands⟩ : ∃ demands, demands = @Dev.coilDemands := ⟨_, rfl⟩
  rw [← hf, ← hdemands]
  delta Dev.shuntLevels at hf
  rw [hf, ← hdemands]
  beta_reduce
  simp only [hg]
  split <;> rfl

theorem Dev.shuntLevels_none (hg : d.groupDrive g = none) : d.shuntLevels g = none := by
  obtain ⟨f, hf⟩ : ∃ f, f = @Dev.shuntLevels := ⟨_, rfl⟩
  obtain ⟨demands, hdemands⟩ : ∃ demands, demands = @Dev.coilDemands := ⟨_, rfl⟩
  rw [← hf]
  delta Dev.shuntLevels at hf
  rw [hf, ← hdemands]
  beta_reduce
  rw [hg]

theorem Dev.crosses_of_levels {uv : Int} {l : Int × Int} (h : d.shuntLevels g = some l) :
    d.crossesSet g uv = aboveLevel uv l.1 ∧ d.crossesHard g uv = aboveLevel uv l.2 := by
  unfold Dev.crossesSet Dev.crossesHard
  rw [h]
  exact ⟨rfl, rfl⟩

theorem Dev.crosses_bldc (uv : Int) (hg : d.groupDrive g = some k) (hk : d.driveKind k = 1) :
    d.crossesSet g uv = decide (2000 * (d.fld (Reg.AUX_GRP g) 6 0 : Int) < uv) ∧
    d.crossesHard g uv = decide (4000 * (d.fld (Reg.AUX_GRP g) 6 0 : Int) < uv) := by
  have hl := Dev.shuntLevels_of_drive hg
  rw [if_pos hk] at hl
  obtain ⟨hset, hhard⟩ := Dev.crosses_of_levels (uv := uv) hl
  rw [hset, hhard]
  unfold aboveLevel
  generalize d.fld (Reg.AUX_GRP g) 6 0 = sc
  refine ⟨decide_eq_decide.2 ?_, decide_eq_decide.2 ?_⟩ <;> push_cast <;> omega

theorem Dev.crosses_stepper (uv : Int) (hg : d.groupDrive g = some k) (hk : d.driveKind k ≠ 1) :
    d.crossesHard g uv = decide (4000 * (d.fld (Reg.AUX_DRV_CUR k) 31 24 : Int) < uv) ∧
    d.crossesSet g uv = decide
      (5 * ((if g = k then (d.coilDemands k).1 else (d.coilDemands k).2).natAbs : Int) < 64 * uv) := by
  have hl := Dev.shuntLevels_of_drive hg
  rw [if_neg hk] at hl
  obtain ⟨hset, hhard⟩ := Dev.crosses_of_levels (uv := uv) hl
  rw [hset, hhard]
  unfold aboveLevel
  generalize (if g = k then (d.coilDemands k).1 else (d.coilDemands k).2).natAbs = i
  generalize d.fld (Reg.AUX_DRV_CUR k) 31 24 = run
  refine ⟨decide_eq_decide.2 ?_, decide_eq_decide.2 ?_⟩ <;> push_cast <;> omega

end

theorem State.fresh_shuntLevels (s : State) (g : Nat) : s.fresh.shuntLevels g = s.dev.shuntLevels g := by
  rcases hg : s.dev.groupDrive g with _ | k
  · exact (Dev.shuntLevels_none (d := s.fresh) hg).trans (Dev.shuntLevels_none hg).symm
  · have hfresh := Dev.shuntLevels_of_drive (d := s.fresh) hg
    rw [s.fresh_coilDemands] at hfresh
    exact hfresh.trans (Dev.shuntLevels_of_drive hg).symm

theorem State.fresh_crossesSet (s : State) (g : Nat) (uv : Int) : s.fresh.crossesSet g uv = s.dev.crossesSet g uv := by
  unfold Dev.crossesSet
  rw [s.fresh_shuntLevels]

theorem State.fresh_crossesHard (s : State) (g : Nat) (uv : Int) :
    s.fresh.crossesHard g uv = s.dev.crossesHard g uv := by
  unfold Dev.crossesHard
  rw [s.fresh_shuntLevels]

/-! ### A crossing that acts (R500) -/

/-- A group that its comparator has turned off. -/
def Dev.ocNoted (g : Nat) (d : Dev) : Dev := d.onAux fun a => { a with oc := a.oc ||| 2 ^ g }

theorem Dev.bitAt_ocNoted (g : Nat) (d : Dev) : bitAt (d.ocNoted g).aux.oc g = true := by
  show bitAt (d.aux.oc ||| 2 ^ g) g = true
  rw [bitAt_or, bitAt_two_pow, decide_eq_true rfl, Bool.or_true]

section
variable {d : Dev} {g k : Nat}

theorem Dev.overcurrent_faults (hst : (d.drv k).st ≠ .fault) : d.overcurrent g k = (d.ocNoted g).faultOf g k 3 := if_pos hst

theorem Dev.overcurrent_again (hst : (d.drv k).st = .fault) (hf : (d.drv k).fault = 3) (ht : (d.drv k).faultTick = d.now)
    (hoc : bitAt d.aux.oc g = false) : d.overcurrent g k = (d.ocNoted g).event 17 0 g 0 0 :=
  (if_neg (not_not.2 hst)).trans (if_pos ⟨hf, ht, hoc⟩)

/-- A group that its comparator turns off: its drive is in FAULT. -/
theorem Dev.ocFault_spec {e : Dev} (he : e = (d.ocNoted g).faultOf g k 3) : (e.drv k).st = .fault ∧ (e.drv k).fault = 3 ∧
    bitAt e.aux.oc g = true ∧ e.grp g = d.grp g ∧ Dev.Touches [.prof, .aux, .events, .reports] d e := by
  have hbit := d.bitAt_ocNoted g
  have hgrp : (d.ocNoted g).grp g = d.grp g := rfl
  have hset : Dev.Touches [.aux] d (d.ocNoted g) := d.touches_onAux _
  generalize d.ocNoted g = a at *
  obtain ⟨hself, -, -, -, hrest, -, htouch⟩ := Dev.faultOf_spec he
  refine ⟨congrArg AuxDrive.st hself, congrArg AuxDrive.fault hself, ?_, ?_, (hset.andThen htouch).mono (by decide)⟩
  · exact (congrArg (fun a : AuxState => bitAt a.oc g) hrest).trans hbit
  · exact (congrArg (fun a : AuxState => a.groups.get AuxGroup.reset g) hrest).trans hgrp

/-- A crossing that turns the group off. -/
theorem Dev.crossing_faults {hard : Bool} (hg : d.groupDrive g = some k) (hf : (d.drv k).st ≠ .fault)
    (ho : (d.drv k).st ≠ .off) (h : hard = true ∨ d.driveKind k = 1) :
    d.crossing g hard = (d.ocNoted g).faultOf g k 3 := by
  unfold Dev.crossing
  rw [hg]
  exact (if_neg ho).trans ((if_pos h).trans (Dev.overcurrent_faults hf))

theorem Dev.crossing_again (hg : d.groupDrive g = some k) (hst : (d.drv k).st = .fault) (hf : (d.drv k).fault = 3)
    (ht : (d.drv k).faultTick = d.now) (hoc : bitAt d.aux.oc g = false) :
    d.crossing g true = (d.ocNoted g).event 17 0 g 0 0 := by
  have ho : ¬ (d.drv k).st = .off := fun h => DriveState.noConfusion (hst.symm.trans h)
  unfold Dev.crossing
  rw [hg]
  exact (if_neg ho).trans ((if_pos (.inl rfl)).trans (Dev.overcurrent_again hst hf ht hoc))

/-- The coil on a group is chopped. -/
def Dev.chopped (g : Nat) (d : Dev) : Dev :=
  ((d.setGrp g { d.grp g with chop := true }).ask (3 * g) .low none).ask (3 * g + 1) .low none

theorem Dev.chopped_spec {e : Dev} (he : e = d.chopped g) : (e.grp g).chop = true ∧ (e.half (3 * g)).want = .low ∧
    (e.half (3 * g + 1)).want = .low ∧ e.host = d.host ∧ Dev.Touches [.aux] d e := by
  obtain ⟨a, ha⟩ : ∃ a, a = d.setGrp g { d.grp g with chop := true } := ⟨_, rfl⟩
  obtain ⟨b, hb⟩ : ∃ b, b = a.ask (3 * g) .low none := ⟨_, rfl⟩
  have hend : e = b.ask (3 * g + 1) .low none := by
    rw [he, hb, ha]
    rfl
  have hon : Dev.OnHalves a e := (hb ▸ a.onHalves_ask ..).trans (hend ▸ b.onHalves_ask ..)
  have hset : Dev.Touches [.aux] d a := ha ▸ d.touches_setGrp ..
  refine ⟨?_, ?_, hend ▸ b.half_ask_self .., hon.host.trans (ha ▸ rfl), (hset.andThen hon.touches).mono (by decide)⟩
  · rw [hon.grp, ha, Dev.grp_setGrp_self]
  · rw [hend, b.half_ask_of_ne (by omega), hb, a.half_ask_self]

section
variable (hg : d.groupDrive g = some k) (hk : d.driveKind k ≠ 1)
include hg hk

theorem Dev.crossing_rests (hst : (d.drv k).st = .precharge ∨ (d.drv k).st = .standstill) : d.crossing g false = d := by
  have hact : ¬ (false = true ∨ d.driveKind k = 1) := by simp [hk]
  unfold Dev.crossing
  rw [hg]
  rcases hst with h | h <;> simp only [h, if_neg hact] <;> rfl

theorem Dev.crossing_chops (hst : (d.drv k).st = .ready ∨ (d.drv k).st = .moving ∨ (d.drv k).st = .homing) :
    d.crossing g false = d.chopped g := by
  have hact : ¬ (false = true ∨ d.driveKind k = 1) := by simp [hk]
  unfold Dev.crossing
  rw [hg]
  rcases hst with h | h | h <;> simp only [h, if_neg hact] <;> rfl

end

end

/-! ### The rows -/

/-! #### SHUNT_CROSSING's effect by the levels that are crossed -/

section
variable {s : State} {g : Nat} {uv : Int}

theorem State.shuntCrossing_hard (hh : s.dev.crossesHard g uv = true) :
    s.fresh.shuntCrossing g uv = s.fresh.crossing g true := if_pos ((s.fresh_crossesHard ..).trans hh)

section
variable (hh : s.dev.crossesHard g uv = false)
include hh

theorem State.shuntCrossing_soft : s.fresh.shuntCrossing g uv = if (!s.dev.crossesSet g uv) = true then s.fresh
    else if s.fresh.auxBlank g = true then s.fresh.setGrp g { s.fresh.grp g with seen := true }
    else s.fresh.crossing g false := by
  have hno : ¬ s.fresh.crossesHard g uv = true := Bool.eq_false_iff.1 ((s.fresh_crossesHard ..).trans hh)
  rw [← s.fresh_crossesSet]
  exact if_neg hno

theorem State.shuntCrossing_below (hs : s.dev.crossesSet g uv = false) : s.fresh.shuntCrossing g uv = s.fresh :=
  (State.shuntCrossing_soft hh).trans (if_pos (congrArg Bool.not hs))

variable (hs : s.dev.crossesSet g uv = true)
include hs

theorem State.shuntCrossing_blanked (hb : s.dev.auxBlank g = true) :
    s.fresh.shuntCrossing g uv = s.fresh.setGrp g { s.fresh.grp g with seen := true } :=
  (State.shuntCrossing_soft hh).trans ((if_neg (by simp [hs])).trans (if_pos hb))

theorem State.shuntCrossing_acts (hb : s.dev.auxBlank g = false) :
    s.fresh.shuntCrossing g uv = s.fresh.crossing g false :=
  (State.shuntCrossing_soft hh).trans ((if_neg (by simp [hs])).trans (if_neg (Bool.eq_false_iff.1 hb)))

end

end

/-! #### The row -/

section
variable {g : Fin 4} {uv : Int} {s : State}

theorem shuntCrossing_below (hh : s.dev.crossesHard g.val uv = false) (hs : s.dev.crossesSet g.val uv = false) :
    exec (.shuntCrossing g uv) s = .next (s.after s.fresh) :=
  exec_idle rfl (State.shuntCrossing_below hh hs)

theorem shuntCrossing_blanked (hh : s.dev.crossesHard g.val uv = false) (hs : s.dev.crossesSet g.val uv = true)
    (hb : s.dev.auxBlank g.val = true) : Answers (.shuntCrossing g uv) s fun t =>
      t.dev.grp g.val = { s.dev.grp g.val with seen := true } ∧ ChangesOnly [.aux] s t ∧ Quiet s t :=
  ⟨_, exec_of_effect rfl (State.shuntCrossing_blanked hh hs hb),
    s.fresh.grp_setGrp_self .., (s.fresh.touches_setGrp ..).keeps.quietly rfl⟩

variable {k : Nat} (hg : s.dev.groupDrive g.val = some k)
include hg

theorem shuntCrossing_again (hh : s.dev.crossesHard g.val uv = true) (hst : (s.dev.drv k).st = .fault)
    (hf : (s.dev.drv k).fault = 3) (ht : (s.dev.drv k).faultTick = s.dev.now) (hoc : bitAt s.dev.aux.oc g.val = false) :
    Answers (.shuntCrossing g uv) s fun t =>
      bitAt t.dev.aux.oc g.val = true ∧ t.dev.drv k = s.dev.drv k ∧ t.dev.stands Reg.AUX_EVENT 1 ∧
      ChangesOnly [.aux, .events, .reports] s t := by
  have hrun := (State.shuntCrossing_hard hh).trans
    (Dev.crossing_again (d := s.fresh) hg hst hf ht hoc)
  have hbit := s.fresh.bitAt_ocNoted g.val
  have hdrv : (s.fresh.ocNoted g.val).drv k = s.dev.drv k := rfl
  have hset : Dev.Touches [.aux] s.fresh (s.fresh.ocNoted g.val) := s.fresh.touches_onAux _
  generalize s.fresh.ocNoted g.val = a at *
  have haux := a.event_aux 17 0 g.val 0 0
  refine ⟨_, exec_of_effect rfl hrun, ?_, ?_, a.event_stands 17 0 ..,
    .of_after ((hset.andThen (a.touches_event ..)).mono (by decide)).keeps⟩
  · exact (congrArg (fun a : AuxState => bitAt a.oc g.val) haux).trans hbit
  · exact (congrArg (fun a : AuxState => a.drives.get AuxDrive.reset k) haux).trans hdrv

section
variable (hf : (s.dev.drv k).st ≠ .fault) (ho : (s.dev.drv k).st ≠ .off)
include hf ho

theorem shuntCrossing_faults (h : s.dev.crossesHard g.val uv = true ∨
      (s.dev.driveKind k = 1 ∧ s.dev.crossesSet g.val uv = true ∧ s.dev.auxBlank g.val = false)) :
    Answers (.shuntCrossing g uv) s fun t =>
      (t.dev.drv k).st = .fault ∧ (t.dev.drv k).fault = 3 ∧ bitAt t.dev.aux.oc g.val = true ∧
      ChangesOnly [.prof, .aux, .events, .reports] s t := by
  have hrun : s.fresh.shuntCrossing g.val uv = (s.fresh.ocNoted g.val).faultOf g.val k 3 := by
    by_cases hh : s.dev.crossesHard g.val uv = true
    · exact (State.shuntCrossing_hard hh).trans
        (Dev.crossing_faults (d := s.fresh) hg hf ho (.inl rfl))
    · obtain ⟨hk, hs, hb⟩ := h.resolve_left hh
      exact (State.shuntCrossing_acts (Bool.eq_false_iff.2 hh) hs hb).trans
        (Dev.crossing_faults (d := s.fresh) hg hf ho (.inr hk))
  obtain ⟨e, he⟩ : ∃ e, e = (s.fresh.ocNoted g.val).faultOf g.val k 3 := ⟨_, rfl⟩
  obtain ⟨hst, hcode, hbit, -, htouch⟩ := Dev.ocFault_spec he
  exact ⟨s.after e, exec_of_effect rfl (hrun.trans he.symm), hst, hcode, hbit, .of_after htouch.keeps⟩

end

section
variable (hh : s.dev.crossesHard g.val uv = false) (hs : s.dev.crossesSet g.val uv = true) (hk : s.dev.driveKind k ≠ 1)
  (hb : s.dev.auxBlank g.val = false)
include hh hs hk hb

theorem shuntCrossing_rests (hst : (s.dev.drv k).st = .precharge ∨ (s.dev.drv k).st = .standstill) :
    exec (.shuntCrossing g uv) s = .next (s.after s.fresh) :=
  exec_idle rfl ((State.shuntCrossing_acts hh hs hb).trans
    (Dev.crossing_rests (d := s.fresh) hg hk hst))

theorem shuntCrossing_chops (hst : (s.dev.drv k).st = .ready ∨ (s.dev.drv k).st = .moving ∨ (s.dev.drv k).st = .homing) :
    Answers (.shuntCrossing g uv) s fun t => (t.dev.grp g.val).chop = true ∧ (t.dev.half (3 * g.val)).want = .low ∧
      (t.dev.half (3 * g.val + 1)).want = .low ∧ ChangesOnly [.aux] s t ∧ Quiet s t := by
  have hrun := (State.shuntCrossing_acts hh hs hb).trans
    (Dev.crossing_chops (d := s.fresh) hg hk hst)
  obtain ⟨e, he⟩ : ∃ e, e = s.fresh.chopped g.val := ⟨_, rfl⟩
  obtain ⟨hchop, hhi, hlo, hhost, htouch⟩ := Dev.chopped_spec he
  exact ⟨s.after e, exec_of_effect rfl (hrun.trans he.symm), hchop, hhi, hlo,
    htouch.keeps.quietly (congrArg HostState.out hhost :)⟩

end

end

/-! ### The end of blanking (R499) -/

/-- A blanked crossing has been judged. -/
def Dev.blankJudged (g : Nat) (present : Bool) (d : Dev) : Dev :=
  d.setGrp g { d.grp g with
    seen := false, blanked := if present then (d.grp g).blanked else satInc (d.grp g).blanked }

theorem Dev.grp_blankJudged (g : Nat) (present : Bool) (d : Dev) : (d.blankJudged g present).grp g = { d.grp g with
    seen := false, blanked := if present then (d.grp g).blanked else satInc (d.grp g).blanked } := d.grp_setGrp_self ..

theorem Dev.auxBlankEnd_judges {d : Dev} {g : Nat} {uv : Int} (hs : (d.grp g).seen = true) (hb : d.auxBlank g = false) :
    (d.crossesSet g uv = false → d.auxBlankEnd g uv = (d.blankJudged g false).event 17 3 g 0 0) ∧
    (d.crossesSet g uv = true → d.auxBlankEnd g uv = (d.blankJudged g true).crossing g false) := by
  have hgo : ¬ ((d.grp g).seen = false ∨ d.auxBlank g = true) := by simp [hs, hb]
  unfold Dev.auxBlankEnd
  extract_lets x present a
  rw [if_neg hgo]
  refine ⟨fun h => ?_, fun h => ?_⟩ <;> simp only [a, present, h] <;> rfl

section
variable {g : Fin 4} {uv : Int} {s : State}

theorem auxBlankEnd_idle (h : (s.dev.grp g.val).seen = false ∨ s.dev.auxBlank g.val = true) :
    exec (.auxBlankEnd g uv) s = .next (s.after s.fresh) := exec_idle rfl (if_pos h)

variable (hs : (s.dev.grp g.val).seen = true) (hb : s.dev.auxBlank g.val = false)
include hs hb

theorem auxBlankEnd_counts (h : s.dev.crossesSet g.val uv = false) :
    Answers (.auxBlankEnd g uv) s fun t => (t.dev.grp g.val).seen = false ∧
      (t.dev.grp g.val).blanked = satInc (s.dev.grp g.val).blanked ∧ t.dev.stands Reg.AUX_EVENT 8 ∧
      ChangesOnly [.aux, .events, .reports] s t := by
  have hrun := (Dev.auxBlankEnd_judges (d := s.fresh) hs hb).1 ((s.fresh_crossesSet ..).trans h)
  have hgrp := s.fresh.grp_blankJudged g.val false
  have hset : Dev.Touches [.aux] s.fresh (s.fresh.blankJudged g.val false) := s.fresh.touches_setGrp ..
  generalize s.fresh.blankJudged g.val false = a at *
  have hgrp' : (a.event 17 3 g.val 0 0).grp g.val = a.grp g.val :=
    congrArg (fun x : AuxState => x.groups.get AuxGroup.reset g.val) (a.event_aux 17 3 g.val 0 0)
  have hend := hgrp'.trans hgrp
  exact ⟨_, exec_of_effect rfl hrun, congrArg AuxGroup.seen hend, congrArg AuxGroup.blanked hend, a.event_stands 17 3 ..,
    .of_after ((hset.andThen (a.touches_event ..)).mono (by decide)).keeps⟩

theorem auxBlankEnd_faults (k : Nat) (h : s.dev.crossesSet g.val uv = true) (hg : s.dev.groupDrive g.val = some k)
    (hk : s.dev.driveKind k = 1) (hf : (s.dev.drv k).st ≠ .fault) (ho : (s.dev.drv k).st ≠ .off) :
    Answers (.auxBlankEnd g uv) s fun t => (t.dev.grp g.val).seen = false ∧ (t.dev.drv k).st = .fault ∧
      (t.dev.drv k).fault = 3 ∧ ChangesOnly [.prof, .aux, .events, .reports] s t := by
  have hrun := (Dev.auxBlankEnd_judges (d := s.fresh) hs hb).2 ((s.fresh_crossesSet ..).trans h)
  have hact : (s.fresh.blankJudged g.val true).crossing g.val false =
      ((s.fresh.blankJudged g.val true).ocNoted g.val).faultOf g.val k 3 :=
    Dev.crossing_faults (d := s.fresh.blankJudged g.val true) hg hf ho (.inr hk)
  have hgrp := s.fresh.grp_blankJudged g.val true
  have hset : Dev.Touches [.aux] s.fresh (s.fresh.blankJudged g.val true) := s.fresh.touches_setGrp ..
  rw [hact] at hrun
  generalize s.fresh.blankJudged g.val true = a at *
  obtain ⟨e, he⟩ : ∃ e, e = (a.ocNoted g.val).faultOf g.val k 3 := ⟨_, rfl⟩
  obtain ⟨hst, hcode, -, hgrp', htouch⟩ := Dev.ocFault_spec he
  exact ⟨s.after e, exec_of_effect rfl (hrun.trans he.symm), congrArg AuxGroup.seen (hgrp'.trans hgrp), hst, hcode,
    .of_after ((hset.andThen htouch).mono (by decide)).keeps⟩

end

end Sys2Proof.Machine
end

section
/-! PROOFS. Limit inputs and a low gate supply of the cooling plant drives, and the rows of the drives together (R497, R503,
R504). -/

namespace Sys2Proof.Machine

open Host

/-! ### An edge of a limit input (R496, R497) -/

/-- What an operation on drive j keeps: the other drives, their channels and the limit inputs. -/
structure Dev.OnDrive (j : Nat) (a d : Dev) : Prop where
  drives : ∀ k, k ≠ j → d.drv k = a.drv k
  chans : ∀ c, c ≠ 8 + j → d.prf c = a.prf c
  limits : d.aux.limits = a.aux.limits
  touches : Dev.Touches [.prof, .aux, .events, .reports] a d

namespace Dev.OnDrive

variable {a d e : Dev} {j : Nat}

theorem refl : Dev.OnDrive j d d := ⟨fun _ _ => rfl, fun _ _ => rfl, rfl, .mono .refl (by decide)⟩

theorem trans (h : Dev.OnDrive j a d) (h' : Dev.OnDrive j d e) : Dev.OnDrive j a e where
  drives k hk := (h'.drives k hk).trans (h.drives k hk)
  chans c hc := (h'.chans c hc).trans (h.chans c hc)
  limits := h'.limits.trans h.limits
  touches := (h.touches.andThen h'.touches).mono (by decide)

theorem haltDrive (j : Nat) (d : Dev) : Dev.OnDrive j d (d.haltDrive j) := by
  obtain ⟨haux, hprf, -, htouch⟩ := d.haltDrive_spec j
  exact ⟨fun k _ => congrArg (fun a : AuxState => a.drives.get AuxDrive.reset k) haux, hprf,
    congrArg AuxState.limits haux, htouch.mono (by decide)⟩

theorem setDrv (v : AuxDrive) (d : Dev) : Dev.OnDrive j d (d.setDrv j v) :=
  ⟨fun _ hk => d.drv_setDrv_of_ne _ hk, fun _ _ => rfl, rfl, (d.touches_setDrv ..).mono (by decide)⟩

theorem setPrf (v : ProfChan) (d : Dev) : Dev.OnDrive j d (d.setPrf (8 + j) v) :=
  ⟨fun _ _ => rfl, fun _ hc => Dev.prf_setPrf_of_ne _ _ hc.symm, rfl, (d.touches_setPrf ..).mono (by decide)⟩

theorem event (bit d0 d1 d2 : Nat) (d : Dev) : Dev.OnDrive j d (d.event 17 bit d0 d1 d2) where
  drives k _ := congrArg (fun a : AuxState => a.drives.get AuxDrive.reset k) (d.event_aux ..)
  chans c _ := congrArg (fun p : ProfState => p.chans.get ProfChan.reset c) (d.event_prof ..)
  limits := congrArg AuxState.limits (d.event_aux ..)
  touches := (d.touches_event ..).mono (by decide)

/-- A phase of referencing ends at its edge: the drive halts. -/
theorem phaseEnds (p : HomePhase) (d : Dev) :
    Dev.OnDrive j d ((d.haltDrive j).setDrv j { d.drv j with homing := p }) := (haltDrive j d).trans (setDrv ..)

theorem limitEdge (i : Nat) (lv : Bool) (j : Nat) (d : Dev) : Dev.OnDrive j d (d.limitEdge i lv j) := by
  unfold Dev.limitEdge
  extract_lets x c ends mine
  split
  · split
    · exact phaseEnds ..
    · exact refl
  · split
    · exact phaseEnds ..
    · exact refl
  · split
    · exact (setPrf ..).trans (phaseEnds ..)
    · exact refl
  · split
    · exact (haltDrive j d).trans (event ..)
    · exact refl
  · exact refl

end Dev.OnDrive

section
variable {d : Dev} {i k : Nat}

/-- A moving drive whose limit in its direction becomes active halts. -/
theorem Dev.limitEdge_halts (hst : (d.drv k).st = .moving) (hseg : (d.prf (8 + k)).seg ≠ .idle)
    (hl : d.limitOf k (!(d.prf (8 + k)).neg) = some i) : d.limitEdge i true k = (d.haltDrive k).event 17 1 k 0 0 := by
  unfold Dev.limitEdge
  extract_lets x c ends mine
  split
  · cases hst.symm.trans ‹x.st = _›
  · cases hst.symm.trans ‹x.st = _›
  · cases hst.symm.trans ‹x.st = _›
  · exact if_pos ⟨rfl, hseg, hl⟩
  · exact (‹x.st = .moving → False› hst).elim

/-- Edges on other drives. -/
theorem Dev.foldl_limitEdge_others (i : Nat) (lv : Bool) {js : List Nat} (hk : k ∉ js) (d : Dev) :
    (js.foldl (Dev.limitEdge i lv) d).drv k = d.drv k ∧
    (js.foldl (Dev.limitEdge i lv) d).prf (8 + k) = d.prf (8 + k) := by
  induction js generalizing d with
  | nil => exact ⟨rfl, rfl⟩
  | cons j js ih =>
    obtain ⟨hne, hrest⟩ := not_or.1 (List.mem_cons.not.1 hk)
    obtain ⟨hdrv, hprf⟩ := ih hrest (d.limitEdge i lv j)
    have hon := Dev.OnDrive.limitEdge i lv j d
    exact ⟨hdrv.trans (hon.drives k hne), hprf.trans (hon.chans _ (by omega))⟩

theorem Dev.touches_foldl_limitEdge (i : Nat) (lv : Bool) (js : List Nat) (d : Dev) :
    Dev.Touches [.prof, .aux, .events, .reports] d (js.foldl (Dev.limitEdge i lv) d) :=
  .foldl (fun d j => (Dev.OnDrive.limitEdge i lv j d).touches) _ _

theorem Dev.foldl_limitEdge_limits (i : Nat) (lv : Bool) (js : List Nat) (d : Dev) :
    (js.foldl (Dev.limitEdge i lv) d).aux.limits = d.aux.limits :=
  Dev.foldl_same (part := fun d => d.aux.limits) (fun d j => (Dev.OnDrive.limitEdge i lv j d).limits) ..

theorem Dev.Touches.limitOf {ps : List Part} {a d : Dev} (h : Dev.Touches ps a d) (hp : .values ∉ ps) (k : Nat)
    (pos : Bool) : d.limitOf k pos = a.limitOf k pos := by
  unfold Dev.limitOf Dev.drvFld Dev.fld
  rw [h.cfg _ hp]

/-- Each drive that moves towards the limit has halted when every drive has seen the edge. -/
theorem Dev.foldl_limitEdge_halts {js : List Nat} (hn : js.Nodup) (hk : k ∈ js) (hst : (d.drv k).st = .moving)
    (hseg : (d.prf (8 + k)).seg ≠ .idle) (hl : d.limitOf k (!(d.prf (8 + k)).neg) = some i) :
    ((js.foldl (Dev.limitEdge i true) d).prf (8 + k)).halting = true ∧
    (js.foldl (Dev.limitEdge i true) d).stands Reg.AUX_EVENT 2 := by
  obtain ⟨before, rest, rfl⟩ := List.append_of_mem hk
  obtain ⟨hrest, hbefore⟩ := List.nodup_cons.1 (List.nodup_middle.1 hn)
  obtain ⟨hkr, hkb⟩ : k ∉ rest ∧ k ∉ before := by simp_all
  rw [List.foldl_append, List.foldl_cons]
  obtain ⟨hdrv, hprf⟩ := Dev.foldl_limitEdge_others i true hkb d
  have hlim := (Dev.touches_foldl_limitEdge i true before d).limitOf (by decide) k
  generalize before.foldl (Dev.limitEdge i true) d = a at *
  rw [Dev.limitEdge_halts (hdrv ▸ hst) (hprf ▸ hseg) (by rw [hlim, hprf, hl])]
  obtain ⟨-, -, hhalt, -⟩ := a.haltDrive_spec k
  replace hhalt := hhalt (hprf ▸ hseg)
  generalize a.haltDrive k = b at *
  obtain ⟨-, hprf'⟩ := Dev.foldl_limitEdge_others i true hkr (b.event 17 1 k 0 0)
  refine ⟨?_, (Dev.touches_foldl_limitEdge i true rest _).grows _ _ (b.event_stands 17 1 ..)⟩
  rw [hprf']
  exact (congrArg (fun p : ProfState => (p.chans.get ProfChan.reset (8 + k)).halting) (b.event_prof ..)).trans hhalt

end

theorem bitAt_add_two_pow {v n : Nat} (h : bitAt v n = false) : bitAt (v + 2 ^ n) n = true := by
  rw [bitAt_eq_testBit] at *
  rw [Nat.add_comm, Nat.testBit_two_pow_add_eq, h]
  rfl

/-- The level of a limit input is taken. -/
def Dev.limitTaken (i : Nat) (lv : Bool) (d : Dev) : Dev :=
  d.onAux fun a => { a with limits := if lv then a.limits + 2 ^ i else a.limits - 2 ^ i }

theorem Dev.bitAt_limitTaken {d : Dev} {i : Nat} {lv : Bool} (h : bitAt d.aux.limits i = !lv) :
    bitAt (d.limitTaken i lv).aux.limits i = lv := by
  cases lv with
  | true => exact bitAt_add_two_pow h
  | false => exact bitAt_sub_two_pow h

/-- The drives that exist. -/
def Dev.drivesInUse (d : Dev) : List Nat := (upto 4).filter fun k => decide (d.driveKind k ≠ 0)

theorem limitInputEdge_idle {i : Fin 8} {lv : Bool} {s : State} (h : bitAt s.dev.aux.limits i.val = lv) :
    exec (.limitInputEdge i lv) s = .next (s.after s.fresh) := exec_idle rfl (if_pos h)

theorem limitInputEdge_halts {i : Fin 8} {lv : Bool} {s : State} (h : bitAt s.dev.aux.limits i.val = !lv) :
    Answers (.limitInputEdge i lv) s fun t =>
    bitAt t.dev.aux.limits i.val = lv ∧
    (∀ k < 4, lv = true → s.dev.driveKind k ≠ 0 → (s.dev.drv k).st = .moving → (s.dev.prf (8 + k)).seg ≠ .idle →
      s.dev.limitOf k (!(s.dev.prf (8 + k)).neg) = some i.val →
      (t.dev.prf (8 + k)).halting = true ∧ t.dev.stands Reg.AUX_EVENT 2) ∧
    ChangesOnly [.prof, .aux, .events, .reports] s t := by
  obtain ⟨a, ha⟩ : ∃ a, a = s.fresh.limitTaken i.val lv := ⟨_, rfl⟩
  have hgo : ¬ bitAt s.fresh.aux.limits i.val = lv := by
    show ¬ bitAt s.dev.aux.limits i.val = lv
    simp [h]
  have hrun : s.fresh.limitInput i.val lv = s.fresh.drivesInUse.foldl (Dev.limitEdge i.val lv) a := by
    rw [ha]
    exact if_neg hgo
  have hset : Dev.Touches [.aux] s.fresh a := ha ▸ s.fresh.touches_onAux _
  have hlevel : bitAt a.aux.limits i.val = lv := by
    rw [ha]
    exact Dev.bitAt_limitTaken (d := s.fresh) h
  have hdrv (k : Nat) : a.drv k = s.dev.drv k := by
    rw [ha]
    rfl
  have hprf (k : Nat) : a.prf (8 + k) = s.dev.prf (8 + k) := by
    rw [ha]
    rfl
  refine ⟨_, exec_of_effect rfl hrun, ?_, fun k hk4 hlv hk hst hseg hl => ?_,
    .of_after ((hset.andThen (Dev.touches_foldl_limitEdge ..)).mono (by decide)).keeps⟩
  · exact (congrArg (fun m => bitAt m i.val) (Dev.foldl_limitEdge_limits ..)).trans hlevel
  · subst hlv
    have hmem : k ∈ s.fresh.drivesInUse := List.mem_filter.2 ⟨List.mem_range.2 hk4, decide_eq_true hk⟩
    have hl' : a.limitOf k (!(a.prf (8 + k)).neg) = some i.val := by
      rw [hset.limitOf (by decide), hprf]
      exact hl
    exact Dev.foldl_limitEdge_halts (List.nodup_range.filter _) hmem ((hdrv k).symm ▸ hst) ((hprf k).symm ▸ hseg) hl'

/-! ### A low gate supply (R504) -/

/-- Every half-bridge is turned off. -/
def Dev.allDark (d : Dev) : Dev := (upto 12).foldl Dev.halfDark d

/-- The enabled drives. -/
def Dev.drivesEnabled (d : Dev) : List Nat := (upto 4).filter fun k => d.drvEn k && decide (d.driveKind k ≠ 0)

theorem Dev.half_auxFault_dark {k code h : Nat} {d : Dev} (hh : halfIsDark (d.half h)) :
    halfIsDark ((d.auxFault k code).half h) := by
  obtain ⟨-, -, hdark, hlit, -⟩ := Dev.faultOf_spec (e := d.auxFault k code) (what := k) rfl
  by_cases hin : h ∈ d.driveHalves k
  · exact hdark h hin
  · exact (hlit h hin).symm ▸ hh

/-- A drive in FAULT with a code. -/
def Dev.inFault (k code : Nat) (d : Dev) : Prop := (d.drv k).st = .fault ∧ (d.drv k).fault = code

theorem Dev.inFault_auxFault (k code : Nat) (d : Dev) : Dev.inFault k code (d.auxFault k code) := by
  obtain ⟨hst, hcode, -⟩ := Dev.auxFault_faults k code d
  exact ⟨hst, hcode⟩

theorem Dev.inFault_auxFault_of {k code : Nat} {d : Dev} (j : Nat) (h : Dev.inFault k code d) :
    Dev.inFault k code (d.auxFault j code) := by
  by_cases hj : j = k
  · subst hj
    exact d.inFault_auxFault j code
  · obtain ⟨-, -, -, hother, -⟩ := Dev.auxFault_faults j code d
    unfold Dev.inFault at *
    rw [hother k (Ne.symm hj)]
    exact h

theorem Dev.inFault_foldl_auxFault (code : Nat) {ks : List Nat} {k : Nat} (hk : k ∈ ks) (d : Dev) :
    Dev.inFault k code (ks.foldl (fun d k => d.auxFault k code) d) :=
  Dev.foldl_reaches (P := Dev.inFault k code) (fun _ j => Dev.inFault_auxFault_of j) (Dev.inFault_auxFault k code) hk d

theorem Dev.touches_foldl_auxFault (code : Nat) (ks : List Nat) (d : Dev) :
    Dev.Touches [.prof, .aux, .events, .reports] d (ks.foldl (fun d k => d.auxFault k code) d) := by
  refine .foldl (fun d k => ?_) _ _
  obtain ⟨-, -, -, -, -, -, htouch⟩ := Dev.faultOf_spec (e := d.auxFault k code) (what := k) rfl
  exact htouch

theorem vgdLow_faults (s : State) : Answers .vgdLow s fun t =>
    (∀ h < 12, (t.dev.half h).want = .none ∧ (t.dev.half h).refresh = none) ∧
    (∀ k < 4, s.dev.drvEn k = true → s.dev.driveKind k ≠ 0 →
      (t.dev.drv k).st = .fault ∧ (t.dev.drv k).fault = 7) ∧ ChangesOnly [.prof, .aux, .events, .reports] s t := by
  have hdark := (Dev.foldl_halves (d := s.fresh) (fun d h => d.half_halfDark_self h)
    (fun d _ _ => d.half_halfDark_of_ne) (upto 12)).1
  have hon : Dev.OnHalves s.fresh s.fresh.allDark := .foldl (fun d h => d.onHalves_halfDark h) _ _
  have hrun : s.fresh.vgdLow = s.fresh.allDark.drivesEnabled.foldl (fun d k => d.auxFault k 7) s.fresh.allDark := rfl
  change ∀ h ∈ upto 12, halfIsDark (s.fresh.allDark.half h) at hdark
  generalize s.fresh.allDark = a at *
  obtain ⟨m, rfl⟩ := hon
  refine ⟨_, exec_of_effect rfl hrun, fun h hh => ?_, fun k hk4 hen hk => ?_,
    .of_after (((s.fresh.touches_onAux _).andThen (Dev.touches_foldl_auxFault ..)).mono (by decide)).keeps⟩
  · exact List.foldlRecOn (motive := fun (d : Dev) => halfIsDark (d.half h)) _ _ (hdark h (List.mem_range.2 hh))
      fun d hd k _ => Dev.half_auxFault_dark hd
  · exact Dev.inFault_foldl_auxFault 7 (List.mem_filter.2 ⟨List.mem_range.2 hk4, by
      show (s.dev.drvEn k && decide (s.dev.driveKind k ≠ 0)) = true
      rw [hen, decide_eq_true hk]
      rfl⟩) _

/-! ### The rows of the drives together -/

/-- Settles O58: row by row, over what the operations on a drive, a half-bridge and a group of it make of them. -/
theorem driveRowsTakeEffect : Obligations.DriveRowsTakeEffect := by
  unfold Obligations.DriveRowsTakeEffect
  refine ⟨Dev.auxFault_faults, fun k s h => auxPeriodStart_idle h, fun k s hp => ⟨?_, ?_, ?_, ?_⟩,
    fun k c s h => hallChange_idle h, fun k c s hk hnew => ⟨?_, ?_, ?_, ?_, ?_⟩,
    fun h n s hw hn => bootstrapLow_off hw hn,
    fun h n s hw hr hn => ⟨bootstrapLow_refreshes hw hr hn, bootstrapLow_faults hw hr hn⟩,
    fun k s h => prechargeEnd_idle h,
    fun k s hst hend => ⟨prechargeEnd_ready hst hend, prechargeEnd_moves hst hend⟩,
    fun g uv k d hg => ⟨fun hk => ?_, fun hk => ?_⟩, fun g uv s => ⟨?_, ?_, ?_, ?_⟩,
    fun g uv s h => auxBlankEnd_idle h, fun g uv s hs hb h => auxBlankEnd_counts hs hb h,
    fun g uv k s hs hb h hg hk hf ho => auxBlankEnd_faults hs hb k h hg hk hf ho,
    fun i lv s h => limitInputEdge_idle h, fun i lv s h => limitInputEdge_halts h,
    fun k s h => stillDelayExpire_idle h, fun k b s hb hst hend => stillDelayExpire_rests b hb hst hend, vgdLow_faults⟩
  · exact fun hk hst hr hh => auxPeriodStart_rests hp hk hst hr hh
  · exact fun hk hst hh => auxPeriodStart_hallDead hp hk hst hh
  · exact fun hk hst hr hen hh => ⟨auxPeriodStart_drives hp hk hst hr hen hh, auxPeriodStart_stall hp hk hst hr hen hh⟩
  · exact fun hk hst hen => auxPeriodStart_steps hp hk hst hen
  · exact fun hc => hallChange_dead hk hnew hc
  · exact fun h1 h6 hn => hallChange_first hk hnew h1 h6 hn
  · exact fun step h1 h6 hn hj => hallChange_skips hk hnew h1 h6 hn step hj
  · exact fun h1 h6 hn hj => hallChange_opposite hk hnew h1 h6 hn hj
  · exact fun step h1 h6 hn hj => hallChange_steps hk hnew h1 h6 hn step hj
  · exact Dev.crosses_bldc uv hg hk
  · exact (Dev.crosses_stepper uv hg hk)
  · exact fun hh hs => shuntCrossing_below hh hs
  · exact fun hh hs hb => shuntCrossing_blanked hh hs hb
  · exact fun k hg hf ho => ⟨shuntCrossing_faults hg hf ho,
      fun hh hs hk hb => ⟨shuntCrossing_rests hg hh hs hk hb, shuntCrossing_chops hg hh hs hk hb⟩⟩
  · exact fun k hh hg hst hf ht hoc => shuntCrossing_again hg hh hst hf ht hoc

end Sys2Proof.Machine
end

section
/-! PROOFS. AUX_DRIVE: the order of its checks and what its actions make of a drive (R486, R491, R495–R497, R502, R503). -/

namespace Sys2Proof.Machine

open Host

/-! ### The checks, in their order -/

/-- The mask of AUX_DRIVE. -/
def auxDriveMask : Nat := inlMask [(20, 0xFFFF), (22, 1), (24, 0xFFFFFFFF)]

/-- The target of a move. -/
def driveTarget (c : Cmd) : W32 := BitVec.ofNat 32 (c.word 24)

/-- No drive, no action, or parameters that do not fit it. -/
def Dev.driveMissing (d : Dev) (c : Cmd) : Prop :=
  4 ≤ c.byte 20 ∨ d.driveKind (c.byte 20) = 0 ∨ 6 < c.byte 21 ∨ c.len.toNat ≠ (if bitAt (c.byte 22) 0 then 36 else 0) ∨
    (bitAt (c.byte 22) 0 = true ∧ decide (c.byte 21 = 1 ∨ c.byte 21 = 2) = false)

/-- An action that the drive's kind does not have, or a target out of range. -/
def Dev.driveUnfit (d : Dev) (c : Cmd) : Prop :=
  (c.byte 21 = 1 ∧ (d.driveKind (c.byte 20) = 1 ∨ (driveTarget c).toInt < -(2 ^ 23 : Nat) ∨
    (2 ^ 23 : Nat) ≤ (driveTarget c).toInt)) ∨
  (c.byte 21 = 2 ∧ d.driveKind (c.byte 20) = 2) ∨ (c.byte 21 = 4 ∧ d.driveKind (c.byte 20) = 1)

/-- An active limit stands in the way of MOVE or RUN. -/
def Dev.driveLimited (d : Dev) (c : Cmd) : Bool :=
  if c.byte 21 = 1 then
    (decide (d.stepCount (c.byte 20) < (driveTarget c).toInt) && d.limitActive (c.byte 20) true) ||
      (decide ((driveTarget c).toInt < d.stepCount (c.byte 20)) && d.limitActive (c.byte 20) false)
  else d.limitActive (c.byte 20) (decide (0 ≤ (driveTarget c).toInt))

/-- The drive's state permits MOVE or RUN. -/
def Dev.driveFree (d : Dev) (c : Cmd) : Bool :=
  if c.byte 21 = 1 then decide ((d.drv (c.byte 20)).st = .ready ∨ (d.drv (c.byte 20)).st = .moving ∨
    (d.drv (c.byte 20)).st = .standstill)
  else decide ((d.drv (c.byte 20)).st = .ready) || (d.drv (c.byte 20)).running

section
variable {d : Dev} {c : Cmd}

theorem Dev.auxDrive_missing (h : d.driveMissing c) : d.auxDrive c = d.complete c 0xA0 stBadParam := if_pos h

section
variable (hm : ¬ d.driveMissing c)
include hm

theorem Dev.auxDrive_unfit (h : d.driveUnfit c) : d.auxDrive c = d.complete c 0xA0 stBadParam :=
  (if_neg hm).trans (if_pos h)

variable (hu : ¬ d.driveUnfit c)
include hu

section
variable (hgo : c.byte 21 = 1 ∨ c.byte 21 = 2)
include hgo

theorem Dev.auxDrive_barred (h : d.driveFree c = false ∨ d.driveLimited c = true) :
    d.auxDrive c = d.complete c 0xA0 stRejected := by
  have hbar : (!d.driveFree c || d.driveLimited c) = true := by rcases h with h | h <;> simp [h]
  exact (if_neg hm).trans ((if_neg hu).trans ((if_pos (decide_eq_true hgo)).trans (if_pos hbar)))

variable (hf : d.driveFree c = true) (hl : d.driveLimited c = false)
include hf hl

theorem Dev.auxDrive_goes : d.auxDrive c =
    if (!bitAt (c.byte 22) 0) = true then
      if rampValid (d.rampPlanned (8 + c.byte 20)) then (d.driveGo c (c.byte 20) none).complete c 0xA0 stOk
      else d.complete c 0xA0 stBadParam
    else d.withBuffer 0xA0 c fun d =>
      if rampValid (bufRamp c) then (d.driveGo c (c.byte 20) (some (bufRamp c))).completeRes c 0xA0 stOk 36 []
      else d.completeRes c 0xA0 stBadParam 36 [] := by
  have hbar : ¬ (!d.driveFree c || d.driveLimited c) = true := by simp [hf, hl]
  exact (if_neg hm).trans ((if_neg hu).trans ((if_pos (decide_eq_true hgo)).trans (if_neg hbar)))

theorem Dev.auxDrive_goes_plain (hp : bitAt (c.byte 22) 0 = false)
    (hv : rampValid (d.rampPlanned (8 + c.byte 20)) = true) :
    d.auxDrive c = (d.driveGo c (c.byte 20) none).complete c 0xA0 stOk := by
  have hplain : (!bitAt (c.byte 22) 0) = true := by simp [hp]
  exact (Dev.auxDrive_goes hm hu hgo hf hl).trans ((if_pos hplain).trans (if_pos hv))

variable (hp : bitAt (c.byte 22) 0 = true)
include hp

theorem Dev.auxDrive_goes_buffer : d.auxDrive c = d.withBuffer 0xA0 c fun d =>
      if rampValid (bufRamp c) then (d.driveGo c (c.byte 20) (some (bufRamp c))).completeRes c 0xA0 stOk 36 []
      else d.completeRes c 0xA0 stBadParam 36 [] := by
  have hbuf : ¬ (!bitAt (c.byte 22) 0) = true := by simp [hp]
  exact (Dev.auxDrive_goes hm hu hgo hf hl).trans (if_neg hbuf)

theorem Dev.auxDrive_goes_unread (he : c.bufErr = true) : d.auxDrive c = d.aerError.complete c 0xA0 stBadParam :=
  (Dev.auxDrive_goes_buffer hm hu hgo hf hl hp).trans (Dev.withBuffer_fails _ _ he)

theorem Dev.auxDrive_goes_params (he : c.bufErr = false) : d.auxDrive c = if rampValid (bufRamp c) then
      (d.driveGo c (c.byte 20) (some (bufRamp c))).completeRes c 0xA0 stOk 36 []
    else d.completeRes c 0xA0 stBadParam 36 [] :=
  (Dev.auxDrive_goes_buffer hm hu hgo hf hl hp).trans (Dev.withBuffer_read _ _ he)

end

/-! #### The other actions -/

/-- The group latches of a drive's faults are given up. -/
def Dev.ocCleared (k : Nat) (d : Dev) : Dev := d.onAux fun o => { o with
  oc := (d.driveGroups k).foldl (fun m g => if bitAt m g then m - 2 ^ g else m) o.oc }

/-- AUX_DRIVE's actions other than MOVE and RUN. -/
def Dev.driveAct (c : Cmd) (d : Dev) : Dev := match c.byte 21 with
  | 0 =>
    if (d.drv (c.byte 20)).st = .fault ∨ (d.driveGroups (c.byte 20)).any (fun g => bitAt d.aux.testFail g) = true then
      d.complete c 0xA0 stRejected
    else (d.driveEnable (c.byte 20)).complete c 0xA0 stOk
  | 3 => (d.driveStop (c.byte 20)).complete c 0xA0 stOk
  | 4 =>
    if (d.drv (c.byte 20)).st = .ready ∨ (d.drv (c.byte 20)).st = .standstill then
      (if rampValid (d.rampPlanned (8 + c.byte 20)) then (d.driveHome (c.byte 20)).complete c 0xA0 stOk
       else d.complete c 0xA0 stBadParam)
    else d.complete c 0xA0 stRejected
  | 5 => (d.driveRelease (c.byte 20)).complete c 0xA0 stOk
  | _ =>
    if (d.drv (c.byte 20)).st ≠ .fault ∨ d.faultPersists (c.byte 20) = true then d.complete c 0xA0 stRejected
    else ((d.ocCleared (c.byte 20)).setDrv (c.byte 20) { d.drv (c.byte 20) with st := .off, fault := 0 }).complete
      c 0xA0 stOk

theorem Dev.auxDrive_acts (hgo : c.byte 21 ≠ 1 ∧ c.byte 21 ≠ 2) : d.auxDrive c = d.driveAct c := by
  have hgo' : ¬ decide (c.byte 21 = 1 ∨ c.byte 21 = 2) = true := by simp [hgo]
  exact (if_neg hm).trans ((if_neg hu).trans (if_neg hgo'))

end

/-! #### What passes the checks -/

section
variable (hk : c.byte 20 < 4) (hkind : d.driveKind (c.byte 20) ≠ 0)
include hk hkind

theorem Dev.not_driveMissing_plain (hp : bitAt (c.byte 22) 0 = false) (hlen : c.len = 0) (ha : c.byte 21 ≤ 6) :
    ¬ d.driveMissing c := by
  rintro (h | h | h | h | ⟨h, -⟩)
  · omega
  · exact hkind h
  · omega
  · simp [hp, hlen] at h
  · simp [hp] at h

theorem Dev.not_driveMissing_params (hp : bitAt (c.byte 22) 0 = true) (hlen : c.len.toNat = 36)
    (ha : c.byte 21 = 1 ∨ c.byte 21 = 2) : ¬ d.driveMissing c := by
  rintro (h | h | h | h | ⟨-, h⟩)
  · omega
  · exact hkind h
  · omega
  · simp [hp, hlen] at h
  · simp [ha] at h

end

theorem Dev.not_driveUnfit_move (ha : c.byte 21 = 1) (hkind : d.driveKind (c.byte 20) = 2)
    (hlo : -8388608 ≤ (driveTarget c).toInt) (hhi : (driveTarget c).toInt < 8388608) : ¬ d.driveUnfit c := by
  rintro (⟨-, h | h | h⟩ | ⟨h, -⟩ | ⟨h, -⟩) <;> omega

theorem Dev.not_driveUnfit_run (ha : c.byte 21 = 2) (hkind : d.driveKind (c.byte 20) = 1) : ¬ d.driveUnfit c := by
  simp [Dev.driveUnfit, ha, hkind]

theorem Dev.not_driveUnfit_home (ha : c.byte 21 = 4) (hkind : d.driveKind (c.byte 20) = 2) : ¬ d.driveUnfit c := by
  simp [Dev.driveUnfit, ha, hkind]

theorem Dev.not_driveUnfit (h1 : c.byte 21 ≠ 1) (h2 : c.byte 21 ≠ 2) (h4 : c.byte 21 ≠ 4) : ¬ d.driveUnfit c := by
  simp [Dev.driveUnfit, h1, h2, h4]

end

/-! ### What the actions make of a drive -/

section
variable {d e : Dev} {k : Nat}

/-- Precharge of a drive that has begun (R486). -/
theorem Dev.startPrecharge_spec {next : Option (ProfOp × HomePhase)} (he : e = d.startPrecharge k next) :
    e.drv k = { d.drv k with
      st := .precharge, next := next, charged := false, stillStart := none
      preEnd := d.now + d.driveDt k + (if d.drvFld k 14 8 = 0 then 20 else d.drvFld k 14 8) * usTicks } ∧
    e.prof = d.prof ∧ Dev.Touches [.aux] d e := by
  obtain ⟨a, ha⟩ : ∃ a, a = (d.driveHalves k).foldl
    (fun x h => x.askAt (d.now + d.driveDt k - x.auxDt h) h .low none) d := ⟨_, rfl⟩
  have hon : Dev.OnHalves d a := ha ▸ .foldl (fun x _ => x.onHalves_askAt ..) _ _
  have hend : e = a.setDrv k { a.drv k with
      st := .precharge, next := next, charged := false, stillStart := none
      preEnd := d.now + d.driveDt k + (if d.drvFld k 14 8 = 0 then 20 else d.drvFld k 14 8) * usTicks } := by
    rw [he, ha]
    rfl
  refine ⟨?_, hend ▸ hon.prof, hend ▸ .mono (hon.touches.andThen (a.touches_setDrv ..)) (by decide)⟩
  rw [hend, Dev.drv_setDrv_self, hon.drv]

section
variable (hst : (d.drv k).st = .off)
include hst

theorem Dev.driveEnable_charges (h : d.driveKind k ≠ 1 ∨ hallDead (d.drv k).hall = false) :
    d.driveEnable k = d.startPrecharge k none := by
  obtain ⟨a, ha⟩ : ∃ a, a = d.startPrecharge k none := ⟨_, rfl⟩
  obtain ⟨-, -, htouch⟩ := Dev.startPrecharge_spec ha
  have hkind : a.driveKind k = d.driveKind k := by
    unfold Dev.driveKind Dev.fld
    rw [htouch.cfg _ (by decide)]
  have hno : ¬ (a.driveKind k = 1 ∧ hallDead (d.drv k).hall = true) := by
    rw [hkind]
    rcases h with h | h <;> simp [h]
  rw [← ha]
  unfold Dev.driveEnable
  extract_lets x b
  rw [if_pos (.inl hst), show b = a from ha.symm, if_neg hno]

theorem Dev.driveEnable_faults (hk : d.driveKind k = 1) (hh : hallDead (d.drv k).hall = true) :
    ((d.driveEnable k).drv k).st = .fault ∧ ((d.driveEnable k).drv k).fault = 1 ∧
    Dev.Touches [.prof, .aux, .events, .reports] d (d.driveEnable k) := by
  obtain ⟨a, ha⟩ : ∃ a, a = d.startPrecharge k none := ⟨_, rfl⟩
  obtain ⟨-, -, htouch⟩ := Dev.startPrecharge_spec ha
  have hkind : a.driveKind k = 1 := by
    unfold Dev.driveKind Dev.fld at *
    rw [htouch.cfg _ (by decide), hk]
  have hrun : d.driveEnable k = a.auxFault k 1 := by
    unfold Dev.driveEnable
    extract_lets x b
    rw [if_pos (.inl hst), show b = a from ha.symm, if_pos ⟨hkind, hh⟩]
  rw [hrun]
  obtain ⟨hself, -, -, -, -, -, hend⟩ := Dev.faultOf_spec (e := a.auxFault k 1) (what := k) rfl
  exact ⟨congrArg AuxDrive.st hself, congrArg AuxDrive.fault hself, (htouch.andThen hend).mono (by decide)⟩

end

/-- A move that begins at once, and one that waits for precharge (R495). -/
theorem Dev.acceptMove_begins {op : ProfOp} {ph : HomePhase} (h : ¬ ((d.drv k).st = .standstill ∧ (d.drv k).charged = false)) :
    d.acceptMove k op ph = d.beginDriveMove k op ph := if_neg h

theorem Dev.acceptMove_waits {op : ProfOp} {ph : HomePhase} (hst : (d.drv k).st = .standstill)
    (hc : (d.drv k).charged = false) : d.acceptMove k op ph = d.startPrecharge k (some (op, ph)) := if_pos ⟨hst, hc⟩

/-- A channel's target wraps or not. -/
def Dev.wrapping (k : Nat) (w : Bool) (d : Dev) : Dev := d.setPrf (8 + k) { d.prf (8 + k) with wraps := w }

theorem Dev.touches_wrapping (w : Bool) : Dev.Touches [.prof] d (d.wrapping k w) := d.touches_setPrf ..

/-- MOVE of a ready drive. -/
theorem Dev.driveMove_spec {t : W32} {r : Option Ramp} (hst : (d.drv k).st = .ready) (he : e = d.driveMove k t r) :
    (e.drv k).st = .moving ∧ e.prof.ops = d.prof.ops ++ [.start (8 + k) t r false] ∧
    Dev.Touches [.prof, .aux] d e := by
  have hgo : ¬ ((d.drv k).st = .standstill ∧ (d.drv k).charged = false) := by simp [hst]
  have hend : e = (d.wrapping k false).beginDriveMove k (.start (8 + k) t r false) .none :=
    he.trans (Dev.acceptMove_begins (d := d.wrapping k false) hgo)
  subst hend
  exact ⟨congrArg AuxDrive.st (Dev.drv_beginDriveMove ..), rfl,
    (d.touches_wrapping false).andThen (Dev.touches_beginDriveMove ..) |>.mono (by decide)⟩

/-- RUN of a drive (R491). -/
theorem Dev.driveRun_spec {neg : Bool} {r : Option Ramp} (he : e = d.driveRun k neg r) :
    (e.drv k).st = .moving ∧ (e.drv k).running = true ∧ (e.drv k).negRun = neg ∧ (e.prf (8 + k)).wraps = true ∧
    Dev.Touches [.prof, .aux] d e := by
  obtain ⟨a, ha⟩ : ∃ a, a = (d.wrapping k true).queueOp
    (.start (8 + k) (BitVec.ofInt 32 (d.stepCount k + aheadSteps neg)) r true) := ⟨_, rfl⟩
  have hend : e = a.setDrv k { a.drv k with st := .moving, running := true, negRun := neg } := by
    rw [he, ha]
    rfl
  have hset : Dev.Touches [.prof] d a := ha ▸ .mono ((d.touches_wrapping true).andThen (Dev.touches_queueOp ..)) (by decide)
  have hwraps : (a.prf (8 + k)).wraps = true := by
    rw [ha]
    exact congrArg ProfChan.wraps (Dev.prf_setPrf_self (8 + k) _ d)
  subst hend
  have hdrv := a.drv_setDrv_self k { a.drv k with st := .moving, running := true, negRun := neg }
  exact ⟨congrArg AuxDrive.st hdrv, congrArg AuxDrive.running hdrv, congrArg AuxDrive.negRun hdrv, hwraps,
    (hset.andThen (a.touches_setDrv ..)).mono (by decide)⟩

/-- The phase in which referencing begins (R496). -/
def Dev.homePhase (d : Dev) (k : Nat) : HomePhase := if d.drvFld k 28 28 = 0 then .stall else .seek

/-- HOME's move. -/
def Dev.homeMove (d : Dev) (k : Nat) : ProfOp := d.relMove k (d.seekSteps k) (d.refPos k)

theorem Dev.driveHome_begins (hst : (d.drv k).st = .ready ∨ ((d.drv k).st = .standstill ∧ (d.drv k).charged = true))
    (he : e = d.driveHome k) : (e.drv k).st = .homing ∧ (e.drv k).homing = d.homePhase k ∧
    e.prof.ops = d.prof.ops ++ [d.homeMove k] ∧ Dev.Touches [.prof, .aux] d e := by
  have hgo : ¬ ((d.drv k).st = .standstill ∧ (d.drv k).charged = false) := by
    rcases hst with h | ⟨h, hc⟩ <;> simp [*]
  have hend : e = (d.wrapping k false).beginDriveMove k (d.homeMove k) (d.homePhase k) :=
    he.trans (Dev.acceptMove_begins (d := d.wrapping k false) hgo)
  have hphase : d.homePhase k ≠ .none := by
    unfold Dev.homePhase
    split <;> decide
  generalize d.homePhase k = ph at *
  subst hend
  have hdrv := (d.wrapping k false).drv_beginDriveMove k (d.homeMove k) ph
  exact ⟨(congrArg AuxDrive.st hdrv).trans (if_neg hphase), congrArg AuxDrive.homing hdrv, rfl,
    (d.touches_wrapping false).andThen (Dev.touches_beginDriveMove ..) |>.mono (by decide)⟩

theorem Dev.driveHome_waits (hst : (d.drv k).st = .standstill) (hc : (d.drv k).charged = false)
    (he : e = d.driveHome k) : (e.drv k).st = .precharge ∧ (e.drv k).next = some (d.homeMove k, d.homePhase k) ∧
    e.prof.ops = d.prof.ops ∧ Dev.Touches [.prof, .aux] d e := by
  obtain ⟨a, ha⟩ : ∃ a, a = d.wrapping k false := ⟨_, rfl⟩
  have hend : e = a.startPrecharge k (some (d.homeMove k, d.homePhase k)) := by
    rw [he, ha]
    exact Dev.acceptMove_waits (d := d.wrapping k false) hst hc
  have hops : a.prof.ops = d.prof.ops := by
    rw [ha]
    rfl
  have hset : Dev.Touches [.prof] d a := ha ▸ d.touches_wrapping false
  obtain ⟨hself, hprof, htouch⟩ := Dev.startPrecharge_spec hend
  exact ⟨congrArg AuxDrive.st hself, congrArg AuxDrive.next hself, (congrArg ProfState.ops hprof).trans hops,
    (hset.andThen htouch).mono (by decide)⟩

/-- STOP of a moving drive whose channel is not idle. -/
theorem Dev.driveStop_moving (hst : (d.drv k).st = .moving) (hi : d.chanIdle (8 + k) = false) :
    d.driveStop k = d.queueOp (.stop (8 + k) false) := by
  unfold Dev.driveStop
  extract_lets x a b
  have ha : a = d := if_neg (by rw [hst]; decide)
  have hb : b = d := (if_neg (by rw [hst]; decide)).trans ha
  rw [hb]
  exact if_neg (by rw [hi]; decide)

/-- RELEASE of a moving drive. -/
theorem Dev.driveRelease_moving (hst : (d.drv k).st = .moving) (he : e = d.driveRelease k) :
    (e.drv k).st = .standstill ∧ Dev.Touches [.prof, .aux] d e := by
  have hgo : ¬ ((d.drv k).st = .off ∨ (d.drv k).st = .fault) := by simp [hst]
  obtain ⟨a, ha⟩ : ∃ a, a = (d.restoreRamp k).haltDrive k := ⟨_, rfl⟩
  have hend : e = a.standstill k := by
    rw [he, ha]
    exact if_neg hgo
  obtain ⟨-, -, -, -, -, -, hramp⟩ := d.restoreRamp_spec k
  obtain ⟨-, -, -, hhalt⟩ := (d.restoreRamp k).haltDrive_spec k
  obtain ⟨hself, -, -, -, htouch⟩ := Dev.standstill_spec hend
  exact ⟨hself, ((hramp.andThen (ha ▸ hhalt)).andThen htouch).mono (by decide)⟩

end

end Sys2Proof.Machine
end

section
/-! PROOFS. The commands of the cooling plant drives, AUX_DRIVE and AUX_SELFTEST (R486–R503), and O59. -/

namespace Sys2Proof.Machine

open Host

/-! ### AUX_DRIVE (R502) -/

section
variable {d : Dev} {c : Cmd} (hst : (d.drv (c.byte 20)).st = .ready)
include hst

/-- A ready drive that no limit holds back. -/
theorem Dev.driveFree_move (h1 : c.byte 21 = 1)
    (hpos : d.stepCount (c.byte 20) < (driveTarget c).toInt → d.limitActive (c.byte 20) true = false)
    (hneg : (driveTarget c).toInt < d.stepCount (c.byte 20) → d.limitActive (c.byte 20) false = false) :
    d.driveFree c = true ∧ d.driveLimited c = false := by
  simp only [Dev.driveFree, Dev.driveLimited, h1, hst, if_true, Bool.or_eq_false_iff, Bool.and_eq_false_imp,
    decide_eq_true_eq, true_or, true_and]
  exact ⟨hpos, hneg⟩

theorem Dev.driveFree_run (h2 : c.byte 21 = 2)
    (hl : d.limitActive (c.byte 20) (decide (0 ≤ (driveTarget c).toInt)) = false) :
    d.driveFree c = true ∧ d.driveLimited c = false := by
  simp [Dev.driveFree, Dev.driveLimited, h2, hst, hl]

end

section
variable {c : Cmd} {s : State}

theorem State.keeps_of_touches {ps : List Part} {d : Dev} (h : Dev.Touches ps s.fresh d) : Dev.Keeps ps s.dev d :=
  State.keeps_of_fresh h.keeps

variable (ha : s.dev.admits 0xA0 auxDriveMask c)
include ha

theorem exec_auxDrive {d : Dev} (hd : s.fresh.auxDrive c = d) : exec (.auxDrive c) s = .next (s.after d) :=
  State.runCmd_gives ha hd

theorem auxDrive_missing (h : s.dev.driveMissing c) :
    exec (.auxDrive c) s = .next (s.after (s.fresh.complete c 0xA0 stBadParam)) :=
  exec_auxDrive ha (Dev.auxDrive_missing (d := s.fresh) h)

theorem auxDrive_unfit (h : s.dev.driveUnfit c) :
    exec (.auxDrive c) s = .next (s.after (s.fresh.complete c 0xA0 stBadParam)) := by
  by_cases hm : s.dev.driveMissing c
  · exact auxDrive_missing ha hm
  · exact exec_auxDrive ha (Dev.auxDrive_unfit (d := s.fresh) hm h)

section
variable (hm : ¬ s.dev.driveMissing c) (hu : ¬ s.dev.driveUnfit c)
include hm hu

theorem auxDrive_barred (hgo : c.byte 21 = 1 ∨ c.byte 21 = 2) (h : s.dev.driveFree c = false ∨ s.dev.driveLimited c = true) :
    exec (.auxDrive c) s = .next (s.after (s.fresh.complete c 0xA0 stRejected)) :=
  exec_auxDrive ha (Dev.auxDrive_barred (d := s.fresh) hm hu hgo h)

theorem exec_driveAct (hgo : c.byte 21 ≠ 1 ∧ c.byte 21 ≠ 2) {d : Dev} (hd : s.fresh.driveAct c = d) :
    exec (.auxDrive c) s = .next (s.after d) :=
  exec_auxDrive ha ((Dev.auxDrive_acts (d := s.fresh) hm hu hgo).trans hd)

end

/-! #### ENABLE, STOP, HOME, RELEASE and CLEAR -/

section
variable (hm : ¬ s.dev.driveMissing c)
include hm

section
variable (h0 : c.byte 21 = 0)
include h0

theorem auxDrive_enable_rejected (h : (s.dev.drv (c.byte 20)).st = .fault ∨
      ∃ g ∈ s.dev.driveGroups (c.byte 20), bitAt s.dev.aux.testFail g = true) :
    exec (.auxDrive c) s = .next (s.after (s.fresh.complete c 0xA0 stRejected)) := by
  have hu : ¬ s.dev.driveUnfit c := Dev.not_driveUnfit (by omega) (by omega) (by omega)
  refine exec_driveAct ha hm hu (by omega) ?_
  unfold Dev.driveAct
  rw [h0]
  exact if_pos (h.imp_right List.any_eq_true.2)

theorem exec_driveEnable (hst : (s.dev.drv (c.byte 20)).st = .off)
    (hpass : ∀ g ∈ s.dev.driveGroups (c.byte 20), bitAt s.dev.aux.testFail g = false) :
    exec (.auxDrive c) s = .next (s.after ((s.fresh.driveEnable (c.byte 20)).complete c 0xA0 stOk)) := by
  have hu : ¬ s.dev.driveUnfit c := Dev.not_driveUnfit (by omega) (by omega) (by omega)
  have hgo : ¬ ((s.dev.drv (c.byte 20)).st = .fault ∨
      (s.dev.driveGroups (c.byte 20)).any (fun g => bitAt s.dev.aux.testFail g) = true) := by
    rintro (h | h)
    · rw [hst] at h
      cases h
    · obtain ⟨g, hg, hb⟩ := List.any_eq_true.1 h
      rw [hpass g hg] at hb
      cases hb
  refine exec_driveAct ha hm hu (by omega) ?_
  unfold Dev.driveAct
  rw [h0]
  exact if_neg hgo

end

theorem exec_driveStop (h3 : c.byte 21 = 3) :
    exec (.auxDrive c) s = .next (s.after ((s.fresh.driveStop (c.byte 20)).complete c 0xA0 stOk)) := by
  have hu : ¬ s.dev.driveUnfit c := Dev.not_driveUnfit (by omega) (by omega) (by omega)
  refine exec_driveAct ha hm hu (by omega) ?_
  unfold Dev.driveAct
  rw [h3]
  rfl

theorem exec_driveRelease (h5 : c.byte 21 = 5) :
    exec (.auxDrive c) s = .next (s.after ((s.fresh.driveRelease (c.byte 20)).complete c 0xA0 stOk)) := by
  have hu : ¬ s.dev.driveUnfit c := Dev.not_driveUnfit (by omega) (by omega) (by omega)
  refine exec_driveAct ha hm hu (by omega) ?_
  unfold Dev.driveAct
  rw [h5]
  rfl

section
variable (h4 : c.byte 21 = 4) (hkind : s.dev.driveKind (c.byte 20) = 2)
include h4 hkind

theorem auxDrive_home_rejected (hr : (s.dev.drv (c.byte 20)).st ≠ .ready) (hs : (s.dev.drv (c.byte 20)).st ≠ .standstill) :
    exec (.auxDrive c) s = .next (s.after (s.fresh.complete c 0xA0 stRejected)) := by
  refine exec_driveAct ha hm (Dev.not_driveUnfit_home h4 hkind) (by omega) ?_
  unfold Dev.driveAct
  rw [h4]
  exact if_neg (not_or.2 ⟨hr, hs⟩)

variable (hst : (s.dev.drv (c.byte 20)).st = .ready ∨ (s.dev.drv (c.byte 20)).st = .standstill)
include hst

theorem auxDrive_home_bad (hv : rampValid (s.dev.rampPlanned (8 + c.byte 20)) = false) :
    exec (.auxDrive c) s = .next (s.after (s.fresh.complete c 0xA0 stBadParam)) := by
  refine exec_driveAct ha hm (Dev.not_driveUnfit_home h4 hkind) (by omega) ?_
  unfold Dev.driveAct
  rw [h4]
  exact (if_pos hst).trans (if_neg (Bool.eq_false_iff.1 hv))

theorem exec_driveHome (hv : rampValid (s.dev.rampPlanned (8 + c.byte 20)) = true) :
    exec (.auxDrive c) s = .next (s.after ((s.fresh.driveHome (c.byte 20)).complete c 0xA0 stOk)) := by
  refine exec_driveAct ha hm (Dev.not_driveUnfit_home h4 hkind) (by omega) ?_
  unfold Dev.driveAct
  rw [h4]
  exact (if_pos hst).trans (if_pos hv)

end

section
variable (h6 : c.byte 21 = 6)
include h6

theorem auxDrive_clear_rejected (h : (s.dev.drv (c.byte 20)).st ≠ .fault ∨ s.dev.faultPersists (c.byte 20) = true) :
    exec (.auxDrive c) s = .next (s.after (s.fresh.complete c 0xA0 stRejected)) := by
  have hu : ¬ s.dev.driveUnfit c := Dev.not_driveUnfit (by omega) (by omega) (by omega)
  refine exec_driveAct ha hm hu (by omega) ?_
  unfold Dev.driveAct
  rw [h6]
  exact if_pos h

theorem auxDrive_clears (hst : (s.dev.drv (c.byte 20)).st = .fault) (hp : s.dev.faultPersists (c.byte 20) = false) :
    Completes (.auxDrive c) c 0xA0 stOk s fun d => d.drv (c.byte 20) =
      { s.dev.drv (c.byte 20) with st := .off, fault := 0 } ∧ Dev.Keeps [.aux] s.dev d := by
  have hu : ¬ s.dev.driveUnfit c := Dev.not_driveUnfit (by omega) (by omega) (by omega)
  have hgo : ¬ ((s.dev.drv (c.byte 20)).st ≠ .fault ∨ s.dev.faultPersists (c.byte 20) = true) := by simp [hst, hp]
  obtain ⟨a, ha'⟩ : ∃ a, a = s.fresh.ocCleared (c.byte 20) := ⟨_, rfl⟩
  have hset : Dev.Touches [.aux] s.fresh a := ha' ▸ s.fresh.touches_onAux _
  refine ⟨a.setDrv (c.byte 20) { s.dev.drv (c.byte 20) with st := .off, fault := 0 },
    exec_driveAct ha hm hu (by omega) ?_, Dev.drv_setDrv_self ..,
    State.keeps_of_touches ((hset.andThen (a.touches_setDrv ..)).mono (by decide))⟩
  unfold Dev.driveAct
  rw [h6, ha']
  exact if_neg hgo

end

end

/-! #### MOVE and RUN -/

section
variable (hm : ¬ s.dev.driveMissing c)
include hm

section
variable (h1 : c.byte 21 = 1) (hkind : s.dev.driveKind (c.byte 20) = 2) (hlo : -8388608 ≤ (driveTarget c).toInt)
  (hhi : (driveTarget c).toInt < 8388608)
include h1 hkind hlo hhi

theorem auxDrive_move_limited
    (h : (s.dev.stepCount (c.byte 20) < (driveTarget c).toInt ∧ s.dev.limitActive (c.byte 20) true = true) ∨
      ((driveTarget c).toInt < s.dev.stepCount (c.byte 20) ∧ s.dev.limitActive (c.byte 20) false = true)) :
    exec (.auxDrive c) s = .next (s.after (s.fresh.complete c 0xA0 stRejected)) := by
  refine auxDrive_barred ha hm (Dev.not_driveUnfit_move h1 hkind hlo hhi) (.inl h1) (.inr ?_)
  simpa [Dev.driveLimited, h1] using h

section
variable (hfree : s.dev.driveFree c = true) (hlim : s.dev.driveLimited c = false)
include hfree hlim

theorem exec_driveMove (hp : bitAt (c.byte 22) 0 = false) (hv : rampValid (s.dev.rampPlanned (8 + c.byte 20)) = true) :
    exec (.auxDrive c) s =
      .next (s.after ((s.fresh.driveMove (c.byte 20) (driveTarget c) none).complete c 0xA0 stOk)) := by
  refine exec_auxDrive ha ((Dev.auxDrive_goes_plain (d := s.fresh) hm (Dev.not_driveUnfit_move h1 hkind hlo hhi) (.inl h1)
    hfree hlim hp hv).trans ?_)
  exact congrArg (Dev.complete c 0xA0 stOk) (if_pos h1)

section
variable (hp : bitAt (c.byte 22) 0 = true)
include hp

theorem auxDrive_move_unread (he : c.bufErr = true) :
    exec (.auxDrive c) s = .next (s.after (s.fresh.aerError.complete c 0xA0 stBadParam)) :=
  exec_auxDrive ha (Dev.auxDrive_goes_unread (d := s.fresh) hm (Dev.not_driveUnfit_move h1 hkind hlo hhi) (.inl h1)
    hfree hlim hp he)

variable (he : c.bufErr = false)
include he

theorem auxDrive_move_badRamp (hv : rampValid (bufRamp c) = false) :
    exec (.auxDrive c) s = .next (s.after (s.fresh.completeRes c 0xA0 stBadParam 36 [])) :=
  exec_auxDrive ha ((Dev.auxDrive_goes_params (d := s.fresh) hm (Dev.not_driveUnfit_move h1 hkind hlo hhi) (.inl h1)
    hfree hlim hp he).trans (if_neg (Bool.eq_false_iff.1 hv)))

theorem exec_driveMove_params (hv : rampValid (bufRamp c) = true) : exec (.auxDrive c) s = .next (s.after
    ((s.fresh.driveMove (c.byte 20) (driveTarget c) (some (bufRamp c))).completeRes c 0xA0 stOk 36 [])) := by
  refine exec_auxDrive ha ((Dev.auxDrive_goes_params (d := s.fresh) hm (Dev.not_driveUnfit_move h1 hkind hlo hhi) (.inl h1)
    hfree hlim hp he).trans ((if_pos hv).trans ?_))
  exact congrArg (fun d : Dev => d.completeRes c 0xA0 stOk 36 []) (if_pos h1)

end

end

end

section
variable (h2 : c.byte 21 = 2) (hkind : s.dev.driveKind (c.byte 20) = 1)
include h2 hkind

theorem auxDrive_run_limited (h : s.dev.limitActive (c.byte 20) (decide (0 ≤ (driveTarget c).toInt)) = true) :
    exec (.auxDrive c) s = .next (s.after (s.fresh.complete c 0xA0 stRejected)) :=
  auxDrive_barred ha hm (Dev.not_driveUnfit_run h2 hkind) (.inr h2)
    (.inr ((if_neg (by omega : ¬ c.byte 21 = 1)).trans h))

variable (hst : (s.dev.drv (c.byte 20)).st = .ready)
  (hl : s.dev.limitActive (c.byte 20) (decide (0 ≤ (driveTarget c).toInt)) = false)
include hst hl

theorem exec_driveRun (hp : bitAt (c.byte 22) 0 = false) (hv : rampValid (s.dev.rampPlanned (8 + c.byte 20)) = true) :
    exec (.auxDrive c) s = .next (s.after
      ((s.fresh.driveRun (c.byte 20) (decide ((driveTarget c).toInt < 0)) none).complete c 0xA0 stOk)) := by
  obtain ⟨hfree, hlim⟩ := Dev.driveFree_run hst h2 hl
  refine exec_auxDrive ha ((Dev.auxDrive_goes_plain (d := s.fresh) hm (Dev.not_driveUnfit_run h2 hkind) (.inr h2)
    hfree hlim hp hv).trans ?_)
  exact congrArg (Dev.complete c 0xA0 stOk) (if_neg (by omega))

theorem exec_driveRun_params (hp : bitAt (c.byte 22) 0 = true) (he : c.bufErr = false)
    (hv : rampValid (bufRamp c) = true) : exec (.auxDrive c) s = .next (s.after ((s.fresh.driveRun (c.byte 20)
      (decide ((driveTarget c).toInt < 0)) (some (bufRamp c))).completeRes c 0xA0 stOk 36 [])) := by
  obtain ⟨hfree, hlim⟩ := Dev.driveFree_run hst h2 hl
  refine exec_auxDrive ha ((Dev.auxDrive_goes_params (d := s.fresh) hm (Dev.not_driveUnfit_run h2 hkind) (.inr h2)
    hfree hlim hp he).trans ((if_pos hv).trans ?_))
  exact congrArg (fun d : Dev => d.completeRes c 0xA0 stOk 36 []) (if_neg (by omega))

end

end

end

/-! ### AUX_SELFTEST (R501) -/

/-- A bit that another one's change leaves. -/
theorem bitAt_of_parts {v w n j : Nat} (hlow : v % 2 ^ n = w % 2 ^ n) (hhigh : v / 2 ^ n / 2 = w / 2 ^ n / 2)
    (hj : j ≠ n) : bitAt v j = bitAt w j := by
  simp only [bitAt_eq_testBit]
  rcases Nat.lt_or_gt_of_ne hj with h | h
  · have hbit (x : Nat) : (x % 2 ^ n).testBit j = x.testBit j := by simp [Nat.testBit_mod_two_pow, h]
    rw [← hbit v, hlow, hbit]
  · have hbit (x : Nat) : (x / 2 ^ n / 2).testBit (j - n - 1) = x.testBit j := by
      rw [Nat.div_div_eq_div_mul, ← Nat.pow_succ, Nat.testBit_div_two_pow]
      congr 1
      omega
    rw [← hbit v, hhigh, hbit]

theorem bitAt_add_two_pow_of_ne {v n j : Nat} (h : bitAt v n = false) (hj : j ≠ n) : bitAt (v + 2 ^ n) j = bitAt v j := by
  refine bitAt_of_parts (Nat.add_mod_right ..) ?_ hj
  rw [Nat.add_div_right _ (Nat.two_pow_pos n)]
  unfold bitAt at h
  have heven := of_decide_eq_false h
  omega

theorem bitAt_cleared_of_ne {v n j : Nat} (hj : j ≠ n) : bitAt (if bitAt v n then v - 2 ^ n else v) j = bitAt v j := by
  split
  · rename_i h
    have hle : 2 ^ n ≤ v := Nat.ge_two_pow_of_testBit (bitAt_eq_testBit v n ▸ h)
    have hback := bitAt_add_two_pow_of_ne (bitAt_sub_two_pow h) hj
    rw [Nat.sub_add_cancel hle] at hback
    exact hback.symm
  · rfl

/-- A bit of a mask set to a value. -/
def withBit (m g : Nat) (b : Bool) : Nat := (if bitAt m g then m - 2 ^ g else m) + if b then 2 ^ g else 0

theorem bitAt_withBit (m g : Nat) (b : Bool) : bitAt (withBit m g b) g = b := by
  cases b with
  | true => exact bitAt_add_two_pow (bitAt_cleared m g)
  | false => exact bitAt_cleared m g

theorem bitAt_withBit_of_ne {m g j : Nat} (b : Bool) (hj : j ≠ g) : bitAt (withBit m g b) j = bitAt m j := by
  cases b with
  | true => exact (bitAt_add_two_pow_of_ne (bitAt_cleared m g) hj).trans (bitAt_cleared_of_ne hj)
  | false => exact bitAt_cleared_of_ne hj

section
variable {pass g : Nat} {d : Dev}

/-- What the test of a group shows of it. -/
def Dev.testBits (d : Dev) (g : Nat) : Bool × Bool := (bitAt d.aux.testPass g, bitAt d.aux.testFail g)

theorem Dev.testBits_of_rest {a d : Dev} (h : auxRest d.aux = auxRest a.aux) (g : Nat) : d.testBits g = a.testBits g :=
  (congrArg (fun x : AuxState => (bitAt x.testPass g, bitAt x.testFail g)) h :)

/-- The result of a group is shown. -/
def Dev.testShown (g : Nat) (ok : Bool) (d : Dev) : Dev := d.onAux fun a => { a with
  testPass := withBit a.testPass g ok, testFail := withBit a.testFail g (!ok) }

/-- The drive of a group that fails its test faults. -/
def Dev.testFaults (g : Nat) (ok : Bool) (d : Dev) : Dev := match d.groupDrive g with
  | some k => if ok then d else d.auxFault k 6
  | none => d

theorem Dev.testFaults_spec (g : Nat) (ok : Bool) (d : Dev) : auxRest (d.testFaults g ok).aux = auxRest d.aux ∧
    Dev.Touches [.prof, .aux, .events, .reports] d (d.testFaults g ok) := by
  unfold Dev.testFaults
  split
  · rename_i k hk
    split
    · exact ⟨rfl, .mono .refl (by decide)⟩
    · obtain ⟨-, -, -, -, hrest, -, htouch⟩ := Dev.faultOf_spec (e := d.auxFault k 6) (what := k) rfl
      exact ⟨hrest, htouch⟩
  · exact ⟨rfl, .mono .refl (by decide)⟩

theorem Dev.testGroup_eq (pass g : Nat) (d : Dev) : d.testGroup pass g =
    (((d.testShown g (bitAt pass g)).testFaults g (bitAt pass g)).event 17 5 g 0 0).irq 52 := by
  unfold Dev.testGroup Dev.testFaults Dev.testShown withBit
  cases bitAt pass g <;> rfl

theorem Dev.testGroup_spec {e : Dev} (he : e = d.testGroup pass g) :
    e.testBits g = (bitAt pass g, !bitAt pass g) ∧ (∀ j, j ≠ g → e.testBits j = d.testBits j) ∧
    Dev.Touches [.prof, .aux, .events, .reports] d e := by
  obtain ⟨hrest, htouch⟩ := (d.testShown g (bitAt pass g)).testFaults_spec g (bitAt pass g)
  have hset : Dev.Touches [.aux] d (d.testShown g (bitAt pass g)) := d.touches_onAux _
  have hrun := d.testGroup_eq pass g
  generalize (d.testShown g (bitAt pass g)).testFaults g (bitAt pass g) = a at *
  have hend : auxRest e.aux = auxRest (d.testShown g (bitAt pass g)).aux := by
    rw [he, hrun, Dev.irq_aux, Dev.event_aux, hrest]
  have hreport : Dev.Touches [.events, .reports] a e := by
    rw [he, hrun]
    exact .mono ((a.touches_event ..).andThen (Dev.touches_irq ..)) (by decide)
  refine ⟨?_, fun j hj => ?_, ((hset.andThen htouch).andThen hreport).mono (by decide)⟩
  · exact (Dev.testBits_of_rest hend g).trans (Prod.ext (bitAt_withBit ..) (bitAt_withBit ..))
  · exact (Dev.testBits_of_rest hend j).trans (Prod.ext (bitAt_withBit_of_ne _ hj) (bitAt_withBit_of_ne _ hj))

theorem Dev.foldl_testGroup (pass : Nat) {gs : List Nat} (hn : gs.Nodup) (d : Dev) (j : Nat) :
    (gs.foldl (Dev.testGroup pass) d).testBits j = if j ∈ gs then (bitAt pass j, !bitAt pass j) else d.testBits j :=
  (foldl_pointwise (rest := fun _ => ()) (get := Dev.testBits) (g := fun _ g _ => (bitAt pass g, !bitAt pass g))
    (fun _ _ => rfl) (fun _ _ => (Dev.testGroup_spec rfl).1) (fun _ _ j hj => (Dev.testGroup_spec rfl).2.1 j hj) hn d).2 j

theorem Dev.touches_foldl_testGroup (pass : Nat) (gs : List Nat) (d : Dev) :
    Dev.Touches [.prof, .aux, .events, .reports] d (gs.foldl (Dev.testGroup pass) d) :=
  .foldl (fun _ _ => (Dev.testGroup_spec rfl).2.2) _ _

end

/-- The groups that a self-test names. -/
def testGroups (c : Cmd) : List Nat := (upto 4).filter fun g => bitAt (c.byte 20) g

theorem mem_testGroups {c : Cmd} {g : Nat} : g ∈ testGroups c ↔ g < 4 ∧ bitAt (c.byte 20) g = true := by
  simp [testGroups, upto]

section
variable {c : Cmd} {pass : BitVec 4} {s : State} (ha : s.dev.admits 0xA1 (inlMask [(20, 0xF)]) c)
include ha

theorem exec_auxSelftest {d : Dev} (hd : s.fresh.auxSelftest c pass.toNat = d) :
    exec (.auxSelftest c pass) s = .next (s.after d) := State.runCmd_gives ha hd

theorem auxSelftest_empty (h : c.byte 20 = 0) :
    exec (.auxSelftest c pass) s = .next (s.after (s.fresh.complete c 0xA1 stBadParam)) := exec_auxSelftest ha (if_pos h)

theorem auxSelftest_busy {g : Nat} (hg : g < 4) (hb : bitAt (c.byte 20) g = true) (hi : s.dev.groupIdle g = false) :
    exec (.auxSelftest c pass) s = .next (s.after (s.fresh.complete c 0xA1 stRejected)) := by
  have hzero : ¬ c.byte 20 = 0 := by
    intro h
    rw [h, bitAt_zero] at hb
    cases hb
  have hbusy : ((testGroups c).any fun g => !s.fresh.groupIdle g) = true :=
    List.any_eq_true.2 ⟨g, mem_testGroups.2 ⟨hg, hb⟩, congrArg Bool.not hi⟩
  exact exec_auxSelftest ha ((if_neg hzero).trans (if_pos hbusy))

theorem auxSelftest_tests (hzero : c.byte 20 ≠ 0)
    (hidle : ∀ g < 4, bitAt (c.byte 20) g = true → s.dev.groupIdle g = true) :
    Completes (.auxSelftest c pass) c 0xA1
      (if (upto 4).all (fun g => !bitAt (c.byte 20) g || pass.getLsbD g) then stOk else stPartial) s fun d =>
      (∀ g < 4, bitAt (c.byte 20) g = true → bitAt d.aux.testPass g = pass.getLsbD g ∧
        bitAt d.aux.testFail g = !pass.getLsbD g) ∧
      (∀ g < 4, bitAt (c.byte 20) g = false → bitAt d.aux.testPass g = bitAt s.dev.aux.testPass g ∧
        bitAt d.aux.testFail g = bitAt s.dev.aux.testFail g) ∧
      Dev.Keeps [.prof, .aux, .events, .reports] s.dev d := by
  have hfree : ¬ ((testGroups c).any fun g => !s.fresh.groupIdle g) = true := by
    intro h
    obtain ⟨g, hg, hb⟩ := List.any_eq_true.1 h
    obtain ⟨hg4, hbit⟩ := mem_testGroups.1 hg
    have hi : s.fresh.groupIdle g = true := hidle g hg4 hbit
    rw [hi] at hb
    cases hb
  have hall : ((testGroups c).all fun g => bitAt pass.toNat g) =
      (upto 4).all fun g => !bitAt (c.byte 20) g || pass.getLsbD g := by
    unfold testGroups
    simp only [List.all_filter, bitAt_toNat]
  have hrun : s.fresh.auxSelftest c pass.toNat = ((testGroups c).foldl (Dev.testGroup pass.toNat) s.fresh).complete c 0xA1
      (if (testGroups c).all (fun g => bitAt pass.toNat g) then stOk else stPartial) := (if_neg hzero).trans (if_neg hfree)
  rw [hall] at hrun
  have hbits := Dev.foldl_testGroup pass.toNat (gs := testGroups c) (List.nodup_range.filter _) s.fresh
  have htouch := Dev.touches_foldl_testGroup pass.toNat (testGroups c) s.fresh
  generalize (testGroups c).foldl (Dev.testGroup pass.toNat) s.fresh = e at *
  refine ⟨e, exec_auxSelftest ha hrun, fun g hg hb => ?_, fun g hg hb => ?_, State.keeps_of_touches htouch⟩
  · have hg' := (hbits g).trans (if_pos (mem_testGroups.2 ⟨hg, hb⟩))
    rw [bitAt_toNat] at hg'
    exact Prod.ext_iff.1 hg'
  · have hout : g ∉ testGroups c := fun h => by simp [(mem_testGroups.1 h).2] at hb
    exact Prod.ext_iff.1 ((hbits g).trans (if_neg hout))

end

/-! ### What AUX_DRIVE completes with -/

section
variable {c : Cmd} {s : State} (ha : s.dev.admits 0xA0 auxDriveMask c) (hm : ¬ s.dev.driveMissing c)
include ha hm

section
variable (h0 : c.byte 21 = 0) (hst : (s.dev.drv (c.byte 20)).st = .off)
  (hpass : ∀ g ∈ s.dev.driveGroups (c.byte 20), bitAt s.dev.aux.testFail g = false)
include h0 hst hpass

theorem auxDrive_enable_dead (hk : s.dev.driveKind (c.byte 20) = 1) (hh : hallDead (s.dev.drv (c.byte 20)).hall = true) :
    Completes (.auxDrive c) c 0xA0 stOk s fun d => (d.drv (c.byte 20)).st = .fault ∧
      (d.drv (c.byte 20)).fault = 1 ∧ Dev.Keeps [.prof, .aux, .events, .reports] s.dev d := by
  obtain ⟨hfault, hcode, htouch⟩ := Dev.driveEnable_faults (d := s.fresh) hst hk hh
  exact ⟨_, exec_driveEnable ha hm h0 hst hpass, hfault, hcode, State.keeps_of_touches htouch⟩

theorem auxDrive_enables (h : s.dev.driveKind (c.byte 20) = 2 ∨ hallDead (s.dev.drv (c.byte 20)).hall = false) :
    Completes (.auxDrive c) c 0xA0 stOk s fun d => (d.drv (c.byte 20)).st = .precharge ∧
      (d.drv (c.byte 20)).preEnd = s.dev.now + s.dev.driveDt (c.byte 20) + (if s.dev.drvFld (c.byte 20) 14 8 = 0 then 20
        else s.dev.drvFld (c.byte 20) 14 8) * usTicks ∧ Dev.Keeps [.aux] s.dev d := by
  have hrun := exec_driveEnable ha hm h0 hst hpass
  rw [Dev.driveEnable_charges (d := s.fresh) hst (h.imp_left fun h2 (h1 : s.dev.driveKind _ = 1) => by omega)] at hrun
  obtain ⟨e, he⟩ : ∃ e, e = s.fresh.startPrecharge (c.byte 20) none := ⟨_, rfl⟩
  obtain ⟨hself, -, htouch⟩ := Dev.startPrecharge_spec he
  exact ⟨e, he ▸ hrun, congrArg AuxDrive.st hself, congrArg AuxDrive.preEnd hself, State.keeps_of_touches htouch⟩

end

section
variable (h4 : c.byte 21 = 4) (hk : s.dev.driveKind (c.byte 20) = 2)
  (hv : rampValid (s.dev.rampPlanned (8 + c.byte 20)) = true)
include h4 hk hv

theorem auxDrive_homes (hst : (s.dev.drv (c.byte 20)).st = .ready ∨
      ((s.dev.drv (c.byte 20)).st = .standstill ∧ (s.dev.drv (c.byte 20)).charged = true)) :
    Completes (.auxDrive c) c 0xA0 stOk s fun d => (d.drv (c.byte 20)).st = .homing ∧
      (d.drv (c.byte 20)).homing = (if s.dev.drvFld (c.byte 20) 28 28 = 0 then .stall else .seek) ∧
      d.prof.ops = s.dev.prof.ops ++
        [s.dev.relMove (c.byte 20) (s.dev.seekSteps (c.byte 20)) (s.dev.refPos (c.byte 20))] ∧
      Dev.Keeps [.prof, .aux] s.dev d := by
  obtain ⟨e, he⟩ : ∃ e, e = s.fresh.driveHome (c.byte 20) := ⟨_, rfl⟩
  obtain ⟨hhoming, hphase, hops, htouch⟩ := Dev.driveHome_begins (d := s.fresh) hst he
  exact ⟨e, he ▸ exec_driveHome ha hm h4 hk (hst.imp_right And.left) hv, hhoming, hphase, hops,
    State.keeps_of_touches htouch⟩

theorem auxDrive_home_charges (hst : (s.dev.drv (c.byte 20)).st = .standstill)
    (hc : (s.dev.drv (c.byte 20)).charged = false) : Completes (.auxDrive c) c 0xA0 stOk s fun d =>
      (d.drv (c.byte 20)).st = .precharge ∧ (d.drv (c.byte 20)).next =
        some (s.dev.relMove (c.byte 20) (s.dev.seekSteps (c.byte 20)) (s.dev.refPos (c.byte 20)),
          if s.dev.drvFld (c.byte 20) 28 28 = 0 then .stall else .seek) ∧
      d.prof.ops = s.dev.prof.ops ∧ Dev.Keeps [.prof, .aux] s.dev d := by
  obtain ⟨e, he⟩ : ∃ e, e = s.fresh.driveHome (c.byte 20) := ⟨_, rfl⟩
  obtain ⟨hpre, hnext, hops, htouch⟩ := Dev.driveHome_waits (d := s.fresh) hst hc he
  exact ⟨e, he ▸ exec_driveHome ha hm h4 hk (.inr hst) hv, hpre, hnext, hops, State.keeps_of_touches htouch⟩

end

theorem auxDrive_stops (h3 : c.byte 21 = 3) (hst : (s.dev.drv (c.byte 20)).st = .moving)
    (hi : s.dev.chanIdle (8 + c.byte 20) = false) : Completes (.auxDrive c) c 0xA0 stOk s fun d =>
      d.prof.ops = s.dev.prof.ops ++ [.stop (8 + c.byte 20) false] ∧ Dev.Keeps [.prof] s.dev d := by
  have hrun := exec_driveStop ha hm h3
  rw [Dev.driveStop_moving (d := s.fresh) hst hi] at hrun
  exact ⟨_, hrun, rfl, State.keeps_of_touches (s.fresh.touches_queueOp _)⟩

theorem auxDrive_releases (h5 : c.byte 21 = 5) (hst : (s.dev.drv (c.byte 20)).st = .moving) :
    Completes (.auxDrive c) c 0xA0 stOk s fun d =>
      (d.drv (c.byte 20)).st = .standstill ∧ Dev.Keeps [.prof, .aux] s.dev d := by
  obtain ⟨e, he⟩ : ∃ e, e = s.fresh.driveRelease (c.byte 20) := ⟨_, rfl⟩
  obtain ⟨hself, htouch⟩ := Dev.driveRelease_moving (d := s.fresh) hst he
  exact ⟨e, he ▸ exec_driveRelease ha hm h5, hself, State.keeps_of_touches htouch⟩

section
variable (h1 : c.byte 21 = 1) (hkind : s.dev.driveKind (c.byte 20) = 2) (hlo : -8388608 ≤ (driveTarget c).toInt)
  (hhi : (driveTarget c).toInt < 8388608) (hst : (s.dev.drv (c.byte 20)).st = .ready)
  (hfree : s.dev.driveFree c = true) (hlim : s.dev.driveLimited c = false)
include h1 hkind hlo hhi hst hfree hlim

theorem auxDrive_moves (hp : bitAt (c.byte 22) 0 = false) (hv : rampValid (s.dev.rampPlanned (8 + c.byte 20)) = true) :
    Completes (.auxDrive c) c 0xA0 stOk s fun d => (d.drv (c.byte 20)).st = .moving ∧
      d.prof.ops = s.dev.prof.ops ++ [.start (8 + c.byte 20) (driveTarget c) none false] ∧
      Dev.Keeps [.prof, .aux] s.dev d := by
  obtain ⟨e, he⟩ : ∃ e, e = s.fresh.driveMove (c.byte 20) (driveTarget c) none := ⟨_, rfl⟩
  obtain ⟨hmoving, hops, htouch⟩ := Dev.driveMove_spec (d := s.fresh) hst he
  exact ⟨e, he ▸ exec_driveMove ha hm h1 hkind hlo hhi hfree hlim hp hv, hmoving, hops, State.keeps_of_touches htouch⟩

theorem auxDrive_moves_params (hp : bitAt (c.byte 22) 0 = true) (he : c.bufErr = false)
    (hv : rampValid (bufRamp c) = true) : ∃ d : Dev,
      exec (.auxDrive c) s = .next (s.after (d.completeRes c 0xA0 stOk 36 [])) ∧ (d.drv (c.byte 20)).st = .moving ∧
      d.prof.ops = s.dev.prof.ops ++ [.start (8 + c.byte 20) (driveTarget c) (some (bufRamp c)) false] ∧
      Dev.Keeps [.prof, .aux] s.dev d := by
  obtain ⟨e, hrun⟩ : ∃ e, e = s.fresh.driveMove (c.byte 20) (driveTarget c) (some (bufRamp c)) := ⟨_, rfl⟩
  obtain ⟨hmoving, hops, htouch⟩ := Dev.driveMove_spec (d := s.fresh) hst hrun
  exact ⟨e, hrun ▸ exec_driveMove_params ha hm h1 hkind hlo hhi hfree hlim hp he hv, hmoving, hops,
    State.keeps_of_touches htouch⟩

end

section
variable (h2 : c.byte 21 = 2) (hkind : s.dev.driveKind (c.byte 20) = 1) (hst : (s.dev.drv (c.byte 20)).st = .ready)
  (hl : s.dev.limitActive (c.byte 20) (decide (0 ≤ (driveTarget c).toInt)) = false)
include h2 hkind hst hl

theorem auxDrive_runs (hp : bitAt (c.byte 22) 0 = false) (hv : rampValid (s.dev.rampPlanned (8 + c.byte 20)) = true) :
    Completes (.auxDrive c) c 0xA0 stOk s fun d =>
      (d.drv (c.byte 20)).st = .moving ∧ (d.drv (c.byte 20)).running = true ∧
      (d.drv (c.byte 20)).negRun = decide ((driveTarget c).toInt < 0) ∧
      (d.prf (8 + c.byte 20)).wraps = true ∧ Dev.Keeps [.prof, .aux] s.dev d := by
  obtain ⟨e, he⟩ : ∃ e, e = s.fresh.driveRun (c.byte 20) (decide ((driveTarget c).toInt < 0)) none := ⟨_, rfl⟩
  obtain ⟨hmoving, hrun, hneg, hwraps, htouch⟩ := Dev.driveRun_spec he
  exact ⟨e, he ▸ exec_driveRun ha hm h2 hkind hst hl hp hv, hmoving, hrun, hneg, hwraps, State.keeps_of_touches htouch⟩

theorem auxDrive_runs_params (hp : bitAt (c.byte 22) 0 = true) (he : c.bufErr = false)
    (hv : rampValid (bufRamp c) = true) : ∃ d : Dev,
      exec (.auxDrive c) s = .next (s.after (d.completeRes c 0xA0 stOk 36 [])) ∧ (d.drv (c.byte 20)).st = .moving ∧
      (d.drv (c.byte 20)).running = true ∧ (d.drv (c.byte 20)).negRun = decide ((driveTarget c).toInt < 0) ∧
      Dev.Keeps [.prof, .aux] s.dev d := by
  obtain ⟨e, hgo⟩ : ∃ e, e = s.fresh.driveRun (c.byte 20) (decide ((driveTarget c).toInt < 0)) (some (bufRamp c)) :=
    ⟨_, rfl⟩
  obtain ⟨hmoving, hrun, hneg, -, htouch⟩ := Dev.driveRun_spec hgo
  exact ⟨e, hgo ▸ exec_driveRun_params ha hm h2 hkind hst hl hp he hv, hmoving, hrun, hneg, State.keeps_of_touches htouch⟩

end

end

/-- Settles O59: the checks in their order, then what each action makes of the drive; the test group by group. -/
theorem driveCommandsComplete : Obligations.DriveCommandsComplete := by
  unfold Obligations.DriveCommandsComplete
  refine ⟨fun c s ha => ⟨fun h => ?_, fun hk hkind hp hlen => ?_, fun hk hkind hp => ?_⟩, fun c pass s ha =>
    ⟨auxSelftest_empty ha, fun g hg hb hi => auxSelftest_busy ha hg hb hi, auxSelftest_tests ha⟩⟩
  · exact auxDrive_missing ha (by unfold Dev.driveMissing; omega)
  · have hm (h : c.byte 21 ≤ 6) := Dev.not_driveMissing_plain (d := s.dev) hk hkind hp hlen h
    refine ⟨fun h0 h => ?_, fun h0 h => ?_, fun h0 hst hk1 hh hpass => ?_, fun h0 hst hk2 hpass => ?_,
      fun h1 hk1 => auxDrive_unfit ha (.inl ⟨h1, .inl hk1⟩), ?_, fun h2 hk1 hl => ?_,
      fun h4 hk1 => auxDrive_unfit ha (.inr (.inr ⟨h4, hk1⟩)), fun h4 hk2 => ⟨?_, ?_, ?_, ?_⟩,
      fun h2 hk1 hst hl hv => ?_, fun h3 hst hi => ?_, fun h5 hst => ?_, fun h6 h => ?_, fun h6 hst hpers => ?_⟩
    · exact auxDrive_enable_rejected ha (hm (by omega)) h0 (.inl h)
    · exact auxDrive_enable_rejected ha (hm (by omega)) h0 (.inr h)
    · exact auxDrive_enable_dead ha (hm (by omega)) h0 hst hpass hk1 hh
    · exact auxDrive_enables ha (hm (by omega)) h0 hst hpass hk2
    · rintro _ rfl h1 hk2 hlo hhi
      refine ⟨fun h => auxDrive_move_limited ha (hm (by omega)) h1 hk2 hlo hhi h, fun hst hpos hneg hv => ?_⟩
      obtain ⟨hfree, hlim⟩ := Dev.driveFree_move hst h1 hpos hneg
      exact auxDrive_moves ha (hm (by omega)) h1 hk2 hlo hhi hst hfree hlim hp hv
    · exact auxDrive_run_limited ha (hm (by omega)) h2 hk1 hl
    · exact fun hr hs => auxDrive_home_rejected ha (hm (by omega)) h4 hk2 hr hs
    · exact fun hst hv => auxDrive_home_bad ha (hm (by omega)) h4 hk2 hst hv
    · exact fun hst hv => auxDrive_homes ha (hm (by omega)) h4 hk2 hv hst
    · exact fun hst hc hv => auxDrive_home_charges ha (hm (by omega)) h4 hk2 hv hst hc
    · exact auxDrive_runs ha (hm (by omega)) h2 hk1 hst hl hp hv
    · exact auxDrive_stops ha (hm (by omega)) h3 hst hi
    · exact auxDrive_releases ha (hm (by omega)) h5 hst
    · exact auxDrive_clear_rejected ha (hm (by omega)) h6 h
    · exact auxDrive_clears ha (hm (by omega)) h6 hst hpers
  · have hm (hlen : c.len.toNat = 36) (h : c.byte 21 = 1 ∨ c.byte 21 = 2) :=
      Dev.not_driveMissing_params (d := s.dev) hk hkind hp hlen h
    refine ⟨fun h1 h2 => auxDrive_missing ha ?_, fun hlen => auxDrive_missing ha ?_, ?_, ?_⟩
    · exact .inr (.inr (.inr (.inr ⟨hp, decide_eq_false (not_or.2 ⟨h1, h2⟩)⟩)))
    · exact .inr (.inr (.inr (.inl (by rwa [if_pos hp]))))
    · rintro _ rfl hlen h1 hk2 hlo hhi hst hpos hneg
      obtain ⟨hfree, hlim⟩ := Dev.driveFree_move hst h1 hpos hneg
      have hm' := hm hlen (.inl h1)
      exact ⟨fun he => auxDrive_move_unread ha hm' h1 hk2 hlo hhi hfree hlim hp he,
        fun he hv => auxDrive_move_badRamp ha hm' h1 hk2 hlo hhi hfree hlim hp he hv,
        fun he hv => auxDrive_moves_params ha hm' h1 hk2 hlo hhi hst hfree hlim hp he hv⟩
    · rintro _ rfl hlen h2 hk1 hst hl he hv
      exact auxDrive_runs_params ha (hm hlen (.inr h2)) h2 hk1 hst hl hp he hv

end Sys2Proof.Machine
end
